-- ==== Sys2Proof/Word.lean ====
section
/-! DEFINITION. The word types of the block (R2, R3, R386): registers are 32-bit, stamps are 64-bit. -/

namespace Sys2Proof

/-- A BAR0 register or a BAR2 table word. -/
abbrev Word := BitVec 32

/-- A stamp, an epoch, or one of the two words of a 16-byte item. -/
abbrev Word64 := BitVec 64

/-- A byte of the NOR flash, of the service buffer or of a DMA message. -/
abbrev Byte := BitVec 8

end Sys2Proof
end

