-- ==== Sys2Proof/Syntax.lean ====
section
/-! DEFINITION. The commands the block takes: one constructor per row of spec/opcode_table.json, in the
table's order. The first operand `t` of every command is the coarse edge (counted from the release of
PORST_N) at which the step takes place; the other operands are what the step takes from outside the
block. -/

namespace Sys2Proof

/-- The two paths on which host accesses arrive (R342, R348). -/
inductive Path where
  | pcie
  | spi
  deriving DecidableEq, Repr

/-- The outcome of a descriptor fetch from host memory (R356): the two fields the host wrote, or a completion
with Unsupported Request or Completer Abort. -/
inductive FetchResult where
  | descriptor (bufAddr : Word64) (bufLen : Word)
  | failed
  deriving DecidableEq, Repr

/-- What a cell step measured (R314, R318): codes per coarse period in eighths, the code-density test, and
the largest DNL and INL magnitudes in thousandths of a code. `sel` is the cell selection found best. -/
structure CellResult where
  codes8 : Nat
  missingCode : Bool
  nonMonotonic : Bool
  dnlMilli : Nat
  inlMilli : Nat
  sel : Nat
  deriving DecidableEq, Repr

/-- What a comparator step measured (R315, R318): the spare pair with the smallest offset, its offset magnitude
and that of the pair in service, in microvolts. -/
structure PairResult where
  pair : Nat
  offsetUv : Nat
  serviceUv : Nat
  deriving DecidableEq, Repr

/-- What a tap step measured (R317, R318): the tap choice, g16, the tap linearity, and two successive
measurements of d_out in qps. -/
structure TapResult where
  taps : Nat
  g16 : Nat
  monotonic : Bool
  dnlMilli : Nat
  dOut1 : Int
  dOut2 : Int
  deriving DecidableEq, Repr

/-- What the code of a lane codeword came to (R154, R155): decoded with a number of corrected symbols, at most 15, and of
blocks with a framing error, or not decodable, with the number of words it touched. A codeword touches at most 79 blocks. -/
inductive CodewordResult where
  | decoded (corrected : Fin 16) (framingErrors : Fin 80)
  | failed (wordsLost : Fin 80)
  deriving DecidableEq, Repr

/-- The error state of a word that a microword fetched: the microword itself, or its nanoword (R284, R285). -/
inductive StoreEcc where
  | clean
  | corrected
  | uncorrectable
  deriving DecidableEq, Repr

/-- How the error checks of the two words that a microword fetches came out: its own, and its nanoword's (R284, R285). -/
structure FetchEcc where
  micro : StoreEcc
  nano : StoreEcc
  deriving DecidableEq, Repr

/-- A synthesis loop, 0 PLL_T or 1 PLL_C, and a phase error at its detector in qps (R47). -/
structure LoopErr where
  loop : Fin 2
  err : Nat
  deriving DecidableEq, Repr

/-- The data words of a cascade transfer, and how many codewords of it failed (R154, R247). -/
structure CasData where
  words : List Word64
  lost : Nat
  deriving DecidableEq, Repr

/-- One command per row of the table. -/
inductive Instr where
  -- host access
  | registerWrite (t : Nat) (p : Path) (addr : Nat) (full : Bool) (v : Word)
  | stagedWrite (t : Nat) (p : Path) (addr : Nat) (v : Word)
  | tableWrite (t : Nat) (off : Nat) (vs : List Word)
  | splitReadLo (t : Nat) (p : Path) (addr : Nat)
  | splitReadHi (t : Nat) (p : Path) (addr : Nat)
  | pageStatRead (t : Nat) (p : Path) (slot : Fin 1024)
  | resSnapshotRead (t : Nat) (p : Path) (stat : Bool)
  | resWindowRead (t : Nat) (p : Path) (stat : Bool) (k : Fin 32)
  | bbrEntRead (t : Nat) (p : Path)
  | pageEvtClear (t : Nat) (p : Path) (slot : Fin 1024) (v : Word)
  | pageReset (t : Nat) (p : Path) (slot : Fin 1024)
  | pageResetComplete (t : Nat) (slot : Fin 1024)
  | pageEnable (t : Nat) (p : Path) (slot : Fin 1024) (en : Bool)
  -- commit and barrier
  | commit (t : Nat) (p : Path)
  | discard (t : Nat) (p : Path)
  | dormant (t : Nat) (p : Path)
  | commitValidated (t : Nat)
  | commitApplied (t : Nat)
  | barrier (t : Nat) (p : Path)
  | barrierComplete (t : Nat)
  | barrierRead (t : Nat) (p : Path)
  -- STOP
  | stopDoorbell (t : Nat) (v : Word)
  | releaseDoorbell (t : Nat) (v : Word)
  | stopNAssert (t : Nat)
  | stopNRelease (t : Nat)
  | stopOn (t : Nat)
  | stopOff (t : Nat)
  -- management SPI
  | spiRead (t : Nat) (addr : BitVec 24) (whole ready : Bool)
  | spiWrite (t : Nat) (addr : BitVec 24) (v : Word) (whole : Bool)
  | spiStatus (t : Nat) (whole : Bool)
  | spiStop (t : Nat) (key : BitVec 16) (whole : Bool)
  | spiRelease (t : Nat) (key : BitVec 16) (whole : Bool)
  -- DMA
  | tailWrite (t : Nat) (ch : Fin 64) (v : Word)
  | dmaMessageQueued (t : Nat) (ch : Fin 64)
  | descriptorFetch (t : Nat) (ch : Fin 64) (r : FetchResult)
  | bufferComplete (t : Nat) (ch : Fin 64)
  | dmaDisableDone (t : Nat) (ch : Fin 64)
  | irqTimeExpire (t : Nat) (ch : Fin 64)
  -- reset and boot
  | pciePerst (t : Nat)
  | porstAssert (t : Nat)
  | porstRelease (t : Nat) (sealStrap : Bool)
  | firmwareLoaded (t : Nat)
  | calCopyLoad (t : Nat)
  | patchCheck (t : Nat)
  | hbmTrained (t : Nat)
  | bbrScan (t : Nat)
  | awaitingReached (t : Nat)
  -- service and black box
  | fuse (t : Nat) (p : Path) (key : BitVec 16)
  | updBegin (t : Nat) (p : Path) (target : BitVec 2)
  | updChunk (t : Nat) (p : Path)
  | updFinish (t : Nat) (p : Path)
  | service (t : Nat) (p : Path)
  | svcDone (t : Nat) (nvmError : Bool)
  | bbrDump (t : Nat) (p : Path) (ch : Fin 64)
  | bbrEntryProgrammed (t : Nat)
  | bbrSectorErased (t : Nat)
  | monSample (t : Nat) (millivolts : List (BitVec 16)) (temps : List (BitVec 16))
  -- calibration
  | calFullRun (t : Nat) (p : Path) (store : Bool)
  | calChannelRun (t : Nat) (p : Path) (ch : BitVec 7) (store : Bool)
  | calStore (t : Nat) (p : Path)
  | tempSample (t : Nat) (temp : BitVec 16)
  | calRunStart (t : Nat)
  | calChannelStart (t : Nat) (ch : Fin 102)
  | calCellStep (t : Nat) (ch : Fin 102) (r : CellResult)
  | calComparatorStep (t : Nat) (ch : Fin 102) (r : PairResult)
  | calPinStep (t : Nat) (ch : Fin 102) (d1 d2 : Int)
  | calTapStep (t : Nat) (ch : Fin 102) (r : TapResult)
  | tapBankSwitch (t : Nat) (ch : Fin 102)
  | tapSwitchTimeout (t : Nat) (ch : Fin 102)
  | calChannelEnd (t : Nat) (ch : Fin 102)
  | calRunDone (t : Nat)
  | calStoreDone (t : Nat) (readBackOk : Bool)
  | calStoreDeferExpire (t : Nat)
  -- reference loop, synthesis and clock outputs
  | refEdge (t : Nat) (x : Fin 4) (rising : Bool) (q : Nat)
  | refEdgeMissing (t : Nat) (x : Fin 4)
  | refWindowEnd (t : Nat) (x : Fin 4)
  | refQualified (t : Nat) (x : Fin 4)
  | refTick (t : Nat)
  | pullDone (t : Nat)
  | pllLock (t : Nat) (loop : LoopErr)
  | pllLockLoss (t : Nat) (loop : LoopErr)
  | oscLoss (t : Nat)
  | oscReturn (t : Nat)
  | ckoApply (t : Nat)
  -- Solstice
  | syncInEdge (t : Nat) (rising : Bool) (q : Nat)
  | now (t : Nat) (p : Path)
  | atGo (t : Nat) (p : Path)
  | cancel (t : Nat) (p : Path)
  | arm (t : Nat) (p : Path)
  | partnerSolstice (t : Nat) (epoch : Word64)
  | solstice (t : Nat)
  | syncOutRise (t : Nat)
  | syncOutFall (t : Nat)
  | wrap (t : Nat)
  -- time transfer
  | ttlMarker (t : Nat) (link : Fin 33) (teOut : Nat)
  | ttlReport (t : Nat) (link : Fin 33) (rx tx : Word64)
  | ttlExchange (t : Nat) (link : Fin 33) (teIn : List (Nat × Nat))
  -- timing inputs and forwarders
  | tinEdge (t : Nat) (ch : Fin 64) (rising : Bool) (q : Nat)
  | tinFifoDeliver (t : Nat) (ch : Fin 64)
  | rotationEquinoxStart (t : Nat) (ch : Fin 102)
  | gateRequest (t : Nat) (ch : Fin 64)
  | equinoxDone (t : Nat) (ch : Fin 102) (codes1 codes2 : List Nat)
  | swapWindowClose (t : Nat) (ch : Fin 102)
  | forwardStamp (t : Nat) (die : Fin 2)
  | forwardDequeue (t : Nat) (die : Fin 2)
  -- measurement
  | measStamp (t : Nat)
  | measLaneStamp (t : Nat)
  | timerGateRequest (t : Nat) (slot : Fin 1024)
  | timerGateEdge (t : Nat) (slot : Fin 1024)
  | gateLengthLimit (t : Nat) (slot : Fin 1024)
  | gateComplete (t : Nat) (slot : Fin 1024)
  -- timing outputs
  | plPush (t : Nat) (p : Path) (ch : Fin 32) (v : Word)
  | placementArrive (t : Nat) (ch : Fin 32)
  | placementHead (t : Nat) (ch : Fin 32)
  | placementLaunch (t : Nat) (ch : Fin 32)
  | toutTransition (t : Nat) (ch : Fin 32) (q : Nat)
  | generatorPulse (t : Nat) (ch : Fin 32)
  -- event lanes
  | laneCodeword (t : Nat) (ln : Fin 64) (r : CodewordResult)
  | laneCwLock (t : Nat) (ln : Fin 64)
  | laneAlignLoss (t : Nat) (ln : Fin 64)
  | laneSignalLoss (t : Nat) (ln : Fin 64)
  | hit (t : Nat) (ln : Fin 64) (w : Word64)
  | mark (t : Nat) (ln : Fin 64) (w : Word64)
  | health (t : Nat) (ln : Fin 64) (w : Word64)
  | ident (t : Nat) (ln : Fin 64) (w : Word64)
  | unit (t : Nat) (ln : Fin 64) (w : Word64)
  | poll (t : Nat) (ln : Fin 64) (w : Word64)
  | ack (t : Nat) (ln : Fin 64) (w : Word64)
  | pollTx (t : Nat) (ln : Fin 64)
  | credit (t : Nat) (ln : Fin 64)
  | ackTimeout (t : Nat) (ln : Fin 64)
  | registrationTimeout (t : Nat) (ln : Fin 64)
  | laneRetry (t : Nat) (ln : Fin 64)
  -- rebase and binning
  | rebaseHit (t : Nat) (ln : Fin 64)
  | modelAgeExpire (t : Nat) (ln : Fin 64)
  | binRelease (t : Nat) (plane : Fin 4)
  -- correlator
  | harvest (t : Nat) (ctx : Fin 512) (ladder : Bool)
  | arrayTileFault (t : Nat) (ctx : Fin 512) (i j : Fin 2048) (lag : Fin 16) (die : Fin 2)
  | spareTestFail (t : Nat) (die : Fin 2)
  -- histograms
  | histStamp (t : Nat) (df : Fin 65536)
  | histMissWriteback (t : Nat) (die : Fin 2)
  | snap (t : Nat) (p : Path) (ctx : Fin 512) (at' : Bool)
  | snapClear (t : Nat) (p : Path) (ctx : Fin 512) (at' : Bool)
  | clear (t : Nat) (p : Path) (ctx : Fin 512) (at' : Bool)
  | periodicCut (t : Nat) (ctx : Fin 512)
  | cut (t : Nat) (ctx : Fin 512)
  | snapDone (t : Nat) (ctx : Fin 512) (die : Fin 2)
  -- blocked mode and cascade
  | signalBlockComplete (t : Nat) (ctx : Fin 512)
  | casTransfer (t : Nat) (header : List Word64) (data : CasData)
  | blockDeadline (t : Nat) (ctx : Fin 512)
  | blockProcessed (t : Nat) (ctx : Fin 512)
  | casIdle (t : Nat) (w : Word64)
  | casHopLost (t : Nat)
  | casRetry (t : Nat)
  -- contexts and triggers
  | start (t : Nat) (p : Path) (ctx : Fin 512)
  | stop (t : Nat) (p : Path) (ctx : Fin 512)
  | poke (t : Nat) (p : Path) (ctx : Fin 512)
  | admissionDone (t : Nat)
  | conditionEvent (t : Nat)
  | holdoffExpire (t : Nat) (ctx : Fin 512)
  | autoTrigger (t : Nat) (ctx : Fin 512)
  | timerExpire (t : Nat) (ctx : Fin 512) (k : Fin 4)
  | dispatch (t : Nat) (ctx : Fin 512)
  -- microcode
  | microword (t : Nat) (ctx : Fin 512) (ecc : FetchEcc)
  | watchdog (t : Nat) (ctx : Fin 512)
  | microwordWrite (t : Nat) (a : Fin 16384) (v : Word)
  | nanowordPartWrite (t : Nat) (a : Fin 2048) (k : Fin 3) (v : Word)
  | nanowordWord3Write (t : Nat) (a : Fin 2048) (v : Word)
  -- records
  | recordItem (t : Nat) (ctx : Fin 512)
  | segmentPostEnd (t : Nat) (ctx : Fin 512)
  | rearm (t : Nat) (ctx : Fin 512)
  | preFilled (t : Nat) (ctx : Fin 512)
  | streamMessageCut (t : Nat) (ctx : Fin 512)
  -- pair
  | claimSof (t : Nat)
  | claimSofSeen (t : Nat)
  | claimFrame (t : Nat) (claim : BitVec 8) (fseq : BitVec 4) (crc : BitVec 8)
  | busFault (t : Nat)
  | thawTimeout (t : Nat)
  | pairState (t : Nat) (claim : BitVec 8) (cause : Word) (clkState : Word) (unitId : BitVec 3)
  | pairStateTx (t : Nat)
  | mirror (t : Nat) (entries : List (Word × Word))
  | mirrorTx (t : Nat)
  | pairLinkTimeout (t : Nat)
  | pairLaneLoss (t : Nat) (lane : Fin 2)
  deriving DecidableEq, Repr

end Sys2Proof
end

