-- ==== Sys2Proof/Decode.lean ====
section
/-! DEFINITION. The opcode table gives none of its rows any bits: the commands of this block are host accesses, pins, ports and
events, and no word spells one. -/

namespace Sys2Proof

/-- The command that a word spells by the table's bits: none does. DESIGN CHOICE (log entry 51). -/
def decodeTableWord (_nbits _w : Nat) : Option Instr := none

end Sys2Proof
end

