-- ==== Sys2Proof/Machine/Bits.lean ====
section
/-! DEFINITION. Bit fields, signed readings and byte order: the helpers every page's layout is read with
(registers and tables are little-endian, 00_scope.md "Registers and fields"). -/

namespace Sys2Proof.Machine

/-- Bits `lo + w - 1 : lo` of a word, as a number. -/
def fld (v : Word) (lo w : Nat) : Nat := (v.toNat >>> lo) % 2 ^ w

/-- Bit `i` of a word. -/
def bit (v : Word) (i : Nat) : Bool := v.getLsbD i

/-- `n` placed at bits `lo + w - 1 : lo` of an otherwise zero word; higher bits of `n` are cut. -/
def put (n lo w : Nat) : Word := BitVec.ofNat 32 ((n % 2 ^ w) <<< lo)

/-- Bits `lo + w - 1 : lo` of `v` replaced by `n`. -/
def setFld (v : Word) (lo w n : Nat) : Word := (v &&& ~~~(put (2 ^ w - 1) lo w)) ||| put n lo w

/-- A Bool as a bit value. -/
def b2n (b : Bool) : Nat := if b then 1 else 0

/-- Bits `lo + w - 1 : lo` of a number. -/
def nfld (n lo w : Nat) : Nat := (n >>> lo) % 2 ^ w

/-- `n` read as a two's-complement number of `w` bits. -/
def signed (w n : Nat) : Int := if n % 2 ^ w < 2 ^ (w - 1) then (n % 2 ^ w : Nat) else (n % 2 ^ w : Nat) - 2 ^ w

/-- The low `w` bits of an integer, as two's complement. -/
def unsign (w : Nat) (i : Int) : Nat := (i % 2 ^ w).toNat

/-- Reduction modulo 2^64 (R59). -/
def m64 (i : Int) : Nat := unsign 64 i

/-- A difference of stamps, modulo 2^64 and read as signed (R59, R227). -/
def sdiff (a b : Nat) : Int := signed 64 (m64 ((a : Int) - (b : Int)))

/-- Saturating count at `w` bits (R26). -/
def satAdd (w n k : Nat) : Nat := min (n + k) (2 ^ w - 1)

/-- Clamp to the signed range of `w` bits. -/
def satSigned (w : Nat) (i : Int) : Int := max (-(2 ^ (w - 1))) (min i (2 ^ (w - 1) - 1))

/-- Ceiling division. -/
def cdiv (a b : Nat) : Nat := (a + b - 1) / b

/-- Round the quotient of two integers to nearest, ties to even (R410); `d` is positive. -/
def rne (n : Int) (d : Nat) : Int :=
  let q := n / (d : Int)
  let r := (n % (d : Int)).toNat
  if 2 * r < d then q
  else if 2 * r > d then q + 1
  else if q % 2 = 0 then q else q + 1

/-- Little-endian bytes of a number, `k` of them. -/
def leBytes : Nat → Nat → List Byte
  | 0, _ => []
  | k + 1, n => BitVec.ofNat 8 n :: leBytes k (n / 256)

/-- The number that little-endian bytes spell. -/
def ofLeBytes : List Byte → Nat
  | [] => 0
  | b :: bs => b.toNat + 256 * ofLeBytes bs

/-- A 64-bit little-endian word's bytes. -/
def w64 (n : Nat) : List Byte := leBytes 8 n

/-- A 32-bit little-endian word's bytes. -/
def w32 (n : Nat) : List Byte := leBytes 4 n

end Sys2Proof.Machine
end

