-- ==== Sys2Proof/Machine/Float64.lean ====
section
/-! DEFINITION. IEEE 754 binary64 encodings of exact rationals and of their square roots, rounded once to nearest with
ties to even (R129, R410). -/

namespace Sys2Proof.Machine

/-- Quiet NaN (R124). -/
abbrev b64NaN : Nat := 0x7FF8_0000_0000_0000

/-- The integer square root by bits: the largest `r` below `2^k + r0` with `r * r ≤ x`. -/
def isqrtGo : Nat → Nat → Nat → Nat
  | 0, _, r => r
  | k + 1, x, r => isqrtGo k x (if (r + 2 ^ k) * (r + 2 ^ k) ≤ x then r + 2 ^ k else r)

/-- The exponent e with 2^e ≤ n / d < 2^(e + 1), for positive n and d. -/
def ratLog2 (n d : Nat) : Int :=
  let e : Int := (n.log2 : Int) - (d.log2 : Int)
  if 0 ≤ e then (if n < d * 2 ^ e.toNat then e - 1 else e)
  else if n * 2 ^ (-e).toNat < d then e - 1 else e

/-- Scale a fraction by a power of two. -/
def ratScale (n d : Nat) (k : Int) : Nat × Nat :=
  if 0 ≤ k then (n * 2 ^ k.toNat, d) else (n, d * 2 ^ (-k).toNat)

/-- The binary64 bits of a rational; `d` is positive. -/
def ratToB64 (n : Int) (d : Nat) : Nat :=
  let a := n.natAbs
  let sign := if n < 0 then 2 ^ 63 else 0
  if a = 0 then 0
  else
    let e := max (ratLog2 a d) (-1022)
    if e > 1023 then sign + 0x7FF0_0000_0000_0000
    else
      let (p, q) := ratScale a d (52 - e)
      sign + (e + 1022).toNat * 2 ^ 52 + (rne (p : Int) q).toNat

/-- The binary64 bits of the square root of a rational n / d that is not negative; `d` is positive. -/
def sqrtToB64 (n d : Nat) : Nat :=
  if n = 0 then 0
  else
    let e := ratLog2 n d / 2
    let (p, q) := ratScale n d (2 * (52 - e))
    let r := isqrtGo 54 (p / q) 0
    let m := if 4 * p < (2 * r + 1) * (2 * r + 1) * q then r
      else if 4 * p > (2 * r + 1) * (2 * r + 1) * q then r + 1
      else if r % 2 = 0 then r else r + 1
    (e + 1022).toNat * 2 ^ 52 + m

/-- A sum of rationals over one common denominator. -/
def ratSum : List (Int × Nat) → Int × Nat
  | [] => (0, 1)
  | (n, d) :: r =>
    let (m, e) := ratSum r
    if d = e then (n + m, d) else (n * e + m * d, d * e)

/-- Whether one rational is below another; denominators positive. -/
def ratLt (x y : Int × Nat) : Bool := decide (x.1 * y.2 < y.1 * x.2)

/-- The difference of two rationals. -/
def ratSub (x y : Int × Nat) : Int × Nat := (x.1 * y.2 - y.1 * x.2, x.2 * y.2)

/-- The mean of a list of rationals, or NaN for none (R124). -/
def b64Mean (l : List (Int × Nat)) : Nat :=
  if l.isEmpty then b64NaN else let (n, d) := ratSum l; ratToB64 n (d * l.length)

/-- The standard deviation with divisor one less than the count, or NaN below two values (R124, R129). -/
def b64Std (l : List (Int × Nat)) : Nat :=
  if l.length < 2 then b64NaN
  else
    let k := l.length
    let (n, d) := ratSum l
    let (sn, sd) := ratSum (l.map fun x => (x.1 * x.1, x.2 * x.2))
    -- (Σx² − (Σx)²/k) / (k − 1)
    let num := sn * (d * d * k : Nat) - n * n * (sd : Nat)
    sqrtToB64 num.toNat (sd * (d * d * k) * (k - 1))

/-- The smallest and the largest of a list, or NaN for none. -/
def b64Min (l : List (Int × Nat)) : Nat :=
  match l with
  | [] => b64NaN
  | x :: r => let m := r.foldl (fun a b => if ratLt b a then b else a) x; ratToB64 m.1 m.2
def b64Max (l : List (Int × Nat)) : Nat :=
  match l with
  | [] => b64NaN
  | x :: r => let m := r.foldl (fun a b => if ratLt a b then b else a) x; ratToB64 m.1 m.2

end Sys2Proof.Machine
end

