-- ==== Sys2Proof/Config.lean ====
section
/-! DEFINITION. What the spec leaves open as a value: opaque constants with no body, applied to operands or to the
counter `State.freeCtr`, which the step that uses one advances. What it reads by inference or chooses: log entry 6. -/

namespace Sys2Proof.Config

/-- A value the spec leaves open at some use (a fresh one at each count). -/
opaque freeNat : Nat → Nat

/-- The steering word the loop filter answers with (R39: the filter's own transient is not stated). -/
opaque filterWord : Nat → Int

/-- Whether an ECDSA P-384 signature by Denoaris verifies over a text (R291, R368, R380): the key is in fuses and
the spec does not give it. -/
opaque signatureOk : List Byte → List Byte → Bool

/-- AES-256-GCM decryption under the fused key: ciphertext, additional data, initialisation vector and tag, to the
plaintext, or none where the tag does not match (R290, R291). -/
opaque gcmOpen : List Byte → List Byte → List Byte → List Byte → Option (List Byte)

/-- The vendor region of the microstore (R272, R273): its ROM contents are not given. -/
opaque romMicro : Nat → Word

/-- The vendor region of the nanostore (R272, R273). -/
opaque romNano : Nat → BitVec 128

/-- A fresh NONCE after a SERVICE command (R380). -/
opaque nonce : Nat → Word

/-- A NOR byte that a torn operation left: it may differ from read to read (19_startup_power_and_black_box.md,
"What a slot reads after a failure"). -/
opaque tornByte : Nat → Byte

/-- The spare array tiles of a die beyond the first (R16: their number is not given). -/
opaque spareTiles : Nat → Nat

end Sys2Proof.Config
end

