-- ==== Sys2Proof/Machine/RegMap.lean ====
section
/-! DEFINITION. Sparse storage by address in one canonical form: addresses strictly rising, and no entry equal to
what an unlisted address reads as. Registers (R386), table words (R390), NOR bytes and ECC-free stores all use it. -/

namespace Sys2Proof.Machine

/-- What is stored at `a`, or `d` where nothing is listed. -/
def Sparse.get {α : Type} (d : α) : List (Nat × α) → Nat → α
  | [], _ => d
  | (k, v) :: r, a => if k = a then v else Sparse.get d r a

/-- Put a pair at its place in a list of rising addresses. -/
def Sparse.ins {α : Type} (a : Nat) (v : α) : List (Nat × α) → List (Nat × α)
  | [] => [(a, v)]
  | (k, w) :: r => if a < k then (a, v) :: (k, w) :: r else (k, w) :: Sparse.ins a v r

/-- Drop every entry of an address. -/
def Sparse.del {α : Type} (a : Nat) : List (Nat × α) → List (Nat × α)
  | [] => []
  | (k, v) :: r => if k = a then Sparse.del a r else (k, v) :: Sparse.del a r

/-- Store `v` at `a`; `d` is what `a` reads as when unlisted. -/
def Sparse.set {α : Type} [DecidableEq α] (d : α) (m : List (Nat × α)) (a : Nat) (v : α) : List (Nat × α) :=
  if v = d then Sparse.del a m else Sparse.ins a v (Sparse.del a m)

/-- Addresses rise strictly. -/
def Sparse.rising {α : Type} : List (Nat × α) → Bool
  | [] => true
  | [_] => true
  | (k, _) :: (l, w) :: r => decide (k < l) && Sparse.rising ((l, w) :: r)

/-- No entry equals what its address reads as when unlisted. -/
def Sparse.lean {α : Type} [DecidableEq α] (d : Nat → α) (m : List (Nat × α)) : Bool :=
  m.all fun e => decide (e.2 ≠ d e.1)

/-- The canonical form. -/
def Sparse.wf {α : Type} [DecidableEq α] (d : Nat → α) (m : List (Nat × α)) : Bool :=
  Sparse.rising m && Sparse.lean d m

/-- The value stored at `a`, if any entry names it. -/
def Sparse.find {α : Type} : List (Nat × α) → Nat → Option α
  | [], _ => none
  | (k, v) :: r, a => if k = a then some v else Sparse.find r a

/-- Store `v` at `a` whatever `v` is: for a map in which being listed means something (a staged copy, R342). -/
def Sparse.put {α : Type} (m : List (Nat × α)) (a : Nat) (v : α) : List (Nat × α) :=
  Sparse.ins a v (Sparse.del a m)

/-- Store the entries of the first map over the second. -/
def Sparse.over {α : Type} (top base : List (Nat × α)) : List (Nat × α) :=
  top.foldl (fun m e => Sparse.put m e.1 e.2) base

end Sys2Proof.Machine
end

