-- ==== Sys2Proof/Machine/State.lean ====
section
/-! DEFINITION. The whole state of the block as plain data, and its state after reset. Register words and table
words stand at their addresses in sparse maps (`regs`, `tab`); what the spec gives a block beside its registers stands in
one structure per block. Instances that hold their reset value are not listed. -/

namespace Sys2Proof.Machine

/-- A fault of the model. No command of this block faults: the spec's own faults are event bits, counters and
status codes of the state. The one constructor is raised by nothing (safe). -/
inductive Fault where
  /-- Raised by no command; the type is not empty so that an outcome can be written (safe). -/
  | none'
  deriving DecidableEq, Repr

/-- A refusal of the model. -/
inductive Refusal where
  /-- Raised by exec for a command that has no meaning yet (safe: the machine stops). No command of this
  package is left so. -/
  | notModelled (mnemonic : String)
  deriving DecidableEq, Repr

/-! ### Items -/

/-- A stamp on its way through the device (R98): `phys` is its instant in qps on the unbroken count since the release
of PORST_N, by which stamps are ordered; `time` is the epoch value it carries. -/
structure Stamp where
  src : Nat
  phys : Int
  time : Nat
  rising : Bool
  flags : Nat
  seq : Nat
  deriving DecidableEq, Repr

/-- Whose buffer a DMA message occupies until its transfer completes (R213, R237, R246, R306, R378). -/
inductive MsgSrc where
  | meas (slot ctx : Nat)
  | harvest (ctx : Nat)
  | ladder (ctx : Nat)
  | snapshot (ctx die : Nat)
  | record (ctx : Nat)
  | dump
  deriving DecidableEq, Repr

/-- A DMA message (R352): its KIND and its bytes. -/
structure Msg where
  kind : Nat
  body : List Byte
  src : MsgSrc
  /-- A record still being written: more bytes follow (R307). -/
  more : Bool := false
  deriving DecidableEq, Repr

/-- A host access that waits (R347, R351). -/
inductive HostAcc where
  | write (p : Path) (addr : Nat) (v : Word)
  | read (p : Path) (addr : Nat)
  | table (off : Nat) (vs : List Word)
  | tail (ch : Nat) (v : Word)
  deriving DecidableEq, Repr

/-- What the block sends out: an append-only record of its ports, newest first. -/
inductive Output where
  | reply (p : Path) (v : Word)
  | msix (vector : Nat)
  | hostData (ch : Nat) (addr : Nat) (bytes : List Byte)
  | completion (ch idx doneLen status mseq : Nat)
  | laneWord (ln : Nat) (w : Word64)
  | spiBytes (bytes : List Byte)
  | pairState (claim cause clkState unitId : Nat)
  | pairTtl (rx tx : Nat)
  | pairSolstice (epoch : Nat)
  | pairMirror (entries : List (Nat × Nat))
  | casTransfer (header data : List Nat)
  | casIdle (w : Nat)
  | toutBall (ch : Nat) (high : Bool) (edge : Int) (code : Nat)
  | syncOut (high : Bool) (edge : Nat)
  | teOut (edge : Nat)
  | claimSof (claim : Nat) (edge : Nat)
  deriving DecidableEq, Repr

/-! ### Stampers (04_timing_inputs.md; R145, R310) -/

/-- An interpolator's scale from its last passing Equinox (R83), and its cell selection (R314). -/
structure Interp where
  q1 : Nat := 0
  q2 : Nat := 0
  f16 : Nat := 0
  cell : Nat := 0
  deriving DecidableEq, Repr

/-- An Equinox in progress on the out-of-service interpolator (R87, R90, R93). -/
structure Eqx where
  start : Nat
  gate : Bool
  deriving DecidableEq, Repr

/-- One stamper: a TIN channel, the echo stamper of a TOUT channel, or a REF, SYNC_IN or PAIR_TE_IN stamper, numbered
as the calibration channels of R310. -/
structure Stamper where
  /-- Interpolators at positions P0, P1, P2. -/
  p0 : Nat := 0
  p1 : Nat := 1
  p2 : Nat := 2
  /-- The out-of-service interpolator (R90). -/
  oos : Nat := 3
  /-- The position the next captured edge is handed to (R81). -/
  nextPos : Nat := 0
  /-- The position in service longest (R90). -/
  oldPos : Nat := 0
  i0 : Interp := {}
  i1 : Interp := {}
  i2 : Interp := {}
  i3 : Interp := {}
  /-- Coarse edge of the last swap of any kind, or of first capture (R90, R103), from which the rotation counts. -/
  lastSwap : Nat := 0
  /-- Whether a swap has opened a window that is still open, and where it began (R92). -/
  windowAt : Option Nat := none
  /-- The position swapped at `lastSwap` and the interpolator that left it (R91). -/
  outgoing : Option (Nat × Nat) := none
  eqx : Option Eqx := none
  /-- A gate request waits for the Equinox after this one (R94). -/
  reqWait : Bool := false
  /-- The edge Y at which READY is set (R93). -/
  yAt : Option Nat := none
  /-- READY: no gate request awaits its swap (R93). -/
  ready : Bool := false
  /-- Equinox failures in succession on the out-of-service interpolator (R89). -/
  fails : Nat := 0
  stuck : Bool := false
  lastPass : Bool := false
  /-- Boot Equinoxes run and passed (R103). -/
  bootRun : Nat := 0
  bootPass : Nat := 0
  /-- Three interpolators have passed and capture may begin (R103). -/
  booted : Bool := false
  /-- The channel cannot capture for lack of three passing interpolators (R103). -/
  bootFail : Bool := false
  /-- Last captured edges, newest first, at most three: instant and slope (R79). -/
  caps : List (Int × Bool) := []
  /-- Last captured edge of each slope (R79). -/
  lastRise : Option Int := none
  lastFall : Option Int := none
  /-- The next candidate of this slope is refused (R80). -/
  refuse : Option Bool := none
  /-- Next sequence number (R97). -/
  seq : Nat := 0
  /-- Marks that a drop owes to the next stamp that enters the FIFO (R99, R409): flag bits of R6. -/
  owed : Nat := 0
  /-- The epoch of the newest stamp, by its origin's coarse edge, and the wraps of that epoch before it (R60, R99). -/
  seen : Nat × Nat := (0, 0)
  /-- Stamps taken whose instant is ahead of the clock (a negative DESKEW, R85), oldest first: number and instant. -/
  ahead : List (Nat × Int) := []
  /-- The measured pin delay in force, and the one that applies at the next swap with its comparator pair (R315). -/
  dPin : Int := 0
  dPinNext : Option (Int × Nat) := none
  pair : Nat := 0
  /-- A calibration run is in progress on the channel (R103, R151). -/
  calRun : Bool := false
  deriving DecidableEq, Repr

/-- A TIN channel beside its stamper (R95, R103). -/
structure Tin where
  fifo : List Stamp := []
  /-- The input's level after its last transition (R262). -/
  level : Bool := false
  /-- The first coarse edge at which the FIFO may deliver again (R95). -/
  nextOut : Nat := 0
  deriving DecidableEq, Repr

/-! ### Time base (02_time_base.md) -/

/-- One reference path (R32, R33, R38). -/
structure Ref where
  qualified : Bool := false
  everQualified : Bool := false
  /-- Some edge has arrived and it came within the last 2 T (R33, `REF_STAT.ACT_x`). -/
  active : Bool := false
  missFail : Bool := false
  freqFail : Bool := false
  misses : Nat := 0
  /-- Coarse edge from which the QUAL_TIME count runs (R33). -/
  okSince : Nat := 0
  /-- Instants of the last selected edge and of the last edge of any polarity, in qps. -/
  lastSel : Option Int := none
  lastAny : Option Int := none
  /-- The window: where it began, its first and last selected edge and how many (R33). -/
  winStart : Nat := 0
  winFirst : Option Int := none
  winLast : Option Int := none
  winCount : Nat := 0
  /-- Interval sums from selected edge to opposite edge in this window, and the mean of the last (R32). -/
  oppSum : Int := 0
  oppCount : Nat := 0
  oppMean : Int := 0
  /-- Under ÷2, the next selected edge is skipped (R32). -/
  skip : Bool := false
  /-- The next selected edge sets the target (R38). -/
  adoptDue : Bool := false
  seq : Nat := 0
  deriving DecidableEq, Repr

/-- The state of the reference loop (`CLK.STATE.LOOP`). -/
inductive LoopMode where
  | winter | pulling | tracking | thaw
  deriving DecidableEq, Repr

/-- A pull in progress (R39): the error at its start, when it began, and the slew in 0.1 ps/s. -/
structure Pull where
  e : Int
  start : Nat
  slew : Nat
  /-- A pair Thaw (R331), with the mode and the active reference to return to. -/
  pair : Option LoopMode := none
  deriving DecidableEq, Repr

/-- The reference loop and the synthesis loops (R35 to R50). -/
structure Loop where
  mode : LoopMode := .winter
  active : Option Nat := none
  steer : Int := 0
  /-- The word held in Winter, and whether a history value exists (R42). -/
  held : Int := 0
  hist : Bool := false
  /-- Spans of TRACKING: steering word and length in coarse periods, newest first (R42). -/
  spans : List (Int × Nat) := []
  /-- Coarse edge from which the present span runs. -/
  spanFrom : Nat := 0
  pull : Option Pull := none
  /-- A new pull starts at the next compared edge (R38, R46). -/
  pullDue : Bool := false
  /-- Last compared error (R38). -/
  err : Int := 0
  winterFrom : Nat := 0
  /-- WINTER_TIME of the last Winter (R44). -/
  winterSecs : Nat := 0
  lockT : Bool := false
  lockC : Bool := false
  /-- Coarse edge up to which PLL_T, and PLL_C, had an input cycle outside the window or none (R47, R48). -/
  outT : Nat := 0
  outC : Nat := 0
  oscOk : Bool := false
  /-- The target of the active reference has changed since the last tick (R46). -/
  changed : Bool := false
  /-- A commit's CLK values wait for the next tick; some commit's have applied (R38, R345). -/
  comm : Bool := false
  ofsSet : Bool := false
  /-- The host has committed a manual SEL that the loop has not taken up (R37). -/
  selPend : Bool := false
  /-- OSC_IN has failed and PLL_T has not relocked (R46). -/
  oscHold : Bool := false
  deriving DecidableEq, Repr

/-- One clock output (R51 to R58). -/
structure Cko where
  gatedLock : Bool := false
  gatedStop : Bool := false
  /-- Instant in qps before which no rising edge of the rule leaves (R49, R54, R55, R58). -/
  from' : Int := 0
  /-- Instant until which a high time begun under the old rule lasts (R54, R55, R58). -/
  highUntil : Int := 0
  /-- The falling edge at which the output stops for want of ENABLE, and for STOP (R55, R58). -/
  offAt : Option Int := none
  stopAt : Option Int := none
  deriving DecidableEq, Repr

/-! ### Solstice and time transfer (03_solstice_and_time_transfer.md) -/

/-- Sources of a Solstice, as `SOL.STAT.LAST_SRC` codes them. -/
inductive SolSrc where
  | syncIn | host | partner
  deriving DecidableEq, Repr

/-- The Solstice logic (R61 to R67). -/
structure Sol where
  armed : Bool := false
  /-- A fixed application edge, and the request taken (R64). -/
  fixed : Option (Nat × SolSrc) := none
  /-- The application edge of a pending AT (R63). -/
  atPend : Option Nat := none
  /-- The last application edge, for the 1 µs rule (R64). -/
  last : Option Nat := none
  lastSrc : SolSrc := .syncIn
  count : Nat := 0
  /-- The request edge and source of the last request taken (R64, one request edge). -/
  reqEdge : Option (Nat × SolSrc) := none
  syncOut : Bool := false
  /-- Edge at which SYNC_OUT falls (R67). -/
  fallAt : Option Nat := none
  /-- SYNC_OUT has risen for the Solstice that waits. -/
  risen : Bool := false
  /-- The coarse edge at which the epoch before this one began (R85). -/
  prevEdge : Nat := 0
  /-- The edge of the last AT_GO that was accepted, and the AT that it withdrew (R63, R64). -/
  goEdge : Option (Nat × Option Nat) := none
  deriving DecidableEq, Repr

/-- One time-transfer link (R69 to R73). -/
structure Ttl where
  /-- t_A,tx of the exchange in progress, in epoch qps (R69). -/
  tx : Option Nat := none
  echo : Option Nat := none
  far : Option Nat := none
  repRx : Option Nat := none
  repTx : Option Nat := none
  /-- Good exchanges in the average, newest first: θ and d, doubled (R69, R72). -/
  avg : List (Int × Int) := []
  valid : Bool := false
  lastFail : Nat := 0
  /-- Coarse edge of the last marker (R71). -/
  marked : Option Nat := none
  deriving DecidableEq, Repr

/-- A stamp forwarder (R12, R387): stamps routed to it, its queue, and the marks a drop owes to a source (R409). -/
structure Fwd where
  routed : List Stamp := []
  queue : List Stamp := []
  owed : List (Nat × Nat) := []
  /-- The coarse edge at which stamps last left, and how many left at it. -/
  outAt : Nat := 0
  outN : Nat := 0
  deriving DecidableEq, Repr

/-! ### Measurement (05_measurement_engine.md) -/

/-- A gate: its bounds on the unbroken count and as epochs, and the stamps of its sources in it (R109 to R118). -/
structure MGate where
  seq : Nat := 0
  openP : Int
  openT : Nat
  closeP : Int := 0
  closeT : Nat := 0
  a : List Stamp := []
  b : List Stamp := []
  /-- Flags of the opening and closing stamps (R126). -/
  flags : Nat := 0
  lateOpen : Bool := false
  edgeLimit : Bool := false
  /-- Ended by STOP (R126). -/
  stopped : Bool := false
  dropped : Bool := false
  contig : Bool := true
  /-- `TIN.CLOSE` of the sources at open and at close (R118). -/
  close0 : List Nat := []
  close1 : List Nat := []
  /-- Edges counted toward an EDGE gate (R109). -/
  edges : Nat := 0
  /-- The statistics block ends with this gate, with TRUNC (R132). -/
  endBlock : Bool := false
  /-- A Solstice at this instant abandons the gate unless a stamp still to come closes it at or before then (R132). -/
  sol : Option Int := none
  deriving DecidableEq, Repr

/-- A gate's contribution to a statistics block: its deviation as a rational, or none when not valid (R124). -/
structure MDev where
  d : Option (Int × Nat)
  flags : Nat
  openT : Nat
  closeT : Nat
  closeP : Int
  /-- The coarse edge at which the gate's epoch began. -/
  orig : Nat
  deriving DecidableEq, Repr

/-- A measurement slot of a running owner. -/
structure MSlot where
  armed : Bool := false
  gate : Option MGate := none
  /-- Closed and not yet complete, oldest first (R114). -/
  closed : List MGate := []
  /-- Gate requests of this slot have been sent, and not every channel is READY yet (R111): the channels to which they are on
  their way, those at which one awaits the next Y, and those at which it awaits the Y after that (R94). -/
  requested : Bool := false
  sent : List Nat := []
  await : List Nat := []
  await2 : List Nat := []
  /-- The instant from which every requested channel is READY (R112). -/
  readyP : Int := 0
  /-- A TIMER gate's next open (R110), and whether its requests have been sent (R111). -/
  nextOpen : Option Nat := none
  reqSent : Bool := false
  /-- A SEQUENCER opening is deferred to READY (R112). -/
  deferred : Bool := false
  prevClose : Option Int := none
  /-- The epoch of the slot's last result, by its origin's coarse edge, and the wraps of that epoch before its close (R126). -/
  seen : Nat × Nat := (0, 0)
  /-- Block sequence number, and the gates of the block in progress, oldest first (R124). -/
  sseq : Nat := 0
  devs : List MDev := []
  /-- Source stamps that a LEVEL or EDGE gate may still claim, oldest first. -/
  recent : List Stamp := []
  /-- Receiver stamps in the lane queue, oldest first, and the coarse edge to which it has been drained (R107). -/
  lane : List Stamp := []
  drained : Nat := 0
  /-- Instants of receiver stamps dropped at the lane queue: DROP of the gates they lie in (R107). -/
  drops : List Int := []
  /-- Latest records (R131, R135). -/
  lastGate : List Byte := []
  lastStat : List Byte := []
  /-- Value words of the last result published without FROST (R127). -/
  lastVals : List Nat := [0, 0, 0, 0]
  /-- The start of an interval left open at the close of the last completed gate (R123). -/
  pend : Option Stamp := none
  doneClose : Option Int := none
  held : Bool := false
  deriving DecidableEq, Repr

/-- A MEAS or BBR read window (R135, R378): the snapshot, what it was taken of, and whether that has changed. -/
structure Window where
  bytes : List Byte := []
  sel : Option Nat := none
  stale : Bool := false
  deriving DecidableEq, Repr

/-! ### Timing outputs (06_timing_outputs.md) -/

/-- A placement (R138, R139): the instant of its reference-plane time T on the unbroken count, so that a Solstice leaves
it where it is (R68). -/
structure Place where
  level : Bool
  value : Bool
  tP : Int
  width : Nat
  ctx : Option Nat := none
  gen : Bool := false
  marker : Bool := false
  deriving DecidableEq, Repr

/-- A transition that has been launched, or a move to the gated or the inactive level, and has not yet been stamped: its
instant at the ball, the level after it, and the coarse edge and tap that launch it (R140). -/
structure Trans where
  p : Int
  high : Bool
  active : Bool
  /-- A leading edge or a LEVEL transition (R142). -/
  leading : Bool
  /-- The launching edge of the placement's leading transition (R148). -/
  lead : Int
  edge : Int
  code : Nat
  /-- Gating does not suppress it: a move, or a transition that had left when gating came. -/
  sure : Bool := false
  trunc : Bool := false
  marker : Bool := false
  deriving DecidableEq, Repr

/-- A TOUT channel. -/
structure Tout where
  transit : List Place := []
  queue : List Place := []
  /-- The coarse edge at which the present head reached the head (R141). -/
  headAt : Nat := 0
  /-- The head has passed its checks and holds the head (R413). -/
  headOk : Bool := false
  flight : List Trans := []
  active : Bool := false
  high : Bool := false
  /-- Instants of the last transition, and the last leading transition, that left the ball, for R142, and of the leading edge of
  the present active time (R148). -/
  doneTrans : Option Int := none
  doneLead : Option Int := none
  leadP : Option Int := none
  /-- The placement that passed to the launcher last, with the edge at which it did (R150). -/
  passed : Option (Nat × Place) := none
  gatedLock : Bool := false
  gatedStop : Bool := false
  gatedDorm : Bool := true
  /-- Next k of the generator, and T of its last pulse that has passed to the launcher (R139, R150). -/
  genK : Nat := 1
  genLast : Option Int := none
  /-- A sequencer channel waits for its owner's start after a STOP (R149). -/
  seqHeld : Bool := false
  dOut : Int := 0
  g16 : Nat := 16777
  taps : Nat := 0
  bank : Nat := 0
  /-- Result of a tap step awaiting its bank switch (R317): taps, g16, d_out, and the step's end. -/
  tapNext : Option (Nat × Nat × Int × Nat) := none
  /-- Coarse edge of the last bank switch (R151). -/
  switched : Option Nat := none
  /-- Launch edges of transitions that have lately left the ball (R151). -/
  launches : List Int := []
  calRun : Bool := false
  deriving DecidableEq, Repr

/-! ### Lanes, rebase and binning (07, 08) -/

/-- Lane states (R165). -/
inductive LaneSt where
  | off | training | aligned | registering | up | lost | mismatch
  deriving DecidableEq, Repr

/-- A word in an ingress buffer with the coarse edge of its arrival (R157, R172). -/
structure LaneWord where
  w : Word64
  at' : Nat
  deriving DecidableEq, Repr

/-- An event lane. -/
structure Lane where
  st : LaneSt := .off
  cdr : Bool := false
  cw : Bool := false
  good : Nat := 0
  bad : Nat := 0
  buf : List LaneWord := []
  r : Nat := 0
  l : Nat := 0
  creditL : Nat := 0
  creditAt : Nat := 0
  tag : Nat := 0
  /-- POLLs sent: tag and coarse edge (R167). -/
  polls : List (Nat × Nat) := []
  ackAt : Nat := 0
  /-- Coarse edge of the last ACK with a matching TAG (R185). -/
  lastAck : Option Nat := none
  alignedAt : Nat := 0
  lostAt : Nat := 0
  lastFail : Nat := 0
  /-- In MISMATCH: an IDENT, and a UNIT, that match have arrived since (R165). -/
  nextId : Bool := false
  nextUnit : Bool := false
  deriving DecidableEq, Repr

/-- A tile's model beside its table words (R170 to R176). -/
structure Tile where
  /-- Refresh points, newest first: t_j and kq_j (R171). -/
  points : List (Nat × Nat) := []
  /-- Instant of the last refresh point on the unbroken count (R175). -/
  refP : Option Int := none
  /-- A Solstice discarded the model (R175, WHY 5). -/
  solGone : Bool := false
  /-- The last residual exceeded RES_LIM (R175, WHY 3). -/
  resBad : Bool := false
  /-- A distributed tile has latched T0 from its link (R171). -/
  latched : Bool := false
  /-- The tile's lost mark is open: it covers bins until the model is next fresh (R186). -/
  lostOpen : Bool := false
  /-- Instant at which the model became fresh again after the last loss: bins that begin before it stay covered
  (R186). -/
  freshAt : Option Int := none
  /-- The model as it stood before the refresh points of a coarse edge (R188): the edge, T0, KQ0, CORR and HAVE_MODEL. -/
  before : Option (Nat × Nat × Nat × Int × Bool) := none
  deriving DecidableEq, Repr

/-- One released bin of a plane: the counts that are not 0 and the tile-lost mask (R183). -/
structure Released where
  counts : List (Nat × Nat) := []
  lost : Nat := 0
  deriving DecidableEq, Repr

/-- The bins of one grid of a plane (R181, R188): counts by receiver + 4096 × bin, and the tiles marked per bin. -/
structure Grid where
  next : Nat := 0
  counts : List (Nat × Nat) := []
  marks : List (Nat × Nat) := []
  deriving DecidableEq, Repr

/-- A bin plane (R180 to R184, R192, R196). -/
structure Plane where
  active : Bool := false
  /-- Copied delays, receivers with a delay that is not 0 (R192). -/
  delays : List (Nat × Nat) := []
  grid : Grid := {}
  /-- Grids that Solstices have ended and whose bins are not all released, oldest first: the epoch's origin edge, the edge
  that ended it, and its bins (R68). -/
  old : List (Nat × Nat × Grid) := []
  /-- Last 64 releases, newest first (R196). -/
  hist : List Released := []
  deriving DecidableEq, Repr

/-! ### Correlator (10, 12) -/

/-- A Harvest under way or being swept: first bin, bins held, accumulators and sums (R210 to R216). -/
structure Harv where
  seq : Nat := 0
  first : Nat := 0
  /-- The coarse edge from which its grid counts. -/
  orig : Nat := 0
  /-- The bins its boundaries give. -/
  want : Nat := 0
  bins : Nat := 0
  /-- Accumulators that are not 0, by 16 × pair + lag. -/
  acc : List (Nat × Int) := []
  /-- Accumulators pinned at a limit (R206). -/
  pins : List Nat := []
  /-- Accumulators that a group of this Harvest has written: their bit e is E (R212). -/
  written : List Nat := []
  /-- One was pinned under R17. -/
  fault : Bool := false
  /-- Signal sums by local index. -/
  sums : List (Nat × Int) := []
  lost : Nat := 0
  flags : Nat := 0
  start : Bool := false
  short : Bool := false
  stopped : Bool := false
  trunc : Bool := false
  /-- Blocked Harvests: discarded whole (R246), groups that missed a block, groups with a lost mark, misses (R253). -/
  discard : Bool := false
  missG : Nat := 0
  rlostG : Nat := 0
  misses : Nat := 0
  deriving DecidableEq, Repr

/-- The ladder of one context (R217 to R221): decimated partial sums and histories by 2^k-bin level and slot, and
accumulators by entry, level and lag. -/
structure Ladder where
  /-- First half of a decimated bin in progress, by 2048 × level + slot. -/
  part : List (Nat × Int) := []
  /-- Completed decimated values, newest first, at most 16, by 2048 × level + slot. -/
  hist : List (Nat × List Int) := []
  /-- Accumulators that are not 0, by 512 × entry + 16 × level + lag. -/
  acc : List (Nat × Int) := []
  pins : List Nat := []
  /-- Levels that formed a product, by entry. -/
  valid : List (Nat × Nat) := []
  seq : Nat := 0
  first : Nat := 0
  orig : Nat := 0
  bins : Nat := 0
  lost : Nat := 0
  flags : Nat := 0
  start : Bool := false
  short : Bool := false
  /-- Resident Harvests in this ladder Harvest so far. -/
  count : Nat := 0
  stopped : Bool := false
  trunc : Bool := false
  deriving DecidableEq, Repr

/-- A signal block of a group (R244, R249): its grid and first bin, one list of values per bin, its lost mask and
flags, and, of the own group, whether it is the last of its grid (R256). -/
structure SigBlock where
  group : Nat
  orig : Nat
  first : Nat
  bins : List (List Int)
  lost : Nat := 0
  flags : Nat := 0
  last : Bool := false
  deriving DecidableEq, Repr

/-- A block that has been judged and waits for the arrays (R245, R251): the groups' blocks present, and whether the
Harvest closes with it (R256). -/
structure BlkJob where
  first : Nat
  orig : Nat
  blocks : List SigBlock
  last : Bool := false
  stopped : Bool := false
  deriving DecidableEq, Repr

/-- A context's correlator state while it runs (R207, R212, R243 to R251). -/
structure Cor where
  /-- 0 idle, 1 resident, 2 blocked. -/
  run : Nat := 0
  slicesA : Nat := 0
  slicesB : Nat := 0
  /-- The plane's bin width in qps, and the ring's D and POS, since the start (R23). -/
  w : Nat := 0
  ringD : Nat := 1
  ringPos : Nat := 0
  /-- The first bin of the run or of the grid, and the reference bin of the boundaries (R210). -/
  n0 : Option Nat := none
  nRef : Nat := 0
  /-- The grid of the newest Harvest: one of another grid is the first of the run or after a Solstice (R211). -/
  grid : Option Nat := none
  /-- The epoch bit E (R212). -/
  epochBit : Bool := false
  cur : Option Harv := none
  /-- Harvests closed and being swept, oldest first (R212). -/
  sweep : List Harv := []
  ladder : Option Ladder := none
  /-- The ladder entries in force since the start: entry, local slots, LMAX (R23, R225). -/
  lad : List (Nat × Nat × Nat × Nat) := []
  ladSweep : List Ladder := []
  /-- Signals of the last 15 bins, newest first (R205). -/
  past : List (List Int) := []
  /-- Accumulators with a product in the 8-bin group in progress (R206). -/
  touched : List (Nat × Nat) := []
  /-- Dies of tiles that failed since the last group boundary (R17). -/
  subst : List Nat := []
  /-- Buffers occupied (R213, R221). -/
  bufs : Nat := 0
  ladBufs : Nat := 0
  /-- Across runs: the epoch of the newest block and of the newest ladder block, and marks that a discarded one owes the next (R216,
  R409). -/
  seen : Nat := 0
  ladSeen : Nat := 0
  owed : Nat := 0
  ladOwed : Nat := 0
  closing : Bool := false
  /-- Blocked mode: the own block in progress, own blocks complete in HBM, blocks held, the next block to judge, blocks
  judged, and the blocks of the last one processed (R244, R245, R251). -/
  own : Option SigBlock := none
  full : List SigBlock := []
  slots : List SigBlock := []
  nextBlk : Option Nat := none
  /-- The grid that own blocks now count from. -/
  blkGrid : Nat := 0
  ready : List BlkJob := []
  prevBlk : List SigBlock := []
  tile : Nat := 0
  deriving DecidableEq, Repr

/-- The cascade hop (R250). -/
structure Cas where
  st : Nat := 0
  lock : Nat := 0
  upPos : Nat := 0
  lostAt : Nat := 0
  deriving DecidableEq, Repr

/-! ### Histograms (11_interval_histograms.md) -/

/-- A histogram definition of a running owner (R226 to R233). -/
structure HDef where
  active : Bool := false
  /-- Starts, and stops, that have reached the engine and are not yet handled, in TIME order. -/
  inq : List Stamp := []
  stopq : List Stamp := []
  pend : Option Stamp := none
  /-- The MULTI history, newest first. -/
  hist : List Stamp := []
  /-- Bins that are not 0 (R231). -/
  bins : List (Nat × Nat) := []
  /-- Increments held for after a cut whose copier has not passed (R237). -/
  post : List (Nat × Nat) := []
  /-- Flags, and lost tiles, of the stamps that made increments of the interval, and of those held for after the cut
  (R239). -/
  flags : Nat := 0
  lost : Nat := 0
  postFlags : Nat := 0
  postLost : Nat := 0
  /-- The interval's counts, and those of the interval after a cut that waits: INCR, DROP, SAT, OUT, NO_START, NO_STOP,
  EXTRA_START, XDROP (R238). -/
  cnt : List Nat := [0, 0, 0, 0, 0, 0, 0, 0]
  postCnt : List Nat := [0, 0, 0, 0, 0, 0, 0, 0]
  /-- What the cut in progress took: the interval's counts, bins, flags and lost tiles. -/
  snap : List Nat := []
  snapBins : List (Nat × Nat) := []
  snapFlags : Nat := 0
  snapLost : Nat := 0
  deriving DecidableEq, Repr

/-- Why a cut is made (R236, R237). -/
inductive CutCause where
  | snap | snapClear | clear | periodic | solstice | stop
  deriving DecidableEq, Repr

/-- A cut that waits for handling to pass T_cut, or whose copy runs (R236, R237). -/
structure Cut where
  cause : CutCause
  tP : Int
  tT : Nat
  deriving DecidableEq, Repr

/-- A context's histogram state while it runs. -/
structure HCtx where
  active : Bool := false
  /-- The owner has stopped: it ends with its last cut (R240). -/
  closing : Bool := false
  /-- Cuts that wait for handling to pass T_cut, in order. -/
  waiting : List Cut := []
  copying : Option Cut := none
  /-- The dies whose copier still walks, and those of them whose block is discarded for want of a buffer (R237). -/
  dies : List Nat := []
  discard : List Nat := []
  /-- Sequence number and each die's flags of the copy in progress, and where its interval began. -/
  seq : Nat := 0
  copyFlags : List (Nat × Nat) := []
  fromT : Nat := 0
  /-- The previous cut, as an epoch and as an instant. -/
  prevT : Nat := 0
  prevP : Int := 0
  /-- First handled stamp, from which periodic cuts count (R236). -/
  firstP : Option Int := none
  periods : Nat := 0
  bufsA : Nat := 0
  bufsB : Nat := 0
  /-- Per die, across runs: the epoch of its newest block, and a WRAP that a discarded block owes the next (R239, R409). -/
  seen : List (Nat × Nat) := []
  owed : List (Nat × Nat) := []
  deriving DecidableEq, Repr

/-- A die's histogram engine: the cache's lines, oldest first, and of them those with a miss outstanding (R233), and hits crossing to
it (R232). A line's number is twice that of its bins, with 1 more for deltas held across a cut (R237). -/
structure HEng where
  lines : List Nat := []
  misses : List Nat := []
  crossing : List Stamp := []
  /-- Marks that a drop at the crossing queue owes to a receiver's next hit through it (R409). -/
  owed : List (Nat × Nat) := []
  /-- The coarse edge to which the crossing queue has been drained. -/
  crossAt : Nat := 0
  deriving DecidableEq, Repr

/-! ### Contexts, sequencer and records (13, 14, 15) -/

/-- Context states (R259). -/
inductive CtxSt where
  | idle | admitting | running | stopping | stoppedOvf
  deriving DecidableEq, Repr

/-- A sequencer timer (R262): running until an edge, or held at a value. -/
inductive Timer where
  | stopped (left : Nat)
  | until (edge : Nat)
  | expired
  deriving DecidableEq, Repr

/-- A buffered action of a routine (R281). -/
inductive Act where
  | timer (op k : Nat)
  | counter (op k : Nat)
  | out (ch : Nat) (level value : Bool) (offset width : Nat)
  | rec' (op tag : Nat)
  | gate (op k : Nat)
  deriving DecidableEq, Repr

/-- A routine in progress (R267, R281 to R285). -/
structure Thread where
  pc : Nat
  restart : Nat
  /-- Edge of dispatch or of the last commit point, for the watchdog. -/
  since : Nat
  acts : List Act := []
  /-- A fault since the last commit point. -/
  faulted : Bool := false
  /-- A microword of the routine has issued (R284). -/
  issued : Bool := false
  /-- A Solstice fell while the routine ran (R284). -/
  solHit : Bool := false
  /-- Microwords and nanowords fetched (R286). -/
  micro : List Nat := []
  nano : List Nat := []
  /-- Edge of the last microword boundary: the routine's issue, or the end of its last microword. -/
  busyTo : Nat := 0
  /-- Edge at which the watchdog ran out inside a microword (R283, R285). -/
  dog : Option Nat := none
  deriving DecidableEq, Repr

/-- A context's dynamic state (R258 to R265). -/
structure Ctx where
  st : CtxSt := .idle
  former : CtxSt := .idle
  reason : Nat := 0
  cause : Nat := 0
  bound : Bool := false
  urgent : Option Nat := none
  /-- PHASE is SEQUENCE (R263). -/
  inSeq : Bool := false
  pstate : Nat := 0
  /-- Latched condition bits (R262). -/
  latch : Nat := 0
  /-- Bits set at dispatch and not latched again since. -/
  disp : Nat := 0
  /-- The condition vector as last judged for dispatch (R267). -/
  seen : Nat := 0
  /-- Changes of `seen` in the last few cycles, newest first: edge and bits (R275, R277). -/
  vlog : List (Nat × Nat) := []
  timers : List Timer := [.stopped 0, .stopped 0, .stopped 0, .stopped 0]
  counters : List Nat := [0, 0, 0, 0]
  /-- The hold-off's end, and the triggers it still holds (R264). -/
  holdUntil : Option Nat := none
  holdLeft : Nat := 0
  /-- Edge at which the auto timer forces a trigger (R265). -/
  autoAt : Option Nat := none
  queued : Bool := false
  thread : Option Thread := none
  /-- A retrigger takes effect when the routine in progress ends (R263). -/
  retrig : Bool := false
  /-- Edge of the last accepted trigger (R270). -/
  lastAccept : Option Nat := none
  deriving DecidableEq, Repr

/-- The condition router's events in transit to the sequencer (R82, R262). -/
inductive CondEv where
  | edge (s : Stamp)
  | result (slot : Nat) (stat : Bool) (p : Int) (t : Nat)
  deriving DecidableEq, Repr

/-- A capture item (R303): KIND, TIME, its instant, and the 16 bytes' second word. A released bin (KIND 1) stands as one
entry: the counts of the binned receivers that are not 0, the tile-lost mask, how many of the counts differ from the bin before and
of which receivers, ascending (R302), and those whose change the pre-trigger ring has overwritten (R301). -/
structure Item where
  kind : Nat
  src : Nat
  phys : Int
  time : Nat
  word1 : Nat
  n : Nat := 1
  counts : List (Nat × Nat) := []
  lost : Nat := 0
  chg : List Nat := []
  gone : List Nat := []
  deriving DecidableEq, Repr

/-- Items that the pre-trigger ring has overwritten (R301): their instant and number, and, of a stamp, its source and marks (R409). -/
structure RingLoss where
  phys : Int
  n : Nat
  src : Nat := 0
  flags : Nat := 0
  deriving DecidableEq, Repr

/-- The measurements of one listed source (R305). -/
structure SrcMeas where
  count : Nat := 0
  first : Nat := 0
  last : Nat := 0
  /-- The instant of the first item. -/
  firstP : Int := 0
  /-- Interval sum and count. -/
  ivlSum : Nat := 0
  ivls : Nat := 0
  /-- Rising stamps for the regression: n and τ, and the sequence number and TIME they count from. -/
  pts : List (Nat × Nat) := []
  seq0 : Nat := 0
  time0 : Nat := 0
  widthSum : Nat := 0
  widths : Nat := 0
  /-- In the present segment: the last item, and the last rising stamp whose falling one has not come. -/
  prev : Option Nat := none
  rise : Option Nat := none
  deriving DecidableEq, Repr

/-- A segment (R298 to R301). -/
structure Seg where
  trig : Stamp
  /-- Word 2 of the header where there is no trigger stamp (R304). -/
  word2 : Option Nat := none
  tS : Int
  /-- The earliest item of the pre-trigger part (R308). -/
  preFrom : Int
  tE : Option Int
  forced : Bool := false
  overlapPre : Bool := false
  retrigOpen : Bool := false
  accepted : Nat := 0
  headed : Bool := false
  items : Nat := 0
  union : Nat := 0
  cause : Nat := 0
  /-- Last stored count of each receiver that is not 0 (R302). -/
  counts : List (Nat × Nat) := []
  deriving DecidableEq, Repr

/-- A record under way (R304). -/
structure Rec where
  closed : Nat := 0
  bytes : Nat := 0
  union : Nat := 0
  span : Int := 0
  /-- t_e of the last segment. -/
  lastE : Int := 0
  meas : List (Nat × SrcMeas) := []
  preLost : Bool := false
  /-- Application edges of Solstices since t_s of the first segment (R308). -/
  sols : List Int := []
  deriving DecidableEq, Repr

/-- A context's capture (R293 to R307). -/
structure Cap where
  active : Bool := false
  /-- The context has stopped and the capture ends with its last segment (R308). -/
  stopping : Bool := false
  /-- The capture has to overflow at this edge, and has overflowed (R306). -/
  full : Bool := false
  ovf : Bool := false
  startP : Int := 0
  /-- `ACQ.OVERLAP` as read at the start or the last re-arm (R309). -/
  overlap : Bool := false
  inq : List Item := []
  /-- The pre-trigger ring, oldest first, and what it has overwritten (R301). -/
  ring : List Item := []
  lostN : List RingLoss := []
  /-- Marks that stamps lost from the ring owe to their source's next in a segment (R409). -/
  owed : List (Nat × Nat) := []
  /-- The plane's bin width at the start, in coarse periods (R304). -/
  w : Nat := 0
  /-- Segments opened and not yet closed by the writer, oldest first. -/
  segs : List Seg := []
  rec' : Option Rec := none
  /-- A segment has opened since the start; the re-arm instant t_r, none while the last segment has no end (R299). -/
  opened : Bool := false
  tR : Option Int := none
  rearmed : Bool := true
  /-- Bytes written to the area and not yet freed (R306, R307), and in all. -/
  used : Nat := 0
  written : Nat := 0
  /-- The message being gathered in STREAM mode, and the edge at which its first byte was written (R295). -/
  msg : List Byte := []
  msgFrom : Nat := 0
  /-- A DMA page RESET has discarded the rest of the open record's message (R356). -/
  mute : Bool := false
  /-- Counts of the last released bin (R302). -/
  prev : List (Nat × Nat) := []
  deriving DecidableEq, Repr

/-! ### Calibration (16), boot, service and black box (19), pair (17), DMA and SPI (18) -/

/-- One channel of a calibration run (R313 to R319). -/
structure CalCh where
  /-- Interpolators visited (R314). -/
  visited : List Nat := []
  /-- The step due or in progress: 0 cell, 1 comparator, 2 pin, 3 tap; 4 when no step is left. -/
  step : Nat := 0
  /-- The coarse edge at which the step in progress began, or none while it waits (R316). -/
  stepAt : Option Nat := none
  /-- The next step waits for the next swap. -/
  waitSwap : Bool := false
  /-- Suspensions in succession (R316). -/
  suspended : Nat := 0
  failed : Bool := false
  failStep : Nat := 0
  /-- The pair that the comparator step chose (R315). -/
  pair : Nat := 0
  /-- The coarse edge at which the run ends (R315, R317, R318). -/
  endAt : Option Nat := none
  deriving DecidableEq, Repr

/-- What a calibration copy holds (R320): its CSEQ and, for every channel that differs from nominal, the selections
(cells, pair, delays and taps in one list). -/
structure CalCopy where
  cseq : Nat
  sel : List (Nat × List Int)
  deriving DecidableEq, Repr

/-- The calibration engine (R311 to R322). -/
structure Cal where
  /-- The run in progress: full or one channel, and STORE. -/
  run : Option (Option Nat × Bool) := none
  /-- A run waits to start. -/
  waiting : Option (Option Nat × Bool) := none
  pendingFull : Option Bool := none
  reqs : List (Nat × Bool) := []
  chans : List (Nat × CalCh) := []
  /-- Channels of the run not yet started, ascending. -/
  todo : List Nat := []
  passed : Nat := 0
  failed : Nat := 0
  changed : Bool := false
  /-- A store in progress: into copy B, and what it writes; another store is due at its end; the deferred store (R321). -/
  storing : Option (Bool × CalCopy) := none
  again : Bool := false
  deferred : Bool := false
  lastStore : Option Nat := none
  /-- The copy in force is B; no valid copy was found at boot (R320). -/
  copyB : Bool := false
  noCopy : Bool := false
  deriving DecidableEq, Repr

/-- A firmware copy in NVM (R368): as Denoaris programmed it, or the region's bytes. -/
inductive FwCopy where
  | vendor (fseq version : Nat)
  | bytes
  deriving DecidableEq, Repr

/-- The NVM regions (R368). Region bytes that read 0xFF are not listed. It survives PORST_N. -/
structure Nvm where
  fwA : FwCopy := .vendor 0 0
  fwB : FwCopy := .bytes
  bytes : List (Nat × Byte) := []
  /-- Regions left torn by PORST_N or an NVM error in an update (R381): 0 and 1 firmware, 2 patch, 3 and 4 images. -/
  torn : List Nat := []
  /-- The sectors of the calibration copies, up to their last written byte (R320). -/
  calA : List Byte := []
  calB : List Byte := []
  fuse : Bool := false
  boots : Nat := 0
  uid : Nat := 0
  nonceN : Nat := 0
  deriving DecidableEq, Repr

/-- Which part of a slot a failure tore: none, bytes 4 to 63, the header, or the whole slot in a sector erase. -/
inductive Tear where
  | intact | body | header | erase
  deriving DecidableEq, Repr

/-- A slot of the black-box record that is not erased (R374 to R377): the 64 bytes meant, and what a failure tore. -/
structure BSlot where
  bytes : List Byte
  tear : Tear := .intact
  deriving DecidableEq, Repr

/-- An entry that waits to be programmed (R374, R375). -/
structure BEntry where
  uptime : Nat
  epoch : Nat
  code : Nat
  slot : Nat
  data : List Word
  deriving DecidableEq, Repr

/-- The black-box record and its controller (R373 to R381). The slots survive PORST_N. -/
structure Bbr where
  slots : List (Nat × BSlot) := []
  queue : List BEntry := []
  scanned : Bool := false
  head : Nat := 0
  seq : Nat := 0
  newest : Nat := 0
  oldest : Nat := 0
  /-- Sector being erased. -/
  erasing : Option Nat := none
  clearing : Bool := false
  dumping : Bool := false
  /-- Drops since the last DROPPED entry (R375). -/
  drops : Nat := 0
  /-- Host-made events: code, when last logged and repeats since (R379). -/
  recent : List (Nat × Nat × Nat) := []
  /-- The window of each access path (R378, R348): 0 PCIe, 1 the management SPI. -/
  windows : List (Nat × Window) := []
  selStat : Nat := 0
  deriving DecidableEq, Repr

/-- A service command in progress (R380). -/
structure Svc where
  busy : Bool := false
  op : Nat := 0
  result : Nat := 0
  pendingResult : Nat := 0
  /-- The region that UPD_BEGIN has erased. -/
  target : Option Nat := none
  deriving DecidableEq, Repr

/-- The monitor (MON page): dies above TEMP_WARN at the last sample, HOT without COOL since, and whether a sample has been
taken since the page RESET. -/
structure Mon where
  above : List Nat := []
  hot : Bool := false
  peaked : Bool := false
  deriving DecidableEq, Repr

/-- Boot progress (R367). -/
structure Boot where
  fwLoaded : Bool := false
  calLoaded : Bool := false
  patched : Bool := false
  hbm : Bool := false
  recovery : Bool := false
  strap : Bool := false
  sealed : Bool := false
  /-- STARTs of the default image, to be issued on entering RUNNING (R371). -/
  starts : List Nat := []
  /-- The commit of the default image is in progress: its DSEQ. -/
  imageCommit : Option Nat := none
  deriving DecidableEq, Repr

/-- The claim bus and the pair link (R323 to R335). -/
structure Par where
  /-- Coarse edge of the last SOF sent or seen. -/
  sofAt : Option Nat := none
  inFrame : Bool := false
  sent : Nat := 0
  last : Nat := 0
  lastValid : Bool := false
  partner : Nat := 0
  partnerId : Option Nat := none
  won : Bool := false
  fseq : Nat := 0
  aligned : Bool := false
  recovering : Option Nat := none
  timedOut : Bool := false
  /-- The unit has claimed since withholding last began (R330). -/
  claimed : Bool := false
  partnerLost : Bool := false
  linkUp : Bool := false
  stateAt : Nat := 0
  busFault : Bool := false
  idClash : Bool := false
  locks : Nat := 0
  pthaw : Bool := false
  /-- The configuration in force since the last SOF (R335). -/
  cfg : Nat := 0x0E00
  /-- The coarse edge at which the mirror was last written (R333). -/
  mirrorAt : Option Nat := none
  deriving DecidableEq, Repr

/-- A descriptor that the channel holds (R352): its index, address and length. -/
structure Desc where
  idx : Nat
  addr : Nat
  len : Nat
  deriving DecidableEq, Repr

/-- A DMA channel (R352 to R356). -/
structure Dma where
  handed : List Msg := []
  queue : List Msg := []
  /-- Bytes of the first queued message in completed buffers; some while it is in progress. -/
  sent : Option Nat := none
  /-- The descriptor whose buffer is being filled, and the one fetched after it. -/
  cur : Option Desc := none
  next : Option Desc := none
  head : Nat := 0
  tail : Nat := 0
  mseq : Nat := 0
  error : Bool := false
  /-- ENABLE has been cleared while a message is in progress (R356). -/
  draining : Bool := false
  /-- Completions since the last vector message, when that was sent, and whether one is held (R354). -/
  done : Nat := 0
  irqAt : Option Nat := none
  irqHeld : Bool := false
  deriving DecidableEq, Repr

/-- States of the device (R372). -/
inductive DevSt where
  | booting | awaiting | dormant | locking | running | stopped
  deriving DecidableEq, Repr

/-- The commit engine (R343 to R346). -/
structure Commit where
  busy : Bool := false
  /-- Pages whose reset the commit waits for before its snapshot (R343, R347). -/
  waitFor : List Nat := []
  /-- While it waits: the accesses at the front of `held` that came before it. -/
  early : Nat := 0
  snapshot : Option (List (Nat × Word) × List (Nat × Word)) := none
  /-- Validated, with the application edge (R345). -/
  applyAt : Option Nat := none
  result : Nat := 0
  count : Nat := 0
  err : Nat := 0
  errAddr : Nat := 0
  /-- A commit has succeeded since PORST_N. -/
  ever : Bool := false
  deriving DecidableEq, Repr

/-- A split-read snapshot of one pair on one path (R348). -/
structure Snap where
  v : Nat := 0
  fresh : Bool := false
  deriving DecidableEq, Repr

/-! ### The state -/

/-- Everything the spec gives the block, and the queue of commands that wait. -/
structure State where
  pending : List Instr := []
  /-- Coarse edges since the release of PORST_N, and the edge at which the epoch was last reset (R18, R66). -/
  now : Nat := 0
  solEdge : Nat := 0
  /-- Epoch wraps taken since then (R3), and whether a Solstice or the reset began this epoch. -/
  wraps : Nat := 0
  dev : DevSt := .booting
  porst : Bool := true
  /-- Live register words (R386), staged copies (R342), and values that wait for their own edge (R345, R53). -/
  regs : List (Nat × Word) := []
  staged : List (Nat × Word) := []
  stagedTab : List (Nat × Word) := []
  clkWait : List (Nat × Word) := []
  ckoWait : List (Nat × Word) := []
  /-- PAR values that wait for the next SOF (R335). -/
  parWait : List (Nat × Word) := []
  /-- The application edge of the waiting CKO set; none while it waits for a Solstice (R53). -/
  ckoDue : Option Nat := none
  /-- BAR2 words (R390). -/
  tab : List (Nat × Word) := []
  commit : Commit := {}
  viewPcie : Bool := false
  viewSpi : Bool := false
  /-- Pages in reset, and host accesses that wait for one (R351). -/
  resetting : List Nat := []
  held : List HostAcc := []
  /-- Host writes and reads of `GLB.BARRIER` behind a barrier in progress (R347). -/
  behind : List HostAcc := []
  barriers : Nat := 0
  barrierOn : Bool := false
  /-- Split-read snapshots by BAR0 address of the `_LO` register, 2 per pair (R348), and latched conditions by slot. -/
  snaps : List (Nat × Snap) := []
  splitFault : List Nat := []
  /-- Island cycle of the last hardware set, by 32 × slot + bit (R349). -/
  evtAt : List (Nat × Nat) := []
  /-- The MSI-X table of BAR4 by byte offset in the table (R337), and vectors whose bit of the PBA is 1. -/
  msixTable : List (Nat × Word) := []
  pba : List Nat := []
  /-- STOP latches: doorbell 1, STOP_N 2, SPI 4; and whether STOP is in force (R357). -/
  stopSrc : Nat := 0
  stopOn : Bool := false
  dma : List (Nat × Dma) := []
  boot : Boot := {}
  nvm : Nvm := {}
  svc : Svc := {}
  bbr : Bbr := {}
  mon : Mon := {}
  cal : Cal := {}
  stampers : List (Nat × Stamper) := []
  /-- Gate requests on their way to channels (R93). -/
  gateReqs : List Nat := []
  tins : List (Nat × Tin) := []
  refs : List (Nat × Ref) := []
  loop : Loop := {}
  ckos : List (Nat × Cko) := []
  sol : Sol := {}
  ttls : List (Nat × Ttl) := []
  fwds : List (Nat × Fwd) := []
  /-- Stamps in transit to the measurement engine (R106), and receiver stamps with the die that forwards them (R13); the marks a
  lane-queue drop owes (R409). -/
  measIn : List Stamp := []
  laneIn : List (Nat × Stamp) := []
  /-- By X die: the coarse edge at which its lane-source stamps last reached the engine, and how many did (R13). -/
  laneOut : List (Nat × (Nat × Nat)) := []
  laneOwed : List (Nat × Nat) := []
  meas : List (Nat × MSlot) := []
  /-- The windows on gate and statistics records (R135), one of each kind for each access path (R348). -/
  measWins : List (Nat × Window) := []
  touts : List (Nat × Tout) := []
  lanes : List (Nat × Lane) := []
  tiles : List (Nat × Tile) := []
  /-- Marks owed by dropped hits, by receiver (R409). -/
  rxOwed : List (Nat × Nat) := []
  /-- By receiver: the epoch of its newest hit, by its origin's coarse edge, and the wraps of that epoch before it (R60, R99,
  R174). -/
  rxSeen : List (Nat × (Nat × Nat)) := []
  planes : List (Nat × Plane) := []
  cors : List (Nat × Cor) := []
  spares : List (Nat × Nat) := []
  cas : Cas := {}
  /-- HBM pages held, in runs (R254): by 8192 × stack + the run's lowest page number, how many pages and the context. -/
  pagesHeld : List (Nat × (Nat × Nat)) := []
  hdefs : List (Nat × HDef) := []
  hctxs : List (Nat × HCtx) := []
  hengs : List (Nat × HEng) := []
  ctxs : List (Nat × Ctx) := []
  /-- The context whose START the admission engine handles (R260), and `CTX.RESULT` after the last command (R271). -/
  adm : Option Nat := none
  /-- STOP has been in force since the START that the engine handles arrived (R261, R270). -/
  admStop : Bool := false
  admRes : Nat := 0
  condIn : List CondEv := []
  hold : Option (Nat × List Word) := none
  /-- By context that has stopped and still owes results: the words it ran with of entries written since (R132, R214, R221). -/
  oldWords : List (Nat × List (Nat × Word)) := []
  /-- Patch overlay: microwords and nanowords (R272, R291). -/
  ovMicro : List (Nat × Word) := []
  ovNano : List (Nat × BitVec 128) := []
  caps : List (Nat × Cap) := []
  par : Par := {}
  /-- The time base's flag bits of R6 and the coarse edge from which each value has stood, newest first. -/
  flagLog : List (Nat × Nat) := [(0, 3)]
  /-- What has left the block, newest first. -/
  out : List Output := []
  /-- Counts the uses of `Config` values (the model's own field). -/
  freeCtr : Nat := 0
  deriving DecidableEq, Repr

/-- The machine right after reset: PORST_N held low, BOOTING (R365, R372), every register at its reset value (no
entry listed), NVM as the log names it. -/
def State.reset : State := {}

end Sys2Proof.Machine
end

