-- ==== Sys2Proof/Machine/Flags.lean ====
section
/-! DEFINITION. The eight flag bits of R6, and those that the time base gives every item (R44, R50, R328). -/

namespace Sys2Proof.Machine

/-- Flag bits of R6 as values. -/
abbrev fUNLOCKED : Nat := 1
abbrev fWINTER : Nat := 2
abbrev fCAL : Nat := 4
abbrev fLOST : Nat := 8
abbrev fUNALIGNED : Nat := 16
abbrev fSOLS : Nat := 32
abbrev fWRAP : Nat := 64
abbrev fTRUNC : Nat := 128

/-- A flag value or 0. -/
def flagIf (b : Bool) (f : Nat) : Nat := if b then f else 0

/-- `PAR.CFG.EN` in force (R328, R335). -/
def State.parEn (s : State) : Bool := s.par.cfg / 2 ^ 12 % 2 = 1

/-- The flags that the time base gives an item now: UNLOCKED while PLL_T is not locked (R50), WINTER in WINTER and THAW
(R44), UNALIGNED while the unit takes part in a pair and is not aligned (R328). -/
def State.tbFlags (s : State) : Nat :=
  flagIf (!s.loop.lockT) fUNLOCKED |||
  flagIf (decide (s.loop.mode = .winter) || decide (s.loop.mode = .thaw)) fWINTER |||
  flagIf (s.parEn && !s.par.aligned) fUNALIGNED

/-- Note a change of the time base's flags, so that flags over a span can be told (R216, R238, R249). -/
def State.noteFlags (s : State) : State :=
  match s.flagLog with
  | (_, f) :: _ => if f = s.tbFlags then s else { s with flagLog := (s.now, s.tbFlags) :: s.flagLog }
  | [] => { s with flagLog := [(s.now, s.tbFlags)] }

/-- The flags noted last at or before a coarse edge. -/
def flagsAtIn : List (Nat × Nat) → Nat → Nat
  | [], _ => 0
  | (e, f) :: r, t => if e ≤ t then f else flagsAtIn r t

/-- Every flag noted at any coarse edge from `a` to `b`. -/
def flagsOverIn : List (Nat × Nat) → Nat → Nat → Nat
  | [], _, _ => 0
  | (e, f) :: r, a, b =>
    if b < e then flagsOverIn r a b
    else if e ≤ a then f
    else f ||| flagsOverIn r a b

/-- The time base's flags at a coarse edge, the present ones from the last command on. -/
def State.flagsAt (s : State) (t : Nat) : Nat := if s.now ≤ t then s.tbFlags else flagsAtIn s.flagLog t

/-- Every flag of the time base at any coarse edge of a span. -/
def State.flagsOver (s : State) (a b : Nat) : Nat :=
  (if s.now ≤ b then s.tbFlags else 0) ||| flagsOverIn s.flagLog a b

end Sys2Proof.Machine
end

