-- ==== Sys2Proof/Machine/RegTable.lean ====
section
/-! DEFINITION. The register index: page slots (R382, R383), the page headers' resets (R384), and every
register of every page with its offset, access type and reset (R386, R388), with the bits that are not
reserved as the chapters' field tables give them. -/

namespace Sys2Proof.Machine

/-- The kinds of page of R383. -/
inductive PageKind where
  | glb | clk | sol | meas | ctx | seq | acq | cal | par | mon | sec | bbr | fwd | cko | ttl | tin | tout
  | lane | dma | reb | bin | beam | cor | hst | mem | cas
  deriving DecidableEq, Repr

/-- Access types of R7, with the two header registers of R340 that have rules of their own. -/
inductive RegType where
  | ro | rw | rws | wo | w1c | w1s | ctrl
  deriving DecidableEq, Repr

/-- One register: its access type, its reset value, and the bits that are not reserved. -/
structure RegInfo where
  ty : RegType
  reset : Word
  mask : Word
  deriving DecidableEq, Repr

/-- A page's slots and instances, its type code, its first island id, whether ENABLE resets to 1, and its number
of registers, header included (R383). -/
structure PageInfo where
  kind : PageKind
  first : Nat
  count : Nat
  type : Nat
  en : Bool
  regs : Nat
  deriving DecidableEq, Repr

/-- The page map of R383. -/
def pages : List PageInfo :=
  [⟨.glb, 0, 1, 0x01, true, 16⟩, ⟨.clk, 1, 1, 0x02, true, 41⟩, ⟨.sol, 2, 1, 0x04, true, 14⟩,
   ⟨.meas, 3, 1, 0x07, true, 59⟩, ⟨.ctx, 4, 1, 0x11, true, 13⟩, ⟨.seq, 5, 1, 0x12, true, 17⟩,
   ⟨.acq, 6, 1, 0x13, true, 35⟩, ⟨.cal, 7, 1, 0x14, true, 19⟩, ⟨.par, 8, 1, 0x15, true, 18⟩,
   ⟨.mon, 9, 1, 0x17, true, 23⟩, ⟨.sec, 10, 1, 0x18, true, 16⟩, ⟨.bbr, 11, 1, 0x19, true, 33⟩,
   ⟨.fwd, 12, 2, 0x1A, true, 112⟩, ⟨.cko, 16, 16, 0x03, true, 10⟩, ⟨.ttl, 64, 33, 0x05, true, 17⟩,
   ⟨.tin, 128, 64, 0x06, true, 24⟩, ⟨.tout, 192, 32, 0x08, true, 29⟩, ⟨.lane, 256, 64, 0x09, false, 34⟩,
   ⟨.dma, 320, 64, 0x16, false, 18⟩, ⟨.reb, 384, 2, 0x0A, true, 13⟩, ⟨.bin, 388, 4, 0x0B, true, 10⟩,
   ⟨.beam, 392, 2, 0x0C, true, 12⟩, ⟨.cor, 394, 2, 0x0D, true, 20⟩, ⟨.hst, 396, 2, 0x0E, true, 20⟩,
   ⟨.mem, 398, 2, 0x0F, true, 11⟩, ⟨.cas, 400, 1, 0x10, true, 23⟩]

/-- The page in a slot, or none where the slot is empty (R382). -/
def pageAt (slot : Nat) : Option PageInfo :=
  pages.find? fun p => decide (p.first ≤ slot) && decide (slot < p.first + p.count)

/-- The island id of instance `i` of a page (R383). -/
def islandId (k : PageKind) (i : Nat) : Nat :=
  match k with
  | .glb | .cal | .par | .mon | .sec | .bbr => 0x60
  | .clk | .sol | .fwd | .cko | .ttl => 0x63
  | .meas => 0x62
  | .ctx | .seq | .acq => 0x61
  | .tin => i
  | .tout => 0x40 + i
  | .lane => 0x80 + i
  | .dma => 0xC4
  | .reb | .beam => if i = 0 then 0xC0 else 0xD0
  | .bin => 0xC0
  | .cor => if i = 0 then 0xC1 else 0xD1
  | .hst => if i = 0 then 0xC2 else 0xD2
  | .mem => if i = 0 then 0xC3 else 0xD3
  | .cas => 0xD4

/-- `PAGE_ID` of the page in a slot (R384). -/
def pageId (p : PageInfo) (slot : Nat) : Word :=
  BitVec.ofNat 32 (p.type * 2 ^ 24 + (slot - p.first) * 2 ^ 16 + 0x01 * 2 ^ 8 + islandId p.kind (slot - p.first))

/-- A read-only register that resets to 0. -/
def ro : Option RegInfo := some ⟨.ro, 0, 0xFFFF_FFFF⟩

/-- A read-only register with a reset value. -/
def roAt (v : Word) : Option RegInfo := some ⟨.ro, v, 0xFFFF_FFFF⟩

/-- A staged register. -/
def rws (reset mask : Word) : Option RegInfo := some ⟨.rws, reset, mask⟩

/-- A read-write register. -/
def rw (reset mask : Word) : Option RegInfo := some ⟨.rw, reset, mask⟩

/-- A write-only register. -/
def wo : Option RegInfo := some ⟨.wo, 0, 0xFFFF_FFFF⟩

/-- Whether an offset is a word offset from `a` to `b`, both included. -/
def upTo (a b off : Nat) : Bool := decide (a ≤ off) && decide (off ≤ b) && decide (off % 4 = 0)

/-- GLB and CLK registers (R386; 18_host_control.md, 02_time_base.md). -/
def glbReg (off : Nat) : Option RegInfo :=
  if off = 0x018 then wo
  else if off = 0x028 then rw 0 0x1
  else if off = 0x030 then rws 0 0x1
  else if off = 0x034 then rws 0x0000_1F40 0xFFFF
  else if upTo 0x014 0x03C off then ro
  else none

def clkReg (off : Nat) : Option RegInfo :=
  if off = 0x014 then rws 0x000F_E411 0x000F_FF1F
  else if upTo 0x018 0x024 off then rws 0x0214_1420 0x0FFF_FF3F
  else if upTo 0x028 0x034 off then rws 0x0098_9680 0xFFFF_FFFF
  else if upTo 0x038 0x044 off then rws 0 0xFFFF_FFFF
  else if off = 0x048 then rws 0x0001_86A0 0x000F_FFFF
  else if off = 0x04C then rws 0x0000_0064 0x3FF
  else if off = 0x050 then rws 0x0000_03E8 0xFFFF
  else if off = 0x054 then rws 0x0000_0002 0x7
  else if off = 0x058 then rws 0x0000_0006 0x1F
  else if off = 0x05C then rws 0x0098_9680 0xFFFF_FFFF
  else if off = 0x060 then rws 0 0xFFFF_FFFF
  else if off = 0x064 then rws 0 0xFF
  else if upTo 0x068 0x0A0 off then ro
  else none

/-- CKO, SOL and TTL registers (R386; 02_time_base.md, 03_solstice_and_time_transfer.md). -/
def ckoReg (off : Nat) : Option RegInfo :=
  if off = 0x014 then rws 0x0000_0044 0x3FF
  else if off = 0x018 then rws 0x0000_0320 0xFFFF_FFFF
  else if upTo 0x01C 0x020 off then rws 0 0xFFFF_FFFF
  else if off = 0x024 then roAt 0x10
  else none

def solReg (off : Nat) : Option RegInfo :=
  if off = 0x014 then rws 0x6400_8001 0xFFFF_FFF7
  else if off = 0x018 then some ⟨.w1s, 0, 0xF⟩
  else if upTo 0x01C 0x020 off then rw 0 0xFFFF_FFFF
  else if upTo 0x024 0x034 off then ro
  else none

def ttlReg (off : Nat) : Option RegInfo :=
  if off = 0x014 then rws 0 0x001F_FFF7
  else if off = 0x018 then rws 0x001E_8480 0xFFFF_FFFF
  else if upTo 0x01C 0x020 off then rws 0 0xFFFF_FFFF
  else if off = 0x024 then rws 0x0000_0FA0 0x00FF_FFFF
  else if upTo 0x028 0x040 off then ro
  else none

/-- TIN, TOUT and MEAS registers (R386; 04_timing_inputs.md, 06_timing_outputs.md, 05_measurement_engine.md). -/
def tinReg (off : Nat) : Option RegInfo :=
  if off = 0x014 then rws 0 0xF37
  else if off = 0x018 then rws 0x0000_0287 0xFFF
  else if off = 0x01C then rws 0 0xFFFF_FFFF
  else if off = 0x020 then rws 0x0000_1800 0x3FFF
  else if upTo 0x024 0x05C off then ro
  else none

def toutReg (off : Nat) : Option RegInfo :=
  if off = 0x014 then rws 0x0000_0900 0x001F_FFF3
  else if off = 0x018 then rws 0 0xFFFF_FFFF
  else if off = 0x01C then rws 0x0000_1F40 0xFFFF_FFFF
  else if off = 0x020 then rws 0 0xFFFF
  else if off = 0x024 then rws 0 0xFFFF_FFFF
  else if off = 0x028 then rws 0 0xFFFF
  else if off = 0x02C then rws 0x0000_0640 0xFFFF_FFFF
  else if upTo 0x030 0x034 off then rw 0 0xFFFF_FFFF
  else if off = 0x038 then rw 0x0000_0FA0 0xFFFF_FFFF
  else if off = 0x03C then wo
  else if off = 0x040 then roAt 0x0000_0800
  else if upTo 0x044 0x070 off then ro
  else none

def measReg (off : Nat) : Option RegInfo :=
  if off = 0x014 then ro
  else if off = 0x018 then rw 0 0x3FF
  else if upTo 0x020 0x0EC off then ro
  else none

/-- CTX, SEQ and ACQ registers (R386; 13_contexts_and_triggers.md, 14_microcode.md, 15_acquisition.md). -/
def ctxReg (off : Nat) : Option RegInfo :=
  if off = 0x014 then wo else if upTo 0x018 0x030 off then ro else none

def seqReg (off : Nat) : Option RegInfo := if upTo 0x014 0x040 off then ro else none

def acqReg (off : Nat) : Option RegInfo :=
  if off = 0x014 then rws 0x0000_07A1 0xFFFF_FFFF
  else if upTo 0x018 0x054 off then rw 0 0xFFFF_FFFF
  else if upTo 0x058 0x088 off then ro
  else none

/-- CAL, PAR, MON, SEC and BBR registers (R386; 16_calibration.md, 17_pair_redundancy.md,
19_startup_power_and_black_box.md). -/
def calReg (off : Nat) : Option RegInfo :=
  if off = 0x014 then rws 0x0000_0114 0x1FF
  else if off = 0x018 then wo
  else if upTo 0x01C 0x048 off then ro
  else none

def parReg (off : Nat) : Option RegInfo :=
  if off = 0x014 then rws 0x0000_0E00 0x1E77
  else if off = 0x018 then rws 0x0000_0E10 0xFFFF_FFFF
  else if off = 0x01C then rws 0x0000_0FA0 0x00FF_FFFF
  else if off = 0x020 then rws 0x0000_EA60 0xFFFF
  else if off = 0x024 then rw 0x0000_0001 0x1
  else if off = 0x028 then roAt 0x0000_1800
  else if upTo 0x02C 0x044 off then ro
  else none

def monReg (off : Nat) : Option RegInfo :=
  if off = 0x054 then rw 0x0000_03E8 0xFFFF else if upTo 0x014 0x058 off then ro else none

def secReg (off : Nat) : Option RegInfo :=
  if off = 0x038 then wo else if upTo 0x014 0x03C off then ro else none

def bbrReg (off : Nat) : Option RegInfo :=
  if off = 0x024 then rw 0 0x7_FFFF
  else if off = 0x06C then wo
  else if upTo 0x014 0x080 off then ro
  else none

/-- FWD registers (R388). -/
def fwdReg (off : Nat) : Option RegInfo := if upTo 0x014 0x1BC off then ro else none

/-- X die registers (R386; chapters 07 to 12 and 18). -/
def laneReg (off : Nat) : Option RegInfo :=
  if off = 0x014 then rws 0x0000_0100 0xFF1F
  else if off = 0x018 then rws 0x000A_0602 0x000F_1F0F
  else if off = 0x01C then rws 0x0000_013F 0xF3F
  else if off = 0x020 then rws 0x0004_0000 0xFFFF_FFFF
  else if upTo 0x024 0x084 off then ro
  else none

def dmaReg (off : Nat) : Option RegInfo :=
  if off = 0x014 then rw 0x0000_0108 0x00FF_011F
  else if upTo 0x018 0x01C off then rw 0 0xFFFF_FFFF
  else if off = 0x020 then rw 0 0xFFFF
  else if upTo 0x024 0x044 off then ro
  else none

def rebReg (off : Nat) : Option RegInfo :=
  if off = 0x018 then roAt 0xFFFF_FFFF else if upTo 0x014 0x030 off then ro else none

def binReg (off : Nat) : Option RegInfo :=
  if off = 0x014 then rws 0x0000_00C8 0x01FF_FFFF else if upTo 0x018 0x024 off then ro else none

def beamReg (off : Nat) : Option RegInfo := if upTo 0x014 0x02C off then ro else none

def corReg (off : Nat) : Option RegInfo :=
  if off = 0x014 then roAt 0x0000_0200 else if upTo 0x018 0x04C off then ro else none

def hstReg (off : Nat) : Option RegInfo :=
  if off = 0x014 then wo
  else if upTo 0x018 0x01C off then rw 0 0xFFFF_FFFF
  else if upTo 0x020 0x04C off then ro
  else none

def memReg (off : Nat) : Option RegInfo :=
  if off = 0x014 then roAt 0x0000_2000
  else if off = 0x018 then roAt 0x0000_0040
  else if off = 0x01C then roAt 0x0000_1FC0
  else if off = 0x020 then ro
  else if off = 0x024 then rw 0x0000_0100 0x3FFF
  else if off = 0x028 then ro
  else none

def casReg (off : Nat) : Option RegInfo :=
  if off = 0x014 then rws 0x0000_0100 0xFFFF
  else if off = 0x018 then rws 0x000A_0602 0x000F_1F0F
  else if upTo 0x01C 0x058 off then ro
  else none

/-- A block's own registers, from offset 0x014. -/
def blockReg (k : PageKind) (off : Nat) : Option RegInfo :=
  match k with
  | .glb => glbReg off | .clk => clkReg off | .sol => solReg off | .meas => measReg off | .ctx => ctxReg off
  | .seq => seqReg off | .acq => acqReg off | .cal => calReg off | .par => parReg off | .mon => monReg off
  | .sec => secReg off | .bbr => bbrReg off | .fwd => fwdReg off | .cko => ckoReg off | .ttl => ttlReg off
  | .tin => tinReg off | .tout => toutReg off | .lane => laneReg off | .dma => dmaReg off | .reb => rebReg off
  | .bin => binReg off | .beam => beamReg off | .cor => corReg off | .hst => hstReg off | .mem => memReg off
  | .cas => casReg off

/-- Any register of a page, the five of the header included (R340, R384). -/
def pageReg (p : PageInfo) (slot off : Nat) : Option RegInfo :=
  if off = 0x000 then roAt (pageId p slot)
  else if off = 0x004 then ro
  else if off = 0x008 then some ⟨.w1c, 0, 0xFFFF_FFFF⟩
  else if off = 0x00C then rw 0 0xFFFF_FFFF
  else if off = 0x010 then some ⟨.ctrl, if p.en then 2 else 0, 0x3⟩
  else blockReg p.kind off

/-- The register at a BAR0 byte address, or none where R338 or R386 puts no register. -/
def regAt (a : Nat) : Option RegInfo :=
  match pageAt (a / 0x400) with
  | some p => pageReg p (a / 0x400) (a % 0x400)
  | none => none

/-- The reset value of the register at a BAR0 byte address; 0 where there is none. -/
def regReset (a : Nat) : Word :=
  match regAt a with
  | some i => i.reset
  | none => 0

/-- The `_LO` offsets of a page's 64-bit pairs (R348): the reading order of each chapter's page table. -/
def pairLos (k : PageKind) : List Nat :=
  match k with
  | .glb => [0x038]
  | .clk => [0x060, 0x070, 0x078, 0x084, 0x08C, 0x094, 0x09C]
  | .sol => [0x01C, 0x028]
  | .ttl => [0x028]
  | .tin => [0x028, 0x030, 0x038, 0x040, 0x048, 0x050]
  | .tout => [0x01C, 0x024, 0x030, 0x044, 0x04C, 0x054, 0x05C, 0x064, 0x06C]
  | .meas => [0x0E0, 0x0E8]
  | .ctx => [0x024, 0x02C]
  | .seq => [0x024, 0x02C, 0x034, 0x03C]
  | .acq => [0x064, 0x06C, 0x074, 0x07C, 0x084]
  | .cal => [0x03C, 0x044]
  | .par => [0x030, 0x038, 0x040]
  | .sec => [0x02C]
  | .bbr => [0x070, 0x078]
  | .fwd => [0x01C, 0x024]
  | .lane => [0x030, 0x040, 0x048, 0x050, 0x058, 0x060, 0x068, 0x070, 0x078, 0x080]
  | .dma => [0x018, 0x030, 0x038, 0x040]
  | .reb => [0x01C, 0x024, 0x02C]
  | .bin => [0x020]
  | .beam => [0x020, 0x028]
  | .cor => [0x030, 0x038, 0x040, 0x048]
  | .hst => [0x018, 0x028, 0x030, 0x038, 0x040, 0x048]
  | .cas => [0x024, 0x02C, 0x034, 0x03C, 0x044, 0x04C, 0x054]
  | .cko | .mon | .mem => []

/-- Slots of the pages, by name (R383). -/
abbrev sGlb : Nat := 0
abbrev sClk : Nat := 1
abbrev sSol : Nat := 2
abbrev sMeas : Nat := 3
abbrev sCtx : Nat := 4
abbrev sSeq : Nat := 5
abbrev sAcq : Nat := 6
abbrev sCal : Nat := 7
abbrev sPar : Nat := 8
abbrev sMon : Nat := 9
abbrev sSec : Nat := 10
abbrev sBbr : Nat := 11
abbrev sFwd (i : Nat) : Nat := 12 + i
abbrev sCko (i : Nat) : Nat := 16 + i
abbrev sTtl (i : Nat) : Nat := 64 + i
abbrev sTin (i : Nat) : Nat := 128 + i
abbrev sTout (i : Nat) : Nat := 192 + i
abbrev sLane (i : Nat) : Nat := 256 + i
abbrev sDma (i : Nat) : Nat := 320 + i
abbrev sReb (i : Nat) : Nat := 384 + i
abbrev sBin (i : Nat) : Nat := 388 + i
abbrev sBeam (i : Nat) : Nat := 392 + i
abbrev sCor (i : Nat) : Nat := 394 + i
abbrev sHst (i : Nat) : Nat := 396 + i
abbrev sMem (i : Nat) : Nat := 398 + i
abbrev sCas : Nat := 400

/-- The BAR0 byte address of a register (R382). -/
abbrev ra (slot off : Nat) : Nat := slot * 0x400 + off

end Sys2Proof.Machine
end

