-- ==== Sys2Proof/Machine/TabTable.lean ====
section
/-! DEFINITION. The table aperture (R390): where each table lies, and for each word of an entry its reset value, the
bits that are not reserved, and whether the host may write it, as the tables' chapters give them (R133, R134, R189,
R190, R193, R195, R223, R224, R225, R241, R242, R257, R258, R309). -/

namespace Sys2Proof.Machine

/-- The tables of R390. -/
inductive Tab where
  | ctx | micro | nano | mirror | svc | meas | rec' | tile | rx | delay | weightA | weightB | beam | cor | slot | blk
  | hctx | route | lad | hdef
  deriving DecidableEq, Repr

/-- A table's first byte, bytes in all, and bytes of an entry. -/
structure TabInfo where
  tab : Tab
  base : Nat
  size : Nat
  entry : Nat
  deriving DecidableEq, Repr

/-- The aperture of R390. -/
def tabs : List TabInfo :=
  [⟨.ctx, 0x0000_0000, 0x2_0000, 256⟩, ⟨.micro, 0x0002_0000, 0x1_0000, 4⟩, ⟨.nano, 0x0003_0000, 0x8000, 16⟩,
   ⟨.mirror, 0x0003_8000, 0x2000, 16⟩, ⟨.svc, 0x0003_A000, 0x1000, 4096⟩, ⟨.meas, 0x0004_0000, 0x2_0000, 128⟩,
   ⟨.rec', 0x0006_0000, 0x8000, 64⟩, ⟨.tile, 0x0008_0000, 0x2000, 128⟩, ⟨.rx, 0x0009_0000, 0x1_0000, 16⟩,
   ⟨.delay, 0x000C_0000, 0x4_0000, 4⟩, ⟨.weightA, 0x0010_0000, 0x8_0000, 8⟩, ⟨.weightB, 0x0018_0000, 0x8_0000, 8⟩,
   ⟨.beam, 0x0020_0000, 0x4000, 16⟩, ⟨.cor, 0x0020_4000, 0x4000, 32⟩, ⟨.slot, 0x0020_8000, 0x4000, 8⟩,
   ⟨.blk, 0x0020_C000, 0x2000, 16⟩, ⟨.hctx, 0x0021_0000, 0x4000, 32⟩, ⟨.route, 0x0021_4000, 0x400, 4⟩,
   ⟨.lad, 0x0030_0000, 0x10_0000, 16⟩, ⟨.hdef, 0x0040_0000, 0x40_0000, 64⟩]

/-- The table a BAR2 offset lies in, or none (R391). -/
def tabAt (off : Nat) : Option TabInfo := tabs.find? fun t => decide (t.base ≤ off) && decide (off < t.base + t.size)

/-- The offset of word `w` of entry `i` of each table. -/
abbrev oCtx (i w : Nat) : Nat := 256 * i + 4 * w
abbrev oMicro (a : Nat) : Nat := 0x2_0000 + 4 * a
abbrev oNano (a k : Nat) : Nat := 0x3_0000 + 16 * a + 4 * k
abbrev oMirror (i w : Nat) : Nat := 0x3_8000 + 16 * i + 4 * w
abbrev oSvc (w : Nat) : Nat := 0x3_A000 + 4 * w
abbrev oMeas (i w : Nat) : Nat := 0x4_0000 + 128 * i + 4 * w
abbrev oRec (i w : Nat) : Nat := 0x6_0000 + 64 * i + 4 * w
abbrev oTile (i w : Nat) : Nat := 0x8_0000 + 128 * i + 4 * w
abbrev oRx (r w : Nat) : Nat := 0x9_0000 + 16 * r + 4 * w
abbrev oDelay (k r : Nat) : Nat := 0xC_0000 + 0x4000 * k + 4 * r
abbrev oWeight (die i w : Nat) : Nat := 0x10_0000 + 0x8_0000 * die + 8 * i + 4 * w
abbrev oBeam (i w : Nat) : Nat := 0x20_0000 + 16 * i + 4 * w
abbrev oCor (i w : Nat) : Nat := 0x20_4000 + 32 * i + 4 * w
abbrev oSlot (i w : Nat) : Nat := 0x20_8000 + 8 * i + 4 * w
abbrev oBlk (i w : Nat) : Nat := 0x20_C000 + 16 * i + 4 * w
abbrev oHctx (i w : Nat) : Nat := 0x21_0000 + 32 * i + 4 * w
abbrev oRoute (slot : Nat) : Nat := 0x21_4000 + slot / 4 * 4
abbrev oLad (i w : Nat) : Nat := 0x30_0000 + 16 * i + 4 * w
abbrev oHdef (i w : Nat) : Nat := 0x40_0000 + 64 * i + 4 * w

/-- The reset value of word `w` of an entry. -/
def tabWordReset (t : Tab) (w : Nat) : Word :=
  match t with
  | .ctx => if w = 0 then 0x1000_2000 else if 4 ≤ w ∧ w ≤ 11 then 0xC000_C000
            else if 20 ≤ w ∧ w ≤ 23 then 0xFFFF_FFFF else 0
  | .meas => if w = 2 then 0x0000_0100 else if w = 3 then 0x001E_8480 else if w = 6 then 2 else 0
  | .rec' => if w = 0 then 0x0028_0001 else if w = 2 then 0x0000_07D0 else if w = 3 then 0x0001_0000 else 0
  | .tile => if w = 0 then 0x30 else if w = 1 then 0x2710 else if w = 2 then 0x190 else if w = 8 then 0xA else 0
  | .cor => if w = 1 then 0x9C40 else if w = 2 then 0x0002_0000 else 0
  | .blk => if w = 0 then 0x000E_0000 else 0
  | .hctx => if w = 0 then 0x4020_0000 else 0
  | .lad => if w = 0 then 0x000C_0000 else 0
  | .hdef => if w = 2 then 0x400 else 0
  | .micro | .nano | .mirror | .svc | .rx | .delay | .weightA | .weightB | .beam | .slot | .route => 0

/-- The bits of word `w` that are not reserved, and 0 where the host may not write the word (R391). -/
def tabWordMask (t : Tab) (w : Nat) : Word :=
  match t with
  | .ctx => if w = 0 then 0xFFFF_FF80 else if w ≤ 23 then 0xFFFF_FFFF
            else if w ≤ 31 then (if w % 2 = 0 then 0xFFFF_FFFF else 0xFFFF) else 0
  | .micro | .nano | .svc | .route | .delay => 0xFFFF_FFFF
  | .mirror | .rx => 0
  | .meas => if w = 0 then 0x0FFF_FFFF else if w = 1 then 0x1FFF_1FFF else if w = 2 then 0xFFFF_FF3F
             else if w = 4 then 0xFFFF else if w = 6 ∨ w = 7 then 0x00FF_FFFF
             else if w ≤ 11 then 0xFFFF_FFFF else 0
  | .rec' => if w ≤ 2 then 0xFFFF_FFFF else if w = 3 then 0xFFFF_1FFF else if w = 4 then 0xFFF
             else if w ≤ 12 then 0x1FFF_1FFF else 0
  | .tile => if w = 0 then 0xF3 else if w = 1 ∨ w = 2 then 0x00FF_FFFF else if w ≤ 4 then 0xFFFF_FFFF else 0
  | .weightA | .weightB => if w = 0 then 0x83FF_07FF else 0x3F1F
  | .beam => if w = 0 then 0x801F_01FF else 0
  | .cor => if w ≤ 1 then 0xFFFF_FFFF else if w = 2 then 0x000F_FFFF else 0
  | .slot => if w = 0 then 0xFFE0_0FFF else 0
  | .blk => if w = 0 then 0x800F_FFFF else 0
  | .hctx => if w = 0 then 0xFFF0_0000 else if w = 1 then 0xFFFF_FFFF else if w = 2 then 0xFFFF else 0
  | .lad => if w = 0 then 0x9FFF_87FF else if w = 1 then 0x7FF else 0
  | .hdef => if w = 0 then 0xFFFE_1FFF else if w = 1 then 0x1FFF_003F else if w = 2 then 0x1FFF_FFFF
             else if w ≤ 4 then 0xFFFF_FFFF else 0

/-- Word `w` of its entry that an offset names. -/
def TabInfo.word (t : TabInfo) (off : Nat) : Nat := (off - t.base) % t.entry / 4

/-- The entry that an offset names. -/
def TabInfo.index (t : TabInfo) (off : Nat) : Nat := (off - t.base) / t.entry

/-- What a table word reads as when nothing is listed. -/
def tabReset (off : Nat) : Word :=
  match tabAt off with
  | some t => tabWordReset t.tab (t.word off)
  | none => 0

/-- The bits of a table word that the host may write. -/
def tabMask (off : Nat) : Word :=
  match tabAt off with
  | some t => tabWordMask t.tab (t.word off)
  | none => 0

end Sys2Proof.Machine
end

