-- ==== Sys2Proof/Machine/Ops.lean ====
section
/-! DEFINITION. The operations every block uses: the clock and the epoch (R18), registers and counters (R7, R26),
event bits and interrupts (R349, R350), black-box entries (R374, R375, R379), free values, and the one wrapper through
which every command runs. -/

namespace Sys2Proof.Machine

/-! ### Clock and epoch -/

/-- Coarse edges in 1 µs (R2: a coarse period is 500 ps). -/
abbrev usEdges : Nat := 2000

/-- The clock advanced to the coarse edge of a command; it never runs backwards. -/
def State.advance (s : State) (t : Nat) : State := { s with now := max s.now t }

/-- A state with the queue, the PORST_N pin and the origin of the epoch of another, at a clock. -/
def State.keep (x s : State) (n : Nat) : State :=
  { x with pending := s.pending, now := n, porst := s.porst, solEdge := s.solEdge, wraps := s.wraps }

/-- A state with another queue. -/
def State.requeue (s : State) (q : List Instr) : State := { s with pending := q }

/-- A command: its effect at the clock it names; while PORST_N is low the whole device is in reset, and nothing has one
(R366). The queue is not part of any effect, nor is the clock, nor the PORST_N pin, nor the origin of the epoch, which
only a Solstice or PORST_N moves (R18, R19); a change of the time base's flags is noted. DESIGN CHOICE (log entry 3). -/
def command (t : Nat) (f : State → State) (s : State) : Host.Outcome State Fault Refusal :=
  .next ((if s.porst then s.advance t else f (s.advance t)).noteFlags.keep s (max s.now t))

/-- The epoch counter: 2,000 qps per coarse edge since the last Solstice or the release of PORST_N, modulo 2^64
(R3, R18). -/
def State.epoch (s : State) : Nat := ((s.now - s.solEdge) * 2000) % 2 ^ 64

/-- The present instant on the unbroken count, in qps. -/
def State.phys (s : State) : Int := 2000 * (s.now : Int)

/-- The epoch value of an instant of the unbroken count (R59: modulo 2^64). -/
def State.epochOf (s : State) (p : Int) : Nat := m64 (p - 2000 * (s.solEdge : Int))

/-- The instant of the unbroken count nearest to now at which the epoch has a value. -/
def State.physOf (s : State) (e : Nat) : Int := s.phys + sdiff e s.epoch

/-! ### Free values -/

/-- A value the spec leaves open, and the counter advanced so that the next one is another. DESIGN CHOICE (log entry 6). -/
def State.fresh (s : State) : Nat × State := (Config.freeNat s.freeCtr, { s with freeCtr := s.freeCtr + 1 })

/-! ### Registers -/

/-- The live word of a register (R7). -/
def State.reg (s : State) (a : Nat) : Word := Sparse.get (regReset a) s.regs a

/-- A register's live word replaced. -/
def State.setReg (s : State) (a : Nat) (v : Word) : State :=
  { s with regs := Sparse.set (regReset a) s.regs a v }

/-- A field of a page's register. -/
def State.rfld (s : State) (slot off lo w : Nat) : Nat := fld (s.reg (ra slot off)) lo w

/-- One bit of a page's register. -/
def State.rbit (s : State) (slot off i : Nat) : Bool := bit (s.reg (ra slot off)) i

/-- A field of a page's register replaced. -/
def State.setRfld (s : State) (slot off lo w n : Nat) : State :=
  s.setReg (ra slot off) (setFld (s.reg (ra slot off)) lo w n)

/-- A register's word replaced by a number. -/
def State.setRegN (s : State) (slot off n : Nat) : State := s.setReg (ra slot off) (BitVec.ofNat 32 n)

/-- The 64-bit value of a register pair whose `_LO` stands at an offset of a page. -/
def State.reg64 (s : State) (slot off : Nat) : Nat :=
  (s.reg (ra slot off)).toNat + 2 ^ 32 * (s.reg (ra slot (off + 4))).toNat

/-- A register pair replaced. -/
def State.setReg64 (s : State) (slot off n : Nat) : State :=
  (s.setReg (ra slot off) (BitVec.ofNat 32 n)).setReg (ra slot (off + 4)) (BitVec.ofNat 32 (n / 2 ^ 32))

/-- A 64-bit counter advanced, saturating (R26). -/
def State.bump64 (s : State) (slot off k : Nat) : State := s.setReg64 slot off (satAdd 64 (s.reg64 slot off) k)

/-- A 32-bit counter advanced, saturating (R26). -/
def State.bump32 (s : State) (slot off k : Nat) : State :=
  s.setRegN slot off (satAdd 32 (s.reg (ra slot off)).toNat k)

/-- A 32-bit wrapping tally advanced (R26). -/
def State.wrap32 (s : State) (slot off : Nat) : State := s.setRegN slot off ((s.reg (ra slot off)).toNat + 1)

/-- A register raised to a level if the level is higher. -/
def State.peak (s : State) (slot off n : Nat) : State :=
  if (s.reg (ra slot off)).toNat < n then s.setRegN slot off n else s

/-- `PAGE_CTRL.ENABLE` of a page (R341). -/
def State.pageOn (s : State) (slot : Nat) : Bool := s.rbit slot 0x010 1

/-- Whether a page is in STATE 2, RESETTING (R351). -/
def State.inReset (s : State) (slot : Nat) : Bool := s.resetting.contains slot

/-- The page generation (R340). -/
def State.gen (s : State) (slot : Nat) : Nat := s.rfld slot 0x004 4 4

/-! ### Table words -/

/-- The live word of a table (R390). -/
def State.tabw (s : State) (off : Nat) : Word := Sparse.get (tabReset off) s.tab off

/-- A table word replaced. -/
def State.setTabw (s : State) (off : Nat) (v : Word) : State := { s with tab := Sparse.set (tabReset off) s.tab off v }

/-- A field of a table word. -/
def State.tfld (s : State) (off lo w : Nat) : Nat := fld (s.tabw off) lo w

/-- A bit of a table word. -/
def State.tbit (s : State) (off i : Nat) : Bool := bit (s.tabw off) i

/-- A field of a table word replaced. -/
def State.setTfld (s : State) (off lo w n : Nat) : State := s.setTabw off (setFld (s.tabw off) lo w n)

/-- A table word replaced by a number. -/
def State.setTabN (s : State) (off n : Nat) : State := s.setTabw off (BitVec.ofNat 32 n)

/-- Two consecutive table words as one 64-bit value, the low word first. -/
def State.tab64 (s : State) (off : Nat) : Nat := (s.tabw off).toNat + 2 ^ 32 * (s.tabw (off + 4)).toNat

/-- Two consecutive table words replaced. -/
def State.setTab64 (s : State) (off n : Nat) : State :=
  (s.setTabN off n).setTabN (off + 4) (n / 2 ^ 32)

/-- A 32-bit counter of a table advanced, saturating (R26). -/
def State.tbump (s : State) (off k : Nat) : State := s.setTabN off (satAdd 32 (s.tabw off).toNat k)

/-- An effect under the entries that a stopped context ran with: words written since it stopped are put back after it. -/
def State.asOf (s : State) (c : Nat) (f : State → State) : State :=
  match Sparse.get [] s.oldWords c with
  | [] => f s
  | l =>
    let put (s : State) (l : List (Nat × Word)) : State := l.foldl (fun s e => s.setTabw e.1 e.2) s
    put (f (put s l)) (l.map fun e => (e.1, s.tabw e.1))

/-- The stopped context that ran with other words of an entry of `n` words than those it now has. -/
def State.keeper (s : State) (off n : Nat) : Option Nat :=
  (s.oldWords.find? fun e => e.2.any fun w => decide (off ≤ w.1) && decide (w.1 < off + 4 * n)).map (·.1)

/-- An effect under an entry's words as its stopped owner ran with them. -/
def State.asKept (s : State) (off n : Nat) (f : State → State) : State :=
  match s.keeper off n with
  | some c => s.asOf c f
  | none => f s

/-! ### Interrupts -/

/-- The MSI-X table's word at reset: as the PCI Express Base Specification has it, every vector masked. PRESUMED (log entry 7). -/
def msixReset (off : Nat) : Word := if off % 16 = 12 then 1 else 0

/-- A word of the MSI-X table. -/
def State.msixWord (s : State) (off : Nat) : Word := Sparse.get (msixReset off) s.msixTable off

/-- Send a vector's message, or hold it in the PBA while the vector is masked (R337, R350). -/
def State.msix (s : State) (v : Nat) : State :=
  if bit (s.msixWord (16 * v + 12)) 0 then
    { s with pba := if s.pba.contains v then s.pba else v :: s.pba }
  else { s with out := .msix v :: s.out }

/-- The routing byte of a page (R350, R390). -/
def State.routeByte (s : State) (slot : Nat) : Nat := s.tfld (0x0021_4000 + slot / 4 * 4) (slot % 4 * 8) 8

/-- A page raises its vector: 64 + the routing byte's low six bits, unless its bit 7 is set (R350). -/
def State.raise (s : State) (slot : Nat) : State :=
  let b := s.routeByte slot
  if b / 128 % 2 = 1 then s else s.msix (64 + b % 64)

/-- The cycle of a page's island clock that a coarse edge falls in (R349): 2 GHz for TIN and TOUT channels, 1 GHz for
the sequencer and measurement engine, 400 MHz for the management controller, 1.25 GHz for the X die engines. For the
islands whose clock the spec does not give in hertz the coarse edge is taken. DEDUCED (log entry 18). -/
def islandCycle (slot t : Nat) : Nat :=
  match pageAt slot with
  | some p =>
    match p.kind with
    | .meas | .ctx | .seq | .acq => t / 2
    | .glb | .cal | .par | .mon | .sec | .bbr => t / 5
    | .reb | .bin | .beam | .cor | .hst => t * 5 / 8
    | _ => t
  | none => t

/-- Hardware sets an event bit: the bit is 1, SETS advances modulo 2^16, and an enabled bit that changes from 0 to 1
raises the page's vector (R340, R349, R350). -/
def State.evt (s : State) (slot b : Nat) : State :=
  let old := s.reg (ra slot 0x008)
  let s1 := s.setReg (ra slot 0x008) (old ||| put 1 b 1)
  let s2 := s1.setRfld slot 0x004 16 16 (s1.rfld slot 0x004 16 16 + 1)
  let s3 := { s2 with evtAt := Sparse.put s2.evtAt (32 * slot + b) (islandCycle slot s2.now) }
  if !bit old b && s3.rbit slot 0x00C b then s3.raise slot else s3

/-! ### Black-box entries -/

/-- An entry as it is queued: the uptime and epoch of now (R378). -/
def State.bbrEntry (s : State) (code slot : Nat) (data : List Nat) : BEntry :=
  { uptime := s.now / usEdges, epoch := if s.dev = .booting then 0 else s.epoch, code, slot
    data := data.map fun n => BitVec.ofNat 32 n }

/-- Drops are owed an entry: it is queued when the queue, which holds 256, has room (R375, CODE 18). -/
def State.bbrRoom (s : State) : State :=
  if decide (0 < s.bbr.drops) && decide (s.bbr.queue.length < 256) then
    { s with bbr := { s.bbr with queue := s.bbr.queue ++ [s.bbrEntry 18 0xFFFF [s.bbr.drops]], drops := 0 } }
  else s

/-- An entry is queued, or dropped where the queue is full (R375). An entry that drops are owed goes before it. -/
def State.bbrPush (s0 : State) (code slot : Nat) (data : List Nat) : State :=
  let s := s0.bbrRoom
  if 256 ≤ s.bbr.queue.length then
    ({ s with bbr := { s.bbr with drops := s.bbr.drops + 1 } }.bump64 sBbr 0x070 1).evt sBbr 1
  else { s with bbr := { s.bbr with queue := s.bbr.queue ++ [s.bbrEntry code slot data] } }

/-- The time of the last entry of a host-made event and the repeats suppressed since, if there was one. -/
def recentOf (l : List (Nat × Nat × Nat)) (code : Nat) : Option (Nat × Nat) := Sparse.find l code

/-- An entry for an event of the host's own making: only the first in any 1 ms, with DATA [31:28] counting the repeats
suppressed (R379). -/
def State.bbrHost (s : State) (code slot : Nat) (data : List Nat) : State :=
  match recentOf s.bbr.recent code with
  | some (at', reps) =>
    if s.now < at' + 1000 * usEdges then
      { s with bbr := { s.bbr with recent := Sparse.put s.bbr.recent code (at', reps + 1) } }
    else
      let d := match data with
        | [] => [(min reps 15) * 2 ^ 28]
        | x :: r => (x % 2 ^ 28 + (min reps 15) * 2 ^ 28) :: r
      { s with bbr := { s.bbr with recent := Sparse.put s.bbr.recent code (s.now, 0) } }.bbrPush code slot d
  | none => { s with bbr := { s.bbr with recent := Sparse.put s.bbr.recent code (s.now, 0) } }.bbrPush code slot data

/-- A FAULT entry, CODE 15 (R379): source and code. -/
def State.bbrFault (s : State) (slot src code : Nat) : State := s.bbrPush 15 slot [src, code]

/-! ### Device state -/

/-- `GLB.STATE.STATE`'s code of a device state. -/
def devCode (d : DevSt) : Nat :=
  match d with
  | .booting => 0 | .awaiting => 1 | .dormant => 2 | .locking => 3 | .running => 4 | .stopped => 5

/-- Enter a device state; STATE_CHG is set when it is another one (18_host_control.md, `GLB.PAGE_EVT`). -/
def State.enter (s : State) (d : DevSt) : State :=
  if s.dev = d then s else { s with dev := d }.evt sGlb 3

/-- Whether the device may run contexts: RUNNING or STOPPED (R372). -/
def State.live (s : State) : Bool := decide (s.dev = .running) || decide (s.dev = .stopped)

/-! ### Instances -/

def State.stamper (s : State) (c : Nat) : Stamper := Sparse.get {} s.stampers c
def State.setStamper (s : State) (c : Nat) (x : Stamper) : State := { s with stampers := Sparse.set {} s.stampers c x }
def State.tin (s : State) (c : Nat) : Tin := Sparse.get {} s.tins c
def State.setTin (s : State) (c : Nat) (x : Tin) : State := { s with tins := Sparse.set {} s.tins c x }
def State.ref (s : State) (x : Nat) : Ref := Sparse.get {} s.refs x
def State.setRef (s : State) (x : Nat) (r : Ref) : State := { s with refs := Sparse.set {} s.refs x r }
def State.cko (s : State) (n : Nat) : Cko := Sparse.get {} s.ckos n
def State.setCko (s : State) (n : Nat) (c : Cko) : State := { s with ckos := Sparse.set {} s.ckos n c }
def State.ttl (s : State) (k : Nat) : Ttl := Sparse.get {} s.ttls k
def State.setTtl (s : State) (k : Nat) (x : Ttl) : State := { s with ttls := Sparse.set {} s.ttls k x }
def State.fwd (s : State) (d : Nat) : Fwd := Sparse.get {} s.fwds d
def State.setFwd (s : State) (d : Nat) (x : Fwd) : State := { s with fwds := Sparse.set {} s.fwds d x }
def State.mslot (s : State) (i : Nat) : MSlot := Sparse.get {} s.meas i
def State.setMslot (s : State) (i : Nat) (x : MSlot) : State := { s with meas := Sparse.set {} s.meas i x }
def State.tout (s : State) (n : Nat) : Tout := Sparse.get {} s.touts n
def State.setTout (s : State) (n : Nat) (x : Tout) : State := { s with touts := Sparse.set {} s.touts n x }
def State.lane (s : State) (n : Nat) : Lane := Sparse.get {} s.lanes n
def State.setLane (s : State) (n : Nat) (x : Lane) : State := { s with lanes := Sparse.set {} s.lanes n x }
def State.tile (s : State) (n : Nat) : Tile := Sparse.get {} s.tiles n
def State.setTile (s : State) (n : Nat) (x : Tile) : State := { s with tiles := Sparse.set {} s.tiles n x }
def State.plane (s : State) (p : Nat) : Plane := Sparse.get {} s.planes p
def State.setPlane (s : State) (p : Nat) (x : Plane) : State := { s with planes := Sparse.set {} s.planes p x }
def State.cor (s : State) (c : Nat) : Cor := Sparse.get {} s.cors c
def State.setCor (s : State) (c : Nat) (x : Cor) : State := { s with cors := Sparse.set {} s.cors c x }
def State.hdef (s : State) (d : Nat) : HDef := Sparse.get {} s.hdefs d
def State.setHdef (s : State) (d : Nat) (x : HDef) : State := { s with hdefs := Sparse.set {} s.hdefs d x }
def State.hctx (s : State) (c : Nat) : HCtx := Sparse.get {} s.hctxs c
def State.setHctx (s : State) (c : Nat) (x : HCtx) : State := { s with hctxs := Sparse.set {} s.hctxs c x }
def State.heng (s : State) (d : Nat) : HEng := Sparse.get {} s.hengs d
def State.setHeng (s : State) (d : Nat) (x : HEng) : State := { s with hengs := Sparse.set {} s.hengs d x }
def State.ctx (s : State) (c : Nat) : Ctx := Sparse.get {} s.ctxs c
def State.setCtx (s : State) (c : Nat) (x : Ctx) : State := { s with ctxs := Sparse.set {} s.ctxs c x }
def State.cap (s : State) (c : Nat) : Cap := Sparse.get {} s.caps c
def State.setCap (s : State) (c : Nat) (x : Cap) : State := { s with caps := Sparse.set {} s.caps c x }
def State.dmaCh (s : State) (n : Nat) : Dma := Sparse.get {} s.dma n
def State.setDma (s : State) (n : Nat) (x : Dma) : State := { s with dma := Sparse.set {} s.dma n x }

/-- Send something out of the block. -/
def State.emit (s : State) (o : Output) : State := { s with out := o :: s.out }

/-- A producer hands a finished message to a DMA channel (R354). -/
def State.hand (s : State) (ch : Nat) (m : Msg) : State :=
  s.setDma ch { s.dmaCh ch with handed := (s.dmaCh ch).handed ++ [m] }

/-- Apply an operation to a state for each element of a list, in order. -/
def State.each {α : Type} (s : State) (l : List α) (f : State → α → State) : State := l.foldl f s

end Sys2Proof.Machine
end

