-- ==== Sys2Proof/Machine/Stamper.lean ====
section
/-! DEFINITION. The stampers (04_timing_inputs.md): scaling of codes to instants (R83, R84), epoch assignment (R85),
marks (R99, R409), Equinoxes, swaps and windows (R87 to R94), the boot Equinoxes (R103), and the steps that
calibration runs on an out-of-service interpolator (R314 to R316). Channel numbers are those of R310: 0–63 TIN,
64–95 echo stampers, 96–99 references, 100 SYNC_IN, 101 PAIR_TE_IN. -/

namespace Sys2Proof.Machine

/-- Coarse periods of a rotation (R90), of an Equinox (R87) and of a swap window (R92). -/
abbrev rotation : Nat := 2 ^ 20
abbrev eqxLen : Nat := 64
abbrev swapWin : Nat := 8

/-- The four interpolators by number. -/
def Stamper.interp (x : Stamper) (i : Nat) : Interp :=
  if i = 0 then x.i0 else if i = 1 then x.i1 else if i = 2 then x.i2 else x.i3

/-- One interpolator replaced. -/
def Stamper.setInterp (x : Stamper) (i : Nat) (v : Interp) : Stamper :=
  if i = 0 then { x with i0 := v } else if i = 1 then { x with i1 := v }
  else if i = 2 then { x with i2 := v } else { x with i3 := v }

/-- The interpolator at a position. -/
def Stamper.at' (x : Stamper) (p : Nat) : Nat := if p = 0 then x.p0 else if p = 1 then x.p1 else x.p2

/-- A position given another interpolator. -/
def Stamper.setAt (x : Stamper) (p i : Nat) : Stamper :=
  if p = 0 then { x with p0 := i } else if p = 1 then { x with p1 := i } else { x with p2 := i }

/-- The pseudocode of R83 with the clamp of R84: the interval L in qps, and whether the code was clamped. -/
def codeToL (i : Interp) (q : Nat) : Nat × Bool :=
  let q8 := 8 * q
  let c := if q8 < i.q1 then i.q1 else if i.q2 ≤ q8 then i.q2 - 1 else q8
  (2000 + ((c - i.q1) * i.f16 + 2 ^ 18) / 2 ^ 19, decide (c ≠ q8))

/-- The interpolator that converts an edge handed to the next position with stop edge `t` (R91): the one that left at W
keeps the edges handed to that position before W, which are those whose stop edge is no later than W + 1, but for an edge
exactly at W (L of one coarse period). -/
def Stamper.converter (x : Stamper) (t q : Nat) : Nat :=
  let i := x.at' x.nextPos
  match x.windowAt, x.outgoing with
  | some w, some (p, o) =>
    if p = x.nextPos then
      if t ≤ w then o
      else if t = w + 1 then (if (codeToL (x.interp o) q).1 = 2000 then i else o)
      else i
    else i
  | _, _ => i

/-- The application edge that waits, of a fixed request or of a pending AT (R62, R64). -/
def State.solAhead (s : State) : Option Nat := (s.sol.fixed.map (·.1)).or s.sol.atPend

/-- The coarse edge at which the epoch of an instant began: the last Solstice's, or the one before where the instant lies before
that (R85). -/
def State.originOf (s : State) (p : Int) : Nat := if p < 2000 * (s.solEdge : Int) then s.sol.prevEdge else s.solEdge

/-- The origin of the epoch that an instant is stamped in: one at or after an application edge that waits lies in the new epoch
already (R85). DEDUCED (log entry 54). -/
def State.stampOrigin (s : State) (p : Int) : Nat :=
  match s.solAhead with
  | some a => if 2000 * (a : Int) ≤ p then a else s.originOf p
  | none => s.originOf p

/-- The time of a stamp: its instant's epoch, in the old epoch when it lies before the Solstice's application edge (R85). -/
def State.stampTime (s : State) (p : Int) : Nat := m64 (p - 2000 * (s.stampOrigin p : Int))

/-- How often an epoch with a given origin has wrapped by an instant (R3). -/
def wrapsIn (o : Nat) (p : Int) : Nat := ((p - 2000 * (o : Int)) / 2 ^ 64).toNat

/-- The marks of an item at an instant of an epoch (R3, R60, R85, R99): SOLS on its source's first of the epoch, WRAP on its first
since the epoch wrapped. `seen` is what the source's newest item so far left. -/
def marksDue (o : Nat) (p : Int) (seen : Nat × Nat) : Nat :=
  flagIf (decide (seen.1 < o)) fSOLS |||
  flagIf (decide (seen.1 ≤ o) && decide ((if seen.1 = o then seen.2 else 0) < wrapsIn o p)) fWRAP

/-- What such an item leaves. -/
def seenAfter (o : Nat) (p : Int) (seen : Nat × Nat) : Nat × Nat :=
  if seen.1 < o then (o, wrapsIn o p) else if seen.1 = o then (o, max seen.2 (wrapsIn o p)) else seen

/-- Marks owed by dropped items, joined to those of the item after them: where that begins an epoch, a wrap before it counts no
more (R60, R409). -/
def joinMarks (owed flags : Nat) : Nat :=
  (if flags &&& fSOLS ≠ 0 then owed &&& fSOLS else owed &&& (fSOLS ||| fWRAP)) ||| (flags &&& (fSOLS ||| fWRAP))

/-- Whether a stop edge lies in an open swap window (R92). -/
def Stamper.inWindow (x : Stamper) (t : Nat) : Bool :=
  match x.windowAt with
  | some w => decide (w ≤ t) && decide (t < w + swapWin)
  | none => false

/-- The flags of a stamp with stop edge `t` at an instant (R99). -/
def State.stampFlags (s : State) (x : Stamper) (t : Nat) (p : Int) : Nat :=
  s.flagsAt t ||| flagIf (x.inWindow t) fCAL ||| marksDue (s.stampOrigin p) p x.seen

/-- A stamper after a stamp at an instant: the next position and number, what its marks have told, and the stamps that are still
ahead of the clock (R81, R85, R97). -/
def State.stamped (s : State) (x : Stamper) (p : Int) : Stamper :=
  { x with
    nextPos := (x.nextPos + 1) % 3, seq := (x.seq + 1) % 2 ^ 32, seen := seenAfter (s.stampOrigin p) p x.seen
    ahead := (x.ahead ++ [(x.seq, p)]).filter fun e => decide (s.phys < e.2) }

/-- An edge that a stamper without separation tests converts (echoes R145, references R32, SYNC_IN, PAIR_TE_IN): the
stamp with source `src`, a delay `d` taken off, and the stamper after it. -/
def State.plainStamp (s : State) (c src t q : Nat) (rising : Bool) (d : Int) : Stamp × State :=
  let x := s.stamper c
  let l := (codeToL (x.interp (x.converter t q)) q).1
  let p : Int := 2000 * (t : Int) - l - x.dPin - d
  (⟨src, p, s.stampTime p, rising, s.stampFlags x t p, x.seq⟩, s.setStamper c (s.stamped x p))

/-! ### Calibration steps on the out-of-service interpolator -/

/-- Coarse periods of a calibration step (R314, R315, R317). -/
def calStepLen (step : Nat) : Nat := if step = 2 then 100_000 else if step = 3 then 300_000 else 200_000

/-- A channel of the calibration run in progress. -/
def State.calCh (s : State) (c : Nat) : Option CalCh := Sparse.find s.cal.chans c

/-- That channel replaced. -/
def State.setCalCh (s : State) (c : Nat) (x : CalCh) : State :=
  { s with cal := { s.cal with chans := Sparse.put s.cal.chans c x } }

/-- A waiting step begins where it can end before the rotation count reaches 2^20 − 64, no Equinox holds the
interpolator and PLL_T is locked (R316, R322); a cell step on an interpolator not yet visited, or on a stuck one (R314, R322). -/
def State.calTryStep (s : State) (c : Nat) : State :=
  match s.calCh c with
  | some k =>
    let x := s.stamper c
    if k.stepAt.isNone && !k.waitSwap && k.endAt.isNone && decide (k.step < 4) && x.eqx.isNone && s.loop.lockT &&
        (decide (k.step ≠ 0) || x.stuck || !k.visited.contains x.oos) &&
        decide (s.now + calStepLen k.step < x.lastSwap + rotation - eqxLen) then
      s.setCalCh c { k with stepAt := some s.now }
    else s
  | none => s

/-- A gate request suspends the step in progress; the 64th suspension in succession fails the channel's run with the old
selection kept (R94, R316). -/
def State.calSuspend (s : State) (c : Nat) : State :=
  match s.calCh c with
  | some k =>
    if k.stepAt.isSome then
      if k.suspended + 1 ≥ 64 then
        s.setCalCh c { k with stepAt := none, suspended := k.suspended + 1, failed := true, failStep := k.step,
                              endAt := some s.now }
      else s.setCalCh c { k with stepAt := none, suspended := k.suspended + 1, waitSwap := !(s.stamper c).stuck }
    else s
  | none => s

/-- PLL_T loses lock: a step in progress is abandoned and its channel restarts from its first step (R322). -/
def State.calAbandon (s : State) (c : Nat) : State :=
  match s.calCh c with
  | some k => if k.stepAt.isSome then (s.setStamper c { s.stamper c with dPinNext := none }).setCalCh c {} else s
  | none => s

/-! ### Equinoxes and swaps -/

/-- An event bit of a TIN page, for the channels that have one. -/
def State.tinEvt (s : State) (c b : Nat) : State := if c < 64 then s.evt (sTin c) b else s

/-- A 64-bit counter of a TIN page. -/
def State.tinBump (s : State) (c off : Nat) : State := if c < 64 then s.bump64 (sTin c) off 1 else s

/-- The page slot of a stamper's channel, for black-box entries: TIN, TOUT, CLK, SOL or PAR. -/
def stamperSlot (c : Nat) : Nat :=
  if c < 64 then sTin c else if c < 96 then sTout (c - 64) else if c < 100 then sClk
  else if c = 100 then sSol else sPar

/-- Whether eight codes spread over no more than 3. -/
def tightCodes (l : List Nat) : Bool := decide (l.foldl max 0 ≤ l.foldl min (l.headD 0) + 3)

/-- The plausibility check of R88 on the sums of eight codes (eighths of a code). -/
def eqxPass (c1 c2 : List Nat) : Bool :=
  let q1 := c1.sum
  let q2 := c2.sum
  decide (q1 + 1792 ≤ q2) && decide (q2 ≤ q1 + 2304) && decide (1600 ≤ q1) && decide (q1 ≤ 2560) &&
    tightCodes c1 && tightCodes c2

/-- The scale of a passing Equinox (R83, R88). -/
def eqxLoad (i : Interp) (c1 c2 : List Nat) : Interp :=
  let q1 := c1.sum
  let q2 := c2.sum
  { i with q1 := q1, q2 := q2, f16 := (2000 * 2 ^ 19) / (q2 - q1) }

/-- A swap at W: the out-of-service interpolator takes the position in service longest, the window opens, the count
restarts, and a new pin delay and comparator pair that waited apply (R90 to R92, R315). -/
def Stamper.swap (x : Stamper) (w : Nat) : Stamper :=
  let p := x.oldPos
  let o := x.at' p
  let x1 := { x.setAt p x.oos with
    oos := o, outgoing := some (p, o), windowAt := some w, lastSwap := w, oldPos := (p + 1) % 3 }
  match x1.dPinNext with
  | some (d, pr) => { x1 with dPin := d, pair := pr, dPinNext := none }
  | none => x1

/-- After a swap, a waiting cell step may start on the interpolator that left, and a channel whose pin step has passed
ends its run 8 coarse periods later (R314, R315). -/
def State.calAfterSwap (s : State) (c w : Nat) : State :=
  match s.calCh c with
  | some k =>
    if k.endAt.isNone && decide (k.step = 4) && decide (c < 64 ∨ 95 < c) &&
        (decide (c < 96) || (s.tout (c - 64)).tapNext.isNone) then
      s.setCalCh c { k with endAt := some (w + swapWin), waitSwap := false }
    else (s.setCalCh c { k with waitSwap := false }).calTryStep c
  | none => s

/-- The four failures in succession of R89. -/
def State.eqxStuck (s : State) (c : Nat) : State :=
  let x := s.stamper c
  if x.fails = 4 then
    ((s.setStamper c { x with stuck := true }).tinEvt c 5).bbrFault (stamperSlot c) c 1
  else s

/-- Capture begins: READY is set and the event CAPTURE (R103). -/
def State.stamperStart (s : State) (c : Nat) (x : Stamper) : State :=
  let s1 := s.setStamper c { x with booted := true, bootFail := false, ready := true, lastSwap := s.now }
  if c < 64 && s1.pageOn (sTin c) then s1.tinEvt c 0 else s1

/-- Three interpolators take P0 to P2, in ascending number (R103). -/
def Stamper.takeThree (x : Stamper) (pass : Nat) : Stamper :=
  let l := [0, 1, 2, 3].filter fun i => decide (pass / 2 ^ i % 2 = 1)
  match l with
  | [a, b, c] => { x with p0 := a, p1 := b, p2 := c, oos := 6 - (a + b + c) }
  | _ => x

/-- A boot Equinox ends (R103): the four interpolators run in turn. A gate request that fell in the last one gets its
own Equinox after it. -/
def State.bootEqxDone (s : State) (c : Nat) (e : Eqx) (c1 c2 : List Nat) : State :=
  let x := s.stamper c
  let i := x.bootRun
  let ok := eqxPass c1 c2
  let x1 := if ok then x.setInterp i (eqxLoad (x.interp i) c1 c2) else x
  let pass := if ok then x.bootPass + 2 ^ i else x.bootPass
  let x2 := { x1 with
    bootRun := i + 1, bootPass := pass, lastPass := ok,
    eqx := if i < 3 then some ⟨s.now, e.gate⟩ else if e.gate then some ⟨s.now, true⟩ else none }
  let s1 := (s.setStamper c x2).tinBump c 0x040
  let s2 := if ok then s1 else (s1.tinBump c 0x048).tinEvt c 4
  let x3 := s2.stamper c
  if i = 2 ∧ pass = 7 then s2.stamperStart c x3
  else if i = 3 ∧ x3.booted then
    if ok then s2 else (s2.setStamper c { x3 with stuck := true }).tinEvt c 5
  else if i = 3 then
    if pass ∈ [7, 11, 13, 14] then
      (s2.stamperStart c { x3.takeThree pass with stuck := true }).tinEvt c 5
    else if pass = 15 then s2.stamperStart c x3
    else (s2.setStamper c { x3 with bootFail := true }).bbrFault (stamperSlot c) c 2
  else s2

/-- A rotation or gate-opening Equinox ends 64 coarse periods after its start (R88 to R94). A rotation count that reaches 2^20 − 64
exactly at the W of a gate-opening Equinox that fails reaches it while that Equinox runs. DEDUCED (log entry 54). -/
def State.runEqxDone (s : State) (c : Nat) (e : Eqx) (c1 c2 : List Nat) : State :=
  let x := s.stamper c
  let w := e.start + eqxLen
  if eqxPass c1 c2 then
    let x1 := x.setInterp x.oos (eqxLoad (x.interp x.oos) c1 c2)
    let x2 := { x1 with eqx := none, fails := 0, stuck := false, lastPass := true,
                        yAt := if e.gate then some (w + swapWin) else x1.yAt }
    ((s.setStamper c (x2.swap w)).tinBump c 0x040).calAfterSwap c w
  else
    let last := if x.lastSwap + rotation ≤ w + eqxLen then x.lastSwap + rotation else x.lastSwap
    let x1 := { x with
      eqx := none, fails := x.fails + 1, lastPass := false,
      lastSwap := if e.gate then last else w,
      yAt := if e.gate then some (w + swapWin) else x.yAt }
    let s1 := (((s.setStamper c x1).tinBump c 0x040).tinBump c 0x048).tinEvt c 4
    (s1.eqxStuck c).calTryStep c

/-- An Equinox ends with the codes of its sixteen conversions (R87, R88). Before its 64 coarse periods have passed, or
with none running, nothing happens. -/
def State.equinoxDone (s : State) (c : Nat) (c1 c2 : List Nat) : State :=
  let x := s.stamper c
  match x.eqx with
  | some e =>
    if s.now < e.start + eqxLen then s
    else if x.bootRun < 4 then s.bootEqxDone c e c1 c2
    else s.runEqxDone c e c1 c2
  | none => s

/-- The rotation count reaches 2^20 − 64 and an Equinox starts, unless one runs (R90, R94): it serves a gate request that waits. A
calibration step never reaches this edge (R316). -/
def State.rotationStart (s : State) (c : Nat) : State :=
  let x := s.stamper c
  let e := x.lastSwap + rotation - eqxLen
  if x.booted && x.eqx.isNone && decide (e ≤ s.now) && decide (x.bootRun = 4) then
    s.setStamper c { x with eqx := some ⟨e, x.reqWait⟩, reqWait := false }
  else s

/-- Whether READY is to be set at an edge still to come, for the requests that were served by the last Equinox (R93, R94). -/
def Stamper.yDue (x : Stamper) (t : Nat) : Bool := x.yAt.any fun y => decide (t < y)

/-- A gate request reaches a channel at G (R93, R94). DEDUCED (log entry 32). -/
def State.gateArrive (s : State) (c : Nat) : State :=
  let s0 := s.calSuspend c
  let x := s0.stamper c
  let x1 := { x with ready := false }
  match x.eqx with
  | some e => s0.setStamper c { x1 with eqx := some { e with gate := true } }
  | none =>
    let open' := match x.windowAt with
      | some w => decide (s.now < w + swapWin)
      | none => false
    if open' || x.yDue s.now then s0.setStamper c { x1 with reqWait := true }
    else s0.setStamper c { x1 with eqx := some ⟨s.now + 1, true⟩ }

/-- The swap window closes 8 coarse periods after the swap; READY is set at Y, or a waiting request starts its Equinox
there and suspends a calibration step that has begun meanwhile (R92 to R94). While a request is served by an Equinox that runs at
Y, READY stays clear. -/
def State.windowClose (s : State) (c : Nat) : State :=
  let x := s.stamper c
  let wEnd := match x.windowAt with
    | some w => decide (w + swapWin ≤ s.now)
    | none => false
  let yEnd := match x.yAt with
    | some y => decide (y ≤ s.now)
    | none => false
  let y := match x.yAt, x.windowAt with
    | some y, _ => y
    | none, some w => w + swapWin
    | none, none => s.now
  if wEnd || yEnd then
    let x1 := { x with
      windowAt := if wEnd then none else x.windowAt
      outgoing := if wEnd then none else x.outgoing
      yAt := if yEnd then none else x.yAt }
    if x.reqWait then (s.calSuspend c).setStamper c { x1 with reqWait := false, eqx := some ⟨y, true⟩ }
    else if yEnd then s.setStamper c { x1 with ready := !(x.eqx.any (·.gate)) }
    else s.setStamper c x1
  else s

/-- Boot Equinoxes begin on every stamper once the selections are loaded (R103, R367). -/
def State.bootEqxStart (s : State) : State :=
  s.each (List.range 102) fun s c =>
    s.setStamper c { s.stamper c with eqx := some ⟨s.now, false⟩, bootRun := 0, bootPass := 0, booted := false }

end Sys2Proof.Machine
end

