-- ==== Sys2Proof/Machine/Route.lean ====
section
/-! DEFINITION. Who uses a source: the condition router (R262), measurement slots (R105), histogram definitions (R228,
R411), captures (R296) and the forwarders' routing (R12); and the service report (R269). -/

namespace Sys2Proof.Machine

/-- Contexts in state RUNNING, ascending (R259). -/
def State.runningCtxs (s : State) : List Nat := (s.ctxs.filter fun e => decide (e.2.st = .running)).map (·.1)

/-- A bit of a context's configuration word 0 (R258). -/
def State.ctxBit (s : State) (c i : Nat) : Bool := s.tbit (oCtx c 0) i

/-- Condition selector `k` of a context (R262). -/
def State.csel (s : State) (c k : Nat) : Nat := s.tfld (oCtx c (4 + k / 2)) (16 * (k % 2)) 16

/-- A selector's KIND, POL and SRC. -/
def selKind (v : Nat) : Nat := v / 2 ^ 14 % 4
def selPol (v : Nat) : Nat := v / 2 ^ 13 % 2
def selSrc (v : Nat) : Nat := v % 2 ^ 13

/-- Whether a selector of a running context with SEQ_EN = 1 names a source in KIND 0 or 1. -/
def State.condUses (s : State) (src : Nat) : Bool :=
  s.runningCtxs.any fun c => s.ctxBit c 27 &&
    (List.range 16).any fun k => let v := s.csel c k; decide (selKind v ≤ 1) && decide (selSrc v = src)

/-- A measurement slot's MODE, sources, gate source and gate channel (R133). -/
def State.mMode (s : State) (i : Nat) : Nat := s.tfld (oMeas i 0) 1 3
def State.mSrcA (s : State) (i : Nat) : Nat := s.tfld (oMeas i 1) 0 13
def State.mSrcB (s : State) (i : Nat) : Nat := s.tfld (oMeas i 1) 16 13
def State.mGsrc (s : State) (i : Nat) : Nat := s.tfld (oMeas i 0) 8 2
def State.mGtin (s : State) (i : Nat) : Nat := s.tfld (oMeas i 2) 0 6
def State.mOwner (s : State) (i : Nat) : Nat := s.tfld (oMeas i 0) 19 9

/-- SRC_B is used in PHASE, and in INTERVAL with IVL_SINGLE = 0 (R133). -/
def State.mUsesB (s : State) (i : Nat) : Bool :=
  decide (s.mMode i = 1) || (decide (s.mMode i = 4) && !s.tbit (oMeas i 0) 7)

/-- Whether a slot measures a source (R105). -/
def State.slotNames (s : State) (i src : Nat) : Bool :=
  decide (s.mSrcA i = src) || (s.mUsesB i && decide (s.mSrcB i = src))

/-- Whether a slot takes a source's stamps, as a measured source or as its gate channel (R105, R109). -/
def State.slotUses (s : State) (i src : Nat) : Bool :=
  s.slotNames i src ||
    ((decide (s.mGsrc i = 1) || decide (s.mGsrc i = 2)) && decide (4096 + s.mGtin i = src))

/-- Slots that take stamps, ascending: armed, or with a closed gate that is not yet complete. -/
def State.armedSlots (s : State) : List Nat := (s.meas.filter fun e => e.2.armed || !e.2.closed.isEmpty).map (·.1)

/-- Whether any slot takes a source's stamps. -/
def State.measUses (s : State) (src : Nat) : Bool := s.armedSlots.any fun i => s.slotUses i src

/-- A histogram definition's sources, home die and owner (R241). -/
def State.hStart (s : State) (d : Nat) : Nat := s.tfld (oHdef d 0) 0 13
def State.hStop (s : State) (d : Nat) : Nat := s.tfld (oHdef d 1) 16 13
def State.hHome (s : State) (d : Nat) : Nat := s.tfld (oHdef d 0) 28 1
def State.hOwner (s : State) (d : Nat) : Nat := s.tfld (oHdef d 0) 17 9

/-- Definitions of running owners that name a source, ascending. -/
def State.defsOf (s : State) (src : Nat) : List Nat :=
  (s.hdefs.filter fun e => e.2.active && (decide (s.hStart e.1 = src) || decide (s.hStop e.1 = src))).map (·.1)

/-- The listed sources of a record context (R296, R309). -/
def State.recSrcs (s : State) (c : Nat) : List Nat :=
  (List.range (min (s.tfld (oRec c 0) 13 5) 16)).map fun k => s.tfld (oRec c (5 + k / 2)) (16 * (k % 2)) 13

/-- The die of a context's record writer (R309). -/
def State.recDie (s : State) (c : Nat) : Nat := s.tfld (oRec c 0) 29 1

/-- Active captures that list a source, ascending. -/
def State.capsOf (s : State) (src : Nat) : List Nat :=
  (s.caps.filter fun e => e.2.active && (s.recSrcs e.1).contains src).map (·.1)

/-- Whether a running context routes a source of the T die to an X die (R12). -/
def State.routedTo (s : State) (src die : Nat) : Bool :=
  ((s.defsOf src).any fun d => decide (s.hHome d = die)) || ((s.capsOf src).any fun c => decide (s.recDie c = die))

/-- One count of the service report: word 40 + 3 × stage + column (R269). -/
def State.report (s : State) (c stage col n : Nat) : State := s.tbump (oCtx c (40 + 3 * stage + col)) n

/-- Whether a running context uses a source in a slot, a definition, a record or a selector. -/
def State.ctxUses (s : State) (c src : Nat) : Bool :=
  ((s.armedSlots.filter fun i => decide (s.mOwner i = c)).any fun i => s.slotUses i src) ||
  ((s.defsOf src).any fun d => decide (s.hOwner d = c)) || (s.capsOf src).contains c ||
  (s.ctxBit c 27 && (List.range 16).any fun k =>
    let v := s.csel c k; decide (selKind v ≤ 1) && decide (selSrc v = src))

/-- An item of a shared source counts for every context that uses it (R269). -/
def State.reportSrc (s : State) (src stage col : Nat) : State :=
  s.each (s.runningCtxs.filter fun c => s.ctxUses c src) fun s c => s.report c stage col 1

/-- The contexts whose definitions or records on a die take a source, without repeats. -/
def State.dieUsers (s : State) (src die : Nat) : List Nat :=
  (((s.defsOf src).filter fun d => decide (s.hHome d = die)).map s.hOwner ++
    ((s.capsOf src).filter fun c => decide (s.recDie c = die))).dedup

/-- Marks that a stage's drop owes to a source's next item (R409). -/
def owedOf (l : List (Nat × Nat)) (src : Nat) : Nat := Sparse.get 0 l src

/-- An item dropped: its SOLS and WRAP are owed (R409). DEDUCED (log entry 31). -/
def oweDrop (l : List (Nat × Nat)) (x : Stamp) : List (Nat × Nat) :=
  Sparse.set 0 l x.src (joinMarks (owedOf l x.src) x.flags)

/-- An item passed on: it carries what was owed (R409). -/
def passOwed (l : List (Nat × Nat)) (x : Stamp) : Stamp × List (Nat × Nat) :=
  ({ x with flags := x.flags ||| joinMarks (owedOf l x.src) x.flags }, Sparse.set 0 l x.src 0)

/-- A stamp's S128 record (R98), as its two words. -/
def Stamp.word1 (x : Stamp) : Nat := x.src * 2 ^ 51 + b2n x.rising * 2 ^ 50 + x.flags % 256 * 2 ^ 42 + x.seq % 2 ^ 32

/-- A stamp becomes a capture item of KIND 0 (R303). -/
def Stamp.item (x : Stamp) : Item := { kind := 0, src := x.src, phys := x.phys, time := x.time, word1 := x.word1 }

/-- The stamp that a capture item of KIND 0 holds (R98). -/
def Item.stamp (x : Item) : Stamp :=
  ⟨x.src, x.phys, x.time, decide (x.word1 / 2 ^ 50 % 2 = 1), x.word1 / 2 ^ 42 % 256, x.word1 % 2 ^ 32⟩

/-- A capture item whose stamp is changed. -/
def Item.mapStamp (f : Stamp → Stamp) (x : Item) : Item :=
  if x.kind = 0 then { x with time := (f x.stamp).time, word1 := (f x.stamp).word1 } else x

/-- Every stamp on its way through the device, and every one that a consumer holds unpublished, changed (R85, R186). -/
def State.mapStamps (s : State) (f : Stamp → Stamp) : State :=
  let g (x : MGate) : MGate := { x with a := x.a.map f, b := x.b.map f }
  { s with
    tins := s.tins.map fun e => (e.1, { e.2 with fifo := e.2.fifo.map f })
    fwds := s.fwds.map fun e => (e.1, { e.2 with routed := e.2.routed.map f, queue := e.2.queue.map f })
    measIn := s.measIn.map f
    laneIn := s.laneIn.map fun e => (e.1, f e.2)
    meas := s.meas.map fun e => (e.1, { e.2 with
      gate := e.2.gate.map g, closed := e.2.closed.map g, recent := e.2.recent.map f, lane := e.2.lane.map f })
    hdefs := s.hdefs.map fun e => (e.1, { e.2 with
      inq := e.2.inq.map f, stopq := e.2.stopq.map f, pend := e.2.pend.map f, hist := e.2.hist.map f })
    hengs := s.hengs.map fun e => (e.1, { e.2 with crossing := e.2.crossing.map f })
    caps := s.caps.map fun e => (e.1, { e.2 with
      inq := e.2.inq.map (·.mapStamp f), ring := e.2.ring.map (·.mapStamp f)
      segs := e.2.segs.map fun g => if g.headed then g else { g with trig := f g.trig } })
    condIn := s.condIn.map fun e => match e with
      | .edge x => .edge (f x)
      | .result i st q t => .result i st q t }

/-- Insert a stamp into a queue kept in time order, after those that are not later (R229, R297). -/
def insStamp (x : Stamp) : List Stamp → List Stamp
  | [] => [x]
  | y :: r => if y.phys ≤ x.phys then y :: insStamp x r else x :: y :: r

/-- Whether an item precedes another or ties with it: by TIME, then KIND, then source (R297). -/
def Item.le (y x : Item) : Bool :=
  decide (y.phys < x.phys) || (decide (y.phys = x.phys) &&
    (decide (y.kind < x.kind) || (decide (y.kind = x.kind) && decide (y.src ≤ x.src))))

/-- Insert an item into a queue kept in time order. -/
def insItem (x : Item) : List Item → List Item
  | [] => [x]
  | y :: r => if y.le x then y :: insItem x r else x :: y :: r

end Sys2Proof.Machine
end

