-- ==== Sys2Proof/Machine/MeasureCalc.lean ====
section
/-! DEFINITION. What a gate and a statistics block come to (R113, R115, R116, R120 to R125, R128 to R130): pure functions
of the stamps a gate holds. A value that the spec does not state (a fit or a rate whose divisor is 0) is a free value. -/

namespace Sys2Proof.Machine

/-- What the result of a gate is computed to be. -/
structure GateRes where
  /-- False: the gate yields no result (R113). -/
  produced : Bool
  nA : Nat := 0
  nB : Nat := 0
  /-- Words 4 to 7 of R129. -/
  vals : List Nat := [0, 0, 0, 0]
  /-- The deviation of R124. -/
  dev : Int × Nat := (0, 1)
  /-- Free values used. -/
  used : Nat := 0
  missStop : Nat := 0
  longIvl : Nat := 0
  pend : Option Stamp := none
  deriving DecidableEq, Repr

/-- The low and the high word of a 64.64 value (R129). -/
def q64Words (v : Int) : List Nat := [unsign 64 v, unsign 64 (v / 2 ^ 64)]

/-- A 64.64 value of `n / d`. -/
def q64 (n : Int) (d : Nat) : Int := rne (n * 2 ^ 64) d

/-- The points (n, τ) of a regression (R115): τ relative to the first edge, n from the sequence number. -/
def regPts (both : Bool) (l : List Stamp) : List (Nat × Nat) :=
  match l with
  | [] => []
  | f :: _ => l.map fun x =>
    let n := (x.seq + 2 ^ 32 - f.seq) % 2 ^ 32
    (if both then n / 2 else n, m64 ((x.time : Int) - f.time))

/-- The least-squares line of R116: b and a in 64.64, or none where its divisor is 0. -/
def fit (pts : List (Nat × Nat)) : Option (Int × Int) :=
  let k := pts.length
  let sn := (pts.map (·.1)).sum
  let snn := (pts.map fun p => p.1 * p.1).sum
  let st := (pts.map (·.2)).sum
  let snt := (pts.map fun p => p.1 * p.2).sum
  let num : Int := (k * snt : Nat) - (sn * st : Nat)
  let den := k * snn - sn * sn
  if den = 0 then none
  else
    let b := q64 num den
    let a := rne ((st : Int) * 2 ^ 64 - b * sn) k
    some (b, a)

/-- The frequency of R116 from b, or none where b is not positive. -/
def freqOf (b : Int) : Option Int := if 0 < b then some (rne (4_000_000_000_000 * 2 ^ 128) b.toNat) else none

/-- The phase folded into (−b/2, b/2] (R120). -/
def foldPhase (d b : Int) : Int :=
  let r := d % b
  if 2 * r ≤ b then r else r - b

/-- Edges of one polarity (R108, R113): every hit of a receiver. -/
def polEdges (src : Nat) (falling : Bool) (l : List Stamp) : List Stamp :=
  if src < 4096 then l else l.filter fun x => x.rising != falling

/-- Cycles of R122: width, cycle length. -/
def cycles (falling wneg : Bool) : List Stamp → List (Nat × Nat)
  | x :: y :: z :: r =>
    let rest := cycles falling wneg (y :: z :: r)
    if (x.rising != falling) && (y.rising == falling) && (z.rising != falling) &&
        decide (y.seq = (x.seq + 1) % 2 ^ 32) && decide (z.seq = (y.seq + 1) % 2 ^ 32) then
      let w := m64 ((y.time : Int) - x.time)
      let c := m64 ((z.time : Int) - x.time)
      (if wneg then c - w else w, c) :: rest
    else rest
  | _ => []

/-- The state of interval forming (R123): open start, intervals newest first, MISS_STOP and LONG_IVL. -/
structure IvlSt where
  start : Option Stamp
  ivls : List Nat := []
  miss : Nat := 0
  long : Nat := 0
  deriving DecidableEq, Repr

/-- A stop ends the open start's interval, an interval above 2^47 qps being discarded. -/
def IvlSt.stop (s : IvlSt) (x : Stamp) : IvlSt :=
  match s.start with
  | some a =>
    let d := m64 ((x.time : Int) - a.time)
    if d > 2 ^ 47 then { s with start := none, long := s.long + 1 }
    else { s with start := none, ivls := d :: s.ivls }
  | none => s

/-- A start: a start still open is replaced and counted. -/
def IvlSt.begin' (s : IvlSt) (x : Stamp) : IvlSt :=
  { s with start := some x, miss := if s.start.isSome then s.miss + 1 else s.miss }

/-- The events of two sources in TIME order, a stop before a start at equal TIME: true marks a stop. -/
def mergeIvl : List Stamp → List Stamp → List (Bool × Stamp)
  | [], bs => bs.map fun x => (true, x)
  | a :: as, bs =>
    let early := bs.takeWhile fun b => decide (b.phys ≤ a.phys)
    early.map (fun x => (true, x)) ++ (false, a) :: mergeIvl as (bs.drop early.length)

/-- The intervals of a gate (R123). -/
def intervals (single : Bool) (start : Option Stamp) (a b : List Stamp) : IvlSt :=
  if single then a.foldl (fun s x => (s.stop x).begin' x) { start := start }
  else (mergeIvl a b).foldl (fun s e => if e.1 then s.stop e.2 else s.begin' e.2) { start := start }

/-- Whether the sequence numbers of a source's stamps have a gap (R115, R122). -/
def seqGap : List Stamp → Bool
  | x :: y :: r => decide (y.seq ≠ (x.seq + 1) % 2 ^ 32) || seqGap (y :: r)
  | _ => false

/-- Whether a source's stamps carry both slopes: a TIN channel with SLOPE 2, an echo or a reference (R115, R145, R32). -/
def State.bothSlopes (s : State) (src : Nat) : Bool :=
  if src < 4096 then false
  else if src < 4160 then decide (s.rfld (sTin (src - 4096)) 0x014 4 2 = 2)
  else decide (src < 4196)

/-- NOM of a slot, 64.64: signed in PHASE, whose deviations are, and unsigned otherwise (R124, R133). -/
def State.mNom (s : State) (i : Nat) : Int :=
  let v := s.tab64 (oMeas i 8) + 2 ^ 64 * s.tab64 (oMeas i 10)
  if s.mMode i = 1 then signed 128 v else v

/-- The `k`-th free value from the counter on, of `w` bits. -/
def State.freeAt (s : State) (k w : Nat) : Nat := Config.freeNat (s.freeCtr + k) % 2 ^ w

/-- The value words and deviation of a FREQ gate (R116, R124). -/
def State.resFreq (s : State) (i : Nat) (a : List Stamp) : GateRes :=
  let nom := s.mNom i
  let (b, u) := match fit (regPts (s.bothSlopes (s.mSrcA i)) a) with
    | some (b, _) => (b, 0)
    | none => ((s.freeAt 0 128 : Int), 1)
  let (f, u) := match freqOf b with
    | some f => (f, u)
    | none => ((s.freeAt u 128 : Int), u + 1)
  { produced := true, nA := a.length, vals := q64Words f ++ q64Words b, dev := (f - nom, nom.toNat), used := u }

/-- The value words and deviation of a PHASE gate (R120, R124). -/
def State.resPhase (s : State) (i : Nat) (a b : List Stamp) : GateRes :=
  let fa := fit (regPts (s.bothSlopes (s.mSrcA i)) a)
  let fb := fit (regPts (s.bothSlopes (s.mSrcB i)) b)
  let t0 := (a.head?.map (·.time)).getD 0
  let t1 := (b.head?.map (·.time)).getD 0
  let (phi, u) : Int × Nat := match fa, fb with
    | some (_, aa), some (bb, ab) =>
      if 0 < bb then (foldPhase (sdiff t1 t0 * 2 ^ 64 + ab - aa) bb, 0) else (signed 128 (s.freeAt 0 128), 1)
    | _, _ => (signed 128 (s.freeAt 0 128), 1)
  let (f, u) : Int × Nat := match fa.bind fun x => freqOf x.1 with
    | some f => (f, u)
    | none => ((s.freeAt u 128 : Int), u + 1)
  { produced := true, nA := a.length, nB := b.length, vals := q64Words phi ++ q64Words f,
    dev := (phi - s.mNom i, 2 ^ 64), used := u }

/-- The value words and deviation of a COUNT gate (R121, R124). -/
def State.resCount (s : State) (i : Nat) (a : List Stamp) (len : Nat) : GateRes :=
  let n := a.length
  let (r, u) : Int × Nat := if len = 0 then ((s.freeAt 0 128 : Int), 1) else (q64 (n * 4_000_000_000_000 : Nat) len, 0)
  { produced := true, nA := n, vals := [n, 0] ++ q64Words r, dev := ((n : Int) * 2 ^ 64 - s.mNom i, 2 ^ 64), used := u }

/-- The value words and deviation of a WIDTH gate (R122, R124). -/
def State.resWidth (s : State) (i : Nat) (a : List Stamp) : GateRes :=
  let cs := cycles (s.tbit (oMeas i 0) 4) (s.tbit (oMeas i 0) 6) a
  let k := cs.length
  let w : Nat := (cs.map (·.1)).sum
  let c : Nat := (cs.map (·.2)).sum
  let m := q64 w k
  { produced := decide (0 < k), nA := k,
    vals := q64Words m ++ [if w = c then 2 ^ 64 - 1 else min (rne ((w : Int) * 2 ^ 64) c).toNat (2 ^ 64 - 1), 0],
    dev := (m - s.mNom i, 2 ^ 64) }

/-- The value words and deviation of an INTERVAL gate (R123, R124, R129). -/
def State.resIvl (s : State) (i : Nat) (start : Option Stamp) (a b : List Stamp) : GateRes :=
  let r := intervals (s.tbit (oMeas i 0) 7) start a b
  let l := r.ivls.reverse
  let k := l.length
  let q : List (Int × Nat) := l.map fun (x : Nat) => ((x : Int), 1)
  { produced := decide (0 < k), nA := k, nB := if s.mUsesB i then b.length else 0,
    vals := [l.foldl min (l.headD 0), l.foldl max 0, b64Mean q, b64Std q],
    dev := (((l.sum : Nat) : Int) * 2 ^ 64 - s.mNom i * k, 2 ^ 64 * k),
    missStop := r.miss, longIvl := r.long, pend := r.start }

/-- The stamps of a source that R113 counts: the regression edges, or every stamp. -/
def State.mUsed (s : State) (i src : Nat) (falling : Bool) (l : List Stamp) : List Stamp :=
  if s.mMode i ≤ 2 then polEdges src falling l else l

/-- A completed gate's result (R113, R116, R120 to R123). -/
def State.gateRes (s : State) (i : Nat) (g : MGate) (start : Option Stamp) : GateRes :=
  let a := s.mUsed i (s.mSrcA i) (s.tbit (oMeas i 0) 4) g.a
  let b := s.mUsed i (s.mSrcB i) (s.tbit (oMeas i 0) 5) g.b
  let mins := s.tfld (oMeas i 6) 0 24
  let r := match s.mMode i with
    | 0 => s.resFreq i a
    | 1 => s.resPhase i a b
    | 2 => s.resCount i a (g.closeP - g.openP).toNat
    | 3 => s.resWidth i a
    | _ => s.resIvl i start a b
  if a.length < mins || (s.mUsesB i && decide (b.length < mins)) then { r with produced := false, used := 0 } else r

/-! ### Allan deviation (R125) -/

/-- The phase series at the gate boundaries, as rationals in seconds, none where a value is not formed: d × 0.25 ps in
PHASE, the running sum of y × τ0 in FREQ. -/
def allanX (phase : Bool) (tau0 : Int × Nat) (devs : List MDev) : List (Int × Nat) :=
  if phase then devs.map fun v => match v.d with
    | some (n, d) => (n, d * 4_000_000_000_000)
    | none => (0, 1)
  else
    (devs.foldl (fun (acc : List (Int × Nat)) v =>
      let y := v.d.getD (0, 1)
      match acc with
      | x :: _ => ratSum [x, (y.1 * tau0.1, y.2 * tau0.2)] :: acc
      | [] => [(0, 1)]) [(0, 1)]).reverse

/-- Overlapping Allan deviation at m gates (R125): binary64, NaN with no term. A term needs its 2m gates valid, and in
PHASE its last boundary value too. -/
def allan (phase : Bool) (tau0 : Int × Nat) (devs : List MDev) (m : Nat) : Nat :=
  let xs := allanX phase tau0 devs
  let ok := devs.map fun v => v.d.isSome
  let span := if phase then 2 * m + 1 else 2 * m
  let terms := (List.range (xs.length - 2 * m)).filterMap fun i =>
    if ((ok.drop i).take span).all id && decide (((ok.drop i).take span).length = span) then
      match xs[i]?, xs[i + m]?, xs[i + 2 * m]? with
      | some a, some b, some c =>
        let e := ratSum [c, (-2 * b.1, b.2), a]
        some ((e.1 * e.1, e.2 * e.2) : Int × Nat)
      | _, _, _ => none
    else none
  if terms.isEmpty then b64NaN
  else
    let (n, d) := ratSum terms
    -- divided by 2 (m τ0)² k
    let den := d * (2 * m * m * terms.length * (tau0.1.natAbs * tau0.1.natAbs))
    if den = 0 then b64NaN else sqrtToB64 (n.toNat * (tau0.2 * tau0.2)) den

/-- The header word of a record (R128). -/
def measHeader (slot kind flags status seq : Nat) : Nat :=
  slot * 2 ^ 54 + kind * 2 ^ 51 + flags % 256 * 2 ^ 42 + status % 1024 * 2 ^ 32 + seq % 2 ^ 32

/-- The statistics record's bytes (R130). ADEV_NA, with NaN fields, is also the block of a COUNT, WIDTH or INTERVAL slot with TIMER gates
and GSPACE 0, for which R125 forms no phase series. DESIGN CHOICE (log entry 53). -/
def State.statRecord (s : State) (i sseq flags : Nat) (devs : List MDev) : List Byte :=
  let vs := devs.filterMap (·.d)
  let glen : Nat := s.tfld (oMeas i 3) 0 32 + 2 ^ 32 * s.tfld (oMeas i 4) 0 16
  let hasAdev := decide (s.mMode i ≤ 1) && decide (s.mGsrc i = 0) && decide (s.tabw (oMeas i 5) = 0)
  let tau0 : Int × Nat := ((glen : Int), 2_000_000_000)
  let words : List Nat := [measHeader i 1 flags (if hasAdev then 0 else 2 ^ 7) sseq,
    (devs.head?.map (·.openT)).getD 0, (devs.getLast?.map (·.closeT)).getD 0,
    devs.length % 2 ^ 32 + 2 ^ 32 * vs.length, b64Mean vs, b64Std vs, b64Min vs, b64Max vs] ++
    (List.range 8).map fun j => if hasAdev then allan (decide (s.mMode i = 1)) tau0 devs (2 ^ j) else b64NaN
  (words.map w64).flatten

end Sys2Proof.Machine
end

