-- ==== Sys2Proof/Machine/TimingInputs.lean ====
section
/-! DEFINITION. Timing inputs and forwarders (04_timing_inputs.md; R12, R387 to R389): TIN_FIFO_DELIVER,
ROTATION_EQUINOX_START, GATE_REQUEST, EQUINOX_DONE, FORWARD_STAMP. -/

namespace Sys2Proof.Machine

/-- Whether a channel captures candidate edges (R103): three interpolators have passed, ENABLE is 1 and the page is not in
reset. -/
def State.tinCapturing (s : State) (ch : Nat) : Bool :=
  (s.stamper ch).booted && s.pageOn (sTin ch) && !s.inReset (sTin ch)

/-- Whether `TIN.CFG.SLOPE` makes a transition a candidate (R78). -/
def tinCandidate (slope : Nat) (rising : Bool) : Bool :=
  decide (slope = 2) || (decide (slope = 0) && rising) || (decide (slope = 1) && !rising)

/-- The three tests of R79 on an edge's interpolated time. -/
def captures (x : Stamper) (both rising : Bool) (a : Int) : Bool :=
  let far (o : Option Int) (d : Int) : Bool := match o with
    | some b => decide (d ≤ a - b)
    | none => true
  let same := if rising then x.lastRise else x.lastFall
  let opp := if rising then x.lastFall else x.lastRise
  far same 2000 && (!both || far opp 1000) && far (x.caps[2]?.map (·.1)) 6000

/-- An edge counted in CLOSE (R79, R80, R84). -/
def State.tinClose (s : State) (ch : Nat) : State := (s.bump64 (sTin ch) 0x030 1).evt (sTin ch) 1

/-- A captured stamp meets the FIFO (R95, R96): it enters, or it is dropped, the sequence number having advanced either
way; marks of a dropped stamp stay owed (R409). -/
def State.tinPut (s : State) (ch : Nat) (st : Stamp) : State :=
  let f := s.tin ch
  let x := s.stamper ch
  if f.fifo.length ≥ 8192 then
    let s1 := s.setStamper ch { x with owed := joinMarks x.owed st.flags }
    ((s1.bump64 (sTin ch) 0x038 1).evt (sTin ch) 3).reportSrc st.src 0 2
  else
    let n := f.fifo.length + 1
    let st' : Stamp := { st with flags := st.flags ||| joinMarks x.owed st.flags }
    let s1 := ((s.setStamper ch { x with owed := 0 }).setTin ch { f with fifo := f.fifo ++ [st'] }).peak (sTin ch) 0x05C n
    if n = s1.rfld (sTin ch) 0x020 0 14 then s1.evt (sTin ch) 2 else s1

/-- A captured edge becomes a stamp (R81 to R85, R97, R99) and is offered to the sequencer ahead of the FIFO (R82). -/
def State.tinCapture (s : State) (ch t q : Nat) (rising : Bool) : State :=
  let x := s.stamper ch
  let (l, clamped) := codeToL (x.interp (x.converter t q)) q
  let a : Int := 2000 * (t : Int) - l
  let p := a - x.dPin - signed 32 (s.reg (ra (sTin ch) 0x01C)).toNat
  let st : Stamp := ⟨4096 + ch, p, s.stampTime p, rising, s.stampFlags x t p, x.seq⟩
  let x' := { s.stamped x p with
    caps := ((a, rising) :: x.caps).take 3
    lastRise := if rising then some a else x.lastRise
    lastFall := if rising then x.lastFall else some a
    refuse := none }
  let s1 := (s.setStamper ch x').bump64 (sTin ch) 0x028 1
  let s2 := (s1.setReg64 (sTin ch) 0x050 st.time).setRegN (sTin ch) 0x058 st.seq
  let s3 := if clamped then s2.tinClose ch else s2
  let s4 := if s3.condUses st.src then { s3 with condIn := s3.condIn ++ [.edge st] } else s3
  s4.tinPut ch st

/-- A transition at a TIN ball with stop edge `t` and raw code `q` (R78 to R85): refused and counted, or captured. In
both-slope mode a refusal by R79 also refuses the next candidate of the other slope (R80). An edge that is refused and whose code
was clamped counts in CLOSE once. DEDUCED (log entry 54). -/
def State.tinEdge (s : State) (ch t q : Nat) (rising : Bool) : State :=
  let s := s.setTin ch { s.tin ch with level := rising }
  let slope := s.rfld (sTin ch) 0x014 4 2
  let x := s.stamper ch
  if s.tinCapturing ch && tinCandidate slope rising then
    let a : Int := 2000 * (t : Int) - (codeToL (x.interp (x.converter t q)) q).1
    if decide (slope = 2) && decide (x.refuse = some rising) then
      (s.setStamper ch { x with refuse := none }).tinClose ch
    else if captures x (decide (slope = 2)) rising a then s.tinCapture ch t q rising
    else
      (s.setStamper ch { x with refuse := if slope = 2 then some (!rising) else none }).tinClose ch
  else s

/-- An inbound rising edge on a link's TIN channel after its marker: the echo first, the far marker second (R71). The marker is of
this epoch, and a stamp of the old one came before it. -/
def State.ttlTake (s : State) (k : Nat) (st : Stamp) : State :=
  let x := s.ttl k
  match x.tx with
  | some tx =>
    if st.rising && decide (2000 * (s.solEdge : Int) ≤ st.phys) && decide (sdiff st.time tx > 0) then
      match x.echo, x.far with
      | none, _ => s.setTtl k { x with echo := some st.time }
      | some _, none => s.setTtl k { x with far := some st.time }
      | some _, some _ => s
    else s
  | none => s

/-- A delivered TIN stamp offered to the links whose inbound channel it is (R69). -/
def State.ttlFeed (s : State) (ch : Nat) (st : Stamp) : State :=
  s.each ((List.range 32).filter fun k => s.rbit (sTtl k) 0x014 0 && decide (s.rfld (sTtl k) 0x014 4 6 = ch))
    fun s k => s.ttlTake k st

/-- A stamp of a T die source handed to its consumers: the measurement engine and the forwarders that a running context
routes it to (R12, R95). -/
def State.distribute (s : State) (st : Stamp) : State :=
  let s1 := if s.measUses st.src then { s with measIn := s.measIn ++ [st] } else s
  s1.each ((List.range 2).filter fun d => s.routedTo st.src d) fun s d =>
    s.setFwd d { s.fwd d with routed := (s.fwd d).routed ++ [st] }

/-- The FIFO delivers its oldest stamp, one every 2 ns (R95). -/
def State.tinDeliver (s : State) (ch : Nat) : State :=
  let f := s.tin ch
  match f.fifo with
  | st :: r =>
    if f.nextOut ≤ s.now then
      (((s.setTin ch { f with fifo := r, nextOut := s.now + 4 }).distribute st).ttlFeed ch st).reportSrc st.src 0 0
    else s
  | [] => s

/-- A slot's request has reached a channel: it awaits the channel's next Y, or, while READY is still to be set for earlier ones,
the Y after that (R93, R94). -/
def MSlot.arrived (m : MSlot) (ch : Nat) (second : Bool) : MSlot :=
  if m.sent.contains ch then
    { m with
      sent := m.sent.filter (· ≠ ch)
      await := if second then m.await else ch :: m.await.filter (· ≠ ch)
      await2 := if second then ch :: m.await2.filter (· ≠ ch) else m.await2 }
  else m

/-- A gate request on its way to a channel arrives (R93); a page in reset answers RETRY (R351). -/
def State.gateRequest (s : State) (ch : Nat) : State :=
  if s.gateReqs.contains ch && !s.inReset (sTin ch) then
    let second := (s.stamper ch).yDue s.now
    { s with
      gateReqs := s.gateReqs.erase ch
      meas := s.meas.map fun (e : Nat × MSlot) => (e.1, e.2.arrived ch second) }.gateArrive ch
  else s

/-- A routed stamp meets the forwarder's queue of 65,536 (R12, R387). -/
def State.forwardStamp (s : State) (die : Nat) : State :=
  let f := s.fwd die
  match f.routed with
  | st :: r =>
    if f.queue.length ≥ 65536 then
      let s1 := s.setFwd die { f with routed := r, owed := oweDrop f.owed st }
      let s2 := ((s1.bump64 (sFwd die) 0x024 1).bump32 (sFwd die) (0x02C + 4 * (st.src - 4096)) 1).evt (sFwd die) 0
      s2.each (s2.dieUsers st.src die) fun s c => s.report c 1 2 1
    else
      let (st', owed) := passOwed f.owed st
      let q := f.queue ++ [st']
      let s1 := (s.setFwd die { f with routed := r, queue := q, owed := owed }).peak (sFwd die) 0x018 q.length
      if q.length = 65536 then s1.evt (sFwd die) 1 else s1
  | [] => s

/-- Items waiting at a record writer, all captures of its die (`ACQ.WQ_A`, `ACQ.WQ_B`). -/
def State.writerLevel (s : State) (die : Nat) : Nat :=
  ((s.caps.filter fun e => decide (s.recDie e.1 = die)).map fun e => (e.2.inq.map (·.n)).sum).sum

/-- An item offered to a capture: it enters the writer's queue of 65,536 items, or the capture is marked to overflow
(R306). -/
def State.capOffer (s : State) (c : Nat) (i : Item) : State :=
  let k := s.cap c
  if k.full || k.ovf then s
  else if s.writerLevel (s.recDie c) + i.n > 65536 then s.setCap c { k with full := true }
  else s.setCap c { k with inq := insItem i k.inq }

/-- Whether a stamp takes part on a side of a definition: any hit, or the polarity that POL_START (bit 26) or POL_STOP
(bit 27) selects (R228). -/
def State.histTakes (s : State) (d b : Nat) (st : Stamp) : Bool :=
  decide (st.src < 4096) || (st.rising != s.tbit (oHdef d 0) b)

/-- A stamp offered to a definition's handling, in time order, as a start, a stop or both (R229). -/
def State.histOffer (s : State) (d : Nat) (st : Stamp) : State :=
  let h := s.hdef d
  let h1 := if s.hStart d = st.src ∧ s.histTakes d 26 st then { h with inq := insStamp st h.inq } else h
  s.setHdef d (if s.hStop d = st.src ∧ s.histTakes d 27 st then { h1 with stopq := insStamp st h1.stopq } else h1)

/-- A stamp leaves a forwarder's queue and reaches its consumers on the die: at most 6 G stamps/s, three a coarse edge (R12). -/
def State.forwardDequeue (s : State) (die : Nat) : State :=
  let f := s.fwd die
  let n := if f.outAt = s.now then f.outN else 0
  match f.queue with
  | st :: r =>
    if 3 ≤ n then s else
    let s1 := (s.setFwd die { f with queue := r, outAt := s.now, outN := n + 1 }).bump64 (sFwd die) 0x01C 1
    let s2 := s1.each (s1.dieUsers st.src die) fun s c => s.report c 1 0 1
    let s3 := s2.each ((s2.defsOf st.src).filter fun d => decide (s2.hHome d = die)) fun s d => s.histOffer d st
    s3.each ((s3.capsOf st.src).filter fun c => decide (s3.recDie c = die)) fun s c => s.capOffer c st.item
  | [] => s

/-! ### Commands -/

/-- TIN_FIFO_DELIVER (R95). -/
def execTinFifoDeliver (t : Nat) (ch : Fin 64) : State → Host.Outcome State Fault Refusal :=
  command t fun s => s.tinDeliver ch

/-- ROTATION_EQUINOX_START (R90). -/
def execRotationEquinoxStart (t : Nat) (ch : Fin 102) : State → Host.Outcome State Fault Refusal :=
  command t fun s => s.rotationStart ch

/-- GATE_REQUEST (R93, R94). -/
def execGateRequest (t : Nat) (ch : Fin 64) : State → Host.Outcome State Fault Refusal :=
  command t fun s => s.gateRequest ch

/-- EQUINOX_DONE (R88). -/
def execEquinoxDone (t : Nat) (ch : Fin 102) (c1 c2 : List Nat) : State → Host.Outcome State Fault Refusal :=
  command t fun s => s.equinoxDone ch c1 c2

/-- FORWARD_STAMP (R12). -/
def execForwardStamp (t : Nat) (die : Fin 2) : State → Host.Outcome State Fault Refusal :=
  command t fun s => s.forwardStamp die

end Sys2Proof.Machine
end

