-- ==== Sys2Proof/Machine/Measurement.lean ====
section
/-! DEFINITION. The measurement engine (05_measurement_engine.md): slots, gates, lane queues, completion and
publication, and what Solstice, STOP, a context stop and a page RESET do to them. MEAS_STAMP, MEAS_LANE_STAMP,
TIMER_GATE_REQUEST, TIMER_GATE_EDGE, GATE_LENGTH_LIMIT, and SWAP_WINDOW_CLOSE, whose READY opens
deferred gates. What it reads by inference or chooses: log entry 33. -/

namespace Sys2Proof.Machine

/-- The TIN channel of a source, if it is one. -/
def tinOf (src : Nat) : List Nat := if 4096 ≤ src ∧ src < 4160 then [src - 4096] else []

/-- The TIN channels that are a source or the gate channel of a slot (R111). -/
def State.mChans (s : State) (i : Nat) : List Nat :=
  (tinOf (s.mSrcA i) ++ (if s.mUsesB i then tinOf (s.mSrcB i) else []) ++
    (if s.mGsrc i = 1 ∨ s.mGsrc i = 2 then [s.mGtin i] else [])).dedup

/-- GLEN and GSPACE in coarse periods (R110, R133). -/
def State.mGlen (s : State) (i : Nat) : Nat := s.tfld (oMeas i 3) 0 32 + 2 ^ 32 * s.tfld (oMeas i 4) 0 16
def State.mGspace (s : State) (i : Nat) : Nat := s.tfld (oMeas i 5) 0 32

/-- Gate requests are sent to the slot's channels (R111); with none to ask, the slot is ready at once. -/
def State.mRequest (s : State) (i : Nat) : State :=
  let cs := s.mChans i
  let s1 := { s with gateReqs := s.gateReqs ++ cs.filter fun c => !s.gateReqs.contains c }
  let m := s1.mslot i
  s1.setMslot i (if cs.isEmpty then { m with requested := false, readyP := s.phys, sent := [], await := [], await2 := [] }
    else { m with requested := true, sent := cs, await := [], await2 := [] })

/-- `TIN.CLOSE` of the slot's TIN sources (R118). -/
def State.mCloses (s : State) (i : Nat) : List Nat :=
  (tinOf (s.mSrcA i) ++ (if s.mUsesB i then tinOf (s.mSrcB i) else [])).map fun c => s.reg64 (sTin c) 0x030

/-- A stamp put into a gate under the sources it names. -/
def State.gateAdd (s : State) (i : Nat) (g : MGate) (x : Stamp) : MGate :=
  let g1 := if s.mSrcA i = x.src then { g with a := insStamp x g.a } else g
  if s.mUsesB i && decide (s.mSrcB i = x.src) then { g1 with b := insStamp x g1.b } else g1

/-- A receiver stamp used by a slot counts as served (R269). -/
def State.laneUsed (s : State) (i : Nat) (l : List Stamp) : State :=
  let k := (l.filter fun x => decide (x.src < 4096)).length
  if k = 0 then s else s.report (s.mOwner i) 4 0 k

/-- Open a gate at an instant (R109); stamps that wait for it join it. -/
def State.measOpen (s : State) (i : Nat) (p : Int) (flags : Nat) (late : Bool) : State :=
  let m := s.mslot i
  let close := p + 2000 * (s.mGlen i : Int)
  let g : MGate := {
    openP := p, openT := s.stampTime p, flags := flags, lateOpen := late
    closeP := if s.mGsrc i = 0 then close else 0
    contig := match m.prevClose with
      | some q => decide (q = p)
      | none => true
    close0 := s.mCloses i }
  let mine := m.recent.filter fun x => decide (p ≤ x.phys)
  (s.setMslot i { m with
    gate := some (mine.foldl (s.gateAdd i) g), recent := [], deferred := false
    drops := m.drops.filter fun q => decide (p ≤ q) }).laneUsed i (mine.filter fun x => s.slotNames i x.src)

/-- Close the open gate at an instant (R109): it takes the next gate number, and stamps at or after the close wait for the
next gate; a slot that is not a TIMER one asks its channels again (R111), unless a Solstice has made it ask. -/
def State.measClose (s : State) (i : Nat) (p : Int) (flags : Nat) (limit stopped : Bool) : State :=
  let m := s.mslot i
  match m.gate with
  | some g =>
    let before (l : List Stamp) := l.filter fun x => decide (x.phys < p)
    let after (l : List Stamp) := l.filter fun x => decide (p ≤ x.phys)
    let g' := { g with
      closeP := p, closeT := s.stampTime p, flags := g.flags ||| flags, seq := (s.tabw (oMeas i 17)).toNat
      a := before g.a, b := before g.b, edgeLimit := g.edgeLimit || limit, stopped := stopped
      close1 := s.mCloses i }
    let left := if s.mUsesB i && decide (s.mSrcA i ≠ s.mSrcB i) then
        (after g.b).foldl (fun l x => insStamp x l) (after g.a) else after g.a
    let s1 := (s.setMslot i { m with
      gate := none, closed := m.closed ++ [g'], prevClose := some p
      recent := left.foldl (fun l x => insStamp x l) m.recent }).setTabN (oMeas i 17) (g'.seq + 1)
    if s.mGsrc i = 0 || stopped || g.sol.isSome then s1 else s1.mRequest i
  | none => s

/-- Whether a stamp is a regression edge that would pass the 2^32 − 1 which a gate holds per source (R117). -/
def State.gateFull (s : State) (i : Nat) (g : MGate) (x : Stamp) : Bool :=
  let full (src pol : Nat) (l : List Stamp) : Bool :=
    decide (src = x.src) && decide (2 ^ 32 - 1 ≤ l.length) &&
      !(s.mUsed i src (s.tbit (oMeas i 0) pol) [x]).isEmpty &&
      decide (2 ^ 32 - 1 ≤ (s.mUsed i src (s.tbit (oMeas i 0) pol) l).length)
  decide (s.mMode i ≤ 1) && (full (s.mSrcA i) 4 g.a || (s.mUsesB i && full (s.mSrcB i) 5 g.b))

/-- Whether a stamp that no gate holds yet may lie in a gate to come: a TIMER or SEQUENCER gate opens at its next open or from now
on. -/
def State.mayWait (s : State) (i : Nat) (x : Stamp) : Bool :=
  let m := s.mslot i
  if s.mGsrc i = 3 then decide (s.phys ≤ x.phys)
  else if s.mGsrc i = 0 then m.nextOpen.any fun o => decide (2000 * (o : Int) ≤ x.phys)
  else m.armed

/-- A source stamp joins the gate that holds its TIME, or waits for one to come (R113, R114). The edge that would pass
2^32 − 1 regression edges of its source closes the gate and is the first of the next (R117); where that is a TIMER gate, it closes
when the one before it would have. DEDUCED (log entry 33). -/
def State.measJoin (s : State) (i : Nat) (x : Stamp) : State :=
  let m := s.mslot i
  let inside (g : MGate) : Bool := decide (g.openP ≤ x.phys) && decide (x.phys < g.closeP)
  if m.closed.any inside then
    (s.setMslot i { m with closed := m.closed.map fun g => if inside g then s.gateAdd i g x else g }).laneUsed i [x]
  else
    let timer := decide (s.mGsrc i = 0)
    match m.gate with
    | some g =>
      if decide (g.openP ≤ x.phys) && (!timer || decide (x.phys < g.closeP)) then
        if s.gateFull i g x then
          let s1 := (s.measClose i x.phys 0 true false).measOpen i x.phys 0 false
          match (s1.mslot i).gate with
          | some g1 =>
            let g2 := s.gateAdd i { g1 with closeP := if timer then g.closeP else g1.closeP } x
            (s1.setMslot i { s1.mslot i with gate := some g2 }).laneUsed i [x]
          | none => s1
        else (s.setMslot i { m with gate := some (s.gateAdd i g x) }).laneUsed i [x]
      else if timer && decide (g.closeP ≤ x.phys) then s.setMslot i { m with recent := insStamp x m.recent }
      else s
    | none => if m.armed && s.mayWait i x then s.setMslot i { m with recent := insStamp x m.recent } else s

/-- An opening that comes before READY is ignored and counted (R112). -/
def State.measEarly (s : State) (i : Nat) : State := (s.tbump (oMeas i 19) 1).evt sMeas 3

/-- `GLB.HORIZON` in qps (R178). -/
def State.horizon (s : State) : Int := 4000 * (s.rfld sGlb 0x034 0 16 : Int)

/-- How much later than its TIME a TIN-side stamp's edge comes: the pin's delay and DESKEW, or, for an echo, less the output's
DESKEW (R83, R145). -/
def State.srcDelay (s : State) (src : Nat) : Int :=
  (s.stamper (if src < 4196 then src - 4096 else 101)).dPin +
    (if src < 4160 then signed 32 (s.reg (ra (sTin (src - 4096)) 0x01C)).toNat
     else if src < 4192 then -(signed 32 (s.reg (ra (sTout (src - 4160)) 0x018)).toNat) else 0)

/-- Every stamp of a source that can belong to a gate has arrived (R114): the FIFO's progress mark, or the horizon, has
passed the close. -/
def State.srcPast (s : State) (i src : Nat) (close : Int) : Bool :=
  if src < 4096 then
    decide (close + s.horizon ≤ s.phys) && !(s.laneIn.any fun e => decide (e.2.src = src) && decide (e.2.phys < close)) &&
      !((s.mslot i).lane.any fun x => decide (x.phys < close))
  else
    decide (close + 4000 + s.srcDelay src ≤ s.phys) &&
      !(s.measIn.any fun x => decide (x.src = src) && decide (x.phys < close)) &&
      (decide (4160 ≤ src) || !((s.tin (src - 4096)).fifo.any fun x => decide (x.phys < close)))

/-- A record goes to DMA when DMA_EN is 1 (R131). -/
def State.measSend (s : State) (i : Nat) (body : List Byte) : State :=
  if s.tbit (oMeas i 0) 18 then s.hand (s.tfld (oMeas i 0) 12 6) { kind := 0, body := body, src := .meas i (s.mOwner i) } else s

/-- A newer record of a slot than a window on it shows (R135). -/
def State.winStale (s : State) (i : Nat) (stat : Bool) : State :=
  { s with measWins := s.measWins.map fun e =>
      if e.1 % 2 = b2n stat ∧ e.2.sel = some i then (e.1, { e.2 with stale := true }) else e }

/-- A slot's result is a condition for the contexts whose selectors name it (R262, KIND 2), with the close of its gate or
block (R298). -/
def State.condResult (s : State) (i : Nat) (stat : Bool) (p : Int) (t : Nat) : State :=
  if s.runningCtxs.any fun c => s.ctxBit c 27 && (List.range 16).any fun k =>
      let v := s.csel c k; decide (selKind v = 2) && decide (selSrc v = i) then
    { s with condIn := s.condIn ++ [.result i stat p t] }
  else s

/-- The statistics block in progress is published and the next begins (R124, R130); a block with no gate yields no
record. SOLS and WRAP are those of its last gate's epoch and close (R126). -/
def State.publishStat (s : State) (i : Nat) (trunc : Bool) : State :=
  let m := s.mslot i
  match m.devs.getLast? with
  | none => s
  | some v =>
    let fl := (m.devs.foldl (fun f v => f ||| v.flags) 0 &&& 31) ||| marksDue v.orig v.closeP m.seen ||| flagIf trunc fTRUNC
    let body := s.statRecord i m.sseq fl m.devs
    let s1 := s.setMslot i { m with
      lastStat := body, sseq := (m.sseq + 1) % 2 ^ 32, devs := [], seen := seenAfter v.orig v.closeP m.seen }
    (((s1.winStale i true).measSend i body).evt sMeas 1).condResult i true v.closeP v.closeT

/-- The statistics block ends with TRUNC: now, or with the last gate that has closed and is not complete (R132). -/
def State.endStatBlock (s : State) (i : Nat) : State :=
  let m := s.mslot i
  match m.closed.reverse with
  | g :: r => s.setMslot i { m with closed := (({ g with endBlock := true } : MGate) :: r).reverse }
  | [] => s.publishStat i true

/-- A Solstice abandons a gate with no record (R132): what came after it may belong to the next gate, and the statistics block
that the gate held up ends. -/
def State.measAbandon (s : State) (i : Nat) : State :=
  let m := s.mslot i
  match m.gate with
  | some g =>
    let a := g.sol.getD s.phys
    let late (l : List Stamp) := l.filter fun x => decide (a ≤ x.phys)
    let left := (late g.b).foldl (fun l x => if l.contains x then l else insStamp x l) (late g.a)
    let s1 := s.setMslot i { m with gate := none, recent := left }
    if g.endBlock then s1.endStatBlock i else s1
  | none => s

/-- A gate that a Solstice found open is abandoned once no stamp can come that closes it at or before A. -/
def State.measSolCheck (s : State) (i : Nat) : State :=
  match (s.mslot i).gate.bind (·.sol) with
  | some a => if s.srcPast i (4096 + s.mGtin i) a then s.measAbandon i else s
  | none => s

/-- A gate that opens before the last Solstice, by a stamp that comes after it: unless another stamp closes it before then, it is
abandoned, and its channels are asked again (R132). -/
def State.measOpenLate (s : State) (i : Nat) (x : Stamp) : State :=
  let s1 := s.measOpen i x.phys x.flags false
  let m := s1.mslot i
  (s1.setMslot i { m with gate := m.gate.map fun g => { g with sol := some (2000 * (s.solEdge : Int)) } }).mRequest i

/-- A stamp of the gate channel of a LEVEL or EDGE slot (R109, R112, R117, R132). -/
def State.measGateStamp (s : State) (i : Nat) (x : Stamp) : State :=
  let s := match (s.mslot i).gate.bind (·.sol) with
    | some a => if a < x.phys then s.measAbandon i else s
    | none => s
  let m := s.mslot i
  let up := !s.tbit (oMeas i 0) 10
  let opening := x.rising == up
  match m.gate with
  | none =>
    if opening && m.armed then
      if m.requested || decide (x.phys < m.readyP) then
        (s.setMslot i { m with recent := m.recent.filter fun y => decide (x.phys ≤ y.phys) }).measEarly i
      else if x.phys < 2000 * (s.solEdge : Int) then s.measOpenLate i x
      else s.measOpen i x.phys x.flags false
    else s.setMslot i { m with recent := m.recent.filter fun y => decide (x.phys ≤ y.phys) }
  | some g =>
    if s.mGsrc i = 1 then (if opening then s else s.measClose i x.phys x.flags false false)
    else if opening then
      if g.edges + 1 ≥ s.tfld (oMeas i 2) 8 24 then s.measClose i x.phys x.flags false false
      else s.setMslot i { m with gate := some { g with edges := g.edges + 1 } }
    else s

/-- A T die stamp reaches every slot that uses its source (R106). -/
def State.measStampOn (s : State) (x : Stamp) : State :=
  s.each (s.armedSlots.filter fun i => s.slotUses i x.src) fun s i =>
    let gateCh := (decide (s.mGsrc i = 1) || decide (s.mGsrc i = 2)) && decide (4096 + s.mGtin i = x.src)
    let s1 := if gateCh then s.measGateStamp i x else s
    if s1.slotNames i x.src then s1.measJoin i x else s1

/-- The next stamp in transit to the engine (R106). -/
def State.measStamp (s : State) : State :=
  match s.measIn with
  | x :: r => { s with measIn := r }.measStampOn x
  | [] => s

/-- The first `k` stamps of a source in a queue, and what stays. -/
def takeSrc (src : Nat) : Nat → List Stamp → List Stamp × List Stamp
  | _, [] => ([], [])
  | 0, l => ([], l)
  | k + 1, x :: r =>
    if x.src = src then let (a, b) := takeSrc src k r; (x :: a, b)
    else let (a, b) := takeSrc src (k + 1) r; (a, x :: b)

/-- A slot drains its lane queue at one stamp per source per 1 ns (R107). -/
def State.measDrain (s : State) (i : Nat) : State :=
  let m := s.mslot i
  let k := (s.now - m.drained) / 2
  let (a, r) := takeSrc (s.mSrcA i) k m.lane
  let (b, r) := if s.mUsesB i && decide (s.mSrcA i ≠ s.mSrcB i) then takeSrc (s.mSrcB i) k r else ([], r)
  let s1 := s.setMslot i { m with lane := r, drained := if r.isEmpty then s.now else m.drained + 2 * k }
  s1.each (a ++ b) fun s x => s.measJoin i x

/-- A receiver stamp meets a slot's lane queue of 4,096: it enters, or it is dropped, and the gate it lies in shows DROP (R107,
R409). -/
def State.laneOffer (s : State) (i : Nat) (x : Stamp) : State :=
  let s0 := s.measDrain i
  let m := s0.mslot i
  let key := 8192 * i + x.src
  let owed := Sparse.get 0 s0.laneOwed key
  if !m.armed && m.closed.isEmpty then s0
  else if m.lane.length ≥ 4096 then
    let s1 := { s0.setMslot i { m with drops := x.phys :: m.drops } with
      laneOwed := Sparse.set 0 s0.laneOwed key (joinMarks owed x.flags) }
    (((s1.tbump (oMeas i 20) 1).bump64 sMeas 0x0E0 1).evt sMeas 4).report (s0.mOwner i) 4 2 1
  else
    { s0 with laneOwed := Sparse.set 0 s0.laneOwed key 0 }.setMslot i { m with
      lane := m.lane ++ [{ x with flags := x.flags ||| joinMarks owed x.flags }] }

/-- How many lane-source stamps of a die have reached the engine at this coarse edge (R13). -/
def State.laneSent (s : State) (die : Nat) : Nat :=
  let (e, n) := Sparse.get (0, 0) s.laneOut die
  if e = s.now then n else 0

/-- The next receiver stamp in transit whose die may send one now reaches every slot that names its source: a die sends at most
4 G stamps/s, two a coarse edge (R13, R107). -/
def State.measLaneStamp (s : State) : State :=
  match s.laneIn.find? fun e => decide (s.laneSent e.1 < 2) with
  | some (d, x) =>
    let s1 := { s with
      laneIn := s.laneIn.eraseP fun e => decide (s.laneSent e.1 < 2)
      laneOut := Sparse.put s.laneOut d (s.now, s.laneSent d + 1) }
    s1.each (s1.armedSlots.filter fun i => s1.slotNames i x.src) fun s i => s.laneOffer i x
  | none => s

/-! ### Timer gates, limits, the sequencer's gates -/

/-- The requests of a TIMER gate are sent 80 coarse periods before its open (R111). -/
def State.timerRequest (s : State) (i : Nat) : State :=
  let m := s.mslot i
  match m.nextOpen with
  | some o =>
    if m.armed && !m.reqSent && decide (s.mGsrc i = 0) && decide (o ≤ s.now + 80) then
      let s1 := s.mRequest i
      s1.setMslot i { s1.mslot i with reqSent := true }
    else s
  | none => s

/-- A TIMER boundary: the gate whose close has come closes, and the next opens when its open has come (R110). -/
def State.timerEdge (s : State) (i : Nat) : State :=
  if s.mGsrc i = 0 then
    let s1 := match (s.mslot i).gate with
      | some g => if g.closeP ≤ s.phys then s.measClose i g.closeP 0 false false else s
      | none => s
    let m := s1.mslot i
    match m.nextOpen, m.gate with
    | some o, none =>
      if m.armed && decide (o ≤ s.now) then
        let s2 := s1.measOpen i (2000 * (o : Int)) 0 false
        s2.setMslot i { s2.mslot i with
          nextOpen := some (o + s.mGlen i + s.mGspace i), reqSent := false, requested := false }
      else s1
    | _, _ => s1
  else s

/-- A LEVEL, EDGE or SEQUENCER gate reaches 2^48 − 1 coarse periods and closes (R117), unless a Solstice lies before that. -/
def State.lengthLimit (s : State) (i : Nat) : State :=
  match (s.mslot i).gate with
  | some g =>
    let e : Int := g.openP / 2000 + (2 ^ 48 - 1)
    if decide (s.mGsrc i ≠ 0) && decide (e ≤ (s.now : Int)) then
      if g.sol.any fun a => decide (a < 2000 * e) then s.measAbandon i else s.measClose i (2000 * e) 0 true false
    else s
  | none => s

/-- The sequencer opens a slot's gate at its commit edge: at once, or deferred to READY (R109, R112). -/
def State.seqOpen (s : State) (i : Nat) : State :=
  let m := s.mslot i
  if m.armed && decide (s.mGsrc i = 3) && m.gate.isNone && !m.deferred then
    if m.requested then s.setMslot i { m with deferred := true } else s.measOpen i s.phys 0 false
  else s

/-- The sequencer closes a slot's gate, or cancels a deferred opening (R109, R112). -/
def State.seqClose (s : State) (i : Nat) : State :=
  let m := s.mslot i
  if decide (s.mGsrc i = 3) && m.deferred then (s.setMslot i { m with deferred := false }).measEarly i
  else if decide (s.mGsrc i = 3) && m.gate.isSome then s.measClose i s.phys 0 false false
  else s

/-- CLOSE_OPEN: the close, then an opening that is deferred to READY like any other (R112). -/
def State.seqCloseOpen (s : State) (i : Nat) : State := (s.seqClose i).seqOpen i

/-- The Y of a channel's last Equinox for a slot: requests that awaited it are served, later ones now await the next (R93, R94). -/
def MSlot.served (m : MSlot) (ch : Nat) : MSlot :=
  { m with
    await := if m.await2.contains ch then ch :: m.await.filter (· ≠ ch) else m.await.filter (· ≠ ch)
    await2 := m.await2.filter (· ≠ ch) }

/-- No request of a slot is on its way or unserved: every requested channel is READY for it (R112). -/
def MSlot.allReady (m : MSlot) : Bool := m.sent.isEmpty && m.await.isEmpty && m.await2.isEmpty

/-- READY is set on a channel for the requests served by its last Equinox: slots that waited for it alone are ready, and a
deferred opening happens now (R93, R112). -/
def State.measReady (s : State) (ch : Nat) : State :=
  s.each (s.armedSlots.filter fun i => (s.mChans i).contains ch) fun s i =>
    let s1 := (s.setMslot i ((s.mslot i).served ch)).measSolCheck i
    let m := s1.mslot i
    if m.requested && m.allReady then
      let s2 := s1.setMslot i { m with requested := false, readyP := s.phys }
      if m.deferred && m.armed then s2.measOpen i s.phys 0 true else s2
    else s1

/-- A gate is open, and no Solstice lies in it (R132). -/
def MSlot.gateOpen (m : MSlot) : Bool := m.gate.any fun g => g.sol.isNone

/-- Word 16 of a slot: idle, awaiting READY, gate open or between gates, and FROST (R134). -/
def State.slotState (s : State) (i : Nat) : Nat :=
  let m := s.mslot i
  (if !m.armed then 0 else if m.gateOpen then 2 else if m.requested then 1 else 3) + 4 * b2n m.held

/-! ### Completion -/

/-- A closed gate is complete (R114). -/
def State.gateDue (s : State) (i : Nat) (g : MGate) : Bool :=
  s.srcPast i (s.mSrcA i) g.closeP && (!s.mUsesB i || s.srcPast i (s.mSrcB i) g.closeP)

/-- The slot is held under Frost: a calibration run is in progress on a TIN channel it depends on (R127). -/
def State.mFrost (s : State) (i : Nat) : Bool := (s.mChans i).any fun c => (s.stamper c).calRun

/-- A published gate record (R128, R129). -/
def State.publishGate (s : State) (i : Nat) (g : MGate) (r : GateRes) (flags status : Nat) (frost : Bool) : State :=
  let m := s.mslot i
  let vals := if frost then m.lastVals else r.vals
  let n := min r.nA (2 ^ 32 - 1) + 2 ^ 32 * min r.nB (2 ^ 32 - 1)
  let body := (([measHeader i 0 flags status g.seq, g.openT, g.closeT, n] ++ vals).map w64).flatten
  let s1 := s.setMslot i { m with
    lastGate := body, lastVals := vals, seen := seenAfter (s.originOf g.openP) g.closeP m.seen, held := frost }
  ((((s1.winStale i false).measSend i body).bump64 sMeas 0x0E8 1).evt sMeas 0).condResult i false g.closeP g.closeT

/-- The status bits of a gate record from bit 32 on (R128). -/
def State.gateStatus (s : State) (i : Nat) (g : MGate) (frost : Bool) : Nat :=
  let gap := seqGap g.a || (s.mUsesB i && seqGap g.b)
  b2n gap + 2 * b2n (decide (g.close0 ≠ g.close1)) + 4 * b2n g.lateOpen + 8 * b2n g.dropped + 16 * b2n g.edgeLimit +
    32 * b2n frost + 64 * b2n (!g.contig)

/-- The flags of a gate record (R126): WRAP where the epoch has wrapped between the slot's last result and its close. -/
def State.gateFlags (s : State) (i : Nat) (g : MGate) : Nat :=
  let m := s.mslot i
  let used := s.mUsed i (s.mSrcA i) (s.tbit (oMeas i 0) 4) g.a ++
    (if s.mUsesB i then s.mUsed i (s.mSrcB i) (s.tbit (oMeas i 0) 5) g.b else [])
  ((used.foldl (fun f x => f ||| x.flags) g.flags) &&& 31) |||
    marksDue (s.originOf g.openP) g.closeP m.seen |||
    flagIf (g.edgeLimit || g.stopped) fTRUNC

/-- The oldest closed gate completes: its result is computed and published, or it is empty, and it enters the statistics
block (R113, R114, R118, R124, R127). -/
def State.gateComplete (s : State) (i : Nat) : State :=
  let s := (s.measDrain i).measSolCheck i
  let m := s.mslot i
  match m.closed with
  | g0 :: rest =>
    if s.gateDue i g0 then
      let g := { g0 with dropped := m.drops.any fun q => decide (g0.openP ≤ q) && decide (q < g0.closeP) }
      let start := if m.doneClose = some g.openP then m.pend else none
      let r := s.gateRes i g start
      let frost := s.mFrost i
      let flags := s.gateFlags i g
      let status := s.gateStatus i g frost
      let s1 := s.setMslot i { m with
        closed := rest, pend := r.pend, doneClose := some g.closeP, held := frost
        drops := m.drops.filter fun q => decide (g.closeP ≤ q) }
      let s2 := ({ s1 with freeCtr := s1.freeCtr + r.used }.tbump (oMeas i 23) r.missStop).tbump (oMeas i 24) r.longIvl
      let s3 := if g.lateOpen then s2.report (s.mOwner i) 4 1 1 else s2
      let s4 := if g.close0 ≠ g.close1 then s3.tbump (oMeas i 22) 1 else s3
      let s5 := if frost then (s4.tbump (oMeas i 21) 1).evt sMeas 5 else s4
      let s6 := if r.produced then s5.publishGate i g r flags status frost else (s5.tbump (oMeas i 18) 1).evt sMeas 2
      let valid := r.produced && !frost && !g.dropped && (decide (s.mMode i = 2) || decide (g.close0 = g.close1))
      let n := s.tfld (oMeas i 7) 0 24
      if n = 0 then s6
      else
        let m6 := s6.mslot i
        let v : MDev := { d := if valid then some r.dev else none, flags := flags, openT := g.openT, closeT := g.closeT, closeP := g.closeP, orig := s.originOf g.openP }
        let s7 := s6.setMslot i { m6 with devs := m6.devs ++ [v] }
        if m6.devs.length + 1 = n then s7.publishStat i false
        else if g.endBlock then s7.publishStat i true
        else s7
    else s
  | [] => s

/-! ### Arming, stopping, Solstice, page RESET -/

/-- The first open of a TIMER slot that arms now (R110). -/
def State.firstOpen (s : State) (i : Nat) : Option Nat :=
  if s.mGsrc i = 0 then
    if s.tbit (oMeas i 0) 11 then
      let per := s.mGlen i + s.mGspace i
      some (s.solEdge + cdiv (s.now + 80 - s.solEdge) per * per)
    else some (s.now + 80)
  else none

/-- A slot arms (R104, R111), and sends its requests unless its gates are TIMER ones. -/
def State.measRearm (s : State) (i : Nat) : State :=
  let m := s.mslot i
  let s1 := s.setMslot i { m with
    armed := true, gate := none, closed := [], requested := false, sent := [], await := [], await2 := [], readyP := s.phys
    nextOpen := s.firstOpen i, reqSent := false, deferred := false, prevClose := none, devs := [], recent := [], lane := []
    drops := [], drained := s.now, pend := none, doneClose := none, held := false }
  if s.mGsrc i = 0 then s1 else s1.mRequest i

/-- A slot arms at its owner's start (R104): its status words are cleared, and its gates and blocks are numbered from 0. DEDUCED
(log entry 33). -/
def State.measArm (s : State) (i : Nat) : State :=
  let s1 := s.each (List.range 8) fun s k => s.setTabN (oMeas i (17 + k)) 0
  (s1.setMslot i { s1.mslot i with sseq := 0 }).measRearm i

/-- The owner stops (R132): under STOP the open gate closes at this edge with TRUNC, otherwise it is abandoned; the
statistics block is published with TRUNC and the slot disarms. -/
def State.measSlotStop (s : State) (i : Nat) (byStop : Bool) : State :=
  let s0 := s.timerEdge i
  let s0 := if ((s0.mslot i).gate.bind (·.sol)).isSome then s0.measAbandon i else s0
  let s1 := if byStop then s0.measClose i s0.phys 0 false true else s0
  let s2 := s1.setMslot i { s1.mslot i with
    gate := none, armed := false, requested := false, sent := [], await := [], await2 := [], deferred := false
    nextOpen := none, recent := [] }
  s2.endStatBlock i

/-- Every slot that a context owns (R104, R411). -/
def State.ownSlots (s : State) (c : Nat) : List Nat :=
  (s.meas.filter fun e => e.2.armed && decide (s.mOwner e.1 = c)).map (·.1)

/-- A context's slots stop. -/
def State.measCtxStop (s : State) (c : Nat) (byStop : Bool) : State :=
  s.each (s.ownSlots c) fun s i => s.measSlotStop i byStop

/-- A Solstice at this edge (R68, R132): open gates are abandoned, blocks are published with TRUNC, TIMER gates start
again from A. A LEVEL or EDGE gate stays open until it is known that no stamp closes it at or before A. -/
def State.measSolstice (s : State) : State :=
  s.each ((s.meas.filter fun e => e.2.armed).map (·.1)) fun s i =>
    let s0 := s.timerEdge i
    let s0 := if ((s0.mslot i).gate.bind (·.sol)).isSome then s0.measAbandon i else s0
    let m := s0.mslot i
    let open' := m.gate.isSome
    let wait := open' && (decide (s.mGsrc i = 1) || decide (s.mGsrc i = 2))
    let s1 := s0.setMslot i { m with
      gate := if wait then m.gate.map fun g => { g with sol := some s.phys, endBlock := true } else none
      deferred := false, recent := if decide (s.mGsrc i = 1) || decide (s.mGsrc i = 2) then m.recent else [] }
    let s2 := if wait then s1 else s1.endStatBlock i
    let per := s.mGlen i + s.mGspace i
    let m2 := s2.mslot i
    let s3 := s2.setMslot i { m2 with
      nextOpen := if s.mGsrc i = 0 then some (if s.tbit (oMeas i 0) 11 then s.now + per else s.now + 80) else none
      reqSent := false }
    if s.mGsrc i ≠ 0 && open' then s3.mRequest i else s3

/-- A MEAS page RESET (R132): every gate not complete is abandoned, statistics and counters are cleared, armed slots arm
again. Gate and block numbers are no counters and go on (R26, R414). -/
def State.measReset (s : State) : State :=
  let s1 := s.each (s.meas.map (·.1)) fun s i =>
    let m := s.mslot i
    if m.armed then (s.setMslot i { m with lastGate := [], lastStat := [] }).measRearm i
    else s.setMslot i { seen := m.seen, sseq := m.sseq }
  let s2 := s1.each ((s1.tab.filter fun e => decide (0x4_0000 ≤ e.1) && decide (e.1 < 0x6_0000) &&
      decide (18 ≤ (e.1 - 0x4_0000) % 128 / 4)).map (·.1)) fun s a => s.setTabN a 0
  { (s2.setReg64 sMeas 0x0E0 0).setReg64 sMeas 0x0E8 0 with measWins := [] }

/-- The number of a window of R135: one of each kind for each access path (R348). -/
def winKey (p : Path) (stat : Bool) : Nat := (if p = .pcie then 0 else 2) + b2n stat

/-- A window of R135. -/
def State.measWin (s : State) (p : Path) (stat : Bool) : Window := Sparse.get {} s.measWins (winKey p stat)

/-- The window read of R135: the snapshot of RES_00 or STR_00 of the selected slot, for one access path. DEDUCED (log entry 20). -/
def State.measWinRead (s : State) (p : Path) (stat : Bool) : List Byte × State :=
  let i := s.rfld sMeas 0x018 0 10
  let rec' := if stat then (s.mslot i).lastStat else (s.mslot i).lastGate
  let w : Window := { bytes := rec', sel := some i, stale := false }
  (rec', { s with measWins := Sparse.put s.measWins (winKey p stat) w })

/-- The 4 bytes at word `k` of a snapshot; zeros where there is no record. -/
def winWord (b : List Byte) (k : Nat) : Word := BitVec.ofNat 32 (ofLeBytes ((b.drop (4 * k)).take 4))

/-! ### Commands -/

/-- SWAP_WINDOW_CLOSE (R92, R93): the window closes; READY may open deferred gates (R112). -/
def execSwapWindowClose (t : Nat) (ch : Fin 102) : State → Host.Outcome State Fault Refusal :=
  command t fun s => (s.windowClose ch).measReady ch

/-- MEAS_STAMP (R106). -/
def execMeasStamp (t : Nat) : State → Host.Outcome State Fault Refusal := command t State.measStamp

/-- MEAS_LANE_STAMP (R107). -/
def execMeasLaneStamp (t : Nat) : State → Host.Outcome State Fault Refusal := command t State.measLaneStamp

/-- TIMER_GATE_REQUEST (R111). -/
def execTimerGateRequest (t : Nat) (i : Fin 1024) : State → Host.Outcome State Fault Refusal :=
  command t fun s => s.timerRequest i

/-- TIMER_GATE_EDGE (R110). -/
def execTimerGateEdge (t : Nat) (i : Fin 1024) : State → Host.Outcome State Fault Refusal :=
  command t fun s => s.timerEdge i

/-- GATE_LENGTH_LIMIT (R117). -/
def execGateLengthLimit (t : Nat) (i : Fin 1024) : State → Host.Outcome State Fault Refusal :=
  command t fun s => s.lengthLimit i

end Sys2Proof.Machine
end

