-- ==== Sys2Proof/Machine/Rebase.lean ====
section
/-! DEFINITION. Rebase, horizon and binning (08_rebase_and_binning.md): tile models and their refresh points, staleness,
the horizon filter, and a hit's entry into the bin planes. BIN_RELEASE stands with the
beam former and the correlator. What it reads by inference or chooses: log entry 37. -/

namespace Sys2Proof.Machine

/-- A 64-bit counter of a table advanced, saturating (R26). -/
def State.tbump64 (s : State) (off k : Nat) : State := s.setTab64 off (satAdd 64 (s.tab64 off) k)

/-- The die a tile, lane or receiver's tile lies on (R5). -/
def tileDie (n : Nat) : Nat := if n < 32 then 0 else 1

/-- The first word of every listed entry of a table, with the entry's number. A valid entry is always listed, since
EN and V reset to 0. -/
def State.entries (s : State) (base size stride : Nat) : List (Nat × Word) :=
  (s.tab.filter fun e => decide (base ≤ e.1) && decide (e.1 < base + size) && decide ((e.1 - base) % stride = 0)).map
    fun e => ((e.1 - base) / stride, e.2)

/-- The valid entries of a die's weight table: beam, receiver, weight and bin delay (R193). -/
def State.weights (s : State) (die : Nat) : List (Nat × Nat × Int × Nat) :=
  ((s.entries (oWeight die 0 0) 0x8_0000 8).filter fun e => bit e.2 31).map fun e =>
    let w1 := s.tabw (oWeight die e.1 1)
    (fld e.2 16 10, fld e.2 0 11 + 2048 * die, signed 5 (fld w1 0 5), fld w1 8 6)

/-- The enabled beams: number and owner (R195, R411). -/
def State.beams (s : State) : List (Nat × Nat) :=
  ((s.entries (oBeam 0 0) 0x4000 16).filter fun e => bit e.2 31).map fun e => (e.1, fld e.2 0 9)

/-- `SLOT_BASE` and `SLOT_CNT` of a context's correlator entry (R223). -/
def State.slotBase (s : State) (c : Nat) : Nat := s.tfld (oCor c 0) 12 11
def State.slotCnt (s : State) (c : Nat) : Nat := s.tfld (oCor c 0) 0 12
def State.corEn (s : State) (c : Nat) : Bool := s.tbit (oCor c 0) 31

/-- The slots of a context in ascending local index: whether each is a beam slot, and its source (R203, R204, R224). -/
def State.ctxSlots (s : State) (c : Nat) : List (Bool × Nat) :=
  if s.corEn c then (List.range (s.slotCnt c)).map fun k =>
    let w := s.tabw (oSlot (s.slotBase c + k) 0)
    (bit w 30, fld w 0 12)
  else []

/-- The receivers that a beam's entries of non-zero weight name. -/
def State.beamRx (s : State) (b : Nat) : List Nat :=
  ((s.weights 0 ++ s.weights 1).filter fun e => decide (e.1 = b) && decide (e.2.2.1 ≠ 0)).map (·.2.1)

/-- The receivers that feed a context's correlator slots (R216). -/
def State.corRx (s : State) (c : Nat) : List Nat :=
  (s.ctxSlots c).flatMap fun k => if k.1 then s.beamRx k.2 else [k.2]

/-- The receivers whose binned counts a context's record lists (R296). -/
def State.recRx (s : State) (c : Nat) : List Nat :=
  if s.tbit (oRec c 0) 12 then
    (List.range (s.tfld (oRec c 3) 0 13)).map fun k => s.tfld (oRec c 4) 0 12 + k
  else []

/-- Whether a running context uses a receiver in any way (R269). -/
def State.ctxUsesRx (s : State) (c r : Nat) : Bool :=
  s.ctxUses c r || (s.corRx c).contains r || ((s.cap c).active && (s.recRx c).contains r)

/-- Whether a context uses receivers of a lane or tile. -/
def State.ctxUsesTile (s : State) (c n : Nat) : Bool := (List.range 64).any fun k => s.ctxUsesRx c (64 * n + k)

/-- The running contexts that use a receiver, or a tile. -/
def State.rxUsers (s : State) (r : Nat) : List Nat := s.runningCtxs.filter fun c => s.ctxUsesRx c r
def State.tileUsers (s : State) (n : Nat) : List Nat := s.runningCtxs.filter fun c => s.ctxUsesTile c n

/-! ### The tile model -/

/-- A tile's clock mode (R169), and the number of points it fits (R171). -/
def State.tileMode (s : State) (n : Nat) : Nat := s.tfld (oTile n 0) 0 2
def State.tileFit (s : State) (n : Nat) : Nat := 2 ^ s.tfld (oTile n 0) 4 4

/-- The link that names a tile (R169). -/
def State.tileLink (s : State) (n : Nat) : Option Nat :=
  (List.range 33).find? fun k => decide (s.rfld (sTtl k) 0x014 1 2 = 1) && decide (s.rfld (sTtl k) 0x014 10 6 = n)

/-- A tile is absent while its lane is neither UP nor MISMATCH (R167). -/
def State.tileAbsent (s : State) (n : Nat) : Bool :=
  decide ((s.lane n).st ≠ .up) && decide ((s.lane n).st ≠ .mismatch)

/-- The model in force: T0, KQ0 and CORR (R171). -/
def State.tileT0 (s : State) (n : Nat) : Nat := s.tab64 (oTile n 9)
def State.tileKq0 (s : State) (n : Nat) : Nat := s.tab64 (oTile n 11)
def State.tileCorr (s : State) (n : Nat) : Int := signed 64 (s.tab64 (oTile n 13))
def State.haveModel (s : State) (n : Nat) : Bool := s.tbit (oTile n 8) 2

/-- A model written: T0, KQ0, CORR, and HAVE_MODEL (R189). -/
def State.setModel (s : State) (n t0 kq0 : Nat) (corr : Int) : State :=
  (((s.setTab64 (oTile n 9) t0).setTab64 (oTile n 11) kq0).setTab64 (oTile n 13) (unsign 64 corr)).setTfld
    (oTile n 8) 2 1 1

/-- A tile's model: T0, KQ0, CORR and HAVE_MODEL (R171). -/
structure TileModel where
  t0 : Nat
  kq0 : Nat
  corr : Int
  have' : Bool
  deriving DecidableEq, Repr

/-- The model in force. -/
def State.tileModel (s : State) (n : Nat) : TileModel := ⟨s.tileT0 n, s.tileKq0 n, s.tileCorr n, s.haveModel n⟩

/-- The model that a word rebased now meets: where refresh points came at this same edge, as it stood before them (R188). -/
def State.hitModel (s : State) (n : Nat) : TileModel :=
  match (s.tile n).before with
  | some (e, t0, kq0, corr, h) => if e = s.now then ⟨t0, kq0, corr, h⟩ else s.tileModel n
  | none => s.tileModel n

/-- The time a model gives for a tile time (R171, R172). -/
def TileModel.time (m : TileModel) (kq : Nat) : Nat :=
  let dq := sdiff kq m.kq0
  m64 ((m.t0 : Int) + dq + rne (dq * m.corr) (2 ^ 48))

/-- The count congruent to a 56-bit one that lies nearest to what a model gives for an epoch (R172), at a tile unit. -/
def TileModel.extend (m : TileModel) (t u c : Nat) : Int :=
  let kqNow : Int := (m.kq0 : Int) + sdiff t m.t0 * 2 ^ 48 / (2 ^ 48 + m.corr)
  let cnt : Int := kqNow * 65536 / (u : Int)
  c + 2 ^ 56 * ((2 * (cnt - c) + 2 ^ 56) / 2 ^ 57)

/-- More than AGE µs have passed since the last refresh point (R175). -/
def State.tileAged (s : State) (n : Nat) : Bool :=
  (s.tile n).refP.any fun r => decide ((s.tfld (oTile n 1) 0 24 : Int) * 4_000_000 < s.phys - r)

/-- Why a tile's model is stale, or 0 (R175, R188: a model that a Solstice discarded reads 5 until a new one forms). -/
def State.tileWhy (s : State) (n : Nat) : Nat :=
  let x := s.tile n
  let free := decide (s.tileMode n = 0) && (s.tileLink n).isNone
  if s.tileAbsent n then 4
  else if x.solGone then 5
  else if !s.haveModel n then 1
  else if x.resBad && !free then 3
  else if s.tileAged n && !free then 2
  else 0

/-- A distributed tile that no link names has the model T0 = OFS (R171). -/
def State.tileOfs (s : State) (n : Nat) : State :=
  if decide (s.tileMode n = 0) && (s.tileLink n).isNone then
    s.setModel n (unsign 64 (signed 32 (s.tabw (oTile n 3)).toNat)) 0 0
  else s

/-- The staleness of a tile judged again (R175, R177): FRESH, ABSENT, WHY, the REB bit maps and the STALE and FRESH
events; a model that becomes fresh ends the lost mark's reach (R186). -/
def State.tileJudged (s : State) (n : Nat) : State :=
  let s0 := s.tileOfs n
  let why := s0.tileWhy n
  let abs := s0.tileAbsent n
  let was := s0.tbit (oTile n 8) 0
  let fresh := decide (why = 0)
  let pg := sReb (tileDie n)
  let w := put why 3 3 ||| put (b2n (s0.haveModel n)) 2 1 ||| put (b2n abs) 1 1 ||| put (b2n fresh) 0 1
  let s1 := ((s0.setTabw (oTile n 8) w).setRfld pg 0x014 (n % 32) 1 (b2n fresh)).setRfld pg 0x018 (n % 32) 1 (b2n abs)
  let x := s1.tile n
  let s2 := if fresh && x.lostOpen then s1.setTile n { x with lostOpen := false, freshAt := some s1.phys } else s1
  if was && !fresh then s2.evt pg 0 else if !was && fresh then s2.evt pg 1 else s2

/-- The staleness judged again, with the event where the tile becomes absent (R177, R190). -/
def State.tileJudge (s : State) (n : Nat) : State :=
  let s1 := s.tileJudged n
  if s.tileAbsent n && !s.tbit (oTile n 8) 1 then s1.evt (sReb (tileDie n)) 2 else s1

/-- The least-squares CORR of t on kq over refresh points, relative to the newest; none where the fit has no slope
(R171). -/
def fitCorr (pts : List (Nat × Nat)) : Option Int :=
  match pts with
  | [] => none
  | (t0, k0) :: _ =>
    let xs := pts.map fun p => (sdiff p.2 k0, sdiff p.1 t0)
    let k : Int := xs.length
    let sx := (xs.map (·.1)).sum
    let sy := (xs.map (·.2)).sum
    let sxx := (xs.map fun p => p.1 * p.1).sum
    let sxy := (xs.map fun p => p.1 * p.2).sum
    let den := k * sxx - sx * sx
    let num := k * sxy - sx * sy
    if den ≤ 0 then none else some (rne ((num - den) * 2 ^ 48) den.toNat)

/-- A residual failure of a fitted model: the fit restarts from this point alone (R176). -/
def State.tileRefit (s : State) (n : Nat) (p : Nat × Nat) : State :=
  (s.setTile n { s.tile n with points := [p], resBad := true }).tbump64 (oTile n 28) 1

/-- A refresh point of a free-running or marker-only tile (R171, R176). Where the least-squares fit has no slope, CORR is
a free value. -/
def State.tileFitPoint (s : State) (n : Nat) (p : Nat × Nat) : State :=
  let x := s.tile n
  let tested := decide (2 ≤ x.points.length)
  let res := sdiff p.1 ((s.tileModel n).time p.2)
  let s1 := if tested then s.setTabN (oTile n 15) (unsign 32 (satSigned 32 res)) else s
  if tested && decide ((s.tfld (oTile n 2) 0 24 : Int) < res.natAbs) then s1.tileRefit n p
  else
    let pts := (p :: x.points).take (s.tileFit n)
    let s2 := s1.setTile n { x with points := pts }
    if pts.length < 2 then s2
    else
      let (corr, s3) := match fitCorr pts with
        | some c => (c, s2)
        | none => let (f, s3) := s2.fresh; (signed 40 f, s3)
      if corr < -(2 ^ 39) ∨ 2 ^ 39 < corr then s3.tileRefit n p
      else (s3.setModel n p.1 p.2 corr).setTile n { s3.tile n with resBad := false, solGone := false }

/-- A refresh point of a distributed tile with a link (R171, R176): T0 latched, or judged, or relatched. -/
def State.tileLatchPoint (s : State) (n : Nat) (p : Nat × Nat) : State :=
  let x := s.tile n
  let t0 := m64 ((p.1 : Int) - p.2)
  if !x.latched then (s.setModel n t0 0 0).setTile n { x with latched := true, resBad := false, solGone := false }
  else
    let res := sdiff p.1 ((s.tileModel n).time p.2)
    let s1 := s.setTabN (oTile n 15) (unsign 32 (satSigned 32 res))
    if (s.tfld (oTile n 2) 0 24 : Int) < res.natAbs then
      (((s1.setModel n t0 0 0).setTile n { x with resBad := true }).tbump64 (oTile n 28) 1).evt (sReb (tileDie n)) 6
    else s1.setTile n { x with resBad := false }

/-- The model kept as it stands before the first refresh point of an edge (R188). -/
def State.tileBefore (s : State) (n : Nat) : State :=
  let x := s.tile n
  if x.before.any fun b => decide (b.1 = s.now) then s
  else s.setTile n { x with before := some (s.now, s.tileT0 n, s.tileKq0 n, s.tileCorr n, s.haveModel n) }

/-- A refresh point (t_j, kq_j) of a tile (R170): taken while its lane is UP or MISMATCH, discarded otherwise (R188). -/
def State.tilePoint (s : State) (n : Nat) (p : Nat × Nat) : State :=
  if s.tileAbsent n then s
  else
    let s1 := ((s.tileBefore n).setTab64 (oTile n 16) p.1).tbump64 (oTile n 26) 1
    let s2 := s1.setTile n { s1.tile n with refP := some (s1.physOf p.1) }
    (if s.tileMode n = 0 then s2.tileLatchPoint n p else s2.tileFitPoint n p).tileJudge n

/-- The model discarded: by a Solstice (R68), or by a commit that changes the entry (R188). -/
def State.tileDiscard (s : State) (n : Nat) (bySol : Bool) : State :=
  let x := s.tile n
  ((s.setTile n { x with points := [], resBad := false, latched := false, refP := none, before := none,
                         solGone := bySol && (x.solGone || s.haveModel n) }).setTfld (oTile n 8) 2 1 0).tileJudge n

/-- A Solstice at a tile: free-running and marker-only models go, a distributed tile keeps T0 (R68, R171). -/
def State.tileSolstice (s : State) (n : Nat) : State := if s.tileMode n = 0 then s else s.tileDiscard n true

/-- The model ages out (R175): the staleness is judged again where it has changed. -/
def State.tileAge (s : State) (n : Nat) : State :=
  if s.tileWhy n = s.tfld (oTile n 8) 3 3 then s else s.tileJudge n

/-! ### A lost tile -/

/-- STATION_LOST set on a held stamp of a tile at or after LOST_FROM (R186). -/
def lostMark (n : Nat) (p : Int) (x : Stamp) : Stamp :=
  if x.src / 64 = n ∧ x.src < 4096 ∧ p ≤ x.phys then { x with flags := x.flags ||| fLOST } else x

/-- Every consumer is told of LOST_FROM: results it publishes later that hold a hit of the tile carry STATION_LOST. No
such hit has been published (R186). -/
def State.markLost (s : State) (n : Nat) (p : Int) : State := s.mapStamps (lostMark n p)

/-- A lane enters LOST: LOST_FROM, LOST_AT, ABSENT, the event, the lost mark (R185, R186). `from'` is the coarse edge of the last
matching ACK; where none has ever come, no hit of the tile can be held, and LOST_FROM stays as it is. DEDUCED (log entry 54). -/
def State.tileLost (s : State) (n : Nat) (from' : Option Nat) : State :=
  let s1 := s.setTab64 (oTile n 24) s.epoch
  let s2 := match from' with
    | some e => (s1.setTab64 (oTile n 22) (s.stampTime (2000 * (e : Int)))).markLost n (2000 * (e : Int))
    | none => s1
  ((s2.setTile n { s2.tile n with lostOpen := true, freshAt := none }).evt (sReb (tileDie n)) 2).tileJudged n

/-! ### Bin planes -/

/-- A plane's bin width in qps (R181). -/
def State.planeW (s : State) (p : Nat) : Nat := s.rfld (sBin p) 0x014 0 25 * 2000

/-- A hit enters a grid's bin: up to 15 hits (R184), and the tile's mark when it carries STATION_LOST (R186). -/
def Grid.add (g : Grid) (r b : Nat) (lost : Bool) : Grid × Bool :=
  let k := r + 4096 * b
  let n := Sparse.get 0 g.counts k
  ({ g with
     counts := Sparse.set 0 g.counts k (min 15 (n + 1))
     marks := if lost then Sparse.set 0 g.marks b (Sparse.get 0 g.marks b ||| 2 ^ (r / 64)) else g.marks },
   decide (15 ≤ n))

/-- A count saturates: the receiver's SAT, the die's sum and the event (R184). -/
def State.binSat (s : State) (r : Nat) : State :=
  ((s.tbump (oRx r 2) 1).bump64 (sReb (tileDie (r / 64))) 0x024 1).evt (sReb (tileDie (r / 64))) 4

/-- The last bin of a grid that a Solstice ended (R68). -/
def lastBin (o a w : Nat) : Nat := (2000 * (a - o) - 1) / w

/-- An old-epoch hit enters the first ended grid that holds its instant, no later than its last bin (R68). -/
def oldHit (w : Nat) (x : Stamp) (d : Nat) (lost : Bool) :
    List (Nat × Nat × Grid) → List (Nat × Nat × Grid) × Bool
  | [] => ([], false)
  | (o, a, g) :: r =>
    if x.phys < 2000 * (a : Int) then
      let b := ((x.phys + d - 2000 * (o : Int)) / w).toNat
      let (g', sat) := g.add x.src (min b (lastBin o a w)) lost
      ((o, a, g') :: r, sat)
    else
      let (r', sat) := oldHit w x d lost r
      ((o, a, g) :: r', sat)

/-- An admitted hit enters an active plane (R181): one stamped before A in the old grid, no later than its last bin
(R68). -/
def State.binHit (s : State) (p : Nat) (x : Stamp) : State :=
  let k := s.plane p
  let w := s.planeW p
  let d := Sparse.get 0 k.delays x.src
  let lost := decide (x.flags &&& fLOST ≠ 0)
  if x.phys < 2000 * (s.solEdge : Int) then
    let (l, sat) := oldHit w x d lost k.old
    let s1 := s.setPlane p { k with old := l }
    if sat then s1.binSat x.src else s1
  else
    let b := ((x.phys + d - 2000 * (s.solEdge : Int)) / w).toNat
    let (g', sat) := k.grid.add x.src b lost
    let s1 := s.setPlane p { k with grid := g' }
    if sat then s1.binSat x.src else s1

/-! ### Consumers of a hit -/

/-- The crossing queue of a die hands on at 4 G hits/s, two a coarse edge (R232). -/
def State.crossDrain (s : State) (die : Nat) : State :=
  let e := s.heng die
  let k := 2 * (s.now - e.crossAt)
  let s1 := s.setHeng die { e with crossing := e.crossing.drop k, crossAt := s.now }
  s1.each (e.crossing.take k) fun s x =>
    s.each ((s.defsOf x.src).filter fun d => decide (s.hHome d = die)) fun s d => s.histOffer d x

/-- Whether an instant lies at or after the next cut that waits (R236). -/
def HCtx.later (h : HCtx) (p : Int) : Bool :=
  match h.waiting with
  | w :: _ => decide (w.tP ≤ p)
  | [] => false

/-- A count of a definition advanced at an instant, by its place in the block's descriptor (R238): in the interval that holds the
instant, and, but for XDROP, in its status word (R241). -/
def State.histCount (s : State) (d k n : Nat) (p : Int) : State :=
  let h := s.hdef d
  let up (l : List Nat) := l.set k (satAdd 32 (l.getD k 0) n)
  let s1 := s.setHdef d (if (s.hctx (s.hOwner d)).later p then { h with postCnt := up h.postCnt } else { h with cnt := up h.cnt })
  if k < 7 then s1.tbump (oHdef d (9 + k)) n else s1

/-- A hit crosses to the other die's engine, or is dropped at a full queue (R232). -/
def State.crossHit (s : State) (die : Nat) (x : Stamp) : State :=
  let s0 := s.crossDrain die
  let e := s0.heng die
  let ds := (s0.defsOf x.src).filter fun d => decide (s0.hHome d = die)
  if ds.isEmpty then s0
  else if e.crossing.length ≥ 8192 then
    let s1 := ((s0.setHeng die { e with owed := oweDrop e.owed x }).bump64 (sHst die) 0x038 1).evt (sHst die) 3
    s1.each ds fun s d =>
      (s.histCount d 7 1 x.phys).report (s.hOwner d) 5 2 1
  else
    let (x', owed) := passOwed e.owed x
    s0.setHeng die { e with crossing := e.crossing ++ [x'], owed := owed }

/-- An admitted hit goes to every stamp consumer that a running context routes its receiver to (R174). -/
def State.hitConsumers (s : State) (x : Stamp) : State :=
  let slots := s.armedSlots.filter fun i => s.slotNames i x.src
  let die := tileDie (x.src / 64)
  let s1 := if slots.isEmpty then s else { s with laneIn := s.laneIn ++ [(die, x)] }
  let s2 := s1.each ((s1.defsOf x.src).filter fun d => decide (s1.hHome d = die)) fun s d => s.histOffer d x
  let s3 := s2.crossHit (1 - die) x
  s3.each (s3.capsOf x.src) fun s c => s.capOffer c x.item

/-! ### Rebasing -/

/-- The time of a hit (R172, R173): the count nearest to what the model gives now, through the model; or the arrival epoch
less MARK_LAT when no model exists. -/
def State.rebaseTime (s : State) (n tt : Nat) : Nat :=
  let m := s.hitModel n
  if m.have' then
    let u := (s.reg (ra (sLane n) 0x020)).toNat
    m.time (m64 ((m.extend s.epoch u tt * u + 0x8000) / 65536))
  else m64 ((s.epoch : Int) - (s.tabw (oTile n 4)).toNat)

/-- The instant of a hit's time: in the present epoch, or in the old one where only that lies before the Solstice and
within the horizon (R68). -/
def State.hitPhys (s : State) (t : Nat) : Int :=
  let new := s.physOf t
  let a : Int := 2000 * (s.solEdge : Int)
  let old := a - (s.reg64 sSol 0x028 : Int) + t
  if s.phys + 4_000_000 < new ∧ old < a ∧ s.phys - s.horizon ≤ old then old else new

/-- A hit of a receiver rebased, flagged and numbered (R172 to R174, R177). It carries STATION_LOST where the tile is stale, and
where it waited in the buffer when its lane was lost (R186). -/
def State.rebase (s : State) (n at' : Nat) (w : Word64) : Stamp × State :=
  let v := w.toNat
  let r := 64 * n + nfld v 56 6
  let t := s.rebaseTime n (nfld v 0 56)
  let p := s.hitPhys t
  let stale := decide (s.tileWhy n ≠ 0)
  let drained := decide (0 < (s.lane n).lostAt) && decide (at' ≤ (s.lane n).lostAt)
  let seen := Sparse.get (0, 0) s.rxSeen r
  let due := marksDue (s.originOf p) p seen
  let fl := s.flagsAt (p / 2000).toNat ||| flagIf (stale || drained || !(s.hitModel n).have') fLOST ||| due
  let x : Stamp := ⟨r, p, t, true, fl, (s.tabw (oRx r 0)).toNat⟩
  let s1 := { s.setTabN (oRx r 0) (x.seq + 1) with
    rxSeen := Sparse.set (0, 0) s.rxSeen r (seenAfter (s.originOf p) p seen) }
  (x, if stale then (s1.tbump64 (oTile n 18) 1).bump64 (sReb (tileDie n)) 0x02C 1 else s1)

/-- A hit dropped by the horizon filter: its marks are owed to the receiver's next (R409), and its users' reports count
it (R269). -/
def State.hitDropped (s : State) (x : Stamp) : State :=
  let s1 := { s with rxOwed := oweDrop s.rxOwed x }
  s1.each (s1.rxUsers x.src) fun s c => s.report c 3 2 1

/-- The horizon filter and what follows it (R179, R181, R174). -/
def State.horizonFilter (s : State) (x : Stamp) : State :=
  let n := x.src / 64
  let pg := sReb (tileDie n)
  if x.phys < s.phys - s.horizon then
    (((s.tbump (oRx x.src 1) 1).bump64 pg 0x01C 1).evt pg 3).hitDropped x
  else if s.phys + 4_000_000 < x.phys then ((s.tbump64 (oTile n 20) 1).evt pg 5).hitDropped x
  else
    let s1 := s.each (s.rxUsers x.src) fun s c =>
      let s1 := s.report c 3 0 1
      if x.flags &&& fLOST ≠ 0 then s1.report c 3 1 1 else s1
    let s2 := s1.each ((List.range 4).filter fun p => (s1.plane p).active) fun s p => s.binHit p x
    let (x', owed) := passOwed s2.rxOwed x
    { s2 with rxOwed := owed }.hitConsumers x'

/-- A PERIODIC MARK reaches the rebaser: a refresh point of a marker-only tile (R170), unless it was tagged before the
last Solstice (R68). The count is extended as a hit's is. -/
def State.rebaseMark (s : State) (n at' : Nat) (w : Word64) : State :=
  if s.tileMode n = 2 ∧ s.solEdge ≤ at' then
    let u := (s.reg (ra (sLane n) 0x020)).toNat
    let c := nfld w.toNat 0 56
    let tj := m64 (2000 * ((at' : Int) - s.solEdge) - (s.tabw (oTile n 4)).toNat)
    let k : Int := if s.haveModel n then (s.tileModel n).extend tj u c else c
    s.tilePoint n (tj, m64 ((k * u + 0x8000) / 65536))
  else s

end Sys2Proof.Machine
end

