-- ==== Sys2Proof/Machine/Lanes.lean ====
section
/-! DEFINITION. Event lanes (07_event_lanes.md): codewords and lock (R155), the words a tile sends (R156 to R158), the
credit ledger (R159 to R162), polls (R163), the lane's states and registration (R165 to R167). LANE_CODEWORD, HIT, MARK, HEALTH, POLL,
POLL_TX, CREDIT, and MODEL_AGE_EXPIRE of the rebaser that the ingress buffer feeds. What it reads by inference or chooses: log entries 35, 36. -/

namespace Sys2Proof.Machine

/-- Whether a lane decodes words: ALIGNED, REGISTERING, UP or MISMATCH (R167). -/
def laneOpen (st : LaneSt) : Bool :=
  match st with
  | .aligned | .registering | .up | .mismatch => true
  | .off | .training | .lost => false

/-- The signed difference of two 32-bit credit counts (R159). -/
def cdiff (a b : Nat) : Int := signed 32 (unsign 32 ((a : Int) - (b : Int)))

/-- L = R + F while the lane is UP; it does not fall (R159, R160, R166, R167). -/
def Lane.credit (x : Lane) : Lane :=
  if x.st = .up then
    let l := (x.r + (4096 - x.buf.length)) % 2 ^ 32
    if 0 ≤ cdiff l x.l then { x with l := l } else x
  else x

/-- A dropped word of a lane counts in the reports of the contexts that the lane feeds (R269). -/
def State.laneReport (s : State) (n col k : Nat) : State :=
  if k = 0 then s else s.each (s.tileUsers n) fun s c => s.report c 2 col k

/-! ### Losing and gaining the lane -/

/-- The lane becomes LOST with a LAST_FAIL code (R167, R185). -/
def State.laneLost (s : State) (n why : Nat) : State :=
  let x := s.lane n
  let x' := { x with
    st := .lost, cw := false, good := 0, bad := 0, lastFail := why, lostAt := s.now
    cdr := x.cdr && decide (why ≠ 3), polls := [] }
  ((((s.setLane n x').bump64 (sLane n) 0x080 1).evt (sLane n) 1).bbrFault (sLane n) n why).tileLost n x.lastAck

/-- The lane enters MISMATCH (R166). -/
def State.laneMismatch (s : State) (n : Nat) : State :=
  let x := s.lane n
  (((s.setLane n { x with st := .mismatch, lastFail := 5, nextId := false, nextUnit := false }).evt (sLane n) 2).bbrFault
    (sLane n) n 5).tileJudge n

/-- The lane enters UP: L rises to R + F (R159, R165). -/
def State.laneUp (s : State) (n : Nat) : State :=
  let x := s.lane n
  let x1 : Lane := { x with st := .up, creditL := x.l, creditAt := s.now }
  ((s.setLane n x1.credit).evt (sLane n) 0).tileJudge n

/-- IDENT_SEEN and UNIT_SEEN since ALIGNED (`LANE.TILE_INFO`). -/
def State.identSeen (s : State) (n : Nat) : Bool := s.rbit (sLane n) 0x038 24
def State.unitSeen (s : State) (n : Nat) : Bool := s.rbit (sLane n) 0x038 25

/-- The last IDENT, and the last UNIT, match the registration (R166). -/
def State.identMatch (s : State) (n : Nat) : Bool :=
  decide (s.rfld (sLane n) 0x038 0 6 = s.rfld (sLane n) 0x01C 0 6) &&
    decide (s.rfld (sLane n) 0x038 8 4 = s.rfld (sLane n) 0x01C 8 4)
def State.unitMatch (s : State) (n : Nat) : Bool :=
  decide (s.reg (ra (sLane n) 0x03C) = s.reg (ra (sLane n) 0x020))

/-- Registration judged in REGISTERING: UP when both words have arrived and match, MISMATCH when one does not match
(R165, R166, R168). -/
def State.laneRegister (s : State) (n : Nat) : State :=
  let i := s.identSeen n
  let u := s.unitSeen n
  if (i && !s.identMatch n) || (u && !s.unitMatch n) then s.laneMismatch n
  else if i && u then s.laneUp n
  else s

/-- An IDENT (`id`) or a UNIT has been received and stored: it is compared in REGISTERING and in any later state
(R165, R166). -/
def State.laneCompare (s : State) (n : Nat) (id : Bool) : State :=
  let x := s.lane n
  let ok := if id then s.identMatch n else s.unitMatch n
  match x.st with
  | .registering => s.laneRegister n
  | .up => if ok then s else s.laneMismatch n
  | .mismatch =>
    let x1 := { x with nextId := if id then ok else x.nextId, nextUnit := if id then x.nextUnit else ok }
    if x1.nextId && x1.nextUnit then (s.setLane n x1).laneUp n else s.setLane n x1
  | .off | .training | .aligned | .lost => s

/-- The registration compared again with the last words received, at an application edge (R168). In MISMATCH a word received since
counts as matching only if it matches the new registration (R165). -/
def State.laneRecompare (s : State) (n : Nat) : State :=
  let ok := s.identMatch n && s.unitMatch n
  match (s.lane n).st with
  | .registering => s.laneRegister n
  | .up => if ok then s else s.laneMismatch n
  | .mismatch =>
    let x := s.lane n
    if ok then s.laneUp n
    else s.setLane n { x with nextId := x.nextId && s.identMatch n, nextUnit := x.nextUnit && s.unitMatch n }
  | .off | .training | .aligned | .lost => s

/-- The lane returns to TRAINING, from OFF, LOST or a retrain (R165, R168). -/
def State.laneTrain (s : State) (n : Nat) : State :=
  (s.setLane n { s.lane n with st := .training, cw := false, good := 0, bad := 0, polls := [] }).tileJudge n

/-- The lane goes OFF at once; buffered words stay to be delivered (R165, R168). -/
def State.laneOff (s : State) (n : Nat) : State :=
  (s.setLane n { s.lane n with st := .off, cw := false, cdr := false, good := 0, bad := 0, polls := [] }).tileJudge n

/-! ### Codewords -/

/-- An RS codeword comes to the deframer (R154, R155): a run of decoding or failing codewords, and, with lock, the drops it
causes. -/
def State.laneCodeword (s : State) (n : Nat) (r : CodewordResult) : State :=
  let x := s.lane n
  if laneOpen x.st || decide (x.st = .training) then
    match r with
    | .decoded c f =>
      let s1 := s.setLane n { x with cdr := true, good := x.good + 1, bad := 0 }
      if x.cw then
        let s2 := s1.bump64 (sLane n) 0x070 c
        if f = 0 then s2 else ((s2.bump64 (sLane n) 0x050 f).evt (sLane n) 3).laneReport n 2 f
      else s1
    | .failed k =>
      let s1 := s.setLane n { x with cdr := true, good := 0, bad := x.bad + 1 }
      if x.cw then
        (((s1.bump64 (sLane n) 0x068 1).bump64 (sLane n) 0x050 k).evt (sLane n) 3).laneReport n 2 k
      else s1
  else s

/-- Eight decoding codewords in succession give lock: ALIGNED, and the ledger starts afresh (R155, R162, R165). -/
def State.laneCwLock (s : State) (n : Nat) : State :=
  let x := s.lane n
  if x.st = .training ∧ 8 ≤ x.good then
    (s.setLane n { x with st := .aligned, cw := true, r := 0, l := 0, creditL := 0, alignedAt := s.now, ackAt := s.now,
                          polls := [] }).setRfld (sLane n) 0x038 24 2 0
  else s

/-- Eight failing codewords in succession lose alignment (R155, R167). -/
def State.laneAlignLoss (s : State) (n : Nat) : State :=
  let x := s.lane n
  if laneOpen x.st && decide (8 ≤ x.bad) then s.laneLost n 2 else s

/-- The received signal or clock recovery is lost (R167). -/
def State.laneSignalLoss (s : State) (n : Nat) : State :=
  let x := s.lane n
  if laneOpen x.st then s.laneLost n 3
  else if x.st = .training then s.setLane n { x with cdr := false, good := 0, bad := 0 }
  else s

/-! ### Words -/

/-- L recomputed after R or F has changed (R159). -/
def State.laneCredited (s : State) (n : Nat) : State := s.setLane n (s.lane n).credit

/-- A credit-consuming word: R advances; the word is refused where R + 1 > L, and otherwise L is recomputed once it is known
whether the word takes buffer space (R159). -/
def State.laneConsume (s : State) (n : Nat) : Bool × State :=
  let x := s.lane n
  let ok := decide (0 ≤ cdiff x.l (x.r + 1))
  let s1 := s.setLane n { x with r := (x.r + 1) % 2 ^ 32 }
  if ok then (true, s1)
  else (false, (((s1.laneCredited n).bump64 (sLane n) 0x058 1).evt (sLane n) 4).laneReport n 2 1)

/-- A word dropped under R158. -/
def State.laneProto (s : State) (n : Nat) : State :=
  ((s.bump64 (sLane n) 0x060 1).evt (sLane n) 5).laneReport n 2 1

/-- A word enters the ingress buffer. -/
def State.laneBuffer (s : State) (n : Nat) (w : Word64) : State :=
  let x := s.lane n
  s.setLane n ({ x with buf := x.buf ++ [({ w := w, at' := s.now } : LaneWord)] }).credit

/-- A HIT word (R157 to R159). -/
def State.laneHit (s : State) (n : Nat) (w : Word64) : State :=
  let (ok, s1) := s.laneConsume n
  if !ok then s1
  else if s1.rfld (sLane n) 0x01C 0 6 < nfld w.toNat 56 6 then (s1.laneCredited n).laneProto n
  else ((s1.laneBuffer n w).bump64 (sLane n) 0x040 1).laneReport n 0 1

/-- A far report from IEL MARK words (R70): t_B,rx or t_B,tx in tile units, for the link that names the tile. -/
def State.ttlMark (s : State) (n : Nat) (tx : Bool) (c : Nat) : State :=
  match s.tileLink n with
  | some k =>
    let x := s.ttl k
    s.setTtl k (if tx then { x with repTx := some c } else { x with repRx := some c })
  | none => s

/-- A MARK word (R157): PERIODIC goes to the rebaser with its tag, TTL_RX and TTL_TX to the tile's link; a reserved KIND is
dropped (R158). -/
def State.laneMark (s : State) (n : Nat) (w : Word64) : State :=
  let (ok, s1) := s.laneConsume n
  let kind := nfld w.toNat 58 4
  if !ok then s1
  else if 3 ≤ kind then (s1.laneCredited n).laneProto n
  else
    let s2 := s1.bump64 (sLane n) 0x048 1
    if kind = 0 then (s2.laneBuffer n w).laneReport n 0 1
    else if (s2.tileLink n).isSome then ((s2.laneCredited n).ttlMark n (decide (kind = 2)) (nfld w.toNat 0 56)).laneReport n 0 1
    else s2.laneCredited n

/-- A STATUS HEALTH word (R161). -/
def State.laneHealth (s : State) (n : Nat) (w : Word64) : State :=
  let (ok, s1) := s.laneConsume n
  if !ok then s1
  else
    let v := w.toNat
    let x := s1.lane n
    let sent := nfld v 0 32
    let drop := nfld v 32 16
    let s2 := if 0 ≤ cdiff sent x.r then s1.setLane n ({ x with r := sent }).credit else (s1.laneCredited n).evt (sLane n) 6
    let s3 := (s2.setRfld (sLane n) 0x038 16 8 (nfld v 48 8)).bump64 (sLane n) 0x078 drop
    (if drop = 0 then s3 else s3.evt (sLane n) 7).laneReport n 0 1

/-- A STATUS IDENT word (R166). -/
def State.laneIdent (s : State) (n : Nat) (w : Word64) : State :=
  let v := w.toNat
  let info := (s.setRfld (sLane n) 0x038 0 6 (nfld v 52 6)).setRfld (sLane n) 0x038 8 4 (nfld v 48 4)
  ((info.setRfld (sLane n) 0x038 24 1 1).setReg64 (sLane n) 0x030 (nfld v 0 48)).laneCompare n true

/-- A STATUS UNIT word (R166). -/
def State.laneUnit (s : State) (n : Nat) (w : Word64) : State :=
  ((s.setRfld (sLane n) 0x038 25 1 1).setRegN (sLane n) 0x03C (nfld w.toNat 0 32)).laneCompare n false

/-- A CTL word of a type and tag as the device sends it (R156). -/
def ctlWord (ctype v : Nat) : Word64 := BitVec.ofNat 64 (ctype * 2 ^ 56 + v)

/-- A POLL from the tile is answered with an ACK (R163). -/
def State.lanePoll (s : State) (n : Nat) (w : Word64) : State := s.emit (.laneWord n (ctlWord 2 (nfld w.toNat 0 16)))

/-- An ACK from the tile (R163, R167): one whose TAG matches a POLL of the last 2 µs restarts the timer, and the first
takes the lane to REGISTERING. -/
def State.laneAck (s : State) (n : Nat) (w : Word64) : State :=
  let x := s.lane n
  let tag := nfld w.toNat 0 16
  if x.polls.any fun p => decide (p.1 = tag) && decide (s.now ≤ p.2 + 2 * usEdges) then
    let x1 := { x with ackAt := s.now, lastAck := some s.now }
    if x.st = .aligned then (s.setLane n { x1 with st := .registering }).laneRegister n else s.setLane n x1
  else s

/-- A word that the deframer has decoded, told by its type and kind (R156, R158). While the device is BOOTING a lane is OFF
(R165). -/
def State.laneRx (s : State) (n : Nat) (w : Word64) : State :=
  let v := w.toNat
  if laneOpen (s.lane n).st then
    match nfld v 62 2 with
    | 1 => s.laneHit n w
    | 2 => s.laneMark n w
    | 3 =>
      match nfld v 58 4 with
      | 0 => s.laneHealth n w
      | 1 => s.laneIdent n w
      | 2 => s.laneUnit n w
      | _ => s.laneProto n
    | _ =>
      match nfld v 56 6 with
      | 0 => s
      | 1 => s.lanePoll n w
      | 2 => s.laneAck n w
      | _ => s.laneProto n
  else s

/-! ### What the device sends -/

/-- A POLL every 500 ns with the next TAG (R163). -/
def State.lanePollTx (s : State) (n : Nat) : State :=
  let x := s.lane n
  let last := match x.polls with
    | p :: _ => p.2
    | [] => x.alignedAt
  if laneOpen x.st && decide (last + usEdges / 2 ≤ s.now) then
    let keep := x.polls.filter fun p => decide (s.now ≤ p.2 + 2 * usEdges)
    (s.setLane n { x with tag := (x.tag + 1) % 2 ^ 16, polls := (x.tag, s.now) :: keep }).emit
      (.laneWord n (ctlWord 1 x.tag))
  else s

/-- A CREDIT word when L has risen by 64 or 1 µs has passed, while UP (R160). -/
def State.laneCredit (s : State) (n : Nat) : State :=
  let x := s.lane n
  if x.st = .up ∧ (64 ≤ cdiff x.l x.creditL ∨ x.creditAt + usEdges ≤ s.now) then
    (s.setLane n { x with creditL := x.l, creditAt := s.now }).emit (.laneWord n (ctlWord 3 x.l))
  else s

/-- 2 µs without a matching ACK (R167). -/
def State.laneAckTimeout (s : State) (n : Nat) : State :=
  let x := s.lane n
  if laneOpen x.st && decide (x.ackAt + 2 * usEdges ≤ s.now) then s.laneLost n 1 else s

/-- IDENT or UNIT is missing 10 ms after ALIGNED (R165). -/
def State.laneRegTimeout (s : State) (n : Nat) : State :=
  let x := s.lane n
  if x.st = .registering ∧ x.alignedAt + 10_000 * usEdges ≤ s.now then s.laneLost n 4 else s

/-- RETRY ms after LOST the lane retrains (R165). -/
def State.laneRetry (s : State) (n : Nat) : State :=
  let x := s.lane n
  let r := s.rfld (sLane n) 0x014 8 8
  if x.st = .lost ∧ r ≠ 0 ∧ x.lostAt + r * 1000 * usEdges ≤ s.now then s.laneTrain n else s

/-! ### The rebaser's end of the buffer -/

/-- The rebaser takes the oldest word of a lane's buffer: a hit is rebased, filtered and binned, with its condition offered
ahead of the horizon (R172, R179, R187); a PERIODIC MARK is a refresh point (R170). -/
def State.rebaseHit (s : State) (n : Nat) : State :=
  let x := s.lane n
  match x.buf with
  | w :: r =>
    let s1 := (s.setLane n ({ x with buf := r }).credit).tileAge n
    if nfld w.w.toNat 62 2 = 1 then
      let (h, s2) := s1.rebase n w.at' w.w
      let s3 := if s2.condUses h.src then { s2 with condIn := s2.condIn ++ [.edge h] } else s2
      s3.horizonFilter h
    else s1.rebaseMark n w.at' w.w
  | [] => s

/-! ### Commands -/

/-- LANE_CODEWORD (R155). -/
def execLaneCodeword (t : Nat) (n : Fin 64) (r : CodewordResult) : State → Host.Outcome State Fault Refusal :=
  command t fun s => s.laneCodeword n r

/-- HIT (R157). -/
def execHit (t : Nat) (n : Fin 64) (w : Word64) : State → Host.Outcome State Fault Refusal :=
  command t fun s => s.laneRx n w

/-- MARK (R157). -/
def execMark (t : Nat) (n : Fin 64) (w : Word64) : State → Host.Outcome State Fault Refusal :=
  command t fun s => s.laneRx n w

/-- HEALTH (R161). -/
def execHealth (t : Nat) (n : Fin 64) (w : Word64) : State → Host.Outcome State Fault Refusal :=
  command t fun s => s.laneRx n w

/-- POLL (R163). -/
def execPoll (t : Nat) (n : Fin 64) (w : Word64) : State → Host.Outcome State Fault Refusal :=
  command t fun s => s.laneRx n w

/-- POLL_TX (R163). -/
def execPollTx (t : Nat) (n : Fin 64) : State → Host.Outcome State Fault Refusal := command t fun s => s.lanePollTx n

/-- CREDIT (R160). -/
def execCredit (t : Nat) (n : Fin 64) : State → Host.Outcome State Fault Refusal := command t fun s => s.laneCredit n

/-- MODEL_AGE_EXPIRE (R175). -/
def execModelAgeExpire (t : Nat) (n : Fin 64) : State → Host.Outcome State Fault Refusal :=
  command t fun s => s.tileAge n

end Sys2Proof.Machine
end

