-- ==== Sys2Proof/Machine/Correlator.lean ====
section
/-! DEFINITION. The resident correlator and the ladder (10_resident_correlator.md): products into accumulators, the flip
at a Harvest boundary, the sweep, and the blocks they come to; tile faults (R16, R17). SPARE_TEST_FAIL. What it reads by inference or chooses: log entry 40. -/

namespace Sys2Proof.Machine

/-- The context's plane (R258). -/
def State.ctxPlane (s : State) (c : Nat) : Nat := s.tfld (oCtx c 0) 25 2

/-- `HV_BINS`, `NBUF`, `LAD_LH`, `ALIGN` and `DMA_CH` of a correlator entry (R223). -/
def State.hvBins (s : State) (c : Nat) : Nat := (s.tabw (oCor c 1)).toNat
def State.corNbuf (s : State) (c : Nat) : Nat := s.tfld (oCor c 2) 16 4
def State.ladLh (s : State) (c : Nat) : Nat := s.tfld (oCor c 2) 0 16
def State.corAlign (s : State) (c : Nat) : Bool := s.tbit (oCor c 0) 29
def State.corDma (s : State) (c : Nat) : Nat := s.tfld (oCor c 0) 23 6

/-- The local pair index p(i, j) (R205). -/
def pairIdx (i j : Nat) : Nat := j * (j + 1) / 2 + i

/-- An accumulator after a product, and whether it is at a limit: 32 or 64 bits, unsigned for two receivers, signed with a
beam (R206, R219). -/
def accAdd (w : Nat) (beam : Bool) (v : Int) : Int × Bool :=
  if beam then
    if 2 ^ (w - 1) - 1 ≤ v then (2 ^ (w - 1) - 1, true)
    else if v ≤ -(2 ^ (w - 1)) then (-(2 ^ (w - 1)), true)
    else (v, false)
  else if 2 ^ w - 1 ≤ v then (2 ^ w - 1, true) else (v, false)

/-- Values of a list that are not 0, with their index. -/
def nonzero (l : List Int) : List (Nat × Int) := (l.zipIdx.filter fun e => decide (e.1 ≠ 0)).map fun e => (e.2, e.1)

/-- The products of a bin with itself and with the last 15 (R205): accumulator key, whether a beam takes part, product. -/
def binProducts (beams : List Bool) (now : List Int) (past : List (List Int)) : List (Nat × Bool × Int) :=
  ((now :: past).take 16).zipIdx.flatMap fun e =>
    (nonzero now).flatMap fun y =>
      ((nonzero e.1).filter fun x => decide (x.1 ≤ y.1)).map fun x =>
        (16 * pairIdx x.1 y.1 + e.2, beams.getD x.1 false || beams.getD y.1 false, x.2 * y.2)

/-- The die that holds a context's pair: its pairs fill the slices of die A first. DEDUCED (log entry 40). -/
def State.pairDie (s : State) (c p : Nat) : Nat :=
  let x := s.cor c
  let n := s.slotCnt c
  if p * (x.slicesA + x.slicesB) < n * (n + 1) / 2 * x.slicesA then 0 else 1

/-- A product added to a Harvest's accumulator; a pinned accumulator stays (R206). -/
def Harv.add (h : Harv) (w : Nat) (e : Nat × Bool × Int) : Harv × Bool :=
  if h.pins.contains e.1 then (h, false)
  else
    let (v, pin) := accAdd w e.2.1 (Sparse.get 0 h.acc e.1 + e.2.2)
    ({ h with acc := Sparse.set 0 h.acc e.1 v, pins := if pin then e.1 :: h.pins else h.pins }, pin)

/-- An accumulator of a die pins: `COR.SAT` and its event (R206). -/
def State.corPinned (s : State) (die : Nat) : State := (s.bump64 (sCor die) 0x040 1).evt (sCor die) 2

/-! ### Ladder -/

/-- The ladder entries of a context, ascending: entry, local slots i and j, LMAX (R225). A run keeps those of its start
(R23). -/
def State.ladEntries (s : State) (c : Nat) : List (Nat × Nat × Nat × Nat) :=
  if (s.cor c).run ≠ 0 then (s.cor c).lad
  else ((s.entries (oLad 0 0) 0x10_0000 16).filter fun e => bit e.2 31 && decide (fld e.2 20 9 = c)).map fun e =>
    (e.1, fld e.2 0 11 - s.slotBase c, s.tfld (oLad e.1 1) 0 11 - s.slotBase c, fld e.2 15 5)

/-- A value of a slot completes at a level (R217, R218): it joins the first half that waits, and the sum completes at the
next level. Completed values and the levels are carried along. -/
def ladPush : Nat → Nat → Nat → Nat → Int → Ladder → Ladder
  | 0, _, _, _, _, l => l
  | fuel + 1, k, m, slot, v, l =>
    let key := 2048 * (k + 1) + slot
    let l1 : Ladder := if k = 0 then l
      else { l with hist := Sparse.put l.hist (2048 * k + slot) ((v :: (Sparse.get [] l.hist (2048 * k + slot))).take 16) }
    if m % 2 = 0 then { l1 with part := Sparse.put l1.part key v }
    else
      match Sparse.find l1.part key with
      | some h => ladPush fuel (k + 1) (m / 2) slot (h + v) { l1 with part := Sparse.del key l1.part }
      | none => l1

/-- Whether level `k` completes a decimated bin with base bin `b` (R217). -/
def ladEnds (b k : Nat) : Bool := decide ((b + 1) % 2 ^ k = 0)

/-- The level-k products of an entry at base bin `b` (R217, R218): lags 8 to 15. -/
def ladProducts (l : Ladder) (b : Nat) (beam : Bool) (e : Nat × Nat × Nat × Nat) : List (Nat × Bool × Int) :=
  (List.range' 1 e.2.2.2).flatMap fun k =>
    if ladEnds b k then
      let hi := Sparse.get [] l.hist (2048 * k + e.2.1)
      let hj := Sparse.get [] l.hist (2048 * k + e.2.2.1)
      match hj with
      | vj :: _ => (List.range' 8 8).filterMap fun lag => (hi[lag]?).map fun vi => (512 * e.1 + 16 * k + lag, beam, vi * vj)
      | [] => []
    else []

/-- A ladder product added: 32 bits up to level 10, 64 bits above; a pin counts in the entry's SAT (R219). -/
def State.ladAdd (s : State) (c : Nat) (e : Nat × Bool × Int) : State :=
  match (s.cor c).ladder with
  | some l =>
    let ent := e.1 / 512
    let k := e.1 / 16 % 32
    let l1 := { l with valid := Sparse.put l.valid ent (Sparse.get 0 l.valid ent ||| 2 ^ (k - 1)) }
    if l.pins.contains e.1 || decide (e.2.2 = 0) then s.setCor c { s.cor c with ladder := some l1 }
    else
      let (v, pin) := accAdd (if k ≤ 10 then 32 else 64) e.2.1 (Sparse.get 0 l.acc e.1 + e.2.2)
      let l2 := { l1 with acc := Sparse.set 0 l1.acc e.1 v, pins := if pin then e.1 :: l1.pins else l1.pins }
      let s1 := s.setCor c { s.cor c with ladder := some l2 }
      if pin then
        let w := s.tfld (oLad ent 0) 0 11 - s.slotBase c
        let w2 := s.tfld (oLad ent 1) 0 11 - s.slotBase c
        (s1.tbump (oLad ent 2) 1).corPinned (s.pairDie c (pairIdx w w2))
      else s1
  | none => s

/-- A released bin enters a context's ladder (R217). -/
def State.ladBin (s : State) (c b orig : Nat) (sig : List Int) (beams : List Bool) (lost : Nat) : State :=
  let ents := s.ladEntries c
  if s.ladLh c = 0 ∨ ents.isEmpty then s
  else
    let x := s.cor c
    let l0 : Ladder := x.ladder.getD {}
    let (st, sh) := match x.cur with
      | some h => (h.start, h.short)
      | none => (false, false)
    let l := if l0.bins = 0 then { l0 with first := b, orig := orig, start := st, short := sh } else l0
    let slots := (ents.flatMap fun e => [e.2.1, e.2.2.1]).dedup
    let l1 := slots.foldl (fun l k => ladPush 25 0 b k (sig.getD k 0) l) { l with bins := l.bins + 1, lost := l.lost ||| lost }
    let s1 := s.setCor c { x with ladder := some l1 }
    let ps := ents.flatMap fun e => ladProducts l1 b (beams.getD e.2.1 false || beams.getD e.2.2.1 false) e
    s1.each ps fun s e => s.ladAdd c e

/-! ### Harvests -/

/-- A block lost for want of a buffer (R213). -/
def State.hvLost (s : State) (c : Nat) : State :=
  (((s.tbump (oCor c 6) 1).bump64 (sCor 0) 0x038 1).evt (sCor 0) 1).report c 6 2 1

/-- The instant in qps, from its grid's origin, at which a span of bins crosses an epoch wrap (R216). -/
def spanWraps (first bins w : Nat) : Bool := decide (first * w / 2 ^ 64 ≠ ((first + bins) * w - 1) / 2 ^ 64)

/-- SOLS and WRAP of a block (R216): SOLS on the context's first block of an epoch, WRAP where its span crosses a wrap, and what a
discarded block owes it (R409). -/
def blockMarks (seen owed orig first bins w : Nat) : Nat :=
  joinMarks owed (flagIf (decide (seen < orig)) fSOLS ||| flagIf (spanWraps first bins w) fWRAP)

/-- The ladder Harvest closes and is swept, or is discarded for want of a ladder buffer (R221, R213). -/
def State.ladClose (s : State) (c : Nat) (stopped trunc : Bool) : State :=
  let x := s.cor c
  match x.ladder with
  | some l =>
    let m := blockMarks x.ladSeen x.ladOwed l.orig l.first l.bins x.w
    let l1 := { l with seq := (s.tabw (oCor c 7)).toNat, stopped := stopped, trunc := trunc, flags := m }
    let next : Ladder := { part := l.part, hist := l.hist }
    let s1 := s.setTabN (oCor c 7) (l1.seq + 1)
    if x.ladBufs < s.corNbuf c then
      s1.setCor c { x with
        ladder := some next, ladBufs := x.ladBufs + 1, ladSweep := x.ladSweep ++ [l1], ladSeen := max x.ladSeen l.orig
        ladOwed := 0 }
    else (s1.setCor c { x with ladder := some next, ladOwed := m }).hvLost c
  | none => s

/-- The 8-bin group in progress is written: one SRAM write for each accumulator it touched (R206), whose bit e is then E (R212). -/
def State.corGroup (s : State) (c : Nat) : State :=
  let x := s.cor c
  let keys := x.touched.map (·.1)
  let s1 := s.setCor c { x with
    touched := []
    cur := x.cur.map fun h => { h with written := h.written ++ keys.filter fun k => !h.written.contains k } }
  s1.each x.touched fun s e => s.bump64 (sCor (s.pairDie c (e.1 / 16))) 0x048 1

/-- The Harvest in progress closes (R210, R212, R213): it takes a free buffer and is swept, or is discarded. Every
`LAD_LH`-th closes the ladder Harvest, and so does a close before its boundary. -/
def State.corClose (s : State) (c : Nat) (stopped grid : Bool) : State :=
  let s := s.corGroup c
  let x := s.cor c
  match x.cur with
  | some h =>
    let m := blockMarks x.seen x.owed h.orig h.first h.bins x.w
    let h1 := { h with seq := (s.tabw (oCor c 5)).toNat, stopped := stopped, trunc := decide (h.bins < h.want), flags := m }
    let s1 := s.setTabN (oCor c 5) (h1.seq + 1)
    let y := { x with cur := none, epochBit := !x.epochBit }
    let s2 := if x.bufs < s.corNbuf c then
        s1.setCor c { y with bufs := x.bufs + 1, sweep := x.sweep ++ [h1], seen := max x.seen h.orig, owed := 0 }
      else (s1.setCor c { y with owed := m }).hvLost c
    match (s2.cor c).ladder with
    | some l =>
      let l1 := { l with count := l.count + 1 }
      let s3 := s2.setCor c { s2.cor c with ladder := some l1 }
      if l1.bins = 0 then s3
      else if stopped || grid then s3.ladClose c stopped (h1.trunc || decide (l1.count < s3.ladLh c))
      else if l1.count = s3.ladLh c then s3.ladClose c false h1.trunc
      else s3
    | none => s2
  | none => s

/-- The first bin of a Harvest opens it (R210, R211). -/
def State.corOpen (s : State) (c b orig : Nat) : State :=
  let x := s.cor c
  let hv := s.hvBins c
  let want := hv - (b + hv - x.nRef % hv) % hv
  let start := decide (x.grid ≠ some orig)
  s.setCor c { x with
    cur := some { first := b, orig := orig, want := want, start := start
                  short := start && s.corAlign c && decide (want < hv) }
    grid := some orig }

/-- The first bin of the grid after a Solstice (R68, R222): the Harvest in progress and the ladder's close, and partial decimated bins
and histories go. -/
def State.corNewGrid (s : State) (c : Nat) : State :=
  let s1 := s.corClose c false true
  let x := s1.cor c
  s1.setCor c { x with n0 := some 0, nRef := 0, past := [], ladder := x.ladder.map fun _ => ({} : Ladder) }

/-- A bin that a resident context takes (R205, R210 to R212). Tiles that failed move at the 8-bin boundary (R17); what
that comes to is told by the caller. -/
def State.residentBin (s : State) (c b orig : Nat) (sig : List Int) (lost : Nat) : State :=
  let s := match (s.cor c).grid with
    | some g => if g = orig then s else s.corNewGrid c
    | none => s
  let x := s.cor c
  let align := s.corAlign c
  let s0 := match x.n0 with
    | some _ => s
    | none =>
      if align && decide (b % 8 ≠ 0) then s
      else s.setCor c { x with n0 := some b, nRef := if align then 0 else b, past := [] }
  if (s0.cor c).n0.isNone then s0
  else
    let s1 := match (s0.cor c).cur with
      | some h => if h.want ≤ h.bins then (s0.corClose c false false).corOpen c b orig else s0
      | none => s0.corOpen c b orig
    let x1 := s1.cor c
    match x1.cur with
    | some h =>
      let beams := (s1.ctxSlots c).map (·.1)
      let ps := binProducts beams sig x1.past
      let (h1, pinned) := ps.foldl (fun (a : Harv × List Nat) e =>
        let (g, p) := a.1.add 32 e
        (g, if p then e.1 :: a.2 else a.2)) (h, [])
      let h2 := { h1 with
        bins := h.bins + 1, lost := h.lost ||| lost
        sums := (nonzero sig).foldl (fun m e => Sparse.set 0 m e.1 (Sparse.get 0 m e.1 + e.2)) h1.sums }
      let s2 := s1.setCor c { x1 with
        cur := some h2, past := (sig :: x1.past).take 15
        touched := ps.foldl (fun m e => if h.pins.contains e.1 then m else Sparse.put m e.1 1) x1.touched }
      let s3 := s2.each pinned fun s k => s.corPinned (s.pairDie c (k / 16))
      let s4 := s3.ladBin c b orig sig beams lost
      if h2.bins % 8 = 0 then s4.corGroup c else s4
    | none => s1

/-! ### Blocks -/

/-- The header of a correlator block (R215), with words 8 and 9 for a blocked one (R253). -/
def State.corHeader (s : State) (c kind flags status seq first w bins npairs sat bytes lost hv w8 w9 : Nat) : List Byte :=
  let p := s.ctxPlane c
  let words : List Nat :=
    [c * 2 ^ 55 + kind * 2 ^ 51 + flags * 2 ^ 42 + status * 2 ^ 32 + seq % 2 ^ 32, first, first * w,
     bins % 2 ^ 32 + w / 2000 * 2 ^ 32 + p * 2 ^ 57,
     s.slotCnt c + s.slotBase c * 2 ^ 16 + npairs * 2 ^ 32, sat % 2 ^ 32 + bytes * 2 ^ 32, lost, hv % 2 ^ 32, w8, w9,
     0, 0, 0, 0, 0, 0]
  (words.map w64).flatten

/-- The trailer of a block (R214). -/
def corTrailer (magic seq bytes : Nat) : List Byte :=
  ([seq % 2 ^ 32 + magic * 2 ^ 32, bytes % 2 ^ 32, 0, 0, 0, 0, 0, 0].map w64).flatten

/-- Signal sums, zero-padded to whole 64-byte lines (R214). -/
def sumBytes (n : Nat) (sums : List (Nat × Int)) : List Byte :=
  ((List.range (8 * cdiv n 8)).map fun k => w64 (unsign 64 (if k < n then Sparse.get 0 sums k else 0))).flatten

/-- The flags of a block over its span (R216): the time base's, its own marks, STATION_LOST and TRUNC. -/
def State.blockFlags (s : State) (orig first w bins lost marks : Nat) (trunc : Bool) : Nat :=
  let a := orig + first * w / 2000
  let b := orig + (first + bins) * w / 2000 - 1
  (s.flagsOver a b &&& (fUNLOCKED ||| fWINTER ||| fUNALIGNED)) ||| marks ||| flagIf (decide (lost ≠ 0)) fLOST |||
    flagIf trunc fTRUNC

/-- The bytes of a resident Harvest block (R214, R215). -/
def State.residentBlock (s : State) (c : Nat) (h : Harv) : List Byte :=
  let n := s.slotCnt c
  let pairs := n * (n + 1) / 2
  let w := (s.cor c).w
  let bytes := 128 + 64 * cdiv n 8 + 64 * pairs + 64
  let fl := s.blockFlags h.orig h.first w h.bins h.lost h.flags h.trunc
  let st := b2n h.start + 2 * b2n h.short + 4 * b2n h.stopped + 8 * b2n (!h.pins.isEmpty) + 32 * b2n h.fault
  s.corHeader c 0 fl st h.seq h.first w h.bins pairs h.pins.length bytes h.lost (s.hvBins c) 0 0 ++
    sumBytes n h.sums ++
    ((List.range (16 * pairs)).map fun k => w32 (unsign 32 (Sparse.get 0 h.acc k))).flatten ++
    corTrailer 0x4856_5354 h.seq bytes

/-- The bytes of a ladder block (R221). -/
def State.ladderBlock (s : State) (c : Nat) (l : Ladder) : List Byte :=
  let ents := s.ladEntries c
  let w := (s.cor c).w
  let bytes := 192 + 1280 * ents.length
  let fl := s.blockFlags l.orig l.first w l.bins l.lost l.flags l.trunc
  let st := b2n l.start + 2 * b2n l.short + 4 * b2n l.stopped + 8 * b2n (!l.pins.isEmpty)
  let ent (e : Nat × Nat × Nat × Nat) : List Byte :=
    let base := s.slotBase c
    let sat := (l.pins.filter fun k => decide (k / 512 = e.1)).length
    ([e.1 + (e.2.1 + base) * 2 ^ 16 + (e.2.2.1 + base) * 2 ^ 32 + e.2.2.2 * 2 ^ 48, sat, Sparse.get 0 l.valid e.1, 0, 0, 0, 0,
      0].map w64).flatten ++
    ((List.range' 1 10).flatMap fun k => (List.range' 8 8).flatMap fun g =>
      w32 (unsign 32 (Sparse.get 0 l.acc (512 * e.1 + 16 * k + g)))) ++
    ((List.range' 11 14).flatMap fun k => (List.range' 8 8).flatMap fun g =>
      w64 (unsign 64 (Sparse.get 0 l.acc (512 * e.1 + 16 * k + g))))
  s.corHeader c 1 fl st l.seq l.first w l.bins ents.length l.pins.length bytes l.lost (s.hvBins c * s.ladLh c) 0 0 ++
    (ents.map ent).flatten ++ corTrailer 0x4856_5354 l.seq bytes

/-- A completed block: `COR.HARVESTS`, HARVEST and TRUNC (R212, R222). -/
def State.corDone (s : State) (trunc : Bool) : State :=
  let s1 := (s.bump64 (sCor 0) 0x030 1).evt (sCor 0) 0
  if trunc then s1.evt (sCor 0) 5 else s1

/-- A stopped context whose blocks are complete gives back its slices and ladder pairs (R222). -/
def State.corRelease (s : State) (c : Nat) : State :=
  let x := s.cor c
  if x.closing && x.cur.isNone && x.sweep.isEmpty && x.ladSweep.isEmpty && x.ready.isEmpty && x.own.isNone then
    (s.setCor c { bufs := x.bufs, ladBufs := x.ladBufs, seen := x.seen, ladSeen := x.ladSeen, owed := x.owed
                  ladOwed := x.ladOwed }).setTabN (oCor c 4) 0
  else s

/-- The sweeper passes the last accumulator of the oldest swept block and the dump queue empties: the block is complete and
queued to the context's DMA channel (R212, R221). -/
def State.harvest (s : State) (c : Nat) (ladder : Bool) : State :=
  let x := s.cor c
  if ladder then
    match x.ladSweep with
    | l :: r =>
      let s1 := s.hand (s.corDma c) { kind := 2, body := s.ladderBlock c l, src := .ladder c }
      (((s1.setCor c { x with ladSweep := r }).corDone l.trunc).report c 6 0 1).corRelease c
    | [] => s
  else
    match x.sweep with
    | h :: r =>
      let s1 := s.hand (s.corDma c) { kind := 2, body := s.residentBlock c h, src := .harvest c }
      (((s1.setCor c { x with sweep := r }).corDone h.trunc).report c 6 0 1).corRelease c
    | [] => s

/-! ### Spares and slices -/

/-- A slice of a die is withdrawn from admission (R16). -/
def State.sliceLoss (s : State) (die : Nat) : State :=
  let n := s.rfld (sCor die) 0x014 0 10
  (s.setRegN (sCor die) 0x014 (n - 1)).evt (sCor die) 3

/-- Spares of a die in use or retired, and whether one is left: a die has at least one (R16). DESIGN CHOICE (log entry 39). -/
def State.spareUsed (s : State) (die : Nat) : Nat := Sparse.get 0 s.spares die
def State.spareLeft (s : State) (die : Nat) : Bool := decide (s.spareUsed die ≤ Config.spareTiles die)
def State.takeSpare (s : State) (die : Nat) : State :=
  { s with spares := Sparse.set 0 s.spares die (s.spareUsed die + 1) }

/-- A spare fails its known-answer test and is retired; with none left a slice is withdrawn, and SLICE_LOSS set (R16, R17). What the
failed test of a spare does when no other is left, R17 does not say. DESIGN CHOICE (log entry 53). -/
def State.spareTestFail (s : State) (die : Nat) : State := if s.spareLeft die then s.takeSpare die else s.sliceLoss die

/-- Slices of a die held by running contexts (`COR.SLICE_USED`). -/
def State.sliceUsed (s : State) (die : Nat) : Nat :=
  (s.cors.map fun e => if die = 0 then e.2.slicesA else e.2.slicesB).sum

/-- A tile in service is retired (R16, R17): a spare takes its work, else a free slice of the die in place of the withdrawn one.
Whether neither remains is told too. -/
def State.retireTile (s : State) (die : Nat) : Bool × State :=
  if s.spareLeft die then (false, s.takeSpare die)
  else (!decide (s.sliceUsed die < s.rfld (sCor die) 0x014 0 10), s.sliceLoss die)

/-- The tiles of a stopping context that failed in its last group are retired with it (R16, R17). -/
def State.retireTiles (s : State) (c : Nat) : State :=
  let x := s.cor c
  (s.setCor c { x with subst := [] }).each x.subst fun s d => (s.retireTile d).2

/-- Running contexts in a mode: 1 resident, 2 blocked (R208, R252). -/
def State.corRunning (s : State) (mode : Nat) : List Nat :=
  (s.cors.filter fun e => decide (e.2.run = mode) && !e.2.closing).map (·.1)

/-! ### Commands -/

/-- SPARE_TEST_FAIL (R17). -/
def execSpareTestFail (t : Nat) (die : Fin 2) : State → Host.Outcome State Fault Refusal :=
  command t fun s => s.spareTestFail die

end Sys2Proof.Machine
end

