-- ==== Sys2Proof/Machine/Blocked.lean ====
section
/-! DEFINITION. Blocked mode and the cascade (12_blocked_mode_and_cascade.md): signal blocks, their judging and
processing, transfers of the ring, and the hop's states. SIGNAL_BLOCK_COMPLETE, CAS_TRANSFER, BLOCK_DEADLINE,
CAS_IDLE, CAS_HOP_LOST, CAS_RETRY. What it reads by inference or chooses: log entry 41. -/

namespace Sys2Proof.Machine

/-- B = 2^BLK_EXP and CTAG of a context (R244, R257). -/
def State.blkExp (s : State) (c : Nat) : Nat := s.tfld (oBlk c 0) 16 4
def State.blkB (s : State) (c : Nat) : Nat := 2 ^ s.blkExp c
def State.blkCtag (s : State) (c : Nat) : Nat := s.tfld (oBlk c 0) 0 16
def State.casc (s : State) (c : Nat) : Bool := s.tbit (oBlk c 0) 31

/-- Ring size D and position POS of a context: 1 and 0 when it is not cascaded (R243, R247). A blocked run keeps those of its start
(R23). -/
def State.ringD (s : State) (c : Nat) : Nat :=
  if (s.cor c).run = 2 then (s.cor c).ringD else if s.casc c then s.rfld sCas 0x014 1 2 + 1 else 1
def State.ringPos (s : State) (c : Nat) : Nat :=
  if (s.cor c).run = 2 then (s.cor c).ringPos else if s.casc c then s.rfld sCas 0x014 3 2 else 0

/-- The groups a device needs: its own and the next ⌊D/2⌋ (R248). -/
def State.needed (s : State) (c : Nat) : List Nat :=
  (List.range (s.ringD c / 2 + 1)).map fun m => (s.ringPos c + m) % s.ringD c

/-- Whether the device at `pos` of a ring of `d` computes the pair of global indices i ≤ j, `n` signals each (R248). -/
def ownsPair (pos d n i j : Nat) : Bool :=
  let gi := i / n
  let gj := j / n
  if gi = gj then decide (gi = pos)
  else
    let near (a b : Nat) : Bool := (List.range' 1 (cdiv d 2 - 1)).any fun m => decide ((a + m) % d = b)
    if near pos gj && decide (gi = pos) then true
    else if near pos gi && decide (gj = pos) then true
    else if d % 2 = 0 ∧ gi + d / 2 = gj then
      if i % n < n / 2 then decide (pos = gi) else decide (pos = gj)
    else false

/-- A context's kind of slot: true for beams (R243: a range does not mix them). -/
def State.blkBeam (s : State) (c : Nat) : Bool := ((s.ctxSlots c).head?.map (·.1)).getD false

/-- A block of the own group (R249): its flags over its span. -/
def State.ownBlock (s : State) (c : Nat) (k : SigBlock) : SigBlock :=
  let w := (s.cor c).w
  let a := k.orig + k.first * w / 2000
  let b := k.orig + (k.first + k.bins.length) * w / 2000 - 1
  { k with flags := s.flagsOver a b &&& (fUNLOCKED ||| fWINTER ||| fUNALIGNED) }

/-- The first own block of a run (R244): blocks of peers that came for earlier ones can serve no more, and the others take its grid. -/
def Cor.blkBegin (x : Cor) (k : SigBlock) : Cor :=
  if x.nextBlk.isSome then x
  else { x with
    nextBlk := some k.first, blkGrid := k.orig
    slots := (x.slots.filter fun y => decide (k.first ≤ y.first)).map fun y => { y with orig := k.orig } }

/-- A bin that a blocked context takes (R244): the first block is the first whole one after the start. -/
def State.blockedBin (s : State) (c b orig : Nat) (sig : List Int) (lost : Nat) : State :=
  let x := s.cor c
  let n := s.blkB c
  let k := match x.own with
    | some k => some { k with bins := k.bins ++ [sig], lost := k.lost ||| lost }
    | none => if b % n = 0 then
        some ({ group := s.ringPos c, orig := orig, first := b, bins := [sig], lost := lost } : SigBlock) else none
  match k with
  | some k =>
    let x1 := { x.blkBegin k with n0 := some (x.n0.getD k.first) }
    if k.bins.length = n then s.setCor c { x1 with own := none, full := x.full ++ [s.ownBlock c k] }
    else s.setCor c { x1 with own := some k }
  | none => s

/-- Own blocks in HBM that wait to be judged, oldest first. -/
def State.ownBlks (s : State) (c : Nat) : List SigBlock := (s.cor c).slots.filter fun k => decide (k.group = s.ringPos c)

/-- The blocks held of an own block's bins and grid. -/
def Cor.present (x : Cor) (k : SigBlock) : List SigBlock :=
  x.slots.filter fun y => decide (y.first = k.first) && decide (y.orig = k.orig)

/-- An own block is judged: the groups present go to the arrays, and each that is missing counts (R251). -/
def State.judgeBlk (s : State) (c : Nat) (k : SigBlock) : State :=
  let x := s.cor c
  let blocks := x.present k
  let miss := (s.needed c).filter fun g => !(blocks.any fun y => decide (y.group = g))
  let s1 := s.setCor c { x with
    ready := x.ready ++ [({ first := k.first, orig := k.orig, blocks := blocks, last := k.last } : BlkJob)]
    slots := x.slots.filter fun y => !(decide (y.first = k.first) && decide (y.orig = k.orig))
    nextBlk := if k.orig = x.blkGrid then some (k.first + s.blkB c) else x.nextBlk }
  if miss.isEmpty then s1 else (s1.tbump (oBlk c 1) miss.length).evt sCas 4

/-- The oldest own block is judged, when every needed group is present, or in any case. -/
def State.judgeNext (s : State) (c : Nat) (force : Bool) : State :=
  match s.ownBlks c with
  | k :: _ =>
    let p := (s.cor c).present k
    if force || (s.needed c).all fun g => p.any fun y => decide (y.group = g) then s.judgeBlk c k else s
  | [] => s

/-- Blocks that every needed group has reached are judged, in order (R251). -/
def State.judgeAll (s : State) (c : Nat) : State := s.each (s.ownBlks c) fun s _ => s.judgeNext c false

/-- The data words of a block in the HBM layout of R244: each signal low nibble first, or one byte a bin. -/
def packBlock (beam : Bool) (n : Nat) (k : SigBlock) : List Nat :=
  (List.range n).flatMap fun i =>
    let vals := k.bins.map fun b => b.getD i 0
    let per := if beam then 8 else 16
    let w := if beam then 8 else 4
    (List.range (cdiv vals.length per)).map fun q =>
      ((vals.drop (per * q)).take per).zipIdx.foldl (fun a e => a + unsign w e.1 * 2 ^ (w * e.2)) 0

/-- The bins that data words spell. -/
def unpackBlock (beam : Bool) (n b : Nat) (data : List Nat) : List (List Int) :=
  let per := if beam then 8 else 16
  let w := if beam then 8 else 4
  (List.range b).map fun m => (List.range n).map fun i =>
    let v := nfld (data.getD (i * cdiv b per + m / per) 0) (w * (m % per)) w
    if beam then signed 8 v else (v : Int)

/-- The header words of a transfer (R249). -/
def State.casHeader (s : State) (c hops : Nat) (k : SigBlock) : List Nat :=
  [0x4341_5331 * 2 ^ 32 + k.group * 2 ^ 26 + hops * 2 ^ 24 + s.blkCtag c, k.first,
   s.blkExp c + (s.cor c).w / 2000 * 2 ^ 32, s.slotCnt c + b2n (s.blkBeam c) * 2 ^ 12, k.lost, k.flags]

/-- The IDLE word that the transmitter sends between transfers (R249). -/
def State.casIdleWord (s : State) : Nat := 0x4341_5349 * 2 ^ 32 + s.rfld sCas 0x014 3 2 * 2 ^ 16

/-- A transfer leaves, and IDLE words follow it (R249). The output shows the first of a run of IDLE words. -/
def State.casSend (s : State) (header data : List Nat) : State :=
  (s.emit (.casTransfer header data)).emit (.casIdle s.casIdleWord)

/-- A signal block of the own group is complete in HBM: it is held, sent downstream when the context is cascaded and it is whole, and
judged with what is present (R249, R251). -/
def State.signalBlock (s : State) (c : Nat) : State :=
  let x := s.cor c
  match x.full with
  | k :: r =>
    let s1 := s.setCor c { x with full := r, slots := x.slots ++ [k] }
    let s2 := if s.casc c && decide (k.bins.length = s.blkB c) then
        (s1.casSend (s.casHeader c (s.ringD c / 2) k) (packBlock (s.blkBeam c) (s.slotCnt c) k)).bump64 sCas 0x024 1
      else s1
    s2.judgeAll c
  | [] => s

/-- Blocks of a group that occupy its four slots (R251). -/
def Cor.occupied (x : Cor) (g : Nat) : Nat :=
  ((x.slots ++ x.ready.flatMap (·.blocks) ++ x.prevBlk).filter fun k => decide (k.group = g)).length

/-- The grid of a peer's block that arrives: that of an own block of an old grid with its first bin which still waits for the group, else
the present one (R251, R256). DEDUCED (log entry 41). -/
def State.blkGridOf (s : State) (c g first : Nat) : Nat :=
  let x := s.cor c
  let waits (k : SigBlock) : Bool :=
    decide (k.first = first) && decide (k.orig ≠ x.blkGrid) && !((x.present k).any fun y => decide (y.group = g))
  (((s.ownBlks c ++ x.full).find? waits).map (·.orig)).getD x.blkGrid

/-- A cascade transfer arrives (R249, R251): dropped as mismatched, dropped at full slots, or stored and forwarded. One that lost
words in codewords that failed is none (R154, R247): they are counted. -/
def State.casTransfer (s : State) (header data : List Nat) (lost : Nat) : State :=
  let h0 := header.getD 0 0
  let first := header.getD 1 0
  let h2 := header.getD 2 0
  let h3 := header.getD 3 0
  let g := nfld h0 26 2
  let hops := nfld h0 24 2
  let beam := decide (nfld h3 12 1 = 1)
  if s.cas.st ≠ 2 then s
  else if 0 < lost then s.bump64 sCas 0x04C lost
  else if nfld h0 32 32 ≠ 0x4341_5331 then s
  else
    let fwd (s : State) : State :=
      if 1 < hops then (s.casSend ((h0 - 2 ^ 24) :: header.drop 1) data).bump64 sCas 0x034 1 else s
    let local' := (s.runningCtxs.filter fun c => decide ((s.cor c).run = 2) && s.casc c &&
      decide (s.blkCtag c = nfld h0 0 16)).head?
    match local' with
    | none => fwd s
    | some c =>
      if nfld h3 0 12 ≠ s.slotCnt c ∨ beam ≠ s.blkBeam c ∨ nfld h2 32 25 ≠ (s.cor c).w / 2000 ∨
          nfld h2 0 5 ≠ s.blkExp c ∨ first % s.blkB c ≠ 0 then
        (s.bump64 sCas 0x044 1).evt sCas 3
      else if !(s.needed c).contains g || decide (g = s.ringPos c) then fwd s
      else
        let x := s.cor c
        let orig := s.blkGridOf c g first
        let old := match x.nextBlk with
          | some f => decide (orig = x.blkGrid) && decide (first < f)
          | none => false
        if old then fwd s
        else if 4 ≤ x.occupied g then (s.bump64 sCas 0x03C 1).evt sCas 2
        else
          let k : SigBlock := {
            group := g, orig := orig, first := first, bins := unpackBlock beam (s.slotCnt c) (s.blkB c) data
            lost := header.getD 4 0, flags := nfld (header.getD 5 0) 0 8 }
          fwd (((s.setCor c { x with slots := x.slots ++ [k] }).bump64 sCas 0x02C 1).judgeAll c)

/-- The release of the last bin of own block k + 1: block k is judged with the groups that are missing marked (R251). -/
def State.blockDeadline (s : State) (c : Nat) : State :=
  if 2 ≤ (s.ownBlks c ++ (s.cor c).full).length then s.judgeNext c true else s

/-- The bins of a job's groups and of the 15 bins before it, per global index: value of bin u, or none where the group is
missing (R245). -/
def blkValue (n : Nat) (cur prev : List SigBlock) (first : Nat) (gi u : Nat) : Option Int :=
  let find (l : List SigBlock) : Option SigBlock :=
    l.find? fun k => decide (k.group = gi / n) && decide (k.first ≤ u) && decide (u < k.first + k.bins.length)
  let k := if first ≤ u then find cur else find prev
  k.bind fun k => (k.bins[u - k.first]?).map fun b => b.getD (gi % n) 0

/-- Every product of a job (R245): those whose later bin lies in its block. -/
def State.blkProducts (s : State) (c : Nat) (j : BlkJob) : List (Nat × Bool × Int) :=
  let x := s.cor c
  let n := s.slotCnt c
  let d := s.ringD c
  let pos := s.ringPos c
  let prev := x.prevBlk.filter fun k => decide (k.orig = j.orig)
  let len := (j.blocks.map fun k => k.bins.length).foldl max 0
  let all := List.range (d * n)
  (List.range len).flatMap fun m =>
    let u := j.first + m
    all.flatMap fun jj =>
      match blkValue n j.blocks prev j.first jj u with
      | some vj =>
        if vj = 0 then []
        else (all.filter fun ii => decide (ii ≤ jj) && ownsPair pos d n ii jj).flatMap fun ii =>
          (List.range 16).filterMap fun lag =>
            if lag ≤ u then
              (blkValue n j.blocks prev j.first ii (u - lag)).bind fun vi =>
                if vi = 0 then none else some (16 * pairIdx ii jj + lag, s.blkBeam c, vi * vj)
            else none
      | none => []

/-- The device's pairs, ascending (R248, R253). -/
def State.devPairs (s : State) (c : Nat) : List Nat :=
  let n := s.slotCnt c
  let d := s.ringD c
  (List.range (d * n)).flatMap fun j => ((List.range (j + 1)).filter fun i => ownsPair (s.ringPos c) d n i j).map fun i =>
    pairIdx i j

/-- The bytes of a blocked Harvest block (R253). -/
def State.blockedBlock (s : State) (c : Nat) (h : Harv) : List Byte :=
  let n := s.slotCnt c
  let ps := s.devPairs c
  let w := (s.cor c).w
  let bytes := 128 + 64 * cdiv n 8 + 128 * ps.length + 64
  let fl := s.blockFlags h.orig h.first w h.bins h.lost (h.flags ||| flagIf (decide (h.rlostG ≠ 0)) fLOST) h.trunc
  let st := b2n h.start + 2 * b2n h.short + 4 * b2n h.stopped + 8 * b2n (!h.pins.isEmpty) + 16 * b2n (decide (h.missG ≠ 0))
  let w8 := s.ringPos c + (s.ringD c - 1) * 4 + h.missG * 16 + h.rlostG * 256
  s.corHeader c 2 fl st h.seq h.first w h.bins ps.length h.pins.length bytes h.lost (s.hvBins c) w8
      (h.misses % 2 ^ 32 + s.blkCtag c * 2 ^ 32) ++
    sumBytes n h.sums ++
    (ps.flatMap fun p => (List.range 16).flatMap fun g => w64 (unsign 64 (Sparse.get 0 h.acc (16 * p + g)))) ++
    corTrailer 0x424C_4B48 h.seq bytes

/-- Tiles on a side of one group (R245, R252). -/
def State.blkSide (s : State) (c : Nat) : Nat := cdiv (s.slotCnt c) (max 1 (s.cor c).tile)

/-- Whether the device computes a pair of the tile of rows `a` and columns `b`, counted over the ring (R245, R248): by groups, but where
two devices share a pair of groups, by the local indices of its rows. -/
def State.ownsTile (s : State) (c a b : Nat) : Bool :=
  let k := s.blkSide c
  let t := max 1 (s.cor c).tile
  let n := s.slotCnt c
  let lo := a % k * t
  [lo, min n (lo + t) - 1].any fun i => ownsPair (s.ringPos c) (s.ringD c) n (a / k * n + i) (b / k * n + b % k * t)

/-- The device's own tiles in ascending order (R245). -/
def State.ownTiles (s : State) (c : Nat) : List Nat :=
  (List.range (s.ringD c * s.blkSide c)).flatMap fun b =>
    ((List.range (b + 1)).filter fun a => s.ownsTile c a b).map fun a => pairIdx a b

/-- The die that the tile of a pair is dealt to: A and B alternately in the order of the device's own tiles (R245). -/
def State.blkDie (s : State) (c p : Nat) : Nat :=
  let j := (Nat.sqrt (8 * p + 1) - 1) / 2
  let t := max 1 (s.cor c).tile
  let n := max 1 (s.slotCnt c)
  let coord (g : Nat) : Nat := g / n * s.blkSide c + g % n / t
  (s.ownTiles c).idxOf (pairIdx (coord (p - j * (j + 1) / 2)) (coord j)) % 2

/-- A Harvest's first block takes a free buffer, or the Harvest is discarded whole (R246). -/
def State.blkOpen (s : State) (c : Nat) (j : BlkJob) : State :=
  let x := s.cor c
  let hv := s.hvBins c
  let want := hv - j.first % hv
  let free := decide (x.bufs < s.corNbuf c)
  let start := decide (x.grid ≠ some j.orig)
  let h : Harv := {
    seq := (s.tabw (oCor c 5)).toNat, first := j.first, orig := j.orig, want := want, start := start
    short := start && decide (want < hv), discard := !free }
  let s1 := (s.setCor c { x with
    cur := some h, grid := some j.orig, bufs := if free then x.bufs + 1 else x.bufs }).setTabN (oCor c 5) (h.seq + 1)
  if free then s1 else s1.hvLost c

/-- The Harvest in progress is complete: its block is written and queued, and the next begins in another buffer (R246). Its block is
none of those that `COR.HARVESTS` and HARVEST count. -/
def State.blkDone (s : State) (c : Nat) (stopped : Bool) : State :=
  let x := s.cor c
  match x.cur with
  | some h =>
    let m := blockMarks x.seen x.owed h.orig h.first h.bins x.w
    let h1 := { h with stopped := stopped, trunc := decide (h.bins < h.want), flags := h.flags ||| m }
    let y := { x with cur := none, epochBit := !x.epochBit }
    if h.discard then s.setCor c { y with owed := m }
    else
      let s1 := s.setCor c { y with seen := max x.seen h.orig, owed := 0 }
      let s2 := s1.hand (s.corDma c) { kind := 2, body := s.blockedBlock c h1, src := .harvest c }
      (if h1.trunc then s2.evt (sCor 0) 5 else s2).report c 6 1 1
  | none => s

/-- A Harvest after a judged block: sums and bins of the own group's block, lost marks, flags and missing groups (R251,
R253). -/
def Harv.take (h : Harv) (bl : List SigBlock) (pos : Nat) (miss : List Nat) : Harv :=
  let own : Option SigBlock := bl.find? fun k => decide (k.group = pos)
  let bins : List (List Int) := match own with
    | some k => k.bins
    | none => []
  let lost : Nat := match own with
    | some k => k.lost
    | none => 0
  let addBin (m : List (Nat × Int)) (b : List Int) : List (Nat × Int) :=
    (nonzero b).foldl (fun m e => Sparse.set 0 m e.1 (Sparse.get 0 m e.1 + e.2)) m
  { h with
    bins := h.bins + bins.length
    lost := h.lost ||| lost
    flags := bl.foldl (fun f k => f ||| (k.flags &&& (fUNLOCKED ||| fWINTER ||| fUNALIGNED))) h.flags
    sums := bins.foldl addBin h.sums
    missG := miss.foldl (fun m g => m ||| 2 ^ g) h.missG
    rlostG := bl.foldl (fun m k => if k.lost ≠ 0 then m ||| 2 ^ k.group else m) h.rlostG
    misses := h.misses + miss.length }

/-- The products of a judged block are added to the Harvest in progress (R245). -/
def State.blkTake (s : State) (c : Nat) (h : Harv) (j : BlkJob) (r : List BlkJob) : State :=
  let ps := if h.discard then [] else s.blkProducts c j
  let (h1, pinned) := ps.foldl (fun (a : Harv × List Nat) e =>
    let (g, p) := a.1.add 64 e
    (g, if p then e.1 :: a.2 else a.2)) (h, [])
  let miss := (s.needed c).filter fun g => !(j.blocks.any fun k => decide (k.group = g))
  let s1 := s.setCor c { s.cor c with
    cur := some (h1.take j.blocks (s.ringPos c) miss), ready := r, prevBlk := j.blocks }
  (s1.each pinned fun s k => s.corPinned (s.blkDie c (k / 16))).tbump (oBlk c 2) 1

/-- The arrays finish a judged block (R245, R246, R253). A Harvest that it fills is complete, and was closed by nothing else. -/
def State.blockProcessed (s : State) (c : Nat) : State :=
  match (s.cor c).ready with
  | j :: r =>
    let s1 := if (s.cor c).cur.isNone && !j.blocks.isEmpty then s.blkOpen c j else s
    let s2 := match (s1.cor c).cur with
      | some h => s1.blkTake c h j r
      | none => s1.setCor c { s1.cor c with ready := r, prevBlk := j.blocks }
    let full := match (s2.cor c).cur with
      | some h => decide (h.want ≤ h.bins)
      | none => false
    (if full || j.last then s2.blkDone c (j.stopped && !full) else s2).corRelease c
  | [] => s

/-- Blocks, of which the newest of the own group is marked the last of its grid. -/
def markLast (g : Nat) (l : List SigBlock) : List SigBlock :=
  match l.reverse.find? fun k => decide (k.group = g) with
  | some k => l.map fun y => if y = k then { y with last := true } else y
  | none => l

/-- The newest judged block closes the Harvest, or, where none waits, the Harvest in progress closes now (R256). -/
def State.blkClose (s : State) (c : Nat) (stopped : Bool) : State :=
  let x := s.cor c
  match x.ready.reverse with
  | j :: r => s.setCor c { x with ready := (({ j with last := true, stopped := stopped } : BlkJob) :: r).reverse }
  | [] => if x.cur.isSome then s.blkDone c stopped else s

/-- The own block in progress ends as it stands (R256). -/
def State.blkPartial (s : State) (c : Nat) : State :=
  let x := s.cor c
  match x.own with
  | some k => s.setCor c { x with own := none, full := x.full ++ [s.ownBlock c k] }
  | none => s

/-- A stop (R256): the partial block and those that wait are judged with what is present, and the Harvest closes with them. -/
def State.blkStop (s : State) (c : Nat) : State :=
  let s0 := s.blkPartial c
  let s1 := s0.each (s0.cor c).full fun s _ => s.signalBlock c
  let s2 := (s1.each (s1.ownBlks c) fun s _ => s.judgeNext c true).blkClose c true
  s2.setCor c { s2.cor c with slots := [], nextBlk := none }

/-- The grid restarts at a Solstice (R256): the block in progress ends as it stands and closes the Harvest, blocks that wait for their
peers do so until their deadline, and own blocks restart at bin 0 of the grid with origin `a`. -/
def State.blkNewGrid (s : State) (c a : Nat) : State :=
  let s1 := s.blkPartial c
  let x := s1.cor c
  let own := s.ringPos c
  let s2 :=
    if !x.full.isEmpty then s1.setCor c { x with full := markLast own x.full }
    else if !(s1.ownBlks c).isEmpty then s1.setCor c { x with slots := markLast own x.slots }
    else s1.blkClose c false
  let y := s2.cor c
  let due := s2.ownBlks c ++ y.full
  s2.setCor c { y with
    slots := y.slots.filter fun k => due.any fun o => decide (o.first = k.first) && decide (o.orig = k.orig)
    nextBlk := y.nextBlk.map fun _ => 0
    blkGrid := a }

/-! ### The hop -/

/-- The hop becomes LOST (R250). -/
def State.casLost (s : State) : State :=
  if s.cas.st = 1 ∨ s.cas.st = 2 then
    (({ s with cas := { s.cas with st := 3, lock := 0, lostAt := s.now } }.bump64 sCas 0x054 1).evt sCas 1).bbrFault sCas 0 1
  else s

/-- An IDLE word arrives (R249, R250): UP_POS shows its POS, and the expected one takes a training hop to UP. DEDUCED (log entry 41). -/
def State.casIdle (s : State) (w : Word64) : State :=
  let v := w.toNat
  if (s.cas.st = 1 ∨ s.cas.st = 2) ∧ nfld v 32 32 = 0x4341_5349 then
    let p := nfld v 16 2
    let d := s.rfld sCas 0x014 1 2 + 1
    let s1 := { s with cas := { s.cas with upPos := p, lock := 0xFF } }
    if s.cas.st = 1 ∧ p = (s.rfld sCas 0x014 3 2 + 1) % d then { s1 with cas := { s1.cas with st := 2 } }.evt sCas 0 else s1
  else s

/-- RETRY ms after LOST the hop retrains (R250). -/
def State.casRetry (s : State) : State :=
  let r := s.rfld sCas 0x014 8 8
  if s.cas.st = 3 ∧ r ≠ 0 ∧ s.cas.lostAt + r * 1000 * usEdges ≤ s.now then
    ({ s with cas := { s.cas with st := 1 } } : State).emit (.casIdle s.casIdleWord)
  else s

/-! ### Commands -/

/-- SIGNAL_BLOCK_COMPLETE (R249). -/
def execSignalBlockComplete (t : Nat) (c : Fin 512) : State → Host.Outcome State Fault Refusal :=
  command t fun s => s.asOf c fun s => s.signalBlock c

/-- CAS_TRANSFER (R251). -/
def execCasTransfer (t : Nat) (header : List Word64) (data : CasData) : State → Host.Outcome State Fault Refusal :=
  command t fun s => s.casTransfer (header.map (·.toNat)) (data.words.map (·.toNat)) data.lost

/-- BLOCK_DEADLINE (R251). -/
def execBlockDeadline (t : Nat) (c : Fin 512) : State → Host.Outcome State Fault Refusal :=
  command t fun s => s.asOf c fun s => s.blockDeadline c

/-- CAS_IDLE (R250). -/
def execCasIdle (t : Nat) (w : Word64) : State → Host.Outcome State Fault Refusal := command t fun s => s.casIdle w

/-- CAS_HOP_LOST (R250). -/
def execCasHopLost (t : Nat) : State → Host.Outcome State Fault Refusal := command t State.casLost

/-- CAS_RETRY (R250). -/
def execCasRetry (t : Nat) : State → Host.Outcome State Fault Refusal := command t State.casRetry

end Sys2Proof.Machine
end

