-- ==== Sys2Proof/Machine/Microstore.lean ====
section
/-! DEFINITION. The microcode stores (14_microcode.md): fetching, the fields of microwords and nanowords, the walk of the
admission engine, and the host's writes. What it reads by inference: log entry 45. -/

namespace Sys2Proof.Machine

/-- The customer-open regions begin here (R272). -/
abbrev microOpen : Nat := 0x3000
abbrev nanoOpen : Nat := 0x600

/-- The microword in force at an address (R272). -/
def State.micro (s : State) (a : Nat) : Word :=
  if a < microOpen then Sparse.get (Config.romMicro a) s.ovMicro a else s.tabw (oMicro a)

/-- The bits of a nanoword that are not reserved (R278): 126 to 17. -/
abbrev nanoMask : Nat := 2 ^ 127 - 2 ^ 17

/-- The nanoword in force at an address (R272); reserved bits read 0 (R278). -/
def State.nano (s : State) (a : Nat) : Nat :=
  if a < nanoOpen then (Sparse.get (Config.romNano a) s.ovNano a).toNat &&& nanoMask
  else s.tab64 (oNano a 0) + 2 ^ 64 * s.tab64 (oNano a 2)

/-- Fields of a microword (R274). -/
def mwCommit (w : Word) : Bool := bit w 31
def mwCyc (w : Word) : Nat := fld w 30 1
def mwBw (w : Word) : Nat := fld w 28 2
def mwBsel (w : Word) : Nat := fld w 25 3
def mwNext (w : Word) : Nat := fld w 11 14
def mwNano (w : Word) : Nat := fld w 0 11

/-- Fields of a nanoword (R278). -/
def nwCx (n : Nat) : Nat := nfld n 126 1
def nwFlow (n : Nat) : Nat := nfld n 123 3
def nwFstate (n : Nat) : Nat := nfld n 119 4
def nwTop (n : Nat) : Nat := nfld n 117 2
def nwTidx (n : Nat) : Nat := nfld n 115 2
def nwCop (n : Nat) : Nat := nfld n 113 2
def nwCidx (n : Nat) : Nat := nfld n 111 2
def nwOen (n : Nat) : Bool := decide (nfld n 110 1 = 1)
def nwOch (n : Nat) : Nat := nfld n 105 5
def nwOkind (n : Nat) : Bool := decide (nfld n 104 1 = 1)
def nwOval (n : Nat) : Bool := decide (nfld n 103 1 = 1)
def nwOffset (n : Nat) : Nat := nfld n 71 32
def nwOwidth (n : Nat) : Nat := nfld n 39 32
def nwRact (n : Nat) : Nat := nfld n 37 2
def nwRtag (n : Nat) : Nat := nfld n 21 16
def nwMact (n : Nat) : Nat := nfld n 19 2
def nwMslot (n : Nat) : Nat := nfld n 17 2

/-- The actions of a nanoword, in the order in which R281 lists its fields. -/
def nwActs (n : Nat) : List Act :=
  (if nwTop n = 0 then [] else [.timer (nwTop n) (nwTidx n)]) ++
  (if nwCop n = 0 then [] else [.counter (nwCop n) (nwCidx n)]) ++
  (if nwOen n then [.out (nwOch n) (nwOkind n) (nwOval n) (nwOffset n) (nwOwidth n)] else []) ++
  (if nwRact n = 0 then [] else [.rec' (nwRact n) (nwRtag n)]) ++
  (if nwMact n = 0 then [] else [.gate (nwMact n) (nwMslot n)])

/-- What the walk of R288 has gathered: the microwords seen, the channels placed on, the branches' groups and widths. -/
structure Walk where
  seen : List Nat := []
  chans : List Nat := []
  branches : List (Nat × Nat) := []
  deriving DecidableEq, Repr

/-- The walk over every microword that can be reached (R288). -/
def State.walkGo (s : State) : Nat → List Nat → Walk → Walk
  | 0, _, k => k
  | _ + 1, [], k => k
  | fuel + 1, a :: todo, k =>
    if k.seen.contains a then s.walkGo fuel todo k
    else
      let w := s.micro a
      let n := s.nano (mwNano w)
      let k1 : Walk := { k with seen := a :: k.seen, chans := if nwOen n then nwOch n :: k.chans else k.chans }
      if mwCommit w && decide (nwFlow n ≠ 0) then s.walkGo fuel todo k1
      else
        let b := mwBw w
        let k2 : Walk := { k1 with branches := if b = 0 then k1.branches else (mwBsel w, b) :: k1.branches }
        s.walkGo fuel ((List.range (2 ^ b)).map (fun g => mwNext w ||| g) ++ todo) k2

/-- A program state's V, RETRIG and ENTRY (R258). -/
def State.pstate (s : State) (c k : Nat) : Nat := s.tfld (oCtx c (12 + k / 2)) (16 * (k % 2)) 16
def State.pstV (s : State) (c k : Nat) : Bool := decide (s.pstate c k / 2 ^ 15 = 1)
def State.pstRetrig (s : State) (c k : Nat) : Bool := decide (s.pstate c k / 2 ^ 14 % 2 = 1)
def State.pstEntry (s : State) (c k : Nat) : Nat := s.pstate c k % 2 ^ 14

/-- The walk from the entries of a context's states with V = 1 (R288): at most eight ways from each of 16,384 words. -/
def State.walk (s : State) (c : Nat) : Walk :=
  s.walkGo 131_200 (((List.range 16).filter fun k => s.pstV c k).map fun k => s.pstEntry c k) {}

/-! ### Writes -/

/-- A refused write (R286): `SEQ.WR_STAT`, the counter and the event. -/
def State.storeRefused (s : State) (reason store a : Nat) : State :=
  ((s.setRegN sSeq 0x018 (reason * 2 ^ 16 + store * 2 ^ 14 + a)).bump64 sSeq 0x024 1).evt sSeq 0

/-- Whether a routine in progress has fetched a word (R286): those of its microwords so far, and past its last boundary those of
the microword in progress. DEDUCED (log entry 46). -/
def State.microBusy (s : State) (a : Nat) : Bool :=
  s.ctxs.any fun e => match e.2.thread with
    | some t => t.micro.contains a || (decide (t.busyTo < s.now) && decide (t.pc = a))
    | none => false
def State.nanoBusy (s : State) (a : Nat) : Bool :=
  s.ctxs.any fun e => match e.2.thread with
    | some t => t.nano.contains a || (decide (t.busyTo < s.now) && decide (mwNano (s.micro t.pc) = a))
    | none => false

/-- A microword write (R286, R287). -/
def State.microWrite (s : State) (a : Nat) (v : Word) : State :=
  if a < microOpen then s.storeRefused 2 0 a
  else if s.microBusy a then s.storeRefused 1 0 a
  else s.setTabw (oMicro a) v

/-- A nanoword's words as stored. -/
def State.nanoWords (s : State) (a : Nat) : List Word := (List.range 4).map fun k => s.tabw (oNano a k)

/-- A write to words 0 to 2 of a nanoword goes to the holding register (R287). Bits 16:0 are reserved (R278). DEDUCED (log entry 45). -/
def State.nanoPartWrite (s : State) (a k : Nat) (v : Word) : State :=
  if a < nanoOpen then s.storeRefused 2 1 a
  else if s.nanoBusy a then s.storeRefused 1 1 a
  else
    let h := match s.hold with
      | some (b, l) => if b = a then l else s.nanoWords a
      | none => s.nanoWords a
    { s with hold := some (a, h.set k (if k = 0 then v &&& 0xFFFE_0000 else v)) }

/-- A write to word 3 places all four words, or is refused (R286, R287). -/
def State.nanoWord3Write (s : State) (a : Nat) (v : Word) : State :=
  if a < nanoOpen then s.storeRefused 2 1 a
  else
    let s1 := { s with hold := none }
    if s.nanoBusy a then s1.storeRefused 1 1 a
    else
      match s.hold with
      | some (b, l) =>
        if b = a then
          (l.take 3).zipIdx.foldl (fun s e => s.setTabw (oNano a e.2) e.1) (s1.setTabw (oNano a 3) (v &&& 0x7FFF_FFFF))
        else s1.storeRefused 3 1 a
      | none => s1.setTabw (oNano a 3) (v &&& 0x7FFF_FFFF)

end Sys2Proof.Machine
end

