-- ==== Sys2Proof/Machine/Histograms.lean ====
section
/-! DEFINITION. Interval histograms (11_interval_histograms.md): handling in TIME order, pairing, increments and the miss
queue, cuts, copies and snapshot blocks. HIST_STAMP, HIST_MISS_WRITEBACK, PERIODIC_CUT; the host's SNAP,
SNAP_CLEAR and CLEAR stand with the host's writes. What it reads by inference or chooses: log entry 42. -/

namespace Sys2Proof.Machine

/-- A definition's MODE, K, NBINS and WMIN, and the width of its window (R226, R227, R241). -/
def State.hMode (s : State) (d : Nat) : Nat := s.tfld (oHdef d 0) 29 2
def State.hK (s : State) (d : Nat) : Nat := s.tfld (oHdef d 1) 0 6
def State.hNbins (s : State) (d : Nat) : Nat := s.tfld (oHdef d 2) 0 29
def State.hWmin (s : State) (d : Nat) : Int := signed 64 (s.tab64 (oHdef d 3))
def State.hSpan (s : State) (d : Nat) : Int := ((s.hNbins d * 2 ^ s.hK d : Nat) : Int)

/-- The definitions a context owns, ascending (R226, R411). -/
def State.ownDefs (s : State) (c : Nat) : List Nat :=
  ((s.entries (oHdef 0 0) 0x40_0000 64).filter fun e => bit e.2 31 && decide (fld e.2 17 9 = c)).map (·.1)

/-- `NBUF`, `DMA_CH` and SNAP_PERIOD of a histogram context entry (R242). -/
def State.hNbuf (s : State) (c : Nat) : Nat := s.tfld (oHctx c 0) 20 4
def State.hDma (s : State) (c : Nat) : Nat := s.tfld (oHctx c 0) 24 6
def State.hPeriod (s : State) (c : Nat) : Nat := (s.tabw (oHctx c 1)).toNat + 2 ^ 32 * s.tfld (oHctx c 2) 0 16

/-! ### Handling order -/

/-- Every stamp of a source up to an instant has reached the engine of a die (R229): the horizon, or the FIFO's progress
mark and the forwarder, has passed it. -/
def State.histPast (s : State) (src die : Nat) (p : Int) : Bool :=
  if src < 4096 then
    decide (p + s.horizon < s.phys) && !((s.heng die).crossing.any fun x => decide (x.src = src) && decide (x.phys ≤ p))
  else
    let f := s.fwd die
    decide (p + 4000 + s.srcDelay src < s.phys) &&
      (decide (4160 ≤ src) || !((s.tin (src - 4096)).fifo.any fun x => decide (x.phys ≤ p))) &&
      !((f.routed ++ f.queue).any fun x => decide (x.src = src) && decide (x.phys ≤ p))

/-- A stop of a MULTI definition with WMIN < 0 is handled once every start up to t_stop − WMIN has arrived (R230). -/
def State.hLag (s : State) (d : Nat) : Int := if s.hMode d = 2 then max 0 (-(s.hWmin d)) else 0

/-- The next stamp to handle: whether it is a stop, the stamp, and the instant that handling must have passed. At equal
TIME a stop comes before a start, but for a stop that waits for its starts (R229, R230). -/
def State.histNext (s : State) (d : Nat) : Option (Bool × Stamp × Int) :=
  let h := s.hdef d
  let lag := s.hLag d
  match h.inq, h.stopq with
  | [], [] => none
  | a :: _, [] => some (false, a, a.phys)
  | [], b :: _ => some (true, b, b.phys + lag)
  | a :: _, b :: _ =>
    let stopFirst := if lag = 0 then decide (b.phys ≤ a.phys) else decide (b.phys + lag < a.phys)
    if stopFirst then some (true, b, b.phys + lag) else some (false, a, a.phys)

/-! ### Increments -/

/-- The line of the coalescing cache that holds a bin: 16 bins a line (R233). -/
def histLine (d i : Nat) : Nat := 2 ^ 24 * d + i / 16

/-- A tile whose hits can carry the mark of a loss (R186, R239). -/
def State.everLost (s : State) (n : Nat) : Bool := (s.tile n).lostOpen || (s.tile n).freshAt.isSome

/-- The tiles that a stamp adds to LOST_TILES (R239). -/
def State.lostTiles (s : State) (x : Stamp) : Nat :=
  if x.src < 4096 ∧ x.flags &&& fLOST ≠ 0 ∧ s.everLost (x.src / 64) then 2 ^ (x.src / 64) else 0

/-- An increment dropped at a full miss queue, or held across a cut with no free line (R233, R237). -/
def State.histDrop (s : State) (d : Nat) (p : Int) : State :=
  let die := s.hHome d
  (((s.histCount d 1 1 p).bump64 (sHst die) 0x030 1).evt (sHst die) 2).report (s.hOwner d) 5 2 1

/-- Increments lost to a bin that is full (R231). -/
def State.histSat (s : State) (d n : Nat) (p : Int) : State :=
  let die := s.hHome d
  ((s.histCount d 2 n p).bump64 (sHst die) 0x040 n).evt (sHst die) 4

/-- Lines of the 16 MB cache (R233). -/
abbrev cacheLines : Nat := 2 ^ 18

/-- The engine once a line is present, or none where the increment is dropped: at a full miss queue (R233), or, of a delta held across
a cut, where every line holds such deltas (R237). Otherwise the oldest line without such deltas gives way. DESIGN CHOICE (log entry
57). -/
def HEng.line (e : HEng) (key : Nat) : Option HEng :=
  if e.lines.contains key then some e
  else if 4096 ≤ e.misses.length then none
  else
    let missed := e.misses ++ [key]
    if e.lines.length < cacheLines then some { e with lines := e.lines ++ [key], misses := missed }
    else
      match e.lines.find? fun l => decide (l % 2 = 0) with
      | some l => some { e with lines := e.lines.erase l ++ [key], misses := missed }
      | none => if key % 2 = 1 then none else some { e with misses := missed }

/-- Whether a cut's bins restart from zero, whether it sends a block, and whether that carries TRUNC (R237). -/
def State.cutClears (s : State) (c : Nat) (k : CutCause) : Bool :=
  match k with
  | .snap => false
  | .snapClear | .clear | .solstice | .stop => true
  | .periodic => s.tbit (oHctx c 0) 30
def cutSends (k : CutCause) : Bool :=
  match k with
  | .clear => false
  | .snap | .snapClear | .periodic | .solstice | .stop => true
def cutTrunc (k : CutCause) : Bool :=
  match k with
  | .solstice | .stop => true
  | .snap | .snapClear | .clear | .periodic => false

/-- An increment is held: a copy runs, whose copier has not passed its bin, or a cut waits that it comes after (R237). -/
def HCtx.holds (h : HCtx) (p : Int) : Bool := h.copying.isSome || h.later p

/-- What a bin held for after a cut starts from: its value, or zero where a cut that waits clears it. -/
def State.heldFrom (s : State) (c n : Nat) : Nat :=
  let h := s.hctx c
  match h.copying, h.waiting with
  | none, w :: _ => if s.cutClears c w.cause then 0 else n
  | _, _ => n

/-- An increment of a bin by the pair of two stamps (R231, R233): a miss takes a place of the die's queue of 4,096; a full
bin stays; one that belongs after a cut is held. -/
def State.histIncr (s : State) (d i : Nat) (a b : Stamp) : State :=
  let die := s.hHome d
  let c := s.hOwner d
  let e := s.heng die
  let p := max a.phys b.phys
  let held := (s.hctx c).holds p
  let key := 2 * histLine d i + b2n held
  let s1 := if e.lines.contains key then s else s.bump64 (sHst die) 0x048 1
  match e.line key with
  | none => s1.histDrop d p
  | some e' =>
    let s2 := s1.setHeng die e'
    let h := s2.hdef d
    let n := Sparse.get 0 h.bins i
    let m := Sparse.get 0 h.post i
    let fl := (a.flags ||| b.flags) &&& (fUNLOCKED ||| fWINTER ||| fCAL ||| fUNALIGNED)
    let lt := s2.lostTiles a ||| s2.lostTiles b
    if 2 ^ 32 - 1 ≤ (if held then s2.heldFrom c n + m else n) then s2.histSat d 1 p
    else
      let h1 := if held then
          { h with post := Sparse.set 0 h.post i (m + 1), postFlags := h.postFlags ||| fl, postLost := h.postLost ||| lt }
        else { h with bins := Sparse.set 0 h.bins i (n + 1), flags := h.flags ||| fl, lost := h.lost ||| lt }
      (((s2.setHdef d h1).histCount d 0 1 p).bump64 (sHst die) 0x028 1).report c 5 0 1

/-- The bin of an interval, or none outside the window (R227). -/
def State.histBin (s : State) (d : Nat) (a b : Stamp) : Option Nat :=
  let x := sdiff b.time a.time - s.hWmin d
  if 0 ≤ x ∧ x < s.hSpan d then some ((x / 2 ^ s.hK d).toNat) else none

/-! ### Pairing -/

/-- A pending start expires when the handled time passes the end of its window (R230). -/
def State.histExpire (s : State) (d : Nat) (p : Int) : State :=
  let h := s.hdef d
  match h.pend with
  | some y =>
    let e := y.phys + s.hWmin d + s.hSpan d
    if e < p then (s.setHdef d { h with pend := none }).histCount d 5 1 e else s
  | none => s

/-- Starts of the old epoch that have not expired before A are emptied without count once handling has passed A (R240); a stop of it
that still waits for its starts (R230) keeps them. -/
def State.histEpoch (s : State) (d : Nat) (p : Int) : State :=
  let a : Int := 2000 * (s.solEdge : Int)
  if decide (a ≤ p) && !((s.hdef d).stopq.any fun y => decide (y.phys < a)) then
    let s1 := s.histExpire d a
    let h := s1.hdef d
    s1.setHdef d { h with pend := h.pend.filter fun y => decide (a ≤ y.phys), hist := h.hist.filter fun y => decide (a ≤ y.phys) }
  else s

/-- Two stamps of one epoch (R68). -/
def State.sameEpoch (s : State) (x y : Stamp) : Bool := s.originOf x.phys == s.originOf y.phys

/-- A start (R230). -/
def State.histStart (s : State) (d : Nat) (x : Stamp) : State :=
  let h := s.hdef d
  if s.hMode d = 2 then
    let keep := h.hist.filter fun y => decide (x.phys ≤ y.phys + s.hWmin d + s.hSpan d + s.hLag d)
    let mine := keep.filter (s.sameEpoch x)
    if 1024 ≤ mine.length then
      (s.setHdef d { h with hist := x :: mine.take 1023 ++ keep.filter fun y => !s.sameEpoch x y }).histCount d 6 1 x.phys
    else s.setHdef d { h with hist := x :: keep }
  else
    match h.pend with
    | some _ => (if s.hMode d = 0 then s.setHdef d { h with pend := some x } else s).histCount d 6 1 x.phys
    | none => s.setHdef d { h with pend := some x }

/-- A stop (R230). -/
def State.histStop (s : State) (d : Nat) (x : Stamp) : State :=
  let h := s.hdef d
  if s.hMode d = 2 then
    let mine := h.hist.filter fun y => decide (y ≠ x) && s.sameEpoch x y
    s.each mine.reverse fun s y =>
      match s.histBin d y x with
      | some i => s.histIncr d i y x
      | none => s
  else
    match h.pend with
    | some y =>
      let s1 := s.setHdef d { h with pend := none }
      match s1.histBin d y x with
      | some i => s1.histIncr d i y x
      | none => s1.histCount d 3 1 x.phys
    | none => s.histCount d 4 1 x.phys

/-- A stamp that waits for a cut: one at or after it, but for the starts that a stop before it waits for (R230, R237); and a stop that
reaches past a second cut while the first is copied. -/
def HCtx.before (hc : HCtx) (h : HDef) (lag lim : Int) (x : Stamp) : Bool :=
  match hc.waiting with
  | w :: _ =>
    decide (w.tP ≤ x.phys) && !(decide (0 < lag) && h.stopq.any fun y => decide (y.phys < w.tP)) ||
      hc.copying.isSome && decide (w.tP ≤ lim)
  | [] => false

/-- The next stamp of a definition is handled when every stamp that can precede it has reached the engine; one at or after a
cut that waits comes after the cut (R229, R237). A stamp at or after the owner's stop is not handled. -/
def State.histStamp (s : State) (d : Nat) : State :=
  let c := s.hOwner d
  let s := s.crossDrain (s.hHome d)
  match s.histNext d with
  | some (stop, x, lim) =>
    let h := s.hdef d
    let hc := s.hctx c
    let due := s.histPast (s.hStart d) (s.hHome d) lim && s.histPast (s.hStop d) (s.hHome d) lim
    if h.active && due && !hc.before h (s.hLag d) lim x then
      let s1 := s.setHdef d (if stop then { h with stopq := h.stopq.drop 1 } else { h with inq := h.inq.drop 1 })
      if hc.closing && hc.waiting.isEmpty then s1
      else
        let s2 := s1.setHctx c { hc with firstP := hc.firstP.or (some x.phys) }
        let s3 := (s2.histEpoch d x.phys).histExpire d x.phys
        if stop then s3.histStop d x else s3.histStart d x
    else s
  | none => s

/-- A miss completes its read and write-back: it leaves the queue, and its line stays in the cache (R233). -/
def State.missWriteback (s : State) (die : Nat) : State :=
  let e := s.heng die
  s.setHeng die { e with misses := e.misses.drop 1 }

/-! ### Cuts -/

/-- A cut is refused (R236). -/
def State.snapBusy (s : State) (c : Nat) : State :=
  (((s.ownDefs c).filter fun d => (s.hdef d).active).map s.hHome).dedup.foldl (fun s die => s.evt (sHst die) 5) s

/-- A cut by the host or of the period, in the order of the cut epochs: refused while the previous one is copied (R236). -/
def State.requestCut (s : State) (c : Nat) (cause : CutCause) (tP : Int) : State :=
  let h := s.hctx c
  if !h.active || h.closing then s
  else if h.copying.isSome then s.snapBusy c
  else
    s.setHctx c { h with
      waiting := h.waiting.filter (fun w => decide (w.tP ≤ tP)) ++ [⟨cause, tP, s.epochOf tP⟩] ++
        h.waiting.filter fun w => decide (tP < w.tP) }

/-- A cut by a Solstice or a stop of the owner at this edge (R236, R240): it takes the place of a cut requested at or after
it, and is refused while a copy runs. `tT` is the epoch it carries. DEDUCED (log entry 42). -/
def State.forceCut (s : State) (c : Nat) (cause : CutCause) (tT : Nat) : State :=
  let h := s.hctx c
  if !h.active || h.closing then s
  else if h.copying.isSome then s.snapBusy c
  else s.setHctx c { h with waiting := h.waiting.filter (fun w => decide (w.tP < s.phys)) ++ [⟨cause, s.phys, tT⟩] }

/-- The end of a period: a cut at its edge (R236). -/
def State.periodicCut (s : State) (c : Nat) : State :=
  let h := s.hctx c
  let per := s.hPeriod c
  match h.firstP with
  | some p =>
    let t := p + 2000 * ((h.periods + 1) * per : Nat)
    if decide (per ≠ 0) && h.active && !h.closing && decide (t ≤ s.phys) then
      (s.setHctx c { h with periods := h.periods + 1 }).requestCut c .periodic t
    else s
  | none => s

/-- Handling has passed a cut in a definition (R237). -/
def State.cutPassed (s : State) (d : Nat) (t : Int) : Bool :=
  let lim := t - 1 + s.hLag d
  s.histPast (s.hStart d) (s.hHome d) lim && s.histPast (s.hStop d) (s.hHome d) lim &&
    !((s.hdef d).inq.any fun x => decide (x.phys < t)) && !((s.hdef d).stopq.any fun x => decide (x.phys < t))

/-- A definition at a cut: what the block will show, and what the next interval starts from (R236, R237). Starts that have expired by
then count (R230); at a Solstice the others are emptied (R240). -/
def State.cutDef (s : State) (d : Nat) (clears : Bool) (p : Int) : State :=
  let s1 := (s.histEpoch d p).histExpire d p
  let h := s1.hdef d
  s1.setHdef d { h with
    snap := h.cnt, snapBins := h.bins, snapFlags := h.flags, snapLost := h.lost
    cnt := h.postCnt, postCnt := [0, 0, 0, 0, 0, 0, 0, 0]
    bins := if clears then [] else h.bins, flags := h.postFlags, lost := h.postLost, postFlags := 0, postLost := 0 }

/-- SOLS and WRAP of a die's block whose interval ends at an instant (R239, R409). -/
def State.blockMarks (s : State) (h : HCtx) (die : Nat) (p : Int) : Nat :=
  let o := s.originOf (p - 1)
  let m := flagIf (decide (Sparse.get 0 h.seen die < o)) fSOLS |||
    flagIf (decide (wrapsIn o h.prevP < wrapsIn o (p - 1))) fWRAP
  joinMarks (Sparse.get 0 h.owed die) m

/-- A stopped owner whose last copy is done: its definitions take no more stamps (R240). -/
def State.histRelease (s : State) (c : Nat) : State :=
  let h := s.hctx c
  if h.closing && h.waiting.isEmpty && h.copying.isNone && h.active then
    let ds := s.ownDefs c
    let s1 := s.each ds fun s d => s.setHdef d {}
    let s2 := s1.each [0, 1] fun s die =>
      let e := s.heng die
      s.setHeng die { e with lines := e.lines.filter fun l => !ds.contains (l / 2 ^ 25) }
    s2.setHctx c { bufsA := h.bufsA, bufsB := h.bufsB, seen := h.seen, owed := h.owed }
  else s

/-- Handling passes T_cut and the copiers start: a free buffer on each die, or the block is discarded (R237). What marks a discarded
block carried, the die's next carries (R409). -/
def State.cut (s : State) (c : Nat) : State :=
  let h := s.hctx c
  match h.waiting with
  | w :: r =>
    let ds := (s.ownDefs c).filter fun d => (s.hdef d).active
    if h.copying.isNone && ds.all fun d => s.cutPassed d w.tP then
      let dies := [0, 1].filter fun die => ds.any fun d => decide (s.hHome d = die)
      let sends := cutSends w.cause
      let full := dies.filter fun die => decide (s.hNbuf c ≤ if die = 0 then h.bufsA else h.bufsB)
      let lost := if sends then full else []
      let sent := if sends then dies.filter fun die => !lost.contains die else []
      let s1 := s.each ds fun s d => s.cutDef d (s.cutClears c w.cause) w.tP
      let s2 := s1.setHctx c { h with
        waiting := r, copying := if dies.isEmpty then none else some w, dies := dies, discard := lost
        seq := (s.tabw (oHctx c 4)).toNat
        copyFlags := dies.map fun die => (die, s.blockMarks h die w.tP ||| flagIf (cutTrunc w.cause) fTRUNC)
        fromT := h.prevT
        prevT := if w.cause = .solstice then 0 else w.tT
        prevP := w.tP
        bufsA := h.bufsA + b2n (sent.contains 0)
        bufsB := h.bufsB + b2n (sent.contains 1)
        seen := sent.foldl (fun m die => Sparse.set 0 m die (s.originOf (w.tP - 1))) h.seen
        owed := lost.foldl (fun m die => Sparse.set 0 m die (s.blockMarks h die w.tP))
          (sent.foldl (fun m die => Sparse.set 0 m die 0) h.owed) }
      let s3 := if sends then s2.setTabN (oHctx c 4) ((s.tabw (oHctx c 4)).toNat + 1) else s2
      (s3.each lost fun s die => (s.tbump (oHctx c 5) 1).evt (sHst die) 1).histRelease c
    else s
  | [] => s

/-- The bytes of a snapshot block of a die (R238, R239). -/
def State.snapBlock (s : State) (c die : Nat) (h : HCtx) (w : Cut) : List Byte :=
  let ds := (s.ownDefs c).filter fun d => (s.hdef d).active && decide (s.hHome d = die)
  let lines (d : Nat) := cdiv (s.hNbins d) 16
  let bytes := 128 + (ds.map fun d => 64 + 64 * lines d).sum + 64
  let lost := ds.foldl (fun m d => m ||| (s.hdef d).snapLost) 0
  let fl := ds.foldl (fun m d => m ||| (s.hdef d).snapFlags) (Sparse.get 0 h.copyFlags die) ||| flagIf (decide (lost ≠ 0)) fLOST
  let any (k : Nat) := ds.any fun d => decide (0 < (s.hdef d).snap.getD k 0)
  let st := b2n (s.cutClears c w.cause) + 2 * b2n (decide (w.cause = .solstice)) + 4 * b2n (decide (w.cause = .stop)) +
    8 * b2n (any 2) + 16 * b2n (any 1)
  let head := [c * 2 ^ 55 + die * 2 ^ 54 + fl % 256 * 2 ^ 42 + st * 2 ^ 32 + h.seq % 2 ^ 32, h.fromT, w.tT,
    ds.length + bytes * 2 ^ 32, lost, 0, 0, 0, 0, 0, 0, 0, 0, 0, 0, 0]
  let defn (d : Nat) : List Byte :=
    let x := s.hdef d
    let n (k : Nat) := x.snap.getD k 0 % 2 ^ 32
    let pair (a b : Nat) := n a + n b * 2 ^ 32
    ([d + s.hMode d * 2 ^ 16 + s.hK d * 2 ^ 18 + s.hNbins d * 2 ^ 32, unsign 64 (s.hWmin d), pair 0 1, pair 2 3, pair 4 5,
      pair 6 7, 0, 0].map w64).flatten ++
    ((List.range (16 * lines d)).map fun i => w32 (Sparse.get 0 x.snapBins i)).flatten
  (head.map w64).flatten ++ (ds.map defn).flatten ++
    ([h.seq % 2 ^ 32 + 0x4853_4E50 * 2 ^ 32, bytes % 2 ^ 32, 0, 0, 0, 0, 0, 0].map w64).flatten

/-- Held increments join the bins that the copier has passed, with their flags and lost tiles, and their lines are as any other
(R237, R239); what a full bin can not take is lost (R231). -/
def State.mergePost (s : State) (d : Nat) : State :=
  let h := s.hdef d
  let room (e : Nat × Nat) : Nat := min e.2 (2 ^ 32 - 1 - Sparse.get 0 h.bins e.1)
  let lost := (h.post.map fun e => e.2 - room e).sum
  let s1 := s.setHdef d { h with
    bins := h.post.foldl (fun m e => Sparse.set 0 m e.1 (Sparse.get 0 m e.1 + room e)) h.bins, post := []
    flags := h.flags ||| h.postFlags, lost := h.lost ||| h.postLost, postFlags := 0, postLost := 0, snapBins := [] }
  let e := s1.heng (s.hHome d)
  let s2 := s1.setHeng (s.hHome d) { e with
    lines := (e.lines.map fun l => if l / 2 ^ 25 = d then l / 2 * 2 else l).dedup }
  if lost = 0 then s2 else s2.histSat d lost s.phys

/-- A die's copier finishes: its block is complete and queued, or was discarded (R237, R238). -/
def State.snapDone (s : State) (c die : Nat) : State :=
  let h := s.hctx c
  match h.copying with
  | some w =>
    if h.dies.contains die then
      let sent := cutSends w.cause && !h.discard.contains die
      let s1 := if sent then
          let s1 := (s.hand (s.hDma c) { kind := 3, body := s.snapBlock c die h w, src := .snapshot c die }).evt (sHst die) 0
          if cutTrunc w.cause then s1.evt (sHst die) 7 else s1
        else s
      let s2 := s1.each ((s1.ownDefs c).filter fun d => decide (s1.hHome d = die)) fun s d => s.mergePost d
      let rest := h.dies.erase die
      (s2.setHctx c { h with dies := rest, copying := if rest.isEmpty then none else some w }).histRelease c
    else s
  | none => s

/-! ### Start, stop and Solstice -/

/-- The offsets of a context's definitions on a die, in bins, in ascending order (R231). -/
def defBases (s : State) : List Nat → Nat → List (Nat × Nat)
  | [], _ => []
  | d :: r, b => (d, b) :: defBases s r (b + 16 * cdiv (s.hNbins d) 16)

/-- The status words of a context's histogram entry and definitions are cleared at its start (R241, R242). -/
def State.histClear (s : State) (c : Nat) : State :=
  s.each ((s.ownDefs c).flatMap (fun d => (List.range 8).map fun k => oHdef d (8 + k)) ++ (List.range 4).map fun k => oHctx c (4 + k))
    fun s off => s.setTabN off 0

/-- The owner starts: definitions taken up, with BASE, and the bins and pages held (R226, R231). -/
def State.histBegin (s : State) (c pages : Nat) : State :=
  let s := s.histClear c
  if s.tbit (oHctx c 0) 31 then
    let ds := s.ownDefs c
    let s1 := s.each ds fun s d => s.setHdef d { active := true }
    let bases := [0, 1].flatMap fun die => defBases s (ds.filter fun d => decide (s.hHome d = die)) 0
    let s2 := s1.each bases fun s e => s.setTabN (oHdef e.1 8) e.2
    let bins := (ds.map fun d => 16 * cdiv (s.hNbins d) 16).sum
    let s3 := (s2.setTabN (oHctx c 6) bins).setTabN (oHctx c 7) pages
    let h := s.hctx c
    s3.setHctx c { active := true, prevT := s.epoch, prevP := s.phys, fromT := s.epoch, bufsA := h.bufsA, bufsB := h.bufsB
                   seen := h.seen, owed := h.owed }
  else s

/-- The owner stops: its final cut at this edge (R236, R240). -/
def State.histCtxStop (s : State) (c : Nat) : State :=
  if (s.hctx c).active then
    let s1 := s.forceCut c .stop s.epoch
    (s1.setHctx c { s1.hctx c with closing := true }).histRelease c
  else s

/-! ### Commands -/

/-- HIST_STAMP (R229). -/
def execHistStamp (t : Nat) (d : Fin 65536) : State → Host.Outcome State Fault Refusal := 
  command t fun s => s.asKept (oHdef d 0) 6 fun s => s.histStamp d

/-- HIST_MISS_WRITEBACK (R233). -/
def execHistMissWriteback (t : Nat) (die : Fin 2) : State → Host.Outcome State Fault Refusal :=
  command t fun s => s.missWriteback die

/-- PERIODIC_CUT (R236). -/
def execPeriodicCut (t : Nat) (c : Fin 512) : State → Host.Outcome State Fault Refusal := command t fun s => s.periodicCut c

end Sys2Proof.Machine
end

