-- ==== Sys2Proof/Machine/Records.lean ====
section
/-! DEFINITION. Acquisition and records (15_acquisition.md): the writer's handling of items in TIME order, segments, records and
their bytes, the pre-trigger ring, measurements, area and messages, overflow. A capture that has to overflow is marked
`full`; the commands that can mark one settle it (Captures.lean), since the context stops with it. What it reads by inference or chooses: log entry 47. -/

namespace Sys2Proof.Machine

/-- Fields of a record context entry (R309). -/
def State.recEn (s : State) (c : Nat) : Bool := s.tbit (oRec c 0) 31
def State.recStream (s : State) (c : Nat) : Bool := s.tbit (oRec c 0) 30
def State.recDma (s : State) (c : Nat) : Nat := s.tfld (oRec c 0) 23 6
def State.recRing (s : State) (c : Nat) : Nat := 2 ^ s.tfld (oRec c 0) 18 5
def State.recNsrc (s : State) (c : Nat) : Nat := s.tfld (oRec c 0) 13 5
def State.recBinEn (s : State) (c : Nat) : Bool := s.tbit (oRec c 0) 12
def State.recSegCnt (s : State) (c : Nat) : Nat := s.tfld (oRec c 3) 16 16
def State.recPre (s : State) (c : Nat) : Nat := (s.tabw (oRec c 1)).toNat
def State.recPost (s : State) (c : Nat) : Nat := (s.tabw (oRec c 2)).toNat

/-- Area pages are 2 MiB (R307). -/
abbrev areaPage : Nat := 2 ^ 21

/-- Whether `n` more bytes fit the free part of the area, excluding the reserve (R306). -/
def State.capRoom (s : State) (c n : Nat) : Bool :=
  decide ((s.cap c).used + n + (96 + 128 * s.recNsrc c) ≤ s.tfld (oRec c 0) 0 12 * areaPage)

/-- The capture has to overflow at this edge (R306). -/
def State.capFull (s : State) (c : Nat) : State := s.setCap c { s.cap c with full := true }

/-! ### Messages -/

/-- Whether a message is the open one of a context's record. -/
def Msg.openOf (m : Msg) (c : Nat) : Bool := m.more && decide (m.src = .record c)

/-- Bytes added to the open message of a record, and its end marked. -/
def Msg.grow (m : Msg) (c : Nat) (b : List Byte) (ends : Bool) : Msg :=
  if m.openOf c then { m with body := m.body ++ b, more := !ends } else m

/-- Bytes written to the area: in SEGMENTED mode they join the record's message, which leaves as it is written (R307); in
STREAM mode they gather for the next message (R295). -/
def State.capPut (s : State) (c : Nat) (b : List Byte) : State :=
  let k := s.cap c
  let s1 := s.setCap c { k with
    used := if k.mute then k.used else k.used + b.length
    written := k.written + b.length
    rec' := k.rec'.map fun r => { r with bytes := r.bytes + b.length }
    msg := if s.recStream c then k.msg ++ b else []
    msgFrom := if k.msg.isEmpty then s.now else k.msgFrom }
  if s.recStream c || k.mute then s1
  else
    let d := s1.dmaCh (s.recDma c)
    if (d.handed ++ d.queue).any fun m => m.openOf c then
      s1.setDma (s.recDma c) { d with
        handed := d.handed.map fun m => m.grow c b false, queue := d.queue.map fun m => m.grow c b false }
    else s1.hand (s.recDma c) { kind := 1, body := b, src := .record c, more := true }

/-- The open message of a record ends with it. -/
def State.capEndMsg (s : State) (c : Nat) : State :=
  let d := s.dmaCh (s.recDma c)
  (s.setCap c { s.cap c with mute := false }).setDma (s.recDma c) { d with
    handed := d.handed.map fun m => m.grow c [] true, queue := d.queue.map fun m => m.grow c [] true }

/-- A STREAM message ends and is handed to the channel (R295). -/
def State.capHand (s : State) (c : Nat) : State :=
  let k := s.cap c
  if k.msg.isEmpty then s
  else (s.setCap c { k with msg := [] }).hand (s.recDma c) { kind := 1, body := k.msg, src := .record c }

/-- At an item boundary a STREAM message ends at the end of an area page, or once POST coarse periods have passed since its
first byte (R295). -/
def State.capCut (s : State) (c : Nat) : State :=
  let k := s.cap c
  let page := decide ((k.written - k.msg.length) / areaPage < k.written / areaPage)
  let post := decide (s.recPost c ≠ 0) && decide (k.msgFrom + s.recPost c ≤ s.now)
  if s.recStream c && (page || post) then s.capHand c else s

/-! ### Headers and items -/

/-- The record header (R304). -/
def State.recHeader (s : State) (c rseq : Nat) (start : Int) : List Byte :=
  let w := (s.cap c).w
  let words : List Nat :=
    [c * 2 ^ 55 + b2n (s.recStream c) * 2 ^ 32 + rseq, s.stampTime start, s.recPre c + s.recPost c * 2 ^ 32,
     s.recSegCnt c + s.recNsrc c * 2 ^ 16 + b2n (s.recBinEn c) * 2 ^ 21 + b2n (s.cap c).overlap * 2 ^ 22 + w * 2 ^ 32 +
       s.tfld (oCtx c 0) 25 2 * 2 ^ 57,
     s.tfld (oRec c 4) 0 12 + s.tfld (oRec c 3) 0 13 * 2 ^ 16, 0, 0, 0]
  (words.map w64).flatten

/-- The segment header (R304). -/
def State.segHeader (s : State) (c num : Nat) (g : Seg) : List Byte :=
  let st := b2n g.forced + 2 * b2n g.overlapPre + 4 * b2n g.retrigOpen
  let words : List Nat :=
    [c * 2 ^ 55 + 2 ^ 51 + g.trig.flags % 256 * 2 ^ 42 + st * 2 ^ 32 + num, g.trig.time, g.word2.getD g.trig.word1,
     s.stampTime g.tS, g.accepted, 0, 0, 0]
  (words.map w64).flatten

/-- The first segment held by the writer changed. -/
def Cap.onHead (k : Cap) (f : Seg → Seg) : Cap :=
  match k.segs with
  | g :: r => { k with segs := f g :: r }
  | [] => k

/-- An item of 16 bytes written: to the record, and counted in the open segment unless it is the SEG_END marker. -/
def State.capWrite (s : State) (c time word1 : Nat) (count : Bool) : State :=
  let fl := word1 / 2 ^ 42 % 256
  let s1 := s.capPut c (w64 time ++ w64 word1)
  let k := s1.cap c
  let k1 := { k with rec' := k.rec'.map fun r => { r with union := r.union ||| fl } }
  let k2 := if count then k1.onHead fun g =>
      if g.headed then { g with items := g.items + 1, union := g.union ||| fl } else g
    else k1
  (s1.setCap c k2).bump64 sAcq (if s.recDie c = 0 then 0x064 else 0x06C) 1

/-- The second word of a marker (R303). -/
def markerWord (flags code cause count : Nat) : Nat :=
  flags % 256 * 2 ^ 42 + 3 * 2 ^ 40 + code * 2 ^ 36 + cause * 2 ^ 32 + min count (2 ^ 32 - 1)

/-! ### Measurements -/

/-- The accumulators of a source after one more stamp (R305): they restart across a Solstice. -/
def SrcMeas.take (m0 : SrcMeas) (both width : Bool) (sols : List Int) (x : Stamp) : SrcMeas :=
  let m := if decide (0 < m0.count) && sols.any fun a => decide (m0.firstP < a) && decide (a ≤ x.phys) then {} else m0
  let m1 := if m.count = 0 then { m with first := x.time, firstP := x.phys } else m
  let m2 := { m1 with
    count := m1.count + 1, last := x.time, prev := some x.time
    ivlSum := match m1.prev with
      | some p => m1.ivlSum + m64 ((x.time : Int) - p)
      | none => m1.ivlSum
    ivls := if m1.prev.isSome then m1.ivls + 1 else m1.ivls }
  if x.rising then
    let m3 := if m2.pts.isEmpty then { m2 with seq0 := x.seq, time0 := x.time } else m2
    let n := (x.seq + 2 ^ 32 - m3.seq0) % 2 ^ 32
    { m3 with pts := m3.pts ++ [(if both then n / 2 else n, m64 ((x.time : Int) - m3.time0))], rise := some x.time }
  else
    match m2.rise with
    | some r =>
      if width then { m2 with widthSum := m2.widthSum + m64 ((x.time : Int) - r), widths := m2.widths + 1, rise := none }
      else { m2 with rise := none }
    | none => m2

/-- A recorded stamp enters the measurements of every listed source it is of (R305). -/
def State.capMeasure (s : State) (c : Nat) (x : Stamp) : State :=
  let k := s.cap c
  let width := decide (4096 ≤ x.src) && decide (x.src < 4160) && decide (s.rfld (sTin (x.src - 4096)) 0x014 4 2 = 2)
  let at' := ((s.recSrcs c).zipIdx.filter fun e => decide (e.1 = x.src)).map (·.2)
  s.setCap c { k with rec' := k.rec'.map fun r => { r with
    meas := at'.foldl (fun m j =>
      Sparse.put m j ((Sparse.get ({} : SrcMeas) m j).take (s.bothSlopes x.src) width r.sols x)) r.meas } }

/-- Intervals and widths are not formed across a segment boundary (R305). -/
def Rec.segBreak (r : Rec) : Rec := { r with meas := r.meas.map fun e => (e.1, { e.2 with prev := none, rise := none }) }

/-- A quotient as binary64, or NaN where it cannot be formed (R305). -/
def b64Ratio (n d : Nat) : Nat := if d = 0 then b64NaN else ratToB64 (n : Int) d

/-- The 128-byte block of a source (R305). FIRST and LAST of a source with no item are free values. -/
def State.measBlock (s : State) (src : Nat) (m : SrcMeas) (span : Nat) : List Byte :=
  let f := if 4096 ≤ src ∧ 2 ≤ m.pts.length then fit m.pts else none
  let (per, freq, edges) := match f with
    | some (b, _) =>
      (ratToB64 b (2 ^ 64), (match freqOf b with
        | some q => ratToB64 q (2 ^ 64)
        | none => b64NaN), m.pts.length)
    | none => (b64NaN, b64NaN, 0)
  let words : List Nat :=
    [src, m.count, if m.count = 0 then s.freeAt 0 64 else m.first, if m.count = 0 then s.freeAt 1 64 else m.last,
     b64Ratio (m.count * 4_000_000_000_000) span, b64Ratio m.ivlSum m.ivls, per, freq, b64Ratio m.widthSum m.widths,
     m.ivls, edges, m.widths, 0, 0, 0, 0]
  (words.map w64).flatten

/-! ### Records -/

/-- A record after a segment that ends at an instant (R305): the time its segments span counts from the last Solstice. -/
def Rec.segEnd (r : Rec) (g : Seg) (e : Int) : Rec :=
  let a := ((r.sols.filter fun a => decide (a ≤ e)).foldl max g.tS)
  { r with
    closed := r.closed + 1, lastE := e
    span := (if r.sols.any fun x => decide (r.lastE < x) && decide (x ≤ e) then 0 else r.span) + (e - max g.tS a) }

/-- The record closes: measurements in list order and the trailer (R304, R305). -/
def State.recClose (s : State) (c : Nat) (ovf stopped : Bool) : State :=
  let k := s.cap c
  match k.rec' with
  | some r =>
    let s1 := s.each (s.recSrcs c).zipIdx fun s e =>
      let m := Sparse.get ({} : SrcMeas) r.meas e.2
      let m1 := if r.sols.any fun a => decide (m.firstP < a) && decide (a ≤ r.lastE) then ({} : SrcMeas) else m
      let m2 := if m.count = 0 then {} else m1
      let s1 := s.capPut c (s.measBlock e.1 m2 r.span.toNat)
      if m2.count = 0 then { s1 with freeCtr := s1.freeCtr + 2 } else s1
    let rseq := (s.tabw (oRec c 14)).toNat
    let bytes := ((s1.cap c).rec'.map (·.bytes)).getD 0 + 64
    let short := stopped || (!s.recStream c && decide (r.closed < s.recSegCnt c))
    let st := b2n ovf + 2 * b2n stopped + 4 * b2n r.preLost + 8 * b2n (r.sols.any fun a => decide (a ≤ r.lastE))
    let words : List Nat :=
      [c * 2 ^ 55 + 2 * 2 ^ 51 + (r.union ||| flagIf short fTRUNC) % 256 * 2 ^ 42 + st * 2 ^ 32 + rseq,
       r.closed + 0x5243_4452 * 2 ^ 32, bytes, s.stampTime r.lastE, 0, 0, 0, 0]
    let s2 := s1.capPut c (words.map w64).flatten
    let s3 := if s.recStream c then s2.capHand c else s2.capEndMsg c
    let s4 := s3.setCap c { s3.cap c with rec' := none }
    ((s4.setTabN (oRec c 14) (rseq + 1)).bump64 sAcq 0x074 1).evt sAcq 0
  | none => s

/-- A record that is complete closes, where its closing bytes have room outside the reserve; else the capture overflows (R306). -/
def State.recEnd (s : State) (c : Nat) (stopped : Bool) : State :=
  if (s.cap c).rec'.isSome && !s.capRoom c (64 + 128 * s.recNsrc c) then s.capFull c else s.recClose c false stopped

/-- A stopped capture ends once its last segment has closed (R308). -/
def State.capFinish (s : State) (c : Nat) : State :=
  let k := s.cap c
  if k.stopping && k.active && k.segs.isEmpty && !k.full then
    let s1 := s.recEnd c true
    let k1 := s1.cap c
    if k1.full then s1 else s1.setCap c { used := k1.used, written := k1.written }
  else s

/-- A record opens with its header (R304). -/
def State.recOpen (s : State) (c : Nat) (start : Int) : State :=
  let a : Int := 2000 * (s.solEdge : Int)
  let s1 := s.setCap c { s.cap c with rec' := some { lastE := start, sols := if start < a then [a] else [] } }
  s1.capPut c (s1.recHeader c (s.tabw (oRec c 14)).toNat start)

/-- Items that a released bin stores in a segment (R302): the counts that differ from the last one there. -/
def binItems (g : Seg) (i : Item) : List (Nat × Nat) :=
  let rs := (List.range 4096).filter fun r =>
    decide (Sparse.get 0 i.counts r ≠ Sparse.get 0 g.counts r) && !i.gone.contains r
  rs.map fun r => (r, Sparse.get 0 i.counts r)

/-- The second word of a count item (R303): STATION_LOST from the tile-lost mask. -/
def countWord (i : Item) (e : Nat × Nat) : Nat :=
  let fl := i.word1 / 2 ^ 42 % 256 ||| flagIf (decide (i.lost / 2 ^ (e.1 / 64) % 2 = 1)) fLOST
  e.1 * 2 ^ 51 + fl * 2 ^ 42 + 2 ^ 40 + e.2 * 2 ^ 32 + i.word1 % 2 ^ 32

/-- An item of the open segment is stored (R302). Where the area has no room the rest is left over. -/
def State.capStore (s : State) (c : Nat) (i : Item) : State × List (Nat × Nat) :=
  if i.kind = 1 then
    match (s.cap c).segs with
    | g :: _ =>
      (binItems g i).foldl (fun (a : State × List (Nat × Nat)) e =>
        if !a.2.isEmpty || !a.1.capRoom c 16 then (a.1, a.2 ++ [e])
        else
          let s1 := a.1.capWrite c i.time (countWord i e) true
          ((s1.setCap c ((s1.cap c).onHead fun g => { g with counts := Sparse.set 0 g.counts e.1 e.2 })).capCut c, [])) (s, [])
    | [] => (s, [])
  else if s.capRoom c 16 then
    if i.kind = 0 then
      let k := s.cap c
      let (x, owed) := passOwed k.owed i.stamp
      ((((s.setCap c { k with owed := owed }).capWrite c x.time x.word1 true).capMeasure c x).capCut c, [])
    else ((s.capWrite c i.time i.word1 true).capCut c, [])
  else (s, [(i.src, 0)])

/-- The head segment's header and pre-trigger part are written when handling passes t_trig (R301, R304). -/
def State.segHead (s : State) (c : Nat) : State :=
  match (s.cap c).segs with
  | g :: _ =>
    let s0 := if (s.cap c).rec'.isSome then s
      else if s.capRoom c 64 then s.recOpen c g.tS else s.capFull c
    if (s0.cap c).full then s0
    else if !s0.capRoom c 64 then s0.capFull c
    else
      let num := ((s0.cap c).rec'.map (·.closed)).getD 0
      let s1 := s0.capPut c (s0.segHeader c num g)
      let gone := (s1.cap c).lostN.filter fun e => decide (g.preFrom ≤ e.phys) && decide (e.phys < g.trig.phys)
      let s2 := s1.setCap c { (s1.cap c).onHead fun g => { g with headed := true } with
        owed := gone.foldl (fun l e => if e.flags = 0 then l else Sparse.set 0 l e.src (joinMarks (owedOf l e.src) e.flags)) (s1.cap c).owed }
      let lost := (gone.map (·.n)).sum
      let s3 := if lost = 0 then s2
        else if !s2.capRoom c 16 then s2.capFull c
        else
          let s3 := s2.capWrite c (s.stampTime g.tS) (markerWord 0 3 0 lost) true
          let s4 := s3.setCap c { s3.cap c with rec' := (s3.cap c).rec'.map fun r => { r with preLost := true } }
          (((s4.tbump (oRec c 15) lost).bump64 sAcq 0x084 lost).evt sAcq 2).capCut c
      let inside (i : Item) : Bool := decide (g.preFrom ≤ i.phys) && !(g.tE.any fun e => decide (e ≤ i.phys))
      s3.each ((s3.cap c).ring.filter inside) fun s i =>
        if (s.cap c).full then s
        else
          let (s1, left) := s.capStore c i
          if left.isEmpty then s1 else s1.capFull c
  | [] => s

/-- The head segment closes with its SEG_END marker when handling passes t_e (R298, R303); the record closes with its last
segment. -/
def State.segClose (s : State) (c : Nat) (g : Seg) (e : Int) : State :=
  if !s.capRoom c 16 then s.capFull c
  else
    let fl := g.union ||| flagIf (decide (2 ≤ g.cause)) fTRUNC
    let s1 := s.capWrite c (s.stampTime e) (markerWord fl 1 g.cause g.items) false
    let k := s1.cap c
    let s2 := (s1.setCap c { k with
      segs := k.segs.drop 1
      rec' := k.rec'.map fun r => r.segBreak.segEnd g e }).report c 7 0 1
    let s3 := s2.capCut c
    let n := ((s3.cap c).rec'.map (·.closed)).getD 0
    let s4 := if !s.recStream c && decide (s.recSegCnt c ≤ n) then s3.recEnd c ((s3.cap c).stopping && (s3.cap c).segs.isEmpty && decide (g.cause = 3)) else s3
    s4.capFinish c

/-! ### Handling -/

/-- Every bin that starts by an instant has been released to a capture that bins (R297). -/
def State.binsPast (s : State) (c : Nat) (p : Int) : Bool :=
  let q := s.tfld (oCtx c 0) 25 2
  let k := s.plane q
  if !s.recBinEn c || !k.active then true
  else
    match k.old with
    | (o, _, g) :: _ => decide (p < 2000 * (o : Int) + (g.next * s.planeW q : Nat))
    | [] => decide (p < 2000 * (s.solEdge : Int) + (k.grid.next * s.planeW q : Nat))

/-- Every item up to an instant has reached the writer (R297). -/
def State.capPast (s : State) (c : Nat) (p : Int) : Bool :=
  (s.recSrcs c).all (fun x => s.histPast x (s.recDie c) p) && s.binsPast c p && decide (p < s.phys)

/-- A segment's header is written after the horizon has passed a receiver's trigger, so that the trigger's flags are final (R186, R187,
R308). -/
def State.trigPast (s : State) (g : Seg) : Bool :=
  decide (4096 ≤ g.trig.src) || g.forced || g.word2.isSome || decide (g.trig.phys + s.horizon < s.phys)

/-- Every header due by an instant can be written. -/
def State.headsPast (s : State) (c : Nat) (p : Int) : Bool :=
  (s.cap c).segs.all fun g => g.headed || decide (p < g.trig.phys) || s.trigPast g

/-- Headers and closes that come before an item at an instant, oldest segment first. -/
def State.capAdvance (s : State) (c : Nat) (p : Int) : State :=
  s.each (List.range (2 * (s.cap c).segs.length)) fun s _ =>
    let k := s.cap c
    if k.full || !k.active then s
    else
      match k.segs with
      | g :: _ =>
        if !g.headed then (if g.trig.phys ≤ p then s.segHead c else s)
        else
          match g.tE with
          | some e => if e ≤ p then s.segClose c g e else s
          | none => s
      | [] => s

/-- The first `k` items of a ring go, and what that overwrites (R301). A released bin goes change by change. -/
def ringTrim : Nat → List Item → List Item × List RingLoss
  | _, [] => ([], [])
  | 0, i :: r => (i :: r, [])
  | k + 1, i :: r =>
    let lost (n : Nat) : RingLoss :=
      { phys := i.phys, n := n, src := i.src, flags := if i.kind = 0 then i.stamp.flags &&& (fSOLS ||| fWRAP) else 0 }
    if i.n ≤ k + 1 then
      let (r', l) := ringTrim (k + 1 - i.n) r
      (r', lost i.n :: l)
    else ({ i with n := i.n - (k + 1), chg := i.chg.drop (k + 1), gone := i.gone ++ i.chg.take (k + 1) } :: r, [lost (k + 1)])

/-- The ring after one more handled item: the oldest go, and are remembered (R301). -/
def ringPush (cap : Nat) (k : Cap) (i : Item) : Cap :=
  let r := k.ring ++ [i]
  let (ring, lost) := ringTrim ((r.map (·.n)).sum - cap) r
  { k with ring := ring, lostN := k.lostN ++ lost }

/-- RECORD_ITEM (R297): what is due before the oldest queued item, and the item, into the open segment and the ring. -/
def State.recordItem (s : State) (c : Nat) : State :=
  let s := s.crossDrain (s.recDie c)
  let k := s.cap c
  if !k.active || k.full then s
  else
    match k.inq with
    | i :: r =>
      if s.capPast c i.phys && s.headsPast c i.phys then
        let s1 := s.capAdvance c i.phys
        let k1 := s1.cap c
        if k1.full || !k1.active then s1
        else
          let inside := match k1.segs with
            | g :: _ => g.headed && decide (g.tS ≤ i.phys) && (match g.tE with
              | some e => decide (i.phys < e)
              | none => true)
            | [] => false
          let (s2, left) := if inside then s1.capStore c i else (s1, [])
          let k2 := s2.cap c
          if left.isEmpty then
            s2.setCap c (ringPush (s.recRing c) { k2 with inq := r } i)
          else s2.setCap c { k2 with full := true, inq := { i with n := left.length } :: r }
      else s
    | [] =>
      match k.segs with
      | g :: _ => if !g.headed && s.capPast c (g.trig.phys - 1) && s.trigPast g then s.segHead c else s
      | [] => s

/-- SEGMENT_POST_END (R298): the head segment closes once handling has passed its end. -/
def State.segmentEnd (s : State) (c : Nat) : State :=
  let s := s.crossDrain (s.recDie c)
  let k := s.cap c
  match k.segs with
  | g :: _ =>
    match g.tE with
    | some e =>
      if k.active && !k.full && s.capPast c (e - 1) && s.headsPast c e && !(k.inq.any fun i => decide (i.phys < e)) then s.capAdvance c e else s
    | none => s
  | [] => s

/-! ### Triggers -/

/-- 240 coarse periods from t_e to t_r (R299), in qps. -/
abbrev rearmLen : Int := 480_000

/-- A trigger at an instant finds the pre-trigger part not filled since re-arm (R263, R299). -/
def State.capEarly (s : State) (c : Nat) (p : Int) : Bool :=
  let k := s.cap c
  if !k.active || s.recStream c then false
  else
    let a : Int := 2000 * (s.solEdge : Int)
    let tS := p - 2000 * (s.recPre c : Int)
    if !k.opened then decide (tS < max k.startP a)
    else
      match k.tR with
      | none => true
      | some r => decide (p < r) || (if k.overlap then decide (tS < max k.startP a) else decide (tS < max r a))

/-- An accepted trigger opens a segment (R298, R300): a retrigger first closes the open one at its coarse edge. -/
def State.capTrigger (s : State) (c : Nat) (x : Stamp) (word2 : Option Nat) (forced retrig : Bool) : State :=
  let k := s.cap c
  if !k.active || k.stopping || k.full || s.recStream c then s
  else
    let isOpen (g : Seg) : Bool := match g.tE with
      | some e => decide (s.phys < e)
      | none => true
    let was := retrig && k.segs.any isOpen
    let segs := if was then k.segs.map fun g => if isOpen g then { g with tE := some s.phys, cause := 2 } else g else k.segs
    let tR := if was then some (s.phys + rearmLen) else k.tR
    let a : Int := 2000 * (s.solEdge : Int)
    let tS := x.phys - 2000 * (s.recPre c : Int)
    let tE := if s.recPost c = 0 then none else some (x.phys + 2000 * (s.recPost c : Int))
    let g : Seg := {
      trig := x, word2 := word2, tS := tS, preFrom := if a ≤ x.phys then max tS a else tS, tE := tE, forced := forced
      overlapPre := k.opened && (match tR with
        | some r => decide (tS < r)
        | none => true)
      retrigOpen := was, accepted := (s.tabw (oCtx c 33)).toNat }
    s.setCap c { k with segs := segs ++ [g], opened := true, tR := tE.map (· + rearmLen), rearmed := false }

/-- A SEG_END action at its commit edge (R280, R298): at the end of POST there is one close, with CAUSE 1 (R308). -/
def State.capSegEnd (s : State) (c : Nat) : State :=
  let k := s.cap c
  if !k.active || s.recStream c then s
  else
    match k.segs.getLast? with
    | some g =>
      let due := match g.tE with
        | some e => decide (s.phys ≤ e)
        | none => true
      if due then s.setCap c { k with
        segs := k.segs.dropLast ++ [{ g with tE := some s.phys, cause := 1 }], tR := some (s.phys + rearmLen) }
      else s
    | none => s

/-- A TAG action at its commit edge (R280, R296). -/
def State.capTag (s : State) (c tag : Nat) : State :=
  if (s.cap c).active && !(s.cap c).stopping then
    s.capOffer c { kind := 2, src := 0, phys := s.phys, time := s.epoch,
                   word1 := (s.tbFlags &&& 19) * 2 ^ 42 + 2 * 2 ^ 40 + tag % 2 ^ 16 }
  else s

/-- The context re-arms at t_r and reads `ACQ.OVERLAP` (R299, R309). -/
def State.capRearm (s : State) (c : Nat) : State :=
  let k := s.cap c
  match k.tR with
  | some r =>
    if k.active && !k.rearmed && decide (r ≤ s.phys) then
      s.setCap c { k with rearmed := true, overlap := s.rbit sAcq (0x018 + 4 * (c / 32)) (c % 32) }
    else s
  | none => s

/-! ### Start, stop, overflow, Solstice -/

/-- A capture begins at its context's start (R293, R309). A STREAM capture opens its record and its one segment at once. -/
def State.capStart (s : State) (c : Nat) : State :=
  let s1 := ((s.setTabN (oRec c 13) 0).setTabN (oRec c 14) 0).setTabN (oRec c 15) 0
  if s.recEn c then
    let s2 := s1.setCap c {
      active := true, startP := s.phys, overlap := s.rbit sAcq (0x018 + 4 * (c / 32)) (c % 32)
      w := s.rfld (sBin (s.tfld (oCtx c 0) 25 2)) 0x014 0 25 }
    if s.recStream c then
      let x : Stamp := ⟨0, s.phys, s.epoch, false, s.tbFlags &&& 19, 0⟩
      let g : Seg := { trig := x, word2 := some 0, tS := s.phys, preFrom := s.phys, tE := none }
      (s2.setCap c { s2.cap c with segs := [g], opened := true }).segHead c
    else s2
  else s1

/-- The context stops (R308): the open segment closes at the stop edge with CAUSE 3. A segment whose trigger comes later than
the stop never opens. -/
def State.capStop (s : State) (c : Nat) : State :=
  let k := s.cap c
  if !k.active || k.stopping then s
  else
    let segs := k.segs.map fun g => match g.tE with
      | some e => if s.phys < e then { g with tE := some s.phys, cause := 3 } else g
      | none => { g with tE := some s.phys, cause := 3 }
    (s.setCap c { k with stopping := true, segs := segs }).capFinish c

/-- The capture overflows at this edge (R306): its queued items go, and the closing bytes are written, a SEG_END marker among them
whether or not a segment has its header. Where no record is open, a header makes one. The context stops by the caller. DEDUCED (log
entry 47). -/
def State.capOverflow (s : State) (c : Nat) : State :=
  let k := s.cap c
  let lost := (k.inq.map (·.n)).sum
  let s0 := s.setCap c { k with inq := [], full := false, ovf := true }
  let s1 := if k.rec'.isSome then s0 else s0.recOpen c s.phys
  let s2 := s1.capWrite c s.epoch (markerWord 0 2 0 lost) true
  let mark (s : State) (e : Int) (union items : Nat) : State :=
    s.capWrite c (s.stampTime e) (markerWord (union ||| fTRUNC) 1 4 items) false
  let s3 := match (s2.cap c).segs.find? (·.headed) with
    | some g =>
      let e := match g.tE with
        | some e => min e s.phys
        | none => s.phys
      let s3 := mark s2 e g.union g.items
      s3.setCap c { s3.cap c with rec' := (s3.cap c).rec'.map fun (r : Rec) => r.segEnd g e }
    | none => mark s2 s.phys 0 0
  let s4 := s3.recClose c true false
  let s5 := (((s4.tbump (oRec c 13) 1).bump64 sAcq 0x07C 1).evt sAcq 1).report c 7 2 1
  s5.setCap c { used := (s5.cap c).used, written := (s5.cap c).written, ovf := true }

/-- A Solstice at this edge (R308): captures go on, and an open record notes it. -/
def State.capSolstice (s : State) : State :=
  s.each ((s.caps.filter fun e => e.2.active).map (·.1)) fun s c =>
    let k := s.cap c
    s.setCap c { k with rec' := k.rec'.map fun r => { r with sols := r.sols ++ [s.phys] } }

/-- Bytes whose transfer has completed are free again (R307). -/
def State.capFree (s : State) (c n : Nat) : State := s.setCap c { s.cap c with used := (s.cap c).used - n }

/-- A released bin is offered to a capture (R296, R302): its receivers' counts, as many items as differ from the bin
before. -/
def State.capBin (s : State) (c b orig : Nat) (x : Released) : State :=
  let k := s.cap c
  let w := s.planeW (s.tfld (oCtx c 0) 25 2)
  let p : Int := 2000 * (orig : Int) + (b * w : Nat)
  let lo := s.tfld (oRec c 4) 0 12
  let hi := lo + s.tfld (oRec c 3) 0 13
  let counts := x.counts.filter fun e => decide (lo ≤ e.1) && decide (e.1 < hi)
  let diff := (List.range' lo (hi - lo)).filter fun r => decide (Sparse.get 0 counts r ≠ Sparse.get 0 k.prev r)
  let i : Item := {
    kind := 1, src := lo, phys := p, time := s.stampTime p, n := diff.length, counts := counts, lost := x.lost
    word1 := (s.flagsAt (p / 2000).toNat &&& 19) * 2 ^ 42 + b % 2 ^ 32, chg := diff }
  (s.setCap c { k with prev := counts }).capOffer c i

end Sys2Proof.Machine
end

