-- ==== Sys2Proof/Machine/Admission.lean ====
section
/-! DEFINITION. The checks of the admission engine (R260), in the order of their codes, and what an admitted context is
given. Rates are sums of exact fractions: 1 / W is 4 × 10^12 over W in qps, per second. What it reads by inference or chooses: log entry 43. -/

namespace Sys2Proof.Machine

/-- Reserved source identifiers (R4). -/
def srcReserved (x : Nat) : Bool := decide (4196 < x)

/-- Contexts that hold correlator slices: running ones, and stopped ones whose blocks are not complete (R222). -/
def State.corCtxs (s : State) (mode : Nat) : List Nat := (s.cors.filter fun e => decide (e.2.run = mode)).map (·.1)

/-- Measurement slots that a context owns, ascending (R104, R411). -/
def State.slotsOf (s : State) (c : Nat) : List Nat :=
  ((s.entries (oMeas 0 0) 0x2_0000 128).filter fun e => bit e.2 0 && decide (fld e.2 19 9 = c)).map (·.1)

/-- Enabled beams that a context owns (R195, R411). -/
def State.beamsOf (s : State) (c : Nat) : List Nat := (s.beams.filter fun e => decide (e.2 = c)).map (·.1)

/-- Whether a context uses receiver counts or beams, and so its plane (R180, R258). -/
def State.usesPlane (s : State) (c : Nat) : Bool :=
  s.corEn c || !(s.beamsOf c).isEmpty || (s.recEn c && s.recBinEn c)

/-- The receivers of a context in any use: its stamps and hits, counts and beams. -/
def State.ctxRx (s : State) (c : Nat) : List Nat :=
  let slots := (s.slotsOf c).flatMap fun i => s.mSrcA i :: (if s.mUsesB i then [s.mSrcB i] else [])
  let defs := if s.tbit (oHctx c 0) 31 then (s.ownDefs c).flatMap fun d => [s.hStart d, s.hStop d] else []
  let recs := if s.recEn c then s.recSrcs c ++ s.recRx c else []
  let sels := if s.ctxBit c 27 then
      ((List.range 16).filter fun k => decide (selKind (s.csel c k) = 0)).map fun k => selSrc (s.csel c k) else []
  (slots ++ defs ++ recs ++ sels ++ s.corRx c).filter fun x => decide (x < 4096)

/-! ### Entry checks -/

/-- Code 3: the context entry (R258, R262). -/
def State.entryBad (s : State) (c : Nat) : Bool :=
  let own := s.slotsOf c
  ((List.range 16).any fun k =>
    let v := s.csel c k
    let x := selSrc v
    match selKind v with
    | 0 => srcReserved x
    | 1 => decide (x < 4096) || decide (4160 ≤ x)
    | 2 => !own.contains x
    | _ => false) ||
  (s.ctxBit c 27 && (decide (selKind (s.csel c (s.tfld (oCtx c 0) 17 4)) = 3) ||
    decide (s.tfld (oCtx c 0) 13 4 = 0) || !s.pstV c (s.tfld (oCtx c 0) 13 4)))

/-- The lowest MIN_STAMPS of a mode (R113): FREQ, PHASE, COUNT, WIDTH, INTERVAL. -/
def minStamps (mode : Nat) : Nat := [2, 2, 0, 2, 1].getD mode 0

/-- Code 4: a measurement slot (R104, R108, R133). -/
def State.slotBad (s : State) (i : Nat) : Bool :=
  let m := s.mMode i
  let a := s.mSrcA i
  let nom0 := decide (s.tab64 (oMeas i 8) = 0) && decide (s.tab64 (oMeas i 10) = 0)
  decide (5 ≤ m) || srcReserved a || (s.mUsesB i && srcReserved (s.mSrcB i)) || decide (s.tfld (oMeas i 2) 8 24 = 0) ||
  (decide (s.mGsrc i = 0) && decide (s.mGlen i < 256)) ||
  decide (s.tfld (oMeas i 6) 0 24 < minStamps m) ||
  (decide (m = 3) && !(decide (4096 ≤ a) && decide (a < 4160) && decide (s.rfld (sTin (a - 4096)) 0x014 4 2 = 2))) ||
  ((decide (s.mGsrc i = 1) || decide (s.mGsrc i = 2)) && !s.pageOn (sTin (s.mGtin i))) ||
  (decide (m = 0) && nom0 && decide (s.tfld (oMeas i 7) 0 24 ≠ 0))
def State.measBad (s : State) (c : Nat) : Bool :=
  decide (4 < (s.slotsOf c).length) || (s.slotsOf c).any fun i => s.slotBad i

/-- Whether a channel takes a context's placements (R136). -/
def State.ownsOut (s : State) (c n : Nat) : Bool :=
  decide (s.rfld (sTout n) 0x014 0 2 = 1) && decide (s.rfld (sTout n) 0x014 12 9 = c)

/-- The slots of a context's correlator entry, or all those below 2,048. -/
def State.corSlots (s : State) (c : Nat) : List Nat :=
  ((List.range (s.slotCnt c)).map fun k => s.slotBase c + k).filter fun k => decide (k < 2048)

/-- Code 6: the context's beams and beam slots (R195, R201, R411). -/
def State.beamBad (s : State) (c : Nat) : Bool :=
  ((s.beamsOf c).any fun b => decide (24 < s.tfld (oBeam b 0) 16 5)) ||
  (s.corEn c && (s.corSlots c).any fun k =>
    let w := s.tabw (oSlot k 0)
    bit w 31 && decide (fld w 21 9 = c) && bit w 30 && !(s.beamsOf c).contains (fld w 0 12))

/-- Code 7: the slot range and the correlator entry (R204, R223). -/
def State.rangeBad (s : State) (c : Nat) : Bool :=
  s.corEn c &&
    (decide (s.slotCnt c = 0) || decide (2048 < s.slotBase c + s.slotCnt c) || decide (s.hvBins c % 8 ≠ 0) ||
      decide (s.hvBins c < 8) || decide (s.corNbuf c < 2) ||
      (s.corSlots c).any fun k =>
        let w := s.tabw (oSlot k 0)
        !bit w 31 || decide (fld w 21 9 ≠ c))

/-- Code 8: ladder entries (R223, R225). -/
def State.ladBad (s : State) (c : Nat) : Bool :=
  ((s.entries (oLad 0 0) 0x10_0000 16).filter fun e => bit e.2 31 && decide (fld e.2 20 9 = c)).any fun e =>
    let i := fld e.2 0 11
    let j := s.tfld (oLad e.1 1) 0 11
    let m := fld e.2 15 5
    let out (k : Nat) : Bool := decide (k < s.slotBase c) || decide (s.slotBase c + s.slotCnt c ≤ k)
    decide (m = 0) || decide (24 < m) || decide (j < i) || !s.corEn c || out i || out j || decide (s.ladLh c = 0)

/-- Code 9: histogram entries (R227, R230, R241, R242). -/
def State.histBad (s : State) (c : Nat) : Bool :=
  s.tbit (oHctx c 0) 31 &&
    (decide (s.hNbuf c < 2) ||
      (s.ownDefs c).any fun d =>
        decide (s.hMode d = 3) || (decide (s.hMode d ≤ 1) && decide (s.hWmin d < 0)) || srcReserved (s.hStart d) ||
          srcReserved (s.hStop d) || decide (40 < s.hK d) || decide (s.hNbins d = 0) || decide (2 ^ 28 < s.hNbins d) ||
          decide (s.hWmin d < -(2 ^ 32)) || decide (2 ^ 56 < s.hWmin d + s.hSpan d))

/-- The DMA channels that a context names (R260). -/
def State.ctxChans (s : State) (c : Nat) : List Nat :=
  (((s.slotsOf c).filter fun i => s.tbit (oMeas i 0) 18).map fun i => s.tfld (oMeas i 0) 12 6) ++
    (if s.corEn c then [s.corDma c] else []) ++ (if s.tbit (oHctx c 0) 31 then [s.hDma c] else []) ++
    (if s.recEn c then [s.recDma c] else [])

/-- A STREAM capture holds its channel alone (R294). -/
def State.streamClash (s : State) (c : Nat) : Bool :=
  let stream (x : Nat) : Bool := s.recEn x && s.recStream x
  s.runningCtxs.any fun x =>
    (stream c && (s.ctxChans x).contains (s.recDma c)) || (stream x && (s.ctxChans c).contains (s.recDma x))

/-- Code 11: the record entry (R293, R294, R309). -/
def State.recBad (s : State) (c : Nat) : Bool :=
  let pre := s.tfld (oRec c 0) 18 5
  let cnt := s.tfld (oRec c 3) 0 13
  (s.recEn c &&
    (decide (pre < 10) || decide (24 < pre) || decide (16 < s.recNsrc c) || decide (s.tfld (oRec c 0) 0 12 = 0) ||
      (!s.recStream c && (decide (s.recSegCnt c = 0) || !s.ctxBit c 27)) || decide (4096 < cnt) ||
      (s.recBinEn c && decide (cnt = 0)) || decide (4096 < s.tfld (oRec c 4) 0 12 + cnt) ||
      (List.range 16).any fun k => srcReserved (s.tfld (oRec c (5 + k / 2)) (16 * (k % 2)) 13))) ||
  s.streamClash c

/-! ### Pools -/

/-- Receivers of a delay set whose delay is not 0 (R191). -/
def State.delaySet (s : State) (k : Nat) : List (Nat × Nat) :=
  (s.entries (oDelay k 0) 0x4000 4).map fun e => (e.1, e.2.toNat)

/-- The largest delay that a plane would have with a context on it (R182, R192). -/
def State.planeSpan (s : State) (c p : Nat) : Nat :=
  let k := s.plane p
  let l := if k.active then k.delays
    else if s.usesPlane c && decide (s.ctxPlane c = p) then s.delaySet (s.tfld (oCtx c 0) 21 4) else []
  (l.map (·.2)).foldl max 0

/-- Code 14: whether a plane breaks R182. -/
def State.ringBad (s : State) (h : Int) (p span : Nat) : Bool :=
  decide ((8190 * s.planeW p : Nat) < h + 4_000_000 + span)

/-- A rate per second as a fraction: `n` times the bin rate of a plane. -/
def State.perBin (s : State) (p n : Nat) : Int × Nat := (((n * 4_000_000_000_000 : Nat) : Int), s.planeW p)

/-- Whether a sum of fractions stays within a limit. -/
def within (l : List (Int × Nat)) (lim : Nat) : Bool := let (n, d) := ratSum l; decide (n ≤ (lim * d : Nat))

/-- Enabled beams of some contexts, with their owners (R200). -/
def State.beamsBy (s : State) (l : List Nat) : List (Nat × Nat) := s.beams.filter fun e => l.contains e.2

/-- Valid weight entries of a die for some beams, by the owner of each (R200). -/
def State.beamEnts (s : State) (on : List (Nat × Nat)) (die : Nat) : List Nat :=
  (s.weights die).filterMap fun e => (on.find? fun b => decide (b.1 = e.1)).map (·.2)

/-- The load of some beam entries, or beams, of owners on their planes. -/
def State.planeLoad (s : State) (l : List Nat) : List (Int × Nat) := l.map fun o => s.perBin (s.ctxPlane o) 1

/-- Code 15: beam loads (R200). -/
def State.beamLoadBad (s : State) (c : Nat) : Bool :=
  let on := s.beamsBy (c :: s.runningCtxs)
  !(s.beamsOf c).isEmpty &&
    !(within (s.planeLoad (s.beamEnts on 0)) 320_000_000_000 && within (s.planeLoad (s.beamEnts on 1)) 320_000_000_000 &&
      within (s.planeLoad (on.map (·.2))) 16_000_000_000)

/-- Pairs, and pairs weighted 1 for two receivers and 4 otherwise (R207). -/
def State.corPairs (s : State) (c : Nat) : Nat × Nat :=
  let n := s.slotCnt c
  let nr := ((s.ctxSlots c).filter fun k => !k.1).length
  let p := n * (n + 1) / 2
  let prr := nr * (nr + 1) / 2
  (p, prr + 4 * (p - prr))

/-- The slices that a number of weighted pairs needs for compute (R207, R252). -/
def State.computeSlices (s : State) (c q : Nat) : Nat :=
  cdiv (16 * q * 4_000_000_000_000) (s.planeW (s.ctxPlane c) * 340_000_000_000)

/-- Slices of a die in service, and those free (R16, R207). -/
def State.sliceAvail (s : State) (die : Nat) : Nat := s.rfld (sCor die) 0x014 0 10
def State.slicesFree (s : State) : Nat := s.sliceAvail 0 + s.sliceAvail 1 - (s.sliceUsed 0 + s.sliceUsed 1)

/-- The slices of a resident run (R207). -/
def State.residentSlices (s : State) (c : Nat) : Nat :=
  let (p, q) := s.corPairs c
  max (s.computeSlices c q) (cdiv p 2049)

/-- A context's term of R208. -/
def State.dumpTerm (s : State) (c : Nat) : List (Int × Nat) :=
  let w := s.planeW (s.ctxPlane c)
  let hv := s.hvBins c
  let pl := (s.ladEntries c).length
  (((16 * (s.corPairs c).1 * 4_000_000_000_000 : Nat) : Int), hv * w) ::
    (if s.ladLh c = 0 then [] else [(((192 * pl * 4_000_000_000_000 : Nat) : Int), s.ladLh c * hv * w)])
def State.dumpFits (s : State) (c : Nat) : Bool :=
  within ((c :: s.corRunning 1).flatMap fun x => s.dumpTerm x) 6_700_000_000

/-- The cost factor of a ladder pair (R220): 4 with a beam slot. -/
def State.ladCost (s : State) (c : Nat) (e : Nat × Nat × Nat × Nat) : Nat :=
  let beam (k : Nat) : Bool := s.tbit (oSlot (s.slotBase c + k) 0) 30
  if beam e.2.1 || beam e.2.2.1 then 4 else 1

/-- The ladder entries of some contexts. -/
def State.ladAll (s : State) (l : List Nat) : List (Nat × Nat × Nat × Nat × Nat) :=
  l.flatMap fun x => (s.ladEntries x).map fun e => (x, e)

/-- The compute and the HBM traffic of a ladder entry (R220). -/
def State.ladComp (s : State) (v : Nat × Nat × Nat × Nat × Nat) : Int × Nat :=
  let m := v.2.2.2.2
  (((s.ladCost v.1 v.2 * 8 * 4_000_000_000_000 * (2 ^ m - 1) : Nat) : Int), s.planeW (s.ctxPlane v.1) * 2 ^ m)
def State.ladHbm (s : State) (l : List (Nat × Nat × Nat × Nat × Nat)) : List (Int × Nat) :=
  (l.filter fun v => decide (10 < v.2.2.2.2)).map fun v =>
    let m := v.2.2.2.2
    (((128 * 4_000_000_000_000 * (2 ^ (m - 10) - 1) : Nat) : Int), s.planeW (s.ctxPlane v.1) * 2 ^ m)

/-- Code 18: ladder pools (R220). -/
def State.ladderBad (s : State) (c : Nat) : Bool :=
  let all := s.ladAll (c :: s.corCtxs 1)
  !(s.ladEntries c).isEmpty &&
    (decide (65536 < all.length) || !within (all.map s.ladComp) 5_280_000_000_000 || !within (s.ladHbm all) 82_000_000_000)

/-- Lines, area bytes and block bytes of a context's definitions on a die (R235, R238). -/
def State.histArea (s : State) (c die : Nat) : Nat × Nat :=
  let ds := if s.tbit (oHctx c 0) 31 then (s.ownDefs c).filter fun d => decide (s.hHome d = die) else []
  let l := ds.map fun d => cdiv (s.hNbins d) 16
  (64 * l.sum, if ds.isEmpty then 0 else 192 + 64 * ds.length + 64 * l.sum)

/-- Bins that running contexts hold (`HCTX` word 6), and a context's own (R235). -/
def State.binsHeld (s : State) : Nat := (s.ctxs.map fun e => s.tfld (oHctx e.1 6) 0 29).sum
def State.binsWanted (s : State) (c : Nat) : Nat := ((s.histArea c 0).1 + (s.histArea c 1).1) / 4

/-- Code 20: copy time (R235). -/
def State.copyBad (s : State) (c : Nat) : Bool :=
  s.tbit (oHctx c 0) 31 && decide (s.hPeriod c ≠ 0) &&
    [0, 1].any fun die => decide (16 * s.hPeriod c < (s.histArea c die).1)

/-! ### Blocked runs -/

/-- The size of a device's pair set, and its weighted size (R248, R252). -/
def State.devCount (s : State) (c : Nat) : Nat × Nat :=
  let n := s.slotCnt c
  let d := s.ringD c
  let p := n * (n + 1) / 2 + (cdiv d 2 - 1) * n * n + (if d % 2 = 0 then n * n / 2 else 0)
  (p, if s.blkBeam c then 4 * p else p)
def State.blkSlices (s : State) (c : Nat) : Nat := max 4 (s.computeSlices c (s.devCount c).2)

/-- The largest power of two, at most 2,048, whose square is at most 1,024 times the slices (R245). -/
def tileOf (slices : Nat) : Nat :=
  ((List.range 12).map fun k => 2 ^ k).foldl (fun t x => if x * x ≤ slices * 1024 then x else t) 1

/-- A blocked context's term of the HBM traffic of R252. -/
def State.blkTraffic (s : State) (c slices : Nat) : Int × Nat :=
  let n := s.slotCnt c
  let d := s.ringD c
  let b := s.blkB c
  let b2 := if s.blkBeam c then 2 else 1
  let t := tileOf slices
  let k := cdiv n t
  let nt := k * (k + 1) / 2 + (cdiv d 2 - 1) * k * k + (if d % 2 = 0 then k * cdiv k 2 else 0)
  let g := 1 + d / 2
  (((((256 * (s.devCount c).1 + nt * t * b2 * (b + 15)) + g * n * b2 * b) * 4_000_000_000_000 : Nat) : Int),
    b * s.planeW (s.ctxPlane c))

/-- The hop payload of the contexts that use the cascade (R252). -/
def State.hopTerms (s : State) (l : List Nat) : List (Int × Nat) :=
  (l.filter fun x => s.casc x).map fun x =>
    s.perBin (s.ctxPlane x) (s.ringD x / 2 * s.slotCnt x * 4 * (if s.blkBeam x then 2 else 1))

/-- The traffic terms of running blocked contexts (R252). -/
def State.blkTerms (s : State) (l : List Nat) : List (Int × Nat) :=
  l.map fun x => s.blkTraffic x ((s.cor x).slicesA + (s.cor x).slicesB)

/-- Code 21: HBM traffic and hop payload (R252). -/
def State.blkBad (s : State) (c slices : Nat) : Bool :=
  let others := (s.corRunning 2).filter fun x => decide (x ≠ c)
  !within (s.blkTraffic c slices :: s.blkTerms others) 800_000_000_000 ||
    !within (s.hopTerms (c :: others)) 800_000_000_000

/-- Code 10: a context that would run blocked (R243, R257). -/
def State.blockedBad (s : State) (c : Nat) : Bool :=
  let kinds := (s.ctxSlots c).map (·.1)
  let e := s.blkExp c
  decide (e < 10) || decide (16 < e) || (kinds.any id && kinds.any fun b => !b) || decide (s.hvBins c % s.blkB c ≠ 0) ||
    (s.casc c && (!s.rbit sCas 0x014 0 || (decide (s.ringD c % 2 = 0) && decide (s.slotCnt c % 2 = 1))))

/-! ### Pages -/

/-- Pages of a number of bytes (R254). -/
def pagesFor (bytes : Nat) : Nat := cdiv bytes (2 ^ 21)

/-- The runs of pages held in a stack, ascending. -/
def State.stackRuns (s : State) (stack : Nat) : List (Nat × (Nat × Nat)) :=
  s.pagesHeld.filter fun e => decide (e.1 / 8192 = stack)

/-- Free pages of a stack: 8,192 less the device's 64 and those held (R254). -/
def State.pagesFree (s : State) (stack : Nat) : Nat := 8128 - ((s.stackRuns stack).map fun e => e.2.1).sum

/-- The `n` lowest free pages of a stack from a page on, in runs, past the runs held there (R254). -/
def lowRuns : Nat → Nat → List (Nat × (Nat × Nat)) → List (Nat × Nat)
  | 0, _, _ => []
  | n + 1, a, [] => [(a, n + 1)]
  | n + 1, a, e :: r =>
    let k := min (n + 1) (e.1 - a)
    (if k = 0 then [] else [(a, k)]) ++ lowRuns (n + 1 - k) (max a (e.1 + e.2.1)) r

/-- A context takes the lowest free pages of a stack; pages 0 to 63 belong to the device (R254). -/
def State.pagesTake (s : State) (c stack n : Nat) : State :=
  { s with
    pagesHeld := (lowRuns n (8192 * stack + 64) (s.stackRuns stack)).foldl
      (fun m e => Sparse.put m e.1 (e.2, c)) s.pagesHeld }

/-- What a start is given: the run, slices, the pages of each stack, and those of its histograms and blocked buffers. -/
structure Plan where
  run : Nat := 0
  slices : Nat := 0
  pagesA : Nat := 0
  pagesB : Nat := 0
  hist : Nat := 0
  blk : Nat := 0
  deriving DecidableEq, Repr

/-- The pages that a start needs on both stacks (R254). -/
def State.planPages (s : State) (c run slices : Nat) : Plan :=
  let n := s.slotCnt c
  let nb := s.corNbuf c
  let pl := (s.ladEntries c).length
  let p := n * (n + 1) / 2
  let head := 192 + 64 * cdiv n 8
  let res := if run = 1 then nb * pagesFor (head + 64 * p) +
      (if pl = 0 then 0 else nb * pagesFor (192 + 1280 * pl) + pagesFor (896 * pl)) else 0
  let onA := decide (s.pagesFree 1 ≤ s.pagesFree 0)
  let bh := if run = 2 then nb * pagesFor (head + 128 * (s.devCount c).1) else 0
  let b2 := if s.blkBeam c then 2 else 1
  let bs := if run = 2 then 4 * (1 + s.ringD c / 2) * cdiv (n * b2 * s.blkB c) (2 ^ 22) else 0
  let h (die : Nat) : Nat := let (a, b) := s.histArea c die; pagesFor a + (if b = 0 then 0 else s.hNbuf c * pagesFor b)
  let rec' (die : Nat) : Nat :=
    if s.recEn c ∧ s.recDie c = die then s.tfld (oRec c 0) 0 12 + pagesFor (s.recRing c * 16) else 0
  { run := run, slices := slices
    pagesA := (if onA then res else 0) + cdiv bh 2 + bs + h 0 + rec' 0
    pagesB := (if onA then 0 else res) + bh / 2 + bs + h 1 + rec' 1
    hist := h 0 + h 1, blk := bh + 2 * bs }

/-! ### The order of the checks -/

/-- Entries of the condition router that a context takes, and those held (R262). -/
def State.selNeed (s : State) (c : Nat) : Nat :=
  if s.ctxBit c 27 then ((List.range 16).filter fun k => decide (selKind (s.csel c k) ≠ 3)).length else 0
def State.selHeld (s : State) : Nat := (s.runningCtxs.map fun c => s.selNeed c).sum

/-- The free urgent slot with the lowest number 4e + s (R267). -/
def State.urgentFree (s : State) : Option Nat :=
  (List.range 16).find? fun k => !(s.ctxs.any fun e => decide (e.2.urgent = some k))

/-- The first of a list of checks that fails. -/
def firstBad : List (Nat × Bool) → Nat
  | [] => 0
  | (k, b) :: r => if b then k else firstBad r

/-- The entry checks, codes 3 to 9 (R260). -/
def State.entryCode (s : State) (c : Nat) : Nat :=
  firstBad [(3, s.entryBad c), (4, s.measBad c),
    (5, (s.walk c).chans.any fun n => !s.ownsOut c n),
    (6, s.beamBad c), (7, s.rangeBad c), (8, s.ladBad c), (9, s.histBad c)]

/-- The admission of a context whose state and EN allow it (R260): the code, 0 when admitted, and the plan. STOP that was in
force while the engine handled it refuses it (R261, R270). -/
def State.admission (s : State) (c : Nat) : Nat × Plan :=
  if s.dev ≠ .running ∨ s.admStop then (2, {})
  else
    let e := s.entryCode c
    if e ≠ 0 then (e, {})
    else
      let cor := s.corEn c
      let sRes := s.residentSlices c
      let fitS := decide (sRes ≤ s.slicesFree)
      let fitD := s.dumpFits c
      let blocked := cor && (s.casc c || (!(fitS && fitD) && s.tbit (oCor c 0) 30))
      let slices := if !cor then 0 else if blocked then s.blkSlices c else sRes
      let run := if !cor then 0 else if blocked then 2 else 1
      let plan := s.planPages c run slices
      let pl := s.usesPlane c
      let k := s.plane (s.ctxPlane c)
      let h := s.horizon
      let planes := (List.range 4).filter fun p => (s.plane p).active || (pl && decide (s.ctxPlane c = p))
      (firstBad [(10, blocked && s.blockedBad c), (11, s.recBad c),
        (12, (s.ctxChans c).any fun ch => !s.pageOn (sDma ch)),
        (13, pl && k.active && decide (s.delaySet (s.tfld (oCtx c 0) 21 4) ≠ k.delays)),
        (14, planes.any fun p => s.ringBad h p (s.planeSpan c p)),
        (15, s.beamLoadBad c), (16, cor && decide (s.slicesFree < slices)), (17, cor && !blocked && !fitD),
        (18, s.ladderBad c), (19, decide (2 ^ 28 < s.binsHeld + s.binsWanted c)), (20, s.copyBad c),
        (21, blocked && s.blkBad c slices),
        (22, decide (s.pagesFree 0 < plan.pagesA) || decide (s.pagesFree 1 < plan.pagesB)),
        (23, decide (4096 < s.selHeld + s.selNeed c)),
        (24, s.ctxBit c 30 && s.urgentFree.isNone)], plan)

end Sys2Proof.Machine
end

