-- ==== Sys2Proof/Machine/TimingOutputs.lean ====
section
/-! DEFINITION. Timing outputs (06_timing_outputs.md): the scheduler's queue and checks, launches, echoes, gating,
flushing and the generator. PL_PUSH, PLACEMENT_ARRIVE, PLACEMENT_HEAD, PLACEMENT_LAUNCH, TOUT_TRANSITION,
GENERATOR_PULSE. What it reads by inference or chooses: log entries 28, 34. -/

namespace Sys2Proof.Machine

/-- `TOUT.CFG` fields of a channel. -/
def State.toSrc (s : State) (n : Nat) : Nat := s.rfld (sTout n) 0x014 0 2
def State.toInv (s : State) (n : Nat) : Bool := s.rbit (sTout n) 0x014 10
def State.toOwner (s : State) (n : Nat) : Nat := s.rfld (sTout n) 0x014 12 9

/-- `TOUT.DESKEW` in qps. -/
def State.toDeskew (s : State) (n : Nat) : Int := signed 32 (s.reg (ra (sTout n) 0x018)).toNat

/-- The instant at the ball, P = T − DESKEW (R139). -/
def State.placeP (s : State) (n : Nat) (x : Place) : Int := x.tP - s.toDeskew n

/-- The spacing limits of R142: any transition, and leading transitions. -/
def State.spaceAny (s : State) (n : Nat) : Int := if s.rfld (sTout n) 0x014 4 2 = 2 then 8000 else 1600
def State.spaceLead (s : State) (n : Nat) : Int := if s.rfld (sTout n) 0x014 4 2 = 2 then 16000 else 8000

/-- Whether an output is gated for any reason (R138). -/
def Tout.gated (x : Tout) : Bool := x.gatedLock || x.gatedStop || x.gatedDorm

/-- The launch of R140 for an instant at the ball: the launching coarse edge, in edges, and the fine tap. A code of 512
launches one coarse period later with code 0. DEDUCED (log entry 34). -/
def launchOf (p : Int) (dOut : Int) (g16 : Nat) : Int × Nat :=
  let q := p - dOut
  let r := (q % 2000).toNat
  let code := (r * g16 + 32768) / 2 ^ 16
  if code ≥ 512 then (q / 2000 + 1, 0) else (q / 2000, code)

/-- Put a transition into the flight list in time order. -/
def insTrans (x : Trans) : List Trans → List Trans
  | [] => [x]
  | y :: r => if y.p ≤ x.p then y :: insTrans x r else x :: y :: r

/-- A placement enters the queue, or is dropped at a full one (R141). -/
def State.toutArrive (s : State) (n : Nat) (x : Place) : State :=
  let c := s.tout n
  if c.queue.length ≥ 64 then (s.bump64 (sTout n) 0x05C 1).evt (sTout n) 2
  else
    s.setTout n { c with
      queue := c.queue ++ [x]
      headAt := if c.queue.isEmpty then s.now else c.headAt
      headOk := if c.queue.isEmpty then false else c.headOk }

/-- The head leaves the queue; the next reaches the head at a coarse edge, and an emptied queue sets EMPTY. -/
def State.toutPop (s : State) (n e : Nat) : State :=
  let c := s.tout n
  let s1 := s.setTout n { c with queue := c.queue.drop 1, headAt := e, headOk := false }
  if c.queue.length = 1 then s1.evt (sTout n) 5 else s1

/-- The level held after every transition in flight (R138). -/
def Tout.heldActive (x : Tout) : Bool := (x.flight.getLast?.map (·.active)).getD x.active

/-- The instants of the last transition and the last leading transition placed: in flight, or gone from the ball (R142). -/
def Tout.lastTrans (x : Tout) : Option Int := (x.flight.getLast?.map (·.p)).or x.doneTrans
def Tout.lastLead (x : Tout) : Option Int := ((x.flight.filter (·.leading)).getLast?.map (·.p)).or x.doneLead

/-- An instant within a distance after another. -/
def nearAfter (o : Option Int) (p d : Int) : Bool :=
  match o with
  | some q => decide (p - q < d)
  | none => false

/-- Whether a placement breaks a limit of R142 against the last placed transition; a LEVEL that names the level already
held makes no transition. -/
def State.conflicts (s : State) (n : Nat) (x : Place) : Bool :=
  let c := s.tout n
  let p := s.placeP n x
  if x.level && (x.value == c.heldActive) then false
  else nearAfter c.lastTrans p (s.spaceAny n) || nearAfter c.lastLead p (s.spaceLead n) ||
    (!x.level && (decide ((x.width : Int) < s.spaceAny n) || decide (2 ^ 32 - 1 < x.width)))

/-- The head of the queue is checked: GATED, LATE, CONFLICT in that order, or it holds the head (R141, R413). -/
def State.placementHead (s : State) (n : Nat) : State :=
  let c := s.tout n
  match c.queue with
  | x :: _ =>
    if c.headOk then s
    else if c.gated || (decide (s.toSrc n = 1) && c.seqHeld) then
      ((s.toutPop n s.now).bump64 (sTout n) 0x064 1).evt (sTout n) 3
    else if s.placeP n x < 2000 * (c.headAt : Int) + 240_000 then
      ((s.toutPop n s.now).bump64 (sTout n) 0x04C 1).evt (sTout n) 0
    else if s.conflicts n x then ((s.toutPop n s.now).bump64 (sTout n) 0x054 1).evt (sTout n) 1
    else s.setTout n { c with headOk := true }
  | [] => s

/-- The transitions of a placement (R138, R140). -/
def State.transOf (s : State) (n : Nat) (x : Place) : List Trans :=
  let c := s.tout n
  let inv := s.toInv n
  let p := s.placeP n x
  let (e, k) := launchOf p c.dOut c.g16
  if x.level then
    if x.value == c.heldActive then []
    else [{ p := p, high := x.value != inv, active := x.value, leading := true, lead := e, edge := e, code := k }]
  else
    let p2 := p + x.width
    let (e2, k2) := launchOf p2 c.dOut c.g16
    [{ p := p, high := !inv, active := true, leading := true, lead := e, edge := e, code := k, marker := x.marker },
     { p := p2, high := inv, active := false, leading := false, lead := e, edge := e2, code := k2 }]

/-- A placement that passed its checks goes to the launcher at the last coarse edge at or before P − 60 ns, and is counted
PLACED (R413). -/
def State.placementLaunch (s : State) (n : Nat) : State :=
  let c := s.tout n
  match c.queue with
  | x :: _ =>
    let e := (s.placeP n x - 240_000) / 2000
    if c.headOk && decide (e ≤ (s.now : Int)) then
      let ts := s.transOf n x
      let c1 := { c with
        flight := ts.foldl (fun l t => insTrans t l) c.flight
        genLast := if x.gen then some x.tP else c.genLast
        passed := some (s.now, x) }
      ((s.setTout n c1).toutPop n e.toNat).bump64 (sTout n) 0x044 1
    else s
  | [] => s

/-- The oldest transition in flight comes to the ball (R141, R145, R146): while the output is gated it does not leave, but
for a move; one that finds the ball at its level already is no transition; otherwise the ball changes and the echo, with stop edge
`t` and code `q`, is stamped and handed on. -/
def State.toutTransition (s : State) (n t q : Nat) : State :=
  let c := s.tout n
  match c.flight with
  | x :: r =>
    if (s.now : Int) < x.edge then s
    else if c.gated && !x.sure then s.setTout n { c with flight := r }
    else
      let c1 := { c with
        flight := r, active := x.active, leadP := if x.active && !c.active then some x.p else c.leadP
        launches := x.edge :: c.launches.filter fun l => decide ((s.now : Int) - 64 ≤ l) }
      if x.high = c.high then s.setTout n c1
      else
        let s1 := (s.setTout n { c1 with
          high := x.high, doneTrans := some x.p, doneLead := if x.leading then some x.p else c.doneLead }).emit
          (.toutBall n x.high x.edge x.code)
        let (st, s2) := s1.plainStamp (64 + n) (4160 + n) t q x.high (-(s.toDeskew n))
        let bank := match c.switched with
          | some w => decide (w ≤ t) && decide (t < w + 8)
          | none => false
        let st := { st with flags := st.flags ||| flagIf bank fCAL ||| flagIf x.trunc fTRUNC }
        let s3 := if s2.condUses st.src then { s2 with condIn := s2.condIn ++ [.edge st] } else s2
        let s4 := s3.distribute st
        if x.marker then s4.setTtl n { s4.ttl n with tx := some st.time } else s4
  | [] => s

/-! ### Gating, flushing, idling -/

/-- The ball once the transitions that have left it are taken: active, high, and the leading edge of its active time. -/
def Tout.ballNow (c : Tout) (left : List Trans) : Bool × Bool × Option Int :=
  left.foldl (fun b x => (x.active, x.high, if x.active && !b.1 then some x.p else b.2.2)) (c.active, c.high, c.leadP)

/-- A move of the ball to a level at this edge, not sooner than 1,600 qps after the leading edge of the active time it
ends (R148). Transitions that have left already stay. A gate's move takes the place of moves still to come, and the gate suppresses
the rest; any other move takes the place of the transition that would have ended the active time. TRUNC marks an active time that
gating, STOP, a context stop or a page RESET ends. -/
def State.toutMove (s : State) (n : Nat) (high gate trunc : Bool) : State :=
  let c := s.tout n
  let left := (c.flight.filter fun x => decide (x.p < s.phys)).map fun x => { x with sure := true }
  let later := c.flight.filter fun x => decide (s.phys ≤ x.p)
  let (act, lvl, lead) := c.ballNow left
  let later :=
    if gate then later.filter fun x => !x.sure
    else if act then (match later with
      | x :: r => if x.active then x :: r else r
      | [] => [])
    else later
  if lvl = high ∧ !act then s.setTout n { c with flight := left ++ later }
  else
    let p := match lead, act with
      | some l, true => max s.phys (l + 1600)
      | _, _ => s.phys
    let mv : Trans := { p := p, high := high, active := false, leading := false, lead := s.now, edge := p / 2000, code := 0,
                        sure := true, trunc := trunc && act }
    s.setTout n { c with flight := insTrans mv (left ++ later) }

/-- An output becomes gated: it moves to the gated level, P low, and GATED is set (R148). -/
def State.toutGate (s : State) (n : Nat) (lock stop dorm : Bool) : State :=
  let c := s.tout n
  let was := c.gated
  let s1 := s.setTout n { c with
    gatedLock := c.gatedLock || lock, gatedStop := c.gatedStop || stop, gatedDorm := c.gatedDorm || dorm }
  if was then s1 else (s1.toutMove n false true true).evt (sTout n) 3

/-- The placed transitions that leave after a gate: from the first leading one whose launch edge falls after the declaration and
that keeps the spacing of R142 (R148). -/
def ungateKeep (now : Nat) (anyGap leadGap : Int) (last lead : Option Int) : List Trans → List Trans
  | [] => []
  | x :: r =>
    if x.leading && decide ((now : Int) < x.lead) && !nearAfter last x.p anyGap && !nearAfter lead x.p leadGap then x :: r
    else ungateKeep now anyGap leadGap last lead r

/-- A gating cause ends: with none left the ball returns to the inactive level at the first coarse edge after, and
transitions whose leading launch edge came before do not leave, nor those too near that return (R148). -/
def State.toutUngate (s : State) (n : Nat) (lock stop dorm : Bool) : State :=
  let c := s.tout n
  let c1 := { c with
    gatedLock := c.gatedLock && !lock, gatedStop := c.gatedStop && !stop, gatedDorm := c.gatedDorm && !dorm }
  if c.gated && !c1.gated then
    let moves := c1.flight.filter (·.sure)
    let back : List Trans :=
      if s.toInv n then
        [{ p := s.phys + 2000, high := true, active := false, leading := false, lead := s.now + 1, edge := s.now + 1, code := 0
           sure := true }]
      else []
    let kept := back.foldl (fun l t => insTrans t l) moves
    let later := ungateKeep s.now (s.spaceAny n) (s.spaceLead n) ((kept.getLast?.map (·.p)).or c.doneTrans) c.doneLead
      (c1.flight.filter fun x => !x.sure)
    s.setTout n { c1 with flight := later.foldl (fun l t => insTrans t l) kept }
  else s.setTout n c1

/-- Placements that satisfy a test are flushed from the queue, and with `way` from the way to it, and counted (R149, R150). -/
def State.toutFlush (s : State) (n : Nat) (way : Bool) (which : Place → Bool) : State :=
  let c := s.tout n
  let transit := if way then c.transit.filter fun x => !which x else c.transit
  let gone := (c.queue.filter which).length + (c.transit.length - transit.length)
  let headGone := match c.queue with
    | x :: _ => which x
    | [] => false
  if gone = 0 then s
  else
    let q := c.queue.filter fun x => !which x
    let s1 := (s.setTout n { c with
      queue := q, transit := transit
      headAt := if headGone then s.now else c.headAt
      headOk := c.headOk && !headGone }).bump64 (sTout n) 0x06C gone
    let s2 := s1.evt (sTout n) 4
    if q.isEmpty && !c.queue.isEmpty then s2.evt (sTout n) 5 else s2

/-- A placement that passed to the launcher at the very edge at which STOP comes is flushed all the same (R150): its transitions
go, and it counts in FLUSHED and not in PLACED. -/
def State.toutRecall (s : State) (n : Nat) : State :=
  let c := s.tout n
  match c.passed with
  | some (e, x) =>
    if e = s.now then
      let p := s.placeP n x
      let q := if x.level then p else p + x.width
      let s1 := s.setTout n { c with
        passed := none
        flight := c.flight.filter fun t => t.sure || !(decide (t.p = p) || decide (t.p = q)) }
      let s2 := s1.setReg64 (sTout n) 0x044 (s1.reg64 (sTout n) 0x044 - 1)
      (s2.bump64 (sTout n) 0x06C 1).evt (sTout n) 4
    else s
  | none => s

/-- The generator's instant T of pulse k (R139). -/
def State.genT (s : State) (n k : Nat) : Int :=
  2000 * (s.solEdge : Int) + s.reg64 (sTout n) 0x024 + (k : Int) * s.reg64 (sTout n) 0x01C

/-- The first k ≥ 1 whose instant is at or after a bound. -/
def State.genFrom (s : State) (n : Nat) (bound : Int) : Nat :=
  let per := s.reg64 (sTout n) 0x01C
  let d := bound - s.genT n 0
  if per = 0 then 1 else max 1 (cdiv d.toNat per)

/-- T of the generator's last pulse that is queued or launched (R150). -/
def Tout.lastGen (x : Tout) : Option Int := ((x.queue.filter (·.gen)).getLast?.map (·.tP)).or x.genLast

/-- The generator goes on with the first pulse whose launch falls at least 60 ns from now, and whose leading edge lies at least
GEN_PERIOD after the last one queued or launched (R149, R150). -/
def State.genRestart (s : State) (n : Nat) : State :=
  let c := s.tout n
  let b := s.phys + 240_000 + c.dOut + s.toDeskew n
  let b := match c.lastGen with
    | some l => max b (l + s.reg64 (sTout n) 0x01C)
    | none => b
  s.setTout n { c with genK := s.genFrom n b }

/-- STOP reaches a channel whose STOP_GATE is 1 (R149). -/
def State.toutStopOn (s : State) (n : Nat) : State :=
  if s.rbit (sTout n) 0x014 11 then
    let s1 := ((s.toutRecall n).toutGate n false true false).toutFlush n false fun _ => true
    if s1.toSrc n = 1 then s1.setTout n { s1.tout n with seqHeld := true } else s1
  else s

/-- STOP is released (R149). -/
def State.toutStopOff (s : State) (n : Nat) : State :=
  if (s.tout n).gatedStop then
    let s1 := s.toutUngate n false true false
    if s1.toSrc n = 2 then s1.genRestart n else s1
  else s

/-- The owner's stop or a page RESET: an active level returns to the inactive level (R150). -/
def State.toutIdle (s : State) (n : Nat) : State :=
  if (s.tout n).gated then s else s.toutMove n (s.toInv n) false true

/-- A context stops: its placements are flushed, and an active level on its channels returns to idle (R150). -/
def State.toutCtxStop (s : State) (c : Nat) : State :=
  s.each ((List.range 32).filter fun n => decide (s.toSrc n = 1) && decide (s.toOwner n = c)) fun s n =>
    (s.toutFlush n true fun x => decide (x.ctx = some c)).toutIdle n

/-- A Solstice: placements keep their instants; the generator's next pulse is the first of the new epoch whose launch
falls at least 60 ns after A and that keeps GEN_PERIOD from the last (R150). Called with the new origin in force. -/
def State.toutSolstice (s : State) (n : Nat) : State := if s.toSrc n = 2 then s.genRestart n else s

/-- The generator issues its next pulse (R139); STOP stops it (R149). -/
def State.generatorPulse (s : State) (n : Nat) : State :=
  let c := s.tout n
  if decide (s.toSrc n = 2) && !c.gatedStop && !s.inReset (sTout n) then
    let t := s.genT n c.genK
    (s.setTout n { c with genK := c.genK + 1 }).toutArrive n
      { level := false, value := true, tP := t, width := (s.reg (ra (sTout n) 0x02C)).toNat, gen := true }
  else s

/-- A write of PL_PUSH: the placement that PL_TIME and PL_WIDTH hold now, or BAD_PUSH (R136, R139, R150). -/
def State.plPush (s : State) (n : Nat) (v : Word) : State :=
  if s.toSrc n = 0 then
    s.toutArrive n { level := bit v 0, value := bit v 1, tP := s.physOf (s.reg64 (sTout n) 0x030),
                     width := (s.reg (ra (sTout n) 0x038)).toNat }
  else s.evt (sTout n) 6

/-- A placement on its way arrives at the scheduler (R141); a page in reset answers RETRY (R351). -/
def State.placementArrive (s : State) (n : Nat) : State :=
  let c := s.tout n
  match if s.inReset (sTout n) then [] else c.transit with
  | x :: r => (s.setTout n { c with transit := r }).toutArrive n x
  | [] => s

/-! ### Commands (PL_PUSH stands with the host's writes) -/

/-- PLACEMENT_ARRIVE (R141). -/
def execPlacementArrive (t : Nat) (n : Fin 32) : State → Host.Outcome State Fault Refusal :=
  command t fun s => s.placementArrive n

/-- PLACEMENT_HEAD (R141). -/
def execPlacementHead (t : Nat) (n : Fin 32) : State → Host.Outcome State Fault Refusal :=
  command t fun s => s.placementHead n

/-- PLACEMENT_LAUNCH (R413). -/
def execPlacementLaunch (t : Nat) (n : Fin 32) : State → Host.Outcome State Fault Refusal :=
  command t fun s => s.placementLaunch n

/-- TOUT_TRANSITION (R140, R145). -/
def execToutTransition (t : Nat) (n : Fin 32) (q : Nat) : State → Host.Outcome State Fault Refusal :=
  command t fun s => s.toutTransition n t q

/-- GENERATOR_PULSE (R139). -/
def execGeneratorPulse (t : Nat) (n : Fin 32) : State → Host.Outcome State Fault Refusal :=
  command t fun s => s.generatorPulse n

end Sys2Proof.Machine
end

