-- ==== Sys2Proof/Machine/Contexts.lean ====
section
/-! DEFINITION. Contexts and trigger programs (13_contexts_and_triggers.md): starts and stops, the condition vector, triggers and
hold-off, the auto timer; and the settling of captures and stopped contexts that follows a command. ADMISSION_DONE,
CONDITION_EVENT, HOLDOFF_EXPIRE, AUTO_TRIGGER, TIMER_EXPIRE, REARM, PRE_FILLED, and the rows of other blocks after which a
context may stop or drain: FORWARD_DEQUEUE, REBASE_HIT, GATE_COMPLETE, HARVEST, BLOCK_PROCESSED, CUT, SNAP_DONE,
RECORD_ITEM, SEGMENT_POST_END, STREAM_MESSAGE_CUT; and the rows that change a level or a lost tile in the condition vectors:
TIN_EDGE, LANE_CW_LOCK, LANE_ALIGN_LOSS, LANE_SIGNAL_LOSS, IDENT, UNIT, ACK, ACK_TIMEOUT, REGISTRATION_TIMEOUT, LANE_RETRY. What it reads by inference or chooses: log entries 43, 44. -/

namespace Sys2Proof.Machine

/-! ### The condition vector -/

/-- Hold-off is in force (R264). -/
def State.ctxHold (s : State) (c : Nat) : Bool :=
  let x := s.ctx c
  (match x.holdUntil with
    | some e => decide (s.now < e)
    | none => false) || decide (0 < x.holdLeft)

/-- A timer has run to 0 (R262). DEDUCED (log entry 44). -/
def State.timerExpired (s : State) (t : Timer) : Bool :=
  match t with
  | .expired => true
  | .until e => decide (e ≤ s.now)
  | .stopped _ => false

/-- A selector of KIND 1 is true: the channel's level, or its inverse (R262). -/
def State.selLevel (s : State) (v : Nat) : Bool :=
  decide (selKind v = 1) && ((s.tin (selSrc v - 4096)).level != decide (selPol v = 1))

/-- A tile that feeds a context is absent (R262, bit 30). -/
def State.ctxLost (s : State) (c : Nat) : Bool := (s.ctxRx c).any fun r => s.tileAbsent (r / 64)

/-- The condition vector of a context (R262). -/
def State.condVec (s : State) (c : Nat) : Nat :=
  let x := s.ctx c
  let levels := ((List.range 16).map fun k => b2n (s.selLevel (s.csel c k)) * 2 ^ k).sum
  let timers := (x.timers.zipIdx.map fun e => b2n (s.timerExpired e.1) * 2 ^ (16 + e.2)).sum
  let counters := (x.counters.zipIdx.map fun e =>
    b2n (decide ((s.tabw (oCtx c (20 + e.2))).toNat ≤ e.1)) * 2 ^ (20 + e.2)).sum
  x.latch ||| levels ||| timers ||| counters ||| b2n (s.ctxHold c) * 2 ^ 26 |||
    b2n (decide (s.loop.mode = .winter) || decide (s.loop.mode = .thaw)) * 2 ^ 28 ||| b2n (s.ctxLost c) * 2 ^ 30 ||| 2 ^ 31

/-- Condition bits latch, and those that were set at the dispatch have latched again (R262). -/
def State.ctxLatch (s : State) (c bits : Nat) : State :=
  let x := s.ctx c
  s.setCtx c { x with latch := x.latch ||| bits, disp := x.disp &&& (bits ^^^ (2 ^ 32 - 1)) }

/-- The vector is judged; the change is noted, so that a microword can sample its first cycle (R277). -/
def State.ctxSee (s : State) (c : Nat) : State :=
  let x := s.ctx c
  let v := s.condVec c
  s.setCtx c { x with seen := v, vlog := (s.now, v ^^^ x.seen) :: x.vlog.filter fun e => decide (s.now < e.1 + 16) }

/-- The vector as it stood at an earlier coarse edge. -/
def State.condAt (s : State) (c edge : Nat) : Nat :=
  (s.ctx c).vlog.foldl (fun v e => if edge < e.1 then v ^^^ e.2 else v) (s.condVec c)

/-- A change of the vector queues the context, once (R267). -/
def State.ctxWake (s : State) (c : Nat) : State :=
  let x := s.ctx c
  if decide (x.st = .running) && s.ctxBit c 27 && decide (s.condVec c ≠ x.seen) then
    let s1 := s.ctxSee c
    s1.setCtx c { s1.ctx c with queued := true }
  else s

/-- Every running context judges its vector. -/
def State.wakeAll (s : State) : State := s.each s.runningCtxs State.ctxWake

/-! ### Draining -/

/-- The context whose buffer a message occupies. -/
def MsgSrc.ctx (m : MsgSrc) : Option Nat :=
  match m with
  | .meas _ c => some c
  | .harvest c => some c
  | .ladder c => some c
  | .snapshot c _ => some c
  | .record c => some c
  | .dump => none

/-- A block, snapshot or record of a context is still to be completed or transferred (R259). -/
def State.ctxOwes (s : State) (c : Nat) : Bool :=
  decide ((s.cor c).run ≠ 0) || (s.hctx c).active || (s.cap c).active ||
    (s.meas.any fun e => !e.2.closed.isEmpty && decide ((s.keeper (oMeas e.1 0) 16).getD (s.mOwner e.1) = c)) ||
    s.dma.any fun e => (e.2.handed ++ e.2.queue).any fun m => decide (m.src.ctx = some c)

/-- A stopped context whose last transfer is complete: its pages return, and STOPPING becomes IDLE (R255, R259). -/
def State.ctxDrained (s : State) (c : Nat) : State :=
  let x := s.ctx c
  if (decide (x.st = .stopping) || decide (x.st = .stoppedOvf)) && !s.ctxOwes c then
    let s1 := { s with
      pagesHeld := s.pagesHeld.filter fun e => decide (e.2.2 ≠ c)
      oldWords := Sparse.del c s.oldWords }
    let s2 := ((s1.setTabN (oHctx c 6) 0).setTabN (oHctx c 7) 0).setTabN (oBlk c 3) 0
    if x.st = .stopping then s2.setCtx c { x with st := .idle } else s2
  else s

/-! ### Planes -/

/-- A plane with no running context that names it becomes inactive, and discards its ring (R180, R188). -/
def State.planeIdle (s : State) (p : Nat) : State :=
  if (s.plane p).active && !(s.runningCtxs.any fun c => s.usesPlane c && decide (s.ctxPlane c = p)) then
    (s.setPlane p {}).evt (sBin p) 1
  else s

/-- The first running context that names a plane makes it active, with the delays of its set (R180, R192). Its first bin is the
first that has not been released by now. -/
def State.planeStart (s : State) (c : Nat) : State :=
  let p := s.ctxPlane c
  if s.usesPlane c && !(s.plane p).active then
    let w := s.planeW p
    let b := ((s.phys - 2000 * (s.solEdge : Int) - s.horizon).toNat) / w
    (s.setPlane p { active := true, delays := s.delaySet (s.tfld (oCtx c 0) 21 4), grid := { next := b } }).evt (sBin p) 0
  else s

/-! ### Stopping -/

/-- The correlator's part of a stop (R222, R256). -/
def State.corStop (s : State) (c : Nat) : State :=
  let r := (s.cor c).run
  if r = 0 then s
  else
    let s1 := (if r = 1 then s.corClose c true false else s.blkStop c).retireTiles c
    (s1.setCor c { s1.cor c with closing := true }).corRelease c

/-- A running context stops at this edge (R259): causes 1 host, 2 STOP, 3 record overflow, 4 fault, 5 array. The routine in
progress is abandoned, and every stage acts as its chapter says. -/
def State.ctxStop (s : State) (c cause : Nat) : State :=
  let x := s.ctx c
  if x.st = .running then
    let s1 := s.measCtxStop c (decide (cause = 2))
    let s2 := s1.toutCtxStop c
    let s3 := (s2.corStop c).histCtxStop c
    let s4 := if cause = 3 then s3 else s3.capStop c
    let s5 := s4.setCtx c { s4.ctx c with
      st := if cause = 3 then .stoppedOvf else .stopping
      cause := cause, thread := none, queued := false, retrig := false, urgent := none, autoAt := none
      holdUntil := none, holdLeft := 0, inSeq := false, latch := 0, disp := 0 }
    (s5.planeIdle (s.ctxPlane c)).evt sCtx 2
  else s

/-- Captures that have to overflow do so, and their contexts stop; stopped contexts whose transfers are complete drain (R306,
R259, R270). -/
def State.settle (s : State) : State :=
  let s1 := s.each ((s.caps.filter fun e => e.2.full).map (·.1)) fun s c => (s.capOverflow c).ctxStop c 3
  s1.each (s1.ctxs.map (·.1)) State.ctxDrained

/-! ### Starting -/

/-- RETRIG of the current state (R263): at the edge of an accepted trigger as if the program were already in TRIG_STATE
(R270), and otherwise the state's that it is in until the routine in progress ends. -/
def State.curRetrig (s : State) (c : Nat) : Bool :=
  let x := s.ctx c
  s.pstRetrig c (if x.lastAccept = some s.now then s.tfld (oCtx c 0) 13 4 else x.pstate)

/-- Auto mode (R265): the timer starts at the first edge at which a trigger would be accepted. -/
def State.wouldAccept (s : State) (c : Nat) (p : Int) : Bool :=
  let x := s.ctx c
  if x.inSeq then s.curRetrig c && !s.ctxHold c else !s.ctxHold c && !s.capEarly c p
def State.tryAuto (s : State) (c : Nat) : State :=
  let x := s.ctx c
  if decide (x.st = .running) && s.ctxBit c 27 && s.ctxBit c 29 && x.autoAt.isNone && s.wouldAccept c s.phys then
    s.setCtx c { x with autoAt := some (s.now + 1024 * (s.reg (ra sAcq 0x014)).toNat) }
  else s

/-- `CSTAT.BOUND` (R258, R268, R288). -/
def State.boundOk (s : State) (c : Nat) : Bool :=
  let bits := s.tfld (oCtx c 0) 17 4 ::
    ((s.walk c).branches.filter fun b => decide (b.1 < 4)).flatMap fun b => (List.range b.2).map fun i => 4 * b.1 + i
  bits.all fun k =>
    let v := s.csel c k
    decide (selKind v = 1) || (decide (selKind v = 0) && decide (4096 ≤ selSrc v) && decide (selSrc v < 4160))

/-- TLOAD of a timer (R258). -/
def State.tload (s : State) (c k : Nat) : Nat :=
  (s.tabw (oCtx c (24 + 2 * k))).toNat + 2 ^ 32 * s.tfld (oCtx c (25 + 2 * k)) 0 16

/-- The correlator's part of a start (R210, R222, R223, R257): status words cleared whatever the run, slices from X die A first. -/
def State.corStart (s : State) (c : Nat) (p : Plan) : State :=
  let ents := s.ladEntries c
  let s1 := s.each ([oCor c 4, oCor c 5, oCor c 6, oCor c 7, oBlk c 1, oBlk c 2, oBlk c 3] ++ ents.map fun e => oLad e.1 2)
    fun s off => s.setTabN off 0
  if p.run = 0 then s1
  else
    let a := min p.slices (s.sliceAvail 0 - s.sliceUsed 0)
    let x := s.cor c
    let s2 := s1.setTabN (oCor c 4) (p.slices * 2 ^ 16 + p.run)
    let s3 := if p.run = 2 then s2.setTabN (oBlk c 3) (tileOf p.slices * 2 ^ 16 + p.blk) else s2
    s3.setCor c {
      run := p.run, slicesA := a, slicesB := p.slices - a, w := s.planeW (s.ctxPlane c), ringD := s.ringD c
      ringPos := s.ringPos c, tile := tileOf p.slices, lad := ents
      ladder := if p.run = 1 ∧ s.ladLh c ≠ 0 then some {} else none, bufs := x.bufs, ladBufs := x.ladBufs, seen := x.seen
      ladSeen := x.ladSeen, owed := x.owed, ladOwed := x.ladOwed, blkGrid := s.solEdge }

/-- A context takes its pages (R254, R255): `MEM.PEAK` rises, and LOW is set where FREE falls to LOW_WM. -/
def State.takePages (s : State) (c : Nat) (p : Plan) : State :=
  let s1 := (s.pagesTake c 0 p.pagesA).pagesTake c 1 p.pagesB
  s1.each [0, 1] fun t k =>
    let t1 := t.peak (sMem k) 0x020 (8128 - t.pagesFree k)
    let wm := (t.reg (ra (sMem k) 0x024)).toNat
    if wm < s.pagesFree k ∧ t.pagesFree k ≤ wm then t1.evt (sMem k) 0 else t1

/-- An admitted context enters RUNNING (R259): status cleared, units and pools taken, every stage begun. -/
def State.ctxBegin (s : State) (c : Nat) (p : Plan) : State :=
  let s1 := s.each (List.range 6) fun s k => s.setTabN (oCtx c (33 + k)) 0
  let s2 := s1.each (List.range 24) fun s k => s.setTabN (oCtx c (40 + k)) 0
  let s3 := s2.setCtx c {
    st := .running, cause := (s.ctx c).cause, urgent := if s.ctxBit c 30 then s.urgentFree else none, bound := s.boundOk c
    timers := (List.range 4).map fun k => .stopped (s.tload c k) }
  let s4 := (s3.takePages c p).planeStart c
  let s5 := s4.each (s4.beamsOf c) fun s b => s.setTabN (oBeam b 1) 0
  let s6 := (s5.corStart c p).each (s5.slotsOf c) State.measArm
  let s7 := (s6.histBegin c p.hist).capStart c
  let s8 := s7.each ((List.range 32).filter fun n => s7.ownsOut c n) fun s n => s.setTout n { s.tout n with seqHeld := false }
  let s9 := s8.setCtx c { s8.ctx c with seen := s8.condVec c }
  (s9.evt sCtx 0).tryAuto c

/-- A START is refused with a code, and nothing is allocated (R260). -/
def State.ctxRefuse (s : State) (c code : Nat) : State :=
  let x := s.ctx c
  let s1 := s.setCtx c { x with st := if x.st = .admitting then x.former else x.st, reason := code }
  (((({ s1 with adm := none, admStop := false, admRes := 2 * 2 ^ 26 + code * 2 ^ 16 + c }).bump64 sCtx 0x024 1).evt sCtx 1).bbrHost 13 sCtx
    [c, code])

/-- The admission engine finishes (R260). A context that was not taken into ADMITTING fails check 1. -/
def State.admissionDone (s : State) : State :=
  match s.adm with
  | some c =>
    if (s.ctx c).st ≠ .admitting then s.ctxRefuse c 1
    else
      let (code, p) := s.admission c
      if code = 22 then
        let s1 := if s.pagesFree 0 < p.pagesA then s.evt (sMem 0) 1 else s
        (if s.pagesFree 1 < p.pagesB then s1.evt (sMem 1) 1 else s1).ctxRefuse c code
      else if code ≠ 0 then s.ctxRefuse c code
      else ({ s with adm := none, admStop := false, admRes := 2 ^ 26 + p.run * 2 ^ 9 + c } : State).ctxBegin c p
  | none => s

/-- A write of `CTX.CMD` (R271). DEDUCED (log entry 43). -/
def State.ctxCmd (s : State) (v : Word) : State :=
  let op := fld v 16 2
  let c := fld v 0 9
  if s.adm.isSome then s.evt sCtx 3
  else
    let x := s.ctx c
    match op with
    | 0 => s
    | 1 =>
      let ok := (decide (x.st = .idle) || (decide (x.st = .stoppedOvf) && !s.ctxOwes c)) && s.ctxBit c 31
      let s1 := { s with adm := some c, admStop := s.stopOn }
      if ok then s1.setCtx c { x with former := x.st, st := .admitting } else s1
    | 2 =>
      if x.st = .running then (({ s with admRes := 2 ^ 26 + c } : State).ctxStop c 1).settle
      else { s with admRes := 3 * 2 ^ 26 + c }
    | _ =>
      if x.st = .running then
        (({ s with admRes := 2 ^ 26 + c } : State).ctxLatch c (2 ^ 27)).ctxWake c
      else { s with admRes := 3 * 2 ^ 26 + c }

/-- Boot firmware issues the next START of the default image once the device runs and the admission engine is free (R371). -/
def State.bootStart (s : State) : State :=
  match s.boot.starts with
  | c :: r =>
    if s.dev = .running ∧ s.adm.isNone then
      ({ s with boot := { s.boot with starts := r } } : State).ctxCmd (BitVec.ofNat 32 (2 ^ 16 + c % 512))
    else s
  | [] => s

/-- A RESET of the CTX page ends an admission (R260, code 25). -/
def State.admAbort (s : State) : State :=
  match s.adm with
  | some c => s.ctxRefuse c 25
  | none => s

/-! ### Triggers -/

/-- Status counts of a context, and the page's sum and events (R258, R263). -/
def State.ctxCount (s : State) (c w : Nat) : State :=
  let s1 := s.tbump (oCtx c w) 1
  if 34 ≤ w ∧ w ≤ 36 then
    (if w = 34 then s1.bump64 sCtx 0x02C 1 else s1).evt sCtx 5
  else s1

/-- An accepted trigger (R263 to R265, R300): TRIG latches, the hold-off starts, the program moves to TRIG_STATE, when the
routine in progress ends if there is one. -/
def State.ctxAccept (s : State) (c : Nat) (x : Stamp) (word2 : Option Nat) (forced : Bool) : State :=
  let s1 := (s.ctxCount c 33).ctxLatch c (2 ^ 24)
  let s2 := if forced then ((s1.ctxCount c 37).ctxLatch c (2 ^ 25)).evt sCtx 6 else s1
  let k := s2.ctx c
  let mode := s.tfld (oCtx c 0) 11 2
  let time := (s.tabw (oCtx c 2)).toNat + 2 ^ 32 * s.tfld (oCtx c 3) 0 16
  let st := s.tfld (oCtx c 0) 13 4
  let s3 := s2.setCtx c { k with
    autoAt := none
    holdUntil := if mode % 2 = 1 then some (s.now + time) else none
    holdLeft := if 2 ≤ mode then (s.tabw (oCtx c 1)).toNat else 0
    inSeq := true
    lastAccept := some s.now
    retrig := k.retrig || k.thread.isSome || (k.inSeq && decide (k.lastAccept = some s.now))
    pstate := if k.thread.isSome then k.pstate else st }
  (s3.capTrigger c x word2 forced k.inSeq).tryAuto c

/-- A trigger judged by the first row of R263 that applies. -/
def State.ctxJudge (s : State) (c : Nat) (x : Stamp) (word2 : Option Nat) : State :=
  let k := s.ctx c
  if k.inSeq && !s.curRetrig c then s.ctxCount c 34
  else if s.ctxHold c then
    let s1 := (s.ctxCount c 35).setCtx c { k with holdLeft := k.holdLeft - 1 }
    if k.holdLeft = 1 then s1.tryAuto c else s1
  else if !k.inSeq && s.capEarly c x.phys then s.ctxCount c 36
  else s.ctxAccept c x word2 false

/-- Events of a context's selectors (R262): counters count, and the trigger selector's is a trigger. -/
def State.ctxFired (s : State) (c : Nat) (fired : List Nat) (x : Stamp) (word2 : Option Nat) : State :=
  if fired.isEmpty then s
  else
    let lat := ((fired.filter fun k => decide (selKind (s.csel c k) ≠ 1)).map fun k => 2 ^ k).sum
    let s1 := s.ctxLatch c lat
    let k := s1.ctx c
    let s2 := s1.setCtx c { k with
      counters := k.counters.zipIdx.map fun e =>
        if s.ctxBit c (7 + e.2) && fired.contains (s.tfld (oCtx c 3) (16 + 4 * e.2) 4) then satAdd 32 e.1 1 else e.1 }
    if fired.contains (s.tfld (oCtx c 0) 17 4) then s2.ctxJudge c x word2 else s2

/-- The instant of an event's stamp. -/
def CondEv.instant (e : CondEv) : Int :=
  match e with
  | .edge x => x.phys
  | .result _ _ p _ => p

/-- The event in transit with the earliest stamp (R270), the first to arrive among equals. -/
def firstEvent : List CondEv → Option CondEv
  | [] => none
  | e :: r => some (r.foldl (fun a b => if b.instant < a.instant then b else a) e)

/-- The next event in transit to the sequencer (R262): the edge of a source, or a published result, whose trigger stamp is its
close and whose flags and header word 2 the spec does not state (free values, R298, R304). -/
def State.conditionEvent (s : State) : State :=
  match firstEvent s.condIn with
  | some (.edge x) =>
    let s1 := { s with condIn := s.condIn.erase (.edge x) }
    let s2 := s1.each (s1.runningCtxs.filter fun c => s1.ctxBit c 27) fun s c =>
      s.ctxFired c ((List.range 16).filter fun k =>
        let v := s.csel c k
        decide (selKind v ≤ 1) && decide (selSrc v = x.src) && (decide (x.src < 4096) || (x.rising != decide (selPol v = 1))))
        x none
    s2.wakeAll
  | some (.result i stat p t) =>
    let (f, s0) := { s with condIn := s.condIn.erase (.result i stat p t) }.fresh
    let (g, s1) := s0.fresh
    let x : Stamp := ⟨i, p, t, false, g % 256, 0⟩
    let s2 := s1.each (s1.runningCtxs.filter fun c => s1.ctxBit c 27) fun s c =>
      s.ctxFired c ((List.range 16).filter fun k =>
        let v := s.csel c k
        decide (selKind v = 2) && decide (selSrc v = i) && (decide (selPol v = 1) == stat))
        x (some (f % 2 ^ 64))
    s2.wakeAll
  | none => s

/-- The hold-off time ends (R264). -/
def State.holdoffExpire (s : State) (c : Nat) : State :=
  let x := s.ctx c
  match x.holdUntil with
  | some e => if e ≤ s.now then ((s.setCtx c { x with holdUntil := none }).tryAuto c).ctxWake c else s
  | none => s

/-- The auto timer runs out and a trigger is forced (R265). -/
def State.autoTrigger (s : State) (c : Nat) : State :=
  let x := s.ctx c
  match x.autoAt with
  | some e =>
    if decide (e ≤ s.now) && decide (x.st = .running) then
      let src := selSrc (s.csel c (s.tfld (oCtx c 0) 17 4))
      let p : Int := 2000 * (e : Int)
      (s.ctxAccept c ⟨src, p, s.stampTime p, false, s.tbFlags &&& 19, 0⟩ (some (src * 2 ^ 51)) true).ctxWake c
    else s
  | none => s

/-- A timer reaches 0 (R262). -/
def State.timerExpire (s : State) (c k : Nat) : State :=
  let x := s.ctx c
  match x.timers[k]? with
  | some (.until e) =>
    if e ≤ s.now then (s.setCtx c { x with timers := x.timers.set k .expired }).ctxWake c else s
  | some (.stopped _) => s
  | some .expired => s
  | none => s

/-! ### Commands -/

/-- LANE_CW_LOCK (R155). -/
def execLaneCwLock (t : Nat) (n : Fin 64) : State → Host.Outcome State Fault Refusal :=
  command t fun s => (s.laneCwLock n).wakeAll

/-- LANE_ALIGN_LOSS (R155). -/
def execLaneAlignLoss (t : Nat) (n : Fin 64) : State → Host.Outcome State Fault Refusal :=
  command t fun s => (s.laneAlignLoss n).wakeAll

/-- LANE_SIGNAL_LOSS (R167). -/
def execLaneSignalLoss (t : Nat) (n : Fin 64) : State → Host.Outcome State Fault Refusal :=
  command t fun s => (s.laneSignalLoss n).wakeAll

/-- IDENT (R166). -/
def execIdent (t : Nat) (n : Fin 64) (w : Word64) : State → Host.Outcome State Fault Refusal :=
  command t fun s => (s.laneRx n w).wakeAll

/-- UNIT (R166). -/
def execUnit (t : Nat) (n : Fin 64) (w : Word64) : State → Host.Outcome State Fault Refusal :=
  command t fun s => (s.laneRx n w).wakeAll

/-- ACK (R163). -/
def execAck (t : Nat) (n : Fin 64) (w : Word64) : State → Host.Outcome State Fault Refusal :=
  command t fun s => (s.laneRx n w).wakeAll

/-- ACK_TIMEOUT (R167). -/
def execAckTimeout (t : Nat) (n : Fin 64) : State → Host.Outcome State Fault Refusal :=
  command t fun s => (s.laneAckTimeout n).wakeAll

/-- REGISTRATION_TIMEOUT (R165). -/
def execRegistrationTimeout (t : Nat) (n : Fin 64) : State → Host.Outcome State Fault Refusal :=
  command t fun s => (s.laneRegTimeout n).wakeAll

/-- LANE_RETRY (R165). -/
def execLaneRetry (t : Nat) (n : Fin 64) : State → Host.Outcome State Fault Refusal := command t fun s => (s.laneRetry n).wakeAll

/-- TIN_EDGE (R79). -/
def execTinEdge (t : Nat) (ch : Fin 64) (rising : Bool) (q : Nat) : State → Host.Outcome State Fault Refusal :=
  command t fun s => (s.tinEdge ch t q rising).wakeAll

/-- ADMISSION_DONE (R260). -/
def execAdmissionDone (t : Nat) : State → Host.Outcome State Fault Refusal := command t fun s =>
  s.admissionDone.settle.bootStart

/-- CONDITION_EVENT (R262, R263). -/
def execConditionEvent (t : Nat) : State → Host.Outcome State Fault Refusal := command t State.conditionEvent

/-- HOLDOFF_EXPIRE (R264). -/
def execHoldoffExpire (t : Nat) (c : Fin 512) : State → Host.Outcome State Fault Refusal :=
  command t fun s => s.holdoffExpire c

/-- AUTO_TRIGGER (R265). -/
def execAutoTrigger (t : Nat) (c : Fin 512) : State → Host.Outcome State Fault Refusal := command t fun s => s.autoTrigger c

/-- TIMER_EXPIRE (R262). -/
def execTimerExpire (t : Nat) (c : Fin 512) (k : Fin 4) : State → Host.Outcome State Fault Refusal :=
  command t fun s => s.timerExpire c k

/-- REARM (R299). -/
def execRearm (t : Nat) (c : Fin 512) : State → Host.Outcome State Fault Refusal := command t fun s => s.capRearm c

/-- PRE_FILLED (R299, R265). -/
def execPreFilled (t : Nat) (c : Fin 512) : State → Host.Outcome State Fault Refusal := command t fun s => s.tryAuto c

/-- FORWARD_DEQUEUE (R12). -/
def execForwardDequeue (t : Nat) (die : Fin 2) : State → Host.Outcome State Fault Refusal :=
  command t fun s => (s.forwardDequeue die).settle

/-- REBASE_HIT (R172). -/
def execRebaseHit (t : Nat) (n : Fin 64) : State → Host.Outcome State Fault Refusal :=
  command t fun s => (s.rebaseHit n).settle

/-- GATE_COMPLETE (R114). -/
def execGateComplete (t : Nat) (i : Fin 1024) : State → Host.Outcome State Fault Refusal :=
  command t fun s => (s.asKept (oMeas i 0) 16 fun s => s.gateComplete i).settle

/-- HARVEST (R212). -/
def execHarvest (t : Nat) (c : Fin 512) (ladder : Bool) : State → Host.Outcome State Fault Refusal :=
  command t fun s => (s.asOf c fun s => s.harvest c ladder).settle

/-- BLOCK_PROCESSED (R245). -/
def execBlockProcessed (t : Nat) (c : Fin 512) : State → Host.Outcome State Fault Refusal :=
  command t fun s => (s.asOf c fun s => s.blockProcessed c).settle

/-- CUT (R237). -/
def execCut (t : Nat) (c : Fin 512) : State → Host.Outcome State Fault Refusal := command t fun s => (s.asOf c fun s => s.cut c).settle

/-- SNAP_DONE (R238). -/
def execSnapDone (t : Nat) (c : Fin 512) (die : Fin 2) : State → Host.Outcome State Fault Refusal :=
  command t fun s => (s.asOf c fun s => s.snapDone c die).settle

/-- RECORD_ITEM (R297). -/
def execRecordItem (t : Nat) (c : Fin 512) : State → Host.Outcome State Fault Refusal :=
  command t fun s => (s.asOf c fun s => s.recordItem c).settle

/-- SEGMENT_POST_END (R298). -/
def execSegmentPostEnd (t : Nat) (c : Fin 512) : State → Host.Outcome State Fault Refusal :=
  command t fun s => (s.asOf c fun s => s.segmentEnd c).settle

/-- STREAM_MESSAGE_CUT (R295). -/
def execStreamMessageCut (t : Nat) (c : Fin 512) : State → Host.Outcome State Fault Refusal :=
  command t fun s => (s.asOf c fun s => s.capCut c).settle

end Sys2Proof.Machine
end

