-- ==== Sys2Proof/Machine/Microcode.lean ====
section
/-! DEFINITION. Routines (14_microcode.md; R267): dispatch, the execution of a microword, commit points, abandonment and
restart, faults. DISPATCH, MICROWORD, WATCHDOG. What it reads by inference or chooses: log entry 46. -/

namespace Sys2Proof.Machine

/-- A context's slot is free: its own urgent slot, or one of the twelve shared slots of engine c mod 4 (R267). -/
def State.slotFree (s : State) (c : Nat) : Bool :=
  (s.ctx c).urgent.isSome ||
    decide ((s.ctxs.filter fun e => e.2.thread.isSome && e.2.urgent.isNone && decide (e.1 % 4 = c % 4)).length < 12)

/-- A context whose vector has changed is dispatched: its state's routine begins at ENTRY, if the state has one (R258, R262,
R267). -/
def State.dispatch (s : State) (c : Nat) : State :=
  let x := s.ctx c
  if decide (x.st = .running) && s.ctxBit c 27 && x.thread.isNone && (x.queued || decide (s.condVec c ≠ x.seen)) &&
      s.slotFree c then
    let s1 := s.ctxSee c
    let y := { s1.ctx c with queued := false }
    if s.pstV c x.pstate then
      let a := s.pstEntry c x.pstate
      s1.setCtx c { y with
        disp := x.latch, thread := some { pc := a, restart := a, since := s.now, busyTo := s.now + s.now % 2 } }
    else s1.setCtx c y
  else s

/-- The routine is abandoned and starts again at its restart point (R283). -/
def State.restartRoutine (s : State) (c : Nat) (k : Thread) : State :=
  let s1 := s.setCtx c { s.ctx c with thread := some { k with pc := k.restart, acts := [], solHit := false, dog := none } }
  ((s1.ctxCount c 38).bump64 sSeq 0x02C 1).evt sSeq 1

/-- A fault (R285): the first since a commit point restarts the routine, the second stops the context. -/
def State.routineFault (s : State) (c : Nat) (k : Thread) (code : Nat) : State :=
  let s1 := (s.bump64 sSeq 0x034 1).evt sSeq 2
  let rec' (st : Nat) := k.pc % 2 ^ 14 * 2 ^ 16 + st * 2 ^ 15 + code * 2 ^ 12 + c
  if k.faulted then
    (((s1.setRegN sSeq 0x01C (rec' 1)).evt sSeq 3).bbrFault sSeq c code).ctxStop c 4
  else (s1.setRegN sSeq 0x01C (rec' 0)).restartRoutine c { k with faulted := true }

/-- The slots a context owns with GSRC = 3, in ascending order (R280). -/
def State.seqSlots (s : State) (c : Nat) : List Nat := (s.slotsOf c).filter fun i => decide (s.mGsrc i = 3) && (s.mslot i).armed

/-- The fault that a microword's own fields raise, or 0 (R285). -/
def State.wordFault (s : State) (c : Nat) (k : Thread) (w : Word) (n : Nat) : Nat :=
  firstBad [
    (1, (decide (nwFlow n ≠ 0) && !mwCommit w) || decide (4 < nwFlow n) || decide (nwRact n = 3)),
    (2, decide (8 < k.acts.length + (nwActs n).length)),
    (5, mwCommit w && decide (nwFlow n = 2) && !s.pstV c (nwFstate n)),
    (6, (nwOen n && !s.ownsOut c (nwOch n)) || (decide (nwMact n ≠ 0) && decide ((s.seqSlots c).length ≤ nwMslot n)))]

/-- A timer action at the commit edge (R280). -/
def State.timerAct (s : State) (c op k : Nat) : State :=
  let x := s.ctx c
  let v : Timer := match op, x.timers[k]? with
    | 1, _ => .until (s.now + s.tload c k)
    | 2, some (.until e) => if e ≤ s.now then .expired else .stopped (e - s.now)
    | 3, some (.stopped l) => .until (s.now + l)
    | _, some t => t
    | _, none => .stopped 0
  s.setCtx c { x with timers := x.timers.set k v }

/-- A counter action at the commit edge (R280). -/
def State.counterAct (s : State) (c op k : Nat) : State :=
  let x := s.ctx c
  let n := x.counters.getD k 0
  s.setCtx c { x with counters := x.counters.set k (if op = 1 then 0 else if op = 2 then satAdd 32 n 1 else n - 1) }

/-- One committed action (R280). -/
def State.applyAct (s : State) (c : Nat) (a : Act) : State :=
  match a with
  | .timer op k => s.timerAct c op k
  | .counter op k => s.counterAct c op k
  | .out ch level value offset width =>
    let x := s.tout ch
    s.setTout ch { x with transit := x.transit ++
      [{ level := level, value := value, tP := s.phys + 312_000 + offset + s.toDeskew ch, width := width, ctx := some c }] }
  | .rec' op tag => if op = 1 then s.capSegEnd c else s.capTag c tag
  | .gate op k =>
    match (s.seqSlots c)[k]? with
    | some i => if op = 1 then s.seqOpen i else if op = 2 then s.seqClose i else s.seqCloseOpen i
    | none => s

/-- A routine ends (R279, R263): a retrigger that waits takes the program to TRIG_STATE, and its routine is dispatched
next; otherwise FLOW decides. -/
def State.routineEnd (s : State) (c flow fstate : Nat) : State :=
  let x := { s.ctx c with thread := none }
  let s1 :=
    if flow = 4 then (s.setCtx c x).ctxStop c 1
    else if x.retrig then s.setCtx c { x with retrig := false, inSeq := true, pstate := s.tfld (oCtx c 0) 13 4 }
    else if flow = 2 then s.setCtx c { x with pstate := fstate }
    else if flow = 3 then s.setCtx c { x with pstate := 0, inSeq := false }
    else s.setCtx c x
  if decide (flow ≠ 4) && x.retrig then
    let s2 := s1.ctxSee c
    s2.setCtx c { s2.ctx c with queued := true }
  else s1

/-- A commit point (R281, R262): the buffered actions take effect in order, the bits set at dispatch are cleared once, and the
routine ends or goes on at the address formed. What the commit itself changes is no cause for a dispatch (R267). DEDUCED (log entry 46). -/
def State.commitPoint (s : State) (c : Nat) (k : Thread) (acts : List Act) (flow fstate next : Nat) (restart : Bool) : State :=
  let woke := decide (s.condVec c ≠ (s.ctx c).seen)
  let s1 := s.each acts fun s a => s.applyAct c a
  let x := s1.ctx c
  let s2 := s1.setCtx c { x with
    latch := x.latch &&& (x.disp ^^^ (2 ^ 32 - 1)), disp := 0, queued := x.queued || woke }
  let s3 := s2.ctxSee c
  let k' : Thread := { k with acts := [], faulted := false, dog := none, since := s.now, pc := next, restart := next }
  let s4 :=
    if flow ≠ 0 then s3.routineEnd c flow fstate
    else
      let s5 := s3.setCtx c { s3.ctx c with thread := some k' }
      if restart then s5.restartRoutine c k' else s5
  s4.tryAuto c

/-- The cycles, in coarse edges, of the microword at an address (R277). -/
def State.wordEdges (s : State) (a : Nat) : Nat := 2 * (1 + mwCyc (s.micro a) + 2 * nwCx (s.nano (mwNano (s.micro a))))

/-- A microword, at the coarse edge at which its last cycle ends, an even one (R274 to R285): the vector is sampled as it stood at
its first cycle. A microword whose fetch or fields raise a fault does not execute. A watchdog that ran out within it is a fault at
its end, after its commit, where the routine goes on. DESIGN CHOICE (log entry 56). -/
def State.wordStep (s : State) (c : Nat) (mw nw : StoreEcc) : State :=
  match (s.ctx c).thread with
  | none => s
  | some k0 =>
    let w := s.micro k0.pc
    let n := s.nano (mwNano w)
    let start := s.now - s.wordEdges k0.pc
    if s.now < k0.busyTo + s.wordEdges k0.pc ∨ s.now % 2 = 1 then s
    else
      let k := { k0 with
        busyTo := s.now, issued := true, solHit := k0.solHit && decide (start < s.solEdge)
        micro := if k0.micro.contains k0.pc then k0.micro else k0.pc :: k0.micro
        nano := if k0.nano.contains (mwNano w) then k0.nano else mwNano w :: k0.nano }
      let fixed := b2n (decide (mw = .corrected)) + b2n (decide (nw = .corrected))
      let s0 := s.setCtx c { s.ctx c with thread := some k }
      let s1 := if fixed = 0 then s0 else (s0.bump64 sSeq 0x03C fixed).evt sSeq 4
      if mw = .uncorrectable ∨ nw = .uncorrectable then s1.routineFault c k 4
      else
        let f := s.wordFault c k w n
        if f ≠ 0 then s1.routineFault c k f
        else
          let g := s.condAt c start >>> (4 * mwBsel w)
          let next := mwNext w ||| (g % 2 ^ mwBw w)
          let again := decide (fixed ≠ 0) || k.solHit
          let acts := k.acts ++ nwActs n
          if mwCommit w then
            let s2 := s1.commitPoint c k acts (nwFlow n) (nwFstate n) next (again && k.dog.isNone)
            match k.dog, (s2.ctx c).thread with
            | some _, some k2 => s2.routineFault c k2 3
            | some _, none => s2
            | none, _ => s2
          else if k.dog.isSome then s1.routineFault c k 3
          else if again then s1.restartRoutine c k
          else s1.setCtx c { s1.ctx c with thread := some { k with pc := next, acts := acts } }

/-- Whether the microword that ends now had begun before an edge (R283): an urgent slot issues at every boundary. DEDUCED (log entry 46). -/
def State.wordBegan (s : State) (c : Nat) (k : Thread) (e : Nat) : Bool :=
  decide (k.busyTo < e) && ((s.ctx c).urgent.isSome || decide (s.now - s.wordEdges k.pc < e))

/-- The edge of an interrupt or a watchdog fault that the routine took at a boundary, before the next microword issued (R283,
R284), and whether it was the watchdog's. -/
def State.wordBreak (s : State) (c : Nat) (k : Thread) : Option (Nat × Bool) :=
  let sol := k.solHit && k.issued && !s.wordBegan c k s.solEdge
  match k.dog with
  | some e =>
    if s.wordBegan c k e then (if sol then some (s.solEdge, false) else none) else some (max e (if sol then s.solEdge else 0), true)
  | none => if sol then some (s.solEdge, false) else none

/-- MICROWORD: a routine that was abandoned at a boundary starts again, or stops the context, and the microword is that of its
restart point, which had to issue after it (R283 to R285). -/
def State.microword (s : State) (c : Nat) (mw nw : StoreEcc) : State :=
  match (s.ctx c).thread with
  | none => s
  | some k =>
    match s.wordBreak c k with
    | none => s.wordStep c mw nw
    | some (e, dog) =>
      if dog && k.faulted then s.routineFault c k 3
      else if max k.busyTo e + s.wordEdges k.restart ≤ s.now then
        (if dog then s.routineFault c k 3 else s.restartRoutine c k).wordStep c mw nw
      else s

/-- 65,536 sequencer cycles without a commit (R285): a fault at once at a microword boundary, and inside a microword at its end. -/
def State.watchdog (s : State) (c : Nat) : State :=
  match (s.ctx c).thread with
  | some k =>
    if k.since + 131_072 ≤ s.now then
      if k.busyTo < s.now then s.setCtx c { s.ctx c with thread := some { k with dog := k.dog.or (some s.now) } }
      else s.routineFault c k 3
    else s
  | none => s

/-- A Solstice meets every routine in progress and latches SOL in every running context (R284, R262). -/
def State.seqSolstice (s : State) : State :=
  (s.each s.runningCtxs fun s c =>
    let s1 := s.ctxLatch c (2 ^ 29)
    let x := s1.ctx c
    match x.thread with
    | some k => s1.setCtx c { x with thread := some { k with solHit := true } }
    | none => s1).wakeAll

/-- A RESET of the SEQ page empties the holding register (R292). -/
def State.seqReset (s : State) : State := { s with hold := none }

/-! ### Commands -/

/-- DISPATCH (R267). -/
def execDispatch (t : Nat) (c : Fin 512) : State → Host.Outcome State Fault Refusal := command t fun s => s.dispatch c

/-- MICROWORD (R275). -/
def execMicroword (t : Nat) (c : Fin 512) (ecc : FetchEcc) : State → Host.Outcome State Fault Refusal :=
  command t fun s => (s.microword c ecc.micro ecc.nano).settle

/-- WATCHDOG (R285). -/
def execWatchdog (t : Nat) (c : Fin 512) : State → Host.Outcome State Fault Refusal :=
  command t fun s => (s.watchdog c).settle

end Sys2Proof.Machine
end

