-- ==== Sys2Proof/Machine/Binning.lean ====
section
/-! DEFINITION. Bin release (R183 to R186), the beam former (09_beam_former.md), the delivery of a bin's signals to the
correlator and to captures, and array tiles that fail in service (R16, R17). BIN_RELEASE, ARRAY_TILE_FAULT. What it reads by inference or chooses: log entries 38, 39. -/

namespace Sys2Proof.Machine

/-! ### Lost marks -/

/-- The tile-lost mask of a bin that begins at an instant: the marks its hits left, and every tile whose lost mark covers it
(R183, R186). -/
def State.lostMask (s : State) (marks : Nat) (start : Int) : Nat :=
  s.tiles.foldl (fun m e =>
    let fresh := match e.2.freshAt with
      | some p => decide (start < p)
      | none => false
    if e.2.lostOpen || fresh then m ||| 2 ^ e.1 else m) marks

/-- Tiles that feed a context's slots from the bin in hand and from its beams' history (R198, R216). -/
def State.ctxMask (s : State) (c : Nat) (hist : List Released) : Nat :=
  let lost (k : Nat) : Nat := (hist[k]?.map (·.lost)).getD 0
  let one (r k : Nat) : Nat := 2 ^ (r / 64) &&& (lost 0 ||| lost k)
  (s.ctxSlots c).foldl (fun m e =>
    if e.1 then
      (s.weights 0 ++ s.weights 1).foldl (fun m w =>
        if w.1 = e.2 ∧ w.2.2.1 ≠ 0 then m ||| one w.2.1 w.2.2.2 else m) m
    else m ||| one e.2 0) 0

/-! ### Beams -/

/-- A die's partial sum of a beam over the released history (R196, R197). -/
def State.beamPart (s : State) (b die : Nat) (hist : List Released) : Int :=
  (s.weights die).foldl (fun a w =>
    if w.1 = b then
      match hist[w.2.2.2]? with
      | some x => a + w.2.2.1 * (Sparse.get 0 x.counts w.2.1 : Nat)
      | none => a
    else a) 0

/-- The requantised value and whether it saturated (R199): halves toward +∞, then the 8-bit limits. -/
def beamQuant (sum : Int) (shift : Nat) : Int × Bool :=
  let v := if shift = 0 then sum else (sum + 2 ^ (shift - 1)) / 2 ^ shift
  if 127 < v then (127, true) else if v < -128 then (-128, true) else (v, false)

/-- The value of a beam from the released history. -/
def State.beamValue (s : State) (b : Nat) (hist : List Released) : Int × Bool :=
  beamQuant (s.beamPart b 0 hist + s.beamPart b 1 hist) (s.tfld (oBeam b 0) 16 5)

/-- The enabled beams of running owners on a plane (R195, R196). -/
def State.planeBeams (s : State) (p : Nat) : List Nat :=
  (s.beams.filter fun e => decide ((s.ctx e.2).st = .running) && decide (s.ctxPlane e.2 = p)).map (·.1)

/-- The beams of a plane are formed on both dies; a saturated one is counted (R196, R199). -/
def State.formBeams (s : State) (p : Nat) (hist : List Released) : State :=
  s.each (s.planeBeams p) fun s b =>
    let s1 := (s.bump64 (sBeam 0) 0x020 1).bump64 (sBeam 1) 0x020 1
    if (s.beamValue b hist).2 then ((s1.tbump (oBeam b 1) 1).bump64 (sBeam 0) 0x028 1).evt (sBeam 0) 0 else s1

/-- A context's signals for the bin in hand, by local slot (R203). -/
def State.signals (s : State) (c : Nat) (hist : List Released) : List Int :=
  (s.ctxSlots c).map fun e =>
    if e.1 then (s.beamValue e.2 hist).1
    else match hist with
      | x :: _ => (Sparse.get 0 x.counts e.2 : Nat)
      | [] => 0

/-! ### Failed array tiles -/

/-- A failed tile's work moves at the group boundary (R16, R17); where neither a spare nor a free slice remains, the context stops.
DEDUCED (log entry 38). -/
def State.moveTile (s : State) (c die : Nat) : State :=
  let (none', s1) := s.retireTile die
  if none' then s1.ctxStop c 5 else s1

/-- Whether a context stands at an 8-bin group boundary (R206, R210). -/
def Cor.atGroup (x : Cor) : Bool :=
  match x.cur with
  | some h => decide (h.bins % 8 = 0) || decide (h.want ≤ h.bins)
  | none => true

/-- The failed tiles of a context move at the boundary it has reached. -/
def State.moveTiles (s : State) (c : Nat) : State :=
  let x := s.cor c
  if x.subst.isEmpty || !x.atGroup then s
  else (s.setCor c { x with subst := [] }).each x.subst fun s d => s.moveTile c d

/-- The limit value an accumulator is set to (R206, R17). -/
def accLimit (beam : Bool) (v : Int) : Int :=
  if beam then (if v < 0 then -(2 ^ 31) else 2 ^ 31 - 1) else 2 ^ 32 - 1

/-- A Harvest whose accumulator is pinned under R17 (R206, R215). -/
def Harv.pin (h : Harv) (key : Nat) (beam : Bool) : Harv :=
  { h with
    acc := Sparse.set 0 h.acc key (accLimit beam (Sparse.get 0 h.acc key)), fault := true
    pins := if h.pins.contains key then h.pins else key :: h.pins }

/-- Whether an accumulator still holds its value of the newest closed Harvest: its bit e is not E, since no group has written it
since the flip and the sweep is not over (R212). -/
def Cor.stale (x : Cor) (key : Nat) : Bool :=
  !x.sweep.isEmpty && !(x.cur.any fun h => h.written.contains key)

/-- The Harvest that an accumulator's value belongs to, changed (R212). -/
def Cor.onHarvest (x : Cor) (key : Nat) (f : Harv → Harv) : Cor :=
  if x.stale key then { x with sweep := x.sweep.dropLast ++ (x.sweep.getLast?.map f).toList } else { x with cur := x.cur.map f }

/-- The Harvest that an accumulator's value belongs to. -/
def Cor.harvestOf (x : Cor) (key : Nat) : Option Harv := if x.stale key then x.sweep.getLast? else x.cur

/-- A tile in service fails (R17): the accumulator whose write or read failed pins, in a resident run, in the Harvest that it still
holds, and the tile's work moves at the next boundary, or, of a stopping context, with it; in a blocked run the block is processed
again on the substitute. -/
def State.tileFault (s : State) (c i j lag die : Nat) : State :=
  let x := s.cor c
  if x.run = 0 then s
  else
    let s1 := s.bbrFault (sCor die) c 1
    if x.run = 2 then s1.moveTile c die
    else
      let key := 16 * pairIdx i j + lag
      let sl := s.ctxSlots c
      let beam := ((sl[i]?).map (·.1)).getD false || ((sl[j]?).map (·.1)).getD false
      let real := decide (i ≤ j) && decide (j < s.slotCnt c)
      let new := real && (x.harvestOf key).any fun h => !h.pins.contains key
      let s2 := if real then s1.setCor c (x.onHarvest key fun h => h.pin key beam) else s1
      let s3 := if new then s2.corPinned die else s2
      let y := s3.cor c
      let s4 := s3.setCor c { y with subst := y.subst ++ [die] }
      if x.closing then s4.retireTiles c else s4

/-! ### Release -/

/-- A released bin reaches the correlators, blocks and captures of the running contexts on its plane (R183, R205, R244,
R296). -/
def State.deliverBin (s : State) (p b orig : Nat) : State :=
  s.each (s.runningCtxs.filter fun c => s.usesPlane c && decide (s.ctxPlane c = p)) fun s c =>
    let hist := (s.plane p).hist
    let sig := s.signals c hist
    let lost := s.ctxMask c hist
    let s1 := match (s.cor c).run with
      | 0 => s
      | 1 => (s.residentBin c b orig sig lost).moveTiles c
      | _ => s.blockedBin c b orig sig lost
    match hist with
    | x :: _ => if s1.recEn c && s1.recBinEn c then s1.capBin c b orig x else s1
    | [] => s1

/-- The old grid is done: the beam history is emptied, and blocked contexts take up the grid with origin `a` (R68, R197, R256); a
resident one does so with its first bin (R222). -/
def State.gridDone (s : State) (p a : Nat) : State :=
  let s1 := s.setPlane p { s.plane p with hist := [] }
  s1.each (s1.runningCtxs.filter fun c => s1.usesPlane c && decide (s1.ctxPlane c = p)) fun s c =>
    if (s.cor c).run = 2 then s.blkNewGrid c a else s

/-- One bin leaves a grid: its counts and its mask (R183). -/
def State.takeBin (s : State) (g : Grid) (start : Int) : Released × Grid :=
  let own (e : Nat × Nat) : Bool := decide (e.1 / 4096 = g.next)
  ({ counts := (g.counts.filter own).map fun e => (e.1 % 4096, e.2)
     lost := s.lostMask (Sparse.get 0 g.marks g.next) start },
   { next := g.next + 1, counts := g.counts.filter (!own ·), marks := Sparse.del g.next g.marks })

/-- A bin is released to its consumers. -/
def State.releaseBin (s : State) (p b orig : Nat) (x : Released) : State :=
  let s1 := (s.setPlane p { s.plane p with hist := (x :: (s.plane p).hist).take 64 }).bump64 (sBin p) 0x020 1
  (s1.formBeams p (s1.plane p).hist).deliverBin p b orig

/-- The next bin of a plane is released when now − H passes its end (R183); the bin that straddles A ends at A (R68). -/
def State.binRelease (s : State) (p : Nat) : State :=
  let k := s.plane p
  let w := s.planeW p
  let lim := s.phys - s.horizon
  if !k.active then s
  else
    match k.old with
    | (o, a, g) :: r =>
      let orig : Int := 2000 * (o : Int)
      let stop := min (orig + ((g.next + 1) * w : Nat)) (2000 * (a : Int))
      if lim < stop then s
      else
        let (x, g') := s.takeBin g (orig + (g.next * w : Nat))
        let done := decide (lastBin o a w ≤ g.next)
        let s1 := (s.setPlane p { k with old := if done then r else (o, a, g') :: r }).releaseBin p g.next o x
        if done then s1.gridDone p a else s1
    | [] =>
      let orig : Int := 2000 * (s.solEdge : Int)
      if lim < orig + ((k.grid.next + 1) * w : Nat) then s
      else
        let (x, g') := s.takeBin k.grid (orig + (k.grid.next * w : Nat))
        (s.setPlane p { k with grid := g' }).releaseBin p k.grid.next s.solEdge x

/-- A Solstice ends the grid of every active plane (R68). Called with the new origin in force; `o` is the old one. -/
def State.planesSolstice (s : State) (o : Nat) : State :=
  s.each ((List.range 4).filter fun p => (s.plane p).active) fun s p =>
    let k := s.plane p
    s.setPlane p { k with old := k.old ++ [(o, s.solEdge, k.grid)], grid := {} }

/-! ### Commands -/

/-- BIN_RELEASE (R183). -/
def execBinRelease (t : Nat) (p : Fin 4) : State → Host.Outcome State Fault Refusal :=
  command t fun s => (s.binRelease p).settle

/-- ARRAY_TILE_FAULT (R17). -/
def execArrayTileFault (t : Nat) (c : Fin 512) (i j : Fin 2048) (lag : Fin 16) (die : Fin 2) :
    State → Host.Outcome State Fault Refusal := command t fun s => (s.asOf c fun s => s.tileFault c i j lag die).settle

end Sys2Proof.Machine
end

