-- ==== Sys2Proof/Machine/ClockOutputs.lean ====
section
/-! DEFINITION. The clock outputs (02_time_base.md, R51 to R58): the rule of each output's edges, and how it moves at an
application edge, a Solstice, a gating or an enable. CKO_APPLY. What it reads by inference or chooses: log entry 28. -/

namespace Sys2Proof.Machine

/-- The base cycle in qps, the period, the high time and the origin of an output's rule (R51). -/
def State.ckoB (s : State) (n : Nat) : Nat := if s.rbit (sCko n) 0x014 3 then 4000 else 500
def State.ckoDiv (s : State) (n : Nat) : Nat := (s.reg (ra (sCko n) 0x018)).toNat
def State.ckoPer (s : State) (n : Nat) : Nat := s.ckoDiv n * s.ckoB n
def State.ckoHigh (s : State) (n : Nat) : Nat :=
  let w := (s.reg (ra (sCko n) 0x020)).toNat
  (if w = 0 then s.ckoDiv n / 2 else w) * s.ckoB n
def State.ckoOrigin (s : State) (n : Nat) : Int :=
  2000 * (s.solEdge : Int) + ((s.reg (ra (sCko n) 0x01C)).toNat * s.ckoB n : Nat)

/-- The last rising edge of an output's rule at or before an instant (R51). -/
def State.ckoRise (s : State) (n : Nat) (p : Int) : Int :=
  s.ckoOrigin n + (p - s.ckoOrigin n) / (s.ckoPer n : Int) * s.ckoPer n

/-- `CKO.STAT.DISABLED` (R55). -/
def State.ckoDisabled (s : State) (n : Nat) : Bool :=
  !s.pageOn (sCko n) || !s.commit.ever || decide (s.dev = .dormant)

/-- An output has come to a falling edge at which it was to stop (R55, R58). -/
def State.ckoEnded (s : State) (x : Option Int) : Bool :=
  match x with
  | some f => decide (f ≤ s.phys)
  | none => false

/-- No edge leaves an output before the first commit and in DORMANT, whatever ENABLE says (R55). -/
def State.ckoIdle (s : State) : Bool := !s.commit.ever || decide (s.dev = .dormant)

/-- `CKO.STAT.RUNNING`: edges leave the pin, up to the falling edge at which the output stops. -/
def State.ckoRunning (s : State) (n : Nat) : Bool :=
  let c := s.cko n
  !s.ckoIdle && !c.gatedLock && !s.ckoEnded c.offAt && !s.ckoEnded c.stopAt

/-- The falling edge that ends the present high time, or the last one. -/
def State.ckoFall (s : State) (n : Nat) : Int :=
  let c := s.cko n
  let r := s.ckoRise n s.phys
  if s.ckoRunning n && decide (c.from' ≤ r) then r + s.ckoHigh n else c.highUntil

/-- The first rising edge of an output's rule at or after an instant (R51). -/
def State.ckoRiseFrom (s : State) (n : Nat) (p : Int) : Int :=
  let r := s.ckoRise n p
  if r = p then r else r + s.ckoPer n

/-- The next falling edge: of the present high time, or of the next one (R55, R58); none is awaited of an output that does not
run. -/
def State.ckoNextFall (s : State) (n : Nat) : Int :=
  let f := s.ckoFall n
  if !s.ckoRunning n then min s.phys f
  else if s.phys < f then f
  else s.ckoRiseFrom n (max s.phys (s.cko n).from') + s.ckoHigh n

/-- The level of a clock output before its inversion (R51, R54). -/
def State.ckoLevel (s : State) (n : Nat) : Bool := decide (s.phys < s.ckoFall n)

/-- The level at the P ball, N being its complement: INV inverts it while the output runs, and otherwise P is low (R49). -/
def State.ckoPin (s : State) (n : Nat) : Bool := s.ckoRunning n && (s.ckoLevel n != s.rbit (sCko n) 0x014 8)

/-- An output leaves its rule: the present high time completes, and no rising edge leaves until 500 ps after its falling
edge (R54). -/
def State.ckoMove (s : State) (n : Nat) : State :=
  let f := s.ckoFall n
  s.setCko n { s.cko n with from' := max s.phys (f + 2000), highUntil := f }

/-- With a new rule in force the falling edge at which a low output is to stop is the new rule's next one (R55, R58). -/
def State.ckoRestop (s : State) (n : Nat) : State :=
  let c := s.cko n
  let next := s.ckoNextFall n
  let move (x : Option Int) : Option Int := x.map fun f => if f ≤ s.phys then f else next
  s.setCko n { c with offAt := move c.offAt, stopAt := move c.stopAt }

/-- An output is gated: at once for lack of lock, at its next falling edge under STOP (R49, R58). -/
def State.ckoGate (s : State) (n : Nat) (lock stop : Bool) : State :=
  let c := s.cko n
  let f := if lock then min s.phys (s.ckoFall n) else c.highUntil
  let s1 := s.setCko n { c with
    gatedLock := c.gatedLock || lock, gatedStop := c.gatedStop || stop, highUntil := f
    stopAt := if stop then c.stopAt.or (some (s.ckoNextFall n)) else c.stopAt }
  if c.gatedLock || c.gatedStop then s1 else s1.evt (sCko n) 0

/-- A gating cause ends: the output resumes at the first rising edge after the declaration of lock, or at least 500 ps after
the release of STOP (R49, R58). -/
def State.ckoUngate (s : State) (n : Nat) (lock stop : Bool) : State :=
  let c := s.cko n
  let on := s.ckoRunning n
  s.setCko n { c with
    gatedLock := c.gatedLock && !lock, gatedStop := c.gatedStop && !stop
    stopAt := if stop then none else c.stopAt
    highUntil := if on then s.ckoFall n else c.highUntil
    from' := max c.from' (if stop then s.phys + 2000 else if c.gatedLock then s.phys + 1 else c.from') }

/-- The outputs of a synthesis loop (R49): 0 PLL_T, 1 PLL_C. -/
def State.ckosOf (s : State) (loop : Nat) : List Nat := (List.range 16).filter fun n => s.rfld (sCko n) 0x014 2 1 = loop

/-- `PAGE_CTRL.ENABLE` of an output (R55): set, it starts at its next rising edge; cleared, it stops at its next falling
edge. -/
def State.ckoEnable (s : State) (n : Nat) (en : Bool) : State :=
  let f := s.ckoFall n
  let next := s.ckoNextFall n
  let c := s.cko n
  let s1 := s.setRfld (sCko n) 0x010 1 1 (b2n en)
  s1.setCko n (if en then { c with from' := max c.from' s.phys, highUntil := f, offAt := none } else { c with offAt := some next })

/-- Values that wait for one output. -/
def State.ckoNew (s : State) (n : Nat) : List (Nat × Word) :=
  s.ckoWait.filter fun e => decide (e.1 / 0x400 = sCko n)

/-- The waiting set takes effect on one output: only an output whose values change leaves its rule (R53, R54), unless it has
left it already, as at a Solstice; the gates follow its new SRC and STOP_GATE. -/
def State.ckoTake (s : State) (left : Bool) (n : Nat) : State :=
  let l := s.ckoNew n
  if l.isEmpty then s
  else
    let s1 := if !left && l.any fun e => decide (s.reg e.1 ≠ e.2) then s.ckoMove n else s
    let s2 := (s1.each l fun s e => s.setReg e.1 e.2).ckoRestop n
    let c := s2.cko n
    let locked := if s2.rbit (sCko n) 0x014 2 then s2.loop.lockC else s2.loop.lockT
    let stop := s2.stopOn && s2.rbit (sCko n) 0x014 9
    let s3 := if !locked && !c.gatedLock then s2.ckoGate n true false else if locked && c.gatedLock then s2.ckoUngate n true false else s2
    let s4 := if stop && !c.gatedStop then s3.ckoGate n false true else if !stop && c.gatedStop then s3.ckoUngate n false true else s3
    s4.evt (sCko n) 1

/-- The waiting set of every output takes effect together (R53). -/
def State.ckoTakeAll (s : State) (left : Bool) : State :=
  { s.each (List.range 16) (State.ckoTake · left) with ckoWait := [], ckoDue := none }

/-- The application edge of the waiting set. -/
def State.ckoApply (s : State) : State :=
  match s.ckoDue with
  | some e => if e ≤ s.now then s.ckoTakeAll false else s
  | none => s

/-! ### Commands -/

/-- CKO_APPLY (R53). -/
def execCkoApply (t : Nat) : State → Host.Outcome State Fault Refusal := command t State.ckoApply

end Sys2Proof.Machine
end

