-- ==== Sys2Proof/Machine/TimeBase.lean ====
section
/-! DEFINITION. References, the reference loop, Winter and Thaw, and the synthesis loops (02_time_base.md, R29 to R50).
REF_EDGE, REF_EDGE_MISSING, REF_WINDOW_END, REF_QUALIFIED, REF_TICK, PULL_DONE, PLL_LOCK, PLL_LOCK_LOSS, OSC_LOSS,
OSC_RETURN. What it reads by inference or chooses: log entries 26, 27. -/

namespace Sys2Proof.Machine

/-! ### Registers of the CLK page -/

def State.refCfg (s : State) (x lo w : Nat) : Nat := s.rfld sClk (0x018 + 4 * x) lo w
def State.refFreq (s : State) (x : Nat) : Nat := (s.reg (ra sClk (0x028 + 4 * x))).toNat
def State.refTarget (s : State) (x : Nat) : Int := signed 64 (s.reg64 sClk (0x084 + 8 * x))
def State.setTarget (s : State) (x : Nat) (v : Int) : State := s.setReg64 sClk (0x084 + 8 * x) (m64 v)
def State.slew (s : State) : Nat := s.rfld sClk 0x048 0 20

/-- qps in a second. -/
abbrev qpsSec : Nat := 4_000_000_000_000

/-- Coarse edges in a second. -/
abbrev edgesSec : Nat := 2_000_000_000

/-- `CLK.REF_STAT`. -/
def State.refStat (s : State) : Nat :=
  ((List.range 4).map fun x =>
    let r := s.ref x
    (b2n r.qualified + 2 * b2n r.active + 4 * b2n r.freqFail + 8 * b2n r.missFail) * 16 ^ x).sum

/-- The code of a loop state. -/
def loopCode (m : LoopMode) : Nat :=
  match m with
  | .winter => 0
  | .pulling => 1
  | .tracking => 2
  | .thaw => 3

/-- `CLK.STATE`. -/
def State.clkState (s : State) : Nat :=
  loopCode s.loop.mode + s.loop.active.getD 0 * 16 + b2n s.loop.active.isSome * 2 ^ 6 + b2n s.loop.hist * 2 ^ 7 +
    b2n s.loop.lockT * 2 ^ 8 + b2n s.loop.lockC * 2 ^ 9 + b2n s.loop.oscOk * 2 ^ 10

/-- The loop is in a Winter that has not ended: WINTER, or a Thaw that began there (R44, R45, R331). -/
def Loop.inWinter (l : Loop) : Bool :=
  decide (l.mode = .winter) || (decide (l.mode = .thaw) && (match l.pull with
    | some k => decide (k.pair = none) || decide (k.pair = some .winter)
    | none => true))

/-- `CLK.WINTER_TIME`: whole seconds of the current Winter, which a Thaw ends when it is complete, or of the last
(R44). -/
def State.winterTime (s : State) : Nat :=
  if s.loop.inWinter then min (2 ^ 32 - 1) ((s.now - s.loop.winterFrom) / edgesSec)
  else s.loop.winterSecs

/-- A bit of REF_STAT has changed since a state (`CLK.PAGE_EVT.QUAL_CHG`). -/
def State.refNote (s : State) (old : Nat) : State := if s.refStat = old then s else s.evt sClk 4

/-! ### Phase -/

/-- A value folded into (−T/2, +T/2] for T = 1 / F, to the nearest qps (R38). -/
def foldT (v : Int) (freq : Nat) : Int :=
  let r := (v * freq) % (qpsSec : Int)
  rne (if (qpsSec : Int) < 2 * r then r - qpsSec else r) freq

/-- The epoch of an instant as the loop compares it: counted from the last Solstice, with the counter's wrap. -/
def State.loopEpoch (s : State) (p : Int) : Int :=
  let d := p - 2000 * (s.solEdge : Int)
  if d < 0 then d else d % 2 ^ 64

/-- The folded error of a reference at its last selected edge (R38, R39). -/
def State.refErr (s : State) (x : Nat) : Int :=
  match (s.ref x).lastSel with
  | some p => foldT (s.loopEpoch p - s.refTarget x) (s.refFreq x)
  | none => 0

/-- Coarse edges that a pull of an error takes (R39): |e| / PHASE_SLEW, in 0.1 ps/s. -/
def pullLen (e : Int) (slew : Nat) : Nat := cdiv (e.natAbs * 5_000_000_000) slew

/-- The remaining move of the pull in progress (R39). -/
def State.pullLeft (s : State) : Int :=
  match s.loop.pull with
  | some k =>
    let gone := k.slew * (s.now - k.start) / 5_000_000_000
    let left := k.e.natAbs - gone
    if k.e < 0 then -(left : Int) else left
  | none => 0

/-- `CLK.PHASE_ERR`: during a pull the remaining target offset, which starts at e (R39). DEDUCED (log entry 27). -/
def State.phaseErr (s : State) : Int := if s.loop.pull.isSome then s.pullLeft else s.loop.err

/-! ### Steering -/

/-- The steering word of the loop filter: 40 bits, signed, its value not stated (R30, R39). -/
def State.filterStep (s : State) : State :=
  let w := signed 40 (unsign 40 (Config.filterWord s.freeCtr))
  let l := s.loop
  { s with
    freeCtr := s.freeCtr + 1
    loop := { l with
      steer := w
      spans := if l.mode = LoopMode.tracking ∧ w ≠ l.steer then (l.steer, s.now - l.spanFrom) :: l.spans else l.spans
      hist := l.hist || (decide (l.mode = .tracking) && decide (l.spanFrom < s.now))
      spanFrom := if w ≠ l.steer then s.now else l.spanFrom } }

/-- Sum of steering word × length, and length, over the newest spans up to a length (R42). -/
def spanSum : List (Int × Nat) → Nat → Int × Nat
  | [], _ => (0, 0)
  | (w, n) :: r, lim =>
    let k := min n lim
    let (a, b) := spanSum r (lim - k)
    (a + w * k, b + k)

/-- `CLK.FREERUN`. -/
def State.freerun (s : State) : Int := signed 40 (s.reg64 sClk 0x060)

/-- Leaving TRACKING closes the span. -/
def Loop.endSpan (l : Loop) (now : Nat) : Loop :=
  if l.mode = .tracking then
    { l with spans := (l.steer, now - l.spanFrom) :: l.spans, hist := l.hist || decide (l.spanFrom < now) }
  else l

/-- The mean steering word of the last 2^HOLD_AVG s of TRACKING, or `CLK.FREERUN` where there has been none (R42):
the nearest word, ties to even. DESIGN CHOICE (log entry 53). -/
def State.holdWord (s : State) (l : Loop) : Int :=
  let (a, n) := spanSum l.spans (2 ^ s.rfld sClk 0x058 0 5 * edgesSec)
  if n = 0 then s.freerun else rne a n

/-- The loop enters Winter (R42, R45): the history value is held, the same one when a Thaw is given up. -/
def State.enterWinter (s : State) : State :=
  let pairW := match s.loop.pull with
    | some k => decide (k.pair = some .winter)
    | none => false
  if s.loop.mode = .winter ∨ pairW = true then s
  else
    let l := s.loop.endSpan s.now
    let thaw := decide (l.mode = LoopMode.thaw) && l.inWinter
    let w := if thaw then l.held else s.holdWord l
    let s1 := { s with
      loop := { l with
        mode := .winter, active := none, steer := w, held := w, pull := none, pullDue := false
        winterFrom := if thaw then l.winterFrom else s.now }
      par := { s.par with pthaw := false } }
    (s1.evt sClk 1).bbrPush 9 sClk [0, s1.winterTime]

/-- A pull toward a reference begins from the present phase (R39, R45, R46); it is a Thaw when it leaves Winter, or one
already in progress. The pull keeps the `CLK.PHASE_SLEW` in force at its start. DESIGN CHOICE (log entry 53). -/
def State.startPull (s : State) (x : Nat) : State :=
  let e := s.refErr x
  let l := s.loop.endSpan s.now
  let thaw := l.inWinter
  let s1 := { s with
    loop := { l with
      mode := if thaw then .thaw else .pulling, active := some x, pullDue := false
      pull := some { e := e, start := s.now, slew := s.slew } }
    par := { s.par with pthaw := false } }
  let s2 := if l.active = some x then s1 else (s1.evt sClk 0).bbrPush 8 sClk [s1.clkState, s1.refStat, 0]
  if 24 * s.slew < e.natAbs then s2.evt sClk 8 else s2

/-! ### Qualification -/

/-- A reference is disqualified, or a failure restarts its count (R33). -/
def State.refFail (s : State) (x : Nat) (miss : Bool) : State :=
  let r := s.ref x
  if r.qualified then
    let s1 := s.setRef x { r with qualified := false, missFail := miss, freqFail := !miss, okSince := s.now }
    s1.bbrPush 8 sClk [s1.clkState, s1.refStat, 1]
  else s.setRef x { r with okSince := s.now }

/-- A selected edge arrives within T/2 of its expected time, or none has (R33). -/
def State.missDue (s : State) (x : Nat) : Bool :=
  let r := s.ref x
  match r.lastSel with
  | some p => decide ((p * (s.refFreq x : Int) + ((2 * (r.misses + 1) + 1) * (qpsSec / 2) : Nat)) ≤ s.phys * (s.refFreq x : Int))
  | none => false

/-- REF_EDGE_MISSING: MISS consecutive misses disqualify a reference; a miss of one that has not qualified restarts its
count (R33). -/
def State.refMissing (s : State) (x : Nat) : State :=
  if s.missDue x then
    let r := s.ref x
    let s1 := s.setRef x { r with misses := r.misses + 1 }
    let s2 := if !r.qualified || decide (s.refCfg x 24 4 ≤ r.misses + 1) then s1.refFail x true else s1
    s2.refNote s.refStat
  else s

/-- The length of a frequency window in coarse edges: the longer of 16 T and 10 ms (R33). -/
def State.winLen (s : State) (x : Nat) : Nat := max (cdiv (16 * edgesSec) (s.refFreq x)) 20_000_000

/-- A window of n intervals over a span passes: the frequency check, and the steering word it would need (R30, R33). -/
def State.winPass (s : State) (x : Nat) : Bool :=
  let r := s.ref x
  match r.winFirst, r.winLast with
  | some a, some b =>
    let n := (r.winCount - 1) * qpsSec
    let want := (b - a).toNat * s.refFreq x
    let off := ((n : Int) - want).natAbs
    decide (2 ≤ r.winCount) && decide (0 < want) && decide (off * 10_000_000 ≤ s.refCfg x 8 8 * want) &&
      decide ((((2 ^ 48 + s.loop.steer) * n - 2 ^ 48 * (want : Int))).natAbs ≤ 2 ^ 39 * want)
  | _, _ => false

/-- REF_WINDOW_END (R32, R33): the window is judged once, from the selected edges it holds; the next one follows it at
once. DEDUCED (log entry 26). The mean of R32 is the sum over the count, rounded down, and 0 before the first window has ended.
DESIGN CHOICE (log entry 53). -/
def State.refWindow (s : State) (x : Nat) : State :=
  let r := s.ref x
  if r.winStart + s.winLen x ≤ s.now then
    let s1 := if s.winPass x then s else s.refFail x false
    let r1 := s1.ref x
    (s1.setRef x { r1 with
      winStart := r.winStart + s.winLen x, winFirst := none, winLast := none, winCount := 0
      oppMean := if r.oppCount = 0 then r.oppMean else r.oppSum / r.oppCount
      oppSum := 0, oppCount := 0 }).refNote s.refStat
  else s

/-- REF_QUALIFIED (R33, R38): the checks have passed for QUAL_TIME; after its first qualification a reference adopts its
target at its next selected edge. -/
def State.refQualify (s : State) (x : Nat) : State :=
  let r := s.ref x
  if !r.qualified && r.lastSel.isSome && decide (r.okSince + s.refCfg x 16 8 * 200_000_000 ≤ s.now) && !s.missDue x then
    (s.setRef x { r with
      qualified := true, everQualified := true
      adoptDue := r.adoptDue || (!r.everQualified && decide (s.refCfg x 5 1 = 1)) }).refNote s.refStat
  else s

/-! ### Edges -/

/-- A selected edge of a reference enters its qualifier, and sets the target where one is to be adopted (R32, R33, R38). -/
def State.refSelected (s : State) (x : Nat) (p : Int) : State :=
  let r := s.ref x
  let s1 := s.setRef x { r with
    active := true, misses := 0, lastSel := some p, lastAny := some p, okSince := if r.lastSel.isNone then s.now else r.okSince
    winFirst := if r.winCount = 0 then some p else r.winFirst, winLast := some p, winCount := r.winCount + 1
    skip := !r.skip, adoptDue := r.adoptDue && decide (p < 2000 * (s.solEdge : Int)) }
  if r.adoptDue && decide (2000 * (s.solEdge : Int) ≤ p) && decide (s.refCfg x 5 1 = 1) then
    let s2 := s1.setTarget x (foldT (s.loopEpoch p) (s.refFreq x))
    if decide (s.loop.active = some x) && s.loop.pull.isSome then s2.startPull x else s2
  else s1

/-- An edge of the other polarity: the interval from the selected edge before it (R32). -/
def State.refOpposite (s : State) (x : Nat) (p : Int) : State :=
  let r := s.ref x
  match r.lastSel with
  | some q =>
    if r.lastAny = some q then
      s.setRef x { r with lastAny := some p, oppSum := r.oppSum + (p - q), oppCount := r.oppCount + 1 }
    else s.setRef x { r with lastAny := some p }
  | none => s.setRef x { r with lastAny := some p }

/-- A compared edge of the active reference (R32, R38, R39): the error is read, a pull that is due begins, and the filter
steers. -/
def State.refCompare (s : State) (x : Nat) (p : Int) (sel skip : Bool) : State :=
  let pre := s.refCfg x 0 2
  let cmp := if sel then !(decide (pre = 2) && skip) else decide (pre = 1)
  if cmp && decide (s.loop.active = some x) && decide (s.loop.mode ≠ .winter) then
    let tgt := s.refTarget x + (if sel then 0 else (s.ref x).oppMean)
    let e := foldT (s.loopEpoch p - tgt) (s.refFreq x)
    let s1 := { s with loop := { s.loop with err := e } }
    let s2 := if s.loop.pullDue && decide (2000 * (s.solEdge : Int) ≤ p) then s1.startPull x else s1
    s2.filterStep
  else s

/-- REF_EDGE (R32): every transition is stamped and handed on as source 4192 + x; then the qualifier and the loop. -/
def State.refEdge (s : State) (x t q : Nat) (rising : Bool) : State :=
  if (s.stamper (96 + x)).booted then
    let (st, s1) := s.plainStamp (96 + x) (4192 + x) t q rising 0
    let s2 := if s1.condUses st.src then { s1 with condIn := s1.condIn ++ [.edge st] } else s1
    let s3 := s2.distribute st
    let sel := rising == decide (s.refCfg x 4 1 = 0)
    let skip := (s.ref x).skip
    let s4 := if sel then s3.refSelected x st.phys else s3.refOpposite x st.phys
    (s4.refCompare x st.phys sel skip).refNote s.refStat
  else s

/-! ### The tick -/

/-- The references that the mode may select, best first (R35). -/
def State.candidates (s : State) : List Nat :=
  let w := s.reg (ra sClk 0x014)
  let sel := fld w 2 2
  let list := ([fld w 8 2, fld w 10 2, fld w 12 2, fld w 14 2].reverse.dedup.reverse).filter fun x =>
    bit w (16 + x) && (s.ref x).qualified
  match fld w 0 2 with
  | 0 => (if (s.ref sel).qualified then [sel] else []) ++ list.filter (· ≠ sel)
  | 1 => list
  | _ => []

/-- Until there has been TRACKING the held word of Winter is `CLK.FREERUN`, also when a commit gives it a new value (R42). -/
def State.freerunHeld (s : State) : State :=
  let l := s.loop
  if l.inWinter && !l.hist then
    { s with loop := { l with held := s.freerun, steer := if l.mode = .winter then s.freerun else l.steer } }
  else s

/-- A committed CLK set takes effect (R38, R345, R46). -/
def State.clkApply (s : State) : State :=
  if s.loop.comm then
    let old (a : Nat) := s.reg a
    let s1 := s.each s.clkWait fun s e => s.setReg e.1 e.2
    let hit (x : Nat) : Bool := !s.loop.ofsSet || decide (old (ra sClk (0x038 + 4 * x)) ≠ s1.reg (ra sClk (0x038 + 4 * x))) ||
      decide (fld (old (ra sClk (0x018 + 4 * x))) 5 1 ≠ s1.refCfg x 5 1)
    let s2 := s1.each ((List.range 4).filter hit) fun s x =>
      s.setTarget x (signed 32 (s.reg (ra sClk (0x038 + 4 * x))).toNat)
    let w := s1.reg (ra sClk 0x014)
    let pend := decide (fld w 0 2 = 0) && (decide (fld (old (ra sClk 0x014)) 0 4 ≠ fld w 0 4))
    let s3 := s2.freerunHeld
    { s3 with
      clkWait := []
      loop := { s3.loop with
        comm := false, ofsSet := true, selPend := s3.loop.selPend || pend
        changed := s3.loop.changed || (match s3.loop.active with
          | some x => hit x
          | none => false) } }
  else s

/-- `ACT_x` falls 2 T after the last edge (`CLK.REF_STAT`). -/
def State.actFall (s : State) (x : Nat) : State :=
  let r := s.ref x
  match r.lastSel with
  | some p =>
    if r.active && decide (p * (s.refFreq x : Int) + (2 * qpsSec : Nat) < s.phys * (s.refFreq x : Int)) then
      s.setRef x { r with active := false }
    else s
  | none => s

/-- The selection decision of a tick: at most one switch (R35, R36, R37, R46). While a committed SEL has not qualified, the loop
stays on its present reference, listed or not (R37). -/
def State.selectRef (s : State) : State :=
  if s.loop.oscHold then s
  else
    let w := s.reg (ra sClk 0x014)
    let mode := fld w 0 2
    let sel := fld w 2 2
    let cands := s.candidates
    let act := s.loop.active
    let held := match act with
      | some x => cands.contains x
      | none => false
    let stay := match act with
      | some x => s.loop.selPend && !(s.ref sel).qualified && (s.ref x).qualified
      | none => false
    let s1 := if stay && !held then (match act with
        | some x => if s.loop.changed then s.startPull x else s
        | none => s)
      else match cands with
      | [] => s.enterWinter
      | want :: _ =>
        if !held then s.startPull want
        else if decide (act ≠ some want) &&
            ((s.loop.selPend && decide (want = sel)) || (bit w 4 && (decide (mode = 1) || decide (want = sel)))) then
          s.startPull want
        else match act with
          | some x => if s.loop.changed then s.startPull x else s
          | none => s
    { s1 with loop := { s1.loop with
        changed := false, selPend := s1.loop.selPend && decide (mode = 0) && decide (s1.loop.active ≠ some sel) } }

/-- REF_TICK (R35). -/
def State.refTick (s : State) : State :=
  let s1 := (s.each (List.range 4) State.actFall).refNote s.refStat
  s1.clkApply.selectRef

/-- PULL_DONE (R39, R45, R331): the state is TRACKING from the end of the move; a pair Thaw returns to the state it came from,
with each reference's target moved to its present phase. -/
def State.pullDone (s : State) : State :=
  match s.loop.pull with
  | some k =>
    if k.start + pullLen k.e k.slew ≤ s.now then
      match k.pair with
      | some m =>
        let s1 := s.each ((List.range 4).filter fun x => (s.ref x).lastSel.isSome) fun s x =>
          s.setTarget x (foldT (s.refTarget x + s.refErr x) (s.refFreq x))
        { s1 with
          loop := { s1.loop with mode := m, pull := none, spanFrom := s1.now }
          par := { s1.par with pthaw := false } }
      | none =>
        let s1 := { s with loop := { s.loop with
          mode := .tracking, pull := none, spanFrom := s.now, winterSecs := s.winterTime } }
        if s.loop.mode = .thaw then (s1.evt sClk 2).bbrPush 9 sClk [1, s1.winterTime] else s1.evt sClk 3
    else s
  | none => s

/-! ### Lock -/

/-- Both loops are locked in LOCKING: the device runs, or is stopped (R346, R361). -/
def State.lockEnter (s : State) : State :=
  if s.dev = .locking ∧ s.loop.lockT ∧ s.loop.lockC then
    if s.stopOn then s.enter .stopped else (s.enter .running).bootStart
  else s

/-- The fractional feedback ratio that brings a VCO to 8 GHz with s = 0, as a numerator and a denominator (R29). -/
def State.pllRatio (s : State) : Nat × Nat := (8_000_000_000, (s.reg (ra sClk 0x05C)).toNat)

/-- The coarse edges of `CLK.LOCK_CNT` input cycles, four VCO cycles each (R47). -/
def State.lockEdges (s : State) : Nat :=
  let (n, d) := s.pllRatio
  cdiv (s.rfld sClk 0x050 0 16 * n) (4 * d)

/-- Whether a phase error, in qps, lies within ±`CLK.LOCK_WIN` × 0.1 ns (R47). -/
def State.errInWindow (s : State) (err : Nat) : Bool := decide (err ≤ 400 * s.rfld sClk 0x04C 0 10)

/-- A synthesis loop declares lock (R47, R49, R50): 0 PLL_T, 1 PLL_C. `LOCK_CNT` cycles of its input, at the rate in
`CLK.OSC_FREQ`, have passed since the last one outside the window, `err` the largest error among them. -/
def State.pllLock (s : State) (k err : Nat) : State :=
  let l := s.loop
  if (if k = 0 then l.lockT else l.lockC) || (l.oscHold && !l.oscOk) || !s.errInWindow err ||
      decide (s.now < (if k = 0 then l.outT else l.outC) + s.lockEdges) then s
  else
    let s1 := { s with loop :=
      if k = 0 then { l with lockT := true, oscOk := true, oscHold := false } else { l with lockC := true, oscOk := true } }
    let s2 := s1.bbrPush 7 sClk [k, 1]
    let s3 := if s2.loop.lockT && s2.loop.lockC then s2.evt sClk 7 else s2
    let s4 := s3.each (s3.ckosOf k) fun s n => s.ckoUngate n true false
    let s5 := if k = 0 then
        (s4.each (List.range 32) fun s n => s.toutUngate n true false false).each (s4.cal.chans.map (·.1)) State.calTryStep
      else s4
    s5.lockEnter

/-- A synthesis loop declares loss of lock (R47, R49, R50): a cycle lies outside the window. -/
def State.pllLoss (s : State) (k : Nat) : State :=
  let l := s.loop
  if if k = 0 then l.lockT else l.lockC then
    let s1 := { s with loop := if k = 0 then { l with lockT := false, outT := s.now } else { l with lockC := false, outC := s.now } }
    let s2 := (s1.evt sClk (5 + k)).bbrPush 7 sClk [k, 0]
    let s3 := s2.each (s2.ckosOf k) fun s n => s.ckoGate n true false
    if k = 0 then (s3.each (List.range 32) fun s n => s.toutGate n true false false).each (s3.cal.chans.map (·.1)) State.calAbandon
    else s3
  else s

/-- A cycle whose phase error lies outside the window (R47): a locked loop loses lock, and the count begins again. -/
def State.pllCycle (s : State) (k err : Nat) : State :=
  if s.errInWindow err then s
  else if if k = 0 then s.loop.lockT else s.loop.lockC then s.pllLoss k
  else { s with loop := if k = 0 then { s.loop with outT := s.now } else { s.loop with outC := s.now } }

/-- OSC_LOSS (R46, R48): both loops lose their input, and the reference loop enters Winter with its history. -/
def State.oscLoss (s : State) : State :=
  let s1 := { s with loop := { s.loop with oscOk := false, oscHold := true } }
  (((s1.evt sClk 9).pllLoss 0).pllLoss 1).enterWinter

/-- OSC_RETURN (R412): the input is back; the epoch replicas have counted without pause. -/
def State.oscReturn (s : State) : State := { s with loop := { s.loop with oscOk := true, outT := s.now, outC := s.now } }

/-- A Solstice meets the reference loop (R38, R46, R68). `last` is the epoch held at A. -/
def State.loopSolstice (s : State) (last : Nat) : State :=
  let s1 := s.each (List.range 4) fun s x => s.setRef x { s.ref x with adoptDue := true }
  match s.loop.active with
  | some x =>
    if s.refCfg x 5 1 = 0 ∧ foldT last (s.refFreq x) ≠ 0 ∧ s.loop.mode ≠ .winter then
      { s1 with loop := { s1.loop with pullDue := true } }
    else s1
  | none => s1

/-! ### Commands -/

/-- REF_EDGE (R32). -/
def execRefEdge (t : Nat) (x : Fin 4) (rising : Bool) (q : Nat) : State → Host.Outcome State Fault Refusal :=
  command t fun s => s.refEdge x t q rising

/-- REF_EDGE_MISSING (R33). -/
def execRefEdgeMissing (t : Nat) (x : Fin 4) : State → Host.Outcome State Fault Refusal := command t fun s => s.refMissing x

/-- REF_WINDOW_END (R33). -/
def execRefWindowEnd (t : Nat) (x : Fin 4) : State → Host.Outcome State Fault Refusal := command t fun s => s.refWindow x

/-- REF_QUALIFIED (R33). -/
def execRefQualified (t : Nat) (x : Fin 4) : State → Host.Outcome State Fault Refusal := command t fun s => s.refQualify x

/-- REF_TICK (R35). -/
def execRefTick (t : Nat) : State → Host.Outcome State Fault Refusal := command t fun s => s.refTick.wakeAll

/-- PULL_DONE (R39). -/
def execPullDone (t : Nat) : State → Host.Outcome State Fault Refusal := command t fun s => s.pullDone.wakeAll

/-- PLL_LOCK (R47). -/
def execPllLock (t : Nat) (x : LoopErr) : State → Host.Outcome State Fault Refusal :=
  command t fun s => s.pllLock x.loop x.err

/-- PLL_LOCK_LOSS (R47). -/
def execPllLockLoss (t : Nat) (x : LoopErr) : State → Host.Outcome State Fault Refusal :=
  command t fun s => s.pllCycle x.loop x.err

/-- OSC_LOSS (R48). -/
def execOscLoss (t : Nat) : State → Host.Outcome State Fault Refusal := command t fun s => s.oscLoss.wakeAll

/-- OSC_RETURN (R412). -/
def execOscReturn (t : Nat) : State → Host.Outcome State Fault Refusal := command t State.oscReturn

end Sys2Proof.Machine
end

