-- ==== Sys2Proof/Machine/Pair.lean ====
section
/-! DEFINITION. Pair operation (17_pair_redundancy.md): the claim bus, withholding, alignment and the pair Thaw, the pair link
and the mirror; the state word of a context (R258). CLAIM_SOF, CLAIM_SOF_SEEN, CLAIM_FRAME, BUS_FAULT, THAW_TIMEOUT,
PAIR_STATE, PAIR_STATE_TX, MIRROR, MIRROR_TX, PAIR_LINK_TIMEOUT, PAIR_LANE_LOSS. What it reads by inference or chooses: log entry 49. -/

namespace Sys2Proof.Machine

/-- Fields of `PAR.CFG` in force. -/
def State.parF (s : State) (lo w : Nat) : Nat := nfld s.par.cfg lo w

/-! ### Health and status -/

/-- The conditions of R324 that fail: UNLOCKED, NOT_COMMITTED, FAULT, WINTER_LONG, at bits 11 to 14 of `PAR.STAT`. -/
def State.parCause (s : State) : Nat :=
  let fatal := (s.loop.oscHold && !s.loop.oscOk) || s.boot.recovery || (s.stampers.any fun e => decide (e.1 < 64) && e.2.bootFail)
  let long := s.loop.inWinter && decide ((s.reg (ra sPar 0x018)).toNat < s.winterTime)
  b2n (!(s.loop.lockT && s.loop.lockC)) * 2 ^ 11 + b2n (!s.commit.ever || decide (s.dev = .dormant)) * 2 ^ 12 +
    b2n fatal * 2 ^ 13 + b2n long * 2 ^ 14

/-- The unit is healthy (R324). -/
def State.healthy (s : State) : Bool := decide (s.parCause = 0)

/-- `PAR.STAT`. -/
def State.parStat (s : State) : Nat :=
  let p := s.par
  p.sent / 2 ^ 7 % 2 + b2n p.aligned * 2 + b2n p.won * 4 + b2n s.healthy * 8 + b2n p.recovering.isSome * 16 +
    b2n p.pthaw * 32 + b2n p.linkUp * 64 + b2n p.partnerLost * 128 + b2n p.timedOut * 256 + b2n p.busFault * 512 +
    b2n p.idClash * 1024 + s.parCause

/-- `PAR.CLAIM`. -/
def State.parClaim (s : State) : Nat := s.par.sent % 256 + s.par.last % 256 * 2 ^ 8 + s.par.partner % 256 * 2 ^ 16

/-- A CLAIM entry of the black box (R379): causes 0 won, 1 lost, 2 partner lost, 3 bus fault. -/
def State.bbrClaim (s : State) (cause : Nat) : State := s.bbrPush 11 sPar [s.parClaim, cause]

/-! ### Alignment -/

/-- `PAR.STAT.ALIGNED` takes a value (R328). -/
def State.setAligned (s : State) (b : Bool) : State :=
  if s.par.aligned = b then s
  else ({ s with par := { s.par with aligned := b } }).evt sPar (if b then 4 else 5)

/-- The averaged θ of link 32. -/
def State.pairTheta (s : State) : Int := signed 64 (s.reg64 (sTtl 32) 0x028)

/-- Alignment is evaluated (R328). -/
def State.alignEval (s : State) : State :=
  s.setAligned (s.par.linkUp && decide (s.rfld (sTtl 32) 0x014 1 2 = 2) && (s.ttl 32).valid &&
    decide (s.pairTheta.natAbs ≤ s.rfld sPar 0x01C 0 24) && !s.par.pthaw)

/-- A pair Thaw begins (R331): a pull by the averaged θ, in which the time base moves to the partner's. -/
def State.pairThaw (s : State) : State :=
  if decide (s.parF 9 1 = 1) && (s.ttl 32).valid && s.par.lastValid && !s.par.won && !s.par.aligned &&
      s.loop.pull.isNone then
    let e := -s.pairTheta
    let l := s.loop.endSpan s.now
    let s1 := { s with
      loop := { l with mode := .thaw, pull := some { e := e, start := s.now, slew := s.slew, pair := some l.mode } }
      par := { s.par with pthaw := true } }
    (if 24 * s.slew < e.natAbs then s1.evt sClk 8 else s1).wakeAll
  else s

/-! ### The claim bus -/

/-- CRC-8 of a sequence of bits, x^8 + x^2 + x + 1 from 0 (R325). -/
def crc8 (bits : List Bool) : Nat :=
  bits.foldl (fun c b =>
    let top := decide (128 ≤ c) != b
    let d := 2 * c % 256
    if top then d ^^^ 7 else d) 0

/-- The bits of a number, most significant first. -/
def bitsMsb (w n : Nat) : List Bool := ((List.range w).map fun k => decide (n / 2 ^ k % 2 = 1)).reverse

/-- READY but for withholding (R323, R335). -/
def State.wouldReady (s : State) : Bool :=
  s.healthy && s.rbit sPar 0x024 0 && !(s.stopOn && decide (s.parF 11 1 = 1))

/-- Withholding at the start of a frame (R330): READY to send, and the pair's state after. -/
def State.withhold (s : State) : Bool × Par :=
  let p := s.par
  if !s.wouldReady then (false, { p with recovering := none, claimed := false })
  else
    match p.recovering with
    | some _ =>
      if p.aligned || (p.lastValid && decide (p.last / 2 ^ 7 % 2 = 0)) || p.timedOut then
        (true, { p with recovering := none, claimed := true })
      else (false, p)
    | none =>
      if !p.claimed && p.lastValid && !p.won && decide (p.last / 2 ^ 7 % 2 = 1) then
        (false, { p with recovering := some s.now, timedOut := false })
      else (true, { p with claimed := true })

/-- A frame begins (R323, R326, R335): waiting values apply, and a unit that takes part latches and drives its claim; one with
EN = 0 drives nothing, and follows a frame that it has seen begin (R328). -/
def State.claimStart (s : State) (seen : Bool) : State :=
  let s0 := s.each s.parWait fun s e => s.setReg e.1 e.2
  let s1 := { s0 with parWait := [], par := { s0.par with cfg := (s0.reg (ra sPar 0x014)).toNat } }
  if s1.parEn then
    let (ready, p) := s1.withhold
    let n := b2n ready * 128 + s1.parF 4 3 * 16 + b2n p.aligned * 8 + s1.parF 0 3
    ({ s1 with par := { p with sent := n, sofAt := some s.now, inFrame := true } }).emit (.claimSof n s.now)
  else { s1 with par := { s1.par with sofAt := some s.now, inFrame := seen, sent := 0 } }

/-- 1 µs has passed since the last SOF sent or seen (R326). -/
def State.claimSof (s : State) : State :=
  match s.par.sofAt with
  | some e => if e + usEdges ≤ s.now then s.claimStart false else s
  | none => s.claimStart false

/-- A falling edge on an idle bus before the own SOF is due (R326). -/
def State.claimSeen (s : State) : State := if s.par.inFrame then s else s.claimStart true

/-- Bit 20 of a frame ends (R327, R329): 21 bit times of 31.25 ns after its SOF. DEDUCED (log entry 49). -/
def State.claimFrame (s : State) (claim fseq crc : Nat) : State :=
  let p := s.par
  let due := match p.sofAt with
    | some e => p.inFrame && decide (2 * e + 2625 ≤ 2 * s.now)
    | none => false
  if !due then s
  else if crc8 (bitsMsb 8 claim ++ bitsMsb 4 fseq) ≠ crc then
    ({ s with par := { p with inFrame := false } }).bump64 sPar 0x038 1
  else
    let won := s.parEn && decide (claim = p.sent)
    let s1 := { s with par := { p with
      inFrame := false, won := won, last := claim, lastValid := true, busFault := false
      fseq := if won then (p.fseq + 1) % 16 else p.fseq } }
    if won = p.won then s1
    else ((s1.bump64 sPar 0x030 1).evt sPar (if won then 0 else 1)).bbrClaim (if won then 0 else 1)

/-- CLAIM has been dominant for more than 16 bit times (R335). -/
def State.claimStuck (s : State) : State :=
  let s1 := { s with par := { s.par with busFault := true, inFrame := false } }
  if s.par.busFault then s1 else (s1.evt sPar 7).bbrClaim 3

/-- THAW_TIMEOUT has passed since withholding began (R330). -/
def State.thawTimeout (s : State) : State :=
  match s.par.recovering with
  | some e =>
    if decide (e + s.rfld sPar 0x020 0 16 * 2_000_000 ≤ s.now) && decide (s.parF 10 1 = 1) && !s.par.timedOut then
      ({ s with par := { s.par with timedOut := true } }).evt sPar 6
    else s
  | none => s

/-! ### The pair link -/

/-- The link goes down (R334). -/
def State.pairDown (s : State) : State :=
  if s.par.linkUp then
    let s1 := ({ s with par := { s.par with linkUp := false, partnerLost := true } }).setAligned false
    ((s1.bump64 sPar 0x040 1).evt sPar 3).bbrClaim 2
  else s

/-- A STATE message from the partner (R333, R335): a message shows that both receive lanes hold codeword lock. -/
def State.pairState (s : State) (claim uid : Nat) : State :=
  let clash := decide (uid = s.parF 0 3)
  let up := s.par.linkUp
  let s1 := { s with par := { s.par with
    partner := claim, partnerId := some uid, stateAt := s.now, locks := 3, linkUp := true, partnerLost := false
    idClash := clash } }
  let s2 := if up then s1 else s1.evt sPar 2
  if clash && !s.par.idClash then s2.evt sPar 8 else s2

/-- The STATE message this unit sends (R333). -/
def State.pairStateTx (s : State) : State :=
  s.emit (.pairState (s.par.sent % 256) s.parCause s.clkState (s.parF 0 3))

/-- 100 µs without a valid message (R333). -/
def State.pairTimeout (s : State) : State := if s.par.stateAt + 200_000 ≤ s.now then s.pairDown else s

/-- A receive lane loses codeword lock (R333). -/
def State.pairLane (s : State) (lane : Nat) : State :=
  ({ s with par := { s.par with locks := s.par.locks &&& (3 ^^^ 2 ^ lane) } }).pairDown

/-- A MIRROR message is written into the mirror table (R333). -/
def State.mirrorIn (s : State) (l : List (Word × Word)) : State :=
  { (s.each (l.take 512).zipIdx fun s e => (s.setTabw (oMirror e.2 0) e.1.1).setTabw (oMirror e.2 1) e.1.2) with
    par := { s.par with mirrorAt := some s.now } }

/-- The age of the mirror's entries in µs, saturating (R333). -/
def State.mirrorAge (s : State) : Nat :=
  match s.par.mirrorAt with
  | some e => min (2 ^ 32 - 1) ((s.now - e) / usEdges)
  | none => 0

/-! ### A context's state word -/

/-- The code of a context state (R259). -/
def ctxCode (x : CtxSt) : Nat :=
  match x with
  | .idle => 0
  | .admitting => 1
  | .running => 2
  | .stopping => 3
  | .stoppedOvf => 4

/-- `CSTAT` (R258). THREAD: DEDUCED (log entry 43). -/
def State.cstat (s : State) (c : Nat) : Nat :=
  let x := s.ctx c
  let run := decide (x.st = .running)
  let drain := decide (x.st = .stopping) || (decide (x.st = .stoppedOvf) && s.ctxOwes c)
  let phase := if run then (if x.inSeq then 2 else if s.capEarly c s.phys then 0 else 1) else 0
  let thread := match x.urgent with
    | some k => k / 4 * 16 + k % 4
    | none => if s.ctxBit c 31 && !s.ctxBit c 30 then c % 4 * 16 else 0
  b2n drain * 2 ^ 31 + b2n x.urgent.isSome * 2 ^ 30 + thread * 2 ^ 24 + x.reason % 256 * 2 ^ 16 + x.cause % 16 * 2 ^ 12 +
    b2n x.bound * 2 ^ 10 + phase * 2 ^ 8 + b2n (s.ctxHold c) * 2 ^ 7 + x.pstate % 16 * 2 ^ 3 + ctxCode x.st

/-- The MIRROR message that the winner sends (R333). -/
def State.mirrorTx (s : State) : State :=
  if s.par.won then
    s.emit (.pairMirror ((List.range 512).map fun c => (s.cstat c, (s.tabw (oCtx c 33)).toNat)))
  else s

/-! ### Commands -/

/-- CLAIM_SOF (R326). -/
def execClaimSof (t : Nat) : State → Host.Outcome State Fault Refusal := command t State.claimSof

/-- CLAIM_SOF_SEEN (R326). -/
def execClaimSofSeen (t : Nat) : State → Host.Outcome State Fault Refusal := command t State.claimSeen

/-- CLAIM_FRAME (R327). -/
def execClaimFrame (t : Nat) (claim : BitVec 8) (fseq : BitVec 4) (crc : BitVec 8) : State → Host.Outcome State Fault Refusal :=
  command t fun s => s.claimFrame claim.toNat fseq.toNat crc.toNat

/-- BUS_FAULT (R335). -/
def execBusFault (t : Nat) : State → Host.Outcome State Fault Refusal := command t State.claimStuck

/-- THAW_TIMEOUT (R330). -/
def execThawTimeout (t : Nat) : State → Host.Outcome State Fault Refusal := command t State.thawTimeout

/-- PAIR_STATE (R333). The cause bits and `CLK.STATE` of the partner have no register here. -/
def execPairState (t : Nat) (claim : BitVec 8) (_cause _clk : Word) (uid : BitVec 3) : State → Host.Outcome State Fault Refusal :=
  command t fun s => s.pairState claim.toNat uid.toNat

/-- PAIR_STATE_TX (R333). -/
def execPairStateTx (t : Nat) : State → Host.Outcome State Fault Refusal := command t State.pairStateTx

/-- MIRROR (R333). -/
def execMirror (t : Nat) (l : List (Word × Word)) : State → Host.Outcome State Fault Refusal := command t fun s => s.mirrorIn l

/-- MIRROR_TX (R333). -/
def execMirrorTx (t : Nat) : State → Host.Outcome State Fault Refusal := command t State.mirrorTx

/-- PAIR_LINK_TIMEOUT (R334). -/
def execPairLinkTimeout (t : Nat) : State → Host.Outcome State Fault Refusal := command t State.pairTimeout

/-- PAIR_LANE_LOSS (R334). -/
def execPairLaneLoss (t : Nat) (lane : Fin 2) : State → Host.Outcome State Fault Refusal := command t fun s => s.pairLane lane

end Sys2Proof.Machine
end

