-- ==== Sys2Proof/Machine/Solstice.lean ====
section
/-! DEFINITION. Solstices, the wrap of the epoch, and two-way time transfer (03_solstice_and_time_transfer.md). SYNC_IN_EDGE,
PARTNER_SOLSTICE, SOLSTICE, SYNC_OUT_RISE, SYNC_OUT_FALL, WRAP, TTL_MARKER, TTL_REPORT, TTL_EXCHANGE; the host's requests
(ARM, NOW, AT_GO, CANCEL) stand here as operations. What it reads by inference or chooses: log entries 29, 30. -/

namespace Sys2Proof.Machine

/-- A state with another origin of the epoch and count of its wraps. -/
def State.setOrigin (s : State) (o : Nat × Nat) : State := { s with solEdge := o.1, wraps := o.2 }

/-- A command at which the origin of the epoch, or the count of its wraps, may move: both stand in `o`. -/
def commandEpoch (t : Nat) (o : State → Nat × Nat) (f : State → State) (s : State) : Host.Outcome State Fault Refusal :=
  if s.porst then command t f s
  else .next (((f (s.advance t)).noteFlags.keep s (max s.now t)).setOrigin (o (s.advance t)))

/-! ### Requests -/

def State.solDelay (s : State) : Nat := s.rfld sSol 0x014 8 8

/-- Ranks of R64: SYNC_IN, then partner, then host. -/
def solRank (x : SolSrc) : Nat :=
  match x with
  | .syncIn => 0
  | .partner => 1
  | .host => 2

/-- A request is merged into the Solstice that waits, or has just been (R64). -/
def State.solMerge (s : State) : State := (s.bump32 sSol 0x034 1).evt sSol 1

/-- A Solstice whose application edge lies less than 1 µs before a request edge (R64). -/
def State.solRecent (s : State) (r : Nat) : Bool :=
  match s.sol.last with
  | some a => decide (r < a + usEdges)
  | none => false

/-- A request fixes its application edge (R64). -/
def State.solFix (s : State) (src : SolSrc) (r a : Nat) : State :=
  { s with sol := { s.sol with fixed := some (a, src), reqEdge := some (r, src), risen := false } }

/-- An AT_GO accepted at the request edge of another source's request, or after it: it is judged after that request (R64). -/
def State.goBehind (s : State) (src : SolSrc) (r : Nat) : Option (Option Nat) :=
  match s.sol.goEdge with
  | some (g, prev) => if src ≠ .host ∧ r ≤ g ∧ s.sol.atPend.isSome then some prev else none
  | none => none

/-- A pending AT judged again by the table of R64, now that a request that comes before it has fixed an edge. -/
def State.goRejudge (s : State) (a : Nat) : State :=
  let s1 := { s with sol := { s.sol with atPend := none, goEdge := none } }
  if s.sol.atPend = some a then s1.solMerge else s1.evt sSol 2

/-- A request of SYNC_IN, NOW or the partner with request edge `r` and application edge `a` (R62, R64). The requests are judged in
the order of their request edges, and of several with one request edge in their rank, whatever their order of arrival here.
DEDUCED (log entry 29). -/
def State.solRequest (s : State) (src : SolSrc) (r a : Nat) : State :=
  match s.sol.fixed, s.sol.reqEdge with
  | some (_, x), some (r', _) =>
    if r < r' ∨ (r = r' ∧ solRank src < solRank x) then (s.solFix src r a).solMerge else s.solMerge
  | some _, none => s.solMerge
  | none, _ =>
    let go := s.goBehind src r
    if s.solRecent r then s.solMerge
    else if (go.getD s.sol.atPend).any fun e => decide (e ≤ a) then s.solMerge
    else if go.isSome then (s.solFix src r a).goRejudge a
    else s.solFix src r a

/-- Whether a source's requests are taken (R61), in any state but BOOTING (R66). -/
def State.solTakes (s : State) (b : Nat) : Bool := s.rbit sSol 0x014 b && decide (s.dev ≠ .booting)

/-- `SOL.CTRL.NOW` (R62). -/
def State.solNow (s : State) : State :=
  if s.solTakes 1 then s.solRequest .host s.now (s.now + s.solDelay) else s

/-- The first coarse edge at or after epoch `SOL.AT` (R62). -/
def State.atEdge (s : State) : Int := -((-(s.physOf (s.reg64 sSol 0x01C))) / 2000)

/-- `SOL.CTRL.AT_GO` (R63, R64). -/
def State.solAtGo (s : State) : State :=
  if s.solTakes 1 then
    let s1 := { s with sol := { s.sol with atPend := none, goEdge := none } }
    let a := s1.atEdge
    if s1.solRecent s.now then s1.solMerge
    else match s1.sol.fixed with
      | some (f, _) => if a = (f : Int) then s1.solMerge else s1.evt sSol 2
      | none =>
        if a < (s.now + s.solDelay : Nat) then s1.evt sSol 2
        else { s1 with sol := { s1.sol with atPend := some a.toNat, goEdge := some (s.now, s.sol.atPend), risen := false } }
  else s

/-- `SOL.CTRL.CANCEL` (R63). -/
def State.solCancel (s : State) : State := { s with sol := { s.sol with atPend := none, goEdge := none } }

/-- `SOL.CTRL.ARM` (R61). -/
def State.solArm (s : State) : State := { s with sol := { s.sol with armed := true } }

/-- A write of `SOL.CTRL`: bits set together act in the order CANCEL, ARM, NOW, AT_GO. -/
def State.solCtrl (s : State) (v : Word) : State :=
  let s1 := if bit v 3 then s.solCancel else s
  let s2 := if bit v 0 then s1.solArm else s1
  let s3 := if bit v 1 then s2.solNow else s2
  if bit v 2 then s3.solAtGo else s3

/-- SYNC_IN (R61, R62): its own interpolator resolves every transition, and nobody but the Solstice logic is told of it: it has no
source identifier (R4). A compared edge that is taken makes a request at the first coarse edge at least 250 ps after the crossing;
any other is ignored. -/
def State.syncInEdge (s : State) (t q : Nat) (rising : Bool) : State :=
  if (s.stamper 100).booted then
    let (st, s1) := s.plainStamp 100 0 t q rising 0
    let mode := s.rbit sSol 0x014 4
    if s1.solTakes 0 && (rising == !s.rbit sSol 0x014 5) && (mode || s.sol.armed) then
      let r := -((-(st.phys + 1000)) / 2000)
      let s2 := s1.setRegN sSol 0x030 (2000 * r - st.phys).toNat
      let s3 := if mode then s2 else { s2 with sol := { s2.sol with armed := false } }
      s3.solRequest .syncIn r.toNat (r.toNat + s.solDelay)
    else s1
  else s

/-- The partner's Solstice message (R65): the coarse edge nearest to E_p − θ, or the request edge + DELAY. Of two edges equally
near the later is taken. DESIGN CHOICE (log entry 53). -/
def State.partnerSolstice (s : State) (ep : Nat) : State :=
  let s1 := s.evt sSol 3
  if s1.solTakes 2 then
    let a := (s.physOf (m64 ((ep : Int) - s.pairTheta)) + 1000) / 2000
    let own := s.now + s.solDelay
    let good := (s.ttl 32).valid && s.par.aligned && decide ((own : Int) ≤ a)
    s1.solRequest .partner s.now (if good then a.toNat else own)
  else s1

/-! ### Time transfer -/

/-- The exchange in progress on a link is over. -/
def State.ttlClear (s : State) (k : Nat) : State :=
  s.setTtl k { s.ttl k with tx := none, echo := none, far := none, repRx := none, repTx := none, marked := none }

/-- An exchange is discarded (R72). -/
def State.ttlDiscard (s : State) (k why : Nat) : State :=
  (((s.setTtl k { s.ttl k with lastFail := why }).ttlClear k).bump32 (sTtl k) 0x03C 1).evt (sTtl k) 1

/-- A far value in qps (R70, R172): tile units are converted at the tile's nominal unit. -/
def State.farQps (s : State) (k v : Nat) : Nat :=
  if s.rbit (sTtl k) 0x014 20 then
    let u := (s.reg (ra (sLane (s.rfld (sTtl k) 0x014 10 6)) 0x020)).toNat
    m64 ((v * u + 0x8000) / 65536)
  else v

/-- A good exchange, with θ and d doubled (R72, R73): the average, and what it feeds. The averages are rounded to the nearest qps,
ties to even, and DELAY is kept within 0 and 2^32 − 1. DESIGN CHOICE (log entry 53). A marker-only tile takes no refresh point
from a link (R169). -/
def State.ttlGood (s : State) (k tx : Nat) (th d : Int) : State :=
  let x := s.ttl k
  let avg := ((th, d) :: x.avg).take (2 ^ s.rfld (sTtl k) 0x014 16 4)
  let n := avg.length
  let sum := (avg.map (·.1)).sum
  let sumD := (avg.map (·.2)).sum
  let s1 := (s.setTtl k { x with avg := avg, valid := true }).bump32 (sTtl k) 0x038 1
  let s2 := s1.setReg64 (sTtl k) 0x028 (m64 (rne sum (2 * n)))
  let s3 := s2.setRegN (sTtl k) 0x030 (min (2 ^ 32 - 1) (rne sumD (2 * n)).toNat)
  let s4 := s3.setRegN (sTtl k) 0x034 (unsign 32 (satSigned 32 (rne (th * n - sum) (2 * n))))
  let s5 := (if x.valid then s4 else s4.evt (sTtl k) 0).ttlClear k
  match s.rfld (sTtl k) 0x014 1 2 with
  | 1 =>
    let n := s.rfld (sTtl k) 0x014 10 6
    if s.tileMode n = 2 then s5 else s5.tilePoint n (tx, m64 ((tx : Int) + rne th 2))
  | 2 => if k = 32 then s5.alignEval.pairThaw else s5
  | _ => s5

/-- The four times are solved once they are there (R69, R72). -/
def State.ttlSolve (s : State) (k : Nat) : State :=
  let x := s.ttl k
  match x.tx, x.echo, x.far, x.repRx, x.repTx with
  | some tx, some echo, some far, some rx, some ftx =>
    let fwd := sdiff (s.farQps k rx) tx
    let back := sdiff far (s.farQps k ftx)
    let th := fwd - back - signed 32 (s.reg (ra (sTtl k) 0x020)).toNat
    let d := fwd + back
    let trip := sdiff echo tx - (d + (s.reg (ra (sTtl k) 0x01C)).toNat)
    if s.rfld (sTtl k) 0x024 0 24 < trip.natAbs then s.ttlDiscard k 2 else s.ttlGood k tx th d
  | _, _, _, _, _ => s

/-- The next marker finds an exchange that is not finished: it is solved if its times are there, and discarded if not
(R72). -/
def State.ttlEnd (s : State) (k : Nat) : State :=
  let s1 := s.ttlSolve k
  let x := s1.ttl k
  if x.marked.isNone then s1
  else if x.tx.isNone || x.echo.isNone || x.far.isNone then s1.ttlDiscard k 1
  else s1.ttlDiscard k 3

/-- The marker pulse of 8 ns on a TOUT channel, with P = T (R71, R139, R143). STOP stops the markers (R149); a channel gated
otherwise drops the placement as GATED (R141). -/
def State.markerPulse (s : State) (n : Nat) : State :=
  let c := s.tout n
  if s.toSrc n ≠ 3 ∨ c.gatedStop ∨ s.inReset (sTout n) then s
  else if c.gated then (s.bump64 (sTout n) 0x064 1).evt (sTout n) 3
  else
    let ts := s.transOf n { level := false, value := true, tP := s.phys + s.toDeskew n, width := 32_000, marker := true }
    (s.setTout n { c with flight := ts.foldl (fun l t => insTrans t l) c.flight }).bump64 (sTout n) 0x044 1

/-- TTL_MARKER (R71): at each multiple of PERIOD after the last Solstice. The marker of link 32 leaves on PAIR_TE_OUT, whose
return stamp is taken at epoch `teOut`. -/
def State.ttlMarker (s : State) (k teOut : Nat) : State :=
  let per := (s.reg (ra (sTtl k) 0x018)).toNat
  let e := s.now - s.solEdge
  if s.rbit (sTtl k) 0x014 0 && decide (0 < e) && decide (e % per = 0) && decide ((s.ttl k).marked ≠ some s.now) then
    let s1 := (s.ttlEnd k).ttlClear k
    let s2 := s1.setTtl k { s1.ttl k with marked := some s.now }
    if k = 32 then (s2.setTtl k { s2.ttl k with tx := some (teOut % 2 ^ 64) }).emit (.teOut s.now) else s2.markerPulse k
  else s

/-- TTL_REPORT (R70). -/
def State.ttlReport (s : State) (k rx tx : Nat) : State :=
  s.setTtl k { s.ttl k with repRx := some rx, repTx := some tx }

/-- A rising edge of PAIR_TE_IN: a stamp of source 4196 for whoever takes that source (R4, R12, R106), and for link 32, where after
the marker the echo comes first and the far marker second (R71). -/
def State.teInEdge (s : State) (e : Nat × Nat) : State :=
  let (st, s1) := s.plainStamp 101 4196 e.1 e.2 true 0
  let s2 := if s1.condUses 4196 then { s1 with condIn := s1.condIn ++ [.edge st] } else s1
  (s2.distribute st).ttlTake 32 st

/-- TTL_EXCHANGE (R69, R72). -/
def State.ttlExchange (s : State) (k : Nat) (teIn : List (Nat × Nat)) : State :=
  (if k = 32 then s.each teIn State.teInEdge else s).ttlSolve k

/-- A Solstice at a link (R68): the exchange in progress goes, and so do the average and VALID (R73). It counts in no DISC and sets
no DISCARD, since it is none of the reasons of R72. DEDUCED (log entry 54). -/
def State.ttlSolstice (s : State) (k : Nat) : State :=
  let s1 := s.ttlClear k
  s1.setTtl k { s1.ttl k with avg := [], valid := false }

/-! ### The application edge -/

/-- SYNC_OUT rises for the Solstice that waits (R67). -/
def State.syncRise (s : State) (edge : Nat) : State :=
  ({ s with sol := { s.sol with risen := true, syncOut := true, fallAt := some (edge + s.rfld sSol 0x014 24 8) } }).emit
    (.syncOut true edge)

/-- The application edge that waits, with its source, and whether it is an AT's. -/
def State.solWaits (s : State) : Option (Nat × SolSrc × Bool) :=
  match s.sol.fixed, s.sol.atPend with
  | some (a, x), _ => some (a, x, false)
  | none, some a => some (a, .host, true)
  | none, none => none

/-- A stamp taken ahead of the clock before its Solstice was known, at or after the application edge `a`: it is of the new epoch,
and the source's first of those carries SOLS (R85). -/
def State.restamp (s : State) (a : Nat) (x : Stamp) : Stamp :=
  if 4096 ≤ x.src ∧ 2000 * (a : Int) ≤ x.phys then
    let k := s.stamper (if x.src = 4196 then 101 else x.src - 4096)
    let first := if k.seen.1 < a then (k.ahead.find? fun e => decide (2000 * (a : Int) ≤ e.2)).map (·.1) else none
    { x with time := m64 (x.phys - 2000 * (a : Int)), flags := x.flags ||| flagIf (decide (first = some x.seq)) fSOLS }
  else x

/-- Stamps already taken whose instant lies at or after the application edge go over to the new epoch (R85). -/
def State.restampAll (s : State) (a : Nat) : State :=
  (s.mapStamps (s.restamp a)).each (List.range 102) fun s c =>
    let k := s.stamper c
    if k.seen.1 < a ∧ k.ahead.any fun e => decide (2000 * (a : Int) ≤ e.2) then s.setStamper c { k with seen := (a, 0) } else s

/-- What every stage does at A (R68), with the new origin in force; `o` is the old one and `last` the epoch held at A. -/
def State.solStages (s : State) (o last : Nat) : State :=
  let s1 := ((s.restampAll s.solEdge).each (List.range 32) fun s n => s.toutSolstice n).loopSolstice last
  let s2 := if s1.ckoDue.isNone && !s1.ckoWait.isEmpty then s1.ckoTakeAll true else s1.each (List.range 16) State.ckoRestop
  let s3 := (s2.measSolstice.each (List.range 64) fun s n => s.tileSolstice n).planesSolstice o
  let s4 := s3.each ((s3.hctxs.filter fun e => e.2.active).map (·.1)) fun s c => s.forceCut c .solstice last
  ((s4.capSolstice.each (List.range 33) fun s k => s.ttlSolstice k).setAligned false).seqSolstice

/-- The code of `SOL.STAT.LAST_SRC`. -/
def solCode (x : SolSrc) : Nat :=
  match x with
  | .syncIn => 0
  | .host => 1
  | .partner => 2

/-- The Solstice takes effect at its application edge (R66, R68). -/
def State.solApply (s : State) (a : Nat) (src : SolSrc) (isAt : Bool) : State :=
  let last := ((a - s.solEdge) * 2000) % 2 ^ 64
  let o := s.solEdge
  let s0 := { s with now := a }
  let s1 := if s0.sol.risen then s0 else s0.syncRise (a - s.rfld sSol 0x014 16 8)
  let s2 := s1.each (List.range 16) State.ckoMove
  let s3 := ({ s2 with
    solEdge := a, wraps := 0
    sol := { s2.sol with
      fixed := none, atPend := none, reqEdge := none, goEdge := none, prevEdge := o, last := some a, lastSrc := src, count := (s2.sol.count + 1) % 65536
      risen := false } }).setReg64 sSol 0x028 last
  let s4 := if !isAt && s.sol.atPend.isSome then s3.evt sSol 2 else s3
  let s5 := (s4.evt sSol 0).solStages o last
  let s6 := s5.bbrPush 10 sSol [solCode src, last % 2 ^ 32, last / 2 ^ 32]
  { s6 with now := s.now }.settle

/-- SOLSTICE (R66). -/
def State.solstice (s : State) : State :=
  match s.solWaits with
  | some (a, src, isAt) => if a ≤ s.now then s.solApply a src isAt else s
  | none => s

/-- SYNC_OUT_RISE (R67): OUT_LEAD coarse periods before A. -/
def State.syncOutRise (s : State) : State :=
  match s.solWaits with
  | some (a, _, _) =>
    if !s.sol.risen && decide (a ≤ s.now + s.rfld sSol 0x014 16 8) then s.syncRise (a - s.rfld sSol 0x014 16 8) else s
  | none => s

/-- SYNC_OUT_FALL (R67). -/
def State.syncOutFall (s : State) : State :=
  match s.sol.fallAt with
  | some e =>
    if e ≤ s.now then ({ s with sol := { s.sol with syncOut := false, fallAt := none } }).emit (.syncOut false e) else s
  | none => s

/-- The origin after SOLSTICE: the application edge where it has come (R66). -/
def State.solOrigin (s : State) : Nat × Nat :=
  match s.solWaits with
  | some (a, _, _) => if a ≤ s.now then (a, 0) else (s.solEdge, s.wraps)
  | none => (s.solEdge, s.wraps)

/-- Whether a wrap of the epoch has not been taken yet (R3). -/
def State.wrapDue (s : State) : Bool := decide (s.wraps < (s.now - s.solEdge) * 2000 / 2 ^ 64)

/-- The wraps after WRAP. -/
def State.wrapOrigin (s : State) : Nat × Nat := (s.solEdge, if s.wrapDue then s.wraps + 1 else s.wraps)

/-- WRAP (R3, R60): the 64-bit epoch has passed 2^64. Every source and slot tells its own first item after it by that item's
instant (`marksDue`). -/
def State.wrap (s : State) : State :=
  if s.wrapDue then
    { s with wraps := s.wraps + 1 }.evt sSol 4
  else s

/-- `SOL.STAT`. -/
def State.solStat (s : State) : Nat :=
  b2n s.sol.armed + b2n s.sol.fixed.isSome * 4 + b2n s.sol.atPend.isSome * 8 + solCode s.sol.lastSrc * 16 +
    s.sol.count * 2 ^ 16

/-- A RESET of the SOL page: ARMED, a pending AT and MERGED go. -/
def State.solReset (s : State) : State :=
  { s with sol := { s.sol with armed := false, atPend := none, goEdge := none } }.setRegN sSol 0x034 0

/-- A RESET of a TTL page: the average, VALID and the counters go. -/
def State.ttlReset (s : State) (k : Nat) : State :=
  let s1 := s.setTtl k { s.ttl k with avg := [], valid := false, lastFail := 0 }
  (s1.setRegN (sTtl k) 0x038 0).setRegN (sTtl k) 0x03C 0

/-- `TTL.STAT`. -/
def State.ttlStat (s : State) (k : Nat) : Nat :=
  let x := s.ttl k
  b2n x.valid + 2 * b2n (decide (x.avg.length = 2 ^ s.rfld (sTtl k) 0x014 16 4)) + x.lastFail * 16

/-! ### Commands -/

/-- SYNC_IN_EDGE (R62). -/
def execSyncInEdge (t : Nat) (rising : Bool) (q : Nat) : State → Host.Outcome State Fault Refusal :=
  command t fun s => s.syncInEdge t q rising

/-- PARTNER_SOLSTICE (R65). -/
def execPartnerSolstice (t : Nat) (e : Word64) : State → Host.Outcome State Fault Refusal :=
  command t fun s => s.partnerSolstice e.toNat

/-- SOLSTICE (R66). -/
def execSolstice (t : Nat) : State → Host.Outcome State Fault Refusal := commandEpoch t State.solOrigin State.solstice

/-- SYNC_OUT_RISE (R67). -/
def execSyncOutRise (t : Nat) : State → Host.Outcome State Fault Refusal := command t State.syncOutRise

/-- SYNC_OUT_FALL (R67). -/
def execSyncOutFall (t : Nat) : State → Host.Outcome State Fault Refusal := command t State.syncOutFall

/-- WRAP (R3). -/
def execWrap (t : Nat) : State → Host.Outcome State Fault Refusal := commandEpoch t State.wrapOrigin State.wrap

/-- TTL_MARKER (R71). -/
def execTtlMarker (t : Nat) (k : Fin 33) (teOut : Nat) : State → Host.Outcome State Fault Refusal :=
  command t fun s => s.ttlMarker k teOut

/-- TTL_REPORT (R70). -/
def execTtlReport (t : Nat) (k : Fin 33) (rx tx : Word64) : State → Host.Outcome State Fault Refusal :=
  command t fun s => s.ttlReport k rx.toNat tx.toNat

/-- TTL_EXCHANGE (R72). -/
def execTtlExchange (t : Nat) (k : Fin 33) (l : List (Nat × Nat)) : State → Host.Outcome State Fault Refusal :=
  command t fun s => s.ttlExchange k l

end Sys2Proof.Machine
end

