-- ==== Sys2Proof/Machine/Calibration.lean ====
section
/-! DEFINITION. The calibration engine (16_calibration.md): what starts a run, the steps of a channel, the limits of R318, bank
switches, results, and the copies in NVM. TEMP_SAMPLE, CAL_RUN_START, CAL_CHANNEL_START, CAL_CELL_STEP, CAL_COMPARATOR_STEP,
CAL_PIN_STEP, CAL_TAP_STEP, TAP_BANK_SWITCH, TAP_SWITCH_TIMEOUT, CAL_CHANNEL_END, CAL_RUN_DONE, CAL_STORE_DONE,
CAL_STORE_DEFER_EXPIRE, CAL_COPY_LOAD; the host's commands stand here as operations. The launcher of channel c from 64 on is
output c − 64, that of PAIR_TE_OUT being 37 (R310). What it reads by inference or chooses: log entry 48. -/

namespace Sys2Proof.Machine

/-- Coarse edges in 3,600 s (R321). -/
abbrev storeGap : Nat := 3600 * edgesSec

/-! ### Copies -/

/-- CRC-32 with the reversed polynomial 0xEDB8_8320, all ones at start and inverted at the end. PRESUMED (log entry 22). -/
def crc32Bit (c : Nat) : Nat := if c % 2 = 1 then (c / 2) ^^^ 0xEDB8_8320 else c / 2
def crc32Byte (c : Nat) (b : Byte) : Nat :=
  crc32Bit (crc32Bit (crc32Bit (crc32Bit (crc32Bit (crc32Bit (crc32Bit (crc32Bit (c ^^^ b.toNat))))))))
def crc32 (l : List Byte) : Nat := (l.foldl crc32Byte 0xFFFF_FFFF) ^^^ 0xFFFF_FFFF

/-- A copy as its sector holds it (R320): MAGIC, CSEQ, LEN, the body and the CRC-32 of all that. The body's vendor format here is
40 bytes for each channel that is not nominal: its number and its nine selections. DESIGN CHOICE (log entry 58). -/
def calBytes (k : CalCopy) : List Byte :=
  let body := k.sel.flatMap fun e => w32 e.1 ++ e.2.flatMap fun v => w32 (unsign 32 v)
  let head := w32 0x4341_4C31 ++ w32 k.cseq ++ w32 body.length ++ body
  head ++ w32 (crc32 head)

/-- The copy that a sector holds, where MAGIC matches and the CRC-32 passes (R320). -/
def calRead (b : List Byte) : Option CalCopy :=
  let word (o : Nat) : Nat := ofLeBytes ((b.drop o).take 4)
  let len := word 8
  if word 0 = 0x4341_4C31 ∧ 16 + len ≤ b.length ∧ word (12 + len) = crc32 (b.take (12 + len)) then
    some ⟨word 4, (List.range (len / 40)).map fun j =>
      (word (12 + 40 * j), (List.range 9).map fun i => signed 32 (word (16 + 40 * j + 4 * i)))⟩
  else none

/-- The selections of a channel: cells, pair, pin delay, taps, g16, d_out (R320). -/
def State.calSel (s : State) (c : Nat) : List Int :=
  let x := s.stamper c
  let o := s.tout (c - 64)
  let out : List Int := if c < 64 ∨ (96 ≤ c ∧ c < 101) then [0, 16777, 0] else [o.taps, o.g16, o.dOut]
  [(x.i0.cell : Int), x.i1.cell, x.i2.cell, x.i3.cell, x.pair, x.dPin] ++ out

/-- Cell 0, pair 0 and the nominal delays (R320). -/
def calNominal : List Int := [0, 0, 0, 0, 0, 0, 0, 16777, 0]

/-- A channel given its selections. -/
def State.calPut (s : State) (c : Nat) (l : List Int) : State :=
  let n (k : Nat) : Nat := (l.getD k 0).toNat
  let x := s.stamper c
  let s1 := s.setStamper c { x with
    i0 := { x.i0 with cell := n 0 }, i1 := { x.i1 with cell := n 1 }
    i2 := { x.i2 with cell := n 2 }, i3 := { x.i3 with cell := n 3 }
    pair := n 4, dPin := l.getD 5 0 }
  if c < 64 ∨ (96 ≤ c ∧ c < 101) then s1
  else s1.setTout (c - 64) { s1.tout (c - 64) with taps := n 6, g16 := n 7, dOut := l.getD 8 0 }

/-- The selections in force that differ from the nominal ones. -/
def State.calInForce (s : State) : List (Nat × List Int) :=
  ((List.range 102).map fun c => (c, s.calSel c)).filter fun e => e.2 != calNominal

/-- The number of the next copy, CSEQ + 1 (R321). -/
def State.nextCseq (s : State) : Nat := ((s.reg (ra sCal 0x038)).toNat + 1) % 2 ^ 32

/-- A store starts: the sector that does not hold the copy in force is erased, and the selections in force are written
(R321). With one in progress another follows it. -/
def State.calStore (s : State) : State :=
  if s.cal.storing.isSome then { s with cal := { s.cal with again := true } }
  else
    let b := !s.cal.copyB && (calRead s.nvm.calA).isSome
    let c := s.cal
    { s with
      nvm := if b then { s.nvm with calB := [] } else { s.nvm with calA := [] }
      cal := { c with storing := some (b, ⟨s.nextCseq, s.calInForce⟩), deferred := false, again := false } }

/-- Whether 3,600 s have passed since the last store (R321). -/
def State.storeGapOver (s : State) : Bool :=
  match s.cal.lastStore with
  | some t => decide (t + storeGap ≤ s.now)
  | none => true

/-- A store ends with its read-back (R321). A failed one leaves the other copy as it is. -/
def State.calStoreDone (s : State) (ok : Bool) : State :=
  match s.cal.storing with
  | some (b, k) =>
    let s1 := { s with cal := { s.cal with storing := none, lastStore := some s.now } }
    let s2 :=
      if ok then
        let nv := if b then { s1.nvm with calB := calBytes k } else { s1.nvm with calA := calBytes k }
        let s2 := { s1 with nvm := nv, cal := { s1.cal with copyB := b } }
        ((s2.setRegN sCal 0x038 k.cseq).evt sCal 3).bbrPush 6 sCal [1]
      else (s1.evt sCal 4).bbrPush 6 sCal [2]
    if s2.cal.again then s2.calStore else s2
  | none => s

/-- The deferred store starts (R321). -/
def State.calDeferExpire (s : State) : State := if s.cal.deferred && s.storeGapOver then s.calStore else s

/-- A copy becomes the one in force at boot. -/
def State.calTake (s : State) (b : Bool) (k : CalCopy) : State :=
  let s1 := s.each k.sel fun s e => s.calPut e.1 e.2
  { s1.setRegN sCal 0x038 k.cseq with cal := { s1.cal with copyB := b } }

/-! ### Requests -/

/-- A full run is asked for: it waits, is merged, or is pending behind the run in progress (R311, R312). DEDUCED (log entry 48). -/
def State.calFull (s : State) (store : Bool) : State :=
  let c := s.cal
  match c.pendingFull, c.waiting, c.run with
  | some st, _, _ => { s with cal := { c with pendingFull := some (st || store) } }
  | none, some (none, st), _ => { s with cal := { c with waiting := some (none, st || store) } }
  | none, none, none => { s with cal := { c with waiting := some (none, store) } }
  | none, _, _ => { s with cal := { c with pendingFull := some store } }

/-- Whether a full run in progress or one to come will reach a channel (R312). -/
def Cal.reaches (c : Cal) (ch : Nat) : Bool :=
  c.pendingFull.isSome || (c.waiting.map (·.1.isNone)).getD false ||
    ((c.run.map (·.1.isNone)).getD false && c.todo.contains ch)

/-- One channel's run is asked for (R311, R312). -/
def State.calOne (s : State) (ch : Nat) (store : Bool) : State :=
  let c := s.cal
  if ch ≥ 102 then s
  else if c.reaches ch then
    if store then
      match c.pendingFull, c.waiting, c.run with
      | some _, _, _ => { s with cal := { c with pendingFull := some true } }
      | none, some (none, _), _ => { s with cal := { c with waiting := some (none, true) } }
      | none, _, some (none, _) => { s with cal := { c with run := some (none, true) } }
      | none, _, _ => s
    else s
  else if c.run.isNone && c.waiting.isNone then { s with cal := { c with waiting := some (some ch, store) } }
  else if c.reqs.length ≥ 8 then s.evt sCal 6
  else { s with cal := { c with reqs := c.reqs ++ [(ch, store)] } }

/-- A write of `CAL.CMD`. -/
def State.calCmd (s : State) (v : Word) : State :=
  match fld v 0 2 with
  | 1 => s.calFull (bit v 15)
  | 2 => s.calOne (fld v 8 7) (bit v 15)
  | 3 => s.calStore
  | _ => s

/-- The T die's temperature, and the trigger (R311). -/
def State.calTemp (s : State) (temp : BitVec 16) : State :=
  if s.porst then s
  else
    let s1 := s.setRegN sCal 0x024 temp.toNat
    let d := s1.rfld sCal 0x014 0 8
    let diff := signed 16 temp.toNat - signed 16 (s1.reg (ra sCal 0x020)).toNat
    if d ≠ 0 ∧ d < diff.natAbs then (s1.evt sCal 1).calFull false else s1

/-! ### Runs -/

/-- A waiting run starts (R312); a full one takes TEMP_BASE. -/
def State.calStart (s : State) : State :=
  match s.cal.waiting, s.cal.run with
  | some (w, store), none =>
    if s.loop.lockT && decide (s.dev ≠ .booting) then
      let c := s.cal
      let s1 := { s with cal := { c with
        run := some (w, store), waiting := none, chans := [], passed := 0, failed := 0, changed := false,
        todo := (match w with
          | some ch => [ch]
          | none => List.range 102) } }
      if w.isNone then s1.setReg (ra sCal 0x020) (s1.reg (ra sCal 0x024)) else s1
    else s
  | _, _ => s

/-- The next request waits: the pending full run, or the oldest channel request. -/
def Cal.next (c : Cal) : Cal :=
  match c.pendingFull, c.reqs with
  | some st, _ => { c with run := none, pendingFull := none, waiting := some (none, st) }
  | none, (ch, st) :: r => { c with run := none, reqs := r, waiting := some (some ch, st) }
  | none, [] => { c with run := none }

/-- CAL_RUN of a channel and its output, and with it the page's Frost (R103, R151, R319). -/
def State.calMark (s : State) (c : Nat) (b : Bool) : State :=
  let s1 := s.setStamper c { s.stamper c with calRun := b }
  if 64 ≤ c ∧ c < 96 then s1.setTout (c - 64) { s1.tout (c - 64) with calRun := b } else s1

/-- A channel starts its run (R313). -/
def State.calChanStart (s : State) (ch : Nat) : State :=
  match s.cal.run, s.cal.todo with
  | some _, c :: r =>
    if c = ch ∧ s.cal.chans.length < 8 then
      let s1 := { s with cal := { s.cal with todo := r, chans := Sparse.put s.cal.chans ch {} } }
      (s1.calMark ch true).calTryStep ch
    else s
  | _, _ => s

/-- The step that is in progress on a channel and has lasted its time. -/
def State.calDue (s : State) (ch step : Nat) : Option CalCh :=
  match s.calCh ch with
  | some k =>
    match k.stepAt with
    | some e => if k.step = step ∧ e + calStepLen step ≤ s.now then some k else none
    | none => none
  | none => none

/-- A step has failed its limits: the run ends (R318). -/
def State.calFail (s : State) (ch : Nat) (k : CalCh) : State :=
  s.setCalCh ch { k with stepAt := none, suspended := 0, failed := true, failStep := k.step, endAt := some s.now }

/-- A change of a selection is noted (R321). -/
def State.calNote (s : State) (b : Bool) : State := { s with cal := { s.cal with changed := s.cal.changed || b } }

/-- Cell limits of R318. -/
def cellOk (r : CellResult) : Bool :=
  decide (1920 ≤ r.codes8) && decide (r.codes8 ≤ 2176) && !r.missingCode && !r.nonMonotonic &&
    decide (r.dnlMilli ≤ 500) && decide (r.inlMilli ≤ 1000)

/-- A cell step ends (R314): a selection within its limits goes into the out-of-service interpolator. The last interpolator
goes on with the comparator step, or with the tap step of an output (R315, R317). -/
def State.calCell (s : State) (ch : Nat) (r : CellResult) : State :=
  match s.calDue ch 0 with
  | some k =>
    if cellOk r then
      let x := s.stamper ch
      let i := x.interp x.oos
      let s1 := (s.setStamper ch (x.setInterp x.oos { i with cell := r.sel })).calNote (decide (i.cell ≠ r.sel))
      let k1 := { k with
        visited := if k.visited.contains x.oos then k.visited else x.oos :: k.visited, stepAt := none, suspended := 0 }
      if k1.visited.length < 4 then s1.setCalCh ch { k1 with waitSwap := !x.stuck }
      else (s1.setCalCh ch { k1 with step := if 64 ≤ ch ∧ ch < 96 then 3 else 1 }).calTryStep ch
    else s.calFail ch k
  | none => s

/-- The comparator step ends (R315, R318): above 3 mV the result is rejected; worse than the pair in service, that pair is
kept. -/
def State.calPair (s : State) (ch : Nat) (r : PairResult) : State :=
  match s.calDue ch 1 with
  | some k =>
    if r.offsetUv > 3000 then s.calFail ch k
    else
      let p := if r.serviceUv < r.offsetUv then (s.stamper ch).pair else r.pair
      (s.setCalCh ch { k with step := 2, stepAt := none, suspended := 0, pair := p }).calTryStep ch
  | none => s

/-- The delay that two successive measurements within 8 qps give: some value from one to the other, which the spec does not
single out. -/
def State.calDelay (s : State) (d1 d2 : Int) : Int × State :=
  let (f, s1) := s.fresh
  (min d1 d2 + (f % ((d1 - d2).natAbs + 1) : Nat), s1)

/-- The two rules of R318 for a pin delay: successive measurements, and the change from the one in force. -/
def State.delayOk (s : State) (d1 d2 new old : Int) : Bool :=
  decide ((d1 - d2).natAbs ≤ 8) && (s.cal.noCopy || decide ((new - old).natAbs ≤ 80))

/-- The pin step ends (R315): pair and delay wait for the next swap. PAIR_TE_OUT's tap step follows on channel 101. -/
def State.calPin (s : State) (ch : Nat) (d1 d2 : Int) : State :=
  match s.calDue ch 2 with
  | some k =>
    let (d, s1) := s.calDelay d1 d2
    let x := s1.stamper ch
    if s1.delayOk d1 d2 d x.dPin then
      let s2 := (s1.setStamper ch { x with dPinNext := some (d, k.pair) }).calNote
        (decide (d ≠ x.dPin) || decide (k.pair ≠ x.pair))
      (s2.setCalCh ch { k with step := if ch = 101 then 3 else 4, stepAt := none, suspended := 0 }).calTryStep ch
    else s1.calFail ch k
  | none => s

/-- The tap step ends (R317): the new bank waits for its switch. -/
def State.calTap (s : State) (ch : Nat) (r : TapResult) : State :=
  match s.calDue ch 3 with
  | some k =>
    let (d, s1) := s.calDelay r.dOut1 r.dOut2
    let o := s1.tout (ch - 64)
    if 15938 ≤ r.g16 ∧ r.g16 ≤ 17616 ∧ r.monotonic ∧ r.dnlMilli ≤ 500 ∧ s1.delayOk r.dOut1 r.dOut2 d o.dOut then
      (s1.setTout (ch - 64) { o with tapNext := some (r.taps, r.g16, d, s1.now) }).setCalCh ch
        { k with step := 4, stepAt := none, suspended := 0 }
    else s1.calFail ch k
  | none => s

/-- Whether a marker of a link, an 8 ns pulse at a multiple of PERIOD after the Solstice, launches either of its edges within 16
coarse periods of now (R71, R151). -/
def State.markerNear (s : State) (k : Nat) (dOut : Int) : Bool :=
  let per : Int := 2000 * (s.reg (ra (sTtl k) 0x018)).toNat
  let o : Int := 2000 * (s.solEdge : Int)
  let m := (s.phys + dOut - o) / per
  s.rbit (sTtl k) 0x014 0 && [m - 1, m, m + 1].any fun j =>
    decide (1 ≤ j) && [0, 32_000].any fun w => decide (((o + j * per + w - dOut) / 2000 - (s.now : Int)).natAbs ≤ 16)

/-- A coarse edge with no launch within 16 coarse periods on either side (R151): none in flight or lately gone, and no marker due
on an output that a link drives; PAIR_TE_OUT is link 32's. -/
def State.bankFree (s : State) (n : Nat) : Bool :=
  let o := s.tout n
  ((o.launches ++ o.flight.map (·.edge)).all fun e => decide (16 < (e - (s.now : Int)).natAbs)) &&
    !(if n = 37 then s.markerNear 32 o.dOut else decide (s.toSrc n = 3) && s.markerNear n o.dOut)

/-- A transition not yet launched is launched with the delay and scale in force (R140, R151). -/
def Trans.relaunch (x : Trans) (now : Nat) (dOut : Int) (g16 : Nat) : Trans :=
  if x.sure ∨ x.edge ≤ (now : Int) then x
  else
    let (e, k) := launchOf x.p dOut g16
    { x with edge := e, code := k }

/-- The bank switch (R151, R317): the channel's run ends 8 coarse periods later; on channel 101 not before its pin delay has
been applied. -/
def State.bankSwitch (s : State) (ch : Nat) : State :=
  let o := s.tout (ch - 64)
  match o.tapNext, s.calCh ch with
  | some (taps, g, d, e), some k =>
    if 64 ≤ ch ∧ s.now ≤ e + 2 ^ 20 ∧ s.bankFree (ch - 64) then
      let s1 := (s.setTout (ch - 64) { o with
        taps := taps, g16 := g, dOut := d, bank := 1 - o.bank, tapNext := none, switched := some s.now
        flight := o.flight.map fun x => x.relaunch s.now d g }).calNote
          (decide (taps ≠ o.taps) || decide (g ≠ o.g16) || decide (d ≠ o.dOut))
      if (s.stamper ch).dPinNext.isSome then s1 else s1.setCalCh ch { k with endAt := some (s.now + 8) }
    else s
  | _, _ => s

/-- No coarse edge free of launches has come in 2^20 coarse periods (R317): the old bank stays. -/
def State.bankTimeout (s : State) (ch : Nat) : State :=
  let o := s.tout (ch - 64)
  match o.tapNext, s.calCh ch with
  | some (_, _, _, e), some k =>
    if 64 ≤ ch ∧ e + 2 ^ 20 < s.now then
      (s.setTout (ch - 64) { o with tapNext := none }).calFail ch { k with step := 3 }
    else s
  | _, _ => s

/-- What follows a run (R321): a commanded store, or one after a full run that changed a selection. -/
def State.calFinish (s : State) : State :=
  let c := s.cal
  let full := (c.run.map (·.1.isNone)).getD false
  let cmd := (c.run.map (·.2)).getD false
  let s1 := { s with cal := c.next }
  if cmd then s1.calStore
  else if full && c.changed && s.rbit sCal 0x014 8 then
    if s1.storeGapOver then s1.calStore else { s1 with cal := { s1.cal with deferred := true } }
  else s1

/-- A channel's run ends (R319). -/
def State.calChanEnd (s : State) (ch : Nat) : State :=
  match s.calCh ch with
  | some k =>
    match k.endAt with
    | some e =>
      if e ≤ s.now then
        let c := s.cal
        let s1 := { s with cal := { c with
          chans := Sparse.del ch c.chans, passed := c.passed + b2n !k.failed, failed := c.failed + b2n k.failed } }
        let s2 := (s1.calMark ch false).setRfld sCal (0x028 + 4 * (ch / 32)) (ch % 32) 1 (b2n k.failed)
        let s3 := if k.failed then ((s2.bump64 sCal 0x044 1).evt sCal 2).bbrPush 5 sCal [ch, k.failStep] else s2
        if (c.run.map (·.1.isSome)).getD false then s3.calFinish else s3
      else s
    | none => s
  | none => s

/-- A full run ends (R319). -/
def State.calRunDone (s : State) : State :=
  match s.cal.run with
  | some (none, _) =>
    if s.cal.todo.isEmpty && s.cal.chans.isEmpty then
      (((s.bump64 sCal 0x03C 1).evt sCal 0).bbrPush 4 sCal [s.cal.passed, s.cal.failed]).calFinish
    else s
  | _ => s

/-- Boot firmware loads a calibration copy (R320, R367), the recovery firmware none (R369); the channels begin their
Equinoxes (R103). -/
def State.calCopyLoad (s : State) : State :=
  if s.dev = .booting ∧ !s.porst ∧ s.boot.fwLoaded ∧ !s.boot.recovery ∧ !s.boot.calLoaded then
    let s0 := { s with boot := { s.boot with calLoaded := true } }
    let s1 := match calRead s0.nvm.calA, calRead s0.nvm.calB with
      | some a, some b => if 0 < signed 32 (unsign 32 ((b.cseq : Int) - a.cseq)) then s0.calTake true b else s0.calTake false a
      | some a, none => s0.calTake false a
      | none, some b => s0.calTake true b
      | none, none => (({ s0 with cal := { s0.cal with noCopy := true } }.evt sCal 5).bbrPush 6 sCal [0]).calFull false
    s1.bootEqxStart
  else s

/-- A CAL page RESET (R322): runs and requests are abandoned; a store completes. -/
def State.calReset (s : State) : State :=
  let s1 := s.each (s.cal.chans.map (·.1)) fun s c =>
    let s1 := (s.setStamper c { s.stamper c with dPinNext := none }).calMark c false
    if 64 ≤ c then s1.setTout (c - 64) { s1.tout (c - 64) with tapNext := none } else s1
  { s1 with cal := { s1.cal with run := none, waiting := none, pendingFull := none, reqs := [], chans := [], todo := [] } }

/-- `CAL.STAT`. -/
def State.calStat (s : State) : Nat :=
  let c := s.cal
  b2n c.run.isSome + 2 * b2n c.pendingFull.isSome + 4 * b2n c.deferred + 8 * b2n c.storing.isSome +
    16 * b2n (!s.loop.lockT && (c.waiting.isSome || c.run.isSome)) + 32 * b2n c.noCopy + 64 * b2n c.copyB +
    2 ^ 16 * (c.chans.map (·.1)).headD 0

/-! ### Commands (CAL_FULL_RUN, CAL_CHANNEL_RUN and CAL_STORE stand with the host's writes) -/

/-- TEMP_SAMPLE (R311). -/
def execTempSample (t : Nat) (temp : BitVec 16) : State → Host.Outcome State Fault Refusal := command t fun s => s.calTemp temp

/-- CAL_RUN_START (R312). -/
def execCalRunStart (t : Nat) : State → Host.Outcome State Fault Refusal := command t State.calStart

/-- CAL_CHANNEL_START (R313). -/
def execCalChannelStart (t : Nat) (c : Fin 102) : State → Host.Outcome State Fault Refusal := command t fun s => s.calChanStart c

/-- CAL_CELL_STEP (R314). -/
def execCalCellStep (t : Nat) (c : Fin 102) (r : CellResult) : State → Host.Outcome State Fault Refusal :=
  command t fun s => s.calCell c r

/-- CAL_COMPARATOR_STEP (R315). -/
def execCalComparatorStep (t : Nat) (c : Fin 102) (r : PairResult) : State → Host.Outcome State Fault Refusal :=
  command t fun s => s.calPair c r

/-- CAL_PIN_STEP (R315). -/
def execCalPinStep (t : Nat) (c : Fin 102) (d1 d2 : Int) : State → Host.Outcome State Fault Refusal :=
  command t fun s => s.calPin c d1 d2

/-- CAL_TAP_STEP (R317). -/
def execCalTapStep (t : Nat) (c : Fin 102) (r : TapResult) : State → Host.Outcome State Fault Refusal :=
  command t fun s => s.calTap c r

/-- TAP_BANK_SWITCH (R151). -/
def execTapBankSwitch (t : Nat) (c : Fin 102) : State → Host.Outcome State Fault Refusal := command t fun s => s.bankSwitch c

/-- TAP_SWITCH_TIMEOUT (R317). -/
def execTapSwitchTimeout (t : Nat) (c : Fin 102) : State → Host.Outcome State Fault Refusal := command t fun s => s.bankTimeout c

/-- CAL_CHANNEL_END (R319). -/
def execCalChannelEnd (t : Nat) (c : Fin 102) : State → Host.Outcome State Fault Refusal := command t fun s => s.calChanEnd c

/-- CAL_RUN_DONE (R319). -/
def execCalRunDone (t : Nat) : State → Host.Outcome State Fault Refusal := command t State.calRunDone

/-- CAL_STORE_DONE (R321). -/
def execCalStoreDone (t : Nat) (ok : Bool) : State → Host.Outcome State Fault Refusal := command t fun s => s.calStoreDone ok

/-- CAL_STORE_DEFER_EXPIRE (R321). -/
def execCalStoreDeferExpire (t : Nat) : State → Host.Outcome State Fault Refusal := command t State.calDeferExpire

/-- CAL_COPY_LOAD (R320). -/
def execCalCopyLoad (t : Nat) : State → Host.Outcome State Fault Refusal := command t State.calCopyLoad

end Sys2Proof.Machine
end

