-- ==== Sys2Proof/Machine/Dma.lean ====
section
/-! DEFINITION. The DMA channels (18_host_control.md, R352 to R356, R359): rings and tails, messages in the order queued,
descriptor fetches, buffers and their completions, vector messages, and the page RESET. DMA_MESSAGE_QUEUED, DESCRIPTOR_FETCH,
BUFFER_COMPLETE, DMA_DISABLE_DONE, IRQ_TIME_EXPIRE; TAIL_WRITE stands with the host's writes. What it reads by inference or chooses: log entry 21. -/

namespace Sys2Proof.Machine

/-- `DMA.CFG.RING_EXP` and the ring's size. -/
def State.ringExp (s : State) (n : Nat) : Nat := s.rfld (sDma n) 0x014 0 5
def State.ringSize (s : State) (n : Nat) : Nat := 2 ^ s.ringExp n

/-- Posted descriptors that the channel has not taken (R352). -/
def State.posted (s : State) (n : Nat) : Nat :=
  let d := s.dmaCh n
  let sz := s.ringSize n
  (d.tail % sz + sz - d.head % sz) % sz

/-- The channel issues no TLP: it has failed, or STOP halts it (R356, R359). -/
def State.dmaHalted (s : State) (n : Nat) : Bool :=
  (s.dmaCh n).error || (s.stopOn && s.rbit (sDma n) 0x014 8) || s.inReset (sDma n)

/-- A message may begin: the channel is enabled (R356). -/
def State.dmaMayBegin (s : State) (n : Nat) : Bool := s.pageOn (sDma n) && !(s.dmaCh n).error && !s.inReset (sDma n)

/-- A message waits and finds no posted descriptor (R355). -/
def State.waitDesc (s : State) (n : Nat) : Bool :=
  let d := s.dmaCh n
  !d.queue.isEmpty && d.cur.isNone && d.next.isNone && decide (s.posted n = 0) && !d.error &&
    (d.sent.isSome || s.pageOn (sDma n))

/-- The fetched descriptor becomes the one being filled, where a message is in progress or may begin. HEAD passes it. -/
def State.dmaTake (s : State) (n : Nat) : State :=
  let d := s.dmaCh n
  match d.cur, d.next with
  | none, some x =>
    if !d.queue.isEmpty && (d.sent.isSome || s.dmaMayBegin n) then
      s.setDma n { d with
        cur := some x, next := none, head := (x.idx + 1) % s.ringSize n, sent := some (d.sent.getD 0) }
    else s
  | _, _ => s

/-- WAIT is set when a message finds no posted descriptor. -/
def State.dmaWait (s : State) (n : Nat) : State := if s.waitDesc n then s.evt (sDma n) 0 else s

/-- A write of TAIL_n (R352): ignored with BAD_TAIL where it would pass HEAD or is not an index of the ring. -/
def State.tailWrite (s : State) (n : Nat) (v : Word) : State :=
  let new := fld v 0 16
  let sz := s.ringSize n
  let d := s.dmaCh n
  let ahead := (new + sz - d.head % sz) % sz
  if new < sz ∧ s.posted n ≤ ahead then s.setDma n { d with tail := new } else s.evt (sDma n) 2

/-- A producer's message joins the channel's queue (R354); a page in reset answers RETRY (R351). -/
def State.dmaQueue (s : State) (n : Nat) : State :=
  let d := s.dmaCh n
  match if s.inReset (sDma n) then [] else d.handed with
  | m :: r =>
    let s1 := (s.setDma n { d with handed := r, queue := d.queue ++ [m] }).dmaTake n
    if d.queue.isEmpty then s1.dmaWait n else s1
  | [] => s

/-- A bad descriptor (R352). -/
def badDesc (addr len : Nat) : Bool :=
  decide (addr % 64 ≠ 0) || decide (len = 0) || decide (len % 64 ≠ 0) || decide (16_777_216 < len)

/-- Bytes of the first message that are not in completed buffers. -/
def Dma.rest (d : Dma) : Nat :=
  match d.queue with
  | m :: _ => m.body.length - d.sent.getD 0
  | [] => 0

/-- `STATUS` of a completion: FIRST, LAST, END, KIND (R352). -/
def Dma.status (d : Dma) (last : Bool) (fin : Nat) : Nat :=
  b2n (decide (d.sent.getD 0 = 0)) + 2 * b2n last + 4 * fin + 2 ^ 8 * (match d.queue with
    | m :: _ => m.kind
    | [] => 0)

/-- Write `n` bytes of the first message to the buffer being filled, then its completion (R353). -/
def State.dmaWrite (s : State) (ch n : Nat) (last : Bool) (fin : Nat) : State :=
  let d := s.dmaCh ch
  match d.queue, d.cur with
  | m :: _, some x =>
    let data := (m.body.drop (d.sent.getD 0)).take n
    let s1 := (s.emit (.hostData ch x.addr data)).emit (.completion ch x.idx n (d.status last fin) d.mseq)
    let s2 := (s1.setDma ch { d with cur := none, sent := some (d.sent.getD 0 + n), done := d.done + 1 }).bump64 (sDma ch) 0x030 n
    match m.src with
    | .record c => s2.capFree c n
    | _ => s2
  | _, _ => s

/-- The buffer that a message held is free: of a record `n` bytes, of others the whole (R213, R221, R237, R255, R307, R378). -/
def State.freeSrc (s : State) (m : MsgSrc) (n : Nat) (sent : Bool) : State :=
  match m with
  | .meas _ _ => s
  | .harvest c => s.setCor c { s.cor c with bufs := (s.cor c).bufs - 1 }
  | .ladder c => s.setCor c { s.cor c with ladBufs := (s.cor c).ladBufs - 1 }
  | .snapshot c die =>
    let h := s.hctx c
    s.setHctx c (if die = 0 then { h with bufsA := h.bufsA - 1 } else { h with bufsB := h.bufsB - 1 })
  | .record c => s.capFree c n
  | .dump =>
    let s1 := { s with bbr := { s.bbr with dumping := false } }
    if sent then s1.evt sBbr 2 else s1

/-- A vector message goes out, or is held until IRQ_TIME has passed since the last, or until the channel may issue TLPs (R354,
R359). -/
def State.dmaIrq (s : State) (ch : Nat) : State :=
  let d := s.dmaCh ch
  let gap := (s.reg (ra (sDma ch) 0x020)).toNat * usEdges
  let due := match d.irqAt with
    | some t => decide (t + gap ≤ s.now)
    | none => true
  if due && !(s.stopOn && s.rbit (sDma ch) 0x014 8) then
    (s.setDma ch { d with irqHeld := false, irqAt := some s.now, done := 0 }).msix ch
  else s.setDma ch { d with irqHeld := true, done := 0 }

/-- A vector message is due after a completion: at LAST, or once IRQ_EVERY completions have passed (R354). -/
def State.dmaIrqDue (s : State) (ch : Nat) (last : Bool) : State :=
  let every := s.rfld (sDma ch) 0x014 16 8
  if last || (decide (every ≠ 0) && decide (every ≤ (s.dmaCh ch).done)) then s.dmaIrq ch else s

/-- A part-filled descriptor is completed with END 1 or 2 (R356); how many bytes had been written by then is open. -/
def State.dmaPartial (s : State) (ch fin : Nat) : State :=
  let d := s.dmaCh ch
  match d.cur with
  | some x =>
    let (f, s1) := s.fresh
    let n := f % (min x.len d.rest + 1)
    if n = 0 then s1.setDma ch { s1.dmaCh ch with cur := none }
    else ((s1.dmaWrite ch n false fin).bump64 (sDma ch) 0x040 1).dmaIrqDue ch false
  | none => s

/-- A descriptor fetch completes (R356). One issued before a page RESET is a stale reply (R351). -/
def State.descFetch (s : State) (ch : Nat) (r : FetchResult) : State :=
  let d := s.dmaCh ch
  if s.inReset (sDma ch) then s.bump64 sGlb 0x038 1
  else if s.dmaHalted ch || d.next.isSome || d.queue.isEmpty || decide (s.posted ch = 0) ||
      !(d.sent.isSome || s.dmaMayBegin ch) then s
  else
    let fail := match r with
      | .descriptor a l => badDesc a.toNat l.toNat
      | .failed => true
    if fail then
      let s1 := s.dmaPartial ch 2
      let s2 := (s1.setDma ch { s1.dmaCh ch with error := true, cur := none }).evt (sDma ch) 1
      s2.bbrFault (sDma ch) ch 1
    else match r with
      | .descriptor a l => (s.setDma ch { d with next := some ⟨d.head, a.toNat, l.toNat⟩ }).dmaTake ch
      | .failed => s

/-- A buffer is full, or its message ends in it (R353, R354). -/
def State.bufComplete (s : State) (ch : Nat) : State :=
  let d := s.dmaCh ch
  match d.queue, d.cur with
  | m :: q, some x =>
    let n := min x.len d.rest
    let last := !m.more && decide (d.rest ≤ x.len)
    if s.dmaHalted ch || (decide (d.rest < x.len) && m.more) then s
    else
      let s1 := s.dmaWrite ch n last 0
      let s2 :=
        if last then
          let d1 := s1.dmaCh ch
          ((s1.setDma ch { d1 with queue := q, sent := none, mseq := (d.mseq + 1) % 2 ^ 32 }).bump64 (sDma ch) 0x038 1).freeSrc m.src 0 true
        else s1
      (((s2.dmaIrqDue ch last).dmaTake ch).dmaWait ch).settle
  | _, _ => s

/-- A cleared ENABLE takes effect at the end of the message in progress (R356). -/
def State.dmaDisableDone (s : State) (ch : Nat) : State :=
  let d := s.dmaCh ch
  if d.draining && d.sent.isNone then s.setDma ch { d with draining := false, cur := none, next := none } else s

/-- IRQ_TIME has passed since the last vector message (R354). -/
def State.irqExpire (s : State) (ch : Nat) : State := if (s.dmaCh ch).irqHeld then s.dmaIrq ch else s

/-- A write of ENABLE on a DMA page (R356): BAD_CFG where RING_EXP or the ring's address does not fit. -/
def State.dmaEnable (s : State) (ch : Nat) (en : Bool) : State :=
  let d := s.dmaCh ch
  let was := s.pageOn (sDma ch)
  if en then
    if s.ringExp ch < 4 ∨ 16 < s.ringExp ch ∨ s.rfld (sDma ch) 0x018 0 5 ≠ 0 then
      (s.setRfld (sDma ch) 0x010 1 1 0).evt (sDma ch) 3
    else
      let s1 := (s.setRfld (sDma ch) 0x010 1 1 1).setDma ch { d with draining := false }
      if was then s1 else (s1.dmaTake ch).dmaWait ch
  else
    (s.setRfld (sDma ch) 0x010 1 1 0).setDma ch { d with
      draining := d.sent.isSome, next := if d.sent.isSome then d.next else none }

/-- A DMA page RESET (R356): part-filled descriptors end with ABORT, the message in progress goes and its buffer is free. DEDUCED (log entry 21). -/
def State.dmaReset (s : State) (ch : Nat) : State :=
  let s1 := s.dmaPartial ch 1
  let d := s1.dmaCh ch
  let s2 := match d.sent, d.queue with
    | some k, m :: q =>
      let s2 := (s1.setDma ch { d with queue := q }).freeSrc m.src (m.body.length - k) false
      match m.src with
      | .record c => if m.more then s2.setCap c { s2.cap c with mute := true } else s2
      | _ => s2
    | _, _ => s1
  let d2 := s2.dmaCh ch
  ((s2.setDma ch { handed := d2.handed, queue := d2.queue, irqAt := d2.irqAt }).setRfld (sDma ch) 0x010 1 1 0).settle

/-- `DMA.STAT`. -/
def State.dmaStat (s : State) (ch : Nat) : Nat :=
  let d := s.dmaCh ch
  b2n d.sent.isSome + 2 * b2n (s.waitDesc ch) + 4 * b2n (s.stopOn && s.rbit (sDma ch) 0x014 8) + 8 * b2n d.error

/-! ### Commands -/

/-- DMA_MESSAGE_QUEUED (R354). -/
def execDmaMessageQueued (t : Nat) (ch : Fin 64) : State → Host.Outcome State Fault Refusal := command t fun s => s.dmaQueue ch

/-- DESCRIPTOR_FETCH (R356). -/
def execDescriptorFetch (t : Nat) (ch : Fin 64) (r : FetchResult) : State → Host.Outcome State Fault Refusal :=
  command t fun s => s.descFetch ch r

/-- BUFFER_COMPLETE (R353). -/
def execBufferComplete (t : Nat) (ch : Fin 64) : State → Host.Outcome State Fault Refusal := command t fun s => s.bufComplete ch

/-- DMA_DISABLE_DONE (R356). -/
def execDmaDisableDone (t : Nat) (ch : Fin 64) : State → Host.Outcome State Fault Refusal := command t fun s => s.dmaDisableDone ch

/-- IRQ_TIME_EXPIRE (R354). -/
def execIrqTimeExpire (t : Nat) (ch : Fin 64) : State → Host.Outcome State Fault Refusal := command t fun s => s.irqExpire ch

end Sys2Proof.Machine
end

