-- ==== Sys2Proof/Machine/Nvm.lean ====
section
/-! DEFINITION. NVM and the management controller (19_startup_power_and_black_box.md, R289 to R291): regions, firmware copies,
the patch image, default images, the service commands, the black-box record and the monitor. FIRMWARE_LOADED, PATCH_CHECK,
HBM_TRAINED, BBR_SCAN, SVC_DONE, BBR_ENTRY_PROGRAMMED, BBR_SECTOR_ERASED, MON_SAMPLE; the host's commands stand here as
operations. What it reads by inference or chooses: log entries 22, 23, 24, 25. -/

namespace Sys2Proof.Machine

/-! ### Bytes -/

/-- A byte of NVM outside the black-box record and the calibration copies. -/
def State.nvByte (s : State) (a : Nat) : Byte := Sparse.get 0xFF s.nvm.bytes a

/-- `n` bytes of NVM. -/
def State.nvBytes (s : State) (a n : Nat) : List Byte := (List.range n).map fun k => s.nvByte (a + k)

/-- A little-endian field of `k` bytes. -/
def State.nvField (s : State) (a k : Nat) : Nat := ofLeBytes (s.nvBytes a k)

/-- Regions (R368): firmware A and B, patch, image A and B: base and length. -/
def nvRegion (r : Nat) : Nat × Nat :=
  match r with
  | 0 => (0, 0x40_0000)
  | 1 => (0x40_0000, 0x40_0000)
  | 2 => (0x80_0000, 0x10_0000)
  | 3 => (0xA0_0000, 0x10_0000)
  | _ => (0xB0_0000, 0x10_0000)

/-- The region's first four bytes read 0xFFFF_FFFF. -/
def State.nvEmpty (s : State) (r : Nat) : Bool := decide (s.nvField (nvRegion r).1 4 = 0xFFFF_FFFF)

/-- Clear a region's bytes. -/
def State.nvErase (s : State) (r : Nat) : State :=
  let (b, n) := nvRegion r
  let nv := { s.nvm with
    bytes := s.nvm.bytes.filter fun e => decide (e.1 < b) || decide (b + n ≤ e.1), torn := s.nvm.torn.filter (· ≠ r) }
  { s with nvm := if r = 0 then { nv with fwA := .bytes } else if r = 1 then { nv with fwB := .bytes } else nv }

/-- NOR programming, which only clears bits (R375). -/
def State.nvProgram (s : State) (a : Nat) (l : List Byte) : State :=
  s.each l.zipIdx fun s e =>
    { s with nvm := { s.nvm with bytes := Sparse.set 0xFF s.nvm.bytes (a + e.2) (s.nvByte (a + e.2) &&& e.1) } }

/-! ### Firmware -/

/-- A firmware region's failure code: 0 valid, 1 empty, 2 format, 3 signature, 4 CRC (R368, `SEC.BOOT`). -/
def State.fwFail (s : State) (r : Nat) : Nat :=
  match if r = 0 then s.nvm.fwA else s.nvm.fwB with
  | .vendor _ _ => 0
  | .bytes =>
    let b := (nvRegion r).1
    let len := s.nvField (b + 12) 4
    if s.nvm.torn.contains r then 2 + Config.freeNat (s.freeCtr + r) % 3
    else if s.nvEmpty r then 1
    else if s.nvField b 4 ≠ 0x4657_5231 ∨ 0x20_0000 < len then 2
    else if s.nvField (b + 16 + len) 4 ≠ crc32 (s.nvBytes b (16 + len)) then 4
    else if !Config.signatureOk (s.nvBytes b (20 + len)) (s.nvBytes (b + 20 + len) 96) then 3
    else 0

/-- FSEQ and VERSION of a firmware region. -/
def State.fwSeq (s : State) (r : Nat) : Nat :=
  match if r = 0 then s.nvm.fwA else s.nvm.fwB with
  | .vendor f _ => f
  | .bytes => s.nvField ((nvRegion r).1 + 4) 4
def State.fwVersion (s : State) (r : Nat) : Nat :=
  match if r = 0 then s.nvm.fwA else s.nvm.fwB with
  | .vendor _ v => v
  | .bytes => s.nvField ((nvRegion r).1 + 8) 4

/-- A signed difference modulo 2^32 is above 0: the first number is the higher (R320, R368, R377). -/
def seqAbove (a b : Nat) : Bool := decide (0 < signed 32 (unsign 32 ((a : Int) - b)))

/-- Boot firmware picks the firmware copy to run; with no valid one the ROM runs recovery (R368, R369). -/
def State.fwLoad (s : State) : State :=
  if s.dev = .booting ∧ !s.porst ∧ !s.boot.fwLoaded then
    let fa := s.fwFail 0
    let fb := s.fwFail 1
    let fw := if fa = 0 ∧ fb = 0 then b2n (seqAbove (s.fwSeq 1) (s.fwSeq 0)) else if fa = 0 then 0 else if fb = 0 then 1 else 2
    let s1 := { s with
      boot := { s.boot with fwLoaded := true, recovery := decide (fw = 2) }, freeCtr := s.freeCtr + 2
      commit := if fw = 2 then { s.commit with busy := true } else s.commit }
    ((s1.setRegN sSec 0x020 (fw + fa * 4 + fb * 32)).setRegN sSec 0x024 (if fw = 2 then 0 else s.fwVersion fw)).setReg
      (ra sSec 0x034) (Config.nonce s.nvm.nonceN)
  else s

/-! ### Patch image (R290, R291) -/

/-- Two equal elements. -/
def hasDup : List Nat → Bool
  | [] => false
  | a :: r => r.contains a || hasDup r

/-- The records of a patch body: microwords, then nanowords, each with its second field. -/
def patchMicro (n : Nat) (body : List Byte) : List (Nat × Nat × Nat) :=
  (List.range n).map fun k =>
    let l := body.drop (8 * k)
    (ofLeBytes (l.take 2), ofLeBytes ((l.drop 2).take 2), ofLeBytes ((l.drop 4).take 4))
def patchNano (n : Nat) (body : List Byte) : List (Nat × Nat × Nat) :=
  (List.range n).map fun k =>
    let l := body.drop (20 * k)
    (ofLeBytes (l.take 2), ofLeBytes ((l.drop 2).take 2), ofLeBytes ((l.drop 4).take 16))

/-- The failure code of the records alone: 1 for a reserved field or an address twice, 6 for the open region, else 0. -/
def patchRecords (nm nn : Nat) (body : List Byte) (which : Nat) : Bool :=
  let ms := patchMicro nm body
  let ns := patchNano nn (body.drop (8 * nm))
  if which = 1 then
    (ms ++ ns).any (fun r => decide (r.2.1 ≠ 0)) || hasDup (ms.map (·.1)) || hasDup (ns.map (·.1))
  else ms.any (fun r => decide (microOpen ≤ r.1)) || ns.any fun r => decide (nanoOpen ≤ r.1)

/-- The body in the clear, where its check matches (CRC-32, or the GCM tag). -/
def State.patchBody (s : State) : Option (List Byte) :=
  let b := (nvRegion 2).1
  let len := s.nvField (b + 28) 4
  if s.nvField (b + 12) 1 = 0 then
    if s.nvField (b + 32 + len) 4 = crc32 (s.nvBytes b (32 + len)) then some (s.nvBytes (b + 32) len) else none
  else Config.gcmOpen (s.nvBytes (b + 32) len) (s.nvBytes b 32) (s.nvBytes (b + 16) 12) (s.nvBytes (b + 32 + len) 16)

/-- The failure code of the patch image under a mode: 0 where it passes (R291). -/
def State.patchFail (s : State) (sealed' : Bool) : Nat :=
  let b := (nvRegion 2).1
  let nm := s.nvField (b + 8) 2
  let nn := s.nvField (b + 10) 2
  let form := s.nvField (b + 12) 1
  let len := s.nvField (b + 28) 4
  if s.nvm.torn.contains 2 then 1 + Config.freeNat s.freeCtr % 5
  else if s.nvField b 4 ≠ 0x5543_4F44 ∨ s.nvField (b + 4) 4 = 0 ∨ len ≠ 8 * nm + 20 * nn ∨ s.nvField (b + 13) 3 ≠ 0 ∨
      (form = 0 ∧ (s.nvField (b + 16) 12 ≠ 0 ∨ patchRecords nm nn (s.nvBytes (b + 32) len) 1)) then 1
  else if 1024 < nm ∨ 256 < nn then 2
  else if 1 < form ∨ (form = 0 ∧ sealed') then 3
  else if sealed' && !Config.signatureOk (s.nvBytes b (48 + len)) (s.nvBytes (b + 48 + len) 96) then 4
  else match s.patchBody with
    | none => 5
    | some body => if patchRecords nm nn body 1 then 1 else if patchRecords nm nn body 2 then 6 else 0

/-- Boot firmware checks the patch image and loads it whole, or not at all (R291). -/
def State.patchCheck (s : State) : State :=
  if s.dev = .booting ∧ !s.porst ∧ s.boot.calLoaded ∧ !s.boot.patched then
    let s1 := { s with boot := { s.boot with patched := true }, freeCtr := s.freeCtr + 1 }
    if s.nvEmpty 2 && !s.nvm.torn.contains 2 then s1.setRegN sSec 0x01C 16
    else
      let code := s.patchFail s.boot.sealed
      let b := (nvRegion 2).1
      let nm := s.nvField (b + 8) 2
      let nn := s.nvField (b + 10) 2
      match if code = 0 then s.patchBody else none with
      | some body =>
        let ms := patchMicro nm body
        let ns := patchNano nn (body.drop (8 * nm))
        let s2 := { s1 with
          ovMicro := ms.foldl (fun m (r : Nat × Nat × Nat) => Sparse.put m r.1 (BitVec.ofNat 32 r.2.2)) []
          ovNano := ns.foldl (fun m (r : Nat × Nat × Nat) => Sparse.put m r.1 (BitVec.ofNat 128 r.2.2)) [] }
        let s3 := s2.setRegN sSec 0x018 (s.nvField (b + 4) 4)
        let s4 := s3.setReg (ra sSeq 0x014) (s3.reg (ra sSeq 0x014) ||| BitVec.ofNat 32 (2 ^ 20 + nn * 2 ^ 11 + nm))
        s4.bbrPush 3 sSeq [s.nvField (b + 4) 4]
      | none => (s1.setRegN sSec 0x01C (1 + 2 * code)).bbrPush 3 sSeq [code]
  else s

/-- HBM training and test end; device pages 0 to 63 of each stack are initialised (R367). -/
def State.hbmTrained (s : State) : State :=
  if s.dev = .booting ∧ !s.porst then { s with boot := { s.boot with hbm := true } } else s

/-! ### Default images (R370) -/

/-- DSEQ, and the records of a complete image: word 0 and word 1, END left out. -/
def State.image (s : State) (r : Nat) : Option (Nat × List (Nat × Nat)) :=
  let b := (nvRegion r).1
  let len := s.nvField (b + 8) 4
  if s.nvm.torn.contains r || decide (s.nvField b 4 ≠ 0x4346_4731) || decide (2 ^ 20 - 16 < len) || decide (len % 8 ≠ 0) ||
      decide (len = 0) || decide (s.nvField (b + 12 + len) 4 ≠ crc32 (s.nvBytes b (12 + len))) then none
  else
    let recs := (List.range (len / 8)).map fun k => (s.nvField (b + 12 + 8 * k) 4, s.nvField (b + 16 + 8 * k) 4)
    let kinds : List Nat := recs.map fun e => e.1 / 2 ^ 28
    if decide (kinds.getLast? = some 15) && kinds.dropLast.all (fun k => decide (k ≤ 2)) then some (s.nvField (b + 4) 4, recs.dropLast) else none

/-! ### The black-box record -/

/-- Slots of the record, and of a sector (R373). -/
abbrev bbrSlots : Nat := 524_288
abbrev bbrSector : Nat := 1_024

/-- Bits meant to be 0 read 0 or 1 after a tear (R376, "What a slot reads after a failure"). -/
def torn (c : Nat) (l : List Byte) : List Byte := l.zipIdx.map fun e => e.1 ||| Config.tornByte (c + e.2)

/-- One reading of a slot; a torn one may differ from reading to reading. -/
def State.readSlot (s : State) (k : Nat) : List Byte × State :=
  match Sparse.find s.bbr.slots k with
  | none => (List.replicate 64 0xFF, s)
  | some x =>
    let c := s.freeCtr
    let s1 := { s with freeCtr := s.freeCtr + 64 }
    match x.tear with
    | .intact => (x.bytes, s)
    | .body => (x.bytes.take 4 ++ torn c (x.bytes.drop 4), s1)
    | .header => (torn c (x.bytes.take 4) ++ x.bytes.drop 4, s1)
    | .erase => (torn c x.bytes, s1)

/-- R376 on one reading: PATTERN, the SEQ bits and the CRC. -/
def entryOk (l : List Byte) : Bool :=
  let h := ofLeBytes (l.take 4)
  let q := ofLeBytes ((l.drop 4).take 4)
  decide (h / 2 ^ 24 = 0x5A) && decide (h % 2 ^ 24 = q % 2 ^ 24) &&
    decide (ofLeBytes (l.drop 60) = crc32 ((l.drop 4).take 56))

/-- Two successive readings of a slot: the first, and whether the entry is valid (R376). -/
def State.judgeSlot (s : State) (k : Nat) : List Byte × Bool × State :=
  let (a, s1) := s.readSlot k
  let (b, s2) := s1.readSlot k
  (a, entryOk a && entryOk b, s2)

/-- SEQ of an entry's bytes. -/
def entrySeq (l : List Byte) : Nat := ofLeBytes ((l.drop 4).take 4)

/-- Listed slots in ring order from the head on: the oldest first. -/
def State.ringSlots (s : State) : List Nat :=
  let ks := s.bbr.slots.map (·.1)
  (ks.filter fun k => decide (s.bbr.head ≤ k)) ++ ks.filter fun k => decide (k < s.bbr.head)

/-- Valid entries in ring order: slot and bytes. -/
def State.validEntries (s : State) : List (Nat × List Byte) × State :=
  s.ringSlots.foldl (fun (acc, s) k =>
    let (l, ok, s1) := s.judgeSlot k
    (if ok then acc ++ [(k, l)] else acc, s1)) ([], s)

/-- `BBR.OLDEST_SEQ` and `BBR.NEWEST_SEQ` from the valid entries. -/
def State.bbrBounds (s : State) : State :=
  let (l, s1) := s.validEntries
  { s1 with bbr := { s1.bbr with
    oldest := (l.head?.map fun e => entrySeq e.2).getD 0, newest := (l.getLast?.map fun e => entrySeq e.2).getD 0 } }

/-- The bytes of an entry (R374). -/
def entryBytes (seq boots : Nat) (e : BEntry) : List Byte :=
  let body := w32 seq ++ w64 e.uptime ++ w64 e.epoch ++ leBytes 2 e.code ++ leBytes 2 e.slot ++ w32 boots ++
    (e.data.flatMap fun w => w32 w.toNat).take 28
  let body := body ++ List.replicate (56 - body.length) 0
  w32 (0x5A * 2 ^ 24 + seq % 2 ^ 24) ++ body ++ w32 (crc32 body)

/-- One slot judged in the scan: a torn one has its header programmed to 0 and counts (R377). -/
def State.scanSlot (s : State) (k : Nat) : Option (Nat × Nat) × State :=
  let (l, ok, s1) := s.judgeSlot k
  if ok then (some (k, entrySeq l), s1)
  else
    let s2 := match Sparse.find s1.bbr.slots k with
      | some x =>
        let t := match x.tear with
          | .intact => Tear.intact
          | .header => Tear.intact
          | .body => Tear.body
          | .erase => Tear.body
        { s1 with bbr := { s1.bbr with slots := Sparse.put s1.bbr.slots k ⟨w32 0 ++ x.bytes.drop 4, t⟩ } }
      | none => s1
    (none, (s2.bump32 sBbr 0x080 1).evt sBbr 4)

/-- The first slot at or after one that is erased. -/
def State.firstErased (s : State) : Nat → Nat → Nat
  | 0, k => k
  | n + 1, k => if (Sparse.find s.bbr.slots (k % bbrSlots)).isNone then k % bbrSlots else s.firstErased n (k + 1)

/-- Whether every slot of a sector is erased. -/
def State.sectorBlank (s : State) (j : Nat) : Bool := s.bbr.slots.all fun e => decide (e.1 / bbrSector ≠ j)

/-- The scan at boot (R377). -/
def State.bbrScan (s : State) : State :=
  if s.dev = .booting ∧ !s.porst ∧ !s.bbr.scanned then
    let (best, s1) := (s.bbr.slots.map (·.1)).foldl (fun (best, s) k =>
      let (r, s1) := s.scanSlot k
      (match r, best with
        | some (k, q), some (k', q') => if seqAbove q q' then some (k, q) else some (k', q')
        | some x, none => some x
        | none, b => b, s1)) ((none : Option (Nat × Nat)), s)
    let (head, seq) := match best with
      | some (k, q) => (s1.firstErased (s1.bbr.slots.length + 1) (k + 1), (q + 1) % 2 ^ 32)
      | none => (s1.firstErased (s1.bbr.slots.length + 1) 0, 0)
    let ahead := (head / bbrSector + 1) % 512
    let s2 := { s1 with bbr := { s1.bbr with
      scanned := true, head := head, seq := seq, erasing := if s1.sectorBlank ahead then none else some ahead } }
    s2.bbrBounds
  else s

/-- The controller can program at the head: scanned, not clearing, and the head's sector is not being erased (R373, R375). -/
def State.bbrReady (s : State) : Bool :=
  s.bbr.scanned && !s.bbr.clearing && decide (s.bbr.erasing ≠ some (s.bbr.head / bbrSector)) && !s.porst

/-- Writing has reached a sector: the erase of the next one starts (R373). -/
def State.bbrAdvance (s : State) : State :=
  let h := s.bbr.head
  let b := { s.bbr with head := (h + 1) % bbrSlots }
  { s with bbr := if h % bbrSector = 0 then { b with erasing := some ((h / bbrSector + 1) % 512) } else b }

/-- The header of the first queued entry has been programmed (R375), which makes room for the entry that drops are owed; a
slot that does not read erased is skipped as torn. -/
def State.bbrProgrammed (s : State) : State :=
  match s.bbr.queue with
  | e :: r =>
    if s.bbrReady then
      let h := s.bbr.head
      if (Sparse.find s.bbr.slots h).isSome then ((s.bbrAdvance).bump32 sBbr 0x080 1).evt sBbr 4
      else
        let q := s.bbr.seq
        let s1 := { s with bbr := { s.bbr with
          queue := r, seq := (q + 1) % 2 ^ 32, newest := q
          oldest := if s.bbr.slots.isEmpty then q else s.bbr.oldest
          slots := Sparse.put s.bbr.slots h ⟨entryBytes q s.nvm.boots e, .intact⟩ } }
        (((s1.bbrAdvance).bump64 sBbr 0x078 1).evt sBbr 0).bbrRoom
    else s
  | [] => s

/-- Entries of a dump that are not yet sent are left out once their slots are erased (R381). -/
def Msg.dropEntries (m : Msg) (sent : Nat) (gone : List (List Byte)) : Msg :=
  if m.src = .dump then
    let keep := (sent + 63) / 64
    let es := (List.range (m.body.length / 64)).map fun k => (k, (m.body.drop (64 * k)).take 64)
    { m with body := (es.filter fun e => decide (e.1 < keep) || !gone.contains e.2).flatMap (·.2) }
  else m

/-- The entries of some slots leave the dumps in progress. -/
def State.dumpOmit (s : State) (gone : List (List Byte)) : State :=
  s.each (s.dma.map (·.1)) fun s ch =>
    let d := s.dmaCh ch
    s.setDma ch { d with
      handed := d.handed.map fun m => m.dropEntries 0 gone
      queue := d.queue.zipIdx.map fun (e : Msg × Nat) => e.1.dropEntries (if e.2 = 0 then d.sent.getD 0 else 0) gone }

/-- The erase of the sector ahead is complete (R373). -/
def State.bbrErased (s : State) : State :=
  match s.bbr.erasing with
  | some j =>
    let gone := s.bbr.slots.filter fun e => decide (e.1 / bbrSector = j)
    let s1 := { s with bbr := { s.bbr with
      erasing := none, slots := s.bbr.slots.filter fun e => decide (e.1 / bbrSector ≠ j) } }
    if gone.isEmpty then s1 else (s1.dumpOmit (gone.map (·.2.bytes))).bbrBounds
  | none => s

/-- A write of `BBR.DUMP` (R378). DEDUCED (log entry 24). -/
def State.bbrDump (s : State) (v : Word) : State :=
  if bit v 8 then
    let ch := fld v 0 6
    if s.bbr.dumping || !s.pageOn (sDma ch) then s.evt sBbr 5
    else
      let (l, s1) := s.validEntries
      ({ s1 with bbr := { s1.bbr with dumping := true } } : State).hand ch { kind := 4, body := l.flatMap (·.2), src := .dump }
  else s

/-- The number of an access path's window. -/
def pathNum (p : Path) : Nat :=
  match p with
  | .pcie => 0
  | .spi => 1

/-- A read of ENT_00 takes the selected slot into the path's window (R378, R135): its first bytes; VALID, ERASED or TORN. -/
def State.bbrTake (s : State) (p : Path) : State :=
  let k := (s.reg (ra sBbr 0x024)).toNat
  let (l, ok, s1) := s.judgeSlot k
  let er := l.all fun b => decide (b = 0xFF)
  { s1 with bbr := { s1.bbr with
    windows := Sparse.put s1.bbr.windows (pathNum p) { bytes := l, sel := some k, stale := false }
    selStat := b2n ok + 2 * b2n er + 4 * b2n (!ok && !er) } }

/-- `BBR.STAT`. -/
def State.bbrStat (s : State) : Nat :=
  let b := s.bbr
  b2n b.scanned + 2 * b2n (!b.queue.isEmpty && s.bbrReady) + 4 * b2n b.erasing.isSome + 8 * b2n b.dumping +
    16 * b2n b.clearing + 2 ^ 8 * b.queue.length

/-! ### Service (R380) -/

/-- The region that a TARGET names: the firmware copy not running, the patch area, the default image not in force. -/
def State.svcRegion (s : State) (target : Nat) : Nat :=
  let boot := (s.reg (ra sSec 0x020)).toNat
  if target = 0 then (if boot % 4 = 0 then 1 else 0)
  else if target = 1 then 2
  else if boot / 2 ^ 8 % 8 ≠ 0 ∧ boot / 2 ^ 11 % 2 = 0 then 4 else 3

/-- The service buffer's bytes. -/
def State.svcBuffer (s : State) : List Byte := (List.range 1024).flatMap fun k => w32 (s.tabw (oSvc k)).toNat

/-- The check of UPD_FINISH: the result code (R380). -/
def State.updCheck (s : State) (r : Nat) : Nat :=
  if s.nvm.torn.contains r then 4
  else if r ≤ 1 then (match s.fwFail r with
    | 0 => 1
    | 3 => 5
    | _ => 4)
  else if r = 2 then (match s.patchFail s.boot.sealed with
    | 0 => 1
    | 4 => 5
    | _ => 4)
  else if (s.image r).isSome then 1 else 4

/-- A command is taken: BUSY until SVC_DONE. -/
def State.svcBusy (s : State) (op result : Nat) : State :=
  { s with svc := { s.svc with busy := true, op := op, result := 0, pendingResult := result } }

/-- FUSE. -/
def State.svcFuse (s : State) (key : Nat) : State :=
  if key = 0x5EA1 then
    ({ s with nvm := { s.nvm with fuse := true } }.setRfld sSec 0x014 1 1 1).svcBusy 1 1
  else s.svcBusy 1 3

/-- UPD_BEGIN. -/
def State.svcBegin (s : State) (target : Nat) : State :=
  if target = 3 then s.svcBusy 2 3
  else
    let r := s.svcRegion target
    let s1 := (s.nvErase r).svcBusy 2 1
    { s1 with svc := { s1.svc with target := some r } }

/-- UPD_CHUNK. -/
def State.svcChunk (s : State) : State :=
  match s.svc.target with
  | some r =>
    let buf := s.svcBuffer
    let off := ofLeBytes (buf.take 4)
    let len := ofLeBytes ((buf.drop 4).take 4)
    let (b, n) := nvRegion r
    if 4088 < len ∨ n < off + len then s.svcBusy 3 3
    else (s.nvProgram (b + off) ((buf.drop 8).take len)).svcBusy 3 1
  | none => s.svcBusy 3 2

/-- UPD_FINISH. -/
def State.svcFinish (s : State) : State :=
  match s.svc.target with
  | some r => s.svcBusy 4 (s.updCheck r)
  | none => s.svcBusy 4 2

/-- SERVICE: the token is bound to UID and NONCE, and NONCE changes. -/
def State.svcService (s : State) : State :=
  let ok := Config.signatureOk s.svcBuffer (w64 s.nvm.uid ++ w32 (Config.nonce s.nvm.nonceN).toNat)
  let s1 := { s with
    nvm := { s.nvm with nonceN := s.nvm.nonceN + 1 }, bbr := if ok then { s.bbr with clearing := true } else s.bbr }
  (s1.setReg (ra sSec 0x034) (Config.nonce s1.nvm.nonceN)).svcBusy 5 (if ok then 1 else 5)

/-- A write of `SEC.SVC_CMD`. DEDUCED (log entry 23). -/
def State.svcCmd (s : State) (v : Word) : State :=
  if s.svc.busy || decide (s.dev = .booting) then s
  else match fld v 0 4 with
    | 0 => s
    | 1 => s.svcFuse (fld v 16 16)
    | 2 => s.svcBegin (fld v 4 2)
    | 3 => s.svcChunk
    | 4 => s.svcFinish
    | 5 => s.svcService
    | op => s.svcBusy op 3

/-- The whole record has been erased: a CLEARED entry goes to slot 0 with SEQ 0, before those that wait (R380). -/
def State.bbrCleared (s : State) : State :=
  let (id, s1) := s.fresh
  let e : BEntry := { uptime := s.now / usEdges, epoch := s.epoch, code := 19, slot := sBbr, data := [BitVec.ofNat 32 id] }
  let s2 := { s1 with bbr := { s1.bbr with
    clearing := false, slots := [], head := 0, seq := 0, newest := 0, oldest := 0, erasing := none
    queue := e :: s1.bbr.queue } }
  (s2.dumpOmit (s.bbr.slots.map fun e => e.2.bytes)).evt sBbr 3

/-- A service command ends (R380). After an NVM error, which writes a FAULT entry beside the command's own (R379), what the
region holds is open. -/
def State.svcDone (s : State) (nvmError : Bool) : State :=
  if s.svc.busy then
    let op := s.svc.op
    let res := if nvmError then 6 else s.svc.pendingResult
    let s1 := { s with svc := { s.svc with busy := false, result := res } }
    let s2 := if op = 5 ∧ s1.bbr.clearing then s1.bbrCleared else s1
    let s3 := match s2.svc.target with
      | some r =>
        if nvmError ∧ (op = 2 ∨ op = 3) then { s2 with nvm := { s2.nvm with torn := r :: s2.nvm.torn.filter (· ≠ r) } } else s2
      | none => s2
    let s4 := s3.evt sSec 0
    let s5 := if 2 ≤ res then s4.evt sSec 1 else s4
    let s5 := if nvmError then s5.bbrFault sSec op 6 else s5
    if op = 1 then s5.bbrPush 20 sSec [op, res]
    else if op ≤ 4 then s5.bbrPush 20 sSec [s5.svc.target.getD 3, res]
    else s5
  else s

/-- `SEC.SVC_STAT`. -/
def State.svcStat (s : State) : Nat := b2n s.svc.busy + 2 * s.svc.result

/-! ### The monitor -/

/-- A die's temperature is above TEMP_WARN. -/
def State.monAbove (s : State) (w : BitVec 16) : Bool := decide (signed 16 (s.reg (ra sMon 0x054)).toNat < signed 16 w.toNat)

/-- The ADC samples rails and temperatures (R364, MON page): T die, X dies A and B, stacks A and B. DEDUCED (log entry 25). -/
def State.monSample (s : State) (mv temps : List (BitVec 16)) : State :=
  if s.porst then s
  else
    let s1 := s.each ((mv.take 11).zipIdx) fun s e => s.setRegN sMon (0x014 + 4 * e.2) e.1.toNat
    let s2 := s1.each ((temps.take 5).zipIdx) fun s e => s.setRegN sMon (0x040 + 4 * e.2) e.1.toNat
    let dies := (temps.take 3).zipIdx
    let peak := dies.foldl (fun (p : Option Int) e => match p with
      | some p => some (max p (signed 16 e.1.toNat))
      | none => some (signed 16 e.1.toNat)) (if s.mon.peaked then some (signed 16 (s.reg (ra sMon 0x058)).toNat) else none)
    let s3 := match peak with
      | some p => s2.setRegN sMon 0x058 (unsign 16 p)
      | none => s2
    let above := (dies.filter fun e => s.monAbove e.1).map (·.2)
    let s4 := s3.each (dies.filter fun e => s.monAbove e.1 && !s.mon.above.contains e.2) fun s e =>
      (s.evt sMon 0).bbrPush 16 sMon [e.2, e.1.toNat, 0]
    let warn := signed 16 (s.reg (ra sMon 0x054)).toNat
    let cool := s.mon.hot && !dies.isEmpty && dies.all fun e => decide (signed 16 e.1.toNat ≤ warn - 20)
    let s5 := { s4 with mon := { above := above, hot := !cool && (s.mon.hot || !above.isEmpty), peaked := s.mon.peaked || !dies.isEmpty } }
    if cool then
      let hottest := dies.foldl (fun (b : BitVec 16 × Nat) e => if signed 16 b.1.toNat < signed 16 e.1.toNat then e else b)
        (dies.headD (0, 0))
      (s5.evt sMon 1).bbrPush 16 sMon [hottest.2, hottest.1.toNat, 1]
    else s5

/-! ### Commands -/

/-- FIRMWARE_LOADED (R368). -/
def execFirmwareLoaded (t : Nat) : State → Host.Outcome State Fault Refusal := command t State.fwLoad

/-- PATCH_CHECK (R291). -/
def execPatchCheck (t : Nat) : State → Host.Outcome State Fault Refusal := command t State.patchCheck

/-- HBM_TRAINED (R367). -/
def execHbmTrained (t : Nat) : State → Host.Outcome State Fault Refusal := command t State.hbmTrained

/-- BBR_SCAN (R377). -/
def execBbrScan (t : Nat) : State → Host.Outcome State Fault Refusal := command t State.bbrScan

/-- SVC_DONE (R380). -/
def execSvcDone (t : Nat) (nvmError : Bool) : State → Host.Outcome State Fault Refusal := command t fun s => s.svcDone nvmError

/-- BBR_ENTRY_PROGRAMMED (R375). -/
def execBbrEntryProgrammed (t : Nat) : State → Host.Outcome State Fault Refusal := command t State.bbrProgrammed

/-- BBR_SECTOR_ERASED (R373). -/
def execBbrSectorErased (t : Nat) : State → Host.Outcome State Fault Refusal := command t State.bbrErased

/-- MON_SAMPLE (R364). -/
def execMonSample (t : Nat) (mv temps : List (BitVec 16)) : State → Host.Outcome State Fault Refusal :=
  command t fun s => s.monSample mv temps

end Sys2Proof.Machine
end

