-- ==== Sys2Proof/Machine/HostRead.lean ====
section
/-! DEFINITION. What a host read returns (18_host_control.md, R338, R340, R342, R348; R135, R378): the registers whose word is
formed when it is read, the page state word, the snapshots of split pairs and of the windows, and the words of the table
aperture. What it reads by inference or chooses: log entries 19, 20, 10. -/

namespace Sys2Proof.Machine

/-! ### Which registers answer -/

/-- Pages that the firmware in force serves (R369): all of them, or four under recovery; none in BOOTING (R367). -/
def State.served (s : State) (slot : Nat) : Bool :=
  decide (s.dev ≠ .booting) && (!s.boot.recovery || decide (slot = sGlb) || decide (slot = sMon) || decide (slot = sSec) ||
    decide (slot = sBbr))

/-- The register at a BAR0 byte address as the host finds it. -/
def State.hostReg (s : State) (a : Nat) : Option RegInfo := if s.served (a / 0x400) then regAt a else none

/-- Instance of a page that a slot names. -/
def pageInst (slot : Nat) : Nat :=
  match pageAt slot with
  | some p => slot - p.first
  | none => 0

/-! ### Registers formed when they are read -/

/-- The whole part of a sum of rates, in units of 10^u per second. -/
def ratePer (l : List (Int × Nat)) (unit : Nat) : Nat := let (n, d) := ratSum l; (n / ((d * unit : Nat) : Int)).toNat

/-- Entries of the reading path's view and word of a 64-bit value at an offset of a pair. -/
def half (lo off n : Nat) : Nat := if off = lo then n % 2 ^ 32 else n / 2 ^ 32 % 2 ^ 32

/-- Whether a page holds values written and not yet applied (`PAGE_STAT.PENDING`, R340, R345, R53). -/
def State.pagePending (s : State) (slot : Nat) : Bool :=
  let here (l : List (Nat × Word)) : Bool := l.any fun e => decide (e.1 / 0x400 = slot)
  here s.staged || here ((s.commit.snapshot.map (·.1)).getD []) || here s.clkWait || here s.ckoWait || here s.parWait

/-- GLB registers. -/
def State.glbWord (s : State) (p : Path) (off : Nat) : Option Nat :=
  match off with
  | 0x014 => some (devCode s.dev + s.stopSrc * 2 ^ 8)
  | 0x01C => some (b2n s.commit.busy + s.commit.result * 2 + b2n (!s.ckoWait.isEmpty && s.ckoDue.isNone) * 8 +
      s.commit.count % 2 ^ 16 * 2 ^ 16)
  | 0x020 => some s.commit.err
  | 0x024 => some s.commit.errAddr
  | 0x028 => some (b2n (match p with
      | .pcie => s.viewPcie
      | .spi => s.viewSpi))
  | 0x02C => some s.barriers
  | _ => none

/-- CLK registers. -/
def State.clkWord (s : State) (off : Nat) : Option Nat :=
  if off = 0x068 then some s.clkState
  else if off = 0x06C then some s.refStat
  else if off = 0x070 ∨ off = 0x074 then some (half 0x070 off (m64 s.phaseErr))
  else if off = 0x078 ∨ off = 0x07C then some (half 0x078 off (m64 s.loop.steer))
  else if off = 0x080 then some s.winterTime
  else none

/-- `CKO.STAT`. -/
def State.ckoStat (s : State) (n : Nat) : Nat :=
  b2n (s.ckoRunning n) + 2 * b2n (s.cko n).gatedLock + 4 * b2n ((s.cko n).gatedStop && s.ckoEnded (s.cko n).stopAt) + 8 * b2n (s.pagePending (sCko n)) +
    16 * b2n (s.ckoDisabled n)

/-- `TIN.STAT`. -/
def State.tinStat (s : State) (n : Nat) : Nat :=
  let x := s.stamper n
  b2n x.calRun * 2 ^ 22 + b2n x.stuck * 2 ^ 21 + b2n x.lastPass * 2 ^ 20 + b2n (x.inWindow s.now) * 2 ^ 19 +
    b2n x.eqx.isSome * 2 ^ 18 + b2n x.ready * 2 ^ 17 + b2n (s.tinCapturing n) * 2 ^ 16 + (s.tin n).fifo.length

/-- `TOUT.STAT`. -/
def State.toutStat (s : State) (n : Nat) : Nat :=
  let x := s.tout n
  b2n x.active * 2 ^ 12 + b2n x.gatedDorm * 2 ^ 11 + b2n x.gatedStop * 2 ^ 10 + b2n x.gatedLock * 2 ^ 9 +
    b2n x.calRun * 2 ^ 8 + x.queue.length

/-- The code of a lane state (R165). -/
def laneCode (x : LaneSt) : Nat :=
  match x with
  | .off => 0
  | .training => 1
  | .aligned => 2
  | .registering => 3
  | .up => 4
  | .lost => 5
  | .mismatch => 6

/-- LANE registers. -/
def State.laneWord (s : State) (n off : Nat) : Option Nat :=
  let x := s.lane n
  match off with
  | 0x024 => some (x.buf.length * 2 ^ 12 + x.lastFail * 2 ^ 8 + b2n x.cw * 2 ^ 4 + b2n x.cdr * 2 ^ 3 + laneCode x.st)
  | 0x028 => some (x.l % 2 ^ 32)
  | 0x02C => some (x.r % 2 ^ 32)
  | _ => none

/-- MEAS, CTX, SEQ and ACQ registers. -/
def State.engineWord (s : State) (k : PageKind) (off : Nat) : Option Nat :=
  match k, off with
  | .meas, 0x014 =>
    some ((s.meas.filter fun e => e.2.armed).length + (s.meas.filter fun e => e.2.gateOpen).length * 2 ^ 16)
  | .ctx, 0x018 => some (match s.adm with
      | some c => 2 ^ 31 + c
      | none => s.admRes)
  | .ctx, 0x01C => some (s.runningCtxs.length + (s.ctxs.filter fun e => e.2.urgent.isSome).length * 2 ^ 16)
  | .ctx, 0x020 => some s.selHeld
  | .seq, 0x020 => some ((s.ctxs.filterMap fun e => e.2.urgent.map fun k => 2 ^ k).sum)
  | .acq, 0x058 => some (s.writerLevel 0)
  | .acq, 0x05C => some (s.writerLevel 1)
  | .acq, 0x060 => some (s.caps.filter fun e => e.2.active).length
  | _, _ => none

/-- CAL, PAR, SEC and BBR registers. -/
def State.controlWord (s : State) (k : PageKind) (off : Nat) : Option Nat :=
  match k, off with
  | .cal, 0x01C => some s.calStat
  | .par, 0x028 => some s.parStat
  | .par, 0x02C => some s.parClaim
  | .sec, 0x028 => some s.nvm.boots
  | .sec, 0x02C => some (s.nvm.uid % 2 ^ 32)
  | .sec, 0x030 => some (s.nvm.uid / 2 ^ 32)
  | .sec, 0x03C => some s.svcStat
  | .bbr, 0x014 => some s.bbrStat
  | .bbr, 0x018 => some s.bbr.newest
  | .bbr, 0x01C => some s.bbr.oldest
  | .bbr, 0x020 => some s.bbr.head
  | .bbr, 0x028 => some s.bbr.selStat
  | _, _ => none

/-- BIN registers of a plane: users, and the largest delay. -/
def State.binWord (s : State) (p off : Nat) : Option Nat :=
  match off with
  | 0x018 => some ((s.runningCtxs.filter fun c => s.usesPlane c && decide (s.ctxPlane c = p)).length +
      b2n (s.plane p).active * 2 ^ 10)
  | 0x01C => some (((s.plane p).delays.map (·.2)).foldl max 0)
  | _ => none

/-- BEAM registers of a die: the loads of R200. -/
def State.beamWord (s : State) (die off : Nat) : Option Nat :=
  let on := s.beamsBy s.runningCtxs
  match off with
  | 0x014 => some (s.beamEnts on die).length
  | 0x018 => some (ratePer (s.planeLoad (s.beamEnts on die)) 1_000_000)
  | 0x01C => some (ratePer (s.planeLoad (on.map (·.2))) 1_000_000)
  | _ => none

/-- Whether a context holds slices of a die and has a closed Harvest to sweep. -/
def State.sweeping (s : State) (die : Nat) : Bool :=
  s.cors.any fun e => (!e.2.sweep.isEmpty || !e.2.ladSweep.isEmpty) &&
    decide (0 < if die = 0 then e.2.slicesA else e.2.slicesB)

/-- COR registers of a die: the pools of R207, R208 and R220. Whether the dump queue holds values while a sweep runs is
open. -/
def State.corWord (s : State) (die off : Nat) : Option Nat :=
  let on := s.corCtxs 1
  match off with
  | 0x018 => some (s.sliceUsed die)
  | 0x01C => some (s.ladAll on).length
  | 0x020 => some (ratePer ((s.corRunning 1).flatMap s.dumpTerm) 1_000_000)
  | 0x024 => some (ratePer ((s.ladAll on).map s.ladComp) 1_000_000_000)
  | 0x028 => some (ratePer (s.ladHbm (s.ladAll on)) 1_000_000)
  | 0x02C => some (on.length * 2 ^ 8 + b2n (s.sweeping die) +
      (if s.sweeping die then Config.freeNat s.freeCtr % 2 * 2 else 0))
  | _ => none

/-- HST, MEM and CAS registers. -/
def State.storeWord (s : State) (k : PageKind) (i off : Nat) : Option Nat :=
  match k, off with
  | .hst, 0x020 => some (b2n (s.hctxs.any fun e => e.2.dies.contains i) + (s.heng i).misses.length * 2)
  | .hst, 0x024 => some s.binsHeld
  | .mem, 0x01C => some (s.pagesFree i)
  | .mem, 0x028 => some (ratePer (s.blkTerms (s.corRunning 2)) 2_000_000)
  | .cas, 0x01C => some (s.cas.upPos * 2 ^ 16 + s.cas.lock * 2 ^ 8 + s.cas.st)
  | .cas, 0x020 => some (ratePer (s.hopTerms (s.corRunning 2)) 1_000_000)
  | _, _ => none

/-- `FWD.STAT`. -/
def State.fwdStat (s : State) (i : Nat) : Nat :=
  let n := (s.fwd i).queue.length
  n + b2n (decide (n = 65536)) * 2 ^ 17

/-- The word of a register that is formed when it is read, or none where the word is held. -/
def State.formed (s : State) (p : Path) (k : PageKind) (i off : Nat) : Option Nat :=
  match k with
  | .glb => s.glbWord p off
  | .clk => s.clkWord off
  | .cko => if off = 0x024 then some (s.ckoStat i) else none
  | .sol => if off = 0x018 then some (b2n s.sol.armed) else if off = 0x024 then some s.solStat else none
  | .ttl => if off = 0x040 then some (s.ttlStat i) else none
  | .tin => if off = 0x024 then some (s.tinStat i) else none
  | .tout => if off = 0x040 then some (s.toutStat i) else none
  | .meas | .ctx | .seq | .acq => s.engineWord k off
  | .cal | .par | .sec | .bbr => s.controlWord k off
  | .fwd => if off = 0x014 then some (s.fwdStat i) else none
  | .lane => s.laneWord i off
  | .dma => match off with
    | 0x024 => some (s.dmaCh i).head
    | 0x028 => some (s.dmaCh i).tail
    | 0x02C => some (s.dmaStat i)
    | _ => none
  | .bin => s.binWord i off
  | .beam => s.beamWord i off
  | .cor => s.corWord i off
  | .hst | .mem | .cas => s.storeWord k i off
  | .mon | .reb => none

/-- Whether the reading path's VIEW bit is STAGED (R342). -/
def State.viewStaged (s : State) (p : Path) : Bool :=
  match p with
  | .pcie => s.viewPcie
  | .spi => s.viewSpi

/-- The staged copy of an RWS register: the last value written that has not yet been applied, or the live value (R342). Reserved
bits read 0 (R8), though the copy keeps them for the commit to refuse (R344). -/
def State.stagedReg (s : State) (a : Nat) : Word :=
  let look (l : List (Nat × Word)) : Option Word := (Sparse.find l a).map (· &&& ((regAt a).map (·.mask)).getD 0)
  ((look s.staged).or ((look ((s.commit.snapshot.map (·.1)).getD [])).or
    ((look s.clkWait).or ((look s.ckoWait).or (look s.parWait))))).getD (s.reg a)

/-- Why a page's FAULT bit is 1 beside a latched read condition: a TIN channel stuck or unable to capture (R89, R103), a lane
lost or mismatched (R166, R167). -/
def State.pageFault (s : State) (slot : Nat) : Bool :=
  match pageAt slot with
  | some p =>
    let i := slot - p.first
    match p.kind with
    | .tin => (s.stamper i).stuck || (s.stamper i).bootFail
    | .lane => decide ((s.lane i).st = .lost) || decide ((s.lane i).st = .mismatch)
    | _ => false
  | none => false

/-- Whether a page's results are held for calibration (R127, R151; 16_calibration.md, "Frost and CAL"). -/
def State.pageFrost (s : State) (slot : Nat) : Bool :=
  match pageAt slot with
  | some p =>
    let i := slot - p.first
    match p.kind with
    | .tin => (s.stamper i).calRun
    | .tout => (s.tout i).calRun
    | .meas => s.meas.any fun e => e.2.held
    | _ => false
  | none => false

/-- `PAGE_STAT.STATE` (R340, R384): 2 in reset; ENABLE where the page's chapter gives it an effect; 1 otherwise. -/
def State.pageState (s : State) (slot : Nat) : Nat :=
  if s.inReset slot then 2
  else match pageAt slot with
    | some p => (match p.kind with
      | .tin | .cko | .lane | .dma => b2n (s.pageOn slot)
      | _ => 1)
    | none => 0

/-- `PAGE_STAT` (R340). DEDUCED (log entry 9). -/
def State.pageStat (s : State) (slot : Nat) : Word :=
  let st := s.reg (ra slot 0x004)
  put (fld st 16 16) 16 16 ||| put (b2n (s.pageFault slot || s.splitFault.contains slot)) 10 1 |||
    put (b2n (s.pagePending slot)) 9 1 ||| put (b2n (s.pageFrost slot)) 8 1 ||| put (fld st 4 4) 4 4 |||
    put (s.pageState slot) 0 4

/-- The word of a register that a read returns, with nothing else done: 0 from a write-only one (R7), and the reset complete
bit of `PAGE_CTRL` (R341). -/
def State.peek (s : State) (p : Path) (a : Nat) : Word :=
  match s.hostReg a with
  | none => 0
  | some i =>
    let slot := a / 0x400
    let off := a % 0x400
    if off = 0x004 then s.pageStat slot
    else if off = 0x010 then put (b2n (s.inReset slot)) 0 1 ||| put (b2n (s.pageOn slot)) 1 1
    else match i.ty with
      | .wo => 0
      | .rws => if s.viewStaged p then s.stagedReg a else s.reg a
      | _ => match pageAt slot with
        | some q => (match s.formed p q.kind (slot - q.first) off with
          | some n => BitVec.ofNat 32 n
          | none => s.reg a)
        | none => 0

/-! ### Split reads (R348) -/

/-- The `_LO` address of the pair that an address belongs to, and whether it is the `_LO` half. -/
def pairOf (a : Nat) : Option (Nat × Bool) :=
  match pageAt (a / 0x400) with
  | some p =>
    if (pairLos p.kind).contains (a % 0x400) then some (a, true)
    else if (pairLos p.kind).contains (a % 0x400 - 4) ∧ 4 ≤ a % 0x400 then some (a - 4, false)
    else none
  | none => none

/-- The key of a pair's snapshot on a path. -/
def snapKey (p : Path) (lo : Nat) : Nat :=
  2 * lo + pathNum p

/-- The snapshot of a pair on a path. -/
def State.snap (s : State) (p : Path) (lo : Nat) : Snap := Sparse.get {} s.snaps (snapKey p lo)

/-- A latched read condition of a page (R348, R135). -/
def State.latchFault (s : State) (slot : Nat) : State :=
  { s with splitFault := if s.splitFault.contains slot then s.splitFault else slot :: s.splitFault }

/-- A read of `_LO`: both halves go into the path's snapshot, which is fresh; the low half is returned. -/
def State.readLo (s : State) (p : Path) (lo : Nat) : Word × State :=
  let v := s.peek p lo
  let n := v.toNat + 2 ^ 32 * (s.peek p (lo + 4)).toNat
  (v, { s with snaps := Sparse.set {} s.snaps (snapKey p lo) { v := n, fresh := true } })

/-- A read of `_HI`: the snapshot's high half; one that is not fresh latches the page's condition. -/
def State.readHi (s : State) (p : Path) (lo : Nat) : Word × State :=
  let x := s.snap p lo
  let s1 := { s with snaps := Sparse.set {} s.snaps (snapKey p lo) { x with fresh := false } }
  (BitVec.ofNat 32 (x.v / 2 ^ 32), if x.fresh then s1 else s1.latchFault (lo / 0x400))

/-! ### Windows (R135, R378) -/

/-- A word of a snapshot; the condition of R135 is latched when what it was taken of has changed. -/
def State.winRead (s : State) (w : Window) (k slot : Nat) : Word × State :=
  (winWord w.bytes k, if w.stale then s.latchFault slot else s)

/-- RES_k and STR_k on a path: word 0 takes the snapshot. -/
def State.measWindow (s : State) (p : Path) (stat : Bool) (k : Nat) : Word × State :=
  if k = 0 then
    let (b, s1) := s.measWinRead p stat
    (winWord b 0, s1)
  else s.winRead (s.measWin p stat) k sMeas

/-- The window on the black-box record of a path. -/
def State.bbrWin (s : State) (p : Path) : Window := Sparse.get {} s.bbr.windows (pathNum p)

/-- ENT_k on a path: word 0 takes the snapshot, reading the slot twice. -/
def State.bbrWindow (s : State) (p : Path) (k : Nat) : Word × State :=
  if k = 0 then
    let s1 := s.bbrTake p
    (winWord (s1.bbrWin p).bytes 0, s1)
  else s.winRead (s.bbrWin p) k sBbr

/-! ### A read that reaches its page -/

/-- A read of a register that its page serves now: what it returns and what it changes. -/
def State.readNow (s : State) (p : Path) (a : Nat) : Word × State :=
  let s := { s with freeCtr := s.freeCtr + 1 }
  let slot := a / 0x400
  let off := a % 0x400
  if (s.hostReg a).isNone then (0, s)
  else if off = 0x004 then (s.pageStat slot, { s with splitFault := s.splitFault.filter (· ≠ slot) })
  else if slot = sMeas ∧ 0x020 ≤ off ∧ off < 0x060 then s.measWindow p false ((off - 0x020) / 4)
  else if slot = sMeas ∧ 0x060 ≤ off ∧ off < 0x0E0 then s.measWindow p true ((off - 0x060) / 4)
  else if slot = sBbr ∧ 0x02C ≤ off ∧ off < 0x06C then s.bbrWindow p ((off - 0x02C) / 4)
  else match pairOf a with
    | some (lo, true) => s.readLo p lo
    | some (lo, false) => s.readHi p lo
    | none => (s.peek p a, s)

/-- A read answered on its path. -/
def State.readReply (s : State) (p : Path) (a : Nat) : State :=
  let (v, s1) := s.readNow p a
  s1.emit (.reply p v)

/-- The page an access goes to; none for the table aperture. -/
def HostAcc.slot (x : HostAcc) : Option Nat :=
  match x with
  | .write _ a _ | .read _ a => some (a / 0x400)
  | .tail ch _ => some (sDma ch)
  | .table _ _ => none

/-- The island that owns the table entry at an offset (R390). -/
def tabIsland (off : Nat) : Option Nat :=
  (tabAt off).map fun t =>
    let i := t.index off
    match t.tab with
    | .ctx | .micro | .nano | .rec' => 0x61
    | .mirror | .svc => 0x60
    | .meas => 0x62
    | .tile => if i < 32 then 0xC0 else 0xD0
    | .rx => if i < 2048 then 0xC0 else 0xD0
    | .delay => if i % 4096 < 2048 then 0xC0 else 0xD0
    | .weightA | .beam => 0xC0
    | .weightB => 0xD0
    | .cor | .slot | .blk | .lad => 0xC1
    | .hctx | .hdef => 0xC2
    | .route => 0xC4

/-- The islands of the tables that an access writes, at either end of its burst. -/
def HostAcc.tabIslands (x : HostAcc) : List Nat :=
  match x with
  | .table off vs => [tabIsland off, tabIsland (off + 4 * (vs.length - 1))].filterMap id
  | .write _ _ _ | .read _ _ | .tail _ _ => []

/-- The island of the page that an access writes (R383). -/
def HostAcc.pageIsland (x : HostAcc) : Option Nat :=
  match x with
  | .write _ _ _ | .tail _ _ => do
    let slot ← x.slot
    let p ← pageAt slot
    return islandId p.kind (slot - p.first)
  | .read _ _ | .table _ _ => none

/-- Whether an access keeps its place behind an earlier one: accesses of one page do (R21, R351), and so do the writes of an
island's tables and pages where either writes a table (R339). -/
def HostAcc.follows (x y : HostAcc) : Bool :=
  (x.slot.isSome && decide (x.slot = y.slot)) ||
    x.tabIslands.any (fun i => y.tabIslands.contains i || decide (y.pageIsland = some i)) ||
    y.tabIslands.any fun i => decide (x.pageIsland = some i)

/-- The host port holds an access to a page in reset (R351), and one that follows an access it holds. -/
def State.portHolds (s : State) (x : HostAcc) : Bool := (x.slot.map s.inReset).getD false || s.held.any x.follows

/-- A write to a page waits behind a barrier, so that a read of the page waits as well (R21). -/
def State.readWaits (s : State) (slot : Nat) : Bool :=
  s.barrierOn && s.behind.any fun x => decide (x.slot = some slot) && (match x with
    | .read _ _ => false
    | .write _ _ _ | .table _ _ | .tail _ _ => true)

/-- A read arrives at its page (R351, R347, R21): one of `GLB.BARRIER`, or of a page to which a write waits, waits for the barrier
in progress; one that the host port has to hold is held. -/
def State.readArrive (s : State) (p : Path) (a : Nat) : State :=
  if (s.barrierOn ∧ a = ra sGlb 0x02C) ∨ s.readWaits (a / 0x400) then { s with behind := s.behind ++ [.read p a] }
  else if s.portHolds (.read p a) then { s with held := s.held ++ [.read p a] }
  else s.readReply p a

/-- A read that the host port has received (R338): a bad one returns 0 and sets BAD_ACCESS. -/
def State.hostRead (s : State) (p : Path) (a : Nat) : State :=
  if s.dev = .booting then s
  else if a % 4 ≠ 0 then (s.evt sGlb 6).emit (.reply p 0)
  else s.readArrive p a

/-! ### The table aperture -/

/-- A word of the table aperture as the host reads it (R391): staged tile words in the STAGED view (R342), the state word of
a context (R258), the one of a slot (R134), and the mirror's age (R333) formed when they are read; the vendor region 0 in sealed mode (R289); nothing but the service buffer under recovery. -/
def State.tablePeek (s : State) (off : Nat) : Word :=
  match tabAt off with
  | none => 0
  | some t =>
    if s.dev = .booting ∨ (s.boot.recovery ∧ t.tab ≠ .svc) then 0
    else match t.tab with
      | .ctx => if t.word off = 32 then BitVec.ofNat 32 (s.cstat (t.index off)) else s.tabw off
      | .tile =>
        if s.viewPcie then (((Sparse.find s.stagedTab off).or
          (Sparse.find ((s.commit.snapshot.map (·.2)).getD []) off)).map (· &&& tabMask off)).getD (s.tabw off)
        else s.tabw off
      | .meas => if t.word off = 16 then BitVec.ofNat 32 (s.slotState (t.index off)) else s.tabw off
      | .mirror => if t.word off = 2 then BitVec.ofNat 32 s.mirrorAge else s.tabw off
      | .micro => if s.boot.sealed ∧ t.index off < microOpen then 0 else s.micro (t.index off)
      | .nano =>
        if s.boot.sealed ∧ t.index off < nanoOpen then 0
        else BitVec.ofNat 32 (nfld (s.nano (t.index off)) (32 * t.word off) 32)
      | _ => s.tabw off

/-! ### Commands -/

/-- SPLIT_READ_LO (R348). -/
def execSplitReadLo (t : Nat) (p : Path) (a : Nat) : State → Host.Outcome State Fault Refusal := command t fun s => s.hostRead p a

/-- SPLIT_READ_HI (R348). -/
def execSplitReadHi (t : Nat) (p : Path) (a : Nat) : State → Host.Outcome State Fault Refusal := command t fun s => s.hostRead p a

/-- PAGE_STAT_READ (R348). -/
def execPageStatRead (t : Nat) (p : Path) (slot : Fin 1024) : State → Host.Outcome State Fault Refusal :=
  command t fun s => s.hostRead p (ra slot 0x004)

/-- RES_SNAPSHOT_READ (R135). -/
def execResSnapshotRead (t : Nat) (p : Path) (stat : Bool) : State → Host.Outcome State Fault Refusal :=
  command t fun s => s.hostRead p (ra sMeas (if stat then 0x060 else 0x020))

/-- RES_WINDOW_READ (R135). -/
def execResWindowRead (t : Nat) (p : Path) (stat : Bool) (k : Fin 32) : State → Host.Outcome State Fault Refusal :=
  command t fun s => s.hostRead p (ra sMeas (if stat then 0x060 + 4 * k else 0x020 + 4 * (k % 16)))

/-- BBR_ENT_READ (R378). -/
def execBbrEntRead (t : Nat) (p : Path) : State → Host.Outcome State Fault Refusal :=
  command t fun s => s.hostRead p (ra sBbr 0x02C)

/-- BARRIER_READ (R347). -/
def execBarrierRead (t : Nat) (p : Path) : State → Host.Outcome State Fault Refusal :=
  command t fun s => s.hostRead p (ra sGlb 0x02C)

/-- SPI_READ (R360): the status byte 0x01 and four data bytes, most significant first; 0xFF for a read that is not ready in
time, which is abandoned; a transaction cut short sets SPI_BAD. -/
def State.spiRead (s : State) (a : Nat) (whole ready : Bool) : State :=
  if s.porst then s
  else if !whole then s.evt sGlb 8
  else if !ready ∨ s.dev = .booting ∨ s.portHolds (.read .spi a) ∨ s.readWaits (a / 0x400) ∨
      (s.barrierOn ∧ a = ra sGlb 0x02C) then s.emit (.spiBytes [0xFF])
  else
    let (v, s1) := if a % 4 ≠ 0 then ((0 : Word), s.evt sGlb 6) else s.readNow .spi a
    s1.emit (.spiBytes (1 :: (w32 v.toNat).reverse))

/-- SPI_READ (R360). DESIGN CHOICE (log entry 10). -/
def execSpiRead (t : Nat) (a : BitVec 24) (whole ready : Bool) : State → Host.Outcome State Fault Refusal :=
  command t fun s => s.spiRead a.toNat whole ready

end Sys2Proof.Machine
end

