-- ==== Sys2Proof/Machine/Commit.lean ====
section
/-! DEFINITION. The commit engine (18_host_control.md, R343 to R346): the snapshot, its validation, and what its values do at
the application edge. COMMIT_VALIDATED, COMMIT_APPLIED. What it reads by inference or chooses: log entries 13, 14. -/

namespace Sys2Proof.Machine

/-- REASON codes of R344. -/
abbrev rRange : Nat := 1
abbrev rReserved : Nat := 2
abbrev rCrossref : Nat := 3
abbrev rCapacity : Nat := 4
abbrev rConsistency : Nat := 5
abbrev rInUse : Nat := 6
abbrev rState : Nat := 7

/-! ### The snapshot -/

/-- The configuration that a snapshot would give: live values overwritten (R344). -/
def State.candidate (s : State) (rg tb : List (Nat × Word)) : State :=
  (s.each rg fun s e => s.setReg e.1 (e.2 &&& ((regAt e.1).map (·.mask)).getD 0)).each tb fun s e =>
    s.setTabw e.1 (e.2 &&& tabMask e.1)

/-- The snapshot of every staged copy is taken (R343). -/
def State.commitSnapshot (s : State) : State :=
  { s with staged := [], stagedTab := [], commit := { s.commit with waitFor := [], snapshot := some (s.staged, s.stagedTab) } }

/-- GLB.COMMIT with OP 1: the commit waits for pages in reset, then takes its snapshot (R343, R347). -/
def State.commitStart (s : State) : State :=
  let s1 := { s with commit := { s.commit with busy := true, waitFor := s.resetting, early := s.held.length } }
  if s.resetting.isEmpty then s1.commitSnapshot else s1

/-- A page's reset that a commit waited for is complete, and the accesses that are still held came before the commit. -/
def State.commitProceed (s : State) (slot : Nat) : State :=
  if s.commit.waitFor.isEmpty then s
  else
    let w := s.commit.waitFor.filter (· ≠ slot)
    let s1 := { s with commit := { s.commit with waitFor := w, early := s.held.length } }
    if w.isEmpty then s1.commitSnapshot else s1

/-- DISCARD: every staged copy is dropped, and with it every PENDING bit (R343). DEDUCED (log entry 14). -/
def State.commitDiscard (s : State) : State :=
  { s with staged := [], stagedTab := [], clkWait := [], ckoWait := [], ckoDue := none, parWait := [] }

/-! ### Validation (R344) -/

/-- The failing checks of a list, as register offset and REASON. -/
def fails (l : List (Nat × Nat × Bool)) : List (Nat × Nat) := (l.filter fun e => e.2.2).map fun e => (e.1, e.2.1)

/-- CLK (02_time_base.md; R57). -/
def State.clkFails (c : State) : List (Nat × Nat) :=
  let w := c.reg (ra sClk 0x014)
  let cfg (x lo n : Nat) : Nat := c.refCfg x lo n
  let rate2 (x : Nat) : Nat :=
    let f := c.refFreq x
    if cfg x 0 2 = 1 then 4 * f else if cfg x 0 2 = 2 then f else 2 * f
  let counted := (List.range 4).filter fun x => bit w (16 + x) || (decide (fld w 0 2 = 0) && decide (fld w 2 2 = x))
  let bw := c.rfld sClk 0x054 0 3
  let out (off lo hi : Nat) : Nat × Nat × Bool :=
    let v := (c.reg (ra sClk off)).toNat
    (off, rRange, decide (v < lo) || decide (hi < v))
  fails ([(0x014, rRange, decide (fld w 0 2 = 3))] ++
    ((List.range 4).map fun x => (0x018 + 4 * x, rRange,
      decide (cfg x 24 4 = 0) || decide (cfg x 16 8 = 0) || decide (cfg x 8 8 = 0) || decide (cfg x 2 2 = 3) ||
        decide (cfg x 0 2 = 3))) ++
    ((List.range 4).map fun x => out (0x028 + 4 * x) 1 1_000_000_000) ++
    [out 0x048 1 1_000_000, out 0x04C 1 1_000, out 0x050 1 65_535, out 0x054 0 4,
     (0x054, rConsistency, counted.any fun x => decide (rate2 x * 1000 < 40 * 10 ^ bw)), out 0x058 0 16,
     out 0x05C 10_000_000 100_000_000])

/-- The highest output frequency of a clock output's format in Hz (R51). -/
def ckoLimit (fmt : Nat) : Nat :=
  if fmt = 0 then 1_000_000_000 else if fmt = 1 then 400_000_000 else if fmt = 2 then 2_000_000_000 else 250_000_000

/-- CKO (R51, R57). -/
def State.ckoFails (c : State) (n : Nat) : List (Nat × Nat) :=
  let pre := c.rbit (sCko n) 0x014 3
  let div := c.ckoDiv n
  let base := if pre then 1_000_000_000 else 8_000_000_000
  fails [(0x018, rConsistency, decide (div < if pre then 2 else 4) ||
      decide (ckoLimit (c.rfld (sCko n) 0x014 0 2) * div < base)),
    (0x01C, rConsistency, decide (div ≤ (c.reg (ra (sCko n) 0x01C)).toNat)),
    (0x020, rConsistency, decide (div ≤ (c.reg (ra (sCko n) 0x020)).toNat))]

/-- SOL (R67). -/
def State.solFails (c : State) : List (Nat × Nat) :=
  let f (lo w : Nat) : Nat := c.rfld sSol 0x014 lo w
  fails [(0x014, rRange, decide (f 24 8 = 0) || decide (f 8 8 < 64) || decide (f 8 8 < f 16 8 + 8) || decide (f 6 2 = 3))]

/-- TTL: field limits, the duplicate rules of the page among enabled links and tile links, and R137. -/
def State.ttlFails (c : State) (k : Nat) : List (Nat × Nat) :=
  let f (j lo w : Nat) : Nat := c.rfld (sTtl j) 0x014 lo w
  let others := (List.range 33).filter (· ≠ k)
  let en (j : Nat) : Bool := decide (f j 0 1 = 1)
  let dupTin := decide (k < 32) && en k && others.any fun j => decide (j < 32) && en j && decide (f j 4 6 = f k 4 6)
  let dupTile := decide (f k 1 2 = 1) && others.any fun j => decide (f j 1 2 = 1) && decide (f j 10 6 = f k 10 6)
  fails [(0x014, rRange, decide (10 < f k 16 4) || decide (f k 1 2 = 3) || (decide (f k 1 2 = 2) && decide (k ≠ 32))),
    (0x014, rCrossref, dupTin || dupTile || (decide (k < 32) && en k && decide (c.toSrc k ≠ 3))),
    (0x018, rRange, decide ((c.reg (ra (sTtl k) 0x018)).toNat < 2000))]

/-- Whether a DESKEW lies beyond ±1 µs. -/
def deskewBad (v : Word) : Bool := decide (4_000_000 < (signed 32 v.toNat).natAbs)

/-- TIN (R74, R75, R78). -/
def State.tinFails (c : State) (n : Nat) : List (Nat × Nat) :=
  let f (lo w : Nat) : Nat := c.rfld (sTin n) 0x014 lo w
  let wm := c.rfld (sTin n) 0x020 0 14
  fails [(0x014, rRange, decide (f 0 2 = 3) || decide (f 4 2 = 3) || (decide (f 2 1 = 1) && decide (f 0 2 = 1))),
    (0x01C, rRange, deskewBad (c.reg (ra (sTin n) 0x01C))), (0x020, rRange, decide (wm = 0) || decide (8192 < wm))]

/-- TOUT (R137, R143). -/
def State.toutFails (c : State) (n : Nat) : List (Nat × Nat) :=
  let src := c.toSrc n
  let link := c.rbit (sTtl n) 0x014 0
  let gen := decide (src = 2)
  let per := c.reg64 (sTout n) 0x01C
  let ph := c.reg64 (sTout n) 0x024
  let w := (c.reg (ra (sTout n) 0x02C)).toNat
  fails [(0x014, rRange, decide (c.rfld (sTout n) 0x014 4 2 = 3)),
    (0x014, rCrossref, decide (src = 3) && (!link || c.toInv n)),
    (0x018, rRange, deskewBad (c.reg (ra (sTout n) 0x018))),
    (0x018, rCrossref, decide (src = 3) && decide (c.toDeskew n ≠ 0)),
    (0x01C, rRange, gen && decide ((per : Int) < c.spaceLead n)), (0x024, rRange, gen && decide (per ≤ ph)),
    (0x02C, rRange, gen && (decide ((w : Int) < c.spaceAny n) || decide ((per : Int) < w + c.spaceAny n)))]

/-- The transmitter equaliser of a lane or of the cascade. -/
def txeqBad (v : Word) : Bool := decide (20 < fld v 8 5) || decide (24 < fld v 0 4 + fld v 8 5)

/-- LANE (07_event_lanes.md). -/
def State.laneFails (c : State) (n : Nat) : List (Nat × Nat) :=
  fails [(0x014, rRange, decide (c.rfld (sLane n) 0x014 0 2 = 3)), (0x018, rRange, txeqBad (c.reg (ra (sLane n) 0x018))),
    (0x01C, rRange, decide (c.rfld (sLane n) 0x01C 8 4 ≠ 1)),
    (0x020, rRange, decide ((c.reg (ra (sLane n) 0x020)).toNat < 0x0001_0000))]

/-- GLB: the horizon, and R182 for every active plane (R178). -/
def State.glbFails (c : State) : List (Nat × Nat) :=
  let ns := c.rfld sGlb 0x034 0 16
  fails [(0x034, rRange, decide (ns < 4000) || decide (64000 < ns)),
    (0x034, rCapacity, (List.range 4).any fun p =>
      (c.plane p).active && c.ringBad c.horizon p (((c.plane p).delays.map (·.2)).foldl max 0))]

/-- BIN: the width, and no change of an active plane's (R188). -/
def State.binFails (s c : State) (p : Nat) : List (Nat × Nat) :=
  let w := c.rfld (sBin p) 0x014 0 25
  fails [(0x014, rRange, decide (w < 2) || decide (20_000_000 < w)),
    (0x014, rInUse, (s.plane p).active && decide (w ≠ s.rfld (sBin p) 0x014 0 25))]

/-- Whether a cascaded context runs (R256). -/
def State.cascRuns (s : State) : Bool := (s.corCtxs 2).any fun x => s.casc x && decide ((s.ctx x).st = .running)

/-- CAS (R256; 12_blocked_mode_and_cascade.md). -/
def State.casFails (s c : State) : List (Nat × Nat) :=
  let f (lo w : Nat) : Nat := c.rfld sCas 0x014 lo w
  let changed (off : Nat) : Bool := s.cascRuns && decide (s.reg (ra sCas off) ≠ c.reg (ra sCas off))
  fails [(0x014, rRange, decide (f 1 2 < f 3 2) || (decide (f 1 2 = 0) && decide (f 0 1 = 1))), (0x014, rInUse, changed 0x014),
    (0x018, rRange, txeqBad (c.reg (ra sCas 0x018))), (0x018, rInUse, changed 0x018)]

/-- The checks of one page; `s` is the device as it stands and `c` what the commit would give. -/
def State.pageFails (s c : State) (k : PageKind) (i : Nat) : List (Nat × Nat) :=
  match k with
  | .glb => c.glbFails
  | .clk => c.clkFails
  | .cko => c.ckoFails i
  | .sol => c.solFails
  | .ttl => c.ttlFails i
  | .tin => c.tinFails i
  | .tout => c.toutFails i
  | .acq => fails [(0x014, rRange, decide (c.reg (ra sAcq 0x014) = 0))]
  | .par => fails [(0x01C, rRange, decide (c.rfld sPar 0x01C 0 24 = 0)), (0x020, rRange, decide (c.rfld sPar 0x020 0 16 = 0))]
  | .lane => c.laneFails i
  | .bin => s.binFails c i
  | .cas => s.casFails c
  | .meas | .ctx | .seq | .cal | .mon | .sec | .bbr | .fwd | .dma | .reb | .beam | .cor | .hst | .mem => []

/-- Reserved bits that a snapshot sets in a page (R8). -/
def reservedFails (rg : List (Nat × Word)) (slot : Nat) : List (Nat × Nat) :=
  (rg.filter fun e => decide (e.1 / 0x400 = slot) && decide (e.2 &&& ~~~((regAt e.1).map (·.mask)).getD 0 ≠ 0)).map
    fun e => (e.1 % 0x400, rReserved)

/-- The failure with the lowest offset, the first of a list among equals. -/
def firstFail : List (Nat × Nat) → Option (Nat × Nat)
  | [] => none
  | e :: r => match firstFail r with
    | some f => if f.1 < e.1 then some f else some e
    | none => some e

/-- The first failing page of a list, with its offset and REASON. -/
def State.failIn (s c : State) (rg : List (Nat × Word)) : List Nat → Option (Nat × Nat × Nat)
  | [] => none
  | slot :: r =>
    match pageAt slot with
    | some p =>
      (match firstFail (reservedFails rg slot ++ s.pageFails c p.kind (slot - p.first)) with
      | some (off, why) => some (slot, off, why)
      | none => s.failIn c rg r)
    | none => s.failIn c rg r

/-- The checks of a tile's configuration words (R169, R189): aperture offset and REASON, ascending. -/
def State.tileFails (c : State) (tb : List (Nat × Word)) (n : Nat) : List (Nat × Nat) :=
  let w := c.tabw (oTile n 0)
  let raw (k : Nat) : Bool := match Sparse.find tb (oTile n k) with
    | some v => decide (v &&& ~~~tabMask (oTile n k) ≠ 0)
    | none => false
  fails [(oTile n 0, rReserved, raw 0),
    (oTile n 0, rRange, decide (fld w 0 2 = 3) || (decide (fld w 0 2 ≠ 0) && (decide (fld w 4 4 = 0) || decide (6 < fld w 4 4)))),
    (oTile n 0, rCrossref, decide (fld w 0 2 = 1) && (c.tileLink n).isNone), (oTile n 1, rReserved, raw 1),
    (oTile n 1, rRange, decide (c.tfld (oTile n 1) 0 24 = 0)), (oTile n 2, rReserved, raw 2)]

/-- The slots of every page, ascending (R383). -/
def allSlots : List Nat := (List.range 401).filter fun k => (pageAt k).isSome

/-- The first failure of a snapshot, as `COMMIT_ERR` and `COMMIT_ERR_ADDR` show it (R344). DEDUCED (log entry 13). -/
def State.validate (s : State) (rg tb : List (Nat × Word)) : Option (Nat × Nat) :=
  let c := s.candidate rg tb
  if s.dev = .booting then some (rState, 0)
  else match s.failIn c rg allSlots with
    | some (slot, off, why) => some (slot * 2 ^ 21 + off * 2 ^ 11 + why, 0)
    | none => ((List.range 64).flatMap fun n => c.tileFails tb n).head?.map fun e => (2 ^ 31 + e.2, e.1)

/-! ### Refusal (R346) -/

/-- Boot firmware notes the outcome of the default image: `SEC.BOOT.DEF` and an entry (R371, R379). -/
def State.imageOutcome (s : State) (def' : Nat) : State :=
  match s.boot.imageCommit with
  | some dseq =>
    ({ s with boot := { s.boot with imageCommit := none } }.setRfld sSec 0x020 8 3 def').bbrPush 2 sSec [dseq, def']
  | none => s

/-- The commit is refused: nothing applies, the staged copies stay with later writes over them. -/
def State.commitRefuse (s : State) (rg tb : List (Nat × Word)) (err addr : Nat) : State :=
  let s1 := { s with
    staged := Sparse.over s.staged rg, stagedTab := Sparse.over s.stagedTab tb
    commit := { s.commit with busy := false, snapshot := none, applyAt := none, result := 2, err := err, errAddr := addr } }
  let s2 := (s1.evt sGlb 1).bbrHost 12 sGlb [1, err]
  let s3 := if s2.dev = .awaiting ∨ s2.dev = .dormant then s2.enter .dormant else s2
  { s3.imageOutcome 3 with boot := { (s3.imageOutcome 3).boot with starts := if s3.boot.imageCommit.isSome then [] else s3.boot.starts } }

/-- Validation ends (R344): a failure, or an application edge at least 2 µs later (R345); the CLK values wait for the next tick
from now on (R53). -/
def State.commitValidated (s : State) : State :=
  match s.commit.snapshot, s.commit.applyAt with
  | some (rg, tb), none =>
    (match s.validate rg tb with
    | some (err, addr) => s.commitRefuse rg tb err addr
    | none =>
      let clk := rg.filter fun e => decide (e.1 / 0x400 = sClk)
      { s with
        clkWait := Sparse.over clk s.clkWait
        loop := { s.loop with comm := true }
        commit := { s.commit with
          applyAt := some (s.now + 2 * usEdges), snapshot := some (rg.filter fun e => decide (e.1 / 0x400 ≠ sClk), tb) } })
  | _, _ => s

/-! ### Application (R345) -/

/-- Values written to their registers. -/
def State.putRegs (s : State) (l : List (Nat × Word)) : State :=
  s.each l fun s e => s.setReg e.1 (e.2 &&& ((regAt e.1).map (·.mask)).getD 0)

/-- The ball rests at the inactive level of the new values once what has been launched has left (R150); no TRUNC marks it
(R146). -/
def State.toutRest (s : State) (n : Nat) : State :=
  let c := s.tout n
  if c.gated then s
  else match c.flight.getLast? with
    | none => s.toutMove n (s.toInv n) false false
    | some x =>
      if x.high = s.toInv n ∧ !x.active then s
      else
        let p := max s.phys (x.p + s.spaceAny n)
        s.setTout n { c with
          flight := insTrans { p := p, high := s.toInv n, active := false, leading := false, lead := s.now, edge := p / 2000, code := 0,
                               sure := true } c.flight }

/-- A TOUT page's values (R150): a change of SRC, OWNER, FMT or INV flushes the queue and ends an active level; a pulse in
progress completes. -/
def State.toutCommit (s : State) (n : Nat) (l : List (Nat × Word)) : State :=
  let old := s.reg (ra (sTout n) 0x014)
  let gen (s : State) : List Nat := [s.reg64 (sTout n) 0x01C, s.reg64 (sTout n) 0x024]
  let s1 := s.putRegs l
  let new := s1.reg (ra (sTout n) 0x014)
  if old &&& 0x001F_F433 = new &&& 0x001F_F433 then
    if s.toSrc n = 2 ∧ gen s ≠ gen s1 then s1.genRestart n else s1
  else
    let s4 := ((s.toutFlush n false fun _ => true).putRegs l).toutRest n
    let s5 := s4.setTout n { s4.tout n with seqHeld := false, headOk := false }
    if s5.toSrc n = 2 then s5.genRestart n else s5

/-- A TTL page's values: an enable begins anew (R73), and the end of one ends the exchange in progress. -/
def State.ttlCommit (s : State) (k : Nat) (l : List (Nat × Word)) : State :=
  let was := s.rbit (sTtl k) 0x014 0
  let s1 := s.putRegs l
  let on := s1.rbit (sTtl k) 0x014 0
  if was = on then s1
  else
    let s2 := s1.ttlClear k
    if on then s2.setTtl k { s2.ttl k with avg := [], valid := false, lastFail := 0 } else s2

/-- A LANE page's values (R168): a change of rate, reach or polarity retrains; a change of registration is compared again. -/
def State.laneCommit (s : State) (n : Nat) (l : List (Nat × Word)) : State :=
  let s1 := s.putRegs l
  let r (s : State) (off : Nat) : Word := s.reg (ra (sLane n) off)
  let s2 := if r s 0x014 &&& 0x1F ≠ r s1 0x014 &&& 0x1F ∧ (s.lane n).st ≠ .off then s1.laneTrain n else s1
  if r s 0x01C ≠ r s1 0x01C ∨ r s 0x020 ≠ r s1 0x020 then s2.laneRecompare n else s2

/-- The CAS page's values (R256): a change retrains the hop. -/
def State.casCommit (s : State) (l : List (Nat × Word)) : State :=
  let s1 := s.putRegs l
  if s.reg (ra sCas 0x014) = s1.reg (ra sCas 0x014) ∧ s.reg (ra sCas 0x018) = s1.reg (ra sCas 0x018) then s1
  else
    let s2 := { s1 with cas := { s1.cas with st := b2n (s1.rbit sCas 0x014 0), lock := 0 } }
    if s1.rbit sCas 0x014 0 then s2.emit (.casIdle s2.casIdleWord) else s2

/-- One page's values take effect; those of CKO and PAR wait for their own edge. -/
def State.applyPage (s : State) (slot : Nat) (l : List (Nat × Word)) : State :=
  match pageAt slot with
  | some p =>
    (match p.kind with
    | .par => { s with parWait := Sparse.over l s.parWait }
    | .cko => s
    | .tout => s.toutCommit (slot - p.first) l
    | .ttl => s.ttlCommit (slot - p.first) l
    | .lane => s.laneCommit (slot - p.first) l
    | .cas => s.casCommit l
    | _ => s.putRegs l)
  | none => s

/-- The CKO values of a snapshot wait together for the application edge or the next Solstice; a set that waits is replaced
(R53). -/
def State.applyCko (s : State) (rg : List (Nat × Word)) : State :=
  let l := rg.filter fun e => decide (sCko 0 ≤ e.1 / 0x400) && decide (e.1 / 0x400 < sCko 16)
  if l.isEmpty then s
  else { s with ckoWait := l, ckoDue := if s.rbit sGlb 0x030 0 then none else some s.now }

/-- The staged tile words take effect (R188): a change of MODE, FIT, OFS or MARK_LAT discards the model. -/
def State.applyTiles (s : State) (tb : List (Nat × Word)) : State :=
  let s1 := s.each tb fun s e => s.setTabw e.1 (e.2 &&& tabMask e.1)
  (s1.each ((List.range 64).filter fun n => tb.any fun e => decide ((e.1 - oTile 0 0) / 128 = n)) fun t n =>
    let changed (k : Nat) : Bool := decide (s.tabw (oTile n k) ≠ s1.tabw (oTile n k))
    if changed 0 || changed 3 || changed 4 then t.tileDiscard n false else t.tileJudge n)

/-- Outputs whose gating ends as the device leaves AWAITING or DORMANT for LOCKING: loss of lock gates them as their chapters
give (R372). -/
def State.outputsLocking (s : State) : State :=
  let s1 := s.each (List.range 32) fun s n =>
    (s.setTout n { s.tout n with gatedLock := !s.loop.lockT }).toutUngate n false false true
  s1.each (List.range 16) fun s n =>
    let locked := if s.rbit (sCko n) 0x014 2 then s.loop.lockC else s.loop.lockT
    let c := s.cko n
    s.setCko n { c with gatedLock := !locked, from' := max c.from' s.phys, stopAt := c.stopAt.map fun _ => s.phys }

/-- The validated values apply at the application edge, and the device goes to LOCKING from AWAITING or DORMANT (R345,
R346). -/
def State.commitApplied (s : State) : State :=
  match s.commit.snapshot, s.commit.applyAt with
  | some (rg, tb), some e =>
    if e ≤ s.now then
      let slots := (rg.map fun e => e.1 / 0x400).dedup
      let s1 := s.each slots fun s k => s.applyPage k (rg.filter fun e => decide (e.1 / 0x400 = k))
      let s2 := (s1.applyCko rg).applyTiles tb
      let links := slots.any fun k => decide (sTtl 0 ≤ k) && decide (k < sTtl 33)
      let s3 := if links then s2.each (List.range 64) State.tileJudge else s2
      let s4 := { s3 with
        commit := { s3.commit with
          busy := false, snapshot := none, applyAt := none, result := 1, count := s3.commit.count + 1, ever := true } }
      let s5 := (s4.evt sGlb 0).bbrHost 12 sGlb [0, s4.commit.err]
      let s6 := s5.imageOutcome 1
      if s6.dev = .awaiting ∨ s6.dev = .dormant then (s6.outputsLocking.enter .locking).lockEnter else s6
    else s
  | _, _ => s

/-! ### Commands -/

/-- COMMIT_VALIDATED (R344). -/
def execCommitValidated (t : Nat) : State → Host.Outcome State Fault Refusal := command t State.commitValidated

/-- COMMIT_APPLIED (R345). -/
def execCommitApplied (t : Nat) : State → Host.Outcome State Fault Refusal := command t fun s => s.commitApplied.wakeAll

end Sys2Proof.Machine
end

