-- ==== Sys2Proof/Machine/HostWrite.lean ====
section
/-! DEFINITION. What a host write does (18_host_control.md, R338 to R347, R349, R351; R236, R271, R378, R380): page headers,
page resets, the access types of R7, the command registers, the barrier, the TAIL doorbells and the table aperture. -/

namespace Sys2Proof.Machine

/-! ### Page headers -/

/-- A W1C write of PAGE_EVT (R349, R350): a bit that hardware has set in the same cycle of the page's island clock stays, and
an enabled bit left at 1 raises the vector again. -/
def State.evtClear (s : State) (slot : Nat) (v : Word) : State :=
  let old := s.reg (ra slot 0x008)
  let now := islandCycle slot s.now
  let late (b : Nat) : Bool := decide (Sparse.find s.evtAt (32 * slot + b) = some now)
  let gone := ((List.range 32).filter fun b => bit v b && !late b).foldl (fun m b => m ||| put 1 b 1) (0 : Word)
  let new := old &&& ~~~gone
  let s1 := s.setReg (ra slot 0x008) new
  if new &&& s1.reg (ra slot 0x00C) = 0 then s1 else s1.raise slot

/-- `PAGE_CTRL.ENABLE` of a TIN page: capture begins when it is set (04_timing_inputs.md, CAPTURE). -/
def State.tinEnable (s : State) (n : Nat) (en : Bool) : State :=
  let s1 := s.setRfld (sTin n) 0x010 1 1 (b2n en)
  if en && !s.pageOn (sTin n) && (s.stamper n).booted then s1.evt (sTin n) 0 else s1

/-- `PAGE_CTRL.ENABLE` of a LANE page (R165, R168). -/
def State.laneEnable (s : State) (n : Nat) (en : Bool) : State :=
  let was := s.pageOn (sLane n)
  let s1 := s.setRfld (sLane n) 0x010 1 1 (b2n en)
  if was = en then s1 else (if en then s1.laneTrain n else s1.laneOff n).wakeAll

/-- A write of ENABLE (R341): it takes effect at once, and a page whose chapter gives it none only holds the bit. -/
def State.pageEnable (s : State) (slot : Nat) (en : Bool) : State :=
  match pageAt slot with
  | some p =>
    let i := slot - p.first
    match p.kind with
    | .tin => s.tinEnable i en
    | .cko => if s.pageOn slot = en then s else s.ckoEnable i en
    | .lane => s.laneEnable i en
    | .dma => s.dmaEnable i en
    | _ => s.setRfld slot 0x010 1 1 (b2n en)
  | none => s

/-! ### Page RESET (R351, R26) -/

/-- Word offsets from `a` to `b`. -/
def words (a b : Nat) : List Nat := (List.range ((b - a) / 4 + 1)).map fun k => a + 4 * k

/-- The counters of a page, which its RESET clears (R26 and each chapter's page table). -/
def counterOffs (k : PageKind) : List Nat :=
  match k with
  | .glb => words 0x038 0x03C
  | .sol => [0x034]
  | .ttl => [0x038, 0x03C]
  | .tin => words 0x028 0x04C ++ [0x05C]
  | .tout => words 0x044 0x070
  | .meas => words 0x0E0 0x0EC
  | .ctx => words 0x024 0x030
  | .seq => [0x018, 0x01C] ++ words 0x024 0x040
  | .acq => words 0x064 0x088
  | .cal => words 0x03C 0x048
  | .par => words 0x030 0x044
  | .mon => [0x058]
  | .bbr => words 0x070 0x080
  | .fwd => words 0x01C 0x1BC
  | .lane => words 0x040 0x084
  | .dma => words 0x030 0x044
  | .reb => words 0x01C 0x030
  | .bin => words 0x020 0x024
  | .beam => words 0x020 0x02C
  | .cor => words 0x030 0x04C
  | .hst => words 0x028 0x04C
  | .cas => words 0x024 0x058
  | .clk | .cko | .sec | .mem => []

/-- Table words that satisfy a test go back to their reset values. -/
def State.tabClear (s : State) (f : Nat → Bool) : State := { s with tab := s.tab.filter fun e => !f e.1 }

/-- Counters of a die's tiles and receivers in the tile and receiver tables (R190; 08_rebase_and_binning.md, "REB page
RESET"). -/
def rebCounter (die off : Nat) : Bool :=
  match tabAt off with
  | some t =>
    let i := t.index off
    let w := t.word off
    match t.tab with
    | .tile => decide (i / 32 = die) && ((decide (18 ≤ w) && decide (w ≤ 21)) || (decide (26 ≤ w) && decide (w ≤ 29)))
    | .rx => decide (i / 2048 = die) && decide (w ≤ 2)
    | _ => false
  | none => false

/-- SAT of the beam table (R195). -/
def beamSat (off : Nat) : Bool :=
  match tabAt off with
  | some t => decide (t.tab = .beam) && decide (t.word off = 1)
  | none => false

/-- What the page's block gives up as the reset begins, beside its staged values: the aborts that each chapter names. -/
def State.resetOwn (s : State) (k : PageKind) (i : Nat) : State :=
  match k with
  | .glb => { s with viewPcie := false, viewSpi := false }
  | .sol => s.solReset
  | .ttl => s.ttlReset i
  | .tout => (s.toutFlush i false fun _ => true).toutIdle i
  | .meas => s.measReset.settle
  | .ctx => s.admAbort
  | .seq => s.seqReset
  | .cal => s.calReset
  | .dma => s.dmaReset i
  | .clk | .cko | .tin | .acq | .par | .mon | .sec | .bbr | .fwd | .lane | .reb | .bin | .beam | .cor | .hst | .mem | .cas => s

/-- What a page is cleared of by the time its reset is complete: event bits, counters, and what its chapter names beside
them. -/
def State.resetClear (s : State) (slot : Nat) (k : PageKind) (i : Nat) : State :=
  let s1 := s.setReg (ra slot 0x008) 0
  let s2 := s1.each (counterOffs k) fun s off => s.setReg (ra slot off) 0
  match k with
  | .tin => s2.setStamper i { s2.stamper i with seq := 0 }
  | .tout => s2.setStamper (64 + i) { s2.stamper (64 + i) with seq := 0 }
  | .mon => { s2 with mon := { s2.mon with peaked := false } }
  | .fwd => s2.setRegN slot 0x018 (s2.fwd i).queue.length
  | .mem => s2.setRegN slot 0x020 (8128 - s2.pagesFree i)
  | .reb => s2.tabClear (rebCounter i)
  | .beam => s2.tabClear beamSat
  | .glb | .clk | .sol | .meas | .ctx | .seq | .acq | .cal | .par | .sec | .bbr | .cko | .ttl | .lane | .dma | .bin | .cor
  | .hst | .cas => s2

/-- `PAGE_CTRL.RESET` (R351): the page is in STATE 2, GEN advances, staged values go but those of GLB (R361), and the block
acts as for a page reset. DEDUCED (log entry 11). -/
def State.pageReset (s : State) (slot : Nat) : State :=
  match pageAt slot with
  | some p =>
    if s.inReset slot then s
    else
      let g := (s.gen slot + 1) % 16
      let s1 := { s with
        resetting := slot :: s.resetting
        staged := if p.kind = PageKind.glb then s.staged else s.staged.filter fun e => decide (e.1 / 0x400 ≠ slot) }
      ((s1.setRfld slot 0x004 4 4 g).resetOwn p.kind (slot - p.first)).bbrHost 14 slot [slot, g]
  | none => s

/-- A write of PAGE_CTRL (R340, R341). -/
def State.ctrlWrite (s : State) (slot : Nat) (v : Word) : State :=
  let s1 := s.pageEnable slot (bit v 1)
  if bit v 0 then s1.pageReset slot else s1

/-! ### Command registers -/

/-- `GLB.COMMIT` OP 3 (R346, R270, R372): every running context stops, every output is gated. DEDUCED (log entry 15). -/
def State.goDormant (s : State) : State :=
  let s1 := s.each (List.range 32) fun s n => s.toutGate n false false true
  let s2 := s1.each s1.runningCtxs fun s c => s.ctxStop c 1
  let s3 := s2.each (List.range 16) fun s n =>
    let on := s.ckoRunning n
    let s1 := s.setCko n { s.cko n with highUntil := min s.phys (s.ckoFall n) }
    if on then s1.evt (sCko n) 0 else s1
  (({ s3 with boot := { s3.boot with starts := [] } } : State).enter .dormant).settle

/-- A write of `GLB.COMMIT` (R343, R346): ignored while BUSY. -/
def State.commitWrite (s : State) (v : Word) : State :=
  if s.commit.busy then s.evt sGlb 2
  else match fld v 0 2 with
    | 1 => s.commitStart
    | 2 => s.commitDiscard
    | 3 => s.goDormant
    | _ => s

/-- A write of `HST.CMD` (R236): instance 0 only. -/
def State.hstCmd (s : State) (i : Nat) (v : Word) : State :=
  let c := fld v 0 9
  let go (k : CutCause) : State :=
    if bit v 14 then
      let t := s.physOf (s.reg64 (sHst 0) 0x018)
      if t < s.phys then (if (s.hctx c).active then s.snapBusy c else s) else s.requestCut c k t
    else s.requestCut c k (s.phys + 2000)
  if i ≠ 0 then s
  else match fld v 12 2 with
    | 1 => go .snap
    | 2 => go .snapClear
    | 3 => go .clear
    | _ => s

/-- A write-only register's effect. -/
def State.woWrite (s : State) (k : PageKind) (i off : Nat) (v : Word) : State :=
  match k, off with
  | .glb, 0x018 => s.commitWrite v
  | .tout, 0x03C => s.plPush i v
  | .ctx, 0x014 => s.ctxCmd v
  | .cal, 0x018 => s.calCmd v
  | .sec, 0x038 => s.svcCmd v
  | .bbr, 0x06C => s.bbrDump v
  | .hst, 0x014 => s.hstCmd i v
  | _, _ => s

/-! ### Read-write registers -/

/-- Windows whose selection has changed (R135). -/
def staleAll (l : List (Nat × Window)) : List (Nat × Window) := l.map fun e => (e.1, { e.2 with stale := true })

/-- A read-write register takes a value (R7, R8): its reserved bits stay 0. A window whose selection changes is stale (R135);
`GLB.VIEW` is the bit of the path (R342); a DMA channel that is enabled or active refuses (R356). -/
def State.rwWrite (s : State) (p : Path) (k : PageKind) (slot i off : Nat) (v mask : Word) : State :=
  let a := ra slot off
  let w := v &&& mask
  let changed := decide (s.reg a ≠ w)
  match k with
  | .glb =>
    if off = 0x028 then
      (match p with
      | .pcie => { s with viewPcie := bit v 0 }
      | .spi => { s with viewSpi := bit v 0 })
    else s.setReg a w
  | .dma =>
    if off ≠ 0x00C ∧ (s.pageOn slot ∨ (s.dmaCh i).sent.isSome) then s.evt slot 4 else s.setReg a w
  | .meas =>
    let s1 := s.setReg a w
    if off = 0x018 ∧ changed then
      { s1 with measWins := staleAll s.measWins }
    else s1
  | .bbr =>
    let s1 := s.setReg a w
    if off = 0x024 ∧ changed then
      { s1 with bbr := { s.bbr with windows := staleAll s.bbr.windows } }
    else s1
  | _ => s.setReg a w

/-! ### A write that reaches its page -/

/-- A write of `GLB.BARRIER` starts a barrier (R347). -/
def State.barrierStart (s : State) : State := { s with barrierOn := true }

/-- A full write of an aligned DWORD takes effect as its register's access type gives (R7, R340); an empty slot and the space
beyond a page's last register ignore it (R338). -/
def State.writeNow (s : State) (p : Path) (a : Nat) (v : Word) : State :=
  match s.hostReg a, pageAt (a / 0x400) with
  | some r, some q =>
    let slot := a / 0x400
    let off := a % 0x400
    let i := slot - q.first
    match r.ty with
    | .ro => if a = ra sGlb 0x02C then s.barrierStart else s
    | .w1c => s.evtClear slot v
    | .ctrl => s.ctrlWrite slot v
    | .rws => { s with staged := Sparse.put s.staged a v }
    | .rw => s.rwWrite p q.kind slot i off v r.mask
    | .wo => s.woWrite q.kind i off v
    | .w1s => s.solCtrl v
  | _, _ => s

/-- A write arrives at its page, or the host port holds it (R351). -/
def State.writeArrive (s : State) (p : Path) (a : Nat) (v : Word) : State :=
  if s.portHolds (.write p a v) then { s with held := s.held ++ [.write p a v] } else s.writeNow p a v

/-- A write that the host port has received (R338, R347, R367): none is served in BOOTING, a bad one is ignored with
BAD_ACCESS, and one behind a barrier waits for it. -/
def State.hostWrite (s : State) (p : Path) (a : Nat) (v : Word) (full : Bool) : State :=
  if s.dev = .booting ∨ s.porst then s
  else if !full ∨ a % 4 ≠ 0 then s.evt sGlb 6
  else if s.barrierOn then { s with behind := s.behind ++ [.write p a v] }
  else s.writeArrive p a v

/-! ### The table aperture (R339, R391) -/

/-- Whether a context runs. -/
def State.isRunning (s : State) (c : Nat) : Bool := decide ((s.ctx c).st = .running)

/-- Whether a beam is enabled and its owner runs (R194, R195). -/
def State.beamBusy (s : State) (b : Nat) : Bool := s.tbit (oBeam b 0) 31 && s.isRunning (s.tfld (oBeam b 0) 0 9)

/-- Whether a weight entry names a beam whose owner runs. -/
def State.weightBusy (s : State) (w : Word) : Bool := bit w 31 && s.beamBusy (fld w 16 10)

/-- Whether an entry is one of a running owner, or would be: the page and event bit that a refused write sets (R132, R194, R195,
R222, R258; 11, 12 and 15 under "Events"). -/
def State.tabBusy (s : State) (t : TabInfo) (off : Nat) (v : Word) : Option (Nat × Nat) :=
  let i := t.index off
  let first := s.tabw (off - 4 * t.word off)
  let owned (lo : Nat) : Bool := bit first 31 && s.isRunning (fld first lo 9)
  let on (b : Bool) (slot e : Nat) : Option (Nat × Nat) := if b then some (slot, e) else none
  match t.tab with
  | .ctx =>
    on (decide ((s.ctx i).st = .admitting) || decide ((s.ctx i).st = .running) || decide ((s.ctx i).st = .stopping)) sCtx 4
  | .meas => on (bit first 0 && s.isRunning (fld first 19 9)) sMeas 6
  | .rec' => on (s.isRunning i) sAcq 3
  | .weightA => on (s.weightBusy first || (decide (t.word off = 0) && s.weightBusy v)) (sBeam 0) 1
  | .weightB => on (s.weightBusy first || (decide (t.word off = 0) && s.weightBusy v)) (sBeam 1) 1
  | .beam => on (owned 0 || (decide (t.word off = 0) && bit v 31 && s.isRunning (fld v 0 9))) (sBeam 0) 1
  | .cor => on (s.isRunning i) (sCor 0) 4
  | .slot => on (owned 21) (sCor 0) 4
  | .lad => on (owned 20) (sCor 0) 4
  | .blk => on (s.isRunning i) (sCor 0) 4
  | .hctx => on (s.isRunning i) (sHst 0) 6
  | .hdef => on (owned 17) (sHst 0) 6
  | .micro | .nano | .mirror | .svc | .tile | .rx | .delay | .route => none

/-- The beam table's counts of valid entries follow a weight entry's first word (R195). -/
def State.beamCount (s : State) (die : Nat) (w : Word) (add : Bool) : State :=
  if bit w 31 then
    let a := oBeam (fld w 16 10) (2 + die)
    s.setTabN a (if add then (s.tabw a).toNat + 1 else (s.tabw a).toNat - 1)
  else s

/-- A word about to be written is kept for the stopped contexts that still owe results: these complete as the entries stood
(R132, R214, R221). DEDUCED (log entry 55). -/
def State.keepOld (s : State) (off : Nat) : State :=
  s.each ((s.ctxs.map (·.1)).filter fun c => decide ((s.ctx c).st ≠ .running) && s.ctxOwes c) fun s c =>
    let l := Sparse.get [] s.oldWords c
    if (Sparse.find l off).isSome then s
    else { s with oldWords := Sparse.put s.oldWords c (Sparse.put l off (s.tabw off)) }

/-- One word of the aperture takes a value, or the write is ignored; a write to any word of a running owner's entry is ignored with
BUSY_WR, and in the context table one to a configuration word (R132, R258). -/
def State.tabPut (s : State) (off : Nat) (v : Word) : State :=
  match tabAt off with
  | none => s
  | some t =>
    let i := t.index off
    let w := t.word off
    let new := v &&& tabMask off
    if s.boot.recovery ∧ t.tab ≠ .svc then s
    else if tabMask off = 0 ∧ (t.tab = .ctx ∨ (s.tabBusy t off 0).isNone) then s
    else match s.tabBusy t off new with
      | some (slot, b) => s.evt slot b
      | none => match t.tab with
        | .micro => s.microWrite i v
        | .nano => if w = 3 then s.nanoWord3Write i v else s.nanoPartWrite i w v
        | .tile => { s with stagedTab := Sparse.put s.stagedTab off v }
        | .weightA => if w = 0 then ((s.beamCount 0 (s.tabw off) false).beamCount 0 new true).setTabw off new else s.setTabw off new
        | .weightB => if w = 0 then ((s.beamCount 1 (s.tabw off) false).beamCount 1 new true).setTabw off new else s.setTabw off new
        | .meas | .rec' | .cor | .slot | .blk | .hctx | .lad | .hdef => (s.keepOld off).setTabw off new
        | .ctx | .mirror | .svc | .rx | .delay | .beam | .route => s.setTabw off new

/-- The MSI-X table of BAR4 (R337), as the PCIe Base Specification defines it: a vector that is unmasked sends what it held. -/
def State.msixPut (s : State) (off : Nat) (v : Word) : State :=
  if 0x800 ≤ off then s
  else
    let w := if off % 16 = 12 then v &&& 1 else if off % 16 = 0 then v &&& 0xFFFF_FFFC else v
    let s1 := { s with msixTable := Sparse.set (msixReset off) s.msixTable off w }
    let n := off / 16
    if off % 16 = 12 ∧ w = 0 ∧ s.pba.contains n then
      { s1 with pba := s1.pba.filter (· ≠ n), out := .msix n :: s1.out }
    else s1

/-- Where the model puts the MSI-X table beside BAR2's offsets. -/
abbrev msixBase : Nat := 0x1000_0000

/-- A burst is a sequence of DWORD writes in ascending address (R339). -/
def State.tableNow (s : State) (off : Nat) (vs : List Word) : State :=
  s.each vs.zipIdx fun s e =>
    let a := off + 4 * e.2
    if msixBase ≤ a then s.msixPut (a - msixBase) e.1 else s.tabPut a e.1

/-- A table write arrives at its island, or the host port holds it behind what it follows (R339). -/
def State.tableArrive (s : State) (off : Nat) (vs : List Word) : State :=
  if s.portHolds (.table off vs) then { s with held := s.held ++ [.table off vs] } else s.tableNow off vs

/-- A table write that the host port has received. -/
def State.tableWrite (s : State) (off : Nat) (vs : List Word) : State :=
  if s.dev = .booting ∨ s.porst ∨ off % 4 ≠ 0 then s
  else if s.barrierOn then { s with behind := s.behind ++ [.table off vs] }
  else s.tableArrive off vs

/-! ### TAIL doorbells -/

/-- A TAIL write arrives at its channel (R352, R351). -/
def State.tailArrive (s : State) (ch : Nat) (v : Word) : State :=
  if s.portHolds (.tail ch v) then { s with held := s.held ++ [.tail ch v] }
  else s.tailWrite ch v

/-- A TAIL write that the host port has received. DEDUCED (log entry 12). -/
def State.hostTail (s : State) (ch : Nat) (v : Word) : State :=
  if s.dev = .booting ∨ s.porst then s
  else if s.barrierOn then { s with behind := s.behind ++ [.tail ch v] }
  else s.tailArrive ch v

/-! ### Accesses that have waited -/

/-- An access that the host port has held goes to its page. -/
def State.accArrive (s : State) (x : HostAcc) : State :=
  match x with
  | .write p a v => s.writeArrive p a v
  | .read p a => s.readArrive p a
  | .table off vs => s.tableArrive off vs
  | .tail ch v => s.tailArrive ch v

/-- Accesses that the host port held arrive again in order: one that still has to wait is held again. One that comes after a
barrier among them waits for it. -/
def State.serveHeld (s : State) (barrier : Bool) (l : List HostAcc) : State :=
  s.each l fun t x => if t.barrierOn && !barrier then { t with behind := t.behind ++ [x] } else t.accArrive x

/-- A page's reset is complete (R351): it is cleared, capture resumes, and the accesses that waited are served. A commit that
waited goes on after those that came before it, so its snapshot has them (R343), and before the rest. -/
def State.resetComplete (s : State) (slot : Nat) : State :=
  match pageAt slot with
  | some p =>
    if s.inReset slot then
      let i := slot - p.first
      let s1 := ({ s with
        resetting := s.resetting.filter (· ≠ slot)
        snaps := s.snaps.filter fun e => decide (e.1 / 0x800 ≠ slot)
        splitFault := s.splitFault.filter (· ≠ slot) } : State).resetClear slot p.kind i
      let s2 := if decide (p.kind = PageKind.tin) && s1.tinCapturing i then s1.evt slot 0 else s1
      let n := s2.commit.early
      let s3 := ({ s2 with held := [] } : State).serveHeld s2.barrierOn (s2.held.take n)
      (s3.commitProceed slot).serveHeld s2.barrierOn (s2.held.drop n)
    else s
  | none => s

/-- The barrier in progress is complete once no page is in reset (R347): the count advances, and what waited for it follows, up
to the next barrier. -/
def State.barrierComplete (s : State) : State :=
  if s.barrierOn && s.resetting.isEmpty then
    let s1 := { s with barrierOn := false, barriers := (s.barriers + 1) % 2 ^ 32, behind := [] }
    s1.each s.behind fun t x => if t.barrierOn then { t with behind := t.behind ++ [x] } else t.accArrive x
  else s

/-! ### Commands -/

/-- REGISTER_WRITE (R7, R338). -/
def execRegisterWrite (t : Nat) (p : Path) (a : Nat) (full : Bool) (v : Word) : State → Host.Outcome State Fault Refusal :=
  command t fun s => s.hostWrite p a v full

/-- STAGED_WRITE (R342). -/
def execStagedWrite (t : Nat) (p : Path) (a : Nat) (v : Word) : State → Host.Outcome State Fault Refusal :=
  command t fun s => s.hostWrite p a v true

/-- TABLE_WRITE (R339). DESIGN CHOICE (log entry 8). -/
def execTableWrite (t off : Nat) (vs : List Word) : State → Host.Outcome State Fault Refusal := command t fun s => s.tableWrite off vs

/-- MICROWORD_WRITE (R286, R287). -/
def execMicrowordWrite (t : Nat) (a : Fin 16384) (v : Word) : State → Host.Outcome State Fault Refusal :=
  command t fun s => s.tableWrite (oMicro a) [v]

/-- NANOWORD_PART_WRITE (R287). -/
def execNanowordPartWrite (t : Nat) (a : Fin 2048) (k : Fin 3) (v : Word) : State → Host.Outcome State Fault Refusal :=
  command t fun s => s.tableWrite (oNano a k) [v]

/-- NANOWORD_WORD3_WRITE (R287). -/
def execNanowordWord3Write (t : Nat) (a : Fin 2048) (v : Word) : State → Host.Outcome State Fault Refusal :=
  command t fun s => s.tableWrite (oNano a 3) [v]

/-- PAGE_EVT_CLEAR (R349). -/
def execPageEvtClear (t : Nat) (p : Path) (slot : Fin 1024) (v : Word) : State → Host.Outcome State Fault Refusal :=
  command t fun s => s.hostWrite p (ra slot 0x008) v true

/-- PAGE_RESET (R351): RESET, with ENABLE as it stands. -/
def execPageReset (t : Nat) (p : Path) (slot : Fin 1024) : State → Host.Outcome State Fault Refusal :=
  command t fun s => s.hostWrite p (ra slot 0x010) (if s.pageOn slot then 3 else 1) true

/-- PAGE_RESET_COMPLETE (R351). -/
def execPageResetComplete (t : Nat) (slot : Fin 1024) : State → Host.Outcome State Fault Refusal :=
  command t fun s => s.resetComplete slot

/-- PAGE_ENABLE (R341). -/
def execPageEnable (t : Nat) (p : Path) (slot : Fin 1024) (en : Bool) : State → Host.Outcome State Fault Refusal :=
  command t fun s => s.hostWrite p (ra slot 0x010) (if en then 2 else 0) true

/-- COMMIT (R343). -/
def execCommit (t : Nat) (p : Path) : State → Host.Outcome State Fault Refusal :=
  command t fun s => s.hostWrite p (ra sGlb 0x018) 1 true

/-- DISCARD (R343). -/
def execDiscard (t : Nat) (p : Path) : State → Host.Outcome State Fault Refusal :=
  command t fun s => s.hostWrite p (ra sGlb 0x018) 2 true

/-- DORMANT (R346). -/
def execDormant (t : Nat) (p : Path) : State → Host.Outcome State Fault Refusal :=
  command t fun s => s.hostWrite p (ra sGlb 0x018) 3 true

/-- BARRIER (R347). -/
def execBarrier (t : Nat) (p : Path) : State → Host.Outcome State Fault Refusal :=
  command t fun s => s.hostWrite p (ra sGlb 0x02C) 0 true

/-- BARRIER_COMPLETE (R347). -/
def execBarrierComplete (t : Nat) : State → Host.Outcome State Fault Refusal := command t State.barrierComplete

/-- TAIL_WRITE (R352). -/
def execTailWrite (t : Nat) (ch : Fin 64) (v : Word) : State → Host.Outcome State Fault Refusal := command t fun s => s.hostTail ch v

/-- FUSE (R380). -/
def execFuse (t : Nat) (p : Path) (key : BitVec 16) : State → Host.Outcome State Fault Refusal :=
  command t fun s => s.hostWrite p (ra sSec 0x038) (put key.toNat 16 16 ||| 1) true

/-- UPD_BEGIN (R380). -/
def execUpdBegin (t : Nat) (p : Path) (target : BitVec 2) : State → Host.Outcome State Fault Refusal :=
  command t fun s => s.hostWrite p (ra sSec 0x038) (put target.toNat 4 2 ||| 2) true

/-- UPD_CHUNK (R380). -/
def execUpdChunk (t : Nat) (p : Path) : State → Host.Outcome State Fault Refusal :=
  command t fun s => s.hostWrite p (ra sSec 0x038) 3 true

/-- UPD_FINISH (R380). -/
def execUpdFinish (t : Nat) (p : Path) : State → Host.Outcome State Fault Refusal :=
  command t fun s => s.hostWrite p (ra sSec 0x038) 4 true

/-- SERVICE (R380). -/
def execService (t : Nat) (p : Path) : State → Host.Outcome State Fault Refusal :=
  command t fun s => s.hostWrite p (ra sSec 0x038) 5 true

/-- BBR_DUMP (R378). -/
def execBbrDump (t : Nat) (p : Path) (ch : Fin 64) : State → Host.Outcome State Fault Refusal :=
  command t fun s => s.hostWrite p (ra sBbr 0x06C) (put 1 8 1 ||| put ch 0 6) true

/-- CAL_FULL_RUN (R312). -/
def execCalFullRun (t : Nat) (p : Path) (store : Bool) : State → Host.Outcome State Fault Refusal :=
  command t fun s => s.hostWrite p (ra sCal 0x018) (put (b2n store) 15 1 ||| 1) true

/-- CAL_CHANNEL_RUN (R312). -/
def execCalChannelRun (t : Nat) (p : Path) (ch : BitVec 7) (store : Bool) : State → Host.Outcome State Fault Refusal :=
  command t fun s => s.hostWrite p (ra sCal 0x018) (put (b2n store) 15 1 ||| put ch.toNat 8 7 ||| 2) true

/-- CAL_STORE (R321). -/
def execCalStore (t : Nat) (p : Path) : State → Host.Outcome State Fault Refusal :=
  command t fun s => s.hostWrite p (ra sCal 0x018) 3 true

/-- NOW (R63). -/
def execNow (t : Nat) (p : Path) : State → Host.Outcome State Fault Refusal :=
  command t fun s => s.hostWrite p (ra sSol 0x018) 2 true

/-- AT_GO (R63). -/
def execAtGo (t : Nat) (p : Path) : State → Host.Outcome State Fault Refusal :=
  command t fun s => s.hostWrite p (ra sSol 0x018) 4 true

/-- CANCEL (R63). -/
def execCancel (t : Nat) (p : Path) : State → Host.Outcome State Fault Refusal :=
  command t fun s => s.hostWrite p (ra sSol 0x018) 8 true

/-- ARM (R61). -/
def execArm (t : Nat) (p : Path) : State → Host.Outcome State Fault Refusal :=
  command t fun s => s.hostWrite p (ra sSol 0x018) 1 true

/-- PL_PUSH (R136, R139). -/
def execPlPush (t : Nat) (p : Path) (n : Fin 32) (v : Word) : State → Host.Outcome State Fault Refusal :=
  command t fun s => s.hostWrite p (ra (sTout n) 0x03C) v true

/-- The word of `HST.CMD`. -/
def hstWord (op : Nat) (at' : Bool) (c : Nat) : Word := put (b2n at') 14 1 ||| put op 12 2 ||| put c 0 9

/-- SNAP (R236, R237). -/
def execSnap (t : Nat) (p : Path) (c : Fin 512) (at' : Bool) : State → Host.Outcome State Fault Refusal :=
  command t fun s => s.hostWrite p (ra (sHst 0) 0x014) (hstWord 1 at' c) true

/-- SNAP_CLEAR (R237). -/
def execSnapClear (t : Nat) (p : Path) (c : Fin 512) (at' : Bool) : State → Host.Outcome State Fault Refusal :=
  command t fun s => s.hostWrite p (ra (sHst 0) 0x014) (hstWord 2 at' c) true

/-- CLEAR (R237). -/
def execClear (t : Nat) (p : Path) (c : Fin 512) (at' : Bool) : State → Host.Outcome State Fault Refusal :=
  command t fun s => s.hostWrite p (ra (sHst 0) 0x014) (hstWord 3 at' c) true

/-- START (R259, R271). -/
def execStart (t : Nat) (p : Path) (c : Fin 512) : State → Host.Outcome State Fault Refusal :=
  command t fun s => s.hostWrite p (ra sCtx 0x014) (put 1 16 2 ||| put c 0 9) true

/-- STOP of a context (R259, R271). -/
def execStop (t : Nat) (p : Path) (c : Fin 512) : State → Host.Outcome State Fault Refusal :=
  command t fun s => s.hostWrite p (ra sCtx 0x014) (put 2 16 2 ||| put c 0 9) true

/-- POKE (R271). -/
def execPoke (t : Nat) (p : Path) (c : Fin 512) : State → Host.Outcome State Fault Refusal :=
  command t fun s => s.hostWrite p (ra sCtx 0x014) (put 3 16 2 ||| put c 0 9) true

end Sys2Proof.Machine
end

