-- ==== Sys2Proof/Machine/Stop.lean ====
section
/-! DEFINITION. STOP and the management SPI (18_host_control.md, R357 to R360; R337). STOP_DOORBELL, RELEASE_DOORBELL,
STOP_N_ASSERT, STOP_N_RELEASE, STOP_ON, STOP_OFF, SPI_WRITE, SPI_STATUS, SPI_STOP, SPI_RELEASE. What it reads by inference or chooses: log entry 16. -/

namespace Sys2Proof.Machine

/-! ### Sources -/

/-- The sources of STOP as bits of `GLB.STATE.STOP_SRC`: doorbell, STOP_N, SPI. -/
abbrev stopBell : Nat := 1
abbrev stopPin : Nat := 2
abbrev stopSpi : Nat := 4

/-- A change of `STOP_SRC` (R357): STOP_ON where a source is added, STOP_OFF where the last one goes, and a black-box entry. -/
def State.stopChange (s : State) (new : Nat) : State :=
  let old := s.stopSrc
  if new = old then s
  else
    let s1 := { s with stopSrc := new }
    let s2 := if new = 0 then s1.evt sGlb 5 else if old < new then s1.evt sGlb 4 else s1
    s2.bbrPush 17 sGlb [old, new]

/-- A source holds STOP, and lets it go. DEDUCED (log entry 16). -/
def State.stopHold (s : State) (src : Nat) : State := s.stopChange (s.stopSrc ||| src)
def State.stopDrop (s : State) (src : Nat) : State := s.stopChange (s.stopSrc &&& (7 ^^^ src))

/-- A doorbell write (R337, R357): it works outside BOOTING, and a wrong value sets BAD_DOORBELL. -/
def State.doorbell (s : State) (key : Nat) (hold : Bool) (v : Word) : State :=
  if s.dev = .booting then s
  else if v.toNat ≠ key then s.evt sGlb 7
  else if hold then s.stopHold stopBell else s.stopDrop stopBell

/-! ### In force -/

/-- Whether a context heeds STOP: STOP_EN (R258, R261). -/
def State.stopEn (s : State) (c : Nat) : Bool := s.ctxBit c 28

/-- STOP comes into force (R357; R58, R149, R261): contexts with STOP_EN stop, outputs with STOP_GATE are gated, and a RUNNING
device is STOPPED. A source held in BOOTING waits for AWAITING. -/
def State.stopApply (s : State) : State :=
  if s.stopSrc ≠ 0 ∧ !s.stopOn ∧ s.dev ≠ .booting then
    let s1 := { s with stopOn := true, admStop := s.adm.isSome }
    let s2 := s1.each (List.range 32) State.toutStopOn
    let s3 := s2.each (s2.runningCtxs.filter s2.stopEn) fun s c => s.ctxStop c 2
    let s4 := s3.each ((List.range 16).filter fun n => s3.rbit (sCko n) 0x014 9) fun s n => s.ckoGate n false true
    (if s4.dev = .running then s4.enter .stopped else s4).settle
  else s

/-- The last source has gone (R357, R58, R149, R359): outputs resume, a STOPPED device runs again, and channels that were halted
send the vector messages that they held. -/
def State.stopLift (s : State) : State :=
  if s.stopOn ∧ s.stopSrc = 0 then
    let s1 := { s with stopOn := false }
    let s2 := s1.each (List.range 32) State.toutStopOff
    let s3 := s2.each ((List.range 16).filter fun n => (s2.cko n).gatedStop) fun s n => s.ckoUngate n false true
    let s4 := if s3.dev = .stopped then (s3.enter .running).bootStart else s3
    s4.each ((s4.dma.filter fun e => e.2.irqHeld).map (·.1)) State.dmaIrq
  else s

/-! ### The management SPI (R360) -/

/-- A STOP or RELEASE command: a wrong key, or a transaction cut short, changes nothing and sets SPI_BAD. -/
def State.spiKey (s : State) (key : Nat) (hold : Bool) (k : BitVec 16) (whole : Bool) : State :=
  if !whole ∨ k.toNat ≠ key then s.evt sGlb 8
  else if hold then s.stopHold stopSpi else s.stopDrop stopSpi

/-- A WRITE, which works from AWAITING on. -/
def State.spiWrite (s : State) (a : Nat) (v : Word) (whole : Bool) : State :=
  if !whole then s.evt sGlb 8 else s.hostWrite .spi a v true

/-- A STATUS: one byte with the state and STOP_SRC. -/
def State.spiStatus (s : State) (whole : Bool) : State :=
  if !whole then s.evt sGlb 8 else s.emit (.spiBytes [BitVec.ofNat 8 (devCode s.dev + s.stopSrc * 8)])

/-! ### Commands -/

/-- STOP_DOORBELL (R358). -/
def execStopDoorbell (t : Nat) (v : Word) : State → Host.Outcome State Fault Refusal :=
  command t fun s => s.doorbell 0x5354_4F50 true v

/-- RELEASE_DOORBELL (R337). -/
def execReleaseDoorbell (t : Nat) (v : Word) : State → Host.Outcome State Fault Refusal :=
  command t fun s => s.doorbell 0x524C_5345 false v

/-- STOP_N_ASSERT (R357): the pin works in every state. -/
def execStopNAssert (t : Nat) : State → Host.Outcome State Fault Refusal := command t fun s => s.stopHold stopPin

/-- STOP_N_RELEASE (R399). -/
def execStopNRelease (t : Nat) : State → Host.Outcome State Fault Refusal := command t fun s => s.stopDrop stopPin

/-- STOP_ON (R357). -/
def execStopOn (t : Nat) : State → Host.Outcome State Fault Refusal := command t State.stopApply

/-- STOP_OFF (R357). -/
def execStopOff (t : Nat) : State → Host.Outcome State Fault Refusal := command t State.stopLift

/-- SPI_WRITE (R360). -/
def execSpiWrite (t : Nat) (a : BitVec 24) (v : Word) (whole : Bool) : State → Host.Outcome State Fault Refusal :=
  command t fun s => s.spiWrite a.toNat v whole

/-- SPI_STATUS (R360). -/
def execSpiStatus (t : Nat) (whole : Bool) : State → Host.Outcome State Fault Refusal := command t fun s => s.spiStatus whole

/-- SPI_STOP (R360). -/
def execSpiStop (t : Nat) (key : BitVec 16) (whole : Bool) : State → Host.Outcome State Fault Refusal :=
  command t fun s => s.spiKey 0x5354 true key whole

/-- SPI_RELEASE (R360). -/
def execSpiRelease (t : Nat) (key : BitVec 16) (whole : Bool) : State → Host.Outcome State Fault Refusal :=
  command t fun s => s.spiKey 0x524C false key whole

end Sys2Proof.Machine
end

