-- ==== Sys2Proof/Machine/Boot.lean ====
section
/-! DEFINITION. Resets, the end of boot and the default image (19_startup_power_and_black_box.md, R365 to R371, R376, R381).
PCIE_PERST, PORST_ASSERT, PORST_RELEASE, AWAITING_REACHED. What it reads by inference or chooses: log entries 15, 17. -/

namespace Sys2Proof.Machine

/-! ### PCIE_PERST_N (R366) -/

/-- Whether an access came over PCIe. -/
def HostAcc.pcie (x : HostAcc) : Bool :=
  match x with
  | .write p _ _ | .read p _ => decide (p = .pcie)
  | .table _ _ | .tail _ _ => true

/-- A word of the interrupt routing table, which lies in the host port's island (R383, R390). -/
def isRouting (off : Nat) : Bool := decide (0x0021_4000 ≤ off) && decide (off < 0x0021_4400)

/-- The host port, its interrupt routing table with it, and the 64 DMA channels are reset; in BOOTING only link training is
delayed. DEDUCED (log entry 17). -/
def State.perst (s : State) : State :=
  if s.dev = .booting then s
  else
    let s1 := (s.each (List.range 64) fun s n => s.pageReset (sDma n)).tabClear isRouting
    { s1 with
      msixTable := [], pba := []
      held := s1.held.filter fun x => !x.pcie, behind := s1.behind.filter fun x => !x.pcie
      commit := { s1.commit with early := ((s1.held.take s1.commit.early).filter fun x => !x.pcie).length } }

/-! ### PORST_N (R364 to R367) -/

/-- What an update in progress leaves in NVM (R381). -/
def State.tornNvm (s : State) : Nvm :=
  let n := s.nvm
  let n1 := match s.svc.target with
    | some r => if s.svc.busy ∧ 2 ≤ s.svc.op ∧ s.svc.op ≤ 4 then { n with torn := r :: n.torn.filter (· ≠ r) } else n
    | none => n
  match s.cal.storing with
  | some (true, _) => { n1 with calB := [] }
  | some (false, _) => { n1 with calA := [] }
  | none => n1

/-- A sector whose erase was cut short: any mixture in every slot. -/
def tornSector (j : Nat) : List (Nat × BSlot) :=
  (List.range bbrSector).map fun k => (bbrSector * j + k, ⟨List.replicate 64 0, .erase⟩)

/-- A sector's slots replaced by those that a failed erase leaves. -/
def tearSector (l : List (Nat × BSlot)) (j : Nat) : List (Nat × BSlot) :=
  (l.filter fun e => decide (e.1 / bbrSector < j)) ++ tornSector j ++ l.filter fun e => decide (j < e.1 / bbrSector)

/-- What a failure leaves of the record (R376, "What a slot reads after a failure"; R381): how far an operation had come is
open. -/
def State.tornBbr (s : State) : List (Nat × BSlot) :=
  let b := s.bbr
  let how := Config.freeNat s.freeCtr
  if b.clearing then
    let j := how % 512
    tearSector (b.slots.filter fun e => decide (j ≤ e.1 / bbrSector)) j
  else
    let l := match b.erasing with
      | some j => if how / 4 % 2 = 0 then tearSector b.slots j else b.slots
      | none => b.slots
    match b.queue with
    | e :: _ =>
      if s.bbrReady ∧ (Sparse.find b.slots b.head).isNone ∧ how % 4 ≠ 0 then
        let full := entryBytes b.seq s.nvm.boots e
        Sparse.put l b.head
          (if how % 4 = 1 then ⟨List.replicate 4 0xFF ++ full.drop 4, .body⟩
           else if how % 4 = 2 then ⟨List.replicate 4 0xFF ++ full.drop 4, .intact⟩
           else ⟨full, .header⟩)
      else l
    | [] => l

/-- Outputs that were high go to idle (R365). -/
def State.idleOut (s : State) : List Output :=
  let balls := (s.touts.filter fun e => e.2.high).map fun e => Output.toutBall e.1 false s.now 0
  (if s.sol.syncOut then [Output.syncOut false s.now] else []) ++ balls ++ s.out

/-- The device in reset (R365, R366): BOOTING, with NVM as a torn operation leaves it. The queue of commands, what has left the
block and the count of open values stand. -/
def State.inPorst (s : State) : State :=
  { State.reset with
    nvm := s.tornNvm, bbr := { slots := s.tornBbr }, out := s.idleOut, freeCtr := s.freeCtr + 1, pending := s.pending }

/-- PORST_N goes low. -/
def State.porstAssert (s : State) : State := if s.porst then s else s.inPorst

/-- PORST_N is released (R366, R367, R289): coarse edges count from here, the ROM starts, and BOOTS advances in NVM. The
loop is in Winter from reset on; that sets no WINTER_IN bit and writes no entry. DESIGN CHOICE (log entry 53). -/
def State.porstRelease (s : State) (strap : Bool) : State :=
  if s.porst then
    let sealed' := strap || s.nvm.fuse
    let s1 := { s with
      porst := false, now := 0
      nvm := { s.nvm with boots := min (s.nvm.boots + 1) (2 ^ 32 - 1) }
      boot := { s.boot with strap := strap, sealed := sealed' } }
    let s2 := s1.setRegN sSec 0x014 (b2n sealed' + 2 * b2n s.nvm.fuse + 4 * b2n strap)
    s2.setRegN sSeq 0x014 (b2n sealed' * 2 ^ 21)
  else s

/-! ### AWAITING (R367, R370, R371) -/

/-- The default image that boot firmware takes: the complete copy with the higher DSEQ, A before B. -/
def State.bestImage (s : State) : Option (Bool × Nat × List (Nat × Nat)) :=
  match s.image 3, s.image 4 with
  | some (qa, la), some (qb, lb) => if qa < qb then some (true, qb, lb) else some (false, qa, la)
  | some (qa, la), none => some (false, qa, la)
  | none, some (qb, lb) => some (true, qb, lb)
  | none, none => none

/-- One record of the image: a BAR0 write, a BAR2 write, or a START kept for RUNNING. -/
def State.imageRecord (s : State) (r : Nat × Nat) : State :=
  let a := r.1 % 2 ^ 28
  match r.1 / 2 ^ 28 with
  | 0 => s.hostWrite .pcie a (BitVec.ofNat 32 r.2) true
  | 1 => s.tableWrite a [BitVec.ofNat 32 r.2]
  | _ => { s with boot := { s.boot with starts := s.boot.starts ++ [a % 512] } }

/-- Whether a region holds no image. -/
def State.noImage (s : State) (r : Nat) : Bool := s.nvEmpty r && !s.nvm.torn.contains r

/-- Boot firmware acts on the default image (R371). -/
def State.imageRun (s : State) : State :=
  match s.bestImage with
  | some (b, dseq, recs) =>
    let s1 := (s.setRfld sSec 0x020 11 1 (b2n b)).each recs State.imageRecord
    let s2 := { s1 with boot := { s1.boot with imageCommit := some dseq } }
    s2.hostWrite .pcie (ra sGlb 0x018) 1 true
  | none =>
    if s.noImage 3 && s.noImage 4 then s
    else
      let s1 := { s with commit := { s.commit with err := rRange, errAddr := 0 } }
      ((s1.setRfld sSec 0x020 8 3 2).enter .dormant).bbrPush 2 sSec [0, 2]

/-- Boot is complete: its parts are done, or the recovery firmware runs (R367, R369). -/
def State.bootDone (s : State) : Bool :=
  decide (s.dev = .booting) && s.boot.fwLoaded &&
    (s.boot.recovery || (s.boot.calLoaded && s.boot.patched && s.boot.hbm && s.bbr.scanned))

/-- AWAITING is reached (R367, R371, R379). -/
def State.awaiting (s : State) : State :=
  if s.bootDone then
    let s1 := (s.setRfld sSec 0x020 16 16 (s.now / 2_000_000)).enter .awaiting
    let r (off : Nat) : Nat := (s1.reg (ra sSec off)).toNat
    let s2 := s1.bbrPush 1 sSec [r 0x020, r 0x024, r 0x018]
    if s2.boot.recovery then s2 else s2.imageRun
  else s

/-! ### Commands -/

/-- A command that resets the device or releases it from reset: the clock and the epoch begin anew; only the queue stands. -/
def commandReset (t : Nat) (f : State → State) (s : State) : Host.Outcome State Fault Refusal :=
  .next ((f (s.advance t)).requeue s.pending)

/-- PCIE_PERST (R366). -/
def execPciePerst (t : Nat) : State → Host.Outcome State Fault Refusal := command t State.perst

/-- PORST_ASSERT (R366). DESIGN CHOICE (log entry 4). -/
def execPorstAssert (t : Nat) : State → Host.Outcome State Fault Refusal := commandReset t State.porstAssert

/-- PORST_RELEASE (R367). -/
def execPorstRelease (t : Nat) (strap : Bool) : State → Host.Outcome State Fault Refusal :=
  commandReset t fun s => s.porstRelease strap

/-- AWAITING_REACHED (R367). -/
def execAwaitingReached (t : Nat) : State → Host.Outcome State Fault Refusal := command t State.awaiting

end Sys2Proof.Machine
end

