-- ==== Sys2Proof/Machine/Dispatch.lean ====
section
/-! DEFINITION. The dispatch: one arm per constructor of `Instr`, each a direct call of the meaning of its command. -/

namespace Sys2Proof.Machine

/-- The effect of a command on everything but the queue. -/
def exec (i : Instr) (s : State) : Host.Outcome State Fault Refusal :=
  match i with
  -- host access
  | .registerWrite t p addr full v => Sys2Proof.Machine.execRegisterWrite t p addr full v s
  | .stagedWrite t p addr v => Sys2Proof.Machine.execStagedWrite t p addr v s
  | .tableWrite t off vs => Sys2Proof.Machine.execTableWrite t off vs s
  | .splitReadLo t p addr => Sys2Proof.Machine.execSplitReadLo t p addr s
  | .splitReadHi t p addr => Sys2Proof.Machine.execSplitReadHi t p addr s
  | .pageStatRead t p slot => Sys2Proof.Machine.execPageStatRead t p slot s
  | .resSnapshotRead t p stat => Sys2Proof.Machine.execResSnapshotRead t p stat s
  | .resWindowRead t p stat k => Sys2Proof.Machine.execResWindowRead t p stat k s
  | .bbrEntRead t p => Sys2Proof.Machine.execBbrEntRead t p s
  | .pageEvtClear t p slot v => Sys2Proof.Machine.execPageEvtClear t p slot v s
  | .pageReset t p slot => Sys2Proof.Machine.execPageReset t p slot s
  | .pageResetComplete t slot => Sys2Proof.Machine.execPageResetComplete t slot s
  | .pageEnable t p slot en => Sys2Proof.Machine.execPageEnable t p slot en s
  -- commit and barrier
  | .commit t p => Sys2Proof.Machine.execCommit t p s
  | .discard t p => Sys2Proof.Machine.execDiscard t p s
  | .dormant t p => Sys2Proof.Machine.execDormant t p s
  | .commitValidated t => Sys2Proof.Machine.execCommitValidated t s
  | .commitApplied t => Sys2Proof.Machine.execCommitApplied t s
  | .barrier t p => Sys2Proof.Machine.execBarrier t p s
  | .barrierComplete t => Sys2Proof.Machine.execBarrierComplete t s
  | .barrierRead t p => Sys2Proof.Machine.execBarrierRead t p s
  -- STOP
  | .stopDoorbell t v => Sys2Proof.Machine.execStopDoorbell t v s
  | .releaseDoorbell t v => Sys2Proof.Machine.execReleaseDoorbell t v s
  | .stopNAssert t => Sys2Proof.Machine.execStopNAssert t s
  | .stopNRelease t => Sys2Proof.Machine.execStopNRelease t s
  | .stopOn t => Sys2Proof.Machine.execStopOn t s
  | .stopOff t => Sys2Proof.Machine.execStopOff t s
  -- management SPI
  | .spiRead t addr whole ready => Sys2Proof.Machine.execSpiRead t addr whole ready s
  | .spiWrite t addr v whole => Sys2Proof.Machine.execSpiWrite t addr v whole s
  | .spiStatus t whole => Sys2Proof.Machine.execSpiStatus t whole s
  | .spiStop t key whole => Sys2Proof.Machine.execSpiStop t key whole s
  | .spiRelease t key whole => Sys2Proof.Machine.execSpiRelease t key whole s
  -- DMA
  | .tailWrite t ch v => Sys2Proof.Machine.execTailWrite t ch v s
  | .dmaMessageQueued t ch => Sys2Proof.Machine.execDmaMessageQueued t ch s
  | .descriptorFetch t ch r => Sys2Proof.Machine.execDescriptorFetch t ch r s
  | .bufferComplete t ch => Sys2Proof.Machine.execBufferComplete t ch s
  | .dmaDisableDone t ch => Sys2Proof.Machine.execDmaDisableDone t ch s
  | .irqTimeExpire t ch => Sys2Proof.Machine.execIrqTimeExpire t ch s
  -- reset and boot
  | .pciePerst t => Sys2Proof.Machine.execPciePerst t s
  | .porstAssert t => Sys2Proof.Machine.execPorstAssert t s
  | .porstRelease t sealStrap => Sys2Proof.Machine.execPorstRelease t sealStrap s
  | .firmwareLoaded t => Sys2Proof.Machine.execFirmwareLoaded t s
  | .calCopyLoad t => Sys2Proof.Machine.execCalCopyLoad t s
  | .patchCheck t => Sys2Proof.Machine.execPatchCheck t s
  | .hbmTrained t => Sys2Proof.Machine.execHbmTrained t s
  | .bbrScan t => Sys2Proof.Machine.execBbrScan t s
  | .awaitingReached t => Sys2Proof.Machine.execAwaitingReached t s
  -- service and black box
  | .fuse t p key => Sys2Proof.Machine.execFuse t p key s
  | .updBegin t p target => Sys2Proof.Machine.execUpdBegin t p target s
  | .updChunk t p => Sys2Proof.Machine.execUpdChunk t p s
  | .updFinish t p => Sys2Proof.Machine.execUpdFinish t p s
  | .service t p => Sys2Proof.Machine.execService t p s
  | .svcDone t nvmError => Sys2Proof.Machine.execSvcDone t nvmError s
  | .bbrDump t p ch => Sys2Proof.Machine.execBbrDump t p ch s
  | .bbrEntryProgrammed t => Sys2Proof.Machine.execBbrEntryProgrammed t s
  | .bbrSectorErased t => Sys2Proof.Machine.execBbrSectorErased t s
  | .monSample t millivolts temps => Sys2Proof.Machine.execMonSample t millivolts temps s
  -- calibration
  | .calFullRun t p store => Sys2Proof.Machine.execCalFullRun t p store s
  | .calChannelRun t p ch store => Sys2Proof.Machine.execCalChannelRun t p ch store s
  | .calStore t p => Sys2Proof.Machine.execCalStore t p s
  | .tempSample t temp => Sys2Proof.Machine.execTempSample t temp s
  | .calRunStart t => Sys2Proof.Machine.execCalRunStart t s
  | .calChannelStart t ch => Sys2Proof.Machine.execCalChannelStart t ch s
  | .calCellStep t ch r => Sys2Proof.Machine.execCalCellStep t ch r s
  | .calComparatorStep t ch r => Sys2Proof.Machine.execCalComparatorStep t ch r s
  | .calPinStep t ch d1 d2 => Sys2Proof.Machine.execCalPinStep t ch d1 d2 s
  | .calTapStep t ch r => Sys2Proof.Machine.execCalTapStep t ch r s
  | .tapBankSwitch t ch => Sys2Proof.Machine.execTapBankSwitch t ch s
  | .tapSwitchTimeout t ch => Sys2Proof.Machine.execTapSwitchTimeout t ch s
  | .calChannelEnd t ch => Sys2Proof.Machine.execCalChannelEnd t ch s
  | .calRunDone t => Sys2Proof.Machine.execCalRunDone t s
  | .calStoreDone t readBackOk => Sys2Proof.Machine.execCalStoreDone t readBackOk s
  | .calStoreDeferExpire t => Sys2Proof.Machine.execCalStoreDeferExpire t s
  -- reference loop, synthesis and clock outputs
  | .refEdge t x rising q => Sys2Proof.Machine.execRefEdge t x rising q s
  | .refEdgeMissing t x => Sys2Proof.Machine.execRefEdgeMissing t x s
  | .refWindowEnd t x => Sys2Proof.Machine.execRefWindowEnd t x s
  | .refQualified t x => Sys2Proof.Machine.execRefQualified t x s
  | .refTick t => Sys2Proof.Machine.execRefTick t s
  | .pullDone t => Sys2Proof.Machine.execPullDone t s
  | .pllLock t loop => Sys2Proof.Machine.execPllLock t loop s
  | .pllLockLoss t loop => Sys2Proof.Machine.execPllLockLoss t loop s
  | .oscLoss t => Sys2Proof.Machine.execOscLoss t s
  | .oscReturn t => Sys2Proof.Machine.execOscReturn t s
  | .ckoApply t => Sys2Proof.Machine.execCkoApply t s
  -- Solstice
  | .syncInEdge t rising q => Sys2Proof.Machine.execSyncInEdge t rising q s
  | .now t p => Sys2Proof.Machine.execNow t p s
  | .atGo t p => Sys2Proof.Machine.execAtGo t p s
  | .cancel t p => Sys2Proof.Machine.execCancel t p s
  | .arm t p => Sys2Proof.Machine.execArm t p s
  | .partnerSolstice t epoch => Sys2Proof.Machine.execPartnerSolstice t epoch s
  | .solstice t => Sys2Proof.Machine.execSolstice t s
  | .syncOutRise t => Sys2Proof.Machine.execSyncOutRise t s
  | .syncOutFall t => Sys2Proof.Machine.execSyncOutFall t s
  | .wrap t => Sys2Proof.Machine.execWrap t s
  -- time transfer
  | .ttlMarker t link teOut => Sys2Proof.Machine.execTtlMarker t link teOut s
  | .ttlReport t link rx tx => Sys2Proof.Machine.execTtlReport t link rx tx s
  | .ttlExchange t link teIn => Sys2Proof.Machine.execTtlExchange t link teIn s
  -- timing inputs and forwarders
  | .tinEdge t ch rising q => Sys2Proof.Machine.execTinEdge t ch rising q s
  | .tinFifoDeliver t ch => Sys2Proof.Machine.execTinFifoDeliver t ch s
  | .rotationEquinoxStart t ch => Sys2Proof.Machine.execRotationEquinoxStart t ch s
  | .gateRequest t ch => Sys2Proof.Machine.execGateRequest t ch s
  | .equinoxDone t ch codes1 codes2 => Sys2Proof.Machine.execEquinoxDone t ch codes1 codes2 s
  | .swapWindowClose t ch => Sys2Proof.Machine.execSwapWindowClose t ch s
  | .forwardStamp t die => Sys2Proof.Machine.execForwardStamp t die s
  | .forwardDequeue t die => Sys2Proof.Machine.execForwardDequeue t die s
  -- measurement
  | .measStamp t => Sys2Proof.Machine.execMeasStamp t s
  | .measLaneStamp t => Sys2Proof.Machine.execMeasLaneStamp t s
  | .timerGateRequest t slot => Sys2Proof.Machine.execTimerGateRequest t slot s
  | .timerGateEdge t slot => Sys2Proof.Machine.execTimerGateEdge t slot s
  | .gateLengthLimit t slot => Sys2Proof.Machine.execGateLengthLimit t slot s
  | .gateComplete t slot => Sys2Proof.Machine.execGateComplete t slot s
  -- timing outputs
  | .plPush t p ch v => Sys2Proof.Machine.execPlPush t p ch v s
  | .placementArrive t ch => Sys2Proof.Machine.execPlacementArrive t ch s
  | .placementHead t ch => Sys2Proof.Machine.execPlacementHead t ch s
  | .placementLaunch t ch => Sys2Proof.Machine.execPlacementLaunch t ch s
  | .toutTransition t ch q => Sys2Proof.Machine.execToutTransition t ch q s
  | .generatorPulse t ch => Sys2Proof.Machine.execGeneratorPulse t ch s
  -- event lanes
  | .laneCodeword t ln r => Sys2Proof.Machine.execLaneCodeword t ln r s
  | .laneCwLock t ln => Sys2Proof.Machine.execLaneCwLock t ln s
  | .laneAlignLoss t ln => Sys2Proof.Machine.execLaneAlignLoss t ln s
  | .laneSignalLoss t ln => Sys2Proof.Machine.execLaneSignalLoss t ln s
  | .hit t ln w => Sys2Proof.Machine.execHit t ln w s
  | .mark t ln w => Sys2Proof.Machine.execMark t ln w s
  | .health t ln w => Sys2Proof.Machine.execHealth t ln w s
  | .ident t ln w => Sys2Proof.Machine.execIdent t ln w s
  | .unit t ln w => Sys2Proof.Machine.execUnit t ln w s
  | .poll t ln w => Sys2Proof.Machine.execPoll t ln w s
  | .ack t ln w => Sys2Proof.Machine.execAck t ln w s
  | .pollTx t ln => Sys2Proof.Machine.execPollTx t ln s
  | .credit t ln => Sys2Proof.Machine.execCredit t ln s
  | .ackTimeout t ln => Sys2Proof.Machine.execAckTimeout t ln s
  | .registrationTimeout t ln => Sys2Proof.Machine.execRegistrationTimeout t ln s
  | .laneRetry t ln => Sys2Proof.Machine.execLaneRetry t ln s
  -- rebase and binning
  | .rebaseHit t ln => Sys2Proof.Machine.execRebaseHit t ln s
  | .modelAgeExpire t ln => Sys2Proof.Machine.execModelAgeExpire t ln s
  | .binRelease t plane => Sys2Proof.Machine.execBinRelease t plane s
  -- correlator
  | .harvest t ctx ladder => Sys2Proof.Machine.execHarvest t ctx ladder s
  | .arrayTileFault t ctx x y lag die => Sys2Proof.Machine.execArrayTileFault t ctx x y lag die s
  | .spareTestFail t die => Sys2Proof.Machine.execSpareTestFail t die s
  -- histograms
  | .histStamp t df => Sys2Proof.Machine.execHistStamp t df s
  | .histMissWriteback t die => Sys2Proof.Machine.execHistMissWriteback t die s
  | .snap t p ctx at' => Sys2Proof.Machine.execSnap t p ctx at' s
  | .snapClear t p ctx at' => Sys2Proof.Machine.execSnapClear t p ctx at' s
  | .clear t p ctx at' => Sys2Proof.Machine.execClear t p ctx at' s
  | .periodicCut t ctx => Sys2Proof.Machine.execPeriodicCut t ctx s
  | .cut t ctx => Sys2Proof.Machine.execCut t ctx s
  | .snapDone t ctx die => Sys2Proof.Machine.execSnapDone t ctx die s
  -- blocked mode and cascade
  | .signalBlockComplete t ctx => Sys2Proof.Machine.execSignalBlockComplete t ctx s
  | .casTransfer t header data => Sys2Proof.Machine.execCasTransfer t header data s
  | .blockDeadline t ctx => Sys2Proof.Machine.execBlockDeadline t ctx s
  | .blockProcessed t ctx => Sys2Proof.Machine.execBlockProcessed t ctx s
  | .casIdle t w => Sys2Proof.Machine.execCasIdle t w s
  | .casHopLost t => Sys2Proof.Machine.execCasHopLost t s
  | .casRetry t => Sys2Proof.Machine.execCasRetry t s
  -- contexts and triggers
  | .start t p ctx => Sys2Proof.Machine.execStart t p ctx s
  | .stop t p ctx => Sys2Proof.Machine.execStop t p ctx s
  | .poke t p ctx => Sys2Proof.Machine.execPoke t p ctx s
  | .admissionDone t => Sys2Proof.Machine.execAdmissionDone t s
  | .conditionEvent t => Sys2Proof.Machine.execConditionEvent t s
  | .holdoffExpire t ctx => Sys2Proof.Machine.execHoldoffExpire t ctx s
  | .autoTrigger t ctx => Sys2Proof.Machine.execAutoTrigger t ctx s
  | .timerExpire t ctx k => Sys2Proof.Machine.execTimerExpire t ctx k s
  | .dispatch t ctx => Sys2Proof.Machine.execDispatch t ctx s
  -- microcode
  | .microword t ctx ecc => Sys2Proof.Machine.execMicroword t ctx ecc s
  | .watchdog t ctx => Sys2Proof.Machine.execWatchdog t ctx s
  | .microwordWrite t a v => Sys2Proof.Machine.execMicrowordWrite t a v s
  | .nanowordPartWrite t a k v => Sys2Proof.Machine.execNanowordPartWrite t a k v s
  | .nanowordWord3Write t a v => Sys2Proof.Machine.execNanowordWord3Write t a v s
  -- records
  | .recordItem t ctx => Sys2Proof.Machine.execRecordItem t ctx s
  | .segmentPostEnd t ctx => Sys2Proof.Machine.execSegmentPostEnd t ctx s
  | .rearm t ctx => Sys2Proof.Machine.execRearm t ctx s
  | .preFilled t ctx => Sys2Proof.Machine.execPreFilled t ctx s
  | .streamMessageCut t ctx => Sys2Proof.Machine.execStreamMessageCut t ctx s
  -- pair
  | .claimSof t => Sys2Proof.Machine.execClaimSof t s
  | .claimSofSeen t => Sys2Proof.Machine.execClaimSofSeen t s
  | .claimFrame t claim fseq crc => Sys2Proof.Machine.execClaimFrame t claim fseq crc s
  | .busFault t => Sys2Proof.Machine.execBusFault t s
  | .thawTimeout t => Sys2Proof.Machine.execThawTimeout t s
  | .pairState t claim cause clkState unitId => Sys2Proof.Machine.execPairState t claim cause clkState unitId s
  | .pairStateTx t => Sys2Proof.Machine.execPairStateTx t s
  | .mirror t entries => Sys2Proof.Machine.execMirror t entries s
  | .mirrorTx t => Sys2Proof.Machine.execMirrorTx t s
  | .pairLinkTimeout t => Sys2Proof.Machine.execPairLinkTimeout t s
  | .pairLaneLoss t lane => Sys2Proof.Machine.execPairLaneLoss t lane s

end Sys2Proof.Machine
end

