-- ==== Sys2Proof/Machine/Step.lean ====
section
/-! DEFINITION. One step: the command at the front of the queue, or one coarse edge of an idle block. -/

namespace Sys2Proof.Machine

/-- The queue is empty: one coarse edge passes, and the epoch counts it (R18). DESIGN CHOICE (log entry 2). -/
def State.idle (s : State) : State := s.advance (s.now + 1)

/-- Take the command at the front of the queue and run it with the rest; idle where there is none. -/
def step (s : State) : Host.Outcome State Fault Refusal :=
  match s.pending with
  | [] => .next s.idle
  | c :: r => exec c (s.requeue r)

/-- The state with the command that a word spells at the front of its queue; no word spells one. -/
def State.withFetchWord (s : State) (nbits w : Nat) : State :=
  match decodeTableWord nbits w with
  | some c => s.requeue (c :: s.pending)
  | none => s

end Sys2Proof.Machine
end

