-- ==== Sys2Proof/Safety.lean ====
section
/-! DEFINITION. What every state of a run satisfies, in the terms the statements use: the clock and the origin of the epoch, the
log of the time base's flags, and the reset that PORST_N holds. -/

namespace Sys2Proof.Machine

/-- The epoch counts from an origin that is not ahead of the clock, and no wrap is taken before it has happened (R3, R18). -/
def State.epochOk (s : State) : Prop :=
  s.solEdge ≤ s.now ∧ s.wraps ≤ (s.now - s.solEdge) * 2000 / 2 ^ 64

/-- The newest entry of the log holds the flags that the time base gives items now (R6, R44, R50, R328). -/
def State.flagsOk (s : State) : Prop := (s.flagLog.head?.map (·.2)) = some s.tbFlags

/-- The device at its reset values, but for what PORST_N does not reach: NVM with the black-box record, the queue and the clock of
the model, and what has left the block. DESIGN CHOICE (log entry 1). -/
def State.atReset (s : State) : State :=
  { State.reset with
    pending := s.pending, now := s.now, nvm := s.nvm, bbr := { slots := s.bbr.slots }, out := s.out, freeCtr := s.freeCtr }

/-- While PORST_N is low the whole device is in reset (R366). -/
def State.resetHeld (s : State) : Prop := s.porst = true → s = s.atReset

/-- The invariant of a run. -/
def State.Inv (s : State) : Prop := s.epochOk ∧ s.flagsOk ∧ s.resetHeld

/-- PORST_N is high, and the log of the time base's flags is up to date: what every state of a run out of reset satisfies. -/
def State.Powered (s : State) : Prop := s.porst = false ∧ s.flagsOk

/-- A state differs from another at most in what event bits, counters and black-box entries touch: registers, the cycles of event
bits, vector messages and what has left the block, and the black-box controller. -/
def Side (s x : State) : Prop :=
  ∃ r e p o q, x = { s with regs := r, evtAt := e, pba := p, out := o, bbr := q }

/-- A host access to an address reaches its page at once: the device has left BOOTING, no barrier is in progress, and the host
port does not hold the access for a page in reset (R339, R347, R351, R367). -/
def State.Reaches (s : State) (a : Nat) : Prop :=
  s.dev ≠ .booting ∧ s.barrierOn = false ∧ s.portHolds (.write .pcie a 0) = false

/-- No capture has to overflow and no context has still to drain: what other blocks do then moves no context (R259, R306). -/
def State.Settled (s : State) : Prop :=
  (∀ e ∈ s.caps, e.2.full = false) ∧ ∀ c, (s.ctx c).st ≠ .stopping ∧ (s.ctx c).st ≠ .stoppedOvf

/-- The command completes: it answers a next state, and that state has a property. -/
def Answers (c : Instr) (s : State) (P : State → Prop) : Prop := ∃ t, exec c s = .next t ∧ P t

end Sys2Proof.Machine
end

