-- ==== Sys2Proof/Certificates/Slice0/Obligations.lean ====
section
/-! DEFINITION. The statements about the block, family by family. `State.Powered` (PORST_N high, the flag log up to date) is the
standing premise: it holds after every step out of reset. A next state is written as what the command makes of
`s.advance t`, the state with the clock at the command's coarse edge; where event bits, counters or black-box entries
follow, they are written with the operations whose effect `EventBitSets` and `BlackBoxEntry` state. -/

open Sys2Proof Sys2Proof.Machine

/-! ### The block as a machine -/

/-- step takes the command at the front of the queue and runs it with the rest; an empty queue lets one coarse edge pass (the
model's choice, log entry 2). -/
def Obligations.StepRunsFront : Prop :=
  (∀ (s : State) (c : Instr) (r : List Instr), s.pending = c :: r → step s = exec c (s.requeue r)) ∧
  (∀ s : State, s.pending = [] → step s = .next { s with now := s.now + 1 })

/-- No command stops the block, and none touches the queue. -/
def Obligations.EveryCommandAnswers : Prop :=
  ∀ (c : Instr) (s : State), Answers c s fun t => t.pending = s.pending

/-- The reset state meets the invariant. -/
def Obligations.InvAtReset : Prop := State.reset.Inv

/-- Every step keeps the invariant: the epoch's origin is not ahead of the clock and no wrap is taken early, the log of the
time base's flags is up to date, and while PORST_N is low everything is at reset. -/
def Obligations.InvKept : Prop := ∀ s s' : State, s.Inv → step s = .next s' → s'.Inv

/-- Only SOLSTICE and the two PORST_N commands move the origin from which the epoch counts: a page RESET and STOP, like every
other command, leave it. -/
def Obligations.OnlySolsticeMovesOrigin : Prop :=
  ∀ (c : Instr) (s s' : State), exec c s = .next s' → s'.solEdge ≠ s.solEdge →
    (∃ t, c = .solstice t) ∨ (∃ t, c = .porstAssert t) ∨ ∃ t b, c = .porstRelease t b

/-! ### Event bits, interrupts and the black-box queue (R349, R350, R375) -/

/-- Hardware sets an event bit: the bit is 1, SETS advances modulo 2^16, GEN and every other register stand, and the page
raises its vector if the bit is enabled and was 0, unless its routing byte disables the page; a masked vector's message
waits in the PBA. PAGE_EVT_CLEAR: a bit written as 1 is cleared unless hardware set it in the same cycle of the page's
island clock; the other bits and registers stand; and where an enabled bit is left at 1 the page raises its vector, and only
then. -/
def Obligations.EventBits : Prop :=
  (∀ (s : State) (slot b : Nat), b < 32 →
     let t := s.evt slot b
     let byte := s.routeByte slot
     let raises := bit (s.reg (ra slot 0x008)) b = false ∧ bit (s.reg (ra slot 0x00C)) b = true ∧ byte < 128
     let masked := bit (s.msixWord (16 * (64 + byte % 64) + 12)) 0 = true
     t.reg (ra slot 0x008) = s.reg (ra slot 0x008) ||| (1 : Word) <<< b ∧
     t.rfld slot 0x004 16 16 = (s.rfld slot 0x004 16 16 + 1) % 2 ^ 16 ∧
     (∀ i, i < 16 → bit (t.reg (ra slot 0x004)) i = bit (s.reg (ra slot 0x004)) i) ∧
     (∀ a, a ≠ ra slot 0x008 → a ≠ ra slot 0x004 → t.reg a = s.reg a) ∧
     (raises → ¬masked → t.out = .msix (64 + byte % 64) :: s.out ∧ t.pba = s.pba) ∧
     (raises → masked → t.out = s.out ∧ (64 + byte % 64) ∈ t.pba) ∧
     (¬raises → t.out = s.out ∧ t.pba = s.pba) ∧
     t = { s with regs := t.regs, evtAt := t.evtAt, pba := t.pba, out := t.out }) ∧
  (∀ (s : State) (t : Nat) (p : Path) (slot : Fin 1024) (v : Word),
     s.Powered → s.Reaches (ra slot 0x008) → s.served slot = true → (pageAt slot).isSome = true →
     Answers (.pageEvtClear t p slot v) s fun s' =>
       let kept (b : Nat) : Prop := Sparse.find s.evtAt (32 * slot + b) = some (islandCycle slot (max s.now t))
       (∀ b, b < 32 → (bit (s'.reg (ra slot 0x008)) b = true ↔
         bit (s.reg (ra slot 0x008)) b = true ∧ (bit v b = false ∨ kept b))) ∧
       (∀ a, a ≠ ra slot 0x008 → s'.reg a = s.reg a) ∧
       (s'.reg (ra slot 0x008) &&& s.reg (ra slot 0x00C) = 0 → s'.out = s.out ∧ s'.pba = s.pba) ∧
       (s'.reg (ra slot 0x008) &&& s.reg (ra slot 0x00C) ≠ 0 → s'.out = (s.raise slot).out ∧ s'.pba = (s.raise slot).pba) ∧
       s' = { s with now := max s.now t, regs := s'.regs, out := s'.out, pba := s'.pba })

/-- A black-box entry joins the queue while there is room: after drops a DROPPED entry with their count goes before it; a full
queue drops it, counts it and sets DROP. -/
def Obligations.BlackBoxEntry : Prop :=
  ∀ (s : State) (code slot : Nat) (data : List Nat),
    let entry (c sl : Nat) (d : List Nat) : BEntry :=
      { uptime := s.now / 2000, epoch := if s.dev = .booting then 0 else s.epoch, code := c, slot := sl, data := d.map (BitVec.ofNat 32) }
    let n := s.bbr.queue.length
    (n < 256 → s.bbr.drops = 0 →
      s.bbrPush code slot data = { s with bbr := { s.bbr with queue := s.bbr.queue ++ [entry code slot data] } }) ∧
    (n < 255 → 0 < s.bbr.drops →
      s.bbrPush code slot data = { s with bbr := { s.bbr with
        drops := 0, queue := s.bbr.queue ++ [entry 18 0xFFFF [s.bbr.drops]] ++ [entry code slot data] } }) ∧
    (256 ≤ n → (s.bbrPush code slot data).bbr = { s.bbr with drops := s.bbr.drops + 1 } ∧
      (s.bbrPush code slot data).reg64 sBbr 0x070 = min (s.reg64 sBbr 0x070 + 1) (2 ^ 64 - 1) ∧
      bit ((s.bbrPush code slot data).reg (ra sBbr 0x008)) 1 = true)

/-! ### Host accesses (18_host_control.md) -/

/-- A BAR0 access that is not one whole aligned DWORD is ignored, or reads 0, and sets BAD_ACCESS; an access to an empty
slot or beyond a page's last register is ignored, or reads 0, and raises no event. -/
def Obligations.BadAccess : Prop :=
  ∀ (s : State) (t : Nat) (p : Path) (a : Nat) (full : Bool) (v : Word), s.Powered → s.dev ≠ .booting →
    ((full = false ∨ a % 4 ≠ 0) → exec (.registerWrite t p a full v) s = .next ((s.advance t).evt sGlb 6)) ∧
    (a % 4 ≠ 0 →
      exec (.splitReadLo t p a) s = .next (((s.advance t).evt sGlb 6).emit (.reply p 0)) ∧
      exec (.splitReadHi t p a) s = .next (((s.advance t).evt sGlb 6).emit (.reply p 0))) ∧
    (s.Reaches a → a % 4 = 0 → regAt a = none →
      exec (.registerWrite t p a true v) s = .next (s.advance t) ∧
      exec (.splitReadLo t p a) s = .next { s.advance t with freeCtr := s.freeCtr + 1, out := .reply p 0 :: s.out } ∧
      exec (.splitReadHi t p a) s = .next { s.advance t with freeCtr := s.freeCtr + 1, out := .reply p 0 :: s.out })

/-- A write that reaches its page: a staged register takes it into its staged copy, PENDING reads 1, a read in the LIVE view
returns the value in force and one in the STAGED view the value written, with reserved bits reading 0; a read-only register
ignores it; a read-write register of a page that gives its write no rule of its own, and PAGE_EVT_EN of every page, take the
bits that are not reserved. Nothing else changes. -/
def Obligations.RegisterWrites : Prop :=
  ∀ (s : State) (t : Nat) (p : Path) (a : Nat) (v : Word) (r : RegInfo) (q : PageInfo), s.Powered → s.Reaches a → a % 4 = 0 →
    s.served (a / 0x400) = true → regAt a = some r → pageAt (a / 0x400) = some q →
    (r.ty = .rws →
      exec (.registerWrite t p a true v) s = .next { s.advance t with staged := Sparse.put s.staged a v } ∧
      exec (.stagedWrite t p a v) s = .next { s.advance t with staged := Sparse.put s.staged a v } ∧
      (let u : State := { s.advance t with staged := Sparse.put s.staged a v }
       u.pagePending (a / 0x400) = true ∧ (s.viewStaged p = false → u.peek p a = s.reg a) ∧ (s.viewStaged p = true → u.peek p a = v &&& r.mask))) ∧
    (r.ty = .ro → a ≠ ra sGlb 0x02C → exec (.registerWrite t p a true v) s = .next (s.advance t)) ∧
    (r.ty = .rw → (a % 0x400 = 0x00C ∨ q.kind ∉ [PageKind.glb, .dma, .meas, .bbr]) →
      exec (.registerWrite t p a true v) s = .next ((s.advance t).setReg a (v &&& r.mask)))

/-- TABLE_WRITE: a burst is its DWORD writes in ascending address; a word of a plain table takes the bits that are not
reserved, a tile word its staged copy, a word of an entry whose owner runs (in the context table, one of its configuration
words) only the event of its page, and a word that the host may not write nothing. A word of an entry that a stopped context
ran with changes as well, and is kept as it was for the results that the context still owes. A table write waits behind the
accesses that the host port holds for a page of the table's island in reset. -/
def Obligations.TableWrites : Prop :=
  (∀ (s : State) (off : Nat) (v : Word) (vs : List Word),
    s.tableNow off (v :: vs) = (s.tableNow off [v]).tableNow (off + 4) vs) ∧
  ∀ (s : State) (t off : Nat) (v : Word) (x : TabInfo), s.Powered → s.dev ≠ .booting → s.barrierOn = false →
    off % 4 = 0 → off < 2 ^ 28 → (s.portHolds (.table off [v]) = true →
      exec (.tableWrite t off [v]) s = .next { s.advance t with held := s.held ++ [.table off [v]] }) ∧
    (s.portHolds (.table off [v]) = false → s.boot.recovery = false →
      let u := s.advance t
      let new := v &&& tabMask off
      (tabAt off = none → exec (.tableWrite t off [v]) s = .next u) ∧
      (tabAt off = some x →
        (tabMask off = 0 → x.tab = .ctx ∨ s.tabBusy x off 0 = none → exec (.tableWrite t off [v]) s = .next u) ∧
        (tabMask off ≠ 0 ∨ x.tab ≠ .ctx → ∀ slot b, s.tabBusy x off new = some (slot, b) →
          exec (.tableWrite t off [v]) s = .next (u.evt slot b)) ∧
        (tabMask off ≠ 0 → s.tabBusy x off new = none →
          (x.tab = .tile → exec (.tableWrite t off [v]) s = .next { u with stagedTab := Sparse.put s.stagedTab off v }) ∧
          (x.tab ∈ [Tab.ctx, .mirror, .svc, .rx, .delay, .beam, .route] →
            exec (.tableWrite t off [v]) s = .next (u.setTabw off new)) ∧
          (x.tab ∈ [Tab.meas, .rec', .cor, .slot, .blk, .hctx, .lad, .hdef] → Answers (.tableWrite t off [v]) s fun s' =>
            s' = { u.setTabw off new with oldWords := s'.oldWords } ∧
            ∀ c, c ∈ s.ctxs.map (·.1) → (s.ctx c).st ≠ .running → s.ctxOwes c = true →
              Sparse.find (Sparse.get [] s'.oldWords c) off =
                some ((Sparse.find (Sparse.get [] s.oldWords c) off).getD (s.tabw off))))))

/-- Split reads: SPLIT_READ_LO copies both halves into the path's snapshot and returns the low one; SPLIT_READ_HI returns
the high half of the snapshot and marks it used, and latches the page's condition when it was used already; PAGE_STAT_READ
returns the condition in FAULT and clears it. -/
def Obligations.SplitReads : Prop :=
  ∀ (s : State) (t : Nat) (p : Path) (lo : Nat), s.Powered → s.Reaches lo → lo % 4 = 0 → pairOf lo = some (lo, true) →
    s.served (lo / 0x400) = true →
    let u : State := { s.advance t with freeCtr := s.freeCtr + 1 }
    (exec (.splitReadLo t p lo) s = .next { u with
      snaps := Sparse.set {} s.snaps (snapKey p lo)
        { v := (u.peek p lo).toNat + 2 ^ 32 * (u.peek p (lo + 4)).toNat, fresh := true }
      out := .reply p (u.peek p lo) :: s.out }) ∧
    (Answers (.splitReadHi t p (lo + 4)) s fun s' =>
      s'.out = .reply p (BitVec.ofNat 32 ((s.snap p lo).v / 2 ^ 32)) :: s.out ∧
      s'.snaps = Sparse.set {} s.snaps (snapKey p lo) { s.snap p lo with fresh := false } ∧
      ((s.snap p lo).fresh = true → s'.splitFault = s.splitFault) ∧
      ((s.snap p lo).fresh = false → lo / 0x400 ∈ s'.splitFault) ∧
      s' = { u with snaps := s'.snaps, out := s'.out, splitFault := s'.splitFault }) ∧
    (∀ slot : Fin 1024, slot.val = lo / 0x400 →
      exec (.pageStatRead t p slot) s = .next { u with
        splitFault := s.splitFault.filter (· ≠ slot.val), out := .reply p (u.pageStat slot) :: s.out } ∧
      (slot.val ∈ s.splitFault → bit (u.pageStat slot) 10 = true))

/-- PAGE_RESET of a page that has no request or queue of its own to give up: STATE 2, GEN one higher modulo 16, the page's
staged values dropped and those of every other page kept, ENABLE and every other register as they were, and an entry in the
black box. A page in reset holds the accesses that come. While a page is in reset its accesses wait; at PAGE_RESET_COMPLETE
the page leaves STATE 2 with its event bits and counters 0, its snapshots and latched condition gone, GEN and SETS as they
were, and a staged write that waited is then taken. -/
def Obligations.PageResets : Prop :=
  (∀ (s : State) (t : Nat) (p : Path) (slot : Fin 1024) (q : PageInfo), s.Powered → s.Reaches (ra slot 0x010) →
     s.served slot = true → pageAt slot = some q → q.kind ∈ [PageKind.clk, .cko, .acq, .par, .mon, .sec, .fwd, .reb, .bin,
       .beam, .cor, .hst, .mem, .cas, .tin, .lane] →
     Answers (.pageReset t p slot) s fun s' =>
       s'.resetting = slot.val :: s.resetting ∧ s'.pageState slot = 2 ∧ s'.gen slot = (s.gen slot + 1) % 16 ∧
       s'.staged = s.staged.filter (fun e => decide (e.1 / 0x400 ≠ slot.val)) ∧ s'.pageOn slot = s.pageOn slot ∧
       (∀ a, a ≠ ra slot 0x004 → a / 0x400 ≠ sBbr → s'.reg a = s.reg a) ∧
       Side { s.advance t with resetting := slot.val :: s.resetting, staged := s'.staged } s') ∧
  (∀ (s : State) (t : Nat) (p : Path) (slot : Fin 1024) (q : PageInfo) (v : Word) (a : Nat), s.Powered → s.dev ≠ .booting →
     pageAt slot = some q → q.kind ∉ [PageKind.tin, .tout, .mon, .fwd, .mem, .reb, .beam] → s.commit.waitFor = [] →
     s.barrierOn = false → s.inReset slot = true →
     (a % 4 = 0 → a / 0x400 = slot.val →
       exec (.stagedWrite t p a v) s = .next { s.advance t with held := s.held ++ [.write p a v] }) ∧
     (s.held = [] →
       Answers (.pageResetComplete t slot) s fun s' =>
         s'.resetting = s.resetting.filter (· ≠ slot.val) ∧ s'.reg (ra slot 0x008) = 0 ∧
         (∀ off ∈ counterOffs q.kind, s'.reg (ra slot off) = 0) ∧
         (∀ b, b ≠ ra slot 0x008 → (∀ off ∈ counterOffs q.kind, b ≠ ra slot off) → s'.reg b = s.reg b) ∧
         (∀ k lo, pairOf lo = some (lo, true) → lo / 0x400 = slot.val → s'.snap k lo = {}) ∧
         slot.val ∉ s'.splitFault ∧
         s' = { s.advance t with resetting := s'.resetting, regs := s'.regs, snaps := s'.snaps, splitFault := s'.splitFault }) ∧
     (∀ r, s.held = [.write p a v] → a / 0x400 = slot.val → regAt a = some r → r.ty = .rws → s.served slot = true →
       Answers (.pageResetComplete t slot) s fun s' =>
         s'.staged = Sparse.put s.staged a v ∧ s'.held = [] ∧ s'.resetting = s.resetting.filter (· ≠ slot.val)))

/-- PAGE_ENABLE takes effect at once. On a TIN page with a booted stamper setting it also announces capture; on a LANE page
it starts training; on a CKO page the output starts, and clearing it lets the output run to its next falling edge; on a DMA
page it is refused with BAD_CFG where the ring does not fit; on a page whose chapter names no effect only the bit is held.
-/
def Obligations.PageEnables : Prop :=
  ∀ (s : State) (t : Nat) (p : Path) (slot : Fin 1024) (q : PageInfo) (en : Bool), s.Powered → s.Reaches (ra slot 0x010) →
    s.served slot = true → pageAt slot = some q →
    let i := slot.val - q.first
    let held := (s.advance t).setRfld slot 0x010 1 1 (b2n en)
    (q.kind ∉ [PageKind.tin, .cko, .lane, .dma] → exec (.pageEnable t p slot en) s = .next held) ∧
    (q.kind = .tin → exec (.pageEnable t p slot en) s =
      .next (if en = true ∧ s.pageOn slot = false ∧ (s.stamper i).booted = true then held.evt slot 0 else held)) ∧
    (q.kind = .lane → en = true → s.pageOn slot = false →
      Answers (.pageEnable t p slot en) s fun s' => s'.pageOn slot = true ∧ (s'.lane i).st = .training) ∧
    (q.kind = .cko → en = true → s.pageOn slot = false →
      Answers (.pageEnable t p slot en) s fun s' => s'.pageOn slot = true ∧ s.phys ≤ (s'.cko i).from' ∧ (s'.cko i).offAt = none) ∧
    (q.kind = .cko → en = false → s.pageOn slot = true →
      Answers (.pageEnable t p slot en) s fun s' => s'.pageOn slot = false ∧
        s'.cko i = { s.cko i with offAt := some ((s.advance t).ckoNextFall i) }) ∧
    (q.kind = .dma → en = true → (s.ringExp i < 4 ∨ 16 < s.ringExp i ∨ s.rfld slot 0x018 0 5 ≠ 0) →
      exec (.pageEnable t p slot en) s = .next (((s.advance t).setRfld slot 0x010 1 1 0).evt slot 3)) ∧
    (q.kind = .dma → en = true → 4 ≤ s.ringExp i → s.ringExp i ≤ 16 → s.rfld slot 0x018 0 5 = 0 → (s.dmaCh i).queue = [] →
      Answers (.pageEnable t p slot en) s fun s' => s'.pageOn slot = true ∧ (s'.dmaCh i).head = (s.dmaCh i).head ∧
        (s'.dmaCh i).tail = (s.dmaCh i).tail ∧ (s'.dmaCh i).mseq = (s.dmaCh i).mseq)

/-! ### Commit and barrier -/

/-- COMMIT takes the snapshot of every staged copy and reads BUSY; DISCARD drops every staged and waiting value; DORMANT
takes the device to DORMANT at once with every timing output gated and nothing left to start (here no context runs; those
that run stop as `ContextStops` states); a write of GLB.COMMIT while BUSY is ignored with COMMIT_IGN. COMMIT_APPLIED at the
application edge: RESULT 1, COUNT one higher, BUSY 0, COMMIT_DONE set. A value of a plain staged page is in force from then
on; a CKO value waits for its own edge, and CLK values have applied at the reference loop's ticks since validation. Before
the edge nothing happens. -/
def Obligations.Commits : Prop :=
  (∀ (s : State) (t : Nat) (p : Path), s.Powered → s.Reaches (ra sGlb 0x018) →
     (s.commit.busy = true →
       exec (.commit t p) s = .next ((s.advance t).evt sGlb 2) ∧ exec (.discard t p) s = .next ((s.advance t).evt sGlb 2) ∧
       exec (.dormant t p) s = .next ((s.advance t).evt sGlb 2)) ∧
     (s.commit.busy = false →
       (s.resetting = [] → exec (.commit t p) s = .next { s.advance t with
         staged := [], stagedTab := []
         commit := { s.commit with busy := true, waitFor := [], early := s.held.length, snapshot := some (s.staged, s.stagedTab) } }) ∧
       (s.resetting ≠ [] → exec (.commit t p) s = .next { s.advance t with
         commit := { s.commit with busy := true, waitFor := s.resetting, early := s.held.length } }) ∧
       exec (.discard t p) s = .next { s.advance t with
         staged := [], stagedTab := [], clkWait := [], ckoWait := [], ckoDue := none, parWait := [] } ∧
       (s.ctxs = [] → s.caps = [] → Answers (.dormant t p) s fun s' =>
         s'.dev = .dormant ∧ s'.boot.starts = [] ∧ (∀ n, n < 32 → (s'.tout n).gatedDorm = true) ∧
         s'.staged = s.staged ∧ s'.commit = s.commit ∧ s'.stopSrc = s.stopSrc ∧ s'.tab = s.tab))) ∧
  (∀ (s : State) (t e : Nat) (rg tb : List (Nat × Word)), s.Powered → s.commit.snapshot = some (rg, tb) →
     s.commit.applyAt = some e →
     (max s.now t < e → exec (.commitApplied t) s = .next (s.advance t)) ∧
     (e ≤ max s.now t → tb = [] → s.boot.imageCommit = none → s.dev ≠ .awaiting → s.dev ≠ .dormant →
       ∀ (a : Nat) (v : Word) (r : RegInfo) (q : PageInfo), rg = [(a, v)] → regAt a = some r → pageAt (a / 0x400) = some q →
       s.runningCtxs = [] →
       let done (x : State) : State := (({ x with
         commit := { s.commit with busy := false, snapshot := none, applyAt := none, result := 1, count := s.commit.count + 1,
                                   ever := true } }).evt sGlb 0).bbrHost 12 sGlb [0, s.commit.err]
       (q.kind ∈ [PageKind.glb, .sol, .tin, .acq, .cal, .bin] →
         exec (.commitApplied t) s = .next (done ((s.advance t).setReg a (v &&& r.mask)))) ∧
       (q.kind = .cko → exec (.commitApplied t) s = .next (done { s.advance t with
         ckoWait := [(a, v)], ckoDue := if s.rbit sGlb 0x030 0 then none else some (max s.now t) }))))

/-- COMMIT_VALIDATED: a snapshot that passes every check gets its application edge 2 µs on, and its CLK values wait for the
reference loop's next tick from now; nothing else changes. One that fails applies nothing: RESULT 2 and the failure are
recorded, COMMIT_FAIL is set, the staged copies stand again with later writes over them, and a device in AWAITING or DORMANT
is DORMANT. Validation refuses any commit in BOOTING. Else it goes through the pages in ascending slot, and reports a
failure of the first page that has one, at its lowest failing register. -/
def Obligations.CommitValidation : Prop :=
  (∀ (s : State) (t : Nat) (rg tb : List (Nat × Word)), s.Powered → s.commit.snapshot = some (rg, tb) → s.commit.applyAt = none →
     ((s.advance t).validate rg tb = none →
       exec (.commitValidated t) s = .next { s.advance t with
         clkWait := Sparse.over (rg.filter fun e => decide (e.1 / 0x400 = sClk)) s.clkWait
         loop := { s.loop with comm := true }
         commit := { s.commit with
           applyAt := some (max s.now t + 4000), snapshot := some (rg.filter fun e => decide (e.1 / 0x400 ≠ sClk), tb) } }) ∧
     (∀ err addr, (s.advance t).validate rg tb = some (err, addr) →
       Answers (.commitValidated t) s fun s' =>
         s'.commit = { s.commit with busy := false, snapshot := none, applyAt := none, result := 2, err := err, errAddr := addr } ∧
         s'.staged = Sparse.over s.staged rg ∧ s'.stagedTab = Sparse.over s.stagedTab tb ∧
         bit (s'.reg (ra sGlb 0x008)) 1 = true ∧ s'.tab = s.tab ∧
         (∀ a, a / 0x400 ≠ sGlb → a / 0x400 ≠ sBbr → a / 0x400 ≠ sSec → s'.reg a = s.reg a) ∧
         (s.dev = .awaiting ∨ s.dev = .dormant → s'.dev = .dormant) ∧
         (s.dev ≠ .awaiting → s'.dev = s.dev) ∧ s'.stopSrc = s.stopSrc ∧ s'.ctxs = s.ctxs ∧ s'.touts = s.touts)) ∧
  (∀ (s : State) (rg tb : List (Nat × Word)),
     let c := s.candidate rg tb
     let failing (k : Nat) (q : PageInfo) : List (Nat × Nat) := reservedFails rg k ++ s.pageFails c q.kind (k - q.first)
     (s.dev = .booting → s.validate rg tb = some (7, 0)) ∧
     (s.dev ≠ .booting → ∀ (slot : Nat) (q : PageInfo), slot < 401 → pageAt slot = some q → failing slot q ≠ [] →
       (∀ k r, k < slot → pageAt k = some r → failing k r = []) →
       ∃ off why, (off, why) ∈ failing slot q ∧ (∀ e ∈ failing slot q, off ≤ e.1) ∧
         s.validate rg tb = some (slot * 2 ^ 21 + off * 2 ^ 11 + why, 0)))

/-- BARRIER holds every later write, table write and TAIL write, on both paths; BARRIER_COMPLETE, once no page is in reset,
counts it and lets what waited follow; a read of GLB.BARRIER waits for a barrier in progress and else returns the count; a
read of a page to which a write waits behind the barrier waits as well. -/
def Obligations.Barriers : Prop :=
  ∀ (s : State) (t : Nat) (p : Path), s.Powered → s.dev ≠ .booting →
    s.portHolds (.write p (ra sGlb 0x02C) 0) = false →
    (s.barrierOn = false →
      exec (.barrier t p) s = .next { s.advance t with barrierOn := true } ∧
      exec (.barrierRead t p) s = .next { s.advance t with
        freeCtr := s.freeCtr + 1, out := .reply p (BitVec.ofNat 32 s.barriers) :: s.out } ∧
      exec (.barrierComplete t) s = .next (s.advance t)) ∧
    (s.barrierOn = true →
      (∀ a v, a % 4 = 0 →
        exec (.registerWrite t p a true v) s = .next { s.advance t with behind := s.behind ++ [.write p a v] }) ∧
      (∀ off vs, off % 4 = 0 →
        exec (.tableWrite t off vs) s = .next { s.advance t with behind := s.behind ++ [.table off vs] }) ∧
      (∀ ch v, exec (.tailWrite t ch v) s = .next { s.advance t with behind := s.behind ++ [.tail ch v] }) ∧
      exec (.barrierRead t p) s = .next { s.advance t with behind := s.behind ++ [.read p (ra sGlb 0x02C)] } ∧
      (∀ a, a % 4 = 0 → s.readWaits (a / 0x400) = true →
        exec (.splitReadLo t p a) s = .next { s.advance t with behind := s.behind ++ [.read p a] } ∧
        exec (.splitReadHi t p a) s = .next { s.advance t with behind := s.behind ++ [.read p a] }) ∧
      (s.resetting ≠ [] → exec (.barrierComplete t) s = .next (s.advance t)) ∧
      (s.resetting = [] → s.behind = [] → exec (.barrierComplete t) s = .next { s.advance t with
        barrierOn := false, barriers := (s.barriers + 1) % 2 ^ 32 }) ∧
      (∀ a v r, s.resetting = [] → s.held = [] → s.behind = [.write p a v] → s.served (a / 0x400) = true → regAt a = some r → r.ty = .rws →
        exec (.barrierComplete t) s = .next { s.advance t with
          barrierOn := false, barriers := (s.barriers + 1) % 2 ^ 32, behind := [], staged := Sparse.put s.staged a v }))

/-! ### STOP and the management SPI -/

/-- A doorbell write acts outside BOOTING: the STOP value sets the doorbell's latch, the RELEASE value clears it, and any
other value only sets BAD_DOORBELL. STOP_N and the SPI keys set and clear their own latches in every state; a wrong key, or
a transaction cut short, only sets SPI_BAD. -/
def Obligations.StopSources : Prop :=
  ∀ (s : State) (t : Nat), s.Powered → s.stopSrc < 8 →
    let held (src : Nat) (s' : State) : Prop := s'.stopSrc = s.stopSrc ||| src ∧ s'.stopOn = s.stopOn ∧
      Side { s.advance t with stopSrc := s'.stopSrc } s' ∧
      (s.stopSrc ||| src ≠ s.stopSrc → bit (s'.reg (ra sGlb 0x008)) 4 = true)
    let dropped (src : Nat) (s' : State) : Prop := s'.stopSrc = s.stopSrc &&& (7 ^^^ src) ∧ s'.stopOn = s.stopOn ∧
      Side { s.advance t with stopSrc := s'.stopSrc } s' ∧
      (s.stopSrc ≠ 0 → s'.stopSrc = 0 → bit (s'.reg (ra sGlb 0x008)) 5 = true)
    (s.dev ≠ .booting →
      Answers (.stopDoorbell t 0x5354_4F50) s (held 1) ∧ Answers (.releaseDoorbell t 0x524C_5345) s (dropped 1) ∧
      (∀ v, v ≠ 0x5354_4F50 → exec (.stopDoorbell t v) s = .next ((s.advance t).evt sGlb 7)) ∧
      (∀ v, v ≠ 0x524C_5345 → exec (.releaseDoorbell t v) s = .next ((s.advance t).evt sGlb 7))) ∧
    (s.dev = .booting → ∀ v, exec (.stopDoorbell t v) s = .next (s.advance t)) ∧
    Answers (.stopNAssert t) s (held 2) ∧ Answers (.stopNRelease t) s (dropped 2) ∧
    Answers (.spiStop t 0x5354 true) s (held 4) ∧ Answers (.spiRelease t 0x524C true) s (dropped 4) ∧
    (∀ k w, (k ≠ 0x5354 ∨ w = false) → exec (.spiStop t k w) s = .next ((s.advance t).evt sGlb 8)) ∧
    (∀ k w, (k ≠ 0x524C ∨ w = false) → exec (.spiRelease t k w) s = .next ((s.advance t).evt sGlb 8))

/-- STOP_ON while a source holds STOP, outside BOOTING, brings STOP into force, and a RUNNING device is STOPPED; STOP_OFF
once no source holds it lifts STOP, and a STOPPED device is RUNNING. Here no context heeds STOP and no output is gated by
it; what those do is `ContextStops`, `OutputGating` and `ClockOutputs`. -/
def Obligations.StopInForce : Prop :=
  ∀ (s : State) (t : Nat), s.Powered → s.Settled →
    (s.stopSrc ≠ 0 → s.stopOn = false → s.dev ≠ .booting → (∀ c ∈ s.runningCtxs, s.stopEn c = false) →
      (∀ n, n < 32 → s.rbit (sTout n) 0x014 11 = false) → (∀ n, n < 16 → s.rbit (sCko n) 0x014 9 = false) →
      let held : State := { s.advance t with stopOn := true, admStop := s.adm.isSome }
      exec (.stopOn t) s = .next (if s.dev = .running then held.enter .stopped else held)) ∧
    (s.stopSrc = 0 ∨ s.dev = .booting → exec (.stopOn t) s = .next (s.advance t)) ∧
    (s.stopSrc = 0 → s.stopOn = true → (∀ n, n < 32 → (s.tout n).gatedStop = false) → (∀ n, n < 16 → (s.cko n).gatedStop = false) →
      (∀ e ∈ s.dma, e.2.irqHeld = false) → s.boot.starts = [] →
      exec (.stopOff t) s = .next (if s.dev = .stopped then ({ s.advance t with stopOn := false } : State).enter .running
        else { s.advance t with stopOn := false })) ∧
    (s.stopSrc ≠ 0 → exec (.stopOff t) s = .next (s.advance t))

/-- The management SPI: STATUS answers one byte with the state and STOP_SRC in every state; READ answers the status byte 1
and four bytes, most significant first, and 0xFF where the read is not ready, in BOOTING, in a page reset, while a write to
the page waits behind a barrier, or from GLB.BARRIER during one; WRITE is a host write on the SPI path; a transaction cut
short sets SPI_BAD. -/
def Obligations.ManagementSpi : Prop :=
  ∀ (s : State) (t : Nat) (a : BitVec 24) (v : Word), s.Powered →
    exec (.spiStatus t true) s = .next ((s.advance t).emit (.spiBytes [BitVec.ofNat 8 (devCode s.dev + s.stopSrc * 8)])) ∧
    exec (.spiStatus t false) s = .next ((s.advance t).evt sGlb 8) ∧ exec (.spiRead t a false true) s = .next ((s.advance t).evt sGlb 8) ∧
    exec (.spiWrite t a v false) s = .next ((s.advance t).evt sGlb 8) ∧
    exec (.spiWrite t a v true) s = exec (.registerWrite t .spi a.toNat true v) s ∧
    exec (.spiRead t a true false) s = .next ((s.advance t).emit (.spiBytes [0xFF])) ∧
    (s.dev = .booting ∨ s.portHolds (.read .spi a.toNat) = true ∨ s.readWaits (a.toNat / 0x400) = true ∨
        (s.barrierOn = true ∧ a.toNat = ra sGlb 0x02C) →
      exec (.spiRead t a true true) s = .next ((s.advance t).emit (.spiBytes [0xFF]))) ∧
    (s.dev ≠ .booting → s.portHolds (.read .spi a.toNat) = false → s.readWaits (a.toNat / 0x400) = false →
      ¬(s.barrierOn = true ∧ a.toNat = ra sGlb 0x02C) → a.toNat % 4 = 0 → Answers (.spiRead t a true true) s fun s' =>
      let x := ((s.advance t).readNow .spi a.toNat).1
      s'.out = .spiBytes [1, x.extractLsb' 24 8, x.extractLsb' 16 8, x.extractLsb' 8 8, x.extractLsb' 0 8] :: s.out)

/-! ### DMA -/

/-- TAIL_WRITE: a tail that is an index of the ring and does not pass HEAD is kept, whether or not the channel is enabled;
any other is ignored with BAD_TAIL. A producer's message joins the end of its channel's queue; a good descriptor becomes the
buffer being filled and HEAD passes it; a failed fetch, or a bad descriptor, on a channel with no buffer in progress halts
it with ERROR, and no byte is written. BUFFER_COMPLETE where the message ends in the buffer: the rest of its bytes go to the
buffer's address, then one completion with LAST, FIRST if it is the message's first, END 0 and the message's KIND and MSEQ;
the message leaves the queue, MSEQ and MSGS advance; with no IRQ_TIME and STOP not in force the channel's vector goes out.
Here the message is a measurement record. DMA_DISABLE_DONE ends a cleared ENABLE once no message is in progress; until then
it waits. IRQ_TIME_EXPIRE sends the vector message that was held, if IRQ_TIME has passed since the last and STOP does not
halt the channel. -/
def Obligations.DmaChannels : Prop :=
  (∀ (s : State) (t : Nat) (ch : Fin 64), s.Powered → s.inReset (sDma ch) = false →
     let size := 2 ^ s.ringExp ch
     let d := s.dmaCh ch
     (∀ v : Word, s.dev ≠ .booting → s.barrierOn = false → s.portHolds (.tail ch v) = false → v.toNat < 2 ^ 16 → d.head < size → d.tail < size →
       (v.toNat < size ∧ (d.tail + size - d.head) % size ≤ (v.toNat + size - d.head) % size →
         exec (.tailWrite t ch v) s = .next ((s.advance t).setDma ch { d with tail := v.toNat })) ∧
       (size ≤ v.toNat ∨ (v.toNat + size - d.head) % size < (d.tail + size - d.head) % size →
         exec (.tailWrite t ch v) s = .next ((s.advance t).evt (sDma ch) 2))) ∧
     (d.cur = none → d.next = none →
       (∀ m r, d.handed = m :: r → d.queue ≠ [] →
         exec (.dmaMessageQueued t ch) s = .next ((s.advance t).setDma ch { d with handed := r, queue := d.queue ++ [m] })) ∧
       (∀ m r, d.handed = m :: r → d.queue = [] → 0 < s.posted ch →
         exec (.dmaMessageQueued t ch) s = .next ((s.advance t).setDma ch { d with handed := r, queue := [m] })) ∧
       (d.queue ≠ [] → 0 < s.posted ch → s.dmaHalted ch = false → s.pageOn (sDma ch) = true →
         (∀ a l, a.toNat % 64 = 0 → l.toNat ≠ 0 → l.toNat % 64 = 0 → l.toNat ≤ 16_777_216 →
           Answers (.descriptorFetch t ch (.descriptor a l)) s fun s' =>
             s'.dmaCh ch = { d with cur := some ⟨d.head, a.toNat, l.toNat⟩, next := none, head := (d.head + 1) % 2 ^ s.ringExp ch,
                                    sent := some (d.sent.getD 0) } ∧
             s' = { s.advance t with dma := s'.dma }) ∧
         (∀ f, (f = .failed ∨ ∃ a l, f = .descriptor a l ∧ (a.toNat % 64 ≠ 0 ∨ l.toNat = 0 ∨ l.toNat % 64 ≠ 0 ∨ 16_777_216 < l.toNat)) →
           exec (.descriptorFetch t ch f) s =
             .next ((((s.advance t).setDma ch { d with error := true }).evt (sDma ch) 1).bbrFault (sDma ch) ch 1))))) ∧
  (∀ (s : State) (t : Nat) (ch : Fin 64) (m : Msg) (q : List Msg) (x : Desc) (slot owner sent : Nat), s.Powered → s.Settled →
     let d := s.dmaCh ch
     (s.dmaHalted ch = false → s.stopOn = false → d.queue = m :: q → d.cur = some x → d.next = none → d.sent = some sent → m.src = .meas slot owner → m.more = false →
     m.body.length - sent ≤ x.len → s.reg (ra (sDma ch) 0x020) = 0 → s.msixWord (16 * ch + 12) = 0 → q = [] →
     (∀ e, d.irqAt = some e → e ≤ max s.now t) →
     Answers (.bufferComplete t ch) s fun s' =>
       s'.out = .msix ch :: .completion ch x.idx (m.body.length - sent) ((if sent = 0 then 1 else 0) + 2 + 256 * m.kind) d.mseq ::
         .hostData ch x.addr (m.body.drop sent) :: s.out ∧
       (s'.dmaCh ch).queue = [] ∧ (s'.dmaCh ch).sent = none ∧ (s'.dmaCh ch).cur = none ∧
       (s'.dmaCh ch).mseq = (d.mseq + 1) % 2 ^ 32 ∧ (s'.dmaCh ch).head = d.head ∧ (s'.dmaCh ch).tail = d.tail ∧
       s'.reg64 (sDma ch) 0x038 = min (s.reg64 (sDma ch) 0x038 + 1) (2 ^ 64 - 1) ∧
       s'.reg64 (sDma ch) 0x030 = min (s.reg64 (sDma ch) 0x030 + (m.body.length - sent)) (2 ^ 64 - 1) ∧
       (∀ n, n ≠ ch.val → s'.dmaCh n = s.dmaCh n) ∧
       s' = { s.advance t with dma := s'.dma, regs := s'.regs, out := s'.out }) ∧
     (d.draining = true → d.sent = none →
       exec (.dmaDisableDone t ch) s = .next ((s.advance t).setDma ch { d with draining := false, cur := none, next := none })) ∧
     (d.sent ≠ none → exec (.dmaDisableDone t ch) s = .next (s.advance t)) ∧
     (d.irqHeld = true → s.stopOn = false → (∀ e, d.irqAt = some e → e + (s.reg (ra (sDma ch) 0x020)).toNat * 2000 ≤ max s.now t) →
       s.msixWord (16 * ch + 12) = 0 →
       exec (.irqTimeExpire t ch) s = .next (((s.advance t).setDma ch
         { d with irqHeld := false, irqAt := some (max s.now t), done := 0 }).emit (.msix ch))) ∧
     (d.irqHeld = false → exec (.irqTimeExpire t ch) s = .next (s.advance t)))

/-! ### Reset and boot (19_startup_power_and_black_box.md) -/

/-- While PORST_N is low only its release has an effect: any other command passes time and nothing else (R366; what a
command sent in reset does is the model's reading, log entry 4). PORST_N low resets the whole device: everything but NVM
with its black-box record, what has left the block, the queue and the count of open values is at its reset value; with no
NVM operation under way NVM is as it was; outputs that were high go to idle. Its release starts the ROM at edge 0, counts in
BOOTS, and shows the mode in SEC.MODE; a second one has no effect. PCIE_PERST resets the host port and the 64 DMA channels,
each as a DMA page RESET does; contexts, the time base, lanes and NVM stand, and every table but the interrupt routing
table, which the host port holds (the model's reading, log entry 17). In BOOTING nothing happens. Here no channel has a
message. -/
def Obligations.Resets : Prop :=
  (∀ (c : Instr) (s : State), s.porst = true → s.flagsOk → (∀ t b, c ≠ .porstRelease t b) →
     ∃ n, s.now ≤ n ∧ exec c s = .next { s with now := n }) ∧
  (∀ (s : State) (t : Nat) (strap : Bool),
     (s.porst = false → Answers (.porstAssert t) s fun s' =>
       s' = { State.reset with
         pending := s.pending, nvm := s'.nvm, bbr := { slots := s'.bbr.slots }, out := s'.out, freeCtr := s'.freeCtr } ∧
       (s.svc.busy = false → s.cal.storing = none → s'.nvm = s.nvm) ∧
       (s.bbr.clearing = false → s.bbr.erasing = none → s.bbr.queue = [] → s'.bbr.slots = s.bbr.slots) ∧
       (s.sol.syncOut = false → (∀ e ∈ s.touts, e.2.high = false) → s'.out = s.out) ∧
       (∀ n, (n, s.tout n) ∈ s.touts → (s.tout n).high = true → .toutBall n false (max s.now t) 0 ∈ s'.out)) ∧
     (s.porst = true → s.resetHeld → Answers (.porstRelease t strap) s fun s' =>
       s'.porst = false ∧ s'.now = 0 ∧ s'.dev = .booting ∧ s'.nvm = { s.nvm with boots := min (s.nvm.boots + 1) (2 ^ 32 - 1) } ∧
       s'.reg (ra sSec 0x014) = BitVec.ofNat 32
         ((if strap = true ∨ s.nvm.fuse = true then 1 else 0) + (if s.nvm.fuse then 2 else 0) + if strap then 4 else 0) ∧
       (∀ a, a ≠ ra sSec 0x014 → a ≠ ra sSeq 0x014 → s'.reg a = regReset a) ∧
       s'.epoch = 0 ∧ s'.pending = s.pending) ∧
     (s.porst = false → exec (.porstRelease t strap) s = .next (s.advance t))) ∧
  (∀ (s : State) (t : Nat), s.Powered →
     (s.dev = .booting → exec (.pciePerst t) s = .next (s.advance t)) ∧
     (s.dev ≠ .booting → s.dma = [] → s.resetting = [] → s.Settled → Answers (.pciePerst t) s fun s' =>
       (∀ n, n < 64 → s'.inReset (sDma n) = true ∧ s'.pageOn (sDma n) = false ∧ (s'.dmaCh n).head = 0 ∧ (s'.dmaCh n).tail = 0) ∧
       s'.msixTable = [] ∧ s'.pba = [] ∧ s'.ctxs = s.ctxs ∧ s'.loop = s.loop ∧ s'.lanes = s.lanes ∧ s'.nvm = s.nvm ∧
       (∀ off, s'.tabw off = if isRouting off then 0 else s.tabw off) ∧
       s'.dev = s.dev ∧ s'.stopSrc = s.stopSrc ∧ s'.touts = s.touts ∧ s'.stampers = s.stampers))

/-- Boot, stage by stage. FIRMWARE_LOADED runs the valid copy with the higher FSEQ and shows it with both failure codes;
with none the recovery firmware runs and every commit is BUSY. PATCH_CHECK notes an empty area, and takes no part of an
image that fails. HBM_TRAINED and BBR_SCAN note their ends, an empty record starting at slot 0 with SEQ 0. AWAITING_REACHED
enters AWAITING once all are done, with the time taken and a POWER_ON entry; before that it does nothing. -/
def Obligations.BootStages : Prop :=
  ∀ (s : State) (t : Nat), s.Powered → s.dev = .booting →
    (s.boot.fwLoaded = false → Answers (.firmwareLoaded t) s fun s' =>
      let a := s.fwFail 0
      let b := s.fwFail 1
      let run := s'.rfld sSec 0x020 0 2
      (a = 0 → b ≠ 0 → run = 0) ∧ (a ≠ 0 → b = 0 → run = 1) ∧
      (a = 0 → b = 0 → run = if seqAbove (s.fwSeq 1) (s.fwSeq 0) then 1 else 0) ∧
      (a ≠ 0 → b ≠ 0 → run = 2 ∧ s'.boot.recovery = true ∧ s'.commit.busy = true ∧ s'.reg (ra sSec 0x024) = 0) ∧
      (run < 2 → s'.boot.recovery = false ∧ s'.commit = s.commit ∧ s'.reg (ra sSec 0x024) = BitVec.ofNat 32 (s.fwVersion run)) ∧
      s'.rfld sSec 0x020 2 3 = a ∧ s'.rfld sSec 0x020 5 3 = b ∧ s'.boot.fwLoaded = true ∧
      s' = { s.advance t with boot := s'.boot, regs := s'.regs, commit := s'.commit, freeCtr := s'.freeCtr }) ∧
    (s.boot.calLoaded = true → s.boot.patched = false → 2 ∉ s.nvm.torn →
      (s.nvEmpty 2 = true → exec (.patchCheck t) s = .next
        (({ s.advance t with boot := { s.boot with patched := true }, freeCtr := s.freeCtr + 1 } : State).setRegN sSec 0x01C 16)) ∧
      (s.nvEmpty 2 = false → s.patchFail s.boot.sealed ≠ 0 → Answers (.patchCheck t) s fun s' =>
        s'.reg (ra sSec 0x01C) = BitVec.ofNat 32 (1 + 2 * s.patchFail s.boot.sealed) ∧ s'.ovMicro = s.ovMicro ∧
        s'.ovNano = s.ovNano ∧ s'.reg (ra sSec 0x018) = s.reg (ra sSec 0x018) ∧ s'.boot.patched = true)) ∧
    exec (.hbmTrained t) s = .next { s.advance t with boot := { s.boot with hbm := true } } ∧
    (s.bbr.scanned = false → s.bbr.slots = [] → exec (.bbrScan t) s = .next { s.advance t with
      bbr := { s.bbr with scanned := true, head := 0, seq := 0, erasing := none, oldest := 0, newest := 0 } }) ∧
    (s.bootDone = false → exec (.awaitingReached t) s = .next (s.advance t)) ∧
    (s.bootDone = true → s.boot.recovery = true → s.bbr.queue = [] → s.bbr.drops = 0 → Answers (.awaitingReached t) s fun s' =>
      s'.dev = .awaiting ∧ s'.rfld sSec 0x020 16 16 = max s.now t / 2_000_000 % 2 ^ 16 ∧
      bit (s'.reg (ra sGlb 0x008)) 3 = true ∧ (s'.bbr.queue.map (·.code)) = [1] ∧ s'.boot = s.boot ∧ s'.commit = s.commit)

/-! ### Service, the black-box record and the monitor -/

/-- A service command is taken outside BOOTING while none runs, reads BUSY until SVC_DONE, and then shows its result: FUSE
blows SEAL only with its key; UPD_BEGIN erases exactly the region it names; UPD_CHUNK programs exactly the bytes that the
service buffer names, clearing bits only, and refuses a length above 4,088 or an end beyond the region; UPD_CHUNK and
UPD_FINISH without UPD_BEGIN before are in the wrong state; SERVICE changes NONCE. -/
def Obligations.ServiceCommands : Prop :=
  ∀ (s : State) (t : Nat) (p : Path), s.Powered → s.Reaches (ra sSec 0x038) →
    let u := s.advance t
    let taken (x : State) (op result : Nat) : State :=
      { x with svc := { x.svc with busy := true, op := op, result := 0, pendingResult := result } }
    (s.svc.busy = true → exec (.updChunk t p) s = .next u ∧ exec (.updFinish t p) s = .next u ∧ exec (.service t p) s = .next u ∧
      (∀ k, exec (.fuse t p k) s = .next u) ∧ ∀ k, exec (.updBegin t p k) s = .next u) ∧
    (s.svc.busy = false →
      exec (.fuse t p 0x5EA1) s = .next (taken (({ u with nvm := { s.nvm with fuse := true } } : State).setRfld sSec 0x014 1 1 1) 1 1) ∧
      (∀ k, k ≠ 0x5EA1 → exec (.fuse t p k) s = .next (taken u 1 3)) ∧
      exec (.updBegin t p 3) s = .next (taken u 2 3) ∧
      (∀ k, k ≠ 3 → Answers (.updBegin t p k) s fun s' =>
        let r := nvRegion (s.svcRegion k.toNat)
        s'.svc.target = some (s.svcRegion k.toNat) ∧ s'.svc.busy = true ∧ s'.svc.pendingResult = 1 ∧
        (∀ a, s'.nvByte a = if r.1 ≤ a ∧ a < r.1 + r.2 then 0xFF else s.nvByte a) ∧
        s' = { u with svc := s'.svc, nvm := s'.nvm }) ∧
      (s.svc.target = none → exec (.updChunk t p) s = .next (taken u 3 2) ∧ exec (.updFinish t p) s = .next (taken u 4 2)) ∧
      (∀ r, s.svc.target = some r →
        let start := (nvRegion r).1 + ofLeBytes (s.svcBuffer.take 4)
        let len := ofLeBytes ((s.svcBuffer.drop 4).take 4)
        let fin := (nvRegion r).1 + (nvRegion r).2
        (4088 < len ∨ fin < start + len → exec (.updChunk t p) s = .next (taken u 3 3)) ∧
        (len ≤ 4088 → start + len ≤ fin → Answers (.updChunk t p) s fun s' =>
          (∀ a, s'.nvByte a =
            if start ≤ a ∧ a < start + len then s.nvByte a &&& s.svcBuffer.getD (8 + (a - start)) 0 else s.nvByte a) ∧
          s' = taken { u with nvm := { s.nvm with bytes := s'.nvm.bytes } } 3 1) ∧
        exec (.updFinish t p) s = .next (taken u 4 (s.updCheck r))) ∧
      Answers (.service t p) s fun s' => s'.svc.busy = true ∧ s'.nvm = { s.nvm with nonceN := s.nvm.nonceN + 1 } ∧
        s'.reg (ra sSec 0x034) = Config.nonce (s.nvm.nonceN + 1) ∧ s'.bbr.slots = s.bbr.slots) ∧
    (s.svc.busy = true → s.svc.op ≠ 5 → ∀ nvmError, Answers (.svcDone t nvmError) s fun s' =>
      let res := if nvmError then 6 else s.svc.pendingResult
      s'.svc = { s.svc with busy := false, result := res } ∧ bit (s'.reg (ra sSec 0x008)) 0 = true ∧
      (2 ≤ res → bit (s'.reg (ra sSec 0x008)) 1 = true) ∧ Side { u with svc := s'.svc, nvm := s'.nvm } s' ∧
      (nvmError = false → s'.nvm = s.nvm)) ∧
    (s.svc.busy = false → ∀ nvmError, exec (.svcDone t nvmError) s = .next u)

/-- The record: an entry's bytes pass R376; BBR_ENTRY_PROGRAMMED writes the first queued entry to the erased slot at the
head with the next SEQ, counts it and sets ENTRY, starts the erase of the next sector where it enters one, and so makes room
for the DROPPED entry with the count of drops; a slot that is not erased is skipped as torn; BBR_SECTOR_ERASED erases exactly its sector; a dump of a disabled channel, or during
another, is refused with DUMP_REF; ENT_00 of an erased slot reads ones and shows ERASED. -/
def Obligations.BlackBoxRecord : Prop :=
  (∀ (seq boots : Nat) (e : BEntry), (entryBytes seq boots e).length = 64 ∧ entryOk (entryBytes seq boots e) = true) ∧
  ∀ (s : State) (t : Nat), s.Powered →
    (∀ e r, s.bbr.queue = e :: r → s.bbrReady = true → Sparse.find s.bbr.slots s.bbr.head = none →
      Answers (.bbrEntryProgrammed t) s fun s' =>
        Sparse.find s'.bbr.slots s.bbr.head = some ⟨entryBytes s.bbr.seq s.nvm.boots e, .intact⟩ ∧
        (∀ k, k ≠ s.bbr.head → Sparse.find s'.bbr.slots k = Sparse.find s.bbr.slots k) ∧
        (s.bbr.drops = 0 → s'.bbr.queue = r) ∧
        (0 < s.bbr.drops → r.length < 256 → s'.bbr.drops = 0 ∧
          ∃ x, s'.bbr.queue = r ++ [x] ∧ x.code = 18 ∧ x.data = [BitVec.ofNat 32 s.bbr.drops]) ∧
        s'.bbr.seq = (s.bbr.seq + 1) % 2 ^ 32 ∧ s'.bbr.newest = s.bbr.seq ∧
        s'.bbr.head = (s.bbr.head + 1) % 524_288 ∧
        s'.bbr.erasing = (if s.bbr.head % 1_024 = 0 then some ((s.bbr.head / 1_024 + 1) % 512) else s.bbr.erasing) ∧
        s'.reg64 sBbr 0x078 = min (s.reg64 sBbr 0x078 + 1) (2 ^ 64 - 1) ∧ bit (s'.reg (ra sBbr 0x008)) 0 = true ∧
        Side { s.advance t with bbr := s'.bbr } s') ∧
    (∀ e r x, s.bbr.queue = e :: r → s.bbrReady = true → Sparse.find s.bbr.slots s.bbr.head = some x →
      Answers (.bbrEntryProgrammed t) s fun s' =>
        s'.bbr.slots = s.bbr.slots ∧ s'.bbr.queue = s.bbr.queue ∧ s'.bbr.head = (s.bbr.head + 1) % 524_288 ∧
        bit (s'.reg (ra sBbr 0x008)) 4 = true) ∧
    (∀ j, s.bbr.erasing = some j → (∀ e ∈ s.bbr.slots, e.1 / 1_024 ≠ j) →
      exec (.bbrSectorErased t) s = .next { s.advance t with bbr := { s.bbr with erasing := none } }) ∧
    (∀ j, s.bbr.erasing = some j → s.dma = [] → Answers (.bbrSectorErased t) s fun s' =>
      s'.bbr.slots = s.bbr.slots.filter (fun e => decide (e.1 / 1_024 ≠ j)) ∧ s'.bbr.erasing = none ∧ s'.bbr.queue = s.bbr.queue) ∧
    (s.Reaches (ra sBbr 0x06C) → ∀ (p : Path) (ch : Fin 64),
      (s.bbr.dumping = true ∨ s.pageOn (sDma ch) = false → exec (.bbrDump t p ch) s = .next ((s.advance t).evt sBbr 5)) ∧
      (s.bbr.dumping = false → s.pageOn (sDma ch) = true → s.bbr.slots = [] → exec (.bbrDump t p ch) s = .next
        (({ s.advance t with bbr := { s.bbr with dumping := true } } : State).hand ch { kind := 4, body := [], src := .dump })) ∧
      (Sparse.find s.bbr.slots (s.reg (ra sBbr 0x024)).toNat = none → Answers (.bbrEntRead t p) s fun s' =>
        s'.out = .reply p 0xFFFF_FFFF :: s.out ∧ s'.bbr.selStat = 2 ∧ s'.bbr.slots = s.bbr.slots))

/-- MON_SAMPLE shows eleven rails and five temperatures, sets HOT for a die that rises above TEMP_WARN and COOL when every
die has fallen 2.0 degrees below it, and changes nothing else; the device acts on none of it. -/
def Obligations.MonitorSamples : Prop :=
  ∀ (s : State) (t : Nat) (mv temps : List (BitVec 16)), s.Powered → mv.length = 11 → temps.length = 5 →
    let warn := signed 16 (s.reg (ra sMon 0x054)).toNat
    Answers (.monSample t mv temps) s fun s' =>
      (∀ k w, mv[k]? = some w → s'.reg (ra sMon (0x014 + 4 * k)) = w.setWidth 32) ∧
      (∀ k w, temps[k]? = some w → s'.reg (ra sMon (0x040 + 4 * k)) = w.setWidth 32) ∧
      (∀ k w, k < 3 → temps[k]? = some w → warn < signed 16 w.toNat → k ∉ s.mon.above → bit (s'.reg (ra sMon 0x008)) 0 = true) ∧
      (s.mon.hot = true → (∀ k w, k < 3 → temps[k]? = some w → signed 16 w.toNat ≤ warn - 20) →
        bit (s'.reg (ra sMon 0x008)) 1 = true) ∧
      Side { s.advance t with mon := s'.mon } s'

/-! ### Calibration (16_calibration.md) -/

/-- What asks for a run. A full run waits, or is pending behind the run in progress, and at most one is pending; a channel
that a full run will reach is merged, another waits or queues, up to eight, and a ninth is lost with REQ_LOST; a channel
above 101 is ignored. A temperature more than TRIG_DELTA from TEMP_BASE asks for a full run; one within it only shows in
TEMP_NOW. A waiting run starts once PLL_T is locked, a full one on all 102 channels with TEMP_BASE taken. -/
def Obligations.CalibrationRequests : Prop :=
  ∀ (s : State) (t : Nat) (p : Path) (store : Bool), s.Powered → s.Reaches (ra sCal 0x018) → s.served sCal = true →
    let u := s.advance t
    let c := s.cal
    (c.pendingFull = none → c.waiting = none → c.run = none →
      exec (.calFullRun t p store) s = .next { u with cal := { c with waiting := some (none, store) } }) ∧
    (c.pendingFull = none → c.waiting = none → c.run ≠ none →
      exec (.calFullRun t p store) s = .next { u with cal := { c with pendingFull := some store } }) ∧
    (∀ st, c.pendingFull = some st →
      exec (.calFullRun t p store) s = .next { u with cal := { c with pendingFull := some (st || store) } }) ∧
    (∀ ch : BitVec 7, 102 ≤ ch.toNat → exec (.calChannelRun t p ch store) s = .next u) ∧
    (∀ ch : BitVec 7, ch.toNat < 102 → c.reaches ch.toNat = true → exec (.calChannelRun t p ch false) s = .next u) ∧
    (∀ ch : BitVec 7, ch.toNat < 102 → c.reaches ch.toNat = false →
      (c.run = none → c.waiting = none →
        exec (.calChannelRun t p ch store) s = .next { u with cal := { c with waiting := some (some ch.toNat, store) } }) ∧
      (c.run ≠ none → c.reqs.length < 8 →
        exec (.calChannelRun t p ch store) s = .next { u with cal := { c with reqs := c.reqs ++ [(ch.toNat, store)] } }) ∧
      (c.run ≠ none → 8 ≤ c.reqs.length → exec (.calChannelRun t p ch store) s = .next (u.evt sCal 6))) ∧
    (∀ temp : BitVec 16,
      let shown := u.setReg (ra sCal 0x024) (temp.setWidth 32)
      let delta := s.rfld sCal 0x014 0 8
      let moved := (signed 16 temp.toNat - signed 16 (s.reg (ra sCal 0x020)).toNat).natAbs
      (delta = 0 ∨ moved ≤ delta → exec (.tempSample t temp) s = .next shown) ∧
      (delta ≠ 0 → delta < moved → exec (.tempSample t temp) s = .next ((shown.evt sCal 1).calFull false))) ∧
    (c.run = none → s.loop.lockT = true →
      (∀ st, c.waiting = some (none, st) → Answers (.calRunStart t) s fun s' =>
        s'.cal.run = some (none, st) ∧ s'.cal.waiting = none ∧ s'.cal.todo = List.range 102 ∧
        s'.reg (ra sCal 0x020) = s.reg (ra sCal 0x024) ∧ s' = { u with cal := s'.cal, regs := s'.regs }) ∧
      (∀ ch st, c.waiting = some (some ch, st) → exec (.calRunStart t) s = .next { u with cal := { c with
        run := some (some ch, st), waiting := none, chans := [], passed := 0, failed := 0, changed := false, todo := [ch] } })) ∧
    (s.loop.lockT = false → exec (.calRunStart t) s = .next u)

/-- The steps of a channel. Channels start in ascending order, at most eight at a time, and Frost begins. A step that ends
too early does nothing. A result outside a limit of R318 ends the run failed with the old selection in force; a cell result
within them goes into the out-of-service interpolator; a comparator pair worse than the one in service is not taken; a delay
waits for the next swap and a tap bank for its switch, which takes all three values together, also for what is placed and
not yet launched. CAL_CHANNEL_END notes the result and ends Frost. -/
def Obligations.CalibrationSteps : Prop :=
  ∀ (s : State) (t : Nat) (ch : Fin 102) (k : CalCh), s.Powered →
    let u := s.advance t
    let x := s.stamper ch
    let failed (step : Nat) (s' : State) : Prop :=
      s'.calCh ch = some { k with stepAt := none, suspended := 0, failed := true, failStep := step, endAt := some (max s.now t) } ∧
      s'.stampers = s.stampers ∧ s'.touts = s.touts ∧ s'.regs = s.regs
    (∀ r, s.cal.run ≠ none → s.cal.todo = ch.val :: r → s.cal.chans.length < 8 → Answers (.calChannelStart t ch) s fun s' =>
      s'.cal.todo = r ∧ (s'.stamper ch).calRun = true ∧ (s'.calCh ch).isSome = true ∧ s'.regs = s.regs ∧ s'.nvm = s.nvm) ∧
    (8 ≤ s.cal.chans.length → exec (.calChannelStart t ch) s = .next u) ∧
    (∀ e, s.calCh ch = some k → k.stepAt = some e →
      (∀ r, k.step = 0 → max s.now t < e + 200_000 → exec (.calCellStep t ch r) s = .next u) ∧
      (∀ r, k.step = 0 → e + 200_000 ≤ max s.now t →
        (cellOk r = false → Answers (.calCellStep t ch r) s (failed 0)) ∧
        (cellOk r = true → Answers (.calCellStep t ch r) s fun s' =>
          s'.stamper ch = x.setInterp x.oos { x.interp x.oos with cell := r.sel } ∧ s'.touts = s.touts ∧ s'.regs = s.regs)) ∧
      (∀ r, k.step = 1 → e + 200_000 ≤ max s.now t →
        (3000 < r.offsetUv → Answers (.calComparatorStep t ch r) s (failed 1)) ∧
        (r.offsetUv ≤ 3000 → Answers (.calComparatorStep t ch r) s fun s' =>
          (s'.calCh ch).map (·.pair) = some (if r.serviceUv < r.offsetUv then x.pair else r.pair) ∧
          (s'.calCh ch).map (·.step) = some 2 ∧ s'.stampers = s.stampers ∧ s'.regs = s.regs)) ∧
      (∀ d1 d2 : Int, k.step = 2 → e + 100_000 ≤ max s.now t →
        (8 < (d1 - d2).natAbs → Answers (.calPinStep t ch d1 d2) s (failed 2)) ∧
        (s.cal.noCopy = false → 80 < (d1 - x.dPin).natAbs → d1 = d2 → Answers (.calPinStep t ch d1 d2) s (failed 2)) ∧
        (d1 = d2 → (s.cal.noCopy = true ∨ (d1 - x.dPin).natAbs ≤ 80) → Answers (.calPinStep t ch d1 d2) s fun s' =>
          (s'.stamper ch).dPinNext = some (d1, k.pair) ∧ (s'.stamper ch).dPin = x.dPin ∧ (s'.stamper ch).pair = x.pair ∧
          s'.regs = s.regs)) ∧
      (∀ r, k.step = 3 → 64 ≤ ch.val → e + 300_000 ≤ max s.now t →
        let o := s.tout (ch.val - 64)
        ((r.g16 < 15938 ∨ 17616 < r.g16 ∨ r.monotonic = false ∨ 500 < r.dnlMilli) → Answers (.calTapStep t ch r) s (failed 3)) ∧
        (15938 ≤ r.g16 → r.g16 ≤ 17616 → r.monotonic = true → r.dnlMilli ≤ 500 → r.dOut1 = r.dOut2 →
          (s.cal.noCopy = true ∨ (r.dOut1 - o.dOut).natAbs ≤ 80) → Answers (.calTapStep t ch r) s fun s' =>
          s'.tout (ch.val - 64) = { o with tapNext := some (r.taps, r.g16, r.dOut1, max s.now t) } ∧ s'.stampers = s.stampers))) ∧
    (∀ taps g d e, 64 ≤ ch.val → s.calCh ch = some k → (s.tout (ch.val - 64)).tapNext = some (taps, g, d, e) →
      let o := s.tout (ch.val - 64)
      (max s.now t ≤ e + 2 ^ 20 → u.bankFree (ch.val - 64) = true → Answers (.tapBankSwitch t ch) s fun s' =>
        s'.tout (ch.val - 64) = { o with
          taps := taps, g16 := g, dOut := d, bank := 1 - o.bank, tapNext := none, switched := some (max s.now t)
          flight := o.flight.map fun x => x.relaunch (max s.now t) d g } ∧
        (x.dPinNext = none → (s'.calCh ch).map (·.endAt) = some (some (max s.now t + 8))) ∧ s'.stampers = s.stampers) ∧
      (e + 2 ^ 20 < max s.now t → Answers (.tapSwitchTimeout t ch) s fun s' =>
        s'.tout (ch.val - 64) = { o with tapNext := none } ∧ (s'.calCh ch).map (·.failed) = some true ∧ s'.stampers = s.stampers) ∧
      (max s.now t ≤ e + 2 ^ 20 → exec (.tapSwitchTimeout t ch) s = .next u)) ∧
    (∀ e, s.calCh ch = some k → k.endAt = some e →
      (max s.now t < e → exec (.calChannelEnd t ch) s = .next u) ∧
      (e ≤ max s.now t → (∃ st, s.cal.run = some (none, st)) → Answers (.calChannelEnd t ch) s fun s' =>
        s'.calCh ch = none ∧ (s'.stamper ch).calRun = false ∧ bit (s'.reg (ra sCal (0x028 + 4 * (ch.val / 32)))) (ch.val % 32) = k.failed ∧
        (k.failed = true → s'.reg64 sCal 0x044 = min (s.reg64 sCal 0x044 + 1) (2 ^ 64 - 1) ∧ bit (s'.reg (ra sCal 0x008)) 2 = true) ∧
        s'.cal.passed = s.cal.passed + (if k.failed then 0 else 1) ∧ s'.cal.failed = s.cal.failed + (if k.failed then 1 else 0) ∧
        s'.nvm = s.nvm))

/-- Copies. A sector holds a copy as the bytes that a read of it gives back (its body's format is the model's choice, log
entry 58). A store erases the sector that does not hold the copy in force and writes CSEQ + 1; a good read-back makes it the
copy in force, with STORED, a bad one sets STORE_FAIL and leaves the other; a deferred store waits for its time. A full
run's end counts in RUNS and sets RUN_DONE. Boot takes the copy with the higher CSEQ, and with none sets NO_COPY and asks
for a full run. -/
def Obligations.CalibrationCopies : Prop :=
  (∀ k : CalCopy, k.cseq < 2 ^ 32 → k.sel.length ≤ 102 →
    (∀ e ∈ k.sel, e.1 < 102 ∧ e.2.length = 9 ∧ ∀ v ∈ e.2, -2 ^ 31 ≤ v ∧ v < 2 ^ 31) → calRead (calBytes k) = some k) ∧
  calRead [] = none ∧
  ∀ (s : State) (t : Nat), s.Powered →
    let u := s.advance t
    let next := ((s.reg (ra sCal 0x038)).toNat + 1) % 2 ^ 32
    let stores (s' : State) : Prop :=
      s'.cal.storing = some (!s.cal.copyB && (calRead s.nvm.calA).isSome, ⟨next, s.calInForce⟩) ∧ s'.cal.deferred = false ∧
      (s.cal.copyB = false → calRead s.nvm.calA ≠ none → s'.nvm = { s.nvm with calB := [] }) ∧
      (s.cal.copyB = true ∨ calRead s.nvm.calA = none → s'.nvm = { s.nvm with calA := [] }) ∧ s' = { u with cal := s'.cal, nvm := s'.nvm }
    (s.cal.storing = none →
      (∀ p, s.Reaches (ra sCal 0x018) → s.served sCal = true → Answers (.calStore t p) s stores) ∧
      (s.cal.deferred = true → u.storeGapOver = true → Answers (.calStoreDeferExpire t) s stores)) ∧
    (s.cal.deferred = false → exec (.calStoreDeferExpire t) s = .next u) ∧
    (u.storeGapOver = false → exec (.calStoreDeferExpire t) s = .next u) ∧
    (∀ b k, s.cal.storing = some (b, k) → s.cal.again = false →
      (Answers (.calStoreDone t true) s fun s' =>
        s'.nvm = (if b then { s.nvm with calB := calBytes k } else { s.nvm with calA := calBytes k }) ∧ s'.cal.copyB = b ∧
        s'.cal.storing = none ∧ s'.reg (ra sCal 0x038) = BitVec.ofNat 32 k.cseq ∧ bit (s'.reg (ra sCal 0x008)) 3 = true) ∧
      (Answers (.calStoreDone t false) s fun s' =>
        s'.nvm = s.nvm ∧ s'.cal.copyB = s.cal.copyB ∧ s'.cal.storing = none ∧ s'.reg (ra sCal 0x038) = s.reg (ra sCal 0x038) ∧
        bit (s'.reg (ra sCal 0x008)) 4 = true)) ∧
    (s.cal.run = some (none, false) → s.cal.todo = [] → s.cal.chans = [] → s.cal.changed = false → Answers (.calRunDone t) s fun s' =>
      s'.reg64 sCal 0x03C = min (s.reg64 sCal 0x03C + 1) (2 ^ 64 - 1) ∧ bit (s'.reg (ra sCal 0x008)) 0 = true ∧
      s'.cal.run = none ∧ s'.nvm = s.nvm ∧ Side { u with cal := s'.cal } s') ∧
    (s.dev = .booting → s.boot.fwLoaded = true → s.boot.recovery = false → s.boot.calLoaded = false →
      (∀ a b, calRead s.nvm.calA = some a → calRead s.nvm.calB = some b → Answers (.calCopyLoad t) s fun s' =>
        s'.cal.copyB = seqAbove b.cseq a.cseq ∧
        s'.reg (ra sCal 0x038) = BitVec.ofNat 32 (if seqAbove b.cseq a.cseq then b.cseq else a.cseq) ∧ s'.boot.calLoaded = true) ∧
      (calRead s.nvm.calA = none → calRead s.nvm.calB = none → s.cal = {} → Answers (.calCopyLoad t) s fun s' =>
        s'.cal.noCopy = true ∧ s'.cal.waiting = some (none, false) ∧ bit (s'.reg (ra sCal 0x008)) 5 = true ∧
        ∀ c, c < 102 → (s'.stamper c).eqx = some ⟨max s.now t, false⟩))


/-! ### Time base and clock outputs (02_time_base.md) -/

/-- REF_EDGE. A reference whose stamper has not booted is not stamped. Every other transition is stamped as source 4192 + x
and handed to those that use it. A selected edge restarts the count of misses and enters the window; the first one due to
adopt sets the target to the phase it has. A compared edge of the active reference in TRACKING leaves its folded error and
steers the loop with the filter's word, which the spec leaves open; one that a Solstice or a change of target has made due
starts a pull. -/
def Obligations.ReferenceEdges : Prop :=
  ∀ (s : State) (t q : Nat) (x : Fin 4) (rising : Bool), s.Powered →
    let u := s.advance t
    let r := s.ref x
    let st := (u.plainStamp (96 + x) (4192 + x) t q rising 0).1
    let made := (u.plainStamp (96 + x) (4192 + x) t q rising 0).2
    let given := (if s.condUses (4192 + x) then { made with condIn := s.condIn ++ [.edge st] } else made).distribute st
    let counted : Ref := { r with
      active := true, misses := 0, lastSel := some st.phys, lastAny := some st.phys,
      okSince := if r.lastSel.isNone then max s.now t else r.okSince,
      winFirst := if r.winCount = 0 then some st.phys else r.winFirst, winLast := some st.phys, winCount := r.winCount + 1,
      skip := !r.skip }
    let error := foldT (s.loopEpoch st.phys - s.refTarget x) (s.refFreq x)
    ((s.stamper (96 + x)).booted = false → exec (.refEdge t x rising q) s = .next u) ∧
    ((s.stamper (96 + x)).booted = true → s.loop.active ≠ some x.val →
      (rising = decide (s.refCfg x 4 1 ≠ 0) → exec (.refEdge t x rising q) s = .next ((given.refOpposite x st.phys).refNote s.refStat)) ∧
      (rising = decide (s.refCfg x 4 1 = 0) → r.adoptDue = false →
        exec (.refEdge t x rising q) s = .next ((given.setRef x counted).refNote s.refStat)) ∧
      (rising = decide (s.refCfg x 4 1 = 0) → r.adoptDue = true → s.refCfg x 5 1 = 1 → 2000 * (s.solEdge : Int) ≤ st.phys →
        Answers (.refEdge t x rising q) s fun s' =>
          s'.reg64 sClk (0x084 + 8 * x) = m64 (foldT (s.loopEpoch st.phys) (s.refFreq x)) ∧
          s'.ref x = { counted with adoptDue := false } ∧ s'.loop = s.loop)) ∧
    ((s.stamper (96 + x)).booted = true → s.loop.active = some x.val → rising = decide (s.refCfg x 4 1 = 0) → s.refCfg x 0 2 = 0 →
      r.adoptDue = false →
      (s.loop.mode = .tracking → s.loop.pullDue = false → Answers (.refEdge t x rising q) s fun s' =>
        s'.loop.err = error ∧ s'.loop.steer = signed 40 (unsign 40 (Config.filterWord s.freeCtr)) ∧ s'.loop.mode = .tracking ∧
        s'.loop.active = some x.val ∧ s'.loop.pull = s.loop.pull ∧ s'.ref x = counted) ∧
      (s.loop.mode = .tracking → s.loop.pullDue = true → 2000 * (s.solEdge : Int) ≤ st.phys →
        Answers (.refEdge t x rising q) s fun s' =>
          s'.loop.mode = .pulling ∧ s'.loop.pull = some { e := error, start := max s.now t, slew := s.slew } ∧
          s'.loop.pullDue = false))

/-- Qualification. A miss of a selected edge counts; the MISS-th in succession disqualifies a qualified reference, with
MISS_FAIL, QUAL_CHG and a black-box entry. A window that fails disqualifies it with FREQ_FAIL, and the next window follows.
A reference that passes for QUAL_TIME is qualified. Before its time none of these steps does anything, and none changes more
than the reference. -/
def Obligations.ReferenceChecks : Prop :=
  ∀ (s : State) (t : Nat) (x : Fin 4), s.Powered →
    let u := s.advance t
    let r := s.ref x
    let only (s' : State) : Prop := Side { u with refs := s'.refs } s' ∧ ∀ y, y ≠ x.val → s'.ref y = s.ref y
    let logged (s' : State) : Prop := bit (s'.reg (ra sClk 0x008)) 4 = true ∧
      (s.bbr.queue.length < 256 → s.bbr.drops = 0 → ∃ e, s'.bbr.queue = s.bbr.queue ++ [e] ∧ e.code = 8)
    (u.missDue x = false → exec (.refEdgeMissing t x) s = .next u) ∧
    (u.missDue x = true → r.qualified = true →
      (r.misses + 1 < s.refCfg x 24 4 → Answers (.refEdgeMissing t x) s fun s' =>
        s'.ref x = { r with misses := r.misses + 1 } ∧ s'.regs = s.regs ∧ only s') ∧
      (s.refCfg x 24 4 ≤ r.misses + 1 → Answers (.refEdgeMissing t x) s fun s' =>
        s'.ref x = { r with
          misses := r.misses + 1, qualified := false, missFail := true, freqFail := false, okSince := max s.now t } ∧
        logged s' ∧ only s')) ∧
    (u.missDue x = true → r.qualified = false → Answers (.refEdgeMissing t x) s fun s' =>
      s'.ref x = { r with misses := r.misses + 1, okSince := max s.now t } ∧ s'.regs = s.regs ∧ only s') ∧
    (max s.now t < r.winStart + s.winLen x → exec (.refWindowEnd t x) s = .next u) ∧
    (r.winStart + s.winLen x ≤ max s.now t →
      (s.winPass x = true → Answers (.refWindowEnd t x) s fun s' =>
        (s'.ref x).qualified = r.qualified ∧ (s'.ref x).winStart = r.winStart + s.winLen x ∧ (s'.ref x).winCount = 0 ∧
        (s'.ref x).winFirst = none ∧ (s'.ref x).okSince = r.okSince ∧ s'.regs = s.regs ∧ only s') ∧
      (s.winPass x = false → r.qualified = true → Answers (.refWindowEnd t x) s fun s' =>
        (s'.ref x).qualified = false ∧ (s'.ref x).freqFail = true ∧ (s'.ref x).missFail = false ∧
        (s'.ref x).winStart = r.winStart + s.winLen x ∧ (s'.ref x).winCount = 0 ∧ logged s' ∧ only s')) ∧
    (r.qualified = true ∨ r.lastSel = none ∨ max s.now t < r.okSince + s.refCfg x 16 8 * 200_000_000 →
      exec (.refQualified t x) s = .next u) ∧
    (r.qualified = false → r.lastSel ≠ none → r.okSince + s.refCfg x 16 8 * 200_000_000 ≤ max s.now t → u.missDue x = false →
      Answers (.refQualified t x) s fun s' =>
        (s'.ref x).qualified = true ∧ (s'.ref x).lastSel = r.lastSel ∧ bit (s'.reg (ra sClk 0x008)) 4 = true ∧ s'.loop = s.loop ∧ only s')

/-- REF_TICK selects. The active reference stays while it is a candidate and no better one may revert; otherwise the best
candidate becomes active and a pull toward it begins, a Thaw out of Winter; with no candidate the loop enters Winter and
holds the mean word of its history. A committed CLK value applies at the tick. PULL_DONE leaves TRACKING once the move is
over. Here no context runs, so no condition vector changes. -/
def Obligations.LoopSelection : Prop :=
  ∀ (s : State) (t : Nat), s.Powered → s.runningCtxs = [] → s.loop.oscHold = false →
    let u := s.advance t
    let pulls (x : Nat) (s' : State) : Prop :=
      s'.loop.active = some x ∧ s'.loop.mode = (if s.loop.inWinter then .thaw else .pulling) ∧
      s'.loop.pull = some { e := s.refErr x, start := max s.now t, slew := s.slew } ∧ bit (s'.reg (ra sClk 0x008)) 0 = true
    (s.loop.comm = false → s.loop.changed = false → s.loop.selPend = false →
      (∀ x, s.loop.active = some x → x ∈ s.candidates → (s.candidates.head? = some x ∨ s.rbit sClk 0x014 4 = false) →
        Answers (.refTick t) s fun s' => s'.loop = s.loop ∧ s'.touts = s.touts ∧ s'.ckos = s.ckos) ∧
      (∀ want l, s.candidates = want :: l → (∀ x, s.loop.active = some x → x ∉ s.candidates) → Answers (.refTick t) s (pulls want)) ∧
      (∀ x want l, s.loop.active = some x → s.candidates = want :: l → x ∈ l → x ≠ want → s.rbit sClk 0x014 4 = true →
        s.rfld sClk 0x014 0 2 = 1 → Answers (.refTick t) s (pulls want)) ∧
      (s.candidates = [] → s.loop.mode = .pulling ∨ s.loop.mode = .tracking → (∀ k, s.loop.pull = some k → k.pair = none) →
        Answers (.refTick t) s fun s' =>
          let w := s.holdWord (s.loop.endSpan (max s.now t))
          s'.loop.mode = .winter ∧ s'.loop.active = none ∧ s'.loop.pull = none ∧ s'.loop.steer = w ∧ s'.loop.held = w ∧
          s'.loop.winterFrom = max s.now t ∧ bit (s'.reg (ra sClk 0x008)) 1 = true)) ∧
    (∀ off v, s.loop.comm = true → off % 4 = 0 → 0x014 ≤ off → off < 0x084 → s.clkWait = [(ra sClk off, v)] →
      Answers (.refTick t) s fun s' => s'.reg (ra sClk off) = v ∧ s'.clkWait = [] ∧ s'.loop.comm = false) ∧
    (s.loop.pull = none → exec (.pullDone t) s = .next u) ∧
    (∀ k, s.loop.pull = some k → max s.now t < k.start + pullLen k.e k.slew → exec (.pullDone t) s = .next u) ∧
    (∀ k, s.loop.pull = some k → k.start + pullLen k.e k.slew ≤ max s.now t →
      (k.pair = none → Answers (.pullDone t) s fun s' =>
        s'.loop.mode = .tracking ∧ s'.loop.pull = none ∧ s'.loop.active = s.loop.active ∧ s'.refs = s.refs ∧
        bit (s'.reg (ra sClk 0x008)) (if s.loop.mode = .thaw then 2 else 3) = true) ∧
      (∀ m, k.pair = some m → Answers (.pullDone t) s fun s' =>
        s'.loop.mode = m ∧ s'.loop.pull = none ∧ s'.par.pthaw = false ∧ s'.refs = s.refs))

/-- The synthesis loops. PLL_LOCK needs LOCK_CNT cycles of the input within LOCK_WIN since the last one outside it; the
declared lock resumes every output of the loop that only it gated, and starts a device in LOCKING once both loops are
locked. A cycle outside the window begins the count again, and of a locked loop it is the loss of lock, which gates them at
once, and PLL_T's gates every timing output and marks items UNLOCKED; a cycle within it does nothing. OSC_LOSS takes both
locks and puts the loop into Winter; OSC_RETURN lets them lock again, with counts that begin there. The epoch counts on
through all of them. -/
def Obligations.SynthesisLocks : Prop :=
  ∀ (s : State) (t : Nat) (k : Fin 2) (err : Nat), s.Powered → s.runningCtxs = [] → s.cal.chans = [] →
    let u := s.advance t
    let locked := if k = 0 then s.loop.lockT else s.loop.lockC
    let locked' (s' : State) : Bool := if k = 0 then s'.loop.lockT else s'.loop.lockC
    let good := err ≤ 400 * s.rfld sClk 0x04C 0 10
    let counted := (if k = 0 then s.loop.outT else s.loop.outC) + s.lockEdges ≤ max s.now t
    let other (s' : State) : Prop := (if k = 0 then s'.loop.lockC = s.loop.lockC else s'.loop.lockT = s.loop.lockT)
    let outputs (b : Bool) (s' : State) : Prop :=
      (k = 0 → ∀ n, n < 32 → (s'.tout n).gatedLock = b) ∧ (k ≠ 0 → s'.touts = s.touts) ∧
      (∀ n, n < 16 → s.rfld (sCko n) 0x014 2 1 = k → (s'.cko n).gatedLock = b) ∧
      (∀ n, n < 16 → s.rfld (sCko n) 0x014 2 1 ≠ k → s'.cko n = s.cko n)
    (locked = true ∨ (s.loop.oscHold = true ∧ s.loop.oscOk = false) ∨ ¬good ∨ ¬counted → exec (.pllLock t ⟨k, err⟩) s = .next u) ∧
    (locked = false → (s.loop.oscHold = false ∨ s.loop.oscOk = true) → good → counted →
      (s.dev ≠ .locking → Answers (.pllLock t ⟨k, err⟩) s fun s' =>
        locked' s' = true ∧ other s' ∧ s'.loop.oscOk = true ∧ outputs false s' ∧ s'.dev = s.dev ∧ s'.solEdge = s.solEdge ∧
        (s'.loop.lockT = true → s'.loop.lockC = true → bit (s'.reg (ra sClk 0x008)) 7 = true)) ∧
      (s.dev = .locking → (if k = 0 then s.loop.lockC else s.loop.lockT) = true → s.boot.starts = [] →
        Answers (.pllLock t ⟨k, err⟩) s fun s' => s'.dev = if s.stopOn then .stopped else .running)) ∧
    (good → exec (.pllLockLoss t ⟨k, err⟩) s = .next u) ∧
    (¬good → locked = false → exec (.pllLockLoss t ⟨k, err⟩) s =
      .next { u with loop := if k = 0 then { s.loop with outT := max s.now t } else { s.loop with outC := max s.now t } }) ∧
    (¬good → locked = true → Answers (.pllLockLoss t ⟨k, err⟩) s fun s' =>
      locked' s' = false ∧ other s' ∧ outputs true s' ∧ bit (s'.reg (ra sClk 0x008)) (5 + k) = true ∧ s'.dev = s.dev ∧
      s'.solEdge = s.solEdge ∧ (k = 0 → s'.tbFlags &&& fUNLOCKED = fUNLOCKED)) ∧
    (Answers (.oscLoss t) s fun s' =>
      s'.loop.lockT = false ∧ s'.loop.lockC = false ∧ s'.loop.oscOk = false ∧ s'.loop.oscHold = true ∧ s'.solEdge = s.solEdge ∧
      ((∀ p, s.loop.pull = some p → p.pair = none) → s'.loop.mode = .winter ∧ s'.loop.active = (if s.loop.mode = .winter then s.loop.active else none)) ∧
      bit (s'.reg (ra sClk 0x008)) 9 = true) ∧
    exec (.oscReturn t) s = .next { u with loop := { s.loop with oscOk := true, outT := max s.now t, outC := max s.now t } }

/-- The clock outputs. The rule's rising edge at or before an instant is the origin and a whole number of periods. CKO_APPLY
waits for its application edge; then every output's waiting values take effect together, and only an output with a value
that changes leaves its rule: the high time in progress completes, and no rising edge leaves until 500 ps after it (stated
where the output's gates stand as its SRC and STOP_GATE ask). STOP gates at its next falling edge each output that heeds it,
and its release lets it rise again from 500 ps on. P and N show the output inverted under INV while it runs, and low
otherwise. -/
def Obligations.ClockOutputs : Prop :=
  ∀ (s : State) (t : Nat), s.Powered →
    let u := s.advance t
    (∀ n p, 0 < s.ckoPer n → ∃ k : Int, s.ckoRise n p = s.ckoOrigin n + k * s.ckoPer n ∧ s.ckoRise n p ≤ p ∧
      p < s.ckoRise n p + s.ckoPer n) ∧
    (s.ckoDue = none → exec (.ckoApply t) s = .next u) ∧
    (∀ e, s.ckoDue = some e → max s.now t < e → exec (.ckoApply t) s = .next u) ∧
    (∀ e n off v, s.ckoDue = some e → e ≤ max s.now t → n < 16 → 0x014 ≤ off → off < 0x024 → s.ckoWait = [(ra (sCko n) off, v)] →
      Answers (.ckoApply t) s fun s' =>
        s'.ckoWait = [] ∧ s'.ckoDue = none ∧ s'.reg (ra (sCko n) off) = v ∧ bit (s'.reg (ra (sCko n) 0x008)) 1 = true ∧
        (∀ m, m ≠ n → s'.cko m = s.cko m) ∧
        (0x018 ≤ off → (s.cko n).gatedLock = !(if s.rbit (sCko n) 0x014 2 then s.loop.lockC else s.loop.lockT) →
          (s.cko n).gatedStop = (s.stopOn && s.rbit (sCko n) 0x014 9) →
          (s.reg (ra (sCko n) off) = v → (s'.cko n).from' = (s.cko n).from' ∧ (s'.cko n).highUntil = (s.cko n).highUntil) ∧
          (s.reg (ra (sCko n) off) ≠ v → (s'.cko n).from' = max u.phys (u.ckoFall n + 2000) ∧ (s'.cko n).highUntil = u.ckoFall n)) ∧
        Side { u with ckos := s'.ckos, ckoWait := [], ckoDue := none } s') ∧
    (∀ n, n < 16 → s.Settled → s.runningCtxs = [] → s.rbit (sCko n) 0x014 9 = true →
      (s.stopSrc ≠ 0 → s.stopOn = false → s.dev ≠ .booting → Answers (.stopOn t) s fun s' =>
        s'.cko n = { s.cko n with gatedStop := true, stopAt := (s.cko n).stopAt.or (some (u.ckoNextFall n)) }) ∧
      (s.stopSrc = 0 → s.stopOn = true → (s.cko n).gatedStop = true → s.boot.starts = [] → s.dma = [] → Answers (.stopOff t) s fun s' =>
        (s'.cko n).gatedStop = false ∧ (s'.cko n).stopAt = none ∧ (s'.cko n).from' = max (s.cko n).from' (u.phys + 2000))) ∧
    (∀ n, (s.ckoRunning n = false → s.ckoPin n = false) ∧
      (s.ckoRunning n = true → s.ckoPin n = (s.ckoLevel n != s.rbit (sCko n) 0x014 8)))

/-! ### Solstice and time transfer (03_solstice_and_time_transfer.md) -/

/-- Requests. CTRL bits act at once: ARM arms, CANCEL drops a pending AT; NOW fixes the application edge DELAY edges on,
AT_GO waits for SOL.AT, or is LATE where that comes before DELAY is over; with HOST off neither does anything. A taken
SYNC_IN edge, one of the selected polarity while armed or in continuous mode, fixes the edge DELAY after the first coarse
edge 250 ps behind it and shows the phase in SYNC_ADV; any other is ignored but for the stamper's own step. A partner's
message is taken at the edge its epoch and the averaged offset give, or DELAY on. A request while one waits, or within 1 µs
of the last, is merged: it counts in MERGED and sets the event; of two the one with the earlier request edge fixes the
application edge, and of two at one request edge SYNC_IN before the partner before the host. -/
def Obligations.SolsticeRequests : Prop :=
  ∀ (s : State) (t : Nat), s.Powered →
    let u := s.advance t
    let now := max s.now t
    let fix (a r : Nat) (x : SolSrc) : Sol := { s.sol with fixed := some (a, x), reqEdge := some (r, x), risen := false }
    let merged (v : State) : State := (v.bump32 sSol 0x034 1).evt sSol 1
    let noAt : State := { u with sol := { s.sol with atPend := none, goEdge := none } }
    (∀ p, s.Reaches (ra sSol 0x018) → s.served sSol = true →
      exec (.arm t p) s = .next { u with sol := { s.sol with armed := true } } ∧ exec (.cancel t p) s = .next noAt ∧
      (s.rbit sSol 0x014 1 = false → exec (.now t p) s = .next u ∧ exec (.atGo t p) s = .next u) ∧
      (s.rbit sSol 0x014 1 = true → s.sol.fixed = none → s.solRecent now = false →
        ((∀ e, s.sol.atPend = some e → now + s.solDelay < e) →
          exec (.now t p) s = .next { u with sol := fix (now + s.solDelay) now .host }) ∧
        (∀ e, s.sol.atPend = some e → e ≤ now + s.solDelay → exec (.now t p) s = .next (merged u)) ∧
        (u.atEdge < (now + s.solDelay : Nat) → exec (.atGo t p) s = .next (noAt.evt sSol 2)) ∧
        (((now + s.solDelay : Nat) : Int) ≤ u.atEdge → exec (.atGo t p) s = .next { u with
          sol := { s.sol with atPend := some u.atEdge.toNat, goEdge := some (now, s.sol.atPend), risen := false } })) ∧
      (s.rbit sSol 0x014 1 = true → s.sol.fixed = none → s.solRecent now = true →
        exec (.now t p) s = .next (merged u) ∧ exec (.atGo t p) s = .next (merged noAt)) ∧
      (∀ a x r y, s.rbit sSol 0x014 1 = true → s.sol.fixed = some (a, x) → s.sol.reqEdge = some (r, y) →
        (r ≤ now → exec (.now t p) s = .next (merged u)) ∧
        (now < r → exec (.now t p) s = .next (merged { u with sol := fix (now + s.solDelay) now .host })) ∧
        (s.solRecent now = false → u.atEdge ≠ a → exec (.atGo t p) s = .next (noAt.evt sSol 2)) ∧
        (u.atEdge = a → exec (.atGo t p) s = .next (merged noAt)))) ∧
    (∀ (q : Nat) (rising : Bool),
      let st := (u.plainStamp 100 0 t q rising 0).1
      let made := (u.plainStamp 100 0 t q rising 0).2
      let r := (-((-(st.phys + 1000)) / 2000)).toNat
      let armed := s.rbit sSol 0x014 4 && s.sol.armed
      let shown : State := { made.setRegN sSol 0x030 (2000 * (r : Int) - st.phys).toNat with sol := { s.sol with armed := armed } }
      let takes := s.rbit sSol 0x014 0 = true ∧ s.dev ≠ .booting ∧ rising = !s.rbit sSol 0x014 5 ∧
        (s.rbit sSol 0x014 4 = true ∨ s.sol.armed = true)
      ((s.stamper 100).booted = false → exec (.syncInEdge t rising q) s = .next u) ∧
      ((s.stamper 100).booted = true → ¬takes → exec (.syncInEdge t rising q) s = .next made) ∧
      ((s.stamper 100).booted = true → takes → 0 ≤ st.phys →
        (s.sol.fixed = none → s.solRecent r = true → exec (.syncInEdge t rising q) s = .next (merged shown)) ∧
        (s.sol.fixed = none → s.sol.atPend = none → s.solRecent r = false →
          exec (.syncInEdge t rising q) s = .next { shown with sol := { fix (r + s.solDelay) r .syncIn with armed := armed } }) ∧
        (∀ a x r' y, s.sol.fixed = some (a, x) → s.sol.reqEdge = some (r', y) →
          (r < r' ∨ (r = r' ∧ x ≠ .syncIn) → exec (.syncInEdge t rising q) s =
            .next (merged { shown with sol := { fix (r + s.solDelay) r .syncIn with armed := armed } })) ∧
          (r' < r ∨ (r = r' ∧ x = .syncIn) → exec (.syncInEdge t rising q) s = .next (merged shown))))) ∧
    (∀ ep : Word64,
      let theirs := (u.physOf (m64 ((ep.toNat : Int) - s.pairTheta)) + 1000) / 2000
      let told := u.evt sSol 3
      (s.rbit sSol 0x014 2 = false ∨ s.dev = .booting → exec (.partnerSolstice t ep) s = .next told) ∧
      (s.rbit sSol 0x014 2 = true → s.dev ≠ .booting →
        (s.sol.fixed = none → s.sol.atPend = none → s.solRecent now = false →
          ((s.ttl 32).valid = false ∨ s.par.aligned = false ∨ theirs < (now + s.solDelay : Nat) →
            exec (.partnerSolstice t ep) s = .next { told with sol := fix (now + s.solDelay) now .partner }) ∧
          ((s.ttl 32).valid = true → s.par.aligned = true → ((now + s.solDelay : Nat) : Int) ≤ theirs →
            exec (.partnerSolstice t ep) s = .next { told with sol := fix theirs.toNat now .partner })) ∧
        (s.sol.fixed = none → s.solRecent now = true → exec (.partnerSolstice t ep) s = .next (merged told)) ∧
        (∀ a x r y, s.sol.fixed = some (a, x) → s.sol.reqEdge = some (r, y) → r < now →
          exec (.partnerSolstice t ep) s = .next (merged told))))

/-- The application edge. SOLSTICE waits for it; then the epoch counts from it, whatever the block is doing. SYNC_OUT rises
OUT_LEAD edges before it and falls OUT_WIDTH edges later. WRAP counts a wrap that the epoch has made, and the origin stands.
The first stamp of a source at or after the edge carries SOLS. -/
def Obligations.EpochMoves : Prop :=
  ∀ (s : State) (t : Nat), s.Powered →
    let u := s.advance t
    (s.solWaits = none → exec (.solstice t) s = .next u ∧ exec (.syncOutRise t) s = .next u) ∧
    (∀ a x isAt, s.solWaits = some (a, x, isAt) →
      (max s.now t < a → exec (.solstice t) s = .next u) ∧
      (a ≤ max s.now t → Answers (.solstice t) s fun s' =>
        s'.solEdge = a ∧ s'.wraps = 0 ∧ s'.now = max s.now t ∧ s'.epoch = ((max s.now t - a) * 2000) % 2 ^ 64) ∧
      (s.sol.risen = true ∨ max s.now t + s.rfld sSol 0x014 16 8 < a → exec (.syncOutRise t) s = .next u) ∧
      (s.sol.risen = false → a ≤ max s.now t + s.rfld sSol 0x014 16 8 → exec (.syncOutRise t) s = .next { u with
        sol := { s.sol with
          risen := true, syncOut := true, fallAt := some (a - s.rfld sSol 0x014 16 8 + s.rfld sSol 0x014 24 8) }
        out := .syncOut true (a - s.rfld sSol 0x014 16 8) :: s.out })) ∧
    (∀ e, s.sol.fallAt = some e →
      (max s.now t < e → exec (.syncOutFall t) s = .next u) ∧
      (e ≤ max s.now t → exec (.syncOutFall t) s = .next { u with
        sol := { s.sol with syncOut := false, fallAt := none }, out := .syncOut false e :: s.out })) ∧
    (u.wrapDue = false → exec (.wrap t) s = .next u) ∧
    (u.wrapDue = true → exec (.wrap t) s = .next (({ u with wraps := s.wraps + 1 } : State).evt sSol 4)) ∧
    (∀ (c src e q : Nat) (rising : Bool) (d : Int),
      let st := (u.plainStamp c src e q rising d).1
      (s.stamper c).seen.1 < u.stampOrigin st.phys → st.flags &&& fSOLS = fSOLS)

/-- What stages do at a Solstice: the request is over and counted, LAST_EPOCH keeps the epoch it ended; every source's next
item begins the epoch; every reference's next edge may set its target; links lose their average; the pair is not aligned;
every clock output leaves its rule; bins of the old grid stay with it; placements keep their instants. Here no context runs,
no slot is armed, no histogram or record is open and every tile is registered by its link. -/
def Obligations.SolsticeStages : Prop :=
  ∀ (s : State) (t a : Nat) (x : SolSrc) (isAt : Bool), s.Powered → s.Settled → s.runningCtxs = [] → s.solWaits = some (a, x, isAt) →
    a ≤ max s.now t → (∀ e ∈ s.meas, e.2.armed = false) → (∀ n, n < 64 → s.tileMode n = 0) → (∀ e ∈ s.hctxs, e.2.active = false) →
    (∀ e ∈ s.caps, e.2.active = false) →
    Answers (.solstice t) s fun s' =>
      let at' : State := { s with now := a }
      s'.sol.fixed = none ∧ s'.sol.atPend = none ∧ s'.sol.last = some a ∧ s'.sol.lastSrc = x ∧
      s'.sol.count = (s.sol.count + 1) % 65536 ∧ s'.sol.armed = s.sol.armed ∧
      s'.reg64 sSol 0x028 = ((a - s.solEdge) * 2000) % 2 ^ 64 ∧ bit (s'.reg (ra sSol 0x008)) 0 = true ∧
      (isAt = false → s.sol.atPend ≠ none → bit (s'.reg (ra sSol 0x008)) 2 = true) ∧
      s'.sol.prevEdge = s.solEdge ∧ s'.sol.goEdge = none ∧
      (∀ c, c < 102 → s'.stamper c = if (s.stamper c).seen.1 < a ∧ ∃ e ∈ (s.stamper c).ahead, 2000 * (a : Int) ≤ e.2
        then { s.stamper c with seen := (a, 0) } else s.stamper c) ∧
      (∀ k, k < 4 → (s'.ref k).adoptDue = true ∧ (s'.ref k).qualified = (s.ref k).qualified) ∧
      (∀ k, k < 33 → (s'.ttl k).valid = false ∧ (s'.ttl k).avg = [] ∧ (s'.ttl k).tx = none) ∧ s'.par.aligned = false ∧
      (s.ckoWait = [] → ∀ n, n < 16 →
        (s'.cko n).from' = max (2000 * (a : Int)) (at'.ckoFall n + 2000) ∧ (s'.cko n).highUntil = at'.ckoFall n) ∧
      (∀ p, p < 4 → (s.plane p).active = true → s'.plane p = { s.plane p with
        old := (s.plane p).old ++ [(s.solEdge, a, (s.plane p).grid)], grid := {} }) ∧
      (∀ n, n < 32 → (s'.tout n).queue = (s.tout n).queue ∧ (s'.tout n).transit = (s.tout n).transit ∧
        (s'.tout n).flight = (s.tout n).flight) ∧
      s'.ctxs = s.ctxs ∧ s'.tab = s.tab ∧ s'.nvm = s.nvm

/-- Time transfer. TTL_MARKER at a multiple of PERIOD after the Solstice starts an exchange: link 32 marks PAIR_TE_OUT,
another link launches an 8 ns pulse on its timing output, which one gated by loss of lock or DORMANT drops as GATED, and
STOP, a page reset and an output given to another source stop; the far unit's times come with TTL_REPORT. TTL_EXCHANGE
solves an exchange whose times are all there: within TOLER of the round trip it joins the average, OFFSET and DELAY follow
(their rounding is the model's choice, log entry 53), and VALID is set; outside it is discarded. A marker that finds an
exchange without its times discards it. The first rising edge of PAIR_TE_IN after link 32's marker is the echo; its stamp
also goes, as source 4196, to whoever takes that. Here the link's result feeds nothing (USE 0). -/
def Obligations.TimeTransfer : Prop :=
  ∀ (s : State) (t : Nat) (k : Fin 33), s.Powered →
    let u := s.advance t
    let now := max s.now t
    let x := s.ttl k
    let idle : Ttl := { x with tx := none, echo := none, far := none, repRx := none, repTx := none, marked := none }
    let begun : Ttl := { idle with marked := some now }
    let due := s.rbit (sTtl k) 0x014 0 = true ∧ 0 < now - s.solEdge ∧
      (now - s.solEdge) % (s.reg (ra (sTtl k) 0x018)).toNat = 0 ∧ x.marked ≠ some now
    let failed (why : Nat) (s' : State) : Prop := (s'.ttl k).lastFail = why ∧ (s'.ttl k).avg = x.avg ∧ (s'.ttl k).valid = x.valid ∧
      s'.reg (ra (sTtl k) 0x03C) = BitVec.ofNat 32 (min ((s.reg (ra (sTtl k) 0x03C)).toNat + 1) (2 ^ 32 - 1)) ∧
      bit (s'.reg (ra (sTtl k) 0x008)) 1 = true
    (¬due → ∀ e, exec (.ttlMarker t k e) s = .next u) ∧
    (due → x.marked = none → x.tx = none →
      (k = 32 → ∀ e, Answers (.ttlMarker t k e) s fun s' => s'.ttl k = { begun with tx := some (e % 2 ^ 64) } ∧
        s' = { u with ttls := s'.ttls, out := .teOut now :: s.out }) ∧
      (k ≠ 32 → ∀ e,
        (s.toSrc k ≠ 3 ∨ (s.tout k).gatedStop = true ∨ s.inReset (sTout k) = true → Answers (.ttlMarker t k e) s fun s' =>
          s'.ttl k = begun ∧ s' = { u with ttls := s'.ttls }) ∧
        (s.toSrc k = 3 → s.inReset (sTout k) = false → (s.tout k).gatedStop = false →
          ((s.tout k).gatedLock = true ∨ (s.tout k).gatedDorm = true) → Answers (.ttlMarker t k e) s fun s' =>
            s'.ttl k = begun ∧ s'.reg64 (sTout k) 0x064 = min (s.reg64 (sTout k) 0x064 + 1) (2 ^ 64 - 1) ∧
            bit (s'.reg (ra (sTout k) 0x008)) 3 = true ∧ Side { u with ttls := s'.ttls } s') ∧
        (s.toSrc k = 3 → s.inReset (sTout k) = false → (s.tout k).gated = false → Answers (.ttlMarker t k e) s fun s' =>
          s'.ttl k = begun ∧ s'.tout k = { s.tout k with flight := (s'.tout k).flight } ∧
          (∃ x ∈ (s'.tout k).flight, x.p = 2000 * (now : Int) ∧ x.leading = true ∧ x.active = true ∧ x.high = !s.toInv k ∧
            x.marker = true) ∧
          (∃ x ∈ (s'.tout k).flight, x.p = 2000 * (now : Int) + 32_000 ∧ x.active = false ∧ x.high = s.toInv k) ∧
          s'.reg64 (sTout k) 0x044 = min (s.reg64 (sTout k) 0x044 + 1) (2 ^ 64 - 1) ∧
          Side { u with ttls := s'.ttls, touts := s'.touts } s'))) ∧
    (due → ∀ m, x.marked = some m → s.toSrc k ≠ 3 → k ≠ 32 → ∀ e,
      (x.tx = none ∨ x.echo = none ∨ x.far = none → Answers (.ttlMarker t k e) s (failed 1)) ∧
      (x.tx ≠ none → x.echo ≠ none → x.far ≠ none → x.repRx = none ∨ x.repTx = none → Answers (.ttlMarker t k e) s (failed 3))) ∧
    (∀ rx tx : Word64, exec (.ttlReport t k rx tx) s = .next
      (u.setTtl k { x with repRx := some rx.toNat, repTx := some tx.toNat })) ∧
    (x.tx = none ∨ x.echo = none ∨ x.far = none ∨ x.repRx = none ∨ x.repTx = none → exec (.ttlExchange t k []) s = .next u) ∧
    (∀ tx echo far rx ftx : Nat, x.tx = some tx → x.echo = some echo → x.far = some far → x.repRx = some rx → x.repTx = some ftx →
      s.rfld (sTtl k) 0x014 1 2 = 0 →
      let there := sdiff (s.farQps k rx) tx
      let back := sdiff far (s.farQps k ftx)
      let th := there - back - signed 32 (s.reg (ra (sTtl k) 0x020)).toNat
      let d := there + back
      let miss := (sdiff echo tx - (d + (s.reg (ra (sTtl k) 0x01C)).toNat)).natAbs
      let avg := ((th, d) :: x.avg).take (2 ^ s.rfld (sTtl k) 0x014 16 4)
      (s.rfld (sTtl k) 0x024 0 24 < miss → Answers (.ttlExchange t k []) s (failed 2)) ∧
      (miss ≤ s.rfld (sTtl k) 0x024 0 24 → Answers (.ttlExchange t k []) s fun s' =>
        s'.ttl k = { idle with avg := avg, valid := true } ∧
        s'.reg64 (sTtl k) 0x028 = m64 (rne (avg.map (·.1)).sum (2 * avg.length)) ∧
        s'.reg (ra (sTtl k) 0x030) = BitVec.ofNat 32 (min (2 ^ 32 - 1) (rne (avg.map (·.2)).sum (2 * avg.length)).toNat) ∧
        (x.valid = false → bit (s'.reg (ra (sTtl k) 0x008)) 0 = true) ∧ Side { u with ttls := s'.ttls } s')) ∧
    (∀ tx te q : Nat, k = 32 → x.tx = some tx → x.repRx = none → x.echo = none →
      let st := (u.plainStamp 101 4196 te q true 0).1
      let made := (u.plainStamp 101 4196 te q true 0).2
      let given := (if s.condUses 4196 then { made with condIn := s.condIn ++ [.edge st] } else made).distribute st
      2000 * (s.solEdge : Int) ≤ st.phys → 0 < sdiff st.time tx →
        exec (.ttlExchange t k [(te, q)]) s = .next (given.setTtl k { x with echo := some st.time }))

/-! ### The pair (17_pair_redundancy.md) -/

/-- The claim bus. 1 µs after the last SOF, or at a partner's SOF before that, a frame begins: waiting configuration
applies, and a unit that takes part drives its claim, with READY 0 where it is not fit, or while it withholds from a partner
that holds the claim; one with EN = 0 drives nothing and follows the frames it sees. A frame's end decides: a unit that
takes part has won where what the bus held is what it sent. A frame with a bad CRC only counts; a stuck bus is a fault; a
withholding that lasts THAW_TIMEOUT ends where the configuration lets it. -/
def Obligations.ClaimBus : Prop :=
  ∀ (s : State) (t : Nat), s.Powered →
    let u := s.advance t
    let now := max s.now t
    let p := s.par
    let cfg := (s.reg (ra sPar 0x014)).toNat
    let v : State := { u with par := { p with cfg := cfg } }
    let claim (ready : Nat) : Nat := ready * 128 + nfld cfg 4 3 * 16 + b2n p.aligned * 8 + nfld cfg 0 3
    let began (q : Par) (n : Nat) (s' : State) : Prop :=
      s'.par = { q with cfg := cfg, sent := n, sofAt := some now, inFrame := true } ∧ s'.out = .claimSof n now :: s.out
    let frame (c : Instr) (seen : Bool) : Prop := s.parWait = [] →
      (cfg / 2 ^ 12 % 2 = 0 → Answers c s fun s' =>
        s'.par = { p with cfg := cfg, sofAt := some now, inFrame := seen, sent := 0 } ∧ s'.out = s.out) ∧
      (cfg / 2 ^ 12 % 2 = 1 →
        (v.wouldReady = false → Answers c s (began { p with recovering := none, claimed := false } (claim 0))) ∧
        (v.wouldReady = true → p.recovering = none → (p.claimed = true ∨ p.lastValid = false ∨ p.won = true ∨ p.last / 2 ^ 7 % 2 = 0) →
          Answers c s (began { p with claimed := true } (claim 1))) ∧
        (v.wouldReady = true → p.recovering = none → p.claimed = false → p.lastValid = true → p.won = false → p.last / 2 ^ 7 % 2 = 1 →
          Answers c s (began { p with recovering := some now, timedOut := false } (claim 0))) ∧
        (v.wouldReady = true → p.recovering ≠ none → (p.aligned = true ∨ p.timedOut = true) →
          Answers c s (began { p with recovering := none, claimed := true } (claim 1))) ∧
        (v.wouldReady = true → p.recovering ≠ none → p.aligned = false → p.timedOut = false →
          (p.lastValid = false ∨ p.last / 2 ^ 7 % 2 = 1) → Answers c s (began p (claim 0))))
    (∀ e, p.sofAt = some e → now < e + 2000 → exec (.claimSof t) s = .next u) ∧
    ((∀ e, p.sofAt = some e → e + 2000 ≤ now) → frame (.claimSof t) false) ∧
    (p.inFrame = true → exec (.claimSofSeen t) s = .next u) ∧ (p.inFrame = false → frame (.claimSofSeen t) true) ∧
    (∀ e (c : BitVec 8) (f : BitVec 4) (crc : BitVec 8), p.sofAt = some e →
      (p.inFrame = false ∨ 2 * now < 2 * e + 2625 → exec (.claimFrame t c f crc) s = .next u) ∧
      (p.inFrame = true → 2 * e + 2625 ≤ 2 * now →
        (crc8 (bitsMsb 8 c.toNat ++ bitsMsb 4 f.toNat) ≠ crc.toNat → exec (.claimFrame t c f crc) s = .next
          (({ u with par := { p with inFrame := false } } : State).bump64 sPar 0x038 1)) ∧
        (crc8 (bitsMsb 8 c.toNat ++ bitsMsb 4 f.toNat) = crc.toNat → Answers (.claimFrame t c f crc) s fun s' =>
          let won := decide (p.cfg / 2 ^ 12 % 2 = 1 ∧ c.toNat = p.sent)
          s'.par = { p with
            inFrame := false, won := won, last := c.toNat, lastValid := true, busFault := false,
            fseq := if won then (p.fseq + 1) % 16 else p.fseq } ∧
          (won = p.won → s'.regs = s.regs ∧ s'.bbr = s.bbr) ∧
          (won ≠ p.won → s'.reg64 sPar 0x030 = min (s.reg64 sPar 0x030 + 1) (2 ^ 64 - 1) ∧
            bit (s'.reg (ra sPar 0x008)) (if won then 0 else 1) = true) ∧
          Side { u with par := s'.par } s'))) ∧
    (Answers (.busFault t) s fun s' => s'.par = { p with busFault := true, inFrame := false } ∧
      (p.busFault = false → bit (s'.reg (ra sPar 0x008)) 7 = true) ∧ Side { u with par := s'.par } s') ∧
    (p.recovering = none → exec (.thawTimeout t) s = .next u) ∧
    (∀ e, p.recovering = some e →
      (now < e + s.rfld sPar 0x020 0 16 * 2_000_000 ∨ s.parF 10 1 = 0 ∨ p.timedOut = true → exec (.thawTimeout t) s = .next u) ∧
      (e + s.rfld sPar 0x020 0 16 * 2_000_000 ≤ now → s.parF 10 1 = 1 → p.timedOut = false →
        exec (.thawTimeout t) s = .next (({ u with par := { p with timedOut := true } } : State).evt sPar 6)))

/-- The pair link. A STATE message brings the link up and shows the partner; 100 µs without one, or a lane that loses
codeword lock, takes it down, with ALIGNED; MIRROR fills the mirror table, and the winner alone sends one; STATE goes out
with the unit's claim and causes. -/
def Obligations.PairLink : Prop :=
  ∀ (s : State) (t : Nat), s.Powered →
    let u := s.advance t
    let p := s.par
    let down (q : Par) (s' : State) : Prop :=
      s'.par = { q with linkUp := false, partnerLost := true, aligned := false } ∧ bit (s'.reg (ra sPar 0x008)) 3 = true ∧
      s'.reg64 sPar 0x040 = min (s.reg64 sPar 0x040 + 1) (2 ^ 64 - 1) ∧ s'.tab = s.tab ∧ s'.loop = s.loop
    (∀ (claim : BitVec 8) (cause clk : Word) (uid : BitVec 3), Answers (.pairState t claim cause clk uid) s fun s' =>
      s'.par = { p with
        partner := claim.toNat, partnerId := some uid.toNat, stateAt := max s.now t, locks := 3, linkUp := true,
        partnerLost := false, idClash := decide (uid.toNat = s.parF 0 3) } ∧
      (p.linkUp = false → bit (s'.reg (ra sPar 0x008)) 2 = true) ∧
      (p.idClash = false → uid.toNat = s.parF 0 3 → bit (s'.reg (ra sPar 0x008)) 8 = true) ∧ Side { u with par := s'.par } s') ∧
    exec (.pairStateTx t) s = .next (u.emit (.pairState (p.sent % 256) u.parCause u.clkState (s.parF 0 3))) ∧
    (max s.now t < p.stateAt + 200_000 ∨ p.linkUp = false → exec (.pairLinkTimeout t) s = .next u) ∧
    (p.stateAt + 200_000 ≤ max s.now t → p.linkUp = true → Answers (.pairLinkTimeout t) s (down p)) ∧
    (∀ lane : Fin 2, (p.linkUp = true → Answers (.pairLaneLoss t lane) s (down { p with locks := p.locks &&& (3 ^^^ 2 ^ lane.val) })) ∧
      (p.linkUp = false → exec (.pairLaneLoss t lane) s = .next { u with par := { p with locks := p.locks &&& (3 ^^^ 2 ^ lane.val) } })) ∧
    (∀ l : List (Word × Word), l.length = 512 → Answers (.mirror t l) s fun s' =>
      (∀ i w0 w1, l[i]? = some (w0, w1) → s'.tabw (oMirror i 0) = w0 ∧ s'.tabw (oMirror i 1) = w1) ∧
      s'.par = { p with mirrorAt := some (max s.now t) } ∧ s' = { u with tab := s'.tab, par := s'.par }) ∧
    (p.won = false → exec (.mirrorTx t) s = .next u) ∧
    (p.won = true → Answers (.mirrorTx t) s fun s' => ∃ l : List (Nat × Nat), l.length = 512 ∧
      (∀ c, c < 512 → l[c]? = some (u.cstat c, (s.tabw (oCtx c 33)).toNat)) ∧ s' = u.emit (.pairMirror l))

/-! ### Timing inputs (04_timing_inputs.md) -/

/-- TIN_EDGE. A transition that is no candidate, or one while the channel does not capture, only moves the level, which
running contexts judge. A candidate that the separation tests refuse counts in CLOSE, and in both-slope mode refuses the
next of the other slope too. One that passes becomes a stamp: its time is the stop edge less the scaled code, the pin delay
and the deskew; the sequence number advances, CAPTURED counts, LAST shows it; it enters the FIFO with the marks that dropped
stamps owe, or where that is full it is dropped, counted and its event set, and owes its own. -/
def Obligations.TinEdges : Prop :=
  ∀ (s : State) (t q : Nat) (ch : Fin 64) (rising : Bool), s.Powered →
    let u := s.advance t
    let x := s.stamper ch
    let f := { s.tin ch with level := rising }
    let slope := s.rfld (sTin ch) 0x014 4 2
    let l := codeToL (x.interp (x.converter t q)) q
    let a : Int := 2000 * (t : Int) - l.1
    let p := a - x.dPin - signed 32 (s.reg (ra (sTin ch) 0x01C)).toNat
    let st : Stamp := ⟨4096 + ch, p, s.stampTime p, rising, u.stampFlags x t p, x.seq⟩
    let one (off n : Nat) : Nat := min (s.reg64 (sTin ch) off + n) (2 ^ 64 - 1)
    let taken := s.tinCapturing ch = true ∧ tinCandidate slope rising = true
    let closed (y : Stamper) (s' : State) : Prop :=
      s'.stamper ch = y ∧ s'.tin ch = f ∧ s'.reg64 (sTin ch) 0x030 = one 0x030 1 ∧ bit (s'.reg (ra (sTin ch) 0x008)) 1 = true ∧
      s'.condIn = s.condIn ∧ s'.reg64 (sTin ch) 0x028 = s.reg64 (sTin ch) 0x028
    let captured (s' : State) : Prop :=
      (s'.stamper ch).seq = (x.seq + 1) % 2 ^ 32 ∧ (s'.stamper ch).nextPos = (x.nextPos + 1) % 3 ∧ (s'.stamper ch).refuse = none ∧
      (s'.stamper ch).seen = seenAfter (s.stampOrigin p) p x.seen ∧
      s'.reg64 (sTin ch) 0x028 = one 0x028 1 ∧ s'.reg64 (sTin ch) 0x030 = one 0x030 (b2n l.2) ∧
      s'.reg64 (sTin ch) 0x050 = st.time ∧ s'.reg (ra (sTin ch) 0x058) = BitVec.ofNat 32 st.seq ∧
      s'.condIn = (if s.condUses (4096 + ch) then s.condIn ++ [.edge st] else s.condIn) ∧ s'.measIn = s.measIn ∧ s'.touts = s.touts
    (¬taken → exec (.tinEdge t ch rising q) s = .next (u.setTin ch f).wakeAll) ∧
    (taken → slope = 2 → x.refuse = some rising → Answers (.tinEdge t ch rising q) s (closed { x with refuse := none })) ∧
    (taken → (slope = 2 → x.refuse ≠ some rising) → captures x (decide (slope = 2)) rising a = false →
      Answers (.tinEdge t ch rising q) s (closed { x with refuse := if slope = 2 then some (!rising) else none })) ∧
    (taken → (slope = 2 → x.refuse ≠ some rising) → captures x (decide (slope = 2)) rising a = true →
      (f.fifo.length < 8192 → Answers (.tinEdge t ch rising q) s fun s' =>
        captured s' ∧ s'.tin ch = { f with fifo := f.fifo ++ [{ st with flags := st.flags ||| joinMarks x.owed st.flags }] } ∧
        (s'.stamper ch).owed = 0) ∧
      (8192 ≤ f.fifo.length → Answers (.tinEdge t ch rising q) s fun s' =>
        captured s' ∧ s'.tin ch = f ∧ (s'.stamper ch).owed = joinMarks x.owed st.flags ∧ s'.reg64 (sTin ch) 0x038 = one 0x038 1 ∧ bit (s'.reg (ra (sTin ch) 0x008)) 3 = true))

/-- A FIFO delivers its oldest stamp, at most one in 2 ns, to the measurement engine and the forwarders that use the source;
a forwarder queues it with the marks that earlier drops owe, or drops it at 65,536 and counts; and it leaves the queue,
three at most at one coarse edge, for the captures and definitions of its die. -/
def Obligations.StampRouting : Prop :=
  ∀ (s : State) (t : Nat), s.Powered →
    let u := s.advance t
    (∀ ch : Fin 64,
      let f := s.tin ch
      (f.fifo = [] ∨ max s.now t < f.nextOut → exec (.tinFifoDeliver t ch) s = .next u) ∧
      (∀ x r, f.fifo = x :: r → f.nextOut ≤ max s.now t → Answers (.tinFifoDeliver t ch) s fun s' =>
        s'.tin ch = { f with fifo := r, nextOut := max s.now t + 4 } ∧
        s'.measIn = (if s.measUses x.src then s.measIn ++ [x] else s.measIn) ∧
        (∀ d, d < 2 → (s'.fwd d).routed = if s.routedTo x.src d then (s.fwd d).routed ++ [x] else (s.fwd d).routed) ∧
        s'.regs = s.regs ∧ s'.stampers = s.stampers ∧ s'.touts = s.touts)) ∧
    (∀ die : Fin 2,
      let f := s.fwd die
      (f.routed = [] → exec (.forwardStamp t die) s = .next u) ∧
      (∀ x r, f.routed = x :: r → f.queue.length < 65536 → Answers (.forwardStamp t die) s fun s' =>
        (s'.fwd die).routed = r ∧ (s'.fwd die).queue = f.queue ++ [{ x with flags := x.flags ||| joinMarks (owedOf f.owed x.src) x.flags }] ∧
        owedOf (s'.fwd die).owed x.src = 0 ∧
        (s'.reg (ra (sFwd die) 0x018)).toNat = max (s.reg (ra (sFwd die) 0x018)).toNat (f.queue.length + 1) ∧
        (f.queue.length = 65535 → bit (s'.reg (ra (sFwd die) 0x008)) 1 = true) ∧ s'.tab = s.tab) ∧
      (∀ x r, f.routed = x :: r → 65536 ≤ f.queue.length → Answers (.forwardStamp t die) s fun s' =>
        (s'.fwd die).routed = r ∧ (s'.fwd die).queue = f.queue ∧
        owedOf (s'.fwd die).owed x.src = joinMarks (owedOf f.owed x.src) x.flags ∧
        s'.reg64 (sFwd die) 0x024 = min (s.reg64 (sFwd die) 0x024 + 1) (2 ^ 64 - 1) ∧
        bit (s'.reg (ra (sFwd die) 0x008)) 0 = true) ∧
      let sent := if f.outAt = max s.now t then f.outN else 0
      (f.queue = [] ∨ 3 ≤ sent → s.Settled → exec (.forwardDequeue t die) s = .next u) ∧
      (∀ x r, f.queue = x :: r → sent < 3 → s.Settled → s.capsOf x.src = [] → s.defsOf x.src = [] → Answers (.forwardDequeue t die) s fun s' =>
        s'.fwd die = { f with queue := r, outAt := max s.now t, outN := sent + 1 } ∧ s'.reg64 (sFwd die) 0x01C = min (s.reg64 (sFwd die) 0x01C + 1) (2 ^ 64 - 1) ∧
        s' = { u with fwds := s'.fwds, regs := s'.regs }) ∧
      (∀ x r c, c < 512 → f.queue = x :: r → sent < 3 → s.Settled → s.defsOf x.src = [] → s.capsOf x.src = [c] → s.recDie c = die → (s.cap c).full = false →
        (s.cap c).ovf = false → s.writerLevel die + 1 ≤ 65536 → Answers (.forwardDequeue t die) s fun s' =>
          s'.cap c = { s.cap c with inq := insItem x.item (s.cap c).inq } ∧ (s'.fwd die).queue = r) ∧
      (∀ x r d, d < 65536 → f.queue = x :: r → sent < 3 → s.Settled → s.capsOf x.src = [] → s.defsOf x.src = [d] → s.hHome d = die → s.hStart d = x.src →
        s.hStop d ≠ x.src → s.histTakes d 26 x = true → Answers (.forwardDequeue t die) s fun s' =>
          s'.hdef d = { s.hdef d with inq := insStamp x (s.hdef d).inq } ∧ (s'.fwd die).queue = r))

/-- Equinoxes and swaps. A rotation's Equinox starts 64 coarse periods before the 2^20th after the last swap. A gate request
takes READY away and starts one on the next edge, joins the one that runs, or waits while a window is open or READY is still
to be set for earlier requests; a rotation's Equinox serves a request that waits. An Equinox that passes loads its scale and
swaps at W, its end; one that fails is counted and the old interpolator stays, and the fourth in succession leaves the
channel stuck. The window closes 8 coarse periods after W; READY is set at Y, or the waiting request's Equinox starts. At
boot the four interpolators run in turn, and a channel captures once three have passed. -/
def Obligations.Equinoxes : Prop :=
  ∀ (s : State) (t : Nat) (c : Fin 102), s.Powered →
    let u := s.advance t
    let now := max s.now t
    let x := s.stamper c
    let rot := x.lastSwap + 2 ^ 20 - 64
    (x.booted = false ∨ x.eqx ≠ none ∨ now < rot → exec (.rotationEquinoxStart t c) s = .next u) ∧
    (x.booted = true → x.eqx = none → rot ≤ now → x.bootRun = 4 →
      exec (.rotationEquinoxStart t c) s = .next (u.setStamper c { x with eqx := some ⟨rot, x.reqWait⟩, reqWait := false })) ∧
    (∀ ch : Fin 64,
      let y := s.stamper ch
      (s.gateReqs.contains ch.val = false ∨ s.inReset (sTin ch) = true → exec (.gateRequest t ch) s = .next u) ∧
      (s.gateReqs.contains ch.val = true → s.inReset (sTin ch) = false → s.calCh ch = none →
        let v : State := { u with
          gateReqs := s.gateReqs.erase ch, meas := s.meas.map fun e => (e.1, e.2.arrived ch (y.yDue now)) }
        let busy := (∃ w, y.windowAt = some w ∧ now < w + 8) ∨ ∃ z, y.yAt = some z ∧ now < z
        (∀ e, y.eqx = some e → exec (.gateRequest t ch) s = .next (v.setStamper ch { y with ready := false, eqx := some { e with gate := true } })) ∧
        (y.eqx = none → ¬busy →
          exec (.gateRequest t ch) s = .next (v.setStamper ch { y with ready := false, eqx := some ⟨now + 1, true⟩ })) ∧
        (y.eqx = none → busy →
          exec (.gateRequest t ch) s = .next (v.setStamper ch { y with ready := false, reqWait := true })))) ∧
    (∀ c1 c2 : List Nat,
      (x.eqx = none → exec (.equinoxDone t c c1 c2) s = .next u) ∧
      (∀ e, x.eqx = some e →
        let w := e.start + 64
        (now < w → exec (.equinoxDone t c c1 c2) s = .next u) ∧
        (w ≤ now → x.bootRun = 4 → s.calCh c = none →
          (eqxPass c1 c2 = true → Answers (.equinoxDone t c c1 c2) s fun s' =>
            s'.stamper c = ({ x.setInterp x.oos (eqxLoad (x.interp x.oos) c1 c2) with
              eqx := none, fails := 0, stuck := false, lastPass := true, yAt := if e.gate then some (w + 8) else x.yAt } : Stamper).swap w ∧
            (c.val < 64 → s'.reg64 (sTin c) 0x040 = min (s.reg64 (sTin c) 0x040 + 1) (2 ^ 64 - 1)) ∧
            s' = { u with stampers := s'.stampers, regs := s'.regs }) ∧
          (eqxPass c1 c2 = false → Answers (.equinoxDone t c c1 c2) s fun s' =>
            (s'.stamper c).fails = x.fails + 1 ∧ (s'.stamper c).eqx = none ∧ (s'.stamper c).oos = x.oos ∧
            (∀ k, (s'.stamper c).at' k = x.at' k) ∧ (s'.stamper c).interp x.oos = x.interp x.oos ∧
            (s'.stamper c).stuck = (x.stuck || decide (x.fails + 1 = 4)) ∧
            (s'.stamper c).yAt = (if e.gate then some (w + 8) else x.yAt) ∧ (e.gate = false → (s'.stamper c).lastSwap = w) ∧
            (c.val < 64 → s'.reg64 (sTin c) 0x048 = min (s.reg64 (sTin c) 0x048 + 1) (2 ^ 64 - 1) ∧
              bit (s'.reg (ra (sTin c) 0x008)) 4 = true))) ∧
        (w ≤ now → x.bootRun < 3 → x.bootPass < 2 ^ x.bootRun → Answers (.equinoxDone t c c1 c2) s fun s' =>
          (s'.stamper c).bootRun = x.bootRun + 1 ∧ (s'.stamper c).eqx = some ⟨now, e.gate⟩ ∧
          (s'.stamper c).bootPass = x.bootPass + (if eqxPass c1 c2 then 2 ^ x.bootRun else 0) ∧
          ((s'.stamper c).booted = true ↔ x.booted = true ∨ (x.bootRun = 2 ∧ x.bootPass = 3 ∧ eqxPass c1 c2 = true))) ∧
        (w ≤ now → x.bootRun = 3 → x.booted = false →
          (eqxPass c1 c2 = true → x.bootPass ∈ [3, 5, 6] → Answers (.equinoxDone t c c1 c2) s fun s' =>
            (s'.stamper c).booted = true ∧ (s'.stamper c).ready = true ∧ (s'.stamper c).stuck = true ∧
            (s'.stamper c).lastSwap = now ∧ (s'.stamper c).bootFail = false) ∧
          (eqxPass c1 c2 = false → x.bootPass ∈ [0, 1, 2, 3, 4, 5, 6] → Answers (.equinoxDone t c c1 c2) s fun s' =>
            (s'.stamper c).booted = false ∧ (s'.stamper c).bootFail = true)))) ∧
    (s.armedSlots = [] →
      ((∀ w, x.windowAt = some w → now < w + 8) → (∀ y, x.yAt = some y → now < y) → exec (.swapWindowClose t c) s = .next u) ∧
      (∀ w, x.windowAt = some w → w + 8 ≤ now → x.yAt = none → x.reqWait = false →
        exec (.swapWindowClose t c) s = .next (u.setStamper c { x with windowAt := none, outgoing := none })) ∧
      (∀ w, x.windowAt = some w → w + 8 ≤ now → x.yAt = some (w + 8) →
        (x.reqWait = false → exec (.swapWindowClose t c) s = .next (u.setStamper c { x with
          windowAt := none, outgoing := none, yAt := none, ready := !(x.eqx.any (·.gate)) })) ∧
        (x.reqWait = true → s.calCh c = none → exec (.swapWindowClose t c) s = .next (u.setStamper c { x with
          windowAt := none, outgoing := none, yAt := none, reqWait := false, eqx := some ⟨w + 8, true⟩ }))))

/-! ### Measurement (05_measurement_engine.md) -/

/-- Gates. A source stamp joins the gate that holds its time. On the gate channel of a LEVEL slot the opening edge opens a
gate at its own time, one that comes before READY is ignored and counted EARLY, and the closing edge closes it, with the
next gate number, unless a Solstice lies before the close: then the gate is abandoned and takes no number. A TIMER slot asks
its channels 80 coarse periods ahead, opens at its edge for GLEN, and closes there; the others close at 2^48 − 1 coarse
periods. -/
def Obligations.MeasurementGates : Prop :=
  ∀ (s : State) (t : Nat) (i : Fin 1024), s.Powered →
    let u := s.advance t
    let now := max s.now t
    let m := s.mslot i
    let up := !s.tbit (oMeas i 0) 10
    let closes (p : Int) (c : Instr) : Prop := Answers c s fun s' =>
      (s'.mslot i).gate = none ∧ (s'.mslot i).prevClose = some p ∧
      ((s'.mslot i).closed.map (·.closeP)) = m.closed.map (·.closeP) ++ [p] ∧
      s'.tabw (oMeas i 17) = s.tabw (oMeas i 17) + 1 ∧ s'.regs = s.regs ∧ s'.stampers = s.stampers
    (s.measIn = [] → exec (.measStamp t) s = .next u) ∧
    (∀ x r, s.measIn = x :: r →
      ((s.armedSlots.filter fun j => s.slotUses j x.src) = [] → exec (.measStamp t) s = .next { u with measIn := r }) ∧
      ((s.armedSlots.filter fun j => s.slotUses j x.src) = [i.val] →
        (∀ g, s.mGsrc i = 0 ∨ s.mGsrc i = 3 → s.slotNames i x.src = true → 4096 ≤ x.src → m.closed = [] → m.gate = some g →
          g.openP ≤ x.phys → (s.mGsrc i = 0 → x.phys < g.closeP) →
          (1 < s.mMode i ∨ (g.a.length < 2 ^ 32 - 1 ∧ g.b.length < 2 ^ 32 - 1)) → Answers (.measStamp t) s fun s' =>
            s'.mslot i = { m with gate := some (s.gateAdd i g x) } ∧ s' = { u with measIn := r, meas := s'.meas }) ∧
        (s.mGsrc i = 1 → x.src = 4096 + s.mGtin i → s.slotNames i x.src = false →
          (x.rising = up → m.gate = none → m.armed = true → m.requested = false → m.readyP ≤ x.phys → m.recent = [] →
            2000 * (s.solEdge : Int) ≤ x.phys → Answers (.measStamp t) s fun s' =>
              (s'.mslot i).gate.map (·.openP) = some x.phys ∧ (s'.mslot i).gate.map (·.flags) = some x.flags ∧
              (s'.mslot i).gate.map (·.openT) = some (s.stampTime x.phys) ∧ s' = { u with measIn := r, meas := s'.meas }) ∧
          (x.rising = up → m.gate = none → m.armed = true → m.requested = true → Answers (.measStamp t) s fun s' =>
            (s'.mslot i).gate = none ∧ bit (s'.reg (ra sMeas 0x008)) 3 = true ∧
            s'.tabw (oMeas i 19) = BitVec.ofNat 32 (min ((s.tabw (oMeas i 19)).toNat + 1) (2 ^ 32 - 1))) ∧
          (x.rising = up → m.gate = none → m.armed = true → m.requested = false → m.readyP ≤ x.phys → m.recent = [] →
            x.phys < 2000 * (s.solEdge : Int) → Answers (.measStamp t) s fun s' =>
              (s'.mslot i).gate.map (·.openP) = some x.phys ∧
              (s'.mslot i).gate.bind (·.sol) = some (2000 * (s.solEdge : Int)) ∧ (∀ c ∈ s.mChans i, c ∈ s'.gateReqs)) ∧
          (∀ g, x.rising ≠ up → m.gate = some g → (∀ a, g.sol = some a → x.phys ≤ a) → closes x.phys (.measStamp t)) ∧
          (∀ g a, x.rising ≠ up → m.gate = some g → g.sol = some a → a < x.phys → m.closed = [] → Answers (.measStamp t) s fun s' =>
            (s'.mslot i).gate = none ∧ (s'.mslot i).closed = [] ∧ s'.tab = s.tab)))) ∧
    (∀ o, m.nextOpen = some o →
      (m.reqSent = true ∨ now + 80 < o → exec (.timerGateRequest t i) s = .next u) ∧
      (m.armed = true → m.reqSent = false → s.mGsrc i = 0 → o ≤ now + 80 → Answers (.timerGateRequest t i) s fun s' =>
        (s'.mslot i).reqSent = true ∧ (s'.mslot i).gate = m.gate ∧ (∀ c ∈ s.mChans i, c ∈ s'.gateReqs) ∧
        s' = { u with meas := s'.meas, gateReqs := s'.gateReqs })) ∧
    (s.mGsrc i ≠ 0 → exec (.timerGateEdge t i) s = .next u) ∧
    (s.mGsrc i = 0 →
      (∀ o, m.nextOpen = some o → m.gate = none → m.armed = true → o ≤ now → (∀ x ∈ m.recent, 4096 ≤ x.src) → Answers (.timerGateEdge t i) s fun s' =>
        (s'.mslot i).gate.map (·.openP) = some (2000 * (o : Int)) ∧
        (s'.mslot i).gate.map (·.closeP) = some (2000 * (o : Int) + 2000 * (s.mGlen i : Int)) ∧
        (s'.mslot i).nextOpen = some (o + s.mGlen i + s.mGspace i) ∧ s' = { u with meas := s'.meas }) ∧
      (∀ g, m.gate = some g → m.nextOpen = none → g.closeP ≤ 2000 * (now : Int) → closes g.closeP (.timerGateEdge t i))) ∧
    (m.gate = none ∨ s.mGsrc i = 0 → exec (.gateLengthLimit t i) s = .next u) ∧
    (∀ g, m.gate = some g → s.mGsrc i ≠ 0 → g.openP / 2000 + (2 ^ 48 - 1) ≤ (now : Int) →
      (∀ a, g.sol = some a → 2000 * (g.openP / 2000 + (2 ^ 48 - 1)) ≤ a) →
      closes (2000 * (g.openP / 2000 + (2 ^ 48 - 1))) (.gateLengthLimit t i))

/-- Results. A closed gate waits until every stamp that can belong to it has arrived. Then it is published: the record of
R128 and R129 stands in RES, is counted, goes to the slot's DMA channel where DMA_EN is 1, and sets GATE; a gate with too
little to measure yields none, is counted EMPTY and sets that event; under Frost the record repeats the values of the last
one and FROST is counted. The NSTAT-th gate publishes the statistics block. COUNT counts the stamps and gives their rate. A
gate that a Solstice found open is abandoned once no stamp can come that closes it at or before A. -/
def Obligations.MeasurementResults : Prop :=
  (∀ (s : State) (t : Nat) (i : Fin 1024) (g0 : MGate) (rest : List MGate), s.Powered → s.Settled → s.oldWords = [] →
      (s.mslot i).closed = g0 :: rest → (s.mslot i).lane = [] → (s.mslot i).gate.bind (·.sol) = none →
      let u := s.advance t
      let m := s.mslot i
      let g : MGate := { g0 with dropped := m.drops.any fun q => decide (g0.openP ≤ q) && decide (q < g0.closeP) }
      let r := u.gateRes i g (if m.doneClose = some g.openP then m.pend else none)
      let n := s.tfld (oMeas i 7) 0 24
      let body (vals : List Nat) (frost : Bool) : List Byte :=
        (([measHeader i 0 (u.gateFlags i g) (u.gateStatus i g frost) g.seq, g.openT, g.closeT,
          min r.nA (2 ^ 32 - 1) + 2 ^ 32 * min r.nB (2 ^ 32 - 1)] ++ vals).map w64).flatten
      let ch := s.tfld (oMeas i 0) 12 6
      let publishes (b : List Byte) (s' : State) : Prop :=
        (s'.mslot i).lastGate = b ∧ (s'.mslot i).closed = rest ∧ s'.reg64 sMeas 0x0E8 = min (s.reg64 sMeas 0x0E8 + 1) (2 ^ 64 - 1) ∧
        bit (s'.reg (ra sMeas 0x008)) 0 = true ∧ (s.tbit (oMeas i 0) 18 = false → s'.dma = s.dma) ∧
        (s.tbit (oMeas i 0) 18 = true →
          (s'.dmaCh ch).handed = (s.dmaCh ch).handed ++ [{ kind := 0, body := b, src := .meas i (s.mOwner i) }]) ∧
        (∀ j, j ≠ i.val → s'.mslot j = s.mslot j)
      (u.gateDue i g0 = false → Answers (.gateComplete t i) s fun s' =>
        s'.mslot i = { m with drained := max s.now t } ∧ s' = { u with meas := s'.meas }) ∧
      (u.gateDue i g0 = true →
        (n = 0 → r.produced = true →
          (s.mFrost i = false → Answers (.gateComplete t i) s fun s' => publishes (body r.vals false) s' ∧ (s'.mslot i).held = false) ∧
          (s.mFrost i = true → Answers (.gateComplete t i) s fun s' =>
            publishes (body m.lastVals true) s' ∧ (s'.mslot i).held = true ∧ bit (s'.reg (ra sMeas 0x008)) 5 = true)) ∧
        (n = 0 → r.produced = false → Answers (.gateComplete t i) s fun s' =>
          (s'.mslot i).closed = rest ∧ (s'.mslot i).lastGate = m.lastGate ∧ bit (s'.reg (ra sMeas 0x008)) 2 = true ∧
          s'.tabw (oMeas i 18) = BitVec.ofNat 32 (min ((s.tabw (oMeas i 18)).toNat + 1) (2 ^ 32 - 1)) ∧ s'.dma = s.dma) ∧
        (n ≠ 0 → m.devs.length + 1 < n → g.endBlock = false → Answers (.gateComplete t i) s fun s' =>
          (s'.mslot i).devs.length = m.devs.length + 1 ∧ (s'.mslot i).sseq = m.sseq ∧ (s'.mslot i).lastStat = m.lastStat) ∧
        (m.devs.length + 1 = n → Answers (.gateComplete t i) s fun s' =>
          (s'.mslot i).devs = [] ∧ (s'.mslot i).sseq = (m.sseq + 1) % 2 ^ 32 ∧ bit (s'.reg (ra sMeas 0x008)) 1 = true)) ∧
      (s.mMode i = 2 → g.closeP > g.openP →
        let a := polEdges (s.mSrcA i) (s.tbit (oMeas i 0) 4) g.a
        s.tfld (oMeas i 6) 0 24 ≤ a.length →
        r.produced = true ∧ r.nA = a.length ∧
        r.vals = [a.length, 0] ++ q64Words (q64 (a.length * 4_000_000_000_000 : Nat) (g.closeP - g.openP).toNat))) ∧
  (∀ (s : State) (t : Nat) (i : Fin 1024) (g : MGate) (a : Int), s.Powered → s.Settled → s.oldWords = [] → (s.mslot i).closed = [] → (s.mslot i).lane = [] →
    (s.mslot i).gate = some g → g.sol = some a → (s.advance t).srcPast i (4096 + s.mGtin i) a = true →
    Answers (.gateComplete t i) s fun s' =>
      (s'.mslot i).gate = none ∧ (s'.mslot i).closed = [] ∧ (s'.mslot i).lastGate = (s.mslot i).lastGate ∧ s'.tab = s.tab)

/-- A receiver's stamp, two at most from a die at one coarse edge, reaches every slot that names its source: it enters the
slot's lane queue of 4,096 with the marks that drops owe, or is dropped, counted and its event set, and the gate it lies in
will show DROP. A read of RES_00 or STR_00 takes a snapshot of the selected slot's last record for its access path; the
other words come from that snapshot, and where it is stale the page's read condition is latched. -/
def Obligations.MeasurementReads : Prop :=
  ∀ (s : State) (t : Nat), s.Powered →
    let u := s.advance t
    ((∀ e ∈ s.laneIn, 2 ≤ u.laneSent e.1) → exec (.measLaneStamp t) s = .next u) ∧
    (∀ d x r, s.laneIn = (d, x) :: r → u.laneSent d < 2 →
      ((s.armedSlots.filter fun j => s.slotNames j x.src) = [] → exec (.measLaneStamp t) s = .next { u with
        laneIn := r, laneOut := Sparse.put s.laneOut d (max s.now t, u.laneSent d + 1) }) ∧
      (∀ i, (s.armedSlots.filter fun j => s.slotNames j x.src) = [i] → (s.mslot i).drained = max s.now t →
        let m := s.mslot i
        let key := 8192 * i + x.src
        let owed := Sparse.get 0 s.laneOwed key
        (m.lane.length < 4096 → Answers (.measLaneStamp t) s fun s' =>
          s'.mslot i = { m with lane := m.lane ++ [{ x with flags := x.flags ||| joinMarks owed x.flags }] } ∧
          s'.laneIn = r ∧ Sparse.get 0 s'.laneOwed key = 0 ∧ s'.regs = s.regs) ∧
        (4096 ≤ m.lane.length → Answers (.measLaneStamp t) s fun s' =>
          s'.mslot i = { m with drops := x.phys :: m.drops } ∧ s'.laneIn = r ∧
          Sparse.get 0 s'.laneOwed key = joinMarks owed x.flags ∧
          s'.reg64 sMeas 0x0E0 = min (s.reg64 sMeas 0x0E0 + 1) (2 ^ 64 - 1) ∧ bit (s'.reg (ra sMeas 0x008)) 4 = true))) ∧
    (s.Reaches (ra sMeas 0x020) → s.served sMeas = true → ∀ p : Path,
      let i := s.rfld sMeas 0x018 0 10
      let v : State := { u with freeCtr := s.freeCtr + 1 }
      let late (b : Bool) : State := if b then v.latchFault sMeas else v
      let took (stat : Bool) (b : List Byte) : State := { v with measWins := Sparse.put s.measWins (winKey p stat) ⟨b, some i, false⟩ }
      exec (.resSnapshotRead t p false) s = .next
        ((took false (s.mslot i).lastGate).emit (.reply p (winWord (s.mslot i).lastGate 0))) ∧
      exec (.resSnapshotRead t p true) s = .next
        ((took true (s.mslot i).lastStat).emit (.reply p (winWord (s.mslot i).lastStat 0))) ∧
      (∀ k : Fin 32, k.val % 16 ≠ 0 → exec (.resWindowRead t p false k) s = .next
        ((late (s.measWin p false).stale).emit (.reply p (winWord (s.measWin p false).bytes (k.val % 16))))) ∧
      (∀ k : Fin 32, k.val ≠ 0 → exec (.resWindowRead t p true k) s = .next
        ((late (s.measWin p true).stale).emit (.reply p (winWord (s.measWin p true).bytes k)))))

/-! ### Timing outputs (06_timing_outputs.md) -/

/-- Placements. PL_PUSH queues what PL_TIME and PL_WIDTH hold on a channel of source 0, and sets BAD_PUSH on another; a
placement on its way, and a generator's pulse, queue the same; a full queue of 64 drops and counts. The head is dropped
GATED, LATE where less than 60 ns is left, or CONFLICT, in that order, or it passes; at P − 60 ns it is launched and
counted. -/
def Obligations.Placements : Prop :=
  ∀ (s : State) (t : Nat) (n : Fin 32), s.Powered → s.inReset (sTout n) = false →
    let u := s.advance t
    let now := max s.now t
    let c := s.tout n
    let add (x : Place) (k : Tout) : Tout := { k with
      queue := c.queue ++ [x], headAt := if c.queue.isEmpty then now else c.headAt, headOk := if c.queue.isEmpty then false else c.headOk }
    let one (off : Nat) : Nat := min (s.reg64 (sTout n) off + 1) (2 ^ 64 - 1)
    let dropped (off b : Nat) (s' : State) : Prop := s'.tout n = { c with queue := c.queue.drop 1, headAt := now, headOk := false } ∧
      s'.reg64 (sTout n) off = one off ∧ bit (s'.reg (ra (sTout n) 0x008)) b = true ∧
      (c.queue.length = 1 → bit (s'.reg (ra (sTout n) 0x008)) 5 = true)
    (∀ (p : Path) (v : Word), s.Reaches (ra (sTout n) 0x03C) → s.served (sTout n) = true →
      (s.toSrc n ≠ 0 → exec (.plPush t p n v) s = .next (u.evt (sTout n) 6)) ∧
      (s.toSrc n = 0 → c.queue.length < 64 → exec (.plPush t p n v) s = .next (u.setTout n
        (add { level := bit v 0, value := bit v 1, tP := u.physOf (s.reg64 (sTout n) 0x030), width := (s.reg (ra (sTout n) 0x038)).toNat } c))) ∧
      (s.toSrc n = 0 → 64 ≤ c.queue.length → exec (.plPush t p n v) s = .next ((u.bump64 (sTout n) 0x05C 1).evt (sTout n) 2))) ∧
    (c.transit = [] → exec (.placementArrive t n) s = .next u) ∧
    (∀ x r, c.transit = x :: r →
      (c.queue.length < 64 → Answers (.placementArrive t n) s fun s' => s'.tout n = add x { c with transit := r } ∧ s'.regs = s.regs) ∧
      (64 ≤ c.queue.length → Answers (.placementArrive t n) s fun s' => s'.tout n = { c with transit := r } ∧
        s'.reg64 (sTout n) 0x05C = one 0x05C ∧ bit (s'.reg (ra (sTout n) 0x008)) 2 = true)) ∧
    (s.toSrc n ≠ 2 ∨ c.gatedStop = true → exec (.generatorPulse t n) s = .next u) ∧
    (s.toSrc n = 2 → c.gatedStop = false → c.queue.length < 64 → Answers (.generatorPulse t n) s fun s' =>
      let k := s.genT n c.genK
      s'.tout n = add { level := false, value := true, tP := k, width := (s.reg (ra (sTout n) 0x02C)).toNat, gen := true }
        { c with genK := c.genK + 1 }) ∧
    (c.queue = [] ∨ c.headOk = true → exec (.placementHead t n) s = .next u) ∧
    (∀ x r, c.queue = x :: r → c.headOk = false →
      (c.gated = true ∨ (s.toSrc n = 1 ∧ c.seqHeld = true) → Answers (.placementHead t n) s (dropped 0x064 3)) ∧
      (c.gated = false → (s.toSrc n = 1 → c.seqHeld = false) →
        (s.placeP n x < 2000 * (c.headAt : Int) + 240_000 → Answers (.placementHead t n) s (dropped 0x04C 0)) ∧
        (2000 * (c.headAt : Int) + 240_000 ≤ s.placeP n x →
          (s.conflicts n x = true → Answers (.placementHead t n) s (dropped 0x054 1)) ∧
          (s.conflicts n x = false → exec (.placementHead t n) s = .next (u.setTout n { c with headOk := true }))))) ∧
    (c.queue = [] ∨ c.headOk = false → exec (.placementLaunch t n) s = .next u) ∧
    (∀ x r, c.queue = x :: r → c.headOk = true →
      let e := (s.placeP n x - 240_000) / 2000
      ((now : Int) < e → exec (.placementLaunch t n) s = .next u) ∧
      (e ≤ (now : Int) → Answers (.placementLaunch t n) s fun s' =>
        (s'.tout n).queue = r ∧ (s'.tout n).headAt = e.toNat ∧ (s'.tout n).passed = some (now, x) ∧ (∀ y ∈ s.transOf n x, y ∈ (s'.tout n).flight) ∧
        (∀ y ∈ c.flight, y ∈ (s'.tout n).flight) ∧ (s'.tout n).flight.length = c.flight.length + (s.transOf n x).length ∧
        s'.reg64 (sTout n) 0x044 = one 0x044))

/-- A launch splits the instant less the path's delay into a coarse edge and a code of at most 511, and they give it back to
within a code. The oldest transition in flight changes the ball and its echo is stamped as source 4160 + n, with the
sequence number of the echo stamper; one that finds the ball at its level already changes nothing and has no echo; while the
output is gated it does not leave, unless it is a move. Gating. STOP in force gates the outputs that heed it: their queue is
flushed and counted, GATED is set, an active ball goes to its idle level no sooner than 400 ps after the edge that made it
active, and a transition in flight that has not come to the ball stays behind the gate. The release opens the gate: moves
leave, and of the rest those from the first leading edge on whose launch falls after the release and that keeps the spacing.
An output that does not heed STOP is untouched. -/
def Obligations.OutputGating : Prop :=
  ((∀ (p d : Int) (g : Nat), (launchOf p d g).2 ≤ 511 ∧
     ((launchOf p d g).2 ≠ 0 → 2000 * (launchOf p d g).1 ≤ p - d ∧ p - d < 2000 * (launchOf p d g).1 + 2000 ∧
       2 ^ 16 * ((launchOf p d g).2 : Int) ≤ (p - d - 2000 * (launchOf p d g).1) * g + 32768 ∧
       (p - d - 2000 * (launchOf p d g).1) * g + 32768 < 2 ^ 16 * ((launchOf p d g).2 + 1 : Int))) ∧
   (∀ (now : Nat) (a b : Int) (last lead : Option Int) (l : List Trans),
     (∀ x ∈ ungateKeep now a b last lead l, x ∈ l) ∧
     (∀ x r, ungateKeep now a b last lead l = x :: r → x.leading = true ∧ (now : Int) < x.lead ∧
       (∀ q, last = some q → a ≤ x.p - q) ∧ (∀ q, lead = some q → b ≤ x.p - q))) ∧
   ∀ (s : State) (t q : Nat) (n : Fin 32), s.Powered →
     let u := s.advance t
     let c := s.tout n
     (c.flight = [] → exec (.toutTransition t n q) s = .next u) ∧
     (∀ x r, c.flight = x :: r →
       ((max s.now t : Int) < x.edge → exec (.toutTransition t n q) s = .next u) ∧
       (x.edge ≤ (max s.now t : Int) →
         let gone : Tout := { c with
           flight := r, active := x.active, leadP := if x.active && !c.active then some x.p else c.leadP
           launches := x.edge :: c.launches.filter fun l => decide ((max s.now t : Int) - 64 ≤ l) }
         (c.gated = true → x.sure = false → exec (.toutTransition t n q) s = .next (u.setTout n { c with flight := r })) ∧
         (c.gated = false ∨ x.sure = true → x.high = c.high → exec (.toutTransition t n q) s = .next (u.setTout n gone)) ∧
         (c.gated = false ∨ x.sure = true → x.high ≠ c.high → x.marker = false → Answers (.toutTransition t n q) s fun s' =>
           let st := (u.plainStamp (64 + n) (4160 + n) t q x.high (-(s.toDeskew n))).1
           let bank := match c.switched with
             | some w => decide (w ≤ t) && decide (t < w + 8)
             | none => false
           let y := { st with flags := st.flags ||| flagIf bank fCAL ||| flagIf x.trunc fTRUNC }
           s'.tout n = { gone with
             high := x.high, doneTrans := some x.p, doneLead := if x.leading then some x.p else c.doneLead } ∧
           s'.out = .toutBall n x.high x.edge x.code :: s.out ∧
           (s'.stamper (64 + n)).seq = ((s.stamper (64 + n)).seq + 1) % 2 ^ 32 ∧
           s'.condIn = (if s.condUses (4160 + n) then s.condIn ++ [.edge y] else s.condIn) ∧
           s'.measIn = (if s.measUses (4160 + n) then s.measIn ++ [y] else s.measIn) ∧ s'.regs = s.regs ∧ s'.ttls = s.ttls)))) ∧
  (∀ (s : State) (t : Nat) (n : Fin 32), s.Powered → s.Settled → s.runningCtxs = [] →
     let u := s.advance t
     let c := s.tout n
     (s.stopSrc ≠ 0 → s.stopOn = false → s.dev ≠ .booting →
       (s.rbit (sTout n) 0x014 11 = false → Answers (.stopOn t) s fun s' => s'.tout n = c) ∧
       (s.rbit (sTout n) 0x014 11 = true → c.gated = false → (∀ e x, c.passed = some (e, x) → e ≠ max s.now t) →
         Answers (.stopOn t) s fun s' =>
           (s'.tout n).gatedStop = true ∧ (s'.tout n).gatedLock = false ∧ (s'.tout n).queue = [] ∧
           (s'.tout n).transit = c.transit ∧ bit (s'.reg (ra (sTout n) 0x008)) 3 = true ∧
           s'.reg64 (sTout n) 0x06C = min (s.reg64 (sTout n) 0x06C + c.queue.length) (2 ^ 64 - 1) ∧
           (∀ l, c.flight = [] → c.high = true → c.active = true → c.leadP = some l →
             (s'.tout n).flight.map (fun x => (x.p, x.high, x.sure, x.trunc)) = [(max u.phys (l + 1600), false, true, true)]))) ∧
     (s.stopSrc = 0 → s.stopOn = true → s.boot.starts = [] → s.dma = [] → s.toInv n = false → c.gatedStop = true → c.gatedLock = false →
       c.gatedDorm = false → Answers (.stopOff t) s fun s' =>
         let moves := c.flight.filter (·.sure)
         (s'.tout n).gatedStop = false ∧
         (s'.tout n).flight = (ungateKeep (max s.now t) (s.spaceAny n) (s.spaceLead n)
           ((moves.getLast?.map (·.p)).or c.doneTrans) c.doneLead (c.flight.filter fun x => !x.sure)).foldl
             (fun l x => insTrans x l) moves))

/-! ### Event lanes (07_event_lanes.md) -/

/-- The lane as a link. Decoding and failing codewords are counted; eight of the one in succession give lock, eight of the
other lose the lane, as do a lost signal, 2 µs without a matching ACK, and registration words missing for 10 ms: the lane is
LOST, with LAST_FAIL, LOSSES and the tile's lost mark open from the last ACK. POLLs go out every 500 ns, a tile's POLL is
answered, a matching ACK restarts the timer and takes an aligned lane to REGISTERING, credit is sent while UP, and a LOST
lane retrains after RETRY. -/
def Obligations.LaneLink : Prop :=
  ∀ (s : State) (t : Nat) (n : Fin 64), s.Powered →
    let u := s.advance t
    let now := max s.now t
    let x := s.lane n
    let one (off k : Nat) : Nat := min (s.reg64 (sLane n) off + k) (2 ^ 64 - 1)
    let lost (why : Nat) (c : Instr) : Prop := Answers c s fun s' =>
      (s'.lane n).st = .lost ∧ (s'.lane n).lastFail = why ∧ (s'.lane n).lostAt = now ∧ (s'.lane n).cw = false ∧
      (s'.lane n).buf = x.buf ∧ s'.reg64 (sLane n) 0x080 = one 0x080 1 ∧ bit (s'.reg (ra (sLane n) 0x008)) 1 = true ∧
      (s'.tile n).lostOpen = true ∧ s'.tab64 (oTile n 24) = u.epoch ∧
      (∀ e, x.lastAck = some e → s'.tab64 (oTile n 22) = u.stampTime (2000 * (e : Int))) ∧
      (x.lastAck = none → s'.tab64 (oTile n 22) = s.tab64 (oTile n 22)) ∧
      bit (s'.reg (ra (sReb (tileDie n)) 0x008)) 2 = true
    let tag : Word64 → Nat := fun w => nfld w.toNat 0 16
    let known (w : Word64) : Bool := x.polls.any fun p => decide (p.1 = tag w) && decide (now ≤ p.2 + 4000)
    (x.st = .off ∨ x.st = .lost → ∀ r, exec (.laneCodeword t n r) s = .next u) ∧
    (laneOpen x.st = true ∨ x.st = .training →
      (∀ c f, (x.cw = false → exec (.laneCodeword t n (.decoded c f)) s = .next
          (u.setLane n { x with cdr := true, good := x.good + 1, bad := 0 })) ∧
        (x.cw = true → Answers (.laneCodeword t n (.decoded c f)) s fun s' =>
          s'.lane n = { x with cdr := true, good := x.good + 1, bad := 0 } ∧ s'.reg64 (sLane n) 0x070 = one 0x070 c ∧
          s'.reg64 (sLane n) 0x050 = one 0x050 f ∧ (f ≠ 0 → bit (s'.reg (ra (sLane n) 0x008)) 3 = true))) ∧
      (∀ k, (x.cw = false → exec (.laneCodeword t n (.failed k)) s = .next
          (u.setLane n { x with cdr := true, good := 0, bad := x.bad + 1 })) ∧
        (x.cw = true → Answers (.laneCodeword t n (.failed k)) s fun s' =>
          s'.lane n = { x with cdr := true, good := 0, bad := x.bad + 1 } ∧ s'.reg64 (sLane n) 0x068 = one 0x068 1 ∧
          s'.reg64 (sLane n) 0x050 = one 0x050 k ∧ bit (s'.reg (ra (sLane n) 0x008)) 3 = true))) ∧
    (x.st ≠ .training ∨ x.good < 8 → exec (.laneCwLock t n) s = .next u.wakeAll) ∧
    (x.st = .training → 8 ≤ x.good → Answers (.laneCwLock t n) s fun s' =>
      s'.lane n = { x with st := .aligned, cw := true, r := 0, l := 0, creditL := 0, alignedAt := now, ackAt := now, polls := [] } ∧
      s'.identSeen n = false ∧ s'.unitSeen n = false ∧ s' = { u with lanes := s'.lanes, regs := s'.regs, ctxs := s'.ctxs }) ∧
    (laneOpen x.st = false →
      exec (.laneAlignLoss t n) s = .next u.wakeAll ∧ exec (.ackTimeout t n) s = .next u.wakeAll ∧ exec (.pollTx t n) s = .next u ∧
      (x.st = .training →
        exec (.laneSignalLoss t n) s = .next (u.setLane n { x with cdr := false, good := 0, bad := 0 }).wakeAll)) ∧
    (laneOpen x.st = true →
      (8 ≤ x.bad → lost 2 (.laneAlignLoss t n)) ∧ (x.bad < 8 → exec (.laneAlignLoss t n) s = .next u.wakeAll) ∧ lost 3 (.laneSignalLoss t n) ∧
      (x.ackAt + 4000 ≤ now → lost 1 (.ackTimeout t n)) ∧ (now < x.ackAt + 4000 → exec (.ackTimeout t n) s = .next u.wakeAll) ∧
      (∀ p r, x.polls = p :: r → p.2 + 1000 ≤ now → Answers (.pollTx t n) s fun s' =>
        (s'.lane n).tag = (x.tag + 1) % 2 ^ 16 ∧ (s'.lane n).polls.head? = some (x.tag, now) ∧
        s'.out = .laneWord n (BitVec.ofNat 64 (2 ^ 56 + x.tag)) :: s.out) ∧
      (∀ p r, x.polls = p :: r → now < p.2 + 1000 → exec (.pollTx t n) s = .next u) ∧
      (∀ w : Word64, nfld w.toNat 56 8 = 1 →
        exec (.poll t n w) s = .next (u.emit (.laneWord n (BitVec.ofNat 64 (2 * 2 ^ 56 + tag w))))) ∧
      (∀ w : Word64, nfld w.toNat 56 8 = 2 →
        (known w = false → exec (.ack t n w) s = .next u.wakeAll) ∧
        (known w = true → x.st ≠ .aligned → exec (.ack t n w) s = .next (u.setLane n { x with ackAt := now, lastAck := some now }).wakeAll) ∧
        (known w = true → x.st = .aligned → s.identSeen n = false → s.unitSeen n = false →
          exec (.ack t n w) s = .next (u.setLane n { x with ackAt := now, lastAck := some now, st := .registering }).wakeAll))) ∧
    (x.st = .registering → x.alignedAt + 20_000_000 ≤ now → lost 4 (.registrationTimeout t n)) ∧
    (x.st ≠ .registering ∨ now < x.alignedAt + 20_000_000 → exec (.registrationTimeout t n) s = .next u.wakeAll) ∧
    (x.st ≠ .up → exec (.credit t n) s = .next u) ∧
    (x.st = .up → (64 ≤ cdiff x.l x.creditL ∨ x.creditAt + 2000 ≤ now) → exec (.credit t n) s = .next
      ((u.setLane n { x with creditL := x.l, creditAt := now }).emit (.laneWord n (ctlWord 3 x.l)))) ∧
    (x.st ≠ .lost ∨ s.rfld (sLane n) 0x014 8 8 = 0 ∨ now < x.lostAt + s.rfld (sLane n) 0x014 8 8 * 2_000_000 →
      exec (.laneRetry t n) s = .next u.wakeAll) ∧
    (x.st = .lost → s.rfld (sLane n) 0x014 8 8 ≠ 0 → x.lostAt + s.rfld (sLane n) 0x014 8 8 * 2_000_000 ≤ now →
      Answers (.laneRetry t n) s fun s' => (s'.lane n).st = .training ∧ (s'.lane n).buf = x.buf ∧ (s'.lane n).good = 0)

/-- The words of a lane. A lane that is not open takes none. HIT, MARK and HEALTH consume credit: R advances, and a word
beyond L is dropped and counted. A HIT of a receiver that the registration has and a PERIODIC MARK enter the ingress buffer;
a MARK of a reserved kind and a HIT beyond the registration are dropped under R158. HEALTH resynchronises R upward only.
IDENT and UNIT are stored and compared: both matching bring the lane UP, one that does not match brings MISMATCH. The credit
limit of a lane never falls as words arrive. -/
def Obligations.LaneWords : Prop :=
  ∀ (s : State) (t : Nat) (n : Fin 64) (w : Word64), s.Powered →
    let u := s.advance t
    let x := s.lane n
    let v := w.toNat
    let one (off k : Nat) : Nat := min (s.reg64 (sLane n) off + k) (2 ^ 64 - 1)
    let spent (s' : State) : Prop := (s'.lane n).r = (x.r + 1) % 2 ^ 32 ∧ (s'.lane n).st = x.st ∧ 0 ≤ cdiff (s'.lane n).l x.l
    let counts (off b : Nat) (s' : State) : Prop :=
      s'.reg64 (sLane n) off = one off 1 ∧ bit (s'.reg (ra (sLane n) 0x008)) b = true ∧ (s'.lane n).buf = x.buf
    let room := 0 ≤ cdiff x.l (x.r + 1)
    let cnt := s.rfld (sLane n) 0x01C 0 6
    (laneOpen x.st = false →
      (∀ c ∈ [Instr.hit t n w, .mark t n w, .health t n w, .poll t n w], exec c s = .next u) ∧
      (∀ c ∈ [Instr.ident t n w, .unit t n w, .ack t n w], exec c s = .next u.wakeAll)) ∧
    (laneOpen x.st = true →
      (nfld v 62 2 = 1 →
        (¬room → Answers (.hit t n w) s fun s' => spent s' ∧ counts 0x058 4 s') ∧
        (room → cnt < nfld v 56 6 → Answers (.hit t n w) s fun s' => spent s' ∧ counts 0x060 5 s') ∧
        (room → nfld v 56 6 ≤ cnt → Answers (.hit t n w) s fun s' =>
          spent s' ∧ (s'.lane n).buf = x.buf ++ [⟨w, max s.now t⟩] ∧ s'.reg64 (sLane n) 0x040 = one 0x040 1)) ∧
      (nfld v 62 2 = 2 →
        (¬room → Answers (.mark t n w) s fun s' => spent s' ∧ counts 0x058 4 s') ∧
        (room → 3 ≤ nfld v 58 4 → Answers (.mark t n w) s fun s' => spent s' ∧ counts 0x060 5 s') ∧
        (room → nfld v 58 4 = 0 → Answers (.mark t n w) s fun s' =>
          spent s' ∧ (s'.lane n).buf = x.buf ++ [⟨w, max s.now t⟩] ∧ s'.reg64 (sLane n) 0x048 = one 0x048 1) ∧
        (∀ k, room → s.tileLink n = some k →
          (nfld v 58 4 = 1 → Answers (.mark t n w) s fun s' => spent s' ∧ (s'.ttl k) = { s.ttl k with repRx := some (nfld v 0 56) }) ∧
          (nfld v 58 4 = 2 → Answers (.mark t n w) s fun s' => spent s' ∧ (s'.ttl k) = { s.ttl k with repTx := some (nfld v 0 56) }))) ∧
      (nfld v 62 2 = 3 → nfld v 58 4 = 0 → room → Answers (.health t n w) s fun s' =>
        (s'.lane n).st = x.st ∧ (s'.lane n).buf = x.buf ∧
        (0 ≤ cdiff (nfld v 0 32) ((x.r + 1) % 2 ^ 32) → (s'.lane n).r = nfld v 0 32) ∧
        (cdiff (nfld v 0 32) ((x.r + 1) % 2 ^ 32) < 0 →
          (s'.lane n).r = (x.r + 1) % 2 ^ 32 ∧ bit (s'.reg (ra (sLane n) 0x008)) 6 = true) ∧
        s'.rfld (sLane n) 0x038 16 8 = nfld v 48 8 ∧ s'.reg64 (sLane n) 0x078 = one 0x078 (nfld v 32 16) ∧
        (nfld v 32 16 ≠ 0 → bit (s'.reg (ra (sLane n) 0x008)) 7 = true)) ∧
      (nfld v 62 2 = 3 → nfld v 58 4 = 1 →
        let fits := nfld v 52 6 = s.rfld (sLane n) 0x01C 0 6 ∧ nfld v 48 4 = s.rfld (sLane n) 0x01C 8 4
        Answers (.ident t n w) s fun s' =>
          s'.identSeen n = true ∧ s'.rfld (sLane n) 0x038 0 6 = nfld v 52 6 ∧ s'.rfld (sLane n) 0x038 8 4 = nfld v 48 4 ∧
          s'.reg64 (sLane n) 0x030 = nfld v 0 48 ∧
          (x.st = .aligned → s'.lane n = x) ∧
          (x.st = .registering → fits → s.unitSeen n = false → s'.lane n = x) ∧
          (x.st = .registering → fits → s.unitSeen n = true → s.unitMatch n = true →
            (s'.lane n).st = .up ∧ bit (s'.reg (ra (sLane n) 0x008)) 0 = true) ∧
          (x.st = .up → fits → s'.lane n = x) ∧
          (x.st = .mismatch → fits → x.nextUnit = true → (s'.lane n).st = .up ∧ bit (s'.reg (ra (sLane n) 0x008)) 0 = true) ∧
          (x.st = .mismatch → ¬fits → s'.lane n = { x with nextId := false }) ∧
          ((x.st = .registering ∨ x.st = .up) → ¬fits →
            (s'.lane n).st = .mismatch ∧ bit (s'.reg (ra (sLane n) 0x008)) 2 = true)) ∧
      (nfld v 62 2 = 3 → nfld v 58 4 = 2 →
        let fits := BitVec.ofNat 32 (nfld v 0 32) = s.reg (ra (sLane n) 0x020)
        Answers (.unit t n w) s fun s' =>
          s'.unitSeen n = true ∧ s'.reg (ra (sLane n) 0x03C) = BitVec.ofNat 32 (nfld v 0 32) ∧
          (x.st = .aligned → s'.lane n = x) ∧
          (x.st = .registering → fits → s.identSeen n = true → s.identMatch n = true →
            (s'.lane n).st = .up ∧ bit (s'.reg (ra (sLane n) 0x008)) 0 = true) ∧
          (x.st = .up → fits → s'.lane n = x) ∧
          ((x.st = .registering ∨ x.st = .up) → ¬fits →
            (s'.lane n).st = .mismatch ∧ bit (s'.reg (ra (sLane n) 0x008)) 2 = true)))

/-! ### Rebase, binning and beams (08_rebase_and_binning.md, 09_beam_former.md) -/

/-- A hit leaves the buffer, is numbered, flagged STATION_LOST while the model is stale, and offered to the sequencer;
before the horizon it is late, more than 1 µs ahead it is early, and both are dropped and counted; else it enters the bin of
its time in every active plane, up to 15 of a receiver, and the measurement engine's path, with the marks that dropped hits
owe. A MARK of a marker-only tile is a refresh point. A model is stale more than AGE µs after its last point. A bin is
released once the horizon has passed its end, with the counts and the lost tiles it held. A beam's value is requantised with
halves toward +∞ and the limits of 8 bits. -/
def Obligations.RebaseAndBins : Prop :=
  (∀ (s : State) (t : Nat) (n : Fin 64), s.Powered → s.Settled → (∀ c ∈ s.runningCtxs, c < 512) → (∀ i ∈ s.armedSlots, i < 1024) →
    (∀ e ∈ s.caps, e.1 < 512) →
    let u := s.advance t
    let x := s.lane n
    let pg := sReb (tileDie n)
    let why := u.tileWhy n
    let kept := why = s.tfld (oTile n 8) 3 3
    (x.buf = [] → exec (.rebaseHit t n) s = .next u) ∧
    (∀ w r, x.buf = w :: r → kept → nfld w.w.toNat 62 2 = 1 →
      let h := (u.rebase n w.at' w.w).1
      let took (s' : State) : Prop := (s'.lane n).buf = r ∧ s'.tabw (oRx h.src 0) = s.tabw (oRx h.src 0) + 1 ∧
        s'.condIn = (if s.condUses h.src then s.condIn ++ [.edge h] else s.condIn)
      h.src = 64 * n + nfld w.w.toNat 56 6 ∧ h.rising = true ∧ (why ≠ 0 → h.flags &&& fLOST = fLOST) ∧
      (0 < x.lostAt → w.at' ≤ x.lostAt → h.flags &&& fLOST = fLOST) ∧
      (h.phys < u.phys - s.horizon → Answers (.rebaseHit t n) s fun s' => took s' ∧ s'.planes = s.planes ∧ s'.laneIn = s.laneIn ∧
        s'.reg64 pg 0x01C = min (s.reg64 pg 0x01C + 1) (2 ^ 64 - 1) ∧ bit (s'.reg (ra pg 0x008)) 3 = true ∧
        s'.tabw (oRx h.src 1) = BitVec.ofNat 32 (min ((s.tabw (oRx h.src 1)).toNat + 1) (2 ^ 32 - 1)) ∧
        s'.rxOwed = oweDrop s.rxOwed h) ∧
      (u.phys - s.horizon ≤ h.phys → u.phys + 4_000_000 < h.phys → Answers (.rebaseHit t n) s fun s' =>
        took s' ∧ s'.planes = s.planes ∧ s'.laneIn = s.laneIn ∧ bit (s'.reg (ra pg 0x008)) 5 = true ∧
        s'.rxOwed = oweDrop s.rxOwed h) ∧
      (u.phys - s.horizon ≤ h.phys → h.phys ≤ u.phys + 4_000_000 → 2000 * (s.solEdge : Int) ≤ h.phys → s.capsOf h.src = [] →
        Answers (.rebaseHit t n) s fun s' => took s' ∧
          s'.laneIn = s.laneIn ++
            (if s.armedSlots.any fun i => s.slotNames i h.src then [(tileDie n, (passOwed s.rxOwed h).1)] else []) ∧
          (∀ p, p < 4 →
            let k := s.plane p
            let b := ((h.phys + Sparse.get 0 k.delays h.src - 2000 * (s.solEdge : Int)) / s.planeW p).toNat
            (k.active = false → s'.plane p = k) ∧
            (k.active = true → s'.plane p = { k with grid := (k.grid.add h.src b (decide (h.flags &&& fLOST ≠ 0))).1 } ∧
              Sparse.get 0 (s'.plane p).grid.counts (h.src + 4096 * b) = min 15 (Sparse.get 0 k.grid.counts (h.src + 4096 * b) + 1))))) ∧
    (∀ w r, x.buf = w :: r → kept → nfld w.w.toNat 62 2 = 2 → s.tileAbsent n = false → s.tileMode n = 2 →
      s.solEdge ≤ w.at' → (s.tile n).points = [] → Answers (.rebaseHit t n) s fun s' =>
        (s'.lane n).buf = r ∧ (s'.tile n).points.length = 1 ∧ s'.tab64 (oTile n 26) = min (s.tab64 (oTile n 26) + 1) (2 ^ 64 - 1) ∧
        s'.planes = s.planes) ∧
    (kept → exec (.modelAgeExpire t n) s = .next u) ∧
    (s.tileMode n ≠ 0 →
      (∀ r, (s.tile n).refP = some r → s.tileAbsent n = false → (s.tile n).solGone = false → s.haveModel n = true →
        (s.tile n).resBad = false → why = if (s.tfld (oTile n 1) 0 24 : Int) * 4_000_000 < u.phys - r then 2 else 0) ∧
      (¬kept → Answers (.modelAgeExpire t n) s fun s' =>
        s'.tfld (oTile n 8) 3 3 = why ∧ s'.tbit (oTile n 8) 0 = decide (why = 0) ∧
        (s.tbit (oTile n 8) 0 = true → why ≠ 0 → bit (s'.reg (ra pg 0x008)) 0 = true) ∧
        (s.tbit (oTile n 8) 0 = false → why = 0 → bit (s'.reg (ra pg 0x008)) 1 = true) ∧ s'.planes = s.planes))) ∧
  (∀ (s : State) (t : Nat) (p : Fin 4), s.Powered → s.Settled →
    let u := s.advance t
    let k := s.plane p
    let stop : Int := 2000 * (s.solEdge : Int) + ((k.grid.next + 1) * s.planeW p : Nat)
    (k.active = false → exec (.binRelease t p) s = .next u) ∧
    (k.active = true → k.old = [] →
      (u.phys - s.horizon < stop → exec (.binRelease t p) s = .next u) ∧
      (stop ≤ u.phys - s.horizon → s.runningCtxs = [] → Answers (.binRelease t p) s fun s' =>
        (s'.plane p).grid.next = k.grid.next + 1 ∧ (s'.plane p).hist.length = min 64 (k.hist.length + 1) ∧
        (∃ x, (s'.plane p).hist.head? = some x ∧
          (∀ r, r < 4096 → Sparse.get 0 x.counts r = Sparse.get 0 k.grid.counts (r + 4096 * k.grid.next)) ∧
          (∀ i, (Sparse.get 0 k.grid.marks k.grid.next).testBit i = true → x.lost.testBit i = true) ∧
          (∀ e ∈ s.tiles, e.2.lostOpen = true → x.lost.testBit e.1 = true)) ∧
        s'.reg64 (sBin p) 0x020 = min (s.reg64 (sBin p) 0x020 + 1) (2 ^ 64 - 1) ∧ (∀ q, q ≠ p.val → s'.plane q = s.plane q)))) ∧
  (∀ (sum : Int) (k : Nat),
    let v := beamQuant sum k
    v.1 ≤ 127 ∧ -128 ≤ v.1 ∧
    (v.2 = false → 0 < k → 2 ^ k * v.1 ≤ sum + 2 ^ (k - 1) ∧ sum + 2 ^ (k - 1) < 2 ^ k * v.1 + 2 ^ k) ∧
    (v.2 = true → v.1 = 127 ∨ v.1 = -128))

/-! ### Resident correlator (10_resident_correlator.md) -/

/-- A bin forms every product of the values that are not 0, at lags 0 to 15, one accumulator for each pair i ≤ j and lag; an
accumulator that would pass a limit of its width pins there. A Harvest that closes takes a free buffer and is swept, or is
lost and counted. HARVEST hands the oldest swept block, of the length its shape gives, to the context's channel and counts
it. A tile that fails in service pins its accumulator at the limit, in the Harvest that the accumulator still holds, and its
work moves at the next boundary; a spare that fails its test is retired, and with none left a slice goes (the model's
choice, log entry 53). -/
def Obligations.Correlator : Prop :=
  (∀ (beams : List Bool) (now : List Int) (past : List (List Int)) (key : Nat) (b : Bool) (v : Int),
    (key, b, v) ∈ binProducts beams now past ↔ ∃ lag i j l vi vj, lag < 16 ∧ i ≤ j ∧ (now :: past)[lag]? = some l ∧ l[i]? = some vi ∧
      now[j]? = some vj ∧ vi ≠ 0 ∧ vj ≠ 0 ∧ key = 16 * pairIdx i j + lag ∧ b = (beams.getD i false || beams.getD j false) ∧ v = vi * vj) ∧
  (∀ i j i' j' : Nat, i ≤ j → i' ≤ j' → pairIdx i j = pairIdx i' j' → i = i' ∧ j = j') ∧
  (∀ (w : Nat) (v : Int), 0 < w →
    accAdd w false v = (min v (2 ^ w - 1), decide (2 ^ w - 1 ≤ v)) ∧
    accAdd w true v = (satSigned w v, decide (v ≤ -(2 ^ (w - 1)) ∨ 2 ^ (w - 1) - 1 ≤ v))) ∧
  (∀ (s : State) (c : Fin 512) (h : Harv) (stopped : Bool), (s.cor c).cur = some h → (s.cor c).ladder = none →
    let x := s.cor c
    let s' := s.corClose c stopped false
    let marks := blockMarks x.seen x.owed h.orig h.first h.bins x.w
    let h1 : Harv := { h with
      written := h.written ++ (x.touched.map (·.1)).filter fun k => !h.written.contains k
      seq := (s.tabw (oCor c 5)).toNat, stopped := stopped, trunc := decide (h.bins < h.want), flags := marks }
    s'.tabw (oCor c 5) = s.tabw (oCor c 5) + 1 ∧ (s'.cor c).cur = none ∧ (s'.cor c).epochBit = !x.epochBit ∧
    (x.bufs < s.corNbuf c → (s'.cor c).sweep = x.sweep ++ [h1] ∧ (s'.cor c).bufs = x.bufs + 1 ∧ (s'.cor c).owed = 0 ∧
      s'.tabw (oCor c 6) = s.tabw (oCor c 6)) ∧
    (s.corNbuf c ≤ x.bufs → (s'.cor c).sweep = x.sweep ∧ (s'.cor c).bufs = x.bufs ∧ (s'.cor c).owed = marks ∧
      (s'.tabw (oCor c 6)).toNat = min ((s.tabw (oCor c 6)).toNat + 1) (2 ^ 32 - 1) ∧
      s'.reg64 (sCor 0) 0x038 = min (s.reg64 (sCor 0) 0x038 + 1) (2 ^ 64 - 1) ∧ bit (s'.reg (ra (sCor 0) 0x008)) 1 = true)) ∧
  (∀ (s : State) (c : Nat) (h : Harv) (l : Ladder),
    let n := s.slotCnt c
    let pairs := n * (n + 1) / 2
    (s.residentBlock c h).length = 128 + 64 * ((n + 7) / 8) + 64 * pairs + 64 ∧
    (s.ladderBlock c l).length = 192 + 1280 * (s.ladEntries c).length ∧
    (∀ k, k < 16 * pairs →
      ((s.residentBlock c h).drop (128 + 64 * ((n + 7) / 8) + 4 * k)).take 4 = leBytes 4 (Sparse.get 0 h.acc k % 2 ^ 32).toNat)) ∧
  (∀ (s : State) (t : Nat) (c : Fin 512), s.Powered → (∀ e ∈ s.caps, e.2.full = false) → Sparse.get [] s.oldWords c = [] →
    let u := s.advance t
    let x := s.cor c
    let ch := s.corDma c
    let sent (m : Msg) (trunc : Bool) (s' : State) : Prop :=
      (s'.dmaCh ch).handed = (s.dmaCh ch).handed ++ [m] ∧ s'.reg64 (sCor 0) 0x030 = min (s.reg64 (sCor 0) 0x030 + 1) (2 ^ 64 - 1) ∧
      bit (s'.reg (ra (sCor 0) 0x008)) 0 = true ∧
      bit (s'.reg (ra (sCor 0) 0x008)) 5 = (trunc || bit (s.reg (ra (sCor 0) 0x008)) 5)
    (s.Settled → x.sweep = [] → exec (.harvest t c false) s = .next u) ∧
    (s.Settled → x.ladSweep = [] → exec (.harvest t c true) s = .next u) ∧
    (∀ h r, x.sweep = h :: r → Answers (.harvest t c false) s fun s' =>
      sent { kind := 2, body := u.residentBlock c h, src := .harvest c } h.trunc s' ∧
      (x.closing = false → s'.cor c = { x with sweep := r }) ∧
      (x.closing = true → x.cur = none → r = [] → x.ladSweep = [] → x.ready = [] → x.own = none →
        s'.cor c = { bufs := x.bufs, ladBufs := x.ladBufs, seen := x.seen, ladSeen := x.ladSeen, owed := x.owed, ladOwed := x.ladOwed } ∧
        s'.tabw (oCor c 4) = 0)) ∧
    (∀ l r, x.ladSweep = l :: r → Answers (.harvest t c true) s fun s' =>
      sent { kind := 2, body := u.ladderBlock c l, src := .ladder c } l.trunc s' ∧
      (x.closing = false → s'.cor c = { x with ladSweep := r })) ∧
    (∀ (i j : Fin 2048) (lag : Fin 16) (die : Fin 2),
      let key := 16 * pairIdx i j + lag
      let beam (k : Nat) : Bool := (((s.ctxSlots c)[k]?).map (·.1)).getD false
      let real := i ≤ j ∧ j.val < s.slotCnt c
      let pinned (h h' : Harv) (s' : State) : Prop := h'.fault = true ∧ key ∈ h'.pins ∧
        Sparse.get 0 h'.acc key = (if beam i || beam j then (if Sparse.get 0 h.acc key < 0 then -(2 ^ 31) else 2 ^ 31 - 1)
          else 2 ^ 32 - 1) ∧
        (∀ k, k ≠ key → Sparse.get 0 h'.acc k = Sparse.get 0 h.acc k ∧ (k ∈ h'.pins ↔ k ∈ h.pins)) ∧
        (key ∉ h.pins → s'.reg64 (sCor die) 0x040 = min (s.reg64 (sCor die) 0x040 + 1) (2 ^ 64 - 1)) ∧
        s'.bbr = (u.bbrFault (sCor die) c 1).bbr
      (s.Settled → x.run = 0 → exec (.arrayTileFault t c i j lag die) s = .next u) ∧
      (x.run = 1 → x.closing = false →
        (¬real ∨ x.harvestOf key = none → Answers (.arrayTileFault t c i j lag die) s fun s' =>
          s'.cor c = { x with subst := x.subst ++ [die.val] } ∧ s'.bbr = (u.bbrFault (sCor die) c 1).bbr) ∧
        (∀ h, real → x.stale key = false → x.cur = some h → Answers (.arrayTileFault t c i j lag die) s fun s' => ∃ h',
          s'.cor c = { x with subst := x.subst ++ [die.val], cur := some h' } ∧ pinned h h' s') ∧
        (∀ l h, real → x.stale key = true → x.sweep = l ++ [h] → Answers (.arrayTileFault t c i j lag die) s fun s' => ∃ h',
          s'.cor c = { x with subst := x.subst ++ [die.val], sweep := l ++ [h'] } ∧ pinned h h' s')) ∧
      (x.run = 1 → x.closing = true → x.subst = [] → s.spareLeft die = true → Answers (.arrayTileFault t c i j lag die) s fun s' =>
        (s'.cor c).subst = [] ∧ s'.spareUsed die = s.spareUsed die + 1 ∧ s'.bbr = (u.bbrFault (sCor die) c 1).bbr) ∧
      (x.run = 2 → s.spareLeft die = true → Answers (.arrayTileFault t c i j lag die) s fun s' =>
        s'.spareUsed die = s.spareUsed die + 1 ∧ s'.cor c = x ∧ s'.reg (ra (sCor die) 0x014) = s.reg (ra (sCor die) 0x014)))) ∧
  (∀ (s : State) (t : Nat) (die : Fin 2), s.Powered →
    (s.spareLeft die = true → Answers (.spareTestFail t die) s fun s' =>
      s'.spareUsed die = s.spareUsed die + 1 ∧ s' = { s.advance t with spares := s'.spares }) ∧
    (s.spareLeft die = false → Answers (.spareTestFail t die) s fun s' =>
      s'.rfld (sCor die) 0x014 0 10 = s.rfld (sCor die) 0x014 0 10 - 1 ∧ bit (s'.reg (ra (sCor die) 0x008)) 3 = true ∧
      Side (s.advance t) s'))

/-! ### Blocked mode and cascade (12_blocked_mode_and_cascade.md) -/

/-- Every pair of a ring has one owner, and it needs no group but its own and the next ⌊D/2⌋. A block of the own group is
judged at once outside a cascade, and sent downstream in one, with IDLE words after it; a transfer that lost words counts
them and is none, another is forwarded, refused as mismatched, dropped at full slots, or stored; at the deadline a block is
judged with what is present and what misses is counted; a judged block is processed in order into its Harvest, whose block
COR.HARVESTS does not count. The hop trains to UP on the expected IDLE, is LOST with its event and entry, and retries. -/
def Obligations.BlockedRuns : Prop :=
  (∀ d n i j : Nat, 1 ≤ d → d ≤ 4 → 0 < n → i ≤ j → j < d * n → ∃ pos, pos < d ∧
    (∀ q, q < d → (ownsPair q d n i j = true ↔ q = pos)) ∧
    ∃ a b, a ≤ d / 2 ∧ b ≤ d / 2 ∧ (pos + a) % d = i / n ∧ (pos + b) % d = j / n) ∧
  (∀ (s : State) (t : Nat) (c : Fin 512), s.Powered → Sparse.get [] s.oldWords c = [] →
    let u := s.advance t
    let x := s.cor c
    let B := s.blkB c
    let own := s.ownBlks c ++ x.full
    (x.full = [] → exec (.signalBlockComplete t c) s = .next u) ∧
    (∀ k r, x.full = k :: r →
      (s.casc c = false → x.slots = [] → k.orig = x.blkGrid → k.group = s.ringPos c → s.needed c = [k.group] →
        Answers (.signalBlockComplete t c) s fun s' =>
          s'.cor c = { x with full := r, ready := x.ready ++ [⟨k.first, k.orig, [k], k.last, false⟩], nextBlk := some (k.first + B) } ∧
          s'.out = s.out ∧ s'.regs = s.regs ∧ s'.tab = s.tab) ∧
      (s.casc c = true → Answers (.signalBlockComplete t c) s fun s' =>
        (k.bins.length = B → s'.out = .casIdle s.casIdleWord ::
            .casTransfer (s.casHeader c (s.ringD c / 2) k) (packBlock (s.blkBeam c) (s.slotCnt c) k) :: s.out ∧
          s'.reg64 sCas 0x024 = min (s.reg64 sCas 0x024 + 1) (2 ^ 64 - 1)) ∧
        (k.bins.length ≠ B → s'.out = s.out ∧ s'.regs = s.regs) ∧
        (s'.cor c).full = r ∧ (k ∈ (s'.cor c).slots ∨ ∃ j ∈ (s'.cor c).ready, k ∈ j.blocks))) ∧
    (own.length < 2 ∨ s.ownBlks c = [] → exec (.blockDeadline t c) s = .next u) ∧
    (∀ k r, s.ownBlks c = k :: r → 2 ≤ own.length →
      let miss := ((s.needed c).filter fun g => !((x.present k).any fun y => decide (y.group = g))).length
      Answers (.blockDeadline t c) s fun s' =>
        (s'.cor c).ready = x.ready ++ [⟨k.first, k.orig, x.present k, k.last, false⟩] ∧
        (s'.cor c).nextBlk = (if k.orig = x.blkGrid then some (k.first + B) else x.nextBlk) ∧
        (s'.tabw (oBlk c 1)).toNat = (if miss = 0 then (s.tabw (oBlk c 1)).toNat
          else min ((s.tabw (oBlk c 1)).toNat + miss) (2 ^ 32 - 1)) ∧
        (miss ≠ 0 → bit (s'.reg (ra sCas 0x008)) 4 = true) ∧ (miss = 0 → s'.regs = s.regs ∧ s'.out = s.out))) ∧
  (∀ (s : State) (t : Nat) (c : Fin 512), s.Powered → s.Settled → Sparse.get [] s.oldWords c = [] →
    let x := s.cor c
    (x.ready = [] → exec (.blockProcessed t c) s = .next (s.advance t)) ∧
    (∀ j r, x.ready = j :: r → x.closing = false →
      let own := ((j.blocks.find? fun k => decide (k.group = s.ringPos c)).map (·.bins.length)).getD 0
      let miss := ((s.needed c).filter fun g => !(j.blocks.any fun k => decide (k.group = g))).length
      let processed (s' : State) : Prop := (s'.cor c).ready = r ∧ (s'.cor c).prevBlk = j.blocks ∧
        (s'.tabw (oBlk c 2)).toNat = min ((s.tabw (oBlk c 2)).toNat + 1) (2 ^ 32 - 1)
      (∀ h, x.cur = some h → h.bins + own < h.want → j.last = false → Answers (.blockProcessed t c) s fun s' =>
        processed s' ∧ s'.dma = s.dma ∧ (s'.cor c).bufs = x.bufs ∧ s'.tabw (oCor c 5) = s.tabw (oCor c 5) ∧
        ∃ h', (s'.cor c).cur = some h' ∧ h'.bins = h.bins + own ∧ h'.misses = h.misses + miss ∧ h'.seq = h.seq ∧
          (h.discard = true → h'.acc = h.acc)) ∧
      (∀ h, x.cur = some h → h.want ≤ h.bins + own ∨ j.last = true → Answers (.blockProcessed t c) s fun s' =>
        processed s' ∧ (s'.cor c).cur = none ∧ (s'.cor c).epochBit = !x.epochBit ∧
        s'.reg64 (sCor 0) 0x030 = s.reg64 (sCor 0) 0x030 ∧
        (h.discard = true → s'.dma = s.dma) ∧
        (h.discard = false → (h.bins + own < h.want → bit (s'.reg (ra (sCor 0) 0x008)) 5 = true) ∧
          ∃ m, (s'.dmaCh (s.corDma c)).handed = (s.dmaCh (s.corDma c)).handed ++ [m] ∧ m.kind = 2 ∧ m.src = .harvest c)) ∧
      (x.cur = none → j.blocks ≠ [] → Answers (.blockProcessed t c) s fun s' =>
        processed s' ∧ s'.tabw (oCor c 5) = s.tabw (oCor c 5) + 1 ∧
        (x.bufs < s.corNbuf c → (s'.cor c).bufs = x.bufs + 1 ∧ s'.tabw (oCor c 6) = s.tabw (oCor c 6)) ∧
        (s.corNbuf c ≤ x.bufs → (s'.cor c).bufs = x.bufs ∧ s'.dma = s.dma ∧ bit (s'.reg (ra (sCor 0) 0x008)) 1 = true ∧
          (s'.tabw (oCor c 6)).toNat = min ((s.tabw (oCor c 6)).toNat + 1) (2 ^ 32 - 1))) ∧
      (x.cur = none → j.blocks = [] → exec (.blockProcessed t c) s = .next
        ((s.advance t).setCor c { x with ready := r, prevBlk := [] })))) ∧
  (∀ (s : State) (t : Nat) (header data : List Word64) (drop : Nat), s.Powered →
    let u := s.advance t
    let h (k : Nat) : Nat := (header.getD k 0).toNat
    let g := nfld (h 0) 26 2
    let ours (c : Nat) : Bool := decide ((s.cor c).run = 2) && s.casc c && decide (s.blkCtag c = nfld (h 0) 0 16)
    let fits (c : Nat) : Prop := nfld (h 3) 0 12 = s.slotCnt c ∧ (nfld (h 3) 12 1 = 1 ↔ s.blkBeam c = true) ∧
      nfld (h 2) 32 25 = (s.cor c).w / 2000 ∧ nfld (h 2) 0 5 = s.blkExp c ∧ h 1 % s.blkB c = 0
    let relayed (s' : State) : Prop :=
      (nfld (h 0) 24 2 ≤ 1 → s'.out = s.out ∧ s'.reg64 sCas 0x034 = s.reg64 sCas 0x034) ∧
      (1 < nfld (h 0) 24 2 →
        s'.out = .casIdle s.casIdleWord ::
          .casTransfer ((h 0 - 2 ^ 24) :: (header.drop 1).map (·.toNat)) (data.map (·.toNat)) :: s.out ∧
        s'.reg64 sCas 0x034 = min (s.reg64 sCas 0x034 + 1) (2 ^ 64 - 1))
    let old (c : Nat) : Prop := s.blkGridOf c g (h 1) = (s.cor c).blkGrid ∧ ∃ f, (s.cor c).nextBlk = some f ∧ h 1 < f
    (s.cas.st ≠ 2 → exec (.casTransfer t header ⟨data, drop⟩) s = .next u) ∧
    (s.cas.st = 2 → 0 < drop → exec (.casTransfer t header ⟨data, drop⟩) s = .next (u.bump64 sCas 0x04C drop)) ∧
    (nfld (h 0) 32 32 ≠ 0x4341_5331 → exec (.casTransfer t header ⟨data, 0⟩) s = .next u) ∧
    (s.cas.st = 2 → nfld (h 0) 32 32 = 0x4341_5331 →
      ((∀ c ∈ s.runningCtxs, ours c = false) → Answers (.casTransfer t header ⟨data, 0⟩) s fun s' => relayed s' ∧ Side u s') ∧
      (∀ c, s.runningCtxs.filter ours = [c] →
        (¬fits c → exec (.casTransfer t header ⟨data, 0⟩) s = .next ((u.bump64 sCas 0x044 1).evt sCas 3)) ∧
        (fits c → g ∉ s.needed c ∨ g = s.ringPos c ∨ old c →
          Answers (.casTransfer t header ⟨data, 0⟩) s fun s' => relayed s' ∧ Side u s') ∧
        (fits c → g ∈ s.needed c → g ≠ s.ringPos c → ¬old c →
          (4 ≤ (s.cor c).occupied g → exec (.casTransfer t header ⟨data, 0⟩) s = .next ((u.bump64 sCas 0x03C 1).evt sCas 2)) ∧
          ((s.cor c).occupied g < 4 → Answers (.casTransfer t header ⟨data, 0⟩) s fun s' => relayed s' ∧
            s'.reg64 sCas 0x02C = min (s.reg64 sCas 0x02C + 1) (2 ^ 64 - 1) ∧
            ∃ k : SigBlock, k.group = g ∧ k.first = h 1 ∧ k.orig = s.blkGridOf c g (h 1) ∧ k.lost = h 4 ∧
              k.bins = unpackBlock (s.blkBeam c) (s.slotCnt c) (s.blkB c) (data.map (·.toNat)) ∧
              (k ∈ (s'.cor c).slots ∨ ∃ j ∈ (s'.cor c).ready, k ∈ j.blocks)))))) ∧
  (∀ (s : State) (t : Nat) (w : Word64), s.Powered →
    let u := s.advance t
    let p := nfld w.toNat 16 2
    let r := s.rfld sCas 0x014 8 8
    let next := (s.rfld sCas 0x014 3 2 + 1) % (s.rfld sCas 0x014 1 2 + 1)
    (s.cas.st ≠ 1 → s.cas.st ≠ 2 → exec (.casIdle t w) s = .next u ∧ exec (.casHopLost t) s = .next u) ∧
    (nfld w.toNat 32 32 ≠ 0x4341_5349 → exec (.casIdle t w) s = .next u) ∧
    (nfld w.toNat 32 32 = 0x4341_5349 →
      (s.cas.st = 2 ∨ (s.cas.st = 1 ∧ p ≠ next) →
        exec (.casIdle t w) s = .next { u with cas := { s.cas with upPos := p, lock := 0xFF } }) ∧
      (s.cas.st = 1 → p = next → exec (.casIdle t w) s = .next
        (({ u with cas := { s.cas with upPos := p, lock := 0xFF, st := 2 } } : State).evt sCas 0))) ∧
    (s.cas.st = 1 ∨ s.cas.st = 2 → Answers (.casHopLost t) s fun s' =>
      s'.cas = { s.cas with st := 3, lock := 0, lostAt := max s.now t } ∧
      s'.reg64 sCas 0x054 = min (s.reg64 sCas 0x054 + 1) (2 ^ 64 - 1) ∧ bit (s'.reg (ra sCas 0x008)) 1 = true ∧
      Side { u with cas := s'.cas } s') ∧
    (s.cas.st ≠ 3 ∨ r = 0 ∨ max s.now t < s.cas.lostAt + r * 2_000_000 → exec (.casRetry t) s = .next u) ∧
    (s.cas.st = 3 → r ≠ 0 → s.cas.lostAt + r * 2_000_000 ≤ max s.now t →
      exec (.casRetry t) s = .next (({ u with cas := { s.cas with st := 1 } } : State).emit (.casIdle s.casIdleWord))))

/-! ### Interval histograms (11_interval_histograms.md) -/

/-- Stamps are handled one by one. A start becomes pending, replaces one (SINGLE) or is ignored (FIRST) with EXTRA_START,
and one that has expired counts in NO_STOP; a stop with none pending counts in NO_START, one whose interval lies outside the
window in OUT; else the bin of the interval takes an increment: a full miss queue drops it, a bin at its limit stays and
counts in SAT. -/
def Obligations.HistogramStamps : Prop :=
  (∀ (s : State) (d : Nat) (a b : Stamp),
    let x := sdiff b.time a.time - s.hWmin d
    (∀ i, s.histBin d a b = some i ↔ 0 ≤ x ∧ x < s.hNbins d * 2 ^ s.hK d ∧ (i : Int) = x / 2 ^ s.hK d)) ∧
  (∀ (s : State) (t : Nat) (d : Fin 65536), s.Powered → s.keeper (oHdef d 0) 6 = none → (s.heng (s.hHome d)).crossing = [] →
    let u := s.advance t
    let h := s.hdef d
    let hc := s.hctx (s.hOwner d)
    let die := s.hHome d
    let e := s.heng die
    let a : Int := 2000 * (s.solEdge : Int)
    let past (p : Int) : Prop := u.histPast (s.hStart d) die p = true ∧ u.histPast (s.hStop d) die p = true
    let count (s' : State) (w n : Nat) : Prop := (s'.tabw (oHdef d w)).toNat = min ((s.tabw (oHdef d w)).toNat + n) (2 ^ 32 - 1)
    let same (s' : State) (l : List Nat) : Prop := ∀ w ∈ l, s'.tabw (oHdef d w) = s.tabw (oHdef d w)
    (h.inq = [] → h.stopq = [] → Answers (.histStamp t d) s fun s' => s'.hdef d = h ∧ s'.regs = s.regs ∧ s'.tab = s.tab) ∧
    (∀ x r, h.inq = x :: r → h.stopq = [] → ¬past x.phys → Answers (.histStamp t d) s fun s' =>
      s'.hdef d = h ∧ s'.regs = s.regs ∧ s'.tab = s.tab) ∧
    (∀ x r, h.inq = x :: r → h.stopq = [] → h.active = true → past x.phys → hc.waiting = [] → hc.closing = false → s.hMode d ≤ 1 →
      let took (s' : State) (p : Stamp) : Prop := (s'.hdef d).inq = r ∧ (s'.hdef d).pend = some p ∧ (s'.hdef d).bins = h.bins ∧
        s'.regs = s.regs
      (h.pend = none → Answers (.histStamp t d) s fun s' => took s' x ∧ s'.tab = s.tab) ∧
      (∀ y, h.pend = some y → (x.phys < a ∨ a ≤ y.phys) →
        (y.phys + s.hWmin d + s.hSpan d < x.phys → Answers (.histStamp t d) s fun s' =>
          took s' x ∧ count s' 14 1 ∧ same s' [9, 10, 11, 12, 13, 15]) ∧
        (x.phys ≤ y.phys + s.hWmin d + s.hSpan d → Answers (.histStamp t d) s fun s' =>
          took s' (if s.hMode d = 0 then x else y) ∧ count s' 15 1 ∧ same s' [9, 10, 11, 12, 13, 14])) ∧
      (∀ y, h.pend = some y → a ≤ x.phys → y.phys < a → Answers (.histStamp t d) s fun s' => took s' x ∧
        (y.phys + s.hWmin d + s.hSpan d < a → count s' 14 1 ∧ same s' [9, 10, 11, 12, 13, 15]) ∧
        (a ≤ y.phys + s.hWmin d + s.hSpan d → s'.tab = s.tab))) ∧
    (∀ x r, h.inq = x :: r → h.stopq = [] → h.active = true → past x.phys → hc.waiting = [] → hc.closing = false → s.hMode d = 2 →
      h.pend = none → h.hist = [] → Answers (.histStamp t d) s fun s' =>
        (s'.hdef d).inq = r ∧ (s'.hdef d).hist = [x] ∧ s'.tab = s.tab) ∧
    (∀ x r, h.inq = [] → h.stopq = x :: r → h.active = true → past x.phys → hc.waiting = [] → hc.copying = none → hc.closing = false →
      s.hMode d ≤ 1 →
      let took (s' : State) : Prop := (s'.hdef d).stopq = r ∧ (s'.hdef d).pend = none
      (h.pend = none → Answers (.histStamp t d) s fun s' =>
        took s' ∧ (s'.hdef d).bins = h.bins ∧ count s' 13 1 ∧ same s' [9, 10, 11, 12, 14, 15] ∧ s'.regs = s.regs) ∧
      (∀ y, h.pend = some y → (x.phys < a ∨ a ≤ y.phys) → y.phys + s.hWmin d + s.hSpan d < x.phys → Answers (.histStamp t d) s fun s' =>
        took s' ∧ (s'.hdef d).bins = h.bins ∧ count s' 13 1 ∧ count s' 14 1 ∧ same s' [9, 10, 11, 12, 15] ∧ s'.regs = s.regs) ∧
      (∀ y, h.pend = some y → (x.phys < a ∨ a ≤ y.phys) → x.phys ≤ y.phys + s.hWmin d + s.hSpan d →
        (s.histBin d y x = none → Answers (.histStamp t d) s fun s' =>
          took s' ∧ (s'.hdef d).bins = h.bins ∧ count s' 12 1 ∧ same s' [9, 10, 11, 13, 14, 15] ∧ s'.regs = s.regs) ∧
        (∀ i, s.histBin d y x = some i →
          let line := 2 * histLine d i
          let n := Sparse.get 0 h.bins i
          (line ∉ e.lines → 4096 ≤ e.misses.length → Answers (.histStamp t d) s fun s' =>
            took s' ∧ (s'.hdef d).bins = h.bins ∧ count s' 10 1 ∧ same s' [9, 11, 12, 13, 14, 15] ∧ (s'.heng die).misses = e.misses ∧
            s'.reg64 (sHst die) 0x030 = min (s.reg64 (sHst die) 0x030 + 1) (2 ^ 64 - 1) ∧
            bit (s'.reg (ra (sHst die) 0x008)) 2 = true) ∧
          (line ∈ e.lines ∨ e.misses.length < 4096 →
            (n < 2 ^ 32 - 1 → Answers (.histStamp t d) s fun s' =>
              took s' ∧ Sparse.get 0 (s'.hdef d).bins i = n + 1 ∧
              (∀ k, k ≠ i → Sparse.get 0 (s'.hdef d).bins k = Sparse.get 0 h.bins k) ∧ count s' 9 1 ∧ same s' [10, 11, 12, 13, 14, 15] ∧
              (s'.heng die).misses = (if line ∈ e.lines then e.misses else e.misses ++ [line]) ∧
              (e.lines.length < cacheLines → line ∈ (s'.heng die).lines) ∧
              s'.reg64 (sHst die) 0x028 = min (s.reg64 (sHst die) 0x028 + 1) (2 ^ 64 - 1)) ∧
            (2 ^ 32 - 1 ≤ n → Answers (.histStamp t d) s fun s' =>
              took s' ∧ (s'.hdef d).bins = h.bins ∧ count s' 11 1 ∧ same s' [9, 10, 12, 13, 14, 15] ∧
              s'.reg64 (sHst die) 0x040 = min (s.reg64 (sHst die) 0x040 + 1) (2 ^ 64 - 1) ∧
              bit (s'.reg (ra (sHst die) 0x008)) 4 = true)))))) ∧
  (∀ (s : State) (t : Nat) (die : Fin 2), s.Powered → exec (.histMissWriteback t die) s = .next
    ((s.advance t).setHeng die { s.heng die with misses := (s.heng die).misses.drop 1 }))

/-- Cuts. SNAP, SNAP_CLEAR and CLEAR ask for a cut one period on, or at AT; a period's end asks for its own; while one is
copied they are refused, and those that wait come in the order of their epochs. Once handling has passed the cut each
definition's bins are taken, and restart from zero where the cut clears; a die with no free buffer loses its block, the
others take one; a copier that finishes queues its die's block. -/
def Obligations.HistogramCuts : Prop :=
  (∀ (s : State) (t : Nat) (p : Path) (c : Fin 512) (at' : Bool), s.Powered → s.Reaches (ra (sHst 0) 0x014) → s.served (sHst 0) = true →
    let u := s.advance t
    let h := s.hctx c
    let e := if at' then u.physOf (s.reg64 (sHst 0) 0x018) else u.phys + 2000
    let queued (l : List Cut) (k : CutCause) (e : Int) : List Cut :=
      l.filter (fun w => decide (w.tP ≤ e)) ++ [⟨k, e, u.epochOf e⟩] ++ l.filter fun w => decide (e < w.tP)
    let asks (i : Instr) (k : CutCause) : Prop :=
      (h.active = false ∨ h.closing = true → u.phys ≤ e → exec i s = .next u) ∧
      (h.active = true → h.closing = false → u.phys ≤ e →
        (h.copying = none → exec i s = .next (u.setHctx c { h with waiting := queued h.waiting k e })) ∧
        (h.copying ≠ none → exec i s = .next (u.snapBusy c))) ∧
      (e < u.phys → h.active = true → exec i s = .next (u.snapBusy c))
    asks (.snap t p c at') .snap ∧ asks (.snapClear t p c at') .snapClear ∧ asks (.clear t p c at') .clear) ∧
  (∀ (s : State) (c d : Nat), d ∈ s.ownDefs c → (s.hdef d).active = true → bit ((s.snapBusy c).reg (ra (sHst (s.hHome d)) 0x008)) 5 = true) ∧
  (∀ (s : State) (t : Nat) (c : Fin 512), s.Powered →
    let u := s.advance t
    let h := s.hctx c
    (h.firstP = none → exec (.periodicCut t c) s = .next u) ∧
    (∀ p, h.firstP = some p →
      let e := p + 2000 * ((h.periods + 1) * s.hPeriod c : Nat)
      (s.hPeriod c = 0 ∨ h.active = false ∨ h.closing = true ∨ u.phys < e → exec (.periodicCut t c) s = .next u) ∧
      (s.hPeriod c ≠ 0 → h.active = true → h.closing = false → e ≤ u.phys →
        (h.copying = none → Answers (.periodicCut t c) s fun s' =>
          s'.hctx c = { h with
            periods := h.periods + 1
            waiting := h.waiting.filter (fun w => decide (w.tP ≤ e)) ++ [⟨.periodic, e, u.epochOf e⟩] ++
              h.waiting.filter fun w => decide (e < w.tP) } ∧
          s' = { u with hctxs := s'.hctxs }) ∧
        (h.copying ≠ none → Answers (.periodicCut t c) s fun s' =>
          s'.hctx c = { h with periods := h.periods + 1 } ∧ (u.snapBusy c).regs = s'.regs)))) ∧
  (∀ (s : State) (t : Nat) (c : Fin 512), s.Powered → s.Settled → Sparse.get [] s.oldWords c = [] → (s.ownDefs c).Nodup →
    let u := s.advance t
    let h := s.hctx c
    let ds := (s.ownDefs c).filter fun d => (s.hdef d).active
    let full (die : Nat) : Prop := s.hNbuf c ≤ if die = 0 then h.bufsA else h.bufsB
    (h.waiting = [] → exec (.cut t c) s = .next u) ∧
    (∀ w r, h.waiting = w :: r →
      (h.copying ≠ none ∨ (∃ d ∈ ds, u.cutPassed d w.tP = false) → exec (.cut t c) s = .next u) ∧
      (h.copying = none → (∀ d ∈ ds, u.cutPassed d w.tP = true) → h.closing = false ∨ ds ≠ [] → Answers (.cut t c) s fun s' =>
        (s'.hctx c).copying = (if ds = [] then none else some w) ∧ (s'.hctx c).fromT = h.prevT ∧
        (s'.hctx c).prevT = (if w.cause = .solstice then 0 else w.tT) ∧ (s'.hctx c).waiting = r ∧ (s'.hctx c).seq = (s.tabw (oHctx c 4)).toNat ∧
        s'.tabw (oHctx c 4) = (if cutSends w.cause then s.tabw (oHctx c 4) + 1 else s.tabw (oHctx c 4)) ∧
        (∀ die : Nat, die ∈ (s'.hctx c).dies ↔ die < 2 ∧ ∃ d ∈ ds, s.hHome d = die) ∧
        (∀ die : Nat, die ∈ (s'.hctx c).discard ↔ cutSends w.cause = true ∧ die ∈ (s'.hctx c).dies ∧ full die) ∧
        (s'.hctx c).bufsA = h.bufsA + (if cutSends w.cause = true ∧ 0 ∈ (s'.hctx c).dies ∧ ¬full 0 then 1 else 0) ∧
        (s'.hctx c).bufsB = h.bufsB + (if cutSends w.cause = true ∧ 1 ∈ (s'.hctx c).dies ∧ ¬full 1 then 1 else 0) ∧
        (∀ die ∈ (s'.hctx c).discard, bit (s'.reg (ra (sHst die) 0x008)) 1 = true) ∧
        (∀ d ∈ ds, (s'.hdef d).snapBins = (s.hdef d).bins ∧
          (s'.hdef d).bins = (if s.cutClears c w.cause then [] else (s.hdef d).bins) ∧ (s'.hdef d).snapLost = (s.hdef d).lost ∧
          (s'.hdef d).snapFlags = (s.hdef d).flags ∧ (s'.hdef d).flags = (s.hdef d).postFlags ∧ (s'.hdef d).lost = (s.hdef d).postLost)))) ∧
  (∀ (s : State) (t : Nat) (c : Fin 512) (die : Fin 2), s.Powered → s.Settled → Sparse.get [] s.oldWords c = [] →
    let u := s.advance t
    let h := s.hctx c
    (h.copying = none ∨ die.val ∉ h.dies → exec (.snapDone t c die) s = .next u) ∧
    (∀ w, h.copying = some w → die.val ∈ h.dies → h.closing = false → Answers (.snapDone t c die) s fun s' =>
      s'.hctx c = { h with dies := h.dies.erase die.val, copying := if h.dies.erase die.val = [] then none else some w } ∧
      (cutSends w.cause = true → die.val ∉ h.discard →
        (s'.dmaCh (s.hDma c)).handed = (s.dmaCh (s.hDma c)).handed ++
          [{ kind := 3, body := u.snapBlock c die h w, src := .snapshot c die }] ∧
        bit (s'.reg (ra (sHst die) 0x008)) 0 = true ∧ (cutTrunc w.cause = true → bit (s'.reg (ra (sHst die) 0x008)) 7 = true)) ∧
      (cutSends w.cause = false ∨ die.val ∈ h.discard → s'.dma = s.dma ∧
        bit (s'.reg (ra (sHst die) 0x008)) 0 = bit (s.reg (ra (sHst die) 0x008)) 0) ∧
      (∀ d ∈ (s.ownDefs c).filter fun d => decide (s.hHome d = die), (s'.hdef d).post = [] ∧ (s'.hdef d).snapBins = [])))

/-! ### Contexts and triggers (13_contexts_and_triggers.md) -/

/-- START takes an IDLE context with EN = 1 into ADMITTING; any other waits for its refusal. While the admission engine is
busy a command sets its event. At ADMISSION_DONE a context that fails a check goes back with the code, counted and logged;
one that passes is RUNNING, its program reset and its counts 0. STOP stops a running context with cause 1; POKE latches its
condition. -/
def Obligations.Contexts : Prop :=
  (∀ (s : State) (t : Nat) (p : Path) (c : Fin 512), s.Powered → s.Reaches (ra sCtx 0x014) → s.served sCtx = true →
    let u := s.advance t
    let x := s.ctx c
    (s.adm ≠ none → exec (.start t p c) s = .next (u.evt sCtx 3) ∧ exec (.stop t p c) s = .next (u.evt sCtx 3) ∧
      exec (.poke t p c) s = .next (u.evt sCtx 3)) ∧
    (s.adm = none →
      (s.ctxBit c 31 = true → x.st = .idle ∨ (x.st = .stoppedOvf ∧ s.ctxOwes c = false) →
        exec (.start t p c) s = .next
          (({ u with adm := some c.val, admStop := s.stopOn } : State).setCtx c { x with former := x.st, st := .admitting })) ∧
      (s.ctxBit c 31 = false ∨ x.st = .running ∨ x.st = .stopping ∨ (x.st = .stoppedOvf ∧ s.ctxOwes c = true) →
        exec (.start t p c) s = .next { u with adm := some c.val, admStop := s.stopOn }) ∧
      (x.st ≠ .running → exec (.stop t p c) s = .next { u with admRes := 3 * 2 ^ 26 + c } ∧
        exec (.poke t p c) s = .next { u with admRes := 3 * 2 ^ 26 + c }) ∧
      (x.st = .running → (Answers (.stop t p c) s fun s' =>
          (s'.ctx c).cause = 1 ∧ ((s'.ctx c).st = .stopping ∨ (s'.ctx c).st = .idle) ∧ s'.admRes = 2 ^ 26 + c) ∧
        (Answers (.poke t p c) s fun s' => (s'.ctx c).latch = x.latch ||| 2 ^ 27 ∧ (s'.ctx c).st = .running ∧
          s'.admRes = 2 ^ 26 + c ∧ s' = { u with admRes := s'.admRes, ctxs := s'.ctxs })))) ∧
  (∀ (s : State) (t : Nat), s.Powered → s.Settled → s.boot.starts = [] →
    let u := s.advance t
    let refused (c : Fin 512) (code : Nat) (s' : State) : Prop :=
      s'.adm = none ∧ s'.admRes = 2 * 2 ^ 26 + code * 2 ^ 16 + c ∧ (s'.ctx c).reason = code ∧
      (s'.ctx c).st = (if (s.ctx c).st = .admitting then (s.ctx c).former else (s.ctx c).st) ∧
      s'.reg64 sCtx 0x024 = min (s.reg64 sCtx 0x024 + 1) (2 ^ 64 - 1) ∧ bit (s'.reg (ra sCtx 0x008)) 1 = true ∧
      s'.pagesHeld = s.pagesHeld ∧ s'.cors = s.cors ∧ s'.meas = s.meas ∧ s'.tab = s.tab
    (s.adm = none → exec (.admissionDone t) s = .next u) ∧
    (∀ c : Fin 512, s.adm = some c.val →
      ((s.ctx c).st ≠ .admitting → Answers (.admissionDone t) s (refused c 1)) ∧
      ((s.ctx c).st = .admitting → (s.ctx c).former = .idle →
        (u.admission c).1 ≠ 0 → Answers (.admissionDone t) s (refused c (u.admission c).1)) ∧
      ((s.ctx c).st = .admitting → (u.admission c).1 = 0 → s.recEn c = false → (∀ b ∈ s.beamsOf c, b < 1024) →
        Answers (.admissionDone t) s fun s' =>
        s'.adm = none ∧ s'.admRes = 2 ^ 26 + (u.admission c).2.run * 2 ^ 9 + c ∧
        (s'.ctx c).st = .running ∧ (s'.ctx c).pstate = 0 ∧ (s'.ctx c).inSeq = false ∧ (s'.ctx c).latch = 0 ∧
        (s'.ctx c).counters = [0, 0, 0, 0] ∧ (s'.ctx c).thread = none ∧ (s'.ctx c).holdUntil = none ∧
        (s'.ctx c).timers = (List.range 4).map (fun k => .stopped (s.tload c k)) ∧
        (∀ k, k < 6 → s'.tabw (oCtx c (33 + k)) = 0) ∧ (s'.cor c).run = (if (u.admission c).2.run = 0 then (s.cor c).run
          else (u.admission c).2.run) ∧
        (∀ i ∈ s.slotsOf c, (s'.mslot i).armed = true) ∧ bit (s'.reg (ra sCtx 0x008)) 0 = true))) ∧
  (∀ (s : State) (t : Nat) (c : Fin 512) (k : Fin 4), s.Powered →
    let u := s.advance t
    let x := s.ctx c
    (∀ e, x.timers[k.val]? = some (.until e) →
      (max s.now t < e → exec (.timerExpire t c k) s = .next u) ∧
      (e ≤ max s.now t → Answers (.timerExpire t c k) s fun s' =>
        (s'.ctx c).timers = x.timers.set k .expired ∧ s' = { u with ctxs := s'.ctxs })) ∧
    ((∀ e, x.timers[k.val]? ≠ some (.until e)) → exec (.timerExpire t c k) s = .next u) ∧
    (x.holdUntil = none → exec (.holdoffExpire t c) s = .next u) ∧
    (∀ e, x.holdUntil = some e →
      (max s.now t < e → exec (.holdoffExpire t c) s = .next u) ∧
      (e ≤ max s.now t → Answers (.holdoffExpire t c) s fun s' =>
        (s'.ctx c).holdUntil = none ∧ (s'.ctx c).holdLeft = x.holdLeft ∧ s' = { u with ctxs := s'.ctxs })))

/-- A context that stops, whatever the cause, is STOPPING, or STOPPED_OVF for an overflow; its routine, hold-off, auto timer
and urgent slot are gone; its resident Harvest closes; its slots' gates close; its event is set. STOP in force stops those
that heed it with cause 2 and no other. -/
def Obligations.ContextStops : Prop :=
  (∀ (s : State) (c : Fin 512) (cause : Nat),
    let s' := s.ctxStop c cause
    ((s.ctx c).st ≠ .running → s' = s) ∧
    ((s.ctx c).st = .running →
      (s'.ctx c).st = (if cause = 3 then .stoppedOvf else .stopping) ∧ (s'.ctx c).cause = cause ∧ (s'.ctx c).thread = none ∧
      (s'.ctx c).urgent = none ∧ (s'.ctx c).autoAt = none ∧ (s'.ctx c).holdUntil = none ∧ (s'.ctx c).latch = 0 ∧
      (s'.ctx c).queued = false ∧ (s'.ctx c).reason = (s.ctx c).reason ∧
      (∀ d, d ≠ c.val → s'.ctx d = s.ctx d) ∧ bit (s'.reg (ra sCtx 0x008)) 2 = true ∧
      ((s.cor c).run = 1 → (s'.cor c).cur = none) ∧ ((s.cor c).run = 0 → s'.cor c = s.cor c) ∧
      s'.stopSrc = s.stopSrc ∧ s'.loop = s.loop ∧ s'.lanes = s.lanes ∧ s'.pagesHeld = s.pagesHeld)) ∧
  (∀ (s : State) (t : Nat) (c : Fin 512), s.Powered → s.stopSrc ≠ 0 → s.stopOn = false → s.dev ≠ .booting → s.caps = [] →
    s.runningCtxs = [c.val] → (s.ctx c).st = .running →
    (s.stopEn c = true → Answers (.stopOn t) s fun s' =>
      (s'.ctx c).cause = 2 ∧ ((s'.ctx c).st = .stopping ∨ (s'.ctx c).st = .idle) ∧ s'.stopOn = true) ∧
    (s.stopEn c = false → Answers (.stopOn t) s fun s' => (s'.ctx c).st = .running ∧ s'.stopOn = true))

/-- Triggers, by the first row that applies: in SEQUENCE without RETRIG a trigger is MISSED, in hold-off HELD, before the
pre-trigger part has filled EARLY; else it is accepted: counted, latched, the hold-off starts as the mode says, and the
program moves to TRIG_STATE. The earliest condition event latches the selectors it meets and counts their counters.
AUTO_TRIGGER forces one when its time has come; PRE_FILLED starts the auto timer. -/
def Obligations.Triggers : Prop :=
  (∀ (s : State) (c : Fin 512) (x : Stamp) (w2 : Option Nat),
    let s' := s.ctxJudge c x w2
    let k := s.ctx c
    let one (w : Nat) : Prop := (s'.tabw (oCtx c w)).toNat = min ((s.tabw (oCtx c w)).toNat + 1) (2 ^ 32 - 1)
    let mode := s.tfld (oCtx c 0) 11 2
    let time := (s.tabw (oCtx c 2)).toNat + 2 ^ 32 * s.tfld (oCtx c 3) 0 16
    let missed := k.inSeq = true ∧ s.curRetrig c = false
    let early := k.inSeq = false ∧ s.capEarly c x.phys = true
    (missed → one 34 ∧ s'.ctx c = k ∧ s'.reg64 sCtx 0x02C = min (s.reg64 sCtx 0x02C + 1) (2 ^ 64 - 1) ∧
      bit (s'.reg (ra sCtx 0x008)) 5 = true) ∧
    (¬missed → s.ctxHold c = true → one 35 ∧ (s'.ctx c).holdLeft = k.holdLeft - 1 ∧ (s'.ctx c).pstate = k.pstate ∧
      bit (s'.reg (ra sCtx 0x008)) 5 = true) ∧
    (¬missed → s.ctxHold c = false → early → one 36 ∧ s'.ctx c = k ∧ bit (s'.reg (ra sCtx 0x008)) 5 = true) ∧
    (¬missed → s.ctxHold c = false → ¬early → one 33 ∧ (s'.ctx c).inSeq = true ∧ (s'.ctx c).latch = k.latch ||| 2 ^ 24 ∧
      (s'.ctx c).lastAccept = some s.now ∧ (s'.ctx c).holdUntil = (if mode = 1 ∨ mode = 3 then some (s.now + time) else none) ∧
      (s'.ctx c).holdLeft = (if 2 ≤ mode then (s.tabw (oCtx c 1)).toNat else 0) ∧
      (k.thread = none → (s'.ctx c).pstate = s.tfld (oCtx c 0) 13 4) ∧
      (k.thread ≠ none → (s'.ctx c).pstate = k.pstate ∧ (s'.ctx c).retrig = true) ∧ s'.regs = s.regs)) ∧
  (∀ (s : State) (t : Nat), s.Powered →
    let u := s.advance t
    (s.condIn = [] → exec (.conditionEvent t) s = .next u) ∧
    (∀ e, firstEvent s.condIn = some e → e ∈ s.condIn ∧ ∀ y ∈ s.condIn, e.instant ≤ y.instant) ∧
    ((∀ c ∈ s.runningCtxs, s.ctxBit c 27 = false) →
      (∀ x, firstEvent s.condIn = some (.edge x) →
        exec (.conditionEvent t) s = .next { u with condIn := s.condIn.erase (.edge x) }) ∧
      (∀ i st p q, firstEvent s.condIn = some (.result i st p q) →
        exec (.conditionEvent t) s = .next { u with condIn := s.condIn.erase (.result i st p q), freeCtr := s.freeCtr + 2 })) ∧
    (∀ x (c : Fin 512), firstEvent s.condIn = some (.edge x) → s.runningCtxs = [c.val] → s.ctxBit c 27 = true →
      let fits (k : Nat) : Prop := selKind (s.csel c k) ≤ 1 ∧ selSrc (s.csel c k) = x.src ∧
        (x.src < 4096 ∨ (x.rising = true ↔ selPol (s.csel c k) = 0))
      Answers (.conditionEvent t) s fun s' => s'.condIn = s.condIn.erase (.edge x) ∧
        (∀ k, k < 16 → ((s'.ctx c).latch.testBit k = true ↔
          (s.ctx c).latch.testBit k = true ∨ (fits k ∧ selKind (s.csel c k) = 0))) ∧
        (∀ j n, (s.ctx c).counters[j]? = some n → (s'.ctx c).counters[j]? = some
          (if s.ctxBit c (7 + j) = true ∧ (∃ k, k < 16 ∧ fits k ∧ s.tfld (oCtx c 3) (16 + 4 * j) 4 = k)
            then min (n + 1) (2 ^ 32 - 1) else n)) ∧
        (¬fits (s.tfld (oCtx c 0) 17 4) → s'.tab = s.tab ∧ s'.regs = s.regs ∧ s'.caps = s.caps) ∧
        (∀ d, d ≠ c.val → s'.ctx d = s.ctx d))) ∧
  (∀ (s : State) (t : Nat) (c : Fin 512), s.Powered →
    let u := s.advance t
    let x := s.ctx c
    let due := x.st = .running ∧ s.ctxBit c 27 = true ∧ s.ctxBit c 29 = true ∧ x.autoAt = none ∧ u.wouldAccept c u.phys = true
    (¬due → exec (.preFilled t c) s = .next u) ∧
    (due → exec (.preFilled t c) s = .next
      (u.setCtx c { x with autoAt := some (max s.now t + 1024 * (s.reg (ra sAcq 0x014)).toNat) })) ∧
    (x.autoAt = none ∨ x.st ≠ .running ∨ (∃ e, x.autoAt = some e ∧ max s.now t < e) → exec (.autoTrigger t c) s = .next u) ∧
    (∀ e, x.autoAt = some e → e ≤ max s.now t → x.st = .running → Answers (.autoTrigger t c) s fun s' =>
      (∀ w ∈ [33, 37], (s'.tabw (oCtx c w)).toNat = min ((s.tabw (oCtx c w)).toNat + 1) (2 ^ 32 - 1)) ∧
      (s'.ctx c).latch = x.latch ||| 2 ^ 24 ||| 2 ^ 25 ∧ (s'.ctx c).inSeq = true ∧ bit (s'.reg (ra sCtx 0x008)) 6 = true))

/-! ### Microcode (14_microcode.md) -/

/-- Dispatch begins the routine of the context's state at its ENTRY. A microword goes on at NEXT with the branch bits of the
vector at its first cycle, and its actions wait; a commit point makes them, clears what was set at the dispatch, and ends
the routine as FLOW says. A fault restarts the routine once, and stops the context the second time; so does the watchdog, at
a boundary at once and inside a microword at its end. -/
def Obligations.Routines : Prop :=
  ∀ (s : State) (t : Nat) (c : Fin 512), s.Powered → s.Settled →
    let u := s.advance t
    let now := max s.now t
    let x := s.ctx c
    let fault (k : Thread) (code : Nat) (cmd : Instr) : Prop :=
      let noted (st : Nat) (s' : State) : Prop :=
        s'.reg64 sSeq 0x034 = min (s.reg64 sSeq 0x034 + 1) (2 ^ 64 - 1) ∧ bit (s'.reg (ra sSeq 0x008)) 2 = true ∧
        s'.reg (ra sSeq 0x01C) = BitVec.ofNat 32 (k.pc % 2 ^ 14 * 2 ^ 16 + st * 2 ^ 15 + code * 2 ^ 12 + c)
      (k.faulted = false → Answers cmd s fun s' => noted 0 s' ∧ s'.reg64 sSeq 0x02C = min (s.reg64 sSeq 0x02C + 1) (2 ^ 64 - 1) ∧
        bit (s'.reg (ra sSeq 0x008)) 1 = true ∧
        (s'.tabw (oCtx c 38)).toNat = min ((s.tabw (oCtx c 38)).toNat + 1) (2 ^ 32 - 1) ∧
        ∃ k', (s'.ctx c).thread = some k' ∧ k'.pc = k.restart ∧ k'.restart = k.restart ∧ k'.acts = [] ∧ k'.faulted = true ∧
          k'.since = k.since) ∧
      (k.faulted = true → x.st = .running → Answers cmd s fun s' => noted 1 s' ∧ bit (s'.reg (ra sSeq 0x008)) 3 = true ∧
        (s'.ctx c).thread = none ∧ (s'.ctx c).cause = 4 ∧ ((s'.ctx c).st = .stopping ∨ (s'.ctx c).st = .idle))
    (x.st ≠ .running ∨ s.ctxBit c 27 = false ∨ x.thread ≠ none ∨ s.slotFree c = false ∨ (x.queued = false ∧ u.condVec c = x.seen) →
      exec (.dispatch t c) s = .next u) ∧
    (x.st = .running → s.ctxBit c 27 = true → x.thread = none → s.slotFree c = true → x.queued = true ∨ u.condVec c ≠ x.seen →
      Answers (.dispatch t c) s fun s' => (s'.ctx c).queued = false ∧ (s'.ctx c).seen = u.condVec c ∧ (s'.ctx c).pstate = x.pstate ∧
        (s.pstV c x.pstate = false → (s'.ctx c).thread = none) ∧
        (s.pstV c x.pstate = true → (s'.ctx c).disp = x.latch ∧ (s'.ctx c).thread = some
          { pc := s.pstEntry c x.pstate, restart := s.pstEntry c x.pstate, since := now, busyTo := now + now % 2 }) ∧
        s' = { u with ctxs := s'.ctxs }) ∧
    (x.thread = none → (∀ ecc, exec (.microword t c ecc) s = .next u) ∧ exec (.watchdog t c) s = .next u) ∧
    (∀ k, x.thread = some k →
      let w := s.micro k.pc
      let n := s.nano (mwNano w)
      let edges := s.wordEdges k.pc
      let acts := k.acts ++ nwActs n
      let next := mwNext w ||| ((u.condAt c (now - edges) >>> (4 * mwBsel w)) % 2 ^ mwBw w)
      (now < k.since + 131_072 → exec (.watchdog t c) s = .next u) ∧
      (k.since + 131_072 ≤ now → now ≤ k.busyTo → fault k 3 (.watchdog t c)) ∧
      (k.since + 131_072 ≤ now → k.busyTo < now → exec (.watchdog t c) s = .next
        (u.setCtx c { x with thread := some { k with dog := k.dog.or (some now) } })) ∧
      (now < k.busyTo + edges ∨ now % 2 = 1 → k.solHit = false → k.dog = none → ∀ ecc, exec (.microword t c ecc) s = .next u) ∧
      (k.busyTo + edges ≤ now → now % 2 = 0 → k.solHit = false → s.wordFault c k w n = 0 → mwCommit w = false →
        ∀ e, k.dog = some e → u.wordBegan c k e = true → fault k 3 (.microword t c ⟨.clean, .clean⟩)) ∧
      (k.busyTo + edges ≤ now → now % 2 = 0 → k.solHit = true → k.issued = false → k.dog = none → now - edges < s.solEdge →
        s.wordFault c k w n = 0 → mwCommit w = false → Answers (.microword t c ⟨.clean, .clean⟩) s fun s' =>
          ∃ k', (s'.ctx c).thread = some k' ∧ k'.pc = k.restart ∧ k'.acts = [] ∧ k'.solHit = false ∧ k'.faulted = k.faulted) ∧
      (k.busyTo + edges ≤ now → now % 2 = 0 → k.solHit = false → k.dog = none →
        (∀ e, fault k 4 (.microword t c ⟨.uncorrectable, e⟩) ∧ fault k 4 (.microword t c ⟨e, .uncorrectable⟩)) ∧
        (∀ code, code ≠ 0 → s.wordFault c k w n = code → fault k code (.microword t c ⟨.clean, .clean⟩)) ∧
        (s.wordFault c k w n = 0 →
          (mwCommit w = false → Answers (.microword t c ⟨.clean, .clean⟩) s fun s' => ∃ k', (s'.ctx c).thread = some k' ∧ k'.pc = next ∧
            k'.acts = acts ∧ k'.restart = k.restart ∧ k'.since = k.since ∧ k'.faulted = k.faulted ∧ k'.busyTo = now ∧
            k.pc ∈ k'.micro ∧ mwNano w ∈ k'.nano ∧ s' = { u with ctxs := s'.ctxs }) ∧
          (mwCommit w = false → ∀ e : StoreEcc × StoreEcc × Nat,
            e ∈ [(StoreEcc.corrected, StoreEcc.clean, 1), (.clean, .corrected, 1), (.corrected, .corrected, 2)] →
            Answers (.microword t c ⟨e.1, e.2.1⟩) s fun s' =>
              s'.reg64 sSeq 0x03C = min (s.reg64 sSeq 0x03C + e.2.2) (2 ^ 64 - 1) ∧ bit (s'.reg (ra sSeq 0x008)) 4 = true ∧
              ∃ k', (s'.ctx c).thread = some k' ∧ k'.pc = k.restart ∧ k'.acts = []) ∧
          (mwCommit w = true → acts = [] → x.retrig = false →
            let latch := x.latch &&& (x.disp ^^^ (2 ^ 32 - 1))
            (nwFlow n = 0 → Answers (.microword t c ⟨.clean, .clean⟩) s fun s' => (s'.ctx c).latch = latch ∧ (s'.ctx c).disp = 0 ∧
              ∃ k', (s'.ctx c).thread = some k' ∧ k'.pc = next ∧ k'.restart = next ∧ k'.acts = [] ∧ k'.faulted = false ∧
                k'.since = now) ∧
            (nwFlow n = 1 → Answers (.microword t c ⟨.clean, .clean⟩) s fun s' => (s'.ctx c).latch = latch ∧ (s'.ctx c).thread = none ∧
              (s'.ctx c).pstate = x.pstate ∧ (s'.ctx c).inSeq = x.inSeq) ∧
            (nwFlow n = 2 → Answers (.microword t c ⟨.clean, .clean⟩) s fun s' => (s'.ctx c).latch = latch ∧ (s'.ctx c).thread = none ∧
              (s'.ctx c).pstate = nwFstate n ∧ (s'.ctx c).inSeq = x.inSeq) ∧
            (nwFlow n = 3 → Answers (.microword t c ⟨.clean, .clean⟩) s fun s' => (s'.ctx c).latch = latch ∧ (s'.ctx c).thread = none ∧
              (s'.ctx c).pstate = 0 ∧ (s'.ctx c).inSeq = false) ∧
            (nwFlow n = 4 → x.st = .running → Answers (.microword t c ⟨.clean, .clean⟩) s fun s' => (s'.ctx c).thread = none ∧
              (s'.ctx c).cause = 1 ∧ ((s'.ctx c).st = .stopping ∨ (s'.ctx c).st = .idle)))) ∧
        (s.wordFault c k w n = 0 → mwCommit w = true → nwFlow n = 0 → (∀ i b, acts = [.counter i b] → b < 4 → x.counters.length = 4 →
          Answers (.microword t c ⟨.clean, .clean⟩) s fun s' => ∃ m, x.counters[b]? = some m ∧ (s'.ctx c).counters = x.counters.set b
            (if i = 1 then 0 else if i = 2 then min (m + 1) (2 ^ 32 - 1) else m - 1)))))

/-- The host's writes to the stores. The reserved part refuses with reason 2, a word that a routine in progress has fetched
with reason 1, word 3 without its other words with reason 3: each refusal is shown, counted and flagged, and changes no
word. A microword write stands at once; words 0 to 2 of a nanoword wait, and word 3 places all four. -/
def Obligations.StoreWrites : Prop :=
  ∀ (s : State) (t : Nat) (a : Fin 16384) (b : Fin 2048) (v : Word), s.Powered → s.dev ≠ .booting → s.barrierOn = false →
    s.boot.recovery = false → (∀ off, 0x2_0000 ≤ off → off < 0x3_8000 → s.portHolds (.table off [v]) = false) →
    let u := s.advance t
    let refused (c : Instr) (reason store n : Nat) (hold : Option (Nat × List Word)) : Prop := Answers c s fun s' =>
      s'.reg (ra sSeq 0x018) = BitVec.ofNat 32 (reason * 2 ^ 16 + store * 2 ^ 14 + n) ∧
      s'.reg64 sSeq 0x024 = min (s.reg64 sSeq 0x024 + 1) (2 ^ 64 - 1) ∧ bit (s'.reg (ra sSeq 0x008)) 0 = true ∧
      s'.hold = hold ∧ Side { u with hold := hold } s'
    (a.val < 0x3000 → refused (.microwordWrite t a v) 2 0 a s.hold) ∧
    (0x3000 ≤ a.val → u.microBusy a = true → refused (.microwordWrite t a v) 1 0 a s.hold) ∧
    (0x3000 ≤ a.val → u.microBusy a = false → Answers (.microwordWrite t a v) s fun s' =>
      s'.micro a = v ∧ (∀ o, o ≠ a.val → s'.micro o = s.micro o) ∧ (∀ o, o < 2048 → s'.nano o = s.nano o) ∧
      s' = { u with tab := s'.tab }) ∧
    (∀ k : Fin 3,
      let old : List Word := match s.hold with
        | some (o, l) => if o = b.val then l else s.nanoWords b
        | none => s.nanoWords b
      (b.val < 0x600 → refused (.nanowordPartWrite t b k v) 2 1 b s.hold) ∧
      (0x600 ≤ b.val → u.nanoBusy b = true → refused (.nanowordPartWrite t b k v) 1 1 b s.hold) ∧
      (0x600 ≤ b.val → u.nanoBusy b = false → exec (.nanowordPartWrite t b k v) s = .next
        { u with hold := some (b.val, old.set k (if k.val = 0 then v &&& 0xFFFE_0000 else v)) })) ∧
    (b.val < 0x600 → refused (.nanowordWord3Write t b v) 2 1 b s.hold) ∧
    (0x600 ≤ b.val → u.nanoBusy b = true → refused (.nanowordWord3Write t b v) 1 1 b none) ∧
    (∀ o l, 0x600 ≤ b.val → u.nanoBusy b = false → s.hold = some (o, l) → o ≠ b.val →
      refused (.nanowordWord3Write t b v) 3 1 b none) ∧
    (∀ w0 w1 w2 w3, 0x600 ≤ b.val → u.nanoBusy b = false → s.hold = some (b.val, [w0, w1, w2, w3]) →
      Answers (.nanowordWord3Write t b v) s fun s' => s'.hold = none ∧
        s'.nano b = w0.toNat + 2 ^ 32 * w1.toNat + 2 ^ 64 * w2.toNat + 2 ^ 96 * (v.toNat % 2 ^ 31) ∧
        (∀ o, o < 2048 → o ≠ b.val → s'.nano o = s.nano o) ∧ (∀ o, o < 16384 → s'.micro o = s.micro o)) ∧
    (0x600 ≤ b.val → u.nanoBusy b = false → s.hold = none → Answers (.nanowordWord3Write t b v) s fun s' =>
      s'.tabw (oNano b 3) = v &&& 0x7FFF_FFFF ∧ (∀ k, k < 3 → s'.tabw (oNano b k) = s.tabw (oNano b k)))

/-! ### Acquisition (15_acquisition.md) -/

/-- The writer handles items in TIME order: one before its time waits, one outside a segment goes to the pre-trigger ring
alone, one inside is written with 16 bytes, counted and measured; one with no room in the area ends the capture by overflow
and stops its context. A segment closes at its end with its marker, and a record with its last segment. Re-arm reads
OVERLAP; a STREAM message leaves at a page end or after POST. -/
def Obligations.Records : Prop :=
  ∀ (s : State) (t : Nat) (c : Fin 512), s.Powered → s.Settled → Sparse.get [] s.oldWords c = [] →
    let u := s.advance t
    let k := s.cap c
    let written (die : Nat) : Nat := if die = 0 then 0x064 else 0x06C
    let items (s' : State) (n : Nat) : Prop :=
      s'.reg64 sAcq (written (s.recDie c)) = min (s.reg64 sAcq (written (s.recDie c)) + n) (2 ^ 64 - 1)
    (k.tR = none ∨ k.active = false ∨ k.rearmed = true ∨ (∃ r, k.tR = some r ∧ u.phys < r) → exec (.rearm t c) s = .next u) ∧
    (∀ r, k.tR = some r → k.active = true → k.rearmed = false → r ≤ u.phys → exec (.rearm t c) s = .next
      (u.setCap c { k with rearmed := true, overlap := s.rbit sAcq (0x018 + 4 * (c / 32)) (c % 32) })) ∧
    (let page := (k.written - k.msg.length) / 2 ^ 21 < k.written / 2 ^ 21
      let post := s.recPost c ≠ 0 ∧ k.msgFrom + s.recPost c ≤ max s.now t
      (s.recStream c = false ∨ k.msg = [] ∨ (¬page ∧ ¬post) → exec (.streamMessageCut t c) s = .next u) ∧
      (s.recStream c = true → k.msg ≠ [] → page ∨ post → Answers (.streamMessageCut t c) s fun s' =>
        s'.cap c = { k with msg := [] } ∧
        (s'.dmaCh (s.recDma c)).handed = (s.dmaCh (s.recDma c)).handed ++ [{ kind := 1, body := k.msg, src := .record c }] ∧
        s' = { u with caps := s'.caps, dma := s'.dma })) ∧
    ((s.heng (s.recDie c)).crossing = [] →
      (k.active = false → Answers (.recordItem t c) s fun s' => s'.cap c = k ∧ s'.regs = s.regs) ∧
      (∀ i r, k.active = true → k.inq = i :: r → u.capPast c i.phys = false ∨ u.headsPast c i.phys = false → Answers (.recordItem t c) s fun s' =>
        s'.cap c = k ∧ s'.regs = s.regs) ∧
      (∀ i r, k.active = true → k.inq = i :: r → u.capPast c i.phys = true → k.segs = [] → Answers (.recordItem t c) s fun s' =>
        s'.cap c = ringPush (s.recRing c) { k with inq := r } i ∧ s'.regs = s.regs ∧ s'.dma = s.dma) ∧
      (∀ i r g e, k.active = true → k.inq = i :: r → u.capPast c i.phys = true → k.segs = [g] → g.headed = true → g.tS ≤ i.phys →
        g.tE = some e → i.phys < e → i.kind ≠ 1 → s.recStream c = false →
        let word := if i.kind = 0 then (passOwed k.owed i.stamp).1.word1 else i.word1
        (s.capRoom c 16 = true → Answers (.recordItem t c) s fun s' =>
          (s'.cap c).inq = r ∧ (s'.cap c).segs =
            [{ g with items := g.items + 1, union := g.union ||| (word / 2 ^ 42 % 256) }] ∧
          (s'.cap c).written = k.written + 16 ∧ (s'.cap c).used = (if k.mute then k.used else k.used + 16) ∧ items s' 1 ∧
          (s'.cap c).full = false ∧ (s'.cap c).active = true) ∧
        (s.capRoom c 16 = false → (s.ctx c).st = .running → Answers (.recordItem t c) s fun s' =>
          (s'.ctx c).st = .stoppedOvf ∧ (s'.ctx c).cause = 3 ∧ (s'.cap c).active = false ∧ (s'.cap c).ovf = true ∧
          (s'.tabw (oRec c 13)).toNat = min ((s.tabw (oRec c 13)).toNat + 1) (2 ^ 32 - 1) ∧
          s'.reg64 sAcq 0x07C = min (s.reg64 sAcq 0x07C + 1) (2 ^ 64 - 1) ∧ bit (s'.reg (ra sAcq 0x008)) 1 = true)) ∧
      (k.segs = [] → Answers (.segmentPostEnd t c) s fun s' => s'.cap c = k ∧ s'.regs = s.regs) ∧
      (∀ g e m, k.segs = [g] → g.tE = some e → g.headed = true → k.active = true → k.stopping = false → k.rec' = some m →
        s.recStream c = false →
        (u.capPast c (e - 1) = false ∨ (∃ i ∈ k.inq, i.phys < e) → Answers (.segmentPostEnd t c) s fun s' =>
          s'.cap c = k ∧ s'.regs = s.regs) ∧
        (u.capPast c (e - 1) = true → (∀ i ∈ k.inq, e ≤ i.phys) → s.capRoom c 16 = true →
          (m.closed + 1 < s.recSegCnt c ∨ s.capRoom c (80 + 128 * s.recNsrc c) = true) → Answers (.segmentPostEnd t c) s fun s' =>
          (s'.cap c).segs = [] ∧ (s'.cap c).inq = k.inq ∧ (s'.cap c).ring = k.ring ∧ (s'.cap c).active = true ∧ items s' 1 ∧
          (m.closed + 1 < s.recSegCnt c → s'.tabw (oRec c 14) = s.tabw (oRec c 14) ∧ ∃ m', (s'.cap c).rec' = some m' ∧
            m'.closed = m.closed + 1 ∧ (m.sols = [] → m'.span = m.span + (e - g.tS)) ∧ m'.lastE = e ∧ m'.bytes = m.bytes + 16) ∧
          (s.recSegCnt c ≤ m.closed + 1 → (s'.cap c).rec' = none ∧ s'.tabw (oRec c 14) = s.tabw (oRec c 14) + 1 ∧
            s'.reg64 sAcq 0x074 = min (s.reg64 sAcq 0x074 + 1) (2 ^ 64 - 1) ∧ bit (s'.reg (ra sAcq 0x008)) 0 = true)))) ∧
    (∀ (x : Stamp) (w2 : Option Nat) (forced : Bool), k.active = true → k.stopping = false → k.full = false → s.recStream c = false →
      let y := (s.capTrigger c x w2 forced false).cap c
      let e := if s.recPost c = 0 then none else some (x.phys + 2000 * (s.recPost c : Int))
      ∃ g : Seg, y.segs = k.segs ++ [g] ∧ g.trig = x ∧ g.tS = x.phys - 2000 * (s.recPre c : Int) ∧ g.tE = e ∧ g.forced = forced ∧
        g.headed = false ∧ y.opened = true ∧ y.tR = e.map (· + 480_000) ∧ y.inq = k.inq ∧ y.ring = k.ring)
end

