-- ==== Sys2Proof/Laws/Bits.lean ====
section
/-! SUPPORT. The laws of bit fields: every bit of a field put in place, and a field read back after it was set. -/

namespace Sys2Proof.Machine

theorem put_getLsbD (n lo w i : Nat) :
    (put n lo w).getLsbD i = (decide (i < 32) && decide (lo ≤ i) && decide (i < lo + w) && n.testBit (i - lo)) := by
  unfold put
  rw [BitVec.getLsbD_ofNat, Nat.testBit_shiftLeft, Nat.testBit_mod_two_pow]
  by_cases h1 : i < 32 <;> by_cases h2 : lo ≤ i <;> simp [h1, h2]
  by_cases h3 : i < lo + w
  · have : i - lo < w := by omega
    simp [h3, this]
  · have : ¬ i - lo < w := by omega
    simp [h3, this]

/-- One bit put in place. -/
theorem put_one (b : Nat) : put 1 b 1 = (1 : Word) <<< b := by
  apply BitVec.eq_of_getLsbD_eq
  intro i hi
  rw [put_getLsbD, BitVec.getLsbD_shiftLeft]
  by_cases h : b = i
  · subst h; simp [hi]
  · by_cases h2 : b < i
    · have h3 : ¬ i < b + 1 := by omega
      have h4 : i - b ≠ 0 := by omega
      simp [hi, h2.le, h3, h4]
    · have h3 : ¬ b ≤ i := by omega
      have h4 : i < b := by omega
      simp [hi, h3, h4]

theorem setFld_getLsbD (v : Word) (lo w n i : Nat) (hi : i < 32) :
    (setFld v lo w n).getLsbD i = if lo ≤ i ∧ i < lo + w then n.testBit (i - lo) else v.getLsbD i := by
  unfold setFld
  rw [BitVec.getLsbD_or, BitVec.getLsbD_and, BitVec.getLsbD_not, put_getLsbD, put_getLsbD]
  by_cases h2 : lo ≤ i <;> by_cases h3 : i < lo + w <;> simp [hi, h2, h3]
  intro _ h
  omega

/-- A field that has just been set. -/
theorem fld_setFld (v : Word) (lo w n : Nat) (h : lo + w ≤ 32) : fld (setFld v lo w n) lo w = n % 2 ^ w := by
  apply Nat.eq_of_testBit_eq
  intro i
  unfold fld
  rw [Nat.testBit_mod_two_pow, Nat.testBit_mod_two_pow, Nat.testBit_shiftRight]
  by_cases hi : i < w
  · have := setFld_getLsbD v lo w n (lo + i) (by omega)
    rw [if_pos (by omega), show lo + i - lo = i by omega] at this
    simp only [hi, decide_true, Bool.true_and]
    exact this
  · simp [hi]

end Sys2Proof.Machine
end

