-- ==== Sys2Proof/Laws/Exec.lean ====
section
/-! SUPPORT. What exec comes to, command by command: the shared wrapper and the operation that the command's meaning runs.
Every lemma holds by definition, so that no proof unfolds the dispatch again. -/

namespace Sys2Proof.Machine

theorem exec_registerWrite (t : Nat) (p : Path) (a : Nat) (full : Bool) (v : Word) (s : State) :
    exec (.registerWrite t p a full v) s = (command t fun s => s.hostWrite p a v full) s := rfl

theorem exec_stagedWrite (t : Nat) (p : Path) (a : Nat) (v : Word) (s : State) :
    exec (.stagedWrite t p a v) s = (command t fun s => s.hostWrite p a v true) s := rfl

theorem exec_tableWrite (t off : Nat) (vs : List Word) (s : State) :
    exec (.tableWrite t off vs) s = (command t fun s => s.tableWrite off vs) s := rfl

theorem exec_splitReadLo (t : Nat) (p : Path) (a : Nat) (s : State) :
    exec (.splitReadLo t p a) s = (command t fun s => s.hostRead p a) s := rfl

theorem exec_splitReadHi (t : Nat) (p : Path) (a : Nat) (s : State) :
    exec (.splitReadHi t p a) s = (command t fun s => s.hostRead p a) s := rfl

theorem exec_pageStatRead (t : Nat) (p : Path) (slot : Fin 1024) (s : State) :
    exec (.pageStatRead t p slot) s = (command t fun s => s.hostRead p (ra slot 0x004)) s := rfl

theorem exec_resSnapshotRead (t : Nat) (p : Path) (stat : Bool) (s : State) :
    exec (.resSnapshotRead t p stat) s = (command t fun s => s.hostRead p (ra sMeas (if stat then 0x060 else 0x020))) s := rfl

theorem exec_resWindowRead (t : Nat) (p : Path) (stat : Bool) (k : Fin 32) (s : State) :
    exec (.resWindowRead t p stat k) s = (command t fun s => s.hostRead p (ra sMeas (if stat then 0x060 + 4 * k else 0x020 + 4 * (k % 16)))) s := rfl

theorem exec_bbrEntRead (t : Nat) (p : Path) (s : State) :
    exec (.bbrEntRead t p) s = (command t fun s => s.hostRead p (ra sBbr 0x02C)) s := rfl

theorem exec_pageEvtClear (t : Nat) (p : Path) (slot : Fin 1024) (v : Word) (s : State) :
    exec (.pageEvtClear t p slot v) s = (command t fun s => s.hostWrite p (ra slot 0x008) v true) s := rfl

theorem exec_pageReset (t : Nat) (p : Path) (slot : Fin 1024) (s : State) :
    exec (.pageReset t p slot) s = (command t fun s => s.hostWrite p (ra slot 0x010) (if s.pageOn slot then 3 else 1) true) s := rfl

theorem exec_pageResetComplete (t : Nat) (slot : Fin 1024) (s : State) :
    exec (.pageResetComplete t slot) s = (command t fun s => s.resetComplete slot) s := rfl

theorem exec_pageEnable (t : Nat) (p : Path) (slot : Fin 1024) (en : Bool) (s : State) :
    exec (.pageEnable t p slot en) s = (command t fun s => s.hostWrite p (ra slot 0x010) (if en then 2 else 0) true) s := rfl

theorem exec_commit (t : Nat) (p : Path) (s : State) :
    exec (.commit t p) s = (command t fun s => s.hostWrite p (ra sGlb 0x018) 1 true) s := rfl

theorem exec_discard (t : Nat) (p : Path) (s : State) :
    exec (.discard t p) s = (command t fun s => s.hostWrite p (ra sGlb 0x018) 2 true) s := rfl

theorem exec_dormant (t : Nat) (p : Path) (s : State) :
    exec (.dormant t p) s = (command t fun s => s.hostWrite p (ra sGlb 0x018) 3 true) s := rfl

theorem exec_commitValidated (t : Nat) (s : State) :
    exec (.commitValidated t) s = (command t State.commitValidated) s := rfl

theorem exec_commitApplied (t : Nat) (s : State) :
    exec (.commitApplied t) s = (command t fun s => s.commitApplied.wakeAll) s := rfl

theorem exec_barrier (t : Nat) (p : Path) (s : State) :
    exec (.barrier t p) s = (command t fun s => s.hostWrite p (ra sGlb 0x02C) 0 true) s := rfl

theorem exec_barrierComplete (t : Nat) (s : State) :
    exec (.barrierComplete t) s = (command t State.barrierComplete) s := rfl

theorem exec_barrierRead (t : Nat) (p : Path) (s : State) :
    exec (.barrierRead t p) s = (command t fun s => s.hostRead p (ra sGlb 0x02C)) s := rfl

theorem exec_stopDoorbell (t : Nat) (v : Word) (s : State) :
    exec (.stopDoorbell t v) s = (command t fun s => s.doorbell 0x5354_4F50 true v) s := rfl

theorem exec_releaseDoorbell (t : Nat) (v : Word) (s : State) :
    exec (.releaseDoorbell t v) s = (command t fun s => s.doorbell 0x524C_5345 false v) s := rfl

theorem exec_stopNAssert (t : Nat) (s : State) :
    exec (.stopNAssert t) s = (command t fun s => s.stopHold stopPin) s := rfl

theorem exec_stopNRelease (t : Nat) (s : State) :
    exec (.stopNRelease t) s = (command t fun s => s.stopDrop stopPin) s := rfl

theorem exec_stopOn (t : Nat) (s : State) :
    exec (.stopOn t) s = (command t State.stopApply) s := rfl

theorem exec_stopOff (t : Nat) (s : State) :
    exec (.stopOff t) s = (command t State.stopLift) s := rfl

theorem exec_spiRead (t : Nat) (a : BitVec 24) (whole ready : Bool) (s : State) :
    exec (.spiRead t a whole ready) s = (command t fun s => s.spiRead a.toNat whole ready) s := rfl

theorem exec_spiWrite (t : Nat) (a : BitVec 24) (v : Word) (whole : Bool) (s : State) :
    exec (.spiWrite t a v whole) s = (command t fun s => s.spiWrite a.toNat v whole) s := rfl

theorem exec_spiStatus (t : Nat) (whole : Bool) (s : State) :
    exec (.spiStatus t whole) s = (command t fun s => s.spiStatus whole) s := rfl

theorem exec_spiStop (t : Nat) (key : BitVec 16) (whole : Bool) (s : State) :
    exec (.spiStop t key whole) s = (command t fun s => s.spiKey 0x5354 true key whole) s := rfl

theorem exec_spiRelease (t : Nat) (key : BitVec 16) (whole : Bool) (s : State) :
    exec (.spiRelease t key whole) s = (command t fun s => s.spiKey 0x524C false key whole) s := rfl

theorem exec_tailWrite (t : Nat) (ch : Fin 64) (v : Word) (s : State) :
    exec (.tailWrite t ch v) s = (command t fun s => s.hostTail ch v) s := rfl

theorem exec_dmaMessageQueued (t : Nat) (ch : Fin 64) (s : State) :
    exec (.dmaMessageQueued t ch) s = (command t fun s => s.dmaQueue ch) s := rfl

theorem exec_descriptorFetch (t : Nat) (ch : Fin 64) (r : FetchResult) (s : State) :
    exec (.descriptorFetch t ch r) s = (command t fun s => s.descFetch ch r) s := rfl

theorem exec_bufferComplete (t : Nat) (ch : Fin 64) (s : State) :
    exec (.bufferComplete t ch) s = (command t fun s => s.bufComplete ch) s := rfl

theorem exec_dmaDisableDone (t : Nat) (ch : Fin 64) (s : State) :
    exec (.dmaDisableDone t ch) s = (command t fun s => s.dmaDisableDone ch) s := rfl

theorem exec_irqTimeExpire (t : Nat) (ch : Fin 64) (s : State) :
    exec (.irqTimeExpire t ch) s = (command t fun s => s.irqExpire ch) s := rfl

theorem exec_pciePerst (t : Nat) (s : State) :
    exec (.pciePerst t) s = (command t State.perst) s := rfl

theorem exec_porstAssert (t : Nat) (s : State) :
    exec (.porstAssert t) s = (commandReset t State.porstAssert) s := rfl

theorem exec_porstRelease (t : Nat) (strap : Bool) (s : State) :
    exec (.porstRelease t strap) s = (commandReset t fun s => s.porstRelease strap) s := rfl

theorem exec_firmwareLoaded (t : Nat) (s : State) :
    exec (.firmwareLoaded t) s = (command t State.fwLoad) s := rfl

theorem exec_calCopyLoad (t : Nat) (s : State) :
    exec (.calCopyLoad t) s = (command t State.calCopyLoad) s := rfl

theorem exec_patchCheck (t : Nat) (s : State) :
    exec (.patchCheck t) s = (command t State.patchCheck) s := rfl

theorem exec_hbmTrained (t : Nat) (s : State) :
    exec (.hbmTrained t) s = (command t State.hbmTrained) s := rfl

theorem exec_bbrScan (t : Nat) (s : State) :
    exec (.bbrScan t) s = (command t State.bbrScan) s := rfl

theorem exec_awaitingReached (t : Nat) (s : State) :
    exec (.awaitingReached t) s = (command t State.awaiting) s := rfl

theorem exec_fuse (t : Nat) (p : Path) (key : BitVec 16) (s : State) :
    exec (.fuse t p key) s = (command t fun s => s.hostWrite p (ra sSec 0x038) (put key.toNat 16 16 ||| 1) true) s := rfl

theorem exec_updBegin (t : Nat) (p : Path) (target : BitVec 2) (s : State) :
    exec (.updBegin t p target) s = (command t fun s => s.hostWrite p (ra sSec 0x038) (put target.toNat 4 2 ||| 2) true) s := rfl

theorem exec_updChunk (t : Nat) (p : Path) (s : State) :
    exec (.updChunk t p) s = (command t fun s => s.hostWrite p (ra sSec 0x038) 3 true) s := rfl

theorem exec_updFinish (t : Nat) (p : Path) (s : State) :
    exec (.updFinish t p) s = (command t fun s => s.hostWrite p (ra sSec 0x038) 4 true) s := rfl

theorem exec_service (t : Nat) (p : Path) (s : State) :
    exec (.service t p) s = (command t fun s => s.hostWrite p (ra sSec 0x038) 5 true) s := rfl

theorem exec_svcDone (t : Nat) (nvmError : Bool) (s : State) :
    exec (.svcDone t nvmError) s = (command t fun s => s.svcDone nvmError) s := rfl

theorem exec_bbrDump (t : Nat) (p : Path) (ch : Fin 64) (s : State) :
    exec (.bbrDump t p ch) s = (command t fun s => s.hostWrite p (ra sBbr 0x06C) (put 1 8 1 ||| put ch 0 6) true) s := rfl

theorem exec_bbrEntryProgrammed (t : Nat) (s : State) :
    exec (.bbrEntryProgrammed t) s = (command t State.bbrProgrammed) s := rfl

theorem exec_bbrSectorErased (t : Nat) (s : State) :
    exec (.bbrSectorErased t) s = (command t State.bbrErased) s := rfl

theorem exec_monSample (t : Nat) (mv temps : List (BitVec 16)) (s : State) :
    exec (.monSample t mv temps) s = (command t fun s => s.monSample mv temps) s := rfl

theorem exec_calFullRun (t : Nat) (p : Path) (store : Bool) (s : State) :
    exec (.calFullRun t p store) s = (command t fun s => s.hostWrite p (ra sCal 0x018) (put (b2n store) 15 1 ||| 1) true) s := rfl

theorem exec_calChannelRun (t : Nat) (p : Path) (ch : BitVec 7) (store : Bool) (s : State) :
    exec (.calChannelRun t p ch store) s = (command t fun s => s.hostWrite p (ra sCal 0x018) (put (b2n store) 15 1 ||| put ch.toNat 8 7 ||| 2) true) s := rfl

theorem exec_calStore (t : Nat) (p : Path) (s : State) :
    exec (.calStore t p) s = (command t fun s => s.hostWrite p (ra sCal 0x018) 3 true) s := rfl

theorem exec_tempSample (t : Nat) (temp : BitVec 16) (s : State) :
    exec (.tempSample t temp) s = (command t fun s => s.calTemp temp) s := rfl

theorem exec_calRunStart (t : Nat) (s : State) :
    exec (.calRunStart t) s = (command t State.calStart) s := rfl

theorem exec_calChannelStart (t : Nat) (c : Fin 102) (s : State) :
    exec (.calChannelStart t c) s = (command t fun s => s.calChanStart c) s := rfl

theorem exec_calCellStep (t : Nat) (c : Fin 102) (r : CellResult) (s : State) :
    exec (.calCellStep t c r) s = (command t fun s => s.calCell c r) s := rfl

theorem exec_calComparatorStep (t : Nat) (c : Fin 102) (r : PairResult) (s : State) :
    exec (.calComparatorStep t c r) s = (command t fun s => s.calPair c r) s := rfl

theorem exec_calPinStep (t : Nat) (c : Fin 102) (d1 d2 : Int) (s : State) :
    exec (.calPinStep t c d1 d2) s = (command t fun s => s.calPin c d1 d2) s := rfl

theorem exec_calTapStep (t : Nat) (c : Fin 102) (r : TapResult) (s : State) :
    exec (.calTapStep t c r) s = (command t fun s => s.calTap c r) s := rfl

theorem exec_tapBankSwitch (t : Nat) (c : Fin 102) (s : State) :
    exec (.tapBankSwitch t c) s = (command t fun s => s.bankSwitch c) s := rfl

theorem exec_tapSwitchTimeout (t : Nat) (c : Fin 102) (s : State) :
    exec (.tapSwitchTimeout t c) s = (command t fun s => s.bankTimeout c) s := rfl

theorem exec_calChannelEnd (t : Nat) (c : Fin 102) (s : State) :
    exec (.calChannelEnd t c) s = (command t fun s => s.calChanEnd c) s := rfl

theorem exec_calRunDone (t : Nat) (s : State) :
    exec (.calRunDone t) s = (command t State.calRunDone) s := rfl

theorem exec_calStoreDone (t : Nat) (ok : Bool) (s : State) :
    exec (.calStoreDone t ok) s = (command t fun s => s.calStoreDone ok) s := rfl

theorem exec_calStoreDeferExpire (t : Nat) (s : State) :
    exec (.calStoreDeferExpire t) s = (command t State.calDeferExpire) s := rfl

theorem exec_refEdge (t : Nat) (x : Fin 4) (rising : Bool) (q : Nat) (s : State) :
    exec (.refEdge t x rising q) s = (command t fun s => s.refEdge x t q rising) s := rfl

theorem exec_refEdgeMissing (t : Nat) (x : Fin 4) (s : State) :
    exec (.refEdgeMissing t x) s = (command t fun s => s.refMissing x) s := rfl

theorem exec_refWindowEnd (t : Nat) (x : Fin 4) (s : State) :
    exec (.refWindowEnd t x) s = (command t fun s => s.refWindow x) s := rfl

theorem exec_refQualified (t : Nat) (x : Fin 4) (s : State) :
    exec (.refQualified t x) s = (command t fun s => s.refQualify x) s := rfl

theorem exec_refTick (t : Nat) (s : State) :
    exec (.refTick t) s = (command t fun s => s.refTick.wakeAll) s := rfl

theorem exec_pullDone (t : Nat) (s : State) :
    exec (.pullDone t) s = (command t fun s => s.pullDone.wakeAll) s := rfl

theorem exec_pllLock (t : Nat) (x : LoopErr) (s : State) :
    exec (.pllLock t x) s = (command t fun s => s.pllLock x.loop x.err) s := rfl

theorem exec_pllLockLoss (t : Nat) (x : LoopErr) (s : State) :
    exec (.pllLockLoss t x) s = (command t fun s => s.pllCycle x.loop x.err) s := rfl

theorem exec_oscLoss (t : Nat) (s : State) :
    exec (.oscLoss t) s = (command t fun s => s.oscLoss.wakeAll) s := rfl

theorem exec_oscReturn (t : Nat) (s : State) :
    exec (.oscReturn t) s = (command t State.oscReturn) s := rfl

theorem exec_ckoApply (t : Nat) (s : State) :
    exec (.ckoApply t) s = (command t State.ckoApply) s := rfl

theorem exec_syncInEdge (t : Nat) (rising : Bool) (q : Nat) (s : State) :
    exec (.syncInEdge t rising q) s = (command t fun s => s.syncInEdge t q rising) s := rfl

theorem exec_now (t : Nat) (p : Path) (s : State) :
    exec (.now t p) s = (command t fun s => s.hostWrite p (ra sSol 0x018) 2 true) s := rfl

theorem exec_atGo (t : Nat) (p : Path) (s : State) :
    exec (.atGo t p) s = (command t fun s => s.hostWrite p (ra sSol 0x018) 4 true) s := rfl

theorem exec_cancel (t : Nat) (p : Path) (s : State) :
    exec (.cancel t p) s = (command t fun s => s.hostWrite p (ra sSol 0x018) 8 true) s := rfl

theorem exec_arm (t : Nat) (p : Path) (s : State) :
    exec (.arm t p) s = (command t fun s => s.hostWrite p (ra sSol 0x018) 1 true) s := rfl

theorem exec_partnerSolstice (t : Nat) (e : Word64) (s : State) :
    exec (.partnerSolstice t e) s = (command t fun s => s.partnerSolstice e.toNat) s := rfl

theorem exec_solstice (t : Nat) (s : State) :
    exec (.solstice t) s = (commandEpoch t State.solOrigin State.solstice) s := rfl

theorem exec_syncOutRise (t : Nat) (s : State) :
    exec (.syncOutRise t) s = (command t State.syncOutRise) s := rfl

theorem exec_syncOutFall (t : Nat) (s : State) :
    exec (.syncOutFall t) s = (command t State.syncOutFall) s := rfl

theorem exec_wrap (t : Nat) (s : State) :
    exec (.wrap t) s = (commandEpoch t State.wrapOrigin State.wrap) s := rfl

theorem exec_ttlMarker (t : Nat) (k : Fin 33) (teOut : Nat) (s : State) :
    exec (.ttlMarker t k teOut) s = (command t fun s => s.ttlMarker k teOut) s := rfl

theorem exec_ttlReport (t : Nat) (k : Fin 33) (rx tx : Word64) (s : State) :
    exec (.ttlReport t k rx tx) s = (command t fun s => s.ttlReport k rx.toNat tx.toNat) s := rfl

theorem exec_ttlExchange (t : Nat) (k : Fin 33) (l : List (Nat × Nat)) (s : State) :
    exec (.ttlExchange t k l) s = (command t fun s => s.ttlExchange k l) s := rfl

theorem exec_tinEdge (t : Nat) (ch : Fin 64) (rising : Bool) (q : Nat) (s : State) :
    exec (.tinEdge t ch rising q) s = (command t fun s => (s.tinEdge ch t q rising).wakeAll) s := rfl

theorem exec_tinFifoDeliver (t : Nat) (ch : Fin 64) (s : State) :
    exec (.tinFifoDeliver t ch) s = (command t fun s => s.tinDeliver ch) s := rfl

theorem exec_rotationEquinoxStart (t : Nat) (ch : Fin 102) (s : State) :
    exec (.rotationEquinoxStart t ch) s = (command t fun s => s.rotationStart ch) s := rfl

theorem exec_gateRequest (t : Nat) (ch : Fin 64) (s : State) :
    exec (.gateRequest t ch) s = (command t fun s => s.gateRequest ch) s := rfl

theorem exec_equinoxDone (t : Nat) (ch : Fin 102) (c1 c2 : List Nat) (s : State) :
    exec (.equinoxDone t ch c1 c2) s = (command t fun s => s.equinoxDone ch c1 c2) s := rfl

theorem exec_swapWindowClose (t : Nat) (ch : Fin 102) (s : State) :
    exec (.swapWindowClose t ch) s = (command t fun s => (s.windowClose ch).measReady ch) s := rfl

theorem exec_forwardStamp (t : Nat) (die : Fin 2) (s : State) :
    exec (.forwardStamp t die) s = (command t fun s => s.forwardStamp die) s := rfl

theorem exec_forwardDequeue (t : Nat) (die : Fin 2) (s : State) :
    exec (.forwardDequeue t die) s = (command t fun s => (s.forwardDequeue die).settle) s := rfl

theorem exec_measStamp (t : Nat) (s : State) :
    exec (.measStamp t) s = (command t State.measStamp) s := rfl

theorem exec_measLaneStamp (t : Nat) (s : State) :
    exec (.measLaneStamp t) s = (command t State.measLaneStamp) s := rfl

theorem exec_timerGateRequest (t : Nat) (i : Fin 1024) (s : State) :
    exec (.timerGateRequest t i) s = (command t fun s => s.timerRequest i) s := rfl

theorem exec_timerGateEdge (t : Nat) (i : Fin 1024) (s : State) :
    exec (.timerGateEdge t i) s = (command t fun s => s.timerEdge i) s := rfl

theorem exec_gateLengthLimit (t : Nat) (i : Fin 1024) (s : State) :
    exec (.gateLengthLimit t i) s = (command t fun s => s.lengthLimit i) s := rfl

theorem exec_gateComplete (t : Nat) (i : Fin 1024) (s : State) :
    exec (.gateComplete t i) s = (command t fun s => (s.asKept (oMeas i 0) 16 fun s => s.gateComplete i).settle) s := rfl

theorem exec_plPush (t : Nat) (p : Path) (n : Fin 32) (v : Word) (s : State) :
    exec (.plPush t p n v) s = (command t fun s => s.hostWrite p (ra (sTout n) 0x03C) v true) s := rfl

theorem exec_placementArrive (t : Nat) (n : Fin 32) (s : State) :
    exec (.placementArrive t n) s = (command t fun s => s.placementArrive n) s := rfl

theorem exec_placementHead (t : Nat) (n : Fin 32) (s : State) :
    exec (.placementHead t n) s = (command t fun s => s.placementHead n) s := rfl

theorem exec_placementLaunch (t : Nat) (n : Fin 32) (s : State) :
    exec (.placementLaunch t n) s = (command t fun s => s.placementLaunch n) s := rfl

theorem exec_toutTransition (t : Nat) (n : Fin 32) (q : Nat) (s : State) :
    exec (.toutTransition t n q) s = (command t fun s => s.toutTransition n t q) s := rfl

theorem exec_generatorPulse (t : Nat) (n : Fin 32) (s : State) :
    exec (.generatorPulse t n) s = (command t fun s => s.generatorPulse n) s := rfl

theorem exec_laneCodeword (t : Nat) (n : Fin 64) (r : CodewordResult) (s : State) :
    exec (.laneCodeword t n r) s = (command t fun s => s.laneCodeword n r) s := rfl

theorem exec_laneCwLock (t : Nat) (n : Fin 64) (s : State) :
    exec (.laneCwLock t n) s = (command t fun s => (s.laneCwLock n).wakeAll) s := rfl

theorem exec_laneAlignLoss (t : Nat) (n : Fin 64) (s : State) :
    exec (.laneAlignLoss t n) s = (command t fun s => (s.laneAlignLoss n).wakeAll) s := rfl

theorem exec_laneSignalLoss (t : Nat) (n : Fin 64) (s : State) :
    exec (.laneSignalLoss t n) s = (command t fun s => (s.laneSignalLoss n).wakeAll) s := rfl

theorem exec_hit (t : Nat) (n : Fin 64) (w : Word64) (s : State) :
    exec (.hit t n w) s = (command t fun s => s.laneRx n w) s := rfl

theorem exec_mark (t : Nat) (n : Fin 64) (w : Word64) (s : State) :
    exec (.mark t n w) s = (command t fun s => s.laneRx n w) s := rfl

theorem exec_health (t : Nat) (n : Fin 64) (w : Word64) (s : State) :
    exec (.health t n w) s = (command t fun s => s.laneRx n w) s := rfl

theorem exec_ident (t : Nat) (n : Fin 64) (w : Word64) (s : State) :
    exec (.ident t n w) s = (command t fun s => (s.laneRx n w).wakeAll) s := rfl

theorem exec_unit (t : Nat) (n : Fin 64) (w : Word64) (s : State) :
    exec (.unit t n w) s = (command t fun s => (s.laneRx n w).wakeAll) s := rfl

theorem exec_poll (t : Nat) (n : Fin 64) (w : Word64) (s : State) :
    exec (.poll t n w) s = (command t fun s => s.laneRx n w) s := rfl

theorem exec_ack (t : Nat) (n : Fin 64) (w : Word64) (s : State) :
    exec (.ack t n w) s = (command t fun s => (s.laneRx n w).wakeAll) s := rfl

theorem exec_pollTx (t : Nat) (n : Fin 64) (s : State) :
    exec (.pollTx t n) s = (command t fun s => s.lanePollTx n) s := rfl

theorem exec_credit (t : Nat) (n : Fin 64) (s : State) :
    exec (.credit t n) s = (command t fun s => s.laneCredit n) s := rfl

theorem exec_ackTimeout (t : Nat) (n : Fin 64) (s : State) :
    exec (.ackTimeout t n) s = (command t fun s => (s.laneAckTimeout n).wakeAll) s := rfl

theorem exec_registrationTimeout (t : Nat) (n : Fin 64) (s : State) :
    exec (.registrationTimeout t n) s = (command t fun s => (s.laneRegTimeout n).wakeAll) s := rfl

theorem exec_laneRetry (t : Nat) (n : Fin 64) (s : State) :
    exec (.laneRetry t n) s = (command t fun s => (s.laneRetry n).wakeAll) s := rfl

theorem exec_rebaseHit (t : Nat) (n : Fin 64) (s : State) :
    exec (.rebaseHit t n) s = (command t fun s => (s.rebaseHit n).settle) s := rfl

theorem exec_modelAgeExpire (t : Nat) (n : Fin 64) (s : State) :
    exec (.modelAgeExpire t n) s = (command t fun s => s.tileAge n) s := rfl

theorem exec_binRelease (t : Nat) (p : Fin 4) (s : State) :
    exec (.binRelease t p) s = (command t fun s => (s.binRelease p).settle) s := rfl

theorem exec_harvest (t : Nat) (c : Fin 512) (ladder : Bool) (s : State) :
    exec (.harvest t c ladder) s = (command t fun s => (s.asOf c fun s => s.harvest c ladder).settle) s := rfl

theorem exec_arrayTileFault (t : Nat) (c : Fin 512) (i j : Fin 2048) (lag : Fin 16) (die : Fin 2) (s : State) :
    exec (.arrayTileFault t c i j lag die) s = (command t fun s => (s.asOf c fun s => s.tileFault c i j lag die).settle) s := rfl

theorem exec_spareTestFail (t : Nat) (die : Fin 2) (s : State) :
    exec (.spareTestFail t die) s = (command t fun s => s.spareTestFail die) s := rfl

theorem exec_histStamp (t : Nat) (d : Fin 65536) (s : State) :
    exec (.histStamp t d) s = (command t fun s => s.asKept (oHdef d 0) 6 fun s => s.histStamp d) s := rfl

theorem exec_histMissWriteback (t : Nat) (die : Fin 2) (s : State) :
    exec (.histMissWriteback t die) s = (command t fun s => s.missWriteback die) s := rfl

theorem exec_snap (t : Nat) (p : Path) (c : Fin 512) (at' : Bool) (s : State) :
    exec (.snap t p c at') s = (command t fun s => s.hostWrite p (ra (sHst 0) 0x014) (hstWord 1 at' c) true) s := rfl

theorem exec_snapClear (t : Nat) (p : Path) (c : Fin 512) (at' : Bool) (s : State) :
    exec (.snapClear t p c at') s = (command t fun s => s.hostWrite p (ra (sHst 0) 0x014) (hstWord 2 at' c) true) s := rfl

theorem exec_clear (t : Nat) (p : Path) (c : Fin 512) (at' : Bool) (s : State) :
    exec (.clear t p c at') s = (command t fun s => s.hostWrite p (ra (sHst 0) 0x014) (hstWord 3 at' c) true) s := rfl

theorem exec_periodicCut (t : Nat) (c : Fin 512) (s : State) :
    exec (.periodicCut t c) s = (command t fun s => s.periodicCut c) s := rfl

theorem exec_cut (t : Nat) (c : Fin 512) (s : State) :
    exec (.cut t c) s = (command t fun s => (s.asOf c fun s => s.cut c).settle) s := rfl

theorem exec_snapDone (t : Nat) (c : Fin 512) (die : Fin 2) (s : State) :
    exec (.snapDone t c die) s = (command t fun s => (s.asOf c fun s => s.snapDone c die).settle) s := rfl

theorem exec_signalBlockComplete (t : Nat) (c : Fin 512) (s : State) :
    exec (.signalBlockComplete t c) s = (command t fun s => s.asOf c fun s => s.signalBlock c) s := rfl

theorem exec_casTransfer (t : Nat) (header : List Word64) (data : CasData) (s : State) :
    exec (.casTransfer t header data) s =
      (command t fun s => s.casTransfer (header.map (·.toNat)) (data.words.map (·.toNat)) data.lost) s := rfl

theorem exec_blockDeadline (t : Nat) (c : Fin 512) (s : State) :
    exec (.blockDeadline t c) s = (command t fun s => s.asOf c fun s => s.blockDeadline c) s := rfl

theorem exec_blockProcessed (t : Nat) (c : Fin 512) (s : State) :
    exec (.blockProcessed t c) s = (command t fun s => (s.asOf c fun s => s.blockProcessed c).settle) s := rfl

theorem exec_casIdle (t : Nat) (w : Word64) (s : State) :
    exec (.casIdle t w) s = (command t fun s => s.casIdle w) s := rfl

theorem exec_casHopLost (t : Nat) (s : State) :
    exec (.casHopLost t) s = (command t State.casLost) s := rfl

theorem exec_casRetry (t : Nat) (s : State) :
    exec (.casRetry t) s = (command t State.casRetry) s := rfl

theorem exec_start (t : Nat) (p : Path) (c : Fin 512) (s : State) :
    exec (.start t p c) s = (command t fun s => s.hostWrite p (ra sCtx 0x014) (put 1 16 2 ||| put c 0 9) true) s := rfl

theorem exec_stop (t : Nat) (p : Path) (c : Fin 512) (s : State) :
    exec (.stop t p c) s = (command t fun s => s.hostWrite p (ra sCtx 0x014) (put 2 16 2 ||| put c 0 9) true) s := rfl

theorem exec_poke (t : Nat) (p : Path) (c : Fin 512) (s : State) :
    exec (.poke t p c) s = (command t fun s => s.hostWrite p (ra sCtx 0x014) (put 3 16 2 ||| put c 0 9) true) s := rfl

theorem exec_admissionDone (t : Nat) (s : State) :
    exec (.admissionDone t) s = (command t fun s => s.admissionDone.settle.bootStart) s := rfl

theorem exec_conditionEvent (t : Nat) (s : State) :
    exec (.conditionEvent t) s = (command t State.conditionEvent) s := rfl

theorem exec_holdoffExpire (t : Nat) (c : Fin 512) (s : State) :
    exec (.holdoffExpire t c) s = (command t fun s => s.holdoffExpire c) s := rfl

theorem exec_autoTrigger (t : Nat) (c : Fin 512) (s : State) :
    exec (.autoTrigger t c) s = (command t fun s => s.autoTrigger c) s := rfl

theorem exec_timerExpire (t : Nat) (c : Fin 512) (k : Fin 4) (s : State) :
    exec (.timerExpire t c k) s = (command t fun s => s.timerExpire c k) s := rfl

theorem exec_dispatch (t : Nat) (c : Fin 512) (s : State) :
    exec (.dispatch t c) s = (command t fun s => s.dispatch c) s := rfl

theorem exec_microword (t : Nat) (c : Fin 512) (ecc : FetchEcc) (s : State) :
    exec (.microword t c ecc) s = (command t fun s => (s.microword c ecc.micro ecc.nano).settle) s := rfl

theorem exec_watchdog (t : Nat) (c : Fin 512) (s : State) :
    exec (.watchdog t c) s = (command t fun s => (s.watchdog c).settle) s := rfl

theorem exec_microwordWrite (t : Nat) (a : Fin 16384) (v : Word) (s : State) :
    exec (.microwordWrite t a v) s = (command t fun s => s.tableWrite (oMicro a) [v]) s := rfl

theorem exec_nanowordPartWrite (t : Nat) (a : Fin 2048) (k : Fin 3) (v : Word) (s : State) :
    exec (.nanowordPartWrite t a k v) s = (command t fun s => s.tableWrite (oNano a k) [v]) s := rfl

theorem exec_nanowordWord3Write (t : Nat) (a : Fin 2048) (v : Word) (s : State) :
    exec (.nanowordWord3Write t a v) s = (command t fun s => s.tableWrite (oNano a 3) [v]) s := rfl

theorem exec_recordItem (t : Nat) (c : Fin 512) (s : State) :
    exec (.recordItem t c) s = (command t fun s => (s.asOf c fun s => s.recordItem c).settle) s := rfl

theorem exec_segmentPostEnd (t : Nat) (c : Fin 512) (s : State) :
    exec (.segmentPostEnd t c) s = (command t fun s => (s.asOf c fun s => s.segmentEnd c).settle) s := rfl

theorem exec_rearm (t : Nat) (c : Fin 512) (s : State) :
    exec (.rearm t c) s = (command t fun s => s.capRearm c) s := rfl

theorem exec_preFilled (t : Nat) (c : Fin 512) (s : State) :
    exec (.preFilled t c) s = (command t fun s => s.tryAuto c) s := rfl

theorem exec_streamMessageCut (t : Nat) (c : Fin 512) (s : State) :
    exec (.streamMessageCut t c) s = (command t fun s => (s.asOf c fun s => s.capCut c).settle) s := rfl

theorem exec_claimSof (t : Nat) (s : State) :
    exec (.claimSof t) s = (command t State.claimSof) s := rfl

theorem exec_claimSofSeen (t : Nat) (s : State) :
    exec (.claimSofSeen t) s = (command t State.claimSeen) s := rfl

theorem exec_claimFrame (t : Nat) (claim : BitVec 8) (fseq : BitVec 4) (crc : BitVec 8) (s : State) :
    exec (.claimFrame t claim fseq crc) s = (command t fun s => s.claimFrame claim.toNat fseq.toNat crc.toNat) s := rfl

theorem exec_busFault (t : Nat) (s : State) :
    exec (.busFault t) s = (command t State.claimStuck) s := rfl

theorem exec_thawTimeout (t : Nat) (s : State) :
    exec (.thawTimeout t) s = (command t State.thawTimeout) s := rfl

theorem exec_pairState (t : Nat) (claim : BitVec 8) (_cause _clk : Word) (uid : BitVec 3) (s : State) :
    exec (.pairState t claim _cause _clk uid) s = (command t fun s => s.pairState claim.toNat uid.toNat) s := rfl

theorem exec_pairStateTx (t : Nat) (s : State) :
    exec (.pairStateTx t) s = (command t State.pairStateTx) s := rfl

theorem exec_mirror (t : Nat) (l : List (Word × Word)) (s : State) :
    exec (.mirror t l) s = (command t fun s => s.mirrorIn l) s := rfl

theorem exec_mirrorTx (t : Nat) (s : State) :
    exec (.mirrorTx t) s = (command t State.mirrorTx) s := rfl

theorem exec_pairLinkTimeout (t : Nat) (s : State) :
    exec (.pairLinkTimeout t) s = (command t State.pairTimeout) s := rfl

theorem exec_pairLaneLoss (t : Nat) (lane : Fin 2) (s : State) :
    exec (.pairLaneLoss t lane) s = (command t fun s => s.pairLane lane) s := rfl

/-- Every command runs through the one wrapper, but for SOLSTICE and WRAP, at which the origin of the epoch may move, and the two
of PORST_N. -/
theorem exec_shape (i : Instr) :
    (∃ t f, ∀ s, exec i s = command t f s) ∨
    (∃ t, ∀ s, exec i s = commandEpoch t State.solOrigin State.solstice s) ∨
    (∃ t, ∀ s, exec i s = commandEpoch t State.wrapOrigin State.wrap s) ∨
    (∃ t, ∀ s, exec i s = commandReset t State.porstAssert s) ∨
    ∃ t b, ∀ s, exec i s = commandReset t (fun s => s.porstRelease b) s := by
  cases i with
  | registerWrite t p a full v => exact .inl ⟨_, _, exec_registerWrite t p a full v⟩
  | stagedWrite t p a v => exact .inl ⟨_, _, exec_stagedWrite t p a v⟩
  | tableWrite t off vs => exact .inl ⟨_, _, exec_tableWrite t off vs⟩
  | splitReadLo t p a => exact .inl ⟨_, _, exec_splitReadLo t p a⟩
  | splitReadHi t p a => exact .inl ⟨_, _, exec_splitReadHi t p a⟩
  | pageStatRead t p slot => exact .inl ⟨_, _, exec_pageStatRead t p slot⟩
  | resSnapshotRead t p stat => exact .inl ⟨_, _, exec_resSnapshotRead t p stat⟩
  | resWindowRead t p stat k => exact .inl ⟨_, _, exec_resWindowRead t p stat k⟩
  | bbrEntRead t p => exact .inl ⟨_, _, exec_bbrEntRead t p⟩
  | pageEvtClear t p slot v => exact .inl ⟨_, _, exec_pageEvtClear t p slot v⟩
  | pageReset t p slot => exact .inl ⟨_, _, exec_pageReset t p slot⟩
  | pageResetComplete t slot => exact .inl ⟨_, _, exec_pageResetComplete t slot⟩
  | pageEnable t p slot en => exact .inl ⟨_, _, exec_pageEnable t p slot en⟩
  | commit t p => exact .inl ⟨_, _, exec_commit t p⟩
  | discard t p => exact .inl ⟨_, _, exec_discard t p⟩
  | dormant t p => exact .inl ⟨_, _, exec_dormant t p⟩
  | commitValidated t => exact .inl ⟨_, _, exec_commitValidated t⟩
  | commitApplied t => exact .inl ⟨_, _, exec_commitApplied t⟩
  | barrier t p => exact .inl ⟨_, _, exec_barrier t p⟩
  | barrierComplete t => exact .inl ⟨_, _, exec_barrierComplete t⟩
  | barrierRead t p => exact .inl ⟨_, _, exec_barrierRead t p⟩
  | stopDoorbell t v => exact .inl ⟨_, _, exec_stopDoorbell t v⟩
  | releaseDoorbell t v => exact .inl ⟨_, _, exec_releaseDoorbell t v⟩
  | stopNAssert t => exact .inl ⟨_, _, exec_stopNAssert t⟩
  | stopNRelease t => exact .inl ⟨_, _, exec_stopNRelease t⟩
  | stopOn t => exact .inl ⟨_, _, exec_stopOn t⟩
  | stopOff t => exact .inl ⟨_, _, exec_stopOff t⟩
  | spiRead t a whole ready => exact .inl ⟨_, _, exec_spiRead t a whole ready⟩
  | spiWrite t a v whole => exact .inl ⟨_, _, exec_spiWrite t a v whole⟩
  | spiStatus t whole => exact .inl ⟨_, _, exec_spiStatus t whole⟩
  | spiStop t key whole => exact .inl ⟨_, _, exec_spiStop t key whole⟩
  | spiRelease t key whole => exact .inl ⟨_, _, exec_spiRelease t key whole⟩
  | tailWrite t ch v => exact .inl ⟨_, _, exec_tailWrite t ch v⟩
  | dmaMessageQueued t ch => exact .inl ⟨_, _, exec_dmaMessageQueued t ch⟩
  | descriptorFetch t ch r => exact .inl ⟨_, _, exec_descriptorFetch t ch r⟩
  | bufferComplete t ch => exact .inl ⟨_, _, exec_bufferComplete t ch⟩
  | dmaDisableDone t ch => exact .inl ⟨_, _, exec_dmaDisableDone t ch⟩
  | irqTimeExpire t ch => exact .inl ⟨_, _, exec_irqTimeExpire t ch⟩
  | pciePerst t => exact .inl ⟨_, _, exec_pciePerst t⟩
  | porstAssert t => exact .inr (.inr (.inr (.inl ⟨_, exec_porstAssert t⟩)))
  | porstRelease t strap => exact .inr (.inr (.inr (.inr ⟨_, _, exec_porstRelease t strap⟩)))
  | firmwareLoaded t => exact .inl ⟨_, _, exec_firmwareLoaded t⟩
  | calCopyLoad t => exact .inl ⟨_, _, exec_calCopyLoad t⟩
  | patchCheck t => exact .inl ⟨_, _, exec_patchCheck t⟩
  | hbmTrained t => exact .inl ⟨_, _, exec_hbmTrained t⟩
  | bbrScan t => exact .inl ⟨_, _, exec_bbrScan t⟩
  | awaitingReached t => exact .inl ⟨_, _, exec_awaitingReached t⟩
  | fuse t p key => exact .inl ⟨_, _, exec_fuse t p key⟩
  | updBegin t p target => exact .inl ⟨_, _, exec_updBegin t p target⟩
  | updChunk t p => exact .inl ⟨_, _, exec_updChunk t p⟩
  | updFinish t p => exact .inl ⟨_, _, exec_updFinish t p⟩
  | service t p => exact .inl ⟨_, _, exec_service t p⟩
  | svcDone t nvmError => exact .inl ⟨_, _, exec_svcDone t nvmError⟩
  | bbrDump t p ch => exact .inl ⟨_, _, exec_bbrDump t p ch⟩
  | bbrEntryProgrammed t => exact .inl ⟨_, _, exec_bbrEntryProgrammed t⟩
  | bbrSectorErased t => exact .inl ⟨_, _, exec_bbrSectorErased t⟩
  | monSample t mv temps => exact .inl ⟨_, _, exec_monSample t mv temps⟩
  | calFullRun t p store => exact .inl ⟨_, _, exec_calFullRun t p store⟩
  | calChannelRun t p ch store => exact .inl ⟨_, _, exec_calChannelRun t p ch store⟩
  | calStore t p => exact .inl ⟨_, _, exec_calStore t p⟩
  | tempSample t temp => exact .inl ⟨_, _, exec_tempSample t temp⟩
  | calRunStart t => exact .inl ⟨_, _, exec_calRunStart t⟩
  | calChannelStart t c => exact .inl ⟨_, _, exec_calChannelStart t c⟩
  | calCellStep t c r => exact .inl ⟨_, _, exec_calCellStep t c r⟩
  | calComparatorStep t c r => exact .inl ⟨_, _, exec_calComparatorStep t c r⟩
  | calPinStep t c d1 d2 => exact .inl ⟨_, _, exec_calPinStep t c d1 d2⟩
  | calTapStep t c r => exact .inl ⟨_, _, exec_calTapStep t c r⟩
  | tapBankSwitch t c => exact .inl ⟨_, _, exec_tapBankSwitch t c⟩
  | tapSwitchTimeout t c => exact .inl ⟨_, _, exec_tapSwitchTimeout t c⟩
  | calChannelEnd t c => exact .inl ⟨_, _, exec_calChannelEnd t c⟩
  | calRunDone t => exact .inl ⟨_, _, exec_calRunDone t⟩
  | calStoreDone t ok => exact .inl ⟨_, _, exec_calStoreDone t ok⟩
  | calStoreDeferExpire t => exact .inl ⟨_, _, exec_calStoreDeferExpire t⟩
  | refEdge t x rising q => exact .inl ⟨_, _, exec_refEdge t x rising q⟩
  | refEdgeMissing t x => exact .inl ⟨_, _, exec_refEdgeMissing t x⟩
  | refWindowEnd t x => exact .inl ⟨_, _, exec_refWindowEnd t x⟩
  | refQualified t x => exact .inl ⟨_, _, exec_refQualified t x⟩
  | refTick t => exact .inl ⟨_, _, exec_refTick t⟩
  | pullDone t => exact .inl ⟨_, _, exec_pullDone t⟩
  | pllLock t x => exact .inl ⟨_, _, exec_pllLock t x⟩
  | pllLockLoss t x => exact .inl ⟨_, _, exec_pllLockLoss t x⟩
  | oscLoss t => exact .inl ⟨_, _, exec_oscLoss t⟩
  | oscReturn t => exact .inl ⟨_, _, exec_oscReturn t⟩
  | ckoApply t => exact .inl ⟨_, _, exec_ckoApply t⟩
  | syncInEdge t rising q => exact .inl ⟨_, _, exec_syncInEdge t rising q⟩
  | now t p => exact .inl ⟨_, _, exec_now t p⟩
  | atGo t p => exact .inl ⟨_, _, exec_atGo t p⟩
  | cancel t p => exact .inl ⟨_, _, exec_cancel t p⟩
  | arm t p => exact .inl ⟨_, _, exec_arm t p⟩
  | partnerSolstice t e => exact .inl ⟨_, _, exec_partnerSolstice t e⟩
  | solstice t => exact .inr (.inl ⟨_, exec_solstice t⟩)
  | syncOutRise t => exact .inl ⟨_, _, exec_syncOutRise t⟩
  | syncOutFall t => exact .inl ⟨_, _, exec_syncOutFall t⟩
  | wrap t => exact .inr (.inr (.inl ⟨_, exec_wrap t⟩))
  | ttlMarker t k teOut => exact .inl ⟨_, _, exec_ttlMarker t k teOut⟩
  | ttlReport t k rx tx => exact .inl ⟨_, _, exec_ttlReport t k rx tx⟩
  | ttlExchange t k l => exact .inl ⟨_, _, exec_ttlExchange t k l⟩
  | tinEdge t ch rising q => exact .inl ⟨_, _, exec_tinEdge t ch rising q⟩
  | tinFifoDeliver t ch => exact .inl ⟨_, _, exec_tinFifoDeliver t ch⟩
  | rotationEquinoxStart t ch => exact .inl ⟨_, _, exec_rotationEquinoxStart t ch⟩
  | gateRequest t ch => exact .inl ⟨_, _, exec_gateRequest t ch⟩
  | equinoxDone t ch c1 c2 => exact .inl ⟨_, _, exec_equinoxDone t ch c1 c2⟩
  | swapWindowClose t ch => exact .inl ⟨_, _, exec_swapWindowClose t ch⟩
  | forwardStamp t die => exact .inl ⟨_, _, exec_forwardStamp t die⟩
  | forwardDequeue t die => exact .inl ⟨_, _, exec_forwardDequeue t die⟩
  | measStamp t => exact .inl ⟨_, _, exec_measStamp t⟩
  | measLaneStamp t => exact .inl ⟨_, _, exec_measLaneStamp t⟩
  | timerGateRequest t i => exact .inl ⟨_, _, exec_timerGateRequest t i⟩
  | timerGateEdge t i => exact .inl ⟨_, _, exec_timerGateEdge t i⟩
  | gateLengthLimit t i => exact .inl ⟨_, _, exec_gateLengthLimit t i⟩
  | gateComplete t i => exact .inl ⟨_, _, exec_gateComplete t i⟩
  | plPush t p n v => exact .inl ⟨_, _, exec_plPush t p n v⟩
  | placementArrive t n => exact .inl ⟨_, _, exec_placementArrive t n⟩
  | placementHead t n => exact .inl ⟨_, _, exec_placementHead t n⟩
  | placementLaunch t n => exact .inl ⟨_, _, exec_placementLaunch t n⟩
  | toutTransition t n q => exact .inl ⟨_, _, exec_toutTransition t n q⟩
  | generatorPulse t n => exact .inl ⟨_, _, exec_generatorPulse t n⟩
  | laneCodeword t n r => exact .inl ⟨_, _, exec_laneCodeword t n r⟩
  | laneCwLock t n => exact .inl ⟨_, _, exec_laneCwLock t n⟩
  | laneAlignLoss t n => exact .inl ⟨_, _, exec_laneAlignLoss t n⟩
  | laneSignalLoss t n => exact .inl ⟨_, _, exec_laneSignalLoss t n⟩
  | hit t n w => exact .inl ⟨_, _, exec_hit t n w⟩
  | mark t n w => exact .inl ⟨_, _, exec_mark t n w⟩
  | health t n w => exact .inl ⟨_, _, exec_health t n w⟩
  | ident t n w => exact .inl ⟨_, _, exec_ident t n w⟩
  | unit t n w => exact .inl ⟨_, _, exec_unit t n w⟩
  | poll t n w => exact .inl ⟨_, _, exec_poll t n w⟩
  | ack t n w => exact .inl ⟨_, _, exec_ack t n w⟩
  | pollTx t n => exact .inl ⟨_, _, exec_pollTx t n⟩
  | credit t n => exact .inl ⟨_, _, exec_credit t n⟩
  | ackTimeout t n => exact .inl ⟨_, _, exec_ackTimeout t n⟩
  | registrationTimeout t n => exact .inl ⟨_, _, exec_registrationTimeout t n⟩
  | laneRetry t n => exact .inl ⟨_, _, exec_laneRetry t n⟩
  | rebaseHit t n => exact .inl ⟨_, _, exec_rebaseHit t n⟩
  | modelAgeExpire t n => exact .inl ⟨_, _, exec_modelAgeExpire t n⟩
  | binRelease t p => exact .inl ⟨_, _, exec_binRelease t p⟩
  | harvest t c ladder => exact .inl ⟨_, _, exec_harvest t c ladder⟩
  | arrayTileFault t c i j lag die => exact .inl ⟨_, _, exec_arrayTileFault t c i j lag die⟩
  | spareTestFail t die => exact .inl ⟨_, _, exec_spareTestFail t die⟩
  | histStamp t d => exact .inl ⟨_, _, exec_histStamp t d⟩
  | histMissWriteback t die => exact .inl ⟨_, _, exec_histMissWriteback t die⟩
  | snap t p c at' => exact .inl ⟨_, _, exec_snap t p c at'⟩
  | snapClear t p c at' => exact .inl ⟨_, _, exec_snapClear t p c at'⟩
  | clear t p c at' => exact .inl ⟨_, _, exec_clear t p c at'⟩
  | periodicCut t c => exact .inl ⟨_, _, exec_periodicCut t c⟩
  | cut t c => exact .inl ⟨_, _, exec_cut t c⟩
  | snapDone t c die => exact .inl ⟨_, _, exec_snapDone t c die⟩
  | signalBlockComplete t c => exact .inl ⟨_, _, exec_signalBlockComplete t c⟩
  | casTransfer t header data => exact .inl ⟨_, _, exec_casTransfer t header data⟩
  | blockDeadline t c => exact .inl ⟨_, _, exec_blockDeadline t c⟩
  | blockProcessed t c => exact .inl ⟨_, _, exec_blockProcessed t c⟩
  | casIdle t w => exact .inl ⟨_, _, exec_casIdle t w⟩
  | casHopLost t => exact .inl ⟨_, _, exec_casHopLost t⟩
  | casRetry t => exact .inl ⟨_, _, exec_casRetry t⟩
  | start t p c => exact .inl ⟨_, _, exec_start t p c⟩
  | stop t p c => exact .inl ⟨_, _, exec_stop t p c⟩
  | poke t p c => exact .inl ⟨_, _, exec_poke t p c⟩
  | admissionDone t => exact .inl ⟨_, _, exec_admissionDone t⟩
  | conditionEvent t => exact .inl ⟨_, _, exec_conditionEvent t⟩
  | holdoffExpire t c => exact .inl ⟨_, _, exec_holdoffExpire t c⟩
  | autoTrigger t c => exact .inl ⟨_, _, exec_autoTrigger t c⟩
  | timerExpire t c k => exact .inl ⟨_, _, exec_timerExpire t c k⟩
  | dispatch t c => exact .inl ⟨_, _, exec_dispatch t c⟩
  | microword t c ecc => exact .inl ⟨_, _, exec_microword t c ecc⟩
  | watchdog t c => exact .inl ⟨_, _, exec_watchdog t c⟩
  | microwordWrite t a v => exact .inl ⟨_, _, exec_microwordWrite t a v⟩
  | nanowordPartWrite t a k v => exact .inl ⟨_, _, exec_nanowordPartWrite t a k v⟩
  | nanowordWord3Write t a v => exact .inl ⟨_, _, exec_nanowordWord3Write t a v⟩
  | recordItem t c => exact .inl ⟨_, _, exec_recordItem t c⟩
  | segmentPostEnd t c => exact .inl ⟨_, _, exec_segmentPostEnd t c⟩
  | rearm t c => exact .inl ⟨_, _, exec_rearm t c⟩
  | preFilled t c => exact .inl ⟨_, _, exec_preFilled t c⟩
  | streamMessageCut t c => exact .inl ⟨_, _, exec_streamMessageCut t c⟩
  | claimSof t => exact .inl ⟨_, _, exec_claimSof t⟩
  | claimSofSeen t => exact .inl ⟨_, _, exec_claimSofSeen t⟩
  | claimFrame t claim fseq crc => exact .inl ⟨_, _, exec_claimFrame t claim fseq crc⟩
  | busFault t => exact .inl ⟨_, _, exec_busFault t⟩
  | thawTimeout t => exact .inl ⟨_, _, exec_thawTimeout t⟩
  | pairState t claim _cause _clk uid => exact .inl ⟨_, _, exec_pairState t claim _cause _clk uid⟩
  | pairStateTx t => exact .inl ⟨_, _, exec_pairStateTx t⟩
  | mirror t l => exact .inl ⟨_, _, exec_mirror t l⟩
  | mirrorTx t => exact .inl ⟨_, _, exec_mirrorTx t⟩
  | pairLinkTimeout t => exact .inl ⟨_, _, exec_pairLinkTimeout t⟩
  | pairLaneLoss t lane => exact .inl ⟨_, _, exec_pairLaneLoss t lane⟩

end Sys2Proof.Machine
end

