-- ==== Sys2Proof/Laws/RegMap.lean ====
section
/-! SUPPORT. The laws of sparse storage: a read after a write, and the canonical form, which every write keeps. -/

namespace Sys2Proof.Machine

variable {α : Type}

theorem Sparse.get_del_same (d : α) (m : List (Nat × α)) (a : Nat) : Sparse.get d (Sparse.del a m) a = d := by
  induction m with
  | nil => rfl
  | cons e r ih =>
    obtain ⟨k, v⟩ := e
    by_cases h : k = a <;> simp [Sparse.del, Sparse.get, h, ih]

theorem Sparse.get_del_ne (d : α) (m : List (Nat × α)) {a b : Nat} (h : a ≠ b) :
    Sparse.get d (Sparse.del a m) b = Sparse.get d m b := by
  induction m with
  | nil => rfl
  | cons e r ih =>
    obtain ⟨k, v⟩ := e
    by_cases hk : k = a
    · simp [Sparse.del, Sparse.get, hk, h, ih]
    · simp [Sparse.del, Sparse.get, hk, ih]

theorem Sparse.get_ins_ne (d : α) (m : List (Nat × α)) {a b : Nat} (v : α) (h : a ≠ b) :
    Sparse.get d (Sparse.ins a v m) b = Sparse.get d m b := by
  induction m with
  | nil => simp [Sparse.ins, Sparse.get, h]
  | cons e r ih =>
    obtain ⟨k, w⟩ := e
    by_cases hk : a < k <;> simp [Sparse.ins, Sparse.get, hk, h, ih]

theorem Sparse.get_ins_del (d : α) (m : List (Nat × α)) (a : Nat) (v : α) :
    Sparse.get d (Sparse.ins a v (Sparse.del a m)) a = v := by
  induction m with
  | nil => simp [Sparse.del, Sparse.ins, Sparse.get]
  | cons e r ih =>
    obtain ⟨k, w⟩ := e
    by_cases hk : k = a
    · simpa [Sparse.del, hk] using ih
    · by_cases hl : a < k <;> simp [Sparse.del, Sparse.ins, Sparse.get, hk, hl, ih]

/-- A read of the address just written. -/
theorem Sparse.get_set_same [DecidableEq α] (d : α) (m : List (Nat × α)) (a : Nat) (v : α) :
    Sparse.get d (Sparse.set d m a v) a = v := by
  unfold Sparse.set
  split
  · next h => rw [Sparse.get_del_same, h]
  · exact Sparse.get_ins_del d m a v

/-- A read of any other address, whatever that reads as where nothing is listed. -/
theorem Sparse.get_set_ne [DecidableEq α] (d d' : α) (m : List (Nat × α)) {a b : Nat} (v : α) (h : a ≠ b) :
    Sparse.get d' (Sparse.set d m a v) b = Sparse.get d' m b := by
  unfold Sparse.set
  split
  · exact Sparse.get_del_ne d' m h
  · rw [Sparse.get_ins_ne d' _ v h, Sparse.get_del_ne d' m h]

theorem Sparse.find_del_same (m : List (Nat × α)) (a : Nat) : Sparse.find (Sparse.del a m) a = none := by
  induction m with
  | nil => rfl
  | cons e r ih =>
    obtain ⟨k, v⟩ := e
    by_cases h : k = a <;> simp [Sparse.del, Sparse.find, h, ih]

theorem Sparse.find_del_ne (m : List (Nat × α)) {a b : Nat} (h : a ≠ b) :
    Sparse.find (Sparse.del a m) b = Sparse.find m b := by
  induction m with
  | nil => rfl
  | cons e r ih =>
    obtain ⟨k, v⟩ := e
    by_cases hk : k = a
    · simp [Sparse.del, Sparse.find, hk, h, ih]
    · simp [Sparse.del, Sparse.find, hk, ih]

/-- A staged value is found where it was put (R342). -/
theorem Sparse.find_put_same (m : List (Nat × α)) (a : Nat) (v : α) : Sparse.find (Sparse.put m a v) a = some v := by
  unfold Sparse.put
  induction m with
  | nil => simp [Sparse.del, Sparse.ins, Sparse.find]
  | cons e r ih =>
    obtain ⟨k, w⟩ := e
    by_cases hk : k = a
    · simpa [Sparse.del, hk] using ih
    · by_cases hl : a < k <;> simp [Sparse.del, Sparse.ins, Sparse.find, hk, hl, ih]

theorem Sparse.find_ins_ne (m : List (Nat × α)) {a b : Nat} (v : α) (h : a ≠ b) :
    Sparse.find (Sparse.ins a v m) b = Sparse.find m b := by
  induction m with
  | nil => simp [Sparse.ins, Sparse.find, h]
  | cons e r ih =>
    obtain ⟨k, w⟩ := e
    by_cases hk : a < k <;> simp [Sparse.ins, Sparse.find, hk, h, ih]

theorem Sparse.find_put_ne (m : List (Nat × α)) {a b : Nat} (v : α) (h : a ≠ b) :
    Sparse.find (Sparse.put m a v) b = Sparse.find m b := by
  unfold Sparse.put
  rw [Sparse.find_ins_ne _ v h, Sparse.find_del_ne m h]

/-! ### The canonical form -/

/-- Every address of a map lies above a bound. -/
def Sparse.above (b : Nat) (m : List (Nat × α)) : Prop := ∀ e ∈ m, b < e.1

theorem Sparse.rising_cons {k : Nat} {v : α} {m : List (Nat × α)} :
    Sparse.rising ((k, v) :: m) = true ↔ Sparse.above k m ∧ Sparse.rising m = true := by
  induction m generalizing k v with
  | nil => simp [Sparse.rising, Sparse.above]
  | cons e r ih =>
    obtain ⟨l, w⟩ := e
    have hr := @ih l w
    constructor
    · intro h
      simp only [Sparse.rising, Bool.and_eq_true, decide_eq_true_eq] at h
      refine ⟨fun x hx => ?_, h.2⟩
      rcases List.mem_cons.1 hx with rfl | hx
      · exact h.1
      · exact lt_trans h.1 ((hr.1 h.2).1 x hx)
    · intro h
      simp only [Sparse.rising, Bool.and_eq_true, decide_eq_true_eq]
      exact ⟨h.1 _ (List.mem_cons_self ..), h.2⟩

theorem Sparse.mem_del {m : List (Nat × α)} {a : Nat} {e : Nat × α} (h : e ∈ Sparse.del a m) : e ∈ m ∧ e.1 ≠ a := by
  induction m with
  | nil => cases h
  | cons x r ih =>
    obtain ⟨k, v⟩ := x
    by_cases hk : k = a
    · have := ih (by simpa [Sparse.del, hk] using h)
      exact ⟨List.mem_cons_of_mem _ this.1, this.2⟩
    · rcases (by simpa [Sparse.del, hk] using h : e = (k, v) ∨ e ∈ Sparse.del a r) with rfl | h
      · exact ⟨List.mem_cons_self .., hk⟩
      · exact ⟨List.mem_cons_of_mem _ (ih h).1, (ih h).2⟩

theorem Sparse.mem_ins {m : List (Nat × α)} {a : Nat} {v : α} {e : Nat × α} (h : e ∈ Sparse.ins a v m) :
    e = (a, v) ∨ e ∈ m := by
  induction m with
  | nil => simpa [Sparse.ins] using h
  | cons x r ih =>
    obtain ⟨k, w⟩ := x
    by_cases hk : a < k
    · simpa [Sparse.ins, hk] using h
    · rcases (by simpa [Sparse.ins, hk] using h : e = (k, w) ∨ e ∈ Sparse.ins a v r) with rfl | h
      · exact .inr (List.mem_cons_self ..)
      · exact (ih h).imp_right (List.mem_cons_of_mem _)

theorem Sparse.rising_del {m : List (Nat × α)} (a : Nat) (h : Sparse.rising m = true) :
    Sparse.rising (Sparse.del a m) = true := by
  induction m with
  | nil => rfl
  | cons e r ih =>
    obtain ⟨k, v⟩ := e
    obtain ⟨h1, h2⟩ := Sparse.rising_cons.1 h
    by_cases hk : k = a
    · simpa [Sparse.del, hk] using ih h2
    · rw [Sparse.del, if_neg hk, Sparse.rising_cons]
      exact ⟨fun x hx => h1 x (Sparse.mem_del hx).1, ih h2⟩

theorem Sparse.rising_ins {m : List (Nat × α)} {a : Nat} (v : α) (hm : ∀ e ∈ m, e.1 ≠ a) (h : Sparse.rising m = true) :
    Sparse.rising (Sparse.ins a v m) = true := by
  induction m with
  | nil => rfl
  | cons e r ih =>
    obtain ⟨k, w⟩ := e
    obtain ⟨h1, h2⟩ := Sparse.rising_cons.1 h
    have hk : k ≠ a := hm (k, w) (List.mem_cons_self ..)
    by_cases hl : a < k
    · rw [Sparse.ins, if_pos hl, Sparse.rising_cons]
      refine ⟨fun x hx => ?_, h⟩
      rcases List.mem_cons.1 hx with rfl | hx
      · exact hl
      · exact lt_trans hl (h1 x hx)
    · rw [Sparse.ins, if_neg hl, Sparse.rising_cons]
      refine ⟨fun x hx => ?_, ih (fun e he => hm e (List.mem_cons_of_mem _ he)) h2⟩
      rcases Sparse.mem_ins hx with rfl | hx
      · show k < a
        omega
      · exact h1 x hx

/-- A write keeps the canonical form. -/
theorem Sparse.wf_set [DecidableEq α] {d : Nat → α} {m : List (Nat × α)} (a : Nat) (v : α) (h : Sparse.wf d m = true) :
    Sparse.wf d (Sparse.set (d a) m a v) = true := by
  unfold Sparse.wf Sparse.lean at h ⊢
  simp only [Bool.and_eq_true, List.all_eq_true, decide_eq_true_eq] at h ⊢
  unfold Sparse.set
  split
  · exact ⟨Sparse.rising_del a h.1, fun e he => h.2 e (Sparse.mem_del he).1⟩
  · next hv =>
    refine ⟨Sparse.rising_ins v (fun e he => (Sparse.mem_del he).2) (Sparse.rising_del a h.1), fun e he => ?_⟩
    rcases Sparse.mem_ins he with rfl | he
    · exact hv
    · exact h.2 e (Sparse.mem_del he).1

end Sys2Proof.Machine
end

