-- ==== Sys2Proof/Laws/State.lean ====
section
/-! SUPPORT. What each named update of the state leaves in each field: true by definition, one lemma a field, so that no proof
unfolds a record update. Updates of one instance are read back through the same accessor. -/

namespace Sys2Proof.Machine

variable (s : State)

/-! ### State.advance -/

@[simp] theorem State.advance_pending (t : Nat) : (s.advance t).pending = s.pending := rfl
@[simp] theorem State.advance_solEdge (t : Nat) : (s.advance t).solEdge = s.solEdge := rfl
@[simp] theorem State.advance_wraps (t : Nat) : (s.advance t).wraps = s.wraps := rfl
@[simp] theorem State.advance_dev (t : Nat) : (s.advance t).dev = s.dev := rfl
@[simp] theorem State.advance_porst (t : Nat) : (s.advance t).porst = s.porst := rfl
@[simp] theorem State.advance_regs (t : Nat) : (s.advance t).regs = s.regs := rfl
@[simp] theorem State.advance_staged (t : Nat) : (s.advance t).staged = s.staged := rfl
@[simp] theorem State.advance_stagedTab (t : Nat) : (s.advance t).stagedTab = s.stagedTab := rfl
@[simp] theorem State.advance_clkWait (t : Nat) : (s.advance t).clkWait = s.clkWait := rfl
@[simp] theorem State.advance_ckoWait (t : Nat) : (s.advance t).ckoWait = s.ckoWait := rfl
@[simp] theorem State.advance_parWait (t : Nat) : (s.advance t).parWait = s.parWait := rfl
@[simp] theorem State.advance_ckoDue (t : Nat) : (s.advance t).ckoDue = s.ckoDue := rfl
@[simp] theorem State.advance_tab (t : Nat) : (s.advance t).tab = s.tab := rfl
@[simp] theorem State.advance_commit (t : Nat) : (s.advance t).commit = s.commit := rfl
@[simp] theorem State.advance_viewPcie (t : Nat) : (s.advance t).viewPcie = s.viewPcie := rfl
@[simp] theorem State.advance_viewSpi (t : Nat) : (s.advance t).viewSpi = s.viewSpi := rfl
@[simp] theorem State.advance_resetting (t : Nat) : (s.advance t).resetting = s.resetting := rfl
@[simp] theorem State.advance_held (t : Nat) : (s.advance t).held = s.held := rfl
@[simp] theorem State.advance_behind (t : Nat) : (s.advance t).behind = s.behind := rfl
@[simp] theorem State.advance_barriers (t : Nat) : (s.advance t).barriers = s.barriers := rfl
@[simp] theorem State.advance_barrierOn (t : Nat) : (s.advance t).barrierOn = s.barrierOn := rfl
@[simp] theorem State.advance_snaps (t : Nat) : (s.advance t).snaps = s.snaps := rfl
@[simp] theorem State.advance_splitFault (t : Nat) : (s.advance t).splitFault = s.splitFault := rfl
@[simp] theorem State.advance_evtAt (t : Nat) : (s.advance t).evtAt = s.evtAt := rfl
@[simp] theorem State.advance_msixTable (t : Nat) : (s.advance t).msixTable = s.msixTable := rfl
@[simp] theorem State.advance_pba (t : Nat) : (s.advance t).pba = s.pba := rfl
@[simp] theorem State.advance_stopSrc (t : Nat) : (s.advance t).stopSrc = s.stopSrc := rfl
@[simp] theorem State.advance_stopOn (t : Nat) : (s.advance t).stopOn = s.stopOn := rfl
@[simp] theorem State.advance_dma (t : Nat) : (s.advance t).dma = s.dma := rfl
@[simp] theorem State.advance_boot (t : Nat) : (s.advance t).boot = s.boot := rfl
@[simp] theorem State.advance_nvm (t : Nat) : (s.advance t).nvm = s.nvm := rfl
@[simp] theorem State.advance_svc (t : Nat) : (s.advance t).svc = s.svc := rfl
@[simp] theorem State.advance_bbr (t : Nat) : (s.advance t).bbr = s.bbr := rfl
@[simp] theorem State.advance_mon (t : Nat) : (s.advance t).mon = s.mon := rfl
@[simp] theorem State.advance_cal (t : Nat) : (s.advance t).cal = s.cal := rfl
@[simp] theorem State.advance_stampers (t : Nat) : (s.advance t).stampers = s.stampers := rfl
@[simp] theorem State.advance_gateReqs (t : Nat) : (s.advance t).gateReqs = s.gateReqs := rfl
@[simp] theorem State.advance_tins (t : Nat) : (s.advance t).tins = s.tins := rfl
@[simp] theorem State.advance_refs (t : Nat) : (s.advance t).refs = s.refs := rfl
@[simp] theorem State.advance_loop (t : Nat) : (s.advance t).loop = s.loop := rfl
@[simp] theorem State.advance_ckos (t : Nat) : (s.advance t).ckos = s.ckos := rfl
@[simp] theorem State.advance_sol (t : Nat) : (s.advance t).sol = s.sol := rfl
@[simp] theorem State.advance_ttls (t : Nat) : (s.advance t).ttls = s.ttls := rfl
@[simp] theorem State.advance_fwds (t : Nat) : (s.advance t).fwds = s.fwds := rfl
@[simp] theorem State.advance_measIn (t : Nat) : (s.advance t).measIn = s.measIn := rfl
@[simp] theorem State.advance_laneIn (t : Nat) : (s.advance t).laneIn = s.laneIn := rfl
@[simp] theorem State.advance_laneOut (t : Nat) : (s.advance t).laneOut = s.laneOut := rfl
@[simp] theorem State.advance_laneOwed (t : Nat) : (s.advance t).laneOwed = s.laneOwed := rfl
@[simp] theorem State.advance_meas (t : Nat) : (s.advance t).meas = s.meas := rfl
@[simp] theorem State.advance_measWins (t : Nat) : (s.advance t).measWins = s.measWins := rfl
@[simp] theorem State.advance_touts (t : Nat) : (s.advance t).touts = s.touts := rfl
@[simp] theorem State.advance_lanes (t : Nat) : (s.advance t).lanes = s.lanes := rfl
@[simp] theorem State.advance_tiles (t : Nat) : (s.advance t).tiles = s.tiles := rfl
@[simp] theorem State.advance_rxOwed (t : Nat) : (s.advance t).rxOwed = s.rxOwed := rfl
@[simp] theorem State.advance_rxSeen (t : Nat) : (s.advance t).rxSeen = s.rxSeen := rfl
@[simp] theorem State.advance_planes (t : Nat) : (s.advance t).planes = s.planes := rfl
@[simp] theorem State.advance_cors (t : Nat) : (s.advance t).cors = s.cors := rfl
@[simp] theorem State.advance_spares (t : Nat) : (s.advance t).spares = s.spares := rfl
@[simp] theorem State.advance_cas (t : Nat) : (s.advance t).cas = s.cas := rfl
@[simp] theorem State.advance_pagesHeld (t : Nat) : (s.advance t).pagesHeld = s.pagesHeld := rfl
@[simp] theorem State.advance_hdefs (t : Nat) : (s.advance t).hdefs = s.hdefs := rfl
@[simp] theorem State.advance_hctxs (t : Nat) : (s.advance t).hctxs = s.hctxs := rfl
@[simp] theorem State.advance_hengs (t : Nat) : (s.advance t).hengs = s.hengs := rfl
@[simp] theorem State.advance_ctxs (t : Nat) : (s.advance t).ctxs = s.ctxs := rfl
@[simp] theorem State.advance_adm (t : Nat) : (s.advance t).adm = s.adm := rfl
@[simp] theorem State.advance_admStop (t : Nat) : (s.advance t).admStop = s.admStop := rfl
@[simp] theorem State.advance_admRes (t : Nat) : (s.advance t).admRes = s.admRes := rfl
@[simp] theorem State.advance_condIn (t : Nat) : (s.advance t).condIn = s.condIn := rfl
@[simp] theorem State.advance_hold (t : Nat) : (s.advance t).hold = s.hold := rfl
@[simp] theorem State.advance_oldWords (t : Nat) : (s.advance t).oldWords = s.oldWords := rfl
@[simp] theorem State.advance_ovMicro (t : Nat) : (s.advance t).ovMicro = s.ovMicro := rfl
@[simp] theorem State.advance_ovNano (t : Nat) : (s.advance t).ovNano = s.ovNano := rfl
@[simp] theorem State.advance_caps (t : Nat) : (s.advance t).caps = s.caps := rfl
@[simp] theorem State.advance_par (t : Nat) : (s.advance t).par = s.par := rfl
@[simp] theorem State.advance_flagLog (t : Nat) : (s.advance t).flagLog = s.flagLog := rfl
@[simp] theorem State.advance_out (t : Nat) : (s.advance t).out = s.out := rfl
@[simp] theorem State.advance_freeCtr (t : Nat) : (s.advance t).freeCtr = s.freeCtr := rfl

/-! ### State.requeue -/

@[simp] theorem State.requeue_now (q : List Instr) : (s.requeue q).now = s.now := rfl
@[simp] theorem State.requeue_solEdge (q : List Instr) : (s.requeue q).solEdge = s.solEdge := rfl
@[simp] theorem State.requeue_wraps (q : List Instr) : (s.requeue q).wraps = s.wraps := rfl
@[simp] theorem State.requeue_dev (q : List Instr) : (s.requeue q).dev = s.dev := rfl
@[simp] theorem State.requeue_porst (q : List Instr) : (s.requeue q).porst = s.porst := rfl
@[simp] theorem State.requeue_regs (q : List Instr) : (s.requeue q).regs = s.regs := rfl
@[simp] theorem State.requeue_staged (q : List Instr) : (s.requeue q).staged = s.staged := rfl
@[simp] theorem State.requeue_stagedTab (q : List Instr) : (s.requeue q).stagedTab = s.stagedTab := rfl
@[simp] theorem State.requeue_clkWait (q : List Instr) : (s.requeue q).clkWait = s.clkWait := rfl
@[simp] theorem State.requeue_ckoWait (q : List Instr) : (s.requeue q).ckoWait = s.ckoWait := rfl
@[simp] theorem State.requeue_parWait (q : List Instr) : (s.requeue q).parWait = s.parWait := rfl
@[simp] theorem State.requeue_ckoDue (q : List Instr) : (s.requeue q).ckoDue = s.ckoDue := rfl
@[simp] theorem State.requeue_tab (q : List Instr) : (s.requeue q).tab = s.tab := rfl
@[simp] theorem State.requeue_commit (q : List Instr) : (s.requeue q).commit = s.commit := rfl
@[simp] theorem State.requeue_viewPcie (q : List Instr) : (s.requeue q).viewPcie = s.viewPcie := rfl
@[simp] theorem State.requeue_viewSpi (q : List Instr) : (s.requeue q).viewSpi = s.viewSpi := rfl
@[simp] theorem State.requeue_resetting (q : List Instr) : (s.requeue q).resetting = s.resetting := rfl
@[simp] theorem State.requeue_held (q : List Instr) : (s.requeue q).held = s.held := rfl
@[simp] theorem State.requeue_behind (q : List Instr) : (s.requeue q).behind = s.behind := rfl
@[simp] theorem State.requeue_barriers (q : List Instr) : (s.requeue q).barriers = s.barriers := rfl
@[simp] theorem State.requeue_barrierOn (q : List Instr) : (s.requeue q).barrierOn = s.barrierOn := rfl
@[simp] theorem State.requeue_snaps (q : List Instr) : (s.requeue q).snaps = s.snaps := rfl
@[simp] theorem State.requeue_splitFault (q : List Instr) : (s.requeue q).splitFault = s.splitFault := rfl
@[simp] theorem State.requeue_evtAt (q : List Instr) : (s.requeue q).evtAt = s.evtAt := rfl
@[simp] theorem State.requeue_msixTable (q : List Instr) : (s.requeue q).msixTable = s.msixTable := rfl
@[simp] theorem State.requeue_pba (q : List Instr) : (s.requeue q).pba = s.pba := rfl
@[simp] theorem State.requeue_stopSrc (q : List Instr) : (s.requeue q).stopSrc = s.stopSrc := rfl
@[simp] theorem State.requeue_stopOn (q : List Instr) : (s.requeue q).stopOn = s.stopOn := rfl
@[simp] theorem State.requeue_dma (q : List Instr) : (s.requeue q).dma = s.dma := rfl
@[simp] theorem State.requeue_boot (q : List Instr) : (s.requeue q).boot = s.boot := rfl
@[simp] theorem State.requeue_nvm (q : List Instr) : (s.requeue q).nvm = s.nvm := rfl
@[simp] theorem State.requeue_svc (q : List Instr) : (s.requeue q).svc = s.svc := rfl
@[simp] theorem State.requeue_bbr (q : List Instr) : (s.requeue q).bbr = s.bbr := rfl
@[simp] theorem State.requeue_mon (q : List Instr) : (s.requeue q).mon = s.mon := rfl
@[simp] theorem State.requeue_cal (q : List Instr) : (s.requeue q).cal = s.cal := rfl
@[simp] theorem State.requeue_stampers (q : List Instr) : (s.requeue q).stampers = s.stampers := rfl
@[simp] theorem State.requeue_gateReqs (q : List Instr) : (s.requeue q).gateReqs = s.gateReqs := rfl
@[simp] theorem State.requeue_tins (q : List Instr) : (s.requeue q).tins = s.tins := rfl
@[simp] theorem State.requeue_refs (q : List Instr) : (s.requeue q).refs = s.refs := rfl
@[simp] theorem State.requeue_loop (q : List Instr) : (s.requeue q).loop = s.loop := rfl
@[simp] theorem State.requeue_ckos (q : List Instr) : (s.requeue q).ckos = s.ckos := rfl
@[simp] theorem State.requeue_sol (q : List Instr) : (s.requeue q).sol = s.sol := rfl
@[simp] theorem State.requeue_ttls (q : List Instr) : (s.requeue q).ttls = s.ttls := rfl
@[simp] theorem State.requeue_fwds (q : List Instr) : (s.requeue q).fwds = s.fwds := rfl
@[simp] theorem State.requeue_measIn (q : List Instr) : (s.requeue q).measIn = s.measIn := rfl
@[simp] theorem State.requeue_laneIn (q : List Instr) : (s.requeue q).laneIn = s.laneIn := rfl
@[simp] theorem State.requeue_laneOut (q : List Instr) : (s.requeue q).laneOut = s.laneOut := rfl
@[simp] theorem State.requeue_laneOwed (q : List Instr) : (s.requeue q).laneOwed = s.laneOwed := rfl
@[simp] theorem State.requeue_meas (q : List Instr) : (s.requeue q).meas = s.meas := rfl
@[simp] theorem State.requeue_measWins (q : List Instr) : (s.requeue q).measWins = s.measWins := rfl
@[simp] theorem State.requeue_touts (q : List Instr) : (s.requeue q).touts = s.touts := rfl
@[simp] theorem State.requeue_lanes (q : List Instr) : (s.requeue q).lanes = s.lanes := rfl
@[simp] theorem State.requeue_tiles (q : List Instr) : (s.requeue q).tiles = s.tiles := rfl
@[simp] theorem State.requeue_rxOwed (q : List Instr) : (s.requeue q).rxOwed = s.rxOwed := rfl
@[simp] theorem State.requeue_rxSeen (q : List Instr) : (s.requeue q).rxSeen = s.rxSeen := rfl
@[simp] theorem State.requeue_planes (q : List Instr) : (s.requeue q).planes = s.planes := rfl
@[simp] theorem State.requeue_cors (q : List Instr) : (s.requeue q).cors = s.cors := rfl
@[simp] theorem State.requeue_spares (q : List Instr) : (s.requeue q).spares = s.spares := rfl
@[simp] theorem State.requeue_cas (q : List Instr) : (s.requeue q).cas = s.cas := rfl
@[simp] theorem State.requeue_pagesHeld (q : List Instr) : (s.requeue q).pagesHeld = s.pagesHeld := rfl
@[simp] theorem State.requeue_hdefs (q : List Instr) : (s.requeue q).hdefs = s.hdefs := rfl
@[simp] theorem State.requeue_hctxs (q : List Instr) : (s.requeue q).hctxs = s.hctxs := rfl
@[simp] theorem State.requeue_hengs (q : List Instr) : (s.requeue q).hengs = s.hengs := rfl
@[simp] theorem State.requeue_ctxs (q : List Instr) : (s.requeue q).ctxs = s.ctxs := rfl
@[simp] theorem State.requeue_adm (q : List Instr) : (s.requeue q).adm = s.adm := rfl
@[simp] theorem State.requeue_admStop (q : List Instr) : (s.requeue q).admStop = s.admStop := rfl
@[simp] theorem State.requeue_admRes (q : List Instr) : (s.requeue q).admRes = s.admRes := rfl
@[simp] theorem State.requeue_condIn (q : List Instr) : (s.requeue q).condIn = s.condIn := rfl
@[simp] theorem State.requeue_hold (q : List Instr) : (s.requeue q).hold = s.hold := rfl
@[simp] theorem State.requeue_oldWords (q : List Instr) : (s.requeue q).oldWords = s.oldWords := rfl
@[simp] theorem State.requeue_ovMicro (q : List Instr) : (s.requeue q).ovMicro = s.ovMicro := rfl
@[simp] theorem State.requeue_ovNano (q : List Instr) : (s.requeue q).ovNano = s.ovNano := rfl
@[simp] theorem State.requeue_caps (q : List Instr) : (s.requeue q).caps = s.caps := rfl
@[simp] theorem State.requeue_par (q : List Instr) : (s.requeue q).par = s.par := rfl
@[simp] theorem State.requeue_flagLog (q : List Instr) : (s.requeue q).flagLog = s.flagLog := rfl
@[simp] theorem State.requeue_out (q : List Instr) : (s.requeue q).out = s.out := rfl
@[simp] theorem State.requeue_freeCtr (q : List Instr) : (s.requeue q).freeCtr = s.freeCtr := rfl

/-! ### State.setReg -/

@[simp] theorem State.setReg_pending (a : Nat) (v : Word) : (s.setReg a v).pending = s.pending := rfl
@[simp] theorem State.setReg_now (a : Nat) (v : Word) : (s.setReg a v).now = s.now := rfl
@[simp] theorem State.setReg_solEdge (a : Nat) (v : Word) : (s.setReg a v).solEdge = s.solEdge := rfl
@[simp] theorem State.setReg_wraps (a : Nat) (v : Word) : (s.setReg a v).wraps = s.wraps := rfl
@[simp] theorem State.setReg_dev (a : Nat) (v : Word) : (s.setReg a v).dev = s.dev := rfl
@[simp] theorem State.setReg_porst (a : Nat) (v : Word) : (s.setReg a v).porst = s.porst := rfl
@[simp] theorem State.setReg_staged (a : Nat) (v : Word) : (s.setReg a v).staged = s.staged := rfl
@[simp] theorem State.setReg_stagedTab (a : Nat) (v : Word) : (s.setReg a v).stagedTab = s.stagedTab := rfl
@[simp] theorem State.setReg_clkWait (a : Nat) (v : Word) : (s.setReg a v).clkWait = s.clkWait := rfl
@[simp] theorem State.setReg_ckoWait (a : Nat) (v : Word) : (s.setReg a v).ckoWait = s.ckoWait := rfl
@[simp] theorem State.setReg_parWait (a : Nat) (v : Word) : (s.setReg a v).parWait = s.parWait := rfl
@[simp] theorem State.setReg_ckoDue (a : Nat) (v : Word) : (s.setReg a v).ckoDue = s.ckoDue := rfl
@[simp] theorem State.setReg_tab (a : Nat) (v : Word) : (s.setReg a v).tab = s.tab := rfl
@[simp] theorem State.setReg_commit (a : Nat) (v : Word) : (s.setReg a v).commit = s.commit := rfl
@[simp] theorem State.setReg_viewPcie (a : Nat) (v : Word) : (s.setReg a v).viewPcie = s.viewPcie := rfl
@[simp] theorem State.setReg_viewSpi (a : Nat) (v : Word) : (s.setReg a v).viewSpi = s.viewSpi := rfl
@[simp] theorem State.setReg_resetting (a : Nat) (v : Word) : (s.setReg a v).resetting = s.resetting := rfl
@[simp] theorem State.setReg_held (a : Nat) (v : Word) : (s.setReg a v).held = s.held := rfl
@[simp] theorem State.setReg_behind (a : Nat) (v : Word) : (s.setReg a v).behind = s.behind := rfl
@[simp] theorem State.setReg_barriers (a : Nat) (v : Word) : (s.setReg a v).barriers = s.barriers := rfl
@[simp] theorem State.setReg_barrierOn (a : Nat) (v : Word) : (s.setReg a v).barrierOn = s.barrierOn := rfl
@[simp] theorem State.setReg_snaps (a : Nat) (v : Word) : (s.setReg a v).snaps = s.snaps := rfl
@[simp] theorem State.setReg_splitFault (a : Nat) (v : Word) : (s.setReg a v).splitFault = s.splitFault := rfl
@[simp] theorem State.setReg_evtAt (a : Nat) (v : Word) : (s.setReg a v).evtAt = s.evtAt := rfl
@[simp] theorem State.setReg_msixTable (a : Nat) (v : Word) : (s.setReg a v).msixTable = s.msixTable := rfl
@[simp] theorem State.setReg_pba (a : Nat) (v : Word) : (s.setReg a v).pba = s.pba := rfl
@[simp] theorem State.setReg_stopSrc (a : Nat) (v : Word) : (s.setReg a v).stopSrc = s.stopSrc := rfl
@[simp] theorem State.setReg_stopOn (a : Nat) (v : Word) : (s.setReg a v).stopOn = s.stopOn := rfl
@[simp] theorem State.setReg_dma (a : Nat) (v : Word) : (s.setReg a v).dma = s.dma := rfl
@[simp] theorem State.setReg_boot (a : Nat) (v : Word) : (s.setReg a v).boot = s.boot := rfl
@[simp] theorem State.setReg_nvm (a : Nat) (v : Word) : (s.setReg a v).nvm = s.nvm := rfl
@[simp] theorem State.setReg_svc (a : Nat) (v : Word) : (s.setReg a v).svc = s.svc := rfl
@[simp] theorem State.setReg_bbr (a : Nat) (v : Word) : (s.setReg a v).bbr = s.bbr := rfl
@[simp] theorem State.setReg_mon (a : Nat) (v : Word) : (s.setReg a v).mon = s.mon := rfl
@[simp] theorem State.setReg_cal (a : Nat) (v : Word) : (s.setReg a v).cal = s.cal := rfl
@[simp] theorem State.setReg_stampers (a : Nat) (v : Word) : (s.setReg a v).stampers = s.stampers := rfl
@[simp] theorem State.setReg_gateReqs (a : Nat) (v : Word) : (s.setReg a v).gateReqs = s.gateReqs := rfl
@[simp] theorem State.setReg_tins (a : Nat) (v : Word) : (s.setReg a v).tins = s.tins := rfl
@[simp] theorem State.setReg_refs (a : Nat) (v : Word) : (s.setReg a v).refs = s.refs := rfl
@[simp] theorem State.setReg_loop (a : Nat) (v : Word) : (s.setReg a v).loop = s.loop := rfl
@[simp] theorem State.setReg_ckos (a : Nat) (v : Word) : (s.setReg a v).ckos = s.ckos := rfl
@[simp] theorem State.setReg_sol (a : Nat) (v : Word) : (s.setReg a v).sol = s.sol := rfl
@[simp] theorem State.setReg_ttls (a : Nat) (v : Word) : (s.setReg a v).ttls = s.ttls := rfl
@[simp] theorem State.setReg_fwds (a : Nat) (v : Word) : (s.setReg a v).fwds = s.fwds := rfl
@[simp] theorem State.setReg_measIn (a : Nat) (v : Word) : (s.setReg a v).measIn = s.measIn := rfl
@[simp] theorem State.setReg_laneIn (a : Nat) (v : Word) : (s.setReg a v).laneIn = s.laneIn := rfl
@[simp] theorem State.setReg_laneOut (a : Nat) (v : Word) : (s.setReg a v).laneOut = s.laneOut := rfl
@[simp] theorem State.setReg_laneOwed (a : Nat) (v : Word) : (s.setReg a v).laneOwed = s.laneOwed := rfl
@[simp] theorem State.setReg_meas (a : Nat) (v : Word) : (s.setReg a v).meas = s.meas := rfl
@[simp] theorem State.setReg_measWins (a : Nat) (v : Word) : (s.setReg a v).measWins = s.measWins := rfl
@[simp] theorem State.setReg_touts (a : Nat) (v : Word) : (s.setReg a v).touts = s.touts := rfl
@[simp] theorem State.setReg_lanes (a : Nat) (v : Word) : (s.setReg a v).lanes = s.lanes := rfl
@[simp] theorem State.setReg_tiles (a : Nat) (v : Word) : (s.setReg a v).tiles = s.tiles := rfl
@[simp] theorem State.setReg_rxOwed (a : Nat) (v : Word) : (s.setReg a v).rxOwed = s.rxOwed := rfl
@[simp] theorem State.setReg_rxSeen (a : Nat) (v : Word) : (s.setReg a v).rxSeen = s.rxSeen := rfl
@[simp] theorem State.setReg_planes (a : Nat) (v : Word) : (s.setReg a v).planes = s.planes := rfl
@[simp] theorem State.setReg_cors (a : Nat) (v : Word) : (s.setReg a v).cors = s.cors := rfl
@[simp] theorem State.setReg_spares (a : Nat) (v : Word) : (s.setReg a v).spares = s.spares := rfl
@[simp] theorem State.setReg_cas (a : Nat) (v : Word) : (s.setReg a v).cas = s.cas := rfl
@[simp] theorem State.setReg_pagesHeld (a : Nat) (v : Word) : (s.setReg a v).pagesHeld = s.pagesHeld := rfl
@[simp] theorem State.setReg_hdefs (a : Nat) (v : Word) : (s.setReg a v).hdefs = s.hdefs := rfl
@[simp] theorem State.setReg_hctxs (a : Nat) (v : Word) : (s.setReg a v).hctxs = s.hctxs := rfl
@[simp] theorem State.setReg_hengs (a : Nat) (v : Word) : (s.setReg a v).hengs = s.hengs := rfl
@[simp] theorem State.setReg_ctxs (a : Nat) (v : Word) : (s.setReg a v).ctxs = s.ctxs := rfl
@[simp] theorem State.setReg_adm (a : Nat) (v : Word) : (s.setReg a v).adm = s.adm := rfl
@[simp] theorem State.setReg_admStop (a : Nat) (v : Word) : (s.setReg a v).admStop = s.admStop := rfl
@[simp] theorem State.setReg_admRes (a : Nat) (v : Word) : (s.setReg a v).admRes = s.admRes := rfl
@[simp] theorem State.setReg_condIn (a : Nat) (v : Word) : (s.setReg a v).condIn = s.condIn := rfl
@[simp] theorem State.setReg_hold (a : Nat) (v : Word) : (s.setReg a v).hold = s.hold := rfl
@[simp] theorem State.setReg_oldWords (a : Nat) (v : Word) : (s.setReg a v).oldWords = s.oldWords := rfl
@[simp] theorem State.setReg_ovMicro (a : Nat) (v : Word) : (s.setReg a v).ovMicro = s.ovMicro := rfl
@[simp] theorem State.setReg_ovNano (a : Nat) (v : Word) : (s.setReg a v).ovNano = s.ovNano := rfl
@[simp] theorem State.setReg_caps (a : Nat) (v : Word) : (s.setReg a v).caps = s.caps := rfl
@[simp] theorem State.setReg_par (a : Nat) (v : Word) : (s.setReg a v).par = s.par := rfl
@[simp] theorem State.setReg_flagLog (a : Nat) (v : Word) : (s.setReg a v).flagLog = s.flagLog := rfl
@[simp] theorem State.setReg_out (a : Nat) (v : Word) : (s.setReg a v).out = s.out := rfl
@[simp] theorem State.setReg_freeCtr (a : Nat) (v : Word) : (s.setReg a v).freeCtr = s.freeCtr := rfl

/-! ### State.setTabw -/

@[simp] theorem State.setTabw_pending (a : Nat) (v : Word) : (s.setTabw a v).pending = s.pending := rfl
@[simp] theorem State.setTabw_now (a : Nat) (v : Word) : (s.setTabw a v).now = s.now := rfl
@[simp] theorem State.setTabw_solEdge (a : Nat) (v : Word) : (s.setTabw a v).solEdge = s.solEdge := rfl
@[simp] theorem State.setTabw_wraps (a : Nat) (v : Word) : (s.setTabw a v).wraps = s.wraps := rfl
@[simp] theorem State.setTabw_dev (a : Nat) (v : Word) : (s.setTabw a v).dev = s.dev := rfl
@[simp] theorem State.setTabw_porst (a : Nat) (v : Word) : (s.setTabw a v).porst = s.porst := rfl
@[simp] theorem State.setTabw_regs (a : Nat) (v : Word) : (s.setTabw a v).regs = s.regs := rfl
@[simp] theorem State.setTabw_staged (a : Nat) (v : Word) : (s.setTabw a v).staged = s.staged := rfl
@[simp] theorem State.setTabw_stagedTab (a : Nat) (v : Word) : (s.setTabw a v).stagedTab = s.stagedTab := rfl
@[simp] theorem State.setTabw_clkWait (a : Nat) (v : Word) : (s.setTabw a v).clkWait = s.clkWait := rfl
@[simp] theorem State.setTabw_ckoWait (a : Nat) (v : Word) : (s.setTabw a v).ckoWait = s.ckoWait := rfl
@[simp] theorem State.setTabw_parWait (a : Nat) (v : Word) : (s.setTabw a v).parWait = s.parWait := rfl
@[simp] theorem State.setTabw_ckoDue (a : Nat) (v : Word) : (s.setTabw a v).ckoDue = s.ckoDue := rfl
@[simp] theorem State.setTabw_commit (a : Nat) (v : Word) : (s.setTabw a v).commit = s.commit := rfl
@[simp] theorem State.setTabw_viewPcie (a : Nat) (v : Word) : (s.setTabw a v).viewPcie = s.viewPcie := rfl
@[simp] theorem State.setTabw_viewSpi (a : Nat) (v : Word) : (s.setTabw a v).viewSpi = s.viewSpi := rfl
@[simp] theorem State.setTabw_resetting (a : Nat) (v : Word) : (s.setTabw a v).resetting = s.resetting := rfl
@[simp] theorem State.setTabw_held (a : Nat) (v : Word) : (s.setTabw a v).held = s.held := rfl
@[simp] theorem State.setTabw_behind (a : Nat) (v : Word) : (s.setTabw a v).behind = s.behind := rfl
@[simp] theorem State.setTabw_barriers (a : Nat) (v : Word) : (s.setTabw a v).barriers = s.barriers := rfl
@[simp] theorem State.setTabw_barrierOn (a : Nat) (v : Word) : (s.setTabw a v).barrierOn = s.barrierOn := rfl
@[simp] theorem State.setTabw_snaps (a : Nat) (v : Word) : (s.setTabw a v).snaps = s.snaps := rfl
@[simp] theorem State.setTabw_splitFault (a : Nat) (v : Word) : (s.setTabw a v).splitFault = s.splitFault := rfl
@[simp] theorem State.setTabw_evtAt (a : Nat) (v : Word) : (s.setTabw a v).evtAt = s.evtAt := rfl
@[simp] theorem State.setTabw_msixTable (a : Nat) (v : Word) : (s.setTabw a v).msixTable = s.msixTable := rfl
@[simp] theorem State.setTabw_pba (a : Nat) (v : Word) : (s.setTabw a v).pba = s.pba := rfl
@[simp] theorem State.setTabw_stopSrc (a : Nat) (v : Word) : (s.setTabw a v).stopSrc = s.stopSrc := rfl
@[simp] theorem State.setTabw_stopOn (a : Nat) (v : Word) : (s.setTabw a v).stopOn = s.stopOn := rfl
@[simp] theorem State.setTabw_dma (a : Nat) (v : Word) : (s.setTabw a v).dma = s.dma := rfl
@[simp] theorem State.setTabw_boot (a : Nat) (v : Word) : (s.setTabw a v).boot = s.boot := rfl
@[simp] theorem State.setTabw_nvm (a : Nat) (v : Word) : (s.setTabw a v).nvm = s.nvm := rfl
@[simp] theorem State.setTabw_svc (a : Nat) (v : Word) : (s.setTabw a v).svc = s.svc := rfl
@[simp] theorem State.setTabw_bbr (a : Nat) (v : Word) : (s.setTabw a v).bbr = s.bbr := rfl
@[simp] theorem State.setTabw_mon (a : Nat) (v : Word) : (s.setTabw a v).mon = s.mon := rfl
@[simp] theorem State.setTabw_cal (a : Nat) (v : Word) : (s.setTabw a v).cal = s.cal := rfl
@[simp] theorem State.setTabw_stampers (a : Nat) (v : Word) : (s.setTabw a v).stampers = s.stampers := rfl
@[simp] theorem State.setTabw_gateReqs (a : Nat) (v : Word) : (s.setTabw a v).gateReqs = s.gateReqs := rfl
@[simp] theorem State.setTabw_tins (a : Nat) (v : Word) : (s.setTabw a v).tins = s.tins := rfl
@[simp] theorem State.setTabw_refs (a : Nat) (v : Word) : (s.setTabw a v).refs = s.refs := rfl
@[simp] theorem State.setTabw_loop (a : Nat) (v : Word) : (s.setTabw a v).loop = s.loop := rfl
@[simp] theorem State.setTabw_ckos (a : Nat) (v : Word) : (s.setTabw a v).ckos = s.ckos := rfl
@[simp] theorem State.setTabw_sol (a : Nat) (v : Word) : (s.setTabw a v).sol = s.sol := rfl
@[simp] theorem State.setTabw_ttls (a : Nat) (v : Word) : (s.setTabw a v).ttls = s.ttls := rfl
@[simp] theorem State.setTabw_fwds (a : Nat) (v : Word) : (s.setTabw a v).fwds = s.fwds := rfl
@[simp] theorem State.setTabw_measIn (a : Nat) (v : Word) : (s.setTabw a v).measIn = s.measIn := rfl
@[simp] theorem State.setTabw_laneIn (a : Nat) (v : Word) : (s.setTabw a v).laneIn = s.laneIn := rfl
@[simp] theorem State.setTabw_laneOut (a : Nat) (v : Word) : (s.setTabw a v).laneOut = s.laneOut := rfl
@[simp] theorem State.setTabw_laneOwed (a : Nat) (v : Word) : (s.setTabw a v).laneOwed = s.laneOwed := rfl
@[simp] theorem State.setTabw_meas (a : Nat) (v : Word) : (s.setTabw a v).meas = s.meas := rfl
@[simp] theorem State.setTabw_measWins (a : Nat) (v : Word) : (s.setTabw a v).measWins = s.measWins := rfl
@[simp] theorem State.setTabw_touts (a : Nat) (v : Word) : (s.setTabw a v).touts = s.touts := rfl
@[simp] theorem State.setTabw_lanes (a : Nat) (v : Word) : (s.setTabw a v).lanes = s.lanes := rfl
@[simp] theorem State.setTabw_tiles (a : Nat) (v : Word) : (s.setTabw a v).tiles = s.tiles := rfl
@[simp] theorem State.setTabw_rxOwed (a : Nat) (v : Word) : (s.setTabw a v).rxOwed = s.rxOwed := rfl
@[simp] theorem State.setTabw_rxSeen (a : Nat) (v : Word) : (s.setTabw a v).rxSeen = s.rxSeen := rfl
@[simp] theorem State.setTabw_planes (a : Nat) (v : Word) : (s.setTabw a v).planes = s.planes := rfl
@[simp] theorem State.setTabw_cors (a : Nat) (v : Word) : (s.setTabw a v).cors = s.cors := rfl
@[simp] theorem State.setTabw_spares (a : Nat) (v : Word) : (s.setTabw a v).spares = s.spares := rfl
@[simp] theorem State.setTabw_cas (a : Nat) (v : Word) : (s.setTabw a v).cas = s.cas := rfl
@[simp] theorem State.setTabw_pagesHeld (a : Nat) (v : Word) : (s.setTabw a v).pagesHeld = s.pagesHeld := rfl
@[simp] theorem State.setTabw_hdefs (a : Nat) (v : Word) : (s.setTabw a v).hdefs = s.hdefs := rfl
@[simp] theorem State.setTabw_hctxs (a : Nat) (v : Word) : (s.setTabw a v).hctxs = s.hctxs := rfl
@[simp] theorem State.setTabw_hengs (a : Nat) (v : Word) : (s.setTabw a v).hengs = s.hengs := rfl
@[simp] theorem State.setTabw_ctxs (a : Nat) (v : Word) : (s.setTabw a v).ctxs = s.ctxs := rfl
@[simp] theorem State.setTabw_adm (a : Nat) (v : Word) : (s.setTabw a v).adm = s.adm := rfl
@[simp] theorem State.setTabw_admStop (a : Nat) (v : Word) : (s.setTabw a v).admStop = s.admStop := rfl
@[simp] theorem State.setTabw_admRes (a : Nat) (v : Word) : (s.setTabw a v).admRes = s.admRes := rfl
@[simp] theorem State.setTabw_condIn (a : Nat) (v : Word) : (s.setTabw a v).condIn = s.condIn := rfl
@[simp] theorem State.setTabw_hold (a : Nat) (v : Word) : (s.setTabw a v).hold = s.hold := rfl
@[simp] theorem State.setTabw_oldWords (a : Nat) (v : Word) : (s.setTabw a v).oldWords = s.oldWords := rfl
@[simp] theorem State.setTabw_ovMicro (a : Nat) (v : Word) : (s.setTabw a v).ovMicro = s.ovMicro := rfl
@[simp] theorem State.setTabw_ovNano (a : Nat) (v : Word) : (s.setTabw a v).ovNano = s.ovNano := rfl
@[simp] theorem State.setTabw_caps (a : Nat) (v : Word) : (s.setTabw a v).caps = s.caps := rfl
@[simp] theorem State.setTabw_par (a : Nat) (v : Word) : (s.setTabw a v).par = s.par := rfl
@[simp] theorem State.setTabw_flagLog (a : Nat) (v : Word) : (s.setTabw a v).flagLog = s.flagLog := rfl
@[simp] theorem State.setTabw_out (a : Nat) (v : Word) : (s.setTabw a v).out = s.out := rfl
@[simp] theorem State.setTabw_freeCtr (a : Nat) (v : Word) : (s.setTabw a v).freeCtr = s.freeCtr := rfl

/-! ### State.emit -/

@[simp] theorem State.emit_pending (o : Output) : (s.emit o).pending = s.pending := rfl
@[simp] theorem State.emit_now (o : Output) : (s.emit o).now = s.now := rfl
@[simp] theorem State.emit_solEdge (o : Output) : (s.emit o).solEdge = s.solEdge := rfl
@[simp] theorem State.emit_wraps (o : Output) : (s.emit o).wraps = s.wraps := rfl
@[simp] theorem State.emit_dev (o : Output) : (s.emit o).dev = s.dev := rfl
@[simp] theorem State.emit_porst (o : Output) : (s.emit o).porst = s.porst := rfl
@[simp] theorem State.emit_regs (o : Output) : (s.emit o).regs = s.regs := rfl
@[simp] theorem State.emit_staged (o : Output) : (s.emit o).staged = s.staged := rfl
@[simp] theorem State.emit_stagedTab (o : Output) : (s.emit o).stagedTab = s.stagedTab := rfl
@[simp] theorem State.emit_clkWait (o : Output) : (s.emit o).clkWait = s.clkWait := rfl
@[simp] theorem State.emit_ckoWait (o : Output) : (s.emit o).ckoWait = s.ckoWait := rfl
@[simp] theorem State.emit_parWait (o : Output) : (s.emit o).parWait = s.parWait := rfl
@[simp] theorem State.emit_ckoDue (o : Output) : (s.emit o).ckoDue = s.ckoDue := rfl
@[simp] theorem State.emit_tab (o : Output) : (s.emit o).tab = s.tab := rfl
@[simp] theorem State.emit_commit (o : Output) : (s.emit o).commit = s.commit := rfl
@[simp] theorem State.emit_viewPcie (o : Output) : (s.emit o).viewPcie = s.viewPcie := rfl
@[simp] theorem State.emit_viewSpi (o : Output) : (s.emit o).viewSpi = s.viewSpi := rfl
@[simp] theorem State.emit_resetting (o : Output) : (s.emit o).resetting = s.resetting := rfl
@[simp] theorem State.emit_held (o : Output) : (s.emit o).held = s.held := rfl
@[simp] theorem State.emit_behind (o : Output) : (s.emit o).behind = s.behind := rfl
@[simp] theorem State.emit_barriers (o : Output) : (s.emit o).barriers = s.barriers := rfl
@[simp] theorem State.emit_barrierOn (o : Output) : (s.emit o).barrierOn = s.barrierOn := rfl
@[simp] theorem State.emit_snaps (o : Output) : (s.emit o).snaps = s.snaps := rfl
@[simp] theorem State.emit_splitFault (o : Output) : (s.emit o).splitFault = s.splitFault := rfl
@[simp] theorem State.emit_evtAt (o : Output) : (s.emit o).evtAt = s.evtAt := rfl
@[simp] theorem State.emit_msixTable (o : Output) : (s.emit o).msixTable = s.msixTable := rfl
@[simp] theorem State.emit_pba (o : Output) : (s.emit o).pba = s.pba := rfl
@[simp] theorem State.emit_stopSrc (o : Output) : (s.emit o).stopSrc = s.stopSrc := rfl
@[simp] theorem State.emit_stopOn (o : Output) : (s.emit o).stopOn = s.stopOn := rfl
@[simp] theorem State.emit_dma (o : Output) : (s.emit o).dma = s.dma := rfl
@[simp] theorem State.emit_boot (o : Output) : (s.emit o).boot = s.boot := rfl
@[simp] theorem State.emit_nvm (o : Output) : (s.emit o).nvm = s.nvm := rfl
@[simp] theorem State.emit_svc (o : Output) : (s.emit o).svc = s.svc := rfl
@[simp] theorem State.emit_bbr (o : Output) : (s.emit o).bbr = s.bbr := rfl
@[simp] theorem State.emit_mon (o : Output) : (s.emit o).mon = s.mon := rfl
@[simp] theorem State.emit_cal (o : Output) : (s.emit o).cal = s.cal := rfl
@[simp] theorem State.emit_stampers (o : Output) : (s.emit o).stampers = s.stampers := rfl
@[simp] theorem State.emit_gateReqs (o : Output) : (s.emit o).gateReqs = s.gateReqs := rfl
@[simp] theorem State.emit_tins (o : Output) : (s.emit o).tins = s.tins := rfl
@[simp] theorem State.emit_refs (o : Output) : (s.emit o).refs = s.refs := rfl
@[simp] theorem State.emit_loop (o : Output) : (s.emit o).loop = s.loop := rfl
@[simp] theorem State.emit_ckos (o : Output) : (s.emit o).ckos = s.ckos := rfl
@[simp] theorem State.emit_sol (o : Output) : (s.emit o).sol = s.sol := rfl
@[simp] theorem State.emit_ttls (o : Output) : (s.emit o).ttls = s.ttls := rfl
@[simp] theorem State.emit_fwds (o : Output) : (s.emit o).fwds = s.fwds := rfl
@[simp] theorem State.emit_measIn (o : Output) : (s.emit o).measIn = s.measIn := rfl
@[simp] theorem State.emit_laneIn (o : Output) : (s.emit o).laneIn = s.laneIn := rfl
@[simp] theorem State.emit_laneOut (o : Output) : (s.emit o).laneOut = s.laneOut := rfl
@[simp] theorem State.emit_laneOwed (o : Output) : (s.emit o).laneOwed = s.laneOwed := rfl
@[simp] theorem State.emit_meas (o : Output) : (s.emit o).meas = s.meas := rfl
@[simp] theorem State.emit_measWins (o : Output) : (s.emit o).measWins = s.measWins := rfl
@[simp] theorem State.emit_touts (o : Output) : (s.emit o).touts = s.touts := rfl
@[simp] theorem State.emit_lanes (o : Output) : (s.emit o).lanes = s.lanes := rfl
@[simp] theorem State.emit_tiles (o : Output) : (s.emit o).tiles = s.tiles := rfl
@[simp] theorem State.emit_rxOwed (o : Output) : (s.emit o).rxOwed = s.rxOwed := rfl
@[simp] theorem State.emit_rxSeen (o : Output) : (s.emit o).rxSeen = s.rxSeen := rfl
@[simp] theorem State.emit_planes (o : Output) : (s.emit o).planes = s.planes := rfl
@[simp] theorem State.emit_cors (o : Output) : (s.emit o).cors = s.cors := rfl
@[simp] theorem State.emit_spares (o : Output) : (s.emit o).spares = s.spares := rfl
@[simp] theorem State.emit_cas (o : Output) : (s.emit o).cas = s.cas := rfl
@[simp] theorem State.emit_pagesHeld (o : Output) : (s.emit o).pagesHeld = s.pagesHeld := rfl
@[simp] theorem State.emit_hdefs (o : Output) : (s.emit o).hdefs = s.hdefs := rfl
@[simp] theorem State.emit_hctxs (o : Output) : (s.emit o).hctxs = s.hctxs := rfl
@[simp] theorem State.emit_hengs (o : Output) : (s.emit o).hengs = s.hengs := rfl
@[simp] theorem State.emit_ctxs (o : Output) : (s.emit o).ctxs = s.ctxs := rfl
@[simp] theorem State.emit_adm (o : Output) : (s.emit o).adm = s.adm := rfl
@[simp] theorem State.emit_admStop (o : Output) : (s.emit o).admStop = s.admStop := rfl
@[simp] theorem State.emit_admRes (o : Output) : (s.emit o).admRes = s.admRes := rfl
@[simp] theorem State.emit_condIn (o : Output) : (s.emit o).condIn = s.condIn := rfl
@[simp] theorem State.emit_hold (o : Output) : (s.emit o).hold = s.hold := rfl
@[simp] theorem State.emit_oldWords (o : Output) : (s.emit o).oldWords = s.oldWords := rfl
@[simp] theorem State.emit_ovMicro (o : Output) : (s.emit o).ovMicro = s.ovMicro := rfl
@[simp] theorem State.emit_ovNano (o : Output) : (s.emit o).ovNano = s.ovNano := rfl
@[simp] theorem State.emit_caps (o : Output) : (s.emit o).caps = s.caps := rfl
@[simp] theorem State.emit_par (o : Output) : (s.emit o).par = s.par := rfl
@[simp] theorem State.emit_flagLog (o : Output) : (s.emit o).flagLog = s.flagLog := rfl
@[simp] theorem State.emit_freeCtr (o : Output) : (s.emit o).freeCtr = s.freeCtr := rfl

@[simp] theorem State.advance_now (t : Nat) : (s.advance t).now = max s.now t := rfl
@[simp] theorem State.requeue_pending (q : List Instr) : (s.requeue q).pending = q := rfl
@[simp] theorem State.emit_out (o : Output) : (s.emit o).out = o :: s.out := rfl

/-! ### State.keep and State.setOrigin -/

@[simp] theorem State.keep_pending (x : State) (n : Nat) : (x.keep s n).pending = s.pending := rfl
@[simp] theorem State.keep_now (x : State) (n : Nat) : (x.keep s n).now = n := rfl
@[simp] theorem State.keep_solEdge (x : State) (n : Nat) : (x.keep s n).solEdge = s.solEdge := rfl
@[simp] theorem State.keep_wraps (x : State) (n : Nat) : (x.keep s n).wraps = s.wraps := rfl
@[simp] theorem State.keep_dev (x : State) (n : Nat) : (x.keep s n).dev = x.dev := rfl
@[simp] theorem State.keep_porst (x : State) (n : Nat) : (x.keep s n).porst = s.porst := rfl
@[simp] theorem State.keep_regs (x : State) (n : Nat) : (x.keep s n).regs = x.regs := rfl
@[simp] theorem State.keep_staged (x : State) (n : Nat) : (x.keep s n).staged = x.staged := rfl
@[simp] theorem State.keep_stagedTab (x : State) (n : Nat) : (x.keep s n).stagedTab = x.stagedTab := rfl
@[simp] theorem State.keep_clkWait (x : State) (n : Nat) : (x.keep s n).clkWait = x.clkWait := rfl
@[simp] theorem State.keep_ckoWait (x : State) (n : Nat) : (x.keep s n).ckoWait = x.ckoWait := rfl
@[simp] theorem State.keep_parWait (x : State) (n : Nat) : (x.keep s n).parWait = x.parWait := rfl
@[simp] theorem State.keep_ckoDue (x : State) (n : Nat) : (x.keep s n).ckoDue = x.ckoDue := rfl
@[simp] theorem State.keep_tab (x : State) (n : Nat) : (x.keep s n).tab = x.tab := rfl
@[simp] theorem State.keep_commit (x : State) (n : Nat) : (x.keep s n).commit = x.commit := rfl
@[simp] theorem State.keep_viewPcie (x : State) (n : Nat) : (x.keep s n).viewPcie = x.viewPcie := rfl
@[simp] theorem State.keep_viewSpi (x : State) (n : Nat) : (x.keep s n).viewSpi = x.viewSpi := rfl
@[simp] theorem State.keep_resetting (x : State) (n : Nat) : (x.keep s n).resetting = x.resetting := rfl
@[simp] theorem State.keep_held (x : State) (n : Nat) : (x.keep s n).held = x.held := rfl
@[simp] theorem State.keep_behind (x : State) (n : Nat) : (x.keep s n).behind = x.behind := rfl
@[simp] theorem State.keep_barriers (x : State) (n : Nat) : (x.keep s n).barriers = x.barriers := rfl
@[simp] theorem State.keep_barrierOn (x : State) (n : Nat) : (x.keep s n).barrierOn = x.barrierOn := rfl
@[simp] theorem State.keep_snaps (x : State) (n : Nat) : (x.keep s n).snaps = x.snaps := rfl
@[simp] theorem State.keep_splitFault (x : State) (n : Nat) : (x.keep s n).splitFault = x.splitFault := rfl
@[simp] theorem State.keep_evtAt (x : State) (n : Nat) : (x.keep s n).evtAt = x.evtAt := rfl
@[simp] theorem State.keep_msixTable (x : State) (n : Nat) : (x.keep s n).msixTable = x.msixTable := rfl
@[simp] theorem State.keep_pba (x : State) (n : Nat) : (x.keep s n).pba = x.pba := rfl
@[simp] theorem State.keep_stopSrc (x : State) (n : Nat) : (x.keep s n).stopSrc = x.stopSrc := rfl
@[simp] theorem State.keep_stopOn (x : State) (n : Nat) : (x.keep s n).stopOn = x.stopOn := rfl
@[simp] theorem State.keep_dma (x : State) (n : Nat) : (x.keep s n).dma = x.dma := rfl
@[simp] theorem State.keep_boot (x : State) (n : Nat) : (x.keep s n).boot = x.boot := rfl
@[simp] theorem State.keep_nvm (x : State) (n : Nat) : (x.keep s n).nvm = x.nvm := rfl
@[simp] theorem State.keep_svc (x : State) (n : Nat) : (x.keep s n).svc = x.svc := rfl
@[simp] theorem State.keep_bbr (x : State) (n : Nat) : (x.keep s n).bbr = x.bbr := rfl
@[simp] theorem State.keep_mon (x : State) (n : Nat) : (x.keep s n).mon = x.mon := rfl
@[simp] theorem State.keep_cal (x : State) (n : Nat) : (x.keep s n).cal = x.cal := rfl
@[simp] theorem State.keep_stampers (x : State) (n : Nat) : (x.keep s n).stampers = x.stampers := rfl
@[simp] theorem State.keep_gateReqs (x : State) (n : Nat) : (x.keep s n).gateReqs = x.gateReqs := rfl
@[simp] theorem State.keep_tins (x : State) (n : Nat) : (x.keep s n).tins = x.tins := rfl
@[simp] theorem State.keep_refs (x : State) (n : Nat) : (x.keep s n).refs = x.refs := rfl
@[simp] theorem State.keep_loop (x : State) (n : Nat) : (x.keep s n).loop = x.loop := rfl
@[simp] theorem State.keep_ckos (x : State) (n : Nat) : (x.keep s n).ckos = x.ckos := rfl
@[simp] theorem State.keep_sol (x : State) (n : Nat) : (x.keep s n).sol = x.sol := rfl
@[simp] theorem State.keep_ttls (x : State) (n : Nat) : (x.keep s n).ttls = x.ttls := rfl
@[simp] theorem State.keep_fwds (x : State) (n : Nat) : (x.keep s n).fwds = x.fwds := rfl
@[simp] theorem State.keep_measIn (x : State) (n : Nat) : (x.keep s n).measIn = x.measIn := rfl
@[simp] theorem State.keep_laneIn (x : State) (n : Nat) : (x.keep s n).laneIn = x.laneIn := rfl
@[simp] theorem State.keep_laneOut (x : State) (n : Nat) : (x.keep s n).laneOut = x.laneOut := rfl
@[simp] theorem State.keep_laneOwed (x : State) (n : Nat) : (x.keep s n).laneOwed = x.laneOwed := rfl
@[simp] theorem State.keep_meas (x : State) (n : Nat) : (x.keep s n).meas = x.meas := rfl
@[simp] theorem State.keep_measWins (x : State) (n : Nat) : (x.keep s n).measWins = x.measWins := rfl
@[simp] theorem State.keep_touts (x : State) (n : Nat) : (x.keep s n).touts = x.touts := rfl
@[simp] theorem State.keep_lanes (x : State) (n : Nat) : (x.keep s n).lanes = x.lanes := rfl
@[simp] theorem State.keep_tiles (x : State) (n : Nat) : (x.keep s n).tiles = x.tiles := rfl
@[simp] theorem State.keep_rxOwed (x : State) (n : Nat) : (x.keep s n).rxOwed = x.rxOwed := rfl
@[simp] theorem State.keep_rxSeen (x : State) (n : Nat) : (x.keep s n).rxSeen = x.rxSeen := rfl
@[simp] theorem State.keep_planes (x : State) (n : Nat) : (x.keep s n).planes = x.planes := rfl
@[simp] theorem State.keep_cors (x : State) (n : Nat) : (x.keep s n).cors = x.cors := rfl
@[simp] theorem State.keep_spares (x : State) (n : Nat) : (x.keep s n).spares = x.spares := rfl
@[simp] theorem State.keep_cas (x : State) (n : Nat) : (x.keep s n).cas = x.cas := rfl
@[simp] theorem State.keep_pagesHeld (x : State) (n : Nat) : (x.keep s n).pagesHeld = x.pagesHeld := rfl
@[simp] theorem State.keep_hdefs (x : State) (n : Nat) : (x.keep s n).hdefs = x.hdefs := rfl
@[simp] theorem State.keep_hctxs (x : State) (n : Nat) : (x.keep s n).hctxs = x.hctxs := rfl
@[simp] theorem State.keep_hengs (x : State) (n : Nat) : (x.keep s n).hengs = x.hengs := rfl
@[simp] theorem State.keep_ctxs (x : State) (n : Nat) : (x.keep s n).ctxs = x.ctxs := rfl
@[simp] theorem State.keep_adm (x : State) (n : Nat) : (x.keep s n).adm = x.adm := rfl
@[simp] theorem State.keep_admStop (x : State) (n : Nat) : (x.keep s n).admStop = x.admStop := rfl
@[simp] theorem State.keep_admRes (x : State) (n : Nat) : (x.keep s n).admRes = x.admRes := rfl
@[simp] theorem State.keep_condIn (x : State) (n : Nat) : (x.keep s n).condIn = x.condIn := rfl
@[simp] theorem State.keep_hold (x : State) (n : Nat) : (x.keep s n).hold = x.hold := rfl
@[simp] theorem State.keep_oldWords (x : State) (n : Nat) : (x.keep s n).oldWords = x.oldWords := rfl
@[simp] theorem State.keep_ovMicro (x : State) (n : Nat) : (x.keep s n).ovMicro = x.ovMicro := rfl
@[simp] theorem State.keep_ovNano (x : State) (n : Nat) : (x.keep s n).ovNano = x.ovNano := rfl
@[simp] theorem State.keep_caps (x : State) (n : Nat) : (x.keep s n).caps = x.caps := rfl
@[simp] theorem State.keep_par (x : State) (n : Nat) : (x.keep s n).par = x.par := rfl
@[simp] theorem State.keep_flagLog (x : State) (n : Nat) : (x.keep s n).flagLog = x.flagLog := rfl
@[simp] theorem State.keep_out (x : State) (n : Nat) : (x.keep s n).out = x.out := rfl
@[simp] theorem State.keep_freeCtr (x : State) (n : Nat) : (x.keep s n).freeCtr = x.freeCtr := rfl
@[simp] theorem State.setOrigin_pending (o : Nat × Nat) : (s.setOrigin o).pending = s.pending := rfl
@[simp] theorem State.setOrigin_now (o : Nat × Nat) : (s.setOrigin o).now = s.now := rfl
@[simp] theorem State.setOrigin_solEdge (o : Nat × Nat) : (s.setOrigin o).solEdge = o.1 := rfl
@[simp] theorem State.setOrigin_wraps (o : Nat × Nat) : (s.setOrigin o).wraps = o.2 := rfl
@[simp] theorem State.setOrigin_dev (o : Nat × Nat) : (s.setOrigin o).dev = s.dev := rfl
@[simp] theorem State.setOrigin_porst (o : Nat × Nat) : (s.setOrigin o).porst = s.porst := rfl
@[simp] theorem State.setOrigin_regs (o : Nat × Nat) : (s.setOrigin o).regs = s.regs := rfl
@[simp] theorem State.setOrigin_staged (o : Nat × Nat) : (s.setOrigin o).staged = s.staged := rfl
@[simp] theorem State.setOrigin_stagedTab (o : Nat × Nat) : (s.setOrigin o).stagedTab = s.stagedTab := rfl
@[simp] theorem State.setOrigin_clkWait (o : Nat × Nat) : (s.setOrigin o).clkWait = s.clkWait := rfl
@[simp] theorem State.setOrigin_ckoWait (o : Nat × Nat) : (s.setOrigin o).ckoWait = s.ckoWait := rfl
@[simp] theorem State.setOrigin_parWait (o : Nat × Nat) : (s.setOrigin o).parWait = s.parWait := rfl
@[simp] theorem State.setOrigin_ckoDue (o : Nat × Nat) : (s.setOrigin o).ckoDue = s.ckoDue := rfl
@[simp] theorem State.setOrigin_tab (o : Nat × Nat) : (s.setOrigin o).tab = s.tab := rfl
@[simp] theorem State.setOrigin_commit (o : Nat × Nat) : (s.setOrigin o).commit = s.commit := rfl
@[simp] theorem State.setOrigin_viewPcie (o : Nat × Nat) : (s.setOrigin o).viewPcie = s.viewPcie := rfl
@[simp] theorem State.setOrigin_viewSpi (o : Nat × Nat) : (s.setOrigin o).viewSpi = s.viewSpi := rfl
@[simp] theorem State.setOrigin_resetting (o : Nat × Nat) : (s.setOrigin o).resetting = s.resetting := rfl
@[simp] theorem State.setOrigin_held (o : Nat × Nat) : (s.setOrigin o).held = s.held := rfl
@[simp] theorem State.setOrigin_behind (o : Nat × Nat) : (s.setOrigin o).behind = s.behind := rfl
@[simp] theorem State.setOrigin_barriers (o : Nat × Nat) : (s.setOrigin o).barriers = s.barriers := rfl
@[simp] theorem State.setOrigin_barrierOn (o : Nat × Nat) : (s.setOrigin o).barrierOn = s.barrierOn := rfl
@[simp] theorem State.setOrigin_snaps (o : Nat × Nat) : (s.setOrigin o).snaps = s.snaps := rfl
@[simp] theorem State.setOrigin_splitFault (o : Nat × Nat) : (s.setOrigin o).splitFault = s.splitFault := rfl
@[simp] theorem State.setOrigin_evtAt (o : Nat × Nat) : (s.setOrigin o).evtAt = s.evtAt := rfl
@[simp] theorem State.setOrigin_msixTable (o : Nat × Nat) : (s.setOrigin o).msixTable = s.msixTable := rfl
@[simp] theorem State.setOrigin_pba (o : Nat × Nat) : (s.setOrigin o).pba = s.pba := rfl
@[simp] theorem State.setOrigin_stopSrc (o : Nat × Nat) : (s.setOrigin o).stopSrc = s.stopSrc := rfl
@[simp] theorem State.setOrigin_stopOn (o : Nat × Nat) : (s.setOrigin o).stopOn = s.stopOn := rfl
@[simp] theorem State.setOrigin_dma (o : Nat × Nat) : (s.setOrigin o).dma = s.dma := rfl
@[simp] theorem State.setOrigin_boot (o : Nat × Nat) : (s.setOrigin o).boot = s.boot := rfl
@[simp] theorem State.setOrigin_nvm (o : Nat × Nat) : (s.setOrigin o).nvm = s.nvm := rfl
@[simp] theorem State.setOrigin_svc (o : Nat × Nat) : (s.setOrigin o).svc = s.svc := rfl
@[simp] theorem State.setOrigin_bbr (o : Nat × Nat) : (s.setOrigin o).bbr = s.bbr := rfl
@[simp] theorem State.setOrigin_mon (o : Nat × Nat) : (s.setOrigin o).mon = s.mon := rfl
@[simp] theorem State.setOrigin_cal (o : Nat × Nat) : (s.setOrigin o).cal = s.cal := rfl
@[simp] theorem State.setOrigin_stampers (o : Nat × Nat) : (s.setOrigin o).stampers = s.stampers := rfl
@[simp] theorem State.setOrigin_gateReqs (o : Nat × Nat) : (s.setOrigin o).gateReqs = s.gateReqs := rfl
@[simp] theorem State.setOrigin_tins (o : Nat × Nat) : (s.setOrigin o).tins = s.tins := rfl
@[simp] theorem State.setOrigin_refs (o : Nat × Nat) : (s.setOrigin o).refs = s.refs := rfl
@[simp] theorem State.setOrigin_loop (o : Nat × Nat) : (s.setOrigin o).loop = s.loop := rfl
@[simp] theorem State.setOrigin_ckos (o : Nat × Nat) : (s.setOrigin o).ckos = s.ckos := rfl
@[simp] theorem State.setOrigin_sol (o : Nat × Nat) : (s.setOrigin o).sol = s.sol := rfl
@[simp] theorem State.setOrigin_ttls (o : Nat × Nat) : (s.setOrigin o).ttls = s.ttls := rfl
@[simp] theorem State.setOrigin_fwds (o : Nat × Nat) : (s.setOrigin o).fwds = s.fwds := rfl
@[simp] theorem State.setOrigin_measIn (o : Nat × Nat) : (s.setOrigin o).measIn = s.measIn := rfl
@[simp] theorem State.setOrigin_laneIn (o : Nat × Nat) : (s.setOrigin o).laneIn = s.laneIn := rfl
@[simp] theorem State.setOrigin_laneOut (o : Nat × Nat) : (s.setOrigin o).laneOut = s.laneOut := rfl
@[simp] theorem State.setOrigin_laneOwed (o : Nat × Nat) : (s.setOrigin o).laneOwed = s.laneOwed := rfl
@[simp] theorem State.setOrigin_meas (o : Nat × Nat) : (s.setOrigin o).meas = s.meas := rfl
@[simp] theorem State.setOrigin_measWins (o : Nat × Nat) : (s.setOrigin o).measWins = s.measWins := rfl
@[simp] theorem State.setOrigin_touts (o : Nat × Nat) : (s.setOrigin o).touts = s.touts := rfl
@[simp] theorem State.setOrigin_lanes (o : Nat × Nat) : (s.setOrigin o).lanes = s.lanes := rfl
@[simp] theorem State.setOrigin_tiles (o : Nat × Nat) : (s.setOrigin o).tiles = s.tiles := rfl
@[simp] theorem State.setOrigin_rxOwed (o : Nat × Nat) : (s.setOrigin o).rxOwed = s.rxOwed := rfl
@[simp] theorem State.setOrigin_rxSeen (o : Nat × Nat) : (s.setOrigin o).rxSeen = s.rxSeen := rfl
@[simp] theorem State.setOrigin_planes (o : Nat × Nat) : (s.setOrigin o).planes = s.planes := rfl
@[simp] theorem State.setOrigin_cors (o : Nat × Nat) : (s.setOrigin o).cors = s.cors := rfl
@[simp] theorem State.setOrigin_spares (o : Nat × Nat) : (s.setOrigin o).spares = s.spares := rfl
@[simp] theorem State.setOrigin_cas (o : Nat × Nat) : (s.setOrigin o).cas = s.cas := rfl
@[simp] theorem State.setOrigin_pagesHeld (o : Nat × Nat) : (s.setOrigin o).pagesHeld = s.pagesHeld := rfl
@[simp] theorem State.setOrigin_hdefs (o : Nat × Nat) : (s.setOrigin o).hdefs = s.hdefs := rfl
@[simp] theorem State.setOrigin_hctxs (o : Nat × Nat) : (s.setOrigin o).hctxs = s.hctxs := rfl
@[simp] theorem State.setOrigin_hengs (o : Nat × Nat) : (s.setOrigin o).hengs = s.hengs := rfl
@[simp] theorem State.setOrigin_ctxs (o : Nat × Nat) : (s.setOrigin o).ctxs = s.ctxs := rfl
@[simp] theorem State.setOrigin_adm (o : Nat × Nat) : (s.setOrigin o).adm = s.adm := rfl
@[simp] theorem State.setOrigin_admStop (o : Nat × Nat) : (s.setOrigin o).admStop = s.admStop := rfl
@[simp] theorem State.setOrigin_admRes (o : Nat × Nat) : (s.setOrigin o).admRes = s.admRes := rfl
@[simp] theorem State.setOrigin_condIn (o : Nat × Nat) : (s.setOrigin o).condIn = s.condIn := rfl
@[simp] theorem State.setOrigin_hold (o : Nat × Nat) : (s.setOrigin o).hold = s.hold := rfl
@[simp] theorem State.setOrigin_oldWords (o : Nat × Nat) : (s.setOrigin o).oldWords = s.oldWords := rfl
@[simp] theorem State.setOrigin_ovMicro (o : Nat × Nat) : (s.setOrigin o).ovMicro = s.ovMicro := rfl
@[simp] theorem State.setOrigin_ovNano (o : Nat × Nat) : (s.setOrigin o).ovNano = s.ovNano := rfl
@[simp] theorem State.setOrigin_caps (o : Nat × Nat) : (s.setOrigin o).caps = s.caps := rfl
@[simp] theorem State.setOrigin_par (o : Nat × Nat) : (s.setOrigin o).par = s.par := rfl
@[simp] theorem State.setOrigin_flagLog (o : Nat × Nat) : (s.setOrigin o).flagLog = s.flagLog := rfl
@[simp] theorem State.setOrigin_out (o : Nat × Nat) : (s.setOrigin o).out = s.out := rfl
@[simp] theorem State.setOrigin_freeCtr (o : Nat × Nat) : (s.setOrigin o).freeCtr = s.freeCtr := rfl

/-! ### State.setStamper -/

@[simp] theorem State.setStamper_pending (i : Nat) (x : Stamper) : (s.setStamper i x).pending = s.pending := rfl
@[simp] theorem State.setStamper_now (i : Nat) (x : Stamper) : (s.setStamper i x).now = s.now := rfl
@[simp] theorem State.setStamper_solEdge (i : Nat) (x : Stamper) : (s.setStamper i x).solEdge = s.solEdge := rfl
@[simp] theorem State.setStamper_wraps (i : Nat) (x : Stamper) : (s.setStamper i x).wraps = s.wraps := rfl
@[simp] theorem State.setStamper_dev (i : Nat) (x : Stamper) : (s.setStamper i x).dev = s.dev := rfl
@[simp] theorem State.setStamper_porst (i : Nat) (x : Stamper) : (s.setStamper i x).porst = s.porst := rfl
@[simp] theorem State.setStamper_regs (i : Nat) (x : Stamper) : (s.setStamper i x).regs = s.regs := rfl
@[simp] theorem State.setStamper_staged (i : Nat) (x : Stamper) : (s.setStamper i x).staged = s.staged := rfl
@[simp] theorem State.setStamper_tab (i : Nat) (x : Stamper) : (s.setStamper i x).tab = s.tab := rfl
@[simp] theorem State.setStamper_commit (i : Nat) (x : Stamper) : (s.setStamper i x).commit = s.commit := rfl
@[simp] theorem State.setStamper_resetting (i : Nat) (x : Stamper) : (s.setStamper i x).resetting = s.resetting := rfl
@[simp] theorem State.setStamper_stopSrc (i : Nat) (x : Stamper) : (s.setStamper i x).stopSrc = s.stopSrc := rfl
@[simp] theorem State.setStamper_stopOn (i : Nat) (x : Stamper) : (s.setStamper i x).stopOn = s.stopOn := rfl
@[simp] theorem State.setStamper_boot (i : Nat) (x : Stamper) : (s.setStamper i x).boot = s.boot := rfl
@[simp] theorem State.setStamper_nvm (i : Nat) (x : Stamper) : (s.setStamper i x).nvm = s.nvm := rfl
@[simp] theorem State.setStamper_loop (i : Nat) (x : Stamper) : (s.setStamper i x).loop = s.loop := rfl
@[simp] theorem State.setStamper_sol (i : Nat) (x : Stamper) : (s.setStamper i x).sol = s.sol := rfl
@[simp] theorem State.setStamper_par (i : Nat) (x : Stamper) : (s.setStamper i x).par = s.par := rfl
@[simp] theorem State.setStamper_flagLog (i : Nat) (x : Stamper) : (s.setStamper i x).flagLog = s.flagLog := rfl
@[simp] theorem State.setStamper_out (i : Nat) (x : Stamper) : (s.setStamper i x).out = s.out := rfl
@[simp] theorem State.setStamper_freeCtr (i : Nat) (x : Stamper) : (s.setStamper i x).freeCtr = s.freeCtr := rfl
@[simp] theorem State.setStamper_tin (i j : Nat) (x : Stamper) : (s.setStamper i x).tin j = s.tin j := rfl
@[simp] theorem State.setStamper_ref (i j : Nat) (x : Stamper) : (s.setStamper i x).ref j = s.ref j := rfl
@[simp] theorem State.setStamper_cko (i j : Nat) (x : Stamper) : (s.setStamper i x).cko j = s.cko j := rfl
@[simp] theorem State.setStamper_ttl (i j : Nat) (x : Stamper) : (s.setStamper i x).ttl j = s.ttl j := rfl
@[simp] theorem State.setStamper_fwd (i j : Nat) (x : Stamper) : (s.setStamper i x).fwd j = s.fwd j := rfl
@[simp] theorem State.setStamper_mslot (i j : Nat) (x : Stamper) : (s.setStamper i x).mslot j = s.mslot j := rfl
@[simp] theorem State.setStamper_tout (i j : Nat) (x : Stamper) : (s.setStamper i x).tout j = s.tout j := rfl
@[simp] theorem State.setStamper_lane (i j : Nat) (x : Stamper) : (s.setStamper i x).lane j = s.lane j := rfl
@[simp] theorem State.setStamper_tile (i j : Nat) (x : Stamper) : (s.setStamper i x).tile j = s.tile j := rfl
@[simp] theorem State.setStamper_plane (i j : Nat) (x : Stamper) : (s.setStamper i x).plane j = s.plane j := rfl
@[simp] theorem State.setStamper_cor (i j : Nat) (x : Stamper) : (s.setStamper i x).cor j = s.cor j := rfl
@[simp] theorem State.setStamper_hdef (i j : Nat) (x : Stamper) : (s.setStamper i x).hdef j = s.hdef j := rfl
@[simp] theorem State.setStamper_hctx (i j : Nat) (x : Stamper) : (s.setStamper i x).hctx j = s.hctx j := rfl
@[simp] theorem State.setStamper_heng (i j : Nat) (x : Stamper) : (s.setStamper i x).heng j = s.heng j := rfl
@[simp] theorem State.setStamper_ctx (i j : Nat) (x : Stamper) : (s.setStamper i x).ctx j = s.ctx j := rfl
@[simp] theorem State.setStamper_cap (i j : Nat) (x : Stamper) : (s.setStamper i x).cap j = s.cap j := rfl
@[simp] theorem State.setStamper_dmaCh (i j : Nat) (x : Stamper) : (s.setStamper i x).dmaCh j = s.dmaCh j := rfl
@[simp] theorem State.setStamper_same (i : Nat) (x : Stamper) : (s.setStamper i x).stamper i = x := Sparse.get_set_same _ _ _ _
theorem State.setStamper_ne {i j : Nat} (x : Stamper) (h : i ≠ j) : (s.setStamper i x).stamper j = s.stamper j := Sparse.get_set_ne _ _ _ _ h
@[simp] theorem State.setStamper_reg (i a : Nat) (x : Stamper) : (s.setStamper i x).reg a = s.reg a := rfl

/-! ### State.setTin -/

@[simp] theorem State.setTin_pending (i : Nat) (x : Tin) : (s.setTin i x).pending = s.pending := rfl
@[simp] theorem State.setTin_now (i : Nat) (x : Tin) : (s.setTin i x).now = s.now := rfl
@[simp] theorem State.setTin_solEdge (i : Nat) (x : Tin) : (s.setTin i x).solEdge = s.solEdge := rfl
@[simp] theorem State.setTin_wraps (i : Nat) (x : Tin) : (s.setTin i x).wraps = s.wraps := rfl
@[simp] theorem State.setTin_dev (i : Nat) (x : Tin) : (s.setTin i x).dev = s.dev := rfl
@[simp] theorem State.setTin_porst (i : Nat) (x : Tin) : (s.setTin i x).porst = s.porst := rfl
@[simp] theorem State.setTin_regs (i : Nat) (x : Tin) : (s.setTin i x).regs = s.regs := rfl
@[simp] theorem State.setTin_staged (i : Nat) (x : Tin) : (s.setTin i x).staged = s.staged := rfl
@[simp] theorem State.setTin_tab (i : Nat) (x : Tin) : (s.setTin i x).tab = s.tab := rfl
@[simp] theorem State.setTin_commit (i : Nat) (x : Tin) : (s.setTin i x).commit = s.commit := rfl
@[simp] theorem State.setTin_resetting (i : Nat) (x : Tin) : (s.setTin i x).resetting = s.resetting := rfl
@[simp] theorem State.setTin_stopSrc (i : Nat) (x : Tin) : (s.setTin i x).stopSrc = s.stopSrc := rfl
@[simp] theorem State.setTin_stopOn (i : Nat) (x : Tin) : (s.setTin i x).stopOn = s.stopOn := rfl
@[simp] theorem State.setTin_boot (i : Nat) (x : Tin) : (s.setTin i x).boot = s.boot := rfl
@[simp] theorem State.setTin_nvm (i : Nat) (x : Tin) : (s.setTin i x).nvm = s.nvm := rfl
@[simp] theorem State.setTin_loop (i : Nat) (x : Tin) : (s.setTin i x).loop = s.loop := rfl
@[simp] theorem State.setTin_sol (i : Nat) (x : Tin) : (s.setTin i x).sol = s.sol := rfl
@[simp] theorem State.setTin_par (i : Nat) (x : Tin) : (s.setTin i x).par = s.par := rfl
@[simp] theorem State.setTin_flagLog (i : Nat) (x : Tin) : (s.setTin i x).flagLog = s.flagLog := rfl
@[simp] theorem State.setTin_out (i : Nat) (x : Tin) : (s.setTin i x).out = s.out := rfl
@[simp] theorem State.setTin_freeCtr (i : Nat) (x : Tin) : (s.setTin i x).freeCtr = s.freeCtr := rfl
@[simp] theorem State.setTin_stamper (i j : Nat) (x : Tin) : (s.setTin i x).stamper j = s.stamper j := rfl
@[simp] theorem State.setTin_ref (i j : Nat) (x : Tin) : (s.setTin i x).ref j = s.ref j := rfl
@[simp] theorem State.setTin_cko (i j : Nat) (x : Tin) : (s.setTin i x).cko j = s.cko j := rfl
@[simp] theorem State.setTin_ttl (i j : Nat) (x : Tin) : (s.setTin i x).ttl j = s.ttl j := rfl
@[simp] theorem State.setTin_fwd (i j : Nat) (x : Tin) : (s.setTin i x).fwd j = s.fwd j := rfl
@[simp] theorem State.setTin_mslot (i j : Nat) (x : Tin) : (s.setTin i x).mslot j = s.mslot j := rfl
@[simp] theorem State.setTin_tout (i j : Nat) (x : Tin) : (s.setTin i x).tout j = s.tout j := rfl
@[simp] theorem State.setTin_lane (i j : Nat) (x : Tin) : (s.setTin i x).lane j = s.lane j := rfl
@[simp] theorem State.setTin_tile (i j : Nat) (x : Tin) : (s.setTin i x).tile j = s.tile j := rfl
@[simp] theorem State.setTin_plane (i j : Nat) (x : Tin) : (s.setTin i x).plane j = s.plane j := rfl
@[simp] theorem State.setTin_cor (i j : Nat) (x : Tin) : (s.setTin i x).cor j = s.cor j := rfl
@[simp] theorem State.setTin_hdef (i j : Nat) (x : Tin) : (s.setTin i x).hdef j = s.hdef j := rfl
@[simp] theorem State.setTin_hctx (i j : Nat) (x : Tin) : (s.setTin i x).hctx j = s.hctx j := rfl
@[simp] theorem State.setTin_heng (i j : Nat) (x : Tin) : (s.setTin i x).heng j = s.heng j := rfl
@[simp] theorem State.setTin_ctx (i j : Nat) (x : Tin) : (s.setTin i x).ctx j = s.ctx j := rfl
@[simp] theorem State.setTin_cap (i j : Nat) (x : Tin) : (s.setTin i x).cap j = s.cap j := rfl
@[simp] theorem State.setTin_dmaCh (i j : Nat) (x : Tin) : (s.setTin i x).dmaCh j = s.dmaCh j := rfl
@[simp] theorem State.setTin_same (i : Nat) (x : Tin) : (s.setTin i x).tin i = x := Sparse.get_set_same _ _ _ _
theorem State.setTin_ne {i j : Nat} (x : Tin) (h : i ≠ j) : (s.setTin i x).tin j = s.tin j := Sparse.get_set_ne _ _ _ _ h
@[simp] theorem State.setTin_reg (i a : Nat) (x : Tin) : (s.setTin i x).reg a = s.reg a := rfl

/-! ### State.setRef -/

@[simp] theorem State.setRef_pending (i : Nat) (x : Ref) : (s.setRef i x).pending = s.pending := rfl
@[simp] theorem State.setRef_now (i : Nat) (x : Ref) : (s.setRef i x).now = s.now := rfl
@[simp] theorem State.setRef_solEdge (i : Nat) (x : Ref) : (s.setRef i x).solEdge = s.solEdge := rfl
@[simp] theorem State.setRef_wraps (i : Nat) (x : Ref) : (s.setRef i x).wraps = s.wraps := rfl
@[simp] theorem State.setRef_dev (i : Nat) (x : Ref) : (s.setRef i x).dev = s.dev := rfl
@[simp] theorem State.setRef_porst (i : Nat) (x : Ref) : (s.setRef i x).porst = s.porst := rfl
@[simp] theorem State.setRef_regs (i : Nat) (x : Ref) : (s.setRef i x).regs = s.regs := rfl
@[simp] theorem State.setRef_staged (i : Nat) (x : Ref) : (s.setRef i x).staged = s.staged := rfl
@[simp] theorem State.setRef_tab (i : Nat) (x : Ref) : (s.setRef i x).tab = s.tab := rfl
@[simp] theorem State.setRef_commit (i : Nat) (x : Ref) : (s.setRef i x).commit = s.commit := rfl
@[simp] theorem State.setRef_resetting (i : Nat) (x : Ref) : (s.setRef i x).resetting = s.resetting := rfl
@[simp] theorem State.setRef_stopSrc (i : Nat) (x : Ref) : (s.setRef i x).stopSrc = s.stopSrc := rfl
@[simp] theorem State.setRef_stopOn (i : Nat) (x : Ref) : (s.setRef i x).stopOn = s.stopOn := rfl
@[simp] theorem State.setRef_boot (i : Nat) (x : Ref) : (s.setRef i x).boot = s.boot := rfl
@[simp] theorem State.setRef_nvm (i : Nat) (x : Ref) : (s.setRef i x).nvm = s.nvm := rfl
@[simp] theorem State.setRef_loop (i : Nat) (x : Ref) : (s.setRef i x).loop = s.loop := rfl
@[simp] theorem State.setRef_sol (i : Nat) (x : Ref) : (s.setRef i x).sol = s.sol := rfl
@[simp] theorem State.setRef_par (i : Nat) (x : Ref) : (s.setRef i x).par = s.par := rfl
@[simp] theorem State.setRef_flagLog (i : Nat) (x : Ref) : (s.setRef i x).flagLog = s.flagLog := rfl
@[simp] theorem State.setRef_out (i : Nat) (x : Ref) : (s.setRef i x).out = s.out := rfl
@[simp] theorem State.setRef_freeCtr (i : Nat) (x : Ref) : (s.setRef i x).freeCtr = s.freeCtr := rfl
@[simp] theorem State.setRef_stamper (i j : Nat) (x : Ref) : (s.setRef i x).stamper j = s.stamper j := rfl
@[simp] theorem State.setRef_tin (i j : Nat) (x : Ref) : (s.setRef i x).tin j = s.tin j := rfl
@[simp] theorem State.setRef_cko (i j : Nat) (x : Ref) : (s.setRef i x).cko j = s.cko j := rfl
@[simp] theorem State.setRef_ttl (i j : Nat) (x : Ref) : (s.setRef i x).ttl j = s.ttl j := rfl
@[simp] theorem State.setRef_fwd (i j : Nat) (x : Ref) : (s.setRef i x).fwd j = s.fwd j := rfl
@[simp] theorem State.setRef_mslot (i j : Nat) (x : Ref) : (s.setRef i x).mslot j = s.mslot j := rfl
@[simp] theorem State.setRef_tout (i j : Nat) (x : Ref) : (s.setRef i x).tout j = s.tout j := rfl
@[simp] theorem State.setRef_lane (i j : Nat) (x : Ref) : (s.setRef i x).lane j = s.lane j := rfl
@[simp] theorem State.setRef_tile (i j : Nat) (x : Ref) : (s.setRef i x).tile j = s.tile j := rfl
@[simp] theorem State.setRef_plane (i j : Nat) (x : Ref) : (s.setRef i x).plane j = s.plane j := rfl
@[simp] theorem State.setRef_cor (i j : Nat) (x : Ref) : (s.setRef i x).cor j = s.cor j := rfl
@[simp] theorem State.setRef_hdef (i j : Nat) (x : Ref) : (s.setRef i x).hdef j = s.hdef j := rfl
@[simp] theorem State.setRef_hctx (i j : Nat) (x : Ref) : (s.setRef i x).hctx j = s.hctx j := rfl
@[simp] theorem State.setRef_heng (i j : Nat) (x : Ref) : (s.setRef i x).heng j = s.heng j := rfl
@[simp] theorem State.setRef_ctx (i j : Nat) (x : Ref) : (s.setRef i x).ctx j = s.ctx j := rfl
@[simp] theorem State.setRef_cap (i j : Nat) (x : Ref) : (s.setRef i x).cap j = s.cap j := rfl
@[simp] theorem State.setRef_dmaCh (i j : Nat) (x : Ref) : (s.setRef i x).dmaCh j = s.dmaCh j := rfl
@[simp] theorem State.setRef_same (i : Nat) (x : Ref) : (s.setRef i x).ref i = x := Sparse.get_set_same _ _ _ _
theorem State.setRef_ne {i j : Nat} (x : Ref) (h : i ≠ j) : (s.setRef i x).ref j = s.ref j := Sparse.get_set_ne _ _ _ _ h
@[simp] theorem State.setRef_reg (i a : Nat) (x : Ref) : (s.setRef i x).reg a = s.reg a := rfl

/-! ### State.setCko -/

@[simp] theorem State.setCko_pending (i : Nat) (x : Cko) : (s.setCko i x).pending = s.pending := rfl
@[simp] theorem State.setCko_now (i : Nat) (x : Cko) : (s.setCko i x).now = s.now := rfl
@[simp] theorem State.setCko_solEdge (i : Nat) (x : Cko) : (s.setCko i x).solEdge = s.solEdge := rfl
@[simp] theorem State.setCko_wraps (i : Nat) (x : Cko) : (s.setCko i x).wraps = s.wraps := rfl
@[simp] theorem State.setCko_dev (i : Nat) (x : Cko) : (s.setCko i x).dev = s.dev := rfl
@[simp] theorem State.setCko_porst (i : Nat) (x : Cko) : (s.setCko i x).porst = s.porst := rfl
@[simp] theorem State.setCko_regs (i : Nat) (x : Cko) : (s.setCko i x).regs = s.regs := rfl
@[simp] theorem State.setCko_staged (i : Nat) (x : Cko) : (s.setCko i x).staged = s.staged := rfl
@[simp] theorem State.setCko_tab (i : Nat) (x : Cko) : (s.setCko i x).tab = s.tab := rfl
@[simp] theorem State.setCko_commit (i : Nat) (x : Cko) : (s.setCko i x).commit = s.commit := rfl
@[simp] theorem State.setCko_resetting (i : Nat) (x : Cko) : (s.setCko i x).resetting = s.resetting := rfl
@[simp] theorem State.setCko_stopSrc (i : Nat) (x : Cko) : (s.setCko i x).stopSrc = s.stopSrc := rfl
@[simp] theorem State.setCko_stopOn (i : Nat) (x : Cko) : (s.setCko i x).stopOn = s.stopOn := rfl
@[simp] theorem State.setCko_boot (i : Nat) (x : Cko) : (s.setCko i x).boot = s.boot := rfl
@[simp] theorem State.setCko_nvm (i : Nat) (x : Cko) : (s.setCko i x).nvm = s.nvm := rfl
@[simp] theorem State.setCko_loop (i : Nat) (x : Cko) : (s.setCko i x).loop = s.loop := rfl
@[simp] theorem State.setCko_sol (i : Nat) (x : Cko) : (s.setCko i x).sol = s.sol := rfl
@[simp] theorem State.setCko_par (i : Nat) (x : Cko) : (s.setCko i x).par = s.par := rfl
@[simp] theorem State.setCko_flagLog (i : Nat) (x : Cko) : (s.setCko i x).flagLog = s.flagLog := rfl
@[simp] theorem State.setCko_out (i : Nat) (x : Cko) : (s.setCko i x).out = s.out := rfl
@[simp] theorem State.setCko_freeCtr (i : Nat) (x : Cko) : (s.setCko i x).freeCtr = s.freeCtr := rfl
@[simp] theorem State.setCko_stamper (i j : Nat) (x : Cko) : (s.setCko i x).stamper j = s.stamper j := rfl
@[simp] theorem State.setCko_tin (i j : Nat) (x : Cko) : (s.setCko i x).tin j = s.tin j := rfl
@[simp] theorem State.setCko_ref (i j : Nat) (x : Cko) : (s.setCko i x).ref j = s.ref j := rfl
@[simp] theorem State.setCko_ttl (i j : Nat) (x : Cko) : (s.setCko i x).ttl j = s.ttl j := rfl
@[simp] theorem State.setCko_fwd (i j : Nat) (x : Cko) : (s.setCko i x).fwd j = s.fwd j := rfl
@[simp] theorem State.setCko_mslot (i j : Nat) (x : Cko) : (s.setCko i x).mslot j = s.mslot j := rfl
@[simp] theorem State.setCko_tout (i j : Nat) (x : Cko) : (s.setCko i x).tout j = s.tout j := rfl
@[simp] theorem State.setCko_lane (i j : Nat) (x : Cko) : (s.setCko i x).lane j = s.lane j := rfl
@[simp] theorem State.setCko_tile (i j : Nat) (x : Cko) : (s.setCko i x).tile j = s.tile j := rfl
@[simp] theorem State.setCko_plane (i j : Nat) (x : Cko) : (s.setCko i x).plane j = s.plane j := rfl
@[simp] theorem State.setCko_cor (i j : Nat) (x : Cko) : (s.setCko i x).cor j = s.cor j := rfl
@[simp] theorem State.setCko_hdef (i j : Nat) (x : Cko) : (s.setCko i x).hdef j = s.hdef j := rfl
@[simp] theorem State.setCko_hctx (i j : Nat) (x : Cko) : (s.setCko i x).hctx j = s.hctx j := rfl
@[simp] theorem State.setCko_heng (i j : Nat) (x : Cko) : (s.setCko i x).heng j = s.heng j := rfl
@[simp] theorem State.setCko_ctx (i j : Nat) (x : Cko) : (s.setCko i x).ctx j = s.ctx j := rfl
@[simp] theorem State.setCko_cap (i j : Nat) (x : Cko) : (s.setCko i x).cap j = s.cap j := rfl
@[simp] theorem State.setCko_dmaCh (i j : Nat) (x : Cko) : (s.setCko i x).dmaCh j = s.dmaCh j := rfl
@[simp] theorem State.setCko_same (i : Nat) (x : Cko) : (s.setCko i x).cko i = x := Sparse.get_set_same _ _ _ _
theorem State.setCko_ne {i j : Nat} (x : Cko) (h : i ≠ j) : (s.setCko i x).cko j = s.cko j := Sparse.get_set_ne _ _ _ _ h
@[simp] theorem State.setCko_reg (i a : Nat) (x : Cko) : (s.setCko i x).reg a = s.reg a := rfl

/-! ### State.setTtl -/

@[simp] theorem State.setTtl_pending (i : Nat) (x : Ttl) : (s.setTtl i x).pending = s.pending := rfl
@[simp] theorem State.setTtl_now (i : Nat) (x : Ttl) : (s.setTtl i x).now = s.now := rfl
@[simp] theorem State.setTtl_solEdge (i : Nat) (x : Ttl) : (s.setTtl i x).solEdge = s.solEdge := rfl
@[simp] theorem State.setTtl_wraps (i : Nat) (x : Ttl) : (s.setTtl i x).wraps = s.wraps := rfl
@[simp] theorem State.setTtl_dev (i : Nat) (x : Ttl) : (s.setTtl i x).dev = s.dev := rfl
@[simp] theorem State.setTtl_porst (i : Nat) (x : Ttl) : (s.setTtl i x).porst = s.porst := rfl
@[simp] theorem State.setTtl_regs (i : Nat) (x : Ttl) : (s.setTtl i x).regs = s.regs := rfl
@[simp] theorem State.setTtl_staged (i : Nat) (x : Ttl) : (s.setTtl i x).staged = s.staged := rfl
@[simp] theorem State.setTtl_tab (i : Nat) (x : Ttl) : (s.setTtl i x).tab = s.tab := rfl
@[simp] theorem State.setTtl_commit (i : Nat) (x : Ttl) : (s.setTtl i x).commit = s.commit := rfl
@[simp] theorem State.setTtl_resetting (i : Nat) (x : Ttl) : (s.setTtl i x).resetting = s.resetting := rfl
@[simp] theorem State.setTtl_stopSrc (i : Nat) (x : Ttl) : (s.setTtl i x).stopSrc = s.stopSrc := rfl
@[simp] theorem State.setTtl_stopOn (i : Nat) (x : Ttl) : (s.setTtl i x).stopOn = s.stopOn := rfl
@[simp] theorem State.setTtl_boot (i : Nat) (x : Ttl) : (s.setTtl i x).boot = s.boot := rfl
@[simp] theorem State.setTtl_nvm (i : Nat) (x : Ttl) : (s.setTtl i x).nvm = s.nvm := rfl
@[simp] theorem State.setTtl_loop (i : Nat) (x : Ttl) : (s.setTtl i x).loop = s.loop := rfl
@[simp] theorem State.setTtl_sol (i : Nat) (x : Ttl) : (s.setTtl i x).sol = s.sol := rfl
@[simp] theorem State.setTtl_par (i : Nat) (x : Ttl) : (s.setTtl i x).par = s.par := rfl
@[simp] theorem State.setTtl_flagLog (i : Nat) (x : Ttl) : (s.setTtl i x).flagLog = s.flagLog := rfl
@[simp] theorem State.setTtl_out (i : Nat) (x : Ttl) : (s.setTtl i x).out = s.out := rfl
@[simp] theorem State.setTtl_freeCtr (i : Nat) (x : Ttl) : (s.setTtl i x).freeCtr = s.freeCtr := rfl
@[simp] theorem State.setTtl_stamper (i j : Nat) (x : Ttl) : (s.setTtl i x).stamper j = s.stamper j := rfl
@[simp] theorem State.setTtl_tin (i j : Nat) (x : Ttl) : (s.setTtl i x).tin j = s.tin j := rfl
@[simp] theorem State.setTtl_ref (i j : Nat) (x : Ttl) : (s.setTtl i x).ref j = s.ref j := rfl
@[simp] theorem State.setTtl_cko (i j : Nat) (x : Ttl) : (s.setTtl i x).cko j = s.cko j := rfl
@[simp] theorem State.setTtl_fwd (i j : Nat) (x : Ttl) : (s.setTtl i x).fwd j = s.fwd j := rfl
@[simp] theorem State.setTtl_mslot (i j : Nat) (x : Ttl) : (s.setTtl i x).mslot j = s.mslot j := rfl
@[simp] theorem State.setTtl_tout (i j : Nat) (x : Ttl) : (s.setTtl i x).tout j = s.tout j := rfl
@[simp] theorem State.setTtl_lane (i j : Nat) (x : Ttl) : (s.setTtl i x).lane j = s.lane j := rfl
@[simp] theorem State.setTtl_tile (i j : Nat) (x : Ttl) : (s.setTtl i x).tile j = s.tile j := rfl
@[simp] theorem State.setTtl_plane (i j : Nat) (x : Ttl) : (s.setTtl i x).plane j = s.plane j := rfl
@[simp] theorem State.setTtl_cor (i j : Nat) (x : Ttl) : (s.setTtl i x).cor j = s.cor j := rfl
@[simp] theorem State.setTtl_hdef (i j : Nat) (x : Ttl) : (s.setTtl i x).hdef j = s.hdef j := rfl
@[simp] theorem State.setTtl_hctx (i j : Nat) (x : Ttl) : (s.setTtl i x).hctx j = s.hctx j := rfl
@[simp] theorem State.setTtl_heng (i j : Nat) (x : Ttl) : (s.setTtl i x).heng j = s.heng j := rfl
@[simp] theorem State.setTtl_ctx (i j : Nat) (x : Ttl) : (s.setTtl i x).ctx j = s.ctx j := rfl
@[simp] theorem State.setTtl_cap (i j : Nat) (x : Ttl) : (s.setTtl i x).cap j = s.cap j := rfl
@[simp] theorem State.setTtl_dmaCh (i j : Nat) (x : Ttl) : (s.setTtl i x).dmaCh j = s.dmaCh j := rfl
@[simp] theorem State.setTtl_same (i : Nat) (x : Ttl) : (s.setTtl i x).ttl i = x := Sparse.get_set_same _ _ _ _
theorem State.setTtl_ne {i j : Nat} (x : Ttl) (h : i ≠ j) : (s.setTtl i x).ttl j = s.ttl j := Sparse.get_set_ne _ _ _ _ h
@[simp] theorem State.setTtl_reg (i a : Nat) (x : Ttl) : (s.setTtl i x).reg a = s.reg a := rfl

/-! ### State.setFwd -/

@[simp] theorem State.setFwd_pending (i : Nat) (x : Fwd) : (s.setFwd i x).pending = s.pending := rfl
@[simp] theorem State.setFwd_now (i : Nat) (x : Fwd) : (s.setFwd i x).now = s.now := rfl
@[simp] theorem State.setFwd_solEdge (i : Nat) (x : Fwd) : (s.setFwd i x).solEdge = s.solEdge := rfl
@[simp] theorem State.setFwd_wraps (i : Nat) (x : Fwd) : (s.setFwd i x).wraps = s.wraps := rfl
@[simp] theorem State.setFwd_dev (i : Nat) (x : Fwd) : (s.setFwd i x).dev = s.dev := rfl
@[simp] theorem State.setFwd_porst (i : Nat) (x : Fwd) : (s.setFwd i x).porst = s.porst := rfl
@[simp] theorem State.setFwd_regs (i : Nat) (x : Fwd) : (s.setFwd i x).regs = s.regs := rfl
@[simp] theorem State.setFwd_staged (i : Nat) (x : Fwd) : (s.setFwd i x).staged = s.staged := rfl
@[simp] theorem State.setFwd_tab (i : Nat) (x : Fwd) : (s.setFwd i x).tab = s.tab := rfl
@[simp] theorem State.setFwd_commit (i : Nat) (x : Fwd) : (s.setFwd i x).commit = s.commit := rfl
@[simp] theorem State.setFwd_resetting (i : Nat) (x : Fwd) : (s.setFwd i x).resetting = s.resetting := rfl
@[simp] theorem State.setFwd_stopSrc (i : Nat) (x : Fwd) : (s.setFwd i x).stopSrc = s.stopSrc := rfl
@[simp] theorem State.setFwd_stopOn (i : Nat) (x : Fwd) : (s.setFwd i x).stopOn = s.stopOn := rfl
@[simp] theorem State.setFwd_boot (i : Nat) (x : Fwd) : (s.setFwd i x).boot = s.boot := rfl
@[simp] theorem State.setFwd_nvm (i : Nat) (x : Fwd) : (s.setFwd i x).nvm = s.nvm := rfl
@[simp] theorem State.setFwd_loop (i : Nat) (x : Fwd) : (s.setFwd i x).loop = s.loop := rfl
@[simp] theorem State.setFwd_sol (i : Nat) (x : Fwd) : (s.setFwd i x).sol = s.sol := rfl
@[simp] theorem State.setFwd_par (i : Nat) (x : Fwd) : (s.setFwd i x).par = s.par := rfl
@[simp] theorem State.setFwd_flagLog (i : Nat) (x : Fwd) : (s.setFwd i x).flagLog = s.flagLog := rfl
@[simp] theorem State.setFwd_out (i : Nat) (x : Fwd) : (s.setFwd i x).out = s.out := rfl
@[simp] theorem State.setFwd_freeCtr (i : Nat) (x : Fwd) : (s.setFwd i x).freeCtr = s.freeCtr := rfl
@[simp] theorem State.setFwd_stamper (i j : Nat) (x : Fwd) : (s.setFwd i x).stamper j = s.stamper j := rfl
@[simp] theorem State.setFwd_tin (i j : Nat) (x : Fwd) : (s.setFwd i x).tin j = s.tin j := rfl
@[simp] theorem State.setFwd_ref (i j : Nat) (x : Fwd) : (s.setFwd i x).ref j = s.ref j := rfl
@[simp] theorem State.setFwd_cko (i j : Nat) (x : Fwd) : (s.setFwd i x).cko j = s.cko j := rfl
@[simp] theorem State.setFwd_ttl (i j : Nat) (x : Fwd) : (s.setFwd i x).ttl j = s.ttl j := rfl
@[simp] theorem State.setFwd_mslot (i j : Nat) (x : Fwd) : (s.setFwd i x).mslot j = s.mslot j := rfl
@[simp] theorem State.setFwd_tout (i j : Nat) (x : Fwd) : (s.setFwd i x).tout j = s.tout j := rfl
@[simp] theorem State.setFwd_lane (i j : Nat) (x : Fwd) : (s.setFwd i x).lane j = s.lane j := rfl
@[simp] theorem State.setFwd_tile (i j : Nat) (x : Fwd) : (s.setFwd i x).tile j = s.tile j := rfl
@[simp] theorem State.setFwd_plane (i j : Nat) (x : Fwd) : (s.setFwd i x).plane j = s.plane j := rfl
@[simp] theorem State.setFwd_cor (i j : Nat) (x : Fwd) : (s.setFwd i x).cor j = s.cor j := rfl
@[simp] theorem State.setFwd_hdef (i j : Nat) (x : Fwd) : (s.setFwd i x).hdef j = s.hdef j := rfl
@[simp] theorem State.setFwd_hctx (i j : Nat) (x : Fwd) : (s.setFwd i x).hctx j = s.hctx j := rfl
@[simp] theorem State.setFwd_heng (i j : Nat) (x : Fwd) : (s.setFwd i x).heng j = s.heng j := rfl
@[simp] theorem State.setFwd_ctx (i j : Nat) (x : Fwd) : (s.setFwd i x).ctx j = s.ctx j := rfl
@[simp] theorem State.setFwd_cap (i j : Nat) (x : Fwd) : (s.setFwd i x).cap j = s.cap j := rfl
@[simp] theorem State.setFwd_dmaCh (i j : Nat) (x : Fwd) : (s.setFwd i x).dmaCh j = s.dmaCh j := rfl
@[simp] theorem State.setFwd_same (i : Nat) (x : Fwd) : (s.setFwd i x).fwd i = x := Sparse.get_set_same _ _ _ _
theorem State.setFwd_ne {i j : Nat} (x : Fwd) (h : i ≠ j) : (s.setFwd i x).fwd j = s.fwd j := Sparse.get_set_ne _ _ _ _ h
@[simp] theorem State.setFwd_reg (i a : Nat) (x : Fwd) : (s.setFwd i x).reg a = s.reg a := rfl

/-! ### State.setMslot -/

@[simp] theorem State.setMslot_pending (i : Nat) (x : MSlot) : (s.setMslot i x).pending = s.pending := rfl
@[simp] theorem State.setMslot_now (i : Nat) (x : MSlot) : (s.setMslot i x).now = s.now := rfl
@[simp] theorem State.setMslot_solEdge (i : Nat) (x : MSlot) : (s.setMslot i x).solEdge = s.solEdge := rfl
@[simp] theorem State.setMslot_wraps (i : Nat) (x : MSlot) : (s.setMslot i x).wraps = s.wraps := rfl
@[simp] theorem State.setMslot_dev (i : Nat) (x : MSlot) : (s.setMslot i x).dev = s.dev := rfl
@[simp] theorem State.setMslot_porst (i : Nat) (x : MSlot) : (s.setMslot i x).porst = s.porst := rfl
@[simp] theorem State.setMslot_regs (i : Nat) (x : MSlot) : (s.setMslot i x).regs = s.regs := rfl
@[simp] theorem State.setMslot_staged (i : Nat) (x : MSlot) : (s.setMslot i x).staged = s.staged := rfl
@[simp] theorem State.setMslot_tab (i : Nat) (x : MSlot) : (s.setMslot i x).tab = s.tab := rfl
@[simp] theorem State.setMslot_commit (i : Nat) (x : MSlot) : (s.setMslot i x).commit = s.commit := rfl
@[simp] theorem State.setMslot_resetting (i : Nat) (x : MSlot) : (s.setMslot i x).resetting = s.resetting := rfl
@[simp] theorem State.setMslot_stopSrc (i : Nat) (x : MSlot) : (s.setMslot i x).stopSrc = s.stopSrc := rfl
@[simp] theorem State.setMslot_stopOn (i : Nat) (x : MSlot) : (s.setMslot i x).stopOn = s.stopOn := rfl
@[simp] theorem State.setMslot_boot (i : Nat) (x : MSlot) : (s.setMslot i x).boot = s.boot := rfl
@[simp] theorem State.setMslot_nvm (i : Nat) (x : MSlot) : (s.setMslot i x).nvm = s.nvm := rfl
@[simp] theorem State.setMslot_loop (i : Nat) (x : MSlot) : (s.setMslot i x).loop = s.loop := rfl
@[simp] theorem State.setMslot_sol (i : Nat) (x : MSlot) : (s.setMslot i x).sol = s.sol := rfl
@[simp] theorem State.setMslot_par (i : Nat) (x : MSlot) : (s.setMslot i x).par = s.par := rfl
@[simp] theorem State.setMslot_flagLog (i : Nat) (x : MSlot) : (s.setMslot i x).flagLog = s.flagLog := rfl
@[simp] theorem State.setMslot_out (i : Nat) (x : MSlot) : (s.setMslot i x).out = s.out := rfl
@[simp] theorem State.setMslot_freeCtr (i : Nat) (x : MSlot) : (s.setMslot i x).freeCtr = s.freeCtr := rfl
@[simp] theorem State.setMslot_stamper (i j : Nat) (x : MSlot) : (s.setMslot i x).stamper j = s.stamper j := rfl
@[simp] theorem State.setMslot_tin (i j : Nat) (x : MSlot) : (s.setMslot i x).tin j = s.tin j := rfl
@[simp] theorem State.setMslot_ref (i j : Nat) (x : MSlot) : (s.setMslot i x).ref j = s.ref j := rfl
@[simp] theorem State.setMslot_cko (i j : Nat) (x : MSlot) : (s.setMslot i x).cko j = s.cko j := rfl
@[simp] theorem State.setMslot_ttl (i j : Nat) (x : MSlot) : (s.setMslot i x).ttl j = s.ttl j := rfl
@[simp] theorem State.setMslot_fwd (i j : Nat) (x : MSlot) : (s.setMslot i x).fwd j = s.fwd j := rfl
@[simp] theorem State.setMslot_tout (i j : Nat) (x : MSlot) : (s.setMslot i x).tout j = s.tout j := rfl
@[simp] theorem State.setMslot_lane (i j : Nat) (x : MSlot) : (s.setMslot i x).lane j = s.lane j := rfl
@[simp] theorem State.setMslot_tile (i j : Nat) (x : MSlot) : (s.setMslot i x).tile j = s.tile j := rfl
@[simp] theorem State.setMslot_plane (i j : Nat) (x : MSlot) : (s.setMslot i x).plane j = s.plane j := rfl
@[simp] theorem State.setMslot_cor (i j : Nat) (x : MSlot) : (s.setMslot i x).cor j = s.cor j := rfl
@[simp] theorem State.setMslot_hdef (i j : Nat) (x : MSlot) : (s.setMslot i x).hdef j = s.hdef j := rfl
@[simp] theorem State.setMslot_hctx (i j : Nat) (x : MSlot) : (s.setMslot i x).hctx j = s.hctx j := rfl
@[simp] theorem State.setMslot_heng (i j : Nat) (x : MSlot) : (s.setMslot i x).heng j = s.heng j := rfl
@[simp] theorem State.setMslot_ctx (i j : Nat) (x : MSlot) : (s.setMslot i x).ctx j = s.ctx j := rfl
@[simp] theorem State.setMslot_cap (i j : Nat) (x : MSlot) : (s.setMslot i x).cap j = s.cap j := rfl
@[simp] theorem State.setMslot_dmaCh (i j : Nat) (x : MSlot) : (s.setMslot i x).dmaCh j = s.dmaCh j := rfl
@[simp] theorem State.setMslot_same (i : Nat) (x : MSlot) : (s.setMslot i x).mslot i = x := Sparse.get_set_same _ _ _ _
theorem State.setMslot_ne {i j : Nat} (x : MSlot) (h : i ≠ j) : (s.setMslot i x).mslot j = s.mslot j := Sparse.get_set_ne _ _ _ _ h
@[simp] theorem State.setMslot_reg (i a : Nat) (x : MSlot) : (s.setMslot i x).reg a = s.reg a := rfl

/-! ### State.setTout -/

@[simp] theorem State.setTout_pending (i : Nat) (x : Tout) : (s.setTout i x).pending = s.pending := rfl
@[simp] theorem State.setTout_now (i : Nat) (x : Tout) : (s.setTout i x).now = s.now := rfl
@[simp] theorem State.setTout_solEdge (i : Nat) (x : Tout) : (s.setTout i x).solEdge = s.solEdge := rfl
@[simp] theorem State.setTout_wraps (i : Nat) (x : Tout) : (s.setTout i x).wraps = s.wraps := rfl
@[simp] theorem State.setTout_dev (i : Nat) (x : Tout) : (s.setTout i x).dev = s.dev := rfl
@[simp] theorem State.setTout_porst (i : Nat) (x : Tout) : (s.setTout i x).porst = s.porst := rfl
@[simp] theorem State.setTout_regs (i : Nat) (x : Tout) : (s.setTout i x).regs = s.regs := rfl
@[simp] theorem State.setTout_staged (i : Nat) (x : Tout) : (s.setTout i x).staged = s.staged := rfl
@[simp] theorem State.setTout_tab (i : Nat) (x : Tout) : (s.setTout i x).tab = s.tab := rfl
@[simp] theorem State.setTout_commit (i : Nat) (x : Tout) : (s.setTout i x).commit = s.commit := rfl
@[simp] theorem State.setTout_resetting (i : Nat) (x : Tout) : (s.setTout i x).resetting = s.resetting := rfl
@[simp] theorem State.setTout_stopSrc (i : Nat) (x : Tout) : (s.setTout i x).stopSrc = s.stopSrc := rfl
@[simp] theorem State.setTout_stopOn (i : Nat) (x : Tout) : (s.setTout i x).stopOn = s.stopOn := rfl
@[simp] theorem State.setTout_boot (i : Nat) (x : Tout) : (s.setTout i x).boot = s.boot := rfl
@[simp] theorem State.setTout_nvm (i : Nat) (x : Tout) : (s.setTout i x).nvm = s.nvm := rfl
@[simp] theorem State.setTout_loop (i : Nat) (x : Tout) : (s.setTout i x).loop = s.loop := rfl
@[simp] theorem State.setTout_sol (i : Nat) (x : Tout) : (s.setTout i x).sol = s.sol := rfl
@[simp] theorem State.setTout_par (i : Nat) (x : Tout) : (s.setTout i x).par = s.par := rfl
@[simp] theorem State.setTout_flagLog (i : Nat) (x : Tout) : (s.setTout i x).flagLog = s.flagLog := rfl
@[simp] theorem State.setTout_out (i : Nat) (x : Tout) : (s.setTout i x).out = s.out := rfl
@[simp] theorem State.setTout_freeCtr (i : Nat) (x : Tout) : (s.setTout i x).freeCtr = s.freeCtr := rfl
@[simp] theorem State.setTout_stamper (i j : Nat) (x : Tout) : (s.setTout i x).stamper j = s.stamper j := rfl
@[simp] theorem State.setTout_tin (i j : Nat) (x : Tout) : (s.setTout i x).tin j = s.tin j := rfl
@[simp] theorem State.setTout_ref (i j : Nat) (x : Tout) : (s.setTout i x).ref j = s.ref j := rfl
@[simp] theorem State.setTout_cko (i j : Nat) (x : Tout) : (s.setTout i x).cko j = s.cko j := rfl
@[simp] theorem State.setTout_ttl (i j : Nat) (x : Tout) : (s.setTout i x).ttl j = s.ttl j := rfl
@[simp] theorem State.setTout_fwd (i j : Nat) (x : Tout) : (s.setTout i x).fwd j = s.fwd j := rfl
@[simp] theorem State.setTout_mslot (i j : Nat) (x : Tout) : (s.setTout i x).mslot j = s.mslot j := rfl
@[simp] theorem State.setTout_lane (i j : Nat) (x : Tout) : (s.setTout i x).lane j = s.lane j := rfl
@[simp] theorem State.setTout_tile (i j : Nat) (x : Tout) : (s.setTout i x).tile j = s.tile j := rfl
@[simp] theorem State.setTout_plane (i j : Nat) (x : Tout) : (s.setTout i x).plane j = s.plane j := rfl
@[simp] theorem State.setTout_cor (i j : Nat) (x : Tout) : (s.setTout i x).cor j = s.cor j := rfl
@[simp] theorem State.setTout_hdef (i j : Nat) (x : Tout) : (s.setTout i x).hdef j = s.hdef j := rfl
@[simp] theorem State.setTout_hctx (i j : Nat) (x : Tout) : (s.setTout i x).hctx j = s.hctx j := rfl
@[simp] theorem State.setTout_heng (i j : Nat) (x : Tout) : (s.setTout i x).heng j = s.heng j := rfl
@[simp] theorem State.setTout_ctx (i j : Nat) (x : Tout) : (s.setTout i x).ctx j = s.ctx j := rfl
@[simp] theorem State.setTout_cap (i j : Nat) (x : Tout) : (s.setTout i x).cap j = s.cap j := rfl
@[simp] theorem State.setTout_dmaCh (i j : Nat) (x : Tout) : (s.setTout i x).dmaCh j = s.dmaCh j := rfl
@[simp] theorem State.setTout_same (i : Nat) (x : Tout) : (s.setTout i x).tout i = x := Sparse.get_set_same _ _ _ _
theorem State.setTout_ne {i j : Nat} (x : Tout) (h : i ≠ j) : (s.setTout i x).tout j = s.tout j := Sparse.get_set_ne _ _ _ _ h
@[simp] theorem State.setTout_reg (i a : Nat) (x : Tout) : (s.setTout i x).reg a = s.reg a := rfl

/-! ### State.setLane -/

@[simp] theorem State.setLane_pending (i : Nat) (x : Lane) : (s.setLane i x).pending = s.pending := rfl
@[simp] theorem State.setLane_now (i : Nat) (x : Lane) : (s.setLane i x).now = s.now := rfl
@[simp] theorem State.setLane_solEdge (i : Nat) (x : Lane) : (s.setLane i x).solEdge = s.solEdge := rfl
@[simp] theorem State.setLane_wraps (i : Nat) (x : Lane) : (s.setLane i x).wraps = s.wraps := rfl
@[simp] theorem State.setLane_dev (i : Nat) (x : Lane) : (s.setLane i x).dev = s.dev := rfl
@[simp] theorem State.setLane_porst (i : Nat) (x : Lane) : (s.setLane i x).porst = s.porst := rfl
@[simp] theorem State.setLane_regs (i : Nat) (x : Lane) : (s.setLane i x).regs = s.regs := rfl
@[simp] theorem State.setLane_staged (i : Nat) (x : Lane) : (s.setLane i x).staged = s.staged := rfl
@[simp] theorem State.setLane_tab (i : Nat) (x : Lane) : (s.setLane i x).tab = s.tab := rfl
@[simp] theorem State.setLane_commit (i : Nat) (x : Lane) : (s.setLane i x).commit = s.commit := rfl
@[simp] theorem State.setLane_resetting (i : Nat) (x : Lane) : (s.setLane i x).resetting = s.resetting := rfl
@[simp] theorem State.setLane_stopSrc (i : Nat) (x : Lane) : (s.setLane i x).stopSrc = s.stopSrc := rfl
@[simp] theorem State.setLane_stopOn (i : Nat) (x : Lane) : (s.setLane i x).stopOn = s.stopOn := rfl
@[simp] theorem State.setLane_boot (i : Nat) (x : Lane) : (s.setLane i x).boot = s.boot := rfl
@[simp] theorem State.setLane_nvm (i : Nat) (x : Lane) : (s.setLane i x).nvm = s.nvm := rfl
@[simp] theorem State.setLane_loop (i : Nat) (x : Lane) : (s.setLane i x).loop = s.loop := rfl
@[simp] theorem State.setLane_sol (i : Nat) (x : Lane) : (s.setLane i x).sol = s.sol := rfl
@[simp] theorem State.setLane_par (i : Nat) (x : Lane) : (s.setLane i x).par = s.par := rfl
@[simp] theorem State.setLane_flagLog (i : Nat) (x : Lane) : (s.setLane i x).flagLog = s.flagLog := rfl
@[simp] theorem State.setLane_out (i : Nat) (x : Lane) : (s.setLane i x).out = s.out := rfl
@[simp] theorem State.setLane_freeCtr (i : Nat) (x : Lane) : (s.setLane i x).freeCtr = s.freeCtr := rfl
@[simp] theorem State.setLane_stamper (i j : Nat) (x : Lane) : (s.setLane i x).stamper j = s.stamper j := rfl
@[simp] theorem State.setLane_tin (i j : Nat) (x : Lane) : (s.setLane i x).tin j = s.tin j := rfl
@[simp] theorem State.setLane_ref (i j : Nat) (x : Lane) : (s.setLane i x).ref j = s.ref j := rfl
@[simp] theorem State.setLane_cko (i j : Nat) (x : Lane) : (s.setLane i x).cko j = s.cko j := rfl
@[simp] theorem State.setLane_ttl (i j : Nat) (x : Lane) : (s.setLane i x).ttl j = s.ttl j := rfl
@[simp] theorem State.setLane_fwd (i j : Nat) (x : Lane) : (s.setLane i x).fwd j = s.fwd j := rfl
@[simp] theorem State.setLane_mslot (i j : Nat) (x : Lane) : (s.setLane i x).mslot j = s.mslot j := rfl
@[simp] theorem State.setLane_tout (i j : Nat) (x : Lane) : (s.setLane i x).tout j = s.tout j := rfl
@[simp] theorem State.setLane_tile (i j : Nat) (x : Lane) : (s.setLane i x).tile j = s.tile j := rfl
@[simp] theorem State.setLane_plane (i j : Nat) (x : Lane) : (s.setLane i x).plane j = s.plane j := rfl
@[simp] theorem State.setLane_cor (i j : Nat) (x : Lane) : (s.setLane i x).cor j = s.cor j := rfl
@[simp] theorem State.setLane_hdef (i j : Nat) (x : Lane) : (s.setLane i x).hdef j = s.hdef j := rfl
@[simp] theorem State.setLane_hctx (i j : Nat) (x : Lane) : (s.setLane i x).hctx j = s.hctx j := rfl
@[simp] theorem State.setLane_heng (i j : Nat) (x : Lane) : (s.setLane i x).heng j = s.heng j := rfl
@[simp] theorem State.setLane_ctx (i j : Nat) (x : Lane) : (s.setLane i x).ctx j = s.ctx j := rfl
@[simp] theorem State.setLane_cap (i j : Nat) (x : Lane) : (s.setLane i x).cap j = s.cap j := rfl
@[simp] theorem State.setLane_dmaCh (i j : Nat) (x : Lane) : (s.setLane i x).dmaCh j = s.dmaCh j := rfl
@[simp] theorem State.setLane_same (i : Nat) (x : Lane) : (s.setLane i x).lane i = x := Sparse.get_set_same _ _ _ _
theorem State.setLane_ne {i j : Nat} (x : Lane) (h : i ≠ j) : (s.setLane i x).lane j = s.lane j := Sparse.get_set_ne _ _ _ _ h
@[simp] theorem State.setLane_reg (i a : Nat) (x : Lane) : (s.setLane i x).reg a = s.reg a := rfl

/-! ### State.setTile -/

@[simp] theorem State.setTile_pending (i : Nat) (x : Tile) : (s.setTile i x).pending = s.pending := rfl
@[simp] theorem State.setTile_now (i : Nat) (x : Tile) : (s.setTile i x).now = s.now := rfl
@[simp] theorem State.setTile_solEdge (i : Nat) (x : Tile) : (s.setTile i x).solEdge = s.solEdge := rfl
@[simp] theorem State.setTile_wraps (i : Nat) (x : Tile) : (s.setTile i x).wraps = s.wraps := rfl
@[simp] theorem State.setTile_dev (i : Nat) (x : Tile) : (s.setTile i x).dev = s.dev := rfl
@[simp] theorem State.setTile_porst (i : Nat) (x : Tile) : (s.setTile i x).porst = s.porst := rfl
@[simp] theorem State.setTile_regs (i : Nat) (x : Tile) : (s.setTile i x).regs = s.regs := rfl
@[simp] theorem State.setTile_staged (i : Nat) (x : Tile) : (s.setTile i x).staged = s.staged := rfl
@[simp] theorem State.setTile_tab (i : Nat) (x : Tile) : (s.setTile i x).tab = s.tab := rfl
@[simp] theorem State.setTile_commit (i : Nat) (x : Tile) : (s.setTile i x).commit = s.commit := rfl
@[simp] theorem State.setTile_resetting (i : Nat) (x : Tile) : (s.setTile i x).resetting = s.resetting := rfl
@[simp] theorem State.setTile_stopSrc (i : Nat) (x : Tile) : (s.setTile i x).stopSrc = s.stopSrc := rfl
@[simp] theorem State.setTile_stopOn (i : Nat) (x : Tile) : (s.setTile i x).stopOn = s.stopOn := rfl
@[simp] theorem State.setTile_boot (i : Nat) (x : Tile) : (s.setTile i x).boot = s.boot := rfl
@[simp] theorem State.setTile_nvm (i : Nat) (x : Tile) : (s.setTile i x).nvm = s.nvm := rfl
@[simp] theorem State.setTile_loop (i : Nat) (x : Tile) : (s.setTile i x).loop = s.loop := rfl
@[simp] theorem State.setTile_sol (i : Nat) (x : Tile) : (s.setTile i x).sol = s.sol := rfl
@[simp] theorem State.setTile_par (i : Nat) (x : Tile) : (s.setTile i x).par = s.par := rfl
@[simp] theorem State.setTile_flagLog (i : Nat) (x : Tile) : (s.setTile i x).flagLog = s.flagLog := rfl
@[simp] theorem State.setTile_out (i : Nat) (x : Tile) : (s.setTile i x).out = s.out := rfl
@[simp] theorem State.setTile_freeCtr (i : Nat) (x : Tile) : (s.setTile i x).freeCtr = s.freeCtr := rfl
@[simp] theorem State.setTile_stamper (i j : Nat) (x : Tile) : (s.setTile i x).stamper j = s.stamper j := rfl
@[simp] theorem State.setTile_tin (i j : Nat) (x : Tile) : (s.setTile i x).tin j = s.tin j := rfl
@[simp] theorem State.setTile_ref (i j : Nat) (x : Tile) : (s.setTile i x).ref j = s.ref j := rfl
@[simp] theorem State.setTile_cko (i j : Nat) (x : Tile) : (s.setTile i x).cko j = s.cko j := rfl
@[simp] theorem State.setTile_ttl (i j : Nat) (x : Tile) : (s.setTile i x).ttl j = s.ttl j := rfl
@[simp] theorem State.setTile_fwd (i j : Nat) (x : Tile) : (s.setTile i x).fwd j = s.fwd j := rfl
@[simp] theorem State.setTile_mslot (i j : Nat) (x : Tile) : (s.setTile i x).mslot j = s.mslot j := rfl
@[simp] theorem State.setTile_tout (i j : Nat) (x : Tile) : (s.setTile i x).tout j = s.tout j := rfl
@[simp] theorem State.setTile_lane (i j : Nat) (x : Tile) : (s.setTile i x).lane j = s.lane j := rfl
@[simp] theorem State.setTile_plane (i j : Nat) (x : Tile) : (s.setTile i x).plane j = s.plane j := rfl
@[simp] theorem State.setTile_cor (i j : Nat) (x : Tile) : (s.setTile i x).cor j = s.cor j := rfl
@[simp] theorem State.setTile_hdef (i j : Nat) (x : Tile) : (s.setTile i x).hdef j = s.hdef j := rfl
@[simp] theorem State.setTile_hctx (i j : Nat) (x : Tile) : (s.setTile i x).hctx j = s.hctx j := rfl
@[simp] theorem State.setTile_heng (i j : Nat) (x : Tile) : (s.setTile i x).heng j = s.heng j := rfl
@[simp] theorem State.setTile_ctx (i j : Nat) (x : Tile) : (s.setTile i x).ctx j = s.ctx j := rfl
@[simp] theorem State.setTile_cap (i j : Nat) (x : Tile) : (s.setTile i x).cap j = s.cap j := rfl
@[simp] theorem State.setTile_dmaCh (i j : Nat) (x : Tile) : (s.setTile i x).dmaCh j = s.dmaCh j := rfl
@[simp] theorem State.setTile_same (i : Nat) (x : Tile) : (s.setTile i x).tile i = x := Sparse.get_set_same _ _ _ _
theorem State.setTile_ne {i j : Nat} (x : Tile) (h : i ≠ j) : (s.setTile i x).tile j = s.tile j := Sparse.get_set_ne _ _ _ _ h
@[simp] theorem State.setTile_reg (i a : Nat) (x : Tile) : (s.setTile i x).reg a = s.reg a := rfl

/-! ### State.setPlane -/

@[simp] theorem State.setPlane_pending (i : Nat) (x : Plane) : (s.setPlane i x).pending = s.pending := rfl
@[simp] theorem State.setPlane_now (i : Nat) (x : Plane) : (s.setPlane i x).now = s.now := rfl
@[simp] theorem State.setPlane_solEdge (i : Nat) (x : Plane) : (s.setPlane i x).solEdge = s.solEdge := rfl
@[simp] theorem State.setPlane_wraps (i : Nat) (x : Plane) : (s.setPlane i x).wraps = s.wraps := rfl
@[simp] theorem State.setPlane_dev (i : Nat) (x : Plane) : (s.setPlane i x).dev = s.dev := rfl
@[simp] theorem State.setPlane_porst (i : Nat) (x : Plane) : (s.setPlane i x).porst = s.porst := rfl
@[simp] theorem State.setPlane_regs (i : Nat) (x : Plane) : (s.setPlane i x).regs = s.regs := rfl
@[simp] theorem State.setPlane_staged (i : Nat) (x : Plane) : (s.setPlane i x).staged = s.staged := rfl
@[simp] theorem State.setPlane_tab (i : Nat) (x : Plane) : (s.setPlane i x).tab = s.tab := rfl
@[simp] theorem State.setPlane_commit (i : Nat) (x : Plane) : (s.setPlane i x).commit = s.commit := rfl
@[simp] theorem State.setPlane_resetting (i : Nat) (x : Plane) : (s.setPlane i x).resetting = s.resetting := rfl
@[simp] theorem State.setPlane_stopSrc (i : Nat) (x : Plane) : (s.setPlane i x).stopSrc = s.stopSrc := rfl
@[simp] theorem State.setPlane_stopOn (i : Nat) (x : Plane) : (s.setPlane i x).stopOn = s.stopOn := rfl
@[simp] theorem State.setPlane_boot (i : Nat) (x : Plane) : (s.setPlane i x).boot = s.boot := rfl
@[simp] theorem State.setPlane_nvm (i : Nat) (x : Plane) : (s.setPlane i x).nvm = s.nvm := rfl
@[simp] theorem State.setPlane_loop (i : Nat) (x : Plane) : (s.setPlane i x).loop = s.loop := rfl
@[simp] theorem State.setPlane_sol (i : Nat) (x : Plane) : (s.setPlane i x).sol = s.sol := rfl
@[simp] theorem State.setPlane_par (i : Nat) (x : Plane) : (s.setPlane i x).par = s.par := rfl
@[simp] theorem State.setPlane_flagLog (i : Nat) (x : Plane) : (s.setPlane i x).flagLog = s.flagLog := rfl
@[simp] theorem State.setPlane_out (i : Nat) (x : Plane) : (s.setPlane i x).out = s.out := rfl
@[simp] theorem State.setPlane_freeCtr (i : Nat) (x : Plane) : (s.setPlane i x).freeCtr = s.freeCtr := rfl
@[simp] theorem State.setPlane_stamper (i j : Nat) (x : Plane) : (s.setPlane i x).stamper j = s.stamper j := rfl
@[simp] theorem State.setPlane_tin (i j : Nat) (x : Plane) : (s.setPlane i x).tin j = s.tin j := rfl
@[simp] theorem State.setPlane_ref (i j : Nat) (x : Plane) : (s.setPlane i x).ref j = s.ref j := rfl
@[simp] theorem State.setPlane_cko (i j : Nat) (x : Plane) : (s.setPlane i x).cko j = s.cko j := rfl
@[simp] theorem State.setPlane_ttl (i j : Nat) (x : Plane) : (s.setPlane i x).ttl j = s.ttl j := rfl
@[simp] theorem State.setPlane_fwd (i j : Nat) (x : Plane) : (s.setPlane i x).fwd j = s.fwd j := rfl
@[simp] theorem State.setPlane_mslot (i j : Nat) (x : Plane) : (s.setPlane i x).mslot j = s.mslot j := rfl
@[simp] theorem State.setPlane_tout (i j : Nat) (x : Plane) : (s.setPlane i x).tout j = s.tout j := rfl
@[simp] theorem State.setPlane_lane (i j : Nat) (x : Plane) : (s.setPlane i x).lane j = s.lane j := rfl
@[simp] theorem State.setPlane_tile (i j : Nat) (x : Plane) : (s.setPlane i x).tile j = s.tile j := rfl
@[simp] theorem State.setPlane_cor (i j : Nat) (x : Plane) : (s.setPlane i x).cor j = s.cor j := rfl
@[simp] theorem State.setPlane_hdef (i j : Nat) (x : Plane) : (s.setPlane i x).hdef j = s.hdef j := rfl
@[simp] theorem State.setPlane_hctx (i j : Nat) (x : Plane) : (s.setPlane i x).hctx j = s.hctx j := rfl
@[simp] theorem State.setPlane_heng (i j : Nat) (x : Plane) : (s.setPlane i x).heng j = s.heng j := rfl
@[simp] theorem State.setPlane_ctx (i j : Nat) (x : Plane) : (s.setPlane i x).ctx j = s.ctx j := rfl
@[simp] theorem State.setPlane_cap (i j : Nat) (x : Plane) : (s.setPlane i x).cap j = s.cap j := rfl
@[simp] theorem State.setPlane_dmaCh (i j : Nat) (x : Plane) : (s.setPlane i x).dmaCh j = s.dmaCh j := rfl
@[simp] theorem State.setPlane_same (i : Nat) (x : Plane) : (s.setPlane i x).plane i = x := Sparse.get_set_same _ _ _ _
theorem State.setPlane_ne {i j : Nat} (x : Plane) (h : i ≠ j) : (s.setPlane i x).plane j = s.plane j := Sparse.get_set_ne _ _ _ _ h
@[simp] theorem State.setPlane_reg (i a : Nat) (x : Plane) : (s.setPlane i x).reg a = s.reg a := rfl

/-! ### State.setCor -/

@[simp] theorem State.setCor_pending (i : Nat) (x : Cor) : (s.setCor i x).pending = s.pending := rfl
@[simp] theorem State.setCor_now (i : Nat) (x : Cor) : (s.setCor i x).now = s.now := rfl
@[simp] theorem State.setCor_solEdge (i : Nat) (x : Cor) : (s.setCor i x).solEdge = s.solEdge := rfl
@[simp] theorem State.setCor_wraps (i : Nat) (x : Cor) : (s.setCor i x).wraps = s.wraps := rfl
@[simp] theorem State.setCor_dev (i : Nat) (x : Cor) : (s.setCor i x).dev = s.dev := rfl
@[simp] theorem State.setCor_porst (i : Nat) (x : Cor) : (s.setCor i x).porst = s.porst := rfl
@[simp] theorem State.setCor_regs (i : Nat) (x : Cor) : (s.setCor i x).regs = s.regs := rfl
@[simp] theorem State.setCor_staged (i : Nat) (x : Cor) : (s.setCor i x).staged = s.staged := rfl
@[simp] theorem State.setCor_tab (i : Nat) (x : Cor) : (s.setCor i x).tab = s.tab := rfl
@[simp] theorem State.setCor_commit (i : Nat) (x : Cor) : (s.setCor i x).commit = s.commit := rfl
@[simp] theorem State.setCor_resetting (i : Nat) (x : Cor) : (s.setCor i x).resetting = s.resetting := rfl
@[simp] theorem State.setCor_stopSrc (i : Nat) (x : Cor) : (s.setCor i x).stopSrc = s.stopSrc := rfl
@[simp] theorem State.setCor_stopOn (i : Nat) (x : Cor) : (s.setCor i x).stopOn = s.stopOn := rfl
@[simp] theorem State.setCor_boot (i : Nat) (x : Cor) : (s.setCor i x).boot = s.boot := rfl
@[simp] theorem State.setCor_nvm (i : Nat) (x : Cor) : (s.setCor i x).nvm = s.nvm := rfl
@[simp] theorem State.setCor_loop (i : Nat) (x : Cor) : (s.setCor i x).loop = s.loop := rfl
@[simp] theorem State.setCor_sol (i : Nat) (x : Cor) : (s.setCor i x).sol = s.sol := rfl
@[simp] theorem State.setCor_par (i : Nat) (x : Cor) : (s.setCor i x).par = s.par := rfl
@[simp] theorem State.setCor_flagLog (i : Nat) (x : Cor) : (s.setCor i x).flagLog = s.flagLog := rfl
@[simp] theorem State.setCor_out (i : Nat) (x : Cor) : (s.setCor i x).out = s.out := rfl
@[simp] theorem State.setCor_freeCtr (i : Nat) (x : Cor) : (s.setCor i x).freeCtr = s.freeCtr := rfl
@[simp] theorem State.setCor_stamper (i j : Nat) (x : Cor) : (s.setCor i x).stamper j = s.stamper j := rfl
@[simp] theorem State.setCor_tin (i j : Nat) (x : Cor) : (s.setCor i x).tin j = s.tin j := rfl
@[simp] theorem State.setCor_ref (i j : Nat) (x : Cor) : (s.setCor i x).ref j = s.ref j := rfl
@[simp] theorem State.setCor_cko (i j : Nat) (x : Cor) : (s.setCor i x).cko j = s.cko j := rfl
@[simp] theorem State.setCor_ttl (i j : Nat) (x : Cor) : (s.setCor i x).ttl j = s.ttl j := rfl
@[simp] theorem State.setCor_fwd (i j : Nat) (x : Cor) : (s.setCor i x).fwd j = s.fwd j := rfl
@[simp] theorem State.setCor_mslot (i j : Nat) (x : Cor) : (s.setCor i x).mslot j = s.mslot j := rfl
@[simp] theorem State.setCor_tout (i j : Nat) (x : Cor) : (s.setCor i x).tout j = s.tout j := rfl
@[simp] theorem State.setCor_lane (i j : Nat) (x : Cor) : (s.setCor i x).lane j = s.lane j := rfl
@[simp] theorem State.setCor_tile (i j : Nat) (x : Cor) : (s.setCor i x).tile j = s.tile j := rfl
@[simp] theorem State.setCor_plane (i j : Nat) (x : Cor) : (s.setCor i x).plane j = s.plane j := rfl
@[simp] theorem State.setCor_hdef (i j : Nat) (x : Cor) : (s.setCor i x).hdef j = s.hdef j := rfl
@[simp] theorem State.setCor_hctx (i j : Nat) (x : Cor) : (s.setCor i x).hctx j = s.hctx j := rfl
@[simp] theorem State.setCor_heng (i j : Nat) (x : Cor) : (s.setCor i x).heng j = s.heng j := rfl
@[simp] theorem State.setCor_ctx (i j : Nat) (x : Cor) : (s.setCor i x).ctx j = s.ctx j := rfl
@[simp] theorem State.setCor_cap (i j : Nat) (x : Cor) : (s.setCor i x).cap j = s.cap j := rfl
@[simp] theorem State.setCor_dmaCh (i j : Nat) (x : Cor) : (s.setCor i x).dmaCh j = s.dmaCh j := rfl
@[simp] theorem State.setCor_same (i : Nat) (x : Cor) : (s.setCor i x).cor i = x := Sparse.get_set_same _ _ _ _
theorem State.setCor_ne {i j : Nat} (x : Cor) (h : i ≠ j) : (s.setCor i x).cor j = s.cor j := Sparse.get_set_ne _ _ _ _ h
@[simp] theorem State.setCor_reg (i a : Nat) (x : Cor) : (s.setCor i x).reg a = s.reg a := rfl

/-! ### State.setHdef -/

@[simp] theorem State.setHdef_pending (i : Nat) (x : HDef) : (s.setHdef i x).pending = s.pending := rfl
@[simp] theorem State.setHdef_now (i : Nat) (x : HDef) : (s.setHdef i x).now = s.now := rfl
@[simp] theorem State.setHdef_solEdge (i : Nat) (x : HDef) : (s.setHdef i x).solEdge = s.solEdge := rfl
@[simp] theorem State.setHdef_wraps (i : Nat) (x : HDef) : (s.setHdef i x).wraps = s.wraps := rfl
@[simp] theorem State.setHdef_dev (i : Nat) (x : HDef) : (s.setHdef i x).dev = s.dev := rfl
@[simp] theorem State.setHdef_porst (i : Nat) (x : HDef) : (s.setHdef i x).porst = s.porst := rfl
@[simp] theorem State.setHdef_regs (i : Nat) (x : HDef) : (s.setHdef i x).regs = s.regs := rfl
@[simp] theorem State.setHdef_staged (i : Nat) (x : HDef) : (s.setHdef i x).staged = s.staged := rfl
@[simp] theorem State.setHdef_tab (i : Nat) (x : HDef) : (s.setHdef i x).tab = s.tab := rfl
@[simp] theorem State.setHdef_commit (i : Nat) (x : HDef) : (s.setHdef i x).commit = s.commit := rfl
@[simp] theorem State.setHdef_resetting (i : Nat) (x : HDef) : (s.setHdef i x).resetting = s.resetting := rfl
@[simp] theorem State.setHdef_stopSrc (i : Nat) (x : HDef) : (s.setHdef i x).stopSrc = s.stopSrc := rfl
@[simp] theorem State.setHdef_stopOn (i : Nat) (x : HDef) : (s.setHdef i x).stopOn = s.stopOn := rfl
@[simp] theorem State.setHdef_boot (i : Nat) (x : HDef) : (s.setHdef i x).boot = s.boot := rfl
@[simp] theorem State.setHdef_nvm (i : Nat) (x : HDef) : (s.setHdef i x).nvm = s.nvm := rfl
@[simp] theorem State.setHdef_loop (i : Nat) (x : HDef) : (s.setHdef i x).loop = s.loop := rfl
@[simp] theorem State.setHdef_sol (i : Nat) (x : HDef) : (s.setHdef i x).sol = s.sol := rfl
@[simp] theorem State.setHdef_par (i : Nat) (x : HDef) : (s.setHdef i x).par = s.par := rfl
@[simp] theorem State.setHdef_flagLog (i : Nat) (x : HDef) : (s.setHdef i x).flagLog = s.flagLog := rfl
@[simp] theorem State.setHdef_out (i : Nat) (x : HDef) : (s.setHdef i x).out = s.out := rfl
@[simp] theorem State.setHdef_freeCtr (i : Nat) (x : HDef) : (s.setHdef i x).freeCtr = s.freeCtr := rfl
@[simp] theorem State.setHdef_stamper (i j : Nat) (x : HDef) : (s.setHdef i x).stamper j = s.stamper j := rfl
@[simp] theorem State.setHdef_tin (i j : Nat) (x : HDef) : (s.setHdef i x).tin j = s.tin j := rfl
@[simp] theorem State.setHdef_ref (i j : Nat) (x : HDef) : (s.setHdef i x).ref j = s.ref j := rfl
@[simp] theorem State.setHdef_cko (i j : Nat) (x : HDef) : (s.setHdef i x).cko j = s.cko j := rfl
@[simp] theorem State.setHdef_ttl (i j : Nat) (x : HDef) : (s.setHdef i x).ttl j = s.ttl j := rfl
@[simp] theorem State.setHdef_fwd (i j : Nat) (x : HDef) : (s.setHdef i x).fwd j = s.fwd j := rfl
@[simp] theorem State.setHdef_mslot (i j : Nat) (x : HDef) : (s.setHdef i x).mslot j = s.mslot j := rfl
@[simp] theorem State.setHdef_tout (i j : Nat) (x : HDef) : (s.setHdef i x).tout j = s.tout j := rfl
@[simp] theorem State.setHdef_lane (i j : Nat) (x : HDef) : (s.setHdef i x).lane j = s.lane j := rfl
@[simp] theorem State.setHdef_tile (i j : Nat) (x : HDef) : (s.setHdef i x).tile j = s.tile j := rfl
@[simp] theorem State.setHdef_plane (i j : Nat) (x : HDef) : (s.setHdef i x).plane j = s.plane j := rfl
@[simp] theorem State.setHdef_cor (i j : Nat) (x : HDef) : (s.setHdef i x).cor j = s.cor j := rfl
@[simp] theorem State.setHdef_hctx (i j : Nat) (x : HDef) : (s.setHdef i x).hctx j = s.hctx j := rfl
@[simp] theorem State.setHdef_heng (i j : Nat) (x : HDef) : (s.setHdef i x).heng j = s.heng j := rfl
@[simp] theorem State.setHdef_ctx (i j : Nat) (x : HDef) : (s.setHdef i x).ctx j = s.ctx j := rfl
@[simp] theorem State.setHdef_cap (i j : Nat) (x : HDef) : (s.setHdef i x).cap j = s.cap j := rfl
@[simp] theorem State.setHdef_dmaCh (i j : Nat) (x : HDef) : (s.setHdef i x).dmaCh j = s.dmaCh j := rfl
@[simp] theorem State.setHdef_same (i : Nat) (x : HDef) : (s.setHdef i x).hdef i = x := Sparse.get_set_same _ _ _ _
theorem State.setHdef_ne {i j : Nat} (x : HDef) (h : i ≠ j) : (s.setHdef i x).hdef j = s.hdef j := Sparse.get_set_ne _ _ _ _ h
@[simp] theorem State.setHdef_reg (i a : Nat) (x : HDef) : (s.setHdef i x).reg a = s.reg a := rfl

/-! ### State.setHctx -/

@[simp] theorem State.setHctx_pending (i : Nat) (x : HCtx) : (s.setHctx i x).pending = s.pending := rfl
@[simp] theorem State.setHctx_now (i : Nat) (x : HCtx) : (s.setHctx i x).now = s.now := rfl
@[simp] theorem State.setHctx_solEdge (i : Nat) (x : HCtx) : (s.setHctx i x).solEdge = s.solEdge := rfl
@[simp] theorem State.setHctx_wraps (i : Nat) (x : HCtx) : (s.setHctx i x).wraps = s.wraps := rfl
@[simp] theorem State.setHctx_dev (i : Nat) (x : HCtx) : (s.setHctx i x).dev = s.dev := rfl
@[simp] theorem State.setHctx_porst (i : Nat) (x : HCtx) : (s.setHctx i x).porst = s.porst := rfl
@[simp] theorem State.setHctx_regs (i : Nat) (x : HCtx) : (s.setHctx i x).regs = s.regs := rfl
@[simp] theorem State.setHctx_staged (i : Nat) (x : HCtx) : (s.setHctx i x).staged = s.staged := rfl
@[simp] theorem State.setHctx_tab (i : Nat) (x : HCtx) : (s.setHctx i x).tab = s.tab := rfl
@[simp] theorem State.setHctx_commit (i : Nat) (x : HCtx) : (s.setHctx i x).commit = s.commit := rfl
@[simp] theorem State.setHctx_resetting (i : Nat) (x : HCtx) : (s.setHctx i x).resetting = s.resetting := rfl
@[simp] theorem State.setHctx_stopSrc (i : Nat) (x : HCtx) : (s.setHctx i x).stopSrc = s.stopSrc := rfl
@[simp] theorem State.setHctx_stopOn (i : Nat) (x : HCtx) : (s.setHctx i x).stopOn = s.stopOn := rfl
@[simp] theorem State.setHctx_boot (i : Nat) (x : HCtx) : (s.setHctx i x).boot = s.boot := rfl
@[simp] theorem State.setHctx_nvm (i : Nat) (x : HCtx) : (s.setHctx i x).nvm = s.nvm := rfl
@[simp] theorem State.setHctx_loop (i : Nat) (x : HCtx) : (s.setHctx i x).loop = s.loop := rfl
@[simp] theorem State.setHctx_sol (i : Nat) (x : HCtx) : (s.setHctx i x).sol = s.sol := rfl
@[simp] theorem State.setHctx_par (i : Nat) (x : HCtx) : (s.setHctx i x).par = s.par := rfl
@[simp] theorem State.setHctx_flagLog (i : Nat) (x : HCtx) : (s.setHctx i x).flagLog = s.flagLog := rfl
@[simp] theorem State.setHctx_out (i : Nat) (x : HCtx) : (s.setHctx i x).out = s.out := rfl
@[simp] theorem State.setHctx_freeCtr (i : Nat) (x : HCtx) : (s.setHctx i x).freeCtr = s.freeCtr := rfl
@[simp] theorem State.setHctx_stamper (i j : Nat) (x : HCtx) : (s.setHctx i x).stamper j = s.stamper j := rfl
@[simp] theorem State.setHctx_tin (i j : Nat) (x : HCtx) : (s.setHctx i x).tin j = s.tin j := rfl
@[simp] theorem State.setHctx_ref (i j : Nat) (x : HCtx) : (s.setHctx i x).ref j = s.ref j := rfl
@[simp] theorem State.setHctx_cko (i j : Nat) (x : HCtx) : (s.setHctx i x).cko j = s.cko j := rfl
@[simp] theorem State.setHctx_ttl (i j : Nat) (x : HCtx) : (s.setHctx i x).ttl j = s.ttl j := rfl
@[simp] theorem State.setHctx_fwd (i j : Nat) (x : HCtx) : (s.setHctx i x).fwd j = s.fwd j := rfl
@[simp] theorem State.setHctx_mslot (i j : Nat) (x : HCtx) : (s.setHctx i x).mslot j = s.mslot j := rfl
@[simp] theorem State.setHctx_tout (i j : Nat) (x : HCtx) : (s.setHctx i x).tout j = s.tout j := rfl
@[simp] theorem State.setHctx_lane (i j : Nat) (x : HCtx) : (s.setHctx i x).lane j = s.lane j := rfl
@[simp] theorem State.setHctx_tile (i j : Nat) (x : HCtx) : (s.setHctx i x).tile j = s.tile j := rfl
@[simp] theorem State.setHctx_plane (i j : Nat) (x : HCtx) : (s.setHctx i x).plane j = s.plane j := rfl
@[simp] theorem State.setHctx_cor (i j : Nat) (x : HCtx) : (s.setHctx i x).cor j = s.cor j := rfl
@[simp] theorem State.setHctx_hdef (i j : Nat) (x : HCtx) : (s.setHctx i x).hdef j = s.hdef j := rfl
@[simp] theorem State.setHctx_heng (i j : Nat) (x : HCtx) : (s.setHctx i x).heng j = s.heng j := rfl
@[simp] theorem State.setHctx_ctx (i j : Nat) (x : HCtx) : (s.setHctx i x).ctx j = s.ctx j := rfl
@[simp] theorem State.setHctx_cap (i j : Nat) (x : HCtx) : (s.setHctx i x).cap j = s.cap j := rfl
@[simp] theorem State.setHctx_dmaCh (i j : Nat) (x : HCtx) : (s.setHctx i x).dmaCh j = s.dmaCh j := rfl
@[simp] theorem State.setHctx_same (i : Nat) (x : HCtx) : (s.setHctx i x).hctx i = x := Sparse.get_set_same _ _ _ _
theorem State.setHctx_ne {i j : Nat} (x : HCtx) (h : i ≠ j) : (s.setHctx i x).hctx j = s.hctx j := Sparse.get_set_ne _ _ _ _ h
@[simp] theorem State.setHctx_reg (i a : Nat) (x : HCtx) : (s.setHctx i x).reg a = s.reg a := rfl

/-! ### State.setHeng -/

@[simp] theorem State.setHeng_pending (i : Nat) (x : HEng) : (s.setHeng i x).pending = s.pending := rfl
@[simp] theorem State.setHeng_now (i : Nat) (x : HEng) : (s.setHeng i x).now = s.now := rfl
@[simp] theorem State.setHeng_solEdge (i : Nat) (x : HEng) : (s.setHeng i x).solEdge = s.solEdge := rfl
@[simp] theorem State.setHeng_wraps (i : Nat) (x : HEng) : (s.setHeng i x).wraps = s.wraps := rfl
@[simp] theorem State.setHeng_dev (i : Nat) (x : HEng) : (s.setHeng i x).dev = s.dev := rfl
@[simp] theorem State.setHeng_porst (i : Nat) (x : HEng) : (s.setHeng i x).porst = s.porst := rfl
@[simp] theorem State.setHeng_regs (i : Nat) (x : HEng) : (s.setHeng i x).regs = s.regs := rfl
@[simp] theorem State.setHeng_staged (i : Nat) (x : HEng) : (s.setHeng i x).staged = s.staged := rfl
@[simp] theorem State.setHeng_tab (i : Nat) (x : HEng) : (s.setHeng i x).tab = s.tab := rfl
@[simp] theorem State.setHeng_commit (i : Nat) (x : HEng) : (s.setHeng i x).commit = s.commit := rfl
@[simp] theorem State.setHeng_resetting (i : Nat) (x : HEng) : (s.setHeng i x).resetting = s.resetting := rfl
@[simp] theorem State.setHeng_stopSrc (i : Nat) (x : HEng) : (s.setHeng i x).stopSrc = s.stopSrc := rfl
@[simp] theorem State.setHeng_stopOn (i : Nat) (x : HEng) : (s.setHeng i x).stopOn = s.stopOn := rfl
@[simp] theorem State.setHeng_boot (i : Nat) (x : HEng) : (s.setHeng i x).boot = s.boot := rfl
@[simp] theorem State.setHeng_nvm (i : Nat) (x : HEng) : (s.setHeng i x).nvm = s.nvm := rfl
@[simp] theorem State.setHeng_loop (i : Nat) (x : HEng) : (s.setHeng i x).loop = s.loop := rfl
@[simp] theorem State.setHeng_sol (i : Nat) (x : HEng) : (s.setHeng i x).sol = s.sol := rfl
@[simp] theorem State.setHeng_par (i : Nat) (x : HEng) : (s.setHeng i x).par = s.par := rfl
@[simp] theorem State.setHeng_flagLog (i : Nat) (x : HEng) : (s.setHeng i x).flagLog = s.flagLog := rfl
@[simp] theorem State.setHeng_out (i : Nat) (x : HEng) : (s.setHeng i x).out = s.out := rfl
@[simp] theorem State.setHeng_freeCtr (i : Nat) (x : HEng) : (s.setHeng i x).freeCtr = s.freeCtr := rfl
@[simp] theorem State.setHeng_stamper (i j : Nat) (x : HEng) : (s.setHeng i x).stamper j = s.stamper j := rfl
@[simp] theorem State.setHeng_tin (i j : Nat) (x : HEng) : (s.setHeng i x).tin j = s.tin j := rfl
@[simp] theorem State.setHeng_ref (i j : Nat) (x : HEng) : (s.setHeng i x).ref j = s.ref j := rfl
@[simp] theorem State.setHeng_cko (i j : Nat) (x : HEng) : (s.setHeng i x).cko j = s.cko j := rfl
@[simp] theorem State.setHeng_ttl (i j : Nat) (x : HEng) : (s.setHeng i x).ttl j = s.ttl j := rfl
@[simp] theorem State.setHeng_fwd (i j : Nat) (x : HEng) : (s.setHeng i x).fwd j = s.fwd j := rfl
@[simp] theorem State.setHeng_mslot (i j : Nat) (x : HEng) : (s.setHeng i x).mslot j = s.mslot j := rfl
@[simp] theorem State.setHeng_tout (i j : Nat) (x : HEng) : (s.setHeng i x).tout j = s.tout j := rfl
@[simp] theorem State.setHeng_lane (i j : Nat) (x : HEng) : (s.setHeng i x).lane j = s.lane j := rfl
@[simp] theorem State.setHeng_tile (i j : Nat) (x : HEng) : (s.setHeng i x).tile j = s.tile j := rfl
@[simp] theorem State.setHeng_plane (i j : Nat) (x : HEng) : (s.setHeng i x).plane j = s.plane j := rfl
@[simp] theorem State.setHeng_cor (i j : Nat) (x : HEng) : (s.setHeng i x).cor j = s.cor j := rfl
@[simp] theorem State.setHeng_hdef (i j : Nat) (x : HEng) : (s.setHeng i x).hdef j = s.hdef j := rfl
@[simp] theorem State.setHeng_hctx (i j : Nat) (x : HEng) : (s.setHeng i x).hctx j = s.hctx j := rfl
@[simp] theorem State.setHeng_ctx (i j : Nat) (x : HEng) : (s.setHeng i x).ctx j = s.ctx j := rfl
@[simp] theorem State.setHeng_cap (i j : Nat) (x : HEng) : (s.setHeng i x).cap j = s.cap j := rfl
@[simp] theorem State.setHeng_dmaCh (i j : Nat) (x : HEng) : (s.setHeng i x).dmaCh j = s.dmaCh j := rfl
@[simp] theorem State.setHeng_same (i : Nat) (x : HEng) : (s.setHeng i x).heng i = x := Sparse.get_set_same _ _ _ _
theorem State.setHeng_ne {i j : Nat} (x : HEng) (h : i ≠ j) : (s.setHeng i x).heng j = s.heng j := Sparse.get_set_ne _ _ _ _ h
@[simp] theorem State.setHeng_reg (i a : Nat) (x : HEng) : (s.setHeng i x).reg a = s.reg a := rfl

/-! ### State.setCtx -/

@[simp] theorem State.setCtx_pending (i : Nat) (x : Ctx) : (s.setCtx i x).pending = s.pending := rfl
@[simp] theorem State.setCtx_now (i : Nat) (x : Ctx) : (s.setCtx i x).now = s.now := rfl
@[simp] theorem State.setCtx_solEdge (i : Nat) (x : Ctx) : (s.setCtx i x).solEdge = s.solEdge := rfl
@[simp] theorem State.setCtx_wraps (i : Nat) (x : Ctx) : (s.setCtx i x).wraps = s.wraps := rfl
@[simp] theorem State.setCtx_dev (i : Nat) (x : Ctx) : (s.setCtx i x).dev = s.dev := rfl
@[simp] theorem State.setCtx_porst (i : Nat) (x : Ctx) : (s.setCtx i x).porst = s.porst := rfl
@[simp] theorem State.setCtx_regs (i : Nat) (x : Ctx) : (s.setCtx i x).regs = s.regs := rfl
@[simp] theorem State.setCtx_staged (i : Nat) (x : Ctx) : (s.setCtx i x).staged = s.staged := rfl
@[simp] theorem State.setCtx_tab (i : Nat) (x : Ctx) : (s.setCtx i x).tab = s.tab := rfl
@[simp] theorem State.setCtx_commit (i : Nat) (x : Ctx) : (s.setCtx i x).commit = s.commit := rfl
@[simp] theorem State.setCtx_resetting (i : Nat) (x : Ctx) : (s.setCtx i x).resetting = s.resetting := rfl
@[simp] theorem State.setCtx_stopSrc (i : Nat) (x : Ctx) : (s.setCtx i x).stopSrc = s.stopSrc := rfl
@[simp] theorem State.setCtx_stopOn (i : Nat) (x : Ctx) : (s.setCtx i x).stopOn = s.stopOn := rfl
@[simp] theorem State.setCtx_boot (i : Nat) (x : Ctx) : (s.setCtx i x).boot = s.boot := rfl
@[simp] theorem State.setCtx_nvm (i : Nat) (x : Ctx) : (s.setCtx i x).nvm = s.nvm := rfl
@[simp] theorem State.setCtx_loop (i : Nat) (x : Ctx) : (s.setCtx i x).loop = s.loop := rfl
@[simp] theorem State.setCtx_sol (i : Nat) (x : Ctx) : (s.setCtx i x).sol = s.sol := rfl
@[simp] theorem State.setCtx_par (i : Nat) (x : Ctx) : (s.setCtx i x).par = s.par := rfl
@[simp] theorem State.setCtx_flagLog (i : Nat) (x : Ctx) : (s.setCtx i x).flagLog = s.flagLog := rfl
@[simp] theorem State.setCtx_out (i : Nat) (x : Ctx) : (s.setCtx i x).out = s.out := rfl
@[simp] theorem State.setCtx_freeCtr (i : Nat) (x : Ctx) : (s.setCtx i x).freeCtr = s.freeCtr := rfl
@[simp] theorem State.setCtx_stamper (i j : Nat) (x : Ctx) : (s.setCtx i x).stamper j = s.stamper j := rfl
@[simp] theorem State.setCtx_tin (i j : Nat) (x : Ctx) : (s.setCtx i x).tin j = s.tin j := rfl
@[simp] theorem State.setCtx_ref (i j : Nat) (x : Ctx) : (s.setCtx i x).ref j = s.ref j := rfl
@[simp] theorem State.setCtx_cko (i j : Nat) (x : Ctx) : (s.setCtx i x).cko j = s.cko j := rfl
@[simp] theorem State.setCtx_ttl (i j : Nat) (x : Ctx) : (s.setCtx i x).ttl j = s.ttl j := rfl
@[simp] theorem State.setCtx_fwd (i j : Nat) (x : Ctx) : (s.setCtx i x).fwd j = s.fwd j := rfl
@[simp] theorem State.setCtx_mslot (i j : Nat) (x : Ctx) : (s.setCtx i x).mslot j = s.mslot j := rfl
@[simp] theorem State.setCtx_tout (i j : Nat) (x : Ctx) : (s.setCtx i x).tout j = s.tout j := rfl
@[simp] theorem State.setCtx_lane (i j : Nat) (x : Ctx) : (s.setCtx i x).lane j = s.lane j := rfl
@[simp] theorem State.setCtx_tile (i j : Nat) (x : Ctx) : (s.setCtx i x).tile j = s.tile j := rfl
@[simp] theorem State.setCtx_plane (i j : Nat) (x : Ctx) : (s.setCtx i x).plane j = s.plane j := rfl
@[simp] theorem State.setCtx_cor (i j : Nat) (x : Ctx) : (s.setCtx i x).cor j = s.cor j := rfl
@[simp] theorem State.setCtx_hdef (i j : Nat) (x : Ctx) : (s.setCtx i x).hdef j = s.hdef j := rfl
@[simp] theorem State.setCtx_hctx (i j : Nat) (x : Ctx) : (s.setCtx i x).hctx j = s.hctx j := rfl
@[simp] theorem State.setCtx_heng (i j : Nat) (x : Ctx) : (s.setCtx i x).heng j = s.heng j := rfl
@[simp] theorem State.setCtx_cap (i j : Nat) (x : Ctx) : (s.setCtx i x).cap j = s.cap j := rfl
@[simp] theorem State.setCtx_dmaCh (i j : Nat) (x : Ctx) : (s.setCtx i x).dmaCh j = s.dmaCh j := rfl
@[simp] theorem State.setCtx_same (i : Nat) (x : Ctx) : (s.setCtx i x).ctx i = x := Sparse.get_set_same _ _ _ _
theorem State.setCtx_ne {i j : Nat} (x : Ctx) (h : i ≠ j) : (s.setCtx i x).ctx j = s.ctx j := Sparse.get_set_ne _ _ _ _ h
@[simp] theorem State.setCtx_reg (i a : Nat) (x : Ctx) : (s.setCtx i x).reg a = s.reg a := rfl

/-! ### State.setCap -/

@[simp] theorem State.setCap_pending (i : Nat) (x : Cap) : (s.setCap i x).pending = s.pending := rfl
@[simp] theorem State.setCap_now (i : Nat) (x : Cap) : (s.setCap i x).now = s.now := rfl
@[simp] theorem State.setCap_solEdge (i : Nat) (x : Cap) : (s.setCap i x).solEdge = s.solEdge := rfl
@[simp] theorem State.setCap_wraps (i : Nat) (x : Cap) : (s.setCap i x).wraps = s.wraps := rfl
@[simp] theorem State.setCap_dev (i : Nat) (x : Cap) : (s.setCap i x).dev = s.dev := rfl
@[simp] theorem State.setCap_porst (i : Nat) (x : Cap) : (s.setCap i x).porst = s.porst := rfl
@[simp] theorem State.setCap_regs (i : Nat) (x : Cap) : (s.setCap i x).regs = s.regs := rfl
@[simp] theorem State.setCap_staged (i : Nat) (x : Cap) : (s.setCap i x).staged = s.staged := rfl
@[simp] theorem State.setCap_tab (i : Nat) (x : Cap) : (s.setCap i x).tab = s.tab := rfl
@[simp] theorem State.setCap_commit (i : Nat) (x : Cap) : (s.setCap i x).commit = s.commit := rfl
@[simp] theorem State.setCap_resetting (i : Nat) (x : Cap) : (s.setCap i x).resetting = s.resetting := rfl
@[simp] theorem State.setCap_stopSrc (i : Nat) (x : Cap) : (s.setCap i x).stopSrc = s.stopSrc := rfl
@[simp] theorem State.setCap_stopOn (i : Nat) (x : Cap) : (s.setCap i x).stopOn = s.stopOn := rfl
@[simp] theorem State.setCap_boot (i : Nat) (x : Cap) : (s.setCap i x).boot = s.boot := rfl
@[simp] theorem State.setCap_nvm (i : Nat) (x : Cap) : (s.setCap i x).nvm = s.nvm := rfl
@[simp] theorem State.setCap_loop (i : Nat) (x : Cap) : (s.setCap i x).loop = s.loop := rfl
@[simp] theorem State.setCap_sol (i : Nat) (x : Cap) : (s.setCap i x).sol = s.sol := rfl
@[simp] theorem State.setCap_par (i : Nat) (x : Cap) : (s.setCap i x).par = s.par := rfl
@[simp] theorem State.setCap_flagLog (i : Nat) (x : Cap) : (s.setCap i x).flagLog = s.flagLog := rfl
@[simp] theorem State.setCap_out (i : Nat) (x : Cap) : (s.setCap i x).out = s.out := rfl
@[simp] theorem State.setCap_freeCtr (i : Nat) (x : Cap) : (s.setCap i x).freeCtr = s.freeCtr := rfl
@[simp] theorem State.setCap_stamper (i j : Nat) (x : Cap) : (s.setCap i x).stamper j = s.stamper j := rfl
@[simp] theorem State.setCap_tin (i j : Nat) (x : Cap) : (s.setCap i x).tin j = s.tin j := rfl
@[simp] theorem State.setCap_ref (i j : Nat) (x : Cap) : (s.setCap i x).ref j = s.ref j := rfl
@[simp] theorem State.setCap_cko (i j : Nat) (x : Cap) : (s.setCap i x).cko j = s.cko j := rfl
@[simp] theorem State.setCap_ttl (i j : Nat) (x : Cap) : (s.setCap i x).ttl j = s.ttl j := rfl
@[simp] theorem State.setCap_fwd (i j : Nat) (x : Cap) : (s.setCap i x).fwd j = s.fwd j := rfl
@[simp] theorem State.setCap_mslot (i j : Nat) (x : Cap) : (s.setCap i x).mslot j = s.mslot j := rfl
@[simp] theorem State.setCap_tout (i j : Nat) (x : Cap) : (s.setCap i x).tout j = s.tout j := rfl
@[simp] theorem State.setCap_lane (i j : Nat) (x : Cap) : (s.setCap i x).lane j = s.lane j := rfl
@[simp] theorem State.setCap_tile (i j : Nat) (x : Cap) : (s.setCap i x).tile j = s.tile j := rfl
@[simp] theorem State.setCap_plane (i j : Nat) (x : Cap) : (s.setCap i x).plane j = s.plane j := rfl
@[simp] theorem State.setCap_cor (i j : Nat) (x : Cap) : (s.setCap i x).cor j = s.cor j := rfl
@[simp] theorem State.setCap_hdef (i j : Nat) (x : Cap) : (s.setCap i x).hdef j = s.hdef j := rfl
@[simp] theorem State.setCap_hctx (i j : Nat) (x : Cap) : (s.setCap i x).hctx j = s.hctx j := rfl
@[simp] theorem State.setCap_heng (i j : Nat) (x : Cap) : (s.setCap i x).heng j = s.heng j := rfl
@[simp] theorem State.setCap_ctx (i j : Nat) (x : Cap) : (s.setCap i x).ctx j = s.ctx j := rfl
@[simp] theorem State.setCap_dmaCh (i j : Nat) (x : Cap) : (s.setCap i x).dmaCh j = s.dmaCh j := rfl
@[simp] theorem State.setCap_same (i : Nat) (x : Cap) : (s.setCap i x).cap i = x := Sparse.get_set_same _ _ _ _
theorem State.setCap_ne {i j : Nat} (x : Cap) (h : i ≠ j) : (s.setCap i x).cap j = s.cap j := Sparse.get_set_ne _ _ _ _ h
@[simp] theorem State.setCap_reg (i a : Nat) (x : Cap) : (s.setCap i x).reg a = s.reg a := rfl

/-! ### State.setDma -/

@[simp] theorem State.setDma_pending (i : Nat) (x : Dma) : (s.setDma i x).pending = s.pending := rfl
@[simp] theorem State.setDma_now (i : Nat) (x : Dma) : (s.setDma i x).now = s.now := rfl
@[simp] theorem State.setDma_solEdge (i : Nat) (x : Dma) : (s.setDma i x).solEdge = s.solEdge := rfl
@[simp] theorem State.setDma_wraps (i : Nat) (x : Dma) : (s.setDma i x).wraps = s.wraps := rfl
@[simp] theorem State.setDma_dev (i : Nat) (x : Dma) : (s.setDma i x).dev = s.dev := rfl
@[simp] theorem State.setDma_porst (i : Nat) (x : Dma) : (s.setDma i x).porst = s.porst := rfl
@[simp] theorem State.setDma_regs (i : Nat) (x : Dma) : (s.setDma i x).regs = s.regs := rfl
@[simp] theorem State.setDma_staged (i : Nat) (x : Dma) : (s.setDma i x).staged = s.staged := rfl
@[simp] theorem State.setDma_tab (i : Nat) (x : Dma) : (s.setDma i x).tab = s.tab := rfl
@[simp] theorem State.setDma_commit (i : Nat) (x : Dma) : (s.setDma i x).commit = s.commit := rfl
@[simp] theorem State.setDma_resetting (i : Nat) (x : Dma) : (s.setDma i x).resetting = s.resetting := rfl
@[simp] theorem State.setDma_stopSrc (i : Nat) (x : Dma) : (s.setDma i x).stopSrc = s.stopSrc := rfl
@[simp] theorem State.setDma_stopOn (i : Nat) (x : Dma) : (s.setDma i x).stopOn = s.stopOn := rfl
@[simp] theorem State.setDma_boot (i : Nat) (x : Dma) : (s.setDma i x).boot = s.boot := rfl
@[simp] theorem State.setDma_nvm (i : Nat) (x : Dma) : (s.setDma i x).nvm = s.nvm := rfl
@[simp] theorem State.setDma_loop (i : Nat) (x : Dma) : (s.setDma i x).loop = s.loop := rfl
@[simp] theorem State.setDma_sol (i : Nat) (x : Dma) : (s.setDma i x).sol = s.sol := rfl
@[simp] theorem State.setDma_par (i : Nat) (x : Dma) : (s.setDma i x).par = s.par := rfl
@[simp] theorem State.setDma_flagLog (i : Nat) (x : Dma) : (s.setDma i x).flagLog = s.flagLog := rfl
@[simp] theorem State.setDma_out (i : Nat) (x : Dma) : (s.setDma i x).out = s.out := rfl
@[simp] theorem State.setDma_freeCtr (i : Nat) (x : Dma) : (s.setDma i x).freeCtr = s.freeCtr := rfl
@[simp] theorem State.setDma_stamper (i j : Nat) (x : Dma) : (s.setDma i x).stamper j = s.stamper j := rfl
@[simp] theorem State.setDma_tin (i j : Nat) (x : Dma) : (s.setDma i x).tin j = s.tin j := rfl
@[simp] theorem State.setDma_ref (i j : Nat) (x : Dma) : (s.setDma i x).ref j = s.ref j := rfl
@[simp] theorem State.setDma_cko (i j : Nat) (x : Dma) : (s.setDma i x).cko j = s.cko j := rfl
@[simp] theorem State.setDma_ttl (i j : Nat) (x : Dma) : (s.setDma i x).ttl j = s.ttl j := rfl
@[simp] theorem State.setDma_fwd (i j : Nat) (x : Dma) : (s.setDma i x).fwd j = s.fwd j := rfl
@[simp] theorem State.setDma_mslot (i j : Nat) (x : Dma) : (s.setDma i x).mslot j = s.mslot j := rfl
@[simp] theorem State.setDma_tout (i j : Nat) (x : Dma) : (s.setDma i x).tout j = s.tout j := rfl
@[simp] theorem State.setDma_lane (i j : Nat) (x : Dma) : (s.setDma i x).lane j = s.lane j := rfl
@[simp] theorem State.setDma_tile (i j : Nat) (x : Dma) : (s.setDma i x).tile j = s.tile j := rfl
@[simp] theorem State.setDma_plane (i j : Nat) (x : Dma) : (s.setDma i x).plane j = s.plane j := rfl
@[simp] theorem State.setDma_cor (i j : Nat) (x : Dma) : (s.setDma i x).cor j = s.cor j := rfl
@[simp] theorem State.setDma_hdef (i j : Nat) (x : Dma) : (s.setDma i x).hdef j = s.hdef j := rfl
@[simp] theorem State.setDma_hctx (i j : Nat) (x : Dma) : (s.setDma i x).hctx j = s.hctx j := rfl
@[simp] theorem State.setDma_heng (i j : Nat) (x : Dma) : (s.setDma i x).heng j = s.heng j := rfl
@[simp] theorem State.setDma_ctx (i j : Nat) (x : Dma) : (s.setDma i x).ctx j = s.ctx j := rfl
@[simp] theorem State.setDma_cap (i j : Nat) (x : Dma) : (s.setDma i x).cap j = s.cap j := rfl
@[simp] theorem State.setDma_same (i : Nat) (x : Dma) : (s.setDma i x).dmaCh i = x := Sparse.get_set_same _ _ _ _
theorem State.setDma_ne {i j : Nat} (x : Dma) (h : i ≠ j) : (s.setDma i x).dmaCh j = s.dmaCh j := Sparse.get_set_ne _ _ _ _ h
@[simp] theorem State.setDma_reg (i a : Nat) (x : Dma) : (s.setDma i x).reg a = s.reg a := rfl

/-! ### Registers and table words -/

@[simp] theorem State.setReg_stamper (a j : Nat) (v : Word) : (s.setReg a v).stamper j = s.stamper j := rfl
@[simp] theorem State.setReg_tin (a j : Nat) (v : Word) : (s.setReg a v).tin j = s.tin j := rfl
@[simp] theorem State.setReg_ref (a j : Nat) (v : Word) : (s.setReg a v).ref j = s.ref j := rfl
@[simp] theorem State.setReg_cko (a j : Nat) (v : Word) : (s.setReg a v).cko j = s.cko j := rfl
@[simp] theorem State.setReg_ttl (a j : Nat) (v : Word) : (s.setReg a v).ttl j = s.ttl j := rfl
@[simp] theorem State.setReg_fwd (a j : Nat) (v : Word) : (s.setReg a v).fwd j = s.fwd j := rfl
@[simp] theorem State.setReg_mslot (a j : Nat) (v : Word) : (s.setReg a v).mslot j = s.mslot j := rfl
@[simp] theorem State.setReg_tout (a j : Nat) (v : Word) : (s.setReg a v).tout j = s.tout j := rfl
@[simp] theorem State.setReg_lane (a j : Nat) (v : Word) : (s.setReg a v).lane j = s.lane j := rfl
@[simp] theorem State.setReg_tile (a j : Nat) (v : Word) : (s.setReg a v).tile j = s.tile j := rfl
@[simp] theorem State.setReg_plane (a j : Nat) (v : Word) : (s.setReg a v).plane j = s.plane j := rfl
@[simp] theorem State.setReg_cor (a j : Nat) (v : Word) : (s.setReg a v).cor j = s.cor j := rfl
@[simp] theorem State.setReg_hdef (a j : Nat) (v : Word) : (s.setReg a v).hdef j = s.hdef j := rfl
@[simp] theorem State.setReg_hctx (a j : Nat) (v : Word) : (s.setReg a v).hctx j = s.hctx j := rfl
@[simp] theorem State.setReg_heng (a j : Nat) (v : Word) : (s.setReg a v).heng j = s.heng j := rfl
@[simp] theorem State.setReg_ctx (a j : Nat) (v : Word) : (s.setReg a v).ctx j = s.ctx j := rfl
@[simp] theorem State.setReg_cap (a j : Nat) (v : Word) : (s.setReg a v).cap j = s.cap j := rfl
@[simp] theorem State.setReg_dmaCh (a j : Nat) (v : Word) : (s.setReg a v).dmaCh j = s.dmaCh j := rfl
@[simp] theorem State.advance_reg (t : Nat) (a : Nat) : (s.advance t).reg a = s.reg a := rfl
@[simp] theorem State.requeue_reg (q : List Instr) (a : Nat) : (s.requeue q).reg a = s.reg a := rfl
@[simp] theorem State.setTabw_reg (b : Nat) (v : Word) (a : Nat) : (s.setTabw b v).reg a = s.reg a := rfl
@[simp] theorem State.emit_reg (o : Output) (a : Nat) : (s.emit o).reg a = s.reg a := rfl
@[simp] theorem State.keep_reg (x : State) (n a : Nat) : (x.keep s n).reg a = x.reg a := rfl
@[simp] theorem State.keep_tabw (x : State) (n a : Nat) : (x.keep s n).tabw a = x.tabw a := rfl

theorem State.setReg_reg_same (a : Nat) (v : Word) : (s.setReg a v).reg a = v := Sparse.get_set_same _ _ _ _

theorem State.setReg_reg_ne {a b : Nat} (v : Word) (h : a ≠ b) : (s.setReg a v).reg b = s.reg b := Sparse.get_set_ne _ _ _ _ h

/-- A register after a write of one. -/
@[simp] theorem State.setReg_reg (a b : Nat) (v : Word) : (s.setReg a v).reg b = if a = b then v else s.reg b := by
  by_cases h : a = b
  · subst h
    simpa using s.setReg_reg_same a v
  · simpa [h] using s.setReg_reg_ne v h

theorem State.setTabw_tabw_same (a : Nat) (v : Word) : (s.setTabw a v).tabw a = v := Sparse.get_set_same _ _ _ _

theorem State.setTabw_tabw_ne {a b : Nat} (v : Word) (h : a ≠ b) : (s.setTabw a v).tabw b = s.tabw b :=
  Sparse.get_set_ne _ _ _ _ h

/-- A table word after a write of one. -/
@[simp] theorem State.setTabw_tabw (a b : Nat) (v : Word) : (s.setTabw a v).tabw b = if a = b then v else s.tabw b := by
  by_cases h : a = b
  · subst h
    simpa using s.setTabw_tabw_same a v
  · simpa [h] using s.setTabw_tabw_ne v h

@[simp] theorem State.setReg_tabw (a b : Nat) (v : Word) : (s.setReg a v).tabw b = s.tabw b := rfl

/-- A register write keeps the canonical form of the registers. -/
theorem State.setReg_wf (a : Nat) (v : Word) (h : Sparse.wf regReset s.regs = true) :
    Sparse.wf regReset (s.setReg a v).regs = true := Sparse.wf_set a v h

/-- A table write keeps the canonical form of the tables. -/
theorem State.setTabw_wf (a : Nat) (v : Word) (h : Sparse.wf tabReset s.tab = true) :
    Sparse.wf tabReset (s.setTabw a v).tab = true := Sparse.wf_set a v h

theorem reset_regs_wf : Sparse.wf regReset State.reset.regs = true := rfl

theorem reset_tab_wf : Sparse.wf tabReset State.reset.tab = true := rfl

end Sys2Proof.Machine
end

