-- ==== Sys2Proof/Laws/Ops.lean ====
section
/-! SUPPORT. What the shared operations can do, said once: a command whose effect leaves the time base alone, event bits,
vector messages and black-box entries. -/

namespace Sys2Proof.Machine

variable (s : State)

/-! ### The wrapper of every command -/

/-- An effect that leaves alone what the wrapper of every command keeps, and all that the time base's flags come from. -/
structure Quiet (s x : State) : Prop where
  pending : x.pending = s.pending
  now : x.now = s.now
  porst : x.porst = s.porst
  solEdge : x.solEdge = s.solEdge
  wraps : x.wraps = s.wraps
  lockT : x.loop.lockT = s.loop.lockT
  mode : x.loop.mode = s.loop.mode
  cfg : x.par.cfg = s.par.cfg
  aligned : x.par.aligned = s.par.aligned
  flagLog : x.flagLog = s.flagLog

theorem Quiet.refl : Quiet s s := ⟨rfl, rfl, rfl, rfl, rfl, rfl, rfl, rfl, rfl, rfl⟩

theorem Quiet.trans {a b c : State} (h : Quiet a b) (k : Quiet b c) : Quiet a c :=
  ⟨k.1.trans h.1, k.2.trans h.2, k.3.trans h.3, k.4.trans h.4, k.5.trans h.5, k.6.trans h.6, k.7.trans h.7, k.8.trans h.8,
    k.9.trans h.9, k.10.trans h.10⟩

/-- Where the log is up to date there is nothing to note. -/
theorem State.noteFlags_id {x : State} (h : x.flagsOk) : x.noteFlags = x := by
  unfold State.flagsOk at h
  unfold State.noteFlags
  match hl : x.flagLog, h with
  | (_, f) :: _, h => simp_all
  | [], h => simp at h

/-- A command with a quiet effect answers exactly that effect. -/
theorem command_eq {s x : State} {t : Nat} {f : State → State} (h : s.Powered) (hx : f (s.advance t) = x)
    (q : Quiet (s.advance t) x) : command t f s = .next x := by
  obtain ⟨hr, hf⟩ := h
  have hn : x.noteFlags = x := State.noteFlags_id (by
    unfold State.flagsOk at hf ⊢
    rw [q.flagLog, State.advance_flagLog, hf]
    simp [State.tbFlags, State.parEn, q.lockT, q.mode, q.cfg, q.aligned])
  have hk : x.keep s (max s.now t) = x := by
    unfold State.keep
    have h1 := q.pending; have h2 := q.now; have h3 := q.porst; have h4 := q.solEdge; have h5 := q.wraps
    simp only [State.advance_pending, State.advance_now, State.advance_porst, State.advance_solEdge, State.advance_wraps] at h1 h2 h3 h4 h5
    rw [← h1, ← h2, ← h3, ← h4, ← h5]
  simp [command, hr, hx, hn, hk]

/-- Where nothing overflows and nothing drains, contexts stand. -/
theorem State.settle_id {s : State} (h : s.Settled) : s.settle = s := by
  obtain ⟨hf, hc⟩ := h
  have h1 : (s.caps.filter fun e => e.2.full) = [] := by
    rw [List.filter_eq_nil_iff]
    intro e he
    simp [hf e he]
  have h2 : ∀ l : List Nat, s.each l State.ctxDrained = s := by
    intro l
    induction l with
    | nil => rfl
    | cons c r ih =>
      have : s.ctxDrained c = s := by
        unfold State.ctxDrained
        simp [(hc c).1, (hc c).2]
      show (s.ctxDrained c).each r State.ctxDrained = s
      rw [this]
      exact ih
  unfold State.settle
  rw [h1]
  exact h2 _

/-! ### Registers -/

@[simp] theorem State.reg_setReg_same (a : Nat) (v : Word) : (s.setReg a v).reg a = v := Sparse.get_set_same _ _ _ _

theorem State.reg_setReg_ne {a b : Nat} (v : Word) (h : a ≠ b) : (s.setReg a v).reg b = s.reg b :=
  Sparse.get_set_ne _ _ _ _ h

theorem State.setReg_quiet (a : Nat) (v : Word) : Quiet s (s.setReg a v) := ⟨rfl, rfl, rfl, rfl, rfl, rfl, rfl, rfl, rfl, rfl⟩

/-- A register pair that has just been replaced holds the value modulo 2^64. -/
theorem State.reg64_setReg64 (slot off n : Nat) : (s.setReg64 slot off n).reg64 slot off = n % 2 ^ 64 := by
  have h : ra slot (off + 4) ≠ ra slot off := by unfold ra; omega
  unfold State.reg64 State.setReg64
  rw [State.reg_setReg_ne _ _ h, State.reg_setReg_same, State.reg_setReg_same, BitVec.toNat_ofNat, BitVec.toNat_ofNat]
  omega

/-- A 64-bit counter advances and saturates (R26). -/
theorem State.reg64_bump64 (slot off k : Nat) :
    (s.bump64 slot off k).reg64 slot off = min (s.reg64 slot off + k) (2 ^ 64 - 1) := by
  unfold State.bump64
  rw [State.reg64_setReg64]
  unfold satAdd
  omega

/-- The slot and the offset of a register of a page. -/
theorem ra_div (slot off : Nat) (h : off < 0x400) : ra slot off / 0x400 = slot := by unfold ra; omega
theorem ra_mod (slot off : Nat) (h : off < 0x400) : ra slot off % 0x400 = off := by unfold ra; omega

/-! ### Event bits and black-box entries -/

theorem Side.refl : Side s s := ⟨_, _, _, _, _, rfl⟩

theorem Side.trans {a b c : State} (h : Side a b) (k : Side b c) : Side a c := by
  obtain ⟨_, _, _, _, _, rfl⟩ := h
  obtain ⟨_, _, _, _, _, rfl⟩ := k
  exact ⟨_, _, _, _, _, rfl⟩

theorem Side.quiet {a b : State} (h : Side a b) : Quiet a b := by
  obtain ⟨_, _, _, _, _, rfl⟩ := h
  exact ⟨rfl, rfl, rfl, rfl, rfl, rfl, rfl, rfl, rfl, rfl⟩

theorem State.setReg_side (a : Nat) (v : Word) : Side s (s.setReg a v) := ⟨_, _, _, _, _, rfl⟩

theorem State.emit_side (o : Output) : Side s (s.emit o) := ⟨_, _, _, _, _, rfl⟩

theorem State.setBbr_side (q : Bbr) : Side s { s with bbr := q } := ⟨_, _, _, _, _, rfl⟩

theorem State.msix_side (v : Nat) : Side s (s.msix v) := by
  unfold State.msix
  split
  · exact ⟨_, _, _, _, _, rfl⟩
  · exact ⟨_, _, _, _, _, rfl⟩

theorem State.raise_side (slot : Nat) : Side s (s.raise slot) := by
  unfold State.raise
  dsimp only
  split
  · exact Side.refl s
  · exact s.msix_side _

theorem State.bump64_side (slot off k : Nat) : Side s (s.bump64 slot off k) :=
  (State.setReg_side _ _ _).trans (State.setReg_side _ _ _)

/-- All that setting an event bit can touch. -/
theorem State.evt_side (slot b : Nat) : Side s (s.evt slot b) := by
  have h : Side s { ((s.setReg (ra slot 0x008) (s.reg (ra slot 0x008) ||| put 1 b 1)).setRfld slot 0x004 16 16
      ((s.setReg (ra slot 0x008) (s.reg (ra slot 0x008) ||| put 1 b 1)).rfld slot 0x004 16 16 + 1)) with
      evtAt := Sparse.put s.evtAt (32 * slot + b) (islandCycle slot s.now) } := ⟨_, _, _, _, _, rfl⟩
  unfold State.evt
  dsimp only
  split
  · exact h.trans (State.raise_side _ _)
  · exact h

/-- All that a DROPPED entry can touch. -/
theorem State.bbrRoom_side : Side s s.bbrRoom := by
  unfold State.bbrRoom
  split
  · exact State.setBbr_side s _
  · exact Side.refl s

/-- All that a black-box entry can touch. -/
theorem State.bbrPush_side (code slot : Nat) (data : List Nat) : Side s (s.bbrPush code slot data) := by
  unfold State.bbrPush
  dsimp only
  split
  · exact ((s.bbrRoom_side.trans (State.setBbr_side _ _)).trans (State.bump64_side _ _ _ _)).trans (State.evt_side _ _ _)
  · exact s.bbrRoom_side.trans (State.setBbr_side _ _)

/-- All that an entry for a host-made event can touch. -/
theorem State.bbrHost_side (code slot : Nat) (data : List Nat) : Side s (s.bbrHost code slot data) := by
  unfold State.bbrHost
  split
  · split
    · exact State.setBbr_side s _
    · exact (State.setBbr_side s _).trans (State.bbrPush_side _ _ _ _)
  · exact (State.setBbr_side s _).trans (State.bbrPush_side _ _ _ _)

theorem State.evt_quiet (slot b : Nat) : Quiet s (s.evt slot b) := (s.evt_side slot b).quiet

theorem State.bbrPush_quiet (code slot : Nat) (data : List Nat) : Quiet s (s.bbrPush code slot data) :=
  (s.bbrPush_side code slot data).quiet

theorem State.bbrHost_quiet (code slot : Nat) (data : List Nat) : Quiet s (s.bbrHost code slot data) :=
  (s.bbrHost_side code slot data).quiet

/-! ### Accesses that the host port holds -/

/-- With nothing held, only a page in reset has an access held. -/
theorem State.portHolds_nil (h : s.held = []) (x : HostAcc) : s.portHolds x = (x.slot.map s.inReset).getD false := by
  simp [State.portHolds, h]

/-- Where a write of a page is not held, no access of that page is. -/
theorem State.portHolds_of_write {p : Path} {a : Nat} {v : Word} (h : s.portHolds (.write p a v) = false) (x : HostAcc)
    (hx : x.slot = some (a / 0x400)) : s.portHolds x = false := by
  have hi : x.tabIslands = [] := by cases x <;> simp_all [HostAcc.slot, HostAcc.tabIslands]
  have hp (i : Nat) : x.pageIsland = some i → (HostAcc.write p a v).pageIsland = some i := by
    cases x <;> simp_all [HostAcc.slot, HostAcc.pageIsland]
  simp only [State.portHolds, Bool.or_eq_false_iff, List.any_eq_false, hx] at h ⊢
  refine ⟨h.1, fun y hy hf => h.2 y hy ?_⟩
  simp only [HostAcc.follows, hi, hx, Bool.or_eq_true, List.any_eq_true, decide_eq_true_eq] at hf ⊢
  obtain (hf | hf) | ⟨i, hm, he⟩ := hf
  · exact .inl (.inl hf)
  · simp at hf
  · exact .inr ⟨i, hm, hp i he⟩

end Sys2Proof.Machine
end

