-- ==== Sys2Proof/WellFormed.lean ====
section
/-! DEFINITION. When a command is one that the block can be sent: the operands that the spec bounds and a type does not.
Every other operand holds only values that the command admits. -/

namespace Sys2Proof

/-- A BAR0 byte address: BAR0 is 1 MiB (R337). -/
def bar0Ok (a : Nat) : Bool := decide (a < 2 ^ 20)

/-- A table write: an aligned offset of BAR2, or of the MSI-X table which the model puts after it, and a burst of at most 512
bytes (R337, R339). -/
def tableOk (off : Nat) (vs : List Word) : Bool :=
  decide (off % 4 = 0) && decide (0 < vs.length) && decide (vs.length ≤ 128) &&
    decide (off + 4 * vs.length ≤ 2 ^ 28 + 0x800)

/-- The codes of one edge set of an Equinox: eight (R87). -/
def codesOk (l : List Nat) : Bool := decide (l.length = 8)

/-- Well-formed commands. -/
def Instr.wf (i : Instr) : Bool :=
  match i with
  | .registerWrite _ _ a _ _ => bar0Ok a
  | .stagedWrite _ _ a _ => bar0Ok a && decide (a % 4 = 0)
  | .splitReadLo _ _ a | .splitReadHi _ _ a => bar0Ok a && decide (a % 4 = 0)
  | .tableWrite _ off vs => tableOk off vs
  | .equinoxDone _ _ c1 c2 => codesOk c1 && codesOk c2
  | .monSample _ mv temps => decide (mv.length = 11) && decide (temps.length = 5)
  | .mirror _ l => decide (l.length = 512)
  | _ => true

end Sys2Proof
end

