-- ==== Sys2Proof/Tests/Slice0.lean ====
section
/-! SUPPORT. Tests: ill-formed commands that WellFormed refuses; values of the spec's own examples and tables; and for every
statement concrete states and operands that meet its hypotheses, clause by clause. -/

namespace Sys2Proof.Tests

set_option Elab.async false

open Sys2Proof Sys2Proof.Machine

/-! ### Well-formedness -/

theorem test_wf_register_above_bar0 : Instr.wf (.registerWrite 0 .pcie (2 ^ 20) true 0) = false := by decide
theorem test_wf_staged_unaligned : Instr.wf (.stagedWrite 0 .pcie 0x8014 0) = true ∧ Instr.wf (.stagedWrite 0 .pcie 0x8016 0) = false ∧
    Instr.wf (.stagedWrite 0 .pcie (2 ^ 20 + 4) 0) = false := by decide
theorem test_wf_split_read : Instr.wf (.splitReadLo 0 .spi 0x2) = false ∧ Instr.wf (.splitReadHi 0 .spi (2 ^ 20)) = false ∧
    Instr.wf (.splitReadHi 0 .spi 0x24) = true := by decide
theorem test_wf_table_write : Instr.wf (.tableWrite 0 2 [0]) = false ∧ Instr.wf (.tableWrite 0 4 []) = false ∧
    Instr.wf (.tableWrite 0 0 (List.replicate 129 0)) = false ∧ Instr.wf (.tableWrite 0 (2 ^ 28 + 0x800) [0]) = false ∧
    Instr.wf (.tableWrite 0 (2 ^ 28 + 0x7FC) [0]) = true := by decide +kernel
theorem test_wf_equinox_codes : Instr.wf (.equinoxDone 0 3 [1, 2] [1, 2, 3, 4, 5, 6, 7, 8]) = false ∧
    Instr.wf (.equinoxDone 0 3 [1, 2, 3, 4, 5, 6, 7, 8] [1]) = false ∧
    Instr.wf (.equinoxDone 0 3 [1, 2, 3, 4, 5, 6, 7, 8] [1, 2, 3, 4, 5, 6, 7, 8]) = true := by decide
theorem test_wf_mon_sample : Instr.wf (.monSample 0 (List.replicate 11 0) (List.replicate 4 0)) = false ∧
    Instr.wf (.monSample 0 (List.replicate 10 0) (List.replicate 5 0)) = false ∧
    Instr.wf (.monSample 0 (List.replicate 11 0) (List.replicate 5 0)) = true := by decide
theorem test_wf_mirror : Instr.wf (.mirror 0 [(0, 0)]) = false := by decide

/-! ### States -/

/-- Out of reset and running. -/
def up : State := { State.reset with porst := false, dev := .running }

theorem settled_of_nil {s : State} (h : s.caps = []) (k : s.ctxs = []) : s.Settled := by
  refine ⟨by simp [h], fun c => ?_⟩
  simp [State.ctx, k, Sparse.get]

/-- One context, running. -/
theorem settled_of_running {s : State} {n : Nat} {x : Ctx} (h : s.caps.all (fun e => !e.2.full) = true) (k : s.ctxs = [(n, x)])
    (r : x.st = .running ∨ x.st = .idle ∨ x.st = .admitting) : s.Settled := by
  refine ⟨by simpa using h, fun c => ?_⟩
  by_cases hc : n = c
  · rcases r with r | r | r <;> simp [State.ctx, k, Sparse.get, hc, r]
  · simp [State.ctx, k, Sparse.get, hc]

/-- Captures that are not full, and no context. -/
theorem settled_of_caps {s : State} (h : s.caps.all (fun e => !e.2.full) = true) (k : s.ctxs = []) : s.Settled := by
  refine ⟨by simpa using h, fun c => ?_⟩
  simp [State.ctx, k, Sparse.get]

/-! ### Witnesses: events, accesses, resets, commits -/

/-- Event bit 0 of the CTX page enabled, with its vector unmasked. -/
def enabled : State := { up.setReg (ra sCtx 0x00C) 1 with msixTable := [(16 * 64 + 12, 0)] }

theorem witness_EventBits :
    (bit (enabled.reg (ra sCtx 0x008)) 0 = false ∧ bit (enabled.reg (ra sCtx 0x00C)) 0 = true ∧ enabled.routeByte sCtx < 128 ∧
      bit (enabled.msixWord (16 * (64 + enabled.routeByte sCtx % 64) + 12)) 0 = false) ∧
    bit (up.msixWord (16 * 64 + 12)) 0 = true ∧ bit (up.reg (ra sCtx 0x00C)) 31 = false ∧
    enabled.served sCtx = true ∧ (pageAt sCtx).isSome = true ∧ sCtx < 1024 ∧
    ((enabled.evt sCtx 0).reg (ra sCtx 0x008) &&& (enabled.evt sCtx 0).reg (ra sCtx 0x00C)) ≠ 0 ∧
    Sparse.find (enabled.evt sCtx 0).evtAt (32 * sCtx + 0) = some (islandCycle sCtx 0) := by decide
theorem witness_EventBits_powered : (enabled.evt sCtx 0).Powered ∧ (enabled.evt sCtx 0).Reaches (ra sCtx 0x008) :=
  ⟨⟨rfl, rfl⟩, by decide, rfl, rfl⟩

/-- A black-box queue of a length, with drops since. -/
def queued (n d : Nat) : State :=
  { up with bbr := { up.bbr with queue := List.replicate n { uptime := 0, epoch := 0, code := 1, slot := 0, data := [] }, drops := d } }

theorem witness_BlackBoxEntry :
    ((queued 255 0).bbr.queue.length < 256 ∧ (queued 255 0).bbr.drops = 0) ∧
    ((queued 254 7).bbr.queue.length < 255 ∧ 0 < (queued 254 7).bbr.drops) ∧ 256 ≤ (queued 256 7).bbr.queue.length := by
  decide +kernel

theorem witness_BadAccess : up.Powered ∧ up.dev ≠ .booting ∧ 0x8015 % 4 ≠ 0 ∧ up.Reaches 0xFFFFC ∧ 0xFFFFC % 4 = 0 ∧ regAt 0xFFFFC = none :=
  ⟨⟨rfl, rfl⟩, by decide, by decide, ⟨by decide, rfl, rfl⟩, by decide⟩

theorem witness_RegisterWrites : up.Powered ∧ up.Reaches (ra sCal 0x014) ∧ up.served (ra sCal 0x014 / 0x400) = true ∧
    (pageAt (ra sCal 0x014 / 0x400)).isSome = true ∧ (regAt (ra sCal 0x014)).map (·.ty) = some .rws ∧
    (regAt (ra sCal 0x000)).map (·.ty) = some .ro ∧ ra sCal 0x000 ≠ ra sGlb 0x02C ∧
    (regAt (ra sCal 0x00C)).map (·.ty) = some .rw ∧ ra sCal 0x00C % 0x400 = 0x00C :=
  ⟨⟨rfl, rfl⟩, ⟨by decide, rfl, rfl⟩, by decide +kernel⟩

/-- Context 0 has stopped, and its correlator still holds a Harvest. -/
def owing : State := { up with ctxs := [(0, { st := .stopping })], cors := [(0, { run := 1, closing := true })] }

theorem witness_TableWrites : up.Powered ∧ up.dev ≠ .booting ∧ up.barrierOn = false ∧ up.boot.recovery = false ∧
    (up.portHolds (.table (oMeas 0 0) [7]) = false ∧ (let s : State := { up with resetting := [sMeas], held := [.write .pcie (ra sMeas 0x018) 5] }
      s.portHolds (.table (oMeas 0 0) [7]) = true ∧ s.portHolds (.table (oCtx 0 0) [7]) = false)) ∧
    tabAt 0xFFF_FFFC = none ∧ ((tabAt (oCtx 0 33)).map (·.tab) = some .ctx ∧ tabMask (oCtx 0 33) = 0) ∧
    ((tabAt (oMeas 0 16)).map (fun x => up.tabBusy x (oMeas 0 16) 0) = some none ∧ tabMask (oMeas 0 16) = 0) ∧
    ((tabAt (oCor 0 3)).map (·.tab) = some .cor ∧ tabMask (oCor 0 3) = 0 ∧
      (tabAt (oCor 0 3)).map (fun x => ({ up with ctxs := [(0, { st := .running })] } : State).tabBusy x (oCor 0 3) 0)
        = some (some (sCor 0, 4))) ∧
    (tabMask (oCtx 0 0) ≠ 0 ∧ (tabAt (oCtx 0 0)).map (fun x => ({ up with ctxs := [(0, { st := .running })] } : State).tabBusy x (oCtx 0 0) 0)
      = some (some (sCtx, 4))) ∧
    ((tabAt (oTile 5 0)).map (·.tab) = some .tile ∧ tabMask (oTile 5 0) ≠ 0 ∧
      (tabAt (oTile 5 0)).map (fun x => up.tabBusy x (oTile 5 0) 0) = some none) ∧
    ((tabAt (oCtx 0 0)).map (·.tab) = some .ctx ∧ (tabAt (oCtx 0 0)).map (fun x => up.tabBusy x (oCtx 0 0) 0) = some none) ∧
    (owing.Powered ∧ 0 ∈ owing.ctxs.map (·.1) ∧ (owing.ctx 0).st ≠ .running ∧ owing.ctxOwes 0 = true ∧
      (tabAt (oCor 0 1)).map (·.tab) = some .cor ∧ tabMask (oCor 0 1) ≠ 0 ∧
      (tabAt (oCor 0 1)).map (fun x => owing.tabBusy x (oCor 0 1) 7) = some none) :=
  ⟨⟨rfl, rfl⟩, by decide, rfl, rfl, by decide +kernel, by decide +kernel, by decide +kernel, by decide +kernel, by decide +kernel,
    by decide +kernel, by decide +kernel, by decide +kernel, ⟨rfl, rfl⟩, by decide +kernel⟩

theorem witness_SplitReads : up.Powered ∧ up.Reaches (ra sGlb 0x034) ∧ pairOf (ra sCtx 0x024) = some (ra sCtx 0x024, true) ∧
    ra sCtx 0x024 % 4 = 0 ∧ up.served (ra sCtx 0x024 / 0x400) = true ∧ (up.snap .pcie (ra sCtx 0x024)).fresh = false ∧
    ({ up with snaps := [(snapKey .pcie (ra sCtx 0x024), { v := 1, fresh := true })] } : State).snap .pcie (ra sCtx 0x024)
      = { v := 1, fresh := true } :=
  ⟨⟨rfl, rfl⟩, ⟨by decide, rfl, rfl⟩, by decide +kernel⟩

theorem witness_PageResets : up.Powered ∧ up.Reaches (ra (sCor 0) 0x010) ∧ up.served (sCor 0) = true ∧ (pageAt (sCor 0)).map (·.kind) = some .cor ∧
    (({ up with resetting := [(sCor 0)] } : State).inReset (sCor 0) = true ∧ up.commit.waitFor = [] ∧ up.barrierOn = false ∧ up.held = []) ∧
    ((pageAt sCal).map (·.kind) = some .cal ∧ (regAt (ra sCal 0x014)).map (·.ty) = some .rws ∧ ra sCal 0x014 / 0x400 = sCal ∧
      ({ up with resetting := [sCal] } : State).served sCal = true) :=
  ⟨⟨rfl, rfl⟩, ⟨by decide, rfl, rfl⟩, by decide +kernel⟩

theorem witness_PageEnables : up.Powered ∧ up.Reaches (ra sCtx 0x010) ∧ up.served sCtx = true ∧ (pageAt sCtx).map (·.kind) = some .ctx ∧
    ((pageAt (sTin 7)).map (·.kind) = some .tin ∧ (up.setRfld (sTin 7) 0x010 1 1 0).pageOn (sTin 7) = false ∧
      (({ up with stampers := [(7, { booted := true })] } : State).stamper 7).booted = true) ∧
    ((pageAt (sLane 63)).map (·.kind) = some .lane ∧ up.pageOn (sLane 63) = false) ∧
    ((pageAt (sCko 15)).map (·.kind) = some .cko ∧ up.pageOn (sCko 15) = true ∧
      (up.setRfld (sCko 15) 0x010 1 1 0).pageOn (sCko 15) = false) ∧
    ((pageAt (sDma 0)).map (·.kind) = some .dma ∧ (up.setRegN (sDma 0) 0x014 3).ringExp 0 < 4 ∧
      4 ≤ (up.setRegN (sDma 0) 0x014 4).ringExp 0 ∧ (up.setRegN (sDma 0) 0x014 16).ringExp 0 ≤ 16 ∧ up.rfld (sDma 0) 0x018 0 5 = 0 ∧
      (up.dmaCh 0).queue = []) :=
  ⟨⟨rfl, rfl⟩, ⟨by decide, rfl, rfl⟩, by decide +kernel⟩

theorem witness_Commits : up.Powered ∧ up.Reaches (ra sGlb 0x018) ∧ ({ up with commit := { up.commit with busy := true } } : State).commit.busy = true ∧
    up.commit.busy = false ∧ up.resetting = [] ∧ ({ up with resetting := [sCal] } : State).resetting ≠ [] ∧ up.ctxs = [] ∧ up.caps = [] ∧
    (let c : State := { up with commit := { up.commit with snapshot := some ([(ra sCal 0x014, 5)], []), applyAt := some 4000 } }
     c.Powered ∧ c.commit.applyAt = some 4000 ∧ max c.now 3999 < 4000 ∧ 4000 ≤ max c.now 4000 ∧ c.boot.imageCommit = none ∧
       c.dev ≠ .awaiting ∧ c.dev ≠ .dormant) ∧
    (regAt (ra sCal 0x014)).isSome = true ∧ (pageAt sCal).map (·.kind) = some .cal ∧
    ((regAt (ra sClk 0x014)).isSome = true ∧ (pageAt sClk).map (·.kind) = some .clk) ∧
    ((regAt (ra (sCko 3) 0x014)).isSome = true ∧ (pageAt (sCko 3)).map (·.kind) = some .cko) :=
  ⟨⟨rfl, rfl⟩, ⟨by decide, rfl, rfl⟩, by decide +kernel, rfl, rfl, by decide, rfl, rfl,
    ⟨⟨rfl, rfl⟩, by decide +kernel⟩, by decide +kernel⟩

/-! ### Witnesses: validation, barrier, STOP, SPI, DMA -/

/-- A commit whose snapshot is taken. -/
def committing (rg : List (Nat × Word)) : State := { up with commit := { up.commit with busy := true, snapshot := some (rg, []) } }

theorem witness_CommitValidation :
    ((committing []).Powered ∧ (committing []).commit.applyAt = none ∧ ((committing []).advance 5).validate [] [] = none) ∧
    ((committing [(ra sCal 0x014, 0xFFFF_FFFF)]).Powered ∧
      (((committing [(ra sCal 0x014, 0xFFFF_FFFF)]).advance 5).validate [(ra sCal 0x014, 0xFFFF_FFFF)] []).isSome = true) ∧
    State.reset.dev = .booting ∧
    (let rg := [(ra sCal 0x014, (0xFFFF_FFFF : Word))]
     let fails (k : Nat) : Option (List (Nat × Nat)) :=
       (pageAt k).map fun q => reservedFails rg k ++ up.pageFails (up.candidate rg []) q.kind (k - q.first)
     up.dev ≠ .booting ∧ (fails sCal).any (· ≠ []) = true ∧ ∀ k, k < sCal → (fails k).all (· = []) = true) :=
  ⟨⟨⟨rfl, rfl⟩, rfl, by decide +kernel⟩, ⟨⟨rfl, rfl⟩, by decide +kernel⟩, rfl, by decide +kernel⟩

theorem witness_Barriers : up.Powered ∧ up.dev ≠ .booting ∧ up.portHolds (.write .spi (ra sGlb 0x02C) 0) = false ∧ up.barrierOn = false ∧
    (let b : State := { up with barrierOn := true }
     b.barrierOn = true ∧ b.resetting = [] ∧ b.behind = [] ∧ ({ b with resetting := [sCal] } : State).resetting ≠ []) ∧
    (let b : State := { up with barrierOn := true, behind := [.write .spi (ra sCal 0x014) 7] }
     b.served (ra sCal 0x014 / 0x400) = true ∧ b.held = [] ∧ (regAt (ra sCal 0x014)).map (·.ty) = some .rws ∧
       b.inReset (ra sCal 0x018 / 0x400) = false ∧ b.readWaits (ra sCal 0x018 / 0x400) = true) :=
  ⟨⟨rfl, rfl⟩, by decide +kernel⟩

theorem witness_StopSources : up.Powered ∧ up.stopSrc < 8 ∧ up.dev ≠ .booting ∧ up.stopSrc ||| 1 ≠ up.stopSrc ∧
    ({ State.reset with porst := false } : State).Powered ∧ ({ State.reset with porst := false } : State).dev = .booting ∧
    (let h : State := { up with stopSrc := 4 }
     h.Powered ∧ h.stopSrc < 8 ∧ h.stopSrc &&& (7 ^^^ 4) = 0 ∧ h.stopSrc ≠ 0) ∧ (0x5354 : BitVec 16) ≠ 0x524C :=
  ⟨⟨rfl, rfl⟩, by decide, by decide, by decide, ⟨rfl, rfl⟩, rfl, ⟨⟨rfl, rfl⟩, by decide⟩, by decide⟩

/-- STOP is asserted, and no output is set to be gated by it. -/
def ungated : State :=
  { up with stopSrc := 1, regs := (List.range 32).map (fun n => (ra (sTout n) 0x014, 0)) ++ (List.range 16).map fun n => (ra (sCko n) 0x014, 0) }

theorem witness_StopInForce :
    (let h : State := ungated
     h.Powered ∧ h.Settled ∧ h.stopSrc ≠ 0 ∧ h.stopOn = false ∧ h.dev ≠ .booting ∧ h.runningCtxs = [] ∧
       (∀ n, n < 32 → h.rbit (sTout n) 0x014 11 = false) ∧ ∀ n, n < 16 → h.rbit (sCko n) 0x014 9 = false) ∧
    (let h : State := { up with stopOn := true, dev := .stopped }
     h.Powered ∧ h.Settled ∧ h.stopSrc = 0 ∧ h.stopOn = true ∧ (∀ n, n < 32 → (h.tout n).gatedStop = false) ∧
       (∀ n, n < 16 → (h.cko n).gatedStop = false) ∧ h.dma = [] ∧ h.boot.starts = []) :=
  ⟨⟨⟨rfl, rfl⟩, settled_of_nil rfl rfl, by decide +kernel⟩, ⟨⟨rfl, rfl⟩, settled_of_nil rfl rfl, by decide +kernel⟩⟩

theorem witness_ManagementSpi : up.Powered ∧ up.dev ≠ .booting ∧ up.portHolds (.read .spi (0x50014 : BitVec 24).toNat) = false ∧
    up.readWaits ((0x50014 : BitVec 24).toNat / 0x400) = false ∧ (0x50014 : BitVec 24).toNat % 4 = 0 ∧
    ({ up with resetting := [0x140] } : State).portHolds (.read .spi (0x50014 : BitVec 24).toNat) = true ∧
    ({ up with barrierOn := true, behind := [.write .spi 0x50014 7] } : State).readWaits ((0x50014 : BitVec 24).toNat / 0x400) = true :=
  ⟨⟨rfl, rfl⟩, by decide⟩

/-- DMA channel 3 enabled, with a ring of 16, tail 5, and a state of its own. -/
def dma3 (d : Dma) : State :=
  (((up.setRegN (sDma 3) 0x014 4).setRfld (sDma 3) 0x010 1 1 1).setDma 3 { d with tail := 5 })

/-- A measurement record of 128 bytes. -/
def record : Msg := { kind := 0, body := List.replicate 128 0xA5, src := .meas 2 0 }

theorem witness_DmaChannels :
    (let s := dma3 { handed := [record], queue := [record] }
     let d := s.dmaCh 3
     s.Powered ∧ s.inReset (sDma 3) = false ∧ s.dev ≠ .booting ∧ s.barrierOn = false ∧ s.portHolds (.tail 3 5) = false ∧ d.head < 2 ^ s.ringExp 3 ∧ d.tail < 2 ^ s.ringExp 3 ∧
       (5 < 2 ^ s.ringExp 3 ∧ (d.tail + 16 - d.head) % 16 ≤ (5 + 16 - d.head) % 16) ∧ 2 ^ s.ringExp 3 ≤ 16 ∧
       (4 + 16 - d.head) % 16 < (d.tail + 16 - d.head) % 16 ∧ d.cur = none ∧ d.next = none ∧ d.handed ≠ [] ∧ d.queue ≠ [] ∧
       0 < s.posted 3 ∧ s.dmaHalted 3 = false ∧ s.pageOn (sDma 3) = true ∧
       ((0x1000 : Word64).toNat % 64 = 0 ∧ (16_777_216 : Word).toNat % 64 = 0 ∧ (16_777_216 : Word).toNat ≤ 16_777_216) ∧
       16_777_216 < (16_777_280 : Word).toNat) ∧
    (let s := dma3 { handed := [record] }
     (s.dmaCh 3).handed ≠ [] ∧ (s.dmaCh 3).queue = [] ∧ 0 < s.posted 3) ∧
    (let s := dma3 { queue := [record], cur := some ⟨0, 0x1000, 64⟩, sent := some 64, head := 1 }
     s.Powered ∧ s.Settled ∧ s.dmaHalted 3 = false ∧ s.stopOn = false ∧ (s.dmaCh 3).queue = [record] ∧ (s.dmaCh 3).next = none ∧
       record.more = false ∧ record.body.length - 64 ≤ 64 ∧ s.reg (ra (sDma 3) 0x020) = 0 ∧ (s.dmaCh 3).irqAt = none) ∧
    (let s := { dma3 { draining := true } with msixTable := [(16 * 3 + 12, 0)] }
     s.Powered ∧ s.Settled ∧ (s.dmaCh 3).draining = true ∧ (s.dmaCh 3).sent = none ∧ s.msixWord (16 * 3 + 12) = 0) ∧
    (let s := { dma3 { irqHeld := true, irqAt := some 4000 } with msixTable := [(16 * 3 + 12, 0)] }
     s.Powered ∧ s.Settled ∧ (s.dmaCh 3).irqHeld = true ∧ s.stopOn = false ∧
       4000 + (s.reg (ra (sDma 3) 0x020)).toNat * 2000 ≤ max s.now 4000 ∧ s.msixWord (16 * 3 + 12) = 0) :=
  ⟨⟨⟨rfl, rfl⟩, by decide +kernel⟩, by decide +kernel, ⟨⟨rfl, rfl⟩, settled_of_nil rfl rfl, by decide +kernel⟩,
    ⟨⟨rfl, rfl⟩, settled_of_nil rfl rfl, by decide +kernel⟩, ⟨⟨rfl, rfl⟩, settled_of_nil rfl rfl, by decide +kernel⟩⟩

/-! ### Witnesses: reset, boot, service, black box, calibration -/

theorem witness_Resets :
    (State.reset.porst = true ∧ State.reset.flagsOk ∧ State.reset.resetHeld) ∧
    (up.porst = false ∧ up.svc.busy = false ∧ up.cal.storing = none ∧ up.bbr.clearing = false ∧ up.bbr.erasing = none ∧
      up.bbr.queue = [] ∧ up.sol.syncOut = false ∧ up.touts = []) ∧
    (let s := up.setTout 4 { up.tout 4 with high := true }
     s.porst = false ∧ (4, s.tout 4) ∈ s.touts ∧ (s.tout 4).high = true) ∧
    (({ State.reset with porst := false } : State).Powered ∧ ({ State.reset with porst := false } : State).dev = .booting) ∧
    (up.Powered ∧ up.dev ≠ .booting ∧ up.dma = [] ∧ up.resetting = [] ∧ up.Settled) :=
  ⟨⟨rfl, rfl, fun _ => rfl⟩, by decide, by decide +kernel, ⟨⟨rfl, rfl⟩, rfl⟩, ⟨rfl, rfl⟩, by decide, rfl, rfl, settled_of_nil rfl rfl⟩

/-- Out of reset and booting. -/
def booting (b : Boot) : State := { State.reset with porst := false, boot := b }

/-- A region that is neither erased nor a good image. -/
def junk : State := { booting { fwLoaded := true, calLoaded := true } with nvm := { State.reset.nvm with bytes := [((nvRegion 2).1, 0)] } }

theorem witness_BootStages :
    ((booting {}).Powered ∧ (booting {}).dev = .booting ∧ (booting {}).boot.fwLoaded = false ∧ (booting {}).fwFail 0 = 0 ∧
      (booting {}).fwFail 1 ≠ 0) ∧
    (let s : State := { booting {} with nvm := { State.reset.nvm with fwB := .vendor 1 0 } }
     s.fwFail 0 = 0 ∧ s.fwFail 1 = 0) ∧
    (let s : State := { booting {} with nvm := { State.reset.nvm with fwA := .bytes, fwB := .vendor 1 0 } }
     s.fwFail 0 ≠ 0 ∧ s.fwFail 1 = 0) ∧
    (let s : State := { booting {} with nvm := { State.reset.nvm with fwA := .bytes } }
     s.fwFail 0 ≠ 0 ∧ s.fwFail 1 ≠ 0) ∧
    (let s := booting { fwLoaded := true, calLoaded := true }
     s.Powered ∧ s.boot.calLoaded = true ∧ s.boot.patched = false ∧ 2 ∉ s.nvm.torn ∧ s.nvEmpty 2 = true) ∧
    (junk.Powered ∧ junk.boot.calLoaded = true ∧ junk.boot.patched = false ∧ 2 ∉ junk.nvm.torn ∧ junk.nvEmpty 2 = false ∧
      junk.patchFail junk.boot.sealed ≠ 0) ∧
    ((booting {}).bbr.scanned = false ∧ (booting {}).bbr.slots = [] ∧ (booting {}).bootDone = false) ∧
    (let s : State := { booting { fwLoaded := true, calLoaded := true, patched := true, hbm := true, recovery := true } with
       bbr := { scanned := true }
       stampers := (List.range 102).map fun n => (n, { booted := true }) }
     s.Powered ∧ s.bootDone = true ∧ s.boot.recovery = true ∧ s.bbr.queue = [] ∧ s.bbr.drops = 0) :=
  ⟨⟨⟨rfl, rfl⟩, by decide +kernel⟩, by decide +kernel, by decide +kernel, by decide +kernel, ⟨⟨rfl, rfl⟩, by decide +kernel⟩,
    ⟨⟨rfl, rfl⟩, by decide +kernel⟩, by decide +kernel, ⟨⟨rfl, rfl⟩, by decide +kernel⟩⟩

theorem witness_ServiceCommands : up.Powered ∧ up.Reaches (ra sSec 0x038) ∧ up.svc.busy = false ∧ up.svc.target = none ∧
    (let s : State := { up with svc := { up.svc with target := some 2 }, tab := [(oSvc 1, 4089)] }
     s.Powered ∧ s.Reaches (ra sSec 0x038) ∧ s.svc.busy = false ∧ s.svc.target = some 2 ∧ 4088 < ofLeBytes ((s.svcBuffer.drop 4).take 4)) ∧
    (let s : State := { up with svc := { up.svc with target := some 2 }, tab := [(oSvc 1, 4088)] }
     let start := (nvRegion 2).1 + ofLeBytes (s.svcBuffer.take 4)
     s.svc.busy = false ∧ s.svc.target = some 2 ∧ ofLeBytes ((s.svcBuffer.drop 4).take 4) = 4088 ∧
       start + 4088 ≤ (nvRegion 2).1 + (nvRegion 2).2) ∧
    (let s : State := { up with svc := { up.svc with busy := true, op := 3, pendingResult := 1 } }
     s.Powered ∧ s.Reaches (ra sSec 0x038) ∧ s.svc.busy = true ∧ s.svc.op ≠ 5) :=
  ⟨⟨rfl, rfl⟩, ⟨by decide, rfl, rfl⟩, rfl, rfl, ⟨⟨rfl, rfl⟩, ⟨by decide, rfl, rfl⟩, by decide +kernel⟩,
    by decide +kernel, ⟨rfl, rfl⟩, ⟨by decide, rfl, rfl⟩, by decide +kernel⟩

/-- The black-box controller at a slot, with one entry to program. -/
def toProgram (head : Nat) (slots : List (Nat × BSlot)) : State :=
  { up with bbr := { scanned := true, head := head, slots := slots, queue := [⟨0, 0, 1, sSec, []⟩] } }

theorem witness_BlackBoxRecord :
    ((toProgram 1023 []).Powered ∧ (toProgram 1023 []).bbrReady = true ∧ Sparse.find (toProgram 1023 []).bbr.slots 1023 = none) ∧
    (toProgram 1024 []).bbr.head % 1024 = 0 ∧
    (toProgram 1024 []).bbr.drops = 0 ∧
    (let s : State := { toProgram 7 [] with bbr := { (toProgram 7 []).bbr with drops := 3 } }
     s.Powered ∧ s.bbrReady = true ∧ Sparse.find s.bbr.slots s.bbr.head = none ∧ 0 < s.bbr.drops ∧
       s.bbr.queue = [⟨0, 0, 1, sSec, []⟩]) ∧
    (let s := toProgram 524_287 [(524_287, ⟨[], .header⟩)]
     s.Powered ∧ s.bbrReady = true ∧ (Sparse.find s.bbr.slots s.bbr.head).isSome = true) ∧
    (let s : State := { up with bbr := { slots := [(2047, ⟨[], .intact⟩)], erasing := some 0 } }
     s.Powered ∧ s.bbr.erasing = some 0 ∧ (∀ e ∈ s.bbr.slots, e.1 / 1024 ≠ 0) ∧ s.dma = [] ∧
       ({ s with bbr := { s.bbr with erasing := some 1 } } : State).bbr.slots.filter (fun e => decide (e.1 / 1024 ≠ 1)) = []) ∧
    (up.Powered ∧ up.Reaches (ra sBbr 0x06C) ∧ up.bbr.dumping = false ∧ up.pageOn (sDma 63) = false ∧ up.bbr.slots = [] ∧
      (up.setRfld (sDma 63) 0x010 1 1 1).pageOn (sDma 63) = true ∧ Sparse.find up.bbr.slots (up.reg (ra sBbr 0x024)).toNat = none) :=
  ⟨⟨⟨rfl, rfl⟩, by decide +kernel⟩, rfl, rfl, ⟨⟨rfl, rfl⟩, by decide +kernel⟩, ⟨⟨rfl, rfl⟩, by decide +kernel⟩,
    ⟨⟨rfl, rfl⟩, by decide +kernel⟩, ⟨rfl, rfl⟩, ⟨by decide, rfl, rfl⟩, by decide +kernel⟩

theorem witness_MonitorSamples :
    (up.Powered ∧ (List.replicate 11 (0x1234 : BitVec 16)).length = 11 ∧ (List.replicate 5 (1001 : BitVec 16)).length = 5 ∧
      up.mon.above = [] ∧ signed 16 (up.reg (ra sMon 0x054)).toNat < signed 16 (1001 : BitVec 16).toNat) ∧
    (let s : State := { up with mon := { up.mon with hot := true, above := [0] } }
     s.Powered ∧ s.mon.hot = true ∧ signed 16 (BitVec.ofInt 16 (signed 16 (s.reg (ra sMon 0x054)).toNat - 20)).toNat
       ≤ signed 16 (s.reg (ra sMon 0x054)).toNat - 20) :=
  ⟨⟨⟨rfl, rfl⟩, by decide +kernel⟩, ⟨rfl, rfl⟩, by decide +kernel⟩

/-- A calibration run of one kind, with what waits beside it. -/
def calibrating (c : Cal) : State := { up with cal := c, loop := { up.loop with lockT := true }, flagLog := [(0, 2)] }

theorem witness_CalibrationRequests :
    (up.Powered ∧ up.Reaches (ra sCal 0x018) ∧ up.served sCal = true ∧ up.cal.pendingFull = none ∧ up.cal.waiting = none ∧
      up.cal.run = none ∧ up.cal.reaches 101 = false ∧ (102 : BitVec 7).toNat = 102 ∧ up.loop.lockT = false ∧
      up.rfld sCal 0x014 0 8 = 20 ∧ (signed 16 (20 : BitVec 16).toNat - signed 16 (up.reg (ra sCal 0x020)).toNat).natAbs = 20 ∧
      (signed 16 (0xFFEB : BitVec 16).toNat - signed 16 (up.reg (ra sCal 0x020)).toNat).natAbs = 21) ∧
    (({ run := some (none, false) } : Cal).run ≠ none ∧ ({ pendingFull := some true } : Cal).pendingFull = some true ∧
      ({ run := some (none, false), todo := [7] } : Cal).reaches 7 = true) ∧
    (let c : Cal := { run := some (some 3, false), reqs := List.replicate 7 (1, false) }
     c.run ≠ none ∧ c.reqs.length < 8 ∧ c.reaches 9 = false ∧ c.pendingFull = none ∧ c.waiting = none) ∧
    (let c : Cal := { run := some (some 3, false), reqs := List.replicate 8 (1, false) }
     c.run ≠ none ∧ 8 ≤ c.reqs.length ∧ c.reaches 9 = false) ∧
    ((calibrating { waiting := some (none, true) }).Powered ∧ (calibrating { waiting := some (none, true) }).cal.run = none ∧
      (calibrating { waiting := some (none, true) }).loop.lockT = true) ∧
    ((calibrating { waiting := some (some 101, false) }).Powered ∧ (calibrating { waiting := some (some 101, false) }).loop.lockT = true) :=
  ⟨⟨⟨rfl, rfl⟩, ⟨by decide, rfl, rfl⟩, by decide +kernel⟩, by decide +kernel, by decide +kernel, by decide +kernel,
    ⟨⟨rfl, rfl⟩, by decide +kernel⟩, ⟨rfl, rfl⟩, by decide +kernel⟩

/-- A run on channel 70 (output 6) at one of its steps, 200 000 edges on. -/
def stepping (k : CalCh) : State :=
  { up with now := 300_000, cal := { run := some (none, false), chans := [(70, k)] } }

theorem witness_CalibrationSteps :
    (let s := calibrating { run := some (none, false), todo := [70] }
     s.Powered ∧ s.cal.run ≠ none ∧ s.cal.todo = [70] ∧ s.cal.chans.length < 8) ∧
    8 ≤ ({ chans := (List.range 8).map fun n => (n, {}) } : Cal).chans.length ∧
    (let s := stepping { step := 0, stepAt := some 100_000 }
     s.Powered ∧ s.calCh 70 = some { step := 0, stepAt := some 100_000 } ∧ max 299_999 0 < 100_000 + 200_000 ∧ 100_000 + 200_000 ≤ max s.now 0) ∧
    (stepping { step := 1, stepAt := some 100_000 }).calCh 70 = some { step := 1, stepAt := some 100_000 } ∧
    (stepping { step := 2, stepAt := some 100_000 }).cal.noCopy = false ∧
    (80 < ((81 : Int) - ((stepping {}).stamper 70).dPin).natAbs ∧ ((80 : Int) - ((stepping {}).stamper 70).dPin).natAbs ≤ 80 ∧
      8 < ((9 : Int) - 0).natAbs) ∧
    (stepping { step := 3, stepAt := some 0 }).calCh 70 = some { step := 3, stepAt := some 0 } ∧
    (let s := (stepping { step := 3, stepAt := some 0 }).setTout 6 { (stepping {}).tout 6 with tapNext := some (1, 16777, 0, 300_000) }
     s.Powered ∧ (s.tout 6).tapNext = some (1, 16777, 0, 300_000) ∧ max s.now (300_000 + 2 ^ 20) ≤ 300_000 + 2 ^ 20 ∧
       (s.advance (300_000 + 2 ^ 20)).bankFree 6 = true ∧ (s.stamper 70).dPinNext = none ∧ 300_000 + 2 ^ 20 < max s.now (300_001 + 2 ^ 20)) ∧
    (let s := stepping { failed := true, endAt := some 300_000 }
     s.Powered ∧ s.calCh 70 = some { failed := true, endAt := some 300_000 } ∧ 300_000 ≤ max s.now 0 ∧ s.cal.run = some (none, false)) :=
  ⟨⟨⟨rfl, rfl⟩, by decide +kernel⟩, by decide +kernel, ⟨⟨rfl, rfl⟩, by decide +kernel⟩, by decide +kernel, by decide +kernel,
    by decide +kernel, by decide +kernel, ⟨⟨rfl, rfl⟩, by decide +kernel⟩, ⟨rfl, rfl⟩, by decide +kernel⟩

/-- A copy of one channel. -/
def copied (n : Nat) : CalCopy := ⟨n, [(3, [0, 1, 2, 3, -1, 5, 6, 2 ^ 31 - 1, -2 ^ 31])]⟩

theorem witness_CalibrationCopies :
    ((copied 7).cseq < 2 ^ 32 ∧ (copied 7).sel.length ≤ 102 ∧
      (∀ e ∈ (copied 7).sel, e.1 < 102 ∧ e.2.length = 9 ∧ ∀ v ∈ e.2, -2 ^ 31 ≤ v ∧ v < 2 ^ 31) ∧
      calRead (calBytes (copied 7)) = some (copied 7)) ∧
    (up.Powered ∧ up.cal.storing = none ∧ up.Reaches (ra sCal 0x018) ∧ up.served sCal = true ∧ up.cal.deferred = false ∧ up.cal.copyB = false) ∧
    (let s : State := { up with now := 10 ^ 13, cal := { deferred := true, copyB := true, lastStore := some 0 } }
     s.Powered ∧ s.cal.storing = none ∧ s.cal.deferred = true ∧ (s.advance 0).storeGapOver = true ∧ s.cal.copyB = true) ∧
    ({ up with cal := { deferred := true, lastStore := some 0 } } : State).storeGapOver = false ∧
    (calRead up.nvm.calA = none ∧ calRead ({ up with nvm := { up.nvm with calA := calBytes (copied 1) } } : State).nvm.calA ≠ none) ∧
    (let s : State := { up with cal := { storing := some (true, ⟨2, []⟩) } }
     s.Powered ∧ s.cal.storing = some (true, ⟨2, []⟩) ∧ s.cal.again = false) ∧
    (let s : State := { up with cal := { run := some (none, false) } }
     s.Powered ∧ s.cal.run = some (none, false) ∧ s.cal.todo = [] ∧ s.cal.chans = [] ∧ s.cal.changed = false) ∧
    (let s := booting { fwLoaded := true }
     s.Powered ∧ s.dev = .booting ∧ s.boot.fwLoaded = true ∧ s.boot.recovery = false ∧ s.boot.calLoaded = false ∧
       calRead s.nvm.calA = none ∧ calRead s.nvm.calB = none ∧ s.cal = {}) ∧
    (let s : State := { booting { fwLoaded := true } with
       nvm := { State.reset.nvm with calA := calBytes (copied 0xFFFF_FFFF), calB := calBytes (copied 0) } }
     s.Powered ∧ s.boot.fwLoaded = true ∧ calRead s.nvm.calA = some (copied 0xFFFF_FFFF) ∧ calRead s.nvm.calB = some (copied 0) ∧
       seqAbove 0 0xFFFF_FFFF = true) :=
  ⟨by decide +kernel, ⟨⟨rfl, rfl⟩, rfl, ⟨by decide, rfl, rfl⟩, by decide +kernel⟩, ⟨⟨rfl, rfl⟩, by decide +kernel⟩, by decide +kernel,
    by decide +kernel, ⟨⟨rfl, rfl⟩, by decide +kernel⟩, ⟨⟨rfl, rfl⟩, by decide +kernel⟩, ⟨⟨rfl, rfl⟩, by decide +kernel⟩, ⟨rfl, rfl⟩,
    by decide +kernel⟩

/-! ### Witnesses: time base, clock outputs, Solstice, time transfer -/

/-- A state whose flag log is up to date. -/
def noted (s : State) : State := { s with flagLog := [(0, s.tbFlags)] }

theorem noted_powered {s : State} (h : s.porst = false) : (noted s).Powered := ⟨h, rfl⟩

/-- Reference 0 in a state of its own, its stamper booted, with a reference loop. -/
def reference (r : Ref) (l : Loop) : State := noted { up with refs := [(0, r)], loop := l, stampers := [(96, { booted := true })], now := 5 }

theorem witness_ReferenceEdges :
    (up.Powered ∧ (up.stamper 96).booted = false) ∧
    (let s := reference {} {}
     s.Powered ∧ (s.stamper 96).booted = true ∧ s.loop.active ≠ some 0 ∧ true = decide (s.refCfg 0 4 1 = 0) ∧
       false = decide (s.refCfg 0 4 1 ≠ 0) ∧ (s.ref 0).adoptDue = false) ∧
    (let s := reference { adoptDue := true } {}
     s.Powered ∧ (s.ref 0).adoptDue = true ∧ s.refCfg 0 5 1 = 1 ∧ 2000 * (s.solEdge : Int) ≤ ((s.advance 9).plainStamp 96 4192 9 0 true 0).1.phys) ∧
    (let s := reference {} { active := some 0, mode := .tracking }
     s.Powered ∧ s.loop.active = some 0 ∧ s.refCfg 0 0 2 = 0 ∧ (s.ref 0).adoptDue = false ∧ s.loop.mode = .tracking ∧ s.loop.pullDue = false) ∧
    (let s := reference {} { active := some 0, mode := .tracking, pullDue := true }
     s.Powered ∧ s.loop.active = some 0 ∧ s.loop.pullDue = true ∧
       2000 * (s.solEdge : Int) ≤ ((s.advance 9).plainStamp 96 4192 9 0 true 0).1.phys) :=
  ⟨⟨⟨rfl, rfl⟩, rfl⟩, ⟨noted_powered rfl, by decide +kernel⟩, ⟨noted_powered rfl, by decide +kernel⟩, ⟨noted_powered rfl, by decide +kernel⟩,
    noted_powered rfl, by decide +kernel⟩

/-- Reference 0, of 10 MHz: a period is 200 edges, and its next edge is missed half a period after it was due. -/
def edged (q : Bool) (n : Nat) (e : Nat) : State := { reference { qualified := q, lastSel := some 0, misses := n } {} with now := e }

theorem witness_ReferenceChecks :
    ((edged true 0 299).Powered ∧ ((edged true 0 299).advance 0).missDue 0 = false ∧ ((edged true 0 300).advance 0).missDue 0 = true ∧
      ((edged true 0 300).ref 0).qualified = true ∧ 0 + 1 < (edged true 0 300).refCfg 0 24 4) ∧
    ((edged true 1 500).Powered ∧ ((edged true 1 500).advance 0).missDue 0 = true ∧ (edged true 1 500).refCfg 0 24 4 ≤ 1 + 1 ∧
      (edged true 1 500).bbr.queue.length < 256) ∧
    (((edged false 0 300).advance 0).missDue 0 = true ∧ ((edged false 0 300).ref 0).qualified = false) ∧
    (max (edged true 0 300).now 19_999_999 < ((edged true 0 300).ref 0).winStart + (edged true 0 300).winLen 0 ∧
      ((edged true 0 300).ref 0).winStart + (edged true 0 300).winLen 0 ≤ max (edged true 0 300).now 20_000_000 ∧
      (edged true 0 300).winPass 0 = false) ∧
    (reference { winFirst := some 0, winLast := some (99_999 * 400_000), winCount := 100_000 } {}).winPass 0 = true ∧
    (let s : State := { edged false 0 300 with now := 4_000_000_000 }
     s.Powered ∧ (s.ref 0).qualified = false ∧ (s.ref 0).lastSel ≠ none ∧ (s.ref 0).okSince + s.refCfg 0 16 8 * 200_000_000 ≤ max s.now 0) ∧
    (let s := reference { lastSel := some 7_999_999_999_000 } {}
     s.Powered ∧ (s.advance 4_000_000_000).missDue 0 = false ∧ (s.ref 0).qualified = false) :=
  ⟨⟨noted_powered rfl, by decide +kernel⟩, ⟨noted_powered rfl, by decide +kernel⟩, by decide +kernel, by decide +kernel, by decide +kernel,
    ⟨noted_powered rfl, by decide +kernel⟩, noted_powered rfl, by decide +kernel⟩

/-- References 0 and 1 qualified or not, with a loop. -/
def two (a b : Bool) (l : Loop) : State := noted { up with refs := [(0, { qualified := a }), (1, { qualified := b })], loop := l }

theorem witness_LoopSelection :
    (let s := two true true { active := some 0, mode := .tracking }
     s.Powered ∧ s.runningCtxs = [] ∧ s.loop.oscHold = false ∧ s.loop.comm = false ∧ s.loop.changed = false ∧ s.loop.selPend = false ∧
       s.candidates = [0, 1]) ∧
    (let s := two true false {}
     s.Powered ∧ s.candidates = [0] ∧ s.loop.active = none) ∧
    (let s := two true true { active := some 1, mode := .tracking }
     s.Powered ∧ s.candidates = [0, 1] ∧ s.rbit sClk 0x014 4 = true ∧ s.rfld sClk 0x014 0 2 = 1) ∧
    (let s := two false false { active := some 0, mode := .tracking }
     s.Powered ∧ s.candidates = [] ∧ s.loop.pull = none) ∧
    (let s := noted { up with loop := { comm := true }, clkWait := [(ra sClk 0x080, 7)] }
     s.Powered ∧ s.loop.comm = true ∧ s.clkWait = [(ra sClk 0x080, 7)]) ∧
    (let s := two true false { mode := .pulling, active := some 0, pull := some ⟨-24, 100, 100_000, none⟩ }
     s.Powered ∧ max s.now 1_200_099 < 100 + pullLen (-24) 100_000 ∧ 100 + pullLen (-24) 100_000 ≤ max s.now 1_200_100) ∧
    (let s := two true false { mode := .thaw, active := some 0, pull := some ⟨-24, 100, 100_000, some .tracking⟩ }
     s.Powered ∧ 100 + pullLen (-24) 100_000 ≤ max s.now 1_200_100) :=
  ⟨⟨noted_powered rfl, by decide +kernel⟩, ⟨noted_powered rfl, by decide +kernel⟩, ⟨noted_powered rfl, by decide +kernel⟩,
    ⟨noted_powered rfl, by decide +kernel⟩, ⟨noted_powered rfl, by decide +kernel⟩, ⟨noted_powered rfl, by decide +kernel⟩,
    noted_powered rfl, by decide +kernel⟩

theorem witness_SynthesisLocks :
    (up.Powered ∧ up.runningCtxs = [] ∧ up.cal.chans = [] ∧ up.loop.lockT = false ∧ up.loop.lockC = false ∧ up.loop.oscHold = false ∧
      up.dev ≠ .locking ∧ 400 * up.rfld sClk 0x04C 0 10 = 40_000 ∧
      ¬(up.loop.outT + up.lockEdges ≤ max up.now 199_999) ∧ up.loop.outT + up.lockEdges ≤ max up.now 200_000) ∧
    (let s := noted { up with dev := .locking, loop := { lockC := true, oscHold := true, oscOk := true }, now := 300_000 }
     s.Powered ∧ s.dev = .locking ∧ s.loop.lockC = true ∧ s.boot.starts = [] ∧ s.loop.oscOk = true ∧
       s.loop.outT + s.lockEdges ≤ max s.now 0) ∧
    (let s := noted { up with loop := { lockC := true, lockT := true, oscHold := true } }
     s.Powered ∧ s.loop.lockT = true ∧ s.loop.oscOk = false ∧ s.loop.pull = none ∧ (s.rfld (sCko 15) 0x014 2 1 = 1) ∧
       ¬((40_001 : Nat) ≤ 400 * s.rfld sClk 0x04C 0 10)) :=
  ⟨⟨⟨rfl, rfl⟩, by decide +kernel⟩, ⟨noted_powered rfl, by decide +kernel⟩, noted_powered rfl, by decide +kernel⟩

theorem witness_ClockOutputs :
    (up.Powered ∧ 0 < up.ckoPer 15 ∧ up.ckoDue = none) ∧
    (let s : State := { up with ckoDue := some 4000, ckoWait := [(ra (sCko 15) 0x020, 12)], loop := { lockT := true, lockC := true } }
     (noted s).Powered ∧ s.ckoDue = some 4000 ∧ max s.now 3999 < 4000 ∧ 4000 ≤ max s.now 4000 ∧ s.reg (ra (sCko 15) 0x020) ≠ 12 ∧
       (s.cko 15).gatedLock = !(if s.rbit (sCko 15) 0x014 2 then s.loop.lockC else s.loop.lockT) ∧
       (s.cko 15).gatedStop = (s.stopOn && s.rbit (sCko 15) 0x014 9)) ∧
    (let s := ({ up with stopSrc := 2 } : State).setRfld (sCko 0) 0x014 9 1 1
     s.Powered ∧ s.Settled ∧ s.runningCtxs = [] ∧ s.rbit (sCko 0) 0x014 9 = true ∧ s.stopSrc ≠ 0 ∧ s.stopOn = false ∧ s.dev ≠ .booting) ∧
    (let s := ({ up with stopOn := true, ckos := [(0, { gatedStop := true })] } : State).setRfld (sCko 0) 0x014 9 1 1
     s.Powered ∧ s.Settled ∧ s.rbit (sCko 0) 0x014 9 = true ∧ s.stopSrc = 0 ∧ s.stopOn = true ∧ (s.cko 0).gatedStop = true ∧
       s.boot.starts = [] ∧ s.dma = []) ∧
    (up.ckoRunning 3 = false ∧ ({ up with commit := { up.commit with ever := true } } : State).ckoRunning 3 = true) :=
  ⟨⟨⟨rfl, rfl⟩, by decide +kernel⟩, ⟨noted_powered rfl, by decide +kernel⟩, ⟨⟨rfl, rfl⟩, settled_of_nil rfl rfl, by decide +kernel⟩,
    ⟨⟨rfl, rfl⟩, settled_of_nil rfl rfl, by decide +kernel⟩, by decide +kernel⟩

/-- The Solstice logic in a state, 10 000 edges on, with every source switched on and the SYNC_IN stamper booted. -/
def solstices (x : Sol) : State :=
  { (up.setRfld sSol 0x014 0 3 7) with sol := x, now := 10_000, stampers := [(100, { booted := true })] }

theorem witness_SolsticeRequests :
    (up.Powered ∧ up.Reaches (ra sSol 0x018) ∧ up.served sSol = true ∧ up.rbit sSol 0x014 1 = false ∧ up.rbit sSol 0x014 2 = false) ∧
    (let s := (solstices {}).setReg64 sSol 0x01C 20_256_000
     s.Powered ∧ s.Reaches (ra sSol 0x018) ∧ s.served sSol = true ∧ s.rbit sSol 0x014 1 = true ∧ s.sol.fixed = none ∧
       s.solRecent 10_000 = false ∧ s.sol.atPend = none ∧ (((10_000 + s.solDelay : Nat) : Int) ≤ (s.advance 0).atEdge) ∧
       ((s.setReg64 sSol 0x01C 20_255_999).advance 0).atEdge = 10_128 ∧
       ((s.setReg64 sSol 0x01C 20_254_000).advance 0).atEdge < (10_000 + s.solDelay : Nat)) ∧
    ((solstices { atPend := some 10_128 }).sol.atPend = some 10_128 ∧ 10_128 ≤ 10_000 + (solstices {}).solDelay ∧
      10_000 + (solstices { atPend := some 10_129 }).solDelay < 10_129) ∧
    ((solstices { last := some 8_001 }).solRecent 10_000 = true ∧ (solstices { last := some 8_000 }).solRecent 10_000 = false) ∧
    (let s := solstices { fixed := some (10_050, .syncIn), reqEdge := some (9_922, .syncIn) }
     s.sol.fixed = some (10_050, .syncIn) ∧ s.sol.reqEdge = some (9_922, .syncIn) ∧ s.solRecent 10_000 = false ∧
       (s.advance 0).atEdge ≠ 10_050 ∧ ((s.setReg64 sSol 0x01C 20_100_000).advance 0).atEdge = 10_050) ∧
    (let s := solstices { fixed := some (10_129, .syncIn), reqEdge := some (10_001, .syncIn) }
     s.sol.reqEdge = some (10_001, .syncIn) ∧ max s.now 0 < 10_001) ∧
    ((up.stamper 100).booted = false ∧ ((up.setRfld sSol 0x014 0 1 1).rbit sSol 0x014 4 = false)) ∧
    (let s := solstices { armed := true }
     let p := ((s.advance 10_000).plainStamp 100 0 10_000 0 true 0).1.phys
     let r := (-((-(p + 1000)) / 2000)).toNat
     s.Powered ∧ (s.stamper 100).booted = true ∧ s.rbit sSol 0x014 0 = true ∧ s.dev ≠ .booting ∧ true = (!s.rbit sSol 0x014 5) ∧
       s.sol.armed = true ∧ s.sol.fixed = none ∧ s.sol.atPend = none ∧ 0 ≤ p ∧ s.solRecent r = false ∧ r = 10_000 ∧
       (solstices { armed := true, last := some 10_000 }).solRecent r = true) ∧
    (10_000 < (10_001 : Nat) ∧ SolSrc.host ≠ .syncIn ∧ (9_922 : Nat) < 10_000) ∧
    (let s := solstices {}
     s.Powered ∧ s.rbit sSol 0x014 2 = true ∧ s.dev ≠ .booting ∧ s.sol.fixed = none ∧ s.sol.atPend = none ∧ (s.ttl 32).valid = false ∧
       s.solRecent 10_000 = false) ∧
    (let s := { solstices {} with ttls := [(32, { valid := true })], par := { up.par with aligned := true } }
     s.Powered ∧ (s.ttl 32).valid = true ∧ s.par.aligned = true ∧ ((10_000 + s.solDelay : Nat) : Int) ≤
       ((s.advance 0).physOf (m64 (((20_256_000 : Word64).toNat : Int) - s.pairTheta)) + 1000) / 2000) :=
  ⟨⟨⟨rfl, rfl⟩, ⟨by decide, rfl, rfl⟩, by decide +kernel⟩, ⟨⟨rfl, rfl⟩, ⟨by decide, rfl, rfl⟩, by decide +kernel⟩, by decide +kernel,
    by decide +kernel, by decide +kernel, by decide +kernel, by decide +kernel,
    ⟨⟨rfl, rfl⟩, by decide +kernel⟩, by decide, ⟨⟨rfl, rfl⟩, by decide +kernel⟩, ⟨rfl, rfl⟩, by decide +kernel⟩

/-! ### Witnesses: the epoch, time transfer, the pair, timing inputs -/

theorem witness_EpochMoves :
    (up.Powered ∧ up.solWaits = none ∧ (up.advance 5).wrapDue = false) ∧
    (let s := (solstices { fixed := some (10_128, .host) }).setRfld sSol 0x014 16 8 100
     s.Powered ∧ s.solWaits = some (10_128, .host, false) ∧ max s.now 10_127 < 10_128 ∧ 10_128 ≤ max s.now 10_128 ∧ s.sol.risen = false ∧
       max s.now 10_027 + s.rfld sSol 0x014 16 8 < 10_128 ∧ 10_128 ≤ max s.now 10_028 + s.rfld sSol 0x014 16 8) ∧
    (let s := solstices { syncOut := true, fallAt := some 10_228 }
     s.Powered ∧ s.sol.fallAt = some 10_228 ∧ max s.now 10_227 < 10_228 ∧ 10_228 ≤ max s.now 10_228) ∧
    (let s : State := { up with now := 9_223_372_036_854_776 }
     s.Powered ∧ (s.advance 0).wrapDue = true ∧ s.meas = [] ∧ (({ s with now := 9_223_372_036_854_775 } : State).advance 0).wrapDue = false) :=
  ⟨⟨⟨rfl, rfl⟩, by decide +kernel⟩, ⟨⟨rfl, rfl⟩, by decide +kernel⟩, ⟨⟨rfl, rfl⟩, by decide +kernel⟩, ⟨rfl, rfl⟩, by decide +kernel⟩

theorem witness_OnlySolsticeMovesOrigin :
    ∃ s', exec (.solstice 10_128) (solstices { fixed := some (10_128, .host) }) = .next s' ∧ s'.solEdge ≠ (solstices {}).solEdge :=
  ⟨_, rfl, by decide +kernel⟩

theorem witness_SolsticeStages :
    let s := { solstices { fixed := some (10_128, .syncIn), atPend := some 12_000 } with planes := [(3, { active := true })] }
    s.Powered ∧ s.Settled ∧ s.runningCtxs = [] ∧ s.solWaits = some (10_128, .syncIn, false) ∧ 10_128 ≤ max s.now 10_128 ∧ s.meas = [] ∧
      (∀ n, n < 64 → s.tileMode n = 0) ∧ s.hctxs = [] ∧ s.caps = [] ∧ s.sol.atPend ≠ none ∧ s.ckoWait = [] ∧ (s.plane 3).active = true :=
  ⟨⟨rfl, rfl⟩, settled_of_nil rfl rfl, by decide +kernel⟩

/-- Link 3, or 32, with a state of its own, 2 000 000 edges after the Solstice. -/
def link (k : Nat) (x : Ttl) : State := (({ up with now := 2_000_000 } : State).setRfld (sTtl k) 0x014 0 1 1).setTtl k x

theorem witness_TimeTransfer :
    (let s := link 32 {}
     s.Powered ∧ s.rbit (sTtl 32) 0x014 0 = true ∧ 0 < max s.now 0 - s.solEdge ∧
       (max s.now 0 - s.solEdge) % (s.reg (ra (sTtl 32) 0x018)).toNat = 0 ∧ (s.ttl 32).marked = none ∧ (s.ttl 32).tx = none ∧
       ¬(max s.now 2_000_001 - s.solEdge) % (s.reg (ra (sTtl 32) 0x018)).toNat = 0) ∧
    (let s (c : Tout) : State := ((link 3 {}).setRfld (sTout 3) 0x014 0 2 3).setTout 3 c
     (s { gatedDorm := false }).Powered ∧ (s {}).rbit (sTtl 3) 0x014 0 = true ∧
       (max (s {}).now 0 - (s {}).solEdge) % ((s {}).reg (ra (sTtl 3) 0x018)).toNat = 0 ∧ ((s {}).ttl 3).marked = none ∧ (s {}).toSrc 3 = 3 ∧
       (s {}).inReset (sTout 3) = false ∧ ((s { gatedDorm := false }).tout 3).gated = false ∧ ((s {}).tout 3).gatedDorm = true ∧
       ((s {}).tout 3).gatedStop = false ∧ ((s { gatedStop := true }).tout 3).gatedStop = true) ∧
    (let s := link 3 { marked := some 5 }
     s.Powered ∧ (s.ttl 3).marked ≠ some (max s.now 0) ∧ (s.ttl 3).tx = none ∧ s.toSrc 3 ≠ 3) ∧
    (let s := link 3 { marked := some 5, tx := some 1, echo := some 2, far := some 3, repTx := some 4 }
     s.Powered ∧ (s.ttl 3).marked ≠ some (max s.now 0) ∧ (s.ttl 3).far ≠ none ∧ (s.ttl 3).repRx = none) ∧
    (let s := link 3 { tx := some 100_000, echo := some 160_000, far := some 180_000, repRx := some 130_000, repTx := some 150_000 }
     s.Powered ∧ s.rfld (sTtl 3) 0x014 1 2 = 0 ∧ s.farQps 3 130_000 = 130_000 ∧ Machine.sdiff 130_000 100_000 = 30_000 ∧
       (Machine.sdiff 160_000 100_000 - (30_000 + Machine.sdiff 180_000 150_000 + (s.reg (ra (sTtl 3) 0x01C)).toNat)).natAbs ≤ s.rfld (sTtl 3) 0x024 0 24 ∧
       s.rfld (sTtl 3) 0x024 0 24 < (Machine.sdiff 160_000 100_000 - (30_000 + Machine.sdiff 184_001 150_000 + (s.reg (ra (sTtl 3) 0x01C)).toNat)).natAbs) ∧
    (let s := link 32 { tx := some 100_000 }
     s.Powered ∧ (s.ttl 32).tx = some 100_000 ∧ (s.ttl 32).repRx = none ∧ (s.ttl 32).echo = none ∧
       2000 * (s.solEdge : Int) ≤ ((s.advance 0).plainStamp 101 4196 1_000 0 true 0).1.phys ∧
       0 < Machine.sdiff ((s.advance 0).plainStamp 101 4196 1_000 0 true 0).1.time 100_000) :=
  ⟨⟨⟨rfl, rfl⟩, by decide +kernel⟩, ⟨⟨rfl, rfl⟩, by decide +kernel⟩, ⟨⟨rfl, rfl⟩, by decide +kernel⟩, ⟨⟨rfl, rfl⟩, by decide +kernel⟩,
    ⟨⟨rfl, rfl⟩, by decide +kernel⟩, ⟨rfl, rfl⟩, by decide +kernel⟩

/-- Taking part in the pair, healthy, and free of the bus's last SOF from edge 2000. -/
def paired (p : Par) (cfg : Nat) : State :=
  noted (({ up with
    commit := { up.commit with ever := true }
    par := { p with cfg := cfg, sofAt := some 0 }, loop := { lockT := true, lockC := true, oscOk := true, mode := .tracking } } : State).setRegN sPar 0x014 cfg)

theorem witness_ClaimBus :
    ((paired {} 0x0E00).Powered ∧ (paired {} 0x0E00).parWait = [] ∧ 0x0E00 / 2 ^ 12 % 2 = 0 ∧
      max (paired {} 0x0E00).now 1999 < 0 + 2000 ∧ 0 + 2000 ≤ max (paired {} 0x0E00).now 2000 ∧ (paired {} 0x0E00).par.inFrame = false) ∧
    (let s := paired {} 0x1E35
     let v : State := { s.advance 2000 with par := { s.par with cfg := 0x1E35 } }
     s.Powered ∧ (s.reg (ra sPar 0x014)).toNat = 0x1E35 ∧ 0x1E35 / 2 ^ 12 % 2 = 1 ∧ v.wouldReady = true ∧ s.par.recovering = none ∧
       s.par.lastValid = false ∧ ({ v with dev := .dormant } : State).wouldReady = false) ∧
    (let p := (paired { lastValid := true, last := 0x80 } 0x1E35).par
     p.claimed = false ∧ p.lastValid = true ∧ p.won = false ∧ p.last / 2 ^ 7 % 2 = 1) ∧
    (let s := paired { recovering := some 0, timedOut := true } 0x1E35
     s.Powered ∧ s.par.recovering ≠ none ∧ s.par.timedOut = true) ∧
    (let s := paired { recovering := some 0 } 0x1E35
     s.Powered ∧ s.par.aligned = false ∧ s.par.timedOut = false ∧ s.par.lastValid = false ∧ s.parF 10 1 = 1 ∧
       max s.now 119_999_999_999 < 0 + s.rfld sPar 0x020 0 16 * 2_000_000 ∧ 0 + s.rfld sPar 0x020 0 16 * 2_000_000 ≤ max s.now 120_000_000_000) ∧
    (let s := paired { inFrame := true, sent := 0x80 } 0x1E35
     s.Powered ∧ s.par.sofAt = some 0 ∧ s.par.inFrame = true ∧ 2 * max s.now 1312 < 2 * 0 + 2625 ∧ 2 * 0 + 2625 ≤ 2 * max s.now 1313 ∧
       crc8 (bitsMsb 8 0x81 ++ bitsMsb 4 0) = 216) :=
  ⟨⟨noted_powered rfl, by decide +kernel⟩, ⟨noted_powered rfl, by decide +kernel⟩, by decide +kernel, ⟨noted_powered rfl, by decide +kernel⟩,
    ⟨noted_powered rfl, by decide +kernel⟩, noted_powered rfl, by decide +kernel⟩

theorem witness_PairLink :
    (up.Powered ∧ up.par.linkUp = false ∧ up.par.idClash = false ∧ (0 : BitVec 3).toNat = up.parF 0 3 ∧ up.par.won = false ∧
      (List.replicate 512 ((0 : Word), (0 : Word))).length = 512) ∧
    (let s : State := { up with par := { up.par with linkUp := true, stateAt := 7, won := true } }
     s.Powered ∧ s.par.linkUp = true ∧ s.par.won = true ∧ max s.now 200_006 < 7 + 200_000 ∧ 7 + 200_000 ≤ max s.now 200_007) :=
  ⟨⟨⟨rfl, rfl⟩, by decide +kernel⟩, ⟨rfl, rfl⟩, by decide +kernel⟩

/-- Input 63 with its stamper booted, a slope mode and a FIFO length. -/
def input (slope : Nat) (x : Stamper) (n : Nat) : State :=
  (({ up with stampers := [(63, { x with booted := true })] } : State).setRfld (sTin 63) 0x014 4 2 slope).setTin 63
    { fifo := List.replicate n ⟨4159, 0, 0, true, 0, 0⟩, nextOut := 8 }

theorem witness_TinEdges :
    (up.Powered ∧ ¬(up.tinCapturing 63 = true ∧ tinCandidate 0 true = true)) ∧
    (let s := input 2 { refuse := some true } 0
     s.Powered ∧ s.tinCapturing 63 = true ∧ s.rfld (sTin 63) 0x014 4 2 = 2 ∧ tinCandidate 2 true = true ∧ (s.stamper 63).refuse = some true) ∧
    (let s := input 2 { lastFall := some 199_001 } 0
     s.Powered ∧ (s.stamper 63).refuse ≠ some true ∧ captures (s.stamper 63) true true 200_000 = false ∧ captures (s.stamper 63) true true 200_001 = true ∧
       captures (s.stamper 63) false true 200_000 = true) ∧
    (let a : Int := 2000 * (100 : Int) - (codeToL (((input 1 {} 0).stamper 63).interp (((input 1 {} 0).stamper 63).converter 100 0)) 0).1
     captures ((input 1 {} 0).stamper 63) false false a = true) ∧
    ((input 1 {} 8191).Powered ∧ ((input 1 {} 8191).tin 63).fifo.length < 8192 ∧ 8192 ≤ ((input 1 {} 8192).tin 63).fifo.length) :=
  ⟨⟨⟨rfl, rfl⟩, by decide +kernel⟩, ⟨⟨rfl, rfl⟩, by decide +kernel⟩, ⟨⟨rfl, rfl⟩, by decide +kernel⟩, by decide +kernel, ⟨rfl, rfl⟩,
    by decide +kernel⟩

/-- Forwarder 0 with stamps routed to it and queued. -/
def forwarding (r q : Nat) : State :=
  { up with fwds := [(0, { routed := List.replicate r ⟨4096, 0, 0, true, 2, 0⟩, queue := List.replicate q ⟨4096, 0, 0, true, 2, 0⟩ })] }

theorem witness_StampRouting :
    (let s := input 0 {} 1
     s.Powered ∧ (s.tin 63).fifo ≠ [] ∧ max s.now 7 < (s.tin 63).nextOut ∧ (s.tin 63).nextOut ≤ max s.now 8) ∧
    (up.tin 62).fifo = [] ∧ (up.fwd 0).routed = [] ∧ ((up.fwd 1).queue = [] ∧ up.Settled) ∧
    (let f : Fwd := { (forwarding 0 1).fwd 0 with outAt := 7, outN := 3 }
     f.queue.length = 1 ∧ 3 ≤ (if f.outAt = max (up.now) 7 then f.outN else 0) ∧ (if f.outAt = max (up.now) 8 then f.outN else 0) < 3) ∧
    ((forwarding 1 65_535).Powered ∧ ((forwarding 1 65_535).fwd 0).queue.length = 65_535 ∧ ((forwarding 1 65_535).fwd 0).routed.length = 1) ∧
    65_536 ≤ ((forwarding 1 65_536).fwd 0).queue.length ∧
    ((forwarding 0 1).Powered ∧ (forwarding 0 1).Settled ∧ ((forwarding 0 1).fwd 0).queue.length = 1 ∧ (forwarding 0 1).capsOf 4096 = [] ∧
      (forwarding 0 1).defsOf 4096 = []) ∧
    (let s := (({ forwarding 0 1 with caps := [(511, { active := true })] } : State).setTabw (oRec 511 0) (1 <<< 13)).setTabw (oRec 511 5) 4096
     s.Powered ∧ s.Settled ∧ s.defsOf 4096 = [] ∧ s.capsOf 4096 = [511] ∧ s.recDie 511 = 0 ∧ (s.cap 511).full = false ∧ (s.cap 511).ovf = false ∧
       s.writerLevel 0 + 1 ≤ 65536) ∧
    (let s := ({ forwarding 0 1 with hdefs := [(65535, { active := true })] } : State).setTabw (oHdef 65535 0) 4096
     s.Powered ∧ s.Settled ∧ s.capsOf 4096 = [] ∧ s.defsOf 4096 = [65535] ∧ s.hHome 65535 = 0 ∧ s.hStart 65535 = 4096 ∧ s.hStop 65535 ≠ 4096 ∧
       s.histTakes 65535 26 ⟨4096, 0, 0, true, 2, 0⟩ = true) :=
  ⟨⟨⟨rfl, rfl⟩, by decide +kernel⟩, rfl, rfl, ⟨rfl, settled_of_nil rfl rfl⟩, by decide +kernel, ⟨⟨rfl, rfl⟩, by decide +kernel⟩, by decide +kernel,
    ⟨⟨rfl, rfl⟩, settled_of_nil rfl rfl, by decide +kernel⟩, ⟨⟨rfl, rfl⟩, settled_of_caps rfl rfl, by decide +kernel⟩,
    ⟨rfl, rfl⟩, settled_of_nil rfl rfl, by decide +kernel⟩

/-! ### Witnesses: Equinoxes, measurement -/

/-- Channel 63 (input 63) with a stamper, at a time. -/
def channel (x : Stamper) (now : Nat) : State := { up with stampers := [(63, x)], now := now }

theorem witness_Equinoxes :
    (up.Powered ∧ (up.stamper 63).booted = false ∧ up.gateReqs = [] ∧ (up.stamper 63).eqx = none ∧ up.armedSlots = []) ∧
    (let x : Stamper := { booted := true, bootRun := 4 }
     (channel x 0).Powered ∧ 1_048_511 < x.lastSwap + 2 ^ 20 - 64 ∧ x.lastSwap + 2 ^ 20 - 64 ≤ 1_048_512 ∧ x.eqx = none ∧ x.windowAt = none ∧
       x.yAt = none ∧ ({ channel x 0 with gateReqs := [63] } : State).gateReqs.contains 63 = true ∧ (channel x 0).inReset (sTin 63) = false ∧
       (channel x 0).calCh 63 = none) ∧
    (let x : Stamper := { booted := true, bootRun := 4, eqx := some ⟨100, false⟩, fails := 3 }
     (channel x 0).Powered ∧ ((channel x 0).stamper 63).eqx = some ⟨100, false⟩ ∧ max 0 163 < 100 + 64 ∧ 100 + 64 ≤ max 0 164 ∧
       eqxPass (List.replicate 8 256) (List.replicate 8 512) = true ∧ eqxPass (List.replicate 8 256) (List.replicate 8 256) = false) ∧
    (let x : Stamper := { booted := true, bootRun := 4, windowAt := some 164, yAt := some 172, reqWait := true }
     (channel x 0).Powered ∧ ((channel x 0).stamper 63).windowAt = some 164 ∧ x.eqx = none ∧ max 0 171 < 164 + 8 ∧ 164 + 8 ≤ max 0 172 ∧
       x.yAt = some (164 + 8) ∧ (channel x 0).armedSlots = [] ∧ (channel x 0).calCh 63 = none ∧ ({ x with yAt := none, reqWait := false } : Stamper).yAt = none) ∧
    (let x : Stamper := { eqx := some ⟨0, false⟩, bootRun := 2, bootPass := 3 }
     (channel x 64).Powered ∧ x.bootRun < 3 ∧ x.bootPass < 2 ^ x.bootRun) ∧
    (let x : Stamper := { eqx := some ⟨0, false⟩, bootRun := 3, bootPass := 6 }
     (channel x 64).Powered ∧ x.bootRun = 3 ∧ x.booted = false ∧ x.bootPass ∈ [3, 5, 6]) :=
  ⟨⟨⟨rfl, rfl⟩, by decide +kernel⟩, ⟨⟨rfl, rfl⟩, by decide +kernel⟩, ⟨⟨rfl, rfl⟩, by decide +kernel⟩, ⟨⟨rfl, rfl⟩, by decide +kernel⟩,
    ⟨⟨rfl, rfl⟩, by decide +kernel⟩, ⟨rfl, rfl⟩, by decide +kernel⟩

/-- Measurement slot 1023 with three words, a gate length of 1000, a state of its own, and stamps that arrive. -/
def slot (w0 w1 w2 : Word) (m : MSlot) (l : List Stamp) : State :=
  (((({ up with meas := [(1023, m)], measIn := l } : State).setTabw (oMeas 1023 0) w0).setTabw (oMeas 1023 1) w1).setTabw (oMeas 1023 2) w2).setTabw
    (oMeas 1023 3) 1000

/-- A stamp of a source. -/
def stampOf (src : Nat) (p : Int) (rising : Bool) : Stamp := ⟨src, p, p.toNat, rising, 0, 0⟩

theorem witness_MeasurementGates :
    (up.Powered ∧ up.measIn = [] ∧ ({ up with measIn := [stampOf 4096 0 true] } : State).armedSlots = [] ∧ (up.mslot 1023).gate = none) ∧
    (let s := slot 4 4096 0 { armed := true, gate := some { openP := 500, openT := 500, closeP := 901, closeT := 901 } } [stampOf 4096 900 true]
     s.Powered ∧ (s.armedSlots.filter fun j => s.slotUses j 4096) = [1023] ∧ s.mGsrc 1023 = 0 ∧ s.slotNames 1023 4096 = true ∧
       (s.mslot 1023).closed = [] ∧ ((s.mslot 1023).gate.map (·.openP)) = some 500 ∧ (500 : Int) ≤ (stampOf 4096 900 true).phys ∧
       (stampOf 4096 900 true).phys < 901 ∧ 1 < s.mMode 1023) ∧
    (let s := slot 0x104 4096 5 { armed := true } [stampOf 4101 900 true]
     s.Powered ∧ (s.armedSlots.filter fun j => s.slotUses j 4101) = [1023] ∧ s.mGsrc 1023 = 1 ∧ s.mGtin 1023 = 5 ∧ s.slotNames 1023 4101 = false ∧
       true = (!s.tbit (oMeas 1023 0) 10) ∧ (s.mslot 1023).gate = none ∧ (s.mslot 1023).requested = false ∧ (s.mslot 1023).readyP ≤ 900 ∧
       (s.mslot 1023).recent = []) ∧
    ((slot 0x104 4096 5 { armed := true, requested := true } [stampOf 4101 900 true]).mslot 1023).requested = true ∧
    (2000 * (up.solEdge : Int) ≤ 900 ∧ (900 : Int) < 2000 * (({ up with solEdge := 1 } : State).solEdge : Int)) ∧
    (let s := slot 0x104 4096 5 { armed := true, gate := some { openP := 500, openT := 500, sol := some 800 } } [stampOf 4101 900 false]
     s.Powered ∧ (s.armedSlots.filter fun j => s.slotUses j 4101) = [1023] ∧ s.mGsrc 1023 = 1 ∧ s.slotNames 1023 4101 = false ∧
       ((s.mslot 1023).gate.bind (·.sol)) = some 800 ∧ (s.mslot 1023).closed = []) ∧
    (let s := slot 0x104 4096 5 { armed := true, gate := some { openP := 500, openT := 500 } } [stampOf 4101 900 false]
     s.Powered ∧ s.mGsrc 1023 = 1 ∧ false ≠ (!s.tbit (oMeas 1023 0) 10) ∧ (s.mslot 1023).gate ≠ none ∧
       max s.now (2 ^ 48 - 1) = ((500 : Int) / 2000 + (2 ^ 48 - 1)).toNat) ∧
    (let s := slot 4 4096 0 { armed := true, nextOpen := some 180 } []
     s.Powered ∧ (s.mslot 1023).nextOpen = some 180 ∧ max s.now 99 + 80 < 180 ∧ 180 ≤ max s.now 100 + 80 ∧ (s.mslot 1023).reqSent = false ∧
       s.mGsrc 1023 = 0 ∧ (s.mslot 1023).gate = none ∧ 180 ≤ max s.now 180 ∧ s.mGlen 1023 = 1000) ∧
    (let s := slot 4 4096 0 { armed := true, gate := some { openP := 360_000, openT := 0, closeP := 2_360_000 } } []
     s.Powered ∧ ((s.mslot 1023).gate.map (·.closeP)) = some 2_360_000 ∧ (s.mslot 1023).nextOpen = none ∧ (2_360_000 : Int) ≤ 2000 * (max s.now 1180 : Nat)) :=
  ⟨⟨⟨rfl, rfl⟩, by decide +kernel⟩, ⟨⟨rfl, rfl⟩, by decide +kernel⟩, ⟨⟨rfl, rfl⟩, by decide +kernel⟩, by decide +kernel,
    by decide, ⟨⟨rfl, rfl⟩, by decide +kernel⟩, ⟨⟨rfl, rfl⟩, by decide +kernel⟩, ⟨⟨rfl, rfl⟩, by decide +kernel⟩, ⟨rfl, rfl⟩, by decide +kernel⟩

/-- A COUNT gate of 1000 edges with two stamps, closed, and a state of the block in progress. -/
def counted (w0 : Word) (nstat : Word) (devs : Nat) (x : Stamper) (l : List Stamp) : State :=
  { (slot w0 4096 0 { armed := true, closed := [{ openP := 2000, openT := 2000, closeP := 2_002_000, closeT := 2_002_000, a := l }]
                      devs := List.replicate devs ⟨none, 0, 0, 0, 0, 0⟩ } []).setTabw (oMeas 1023 7) nstat with stampers := [(0, x)] }

/-- The first closed gate of slot 1023, and what it gives at an edge. -/
def gateAt (s : State) (t : Nat) : Option (Bool × GateRes) :=
  (s.mslot 1023).closed.head?.map fun g => ((s.advance t).gateDue 1023 g, (s.advance t).gateRes 1023 g none)

theorem witness_MeasurementResults :
    (let s := counted 4 0 0 {} [stampOf 4096 3000 true, stampOf 4096 4000 true]
     s.Powered ∧ s.Settled ∧ s.oldWords = [] ∧ (s.mslot 1023).closed.length = 1 ∧ (s.mslot 1023).lane = [] ∧ (s.mslot 1023).doneClose = none ∧
       (s.mslot 1023).gate.bind (·.sol) = none ∧
       (gateAt s 1002).map (·.1) = some false ∧ (gateAt s 1003).map (·.1) = some true ∧ (gateAt s 1003).map (·.2.produced) = some true ∧
       s.mFrost 1023 = false ∧ s.mMode 1023 = 2 ∧ s.tfld (oMeas 1023 7) 0 24 = 0 ∧ s.tbit (oMeas 1023 0) 18 = false ∧
       s.tfld (oMeas 1023 6) 0 24 ≤ (polEdges (s.mSrcA 1023) (s.tbit (oMeas 1023 0) 4) [stampOf 4096 3000 true, stampOf 4096 4000 true]).length) ∧
    (let s := counted (4 + 2 ^ 18) 0 0 { calRun := true } [stampOf 4096 3000 true, stampOf 4096 4000 true]
     s.Powered ∧ s.mFrost 1023 = true ∧ s.tbit (oMeas 1023 0) 18 = true ∧ (gateAt s 1003).map (·.2.produced) = some true) ∧
    (let s := counted 0 0 0 {} []
     s.Powered ∧ (gateAt s 1003).map (·.1) = some true ∧ (gateAt s 1003).map (·.2.produced) = some false) ∧
    (let s := counted 4 2 0 {} []
     s.Powered ∧ (s.mslot 1023).devs.length + 1 < s.tfld (oMeas 1023 7) 0 24 ∧ (gateAt s 1003).map (·.1) = some true) ∧
    (let s := counted 4 2 1 {} []
     s.Powered ∧ (s.mslot 1023).devs.length + 1 = s.tfld (oMeas 1023 7) 0 24 ∧ (gateAt s 1003).map (·.1) = some true) ∧
    (let s := slot 0x104 4096 5 { armed := true, gate := some { openP := 500, openT := 500, sol := some 800 } } []
     s.Powered ∧ (s.mslot 1023).closed = [] ∧ (s.mslot 1023).lane = [] ∧ (s.mslot 1023).gate.bind (·.sol) = some 800 ∧
       (s.advance 9).srcPast 1023 (4096 + s.mGtin 1023) 800 = true) :=
  ⟨⟨⟨rfl, rfl⟩, settled_of_nil rfl rfl, by decide +kernel⟩, ⟨⟨rfl, rfl⟩, by decide +kernel⟩, ⟨⟨rfl, rfl⟩, by decide +kernel⟩,
    ⟨⟨rfl, rfl⟩, by decide +kernel⟩, ⟨⟨rfl, rfl⟩, by decide +kernel⟩, ⟨rfl, rfl⟩, by decide +kernel⟩

theorem witness_MeasurementReads :
    (up.Powered ∧ up.laneIn = [] ∧ up.Reaches (ra sMeas 0x020) ∧ up.served sMeas = true) ∧
    (let s (a : Bool) (n k : Nat) : State :=
       { up with laneIn := [(1, stampOf 7 900 true)], laneOut := [(1, (5, k))], regs := []
                 meas := [(1023, { armed := a, lane := List.replicate n (stampOf 7 800 true), drained := 5 })], now := 5
                 tab := [(oMeas 1023 1, 7)] }
     ((s true 4095 0).Powered ∧ ((s true 4095 0).mslot 1023).drained = max (s true 4095 0).now 5 ∧
       ((s true 4095 0).armedSlots.filter fun j => (s true 4095 0).slotNames j 7) = [1023] ∧ ((s true 4095 0).mslot 1023).lane.length < 4096 ∧
       4096 ≤ ((s true 4096 0).mslot 1023).lane.length ∧ (s false 0 0).armedSlots = []) ∧
     (((s true 0 1).advance 5).laneSent 1 < 2 ∧ 2 ≤ ((s true 0 2).advance 5).laneSent 1 ∧ ((s true 0 2).advance 6).laneSent 1 < 2)) :=
  ⟨⟨⟨rfl, rfl⟩, rfl, ⟨by decide, rfl, rfl⟩, by decide +kernel⟩, ⟨⟨rfl, rfl⟩, by decide +kernel⟩, by decide +kernel⟩

/-! ### Witnesses: timing outputs, lanes, rebase and bins -/

/-- Output 31, not gated, of a source, with a channel state of its own. -/
def output (src : Nat) (x : Tout) : State := (up.setRfld (sTout 31) 0x014 0 2 src).setTout 31 { x with gatedDorm := false }

/-- A pulse of 16 ns placed at an instant. -/
def pulse (p : Int) : Place := { level := false, value := true, tP := p, width := 64_000 }

/-- A leading transition in flight, launched at edge 100. -/
def flying (sure : Bool) : Trans := { p := 200_500, high := true, active := true, leading := true, lead := 100, edge := 100, code := 128, sure := sure }

theorem witness_Placements :
    (let s := output 0 { queue := List.replicate 63 (pulse 0), transit := [pulse 0] }
     s.Powered ∧ s.Reaches (ra (sTout 31) 0x03C) ∧ s.inReset (sTout 31) = false ∧ s.served (sTout 31) = true ∧ s.toSrc 31 = 0 ∧
       (s.tout 31).queue.length < 64 ∧ (s.tout 31).transit.length = 1 ∧ (output 0 {}).tout 31 = { gatedDorm := false }) ∧
    64 ≤ ((output 0 { queue := List.replicate 64 (pulse 0) }).tout 31).queue.length ∧
    ((output 2 {}).toSrc 31 = 2 ∧ ((output 2 {}).tout 31).gatedStop = false ∧ ((output 2 {}).tout 31).queue.length < 64) ∧
    (let s := output 1 { queue := [pulse 439_999], headAt := 100, gatedLock := true }
     s.Powered ∧ (s.tout 31).gated = true ∧ (s.tout 31).headOk = false) ∧
    (let s := output 1 { queue := [pulse 439_999], headAt := 100 }
     s.Powered ∧ (s.tout 31).gated = false ∧ (s.tout 31).seqHeld = false ∧ s.placeP 31 (pulse 439_999) < 2000 * ((s.tout 31).headAt : Int) + 240_000 ∧
       2000 * ((s.tout 31).headAt : Int) + 240_000 ≤ s.placeP 31 (pulse 440_000)) ∧
    ((output 1 { queue := [pulse 440_000], headAt := 100 }).conflicts 31 (pulse 440_000) = false ∧
      (output 1 { queue := [pulse 440_000], headAt := 100, doneTrans := some 440_000 }).conflicts 31 (pulse 440_000) = true ∧
      (output 1 { queue := [pulse 440_000], headAt := 100, flight := [flying false] }).conflicts 31 (pulse 200_500) = true) ∧
    (let s := output 1 { queue := [pulse 440_000], headAt := 100, headOk := true }
     s.Powered ∧ (s.tout 31).headOk = true ∧ ((max s.now 99 : Nat) : Int) < (s.placeP 31 (pulse 440_000) - 240_000) / 2000 ∧
       (s.placeP 31 (pulse 440_000) - 240_000) / 2000 ≤ ((max s.now 100 : Nat) : Int)) :=
  ⟨⟨⟨rfl, rfl⟩, ⟨by decide, rfl, rfl⟩, by decide +kernel⟩, by decide +kernel, by decide +kernel, ⟨⟨rfl, rfl⟩, by decide +kernel⟩,
    ⟨⟨rfl, rfl⟩, by decide +kernel⟩, by decide +kernel, ⟨rfl, rfl⟩, by decide +kernel⟩

theorem witness_OutputGating :
    ((launchOf 200_500 0 16777).2 ≠ 0) ∧
    (let s := output 0 { flight := [flying false] }
     s.Powered ∧ ((max s.now 99 : Nat) : Int) < (flying false).edge ∧ (flying false).edge ≤ ((max s.now 100 : Nat) : Int) ∧
       (s.tout 31).gated = false ∧ (flying false).marker = false ∧ (flying false).high ≠ (s.tout 31).high ∧
       (flying false).high = ((output 0 { flight := [flying false], high := true }).tout 31).high) ∧
    (let s := output 0 { flight := [flying false], gatedStop := true }
     s.Powered ∧ (s.tout 31).gated = true ∧ (flying false).sure = false ∧ (flying true).sure = true) ∧
    (let s := ({ output 0 { queue := [pulse 0], transit := [pulse 0], high := true, active := true, leadP := some 100 } with
                 stopSrc := 1 } : State).setRfld (sTout 31) 0x014 11 1 1
     s.Powered ∧ s.Settled ∧ s.runningCtxs = [] ∧ s.stopSrc ≠ 0 ∧ s.stopOn = false ∧ s.dev ≠ .booting ∧ s.rbit (sTout 31) 0x014 11 = true ∧
       (s.tout 31).gated = false ∧ (s.tout 31).flight = [] ∧ (s.tout 31).high = true ∧ (s.tout 31).active = true ∧
       (s.tout 31).leadP = some 100 ∧ (s.tout 31).passed = none) ∧
    (let s : State := (output 0 {}).setRfld (sTout 31) 0x014 11 1 0
     s.rbit (sTout 31) 0x014 11 = false) ∧
    (let s : State := { output 0 { gatedStop := true, flight := [flying false, flying true] } with stopOn := true }
     s.Powered ∧ s.Settled ∧ s.stopSrc = 0 ∧ s.stopOn = true ∧ s.boot.starts = [] ∧ s.dma = [] ∧ s.toInv 31 = false ∧
       (s.tout 31).gatedStop = true ∧ (s.tout 31).gatedLock = false ∧ (s.tout 31).gatedDorm = false) :=
  ⟨by decide, ⟨⟨rfl, rfl⟩, by decide +kernel⟩, ⟨⟨rfl, rfl⟩, by decide +kernel⟩, ⟨⟨rfl, rfl⟩, settled_of_nil rfl rfl, by decide +kernel⟩,
    by decide +kernel, ⟨rfl, rfl⟩, settled_of_nil rfl rfl, by decide +kernel⟩

/-- Lane 63 in a state of its own. -/
def lane (x : Lane) : State := { up with lanes := [(63, x)] }

theorem witness_LaneLink :
    (up.Powered ∧ (up.lane 63).st = .off ∧ laneOpen (up.lane 63).st = false) ∧
    (let s := lane { st := .training, good := 8 }
     s.Powered ∧ (s.lane 63).st = .training ∧ (s.lane 63).cw = false ∧ 8 ≤ (s.lane 63).good ∧ ({ (s.lane 63) with good := 7 } : Lane).good < 8) ∧
    (let s := lane { st := .aligned, cw := true, bad := 8, ackAt := 0, polls := [(9, 0)] }
     s.Powered ∧ laneOpen (s.lane 63).st = true ∧ (s.lane 63).cw = true ∧ 8 ≤ (s.lane 63).bad ∧ (s.lane 63).ackAt + 4000 ≤ max s.now 4000 ∧
       max s.now 3999 < (s.lane 63).ackAt + 4000 ∧ 0 + 1000 ≤ max s.now 1000 ∧ max s.now 999 < 0 + 1000 ∧
       nfld (BitVec.ofNat 64 (2 ^ 56)).toNat 56 8 = 1 ∧ nfld (BitVec.ofNat 64 (2 * 2 ^ 56 + 9)).toNat 56 8 = 2 ∧
       nfld (BitVec.ofNat 64 (2 * 2 ^ 56 + 9)).toNat 0 16 = 9 ∧ s.identSeen 63 = false ∧ s.unitSeen 63 = false ∧
       (s.lane 63).lastAck = none ∧ ({ (s.lane 63) with lastAck := some 7 } : Lane).lastAck = some 7) ∧
    (let s := lane { st := .registering, alignedAt := 5 }
     s.Powered ∧ (s.lane 63).st = .registering ∧ max s.now 20_000_004 < 5 + 20_000_000 ∧ 5 + 20_000_000 ≤ max s.now 20_000_005) ∧
    (let s := lane { st := .up, l := 64, creditAt := 0 }
     s.Powered ∧ (s.lane 63).st = .up ∧ 64 ≤ cdiff (s.lane 63).l (s.lane 63).creditL ∧ cdiff 63 0 = 63 ∧ 0 + 2000 ≤ max s.now 2000) ∧
    (let s := (lane { st := .lost, lostAt := 0 }).setRfld (sLane 63) 0x014 8 8 3
     s.Powered ∧ (s.lane 63).st = .lost ∧ s.rfld (sLane 63) 0x014 8 8 = 3 ∧ max s.now 5_999_999 < 0 + 3 * 2_000_000 ∧
       0 + 3 * 2_000_000 ≤ max s.now 6_000_000) :=
  ⟨⟨⟨rfl, rfl⟩, rfl, rfl⟩, ⟨⟨rfl, rfl⟩, by decide +kernel⟩, ⟨⟨rfl, rfl⟩, by decide +kernel⟩, ⟨⟨rfl, rfl⟩, by decide +kernel⟩,
    ⟨⟨rfl, rfl⟩, by decide +kernel⟩, ⟨rfl, rfl⟩, by decide +kernel⟩

/-- A registration: the receivers' highest number, the slot period's code, the unit in words, and what has been seen of them. -/
def registered (x : Lane) (cnt seen : Nat) : State := ((lane x).setRegN (sLane 63) 0x01C cnt).setRegN (sLane 63) 0x038 seen

theorem witness_LaneWords :
    (up.Powered ∧ laneOpen (up.lane 63).st = false) ∧
    (let s := registered { st := .up, r := 2 ^ 32 - 1, l := 0 } 62 0
     s.Powered ∧ laneOpen (s.lane 63).st = true ∧ 0 ≤ cdiff (s.lane 63).l ((s.lane 63).r + 1) ∧
       nfld (BitVec.ofNat 64 (2 ^ 62 + 63 * 2 ^ 56)).toNat 62 2 = 1 ∧ s.rfld (sLane 63) 0x01C 0 6 < nfld (BitVec.ofNat 64 (2 ^ 62 + 63 * 2 ^ 56)).toNat 56 6 ∧
       nfld (BitVec.ofNat 64 (2 ^ 62 + 62 * 2 ^ 56)).toNat 56 6 ≤ s.rfld (sLane 63) 0x01C 0 6 ∧
       nfld (BitVec.ofNat 64 (2 * 2 ^ 62 + 3 * 2 ^ 58)).toNat 62 2 = 2 ∧ 3 ≤ nfld (BitVec.ofNat 64 (2 * 2 ^ 62 + 3 * 2 ^ 58)).toNat 58 4 ∧
       nfld (BitVec.ofNat 64 (2 * 2 ^ 62)).toNat 58 4 = 0 ∧ nfld (BitVec.ofNat 64 (3 * 2 ^ 62)).toNat 62 2 = 3 ∧
       0 ≤ cdiff (nfld (3 * 2 ^ 62 + 1) 0 32) (((s.lane 63).r + 1) % 2 ^ 32) ∧
       cdiff (nfld (3 * 2 ^ 62 + 0xFFFF_FFFF) 0 32) (((s.lane 63).r + 1) % 2 ^ 32) < 0) ∧
    ¬ 0 ≤ cdiff 5 (5 + 1) ∧
    ((up.setRfld (sTtl 7) 0x014 0 16 (2 + 63 * 2 ^ 10)).tileLink 63 = some 7 ∧ nfld (2 * 2 ^ 62 + 2 ^ 58 : Nat) 58 4 = 1 ∧
      nfld (2 * 2 ^ 62 + 2 * 2 ^ 58 : Nat) 58 4 = 2) ∧
    (let s := registered { st := .registering } 62 (2 ^ 25)
     let w : Nat := 3 * 2 ^ 62 + 2 ^ 58 + 62 * 2 ^ 52
     s.Powered ∧ (s.lane 63).st = .registering ∧ nfld w 62 2 = 3 ∧ nfld w 58 4 = 1 ∧ nfld w 52 6 = s.rfld (sLane 63) 0x01C 0 6 ∧
       nfld w 48 4 = s.rfld (sLane 63) 0x01C 8 4 ∧ s.unitSeen 63 = true ∧ (s.setReg (ra (sLane 63) 0x03C) (s.reg (ra (sLane 63) 0x020))).unitMatch 63 = true ∧
       (registered { st := .registering } 62 0).unitSeen 63 = false ∧ nfld (w + 2 ^ 52) 52 6 ≠ s.rfld (sLane 63) 0x01C 0 6 ∧
       ((registered { st := .mismatch, nextUnit := true } 62 0).lane 63).nextUnit = true) ∧
    (let s := registered { st := .registering } 62 (2 ^ 24 + 62)
     s.Powered ∧ nfld (3 * 2 ^ 62 + 2 * 2 ^ 58 : Nat) 58 4 = 2 ∧ s.identSeen 63 = true ∧ s.identMatch 63 = true ∧
       BitVec.ofNat 32 (nfld (3 * 2 ^ 62 + 2 * 2 ^ 58 + (s.reg (ra (sLane 63) 0x020)).toNat) 0 32) = s.reg (ra (sLane 63) 0x020)) :=
  ⟨⟨⟨rfl, rfl⟩, rfl⟩, ⟨⟨rfl, rfl⟩, by decide +kernel⟩, by decide, by decide +kernel, ⟨⟨rfl, rfl⟩, by decide +kernel⟩, ⟨rfl, rfl⟩,
    by decide +kernel⟩

/-- Tile 63 in free mode with a word in its buffer, and plane 3 active, at an edge. -/
def hits (w : Word64) (now : Nat) : State :=
  { (lane { st := .up, buf := [⟨w, now⟩] }) with now := now, planes := [(3, { active := true })] }

/-- Tile 63 in link mode with a model of AGE 10 µs, and a point at the epoch's origin. -/
def aging : State :=
  (((((lane { st := .up }).setTile 63 { (up.tile 63) with refP := some 0, points := [(0, 0)] }).setModel 63 0 0 0).setTabw (oTile 63 0) 1).setTabw (oTile 63 1) 10)

theorem witness_RebaseAndBins :
    (up.Powered ∧ up.runningCtxs = [] ∧ up.armedSlots = [] ∧ up.caps = [] ∧ (up.lane 63).buf = [] ∧
      up.tileWhy 63 ≠ up.tfld (oTile 63 8) 3 3) ∧
    (let s := hits (BitVec.ofNat 64 (2 ^ 62 + 5 * 2 ^ 56 + 400_000)) 300
     let h := ((s.advance 0).rebase 63 300 (BitVec.ofNat 64 (2 ^ 62 + 5 * 2 ^ 56 + 400_000))).1
     s.Powered ∧ (s.lane 63).buf.length = 1 ∧ (s.advance 0).tileWhy 63 = s.tfld (oTile 63 8) 3 3 ∧
       nfld (2 ^ 62 + 5 * 2 ^ 56 + 400_000 : Nat) 62 2 = 1 ∧ (s.advance 0).tileWhy 63 ≠ 0 ∧
       (s.advance 0).phys - s.horizon ≤ h.phys ∧ h.phys ≤ (s.advance 0).phys + 4_000_000 ∧ 2000 * (s.solEdge : Int) ≤ h.phys ∧
       s.capsOf h.src = [] ∧ (s.plane 3).active = true ∧ (s.plane 2).active = false) ∧
    (let s := ({ hits (BitVec.ofNat 64 (2 ^ 62 + 5 * 2 ^ 56 + 400_000)) 300 with
                 lanes := [(63, { st := .lost, lostAt := 300, buf := [⟨BitVec.ofNat 64 (2 ^ 62 + 5 * 2 ^ 56 + 400_000), 300⟩] })] } :
                 State).setTfld (oTile 63 8) 3 3 4
     s.Powered ∧ 0 < (s.lane 63).lostAt ∧ (s.advance 0).tileWhy 63 = s.tfld (oTile 63 8) 3 3) ∧
    (let s := ((hits (BitVec.ofNat 64 (2 ^ 62 + 5 * 2 ^ 56 + 400_000)) 10_000_000).setModel 63 0 0 0).setTfld (oTile 63 8) 3 3 0
     s.Powered ∧ (s.advance 0).tileWhy 63 = s.tfld (oTile 63 8) 3 3 ∧
       ((s.advance 0).rebase 63 10_000_000 (BitVec.ofNat 64 (2 ^ 62 + 5 * 2 ^ 56 + 400_000))).1.phys < (s.advance 0).phys - s.horizon) ∧
    (let s := ((hits (BitVec.ofNat 64 (2 ^ 62 + 5 * 2 ^ 56 + 40_000_000)) 300).setModel 63 0 0 0).setTfld (oTile 63 8) 3 3 0
     s.Powered ∧ (s.advance 0).tileWhy 63 = s.tfld (oTile 63 8) 3 3 ∧
       (s.advance 0).phys + 4_000_000 < ((s.advance 0).rebase 63 300 (BitVec.ofNat 64 (2 ^ 62 + 5 * 2 ^ 56 + 40_000_000))).1.phys) ∧
    (let s := (hits (BitVec.ofNat 64 (2 * 2 ^ 62 + 400_000)) 300).setTabw (oTile 63 0) 2
     s.Powered ∧ (s.advance 0).tileWhy 63 = s.tfld (oTile 63 8) 3 3 ∧ nfld (2 * 2 ^ 62 + 400_000 : Nat) 62 2 = 2 ∧
       s.tileAbsent 63 = false ∧ s.tileMode 63 = 2 ∧ s.solEdge ≤ 300 ∧ (s.tile 63).points = []) ∧
    aging.Powered ∧ ((aging.tile 63).refP = some 0 ∧ aging.tileAbsent 63 = false ∧ (aging.tile 63).solGone = false ∧ aging.haveModel 63 = true ∧
      (aging.tile 63).resBad = false ∧ (aging.advance 20_000).tileWhy 63 = 0 ∧ (aging.advance 20_001).tileWhy 63 = 2 ∧ aging.tileMode 63 ≠ 0 ∧
      (aging.advance 20_001).tileWhy 63 ≠ aging.tfld (oTile 63 8) 3 3 ∧ (aging.advance 20_000).tileWhy 63 ≠ aging.tfld (oTile 63 8) 3 3) ∧
    (let s := hits 0 0
     s.Powered ∧ s.Settled ∧ (s.plane 3).active = true ∧ (s.plane 3).old = [] ∧ s.runningCtxs = [] ∧
       (s.advance 1).phys - s.horizon < 2000 * (s.solEdge : Int) + (((s.plane 3).grid.next + 1) * s.planeW 3 : Nat) ∧
       2000 * (s.solEdge : Int) + (((s.plane 3).grid.next + 1) * s.planeW 3 : Nat) ≤ (s.advance (2 ^ 40)).phys - s.horizon) ∧
    ((beamQuant 127 0).2 = false ∧ (beamQuant 128 0).2 = true ∧ (beamQuant (-3) 1).2 = false) :=
  ⟨⟨⟨rfl, rfl⟩, by decide +kernel⟩, ⟨⟨rfl, rfl⟩, by decide +kernel⟩, ⟨⟨rfl, rfl⟩, by decide +kernel⟩, ⟨⟨rfl, rfl⟩, by decide +kernel⟩,
    ⟨⟨rfl, rfl⟩, by decide +kernel⟩, ⟨⟨rfl, rfl⟩, by decide +kernel⟩, ⟨rfl, rfl⟩, by decide +kernel,
    ⟨⟨rfl, rfl⟩, settled_of_nil rfl rfl, by decide +kernel⟩, by decide +kernel⟩

/-! ### Witnesses: correlator, blocked mode, histogram stamps -/

/-- Context 511 running, with eight slots and two buffers, and a correlator state of its own. -/
def correlating (x : Cor) : State :=
  (({ up with ctxs := [(511, { st := .running })], cors := [(511, x)] } : State).setTabw (oCor 511 0) (2 ^ 31 + 8)).setTabw (oCor 511 2) (2 <<< 16)

theorem witness_Correlator :
    ((0 : Nat) < 16 ∧ (16 : Nat) > 0) ∧
    ((correlating { cur := some {}, bufs := 1 }).cor 511).cur = some {} ∧ ((correlating { cur := some {}, bufs := 1 }).cor 511).ladder = none ∧
    (((correlating { bufs := 1 }).cor 511).bufs < (correlating { bufs := 1 }).corNbuf 511 ∧
      (correlating { bufs := 2 }).corNbuf 511 ≤ ((correlating { bufs := 2 }).cor 511).bufs) ∧
    (up.Powered ∧ up.Settled ∧ up.caps = [] ∧ up.oldWords = [] ∧ (up.cor 511).sweep = [] ∧ (up.cor 511).ladSweep = [] ∧ (up.cor 511).run = 0) ∧
    (let s := correlating { sweep := [{}], ladSweep := [{}] }
     s.Powered ∧ s.caps = [] ∧ s.oldWords = [] ∧ (s.cor 511).sweep.length = 1 ∧ (s.cor 511).ladSweep.length = 1 ∧ (s.cor 511).closing = false) ∧
    (let x : Cor := { sweep := [{}], closing := true }
     x.closing = true ∧ x.cur = none ∧ x.ladSweep = [] ∧ x.ready = [] ∧ x.own = none) ∧
    (let s := correlating { run := 1, cur := some {} }
     s.Powered ∧ (s.cor 511).run = 1 ∧ (s.cor 511).closing = false ∧ (0 : Nat) ≤ 7 ∧ 7 < s.slotCnt 511 ∧ ¬(8 < s.slotCnt 511) ∧
       (s.cor 511).stale (16 * pairIdx 0 7 + 15) = false ∧ (s.cor 511).cur = some {} ∧ 16 * pairIdx 0 7 + 15 ∉ ({} : Harv).pins ∧
       ((correlating { run := 1 }).cor 511).harvestOf 15 = none) ∧
    (let x : Cor := { run := 1, cur := some {}, sweep := [{ seq := 1 }, { seq := 2 }] }
     x.stale 15 = true ∧ x.sweep = [{ seq := 1 }] ++ [{ seq := 2 }] ∧ ({ x with cur := some { written := [15] } } : Cor).stale 15 = false) ∧
    (let s := correlating { run := 1, closing := true, sweep := [{}] }
     s.Powered ∧ (s.cor 511).run = 1 ∧ (s.cor 511).closing = true ∧ (s.cor 511).subst = []) ∧
    ((correlating { run := 2 }).Powered ∧ ((correlating { run := 2 }).cor 511).run = 2) ∧
    ((correlating { run := 2 }).spareLeft 1 = true ∧ (correlating { run := 1, closing := true, sweep := [{}] }).spareLeft 1 = true) ∧
    (({ up with spares := [(1, Config.spareTiles 1 + 1)] } : State).Powered ∧
      ({ up with spares := [(1, Config.spareTiles 1 + 1)] } : State).spareLeft 1 = false) :=
  ⟨by decide, by decide +kernel, by decide +kernel, by decide +kernel, ⟨⟨rfl, rfl⟩, settled_of_nil rfl rfl, by decide +kernel⟩,
    ⟨⟨rfl, rfl⟩, by decide +kernel⟩, by decide +kernel, ⟨⟨rfl, rfl⟩, by decide +kernel⟩, by decide +kernel, ⟨⟨rfl, rfl⟩, by decide +kernel⟩,
    ⟨⟨rfl, rfl⟩, by decide +kernel⟩,
    by simp [State.spareLeft, State.spareUsed, correlating, up, State.reset, State.setTabw, Sparse.get],
    ⟨rfl, rfl⟩, by simp [State.spareLeft, State.spareUsed, Sparse.get]⟩

/-- A block of a group and a first bin, of one bin. -/
def block (g f : Nat) : SigBlock := { group := g, orig := 0, first := f, bins := [[0]] }

/-- Context 511 blocked, in a cascade or not. -/
def blocked (casc : Nat) (x : Cor) : State := ((correlating { x with run := 2, w := up.planeW 0, ringD := casc + 1 }).setTabw (oBlk 511 0) (BitVec.ofNat 32 (casc * 2 ^ 31 + 9))).setRegN sCas 0x014 (1 * 2)

/-- A transfer's header for context tag 9: group, hops, first bin, slots. -/
def header (g hops first slots : Nat) : List Word64 :=
  [BitVec.ofNat 64 (0x4341_5331 * 2 ^ 32 + g * 2 ^ 26 + hops * 2 ^ 24 + 9), BitVec.ofNat 64 first,
    BitVec.ofNat 64 ((up.planeW 0 / 2000) * 2 ^ 32), BitVec.ofNat 64 slots, 0, 0]

theorem witness_BlockedRuns :
    (1 ≤ 4 ∧ 4 ≤ 4 ∧ 0 < 2048 ∧ 0 ≤ 8191 ∧ 8191 < 4 * 2048) ∧
    ((up.cor 511).full = [] ∧ (up.cor 511).slots = [] ∧ (up.cor 511).ready = [] ∧ up.oldWords = [] ∧ up.Powered ∧ up.Settled) ∧
    (let s := blocked 0 { full := [block 0 5] }
     s.Powered ∧ s.casc 511 = false ∧ (s.cor 511).slots = [] ∧ (block 0 5).orig = (s.cor 511).blkGrid ∧ (block 0 5).group = s.ringPos 511 ∧
       s.needed 511 = [(block 0 5).group]) ∧
    (let s := blocked 1 { full := [block 0 6], slots := [block 0 5] }
     s.Powered ∧ s.casc 511 = true ∧ s.ringPos 511 = 0 ∧ s.blkB 511 = 1 ∧ (block 0 6).bins.length = s.blkB 511 ∧
       ({ block 0 6 with bins := [] } : SigBlock).bins.length ≠ s.blkB 511 ∧ s.ownBlks 511 = [block 0 5] ∧
       (s.ownBlks 511 ++ (s.cor 511).full).length = 2 ∧
       ((s.needed 511).filter fun g => !(((s.cor 511).present (block 0 5)).any fun k => decide (k.group = g))).length = 1) ∧
    (let s := blocked 1 { slots := [block 0 5, block 1 5, block 0 6] }
     s.ownBlks 511 = [block 0 5, block 0 6] ∧
       ((s.needed 511).filter fun g => !(((s.cor 511).present (block 0 5)).any fun k => decide (k.group = g))).length = 0) ∧
    (let s (h : Option Harv) : State := blocked 0 { ready := [⟨5, 0, [block 0 5], false, false⟩], cur := h, bufs := 1 }
     (s none).Powered ∧ ((s none).cor 511).ready.length = 1 ∧ ((s none).cor 511).closing = false ∧ ((s none).cor 511).cur = none ∧
       ((s none).cor 511).bufs < (s none).corNbuf 511 ∧ [block 0 5] ≠ [] ∧ ({ ready := [⟨5, 0, [], false, false⟩] } : Cor).cur = none ∧
       ((s (some { bins := 3, want := 5 })).cor 511).cur = some { bins := 3, want := 5 } ∧ 3 + (block 0 5).bins.length < 5 ∧ 4 ≤ 3 + (block 0 5).bins.length) ∧
    (blocked 0 { ready := [⟨5, 0, [block 0 5], false, false⟩] }).Settled ∧
    ((up.cas.st ≠ 2 ∧ up.cas.st ≠ 1 ∧ up.cas.st ≠ 3) ∧ ({ up with cas := { st := 2 } } : State).Powered ∧ up.runningCtxs = []) ∧
    (let s (x : Cor) : State := { blocked 1 x with cas := { st := 2 } }
     let h (l : List Word64) (k : Nat) : Nat := (l.getD k 0).toNat
     (s {}).Powered ∧ nfld (h (header 1 1 5 8) 0) 32 32 = 0x4341_5331 ∧
       ((s {}).runningCtxs.filter fun c => decide (((s {}).cor c).run = 2) && (s {}).casc c && decide ((s {}).blkCtag c = nfld (h (header 1 1 5 8) 0) 0 16)) = [511] ∧
       nfld (h (header 1 1 5 8) 3) 0 12 = (s {}).slotCnt 511 ∧ nfld (h (header 1 1 5 7) 3) 0 12 ≠ (s {}).slotCnt 511 ∧
       (nfld (h (header 1 1 5 8) 3) 12 1 = 1 ↔ (s {}).blkBeam 511 = true) ∧
       nfld (h (header 1 1 5 8) 2) 32 25 = ((s {}).cor 511).w / 2000 ∧ nfld (h (header 1 1 5 8) 2) 0 5 = (s {}).blkExp 511 ∧
       h (header 1 1 5 8) 1 % (s {}).blkB 511 = 0 ∧ nfld (h (header 1 1 5 8) 0) 26 2 ∈ (s {}).needed 511 ∧
       (s {}).blkGridOf 511 1 5 = ((s {}).cor 511).blkGrid ∧ ((s {}).cor 511).nextBlk = none ∧
       ((s { nextBlk := some 6 }).cor 511).nextBlk = some 6 ∧ h (header 1 1 5 8) 1 < 6 ∧
       nfld (h (header 0 2 5 8) 0) 26 2 = (s {}).ringPos 511 ∧ nfld (h (header 1 1 5 8) 0) 26 2 ≠ (s {}).ringPos 511 ∧
       ((s {}).cor 511).occupied 1 < 4 ∧ 4 ≤ ((s { slots := List.replicate 4 (block 1 5) }).cor 511).occupied 1) ∧
    (let s (n : Nat) : State := (({ up with cas := { st := n, lostAt := 0 } } : State).setRegN sCas 0x014 2).setRfld sCas 0x014 8 8 3
     (s 1).Powered ∧ (s 1).cas.st = 1 ∧ nfld (0x4341_5349 * 2 ^ 32 + 1 * 2 ^ 16) 32 32 = 0x4341_5349 ∧
       nfld (0x4341_5349 * 2 ^ 32 + 1 * 2 ^ 16) 16 2 = ((s 1).rfld sCas 0x014 3 2 + 1) % ((s 1).rfld sCas 0x014 1 2 + 1) ∧
       (s 3).cas.st = 3 ∧ (s 3).rfld sCas 0x014 8 8 ≠ 0 ∧ max (s 3).now 5_999_999 < 0 + 3 * 2_000_000 ∧ 0 + 3 * 2_000_000 ≤ max (s 3).now 6_000_000) :=
  ⟨by decide, ⟨rfl, rfl, rfl, rfl, ⟨rfl, rfl⟩, settled_of_nil rfl rfl⟩, ⟨⟨rfl, rfl⟩, by decide +kernel⟩, ⟨⟨rfl, rfl⟩, by decide +kernel⟩,
    by decide +kernel, ⟨⟨rfl, rfl⟩, by decide +kernel⟩, settled_of_running rfl rfl (.inl rfl), ⟨by decide, ⟨rfl, rfl⟩, rfl⟩,
    ⟨⟨rfl, rfl⟩, by decide +kernel⟩, ⟨rfl, rfl⟩, by decide +kernel⟩

/-- Definition 65535 of context 511: starts are input 0's, stops input 1's, 1000 bins of 1 qps, a pairing mode, a state, a miss queue. -/
def histogram (mode : Nat) (h : HDef) (misses : List Nat) : State :=
  (((({ up with now := 1_000, hdefs := [(65535, h)], hctxs := [(511, { active := true })], hengs := [(0, { misses := misses })] } : State).setTabw
      (oHdef 65535 0) (BitVec.ofNat 32 (4096 + 511 * 2 ^ 17 + mode * 2 ^ 29))).setTabw (oHdef 65535 1) (4097 <<< 16)).setTabw (oHdef 65535 2) 1000)

theorem witness_HistogramStamps :
    ((up.heng (up.hHome 65535)).crossing = [] ∧ up.Powered ∧ up.keeper (oHdef 65535 0) 6 = none ∧ (up.hdef 65535).inq = [] ∧
      (up.hdef 65535).stopq = []) ∧
    (let s := histogram 0 { active := true, inq := [stampOf 4096 900_000 true] } []
     s.Powered ∧ s.keeper (oHdef 65535 0) 6 = none ∧ (s.heng (s.hHome 65535)).crossing = [] ∧ s.hOwner 65535 = 511 ∧ (s.hctx 511).waiting = [] ∧
       (s.hctx 511).closing = false ∧ s.hMode 65535 = 0 ∧ ¬(s.advance 451).histPast (s.hStart 65535) 0 1_998_001 = true ∧
       (s.advance 0).histPast (s.hStart 65535) (s.hHome 65535) 900_000 = true ∧ (s.advance 0).histPast (s.hStop 65535) (s.hHome 65535) 900_000 = true) ∧
    (let s := histogram 1 { active := true, inq := [stampOf 4096 900_000 true], pend := some (stampOf 4096 899_000 true) } []
     s.hMode 65535 = 1 ∧ 2000 * (s.solEdge : Int) ≤ 899_000 ∧ 899_000 + s.hWmin 65535 + s.hSpan 65535 = 900_000 ∧
       898_999 + s.hWmin 65535 + s.hSpan 65535 < 900_000) ∧
    (histogram 2 { active := true, inq := [stampOf 4096 900_000 true] } []).hMode 65535 = 2 ∧
    (let s := { histogram 0 { active := true, inq := [stampOf 4096 900_000 true], pend := some (stampOf 4096 100 true) } [] with solEdge := 440 }
     s.Powered ∧ 2000 * (s.solEdge : Int) ≤ 900_000 ∧ 100 < 2000 * (s.solEdge : Int) ∧
       100 + s.hWmin 65535 + s.hSpan 65535 < 2000 * (s.solEdge : Int) ∧ 2000 * (s.solEdge : Int) ≤ 879_999 + s.hWmin 65535 + s.hSpan 65535) ∧
    (let s := histogram 0 { active := true, stopq := [stampOf 4097 900_000 true], pend := some (stampOf 4096 899_001 true) } []
     s.Powered ∧ (s.hctx 511).copying = none ∧ s.histBin 65535 (stampOf 4096 899_001 true) (stampOf 4097 900_000 true) = some 999 ∧
       s.histBin 65535 (stampOf 4096 899_000 true) (stampOf 4097 900_000 true) = none ∧ 899_000 + s.hWmin 65535 + s.hSpan 65535 = 900_000 ∧
       898_999 + s.hWmin 65535 + s.hSpan 65535 < 900_000 ∧
       (s.advance 0).histPast (s.hStop 65535) (s.hHome 65535) 900_000 = true ∧ 2 * histLine 65535 999 ∉ (s.heng 0).lines ∧
       (s.heng 0).misses.length < 4096 ∧ (s.heng 0).lines.length < cacheLines) ∧
    (4096 ≤ ((histogram 0 {} (List.replicate 4096 0)).heng 0).misses.length ∧
      2 * histLine 65535 999 ∈ ({ lines := [2 * histLine 65535 999] } : HEng).lines) ∧
    2 ^ 32 - 1 ≤ Sparse.get 0 ({ bins := [(999, 2 ^ 32 - 1)] } : HDef).bins 999 :=
  ⟨⟨rfl, ⟨rfl, rfl⟩, rfl, rfl, rfl⟩, ⟨⟨rfl, rfl⟩, by decide +kernel⟩, by decide +kernel, by decide +kernel, ⟨⟨rfl, rfl⟩, by decide +kernel⟩,
    ⟨⟨rfl, rfl⟩, by decide +kernel⟩, by decide +kernel, by decide +kernel⟩

/-! ### Witnesses: histogram cuts, contexts, triggers, microcode, records -/

/-- Context 511 with histogram definitions 0 (die A) and 65535 (die B), both active, one buffer a die, a period, and a state of its own. -/
def cutting (h : HCtx) (now : Nat) : State :=
  (((((({ up with now := now, hctxs := [(511, h)], hdefs := [(0, { active := true }), (65535, { active := true })] } : State).setTabw
    (oHdef 0 0) (BitVec.ofNat 32 (4096 + 511 * 2 ^ 17 + 2 ^ 31))).setTabw (oHdef 65535 0) (BitVec.ofNat 32 (4096 + 511 * 2 ^ 17 + 2 ^ 28 + 2 ^ 31))).setTabw
    (oHctx 511 0) (1 <<< 20)).setTabw (oHctx 511 1) 500).setTabw (oHdef 0 1) (4097 <<< 16)).setTabw
    (oHdef 65535 1) (4097 <<< 16)

theorem witness_HistogramCuts :
    (up.Powered ∧ up.Reaches (ra (sHst 0) 0x014) ∧ up.served (sHst 0) = true ∧ (up.hctx 511).active = false ∧ (up.hctx 511).firstP = none ∧
      (up.hctx 511).waiting = [] ∧ (up.hctx 511).copying = none ∧ up.oldWords = [] ∧
      ({ up with hctxs := [(511, { active := true, copying := some ⟨.snap, 0, 0⟩ })] } : State).hctx 511 =
        { active := true, copying := some ⟨.snap, 0, 0⟩ }) ∧
    (let s := (cutting { active := true } 1_000).setReg64 (sHst 0) 0x018 3_000_000
     s.Powered ∧ (s.hctx 511).active = true ∧ (s.hctx 511).closing = false ∧ (s.advance 0).phys ≤ (s.advance 0).physOf (s.reg64 (sHst 0) 0x018) ∧
       (cutting { active := true } 2_000).physOf 3_000_000 < (cutting { active := true } 2_000).phys) ∧
    ((cutting { active := true } 1_000).ownDefs 511 = [0, 65535] ∧ ((cutting { active := true } 1_000).hdef 65535).active = true ∧
      (cutting { active := true } 1_000).hHome 65535 = 1 ∧ (cutting { active := true } 1_000).hPeriod 511 = 500) ∧
    (let s := cutting { active := true, firstP := some 1_000_000, waiting := [⟨.snap, 3_000_000, 3_000_000⟩] } 1_000
     s.Powered ∧ s.Settled ∧ (s.ownDefs 511).Nodup ∧ (s.hctx 511).firstP = some 1_000_000 ∧
       (s.advance 999).phys = 1_000_000 + 2000 * ((0 + 1) * s.hPeriod 511 : Nat) ∧ (s.advance 0).phys < 1_000_000 + 2000 * ((1 + 1) * s.hPeriod 511 : Nat)) ∧
    (let s := cutting { active := true, bufsA := 1, waiting := [⟨.periodic, 3_000_000, 3_000_000⟩] } 1_000
     s.Powered ∧ s.Settled ∧ (s.hctx 511).copying = none ∧ (s.advance 1501).cutPassed 0 3_000_000 = false ∧
       (∀ d ∈ (s.ownDefs 511).filter fun d => (s.hdef d).active, (s.advance 2000).cutPassed d 3_000_000 = true) ∧ cutSends .periodic = true ∧
       s.hNbuf 511 ≤ (s.hctx 511).bufsA ∧ (s.hctx 511).bufsB < s.hNbuf 511) ∧
    (let s := cutting { active := true, copying := some ⟨.stop, 1_000, 1_000⟩, dies := [0, 1], discard := [0] } 1_000
     s.Powered ∧ s.Settled ∧ 1 ∈ (s.hctx 511).dies ∧ 1 ∉ (s.hctx 511).discard ∧ (s.hctx 511).closing = false ∧ cutTrunc .stop = true) :=
  ⟨⟨⟨rfl, rfl⟩, ⟨by decide, rfl, rfl⟩, by decide +kernel⟩, ⟨⟨rfl, rfl⟩, by decide +kernel⟩, by decide +kernel,
    ⟨⟨rfl, rfl⟩, settled_of_nil rfl rfl, by decide +kernel⟩, ⟨⟨rfl, rfl⟩, settled_of_nil rfl rfl, by decide +kernel⟩,
    ⟨rfl, rfl⟩, settled_of_nil rfl rfl, by decide +kernel⟩

/-- Context 511 with its entry's first word and a state of its own. -/
def context (w0 : Word) (x : Ctx) : State := ({ up with ctxs := [(511, x)] } : State).setTabw (oCtx 511 0) w0

theorem witness_Contexts :
    (let s : State := { context 0x8000_0000 {} with adm := some 3 }
     s.Powered ∧ s.Reaches (ra sCtx 0x014) ∧ s.served sCtx = true ∧ s.adm ≠ none) ∧
    (let s := context 0x8000_0000 {}
     s.Powered ∧ s.adm = none ∧ s.ctxBit 511 31 = true ∧ (s.ctx 511).st = .idle ∧ (context 0 {}).ctxBit 511 31 = false ∧
       s.boot.starts = [] ∧ s.Settled ∧ (context 0 { st := .stoppedOvf }).ctxOwes 511 = false ∧
       ({ context 0 { st := .stoppedOvf } with cors := [(511, { run := 1 })] } : State).ctxOwes 511 = true) ∧
    (let s := context 0x8000_0000 { st := .running }
     s.Powered ∧ (s.ctx 511).st = .running) ∧
    (let s : State := { context 0 {} with adm := some 511 }
     s.Powered ∧ s.Settled ∧ s.adm = some 511 ∧ (s.ctx 511).st ≠ .admitting) ∧
    (let s : State := { context 0x8000_0000 { st := .admitting } with adm := some 511, dev := .stopped }
     s.Powered ∧ s.Settled ∧ (s.ctx 511).st = .admitting ∧ (s.ctx 511).former = .idle ∧ ((s.advance 7).admission 511).1 ≠ 0) ∧
    (let s : State := { context 0x8000_0000 { st := .admitting } with adm := some 511 }
     s.Powered ∧ s.Settled ∧ s.boot.starts = [] ∧ ((s.advance 7).admission 511).1 = 0 ∧ s.recEn 511 = false ∧ ∀ b ∈ s.beamsOf 511, b < 1024) ∧
    (let s := context 0 { timers := [.until 500, .stopped 0, .expired, .stopped 3], holdUntil := some 700 }
     s.Powered ∧ (s.ctx 511).timers[0]? = some (.until 500) ∧ max s.now 499 < 500 ∧ 500 ≤ max s.now 500 ∧ (∀ e, (s.ctx 511).timers[2]? ≠ some (.until e)) ∧
       (s.ctx 511).holdUntil = some 700) :=
  ⟨⟨⟨rfl, rfl⟩, ⟨by decide, rfl, rfl⟩, by decide +kernel⟩,
    ⟨⟨rfl, rfl⟩, rfl, by decide +kernel, rfl, by decide +kernel, rfl, settled_of_running rfl rfl (.inr (.inl rfl)), by decide +kernel⟩,
    ⟨⟨rfl, rfl⟩, rfl⟩, ⟨⟨rfl, rfl⟩, settled_of_running rfl rfl (.inr (.inl rfl)), by decide +kernel⟩,
    ⟨⟨rfl, rfl⟩, settled_of_running rfl rfl (.inr (.inr rfl)), by decide +kernel⟩,
    ⟨⟨rfl, rfl⟩, settled_of_running rfl rfl (.inr (.inr rfl)), by decide +kernel⟩,
    ⟨rfl, rfl⟩, rfl, by decide, by decide,
    (fun e h => Timer.noConfusion (Option.some.inj (show some Timer.expired = some (.until e) from h))), rfl⟩

theorem witness_ContextStops :
    ((context 0 {}).ctx 511).st ≠ .running ∧ ((context 0 { st := .running }).ctx 511).st = .running ∧
    ({ run := 1, cur := some {} } : Cor).run = 1 ∧
    (let s : State := { context 0x1000_0000 { st := .running } with stopSrc := 4 }
     s.Powered ∧ s.stopSrc ≠ 0 ∧ s.stopOn = false ∧ s.dev ≠ .booting ∧ s.caps = [] ∧ s.runningCtxs = [511] ∧ s.stopEn 511 = true ∧
       (context 0 { st := .running }).stopEn 511 = false) :=
  ⟨by decide, by decide, rfl, ⟨rfl, rfl⟩, by decide +kernel⟩

theorem witness_Triggers :
    (let s := context 0x8800_0000 { st := .running, inSeq := true }
     (s.ctx 511).inSeq = true ∧ s.curRetrig 511 = false) ∧
    (let s := context 0x8800_0000 { st := .running, holdLeft := 1 }
     ¬((s.ctx 511).inSeq = true ∧ s.curRetrig 511 = false) ∧ s.ctxHold 511 = true) ∧
    (let s := ({ context 0x8800_0000 { st := .running } with caps := [(511, { active := true })] } : State).setTabw (oRec 511 1) 10
     s.ctxHold 511 = false ∧ (s.ctx 511).inSeq = false ∧ s.capEarly 511 19_999 = true ∧ s.capEarly 511 20_000 = false) ∧
    (up.Powered ∧ up.condIn = []) ∧
    (let s : State := { context 0x8800_0000 { st := .running } with condIn := [.edge (stampOf 4096 5 true)] }
     s.Powered ∧ firstEvent s.condIn = some (.edge (stampOf 4096 5 true)) ∧
       firstEvent [.edge (stampOf 4096 5 true), .result 3 false 4 4] = some (.result 3 false 4 4) ∧ s.runningCtxs = [511] ∧ s.ctxBit 511 27 = true ∧
       (context 0 { st := .running }).ctxBit 511 27 = false ∧
       (let v := (s.setTabw (oCtx 511 4) 4096).csel 511 0; selKind v ≤ 1 ∧ selSrc v = 4096 ∧ (true = true ↔ selPol v = 0))) ∧
    (let s := context 0xA800_0000 { st := .running }
     s.Powered ∧ (s.ctx 511).st = .running ∧ s.ctxBit 511 27 = true ∧ s.ctxBit 511 29 = true ∧ (s.ctx 511).autoAt = none ∧
       (s.advance 9).wouldAccept 511 (s.advance 9).phys = true) ∧
    (let s := context 0xA800_0000 { st := .running, autoAt := some 900 }
     s.Powered ∧ (s.ctx 511).autoAt = some 900 ∧ max s.now 899 < 900 ∧ 900 ≤ max s.now 900 ∧ (s.ctx 511).st = .running) :=
  ⟨by decide +kernel, by decide +kernel, by decide +kernel, ⟨⟨rfl, rfl⟩, rfl⟩, ⟨⟨rfl, rfl⟩, by decide +kernel⟩, ⟨⟨rfl, rfl⟩, by decide +kernel⟩,
    ⟨rfl, rfl⟩, by decide +kernel⟩

/-- Context 511 at the microword 0x3000 of its routine, which names nanoword 0x600, with flow and actions of their own. -/
def routine (commit flow rest : Nat) (k : Thread) : State :=
  (((context 0x8800_0000 { st := .running, thread := some { k with pc := 0x3000, restart := 0x3000 } }).setTabw (oMicro 0x3000)
    (BitVec.ofNat 32 (commit * 2 ^ 31 + 0x3000 * 2 ^ 11 + 0x600))).setTabw (oNano 0x600 3) (BitVec.ofNat 32 (flow * 2 ^ 27 + rest)))

/-- The fault of the microword that the routine is at, and its actions. -/
def faultOf (s : State) : Option (Nat × Nat) :=
  (s.ctx 511).thread.map fun k =>
    (s.wordFault 511 k (s.micro k.pc) (s.nano (mwNano (s.micro k.pc))), (k.acts ++ nwActs (s.nano (mwNano (s.micro k.pc)))).length)

theorem witness_Routines :
    ((context 0 {}).Powered ∧ (context 0 {}).Settled ∧ ((context 0 {}).ctx 511).st ≠ .running ∧ ((context 0 {}).ctx 511).thread = none) ∧
    (let s := (context 0x8800_0000 { st := .running, queued := true }).setTabw (oCtx 511 12) 0x8000_8000
     s.Powered ∧ s.Settled ∧ (s.ctx 511).st = .running ∧ s.ctxBit 511 27 = true ∧ (s.ctx 511).thread = none ∧ s.slotFree 511 = true ∧
       (s.ctx 511).queued = true) ∧
    (let s := routine 0 0 0 { pc := 0, restart := 0, since := 0 }
     s.Powered ∧ s.Settled ∧ ((s.ctx 511).thread.map (·.faulted)) = some false ∧ max s.now 131_071 < 0 + 131_072 ∧ 0 + 131_072 ≤ max s.now 131_072 ∧
       s.wordEdges 0x3000 = 2 ∧ max s.now 1 < 0 + 2 ∧ 0 + 2 ≤ max s.now 2 ∧ faultOf s = some (0, 0) ∧ mwCommit (s.micro 0x3000) = false ∧
       max s.now 2 % 2 = 0 ∧ max s.now 3 % 2 = 1 ∧ ((s.ctx 511).thread.map (·.dog)) = some none ∧
       ((s.ctx 511).thread.map (·.busyTo)) = some 0) ∧
    (let k : Thread := { pc := 0, restart := 0, since := 0, busyTo := 131_072 }
     let s := routine 0 0 0 k
     k.since + 131_072 ≤ max s.now 131_072 ∧ max s.now 131_072 ≤ k.busyTo ∧ k.busyTo < max s.now 131_073) ∧
    (let s := routine 0 0 0 { pc := 0, restart := 0, since := 0, busyTo := 131_071, dog := some 131_073 }
     faultOf s = some (0, 0) ∧ ((s.ctx 511).thread.map fun k => (s.advance 131_074).wordBegan 511 k 131_073) = some true) ∧
    (let s : State := { routine 0 0 0 { pc := 0, restart := 0, since := 0, solHit := true } with solEdge := 1 }
     s.Powered ∧ faultOf s = some (0, 0) ∧ max s.now 2 - s.wordEdges 0x3000 < s.solEdge ∧
       ((s.ctx 511).thread.map fun k => (k.solHit, k.issued)) = some (true, false)) ∧
    (let s := routine 0 0 0 { pc := 0, restart := 0, since := 0, faulted := true }
     s.Powered ∧ ((s.ctx 511).thread.map (·.faulted)) = some true ∧ (s.ctx 511).st = .running) ∧
    (faultOf (routine 1 5 0 { pc := 0, restart := 0, since := 0 })).map (·.1) = some 1 ∧
    (∀ flow ∈ [0, 1, 3, 4], faultOf (routine 1 flow 0 { pc := 0, restart := 0, since := 0 }) = some (0, 0) ∧
      nwFlow ((routine 1 flow 0 { pc := 0, restart := 0, since := 0 }).nano 0x600) = flow) ∧
    (let s := (routine 1 2 0 { pc := 0, restart := 0, since := 0 }).setTabw (oCtx 511 12) 0xB000_B000
     faultOf s = some (0, 0) ∧ nwFlow (s.nano 0x600) = 2 ∧ mwCommit (s.micro 0x3000) = true) ∧
    (let s := routine 1 0 (2 * 2 ^ 17 + 3 * 2 ^ 15) { pc := 0, restart := 0, since := 0 }
     nwActs (s.nano 0x600) = [.counter 2 3] ∧ faultOf s = some (0, 1) ∧ (s.ctx 511).counters.length = 4) :=
  ⟨⟨⟨rfl, rfl⟩, settled_of_running rfl rfl (.inr (.inl rfl)), by decide +kernel⟩, ⟨⟨rfl, rfl⟩, settled_of_running rfl rfl (.inl rfl), by decide +kernel⟩,
    ⟨⟨rfl, rfl⟩, settled_of_running rfl rfl (.inl rfl), by decide +kernel⟩, by decide +kernel, by decide +kernel,
    ⟨⟨rfl, rfl⟩, by decide +kernel⟩, ⟨⟨rfl, rfl⟩, by decide +kernel⟩, by decide +kernel, by decide +kernel, by decide +kernel, by decide +kernel⟩

theorem witness_StoreWrites :
    (up.Powered ∧ up.dev ≠ .booting ∧ up.barrierOn = false ∧ up.boot.recovery = false ∧ 0x2FFF < 0x3000 ∧ 0x5FF < 0x600 ∧ (∀ off, up.portHolds (.table off [7]) = false) ∧ up.microBusy 0x3000 = false ∧ up.nanoBusy 0x600 = false ∧ up.hold = none) ∧
    (let s := routine 0 0 0 { pc := 0, restart := 0, since := 0, micro := [0x3000], nano := [0x600] }
     s.Powered ∧ s.microBusy 0x3000 = true ∧ s.nanoBusy 0x600 = true) ∧
    (let s : State := { up with hold := some (0x600, [1, 2, 3, 4]) }
     s.Powered ∧ s.hold = some (0x600, [1, 2, 3, 4]) ∧ s.nanoBusy 0x600 = false ∧ (0x600 : Nat) ≠ 0x601) :=
  ⟨⟨⟨rfl, rfl⟩, by decide, rfl, rfl, by decide, by decide, fun _ => State.portHolds_nil up rfl _, by decide +kernel⟩,
    ⟨⟨rfl, rfl⟩, by decide +kernel⟩, ⟨rfl, rfl⟩, by decide +kernel⟩

/-- Context 511 capturing: a 2 MiB area, one source, a post-trigger part of 10 periods, and a state of its own. -/
def capturing (stream : Nat) (k : Cap) : State :=
  (((({ context 0x8800_0000 { st := .running } with caps := [(511, k)], now := 10_000 } : State).setTabw (oRec 511 0)
    (BitVec.ofNat 32 (1 + 2 ^ 13 + 10 * 2 ^ 18 + stream * 2 ^ 30 + 2 ^ 31))).setTabw (oRec 511 2) 10).setTabw (oRec 511 3) (1 <<< 16)).setTabw
    (oRec 511 5) 4096

/-- An edge item of input 0. -/
def item (p : Nat) : Item := { kind := 0, src := 4096, phys := p, time := p, word1 := 0 }

/-- A headed segment from 1 000 000 to 2 000 000. -/
def segment : Seg := { trig := stampOf 4096 1_000_000 true, tS := 1_000_000, preFrom := 0, tE := some 2_000_000, headed := true }

theorem witness_Records :
    (let s := capturing 0 { active := true, rearmed := false, tR := some 30_000_000 }
     s.Powered ∧ s.Settled ∧ s.oldWords = [] ∧ (s.cap 511).tR = some 30_000_000 ∧ (s.cap 511).rearmed = false ∧ (s.advance 14_999).phys < 30_000_000 ∧
       30_000_000 ≤ (s.advance 15_000).phys) ∧
    (let s := capturing 1 { active := true, msg := [1, 2], msgFrom := 9_995, written := 2 ^ 21 + 1 }
     s.Powered ∧ s.Settled ∧ s.recStream 511 = true ∧ (s.cap 511).msg ≠ [] ∧ s.recPost 511 ≠ 0 ∧ max s.now 10_004 < (s.cap 511).msgFrom + s.recPost 511 ∧
       (s.cap 511).msgFrom + s.recPost 511 ≤ max s.now 10_005 ∧ ((s.cap 511).written - 2) / 2 ^ 21 < (s.cap 511).written / 2 ^ 21) ∧
    ((up.heng (up.recDie 511)).crossing = [] ∧ (up.cap 511).active = false ∧ (up.cap 511).segs = []) ∧
    (let s := capturing 0 { active := true, inq := [item 1_500_000], segs := [segment] }
     s.Powered ∧ s.Settled ∧ s.oldWords = [] ∧ (s.heng (s.recDie 511)).crossing = [] ∧ (s.advance 0).capPast 511 1_500_000 = true ∧
       (let r := capturing 0 { active := true, segs := [{ segment with trig := stampOf 7 1_000_000 true, headed := false }] }
        (r.advance 0).headsPast 511 1_500_000 = false) ∧
       (({ s with now := 751 } : State).advance 0).capPast 511 1_500_000 = false ∧ segment.tS ≤ 1_500_000 ∧ (item 1_500_000).kind ≠ 1 ∧
       s.recStream 511 = false ∧ s.capRoom 511 16 = true ∧ (s.ctx 511).st = .running) ∧
    (capturing 0 { active := true, used := 2 ^ 21 - 239 }).capRoom 511 16 = false ∧ (capturing 0 { active := true, used := 2 ^ 21 - 240 }).capRoom 511 16 = true ∧
    (let s := capturing 0 { active := true, inq := [item 2_000_000], segs := [segment], rec' := some {} }
     s.Powered ∧ s.Settled ∧ (s.cap 511).stopping = false ∧ (s.advance 0).capPast 511 (2_000_000 - 1) = true ∧ (∀ i ∈ (s.cap 511).inq, 2_000_000 ≤ i.phys) ∧
       s.recSegCnt 511 ≤ 0 + 1 ∧ (s.setTabw (oRec 511 3) (2 <<< 16)).recSegCnt 511 = 2 ∧ s.capRoom 511 16 = true ∧
       s.capRoom 511 (80 + 128 * s.recNsrc 511) = true) ∧
    (let s := capturing 0 { active := true }
     (s.cap 511).active = true ∧ (s.cap 511).full = false ∧ (s.cap 511).stopping = false) :=
  ⟨⟨⟨rfl, rfl⟩, settled_of_running rfl rfl (.inl rfl), by decide +kernel⟩, ⟨⟨rfl, rfl⟩, settled_of_running rfl rfl (.inl rfl), by decide +kernel⟩,
    by decide +kernel, ⟨⟨rfl, rfl⟩, settled_of_running rfl rfl (.inl rfl), by decide +kernel⟩, by decide +kernel, by decide +kernel,
    ⟨⟨rfl, rfl⟩, settled_of_running rfl rfl (.inl rfl), by decide +kernel⟩, by decide +kernel⟩

/-! ### The block as a machine -/

theorem witness_StepRunsFront : ({ up with pending := [.wrap 7, .refTick 9] } : State).pending = [.wrap 7, .refTick 9] ∧ up.pending = [] := ⟨rfl, rfl⟩

theorem witness_InvKept : up.Inv ∧ ∃ s', step { up with pending := [.wrap 7] } = .next s' :=
  ⟨⟨by unfold State.epochOk; decide, rfl, fun h => nomatch h⟩, _, rfl⟩

theorem test_front_of_queue : decodeTableWord 32 0 = none := rfl

/-! ### Values of the spec's own worked examples -/

/-- The next state. -/
def next (o : Host.Outcome State Fault Refusal) : Option State :=
  match o with
  | .next s => some s
  | .fault _ => none
  | .refused _ => none

/-- 02, "Worked example": a move of −3.2 ns at 10 ns/s takes 0.32 s. -/
theorem test_pull_length : pullLen (-12_800) 100_000 = 640_000_000 := by decide

/-- 03, "partner over PAIR_TE": θ is 1.5 ns and d is 100 ns. -/
theorem test_time_transfer :
    let s := (link 3 { tx := some 4_000_000_000, echo := some 4_000_820_000, far := some 4_001_400_000, repRx := some 4_000_406_000,
                       repTx := some 4_001_006_000 }).setReg (ra (sTtl 3) 0x01C) 20_000
    (next (exec (.ttlExchange 0 3 []) s)).map (fun s' => (s'.reg64 (sTtl 3) 0x028, s'.reg (ra (sTtl 3) 0x030))) = some (6_000, 400_000) := by
  decide +kernel

/-- 04, "one stamp": L is 750 ps. -/
theorem test_interval : codeToL { q1 := 2_080, q2 := 4_128, f16 := 512_000 } 388 = (3_000, false) := by decide

/-- 05, "a five-edge fit": b is 39,999.4 qps, f is 100,001,500.0225 Hz. -/
theorem test_five_edge_fit :
    let l := [1_000_002, 1_039_999, 1_080_000, 1_120_001, 1_159_998].zipIdx.map fun e => { stampOf 4096 e.1 true with seq := 7 + e.2 }
    (fit (regPts false l)).map (fun x => (x.1, (freqOf x.1).map (· / 2 ^ 64))) =
      some (0x9C3F * 2 ^ 64 + 0x6666_6666_6666_6666, some 0x05F5_E6DC) := by decide +kernel

/-- 06, "an urgent pulse": launched at c = t_c + 35 ns with tap 415. -/
theorem test_launch : launchOf 4_000_322_123 180_500 16_777 = (2_000_070, 415) := by decide

/-- 07, "the ledger across an FEC loss": HEALTH restores R and L. -/
theorem test_ledger :
    let s := lane { st := .up, cw := true, r := 1_002_000, l := 1_006_096 }
    (next (exec (.health 0 63 (BitVec.ofNat 64 (3 * 2 ^ 62 + 1_002_079))) s)).map (fun s' => ((s'.lane 63).r, (s'.lane 63).l)) =
      some (1_002_079, 1_006_175) := by decide +kernel

/-- 08, "one hit from a free-running station": its time and its bin. -/
theorem test_rebase :
    let s := (({ up with now := 2_001_000 } : State).setReg (ra (sLane 40) 0x020) 0x0004_0000).setModel 40 4_000_000_000 4_000_012_000 (-281_474_695)
    s.rebaseTime 40 1_000_503_000 = 4_001_999_998 ∧ (4_001_999_998 + 12_000) / 400_000 = 10_005 := by decide +kernel

/-- 12, "8,192 signals on four devices": the pairs and slices of a device. -/
theorem test_slices :
    let s := ((((up.setTabw (oCor 20 0) (2 ^ 31 + 2048)).setTabw (oBlk 20 0) (BitVec.ofNat 32 (2 ^ 31 + 14 * 2 ^ 16 + 0x14))).setRegN sCas 0x014 6).setRegN
      (sBin 0) 0x014 800)
    (s.devCount 20).1 = 8_389_632 ∧ s.computeSlices 20 8_389_632 = 988 ∧ tileOf 988 = 512 := by decide +kernel

/-- 14, "an urgent gate with a veto": the fields of its words. -/
theorem test_words :
    (mwCommit 0x1380_1600, mwBw 0x1380_1600, mwBsel 0x1380_1600, mwNext 0x1380_1600, mwNano 0x1380_1600) = (false, 1, 1, 0x3002, 0x600) ∧
    nwFlow (0x1800_4800 * 2 ^ 96 + 0x0007_D000 * 2 ^ 32) = 3 ∧
    nwActs (0x1800_4800 * 2 ^ 96 + 0x0007_D000 * 2 ^ 32) = [.out 4 false false 0 4_000] ∧
    nwActs (0x1804_8000 * 2 ^ 96) = [.counter 2 1] := by decide +kernel

/-- 17, "takeover and return": the claims 0xE8 and 0xA9. -/
theorem test_claims :
    (next (exec (.claimSof 2_000) (paired { aligned := true } (0x1E00 + 6 * 2 ^ 4)))).map (·.par.sent) = some 0xE8 ∧
    (next (exec (.claimSof 2_000) (paired { aligned := true } (0x1E00 + 2 * 2 ^ 4 + 1)))).map (·.par.sent) = some 0xA9 := by decide +kernel

/-- 20, "finding a lane and its tile". -/
theorem test_lane_40 :
    ra (sLane 40) 0x024 = 0x0004_A024 ∧ (pageAt 296).map (fun p => pageId p 296) = some 0x0928_01A8 ∧ oTile 40 8 = 0x0008_1420 ∧
    up.pageStat 296 = 0 ∧ up.reg (ra 296 0x010) = 0 ∧ oRoute 296 = 0x0021_4128 := by decide +kernel

/-- R134: STATE of a slot that is idle, awaits READY, and is between gates under Frost. -/
theorem test_slot_state :
    up.slotState 3 = 0 ∧ (up.setMslot 3 { armed := true, requested := true }).slotState 3 = 1 ∧
    (up.setMslot 3 { armed := true, held := true }).slotState 3 = 7 := by decide +kernel

/-- R366, R390: PCIE_PERST_N resets the routing byte of a page, and leaves the delay of a receiver. -/
theorem test_perst_tables :
    let s := (up.setTabw 0x0021_4128 0x85).setTabw 0x000C_0000 7
    s.routeByte 296 = 0x85 ∧ (next (exec (.pciePerst 1_000) s)).map (fun r => (r.routeByte 296, r.tabw 0x000C_0000)) = some (0, 7) := by
  decide +kernel

end Sys2Proof.Tests
end

section
/-! Proofs about the microcode stores (14_microcode.md, "Writing the stores"): how a host write reaches a store, what a refused
write shows, and what a write leaves in the words of either store. -/

namespace Sys2Proof.Machine

/-! ### The stores in the table aperture (R390) -/

/-- The microword store as the aperture lists it. -/
abbrev microTab : TabInfo := ⟨.micro, 0x0002_0000, 0x1_0000, 4⟩

/-- The nanoword store as the aperture lists it. -/
abbrev nanoTab : TabInfo := ⟨.nano, 0x0003_0000, 0x8000, 16⟩

theorem tabAt_eq_microTab {off : Nat} (hlo : 0x2_0000 ≤ off) (hhi : off < 0x3_0000) : tabAt off = some microTab := by
  have hctx : ¬ off < 0x2_0000 := by omega
  simp [tabAt, tabs, List.find?, hctx, hlo, hhi]

theorem tabAt_eq_nanoTab {off : Nat} (hlo : 0x3_0000 ≤ off) (hhi : off < 0x3_8000) : tabAt off = some nanoTab := by
  have hctx : ¬ off < 0x2_0000 := by omega
  have hmicro : ¬ off < 0x3_0000 := by omega
  simp [tabAt, tabs, List.find?, hctx, hmicro, hlo, hhi]

theorem oMicro_range (a : Fin 16384) : 0x2_0000 ≤ oMicro a ∧ oMicro a < 0x3_0000 ∧ oMicro a % 4 = 0 := by
  unfold oMicro
  omega

theorem oNano_range (b : Fin 2048) {k : Nat} (hk : k < 4) :
    0x3_0000 ≤ oNano b k ∧ oNano b k < 0x3_8000 ∧ oNano b k % 4 = 0 := by
  unfold oNano
  omega

theorem tabAt_oMicro (a : Fin 16384) : tabAt (oMicro a) = some microTab :=
  tabAt_eq_microTab (oMicro_range a).1 (oMicro_range a).2.1

theorem tabAt_oNano (b : Fin 2048) {k : Nat} (hk : k < 4) : tabAt (oNano b k) = some nanoTab :=
  tabAt_eq_nanoTab (oNano_range b hk).1 (oNano_range b hk).2.1

theorem microTab_index_oMicro (a : Nat) : microTab.index (oMicro a) = a := by
  simp [TabInfo.index]

theorem nanoTab_index_oNano (b : Nat) {k : Nat} (hk : k < 4) : nanoTab.index (oNano b k) = b := by
  unfold TabInfo.index oNano
  dsimp only
  omega

theorem nanoTab_word_oNano (b : Nat) {k : Nat} (hk : k < 4) : nanoTab.word (oNano b k) = k := by
  unfold TabInfo.word oNano
  dsimp only
  omega

variable {s : State} {t off k : Nat} {v : Word}

/-! ### A host write on its way to a store -/

/-- A write of one aligned word that neither a barrier nor the host port holds goes to its table at once (R339, R347, R351). -/
theorem State.tableWrite_word (hdev : s.dev ≠ .booting) (hporst : s.porst = false) (hbar : s.barrierOn = false)
    (hport : s.portHolds (.table off [v]) = false) (halign : off % 4 = 0) (hbase : off < msixBase) :
    s.tableWrite off [v] = s.tabPut off v := by
  have hmsix : ¬ msixBase ≤ off := by omega
  simp [State.tableWrite, State.tableArrive, State.tableNow, State.each, hdev, hporst, hbar, hport, halign, hmsix]

/-- The host may write every bit of a store's word, and no running owner makes one busy (R391). -/
theorem State.tabPut_oMicro (a : Fin 16384) (hrec : s.boot.recovery = false) :
    s.tabPut (oMicro a) v = s.microWrite a v := by
  have hmask : tabMask (oMicro a) = 0xFFFF_FFFF := by simp [tabMask, tabAt_oMicro, tabWordMask]
  simp [State.tabPut, State.tabBusy, tabAt_oMicro, hmask, hrec, microTab_index_oMicro]

theorem State.tabPut_oNano (b : Fin 2048) (hk : k < 4) (hrec : s.boot.recovery = false) :
    s.tabPut (oNano b k) v = if k = 3 then s.nanoWord3Write b v else s.nanoPartWrite b k v := by
  have hmask : tabMask (oNano b k) = 0xFFFF_FFFF := by simp only [tabMask, tabAt_oNano b hk, tabWordMask]
  have hne : (0xFFFF_FFFF : Word) ≠ 0 := by decide
  simp only [State.tabPut, State.tabBusy, tabAt_oNano b hk, hmask, hrec, nanoTab_index_oNano _ hk, nanoTab_word_oNano _ hk,
    hne, Bool.false_eq_true, false_and, if_false]

/-- A host write of a word `v` at any address of the stores reaches its store: the device is out of BOOTING and runs its own
firmware, and nothing holds the write on its way (R339, R347, R367). -/
structure State.StoresOpen (s : State) (v : Word) : Prop where
  powered : s.Powered
  dev : s.dev ≠ .booting
  barrier : s.barrierOn = false
  recovery : s.boot.recovery = false
  port : ∀ off, 0x2_0000 ≤ off → off < 0x3_8000 → s.portHolds (.table off [v]) = false

/-- A write that reaches the stores is its table's write at the command's coarse edge. -/
theorem State.StoresOpen.tableWrite_advance (h : s.StoresOpen v) (t : Nat) (hlo : 0x2_0000 ≤ off) (hhi : off < 0x3_8000)
    (halign : off % 4 = 0) : (s.advance t).tableWrite off [v] = (s.advance t).tabPut off v :=
  State.tableWrite_word h.dev h.powered.1 h.barrier (h.port off hlo hhi) halign (by unfold msixBase; omega)

theorem State.StoresOpen.exec_microwordWrite (h : s.StoresOpen v) (a : Fin 16384) {x : State}
    (hx : (s.advance t).microWrite a v = x) (q : Quiet (s.advance t) x) : exec (.microwordWrite t a v) s = .next x := by
  refine (Machine.exec_microwordWrite t a v s).trans (command_eq h.powered ?_ q)
  obtain ⟨hlo, hhi, halign⟩ := oMicro_range a
  rw [h.tableWrite_advance t hlo (by omega) halign, State.tabPut_oMicro (s := s.advance t) a h.recovery, hx]

theorem State.StoresOpen.exec_nanowordPartWrite (h : s.StoresOpen v) (b : Fin 2048) (k : Fin 3) {x : State}
    (hx : (s.advance t).nanoPartWrite b k v = x) (q : Quiet (s.advance t) x) :
    exec (.nanowordPartWrite t b k v) s = .next x := by
  refine (Machine.exec_nanowordPartWrite t b k v s).trans (command_eq h.powered ?_ q)
  have hk : k.val ≠ 3 := by omega
  obtain ⟨hlo, hhi, halign⟩ := oNano_range b (k := k) (by omega)
  rw [h.tableWrite_advance t (by omega) hhi halign, State.tabPut_oNano (s := s.advance t) b (by omega) h.recovery, if_neg hk, hx]

theorem State.StoresOpen.exec_nanowordWord3Write (h : s.StoresOpen v) (b : Fin 2048) {x : State}
    (hx : (s.advance t).nanoWord3Write b v = x) (q : Quiet (s.advance t) x) :
    exec (.nanowordWord3Write t b v) s = .next x := by
  refine (Machine.exec_nanowordWord3Write t b v s).trans (command_eq h.powered ?_ q)
  obtain ⟨hlo, hhi, halign⟩ := oNano_range b (k := 3) (by omega)
  rw [h.tableWrite_advance t (by omega) hhi halign, State.tabPut_oNano (s := s.advance t) b (by omega) h.recovery, if_pos rfl, hx]

/-! ### Refused writes (R286) -/

@[simp] theorem State.msix_reg (n a : Nat) : (s.msix n).reg a = s.reg a := by
  unfold State.msix
  split <;> rfl

@[simp] theorem State.raise_reg (slot a : Nat) : (s.raise slot).reg a = s.reg a := by
  unfold State.raise
  dsimp only
  split
  · rfl
  · exact State.msix_reg _ _

/-- An event bit writes its page's `PAGE_EVT` and `PAGE_STAT`; the vector that it may raise writes no register. -/
theorem State.evt_reg_eq (slot b a : Nat) : (s.evt slot b).reg a =
    let x := s.setReg (ra slot 0x008) (s.reg (ra slot 0x008) ||| put 1 b 1)
    (x.setRfld slot 0x004 16 16 (x.rfld slot 0x004 16 16 + 1)).reg a := by
  unfold State.evt
  dsimp only
  split
  · exact State.raise_reg _ _
  · rfl

/-- The registers that an event bit touches: its page's `PAGE_EVT`, and the count of sets in `PAGE_STAT` (R340, R349). -/
theorem State.evt_reg (slot b a : Nat) : (s.evt slot b).reg a =
    if ra slot 0x004 = a then setFld (s.reg (ra slot 0x004)) 16 16 (fld (s.reg (ra slot 0x004)) 16 16 + 1)
    else if ra slot 0x008 = a then s.reg (ra slot 0x008) ||| put 1 b 1
    else s.reg a := by
  have hne : ra slot 0x008 ≠ ra slot 0x004 := by unfold ra; omega
  simp only [State.evt_reg_eq, State.setRfld, State.rfld, State.setReg_reg, hne, if_false]

theorem State.evt_reg_of_ne {slot a : Nat} (b : Nat) (hstat : ra slot 0x004 ≠ a) (hevt : ra slot 0x008 ≠ a) :
    (s.evt slot b).reg a = s.reg a := by
  rw [State.evt_reg, if_neg hstat, if_neg hevt]

theorem State.evt_bit (slot : Nat) {b : Nat} (hb : b < 32) : bit ((s.evt slot b).reg (ra slot 0x008)) b = true := by
  have hne : ra slot 0x004 ≠ ra slot 0x008 := by unfold ra; omega
  rw [State.evt_reg, if_neg hne, if_pos rfl, bit, BitVec.getLsbD_or, put_getLsbD]
  simp [hb]

theorem Side.hold {x : State} (h : Side s x) : x.hold = s.hold := by
  obtain ⟨_, _, _, _, _, rfl⟩ := h
  rfl

/-- `SEQ.WR_STAT` shows the refused write. -/
theorem State.storeRefused_wrStat (reason store n : Nat) : (s.storeRefused reason store n).reg (ra sSeq 0x018) =
    BitVec.ofNat 32 (reason * 2 ^ 16 + store * 2 ^ 14 + n) := by
  unfold State.storeRefused
  rw [State.evt_reg_of_ne 0 (by decide) (by decide)]
  simp [State.bump64, State.setReg64, State.setRegN]

/-- `SEQ.WR_REFUSED` counts it. -/
theorem State.storeRefused_count (reason store n : Nat) : (s.storeRefused reason store n).reg64 sSeq 0x024 =
    min (s.reg64 sSeq 0x024 + 1) (2 ^ 64 - 1) := by
  have hevt (x : State) : (x.evt sSeq 0).reg64 sSeq 0x024 = x.reg64 sSeq 0x024 := by
    unfold State.reg64
    rw [State.evt_reg_of_ne 0 (by decide) (by decide), State.evt_reg_of_ne 0 (by decide) (by decide)]
  have hshown : (s.setRegN sSeq 0x018 (reason * 2 ^ 16 + store * 2 ^ 14 + n)).reg64 sSeq 0x024 = s.reg64 sSeq 0x024 := by
    simp [State.reg64, State.setRegN]
  rw [State.storeRefused, hevt, State.reg64_bump64, hshown]

theorem State.storeRefused_side (reason store n : Nat) : Side s (s.storeRefused reason store n) :=
  ((State.setReg_side _ _ _).trans (State.bump64_side _ _ _ _)).trans (State.evt_side _ _ _)

/-- What the host sees of a refused write, and all that it can touch besides the holding register: `StoreWrites` says this of
every refusal. -/
def RefusedWrite (c : Instr) (s : State) (t reason store n : Nat) (hold : Option (Nat × List Word)) : Prop :=
  Answers c s fun s' =>
    s'.reg (ra sSeq 0x018) = BitVec.ofNat 32 (reason * 2 ^ 16 + store * 2 ^ 14 + n) ∧
    s'.reg64 sSeq 0x024 = min (s.reg64 sSeq 0x024 + 1) (2 ^ 64 - 1) ∧ bit (s'.reg (ra sSeq 0x008)) 0 = true ∧
    s'.hold = hold ∧ Side { s.advance t with hold := hold } s'

theorem State.hold_quiet (hold : Option (Nat × List Word)) : Quiet s { s with hold := hold } :=
  ⟨rfl, rfl, rfl, rfl, rfl, rfl, rfl, rfl, rfl, rfl⟩

/-- A refusal moves the holding register and the refusal's registers alone, so the wrapper of every command keeps it. -/
theorem State.storeRefused_quiet (hold : Option (Nat × List Word)) (reason store n : Nat) :
    Quiet s (({ s with hold := hold } : State).storeRefused reason store n) :=
  (State.hold_quiet hold).trans (State.storeRefused_side reason store n).quiet

/-- A command that answers a refusal shows, counts and flags it. -/
theorem refusedWrite_of_exec {c : Instr} {reason store n : Nat} {hold : Option (Nat × List Word)}
    (h : exec c s = .next (({ s.advance t with hold := hold } : State).storeRefused reason store n)) :
    RefusedWrite c s t reason store n hold :=
  ⟨_, h, State.storeRefused_wrStat _ _ _, State.storeRefused_count _ _ _, State.evt_bit _ (by decide),
    (State.storeRefused_side _ _ _).hold, State.storeRefused_side _ _ _⟩

/-! ### What a microword write comes to (R286, R287) -/

section Micro
variable {a : Nat}

theorem State.microWrite_protected (ha : a < microOpen) : s.microWrite a v = s.storeRefused 2 0 a := if_pos ha

theorem State.microWrite_busy (ha : microOpen ≤ a) (hb : s.microBusy a = true) : s.microWrite a v = s.storeRefused 1 0 a :=
  (if_neg (Nat.not_lt.2 ha)).trans (if_pos hb)

theorem State.microWrite_free (ha : microOpen ≤ a) (hb : s.microBusy a = false) : s.microWrite a v = s.setTabw (oMicro a) v :=
  (if_neg (Nat.not_lt.2 ha)).trans (if_neg (Bool.eq_false_iff.1 hb))

end Micro

/-! ### The stores' words after a write -/

theorem State.setTabw_quiet (a : Nat) (w : Word) : Quiet s (s.setTabw a w) := ⟨rfl, rfl, rfl, rfl, rfl, rfl, rfl, rfl, rfl, rfl⟩

theorem State.micro_setTabw_same {a : Nat} (ha : microOpen ≤ a) : (s.setTabw (oMicro a) v).micro a = v := by
  simp [State.micro, Nat.not_lt.2 ha]

theorem State.micro_setTabw_ne {o : Nat} (h : off ≠ oMicro o) : (s.setTabw off v).micro o = s.micro o := by
  simp [State.micro, h]

theorem oMicro_ne {a o : Nat} (h : o ≠ a) : oMicro a ≠ oMicro o := by
  unfold oMicro
  omega

theorem oMicro_ne_oNano (a : Fin 16384) (o k : Nat) : oMicro a ≠ oNano o k := by
  unfold oMicro oNano
  omega

theorem oNano_ne_oMicro (b k : Nat) {o : Nat} (ho : o < 16384) : oNano b k ≠ oMicro o := by
  unfold oMicro oNano
  omega

theorem oNano_ne_of_entry {b o j k : Nat} (h : o ≠ b) (hj : j < 4) (hk : k < 4) : oNano b j ≠ oNano o k := by
  unfold oNano
  omega

@[simp] theorem oNano_word_inj (b j k : Nat) : oNano b j = oNano b k ↔ j = k := by
  unfold oNano
  omega

/-- A nanoword of the customer-open region is its four table words, word 0 lowest (R272, R278). -/
theorem State.nano_open {b : Nat} (hb : nanoOpen ≤ b) (s : State) : s.nano b = (s.tabw (oNano b 0)).toNat +
    2 ^ 32 * (s.tabw (oNano b 1)).toNat + 2 ^ 64 * (s.tabw (oNano b 2)).toNat + 2 ^ 96 * (s.tabw (oNano b 3)).toNat := by
  have hnano : s.nano b = s.tab64 (oNano b 0) + 2 ^ 64 * s.tab64 (oNano b 2) := if_neg (Nat.not_lt.2 hb)
  have h1 : oNano b 0 + 4 = oNano b 1 := rfl
  have h3 : oNano b 2 + 4 = oNano b 3 := rfl
  rw [hnano, State.tab64, State.tab64, h1, h3]
  omega

theorem State.nano_setTabw_ne {o : Nat} (h : ∀ k < 4, off ≠ oNano o k) : (s.setTabw off v).nano o = s.nano o := by
  by_cases ho : o < nanoOpen
  · simp [State.nano, ho]
  · rw [State.nano_open (Nat.not_lt.1 ho), State.nano_open (Nat.not_lt.1 ho), State.setTabw_tabw_ne s v (h 0 (by decide)),
      State.setTabw_tabw_ne s v (h 1 (by decide)), State.setTabw_tabw_ne s v (h 2 (by decide)),
      State.setTabw_tabw_ne s v (h 3 (by decide))]

/-- All four words of a nanoword placed, word 3 first, as `nanoWord3Write` does. -/
def State.placeNano (s : State) (b : Nat) (w0 w1 w2 w3 : Word) : State :=
  (((s.setTabw (oNano b 3) w3).setTabw (oNano b 0) w0).setTabw (oNano b 1) w1).setTabw (oNano b 2) w2

theorem State.placeNano_quiet (b : Nat) (w0 w1 w2 w3 : Word) : Quiet s (s.placeNano b w0 w1 w2 w3) :=
  (((State.setTabw_quiet _ _).trans (State.setTabw_quiet _ _)).trans (State.setTabw_quiet _ _)).trans (State.setTabw_quiet _ _)

theorem State.nano_placeNano_same {b : Nat} (hb : nanoOpen ≤ b) (w0 w1 w2 w3 : Word) : (s.placeNano b w0 w1 w2 w3).nano b =
    w0.toNat + 2 ^ 32 * w1.toNat + 2 ^ 64 * w2.toNat + 2 ^ 96 * w3.toNat := by
  simp [State.nano_open hb, State.placeNano]

theorem State.nano_placeNano_ne {b o : Nat} (ho : o ≠ b) (w0 w1 w2 w3 : Word) :
    (s.placeNano b w0 w1 w2 w3).nano o = s.nano o := by
  have hput (x : State) (w : Word) {j : Nat} (hj : j < 4) : (x.setTabw (oNano b j) w).nano o = x.nano o :=
    State.nano_setTabw_ne fun _ hk => oNano_ne_of_entry ho hj hk
  rw [State.placeNano, hput _ _ (by decide), hput _ _ (by decide), hput _ _ (by decide), hput _ _ (by decide)]

theorem State.micro_placeNano {b o : Nat} (ho : o < 16384) (w0 w1 w2 w3 : Word) :
    (s.placeNano b w0 w1 w2 w3).micro o = s.micro o := by
  have hput (x : State) (w : Word) (j : Nat) : (x.setTabw (oNano b j) w).micro o = x.micro o :=
    State.micro_setTabw_ne (oNano_ne_oMicro b j ho)
  rw [State.placeNano, hput, hput, hput, hput]

/-- Bit 31 of word 3 is reserved (R278). -/
theorem toNat_and_word3Mask (v : Word) : (v &&& 0x7FFF_FFFF).toNat = v.toNat % 2 ^ 31 := by
  rw [BitVec.toNat_and]
  exact Nat.and_two_pow_sub_one_eq_mod v.toNat 31

/-! ### What a nanoword write comes to (R286, R287) -/

section Nano
variable {b : Nat}

/-- The words that a part write of a nanoword goes into: those that wait for it, or else the nanoword's own (R287). -/
def State.waiting (s : State) (b : Nat) : List Word :=
  match s.hold with
  | some (o, l) => if o = b then l else s.nanoWords b
  | none => s.nanoWords b

theorem State.nanoPartWrite_protected (hb : b < nanoOpen) : s.nanoPartWrite b k v = s.storeRefused 2 1 b := if_pos hb

theorem State.nanoPartWrite_busy (hb : nanoOpen ≤ b) (hbusy : s.nanoBusy b = true) :
    s.nanoPartWrite b k v = s.storeRefused 1 1 b :=
  (if_neg (Nat.not_lt.2 hb)).trans (if_pos hbusy)

theorem State.nanoPartWrite_free (hb : nanoOpen ≤ b) (hfree : s.nanoBusy b = false) : s.nanoPartWrite b k v =
    { s with hold := some (b, (s.waiting b).set k (if k = 0 then v &&& 0xFFFE_0000 else v)) } :=
  (if_neg (Nat.not_lt.2 hb)).trans (if_neg (Bool.eq_false_iff.1 hfree))

theorem State.nanoWord3Write_protected (hb : b < nanoOpen) : s.nanoWord3Write b v = s.storeRefused 2 1 b := if_pos hb

theorem State.nanoWord3Write_busy (hb : nanoOpen ≤ b) (hbusy : s.nanoBusy b = true) :
    s.nanoWord3Write b v = ({ s with hold := none } : State).storeRefused 1 1 b :=
  (if_neg (Nat.not_lt.2 hb)).trans (if_pos hbusy)

theorem State.nanoWord3Write_order (hb : nanoOpen ≤ b) (hfree : s.nanoBusy b = false) {o : Nat} {l : List Word}
    (hh : s.hold = some (o, l)) (ho : o ≠ b) :
    s.nanoWord3Write b v = ({ s with hold := none } : State).storeRefused 3 1 b := by
  simp [State.nanoWord3Write, Nat.not_lt.2 hb, hfree, hh, ho]

/-- Word 3 places all four words at once (R287). -/
theorem State.nanoWord3Write_placed (hb : nanoOpen ≤ b) (hfree : s.nanoBusy b = false) {w0 w1 w2 w3 : Word}
    (hh : s.hold = some (b, [w0, w1, w2, w3])) :
    s.nanoWord3Write b v = ({ s with hold := none } : State).placeNano b w0 w1 w2 (v &&& 0x7FFF_FFFF) := by
  simp [State.nanoWord3Write, State.placeNano, Nat.not_lt.2 hb, hfree, hh]

theorem State.nanoWord3Write_alone (hb : nanoOpen ≤ b) (hfree : s.nanoBusy b = false) (hh : s.hold = none) :
    s.nanoWord3Write b v = ({ s with hold := none } : State).setTabw (oNano b 3) (v &&& 0x7FFF_FFFF) := by
  simp [State.nanoWord3Write, Nat.not_lt.2 hb, hfree, hh]

end Nano

/-! ### The clauses of `StoreWrites`: microwords -/

theorem microwordWrite_protected (h : s.StoresOpen v) (a : Fin 16384) (ha : a.val < microOpen) :
    RefusedWrite (.microwordWrite t a v) s t 2 0 a s.hold :=
  refusedWrite_of_exec (h.exec_microwordWrite a (State.microWrite_protected ha) (State.storeRefused_quiet s.hold 2 0 a))

theorem microwordWrite_busy (h : s.StoresOpen v) (a : Fin 16384) (ha : microOpen ≤ a.val)
    (hbusy : (s.advance t).microBusy a = true) : RefusedWrite (.microwordWrite t a v) s t 1 0 a s.hold :=
  refusedWrite_of_exec (h.exec_microwordWrite a (State.microWrite_busy ha hbusy) (State.storeRefused_quiet s.hold 1 0 a))

/-- A microword write stands at once, and no other word of either store changes. -/
theorem microwordWrite_stands (h : s.StoresOpen v) (a : Fin 16384) (ha : microOpen ≤ a.val)
    (hfree : (s.advance t).microBusy a = false) : Answers (.microwordWrite t a v) s fun s' =>
      s'.micro a = v ∧ (∀ o, o ≠ a.val → s'.micro o = s.micro o) ∧ (∀ o, o < 2048 → s'.nano o = s.nano o) ∧
      s' = { s.advance t with tab := s'.tab } :=
  ⟨_, h.exec_microwordWrite a (State.microWrite_free ha hfree) (State.setTabw_quiet _ _), State.micro_setTabw_same ha,
    fun _ ho => State.micro_setTabw_ne (oMicro_ne ho), fun o _ => State.nano_setTabw_ne fun k _ => oMicro_ne_oNano a o k, rfl⟩

/-! ### The clauses of `StoreWrites`: words 0 to 2 of a nanoword -/

theorem nanowordPartWrite_protected (h : s.StoresOpen v) (b : Fin 2048) (k : Fin 3) (hb : b.val < nanoOpen) :
    RefusedWrite (.nanowordPartWrite t b k v) s t 2 1 b s.hold :=
  refusedWrite_of_exec (h.exec_nanowordPartWrite b k (State.nanoPartWrite_protected hb) (State.storeRefused_quiet s.hold 2 1 b))

theorem nanowordPartWrite_busy (h : s.StoresOpen v) (b : Fin 2048) (k : Fin 3) (hb : nanoOpen ≤ b.val)
    (hbusy : (s.advance t).nanoBusy b = true) : RefusedWrite (.nanowordPartWrite t b k v) s t 1 1 b s.hold :=
  refusedWrite_of_exec
    (h.exec_nanowordPartWrite b k (State.nanoPartWrite_busy hb hbusy) (State.storeRefused_quiet s.hold 1 1 b))

/-- Words 0 to 2 wait in the holding register; the reserved bits of word 0 are cut. -/
theorem nanowordPartWrite_waits (h : s.StoresOpen v) (b : Fin 2048) (k : Fin 3) (hb : nanoOpen ≤ b.val)
    (hfree : (s.advance t).nanoBusy b = false) : exec (.nanowordPartWrite t b k v) s = .next
      { s.advance t with
        hold := some (b.val, ((s.advance t).waiting b).set k (if k.val = 0 then v &&& 0xFFFE_0000 else v)) } :=
  h.exec_nanowordPartWrite b k (State.nanoPartWrite_free hb hfree) (State.hold_quiet _)

/-! ### The clauses of `StoreWrites`: word 3 of a nanoword -/

theorem nanowordWord3Write_protected (h : s.StoresOpen v) (b : Fin 2048) (hb : b.val < nanoOpen) :
    RefusedWrite (.nanowordWord3Write t b v) s t 2 1 b s.hold :=
  refusedWrite_of_exec (h.exec_nanowordWord3Write b (State.nanoWord3Write_protected hb) (State.storeRefused_quiet s.hold 2 1 b))

theorem nanowordWord3Write_busy (h : s.StoresOpen v) (b : Fin 2048) (hb : nanoOpen ≤ b.val)
    (hbusy : (s.advance t).nanoBusy b = true) : RefusedWrite (.nanowordWord3Write t b v) s t 1 1 b none :=
  refusedWrite_of_exec (h.exec_nanowordWord3Write b (State.nanoWord3Write_busy hb hbusy) (State.storeRefused_quiet none 1 1 b))

/-- Word 3 comes while the other words of another nanoword wait: ORDER (R286). -/
theorem nanowordWord3Write_order (h : s.StoresOpen v) (b : Fin 2048) {o : Nat} {l : List Word} (hb : nanoOpen ≤ b.val)
    (hfree : (s.advance t).nanoBusy b = false) (hh : s.hold = some (o, l)) (ho : o ≠ b.val) :
    RefusedWrite (.nanowordWord3Write t b v) s t 3 1 b none :=
  refusedWrite_of_exec
    (h.exec_nanowordWord3Write b (State.nanoWord3Write_order hb hfree hh ho) (State.storeRefused_quiet none 3 1 b))

theorem nanowordWord3Write_places (h : s.StoresOpen v) (b : Fin 2048) {w0 w1 w2 w3 : Word} (hb : nanoOpen ≤ b.val)
    (hfree : (s.advance t).nanoBusy b = false) (hh : s.hold = some (b.val, [w0, w1, w2, w3])) :
    Answers (.nanowordWord3Write t b v) s fun s' => s'.hold = none ∧
      s'.nano b = w0.toNat + 2 ^ 32 * w1.toNat + 2 ^ 64 * w2.toNat + 2 ^ 96 * (v.toNat % 2 ^ 31) ∧
      (∀ o, o < 2048 → o ≠ b.val → s'.nano o = s.nano o) ∧ (∀ o, o < 16384 → s'.micro o = s.micro o) := by
  have hexec := h.exec_nanowordWord3Write b (State.nanoWord3Write_placed hb hfree hh)
    ((State.hold_quiet none).trans (State.placeNano_quiet _ _ _ _ _))
  refine ⟨_, hexec, rfl, ?_, fun _ _ ho => State.nano_placeNano_ne ho _ _ _ _, fun _ ho => State.micro_placeNano ho _ _ _ _⟩
  rw [State.nano_placeNano_same hb, toNat_and_word3Mask]

/-- Where no words wait, word 3 joins the words of the nanoword that the store holds. -/
theorem nanowordWord3Write_alone (h : s.StoresOpen v) (b : Fin 2048) (hb : nanoOpen ≤ b.val)
    (hfree : (s.advance t).nanoBusy b = false) (hh : s.hold = none) : Answers (.nanowordWord3Write t b v) s fun s' =>
      s'.tabw (oNano b 3) = v &&& 0x7FFF_FFFF ∧ (∀ k, k < 3 → s'.tabw (oNano b k) = s.tabw (oNano b k)) := by
  have hexec := h.exec_nanowordWord3Write b (State.nanoWord3Write_alone hb hfree hh)
    ((State.hold_quiet none).trans (State.setTabw_quiet _ _))
  refine ⟨_, hexec, State.setTabw_tabw_same _ _ _, fun k hk => State.setTabw_tabw_ne _ _ ?_⟩
  rw [Ne, oNano_word_inj]
  omega

/-- Settles O59, clause by clause: each write reaches its store, and the store's rule for it says the rest. -/
theorem storeWrites : Obligations.StoreWrites := by
  intro s t a b v hpow hdev hbar hrec hport
  have h : s.StoresOpen v := ⟨hpow, hdev, hbar, hrec, hport⟩
  exact ⟨microwordWrite_protected h a, microwordWrite_busy h a, microwordWrite_stands h a,
    fun k => ⟨nanowordPartWrite_protected h b k, nanowordPartWrite_busy h b k, nanowordPartWrite_waits h b k⟩,
    nanowordWord3Write_protected h b, nanowordWord3Write_busy h b,
    fun _ _ hb hfree hh ho => nanowordWord3Write_order h b hb hfree hh ho,
    fun _ _ _ _ hb hfree hh => nanowordWord3Write_places h b hb hfree hh, nanowordWord3Write_alone h b⟩

end Sys2Proof.Machine
end

section
/-! Proofs about event bits and host accesses (18_host_control.md, R338, R349, R350): when a page's vector sends its
message, what setting and clearing an event bit leave, and how an access that reaches its page is served. -/

namespace Sys2Proof.Machine

variable {s : State} {a b slot t : Nat} {p : Path} {v : Word}

/-- Two offsets of a page are two addresses. -/
theorem ra_ne (slot : Nat) {i j : Nat} (h : i ≠ j) : ra slot i ≠ ra slot j := fun e => h (Nat.add_left_cancel e)

/-! ### A page's vector (R350) -/

/-- A page raises its vector by a message alone: sent, or held in the PBA. -/
theorem State.raise_eq (s : State) (slot : Nat) :
    s.raise slot = { s with pba := (s.raise slot).pba, out := (s.raise slot).out } := by
  unfold State.raise State.msix
  dsimp only
  split
  · rfl
  · split <;> rfl

/-- Only the routing table, the vectors' masks and the messages so far decide what raising a vector comes to. -/
theorem State.raise_congr {x : State} (htab : x.tab = s.tab) (hmsix : x.msixTable = s.msixTable) (hpba : x.pba = s.pba)
    (hout : x.out = s.out) : (x.raise slot).out = (s.raise slot).out ∧ (x.raise slot).pba = (s.raise slot).pba := by
  have hbyte : x.routeByte slot = s.routeByte slot := by simp only [State.routeByte, State.tfld, State.tabw, htab]
  have hmask (n : Nat) : x.msixWord n = s.msixWord n := by simp only [State.msixWord, hmsix]
  simp only [State.raise, State.msix, hbyte, hmask]
  split
  · exact ⟨hout, hpba⟩
  · split <;> simp [hpba, hout]

theorem State.routeByte_lt (s : State) (slot : Nat) : s.routeByte slot < 256 := Nat.mod_lt _ (by decide)

theorem State.raise_routed (h : s.routeByte slot < 128) : s.raise slot = s.msix (64 + s.routeByte slot % 64) := by
  have hon : ¬ s.routeByte slot / 128 % 2 = 1 := by omega
  exact if_neg hon

theorem State.raise_disabled (h : ¬ s.routeByte slot < 128) : s.raise slot = s := by
  have hlt := s.routeByte_lt slot
  have hoff : s.routeByte slot / 128 % 2 = 1 := by omega
  exact if_pos hoff

theorem State.msix_unmasked {n : Nat} (h : ¬ bit (s.msixWord (16 * n + 12)) 0 = true) :
    s.msix n = { s with out := .msix n :: s.out } := if_neg h

/-- A masked vector's message waits in the PBA. -/
theorem State.msix_masked {n : Nat} (h : bit (s.msixWord (16 * n + 12)) 0 = true) :
    (s.msix n).out = s.out ∧ n ∈ (s.msix n).pba := by
  rw [State.msix, if_pos h]
  refine ⟨rfl, ?_⟩
  dsimp only
  split
  · next hmem => simpa using hmem
  · exact List.mem_cons_self

/-! ### Setting an event bit (R349) -/

/-- The registers and the bit's cycle once hardware has set it, before the page raises its vector. -/
def State.evtNoted (s : State) (slot b : Nat) : State :=
  let x := s.setReg (ra slot 0x008) (s.reg (ra slot 0x008) ||| put 1 b 1)
  { x.setRfld slot 0x004 16 16 (x.rfld slot 0x004 16 16 + 1) with
    evtAt := Sparse.put s.evtAt (32 * slot + b) (islandCycle slot s.now) }

/-- The bit turns from 0 to 1, and is enabled. -/
def State.EvtRises (s : State) (slot b : Nat) : Prop :=
  bit (s.reg (ra slot 0x008)) b = false ∧ bit (s.reg (ra slot 0x00C)) b = true

theorem State.evtNoted_reg (s : State) (slot b a : Nat) : (s.evtNoted slot b).reg a =
    let x := s.setReg (ra slot 0x008) (s.reg (ra slot 0x008) ||| put 1 b 1)
    (x.setRfld slot 0x004 16 16 (x.rfld slot 0x004 16 16 + 1)).reg a := rfl

theorem State.evtNoted_reg_en (s : State) (slot b : Nat) :
    (s.evtNoted slot b).reg (ra slot 0x00C) = s.reg (ra slot 0x00C) := by
  rw [State.evtNoted_reg, ← State.evt_reg_eq, State.evt_reg_of_ne b (ra_ne slot (by decide)) (ra_ne slot (by decide))]

/-- What `evt` asks before it raises the vector. -/
theorem State.evtRises_iff (s : State) (slot b : Nat) :
    (!bit (s.reg (ra slot 0x008)) b && (s.evtNoted slot b).rbit slot 0x00C b) = true ↔ s.EvtRises slot b := by
  rw [Bool.and_eq_true, Bool.not_eq_true', State.rbit, State.evtNoted_reg_en, State.EvtRises]

theorem State.evt_of_rises (h : s.EvtRises slot b) : s.evt slot b = (s.evtNoted slot b).raise slot :=
  if_pos ((s.evtRises_iff slot b).2 h)

theorem State.evt_of_not_rises (h : ¬ s.EvtRises slot b) : s.evt slot b = s.evtNoted slot b :=
  if_neg fun hc => h ((s.evtRises_iff slot b).1 hc)

theorem State.evt_messages_of_rises (h : s.EvtRises slot b) :
    (s.evt slot b).out = (s.raise slot).out ∧ (s.evt slot b).pba = (s.raise slot).pba := by
  rw [State.evt_of_rises h]
  exact State.raise_congr rfl rfl rfl rfl

/-- All that setting an event bit touches. -/
theorem State.evt_eq (s : State) (slot b : Nat) : s.evt slot b = { s with
    regs := (s.evt slot b).regs, evtAt := (s.evt slot b).evtAt, pba := (s.evt slot b).pba, out := (s.evt slot b).out } := by
  by_cases h : s.EvtRises slot b
  · rw [State.evt_of_rises h, State.raise_eq]
    rfl
  · rw [State.evt_of_not_rises h]
    rfl

theorem State.evt_pageEvt (s : State) (slot b : Nat) :
    (s.evt slot b).reg (ra slot 0x008) = s.reg (ra slot 0x008) ||| (1 : Word) <<< b := by
  rw [State.evt_reg, if_neg (ra_ne slot (by decide)), if_pos rfl, put_one]

theorem State.evt_pageStat (s : State) (slot b : Nat) : (s.evt slot b).reg (ra slot 0x004) =
    setFld (s.reg (ra slot 0x004)) 16 16 (fld (s.reg (ra slot 0x004)) 16 16 + 1) := by
  rw [State.evt_reg, if_pos rfl]

/-- SETS advances modulo 2^16. -/
theorem State.evt_sets (s : State) (slot b : Nat) :
    (s.evt slot b).rfld slot 0x004 16 16 = (s.rfld slot 0x004 16 16 + 1) % 2 ^ 16 := by
  rw [State.rfld, State.evt_pageStat, fld_setFld _ _ _ _ (by decide), State.rfld]

/-- The fields of PAGE_STAT below SETS, GEN among them, stand. -/
theorem State.evt_pageStat_low (s : State) (slot b : Nat) {i : Nat} (hi : i < 16) :
    bit ((s.evt slot b).reg (ra slot 0x004)) i = bit (s.reg (ra slot 0x004)) i := by
  have hout : ¬ (16 ≤ i ∧ i < 16 + 16) := by omega
  rw [State.evt_pageStat, bit, setFld_getLsbD _ _ _ _ _ (by omega), if_neg hout, bit]

/-- An enabled bit that turns to 1 sends the page's message where its vector is not masked. -/
theorem State.evt_sends (h : s.EvtRises slot b) (hbyte : s.routeByte slot < 128)
    (hmask : ¬ bit (s.msixWord (16 * (64 + s.routeByte slot % 64) + 12)) 0 = true) :
    (s.evt slot b).out = .msix (64 + s.routeByte slot % 64) :: s.out ∧ (s.evt slot b).pba = s.pba := by
  obtain ⟨hout, hpba⟩ := State.evt_messages_of_rises h
  rw [hout, hpba, State.raise_routed hbyte, State.msix_unmasked hmask]
  exact ⟨rfl, rfl⟩

theorem State.evt_holds (h : s.EvtRises slot b) (hbyte : s.routeByte slot < 128)
    (hmask : bit (s.msixWord (16 * (64 + s.routeByte slot % 64) + 12)) 0 = true) :
    (s.evt slot b).out = s.out ∧ (64 + s.routeByte slot % 64) ∈ (s.evt slot b).pba := by
  obtain ⟨hout, hpba⟩ := State.evt_messages_of_rises h
  rw [hout, hpba, State.raise_routed hbyte]
  exact State.msix_masked hmask

theorem State.evt_silent (h : ¬ (s.EvtRises slot b ∧ s.routeByte slot < 128)) :
    (s.evt slot b).out = s.out ∧ (s.evt slot b).pba = s.pba := by
  by_cases hr : s.EvtRises slot b
  · have hbyte : ¬ s.routeByte slot < 128 := fun hb => h ⟨hr, hb⟩
    have hmessages := State.evt_messages_of_rises hr
    rwa [State.raise_disabled hbyte] at hmessages
  · rw [State.evt_of_not_rises hr]
    exact ⟨rfl, rfl⟩

/-! ### Clearing event bits (R349) -/

/-- Hardware has set the bit in the present cycle of the page's island clock. -/
def State.evtLate (s : State) (slot b : Nat) : Bool :=
  decide (Sparse.find s.evtAt (32 * slot + b) = some (islandCycle slot s.now))

/-- What a W1C write leaves of PAGE_EVT. -/
def State.evtLeft (s : State) (slot : Nat) (v : Word) : Word :=
  s.reg (ra slot 0x008) &&&
    ~~~(((List.range 32).filter fun b => bit v b && !s.evtLate slot b).foldl (fun m b => m ||| put 1 b 1) (0 : Word))

theorem bit_put_one {i : Nat} (hi : i < 32) : bit (put 1 b 1) i = true ↔ i = b := by
  rw [bit, put_getLsbD]
  constructor
  · intro h
    simp only [Bool.and_eq_true, decide_eq_true_eq] at h
    omega
  · rintro rfl
    simp [hi]

/-- A fold that sets a list's bits sets just these. -/
theorem bit_foldl_put (l : List Nat) (m : Word) {i : Nat} (hi : i < 32) :
    bit (l.foldl (fun m b => m ||| put 1 b 1) m) i = true ↔ bit m i = true ∨ i ∈ l := by
  induction l generalizing m with
  | nil => simp
  | cons b r ih =>
    have hput : bit (m ||| put 1 b 1) i = true ↔ bit m i = true ∨ i = b := by
      rw [← bit_put_one hi, bit, BitVec.getLsbD_or, Bool.or_eq_true, bit, bit]
    rw [List.foldl_cons, ih, hput, List.mem_cons, or_assoc]

/-- The set wins over the clear of the same cycle. -/
theorem State.bit_evtLeft (s : State) (slot : Nat) (v : Word) (hb : b < 32) : bit (s.evtLeft slot v) b = true ↔
    bit (s.reg (ra slot 0x008)) b = true ∧ (bit v b = false ∨ s.evtLate slot b = true) := by
  have hgone := bit_foldl_put ((List.range 32).filter fun b => bit v b && !s.evtLate slot b) 0 hb
  unfold State.evtLeft
  generalize ((List.range 32).filter fun b => bit v b && !s.evtLate slot b).foldl (fun m b => m ||| put 1 b 1) (0 : Word) = gone
    at hgone ⊢
  have hleft : bit (s.reg (ra slot 0x008) &&& ~~~gone) b = (bit (s.reg (ra slot 0x008)) b && !bit gone b) := by
    unfold bit
    rw [BitVec.getLsbD_and, BitVec.getLsbD_not, decide_eq_true hb, Bool.true_and]
  have hzero : bit (0 : Word) b = false := BitVec.getLsbD_zero
  rw [hleft, Bool.and_eq_true, Bool.not_eq_true', ← Bool.not_eq_true, hgone, hzero, List.mem_filter, List.mem_range]
  cases bit v b <;> simp [hb]

theorem State.setReg_pageEvt_en (s : State) (slot : Nat) (w : Word) :
    (s.setReg (ra slot 0x008) w).reg (ra slot 0x00C) = s.reg (ra slot 0x00C) :=
  State.setReg_reg_ne _ _ (ra_ne slot (by decide))

theorem State.evtClear_quieted (h : s.evtLeft slot v &&& s.reg (ra slot 0x00C) = 0) :
    s.evtClear slot v = s.setReg (ra slot 0x008) (s.evtLeft slot v) :=
  if_pos ((congrArg (s.evtLeft slot v &&& ·) (s.setReg_pageEvt_en slot _)).trans h)

theorem State.evtClear_raised (h : s.evtLeft slot v &&& s.reg (ra slot 0x00C) ≠ 0) :
    s.evtClear slot v = (s.setReg (ra slot 0x008) (s.evtLeft slot v)).raise slot :=
  if_neg fun hc => h ((congrArg (s.evtLeft slot v &&& ·) (s.setReg_pageEvt_en slot _)).symm.trans hc)

theorem State.evtClear_reg (s : State) (slot : Nat) (v : Word) (a : Nat) :
    (s.evtClear slot v).reg a = (s.setReg (ra slot 0x008) (s.evtLeft slot v)).reg a := by
  by_cases h : s.evtLeft slot v &&& s.reg (ra slot 0x00C) = 0
  · rw [State.evtClear_quieted h]
  · rw [State.evtClear_raised h, State.raise_reg]

theorem State.evtClear_pageEvt (s : State) (slot : Nat) (v : Word) :
    (s.evtClear slot v).reg (ra slot 0x008) = s.evtLeft slot v :=
  (s.evtClear_reg slot v _).trans (State.setReg_reg_same _ _ _)

theorem State.evtClear_reg_of_ne (v : Word) (h : a ≠ ra slot 0x008) : (s.evtClear slot v).reg a = s.reg a :=
  (s.evtClear_reg slot v a).trans (State.setReg_reg_ne _ _ h.symm)

/-- An enabled bit left at 1 raises the vector again. -/
theorem State.evtClear_messages (h : s.evtLeft slot v &&& s.reg (ra slot 0x00C) ≠ 0) :
    (s.evtClear slot v).out = (s.raise slot).out ∧ (s.evtClear slot v).pba = (s.raise slot).pba := by
  rw [State.evtClear_raised h]
  exact State.raise_congr rfl rfl rfl rfl

/-- All that a clear touches. -/
theorem State.evtClear_eq (s : State) (slot : Nat) (v : Word) : s.evtClear slot v = { s with
    regs := (s.evtClear slot v).regs, out := (s.evtClear slot v).out, pba := (s.evtClear slot v).pba } := by
  by_cases h : s.evtLeft slot v &&& s.reg (ra slot 0x00C) = 0
  · rw [State.evtClear_quieted h]
    rfl
  · rw [State.evtClear_raised h, State.raise_eq]
    rfl

theorem State.evtClear_side (s : State) (slot : Nat) (v : Word) : Side s (s.evtClear slot v) :=
  ⟨_, _, _, _, _, s.evtClear_eq slot v⟩

/-! ### A host access on its way (R338, R347, R351) -/

theorem State.Reaches.hostWrite (h : s.Reaches a) (hporst : s.porst = false) (halign : a % 4 = 0) (p : Path) (v : Word) :
    s.hostWrite p a v true = s.writeNow p a v := by
  obtain ⟨hdev, hbar, hport⟩ := h
  have hfree := State.portHolds_of_write s hport (.write p a v) rfl
  simp [State.hostWrite, State.writeArrive, hdev, hporst, halign, hbar, hfree]

theorem State.Reaches.hostRead (h : s.Reaches a) (halign : a % 4 = 0) (p : Path) : s.hostRead p a = s.readReply p a := by
  obtain ⟨hdev, hbar, hport⟩ := h
  have hfree := State.portHolds_of_write s hport (.read p a) rfl
  simp [State.hostRead, State.readArrive, State.readWaits, hdev, halign, hbar, hfree]

theorem regAt_pageEvt (h : (pageAt slot).isSome = true) : regAt (ra slot 0x008) = some ⟨.w1c, 0, 0xFFFF_FFFF⟩ := by
  obtain ⟨q, hq⟩ := Option.isSome_iff_exists.1 h
  rw [regAt, ra_div slot _ (by decide), ra_mod slot _ (by decide), hq]
  rfl

/-- A write of PAGE_EVT of a page that is served clears event bits. -/
theorem State.writeNow_pageEvt (hserved : s.served slot = true) (hpage : (pageAt slot).isSome = true) (p : Path) (v : Word) :
    s.writeNow p (ra slot 0x008) v = s.evtClear slot v := by
  obtain ⟨q, hq⟩ := Option.isSome_iff_exists.1 hpage
  have hdiv := ra_div slot 0x008 (by decide)
  have hreg : s.hostReg (ra slot 0x008) = some ⟨.w1c, 0, 0xFFFF_FFFF⟩ := by
    rw [State.hostReg, hdiv, if_pos hserved, regAt_pageEvt hpage]
  simp only [State.writeNow, hreg, hdiv, hq]

theorem exec_pageEvtClear_reached (h : s.Powered) (slot : Fin 1024) (hreach : s.Reaches (ra slot 0x008))
    (hserved : s.served slot = true) (hpage : (pageAt slot).isSome = true) (t : Nat) (p : Path) (v : Word) :
    exec (.pageEvtClear t p slot v) s = .next ((s.advance t).evtClear slot v) := by
  refine (exec_pageEvtClear t p slot v s).trans (command_eq h ?_ (State.evtClear_side _ _ _).quiet)
  have halign : ra slot 0x008 % 4 = 0 := by unfold ra; omega
  have hreach' : (s.advance t).Reaches (ra slot 0x008) := hreach
  exact (hreach'.hostWrite h.1 halign p v).trans (State.writeNow_pageEvt (s := s.advance t) hserved hpage p v)

/-- Settles O6: the first clause says what `evt` leaves, the second what the write of PAGE_EVT leaves at its coarse edge. -/
theorem eventBits : Obligations.EventBits := by
  constructor
  · intro s slot b _
    refine ⟨s.evt_pageEvt slot b, s.evt_sets slot b, fun _ => s.evt_pageStat_low slot b,
      fun _ hevt hstat => State.evt_reg_of_ne b hstat.symm hevt.symm, ?_, ?_, ?_, s.evt_eq slot b⟩
    · exact fun ⟨hold, hen, hbyte⟩ => State.evt_sends ⟨hold, hen⟩ hbyte
    · exact fun ⟨hold, hen, hbyte⟩ => State.evt_holds ⟨hold, hen⟩ hbyte
    · exact fun h => State.evt_silent fun ⟨⟨hold, hen⟩, hbyte⟩ => h ⟨hold, hen, hbyte⟩
  · intro s t p slot v hpow hreach hserved hpage
    refine ⟨_, exec_pageEvtClear_reached hpow slot hreach hserved hpage t p v, ?_⟩
    dsimp only
    rw [State.evtClear_pageEvt]
    refine ⟨fun b hb => ?_, fun a ha => State.evtClear_reg_of_ne v ha, fun h => ?_, fun h => ?_, State.evtClear_eq _ _ _⟩
    · exact (State.bit_evtLeft _ _ v hb).trans (and_congr_right' (or_congr_right decide_eq_true_iff))
    · rw [State.evtClear_quieted h]
      exact ⟨rfl, rfl⟩
    · obtain ⟨hout, hpba⟩ := State.evtClear_messages h
      obtain ⟨hout', hpba'⟩ := State.raise_congr (s := s) (x := s.advance t) (slot := slot) rfl rfl rfl rfl
      exact ⟨hout.trans hout', hpba.trans hpba'⟩

/-! ### Bad accesses, and addresses where no register is (R338) -/

theorem State.hostWrite_bad (hdev : s.dev ≠ .booting) (hporst : s.porst = false) {full : Bool}
    (hbad : full = false ∨ a % 4 ≠ 0) (p : Path) (v : Word) : s.hostWrite p a v full = s.evt sGlb 6 := by
  have hserves : ¬ (s.dev = .booting ∨ s.porst = true) := by simp [hdev, hporst]
  have hbad' : (!full) = true ∨ a % 4 ≠ 0 := by simpa using hbad
  rw [State.hostWrite, if_neg hserves, if_pos hbad']

theorem State.hostRead_bad (hdev : s.dev ≠ .booting) (hbad : a % 4 ≠ 0) (p : Path) :
    s.hostRead p a = (s.evt sGlb 6).emit (.reply p 0) := by
  rw [State.hostRead, if_neg hdev, if_pos hbad]

theorem State.hostReg_none (s : State) (h : regAt a = none) : s.hostReg a = none := by
  rw [State.hostReg, h, ite_self]

theorem State.writeNow_none (s : State) (h : regAt a = none) (p : Path) (v : Word) : s.writeNow p a v = s := by
  simp only [State.writeNow, s.hostReg_none h]

theorem State.readReply_none (s : State) (h : regAt a = none) (p : Path) :
    s.readReply p a = { s with freeCtr := s.freeCtr + 1, out := .reply p 0 :: s.out } := by
  have hreg := State.hostReg_none { s with freeCtr := s.freeCtr + 1 } h
  simp only [State.readReply, State.readNow, hreg, Option.isNone_none, if_true, State.emit]

theorem State.evt_emit_quiet (s : State) (slot b : Nat) (o : Output) : Quiet s ((s.evt slot b).emit o) :=
  ((s.evt_side slot b).trans (State.emit_side _ o)).quiet

/-- SPLIT_READ_LO and SPLIT_READ_HI are one read that the host port receives: what it comes to, both answer. -/
theorem exec_splitRead {x : State} (h : s.Powered) (hx : (s.advance t).hostRead p a = x) (q : Quiet (s.advance t) x) :
    exec (.splitReadLo t p a) s = .next x ∧ exec (.splitReadHi t p a) s = .next x := by
  have hread : command t (fun s => s.hostRead p a) s = .next x := command_eq h hx q
  exact ⟨(exec_splitReadLo t p a s).trans hread, (exec_splitReadHi t p a s).trans hread⟩

/-- Settles O8: a bad access ends at the host port, and one that reaches an address without a register finds none there. -/
theorem badAccess : Obligations.BadAccess := by
  intro s t p a full v hpow hdev
  refine ⟨fun hbad => ?_, fun hbad => ?_, fun hreach halign hreg => ?_⟩
  · exact (exec_registerWrite t p a full v s).trans
      (command_eq hpow (State.hostWrite_bad (s := s.advance t) hdev hpow.1 hbad p v) (State.evt_quiet _ _ _))
  · exact exec_splitRead hpow (State.hostRead_bad (s := s.advance t) hdev hbad p) (State.evt_emit_quiet _ _ _ _)
  · have hreach' : (s.advance t).Reaches a := hreach
    constructor
    · exact (exec_registerWrite t p a true v s).trans
        (command_eq hpow ((hreach'.hostWrite hpow.1 halign p v).trans (State.writeNow_none _ hreg p v)) (Quiet.refl _))
    · exact exec_splitRead hpow ((hreach'.hostRead halign p).trans (State.readReply_none _ hreg p))
        ⟨rfl, rfl, rfl, rfl, rfl, rfl, rfl, rfl, rfl, rfl⟩

end Sys2Proof.Machine
end

section
/-! Proofs about the block as a machine: a step takes the front of the queue, every command answers, and what every step keeps
(R3, R18, R366). -/

namespace Sys2Proof.Machine

variable {s x : State} {t : Nat}

/-! ### Answers -/

theorem command_answers (t : Nat) (f : State → State) (s : State) :
    ∃ x, command t f s = .next x ∧ x.pending = s.pending := ⟨_, rfl, rfl⟩

theorem commandEpoch_answers (t : Nat) (o : State → Nat × Nat) (f : State → State) (s : State) :
    ∃ x, commandEpoch t o f s = .next x ∧ x.pending = s.pending := by
  unfold commandEpoch
  split
  · exact command_answers t f s
  · exact ⟨_, rfl, rfl⟩

/-- Settles O2, by the shape of the command. -/
theorem everyCommandAnswers : Obligations.EveryCommandAnswers := by
  intro c s
  obtain ⟨t, f, h⟩ | ⟨t, h⟩ | ⟨t, h⟩ | ⟨t, h⟩ | ⟨t, b, h⟩ := exec_shape c <;> unfold Answers <;> rw [h s]
  · exact command_answers t f s
  · exact commandEpoch_answers t _ _ s
  · exact commandEpoch_answers t _ _ s
  · exact ⟨_, rfl, rfl⟩
  · exact ⟨_, rfl, rfl⟩

/-- Settles O1, by the queue's two forms. -/
theorem stepRunsFront : Obligations.StepRunsFront := by
  constructor
  · intro s c r h
    simp [step, h]
  · intro s h
    simp [step, h, State.idle, State.advance]

/-! ### The origin of the epoch -/

/-- The origin that the epoch counts from after an outcome; where there is no next state it has not moved. -/
def originAfter (s : State) : Host.Outcome State Fault Refusal → Nat
  | .next x => x.solEdge
  | _ => s.solEdge

/-- WRAP keeps the origin, in reset and out of it. -/
theorem originAfter_wrap (t : Nat) (s : State) : originAfter s (exec (.wrap t) s) = s.solEdge := by
  rw [exec_wrap, commandEpoch]
  split <;> rfl

/-- The wrapper of every command keeps the origin, but for the three commands at which it may move. -/
theorem originAfter_exec (c : Instr) (s : State) :
    originAfter s (exec c s) = s.solEdge ∨
      (∃ t, c = .solstice t) ∨ (∃ t, c = .porstAssert t) ∨ ∃ t b, c = .porstRelease t b := by
  cases c with
  | solstice t => exact .inr (.inl ⟨t, rfl⟩)
  | porstAssert t => exact .inr (.inr (.inl ⟨t, rfl⟩))
  | porstRelease t b => exact .inr (.inr (.inr ⟨t, b, rfl⟩))
  | wrap t => exact .inl (originAfter_wrap t s)
  | _ => exact .inl rfl

/-- Settles O5: the state answered holds the origin of `originAfter`. -/
theorem onlySolsticeMovesOrigin : Obligations.OnlySolsticeMovesOrigin := by
  intro c s s' h hmoved
  have hafter := originAfter_exec c s
  rw [h] at hafter
  exact hafter.resolve_left hmoved

/-! ### The flag log -/

/-- A change of the flags is noted, so that the log is up to date after every command. -/
theorem State.noteFlags_flagsOk (s : State) : s.noteFlags.flagsOk := by
  unfold State.noteFlags
  split
  case h_1 hlog =>
    split
    case isTrue hsame => simp [State.flagsOk, hlog, hsame]
    case isFalse => rfl
  case h_2 => rfl

theorem State.flagsOk_keep (h : x.flagsOk) (s : State) (n : Nat) : (x.keep s n).flagsOk := h

/-! ### The clock and the origin -/

/-- Time that passes keeps the origin behind the clock. -/
theorem State.epochOk.later {n : Nat} (h : s.epochOk) (hn : s.now ≤ n) :
    s.solEdge ≤ n ∧ s.wraps ≤ (n - s.solEdge) * 2000 / 2 ^ 64 := by
  obtain ⟨horigin, hwraps⟩ := h
  refine ⟨horigin.trans hn, hwraps.trans (Nat.div_le_div_right ?_)⟩
  exact Nat.mul_le_mul_right 2000 (Nat.sub_le_sub_right hn _)

/-- The origin that SOLSTICE sets is the application edge that has come. -/
theorem State.solOrigin_ok (h : s.epochOk) :
    s.solOrigin.1 ≤ s.now ∧ s.solOrigin.2 ≤ (s.now - s.solOrigin.1) * 2000 / 2 ^ 64 := by
  unfold State.solOrigin
  split
  · split
    case isTrue hcome => exact ⟨hcome, Nat.zero_le _⟩
    case isFalse => exact h
  · exact h

/-- WRAP counts only a wrap that has happened. -/
theorem State.wrapOrigin_ok (h : s.epochOk) :
    s.wrapOrigin.1 ≤ s.now ∧ s.wrapOrigin.2 ≤ (s.now - s.wrapOrigin.1) * 2000 / 2 ^ 64 := by
  refine ⟨h.1, ?_⟩
  unfold State.wrapOrigin
  dsimp only
  split
  case isTrue hdue => exact of_decide_eq_true hdue
  case isFalse => exact h.2

/-! ### Reset held by PORST_N (R366) -/

theorem State.resetHeld_of_high (h : s.porst = false) : s.resetHeld := fun hp => absurd hp (by simp [h])

/-- A device in reset stays in reset while only the clock and the queue move. -/
theorem State.resetHeld_advance_requeue (h : s.resetHeld) (n : Nat) (q : List Instr) :
    ({ s with now := n, pending := q } : State).resetHeld := by
  intro hp
  have hs := h hp
  rw [hs]
  rfl

theorem State.Inv.requeue (h : s.Inv) (q : List Instr) : (s.requeue q).Inv :=
  ⟨h.1, h.2.1, State.resetHeld_advance_requeue h.2.2 s.now q⟩

theorem State.Inv.advance (h : s.Inv) (t : Nat) : (s.advance t).Inv :=
  ⟨h.1.later (Nat.le_max_left _ _), h.2.1, State.resetHeld_advance_requeue h.2.2 (max s.now t) s.pending⟩

/-! ### Each shape keeps the invariant -/

/-- In reset a command moves the clock alone; out of reset the wrapper keeps the origin and notes the flags. -/
theorem State.Inv.command (h : s.Inv) {f : State → State} (hx : command t f s = .next x) : x.Inv := by
  obtain rfl := Host.Outcome.next.inj hx
  cases hp : s.porst with
  | true =>
    have hnoted : (s.advance t).noteFlags = s.advance t := State.noteFlags_id (h.advance t).2.1
    rw [if_pos rfl, hnoted]
    exact h.advance t
  | false =>
    rw [if_neg Bool.false_ne_true]
    exact ⟨h.1.later (Nat.le_max_left _ _), State.flagsOk_keep (State.noteFlags_flagsOk _) s _, State.resetHeld_of_high hp⟩

/-- A command at which the origin may move keeps the invariant where its origin and its wraps do. -/
theorem State.Inv.commandEpoch (h : s.Inv) {o : State → Nat × Nat} {f : State → State}
    (ho : ∀ u : State, u.epochOk → (o u).1 ≤ u.now ∧ (o u).2 ≤ (u.now - (o u).1) * 2000 / 2 ^ 64)
    (hx : commandEpoch t o f s = .next x) : x.Inv := by
  unfold Machine.commandEpoch at hx
  split at hx
  case isTrue => exact h.command hx
  case isFalse hp =>
    obtain rfl := Host.Outcome.next.inj hx
    exact ⟨ho (s.advance t) (h.advance t).1, State.flagsOk_keep (State.noteFlags_flagsOk _) s (max s.now t),
      State.resetHeld_of_high (Bool.eq_false_iff.2 hp)⟩

/-- In reset the loop is unlocked and in Winter, as the log notes it. -/
theorem State.inPorst_flagsOk (s : State) : s.inPorst.flagsOk := by
  have hflags : s.inPorst.tbFlags = State.reset.tbFlags := rfl
  have hlog : s.inPorst.flagLog = State.reset.flagLog := rfl
  rw [State.flagsOk, hflags, hlog]
  decide

theorem State.inPorst_inv (s : State) : s.inPorst.Inv :=
  ⟨⟨Nat.le_refl _, Nat.zero_le _⟩, s.inPorst_flagsOk, fun _ => rfl⟩

theorem State.Inv.porstAssert (h : s.Inv) : s.porstAssert.Inv := by
  unfold State.porstAssert
  split
  · exact h
  · exact s.inPorst_inv

/-- The release starts the count of coarse edges from a device that was in reset. -/
theorem State.Inv.porstRelease (h : s.Inv) (strap : Bool) : (s.porstRelease strap).Inv := by
  unfold State.porstRelease
  split
  case isTrue hp =>
    have hreset := h.2.2 hp
    have horigin : s.solEdge = 0 := by rw [hreset]; rfl
    have hwraps : s.wraps = 0 := by rw [hreset]; rfl
    exact ⟨⟨horigin.le, hwraps.le.trans (Nat.zero_le _)⟩, h.2.1, State.resetHeld_of_high rfl⟩
  case isFalse => exact h

theorem State.Inv.commandReset (h : s.Inv) {f : State → State} (hf : ∀ u : State, u.Inv → (f u).Inv)
    (hx : commandReset t f s = .next x) : x.Inv := by
  obtain rfl := Host.Outcome.next.inj hx
  exact (hf _ (h.advance t)).requeue _

theorem State.Inv.exec (h : s.Inv) {c : Instr} (hx : exec c s = .next x) : x.Inv := by
  obtain ⟨t, f, hc⟩ | ⟨t, hc⟩ | ⟨t, hc⟩ | ⟨t, hc⟩ | ⟨t, b, hc⟩ := exec_shape c <;> rw [hc s] at hx
  · exact h.command hx
  · exact h.commandEpoch (fun _ => State.solOrigin_ok) hx
  · exact h.commandEpoch (fun _ => State.wrapOrigin_ok) hx
  · exact h.commandReset (fun _ hu => hu.porstAssert) hx
  · exact h.commandReset (fun _ hu => hu.porstRelease b) hx

/-- Settles O4: a step runs one command on the rest of the queue, or lets one coarse edge pass. -/
theorem invKept : Obligations.InvKept := by
  intro s s' h hstep
  cases hq : s.pending with
  | nil =>
    rw [stepRunsFront.2 s hq] at hstep
    obtain rfl := Host.Outcome.next.inj hstep
    exact ⟨h.1.later (Nat.le_succ _), h.2.1, State.resetHeld_advance_requeue h.2.2 (s.now + 1) s.pending⟩
  | cons c r =>
    rw [stepRunsFront.1 s c r hq] at hstep
    exact (h.requeue r).exec hstep

/-- Settles O3: in reset the clock, the origin and the wraps are 0, and the log notes the flags of a loop without lock, in Winter. -/
theorem invAtReset : Obligations.InvAtReset := ⟨⟨Nat.le_refl _, Nat.zero_le _⟩, rfl, fun _ => rfl⟩

end Sys2Proof.Machine
end

section
/-! Proofs about host writes and reads of registers (18_host_control.md): black-box entries, the access types, split reads, and the
commands that are one write of a register. -/

namespace Sys2Proof.Machine

variable {s x : State} {t a off slot : Nat} {p : Path} {v : Word} {r : RegInfo} {q : PageInfo}

/-! ### Black-box entries (R375) -/

theorem State.bbrRoom_of_no_drops (h : s.bbr.drops = 0) : s.bbrRoom = s := by
  simp [State.bbrRoom, h]

theorem State.bbrRoom_of_full (h : 256 ≤ s.bbr.queue.length) : s.bbrRoom = s := by
  simp [State.bbrRoom, Nat.not_lt.2 h]

theorem State.bbrRoom_of_drops (hn : s.bbr.queue.length < 256) (h : 0 < s.bbr.drops) : s.bbrRoom =
    { s with bbr := { s.bbr with queue := s.bbr.queue ++ [s.bbrEntry 18 0xFFFF [s.bbr.drops]], drops := 0 } } := by
  simp [State.bbrRoom, hn, h]

/-- An entry that finds room after the DROPPED entry has gone before it. -/
theorem State.bbrPush_of_room (code sl : Nat) (data : List Nat) (h : s.bbrRoom.bbr.queue.length < 256) :
    s.bbrPush code sl data =
      { s.bbrRoom with bbr := { s.bbrRoom.bbr with queue := s.bbrRoom.bbr.queue ++ [s.bbrRoom.bbrEntry code sl data] } } :=
  if_neg (Nat.not_le.2 h)

theorem State.bbrPush_of_full (code sl : Nat) (data : List Nat) (h : 256 ≤ s.bbr.queue.length) :
    s.bbrPush code sl data =
      (({ s with bbr := { s.bbr with drops := s.bbr.drops + 1 } } : State).bump64 sBbr 0x070 1).evt sBbr 1 := by
  unfold State.bbrPush
  rw [State.bbrRoom_of_full h]
  exact if_pos h

theorem State.evt_bbr (s : State) (slot b : Nat) : (s.evt slot b).bbr = s.bbr := by
  rw [State.evt_eq]

/-- An event bit of a page touches no register above the page's `PAGE_EVT`. -/
theorem State.evt_reg64_of_ne (s : State) (slot b : Nat) {sl off : Nat} (h0 : ra slot 0x004 ≠ ra sl off)
    (h1 : ra slot 0x008 ≠ ra sl off) (h2 : ra slot 0x004 ≠ ra sl (off + 4)) (h3 : ra slot 0x008 ≠ ra sl (off + 4)) :
    (s.evt slot b).reg64 sl off = s.reg64 sl off := by
  rw [State.reg64, State.evt_reg_of_ne b h0 h1, State.evt_reg_of_ne b h2 h3, State.reg64]

/-- Settles O7, by the room that the queue has. -/
theorem blackBoxEntry : Obligations.BlackBoxEntry := by
  intro s code slot data
  refine ⟨fun hn hd => ?_, fun hn hd => ?_, fun hn => ?_⟩
  · have hroom := State.bbrRoom_of_no_drops hd
    rw [State.bbrPush_of_room _ _ _ (by rwa [hroom]), hroom]
    rfl
  · have hroom := State.bbrRoom_of_drops (hn.trans (by decide)) hd
    have hlen : s.bbrRoom.bbr.queue.length < 256 := by
      simp only [hroom, List.length_append, List.length_singleton]
      omega
    rw [State.bbrPush_of_room _ _ _ hlen, hroom]
    rfl
  · rw [State.bbrPush_of_full _ _ _ hn]
    refine ⟨State.evt_bbr _ _ _, ?_, State.evt_bit _ (by decide)⟩
    rw [State.evt_reg64_of_ne _ _ _ (by decide) (by decide) (by decide) (by decide), State.reg64_bump64]
    rfl

/-! ### A host write that reaches its register (R7, R338) -/

/-- The write of one aligned word that nothing holds on its way comes to what the register's page makes of it. -/
theorem command_hostWrite (hpow : s.Powered) (hreach : s.Reaches a) (halign : a % 4 = 0)
    (hx : (s.advance t).writeNow p a v = x) (hq : Quiet (s.advance t) x) :
    command t (fun s => s.hostWrite p a v true) s = .next x := by
  have hreach' : (s.advance t).Reaches a := hreach
  exact command_eq hpow ((hreach'.hostWrite hpow.1 halign p v).trans hx) hq

theorem ra_aligned (slot : Nat) (h : off % 4 = 0) : ra slot off % 4 = 0 := by
  unfold ra
  omega

theorem ra_div_mod (a : Nat) : ra (a / 0x400) (a % 0x400) = a := Nat.div_add_mod' a 0x400

theorem State.hostReg_served (h : s.served (a / 0x400) = true) : s.hostReg a = regAt a := if_pos h

theorem pageAt_of_regAt (h : regAt a = some r) : ∃ q, pageAt (a / 0x400) = some q := by
  unfold regAt at h
  split at h
  case h_1 q hq => exact ⟨q, hq⟩
  case h_2 => cases h

section Written
variable (hserved : s.served (a / 0x400) = true) (hreg : regAt a = some r) (hpage : pageAt (a / 0x400) = some q)
include hserved hreg hpage

theorem State.writeNow_rws (hty : r.ty = .rws) (p : Path) (v : Word) :
    s.writeNow p a v = { s with staged := Sparse.put s.staged a v } := by
  simp only [State.writeNow, State.hostReg_served hserved, hreg, hpage, hty]

theorem State.writeNow_ro (hty : r.ty = .ro) (ha : a ≠ ra sGlb 0x02C) (p : Path) (v : Word) : s.writeNow p a v = s := by
  simp only [State.writeNow, State.hostReg_served hserved, hreg, hpage, hty, if_neg ha]

theorem State.writeNow_rw (hty : r.ty = .rw) (p : Path) (v : Word) :
    s.writeNow p a v = s.rwWrite p q.kind (a / 0x400) (a / 0x400 - q.first) (a % 0x400) v r.mask := by
  simp only [State.writeNow, State.hostReg_served hserved, hreg, hpage, hty]

theorem State.writeNow_wo (hty : r.ty = .wo) (p : Path) (v : Word) :
    s.writeNow p a v = s.woWrite q.kind (a / 0x400 - q.first) (a % 0x400) v := by
  simp only [State.writeNow, State.hostReg_served hserved, hreg, hpage, hty]

theorem State.writeNow_ctrl (hty : r.ty = .ctrl) (p : Path) (v : Word) :
    s.writeNow p a v = s.ctrlWrite (a / 0x400) v := by
  simp only [State.writeNow, State.hostReg_served hserved, hreg, hpage, hty]

theorem State.writeNow_w1s (hty : r.ty = .w1s) (p : Path) (v : Word) : s.writeNow p a v = s.solCtrl v := by
  simp only [State.writeNow, State.hostReg_served hserved, hreg, hpage, hty]

end Written

/-- A read-write register of a page that gives its write no rule of its own, and `PAGE_EVT_EN` of every page. -/
theorem State.rwWrite_plain (s : State) (p : Path) {k : PageKind} (i : Nat) (v mask : Word)
    (h : off = 0x00C ∨ k ∉ [PageKind.glb, .dma, .meas, .bbr]) :
    s.rwWrite p k slot i off v mask = s.setReg (ra slot off) (v &&& mask) := by
  obtain rfl | hk := h
  · cases k <;> simp [State.rwWrite]
  · cases k
    case glb | dma | meas | bbr => simp at hk
    all_goals rfl

/-! ### Which registers a page's header holds -/

/-- The staged registers of a page lie beyond its header. -/
theorem not_header_of_rws (h : regAt a = some r) (hty : r.ty = .rws) : a % 0x400 ≠ 0x004 ∧ a % 0x400 ≠ 0x010 := by
  obtain ⟨q, hq⟩ := pageAt_of_regAt h
  simp only [regAt, hq] at h
  constructor <;> intro hoff <;> rw [hoff] at h <;> obtain rfl := Option.some.inj h <;> cases hty

/-- What a read of a staged register returns in either view (R342). -/
theorem State.peek_rws (hserved : s.served (a / 0x400) = true) (hreg : regAt a = some r) (hty : r.ty = .rws) (p : Path) :
    s.peek p a = if s.viewStaged p then s.stagedReg a else s.reg a := by
  obtain ⟨h4, h10⟩ := not_header_of_rws hreg hty
  simp only [State.peek, State.hostReg_served hserved, hreg, h4, h10, if_false, hty]

/-- The last value written that has not been applied, its reserved bits 0. -/
theorem State.stagedReg_put (hreg : regAt a = some r) (v : Word) :
    ({ s with staged := Sparse.put s.staged a v } : State).stagedReg a = v &&& r.mask := by
  simp [State.stagedReg, hreg, Sparse.find_put_same]

theorem Sparse.mem_put_same {α : Type} (m : List (Nat × α)) (k : Nat) (w : α) : (k, w) ∈ Sparse.put m k w := by
  unfold Sparse.put
  induction Sparse.del k m with
  | nil => exact List.mem_singleton.2 rfl
  | cons e r ih =>
    unfold Sparse.ins
    split
    · exact List.mem_cons_self
    · exact List.mem_cons_of_mem _ ih

theorem State.pagePending_put (s : State) (a : Nat) (v : Word) :
    ({ s with staged := Sparse.put s.staged a v } : State).pagePending (a / 0x400) = true := by
  have hany : (Sparse.put s.staged a v).any (fun e => decide (e.1 / 0x400 = a / 0x400)) = true :=
    List.any_eq_true.2 ⟨(a, v), Sparse.mem_put_same _ _ _, decide_eq_true rfl⟩
  simp only [State.pagePending, hany, Bool.true_or]

/-- Settles O9, by the register's access type. -/
theorem registerWrites : Obligations.RegisterWrites := by
  intro s t p a v r q hpow hreach halign hserved hreg hpage
  have hserved' : (s.advance t).served (a / 0x400) = true := hserved
  have hwrite {x : State} (hx : (s.advance t).writeNow p a v = x) (hq : Quiet (s.advance t) x) :
      exec (.registerWrite t p a true v) s = .next x :=
    (exec_registerWrite t p a true v s).trans (command_hostWrite hpow hreach halign hx hq)
  refine ⟨fun hty => ?_, fun hty ha => ?_, fun hty hk => ?_⟩
  · have hx := State.writeNow_rws hserved' hreg hpage hty p v
    have hq : Quiet (s.advance t) { s.advance t with staged := Sparse.put s.staged a v } := by constructor <;> rfl
    have hpeek := State.peek_rws (s := { s.advance t with staged := Sparse.put s.staged a v }) hserved hreg hty p
    refine ⟨hwrite hx hq, (exec_stagedWrite t p a v s).trans (command_hostWrite hpow hreach halign hx hq),
      State.pagePending_put (s.advance t) a v, fun hview => ?_, fun hview => ?_⟩
    · exact hpeek.trans (if_neg (Bool.eq_false_iff.1 hview))
    · exact (hpeek.trans (if_pos hview)).trans (State.stagedReg_put (s := s.advance t) hreg v)
  · exact hwrite (State.writeNow_ro hserved' hreg hpage hty ha p v) (Quiet.refl _)
  · have hx := State.writeNow_rw hserved' hreg hpage hty p v
    rw [State.rwWrite_plain _ _ _ _ _ hk, ra_div_mod] at hx
    exact hwrite hx (State.setReg_quiet _ _ _)

end Sys2Proof.Machine
end

section
/-! Proofs about the host's reads (18_host_control.md, "Split 64-bit reads"): a read on its way, the two halves of a pair and the
word of `PAGE_STAT`. -/

namespace Sys2Proof.Machine

variable {s x : State} {t a lo off slot : Nat} {p : Path} {v : Word} {r : RegInfo} {q : PageInfo}

/-! ### A read that reaches its register -/

/-- Accesses of one page are on the same terms. -/
theorem State.Reaches.samePage {b : Nat} (h : s.Reaches a) (hpage : b / 0x400 = a / 0x400) : s.Reaches b := by
  obtain ⟨hdev, hbar, hport⟩ := h
  exact ⟨hdev, hbar, State.portHolds_of_write s hport _ (congrArg some hpage)⟩

theorem State.readReply_eq {w : Word} {y : State} (h : s.readNow p a = (w, y)) : s.readReply p a = y.emit (.reply p w) := by
  unfold State.readReply
  rw [h]

/-- A read that nothing holds on its way answers with what its page returns. -/
theorem command_hostRead (hpow : s.Powered) (hreach : s.Reaches a) (halign : a % 4 = 0) {w : Word} {y : State}
    (hx : (s.advance t).readNow p a = (w, y)) (hq : Quiet (s.advance t) y) :
    command t (fun s => s.hostRead p a) s = .next (y.emit (.reply p w)) := by
  have hreach' : (s.advance t).Reaches a := hreach
  exact command_eq hpow ((hreach'.hostRead halign p).trans (State.readReply_eq hx)) (hq.trans (State.emit_side _ _).quiet)

/-! ### The pairs of a page (R348) -/

/-- A pair lies within its page beyond the header and the windows, both halves are registers, and no `_HI` is a `_LO`. -/
theorem pairLos_placed (k : PageKind) : ∀ o ∈ pairLos k, 0x014 ≤ o ∧ o + 4 < 0x400 ∧ o + 4 ∉ pairLos k ∧
    (blockReg k o).isSome = true ∧ (blockReg k (o + 4)).isSome = true ∧ (k = .meas → 0x0E0 ≤ o) ∧ (k = .bbr → 0x06C ≤ o) := by
  cases k <;> decide

theorem mem_pairLos_of_pairOf (h : pairOf lo = some (lo, true)) :
    ∃ q, pageAt (lo / 0x400) = some q ∧ lo % 0x400 ∈ pairLos q.kind := by
  unfold pairOf at h
  split at h
  case h_1 q hq =>
    refine ⟨q, hq, ?_⟩
    split at h
    case isTrue hmem => exact List.contains_iff_mem.1 hmem
    case isFalse => split at h <;> simp at h
  case h_2 => cases h

theorem pageReg_block (h : 0x014 ≤ off) (q : PageInfo) (slot : Nat) : pageReg q slot off = blockReg q.kind off := by
  have h0 : off ≠ 0x000 := by omega
  have h4 : off ≠ 0x004 := by omega
  have h8 : off ≠ 0x008 := by omega
  have hC : off ≠ 0x00C := by omega
  have h10 : off ≠ 0x010 := by omega
  simp only [pageReg, h0, h4, h8, hC, h10, if_false]

theorem pageAt_sMeas_kind (h : pageAt sMeas = some q) : q.kind = .meas := by
  obtain rfl := Option.some.inj h
  rfl

theorem pageAt_sBbr_kind (h : pageAt sBbr = some q) : q.kind = .bbr := by
  obtain rfl := Option.some.inj h
  rfl

/-- An address whose read neither returns `PAGE_STAT` nor looks into a window. -/
structure PlainRead (a : Nat) : Prop where
  isReg : (regAt a).isSome = true
  notStat : a % 0x400 ≠ 0x004
  notMeas : a / 0x400 = sMeas → 0x0E0 ≤ a % 0x400
  notBbr : a / 0x400 = sBbr → 0x06C ≤ a % 0x400

/-- Both halves of a pair are read plainly, and the high one is known as such. -/
theorem pair_plain (h : pairOf lo = some (lo, true)) :
    PlainRead lo ∧ PlainRead (lo + 4) ∧ (lo + 4) / 0x400 = lo / 0x400 ∧ pairOf (lo + 4) = some (lo, false) := by
  obtain ⟨q, hq, hmem⟩ := mem_pairLos_of_pairOf h
  obtain ⟨h14, htop, hnot, hlo, hhi, hmeas, hbbr⟩ := pairLos_placed q.kind _ hmem
  have hdiv : (lo + 4) / 0x400 = lo / 0x400 := by omega
  have hmod : (lo + 4) % 0x400 = lo % 0x400 + 4 := by omega
  have hkMeas : lo / 0x400 = sMeas → 0x0E0 ≤ lo % 0x400 := fun e => hmeas (pageAt_sMeas_kind (e ▸ hq))
  have hkBbr : lo / 0x400 = sBbr → 0x06C ≤ lo % 0x400 := fun e => hbbr (pageAt_sBbr_kind (e ▸ hq))
  refine ⟨⟨?_, by omega, hkMeas, hkBbr⟩, ⟨?_, by omega, fun e => ?_, fun e => ?_⟩, hdiv, ?_⟩
  · rw [regAt, hq]
    exact (congrArg Option.isSome (pageReg_block h14 q _)).trans hlo
  · rw [regAt, hdiv, hq, hmod]
    exact (congrArg Option.isSome (pageReg_block (by omega) q _)).trans hhi
  · have := hkMeas (hdiv ▸ e)
    omega
  · have := hkBbr (hdiv ▸ e)
    omega
  · simp [pairOf, hdiv, hmod, hq, hnot, hmem]

/-! ### What a read of either half comes to -/

/-- The state whose next free value is another one. -/
def State.ticked (s : State) : State := { s with freeCtr := s.freeCtr + 1 }

section Read
variable (ha : PlainRead a) (hserved : s.served (a / 0x400) = true)
include ha hserved

theorem State.readNow_lo (hpair : pairOf a = some (lo, true)) (p : Path) : s.readNow p a = s.ticked.readLo p lo := by
  obtain ⟨hreg, hstat, hmeas, hbbr⟩ := ha
  have hsome : (s.ticked.hostReg a).isNone = false := by
    rw [State.hostReg_served (s := s.ticked) hserved, ← Option.not_isSome, hreg]
    rfl
  unfold State.readNow
  rw [← State.ticked]
  simp only [hsome, Bool.false_eq_true, if_false, hstat, hpair]
  rw [if_neg (by omega), if_neg (by omega), if_neg (by omega)]

theorem State.readNow_hi (hpair : pairOf a = some (lo, false)) (p : Path) : s.readNow p a = s.ticked.readHi p lo := by
  obtain ⟨hreg, hstat, hmeas, hbbr⟩ := ha
  have hsome : (s.ticked.hostReg a).isNone = false := by
    rw [State.hostReg_served (s := s.ticked) hserved, ← Option.not_isSome, hreg]
    rfl
  unfold State.readNow
  rw [← State.ticked]
  simp only [hsome, Bool.false_eq_true, if_false, hstat, hpair]
  rw [if_neg (by omega), if_neg (by omega), if_neg (by omega)]

end Read

/-- A read of `PAGE_STAT` returns it and clears the page's latched condition. -/
theorem State.readNow_pageStat (hserved : s.served slot = true) (hpage : pageAt slot = some q) (p : Path) :
    s.readNow p (ra slot 0x004) =
      (s.ticked.pageStat slot, { s.ticked with splitFault := s.splitFault.filter (· ≠ slot) }) := by
  have hdiv := ra_div slot 0x004 (by decide)
  have hmod := ra_mod slot 0x004 (by decide)
  have hsome : (s.ticked.hostReg (ra slot 0x004)).isNone = false := by
    rw [State.hostReg_served (s := s.ticked) (by rw [hdiv]; exact hserved), regAt, hdiv, hmod, hpage]
    rfl
  unfold State.readNow
  rw [← State.ticked]
  simp only [hsome, Bool.false_eq_true, if_false, hdiv, hmod, if_true]
  rfl

/-- FAULT shows a condition that is latched. -/
theorem State.pageStat_fault (h : slot ∈ s.splitFault) : bit (s.pageStat slot) 10 = true := by
  simp [bit, State.pageStat, put_getLsbD, h, b2n]

/-- A read of the high half marks the snapshot used, and latches the page's condition when it was used already. -/
theorem State.readHi_spec (s : State) (p : Path) (lo : Nat) : ∃ faults,
    s.readHi p lo = (BitVec.ofNat 32 ((s.snap p lo).v / 2 ^ 32),
      { s with snaps := Sparse.set {} s.snaps (snapKey p lo) { s.snap p lo with fresh := false }, splitFault := faults }) ∧
    ((s.snap p lo).fresh = true → faults = s.splitFault) ∧ ((s.snap p lo).fresh = false → lo / 0x400 ∈ faults) := by
  cases hfresh : (s.snap p lo).fresh with
  | true => exact ⟨s.splitFault, by simp [State.readHi, hfresh], fun _ => rfl, (absurd · (by decide))⟩
  | false =>
    refine ⟨_, by simp only [State.readHi, hfresh, State.latchFault]; rfl, (absurd · Bool.false_ne_true), fun _ => ?_⟩
    split
    case isTrue hmem => exact List.contains_iff_mem.1 hmem
    case isFalse => exact List.mem_cons_self

/-- Settles O11: both halves of the pair and `PAGE_STAT` are registers of the one page that is reached. -/
theorem splitReads : Obligations.SplitReads := by
  intro s t p lo hpow hreach halign hpair hserved
  obtain ⟨hplain, hplainHi, hdiv, hpairHi⟩ := pair_plain hpair
  have hserved' : (s.advance t).served (lo / 0x400) = true := hserved
  refine ⟨?_, ?_, fun slot hslot => ⟨?_, fun hmem => ?_⟩⟩
  · exact (exec_splitReadLo t p lo s).trans (command_hostRead hpow hreach halign
      (State.readNow_lo hplain hserved' hpair p) (by constructor <;> rfl))
  · obtain ⟨faults, hhi, hfresh, hused⟩ := State.readHi_spec (s.advance t).ticked p lo
    have hread := (State.readNow_hi hplainHi (hdiv ▸ hserved') hpairHi p).trans hhi
    exact ⟨_, (exec_splitReadHi t p (lo + 4) s).trans (command_hostRead hpow (hreach.samePage hdiv) (by omega) hread
      (by constructor <;> rfl)), rfl, rfl, hfresh, hused, rfl⟩
  · obtain ⟨q, hq, -⟩ := mem_pairLos_of_pairOf hpair
    have hstat : ra slot 0x004 / 0x400 = lo / 0x400 := (ra_div _ _ (by decide)).trans hslot
    exact (exec_pageStatRead t p slot s).trans (command_hostRead hpow (hreach.samePage hstat) (ra_aligned _ (by decide))
      (State.readNow_pageStat (s := s.advance t) (hslot ▸ hserved) (hslot ▸ hq) p) (by constructor <;> rfl))
  · exact State.pageStat_fault hmem

end Sys2Proof.Machine
end

section
/-! Proofs about ordering on the host port and about STOP (18_host_control.md, "Ordering" and "STOP"): the barrier, the sources of
STOP, STOP in force, and the management SPI. -/

namespace Sys2Proof.Machine

variable {s x : State} {t a off slot : Nat} {p : Path} {v : Word} {r : RegInfo} {q : PageInfo}

/-! ### GLB is always served (R369) -/

theorem State.served_sGlb (h : s.dev ≠ .booting) : s.served sGlb = true := by
  simp [State.served, h]

/-! ### The barrier (R347) -/

theorem State.hostWrite_behind (hdev : s.dev ≠ .booting) (hporst : s.porst = false) (hbar : s.barrierOn = true)
    (halign : a % 4 = 0) (p : Path) (v : Word) :
    s.hostWrite p a v true = { s with behind := s.behind ++ [.write p a v] } := by
  simp [State.hostWrite, hdev, hporst, hbar, halign]

theorem State.tableWrite_behind (hdev : s.dev ≠ .booting) (hporst : s.porst = false) (hbar : s.barrierOn = true)
    (halign : off % 4 = 0) (vs : List Word) :
    s.tableWrite off vs = { s with behind := s.behind ++ [.table off vs] } := by
  simp [State.tableWrite, hdev, hporst, hbar, halign]

theorem State.hostTail_behind (hdev : s.dev ≠ .booting) (hporst : s.porst = false) (hbar : s.barrierOn = true) (ch : Nat)
    (v : Word) : s.hostTail ch v = { s with behind := s.behind ++ [.tail ch v] } := by
  simp [State.hostTail, hdev, hporst, hbar]

/-- A read of `GLB.BARRIER`, or of a page to which a write waits, waits for the barrier in progress. -/
theorem State.hostRead_behind (hdev : s.dev ≠ .booting) (halign : a % 4 = 0)
    (hwaits : (s.barrierOn = true ∧ a = ra sGlb 0x02C) ∨ s.readWaits (a / 0x400) = true) (p : Path) :
    s.hostRead p a = { s with behind := s.behind ++ [.read p a] } := by
  rw [State.hostRead, if_neg hdev, if_neg (not_not.2 halign), State.readArrive, if_pos hwaits]

/-- A command that only adds to what waits behind the barrier. -/
theorem command_behind (hpow : s.Powered) {f : State → State} {l : List HostAcc}
    (hx : f (s.advance t) = { s.advance t with behind := s.behind ++ l }) :
    command t f s = .next { s.advance t with behind := s.behind ++ l } :=
  command_eq hpow hx (by constructor <;> rfl)

theorem State.writeNow_barrier (hserved : s.served sGlb = true) (p : Path) (v : Word) :
    s.writeNow p (ra sGlb 0x02C) v = { s with barrierOn := true } := by
  have hreg : s.hostReg (ra sGlb 0x02C) = some ⟨.ro, 0, 0xFFFF_FFFF⟩ := by
    rw [State.hostReg_served hserved]
    rfl
  simp only [State.writeNow, hreg]
  rfl

/-- A read of `GLB.BARRIER` returns the count of barriers completed. -/
theorem State.readNow_barrier (hserved : s.served sGlb = true) (p : Path) :
    s.readNow p (ra sGlb 0x02C) = (BitVec.ofNat 32 s.barriers, s.ticked) := by
  have hreg : s.ticked.hostReg (ra sGlb 0x02C) = some ⟨.ro, 0, 0xFFFF_FFFF⟩ := by
    rw [State.hostReg_served (s := s.ticked) (a := ra sGlb 0x02C) hserved]
    rfl
  have hpair : pairOf (ra sGlb 0x02C) = none := by decide
  have hpeek : s.ticked.peek p (ra sGlb 0x02C) = BitVec.ofNat 32 s.barriers := by
    simp only [State.peek, hreg]
    rfl
  unfold State.readNow
  rw [← State.ticked]
  simp only [hreg, Option.isNone_some, Bool.false_eq_true, if_false, hpair, hpeek]
  rfl

/-- The barrier in progress ends once no page is in reset. -/
theorem State.barrierComplete_none (h : s.barrierOn = false ∨ s.resetting ≠ []) : s.barrierComplete = s := by
  rw [State.barrierComplete, if_neg]
  rcases h with h | h <;> simp [h]

/-- The barrier in progress is over, with the accesses that waited for it taken out. -/
def State.barrierOver (s : State) : State :=
  { s with barrierOn := false, barriers := (s.barriers + 1) % 2 ^ 32, behind := [] }

/-- What waited for the barrier follows it, up to the next barrier. -/
theorem State.barrierComplete_done (hbar : s.barrierOn = true) (hreset : s.resetting = []) : s.barrierComplete =
    s.barrierOver.each s.behind fun t x =>
      if t.barrierOn then { t with behind := t.behind ++ [x] } else t.accArrive x := by
  rw [State.barrierComplete, if_pos (by simp [hbar, hreset]), State.barrierOver]

theorem State.writeArrive_free (h : s.portHolds (.write p a v) = false) : s.writeArrive p a v = s.writeNow p a v :=
  if_neg (Bool.eq_false_iff.1 h)

/-- Nothing waits where no page is in reset and nothing is held. -/
theorem State.portHolds_idle (hreset : s.resetting = []) (hheld : s.held = []) (y : HostAcc) : s.portHolds y = false := by
  rw [State.portHolds_nil s hheld]
  cases y.slot <;> simp [State.inReset, hreset]

/-- Settles O16, by whether a barrier is in progress. -/
theorem barriers : Obligations.Barriers := by
  intro s t p hpow hdev hport
  have hserved : (s.advance t).served sGlb = true := State.served_sGlb (s := s.advance t) hdev
  refine ⟨fun hbar => ⟨?_, ?_, ?_⟩, fun hbar => ⟨fun a v ha => ?_, fun o vs ho => ?_, fun ch v => ?_, ?_, fun a ha hwait => ?_,
    fun hreset => ?_, fun hreset hnone => ?_, fun a v r hreset hheld hone hsv hreg hty => ?_⟩⟩
  · have hreach : s.Reaches (ra sGlb 0x02C) := ⟨hdev, hbar, State.portHolds_of_write s hport _ rfl⟩
    exact (exec_barrier t p s).trans (command_hostWrite hpow hreach (by decide) (State.writeNow_barrier hserved p 0)
      (by constructor <;> rfl))
  · have hreach : s.Reaches (ra sGlb 0x02C) := ⟨hdev, hbar, State.portHolds_of_write s hport _ rfl⟩
    exact (exec_barrierRead t p s).trans (command_hostRead hpow hreach (by decide) (State.readNow_barrier hserved p)
      (by constructor <;> rfl))
  · exact (exec_barrierComplete t s).trans
      (command_eq hpow (State.barrierComplete_none (s := s.advance t) (.inl hbar)) (Quiet.refl _))
  · exact (exec_registerWrite t p a true v s).trans
      (command_behind hpow (State.hostWrite_behind (s := s.advance t) hdev hpow.1 hbar ha p v))
  · exact (exec_tableWrite t o vs s).trans
      (command_behind hpow (State.tableWrite_behind (s := s.advance t) hdev hpow.1 hbar ho vs))
  · exact (exec_tailWrite t ch v s).trans
      (command_behind hpow (State.hostTail_behind (s := s.advance t) hdev hpow.1 hbar ch v))
  · exact (exec_barrierRead t p s).trans
      (command_behind hpow (State.hostRead_behind (s := s.advance t) hdev (by decide) (.inl ⟨hbar, rfl⟩) p))
  · have hx := State.hostRead_behind (s := s.advance t) hdev ha (.inr hwait) p
    exact ⟨(exec_splitReadLo t p a s).trans (command_behind hpow hx), (exec_splitReadHi t p a s).trans (command_behind hpow hx)⟩
  · exact (exec_barrierComplete t s).trans
      (command_eq hpow (State.barrierComplete_none (s := s.advance t) (.inr hreset)) (Quiet.refl _))
  · refine (exec_barrierComplete t s).trans (command_eq hpow ?_ (by constructor <;> rfl))
    rw [State.barrierComplete_done (s := s.advance t) hbar hreset, State.advance_behind, hnone]
    simp [State.each, State.barrierOver, hnone]
  · obtain ⟨q, hq⟩ := pageAt_of_regAt hreg
    refine (exec_barrierComplete t s).trans (command_eq hpow ?_ (by constructor <;> rfl))
    rw [State.barrierComplete_done (s := s.advance t) hbar hreset, State.advance_behind, hone]
    have hfree := State.portHolds_idle (s := (s.advance t).barrierOver) hreset hheld (.write p a v)
    exact (State.writeArrive_free hfree).trans (State.writeNow_rws (s := (s.advance t).barrierOver) hsv hreg hq hty p v)

/-! ### The sources of STOP (R357, R358, R360) -/

theorem State.setStopSrc_quiet (s : State) (n : Nat) : Quiet s { s with stopSrc := n } := by constructor <;> rfl

theorem State.bbrPush_reg_glb (s : State) (code sl : Nat) (data : List Nat) :
    (s.bbrPush code sl data).reg (ra sGlb 0x008) = s.reg (ra sGlb 0x008) := by
  have hroom : s.bbrRoom.reg (ra sGlb 0x008) = s.reg (ra sGlb 0x008) := by
    unfold State.bbrRoom
    split <;> rfl
  unfold State.bbrPush
  dsimp only
  split
  · rw [State.evt_reg_of_ne 1 (by decide) (by decide)]
    simp only [State.bump64, State.setReg64, State.setReg_reg]
    rw [if_neg (by decide), if_neg (by decide)]
    exact hroom
  · exact hroom

theorem Side.stopSrc (h : Side s x) : x.stopSrc = s.stopSrc := by
  obtain ⟨_, _, _, _, _, rfl⟩ := h
  rfl

theorem Side.stopOn (h : Side s x) : x.stopOn = s.stopOn := by
  obtain ⟨_, _, _, _, _, rfl⟩ := h
  rfl

/-- The event that a change of the sources sets: STOP_OFF where the last one goes, STOP_ON where one is added. -/
def State.stopNoted (s : State) (new : Nat) : State :=
  if new = 0 then ({ s with stopSrc := new } : State).evt sGlb 5
  else if s.stopSrc < new then ({ s with stopSrc := new } : State).evt sGlb 4 else { s with stopSrc := new }

theorem State.stopNoted_side (s : State) (new : Nat) : Side { s with stopSrc := new } (s.stopNoted new) := by
  unfold State.stopNoted
  split
  · exact State.evt_side _ _ _
  · split
    · exact State.evt_side _ _ _
    · exact Side.refl _

theorem State.stopChange_same (s : State) : s.stopChange s.stopSrc = s := if_pos rfl

theorem State.stopChange_ne {new : Nat} (h : new ≠ s.stopSrc) :
    s.stopChange new = (s.stopNoted new).bbrPush 17 sGlb [s.stopSrc, new] := if_neg h

/-- All that a change of the sources can touch. -/
theorem State.stopChange_side (s : State) (new : Nat) : Side { s with stopSrc := new } (s.stopChange new) := by
  by_cases h : new = s.stopSrc
  · subst h
    rw [State.stopChange_same]
    exact Side.refl s
  · rw [State.stopChange_ne h]
    exact (State.stopNoted_side s new).trans (State.bbrPush_side _ _ _ _)

theorem State.stopChange_src (s : State) (new : Nat) : (s.stopChange new).stopSrc = new := (s.stopChange_side new).stopSrc

theorem State.stopChange_side_src (s : State) (new : Nat) :
    Side { s with stopSrc := (s.stopChange new).stopSrc } (s.stopChange new) := by
  rw [State.stopChange_src]
  exact s.stopChange_side new

/-- A source that is added shows as STOP_ON. -/
theorem State.stopChange_on {new : Nat} (h : s.stopSrc < new) : bit ((s.stopChange new).reg (ra sGlb 0x008)) 4 = true := by
  rw [State.stopChange_ne h.ne', State.bbrPush_reg_glb, State.stopNoted, if_neg (by omega), if_pos h]
  exact State.evt_bit _ (by decide)

/-- The last source that goes shows as STOP_OFF. -/
theorem State.stopChange_off (h : s.stopSrc ≠ 0) : bit ((s.stopChange 0).reg (ra sGlb 0x008)) 5 = true := by
  rw [State.stopChange_ne h.symm, State.bbrPush_reg_glb, State.stopNoted, if_pos rfl]
  exact State.evt_bit _ (by decide)

/-- A command that changes the sources of STOP. -/
theorem command_stopChange (hpow : s.Powered) {f : State → State} {new : Nat} (hx : f (s.advance t) = (s.advance t).stopChange new) :
    command t f s = .next ((s.advance t).stopChange new) :=
  command_eq hpow hx ((State.setStopSrc_quiet _ _).trans (State.stopChange_side _ _).quiet)

theorem command_evt (hpow : s.Powered) {f : State → State} {slot b : Nat} (hx : f (s.advance t) = (s.advance t).evt slot b) :
    command t f s = .next ((s.advance t).evt slot b) :=
  command_eq hpow hx (State.evt_quiet _ _ _)

section Source
variable {c : Instr} {f : State → State} (hpow : s.Powered) (hc : exec c s = command t f s)
include hpow hc

/-- A command that makes a source hold STOP. -/
theorem answers_stopHold (src : Nat) (hx : f (s.advance t) = (s.advance t).stopHold src) :
    Answers c s fun s' => s'.stopSrc = s.stopSrc ||| src ∧ s'.stopOn = s.stopOn ∧
      Side { s.advance t with stopSrc := s'.stopSrc } s' ∧
      (s.stopSrc ||| src ≠ s.stopSrc → bit (s'.reg (ra sGlb 0x008)) 4 = true) := by
  have hside := State.stopChange_side_src (s.advance t) (s.stopSrc ||| src)
  have hsrc := State.stopChange_src (s.advance t) (s.stopSrc ||| src)
  refine ⟨_, hc.trans (command_stopChange hpow hx), hsrc, hside.stopOn, hside, fun hne => ?_⟩
  exact State.stopChange_on (s := s.advance t) (lt_of_le_of_ne Nat.left_le_or hne.symm)

/-- A command that makes a source let STOP go. -/
theorem answers_stopDrop (src : Nat) (hx : f (s.advance t) = (s.advance t).stopDrop src) :
    Answers c s fun s' => s'.stopSrc = s.stopSrc &&& (7 ^^^ src) ∧ s'.stopOn = s.stopOn ∧
      Side { s.advance t with stopSrc := s'.stopSrc } s' ∧
      (s.stopSrc ≠ 0 → s'.stopSrc = 0 → bit (s'.reg (ra sGlb 0x008)) 5 = true) := by
  have hside := State.stopChange_side_src (s.advance t) (s.stopSrc &&& (7 ^^^ src))
  have hsrc := State.stopChange_src (s.advance t) (s.stopSrc &&& (7 ^^^ src))
  refine ⟨_, hc.trans (command_stopChange hpow hx), hsrc, hside.stopOn, hside, fun hne hzero => ?_⟩
  have hnew : s.stopSrc &&& (7 ^^^ src) = 0 := hsrc.symm.trans hzero
  exact hnew ▸ State.stopChange_off (s := s.advance t) hne

end Source

theorem State.doorbell_booting (h : s.dev = .booting) (key : Nat) (hold : Bool) (v : Word) : s.doorbell key hold v = s := if_pos h

theorem State.doorbell_wrong (h : s.dev ≠ .booting) {key : Nat} (hv : v.toNat ≠ key) (hold : Bool) :
    s.doorbell key hold v = s.evt sGlb 7 := (if_neg h).trans (if_pos hv)

theorem State.doorbell_right (h : s.dev ≠ .booting) (hold : Bool) (v : Word) :
    s.doorbell v.toNat hold v = if hold then s.stopHold stopBell else s.stopDrop stopBell :=
  (if_neg h).trans (if_neg (not_not.2 rfl))

theorem State.spiKey_wrong {key : Nat} {k : BitVec 16} {whole : Bool} (h : k.toNat ≠ key ∨ whole = false) (hold : Bool) :
    s.spiKey key hold k whole = s.evt sGlb 8 := by
  refine if_pos ?_
  rcases h with h | h <;> simp [h]

theorem toNat_ne_of_ne {n : Nat} {k m : BitVec n} (h : k ≠ m) : k.toNat ≠ m.toNat := fun e => h (BitVec.eq_of_toNat_eq e)

/-- Settles O17: each source sets and clears its own latch, and a wrong value only an event bit. -/
theorem stopSources : Obligations.StopSources := by
  intro s t hpow _
  refine ⟨fun hdev => ⟨?_, ?_, fun v hv => ?_, fun v hv => ?_⟩, fun hdev v => ?_, ?_, ?_, ?_, ?_, fun k w h => ?_, fun k w h => ?_⟩
  · exact answers_stopHold hpow (exec_stopDoorbell t _ s) 1 (State.doorbell_right (s := s.advance t) hdev true 0x5354_4F50)
  · exact answers_stopDrop hpow (exec_releaseDoorbell t _ s) 1 (State.doorbell_right (s := s.advance t) hdev false 0x524C_5345)
  · exact (exec_stopDoorbell t v s).trans
      (command_evt hpow (State.doorbell_wrong (s := s.advance t) hdev (toNat_ne_of_ne hv) true))
  · exact (exec_releaseDoorbell t v s).trans
      (command_evt hpow (State.doorbell_wrong (s := s.advance t) hdev (toNat_ne_of_ne hv) false))
  · exact (exec_stopDoorbell t v s).trans
      (command_eq hpow (State.doorbell_booting (s := s.advance t) hdev _ _ v) (Quiet.refl _))
  · exact answers_stopHold hpow (exec_stopNAssert t s) 2 rfl
  · exact answers_stopDrop hpow (exec_stopNRelease t s) 2 rfl
  · exact answers_stopHold hpow (exec_spiStop t _ _ s) 4 rfl
  · exact answers_stopDrop hpow (exec_spiRelease t _ _ s) 4 rfl
  · exact (exec_spiStop t k w s).trans (command_evt hpow (State.spiKey_wrong (h.imp_left toNat_ne_of_ne) true))
  · exact (exec_spiRelease t k w s).trans (command_evt hpow (State.spiKey_wrong (h.imp_left toNat_ne_of_ne) false))

end Sys2Proof.Machine
end

section
/-! Proofs about STOP in force (R357) and the management SPI (R360): what a read can change, and what its bytes are. -/

namespace Sys2Proof.Machine

variable {s x y : State} {t a off slot : Nat} {p : Path} {v : Word} {r : RegInfo} {q : PageInfo}

/-! ### Operations for each element of a list -/

@[simp] theorem State.each_nil {α : Type} (s : State) (f : State → α → State) : s.each [] f = s := rfl

@[simp] theorem State.each_cons {α : Type} (s : State) (e : α) (l : List α) (f : State → α → State) :
    s.each (e :: l) f = (f s e).each l f := rfl

/-- A property that every element's operation keeps. -/
theorem State.each_induct {α : Type} {P : State → Prop} {f : State → α → State} {l : List α}
    (hf : ∀ u : State, ∀ e ∈ l, P u → P (f u e)) (h : P s) : P (s.each l f) := by
  induction l generalizing s with
  | nil => exact h
  | cons e l ih =>
    exact ih (fun u d hd hu => hf u d (List.mem_cons_of_mem _ hd) hu) (hf s e List.mem_cons_self h)

/-- Operations of which none changes this state. -/
theorem State.each_id {α : Type} {f : State → α → State} {l : List α} (hf : ∀ e ∈ l, f s e = s) : s.each l f = s :=
  State.each_induct (P := (· = s)) (fun u e he (hu : u = s) => by rw [hu]; exact hf e he) rfl

/-! ### Device states -/

theorem State.setDev_quiet (s : State) (d : DevSt) : Quiet s { s with dev := d } := by constructor <;> rfl

theorem State.enter_same {d : DevSt} (h : s.dev = d) : s.enter d = s := if_pos h

theorem State.enter_ne {d : DevSt} (h : s.dev ≠ d) : s.enter d = ({ s with dev := d } : State).evt sGlb 3 := if_neg h

/-- Entering a state touches the state and what the event bit does. -/
theorem State.enter_side (s : State) (d : DevSt) : Side { s with dev := d } (s.enter d) := by
  by_cases h : s.dev = d
  · subst h
    rw [State.enter_same rfl]
    exact Side.refl s
  · rw [State.enter_ne h]
    exact State.evt_side _ _ _

theorem State.enter_quiet (s : State) (d : DevSt) : Quiet s (s.enter d) :=
  (s.setDev_quiet d).trans (s.enter_side d).quiet

theorem State.enter_dev (s : State) (d : DevSt) : (s.enter d).dev = d := by
  obtain ⟨_, _, _, _, _, h⟩ := s.enter_side d
  rw [h]

theorem State.Settled.of_eq (h : s.Settled) (hcaps : x.caps = s.caps) (hctxs : x.ctxs = s.ctxs) : x.Settled := by
  obtain ⟨hfull, hst⟩ := h
  have hctx : x.ctx = s.ctx := by
    funext c
    rw [State.ctx, State.ctx, hctxs]
  exact ⟨hcaps ▸ hfull, hctx ▸ hst⟩

theorem State.Settled.enter (h : s.Settled) (d : DevSt) : (s.enter d).Settled := by
  obtain ⟨_, _, _, _, _, he⟩ := s.enter_side d
  exact h.of_eq (by rw [he]) (by rw [he])

/-! ### STOP in force -/

/-- STOP comes into force over nothing that heeds it. -/
theorem State.stopApply_quiet_block (hsrc : s.stopSrc ≠ 0) (hoff : s.stopOn = false) (hdev : s.dev ≠ .booting) (hset : s.Settled)
    (hctx : ∀ c ∈ s.runningCtxs, s.stopEn c = false) (hto : ∀ n, n < 32 → s.rbit (sTout n) 0x014 11 = false)
    (hck : ∀ n, n < 16 → s.rbit (sCko n) 0x014 9 = false) : s.stopApply =
      if s.dev = .running then ({ s with stopOn := true, admStop := s.adm.isSome } : State).enter .stopped
      else { s with stopOn := true, admStop := s.adm.isSome } := by
  have hcond : s.stopSrc ≠ 0 ∧ (!s.stopOn) = true ∧ s.dev ≠ .booting := ⟨hsrc, by rw [hoff]; rfl, hdev⟩
  unfold State.stopApply
  rw [if_pos hcond]
  dsimp only
  generalize hu : ({ s with stopOn := true, admStop := s.adm.isSome } : State) = u
  have hset' : u.Settled := hu ▸ hset
  have houts : u.each (List.range 32) State.toutStopOn = u := State.each_id fun n hn =>
    if_neg (Bool.eq_false_iff.1 (hu ▸ hto n (List.mem_range.1 hn)))
  have hstops : u.runningCtxs.filter u.stopEn = [] :=
    List.filter_eq_nil_iff.2 fun c hc => Bool.eq_false_iff.1 (hu ▸ hctx c (by rw [← hu] at hc; exact hc))
  have hgates : (List.range 16).filter (fun n => u.rbit (sCko n) 0x014 9) = [] :=
    List.filter_eq_nil_iff.2 fun n hn => Bool.eq_false_iff.1 (hu ▸ hck n (List.mem_range.1 hn))
  have hdev' : u.dev = s.dev := hu ▸ rfl
  rw [houts, hstops, State.each_nil, hgates, State.each_nil, hdev']
  split
  · exact State.settle_id (hset'.enter _)
  · exact State.settle_id hset'

theorem State.stopApply_none (h : s.stopSrc = 0 ∨ s.dev = .booting) : s.stopApply = s := by
  refine if_neg fun ⟨hsrc, _, hdev⟩ => ?_
  exact h.elim hsrc hdev

theorem State.stopLift_none (h : s.stopSrc ≠ 0) : s.stopLift = s := if_neg fun hc => h hc.2

theorem State.bootStart_none (h : s.boot.starts = []) : s.bootStart = s := by
  simp only [State.bootStart, h]

/-- STOP lifts where it gated nothing and no channel holds a message. -/
theorem State.stopLift_quiet_block (hsrc : s.stopSrc = 0) (hon : s.stopOn = true) (hto : ∀ n, n < 32 → (s.tout n).gatedStop = false)
    (hck : ∀ n, n < 16 → (s.cko n).gatedStop = false) (hdma : ∀ e ∈ s.dma, e.2.irqHeld = false) (hstarts : s.boot.starts = []) :
    s.stopLift = if s.dev = .stopped then ({ s with stopOn := false } : State).enter .running else { s with stopOn := false } := by
  unfold State.stopLift
  rw [if_pos ⟨hon, hsrc⟩]
  dsimp only
  generalize hu : ({ s with stopOn := false } : State) = u
  have houts : u.each (List.range 32) State.toutStopOff = u := State.each_id fun n hn =>
    if_neg (Bool.eq_false_iff.1 (hu ▸ hto n (List.mem_range.1 hn)))
  have hgates : (List.range 16).filter (fun n => (u.cko n).gatedStop) = [] :=
    List.filter_eq_nil_iff.2 fun n hn => Bool.eq_false_iff.1 (hu ▸ hck n (List.mem_range.1 hn))
  have hheld : u.dma.filter (fun e => e.2.irqHeld) = [] :=
    List.filter_eq_nil_iff.2 fun e he => Bool.eq_false_iff.1 (hdma e (by rw [← hu] at he; exact he))
  have hdev : u.dev = s.dev := hu ▸ rfl
  rw [houts, hgates, State.each_nil, hdev]
  split
  · obtain ⟨_, _, _, _, _, he⟩ := u.enter_side .running
    have hboot : (u.enter .running).boot.starts = [] := by
      rw [he]
      exact hu ▸ hstarts
    have hheld' : (u.enter .running).dma.filter (fun e => e.2.irqHeld) = [] := by
      rw [he]
      exact hheld
    rw [State.bootStart_none hboot, hheld']
    rfl
  · rw [hheld]
    rfl

/-- Settles O18: nothing heeds STOP, so that only its flag and the device state move. -/
theorem stopInForce : Obligations.StopInForce := by
  intro s t hpow hset
  refine ⟨fun hsrc hoff hdev hctx hto hck => ?_, fun h => ?_, fun hsrc hon hto hck hdma hstarts => ?_, fun h => ?_⟩
  · refine (exec_stopOn t s).trans
      (command_eq hpow (State.stopApply_quiet_block (s := s.advance t) hsrc hoff hdev hset hctx hto hck) ?_)
    have hq : Quiet (s.advance t) { s.advance t with stopOn := true, admStop := s.adm.isSome } := by constructor <;> rfl
    split
    · exact hq.trans (State.enter_quiet _ _)
    · exact hq
  · exact (exec_stopOn t s).trans (command_eq hpow (State.stopApply_none (s := s.advance t) h) (Quiet.refl _))
  · refine (exec_stopOff t s).trans
      (command_eq hpow (State.stopLift_quiet_block (s := s.advance t) hsrc hon hto hck hdma hstarts) ?_)
    have hq : Quiet (s.advance t) { s.advance t with stopOn := false } := by constructor <;> rfl
    split
    · exact hq.trans (State.enter_quiet _ _)
    · exact hq
  · exact (exec_stopOff t s).trans (command_eq hpow (State.stopLift_none (s := s.advance t) h) (Quiet.refl _))

/-! ### What a read can change -/

/-- A state differs from another at most in what reads touch: the count of open values, the windows and the snapshots. -/
def ReadSide (s x : State) : Prop :=
  ∃ c f m b n, x = { s with freeCtr := c, splitFault := f, measWins := m, bbr := b, snaps := n }

theorem ReadSide.refl (s : State) : ReadSide s s := ⟨_, _, _, _, _, rfl⟩

theorem ReadSide.trans (h : ReadSide s x) (k : ReadSide x y) : ReadSide s y := by
  obtain ⟨_, _, _, _, _, rfl⟩ := h
  obtain ⟨_, _, _, _, _, rfl⟩ := k
  exact ⟨_, _, _, _, _, rfl⟩

theorem ReadSide.quiet (h : ReadSide s x) : Quiet s x := by
  obtain ⟨_, _, _, _, _, rfl⟩ := h
  constructor <;> rfl

theorem ReadSide.out (h : ReadSide s x) : x.out = s.out := by
  obtain ⟨_, _, _, _, _, rfl⟩ := h
  rfl

theorem State.latchFault_readSide (s : State) (slot : Nat) : ReadSide s (s.latchFault slot) := ⟨_, _, _, _, _, rfl⟩

theorem State.readSlot_readSide (s : State) (k : Nat) : ReadSide s (s.readSlot k).2 := by
  unfold State.readSlot
  split
  · exact ReadSide.refl s
  · dsimp only
    split <;> exact ⟨_, _, _, _, _, rfl⟩

theorem State.judgeSlot_readSide (s : State) (k : Nat) : ReadSide s (s.judgeSlot k).2.2 :=
  (s.readSlot_readSide k).trans (State.readSlot_readSide _ k)

theorem State.bbrTake_readSide (s : State) (p : Path) : ReadSide s (s.bbrTake p) :=
  (s.judgeSlot_readSide _).trans ⟨_, _, _, _, _, rfl⟩

theorem State.winRead_readSide (s : State) (w : Window) (k slot : Nat) : ReadSide s (s.winRead w k slot).2 := by
  unfold State.winRead
  dsimp only
  split
  · exact s.latchFault_readSide slot
  · exact ReadSide.refl s

theorem State.measWindow_readSide (s : State) (p : Path) (stat : Bool) (k : Nat) : ReadSide s (s.measWindow p stat k).2 := by
  unfold State.measWindow
  split
  · exact ⟨_, _, _, _, _, rfl⟩
  · exact s.winRead_readSide _ _ _

theorem State.bbrWindow_readSide (s : State) (p : Path) (k : Nat) : ReadSide s (s.bbrWindow p k).2 := by
  unfold State.bbrWindow
  split
  · exact s.bbrTake_readSide p
  · exact s.winRead_readSide _ _ _

theorem State.readHi_readSide (s : State) (p : Path) (lo : Nat) : ReadSide s (s.readHi p lo).2 := by
  obtain ⟨faults, h, -⟩ := s.readHi_spec p lo
  rw [h]
  exact ⟨_, _, _, _, _, rfl⟩

/-- A read that its page serves changes at most what reads touch. -/
theorem State.readNow_readSide (s : State) (p : Path) (a : Nat) : ReadSide s (s.readNow p a).2 := by
  have hticked : ReadSide s s.ticked := ⟨_, _, _, _, _, rfl⟩
  unfold State.readNow
  rw [← State.ticked]
  dsimp only
  split
  · exact hticked
  split
  · exact ⟨_, _, _, _, _, rfl⟩
  split
  · exact hticked.trans (State.measWindow_readSide _ _ _ _)
  split
  · exact hticked.trans (State.measWindow_readSide _ _ _ _)
  split
  · exact hticked.trans (State.bbrWindow_readSide _ _ _)
  split
  · exact ⟨_, _, _, _, _, rfl⟩
  · exact hticked.trans (State.readHi_readSide _ _ _)
  · exact hticked

/-! ### The management SPI (R360) -/

/-- The four data bytes of a READ, most significant first. -/
theorem w32_reverse (v : Word) :
    (w32 v.toNat).reverse = [v.extractLsb' 24 8, v.extractLsb' 16 8, v.extractLsb' 8 8, v.extractLsb' 0 8] := by
  have hbyte (k : Nat) : BitVec.ofNat 8 (v.toNat / 2 ^ k) = v.extractLsb' k 8 := by
    rw [BitVec.extractLsb', Nat.shiftRight_eq_div_pow]
  have h24 : v.toNat / 256 / 256 / 256 = v.toNat / 2 ^ 24 := by omega
  have h16 : v.toNat / 256 / 256 = v.toNat / 2 ^ 16 := by omega
  have h8 : v.toNat / 256 = v.toNat / 2 ^ 8 := rfl
  have h0 : v.toNat = v.toNat / 2 ^ 0 := by omega
  rw [← hbyte, ← hbyte, ← hbyte, ← hbyte, ← h24, ← h16, ← h8, ← h0]
  rfl

theorem State.spiRead_short (hporst : s.porst = false) (a : Nat) (ready : Bool) : s.spiRead a false ready = s.evt sGlb 8 := by
  simp [State.spiRead, hporst]

/-- A read that is not ready in time returns 0xFF. -/
theorem State.spiRead_busy (hporst : s.porst = false) {ready : Bool}
    (h : ready = false ∨ s.dev = .booting ∨ s.portHolds (.read .spi a) = true ∨ s.readWaits (a / 0x400) = true ∨
      (s.barrierOn = true ∧ a = ra sGlb 0x02C)) : s.spiRead a true ready = s.emit (.spiBytes [0xFF]) := by
  have hready : (!ready) = true ∨ s.dev = .booting ∨ s.portHolds (.read .spi a) = true ∨ s.readWaits (a / 0x400) = true ∨
      (s.barrierOn = true ∧ a = ra sGlb 0x02C) := h.imp_left fun e => by rw [e]; rfl
  rw [State.spiRead, if_neg (Bool.eq_false_iff.1 hporst), Bool.not_true, if_neg Bool.false_ne_true, if_pos hready]

/-- A read that is ready returns the status byte 1 and the register's word. -/
theorem State.spiRead_ready (hporst : s.porst = false) (hdev : s.dev ≠ .booting) (hport : s.portHolds (.read .spi a) = false)
    (hwait : s.readWaits (a / 0x400) = false) (hbar : ¬(s.barrierOn = true ∧ a = ra sGlb 0x02C)) (halign : a % 4 = 0) :
    s.spiRead a true true =
      (s.readNow .spi a).2.emit (.spiBytes (1 :: (w32 (s.readNow .spi a).1.toNat).reverse)) := by
  have hready : ¬(false = true ∨ s.dev = .booting ∨ s.portHolds (.read .spi a) = true ∨ s.readWaits (a / 0x400) = true ∨
      (s.barrierOn = true ∧ a = ra sGlb 0x02C)) := by
    simp only [hdev, hport, hwait, hbar, Bool.false_eq_true, or_self, not_false_eq_true]
  rw [State.spiRead, if_neg (Bool.eq_false_iff.1 hporst), Bool.not_true, if_neg Bool.false_ne_true, if_neg hready,
    if_neg (not_not.2 halign)]

theorem command_emit (hpow : s.Powered) {f : State → State} {o : Output} (hx : f (s.advance t) = (s.advance t).emit o) :
    command t f s = .next ((s.advance t).emit o) :=
  command_eq hpow hx (State.emit_side _ _).quiet

/-- Settles O19: a short transaction sets SPI_BAD, and a whole one is answered or is the host's write. -/
theorem managementSpi : Obligations.ManagementSpi := by
  intro s t a v hpow
  have hporst : (s.advance t).porst = false := hpow.1
  refine ⟨?_, ?_, ?_, ?_, rfl, ?_, fun h => ?_, fun hdev hport hwait hbar halign => ?_⟩
  · exact (exec_spiStatus t true s).trans (command_emit hpow rfl)
  · exact (exec_spiStatus t false s).trans (command_evt hpow rfl)
  · exact (exec_spiRead t a false true s).trans (command_evt hpow (State.spiRead_short hporst _ _))
  · exact (exec_spiWrite t a v false s).trans (command_evt hpow rfl)
  · exact (exec_spiRead t a true false s).trans (command_emit hpow (State.spiRead_busy hporst (.inl rfl)))
  · exact (exec_spiRead t a true true s).trans (command_emit hpow (State.spiRead_busy (s := s.advance t) hporst (.inr h)))
  · have hside := State.readNow_readSide (s.advance t) .spi a.toNat
    refine ⟨_, (exec_spiRead t a true true s).trans (command_eq hpow
      (State.spiRead_ready (s := s.advance t) hporst hdev hport hwait hbar halign)
      (hside.quiet.trans (State.emit_side _ _).quiet)), ?_⟩
    rw [w32_reverse]
    exact congrArg _ hside.out

end Sys2Proof.Machine
end

section
/-! Proofs about the table aperture (18_host_control.md, "The endpoint"): a burst is its words in order, and what each word comes
to at its table (R339, R391). -/

namespace Sys2Proof.Machine

variable {s x : State} {t off : Nat} {v : Word} {i : TabInfo}

/-! ### Sparse maps -/

theorem Sparse.get_eq_find {α : Type} (d : α) (m : List (Nat × α)) (k : Nat) : Sparse.get d m k = (Sparse.find m k).getD d := by
  induction m with
  | nil => rfl
  | cons e r ih =>
    unfold Sparse.get Sparse.find
    split
    · rfl
    · exact ih

theorem Sparse.get_put_same {α : Type} (d : α) (m : List (Nat × α)) (k : Nat) (w : α) : Sparse.get d (Sparse.put m k w) k = w := by
  rw [Sparse.get_eq_find, Sparse.find_put_same]
  rfl

theorem Sparse.get_put_ne {α : Type} (d : α) (m : List (Nat × α)) {k j : Nat} (w : α) (h : k ≠ j) :
    Sparse.get d (Sparse.put m k w) j = Sparse.get d m j := by
  rw [Sparse.get_eq_find, Sparse.find_put_ne m w h, ← Sparse.get_eq_find]

/-! ### A burst -/

/-- One word of a burst at its place. -/
def State.tableWord (s : State) (off : Nat) (v : Word) : State :=
  if msixBase ≤ off then s.msixPut (off - msixBase) v else s.tabPut off v

theorem State.tableNow_one (s : State) (off : Nat) (v : Word) : s.tableNow off [v] = s.tableWord off v := rfl

/-- A burst is its words in ascending address. -/
theorem State.tableNow_cons (s : State) (off : Nat) (v : Word) (vs : List Word) :
    s.tableNow off (v :: vs) = (s.tableNow off [v]).tableNow (off + 4) vs := by
  have hshift : vs.zipIdx 1 = vs.zipIdx.map (fun e => (e.1, e.2 + 1)) := List.zipIdx_succ
  rw [State.tableNow_one]
  unfold State.tableNow State.each
  rw [List.zipIdx_cons, List.foldl_cons, hshift, List.foldl_map]
  refine congrArg₂ (fun f (u : State) => List.foldl f u vs.zipIdx) ?_ rfl
  funext u e
  have hoff : off + 4 * (e.2 + 1) = off + 4 + 4 * e.2 := by omega
  dsimp only
  rw [hoff]

/-! ### What a word comes to -/

theorem State.tabPut_none (h : tabAt off = none) (s : State) (v : Word) : s.tabPut off v = s := by
  simp only [State.tabPut, h]

section Put
variable (hat : tabAt off = some i) (hrec : s.boot.recovery = false)
include hat hrec

/-- A word that the host may not write takes nothing. -/
theorem State.tabPut_readOnly (hmask : tabMask off = 0) (h : i.tab = .ctx ∨ s.tabBusy i off 0 = none) : s.tabPut off v = s := by
  have hskip : tabMask off = 0 ∧ (i.tab = .ctx ∨ (s.tabBusy i off 0).isNone = true) :=
    ⟨hmask, h.imp_right Option.isNone_iff_eq_none.2⟩
  simp only [State.tabPut, hat, hrec, Bool.false_eq_true, false_and, if_false, hskip, and_self, if_true]

/-- A word of a running owner's entry sets the event of its page. -/
theorem State.tabPut_busy (h : tabMask off ≠ 0 ∨ i.tab ≠ .ctx) {slot b : Nat}
    (hbusy : s.tabBusy i off (v &&& tabMask off) = some (slot, b)) : s.tabPut off v = s.evt slot b := by
  have hgo : ¬(tabMask off = 0 ∧ (i.tab = .ctx ∨ (s.tabBusy i off 0).isNone = true)) := by
    rintro ⟨hmask, hctx | hnone⟩
    · exact h.elim (· hmask) (· hctx)
    · have hzero : v &&& (0 : Word) = 0 := BitVec.and_zero
      rw [hmask, hzero, Option.isNone_iff_eq_none.1 hnone] at hbusy
      cases hbusy
  simp only [State.tabPut, hat, hrec, Bool.false_eq_true, false_and, if_false, hgo, hbusy]

variable (hmask : tabMask off ≠ 0) (hfree : s.tabBusy i off (v &&& tabMask off) = none)
include hmask hfree

theorem State.tabPut_tile (h : i.tab = .tile) : s.tabPut off v = { s with stagedTab := Sparse.put s.stagedTab off v } := by
  simp only [State.tabPut, hat, hrec, Bool.false_eq_true, false_and, if_false, hmask, hfree, h]

theorem State.tabPut_plain (h : i.tab ∈ [Tab.ctx, .mirror, .svc, .rx, .delay, .beam, .route]) :
    s.tabPut off v = s.setTabw off (v &&& tabMask off) := by
  simp only [List.mem_cons, List.not_mem_nil, or_false] at h
  rcases h with h | h | h | h | h | h | h <;>
    simp only [State.tabPut, hat, hrec, Bool.false_eq_true, false_and, if_false, hmask, hfree, h]

theorem State.tabPut_kept (h : i.tab ∈ [Tab.meas, .rec', .cor, .slot, .blk, .hctx, .lad, .hdef]) :
    s.tabPut off v = (s.keepOld off).setTabw off (v &&& tabMask off) := by
  simp only [List.mem_cons, List.not_mem_nil, or_false] at h
  rcases h with h | h | h | h | h | h | h | h <;>
    simp only [State.tabPut, hat, hrec, Bool.false_eq_true, false_and, if_false, hmask, hfree, h]

end Put

/-! ### Words kept for stopped contexts (R132, R214, R221) -/

/-- A word kept for one context, unless one is kept already. -/
def keptWord (off : Nat) (w : Word) (m : List (Nat × List (Nat × Word))) (c : Nat) : List (Nat × List (Nat × Word)) :=
  if (Sparse.find (Sparse.get [] m c) off).isSome then m else Sparse.put m c (Sparse.put (Sparse.get [] m c) off w)

theorem find_keptWord_same (off : Nat) (w : Word) (m : List (Nat × List (Nat × Word))) (c : Nat) :
    Sparse.find (Sparse.get [] (keptWord off w m c) c) off = some ((Sparse.find (Sparse.get [] m c) off).getD w) := by
  unfold keptWord
  cases h : Sparse.find (Sparse.get [] m c) off with
  | some u => simp [h]
  | none => simp [Sparse.get_put_same, Sparse.find_put_same]

theorem get_keptWord_ne (off : Nat) (w : Word) (m : List (Nat × List (Nat × Word))) {c d : Nat} (h : c ≠ d) :
    Sparse.get [] (keptWord off w m c) d = Sparse.get [] m d := by
  unfold keptWord
  split
  · rfl
  · exact Sparse.get_put_ne _ _ _ h

/-- Every context of a list has the word as it stood, or as it was kept before. -/
theorem find_foldl_keptWord (off : Nat) (w : Word) (l : List Nat) (m : List (Nat × List (Nat × Word))) (c : Nat) :
    Sparse.find (Sparse.get [] (l.foldl (keptWord off w) m) c) off =
      if c ∈ l then some ((Sparse.find (Sparse.get [] m c) off).getD w) else Sparse.find (Sparse.get [] m c) off := by
  induction l generalizing m with
  | nil => rfl
  | cons d l ih =>
    rw [List.foldl_cons, ih]
    by_cases hd : d = c
    · subst hd
      rw [find_keptWord_same]
      simp
    · have hc : c ≠ d := Ne.symm hd
      rw [get_keptWord_ne off w m hd]
      simp [hc]

/-- The contexts that a word about to be written is kept for. -/
def State.keepers (s : State) : List Nat :=
  (s.ctxs.map (·.1)).filter fun c => decide ((s.ctx c).st ≠ .running) && s.ctxOwes c

theorem State.keepOld_eq (s : State) (off : Nat) :
    s.keepOld off = { s with oldWords := s.keepers.foldl (keptWord off (s.tabw off)) s.oldWords } := by
  have hfold (l : List Nat) (m : List (Nat × List (Nat × Word))) :
      ({ s with oldWords := m } : State).each l (fun s c =>
        let l := Sparse.get [] s.oldWords c
        if (Sparse.find l off).isSome then s
        else { s with oldWords := Sparse.put s.oldWords c (Sparse.put l off (s.tabw off)) }) =
      { s with oldWords := l.foldl (keptWord off (s.tabw off)) m } := by
    induction l generalizing m with
    | nil => rfl
    | cons c l ih =>
      rw [State.each_cons, List.foldl_cons, ← ih]
      congr 1
      unfold keptWord
      dsimp only
      split <;> rfl
  exact hfold s.keepers s.oldWords

theorem State.keepOld_kept (s : State) (off : Nat) {c : Nat} (hc : c ∈ s.ctxs.map (·.1)) (hst : (s.ctx c).st ≠ .running)
    (howes : s.ctxOwes c = true) : Sparse.find (Sparse.get [] (s.keepOld off).oldWords c) off =
      some ((Sparse.find (Sparse.get [] s.oldWords c) off).getD (s.tabw off)) := by
  have hmem : c ∈ s.keepers := List.mem_filter.2 ⟨hc, by simp [hst, howes]⟩
  rw [State.keepOld_eq]
  exact (find_foldl_keptWord off _ _ _ c).trans (if_pos hmem)

theorem State.tableWrite_held (hdev : s.dev ≠ .booting) (hporst : s.porst = false) (hbar : s.barrierOn = false)
    (halign : off % 4 = 0) {vs : List Word} (hport : s.portHolds (.table off vs) = true) :
    s.tableWrite off vs = { s with held := s.held ++ [.table off vs] } := by
  simp [State.tableWrite, State.tableArrive, hdev, hporst, hbar, halign, hport]

theorem State.setTabw_frame_quiet (s : State) (m : List (Nat × List (Nat × Word))) (off : Nat) (w : Word) :
    Quiet s (({ s with oldWords := m } : State).setTabw off w) := by constructor <;> rfl

/-- Settles O10, by the table that the word lies in. -/
theorem tableWrites : Obligations.TableWrites := by
  refine ⟨State.tableNow_cons, fun s t off v x hpow hdev hbar halign hbase => ⟨fun hport => ?_, fun hport hrec => ?_⟩⟩
  · exact (exec_tableWrite t off [v] s).trans (command_eq hpow
      (State.tableWrite_held (s := s.advance t) hdev hpow.1 hbar halign hport) (by constructor <;> rfl))
  · have hput {y : State} (hx : (s.advance t).tabPut off v = y) (hq : Quiet (s.advance t) y) :
        exec (.tableWrite t off [v]) s = .next y :=
      (exec_tableWrite t off [v] s).trans (command_eq hpow
        ((State.tableWrite_word (s := s.advance t) hdev hpow.1 hbar hport halign hbase).trans hx) hq)
    have hrec' : (s.advance t).boot.recovery = false := hrec
    refine ⟨fun hnone => hput (State.tabPut_none hnone _ v) (Quiet.refl _), fun hat => ⟨fun hmask h => ?_, fun h slot b hbusy => ?_,
      fun hmask hfree => ⟨fun htab => ?_, fun htab => ?_, fun htab => ?_⟩⟩⟩
    · exact hput (State.tabPut_readOnly hat hrec' hmask h) (Quiet.refl _)
    · exact hput (State.tabPut_busy hat hrec' h hbusy) (State.evt_quiet _ _ _)
    · exact hput (State.tabPut_tile hat hrec' hmask hfree htab) (by constructor <;> rfl)
    · exact hput (State.tabPut_plain hat hrec' hmask hfree htab) (State.setTabw_quiet _ _)
    · have hx := State.tabPut_kept hat hrec' hmask hfree htab
      rw [State.keepOld_eq] at hx
      refine ⟨_, hput hx (State.setTabw_frame_quiet _ _ _ _), rfl, fun c hc hst howes => ?_⟩
      have hkept := State.keepOld_kept (s.advance t) off hc hst howes
      rwa [State.keepOld_eq] at hkept

end Sys2Proof.Machine
end

section
/-! Proofs about `PAGE_CTRL.ENABLE` (18_host_control.md, "The page header"; R55, R103, R165, R356), and the frames of the shared
operations that an enable, a lane's state and a condition vector run. -/

namespace Sys2Proof.Machine

variable {s x : State} {t a off slot : Nat} {p : Path} {v : Word} {r : RegInfo} {q : PageInfo}

/-! ### A command of which only some fields matter -/

/-- What a command's effect leaves, with the queue, the clock, the pin, the origin and the flag log that its wrapper keeps. -/
def State.wrapped (x s : State) (n : Nat) (l : List (Nat × Nat)) : State :=
  { x with pending := s.pending, now := n, porst := s.porst, solEdge := s.solEdge, wraps := s.wraps, flagLog := l }

theorem State.noteFlags_eq (s : State) : ∃ l, s.noteFlags = { s with flagLog := l } := by
  unfold State.noteFlags
  split
  · split
    · exact ⟨_, rfl⟩
    · exact ⟨_, rfl⟩
  · exact ⟨_, rfl⟩

/-- Where a statement speaks only of fields that the wrapper leaves, it needs to know no more of the effect. -/
theorem command_wrapped (hpow : s.Powered) (f : State → State) :
    ∃ l, command t f s = .next ((f (s.advance t)).wrapped s (max s.now t) l) := by
  obtain ⟨l, hl⟩ := (f (s.advance t)).noteFlags_eq
  refine ⟨l, ?_⟩
  rw [command, if_neg (Bool.eq_false_iff.1 hpow.1), hl]
  rfl

/-- The state answered has a property that the wrapper cannot break. -/
theorem answers_of_wrapped {c : Instr} {f : State → State} {P : State → Prop} (hpow : s.Powered) (hc : exec c s = command t f s)
    (h : ∀ l, P ((f (s.advance t)).wrapped s (max s.now t) l)) : Answers c s P := by
  obtain ⟨l, hl⟩ := command_wrapped (t := t) hpow f
  exact ⟨_, hc.trans hl, h l⟩

/-! ### Registers that an operation of one page leaves -/

theorem ra_ne_of_page {slot : Nat} (hoff : off < 0x400) (h : a / 0x400 ≠ slot) : ra slot off ≠ a := by
  rintro rfl
  exact h (ra_div slot off hoff)

theorem State.evt_reg_page {slot : Nat} (b : Nat) (h : a / 0x400 ≠ slot) : (s.evt slot b).reg a = s.reg a :=
  State.evt_reg_of_ne b (ra_ne_of_page (by decide) h) (ra_ne_of_page (by decide) h)

theorem State.setRfld_reg_page {slot : Nat} (lo w n : Nat) (hoff : off < 0x400) (h : a / 0x400 ≠ slot) :
    (s.setRfld slot off lo w n).reg a = s.reg a :=
  State.setReg_reg_ne _ _ (ra_ne_of_page hoff h)

theorem State.setRfld_side (s : State) (slot off lo w n : Nat) : Side s (s.setRfld slot off lo w n) := by
  unfold State.setRfld
  exact State.setReg_side _ _ _

theorem ra_ne_of_off (k slot : Nat) {i j : Nat} (hi : i < 0x400) (hj : j < 0x400) (h : i ≠ j) : ra k i ≠ ra slot j := fun e =>
  h ((ra_mod k i hi).symm.trans ((congrArg (· % 0x400) e).trans (ra_mod slot j hj)))

/-- No event bit changes a page's ENABLE. -/
@[simp] theorem State.evt_pageOn (s : State) (k b slot : Nat) : (s.evt k b).pageOn slot = s.pageOn slot := by
  have h4 := ra_ne_of_off k slot (i := 0x004) (j := 0x010) (by decide) (by decide) (by decide)
  have h8 := ra_ne_of_off k slot (i := 0x008) (j := 0x010) (by decide) (by decide) (by decide)
  rw [State.pageOn, State.rbit, State.evt_reg_of_ne b h4 h8, State.pageOn, State.rbit]

theorem State.setRfld_pageOn (s : State) (slot : Nat) (en : Bool) : (s.setRfld slot 0x010 1 1 (b2n en)).pageOn slot = en := by
  rw [State.pageOn, State.rbit, State.setRfld, State.setReg_reg_same, bit, setFld_getLsbD _ _ _ _ _ (by decide)]
  cases en <;> rfl

/-! ### Tiles judged again (R175, R177) -/

/-- A state differs from another at most in what a tile's judgement touches: its table words and its page. -/
def TileSide (s x : State) : Prop :=
  ∃ m l r e p o q, x = { s with tab := m, tiles := l, regs := r, evtAt := e, pba := p, out := o, bbr := q }

theorem TileSide.refl (s : State) : TileSide s s := ⟨_, _, _, _, _, _, _, rfl⟩

theorem TileSide.trans {y : State} (h : TileSide s x) (k : TileSide x y) : TileSide s y := by
  obtain ⟨_, _, _, _, _, _, _, rfl⟩ := h
  obtain ⟨_, _, _, _, _, _, _, rfl⟩ := k
  exact ⟨_, _, _, _, _, _, _, rfl⟩

theorem Side.tileSide (h : Side s x) : TileSide s x := by
  obtain ⟨_, _, _, _, _, rfl⟩ := h
  exact ⟨_, _, _, _, _, _, _, rfl⟩

theorem TileSide.quiet (h : TileSide s x) : Quiet s x := by
  obtain ⟨_, _, _, _, _, _, _, rfl⟩ := h
  constructor <;> rfl

theorem TileSide.lane (h : TileSide s x) (n : Nat) : x.lane n = s.lane n := by
  obtain ⟨_, _, _, _, _, _, _, rfl⟩ := h
  rfl

theorem State.setTabw_tileSide (s : State) (off : Nat) (w : Word) : TileSide s (s.setTabw off w) := ⟨_, _, _, _, _, _, _, rfl⟩

theorem State.setTile_tileSide (s : State) (n : Nat) (x : Tile) : TileSide s (s.setTile n x) := ⟨_, _, _, _, _, _, _, rfl⟩

theorem State.evt_tileSide (s : State) (k b : Nat) : TileSide s (s.evt k b) := (s.evt_side k b).tileSide

theorem State.setTabN_tileSide (s : State) (off n : Nat) : TileSide s (s.setTabN off n) := by
  unfold State.setTabN
  exact s.setTabw_tileSide _ _

theorem State.setTab64_tileSide (s : State) (off n : Nat) : TileSide s (s.setTab64 off n) := by
  unfold State.setTab64
  exact (s.setTabN_tileSide _ _).trans (State.setTabN_tileSide _ _ _)

theorem State.setTfld_tileSide (s : State) (off lo w n : Nat) : TileSide s (s.setTfld off lo w n) := by
  unfold State.setTfld
  exact s.setTabw_tileSide _ _

theorem State.setModel_tileSide (s : State) (n t0 kq0 : Nat) (corr : Int) : TileSide s (s.setModel n t0 kq0 corr) := by
  unfold State.setModel
  exact (((s.setTab64_tileSide _ _).trans (State.setTab64_tileSide _ _ _)).trans (State.setTab64_tileSide _ _ _)).trans
    (State.setTfld_tileSide _ _ _ _ _)

@[simp] theorem State.setTab64_reg (s : State) (off n a : Nat) : (s.setTab64 off n).reg a = s.reg a := by
  unfold State.setTab64 State.setTabN
  rw [State.setTabw_reg, State.setTabw_reg]

@[simp] theorem State.setTfld_reg (s : State) (off lo w n a : Nat) : (s.setTfld off lo w n).reg a = s.reg a := by
  unfold State.setTfld
  rw [State.setTabw_reg]

theorem State.setModel_reg (s : State) (n t0 kq0 : Nat) (corr : Int) (a : Nat) : (s.setModel n t0 kq0 corr).reg a = s.reg a := by
  simp only [State.setModel, State.setTab64_reg, State.setTfld_reg]

theorem State.tileOfs_tileSide (s : State) (n : Nat) : TileSide s (s.tileOfs n) := by
  unfold State.tileOfs
  split
  · exact s.setModel_tileSide _ _ _ _
  · exact TileSide.refl s

theorem State.tileOfs_reg (s : State) (n a : Nat) : (s.tileOfs n).reg a = s.reg a := by
  unfold State.tileOfs
  split
  · exact s.setModel_reg _ _ _ _ _
  · rfl

theorem TileSide.ite {c : Prop} [Decidable c] {y z : State} (hy : TileSide s y) (hz : TileSide s z) :
    TileSide s (if c then y else z) := by
  split
  · exact hy
  · exact hz

/-- The status word of a tile, and the bits of its page, as its judgement shows them. -/
def State.tileShown (s : State) (n : Nat) : State :=
  let s0 := s.tileOfs n
  let fresh := decide (s0.tileWhy n = 0)
  let w := put (s0.tileWhy n) 3 3 ||| put (b2n (s0.haveModel n)) 2 1 ||| put (b2n (s0.tileAbsent n)) 1 1 ||| put (b2n fresh) 0 1
  ((s0.setTabw (oTile n 8) w).setRfld (sReb (tileDie n)) 0x014 (n % 32) 1 (b2n fresh)).setRfld (sReb (tileDie n)) 0x018 (n % 32) 1
    (b2n (s0.tileAbsent n))

/-- The lost mark's reach ends where the model has become fresh. -/
def State.tileReached (s : State) (n : Nat) (fresh : Bool) : State :=
  if fresh && (s.tile n).lostOpen then s.setTile n { s.tile n with lostOpen := false, freshAt := some s.phys } else s

/-- A judgement: what it shows, the reach of the lost mark, and the event of a change. -/
theorem State.tileJudged_eq (s : State) (n : Nat) : s.tileJudged n =
    let fresh := decide ((s.tileOfs n).tileWhy n = 0)
    let was := (s.tileOfs n).tbit (oTile n 8) 0
    let u := (s.tileShown n).tileReached n fresh
    if was && !fresh then u.evt (sReb (tileDie n)) 0 else if !was && fresh then u.evt (sReb (tileDie n)) 1 else u := rfl

theorem State.tileShown_tileSide (s : State) (n : Nat) : TileSide s (s.tileShown n) := by
  unfold State.tileShown
  exact (((s.tileOfs_tileSide n).trans (State.setTabw_tileSide _ _ _)).trans (State.setRfld_side _ _ _ _ _ _).tileSide).trans
    (State.setRfld_side _ _ _ _ _ _).tileSide

theorem State.tileReached_tileSide (s : State) (n : Nat) (fresh : Bool) : TileSide s (s.tileReached n fresh) :=
  TileSide.ite (s.setTile_tileSide _ _) (TileSide.refl s)

theorem State.tileJudged_tileSide (s : State) (n : Nat) : TileSide s (s.tileJudged n) := by
  have h (fresh : Bool) := (s.tileShown_tileSide n).trans (State.tileReached_tileSide _ n fresh)
  rw [State.tileJudged_eq]
  exact TileSide.ite ((h _).trans (State.evt_tileSide _ _ _)) (TileSide.ite ((h _).trans (State.evt_tileSide _ _ _)) (h _))

theorem State.tileJudge_tileSide (s : State) (n : Nat) : TileSide s (s.tileJudge n) :=
  TileSide.ite ((s.tileJudged_tileSide n).trans (State.evt_tileSide _ _ _)) (s.tileJudged_tileSide n)

theorem reg_ite {c : Prop} [Decidable c] {y z : State} {w : Word} (hy : y.reg a = w) (hz : z.reg a = w) :
    (if c then y else z).reg a = w := by
  split
  · exact hy
  · exact hz

theorem State.tileShown_reg {n : Nat} (h : a / 0x400 ≠ sReb (tileDie n)) : (s.tileShown n).reg a = s.reg a := by
  unfold State.tileShown
  rw [State.setRfld_reg_page _ _ _ (by decide) h, State.setRfld_reg_page _ _ _ (by decide) h, State.setTabw_reg, State.tileOfs_reg]

theorem State.tileReached_reg (s : State) (n : Nat) (fresh : Bool) (a : Nat) : (s.tileReached n fresh).reg a = s.reg a := by
  unfold State.tileReached
  split
  · exact State.setTile_reg _ _ _ _
  · rfl

/-- A tile's judgement leaves every register but those of its REB page. -/
theorem State.tileJudged_reg {n : Nat} (h : a / 0x400 ≠ sReb (tileDie n)) : (s.tileJudged n).reg a = s.reg a := by
  have hu (fresh : Bool) : ((s.tileShown n).tileReached n fresh).reg a = s.reg a :=
    (State.tileReached_reg _ n fresh a).trans (State.tileShown_reg h)
  rw [State.tileJudged_eq]
  exact reg_ite ((State.evt_reg_page _ h).trans (hu _)) (reg_ite ((State.evt_reg_page _ h).trans (hu _)) (hu _))

theorem State.tileJudge_reg {n : Nat} (h : a / 0x400 ≠ sReb (tileDie n)) : (s.tileJudge n).reg a = s.reg a :=
  reg_ite ((State.evt_reg_page _ h).trans (State.tileJudged_reg h)) (State.tileJudged_reg h)

theorem tileDie_le (n : Nat) : tileDie n ≤ 1 := by
  unfold tileDie
  split <;> decide

/-! ### Contexts judged again (R267) -/

/-- A state differs from another at most in its contexts. -/
def CtxSide (s x : State) : Prop := ∃ m, x = { s with ctxs := m }

theorem CtxSide.trans {y : State} (h : CtxSide s x) (k : CtxSide x y) : CtxSide s y := by
  obtain ⟨_, rfl⟩ := h
  obtain ⟨_, rfl⟩ := k
  exact ⟨_, rfl⟩

theorem CtxSide.quiet (h : CtxSide s x) : Quiet s x := by
  obtain ⟨_, rfl⟩ := h
  constructor <;> rfl

theorem State.ctxWake_ctxSide (s : State) (c : Nat) : CtxSide s (s.ctxWake c) := by
  unfold State.ctxWake
  dsimp only
  split
  · exact ⟨_, rfl⟩
  · exact ⟨_, rfl⟩

theorem State.wakeAll_ctxSide (s : State) : CtxSide s s.wakeAll :=
  State.each_induct (P := CtxSide s) (fun u c _ h => h.trans (u.ctxWake_ctxSide c)) ⟨_, rfl⟩

theorem State.wakeAll_reg (s : State) (a : Nat) : s.wakeAll.reg a = s.reg a := by
  obtain ⟨m, h⟩ := s.wakeAll_ctxSide
  rw [h]
  rfl

theorem State.wakeAll_lane (s : State) (n : Nat) : s.wakeAll.lane n = s.lane n := by
  obtain ⟨m, h⟩ := s.wakeAll_ctxSide
  rw [h]
  rfl

theorem State.setLane_quiet (s : State) (n : Nat) (x : Lane) : Quiet s (s.setLane n x) := by constructor <;> rfl

theorem State.setCko_quiet (s : State) (n : Nat) (x : Cko) : Quiet s (s.setCko n x) := by constructor <;> rfl

theorem State.setDma_quiet (s : State) (n : Nat) (x : Dma) : Quiet s (s.setDma n x) := by constructor <;> rfl

theorem State.laneTrain_quiet (s : State) (n : Nat) : Quiet s (s.laneTrain n) :=
  (s.setLane_quiet n _).trans (State.tileJudge_tileSide _ n).quiet

theorem State.ckoEnable_quiet (s : State) (n : Nat) (en : Bool) : Quiet s (s.ckoEnable n en) :=
  (State.setRfld_side _ _ _ _ _ _).quiet.trans (State.setCko_quiet _ _ _)

/-- Where no context runs, none judges its vector. -/
theorem State.wakeAll_none (h : s.runningCtxs = []) : s.wakeAll = s := by
  rw [State.wakeAll, h]
  rfl

/-! ### The slot of a page -/

theorem pageAt_mem (h : pageAt slot = some q) : q ∈ pages ∧ q.first ≤ slot ∧ slot < q.first + q.count := by
  have hfound := List.find?_some h
  simp only [Bool.and_eq_true, decide_eq_true_eq] at hfound
  exact ⟨List.mem_of_find?_eq_some h, hfound⟩

theorem pages_first : ∀ q ∈ pages, (q.kind = .tin → q.first = 128) ∧ (q.kind = .cko → q.first = 16) ∧
    (q.kind = .lane → q.first = 256) ∧ (q.kind = .dma → q.first = 320) := by decide

theorem pageAt_tin (h : pageAt slot = some q) (hk : q.kind = .tin) : sTin (slot - q.first) = slot := by
  obtain ⟨hmem, hle, -⟩ := pageAt_mem h
  have := (pages_first q hmem).1 hk
  unfold sTin
  omega

theorem pageAt_cko (h : pageAt slot = some q) (hk : q.kind = .cko) : sCko (slot - q.first) = slot := by
  obtain ⟨hmem, hle, -⟩ := pageAt_mem h
  have := (pages_first q hmem).2.1 hk
  unfold sCko
  omega

theorem pageAt_lane (h : pageAt slot = some q) (hk : q.kind = .lane) : sLane (slot - q.first) = slot := by
  obtain ⟨hmem, hle, -⟩ := pageAt_mem h
  have := (pages_first q hmem).2.2.1 hk
  unfold sLane
  omega

theorem pageAt_dma (h : pageAt slot = some q) (hk : q.kind = .dma) : sDma (slot - q.first) = slot := by
  obtain ⟨hmem, hle, -⟩ := pageAt_mem h
  have := (pages_first q hmem).2.2.2 hk
  unfold sDma
  omega

/-! ### A write of `PAGE_CTRL` (R341) -/

theorem regAt_ctrl (h : pageAt slot = some q) : regAt (ra slot 0x010) = some ⟨.ctrl, if q.en then 2 else 0, 0x3⟩ := by
  rw [regAt, ra_div slot _ (by decide), ra_mod slot _ (by decide), h]
  rfl

/-- A write of `PAGE_CTRL` that reaches its page. -/
theorem State.Reaches.hostWrite_ctrl (hreach : s.Reaches (ra slot 0x010)) (hporst : s.porst = false)
    (hserved : s.served slot = true) (hpage : pageAt slot = some q) (p : Path) (v : Word) :
    s.hostWrite p (ra slot 0x010) v true = s.ctrlWrite slot v := by
  have hdiv := ra_div slot 0x010 (by decide)
  have hx := State.writeNow_ctrl (hdiv.symm ▸ hserved) (regAt_ctrl hpage) (hdiv.symm ▸ hpage) rfl p v
  rw [hreach.hostWrite hporst (ra_aligned slot (by decide)) p v, hx, hdiv]

/-- PAGE_ENABLE is a write of `PAGE_CTRL` that leaves RESET alone. -/
theorem State.ctrlWrite_enable (s : State) (slot : Nat) (en : Bool) :
    s.ctrlWrite slot (if en then 2 else 0) = s.pageEnable slot en := by
  cases en <;> rfl

/-! ### The enable of each kind of page -/

theorem State.pageEnable_plain (h : pageAt slot = some q) (hk : q.kind ∉ [PageKind.tin, .cko, .lane, .dma]) (en : Bool) :
    s.pageEnable slot en = s.setRfld slot 0x010 1 1 (b2n en) := by
  unfold State.pageEnable
  rw [h]
  dsimp only
  cases hq : q.kind
  case tin | cko | lane | dma => simp [hq] at hk
  all_goals rfl

theorem State.pageEnable_tin (h : pageAt slot = some q) (hk : q.kind = .tin) (en : Bool) : s.pageEnable slot en =
    if en = true ∧ s.pageOn slot = false ∧ (s.stamper (slot - q.first)).booted = true then
      (s.setRfld slot 0x010 1 1 (b2n en)).evt slot 0 else s.setRfld slot 0x010 1 1 (b2n en) := by
  unfold State.pageEnable
  rw [h]
  simp only [hk, State.tinEnable, pageAt_tin h hk, Bool.and_eq_true, Bool.not_eq_true', and_assoc]

/-- Training begins where a LANE page's ENABLE is set. -/
theorem State.pageEnable_lane (h : pageAt slot = some q) (hk : q.kind = .lane) (hoff : s.pageOn slot = false) :
    s.pageEnable slot true = ((s.setRfld slot 0x010 1 1 1).laneTrain (slot - q.first)).wakeAll := by
  unfold State.pageEnable
  rw [h]
  simp only [hk, State.laneEnable, pageAt_lane h hk, hoff, Bool.false_eq_true, if_false, if_true]
  rfl

theorem State.pageEnable_cko (h : pageAt slot = some q) (hk : q.kind = .cko) {en : Bool} (hne : s.pageOn slot ≠ en) :
    s.pageEnable slot en = s.ckoEnable (slot - q.first) en := by
  unfold State.pageEnable
  rw [h]
  simp only [hk, if_neg hne]

theorem State.pageEnable_dma (h : pageAt slot = some q) (hk : q.kind = .dma) (en : Bool) :
    s.pageEnable slot en = s.dmaEnable (slot - q.first) en := by
  unfold State.pageEnable
  rw [h]
  simp only [hk]

theorem State.laneTrain_lane (s : State) (n : Nat) : ((s.laneTrain n).lane n).st = .training := by
  rw [State.laneTrain, (State.tileJudge_tileSide _ n).lane, State.setLane_same]

theorem State.laneTrain_reg {n : Nat} (h : a / 0x400 ≠ sReb (tileDie n)) : (s.laneTrain n).reg a = s.reg a :=
  (State.tileJudge_reg h).trans (State.setLane_reg _ _ _ _)

/-- A LANE page lies apart from the REB pages. -/
theorem slot_ne_sReb (h : pageAt slot = some q) (hk : q.kind = .lane) (n : Nat) : slot ≠ sReb (tileDie n) := by
  obtain ⟨hmem, hle, hlt⟩ := pageAt_mem h
  have hcount : ∀ q ∈ pages, q.kind = .lane → q.first + q.count = 320 := by decide
  have := hcount q hmem hk
  unfold sReb
  omega

theorem State.laneTrain_pageOn (h : pageAt slot = some q) (hk : q.kind = .lane) (n : Nat) :
    ((s.setRfld slot 0x010 1 1 1).laneTrain n).pageOn slot = true := by
  have hdiv : ra slot 0x010 / 0x400 ≠ sReb (tileDie n) := by
    rw [ra_div slot 0x010 (by decide)]
    exact slot_ne_sReb h hk n
  have hon := State.setRfld_pageOn s slot true
  rwa [State.pageOn, State.rbit, State.laneTrain_reg hdiv]

theorem State.ckoEnable_pageOn (s : State) (n : Nat) (en : Bool) : (s.ckoEnable n en).pageOn (sCko n) = en :=
  State.setRfld_pageOn s (sCko n) en

theorem State.ckoEnable_cko (s : State) (n : Nat) (en : Bool) : (s.ckoEnable n en).cko n =
    if en then { s.cko n with from' := max (s.cko n).from' s.phys, highUntil := s.ckoFall n, offAt := none }
    else { s.cko n with offAt := some (s.ckoNextFall n) } :=
  State.setCko_same _ _ _

/-- A ring that does not fit refuses the enable (R356). -/
theorem State.dmaEnable_bad {n : Nat} (h : s.ringExp n < 4 ∨ 16 < s.ringExp n ∨ s.rfld (sDma n) 0x018 0 5 ≠ 0) :
    s.dmaEnable n true = (s.setRfld (sDma n) 0x010 1 1 0).evt (sDma n) 3 := by
  unfold State.dmaEnable
  rw [if_pos rfl, if_pos h]

theorem State.dmaTake_empty {n : Nat} (h : (s.dmaCh n).queue = []) : s.dmaTake n = s := by
  unfold State.dmaTake
  dsimp only
  split
  · simp [h]
  · rfl

theorem State.dmaWait_empty {n : Nat} (h : (s.dmaCh n).queue = []) : s.dmaWait n = s := by
  simp [State.dmaWait, State.waitDesc, h]

/-- A channel with no message is enabled, and nothing else moves. -/
theorem State.dmaEnable_good {n : Nat} (hlo : 4 ≤ s.ringExp n) (hhi : s.ringExp n ≤ 16) (hbase : s.rfld (sDma n) 0x018 0 5 = 0)
    (hqueue : (s.dmaCh n).queue = []) :
    s.dmaEnable n true = (s.setRfld (sDma n) 0x010 1 1 1).setDma n { s.dmaCh n with draining := false } := by
  have hok : ¬(s.ringExp n < 4 ∨ 16 < s.ringExp n ∨ s.rfld (sDma n) 0x018 0 5 ≠ 0) := by omega
  unfold State.dmaEnable
  rw [if_pos rfl, if_neg hok]
  dsimp only
  generalize hu : (s.setRfld (sDma n) 0x010 1 1 1).setDma n { s.dmaCh n with draining := false } = u
  have hempty : (u.dmaCh n).queue = [] := by
    rw [← hu, State.setDma_same]
    exact hqueue
  rw [State.dmaTake_empty hempty, State.dmaWait_empty hempty, ite_self]

/-- Settles O13, by the kind of page. -/
theorem pageEnables : Obligations.PageEnables := by
  intro s t p slot q en hpow hreach hserved hpage
  have hctrl (en : Bool) : (s.advance t).hostWrite p (ra slot 0x010) (if en then 2 else 0) true = (s.advance t).pageEnable slot en :=
    (State.Reaches.hostWrite_ctrl (s := s.advance t) hreach hpow.1 hserved hpage p _).trans (State.ctrlWrite_enable _ _ _)
  have hexec (en : Bool) {x : State} (hx : (s.advance t).pageEnable slot en = x) (hq : Quiet (s.advance t) x) :
      exec (.pageEnable t p slot en) s = .next x :=
    (exec_pageEnable t p slot en s).trans (command_eq hpow ((hctrl en).trans hx) hq)
  have hheld (n : Nat) : Quiet (s.advance t) ((s.advance t).setRfld slot 0x010 1 1 n) := (State.setRfld_side _ _ _ _ _ _).quiet
  refine ⟨fun hk => ?_, fun hk => ?_, ?_, ?_, ?_, ?_, ?_⟩
  · exact hexec en (State.pageEnable_plain hpage hk en) (hheld _)
  · refine hexec en (State.pageEnable_tin hpage hk en) ?_
    split
    · exact (hheld _).trans (State.evt_quiet _ _ _)
    · exact hheld _
  · rintro hk rfl hoff
    refine ⟨_, hexec true (State.pageEnable_lane (s := s.advance t) hpage hk hoff) ?_, ?_, ?_⟩
    · exact ((hheld 1).trans (State.laneTrain_quiet _ _)).trans (State.wakeAll_ctxSide _).quiet
    · rw [State.pageOn, State.rbit, State.wakeAll_reg]
      exact State.laneTrain_pageOn hpage hk _
    · rw [State.wakeAll_lane]
      exact State.laneTrain_lane _ _
  · rintro hk rfl hoff
    have hslot := pageAt_cko hpage hk
    have hx := State.pageEnable_cko (s := s.advance t) hpage hk (en := true) (ne_of_eq_of_ne hoff Bool.false_ne_true)
    refine ⟨_, hexec true hx (State.ckoEnable_quiet _ _ _), ?_, ?_, ?_⟩
    · have hset := State.ckoEnable_pageOn (s.advance t) (slot - q.first) true
      rwa [hslot] at hset
    · rw [State.ckoEnable_cko, if_pos rfl]
      refine le_trans ?_ (le_max_right _ _)
      unfold State.phys
      have := Nat.le_max_left s.now t
      simp only [State.advance_now]
      omega
    · rw [State.ckoEnable_cko, if_pos rfl]
  · rintro hk rfl hon
    have hslot := pageAt_cko hpage hk
    have hx := State.pageEnable_cko (s := s.advance t) hpage hk (en := false) (ne_of_eq_of_ne hon Bool.true_eq_false.mp)
    refine ⟨_, hexec false hx (State.ckoEnable_quiet _ _ _), ?_, ?_⟩
    · have hset := State.ckoEnable_pageOn (s.advance t) (slot - q.first) false
      rwa [hslot] at hset
    · exact State.ckoEnable_cko _ _ _
  · rintro hk rfl hbad
    have hslot := pageAt_dma hpage hk
    have hx := (State.pageEnable_dma (s := s.advance t) hpage hk true).trans
      (State.dmaEnable_bad (s := s.advance t) (hslot.symm ▸ hbad))
    rw [hslot] at hx
    exact hexec true hx ((hheld 0).trans (State.evt_quiet _ _ _))
  · rintro hk rfl hlo hhi hbase hqueue
    have hslot := pageAt_dma hpage hk
    have hx := (State.pageEnable_dma (s := s.advance t) hpage hk true).trans
      (State.dmaEnable_good (s := s.advance t) hlo hhi (hslot.symm ▸ hbase) hqueue)
    rw [hslot] at hx
    refine ⟨_, hexec true hx ((hheld 1).trans (State.setDma_quiet _ _ _)), ?_, ?_⟩
    · exact State.setRfld_pageOn (s.advance t) slot true
    · rw [State.setDma_same]
      exact ⟨rfl, rfl, rfl⟩

end Sys2Proof.Machine
end

section
/-! Proofs about page resets (18_host_control.md, R351): how one begins, what a page in reset holds, and what is cleared and
served when it is complete. -/

namespace Sys2Proof.Machine

variable {s x : State} {t a off slot : Nat} {p : Path} {v : Word} {r : RegInfo} {q : PageInfo}

/-! ### Registers behind a black-box entry -/

theorem State.bbrPush_reg_page (code sl : Nat) (data : List Nat) (h : a / 0x400 ≠ sBbr) :
    (s.bbrPush code sl data).reg a = s.reg a := by
  have hroom : s.bbrRoom.reg a = s.reg a := by
    unfold State.bbrRoom
    split <;> rfl
  unfold State.bbrPush
  dsimp only
  split
  · rw [State.evt_reg_page 1 h]
    simp only [State.bump64, State.setReg64, State.setReg_reg]
    rw [if_neg (ra_ne_of_page (by decide) h), if_neg (ra_ne_of_page (by decide) h)]
    exact hroom
  · exact hroom

theorem State.bbrHost_reg_page (code sl : Nat) (data : List Nat) (h : a / 0x400 ≠ sBbr) :
    (s.bbrHost code sl data).reg a = s.reg a := by
  unfold State.bbrHost
  split
  · split
    · rfl
    · exact State.bbrPush_reg_page _ _ _ h
  · exact State.bbrPush_reg_page _ _ _ h

/-! ### A reset begins -/

/-- A field that takes the value it has. -/
theorem setFld_self (v : Word) : setFld v 1 1 (b2n (bit v 1)) = v := by
  apply BitVec.eq_of_getLsbD_eq
  intro i hi
  rw [setFld_getLsbD _ _ _ _ _ (by omega)]
  by_cases h : i = 1
  · subst h
    cases hb : bit v 1
    · exact hb.symm
    · exact hb.symm
  · rw [if_neg (by omega)]

/-- ENABLE written as it stands changes no register. -/
theorem State.pageEnable_self (hpage : pageAt slot = some q) (hk : q.kind ≠ .dma) :
    ∃ m, s.pageEnable slot (s.pageOn slot) = { s with regs := m } ∧ ∀ a, ({ s with regs := m } : State).reg a = s.reg a := by
  have hset : ∀ a, (s.setRfld slot 0x010 1 1 (b2n (s.pageOn slot))).reg a = s.reg a := fun a => by
    rw [State.setRfld, State.pageOn, State.rbit, setFld_self, State.setReg_reg]
    split
    case isTrue h => rw [h]
    case isFalse => rfl
  by_cases hplain : q.kind ∉ [PageKind.tin, .cko, .lane, .dma]
  · exact ⟨_, State.pageEnable_plain hpage hplain _, hset⟩
  · simp only [List.mem_cons, List.not_mem_nil, or_false, not_not, hk] at hplain
    obtain hkind | hkind | hkind := hplain
    · refine ⟨_, (State.pageEnable_tin hpage hkind _).trans (if_neg ?_), hset⟩
      rintro ⟨hon, hoff, -⟩
      exact Bool.false_ne_true (hoff.symm.trans hon)
    · refine ⟨s.regs, ?_, fun _ => rfl⟩
      unfold State.pageEnable
      rw [hpage]
      simp only [hkind, if_true]
    · refine ⟨_, ?_, hset⟩
      unfold State.pageEnable
      rw [hpage]
      simp only [hkind, State.laneEnable, pageAt_lane hpage hkind, if_true]
      rfl

/-- The pages whose reset gives up nothing but staged values. -/
abbrev plainReset : List PageKind :=
  [PageKind.clk, .cko, .acq, .par, .mon, .sec, .fwd, .reb, .bin, .beam, .cor, .hst, .mem, .cas, .tin, .lane]

/-- A page in reset, with its generation advanced and its staged values gone. -/
def State.resetBegun (s : State) (slot : Nat) : State :=
  ({ s with resetting := slot :: s.resetting, staged := s.staged.filter fun e => decide (e.1 / 0x400 ≠ slot) } : State).setRfld
    slot 0x004 4 4 ((s.gen slot + 1) % 16)

theorem State.pageReset_plain (hpage : pageAt slot = some q) (hk : q.kind ∈ plainReset) (hin : s.inReset slot = false) :
    s.pageReset slot = (s.resetBegun slot).bbrHost 14 slot [slot, (s.gen slot + 1) % 16] := by
  have hglb : q.kind ≠ .glb := fun h => by rw [h] at hk; exact absurd hk (by decide)
  unfold State.pageReset
  rw [hpage]
  simp only [hin, Bool.false_eq_true, if_false, if_neg hglb, State.resetOwn]
  cases hq : q.kind
  case glb | sol | ttl | tout | meas | ctx | seq | cal | dma | bbr => rw [hq] at hk; exact absurd hk (by decide)
  all_goals rfl

theorem State.resetBegun_reg (h : a ≠ ra slot 0x004) : (s.resetBegun slot).reg a = s.reg a :=
  State.setReg_reg_ne _ _ (Ne.symm h)

theorem State.resetBegun_gen (s : State) (slot : Nat) : (s.resetBegun slot).gen slot = (s.gen slot + 1) % 16 := by
  rw [State.gen, State.rfld, State.resetBegun, State.setRfld, State.setReg_reg_same, fld_setFld _ _ _ _ (by decide)]
  exact Nat.mod_mod _ _

theorem State.resetBegun_side (s : State) (slot : Nat) :
    Side { s with resetting := slot :: s.resetting, staged := s.staged.filter fun e => decide (e.1 / 0x400 ≠ slot) }
      (s.resetBegun slot) :=
  State.setRfld_side _ _ _ _ _ _

/-- RESET with ENABLE as it stands, on a page that gives up nothing else. -/
theorem State.ctrlWrite_reset (hpage : pageAt slot = some q) (hk : q.kind ∈ plainReset) (hin : s.inReset slot = false) :
    ∃ m, s.ctrlWrite slot (if s.pageOn slot then 3 else 1) =
      (({ s with regs := m } : State).resetBegun slot).bbrHost 14 slot [slot, (s.gen slot + 1) % 16] ∧
      ∀ a, ({ s with regs := m } : State).reg a = s.reg a := by
  have hdma : q.kind ≠ .dma := fun h => by rw [h] at hk; exact absurd hk (by decide)
  obtain ⟨m, hen, hreg⟩ := State.pageEnable_self (s := s) hpage hdma
  refine ⟨m, ?_, hreg⟩
  have hbits : bit (if s.pageOn slot then 3 else 1) 1 = s.pageOn slot ∧ bit (if s.pageOn slot then 3 else 1) 0 = true := by
    cases s.pageOn slot <;> decide
  have hgen : ({ s with regs := m } : State).gen slot = s.gen slot := congrArg (fld · 4 4) (hreg _)
  rw [State.ctrlWrite, hbits.1, hbits.2, if_pos rfl, hen, State.pageReset_plain (s := { s with regs := m }) hpage hk hin, hgen]

theorem State.pageState_inReset (h : s.inReset slot = true) : s.pageState slot = 2 := by
  unfold State.pageState
  rw [if_pos h]

theorem Side.resetting (h : Side s x) : x.resetting = s.resetting := by
  obtain ⟨_, _, _, _, _, rfl⟩ := h
  rfl

theorem Side.staged (h : Side s x) : x.staged = s.staged := by
  obtain ⟨_, _, _, _, _, rfl⟩ := h
  rfl

/-- A state that differs from another in its registers alone lies beside it. -/
theorem Side.of_regs {m : List (Nat × Word)} {l : List Nat} {g : List (Nat × Word)}
    (h : Side { s with regs := m, resetting := l, staged := g } x) : Side { s with resetting := l, staged := g } x := by
  obtain ⟨_, _, _, _, _, rfl⟩ := h
  exact ⟨_, _, _, _, _, rfl⟩

/-- What PAGE_RESET leaves of a page that gives up nothing else. -/
theorem resetBegun_spec (hpage : pageAt slot = some q) (hk : q.kind ∈ plainReset) {m : List (Nat × Word)}
    (hreg : ∀ a, ({ s with regs := m } : State).reg a = s.reg a)
    (hx : x = (({ s with regs := m } : State).resetBegun slot).bbrHost 14 slot [slot, (s.gen slot + 1) % 16]) :
    x.resetting = slot :: s.resetting ∧ x.pageState slot = 2 ∧ x.gen slot = (s.gen slot + 1) % 16 ∧
      x.staged = s.staged.filter (fun e => decide (e.1 / 0x400 ≠ slot)) ∧ x.pageOn slot = s.pageOn slot ∧
      (∀ a, a ≠ ra slot 0x004 → a / 0x400 ≠ sBbr → x.reg a = s.reg a) ∧
      Side { s with resetting := slot :: s.resetting, staged := x.staged } x := by
  have hbbr : slot ≠ sBbr := fun h => by
    subst h
    have hbk : q.kind = .bbr := pageAt_sBbr_kind hpage
    rw [hbk] at hk
    exact absurd hk (by decide)
  have hside : Side { s with resetting := slot :: s.resetting, staged := s.staged.filter fun e => decide (e.1 / 0x400 ≠ slot) } x :=
    Side.of_regs (m := m) ((State.resetBegun_side { s with regs := m } slot).trans (hx ▸ State.bbrHost_side _ _ _ _))
  have hregs (a : Nat) (h4 : a ≠ ra slot 0x004) (hb : a / 0x400 ≠ sBbr) : x.reg a = s.reg a := by
    rw [hx, State.bbrHost_reg_page _ _ _ hb, State.resetBegun_reg h4, hreg]
  have hresetting : x.resetting = slot :: s.resetting := hside.resetting
  have hstaged : x.staged = s.staged.filter fun e => decide (e.1 / 0x400 ≠ slot) := hside.staged
  refine ⟨hresetting, State.pageState_inReset ?_, ?_, hstaged, ?_, hregs, hstaged ▸ hside⟩
  · simp [State.inReset, hresetting]
  · have hpage4 : ra slot 0x004 / 0x400 ≠ sBbr := (ra_div slot 0x004 (by decide)).symm ▸ hbbr
    have hgen := State.resetBegun_gen { s with regs := m } slot
    have hold : ({ s with regs := m } : State).gen slot = s.gen slot := congrArg (fld · 4 4) (hreg _)
    rw [hold] at hgen
    rw [← hgen, State.gen, State.rfld, hx, State.bbrHost_reg_page _ _ _ hpage4, State.gen, State.rfld]
  · have hctrl : ra slot 0x010 / 0x400 ≠ sBbr := (ra_div slot 0x010 (by decide)).symm ▸ hbbr
    rw [State.pageOn, State.rbit, hregs _ (by unfold ra; omega) hctrl, State.pageOn, State.rbit]

/-! ### A reset is complete -/

/-- Counters cleared one after another. -/
theorem State.clearRegs_reg (s : State) (slot : Nat) (l : List Nat) (b : Nat) :
    (s.each l fun u off => u.setReg (ra slot off) 0).reg b = if ∃ off ∈ l, b = ra slot off then 0 else s.reg b := by
  induction l generalizing s with
  | nil => simp
  | cons o l ih =>
    rw [State.each_cons, ih, State.setReg_reg]
    simp only [List.exists_mem_cons_iff]
    by_cases hl : ∃ off ∈ l, b = ra slot off
    · simp [hl]
    · by_cases ho : b = ra slot o
      · simp [ho]
      · simp [hl, ho, Ne.symm ho]

theorem State.clearRegs_regs (s : State) (slot : Nat) (l : List Nat) :
    ∃ m, (s.each l fun u off => u.setReg (ra slot off) 0) = { s with regs := m } :=
  State.each_induct (P := fun u => ∃ m, u = { s with regs := m }) (fun _ _ _ ⟨_, h⟩ => by subst h; exact ⟨_, rfl⟩) ⟨_, rfl⟩

/-- A page whose clearing touches registers alone: its event bits and its counters. -/
theorem State.resetClear_plain {k : PageKind} (hk : k ∉ [PageKind.tin, .tout, .mon, .fwd, .mem, .reb, .beam]) (slot i : Nat) :
    s.resetClear slot k i = (s.setReg (ra slot 0x008) 0).each (counterOffs k) fun u off => u.setReg (ra slot off) 0 := by
  cases k
  case tin | tout | mon | fwd | mem | reb | beam => exact absurd (by decide) hk
  all_goals rfl

/-- A page out of reset: cleared, before what it held is served. -/
def State.resetOver (s : State) (slot : Nat) (k : PageKind) (i : Nat) : State :=
  ({ s with
    resetting := s.resetting.filter (· ≠ slot)
    snaps := s.snaps.filter fun e => decide (e.1 / 0x800 ≠ slot)
    splitFault := s.splitFault.filter (· ≠ slot) } : State).resetClear slot k i

theorem State.resetOver_regs {k : PageKind} (hk : k ∉ [PageKind.tin, .tout, .mon, .fwd, .mem, .reb, .beam]) (slot i : Nat) :
    ∃ m, s.resetOver slot k i = { s with
      resetting := s.resetting.filter (· ≠ slot)
      snaps := s.snaps.filter fun e => decide (e.1 / 0x800 ≠ slot)
      splitFault := s.splitFault.filter (· ≠ slot), regs := m } := by
  rw [State.resetOver, State.resetClear_plain hk]
  exact State.clearRegs_regs _ _ _

theorem State.resetOver_reg {k : PageKind} (hk : k ∉ [PageKind.tin, .tout, .mon, .fwd, .mem, .reb, .beam]) (slot i b : Nat) :
    (s.resetOver slot k i).reg b =
      if ∃ off ∈ counterOffs k, b = ra slot off then 0 else if ra slot 0x008 = b then 0 else s.reg b := by
  rw [State.resetOver, State.resetClear_plain hk, State.clearRegs_reg, State.setReg_reg]
  rfl

theorem State.commitProceed_idle (h : s.commit.waitFor = []) (slot : Nat) : s.commitProceed slot = s := by
  unfold State.commitProceed
  rw [h]
  rfl

theorem State.serveHeld_nil (s : State) (b : Bool) : s.serveHeld b [] = s := rfl

theorem State.serveHeld_one (h : s.barrierOn = false) (b : Bool) (y : HostAcc) : s.serveHeld b [y] = s.accArrive y := by
  simp [State.serveHeld, h]

/-- At the end of a reset with at most one access held, that access is served on the page as it was cleared. -/
theorem State.resetComplete_eq (hpage : pageAt slot = some q) (hk : q.kind ∉ [PageKind.tin, .tout, .mon, .fwd, .mem, .reb, .beam])
    (hin : s.inReset slot = true) (hwait : s.commit.waitFor = []) (hbar : s.barrierOn = false) :
    (s.held = [] → s.resetComplete slot = s.resetOver slot q.kind (slot - q.first)) ∧
    (∀ p a v, s.held = [.write p a v] → ∀ y,
      ({ s.resetOver slot q.kind (slot - q.first) with held := [] } : State).writeArrive p a v = y → y.commit.waitFor = [] →
      s.resetComplete slot = y) := by
  have hx : s.resetComplete slot =
      (((({ s.resetOver slot q.kind (slot - q.first) with held := [] } : State).serveHeld s.barrierOn
        (s.held.take s.commit.early)).commitProceed slot).serveHeld s.barrierOn (s.held.drop s.commit.early)) := by
    have htin : q.kind ≠ .tin := fun h => by rw [h] at hk; exact hk (by decide)
    obtain ⟨m, hm⟩ := State.resetOver_regs (s := s) hk slot (slot - q.first)
    have hbefore := State.resetOver.eq_1 s slot q.kind (slot - q.first)
    unfold State.resetComplete
    rw [hpage]
    simp only [hin, if_true, htin, decide_false, Bool.false_and, Bool.false_eq_true, if_false]
    rw [← hbefore, hm]
  obtain ⟨m, hm⟩ := State.resetOver_regs (s := s) hk slot (slot - q.first)
  refine ⟨fun hheld => ?_, fun p a v hheld y hy hyw => ?_⟩
  · rw [hx, hheld, List.take_nil, List.drop_nil, State.serveHeld_nil, State.serveHeld_nil, State.commitProceed_idle]
    · rw [hm, ← hheld]
    · rw [hm]
      exact hwait
  · rw [hx, hheld, hbar]
    cases hn : s.commit.early with
    | zero =>
      rw [List.take_zero, List.drop_zero, State.serveHeld_nil, State.commitProceed_idle, State.serveHeld_one]
      · exact hy
      · rw [hm]
        exact hbar
      · rw [hm]
        exact hwait
    | succ n =>
      rw [List.take_succ_cons, List.take_nil, List.drop_succ_cons, List.drop_nil, State.serveHeld_nil, State.serveHeld_one]
      · exact (congrArg (State.commitProceed · slot) hy).trans (State.commitProceed_idle hyw slot)
      · rw [hm]
        exact hbar

theorem snapKey_slot (k : Path) (lo : Nat) : snapKey k lo / 0x800 = lo / 0x400 := by
  unfold snapKey
  cases k <;> simp only [pathNum] <;> omega

/-- No entry is left under a key that a filter drops. -/
theorem get_filter_dropped {α : Type} (d : α) (f : Nat → Bool) (l : List (Nat × α)) {k : Nat} (h : f k = false) :
    Sparse.get d (l.filter fun e => f e.1) k = d := by
  induction l with
  | nil => rfl
  | cons e l ih =>
    obtain ⟨b, w⟩ := e
    rw [List.filter_cons]
    split
    case isFalse => exact ih
    case isTrue hb =>
      have hne : b ≠ k := fun e => by
        subst e
        exact Bool.false_ne_true (h.symm.trans hb)
      rw [Sparse.get, if_neg hne]
      exact ih

theorem State.resetOver_snap {k : PageKind} (hk : k ∉ [PageKind.tin, .tout, .mon, .fwd, .mem, .reb, .beam]) (slot i : Nat)
    (p : Path) {lo : Nat} (hlo : lo / 0x400 = slot) : (s.resetOver slot k i).snap p lo = {} := by
  obtain ⟨m, hm⟩ := State.resetOver_regs (s := s) hk slot i
  rw [hm]
  exact get_filter_dropped {} (fun b => decide (b / 0x800 ≠ slot)) s.snaps (k := snapKey p lo) (by simp [snapKey_slot, hlo])

/-- A staged write that no page in reset and no earlier access holds. -/
theorem State.writeArrive_rws (hin : s.inReset (a / 0x400) = false) (hheld : s.held = []) (hserved : s.served (a / 0x400) = true)
    (hreg : regAt a = some r) (hty : r.ty = .rws) (p : Path) (v : Word) :
    s.writeArrive p a v = { s with staged := Sparse.put s.staged a v } := by
  obtain ⟨q, hpage⟩ := pageAt_of_regAt hreg
  rw [State.writeArrive_free, State.writeNow_rws hserved hreg hpage hty]
  rw [State.portHolds_nil _ hheld]
  exact hin

/-- Settles O12: the beginning through a write of `PAGE_CTRL`, the completion by what the page had held. -/
theorem pageResets : Obligations.PageResets := by
  refine ⟨fun s t p slot q hpow hreach hserved hpage hk => ?_,
    fun s t p slot q v a hpow hdev hpage hk hwait hbar hin => ⟨fun halign hslot => ?_, fun hheld => ?_, fun r hheld hslot hreg hty hserved => ?_⟩⟩
  · have hin : (s.advance t).inReset slot = false := by
      obtain ⟨-, -, hport⟩ := hreach
      simp only [State.portHolds, HostAcc.slot, ra_div slot.val 0x010 (by decide), Option.map_some, Option.getD_some,
        Bool.or_eq_false_iff] at hport
      exact hport.1
    obtain ⟨m, hx, hreg⟩ := State.ctrlWrite_reset (s := s.advance t) hpage hk hin
    have hwrite := (State.Reaches.hostWrite_ctrl (s := s.advance t) hreach hpow.1 hserved hpage p _).trans hx
    have hspec := resetBegun_spec hpage hk hreg rfl
    have hquiet : Quiet (s.advance t) { s.advance t with
      resetting := slot.val :: s.resetting, staged := s.staged.filter fun e => decide (e.1 / 0x400 ≠ slot.val) } := by
      constructor <;> rfl
    refine ⟨_, (exec_pageReset t p slot s).trans (command_eq hpow hwrite (hquiet.trans ?_)), hspec⟩
    have hside := hspec.2.2.2.2.2.2
    rw [hspec.2.2.2.1] at hside
    exact hside.quiet
  · rw [exec_stagedWrite]
    refine command_eq hpow ?_ (by constructor <;> rfl)
    have hport : (s.advance t).portHolds (.write p a v) = true := by
      simp [State.portHolds, HostAcc.slot, hslot, State.inReset, State.advance]
      exact .inl (List.contains_iff_mem.1 hin)
    simp [State.hostWrite, State.writeArrive, hdev, hpow.1, halign, hbar, hport]
  · obtain ⟨m, hm⟩ := State.resetOver_regs (s := s.advance t) hk slot (slot - q.first)
    have hx := ((State.resetComplete_eq (s := s.advance t) hpage hk hin hwait hbar).1 hheld).trans hm
    have hregs := State.resetOver_reg (s := s.advance t) hk slot (slot - q.first)
    rw [hm] at hregs
    refine ⟨_, (exec_pageResetComplete t slot s).trans (command_eq hpow hx (by constructor <;> rfl)), rfl, ?_, ?_, ?_, ?_, ?_, rfl⟩
    · rw [hregs]
      simp
    · intro off hoff
      rw [hregs, if_pos ⟨off, hoff, rfl⟩]
    · intro b h8 hcount
      rw [hregs, if_neg fun ⟨off, hoff, he⟩ => hcount off hoff he, if_neg (Ne.symm h8)]
      rfl
    · intro k lo _ hlo
      have hsnap := State.resetOver_snap (s := s.advance t) hk slot (slot - q.first) k hlo
      rwa [hm] at hsnap
    · simp
  · obtain ⟨m, hm⟩ := State.resetOver_regs (s := s.advance t) hk slot (slot - q.first)
    have hx := (State.resetComplete_eq (s := s.advance t) hpage hk hin hwait hbar).2 p a v hheld
    rw [hm] at hx
    generalize hu : ({ s.advance t with
      resetting := (s.advance t).resetting.filter (· ≠ slot.val)
      snaps := (s.advance t).snaps.filter fun e => decide (e.1 / 0x800 ≠ slot.val)
      splitFault := (s.advance t).splitFault.filter (· ≠ slot.val), regs := m } : State) = u at hx
    have hwrite : ({ u with held := [] } : State).writeArrive p a v = { u with held := [], staged := Sparse.put u.staged a v } := by
      refine State.writeArrive_rws (s := { u with held := [] }) ?_ rfl ?_ hreg hty p v
      · rw [← hu, hslot]
        simp [State.inReset]
      · rw [← hu, hslot]
        exact hserved
    have hdone := hx _ hwrite (by rw [← hu]; exact hwait)
    refine ⟨_, (exec_pageResetComplete t slot s).trans (command_eq hpow hdone ?_), ?_, rfl, ?_⟩
    · rw [← hu]
      constructor <;> rfl
    · rw [← hu]
      rfl
    · rw [← hu]
      rfl

end Sys2Proof.Machine
end

section
/-! Proofs about the gates of timing outputs (06_timing_outputs.md, R148), and the refutation of the statement about commits. -/

namespace Sys2Proof.Machine

variable {s x : State} {t a off slot : Nat} {p : Path} {v : Word} {r : RegInfo} {q : PageInfo}

/-! ### Gated outputs -/

/-- A state differs from another at most in its timing and clock outputs, and in what event bits touch. -/
def GateSide (s x : State) : Prop :=
  ∃ m c r e p o b, x = { s with touts := m, ckos := c, regs := r, evtAt := e, pba := p, out := o, bbr := b }

theorem GateSide.refl (s : State) : GateSide s s := ⟨_, _, _, _, _, _, _, rfl⟩

theorem GateSide.trans {y : State} (h : GateSide s x) (k : GateSide x y) : GateSide s y := by
  obtain ⟨_, _, _, _, _, _, _, rfl⟩ := h
  obtain ⟨_, _, _, _, _, _, _, rfl⟩ := k
  exact ⟨_, _, _, _, _, _, _, rfl⟩

theorem Side.gateSide (h : Side s x) : GateSide s x := by
  obtain ⟨_, _, _, _, _, rfl⟩ := h
  exact ⟨_, _, _, _, _, _, _, rfl⟩

theorem GateSide.quiet (h : GateSide s x) : Quiet s x := by
  obtain ⟨_, _, _, _, _, _, _, rfl⟩ := h
  constructor <;> rfl

theorem Side.tout (h : Side s x) (n : Nat) : x.tout n = s.tout n := by
  obtain ⟨_, _, _, _, _, rfl⟩ := h
  rfl

/-- A move of the ball changes only what is in flight. -/
theorem State.toutMove_eq (s : State) (n : Nat) (high gate trunc : Bool) :
    ∃ l, s.toutMove n high gate trunc = s.setTout n { s.tout n with flight := l } := by
  unfold State.toutMove
  dsimp only
  split <;> exact ⟨_, rfl⟩

/-- An output with causes added to its gate. -/
def Tout.addGate (c : Tout) (lock stop dorm : Bool) : Tout :=
  { c with gatedLock := c.gatedLock || lock, gatedStop := c.gatedStop || stop, gatedDorm := c.gatedDorm || dorm }

theorem State.toutGate_gated (h : (s.tout n).gated = true) (lock stop dorm : Bool) :
    s.toutGate n lock stop dorm = s.setTout n ((s.tout n).addGate lock stop dorm) := by
  unfold State.toutGate
  dsimp only
  rw [h, if_pos rfl]
  rfl

theorem State.toutGate_free (h : (s.tout n).gated = false) (lock stop dorm : Bool) :
    s.toutGate n lock stop dorm =
      ((s.setTout n ((s.tout n).addGate lock stop dorm)).toutMove n false true true).evt (sTout n) 3 := by
  unfold State.toutGate
  dsimp only
  rw [h, if_neg Bool.false_ne_true]
  rfl

/-- A gated output: its gate's causes, and what is in flight. -/
theorem State.toutGate_tout (s : State) (n : Nat) (lock stop dorm : Bool) :
    ∃ l, (s.toutGate n lock stop dorm).tout n = { (s.tout n).addGate lock stop dorm with flight := l } := by
  cases h : (s.tout n).gated with
  | true => exact ⟨_, by rw [State.toutGate_gated h, State.setTout_same]⟩
  | false =>
    obtain ⟨l, hl⟩ := (s.setTout n ((s.tout n).addGate lock stop dorm)).toutMove_eq n false true true
    exact ⟨l, by rw [State.toutGate_free h, (State.evt_side _ _ _).tout, hl, State.setTout_same, State.setTout_same]⟩

theorem State.toutGate_tout_ne {n k : Nat} (h : n ≠ k) (lock stop dorm : Bool) :
    (s.toutGate n lock stop dorm).tout k = s.tout k := by
  cases hg : (s.tout n).gated with
  | true => rw [State.toutGate_gated hg, State.setTout_ne _ _ h]
  | false =>
    obtain ⟨l, hl⟩ := (s.setTout n ((s.tout n).addGate lock stop dorm)).toutMove_eq n false true true
    rw [State.toutGate_free hg, (State.evt_side _ _ _).tout, hl, State.setTout_ne _ _ h, State.setTout_ne _ _ h]

theorem State.setTout_gateSide (s : State) (n : Nat) (c : Tout) : GateSide s (s.setTout n c) := ⟨_, _, _, _, _, _, _, rfl⟩

theorem State.setCko_gateSide (s : State) (n : Nat) (c : Cko) : GateSide s (s.setCko n c) := ⟨_, _, _, _, _, _, _, rfl⟩

theorem State.toutGate_gateSide (s : State) (n : Nat) (lock stop dorm : Bool) : GateSide s (s.toutGate n lock stop dorm) := by
  cases hg : (s.tout n).gated with
  | true => exact State.toutGate_gated hg lock stop dorm ▸ s.setTout_gateSide _ _
  | false =>
    obtain ⟨l, hl⟩ := (s.setTout n ((s.tout n).addGate lock stop dorm)).toutMove_eq n false true true
    rw [State.toutGate_free hg, hl]
    exact ((s.setTout_gateSide _ _).trans (State.setTout_gateSide _ _ _)).trans (State.evt_side _ _ _).gateSide

/-! ### Before the application edge -/

/-- A commit that waits for its application edge at 1, beside a running context whose condition vector (bit 31 is always set)
has not been judged yet. -/
def unjudged : State := { Tests.up with
  tab := [(oCtx 0 0, 2 ^ 27)], ctxs := [(0, { st := .running })]
  commit := { Tests.up.commit with busy := true, snapshot := some ([], []), applyAt := some 1 } }

/-- COMMIT_APPLIED before the edge applies nothing, but every running context judges its vector all the same. -/
theorem unjudged_wakes : ∃ x, exec (.commitApplied 0) unjudged = .next x ∧ (x.ctx 0).queued = true :=
  ⟨_, rfl, by decide +kernel⟩

/-- Refutes O14: before the application edge COMMIT_APPLIED still has every running context judge its condition vector (R267), and
one whose vector has changed is queued, so that more than the clock changes. -/
theorem not_commits : ¬ Obligations.Commits := by
  rintro ⟨-, hedge⟩
  have hstand := (hedge unjudged 0 1 [] [] ⟨rfl, rfl⟩ rfl rfl).1 (by decide)
  obtain ⟨x, hx, hqueued⟩ := unjudged_wakes
  rw [hx] at hstand
  injection hstand with hsame
  rw [hsame] at hqueued
  exact absurd hqueued (by decide)

end Sys2Proof.Machine
end

section
/-! Proofs about the validation of a commit (18_host_control.md, R344, R346). -/

namespace Sys2Proof.Machine

variable {s x : State} {t a off slot : Nat} {p : Path} {v : Word} {r : RegInfo} {q : PageInfo} {rg tb : List (Nat × Word)}
  {err addr : Nat}

/-! ### A refused commit -/

/-- A refused snapshot: its staged copies stand again, and the engine shows the failure. -/
def State.refused (s : State) (rg tb : List (Nat × Word)) (err addr : Nat) : State :=
  { s with
    staged := Sparse.over s.staged rg, stagedTab := Sparse.over s.stagedTab tb
    commit := { s.commit with busy := false, snapshot := none, applyAt := none, result := 2, err := err, errAddr := addr } }

/-- The device state that a refused commit leaves (R346). -/
def DevSt.afterRefusal (d : DevSt) : DevSt := if d = .awaiting ∨ d = .dormant then .dormant else d

/-- COMMIT_FAIL, the entry, and the state. -/
def State.refusalNoted (s : State) (err : Nat) : State :=
  let s2 := (s.evt sGlb 1).bbrHost 12 sGlb [1, err]
  if s2.dev = .awaiting ∨ s2.dev = .dormant then s2.enter .dormant else s2

theorem Side.dev (h : Side s x) : x.dev = s.dev := by
  obtain ⟨_, _, _, _, _, rfl⟩ := h
  rfl

theorem Side.withDev (h : Side s x) (d : DevSt) : Side { s with dev := d } { x with dev := d } := by
  obtain ⟨_, _, _, _, _, rfl⟩ := h
  exact ⟨_, _, _, _, _, rfl⟩

theorem Side.withBoot (h : Side s x) (b : Boot) : Side { s with boot := b } { x with boot := b } := by
  obtain ⟨_, _, _, _, _, rfl⟩ := h
  exact ⟨_, _, _, _, _, rfl⟩

theorem State.refusalNoted_side (s : State) (err : Nat) : Side { s with dev := s.dev.afterRefusal } (s.refusalNoted err) := by
  have hnoted : Side s ((s.evt sGlb 1).bbrHost 12 sGlb [1, err]) := (s.evt_side _ _).trans (State.bbrHost_side _ _ _ _)
  unfold State.refusalNoted DevSt.afterRefusal
  dsimp only
  rw [hnoted.dev]
  split
  · exact (hnoted.withDev .dormant).trans (State.enter_side _ _)
  · exact hnoted

/-- Setting an event bit leaves the others of its page. -/
theorem State.evt_bit_keep (s : State) (slot b : Nat) {i : Nat} (h : bit (s.reg (ra slot 0x008)) i = true) :
    bit ((s.evt slot b).reg (ra slot 0x008)) i = true := by
  have h4 : ra slot 0x004 ≠ ra slot 0x008 := by unfold ra; omega
  rw [State.evt_reg, if_neg h4, if_pos rfl, bit, BitVec.getLsbD_or]
  rw [bit] at h
  rw [h, Bool.true_or]

theorem State.refusalNoted_fail (s : State) (err : Nat) : bit ((s.refusalNoted err).reg (ra sGlb 0x008)) 1 = true := by
  have hglb : ra sGlb 0x008 / 0x400 ≠ sBbr := by decide
  have hset : bit (((s.evt sGlb 1).bbrHost 12 sGlb [1, err]).reg (ra sGlb 0x008)) 1 = true := by
    rw [State.bbrHost_reg_page _ _ _ hglb]
    exact s.evt_bit sGlb (by decide)
  unfold State.refusalNoted
  dsimp only
  split
  · by_cases hd : ((s.evt sGlb 1).bbrHost 12 sGlb [1, err]).dev = .dormant
    · rw [State.enter_same hd]
      exact hset
    · rw [State.enter_ne hd]
      exact State.evt_bit_keep _ _ _ hset
  · exact hset

theorem State.refusalNoted_reg (hglb : a / 0x400 ≠ sGlb) (hbbr : a / 0x400 ≠ sBbr) (err : Nat) :
    (s.refusalNoted err).reg a = s.reg a := by
  have hx : ((s.evt sGlb 1).bbrHost 12 sGlb [1, err]).reg a = s.reg a := by
    rw [State.bbrHost_reg_page _ _ _ hbbr, State.evt_reg_page _ hglb]
  unfold State.refusalNoted
  dsimp only
  split
  · unfold State.enter
    split
    · exact hx
    · rw [State.evt_reg_page _ hglb]
      exact hx
  · exact hx

theorem State.imageOutcome_side (s : State) (n : Nat) :
    Side { s with boot := { s.boot with imageCommit := none } } (s.imageOutcome n) := by
  unfold State.imageOutcome
  split
  · exact (State.setRfld_side _ _ _ _ _ _).trans (State.bbrPush_side _ _ _ _)
  case h_2 h => exact ⟨_, _, _, _, _, by rw [← h]⟩

theorem State.imageOutcome_reg (hsec : a / 0x400 ≠ sSec) (hbbr : a / 0x400 ≠ sBbr) (n : Nat) :
    (s.imageOutcome n).reg a = s.reg a := by
  unfold State.imageOutcome
  split
  · rw [State.bbrPush_reg_page _ _ _ hbbr, State.setRfld_reg_page _ _ _ (by decide) hsec]
    rfl
  · rfl

theorem State.commitRefuse_eq (s : State) (rg tb : List (Nat × Word)) (err addr : Nat) :
    ∃ b, s.commitRefuse rg tb err addr = { ((s.refused rg tb err addr).refusalNoted err).imageOutcome 3 with boot := b } :=
  ⟨_, rfl⟩

/-- A refused commit changes the engine, the staged copies, the device state and what boot firmware notes. -/
theorem State.commitRefuse_side (s : State) (rg tb : List (Nat × Word)) (err addr : Nat) :
    ∃ b, Side { s.refused rg tb err addr with dev := s.dev.afterRefusal, boot := b } (s.commitRefuse rg tb err addr) := by
  obtain ⟨b, hx⟩ := s.commitRefuse_eq rg tb err addr
  have hnoted := State.refusalNoted_side (s.refused rg tb err addr) err
  rw [hx]
  generalize (s.refused rg tb err addr).refusalNoted err = u at hnoted
  have himage := State.imageOutcome_side u 3
  generalize u.imageOutcome 3 = w at himage
  exact ⟨b, (hnoted.withBoot b).trans (himage.withBoot b)⟩

theorem State.commitRefuse_reg (hglb : a / 0x400 ≠ sGlb) (hbbr : a / 0x400 ≠ sBbr) (hsec : a / 0x400 ≠ sSec)
    (rg tb : List (Nat × Word)) (err addr : Nat) : (s.commitRefuse rg tb err addr).reg a = s.reg a := by
  obtain ⟨b, hx⟩ := s.commitRefuse_eq rg tb err addr
  rw [hx]
  exact (State.imageOutcome_reg hsec hbbr 3).trans (State.refusalNoted_reg hglb hbbr err)

theorem State.commitRefuse_fail (s : State) (rg tb : List (Nat × Word)) (err addr : Nat) :
    bit ((s.commitRefuse rg tb err addr).reg (ra sGlb 0x008)) 1 = true := by
  obtain ⟨b, hx⟩ := s.commitRefuse_eq rg tb err addr
  have himage := State.imageOutcome_reg (s := (s.refused rg tb err addr).refusalNoted err) (a := ra sGlb 0x008)
    (by decide) (by decide) 3
  rw [hx]
  exact (congrArg (bit · 1) himage).trans (State.refusalNoted_fail _ _)

/-! ### Validation -/

theorem State.commitValidated_refused (hsnap : s.commit.snapshot = some (rg, tb)) (hat : s.commit.applyAt = none)
    (h : s.validate rg tb = some (err, addr)) : s.commitValidated = s.commitRefuse rg tb err addr := by
  unfold State.commitValidated
  rw [hsnap, hat]
  simp only [h]

theorem State.commitValidated_passed (hsnap : s.commit.snapshot = some (rg, tb)) (hat : s.commit.applyAt = none)
    (h : s.validate rg tb = none) : s.commitValidated = { s with
      clkWait := Sparse.over (rg.filter fun e => decide (e.1 / 0x400 = sClk)) s.clkWait
      loop := { s.loop with comm := true }
      commit := { s.commit with
        applyAt := some (s.now + 4000), snapshot := some (rg.filter fun e => decide (e.1 / 0x400 ≠ sClk), tb) } } := by
  unfold State.commitValidated
  rw [hsnap, hat]
  simp only [h]
  rfl

/-! ### The first failure -/

/-- The failure that is reported is one of the list, at its lowest offset. -/
theorem firstFail_spec (l : List (Nat × Nat)) (h : l ≠ []) :
    ∃ e, firstFail l = some e ∧ e ∈ l ∧ ∀ f ∈ l, e.1 ≤ f.1 := by
  induction l with
  | nil => exact absurd rfl h
  | cons e l ih =>
    rw [firstFail]
    cases hl : firstFail l with
    | none =>
      have hnil : l = [] := by
        by_contra hne
        obtain ⟨f, hf, -⟩ := ih hne
        rw [hl] at hf
        exact absurd hf (by simp)
      subst hnil
      exact ⟨e, rfl, by simp⟩
    | some f =>
      have hne : l ≠ [] := fun h => by
        rw [h] at hl
        exact absurd hl (by simp [firstFail])
      obtain ⟨g, hg, hmem, hmin⟩ := ih hne
      obtain rfl : f = g := Option.some.inj (hl.symm.trans hg)
      dsimp only
      split
      case isTrue hlt => exact ⟨f, rfl, List.mem_cons_of_mem _ hmem, List.forall_mem_cons.2 ⟨Nat.le_of_lt hlt, hmin⟩⟩
      case isFalse hge => exact ⟨e, rfl, List.mem_cons_self, List.forall_mem_cons.2
          ⟨Nat.le_refl _, fun g hg => Nat.le_trans (Nat.not_lt.1 hge) (hmin g hg)⟩⟩

/-- The failing checks of a page. -/
abbrev State.failing (s c : State) (rg : List (Nat × Word)) (k : Nat) (q : PageInfo) : List (Nat × Nat) :=
  reservedFails rg k ++ s.pageFails c q.kind (k - q.first)

/-- The pages of a list are gone through in order, up to the first that fails. -/
theorem State.failIn_first {c : State} (l₁ l₂ : List Nat) (hpage : pageAt slot = some q)
    (hbefore : ∀ k ∈ l₁, ∀ r, pageAt k = some r → s.failing c rg k r = []) {e : Nat × Nat}
    (he : firstFail (s.failing c rg slot q) = some e) : s.failIn c rg (l₁ ++ slot :: l₂) = some (slot, e.1, e.2) := by
  induction l₁ with
  | nil =>
    rw [List.nil_append, State.failIn, hpage]
    dsimp only
    rw [he]
  | cons k l ih =>
    have hrest := ih fun j hj => hbefore j (List.mem_cons_of_mem _ hj)
    rw [List.cons_append, State.failIn]
    cases hk : pageAt k with
    | none => exact hrest
    | some r =>
      dsimp only
      rw [show reservedFails rg k ++ s.pageFails c r.kind (k - r.first) = [] from hbefore k List.mem_cons_self r hk]
      exact hrest

theorem range_split {n m : Nat} (h : n < m) : ∃ l, List.range m = List.range n ++ n :: l := by
  refine ⟨(List.range (m - n - 1)).map (n + 1 + ·), ?_⟩
  obtain ⟨k, rfl⟩ : ∃ k, m = n + (1 + k) := ⟨m - n - 1, by omega⟩
  rw [List.range_add, List.range_add]
  simp [Nat.add_assoc, Function.comp_def]

/-- Every page lies in the list of slots after those below it. -/
theorem allSlots_split (hslot : slot < 401) (hpage : pageAt slot = some q) :
    ∃ l₁ l₂, allSlots = l₁ ++ slot :: l₂ ∧ ∀ k ∈ l₁, k < slot := by
  obtain ⟨l, hl⟩ := range_split hslot
  refine ⟨(List.range slot).filter fun k => (pageAt k).isSome, l.filter fun k => (pageAt k).isSome, ?_, fun k hk => ?_⟩
  · rw [allSlots, hl, List.filter_append, List.filter_cons, hpage]
    rfl
  · exact List.mem_range.1 (List.mem_filter.1 hk).1

theorem State.validate_booting (h : s.dev = .booting) (rg tb : List (Nat × Word)) : s.validate rg tb = some (7, 0) := by
  unfold State.validate
  exact if_pos h

/-- The first page that fails gives the report. -/
theorem State.validate_first (hdev : s.dev ≠ .booting) (hslot : slot < 401) (hpage : pageAt slot = some q)
    (hbefore : ∀ k r, k < slot → pageAt k = some r → s.failing (s.candidate rg tb) rg k r = []) {e : Nat × Nat}
    (he : firstFail (s.failing (s.candidate rg tb) rg slot q) = some e) :
    s.validate rg tb = some (slot * 2 ^ 21 + e.1 * 2 ^ 11 + e.2, 0) := by
  obtain ⟨l₁, l₂, hall, hlt⟩ := allSlots_split hslot hpage
  have hfail := State.failIn_first l₁ l₂ hpage (fun k hk r hr => hbefore k r (hlt k hk) hr) he
  unfold State.validate
  dsimp only
  rw [if_neg hdev, hall, hfail]

/-- Settles O15, by the outcome of validation, which is the first failure of the first page that has one. -/
theorem commitValidation : Obligations.CommitValidation := by
  refine ⟨fun s t rg tb hpow hsnap hat => ⟨fun hpass => ?_, fun err addr hfail => ?_⟩, fun s rg tb => ⟨fun hdev => ?_, ?_⟩⟩
  · have hx := State.commitValidated_passed (s := s.advance t) hsnap hat hpass
    exact (exec_commitValidated t s).trans (command_eq hpow hx (by constructor <;> rfl))
  · have hx := State.commitValidated_refused (s := s.advance t) hsnap hat hfail
    have hbit := (s.advance t).commitRefuse_fail rg tb err addr
    have hreg (a : Nat) (hg : a / 0x400 ≠ sGlb) (hb : a / 0x400 ≠ sBbr) (hs : a / 0x400 ≠ sSec) :=
      State.commitRefuse_reg (s := s.advance t) hg hb hs rg tb err addr
    obtain ⟨b, hside⟩ := (s.advance t).commitRefuse_side rg tb err addr
    generalize (s.advance t).commitRefuse rg tb err addr = y at hx hbit hreg hside
    have hquiet : Quiet (s.advance t)
        { (s.advance t).refused rg tb err addr with dev := (s.advance t).dev.afterRefusal, boot := b } := by
      constructor <;> rfl
    refine ⟨y, (exec_commitValidated t s).trans (command_eq hpow hx (hquiet.trans hside.quiet)), ?_⟩
    obtain ⟨_, _, _, _, _, rfl⟩ := hside
    refine ⟨rfl, rfl, rfl, hbit, rfl, hreg, fun h => if_pos h, fun h => ?_, rfl, rfl, rfl⟩
    by_cases hd : s.dev = .dormant
    · exact (if_pos (.inr hd)).trans hd.symm
    · exact if_neg (not_or.2 ⟨h, hd⟩)
  · exact State.validate_booting hdev rg tb
  · intro hdev slot q hslot hpage hne hbefore
    obtain ⟨⟨off, why⟩, hfirst, hmem, hmin⟩ := firstFail_spec _ hne
    exact ⟨off, why, hmem, hmin, State.validate_first (e := (off, why)) hdev hslot hpage hbefore hfirst⟩

end Sys2Proof.Machine
end

section
/-! Proofs about the DMA channels (18_host_control.md, R352 to R356, R359): tails, messages, descriptors, buffers, vectors. -/

namespace Sys2Proof.Machine

variable {s x : State} {t a off slot ch : Nat} {p : Path} {v : Word} {r : RegInfo} {q : PageInfo}

/-! ### Tails -/

theorem State.posted_within (hhead : (s.dmaCh ch).head < 2 ^ s.ringExp ch) (htail : (s.dmaCh ch).tail < 2 ^ s.ringExp ch) :
    s.posted ch = ((s.dmaCh ch).tail + 2 ^ s.ringExp ch - (s.dmaCh ch).head) % 2 ^ s.ringExp ch := by
  unfold State.posted State.ringSize
  dsimp only
  rw [Nat.mod_eq_of_lt hhead, Nat.mod_eq_of_lt htail]

theorem fld_all {v : Word} (h : v.toNat < 2 ^ 16) : fld v 0 16 = v.toNat := by
  rw [fld, Nat.shiftRight_zero, Nat.mod_eq_of_lt h]

/-- A tail that is an index of the ring and does not pass HEAD. -/
def State.tailGood (s : State) (ch : Nat) (v : Word) : Prop :=
  v.toNat < 2 ^ s.ringExp ch ∧
    ((s.dmaCh ch).tail + 2 ^ s.ringExp ch - (s.dmaCh ch).head) % 2 ^ s.ringExp ch ≤
      (v.toNat + 2 ^ s.ringExp ch - (s.dmaCh ch).head) % 2 ^ s.ringExp ch

theorem State.tailWrite_cond (hv : v.toNat < 2 ^ 16) (hhead : (s.dmaCh ch).head < 2 ^ s.ringExp ch)
    (htail : (s.dmaCh ch).tail < 2 ^ s.ringExp ch) :
    (s.tailGood ch v → s.tailWrite ch v = s.setDma ch { s.dmaCh ch with tail := v.toNat }) ∧
    (¬ s.tailGood ch v → s.tailWrite ch v = s.evt (sDma ch) 2) := by
  unfold State.tailWrite
  dsimp only
  rw [State.posted_within hhead htail, fld_all hv, State.ringSize, Nat.mod_eq_of_lt hhead]
  exact ⟨fun h => if_pos h, fun h => if_neg h⟩

theorem State.hostTail_arrived (hdev : s.dev ≠ .booting) (hporst : s.porst = false) (hbar : s.barrierOn = false)
    (hport : s.portHolds (.tail ch v) = false) : s.hostTail ch v = s.tailWrite ch v := by
  simp [State.hostTail, State.tailArrive, hdev, hporst, hbar, hport]

/-! ### Messages and descriptors -/

theorem State.dmaTake_unfetched (h : (s.dmaCh ch).next = none) : s.dmaTake ch = s := by
  unfold State.dmaTake
  dsimp only
  rw [h]
  split
  case h_1 heq => exact absurd heq (by simp)
  case h_2 => rfl

theorem State.dmaWait_posted (h : 0 < s.posted ch) : s.dmaWait ch = s := by
  have hw : s.waitDesc ch = false := by
    have hne : s.posted ch ≠ 0 := Nat.ne_of_gt h
    simp [State.waitDesc, hne]
  rw [State.dmaWait, hw]
  rfl

/-- A channel with a changed queue has as many descriptors posted. -/
theorem State.posted_setDma {d : Dma} (hhead : d.head = (s.dmaCh ch).head) (htail : d.tail = (s.dmaCh ch).tail) :
    (s.setDma ch d).posted ch = s.posted ch := by
  unfold State.posted
  dsimp only
  rw [State.setDma_same, hhead, htail]
  rfl

theorem State.dmaQueue_cons (hin : s.inReset (sDma ch) = false) {m : Msg} {l : List Msg} (hm : (s.dmaCh ch).handed = m :: l) :
    s.dmaQueue ch =
      let s1 := (s.setDma ch { s.dmaCh ch with handed := l, queue := (s.dmaCh ch).queue ++ [m] }).dmaTake ch
      if (s.dmaCh ch).queue.isEmpty then s1.dmaWait ch else s1 := by
  unfold State.dmaQueue
  rw [hin]
  simp only [Bool.false_eq_true, if_false, hm]

/-- A message joins the queue of a channel that has fetched nothing, where descriptors are posted or others wait before it. -/
theorem State.dmaQueue_joins (hin : s.inReset (sDma ch) = false) (hnext : (s.dmaCh ch).next = none) {m : Msg} {l : List Msg}
    (hm : (s.dmaCh ch).handed = m :: l) (h : (s.dmaCh ch).queue ≠ [] ∨ 0 < s.posted ch) :
    s.dmaQueue ch = s.setDma ch { s.dmaCh ch with handed := l, queue := (s.dmaCh ch).queue ++ [m] } := by
  rw [State.dmaQueue_cons hin hm]
  dsimp only
  rw [State.dmaTake_unfetched (by rw [State.setDma_same]; exact hnext)]
  split
  case isFalse => rfl
  case isTrue hempty =>
    have hposted := h.resolve_left (not_not.2 (List.isEmpty_iff.1 hempty))
    refine State.dmaWait_posted (hposted.trans_eq (Eq.symm ?_))
    exact State.posted_setDma rfl rfl

/-- A channel that may fetch a descriptor. -/
structure State.Fetching (s : State) (ch : Nat) : Prop where
  cur : (s.dmaCh ch).cur = none
  next : (s.dmaCh ch).next = none
  queue : (s.dmaCh ch).queue ≠ []
  posted : 0 < s.posted ch
  halted : s.dmaHalted ch = false
  on : s.pageOn (sDma ch) = true

theorem State.Fetching.mayBegin (h : s.Fetching ch) : s.dmaMayBegin ch = true := by
  have hh := h.halted
  simp only [State.dmaHalted, Bool.or_eq_false_iff] at hh
  obtain ⟨⟨herr, -⟩, hin⟩ := hh
  simp [State.dmaMayBegin, h.on, herr, hin]

theorem State.Fetching.goesOn (h : s.Fetching ch) : ((s.dmaHalted ch || (s.dmaCh ch).next.isSome || (s.dmaCh ch).queue.isEmpty ||
    decide (s.posted ch = 0) || !((s.dmaCh ch).sent.isSome || s.dmaMayBegin ch)) : Bool) = false := by
  have hne : s.posted ch ≠ 0 := Nat.ne_of_gt h.posted
  have hq : (s.dmaCh ch).queue.isEmpty = false := List.isEmpty_eq_false_iff.2 h.queue
  simp [h.halted, h.next, hq, hne, h.mayBegin]

theorem State.Fetching.inReset (h : s.Fetching ch) : s.inReset (sDma ch) = false := by
  have hh := h.halted
  simp only [State.dmaHalted, Bool.or_eq_false_iff] at hh
  exact hh.2

theorem badDesc_iff (addr len : Nat) : badDesc addr len = true ↔
    addr % 64 ≠ 0 ∨ len = 0 ∨ len % 64 ≠ 0 ∨ 16_777_216 < len := by
  simp only [badDesc, Bool.or_eq_true, decide_eq_true_eq, or_assoc]

/-- A fetched descriptor that fits becomes the buffer being filled, and HEAD passes it. -/
theorem State.Fetching.take (h : s.Fetching ch) {addr : Word64} {len : Word} (hgood : badDesc addr.toNat len.toNat = false) :
    s.descFetch ch (.descriptor addr len) =
      (s.setDma ch { s.dmaCh ch with next := some ⟨(s.dmaCh ch).head, addr.toNat, len.toNat⟩ }).setDma ch { s.dmaCh ch with
        cur := some ⟨(s.dmaCh ch).head, addr.toNat, len.toNat⟩, next := none
        head := ((s.dmaCh ch).head + 1) % 2 ^ s.ringExp ch, sent := some ((s.dmaCh ch).sent.getD 0) } := by
  have hq : (s.dmaCh ch).queue.isEmpty = false := List.isEmpty_eq_false_iff.2 h.queue
  have hbegin : (s.setDma ch { s.dmaCh ch with next := some ⟨(s.dmaCh ch).head, addr.toNat, len.toNat⟩ }).dmaMayBegin ch = true := by
    rw [← h.mayBegin]
    unfold State.dmaMayBegin
    rw [State.setDma_same]
    rfl
  have htake (d : Dma) (hcur : d.cur = none) {y : Desc} (hnext : d.next = some y) (hque : d.queue.isEmpty = false)
      (hb : (s.setDma ch d).dmaMayBegin ch = true) : (s.setDma ch d).dmaTake ch = (s.setDma ch d).setDma ch { d with
        cur := some y, next := none, head := (y.idx + 1) % 2 ^ s.ringExp ch, sent := some (d.sent.getD 0) } := by
    unfold State.dmaTake
    dsimp only
    rw [State.setDma_same, hcur, hnext]
    dsimp only
    rw [hque, hb, Bool.or_true]
    rfl
  unfold State.descFetch
  dsimp only
  rw [h.inReset, h.goesOn]
  simp only [hgood, Bool.false_eq_true, if_false]
  exact htake { s.dmaCh ch with next := some ⟨(s.dmaCh ch).head, addr.toNat, len.toNat⟩ } h.cur rfl hq hbegin

/-- A fetch that fails, or gives a bad descriptor, halts the channel. -/
theorem State.Fetching.fail (h : s.Fetching ch) {f : FetchResult}
    (hbad : f = .failed ∨ ∃ a l, f = .descriptor a l ∧ badDesc a.toNat l.toNat = true) : s.descFetch ch f =
      ((s.setDma ch { s.dmaCh ch with error := true }).evt (sDma ch) 1).bbrFault (sDma ch) ch 1 := by
  have hpart : s.dmaPartial ch 2 = s := by
    unfold State.dmaPartial
    simp only [h.cur]
  have hd : ({ s.dmaCh ch with error := true, cur := none } : Dma) = { s.dmaCh ch with error := true } := by rw [← h.cur]
  unfold State.descFetch
  dsimp only
  rw [h.inReset, h.goesOn, hpart, hd]
  obtain rfl | ⟨a, l, rfl, hb⟩ := hbad
  · rfl
  · simp only [hb, if_true, Bool.false_eq_true, if_false]

/-! ### A buffer in which its message ends -/

/-- The last buffer of a measurement record, with a free channel behind it: what a completion starts from. -/
structure State.Ending (s : State) (ch : Nat) (m : Msg) (x : Desc) (n : Nat) : Prop where
  halted : s.dmaHalted ch = false
  queue : (s.dmaCh ch).queue = [m]
  cur : (s.dmaCh ch).cur = some x
  next : (s.dmaCh ch).next = none
  sent : (s.dmaCh ch).sent = some n
  src : ∃ slot owner, m.src = .meas slot owner
  more : m.more = false
  fits : m.body.length - n ≤ x.len

/-- The rest of the message is written, then its completion. -/
def State.written (s : State) (ch : Nat) (m : Msg) (x : Desc) (sent : Nat) : State :=
  (((s.emit (.hostData ch x.addr (m.body.drop sent))).emit (.completion ch x.idx (m.body.length - sent)
    ((if sent = 0 then 1 else 0) + 2 + 256 * m.kind) (s.dmaCh ch).mseq)).setDma ch { s.dmaCh ch with
      cur := none, sent := some (sent + (m.body.length - sent)), done := (s.dmaCh ch).done + 1 }).bump64 (sDma ch) 0x030
    (m.body.length - sent)

theorem State.Ending.write {m : Msg} {y : Desc} {sent : Nat} (h : s.Ending ch m y sent) :
    s.dmaWrite ch (m.body.length - sent) true 0 = s.written ch m y sent := by
  obtain ⟨slot, owner, hsrc⟩ := h.src
  have hstatus : (s.dmaCh ch).status true 0 = (if sent = 0 then 1 else 0) + 2 + 256 * m.kind := by
    unfold Dma.status
    rw [h.queue, h.sent]
    simp only [Option.getD_some, b2n, if_true, decide_eq_true_eq]
    omega
  have htake : (m.body.drop sent).take (m.body.length - sent) = m.body.drop sent := by
    rw [← List.length_drop]
    exact List.take_length
  unfold State.dmaWrite
  simp only [State.written, h.queue, h.cur, hsrc, hstatus, h.sent, Option.getD_some, htake]

/-- The message leaves the queue, and MSEQ and MSGS advance. -/
def State.messageOver (s : State) (ch mseq : Nat) : State :=
  (s.setDma ch { s.dmaCh ch with queue := [], sent := none, mseq := (mseq + 1) % 2 ^ 32 }).bump64 (sDma ch) 0x038 1

/-- The channel's vector message goes out. -/
def State.irqSent (s : State) (ch : Nat) : State :=
  (s.setDma ch { s.dmaCh ch with irqHeld := false, irqAt := some s.now, done := 0 }).emit (.msix ch)

/-- A vector message goes out where IRQ_TIME has passed and STOP is not in force. -/
theorem State.dmaIrq_sent (hdue : ∀ e, (s.dmaCh ch).irqAt = some e → e + (s.reg (ra (sDma ch) 0x020)).toNat * 2000 ≤ s.now)
    (hstop : s.stopOn = false) (hmask : s.msixWord (16 * ch + 12) = 0) : s.dmaIrq ch = s.irqSent ch := by
  have hmask' : ¬ bit (s.msixWord (16 * ch + 12)) 0 = true := by
    rw [hmask]
    decide
  have hsent (d : Dma) : (s.setDma ch d).msix ch = (s.setDma ch d).emit (.msix ch) := State.msix_unmasked hmask'
  unfold State.dmaIrq
  dsimp only
  rw [hstop, State.irqSent, ← hsent]
  refine if_pos ?_
  cases he : (s.dmaCh ch).irqAt with
  | none => rfl
  | some e =>
    dsimp only
    rw [decide_eq_true (hdue e he)]
    rfl

theorem State.written_dmaCh (s : State) (ch : Nat) (m : Msg) (y : Desc) (sent : Nat) :
    (s.written ch m y sent).dmaCh ch = { s.dmaCh ch with
      cur := none, sent := some (sent + (m.body.length - sent)), done := (s.dmaCh ch).done + 1 } :=
  State.setDma_same _ _ _

theorem State.messageOver_dmaCh (s : State) (ch mseq : Nat) : (s.messageOver ch mseq).dmaCh ch =
    { s.dmaCh ch with queue := [], sent := none, mseq := (mseq + 1) % 2 ^ 32 } :=
  State.setDma_same _ _ _

theorem State.irqSent_dmaCh (s : State) (ch : Nat) : (s.irqSent ch).dmaCh ch =
    { s.dmaCh ch with irqHeld := false, irqAt := some s.now, done := 0 } :=
  State.setDma_same _ _ _

theorem State.irqSent_dmaCh_ne {n : Nat} (h : ch ≠ n) : (s.irqSent ch).dmaCh n = s.dmaCh n := State.setDma_ne _ _ h

/-- A completed message, before its vector message. -/
abbrev State.delivered (s : State) (ch : Nat) (m : Msg) (y : Desc) (sent : Nat) : State :=
  (s.written ch m y sent).messageOver ch (s.dmaCh ch).mseq

theorem State.delivered_dmaCh (s : State) (ch : Nat) (m : Msg) (y : Desc) (sent : Nat) :
    (s.delivered ch m y sent).dmaCh ch = { s.dmaCh ch with
      queue := [], cur := none, sent := none, mseq := ((s.dmaCh ch).mseq + 1) % 2 ^ 32, done := (s.dmaCh ch).done + 1 } := by
  rw [State.messageOver_dmaCh, State.written_dmaCh]

/-- A completion differs in the channels, the registers and what has left the block. -/
def DmaSide (s x : State) : Prop := ∃ d r o, x = { s with dma := d, regs := r, out := o }

theorem DmaSide.trans {y : State} (h : DmaSide s x) (k : DmaSide x y) : DmaSide s y := by
  obtain ⟨_, _, _, rfl⟩ := h
  obtain ⟨_, _, _, rfl⟩ := k
  exact ⟨_, _, _, rfl⟩

theorem State.emit_dmaSide (s : State) (o : Output) : DmaSide s (s.emit o) := ⟨_, _, _, rfl⟩

theorem State.setDma_dmaSide (s : State) (ch : Nat) (d : Dma) : DmaSide s (s.setDma ch d) := ⟨_, _, _, rfl⟩

theorem State.bump64_dmaSide (s : State) (slot off k : Nat) : DmaSide s (s.bump64 slot off k) := by
  unfold State.bump64 State.setReg64 State.setReg
  exact ⟨_, _, _, rfl⟩

theorem State.written_dmaSide (s : State) (ch : Nat) (m : Msg) (y : Desc) (sent : Nat) : DmaSide s (s.written ch m y sent) :=
  (((s.emit_dmaSide _).trans (State.emit_dmaSide _ _)).trans (State.setDma_dmaSide _ _ _)).trans (State.bump64_dmaSide _ _ _ _)

theorem State.messageOver_dmaSide (s : State) (ch mseq : Nat) : DmaSide s (s.messageOver ch mseq) :=
  (s.setDma_dmaSide _ _).trans (State.bump64_dmaSide _ _ _ _)

theorem State.irqSent_dmaSide (s : State) (ch : Nat) : DmaSide s (s.irqSent ch) :=
  (s.setDma_dmaSide _ _).trans (State.emit_dmaSide _ _)

theorem DmaSide.quiet (h : DmaSide s x) : Quiet s x := by
  obtain ⟨_, _, _, rfl⟩ := h
  constructor <;> rfl

theorem DmaSide.settled (h : DmaSide s x) (hs : s.Settled) : x.Settled := by
  obtain ⟨_, _, _, rfl⟩ := h
  exact hs.of_eq rfl rfl

theorem State.Ending.complete {m : Msg} {y : Desc} {sent : Nat} (h : s.Ending ch m y sent) (hset : s.Settled)
    (hirq : (s.delivered ch m y sent).dmaIrq ch = (s.delivered ch m y sent).irqSent ch) :
    s.bufComplete ch = (s.delivered ch m y sent).irqSent ch := by
  obtain ⟨slot, owner, hsrc⟩ := h.src
  have hrest : (s.dmaCh ch).rest = m.body.length - sent := by
    unfold Dma.rest
    rw [h.queue, h.sent]
    rfl
  have hmin : min y.len (m.body.length - sent) = m.body.length - sent := Nat.min_eq_right h.fits
  have hlast : (!m.more && decide (m.body.length - sent ≤ y.len)) = true := by rw [h.more, decide_eq_true h.fits]; rfl
  have hside : DmaSide s ((s.delivered ch m y sent).irqSent ch) :=
    ((s.written_dmaSide ch m y sent).trans (State.messageOver_dmaSide _ _ _)).trans (State.irqSent_dmaSide _ _)
  have hchan : ((s.delivered ch m y sent).irqSent ch).dmaCh ch = { s.dmaCh ch with
      queue := [], cur := none, sent := none, mseq := ((s.dmaCh ch).mseq + 1) % 2 ^ 32, done := 0
      irqHeld := false, irqAt := some (s.delivered ch m y sent).now } := by
    rw [State.irqSent_dmaCh, State.delivered_dmaCh]
  have htake : ((s.delivered ch m y sent).irqSent ch).dmaTake ch = (s.delivered ch m y sent).irqSent ch :=
    State.dmaTake_unfetched (by rw [hchan]; exact h.next)
  have hwait : ((s.delivered ch m y sent).irqSent ch).dmaWait ch = (s.delivered ch m y sent).irqSent ch :=
    State.dmaWait_empty (by rw [hchan])
  have hover : ((s.written ch m y sent).setDma ch { (s.written ch m y sent).dmaCh ch with
      queue := [], sent := none, mseq := ((s.dmaCh ch).mseq + 1) % 2 ^ 32 }).bump64 (sDma ch) 0x038 1 = s.delivered ch m y sent := rfl
  have hmore : (decide (m.body.length - sent < y.len) && m.more) = false := by rw [h.more, Bool.and_false]
  have hsettle := State.settle_id (hside.settled hset)
  generalize (s.delivered ch m y sent).irqSent ch = z at hirq htake hwait hsettle
  unfold State.bufComplete
  dsimp only
  rw [h.queue, h.cur]
  dsimp only
  rw [hrest, hmin, hlast, h.halted, hmore, h.write, if_neg (by decide), if_pos rfl, hsrc, hover]
  dsimp only [State.freeSrc, State.dmaIrqDue]
  rw [Bool.true_or, if_pos rfl, hirq, htake, hwait, hsettle]

@[simp] theorem State.advance_dmaCh (s : State) (t n : Nat) : (s.advance t).dmaCh n = s.dmaCh n := rfl

/-! ### Counters beside one another -/

theorem State.bump64_reg {k : Nat} (h : ra slot off ≠ a) (h4 : ra slot (off + 4) ≠ a) : (s.bump64 slot off k).reg a = s.reg a := by
  unfold State.bump64 State.setReg64
  rw [State.setReg_reg_ne _ _ h4, State.setReg_reg_ne _ _ h]

/-- A counter of a page leaves every other pair of the page alone. -/
theorem State.bump64_reg64 {k i : Nat} (h : off + 4 < i ∨ i + 4 < off) :
    (s.bump64 slot off k).reg64 slot i = s.reg64 slot i := by
  have hne {j n : Nat} (hj : j ≠ n) : ra slot j ≠ ra slot n := fun e => hj (Nat.add_left_cancel e)
  unfold State.reg64
  rw [State.bump64_reg (hne (by omega)) (hne (by omega)), State.bump64_reg (hne (by omega)) (hne (by omega))]

theorem State.reg64_congr (h : x.regs = s.regs) (slot off : Nat) : x.reg64 slot off = s.reg64 slot off := by
  unfold State.reg64 State.reg
  rw [h]

/-- The state that a completion's counter starts from. -/
theorem State.written_eq (s : State) (ch : Nat) (m : Msg) (y : Desc) (sent : Nat) : ∃ u, DmaSide s u ∧ u.regs = s.regs ∧
    u.out = .completion ch y.idx (m.body.length - sent) ((if sent = 0 then 1 else 0) + 2 + 256 * m.kind) (s.dmaCh ch).mseq ::
      .hostData ch y.addr (m.body.drop sent) :: s.out ∧ (∀ n, ch ≠ n → u.dmaCh n = s.dmaCh n) ∧
    s.written ch m y sent = u.bump64 (sDma ch) 0x030 (m.body.length - sent) :=
  ⟨_, ((s.emit_dmaSide _).trans (State.emit_dmaSide _ _)).trans (State.setDma_dmaSide _ _ _), rfl, rfl,
    fun _ h => State.setDma_ne _ _ h, rfl⟩

theorem State.bump64_out (s : State) (slot off k : Nat) : (s.bump64 slot off k).out = s.out := by
  unfold State.bump64 State.setReg64
  rfl

theorem State.bump64_dmaCh (s : State) (slot off k n : Nat) : (s.bump64 slot off k).dmaCh n = s.dmaCh n := by
  unfold State.bump64 State.setReg64
  rfl

/-- What a delivered message leaves in what has left the block, in its counters and in the other channels. -/
theorem State.delivered_spec (s : State) (ch : Nat) (m : Msg) (y : Desc) (sent : Nat) :
    (s.delivered ch m y sent).out =
      .completion ch y.idx (m.body.length - sent) ((if sent = 0 then 1 else 0) + 2 + 256 * m.kind) (s.dmaCh ch).mseq ::
        .hostData ch y.addr (m.body.drop sent) :: s.out ∧
    (s.delivered ch m y sent).reg64 (sDma ch) 0x038 = min (s.reg64 (sDma ch) 0x038 + 1) (2 ^ 64 - 1) ∧
    (s.delivered ch m y sent).reg64 (sDma ch) 0x030 = min (s.reg64 (sDma ch) 0x030 + (m.body.length - sent)) (2 ^ 64 - 1) ∧
    (∀ n, ch ≠ n → (s.delivered ch m y sent).dmaCh n = s.dmaCh n) := by
  obtain ⟨u, -, hregs, hout, hother, hw⟩ := s.written_eq ch m y sent
  have hsame (off : Nat) : (s.written ch m y sent).reg64 (sDma ch) off =
    (u.bump64 (sDma ch) 0x030 (m.body.length - sent)).reg64 (sDma ch) off := by rw [hw]
  have hold (w : State) (d : Dma) (off : Nat) : (w.setDma ch d).reg64 (sDma ch) off = w.reg64 (sDma ch) off :=
    State.reg64_congr rfl _ _
  unfold State.delivered State.messageOver
  refine ⟨?_, ?_, ?_, fun n hn => ?_⟩
  · rw [State.bump64_out, State.setDma_out, hw, State.bump64_out, hout]
  · rw [State.reg64_bump64, hold, hsame, State.bump64_reg64 (.inl (by decide)), State.reg64_congr hregs]
  · rw [State.bump64_reg64 (.inr (by decide)), hold, hsame, State.reg64_bump64, State.reg64_congr hregs]
  · rw [State.bump64_dmaCh, State.setDma_ne _ _ hn, hw, State.bump64_dmaCh, hother n hn]

/-- Settles O20, command by command. -/
theorem dmaChannels : Obligations.DmaChannels := by
  refine ⟨fun s t ch hpow hin => ⟨fun v hdev hbar hport hv hhead htail => ⟨fun hgood => ?_, fun hbad => ?_⟩,
    fun hcur hnext => ⟨fun m l hm hq => ?_, fun m l hm hq hposted => ?_, fun hq hposted hhalt hon =>
      ⟨fun a l h0 h1 h2 h3 => ?_, fun f hf => ?_⟩⟩⟩,
    fun s t ch m q y slot owner sent hpow hset => ⟨fun hhalt hstop hq hcur hnext hsent hsrc hmore hfits hgap hmask hlast hirq => ?_,
      fun hdrain hsent => ?_, fun hsent => ?_, fun hheld hstop hdue hmask => ?_, fun hheld => ?_⟩⟩
  · have hx := (State.hostTail_arrived (s := s.advance t) hdev hpow.1 hbar hport).trans
      ((State.tailWrite_cond (s := s.advance t) hv hhead htail).1 hgood)
    exact (exec_tailWrite t ch v s).trans (command_eq hpow hx (State.setDma_quiet _ _ _))
  · have hnot : ¬ (s.advance t).tailGood ch v := fun ⟨h, hle⟩ => hbad.elim (fun hb => Nat.not_lt.2 hb h) fun hb => Nat.not_lt.2 hle hb
    have hx := (State.hostTail_arrived (s := s.advance t) hdev hpow.1 hbar hport).trans
      ((State.tailWrite_cond (s := s.advance t) hv hhead htail).2 hnot)
    exact (exec_tailWrite t ch v s).trans (command_evt hpow hx)
  · have hx := State.dmaQueue_joins (s := s.advance t) hin hnext hm (.inl hq)
    exact (exec_dmaMessageQueued t ch s).trans (command_eq hpow hx (State.setDma_quiet _ _ _))
  · have hx := State.dmaQueue_joins (s := s.advance t) hin hnext hm (.inr hposted)
    have hone : (s.dmaCh ch).queue ++ [m] = [m] := by rw [hq]; rfl
    exact (exec_dmaMessageQueued t ch s).trans (command_eq hpow (hone ▸ hx) (State.setDma_quiet _ _ _))
  · have hfetch : (s.advance t).Fetching ch := ⟨hcur, hnext, hq, hposted, hhalt, hon⟩
    have hgood : badDesc a.toNat l.toNat = false := Bool.eq_false_iff.2 fun h => by
      have := (badDesc_iff _ _).1 h
      omega
    refine ⟨_, (exec_descriptorFetch t ch _ s).trans (command_eq hpow (hfetch.take hgood) ?_), State.setDma_same _ _ _, rfl⟩
    exact (State.setDma_quiet _ _ _).trans (State.setDma_quiet _ _ _)
  · have hfetch : (s.advance t).Fetching ch := ⟨hcur, hnext, hq, hposted, hhalt, hon⟩
    have hbad : f = .failed ∨ ∃ a l, f = .descriptor a l ∧ badDesc a.toNat l.toNat = true :=
      hf.imp_right fun ⟨a, l, he, h⟩ => ⟨a, l, he, (badDesc_iff _ _).2 h⟩
    refine (exec_descriptorFetch t ch _ s).trans (command_eq hpow (hfetch.fail hbad) ?_)
    exact ((State.setDma_quiet _ _ _).trans (State.evt_quiet _ _ _)).trans (State.bbrPush_quiet _ _ _ _)
  · subst hlast
    have hend : (s.advance t).Ending ch m y sent := ⟨hhalt, hq, hcur, hnext, hsent, ⟨_, _, hsrc⟩, hmore, hfits⟩
    have hside : DmaSide (s.advance t) ((s.advance t).delivered ch m y sent) :=
      ((s.advance t).written_dmaSide ch m y sent).trans (State.messageOver_dmaSide _ _ _)
    have hchan := (s.advance t).delivered_dmaCh ch m y sent
    have hstand : ((s.advance t).delivered ch m y sent).reg (ra (sDma ch) 0x020) = s.reg (ra (sDma ch) 0x020) := by
      rw [State.delivered, State.messageOver, State.bump64_reg (by unfold ra; omega) (by unfold ra; omega), State.setDma_reg,
        State.written, State.bump64_reg (by unfold ra; omega) (by unfold ra; omega)]
      rfl
    have hframe : ((s.advance t).delivered ch m y sent).now = max s.now t ∧
        ((s.advance t).delivered ch m y sent).stopOn = false ∧
        ((s.advance t).delivered ch m y sent).msixWord (16 * ch + 12) = 0 := by
      obtain ⟨_, _, _, h⟩ := hside
      exact ⟨(congrArg State.now h).trans rfl, (congrArg State.stopOn h).trans hstop,
        (congrArg (State.msixWord · (16 * ch + 12)) h).trans hmask⟩
    obtain ⟨hnow, hon, hword⟩ := hframe
    obtain ⟨hout, hmsgs, hbytes, hothers⟩ := (s.advance t).delivered_spec ch m y sent
    have hvector : ((s.advance t).delivered ch m y sent).dmaIrq ch = ((s.advance t).delivered ch m y sent).irqSent ch := by
      refine State.dmaIrq_sent (fun e he => ?_) hon hword
      rw [hstand, hgap, hnow]
      rw [hchan] at he
      exact hirq e he
    have hx := hend.complete (hset.of_eq rfl rfl) hvector
    have hdone := ((s.advance t).delivered ch m y sent).irqSent_dmaCh ch
    rw [hchan] at hdone
    have hside' := hside.trans (State.irqSent_dmaSide ((s.advance t).delivered ch m y sent) ch)
    have hregs : (((s.advance t).delivered ch m y sent).irqSent ch).regs = ((s.advance t).delivered ch m y sent).regs := rfl
    have hfirst : (((s.advance t).delivered ch m y sent).irqSent ch).out = .msix ch :: ((s.advance t).delivered ch m y sent).out := rfl
    have hrest (n : Nat) (hn : n ≠ ch.val) : (((s.advance t).delivered ch m y sent).irqSent ch).dmaCh n = s.dmaCh n :=
      (State.irqSent_dmaCh_ne (Ne.symm hn)).trans (hothers n (Ne.symm hn))
    have hquiet := hside'.quiet
    rw [← State.reg64_congr hregs] at hmsgs hbytes
    rw [hout] at hfirst
    generalize ((s.advance t).delivered ch m y sent).irqSent ch = z at hx hdone hside' hfirst hrest hquiet hmsgs hbytes
    refine ⟨z, (exec_bufferComplete t ch s).trans (command_eq hpow hx hquiet), hfirst, ?_⟩
    rw [hdone]
    obtain ⟨_, _, _, rfl⟩ := hside'
    exact ⟨rfl, rfl, rfl, rfl, rfl, rfl, hmsgs, hbytes, hrest, rfl⟩
  · refine (exec_dmaDisableDone t ch s).trans (command_eq hpow ?_ (State.setDma_quiet _ _ _))
    refine if_pos ?_
    rw [State.advance_dmaCh, hdrain, hsent]
    rfl
  · refine (exec_dmaDisableDone t ch s).trans (command_eq hpow ?_ (Quiet.refl _))
    refine if_neg ?_
    rw [State.advance_dmaCh, Option.isNone_eq_false_iff.2 (Option.isSome_iff_ne_none.2 hsent), Bool.and_false]
    exact Bool.false_ne_true
  · have hx : (s.advance t).irqExpire ch = (s.advance t).irqSent ch :=
      (if_pos hheld).trans (State.dmaIrq_sent (s := s.advance t) hdue hstop hmask)
    exact (exec_irqTimeExpire t ch s).trans (command_eq hpow hx (State.irqSent_dmaSide _ _).quiet)
  · refine (exec_irqTimeExpire t ch s).trans (command_eq hpow (if_neg ?_) (Quiet.refl _))
    rw [State.advance_dmaCh, hheld]
    exact Bool.false_ne_true

end Sys2Proof.Machine
end

section
/-! Proofs about PORST_N and PERST (19_startup_power_and_black_box.md, R365, R366, R381): what a device in reset does, what
each of the two resets leaves. -/

namespace Sys2Proof.Machine

variable {s x : State} {t a off slot ch : Nat} {p : Path} {v : Word} {r : RegInfo} {q : PageInfo}

/-! ### A command in reset -/

/-- PORST_N after an outcome; where there is no next state it is as it was. -/
def porstAfter (s : State) : Host.Outcome State Fault Refusal → Bool
  | .next x => x.porst
  | _ => s.porst

theorem porstAfter_commandEpoch (t : Nat) (o : State → Nat × Nat) (f : State → State) (s : State) :
    porstAfter s (commandEpoch t o f s) = s.porst := by
  unfold commandEpoch
  split
  · rfl
  · rfl

/-- The wrapper of every command keeps PORST_N, but for the two commands of the pin itself. -/
theorem porstAfter_exec (c : Instr) (s : State) :
    porstAfter s (exec c s) = s.porst ∨ (∃ t, c = .porstAssert t) ∨ ∃ t b, c = .porstRelease t b := by
  cases c with
  | porstAssert t => exact .inr (.inl ⟨t, rfl⟩)
  | porstRelease t b => exact .inr (.inr ⟨t, b, rfl⟩)
  | solstice t => exact .inl (porstAfter_commandEpoch t State.solOrigin State.solstice s)
  | wrap t => exact .inl (porstAfter_commandEpoch t State.wrapOrigin State.wrap s)
  | _ => exact .inl rfl

/-- Only PORST_RELEASE behaves as a release does. -/
theorem eq_porstRelease {c : Instr} {b : Bool} (h : ∀ s, exec c s = commandReset t (fun s => s.porstRelease b) s) :
    ∃ t b, c = .porstRelease t b := by
  have hfree : porstAfter State.reset (exec c State.reset) = false := by
    rw [h]
    rfl
  obtain hkeep | ⟨u, rfl⟩ | hc := porstAfter_exec c State.reset
  · exact absurd (hfree.symm.trans hkeep) (by decide)
  · have hkeep : porstAfter State.reset (exec (.porstAssert u) State.reset) = true := rfl
    exact absurd (hkeep.symm.trans hfree) (by decide)
  · exact hc

/-- In reset a command passes time and nothing else. -/
theorem command_reset (h : s.porst = true) (hlog : s.flagsOk) (t : Nat) (f : State → State) :
    command t f s = .next (s.advance t) := by
  have hnote : (s.advance t).noteFlags = s.advance t := State.noteFlags_id hlog
  rw [command, if_pos h, hnote]
  rfl

theorem commandReset_porstAssert (h : s.porst = true) (t : Nat) : commandReset t State.porstAssert s = .next (s.advance t) := by
  have hx : (s.advance t).porstAssert = s.advance t := if_pos h
  rw [commandReset, hx]
  rfl

/-- Every command but the release. -/
theorem exec_reset (h : s.porst = true) (hlog : s.flagsOk) {c : Instr} (hc : ∀ t b, c ≠ .porstRelease t b) :
    ∃ t, exec c s = .next (s.advance t) := by
  obtain ⟨t, f, hx⟩ | ⟨t, hx⟩ | ⟨t, hx⟩ | ⟨t, hx⟩ | ⟨t, b, hx⟩ := exec_shape c
  · exact ⟨t, (hx s).trans (command_reset h hlog t f)⟩
  · exact ⟨t, (hx s).trans ((if_pos h).trans (command_reset h hlog t _))⟩
  · exact ⟨t, (hx s).trans ((if_pos h).trans (command_reset h hlog t _))⟩
  · exact ⟨t, (hx s).trans (commandReset_porstAssert h t)⟩
  · obtain ⟨u, b, rfl⟩ := eq_porstRelease hx
    exact absurd rfl (hc u b)

/-! ### PORST_N goes low -/

theorem exec_porstAssert_eq (h : s.porst = false) (t : Nat) : exec (.porstAssert t) s = .next (s.advance t).inPorst := by
  have hx : (s.advance t).porstAssert = (s.advance t).inPorst := if_neg (by rw [State.advance_porst, h]; decide)
  rw [exec_porstAssert, commandReset, hx]
  rfl

theorem State.tornNvm_idle (hbusy : s.svc.busy = false) (hstore : s.cal.storing = none) : s.tornNvm = s.nvm := by
  unfold State.tornNvm
  simp only [hstore, hbusy, Bool.false_eq_true, false_and, if_false]
  split <;> rfl

theorem State.tornBbr_idle (hclear : s.bbr.clearing = false) (herase : s.bbr.erasing = none) (hqueue : s.bbr.queue = []) :
    s.tornBbr = s.bbr.slots := by
  unfold State.tornBbr
  simp only [hclear, herase, hqueue, Bool.false_eq_true, if_false]

theorem State.idleOut_low (hsync : s.sol.syncOut = false) (hlow : ∀ e ∈ s.touts, e.2.high = false) : s.idleOut = s.out := by
  have hnone : (s.touts.filter fun e => e.2.high) = [] := List.filter_eq_nil_iff.2 fun e he => by rw [hlow e he]; decide
  unfold State.idleOut
  rw [hsync, hnone]
  rfl

/-- An output that was high goes low. -/
theorem State.idleOut_high {n : Nat} {c : Tout} (hmem : (n, c) ∈ s.touts) (hhigh : c.high = true) :
    Output.toutBall n false s.now 0 ∈ s.idleOut := by
  refine List.mem_append_left _ (List.mem_append_right _ ?_)
  exact List.mem_map.2 ⟨(n, c), List.mem_filter.2 ⟨hmem, hhigh⟩, rfl⟩

/-! ### PORST_N is released -/

/-- What a release leaves of a device that was in reset. -/
theorem State.porstRelease_spec (h : s.porst = true) (hreset : s.resetHeld) (strap : Bool) :
    let x := s.porstRelease strap
    x.porst = false ∧ x.now = 0 ∧ x.dev = .booting ∧ x.nvm = { s.nvm with boots := min (s.nvm.boots + 1) (2 ^ 32 - 1) } ∧
    x.reg (ra sSec 0x014) = BitVec.ofNat 32
      ((if strap = true ∨ s.nvm.fuse = true then 1 else 0) + (if s.nvm.fuse then 2 else 0) + if strap then 4 else 0) ∧
    (∀ a, a ≠ ra sSec 0x014 → a ≠ ra sSeq 0x014 → x.reg a = regReset a) ∧ x.epoch = 0 := by
  have hdev : s.dev = .booting := by rw [hreset h]; rfl
  have hregs : s.regs = [] := by rw [hreset h]; rfl
  have hreg (a : Nat) : s.reg a = regReset a := by rw [State.reg, hregs]; rfl
  unfold State.porstRelease
  rw [if_pos h]
  refine ⟨rfl, rfl, hdev, rfl, ?_, fun a h1 h2 => ?_, ?_⟩
  · rw [State.setRegN, State.setReg_reg_ne _ _ (by decide), State.setRegN, State.setReg_reg_same]
    cases strap <;> cases s.nvm.fuse <;> rfl
  · rw [State.setRegN, State.setReg_reg_ne _ _ (Ne.symm h2), State.setRegN, State.setReg_reg_ne _ _ (Ne.symm h1)]
    exact hreg a
  · show ((0 - _) * 2000) % 2 ^ 64 = 0
    rw [Nat.zero_sub]
    rfl

/-! ### PERST -/

/-- A state differs from another at most in what page resets of idle DMA channels touch. -/
def PortSide (s x : State) : Prop :=
  ∃ l g r e p o b, x = { s with resetting := l, staged := g, regs := r, evtAt := e, pba := p, out := o, bbr := b }

theorem PortSide.refl (s : State) : PortSide s s := ⟨_, _, _, _, _, _, _, rfl⟩

theorem PortSide.trans {y : State} (h : PortSide s x) (k : PortSide x y) : PortSide s y := by
  obtain ⟨_, _, _, _, _, _, _, rfl⟩ := h
  obtain ⟨_, _, _, _, _, _, _, rfl⟩ := k
  exact ⟨_, _, _, _, _, _, _, rfl⟩

theorem Side.portSide (h : Side s x) : PortSide s x := by
  obtain ⟨_, _, _, _, _, rfl⟩ := h
  exact ⟨_, _, _, _, _, _, _, rfl⟩

theorem PortSide.quiet (h : PortSide s x) : Quiet s x := by
  obtain ⟨_, _, _, _, _, _, _, rfl⟩ := h
  constructor <;> rfl

theorem PortSide.dma (h : PortSide s x) : x.dma = s.dma := by
  obtain ⟨_, _, _, _, _, _, _, rfl⟩ := h
  rfl

theorem PortSide.settled (h : PortSide s x) (hs : s.Settled) : x.Settled := by
  obtain ⟨_, _, _, _, _, _, _, rfl⟩ := h
  exact hs.of_eq rfl rfl

/-- The page of the DMA channels. -/
def dmaPage : PageInfo := ⟨.dma, 320, 64, 0x16, false, 18⟩

theorem pageAt_sDma : ∀ n < 64, pageAt (sDma n) = some dmaPage := by decide +kernel

/-- A DMA page in reset, with its generation advanced and ENABLE cleared. -/
def State.dmaBegun (s : State) (n : Nat) : State :=
  (s.resetBegun (sDma n)).setRfld (sDma n) 0x010 1 1 0

theorem State.resetBegun_portSide (s : State) (slot : Nat) : PortSide s (s.resetBegun slot) :=
  PortSide.trans ⟨_, _, _, _, _, _, _, rfl⟩ (s.resetBegun_side slot).portSide

theorem State.dmaBegun_portSide (s : State) (n : Nat) : PortSide s (s.dmaBegun n) :=
  (s.resetBegun_portSide _).trans (State.setRfld_side _ _ _ _ _ _).portSide

theorem State.dmaCh_none (h : s.dma = []) (n : Nat) : s.dmaCh n = {} := by
  rw [State.dmaCh, h]
  rfl

theorem State.setDma_none (h : s.dma = []) (n : Nat) : s.setDma n {} = s := by
  have hset : Sparse.set ({} : Dma) s.dma n {} = s.dma := by
    rw [h]
    rfl
  rw [State.setDma, hset]

/-- A channel with no message gives up nothing but its ENABLE. -/
theorem State.dmaReset_idle (h : s.dma = []) (hset : s.Settled) (n : Nat) :
    s.dmaReset n = s.setRfld (sDma n) 0x010 1 1 0 := by
  have hd := State.dmaCh_none h n
  have hpart : s.dmaPartial n 1 = s := by
    unfold State.dmaPartial
    rw [hd]
  unfold State.dmaReset
  rw [hpart]
  dsimp only
  rw [hd]
  dsimp only
  rw [hd]
  show ((s.setDma n {}).setRfld (sDma n) 0x010 1 1 0).settle = _
  rw [State.setDma_none h]
  exact State.settle_id ((State.setRfld_side s _ _ _ _ _).portSide.settled hset)

theorem State.pageReset_dma (h : s.dma = []) (hset : s.Settled) {n : Nat} (hn : n < 64) (hin : s.inReset (sDma n) = false) :
    s.pageReset (sDma n) = (s.dmaBegun n).bbrHost 14 (sDma n) [sDma n, (s.gen (sDma n) + 1) % 16] := by
  have hpage := pageAt_sDma n hn
  have hindex : sDma n - dmaPage.first = n := Nat.add_sub_cancel_left 320 n
  have hside := s.resetBegun_portSide (sDma n)
  have hown : (s.resetBegun (sDma n)).resetOwn .dma n = s.dmaBegun n :=
    State.dmaReset_idle (hside.dma.trans h) (hside.settled hset) n
  unfold State.pageReset
  rw [hpage]
  simp only [hin, Bool.false_eq_true, if_false, hindex]
  rw [← hown]
  rfl

theorem State.dmaBegun_inReset (s : State) (n : Nat) (slot : Nat) :
    (s.dmaBegun n).inReset slot = (decide (slot = sDma n) || s.inReset slot) := by
  show (sDma n :: s.resetting).contains slot = _
  rw [List.contains_cons]
  rfl

theorem Side.inReset (h : Side s x) (slot : Nat) : x.inReset slot = s.inReset slot := by
  unfold State.inReset
  rw [h.resetting]

theorem State.pageOn_congr (h : x.reg (ra slot 0x010) = s.reg (ra slot 0x010)) : x.pageOn slot = s.pageOn slot := by
  rw [State.pageOn, State.rbit, h, State.pageOn, State.rbit]

theorem State.bbrHost_pageOn (h : slot ≠ sBbr) (code sl : Nat) (data : List Nat) :
    (s.bbrHost code sl data).pageOn slot = s.pageOn slot :=
  State.pageOn_congr (State.bbrHost_reg_page _ _ _ (by rw [ra_div slot _ (by decide)]; exact h))

theorem sDma_ne_sBbr (n : Nat) : sDma n ≠ sBbr := by unfold sDma sBbr; omega

/-- The reset of one idle channel: its page is in reset and off, and no other page changes. -/
theorem State.pageReset_dma_spec (h : s.dma = []) (hset : s.Settled) {n : Nat} (hn : n < 64) (hin : s.inReset (sDma n) = false) :
    PortSide s (s.pageReset (sDma n)) ∧
    (s.pageReset (sDma n)).inReset (sDma n) = true ∧ (s.pageReset (sDma n)).pageOn (sDma n) = false ∧
    ∀ k, k ≠ n → (s.pageReset (sDma n)).inReset (sDma k) = s.inReset (sDma k) ∧
      (s.pageReset (sDma n)).pageOn (sDma k) = s.pageOn (sDma k) := by
  have hhost := State.bbrHost_side (s.dmaBegun n) 14 (sDma n) [sDma n, (s.gen (sDma n) + 1) % 16]
  have hreg (k : Nat) := State.bbrHost_pageOn (s := s.dmaBegun n) (sDma_ne_sBbr k) 14 (sDma n) [sDma n, (s.gen (sDma n) + 1) % 16]
  rw [State.pageReset_dma h hset hn hin]
  refine ⟨(s.dmaBegun_portSide n).trans hhost.portSide, ?_, ?_, fun k hk => ⟨?_, ?_⟩⟩
  · rw [hhost.inReset, State.dmaBegun_inReset, decide_eq_true rfl, Bool.true_or]
  · rw [hreg]
    exact State.setRfld_pageOn _ _ false
  · have hne : sDma k ≠ sDma n := fun e => hk (Nat.add_left_cancel e)
    rw [hhost.inReset, State.dmaBegun_inReset, decide_eq_false hne, Bool.false_or]
  · rw [hreg]
    refine State.pageOn_congr ?_
    have hpage : ra (sDma k) 0x010 / 0x400 ≠ sDma n := by
      rw [ra_div _ _ (by decide)]
      exact fun e => hk (Nat.add_left_cancel e)
    rw [State.dmaBegun, State.setRfld_reg_page _ _ _ (by decide) hpage, State.resetBegun_reg (ra_ne_of_off _ _ (by decide) (by decide) (by decide))]

/-- The channels of a list are reset one after another. -/
theorem State.each_pageReset_dma (l : List Nat) (hl : l.Nodup) (hlt : ∀ n ∈ l, n < 64) (h : s.dma = []) (hset : s.Settled)
    (hin : ∀ n ∈ l, s.inReset (sDma n) = false) :
    let x := s.each l fun s n => s.pageReset (sDma n)
    PortSide s x ∧ (∀ n ∈ l, x.inReset (sDma n) = true ∧ x.pageOn (sDma n) = false) ∧
      ∀ k, k ∉ l → x.inReset (sDma k) = s.inReset (sDma k) ∧ x.pageOn (sDma k) = s.pageOn (sDma k) := by
  induction l generalizing s with
  | nil => exact ⟨PortSide.refl s, fun n hn => absurd hn (List.not_mem_nil), fun _ _ => ⟨rfl, rfl⟩⟩
  | cons n l ih =>
    obtain ⟨hn, hl⟩ := List.nodup_cons.1 hl
    obtain ⟨hside, hreset, hoff, hothers⟩ := State.pageReset_dma_spec h hset (hlt n List.mem_cons_self) (hin n List.mem_cons_self)
    have hfree (k : Nat) (hk : k ∈ l) : (s.pageReset (sDma n)).inReset (sDma k) = false :=
      (hothers k fun e => hn (e ▸ hk)).1.trans (hin k (List.mem_cons_of_mem _ hk))
    obtain ⟨hside', hdone, hrest⟩ := ih hl (fun k hk => hlt k (List.mem_cons_of_mem _ hk)) (hside.dma.trans h)
      (hside.settled hset) hfree
    rw [State.each_cons]
    refine ⟨hside.trans hside', fun k hk => ?_, fun k hk => ?_⟩
    · obtain rfl | hk := List.mem_cons.1 hk
      · exact ⟨(hrest k hn).1.trans hreset, (hrest k hn).2.trans hoff⟩
      · exact hdone k hk
    · obtain ⟨hkn, hkl⟩ := not_or.1 (mt List.mem_cons.2 hk)
      exact ⟨(hrest k hkl).1.trans (hothers k hkn).1, (hrest k hkl).2.trans (hothers k hkn).2⟩

/-- No other table overlaps the interrupt routing table. -/
theorem tabs_routing : ∀ i ∈ tabs, i.tab = .route ∨ i.base + i.size ≤ 0x0021_4000 ∨ 0x0021_4400 ≤ i.base := by decide

/-- The interrupt routing table reads 0 where nothing is listed. -/
theorem tabReset_routing (h : isRouting off = true) : tabReset off = 0 := by
  simp only [isRouting, Bool.and_eq_true, decide_eq_true_eq] at h
  unfold tabReset
  cases htab : tabAt off with
  | none => rfl
  | some i =>
    have hfound := List.find?_some htab
    simp only [Bool.and_eq_true, decide_eq_true_eq] at hfound
    have hroute : i.tab = .route := (tabs_routing i (List.mem_of_find?_eq_some htab)).resolve_right (by omega)
    dsimp only
    rw [hroute]
    rfl

/-- An entry under a key that a filter keeps. -/
theorem get_filter_kept {α : Type} (d : α) (f : Nat → Bool) (l : List (Nat × α)) {k : Nat} (h : f k = true) :
    Sparse.get d (l.filter fun e => f e.1) k = Sparse.get d l k := by
  induction l with
  | nil => rfl
  | cons e l ih =>
    obtain ⟨b, w⟩ := e
    rw [List.filter_cons]
    split
    case isTrue => rw [Sparse.get, Sparse.get, ih]
    case isFalse hb =>
      have hne : b ≠ k := fun e => hb (e ▸ h)
      rw [ih, Sparse.get, if_neg hne]

theorem State.tabClear_tabw (s : State) (f : Nat → Bool) (off : Nat) :
    (s.tabClear f).tabw off = if f off then tabReset off else s.tabw off := by
  cases hf : f off with
  | true => exact get_filter_dropped _ (fun k => !f k) s.tab (by rw [hf]; rfl)
  | false => exact get_filter_kept _ (fun k => !f k) s.tab (by rw [hf]; rfl)

/-- The DMA channels reset, and the routing table with them. -/
def State.portDown (s : State) : State := (s.each (List.range 64) fun s n => s.pageReset (sDma n)).tabClear isRouting

/-- What PERST leaves where no channel has a message. -/
theorem State.perst_eq (hdev : s.dev ≠ .booting) : s.perst = { s.portDown with
    msixTable := [], pba := []
    held := s.portDown.held.filter fun x => !x.pcie, behind := s.portDown.behind.filter fun x => !x.pcie
    commit := { s.portDown.commit with early := ((s.portDown.held.take s.portDown.commit.early).filter fun x => !x.pcie).length } } :=
  if_neg hdev

/-- Settles O21: a command in reset, the two edges of PORST_N, and PERST. -/
theorem resets : Obligations.Resets := by
  refine ⟨fun c s hporst hlog hc => ?_, fun s t strap => ⟨fun hporst => ?_, fun hporst hreset => ?_, fun hporst => ?_⟩,
    fun s t hpow => ⟨fun hdev => ?_, fun hdev hdma hresetting hset => ?_⟩⟩
  · obtain ⟨t, hx⟩ := exec_reset hporst hlog hc
    exact ⟨max s.now t, Nat.le_max_left _ _, hx⟩
  · refine ⟨_, exec_porstAssert_eq hporst t, rfl, fun hbusy hstore => ?_, fun hclear herase hqueue => ?_, fun hsync hlow => ?_,
      fun n hmem hhigh => ?_⟩
    · exact State.tornNvm_idle (s := s.advance t) hbusy hstore
    · exact State.tornBbr_idle (s := s.advance t) hclear herase hqueue
    · exact State.idleOut_low (s := s.advance t) hsync hlow
    · have hlow := State.idleOut_high (s := s.advance t) hmem hhigh
      rwa [State.advance_now, Nat.cast_max] at hlow
  · have hheld : (s.advance t).resetHeld := fun h => by
      have hs := hreset h
      unfold State.atReset at hs ⊢
      rw [State.advance, hs]
    obtain ⟨hp, hn, hd, hnvm, hsec, hreg, hepoch⟩ := State.porstRelease_spec (s := s.advance t) hporst hheld strap
    exact ⟨_, rfl, hp, hn, hd, hnvm, hsec, hreg, hepoch, rfl⟩
  · have hx : (s.advance t).porstRelease strap = s.advance t := if_neg (by rw [State.advance_porst, hporst]; decide)
    rw [exec_porstRelease, commandReset, hx]
    rfl
  · exact (exec_pciePerst t s).trans (command_eq hpow (if_pos hdev) (Quiet.refl _))
  · have hnone (n : Nat) : (s.advance t).inReset (sDma n) = false := by
      show s.resetting.contains _ = false
      rw [hresetting]
      rfl
    obtain ⟨hside, hdone, -⟩ := State.each_pageReset_dma (s := s.advance t) (List.range 64) List.nodup_range
      (fun n hn => List.mem_range.1 hn) hdma (hset.of_eq rfl rfl) fun n _ => hnone n
    have hx := State.perst_eq (s := s.advance t) hdev
    unfold State.portDown at hx
    generalize (s.advance t).each (List.range 64) (fun s n => s.pageReset (sDma n)) = u at hx hside hdone
    have htab := State.tabClear_tabw u isRouting
    have hchan (n : Nat) := State.dmaCh_none (hside.dma.trans hdma) n
    obtain ⟨_, _, _, _, _, _, _, rfl⟩ := hside
    refine ⟨_, (exec_pciePerst t s).trans (command_eq hpow hx (by constructor <;> rfl)), fun n hn => ?_, rfl, rfl, rfl, rfl, rfl, rfl,
      fun off => (htab off).trans ?_, rfl, rfl, rfl, rfl⟩
    · obtain ⟨hin, hon⟩ := hdone n (List.mem_range.2 hn)
      exact ⟨hin, hon, congrArg Dma.head (hchan n), congrArg Dma.tail (hchan n)⟩
    · split
      case isTrue h => exact tabReset_routing h
      case isFalse => rfl

end Sys2Proof.Machine
end

section
/-! Proofs about the stages of boot (19_startup_power_and_black_box.md, R367 to R369, R377). -/

namespace Sys2Proof.Machine

variable {s x : State} {t a off slot ch : Nat} {p : Path} {v : Word} {r : RegInfo} {q : PageInfo}

/-! ### Firmware -/

theorem State.fwFail_le (s : State) (k : Nat) : s.fwFail k ≤ 4 := by
  have hmod := Nat.mod_lt (Config.freeNat (s.freeCtr + k)) (show 0 < 3 by decide)
  unfold State.fwFail
  dsimp only
  split
  · exact Nat.zero_le _
  · split
    · omega
    · split
      · decide
      · split
        · decide
        · split
          · decide
          · split
            · decide
            · decide

/-- The firmware that runs: copy 0 or 1, or 2 for recovery (R368, R369). -/
def State.fwRun (s : State) : Nat :=
  if s.fwFail 0 = 0 ∧ s.fwFail 1 = 0 then b2n (seqAbove (s.fwSeq 1) (s.fwSeq 0))
  else if s.fwFail 0 = 0 then 0 else if s.fwFail 1 = 0 then 1 else 2

theorem b2n_le (b : Bool) : b2n b ≤ 1 := by cases b <;> decide

theorem State.fwRun_le (s : State) : s.fwRun ≤ 2 := by
  have hb := b2n_le (seqAbove (s.fwSeq 1) (s.fwSeq 0))
  unfold State.fwRun
  split
  · omega
  · split
    · decide
    · split <;> decide

/-- The firmware that runs, by the validity of the two copies. -/
theorem State.fwRun_spec (s : State) :
    (s.fwFail 0 = 0 → s.fwFail 1 ≠ 0 → s.fwRun = 0) ∧ (s.fwFail 0 ≠ 0 → s.fwFail 1 = 0 → s.fwRun = 1) ∧
    (s.fwFail 0 = 0 → s.fwFail 1 = 0 → s.fwRun = if seqAbove (s.fwSeq 1) (s.fwSeq 0) then 1 else 0) ∧
    (s.fwFail 0 ≠ 0 → s.fwFail 1 ≠ 0 → s.fwRun = 2) := by
  unfold State.fwRun
  refine ⟨fun h h' => ?_, fun h h' => ?_, fun h h' => ?_, fun h h' => ?_⟩
  · rw [if_neg fun hb => h' hb.2, if_pos h]
  · rw [if_neg fun hb => h hb.1, if_neg h, if_pos h']
  · rw [if_pos ⟨h, h'⟩]
    rfl
  · rw [if_neg fun hb => h hb.1, if_neg h, if_neg h']

/-- The state that runs the firmware, before it is shown. -/
def State.fwTaken (s : State) : State :=
  { s with
    boot := { s.boot with fwLoaded := true, recovery := decide (s.fwRun = 2) }, freeCtr := s.freeCtr + 2
    commit := if s.fwRun = 2 then { s.commit with busy := true } else s.commit }

/-- What `SEC.BOOT`, `FW_VERSION` and `NONCE` show of it. -/
def State.fwShown (s : State) : State :=
  ((s.fwTaken.setRegN sSec 0x020 (s.fwRun + s.fwFail 0 * 4 + s.fwFail 1 * 32)).setRegN sSec 0x024
    (if s.fwRun = 2 then 0 else s.fwVersion s.fwRun)).setReg (ra sSec 0x034) (Config.nonce s.nvm.nonceN)

theorem State.fwLoad_eq (hdev : s.dev = .booting) (hporst : s.porst = false) (hload : s.boot.fwLoaded = false) :
    s.fwLoad = s.fwShown := by
  unfold State.fwLoad
  rw [if_pos (by rw [hporst, hload]; exact ⟨hdev, rfl, rfl⟩)]
  rfl

theorem State.fwShown_boot (s : State) (lo w : Nat) :
    s.fwShown.rfld sSec 0x020 lo w = fld (BitVec.ofNat 32 (s.fwRun + s.fwFail 0 * 4 + s.fwFail 1 * 32)) lo w := by
  have h20 : ra sSec 0x034 ≠ ra sSec 0x020 := by decide
  have h24 : ra sSec 0x024 ≠ ra sSec 0x020 := by decide
  rw [State.rfld, State.fwShown, State.setReg_reg_ne _ _ h20, State.setRegN, State.setReg_reg_ne _ _ h24, State.setRegN,
    State.setReg_reg_same]

theorem State.fwShown_version (s : State) :
    s.fwShown.reg (ra sSec 0x024) = BitVec.ofNat 32 (if s.fwRun = 2 then 0 else s.fwVersion s.fwRun) := by
  have h34 : ra sSec 0x034 ≠ ra sSec 0x024 := by decide
  rw [State.fwShown, State.setReg_reg_ne _ _ h34, State.setRegN, State.setReg_reg_same]

/-- The three fields of `SEC.BOOT` do not overlap. -/
theorem fld_boot {run fa fb : Nat} (hr : run ≤ 2) (ha : fa ≤ 4) (hb : fb ≤ 4) :
    fld (BitVec.ofNat 32 (run + fa * 4 + fb * 32)) 0 2 = run ∧ fld (BitVec.ofNat 32 (run + fa * 4 + fb * 32)) 2 3 = fa ∧
    fld (BitVec.ofNat 32 (run + fa * 4 + fb * 32)) 5 3 = fb := by
  simp only [fld, BitVec.toNat_ofNat, Nat.shiftRight_eq_div_pow]
  omega

theorem State.fwShown_regs (s : State) : ∃ m, s.fwShown = { s.fwTaken with regs := m } := by
  unfold State.fwShown State.setRegN State.setReg
  exact ⟨_, rfl⟩

/-! ### The patch image -/

theorem State.patchCheck_empty (hdev : s.dev = .booting) (hporst : s.porst = false) (hcal : s.boot.calLoaded = true)
    (hpatch : s.boot.patched = false) (htorn : 2 ∉ s.nvm.torn) (hempty : s.nvEmpty 2 = true) : s.patchCheck =
      ({ s with boot := { s.boot with patched := true }, freeCtr := s.freeCtr + 1 } : State).setRegN sSec 0x01C 16 := by
  have ht : s.nvm.torn.contains 2 = false := by simpa using htorn
  unfold State.patchCheck
  rw [if_pos (by rw [hporst, hcal, hpatch]; exact ⟨hdev, rfl, rfl, rfl⟩), hempty, ht]
  rfl

theorem State.patchCheck_fails (hdev : s.dev = .booting) (hporst : s.porst = false) (hcal : s.boot.calLoaded = true)
    (hpatch : s.boot.patched = false) (hempty : s.nvEmpty 2 = false) (hfail : s.patchFail s.boot.sealed ≠ 0) : s.patchCheck =
      (({ s with boot := { s.boot with patched := true }, freeCtr := s.freeCtr + 1 } : State).setRegN sSec 0x01C
        (1 + 2 * s.patchFail s.boot.sealed)).bbrPush 3 sSeq [s.patchFail s.boot.sealed] := by
  unfold State.patchCheck
  rw [if_pos (by rw [hporst, hcal, hpatch]; exact ⟨hdev, rfl, rfl, rfl⟩), hempty]
  dsimp only
  rw [Bool.false_and, if_neg Bool.false_ne_true, if_neg hfail]

/-! ### The record and AWAITING -/

/-- The scan of an empty record. -/
theorem State.bbrScan_empty (hdev : s.dev = .booting) (hporst : s.porst = false) (hscan : s.bbr.scanned = false)
    (hslots : s.bbr.slots = []) : s.bbrScan = { s with
      bbr := { s.bbr with scanned := true, head := 0, seq := 0, erasing := none, oldest := 0, newest := 0 } } := by
  have hblank (j : Nat) : s.sectorBlank j = true := by rw [State.sectorBlank, hslots]; rfl
  have hfirst : s.firstErased 1 0 = 0 := by
    unfold State.firstErased
    rw [hslots]
    rfl
  unfold State.bbrScan
  rw [if_pos (by rw [hporst, hscan]; exact ⟨hdev, rfl, rfl⟩), hslots]
  simp only [List.map_nil, List.foldl_nil, hslots, List.length_nil, Nat.zero_add, hfirst, hblank, if_true]
  unfold State.bbrBounds State.validEntries State.ringSlots
  simp only [List.map_nil, List.filter_nil, List.append_nil, List.foldl_nil]
  rfl

/-- AWAITING with the time that boot took. -/
def State.awaited (s : State) : State := (s.setRfld sSec 0x020 16 16 (s.now / 2_000_000)).enter .awaiting

/-- The entry for POWER_ON: the firmware that runs, its version and the patch's. -/
def State.powerOnData (s : State) : List Nat :=
  [(s.reg (ra sSec 0x020)).toNat, (s.reg (ra sSec 0x024)).toNat, (s.reg (ra sSec 0x018)).toNat]

theorem State.awaited_side (s : State) : Side { s with dev := .awaiting } s.awaited :=
  ((State.setRfld_side s _ _ _ _ _).withDev .awaiting).trans (State.enter_side _ _)

theorem State.awaiting_recovery (hdone : s.bootDone = true) (hrec : s.boot.recovery = true) :
    s.awaiting = s.awaited.bbrPush 1 sSec s.awaited.powerOnData := by
  have hside := s.awaited_side.trans (State.bbrPush_side s.awaited 1 sSec s.awaited.powerOnData)
  unfold State.awaiting
  rw [if_pos hdone]
  refine if_pos ?_
  show (s.awaited.bbrPush 1 sSec s.awaited.powerOnData).boot.recovery = true
  obtain ⟨_, _, _, _, _, h⟩ := hside
  rw [h]
  exact hrec

/-- What AWAITING shows: the boot time, STATE_CHG and the entry for POWER_ON. -/
theorem State.awaited_spec (hdev : s.dev = .booting) (hqueue : s.bbr.queue = []) (hdrops : s.bbr.drops = 0) :
    let x := s.awaited.bbrPush 1 sSec s.awaited.powerOnData
    x.rfld sSec 0x020 16 16 = s.now / 2_000_000 % 2 ^ 16 ∧ bit (x.reg (ra sGlb 0x008)) 3 = true ∧
      x.bbr.queue.map (·.code) = [1] := by
  have hne : (s.setRfld sSec 0x020 16 16 (s.now / 2_000_000)).dev ≠ .awaiting := by
    show s.dev ≠ .awaiting
    rw [hdev]
    decide
  have henter : s.awaited = ({ s.setRfld sSec 0x020 16 16 (s.now / 2_000_000) with dev := .awaiting } : State).evt sGlb 3 :=
    State.enter_ne hne
  have hbbr : s.awaited.bbr = s.bbr := by
    rw [henter, State.evt_bbr]
    rfl
  have hroom : s.awaited.bbrRoom = s.awaited := State.bbrRoom_of_no_drops (by rw [hbbr]; exact hdrops)
  have hlen : s.awaited.bbrRoom.bbr.queue.length < 256 := by
    rw [hroom, hbbr, hqueue]
    decide
  refine ⟨?_, ?_, ?_⟩
  · rw [State.rfld, State.bbrPush_reg_page _ _ _ (by decide), henter, State.evt_reg_page _ (by decide)]
    show fld ((s.setRfld sSec 0x020 16 16 (s.now / 2_000_000)).reg (ra sSec 0x020)) 16 16 = _
    rw [State.setRfld, State.setReg_reg_same, fld_setFld _ _ _ _ (by decide)]
  · rw [State.bbrPush_reg_page _ _ _ (by decide), henter]
    exact State.evt_bit _ (b := 3) (by decide)
  · rw [State.bbrPush_of_room _ _ _ hlen, hroom, hbbr, hqueue]
    rfl

/-- Settles O22, stage by stage. -/
theorem bootStages : Obligations.BootStages := by
  refine fun s t hpow hdev => ⟨fun hload => ?_, fun hcal hpatch htorn => ⟨fun hempty => ?_, fun hempty hfail => ?_⟩, ?_,
    fun hscan hslots => ?_, fun hdone => ?_, fun hdone hrec hqueue hdrops => ?_⟩
  · have hx := State.fwLoad_eq (s := s.advance t) hdev hpow.1 hload
    obtain ⟨hrun, hfa, hfb⟩ := fld_boot (s.advance t).fwRun_le ((s.advance t).fwFail_le 0) ((s.advance t).fwFail_le 1)
    rw [← State.fwShown_boot] at hrun hfa hfb
    obtain ⟨h0, h1, hboth, hnone⟩ := (s.advance t).fwRun_spec
    have hversion := (s.advance t).fwShown_version
    obtain ⟨m, hm⟩ := (s.advance t).fwShown_regs
    generalize (s.advance t).fwShown = y at hx hrun hfa hfb hversion hm
    have hquiet : Quiet (s.advance t) y := by
      rw [hm]
      constructor <;> rfl
    refine ⟨y, (exec_firmwareLoaded t s).trans (command_eq hpow hx hquiet), fun ha hb => hrun.trans (h0 ha hb),
      fun ha hb => hrun.trans (h1 ha hb), fun ha hb => hrun.trans (hboth ha hb), fun ha hb => ?_, fun hlt => ?_, hfa, hfb, ?_, ?_⟩
    · have htwo := hnone ha hb
      rw [if_pos htwo] at hversion
      refine ⟨hrun.trans htwo, ?_, ?_, hversion⟩
      · rw [hm]
        exact decide_eq_true htwo
      · rw [hm]
        exact congrArg Commit.busy (if_pos htwo)
    · have htwo : (s.advance t).fwRun ≠ 2 := fun h => by
        rw [hrun, h] at hlt
        exact absurd hlt (by decide)
      rw [if_neg htwo] at hversion
      refine ⟨?_, ?_, hversion.trans ?_⟩
      · rw [hm]
        exact decide_eq_false htwo
      · rw [hm]
        exact if_neg htwo
      · rw [hrun]
        rfl
    · rw [hm]
      rfl
    · rw [hm]
      rfl
  · have hx := State.patchCheck_empty (s := s.advance t) hdev hpow.1 hcal hpatch htorn hempty
    exact (exec_patchCheck t s).trans (command_eq hpow hx (by constructor <;> rfl))
  · have hx := State.patchCheck_fails (s := s.advance t) hdev hpow.1 hcal hpatch hempty hfail
    have hcode : (s.advance t).patchFail (s.advance t).boot.sealed = s.patchFail s.boot.sealed := rfl
    rw [hcode] at hx
    generalize hu : (({ s.advance t with boot := { (s.advance t).boot with patched := true }
                                         freeCtr := (s.advance t).freeCtr + 1 } : State).setRegN sSec 0x01C
      (1 + 2 * s.patchFail s.boot.sealed)) = u at hx
    have hquiet : Quiet (s.advance t) u := by
      rw [← hu]
      constructor <;> rfl
    have hside := State.bbrPush_side u 3 sSeq [s.patchFail s.boot.sealed]
    have hreg (a : Nat) (h : a / 0x400 ≠ sBbr) := State.bbrPush_reg_page (s := u) 3 sSeq [s.patchFail s.boot.sealed] h
    refine ⟨_, (exec_patchCheck t s).trans (command_eq hpow hx (hquiet.trans hside.quiet)), ?_, ?_, ?_, ?_, ?_⟩
    · rw [hreg _ (by decide), ← hu, State.setRegN, State.setReg_reg_same]
    · obtain ⟨_, _, _, _, _, h⟩ := hside
      rw [h, ← hu]
      rfl
    · obtain ⟨_, _, _, _, _, h⟩ := hside
      rw [h, ← hu]
      rfl
    · rw [hreg _ (by decide), ← hu, State.setRegN, State.setReg_reg_ne _ _ (by decide)]
      rfl
    · obtain ⟨_, _, _, _, _, h⟩ := hside
      rw [h, ← hu]
      rfl
  · have hx : (s.advance t).hbmTrained = { s.advance t with boot := { s.boot with hbm := true } } :=
      if_pos ⟨hdev, by rw [State.advance_porst, hpow.1]; rfl⟩
    exact (exec_hbmTrained t s).trans (command_eq hpow hx (by constructor <;> rfl))
  · have hx := State.bbrScan_empty (s := s.advance t) hdev hpow.1 hscan hslots
    exact (exec_bbrScan t s).trans (command_eq hpow hx (by constructor <;> rfl))
  · have hx : (s.advance t).awaiting = s.advance t := if_neg fun h => Bool.false_ne_true (hdone.symm.trans h)
    exact (exec_awaitingReached t s).trans (command_eq hpow hx (Quiet.refl _))
  · have hx := State.awaiting_recovery (s := s.advance t) hdone hrec
    have hbits := State.awaited_spec (s := s.advance t) hdev hqueue hdrops
    have hside := (s.advance t).awaited_side.trans (State.bbrPush_side (s.advance t).awaited 1 sSec (s.advance t).awaited.powerOnData)
    generalize (s.advance t).awaited.bbrPush 1 sSec (s.advance t).awaited.powerOnData = y at hx hbits hside
    obtain ⟨htime, hevt, hcodes⟩ := hbits
    have hquiet : Quiet (s.advance t) y := Quiet.trans (by constructor <;> rfl) hside.quiet
    refine ⟨y, (exec_awaitingReached t s).trans (command_eq hpow hx hquiet), ?_⟩
    obtain ⟨_, _, _, _, _, rfl⟩ := hside
    exact ⟨rfl, htime, hevt, hcodes, rfl, rfl⟩

end Sys2Proof.Machine
end

section
/-! Proofs about the service commands (19_startup_power_and_black_box.md, R380): what each takes, and how it ends. -/

namespace Sys2Proof.Machine

variable {s x : State} {t a off slot ch : Nat} {p : Path} {v : Word} {r : RegInfo} {q : PageInfo}

/-! ### The word of a command -/

/-- A field beside a code below it. -/
theorem put_or_toNat {n lo w c : Nat} (hn : n < 2 ^ w) (hw : lo + w ≤ 32) (hc : c < 2 ^ lo) :
    (put n lo w ||| BitVec.ofNat 32 c).toNat = n * 2 ^ lo + c := by
  have hlt : n * 2 ^ lo + c < 2 ^ 32 := by
    have h1 : n * 2 ^ lo + c < 2 ^ w * 2 ^ lo := by
      have : (n + 1) * 2 ^ lo ≤ 2 ^ w * 2 ^ lo := Nat.mul_le_mul_right _ hn
      rw [Nat.add_mul] at this
      omega
    rw [← Nat.pow_add] at h1
    exact lt_of_lt_of_le h1 (Nat.pow_le_pow_right (by decide) (by omega))
  have hshift : n * 2 ^ lo < 2 ^ 32 := by omega
  have hcode : c < 2 ^ 32 := by omega
  rw [BitVec.toNat_or, put, BitVec.toNat_ofNat, BitVec.toNat_ofNat, Nat.mod_eq_of_lt hn, Nat.shiftLeft_eq, Nat.mod_eq_of_lt hshift,
    Nat.mod_eq_of_lt hcode, ← Nat.shiftLeft_eq, Nat.shiftLeft_add_eq_or_of_lt hc]

/-- FUSE's word: its code and its key. -/
theorem fuse_word (k : BitVec 16) : fld (put k.toNat 16 16 ||| 1) 0 4 = 1 ∧ fld (put k.toNat 16 16 ||| 1) 16 16 = k.toNat := by
  have hw := put_or_toNat (n := k.toNat) (lo := 16) (w := 16) (c := 1) k.isLt (by decide) (by decide)
  have hk := k.isLt
  simp only [fld, Nat.shiftRight_eq_div_pow]
  rw [show (1 : Word) = BitVec.ofNat 32 1 from rfl, hw]
  omega

/-- UPD_BEGIN's word: its code and its target. -/
theorem updBegin_word (k : BitVec 2) : fld (put k.toNat 4 2 ||| 2) 0 4 = 2 ∧ fld (put k.toNat 4 2 ||| 2) 4 2 = k.toNat := by
  have hw := put_or_toNat (n := k.toNat) (lo := 4) (w := 2) (c := 2) k.isLt (by decide) (by decide)
  have hk := k.isLt
  simp only [fld, Nat.shiftRight_eq_div_pow]
  rw [show (2 : Word) = BitVec.ofNat 32 2 from rfl, hw]
  omega

theorem State.svcCmd_busy (h : s.svc.busy = true) (v : Word) : s.svcCmd v = s := if_pos (by rw [h]; rfl)

/-- A command that is taken runs by its code. -/
theorem State.svcCmd_free (h : s.svc.busy = false) (hdev : s.dev ≠ .booting) (v : Word) :
    (fld v 0 4 = 1 → s.svcCmd v = s.svcFuse (fld v 16 16)) ∧ (fld v 0 4 = 2 → s.svcCmd v = s.svcBegin (fld v 4 2)) ∧
    (fld v 0 4 = 3 → s.svcCmd v = s.svcChunk) ∧ (fld v 0 4 = 4 → s.svcCmd v = s.svcFinish) ∧
    (fld v 0 4 = 5 → s.svcCmd v = s.svcService) := by
  have hgo : (s.svc.busy || decide (s.dev = .booting)) = false := by rw [h, decide_eq_false hdev]; rfl
  unfold State.svcCmd
  rw [hgo, if_neg Bool.false_ne_true]
  refine ⟨fun h => ?_, fun h => ?_, fun h => ?_, fun h => ?_, fun h => ?_⟩ <;> rw [h] <;> rfl

/-- A write of `SEC.SVC_CMD` that reaches its page. -/
theorem State.Reaches.hostWrite_svc (hreach : s.Reaches (ra sSec 0x038)) (hporst : s.porst = false) (p : Path) (v : Word) :
    s.hostWrite p (ra sSec 0x038) v true = s.svcCmd v := by
  have hserved : s.served (ra sSec 0x038 / 0x400) = true := by
    rw [ra_div sSec _ (by decide)]
    have hdev : decide (s.dev ≠ .booting) = true := decide_eq_true hreach.1
    have hsec : decide (sSec = sSec) = true := rfl
    rw [State.served, hdev, hsec, Bool.or_true, Bool.true_or]
    rfl
  obtain ⟨r, hreg, hty⟩ : ∃ r, regAt (ra sSec 0x038) = some r ∧ r.ty = .wo := ⟨_, rfl, rfl⟩
  obtain ⟨q, hpage, hkind⟩ : ∃ q, pageAt (ra sSec 0x038 / 0x400) = some q ∧ q.kind = .sec := ⟨_, rfl, rfl⟩
  rw [hreach.hostWrite hporst (ra_aligned sSec (by decide)) p v, State.writeNow_wo hserved hreg hpage hty p v, hkind]
  rfl

/-! ### NVM -/

/-- One byte programmed: bits are only cleared (R375). -/
def State.nvPut (s : State) (a : Nat) (b : Byte) : State :=
  { s with nvm := { s.nvm with bytes := Sparse.set 0xFF s.nvm.bytes a (s.nvByte a &&& b) } }

theorem State.nvPut_nvByte (s : State) (a : Nat) (b : Byte) (c : Nat) :
    (s.nvPut a b).nvByte c = if a = c then s.nvByte a &&& b else s.nvByte c := by
  unfold State.nvPut State.nvByte
  dsimp only
  split
  case isTrue h =>
    subst h
    exact Sparse.get_set_same _ _ _ _
  case isFalse h => exact Sparse.get_set_ne _ _ _ _ h

/-- Bytes programmed one after another. -/
theorem State.each_nvPut_nvByte (l : List Byte) (k a c : Nat) :
    (s.each (l.zipIdx k) fun s e => s.nvPut (a + e.2) e.1).nvByte c =
      if a + k ≤ c ∧ c < a + k + l.length then s.nvByte c &&& l.getD (c - (a + k)) 0 else s.nvByte c := by
  induction l generalizing s k with
  | nil => rw [List.zipIdx_nil, State.each_nil, if_neg (by rw [List.length_nil]; omega)]
  | cons b l ih =>
    rw [List.zipIdx_cons, State.each_cons, ih, State.nvPut_nvByte, List.length_cons]
    by_cases hc : a + k = c
    · subst hc
      rw [if_neg (by omega), if_pos rfl, if_pos (by omega), Nat.sub_self]
      rfl
    · rw [if_neg hc]
      by_cases hin : a + (k + 1) ≤ c ∧ c < a + (k + 1) + l.length
      · rw [if_pos hin, if_pos (by omega), show c - (a + k) = (c - (a + (k + 1))) + 1 by omega, List.getD_cons_succ]
      · rw [if_neg hin, if_neg (by omega)]

theorem State.nvProgram_nvByte (s : State) (a : Nat) (l : List Byte) (c : Nat) :
    (s.nvProgram a l).nvByte c = if a ≤ c ∧ c < a + l.length then s.nvByte c &&& l.getD (c - a) 0 else s.nvByte c :=
  State.each_nvPut_nvByte l 0 a c

theorem State.nvProgram_eq (s : State) (a : Nat) (l : List Byte) :
    ∃ m, s.nvProgram a l = { s with nvm := { s.nvm with bytes := m } } :=
  State.each_induct (P := fun u => ∃ m, u = { s with nvm := { s.nvm with bytes := m } })
    (fun _ _ _ ⟨_, h⟩ => by subst h; exact ⟨_, rfl⟩) ⟨_, rfl⟩

/-- An erased region reads ones. -/
theorem State.nvErase_nvByte (s : State) (k a : Nat) : (s.nvErase k).nvByte a =
    if (nvRegion k).1 ≤ a ∧ a < (nvRegion k).1 + (nvRegion k).2 then 0xFF else s.nvByte a := by
  have hbytes : (s.nvErase k).nvm.bytes = s.nvm.bytes.filter fun e =>
      decide (e.1 < (nvRegion k).1) || decide ((nvRegion k).1 + (nvRegion k).2 ≤ e.1) := by
    unfold State.nvErase
    dsimp only
    split
    · rfl
    · split <;> rfl
  rw [State.nvByte, hbytes]
  split
  case isTrue h =>
    refine get_filter_dropped _ (fun j => decide (j < (nvRegion k).1) || decide ((nvRegion k).1 + (nvRegion k).2 ≤ j)) _ ?_
    simp only [Bool.or_eq_false_iff, decide_eq_false_iff_not]
    omega
  case isFalse h =>
    refine get_filter_kept _ (fun j => decide (j < (nvRegion k).1) || decide ((nvRegion k).1 + (nvRegion k).2 ≤ j)) _ ?_
    simp only [Bool.or_eq_true, decide_eq_true_eq]
    omega

theorem State.nvErase_eq (s : State) (k : Nat) : ∃ n, s.nvErase k = { s with nvm := n } := ⟨_, rfl⟩

/-! ### The service buffer -/

theorem length_leBytes (k n : Nat) : (leBytes k n).length = k := by
  induction k generalizing n with
  | zero => rfl
  | succ k ih => rw [leBytes, List.length_cons, ih]

theorem State.svcBuffer_length (s : State) : s.svcBuffer.length = 4096 := by
  have hlen : (fun k => (w32 (s.tabw (oSvc k)).toNat).length) = fun _ => 4 := funext fun _ => length_leBytes _ _
  rw [State.svcBuffer, List.length_flatMap, hlen, List.map_const', List.length_range, List.sum_replicate]
  rfl

/-- The bytes that a chunk of `n` names. -/
theorem State.svcBuffer_chunk {n : Nat} (hn : n ≤ 4088) : ((s.svcBuffer.drop 8).take n).length = n ∧
    ∀ k, k < n → ((s.svcBuffer.drop 8).take n).getD k 0 = s.svcBuffer.getD (8 + k) 0 := by
  have hlen := s.svcBuffer_length
  refine ⟨?_, fun k hk => ?_⟩
  · rw [List.length_take, List.length_drop, hlen]
    omega
  · simp only [List.getD_eq_getElem?_getD, List.getElem?_take_of_lt hk, List.getElem?_drop]

/-! ### The commands -/

theorem State.svcChunk_none (h : s.svc.target = none) : s.svcChunk = s.svcBusy 3 2 := by
  unfold State.svcChunk
  rw [h]

theorem State.svcFinish_none (h : s.svc.target = none) : s.svcFinish = s.svcBusy 4 2 := by
  unfold State.svcFinish
  rw [h]

theorem State.svcFinish_some {k : Nat} (h : s.svc.target = some k) : s.svcFinish = s.svcBusy 4 (s.updCheck k) := by
  unfold State.svcFinish
  rw [h]

theorem State.svcChunk_some {k : Nat} (h : s.svc.target = some k) : s.svcChunk =
    if 4088 < ofLeBytes ((s.svcBuffer.drop 4).take 4) ∨
        (nvRegion k).2 < ofLeBytes (s.svcBuffer.take 4) + ofLeBytes ((s.svcBuffer.drop 4).take 4) then s.svcBusy 3 3
    else (s.nvProgram ((nvRegion k).1 + ofLeBytes (s.svcBuffer.take 4))
      ((s.svcBuffer.drop 8).take (ofLeBytes ((s.svcBuffer.drop 4).take 4)))).svcBusy 3 1 := by
  unfold State.svcChunk
  rw [h]

/-! ### The end of a command -/

/-- The region of an update is torn by an NVM error. -/
def State.svcTorn (s : State) (nvmError : Bool) (op : Nat) : State :=
  match s.svc.target with
  | some r =>
    if nvmError ∧ (op = 2 ∨ op = 3) then { s with nvm := { s.nvm with torn := r :: s.nvm.torn.filter (· ≠ r) } } else s
  | none => s

theorem State.svcTorn_eq (s : State) (nvmError : Bool) (op : Nat) : ∃ n, s.svcTorn nvmError op = { s with nvm := n } ∧
    (nvmError = false → n = s.nvm) := by
  unfold State.svcTorn
  split
  · split
    case isTrue h => exact ⟨_, rfl, fun he => absurd h.1 (by rw [he]; decide)⟩
    case isFalse => exact ⟨_, rfl, fun _ => rfl⟩
  · exact ⟨_, rfl, fun _ => rfl⟩

/-- The events of a command's end: done, and failed for a result of 2 or more. -/
def State.svcEvents (s : State) (res : Nat) : State := if 2 ≤ res then (s.evt sSec 0).evt sSec 1 else s.evt sSec 0

/-- The entries of a command's end. -/
def State.svcEntries (s : State) (nvmError : Bool) (op res : Nat) : State :=
  let s5 := if nvmError then s.bbrFault sSec op 6 else s
  if op = 1 then s5.bbrPush 20 sSec [op, res]
  else if op ≤ 4 then s5.bbrPush 20 sSec [s5.svc.target.getD 3, res]
  else s5

theorem State.svcDone_eq (hbusy : s.svc.busy = true) (hop : s.svc.op ≠ 5) (nvmError : Bool) : s.svcDone nvmError =
    let res := if nvmError then 6 else s.svc.pendingResult
    (((({ s with svc := { s.svc with busy := false, result := res } } : State).svcTorn nvmError s.svc.op).svcEvents res).svcEntries
      nvmError s.svc.op res) := by
  have hkept (y z : State) : (if s.svc.op = 5 ∧ s.bbr.clearing = true then y else z) = z := if_neg fun h => hop h.1
  unfold State.svcDone
  rw [if_pos hbusy]
  dsimp only
  rw [hkept]
  rfl

theorem State.svcEvents_side (s : State) (res : Nat) : Side s (s.svcEvents res) := by
  unfold State.svcEvents
  split
  · exact (s.evt_side _ _).trans (State.evt_side _ _ _)
  · exact s.evt_side _ _

theorem State.svcEvents_bits (s : State) (res : Nat) : bit ((s.svcEvents res).reg (ra sSec 0x008)) 0 = true ∧
    (2 ≤ res → bit ((s.svcEvents res).reg (ra sSec 0x008)) 1 = true) := by
  unfold State.svcEvents
  split
  case isTrue => exact ⟨State.evt_bit_keep _ _ _ (s.evt_bit sSec (by decide)), fun _ => (s.evt sSec 0).evt_bit sSec (by decide)⟩
  case isFalse h => exact ⟨s.evt_bit sSec (by decide), fun hres => absurd hres h⟩

theorem Side.ite {c : Prop} [Decidable c] {y z : State} (hy : Side s y) (hz : Side s z) : Side s (if c then y else z) := by
  split
  · exact hy
  · exact hz

theorem State.svcEntries_side (s : State) (nvmError : Bool) (op res : Nat) : Side s (s.svcEntries nvmError op res) := by
  unfold State.svcEntries
  have h5 : Side s (if nvmError = true then s.bbrFault sSec op 6 else s) := Side.ite (s.bbrPush_side _ _ _) (Side.refl s)
  generalize (if nvmError = true then s.bbrFault sSec op 6 else s) = u at h5
  exact Side.ite (h5.trans (u.bbrPush_side _ _ _)) (Side.ite (h5.trans (u.bbrPush_side _ _ _)) h5)

theorem State.svcEntries_reg (h : a / 0x400 ≠ sBbr) (nvmError : Bool) (op res : Nat) :
    (s.svcEntries nvmError op res).reg a = s.reg a := by
  unfold State.svcEntries
  have h5 : (if nvmError = true then s.bbrFault sSec op 6 else s).reg a = s.reg a :=
    reg_ite (State.bbrPush_reg_page _ _ _ h) rfl
  generalize (if nvmError = true then s.bbrFault sSec op 6 else s) = u at h5
  exact reg_ite ((State.bbrPush_reg_page _ _ _ h).trans h5) (reg_ite ((State.bbrPush_reg_page _ _ _ h).trans h5) h5)

/-- SVC_DONE of any command but SERVICE. -/
theorem State.svcDone_spec (hbusy : s.svc.busy = true) (hop : s.svc.op ≠ 5) (nvmError : Bool) :
    let res := if nvmError then 6 else s.svc.pendingResult
    let x := s.svcDone nvmError
    x.svc = { s.svc with busy := false, result := res } ∧ bit (x.reg (ra sSec 0x008)) 0 = true ∧
      (2 ≤ res → bit (x.reg (ra sSec 0x008)) 1 = true) ∧ Side { s with svc := x.svc, nvm := x.nvm } x ∧
      (nvmError = false → x.nvm = s.nvm) := by
  rw [State.svcDone_eq hbusy hop]
  dsimp only
  generalize (if nvmError then 6 else s.svc.pendingResult) = res
  obtain ⟨n, hn, hkeep⟩ := State.svcTorn_eq ({ s with svc := { s.svc with busy := false, result := res } } : State) nvmError s.svc.op
  rw [hn]
  generalize hu : ({ s with svc := { s.svc with busy := false, result := res }, nvm := n } : State) = u
  obtain ⟨h0, h1⟩ := u.svcEvents_bits res
  have hside := (u.svcEvents_side res).trans ((u.svcEvents res).svcEntries_side nvmError s.svc.op res)
  have hreg := State.svcEntries_reg (s := u.svcEvents res) (a := ra sSec 0x008) (by decide) nvmError s.svc.op res
  rw [← hreg] at h0 h1
  generalize (u.svcEvents res).svcEntries nvmError s.svc.op res = y at h0 h1 hside
  subst hu
  obtain ⟨_, _, _, _, _, rfl⟩ := hside
  exact ⟨rfl, h0, h1, ⟨_, _, _, _, _, rfl⟩, hkeep⟩

/-- A service command in progress takes no other. -/
theorem command_svc_busy (hpow : s.Powered) (hreach : s.Reaches (ra sSec 0x038)) (hbusy : s.svc.busy = true) (t : Nat) (p : Path)
    (v : Word) : command t (fun s => s.hostWrite p (ra sSec 0x038) v true) s = .next (s.advance t) :=
  command_eq hpow ((State.Reaches.hostWrite_svc (s := s.advance t) hreach hpow.1 p v).trans (State.svcCmd_busy (s := s.advance t) hbusy v)) (Quiet.refl _)

theorem State.svcBusy_quiet (s : State) (op result : Nat) : Quiet s (s.svcBusy op result) := by constructor <;> rfl

/-- Settles O23, command by command. -/
theorem serviceCommands : Obligations.ServiceCommands := by
  intro s t p hpow hreach
  refine ⟨fun hbusy => ?_, fun hfree => ?_, fun hbusy hop nvmError => ?_, fun hfree nvmError => ?_⟩
  · have hall (v : Word) := command_svc_busy hpow hreach hbusy t p v
    exact ⟨(exec_updChunk t p s).trans (hall _), (exec_updFinish t p s).trans (hall _), (exec_service t p s).trans (hall _),
      fun k => (exec_fuse t p k s).trans (hall _), fun k => (exec_updBegin t p k s).trans (hall _)⟩
  · have hcode (v : Word) := State.svcCmd_free (s := s.advance t) hfree hreach.1 v
    have hwrite (v : Word) := State.Reaches.hostWrite_svc (s := s.advance t) hreach hpow.1 p v
    refine ⟨?_, fun k hk => ?_, ?_, fun k hk => ?_, fun htarget => ⟨?_, ?_⟩, fun k htarget => ⟨fun hbad => ?_, fun hlen hfin => ?_, ?_⟩, ?_⟩
    · have hx := (hwrite _).trans (((hcode (put (0x5EA1 : BitVec 16).toNat 16 16 ||| 1)).1 (fuse_word _).1).trans
        (if_pos (fuse_word 0x5EA1).2))
      refine (exec_fuse t p _ s).trans (command_eq hpow hx (by constructor <;> rfl))
    · have hx := (hwrite _).trans (((hcode (put k.toNat 16 16 ||| 1)).1 (fuse_word _).1).trans
        (if_neg fun h => toNat_ne_of_ne hk ((fuse_word k).2.symm.trans h)))
      exact (exec_fuse t p k s).trans (command_eq hpow hx (State.svcBusy_quiet _ _ _))
    · have hx := (hwrite _).trans (((hcode (put (3 : BitVec 2).toNat 4 2 ||| 2)).2.1 (updBegin_word _).1).trans
        (if_pos (updBegin_word 3).2))
      exact (exec_updBegin t p 3 s).trans (command_eq hpow hx (State.svcBusy_quiet _ _ _))
    · have hne : fld (put k.toNat 4 2 ||| 2) 4 2 ≠ 3 := fun h => toNat_ne_of_ne hk ((updBegin_word k).2.symm.trans h)
      have hx := (hwrite _).trans (((hcode (put k.toNat 4 2 ||| 2)).2.1 (updBegin_word _).1).trans (if_neg hne))
      rw [(updBegin_word k).2] at hx
      have hbyte := (s.advance t).nvErase_nvByte ((s.advance t).svcRegion k.toNat)
      obtain ⟨n, hn⟩ := (s.advance t).nvErase_eq ((s.advance t).svcRegion k.toNat)
      dsimp only at hx
      rw [hn] at hx hbyte
      exact ⟨_, (exec_updBegin t p k s).trans (command_eq hpow hx (by constructor <;> rfl)), rfl, rfl, rfl, hbyte, rfl⟩
    · have hx := (hwrite 3).trans (((hcode 3).2.2.1 (by decide)).trans (State.svcChunk_none htarget))
      exact (exec_updChunk t p s).trans (command_eq hpow hx (State.svcBusy_quiet _ _ _))
    · have hx := (hwrite 4).trans (((hcode 4).2.2.2.1 (by decide)).trans (State.svcFinish_none htarget))
      exact (exec_updFinish t p s).trans (command_eq hpow hx (State.svcBusy_quiet _ _ _))
    · have hcond := hbad.imp_right fun h : (nvRegion k).1 + (nvRegion k).2 < (nvRegion k).1 + ofLeBytes (s.svcBuffer.take 4) +
          ofLeBytes ((s.svcBuffer.drop 4).take 4) => (by omega : (nvRegion k).2 < ofLeBytes (s.svcBuffer.take 4) +
          ofLeBytes ((s.svcBuffer.drop 4).take 4))
      have hx := (hwrite 3).trans (((hcode 3).2.2.1 (by decide)).trans
        ((State.svcChunk_some (s := s.advance t) htarget).trans (if_pos hcond)))
      exact (exec_updChunk t p s).trans (command_eq hpow hx (State.svcBusy_quiet _ _ _))
    · have hcond : ¬(4088 < ofLeBytes ((s.svcBuffer.drop 4).take 4) ∨ (nvRegion k).2 <
          ofLeBytes (s.svcBuffer.take 4) + ofLeBytes ((s.svcBuffer.drop 4).take 4)) := by omega
      have hx := (hwrite 3).trans (((hcode 3).2.2.1 (by decide)).trans
        ((State.svcChunk_some (s := s.advance t) htarget).trans (if_neg hcond)))
      obtain ⟨hcount, hsame⟩ := s.svcBuffer_chunk hlen
      have hbyte := (s.advance t).nvProgram_nvByte ((nvRegion k).1 + ofLeBytes (s.svcBuffer.take 4))
        ((s.svcBuffer.drop 8).take (ofLeBytes ((s.svcBuffer.drop 4).take 4)))
      obtain ⟨m, hm⟩ := (s.advance t).nvProgram_eq ((nvRegion k).1 + ofLeBytes (s.svcBuffer.take 4))
        ((s.svcBuffer.drop 8).take (ofLeBytes ((s.svcBuffer.drop 4).take 4)))
      have hx := hx.trans (congrArg (State.svcBusy · 3 1) hm)
      rw [hm, hcount] at hbyte
      refine ⟨_, (exec_updChunk t p s).trans (command_eq hpow hx (by constructor <;> rfl)), fun c => (hbyte c).trans ?_, rfl⟩
      refine ite_congr rfl (fun hc => ?_) fun _ => rfl
      rw [hsame _ (by omega)]
      rfl
    · have hx := (hwrite 4).trans (((hcode 4).2.2.2.1 (by decide)).trans (State.svcFinish_some htarget))
      exact (exec_updFinish t p s).trans (command_eq hpow hx (State.svcBusy_quiet _ _ _))
    · have hx := (hwrite 5).trans ((hcode 5).2.2.2.2 (by decide))
      have hreg : (s.advance t).svcService.reg (ra sSec 0x034) = Config.nonce (s.nvm.nonceN + 1) := State.setReg_reg_same _ _ _
      refine ⟨_, (exec_service t p s).trans (command_eq hpow hx (by constructor <;> rfl)), rfl, rfl, hreg, ?_⟩
      show (if _ then ({ s.bbr with clearing := true } : Bbr) else s.bbr).slots = s.bbr.slots
      split <;> rfl
  · have hspec := State.svcDone_spec (s := s.advance t) hbusy hop nvmError
    have hquiet : Quiet (s.advance t) ((s.advance t).svcDone nvmError) :=
      Quiet.trans (by constructor <;> rfl) hspec.2.2.2.1.quiet
    exact ⟨_, (exec_svcDone t nvmError s).trans (command_eq hpow rfl hquiet), hspec⟩
  · have hx : (s.advance t).svcDone nvmError = s.advance t := if_neg fun h => Bool.false_ne_true (hfree.symm.trans h)
    exact (exec_svcDone t nvmError s).trans (command_eq hpow hx (Quiet.refl _))

end Sys2Proof.Machine
end

section
/-! Proofs about the black-box record (19_startup_power_and_black_box.md, R373 to R378): entries as bytes, programming, erasing,
dumps and the window. -/

namespace Sys2Proof.Machine

variable {s x : State} {t a off slot ch : Nat} {p : Path} {v : Word} {r : RegInfo} {q : PageInfo}

/-! ### Bytes of an entry (R374, R376) -/

theorem ofLeBytes_leBytes (k n : Nat) : ofLeBytes (leBytes k n) = n % 256 ^ k := by
  induction k generalizing n with
  | zero => rw [leBytes, ofLeBytes, pow_zero, Nat.mod_one]
  | succ k ih =>
    rw [leBytes, ofLeBytes, ih, BitVec.toNat_ofNat, pow_succ (256 : Nat), Nat.mul_comm (256 ^ k) 256, Nat.mod_mul]

theorem ofLeBytes_w32 (n : Nat) : ofLeBytes (w32 n) = n % 2 ^ 32 := ofLeBytes_leBytes 4 n

theorem length_w32 (n : Nat) : (w32 n).length = 4 := length_leBytes 4 n

theorem crc32Bit_lt {c : Nat} (h : c < 2 ^ 32) : crc32Bit c < 2 ^ 32 := by
  unfold crc32Bit
  split
  · exact Nat.xor_lt_two_pow (by omega) (by decide)
  · omega

theorem crc32Byte_lt {c : Nat} (h : c < 2 ^ 32) (b : Byte) : crc32Byte c b < 2 ^ 32 := by
  have hb : b.toNat < 2 ^ 32 := lt_of_lt_of_le b.isLt (by decide)
  exact crc32Bit_lt (crc32Bit_lt (crc32Bit_lt (crc32Bit_lt (crc32Bit_lt (crc32Bit_lt (crc32Bit_lt (crc32Bit_lt
    (Nat.xor_lt_two_pow h hb))))))))

theorem crc32_fold_lt (l : List Byte) {c : Nat} (h : c < 2 ^ 32) : l.foldl crc32Byte c < 2 ^ 32 := by
  induction l generalizing c with
  | nil => exact h
  | cons b l ih => exact ih (crc32Byte_lt h b)

theorem crc32_lt (l : List Byte) : crc32 l < 2 ^ 32 := Nat.xor_lt_two_pow (crc32_fold_lt l (by decide)) (by decide)

/-- The bytes that an entry's checks cover: its header's fields and data, padded to 56. -/
theorem entryBytes_eq (seq boots : Nat) (e : BEntry) : ∃ l, l.length = 52 ∧ entryBytes seq boots e =
    w32 (0x5A * 2 ^ 24 + seq % 2 ^ 24) ++ (w32 seq ++ l) ++ w32 (crc32 (w32 seq ++ l)) := by
  have hdata : ((e.data.flatMap fun w => w32 w.toNat).take 28).length ≤ 28 := List.length_take_le _ _
  refine ⟨w64 e.uptime ++ w64 e.epoch ++ leBytes 2 e.code ++ leBytes 2 e.slot ++ w32 boots ++
    (e.data.flatMap fun w => w32 w.toNat).take 28 ++ List.replicate (56 - (w32 seq ++ w64 e.uptime ++ w64 e.epoch ++
    leBytes 2 e.code ++ leBytes 2 e.slot ++ w32 boots ++ (e.data.flatMap fun w => w32 w.toNat).take 28).length) 0, ?_, ?_⟩
  · simp only [List.length_append, List.length_replicate, w32, w64, length_leBytes] at hdata ⊢
    omega
  · unfold entryBytes
    simp only [List.append_assoc]

theorem entryBytes_ok (seq boots : Nat) (e : BEntry) :
    (entryBytes seq boots e).length = 64 ∧ entryOk (entryBytes seq boots e) = true := by
  obtain ⟨l, hl, h⟩ := entryBytes_eq seq boots e
  have h4 := length_w32 (0x5A * 2 ^ 24 + seq % 2 ^ 24)
  have hseq := length_w32 seq
  have hbody : (w32 seq ++ l).length = 56 := by rw [List.length_append, hseq, hl]
  rw [h]
  generalize hb : w32 seq ++ l = b at hbody ⊢
  have hq : b.take 4 = w32 seq := by rw [← hb, ← hseq, List.take_left]
  refine ⟨by simp only [List.length_append, length_w32, hbody], ?_⟩
  have htake : (w32 (0x5A * 2 ^ 24 + seq % 2 ^ 24) ++ b ++ w32 (crc32 b)).take 4 = w32 (0x5A * 2 ^ 24 + seq % 2 ^ 24) := by
    rw [List.append_assoc, ← h4, List.take_left]
  have hdrop : (w32 (0x5A * 2 ^ 24 + seq % 2 ^ 24) ++ b ++ w32 (crc32 b)).drop 4 = b ++ w32 (crc32 b) := by
    rw [List.append_assoc, ← h4, List.drop_left]
  have hlast : (w32 (0x5A * 2 ^ 24 + seq % 2 ^ 24) ++ b ++ w32 (crc32 b)).drop 60 = w32 (crc32 b) := by
    have h60 : (w32 (0x5A * 2 ^ 24 + seq % 2 ^ 24) ++ b).length = 60 := by rw [List.length_append, h4, hbody]
    rw [← h60, List.drop_left]
  have h56 : (b ++ w32 (crc32 b)).take 56 = b := by rw [← hbody, List.take_left]
  have hfour : (b ++ w32 (crc32 b)).take 4 = w32 seq := by
    rw [List.take_append_of_le_length (by omega), hq]
  unfold entryOk
  rw [htake, hdrop, hlast, h56, hfour, ofLeBytes_w32, ofLeBytes_w32, ofLeBytes_w32, Nat.mod_eq_of_lt (crc32_lt b)]
  simp only [Bool.and_eq_true, decide_eq_true_eq, and_true]
  omega

/-! ### Programming (R373, R375) -/

/-- The record with the first queued entry at its head. -/
def State.bbrWritten (s : State) (e : BEntry) (l : List BEntry) : State :=
  { s with bbr := { s.bbr with
    queue := l, seq := (s.bbr.seq + 1) % 2 ^ 32, newest := s.bbr.seq
    oldest := if s.bbr.slots.isEmpty then s.bbr.seq else s.bbr.oldest
    slots := Sparse.put s.bbr.slots s.bbr.head ⟨entryBytes s.bbr.seq s.nvm.boots e, .intact⟩ } }

theorem State.bbrProgrammed_erased {e : BEntry} {l : List BEntry} (hq : s.bbr.queue = e :: l) (hready : s.bbrReady = true)
    (hfind : Sparse.find s.bbr.slots s.bbr.head = none) : s.bbrProgrammed =
      (((s.bbrWritten e l).bbrAdvance.bump64 sBbr 0x078 1).evt sBbr 0).bbrRoom := by
  unfold State.bbrProgrammed
  rw [hq]
  dsimp only
  rw [if_pos hready, hfind]
  rfl

theorem State.bbrProgrammed_torn {e : BEntry} {l : List BEntry} {y : BSlot} (hq : s.bbr.queue = e :: l)
    (hready : s.bbrReady = true) (hfind : Sparse.find s.bbr.slots s.bbr.head = some y) :
    s.bbrProgrammed = (s.bbrAdvance.bump32 sBbr 0x080 1).evt sBbr 4 := by
  unfold State.bbrProgrammed
  rw [hq]
  dsimp only
  rw [if_pos hready, hfind]
  rfl

/-- Writing goes on to the next slot; where it enters a sector, the erase of the one after starts. -/
theorem State.bbrAdvance_bbr (s : State) : s.bbrAdvance = { s with bbr := { s.bbr with
    head := (s.bbr.head + 1) % 524_288
    erasing := if s.bbr.head % 1_024 = 0 then some ((s.bbr.head / 1_024 + 1) % 512) else s.bbr.erasing } } := by
  unfold State.bbrAdvance
  dsimp only
  split
  · rfl
  · rfl

theorem State.bump64_bbr (s : State) (slot off k : Nat) : (s.bump64 slot off k).bbr = s.bbr := by
  unfold State.bump64 State.setReg64
  rfl

theorem State.bump32_side (s : State) (slot off k : Nat) : Side s (s.bump32 slot off k) := by
  unfold State.bump32 State.setRegN
  exact State.setReg_side _ _ _

/-- The record and its register after an entry is programmed, before drops are told of. -/
def State.bbrCounted (s : State) : State := (s.bump64 sBbr 0x078 1).evt sBbr 0

theorem State.bbrCounted_side (s : State) : Side s s.bbrCounted := (State.bump64_side _ _ _ _).trans (State.evt_side _ _ _)

theorem State.bbrCounted_bbr (s : State) : s.bbrCounted.bbr = s.bbr := by
  rw [State.bbrCounted, State.evt_bbr, State.bump64_bbr]

theorem State.bbrCounted_spec (s : State) : s.bbrCounted.reg64 sBbr 0x078 = min (s.reg64 sBbr 0x078 + 1) (2 ^ 64 - 1) ∧
    bit (s.bbrCounted.reg (ra sBbr 0x008)) 0 = true := by
  refine ⟨?_, State.evt_bit sBbr (b := 0) (by decide)⟩
  rw [State.bbrCounted, State.evt_reg64_of_ne _ _ _ (by decide) (by decide) (by decide) (by decide)]
  exact State.reg64_bump64 _ _ _ _

/-- The DROPPED entry touches the queue and the count of drops alone. -/
theorem State.bbrRoom_bbr (s : State) : ∃ l n, s.bbrRoom = { s with bbr := { s.bbr with queue := l, drops := n } } := by
  unfold State.bbrRoom
  split
  · exact ⟨_, _, rfl⟩
  · exact ⟨_, _, rfl⟩

/-! ### Erasing and dumps -/

theorem State.dumpOmit_none (h : s.dma = []) (l : List (List Byte)) : s.dumpOmit l = s := by
  unfold State.dumpOmit
  rw [h]
  rfl

/-- Judging a slot leaves the record alone. -/
theorem State.readSlot_bbr (s : State) (k : Nat) : (s.readSlot k).2.bbr = s.bbr := by
  unfold State.readSlot
  split
  · rfl
  · dsimp only
    split <;> rfl

theorem State.judgeSlot_bbr (s : State) (k : Nat) : (s.judgeSlot k).2.2.bbr = s.bbr :=
  (State.readSlot_bbr _ k).trans (s.readSlot_bbr k)

theorem State.validEntries_fold (l : List Nat) (acc : List (Nat × List Byte)) :
    ∀ s : State, let y := l.foldl (fun (acc, s) k =>
      let (l, ok, s1) := State.judgeSlot s k
      (if ok then acc ++ [(k, l)] else acc, s1)) (acc, s)
    ReadSide s y.2 ∧ y.2.bbr = s.bbr := by
  induction l generalizing acc with
  | nil => exact fun s => ⟨ReadSide.refl s, rfl⟩
  | cons k l ih =>
    intro s
    obtain ⟨hside, hbbr⟩ := ih (if (s.judgeSlot k).2.1 then acc ++ [(k, (s.judgeSlot k).1)] else acc) (s.judgeSlot k).2.2
    exact ⟨(s.judgeSlot_readSide k).trans hside, hbbr.trans (s.judgeSlot_bbr k)⟩

theorem State.validEntries_frame (s : State) : ReadSide s s.validEntries.2 ∧ s.validEntries.2.bbr = s.bbr :=
  State.validEntries_fold s.ringSlots [] s

theorem State.bbrBounds_frame (s : State) : ReadSide s s.bbrBounds ∧ s.bbrBounds.bbr.slots = s.bbr.slots ∧
    s.bbrBounds.bbr.erasing = s.bbr.erasing ∧ s.bbrBounds.bbr.queue = s.bbr.queue := by
  obtain ⟨hside, hbbr⟩ := s.validEntries_frame
  refine ⟨hside.trans ⟨_, _, _, _, _, rfl⟩, ?_, ?_, ?_⟩
  · show s.validEntries.2.bbr.slots = _
    rw [hbbr]
  · show s.validEntries.2.bbr.erasing = _
    rw [hbbr]
  · show s.validEntries.2.bbr.queue = _
    rw [hbbr]

/-- The record without a sector's slots. -/
def State.bbrWiped (s : State) (j : Nat) : State :=
  { s with bbr := { s.bbr with erasing := none, slots := s.bbr.slots.filter fun e => decide (e.1 / 1_024 ≠ j) } }

theorem State.bbrErased_blank {j : Nat} (h : s.bbr.erasing = some j) (hblank : ∀ e ∈ s.bbr.slots, e.1 / 1_024 ≠ j) :
    s.bbrErased = { s with bbr := { s.bbr with erasing := none } } := by
  have hgone : (s.bbr.slots.filter fun e => decide (e.1 / bbrSector = j)) = [] :=
    List.filter_eq_nil_iff.2 fun e he => by simpa using hblank e he
  have hkeep : (s.bbr.slots.filter fun e => decide (e.1 / bbrSector ≠ j)) = s.bbr.slots :=
    List.filter_eq_self.2 fun e he => by simpa using hblank e he
  unfold State.bbrErased
  rw [h]
  dsimp only
  rw [hgone, hkeep]
  rfl

theorem State.bbrErased_idle {j : Nat} (h : s.bbr.erasing = some j) (hdma : s.dma = []) :
    s.bbrErased = s.bbrWiped j ∨ s.bbrErased = (s.bbrWiped j).bbrBounds := by
  have homit (l : List (List Byte)) : (s.bbrWiped j).dumpOmit l = s.bbrWiped j :=
    State.dumpOmit_none (s := s.bbrWiped j) hdma l
  unfold State.bbrErased
  rw [h]
  dsimp only
  split
  · exact .inl rfl
  · exact .inr (congrArg State.bbrBounds (homit _))

theorem State.served_sBbr (h : s.dev ≠ .booting) : s.served sBbr = true := by
  have hdev : decide (s.dev ≠ .booting) = true := decide_eq_true h
  have hbbr : decide (sBbr = sBbr) = true := rfl
  rw [State.served, hdev, hbbr, Bool.or_true]
  rfl

/-- A write of `BBR.DUMP` that reaches its page. -/
theorem State.Reaches.hostWrite_dump (hreach : s.Reaches (ra sBbr 0x06C)) (hporst : s.porst = false) (p : Path) (v : Word) :
    s.hostWrite p (ra sBbr 0x06C) v true = s.bbrDump v := by
  have hserved : s.served (ra sBbr 0x06C / 0x400) = true := by
    rw [ra_div sBbr _ (by decide)]
    exact State.served_sBbr hreach.1
  obtain ⟨r, hreg, hty⟩ : ∃ r, regAt (ra sBbr 0x06C) = some r ∧ r.ty = .wo := ⟨_, rfl, rfl⟩
  obtain ⟨q, hpage, hkind⟩ : ∃ q, pageAt (ra sBbr 0x06C / 0x400) = some q ∧ q.kind = .bbr := ⟨_, rfl, rfl⟩
  rw [hreach.hostWrite hporst (ra_aligned sBbr (by decide)) p v, State.writeNow_wo hserved hreg hpage hty p v, hkind]
  rfl

/-- A dump's word: its bit and its channel. -/
theorem dump_word : ∀ ch : Fin 64, bit (put 1 8 1 ||| put ch 0 6) 8 = true ∧ fld (put 1 8 1 ||| put ch 0 6) 0 6 = ch := by decide

theorem State.bbrDump_refused {ch : Fin 64} (h : s.bbr.dumping = true ∨ s.pageOn (sDma ch) = false) :
    s.bbrDump (put 1 8 1 ||| put ch 0 6) = s.evt sBbr 5 := by
  obtain ⟨hbit, hch⟩ := dump_word ch
  have hcond : (s.bbr.dumping || !s.pageOn (sDma ch)) = true := by
    obtain h | h := h
    · rw [h]
      rfl
    · rw [h]
      exact Bool.or_true _
  unfold State.bbrDump
  rw [if_pos hbit, hch]
  exact if_pos hcond

/-- The dump of an empty record. -/
theorem State.bbrDump_empty {ch : Fin 64} (hdump : s.bbr.dumping = false) (hon : s.pageOn (sDma ch) = true)
    (hslots : s.bbr.slots = []) : s.bbrDump (put 1 8 1 ||| put ch 0 6) =
      ({ s with bbr := { s.bbr with dumping := true } } : State).hand ch { kind := 4, body := [], src := .dump } := by
  obtain ⟨hbit, hch⟩ := dump_word ch
  have hcond : (s.bbr.dumping || !s.pageOn (sDma ch)) = false := by
    rw [hdump, hon]
    rfl
  have hvalid : s.validEntries = ([], s) := by
    unfold State.validEntries State.ringSlots
    rw [hslots]
    rfl
  unfold State.bbrDump
  rw [if_pos hbit, hch]
  dsimp only
  rw [hcond, hvalid]
  rfl

/-! ### The window (R378) -/

/-- A slot that is erased reads ones, twice. -/
theorem State.judgeSlot_erased {k : Nat} (h : Sparse.find s.bbr.slots k = none) :
    s.judgeSlot k = (List.replicate 64 0xFF, false, s) := by
  have hread : s.readSlot k = (List.replicate 64 0xFF, s) := by
    unfold State.readSlot
    rw [h]
  have hbad : entryOk (List.replicate 64 0xFF) = false := by decide
  unfold State.judgeSlot
  simp only [hread, hbad, Bool.false_and]

/-- ENT_00 of an erased slot. -/
theorem State.bbrTake_erased (h : Sparse.find s.bbr.slots (s.reg (ra sBbr 0x024)).toNat = none) (p : Path) :
    s.bbrTake p = { s with bbr := { s.bbr with
      windows := Sparse.put s.bbr.windows (pathNum p)
        { bytes := List.replicate 64 0xFF, sel := some (s.reg (ra sBbr 0x024)).toNat, stale := false }
      selStat := 2 } } := by
  unfold State.bbrTake
  dsimp only
  rw [State.judgeSlot_erased h]
  rfl

theorem State.readNow_ent (hdev : s.dev ≠ .booting) (p : Path) :
    s.readNow p (ra sBbr 0x02C) = (winWord ((s.ticked.bbrTake p).bbrWin p).bytes 0, s.ticked.bbrTake p) := by
  have hreg : (s.ticked.hostReg (ra sBbr 0x02C)).isNone = false := by
    rw [State.hostReg_served (s := s.ticked) (a := ra sBbr 0x02C) (State.served_sBbr hdev)]
    rfl
  unfold State.readNow
  rw [← State.ticked]
  dsimp only
  rw [hreg]
  rfl

theorem State.readNow_erased (hdev : s.dev ≠ .booting) (h : Sparse.find s.bbr.slots (s.reg (ra sBbr 0x024)).toNat = none)
    (p : Path) : s.readNow p (ra sBbr 0x02C) = (0xFFFF_FFFF, s.ticked.bbrTake p) ∧ (s.ticked.bbrTake p).bbr.selStat = 2 ∧
      (s.ticked.bbrTake p).bbr.slots = s.bbr.slots := by
  have htake := State.bbrTake_erased (s := s.ticked) h p
  refine ⟨?_, ?_, ?_⟩
  · have hones : winWord (List.replicate 64 0xFF) 0 = 0xFFFF_FFFF := by decide
    rw [State.readNow_ent hdev p, ← hones, htake, State.bbrWin, Sparse.get_put_same]
  · rw [htake]
  · rw [htake]
    rfl

/-- What BBR_ENTRY_PROGRAMMED leaves at a slot that read erased. -/
theorem State.bbrProgrammed_spec {e : BEntry} {l : List BEntry} (hq : s.bbr.queue = e :: l) (hready : s.bbrReady = true)
    (hfind : Sparse.find s.bbr.slots s.bbr.head = none) :
    let x := s.bbrProgrammed
    Sparse.find x.bbr.slots s.bbr.head = some ⟨entryBytes s.bbr.seq s.nvm.boots e, .intact⟩ ∧
    (∀ k, k ≠ s.bbr.head → Sparse.find x.bbr.slots k = Sparse.find s.bbr.slots k) ∧
    (s.bbr.drops = 0 → x.bbr.queue = l) ∧
    (0 < s.bbr.drops → l.length < 256 → x.bbr.drops = 0 ∧
      ∃ y, x.bbr.queue = l ++ [y] ∧ y.code = 18 ∧ y.data = [BitVec.ofNat 32 s.bbr.drops]) ∧
    x.bbr.seq = (s.bbr.seq + 1) % 2 ^ 32 ∧ x.bbr.newest = s.bbr.seq ∧ x.bbr.head = (s.bbr.head + 1) % 524_288 ∧
    x.bbr.erasing = (if s.bbr.head % 1_024 = 0 then some ((s.bbr.head / 1_024 + 1) % 512) else s.bbr.erasing) ∧
    x.reg64 sBbr 0x078 = min (s.reg64 sBbr 0x078 + 1) (2 ^ 64 - 1) ∧ bit (x.reg (ra sBbr 0x008)) 0 = true ∧
    Side { s with bbr := x.bbr } x := by
  rw [State.bbrProgrammed_erased hq hready hfind, State.bbrAdvance_bbr, ← State.bbrCounted]
  have hput := Sparse.find_put_same s.bbr.slots s.bbr.head ⟨entryBytes s.bbr.seq s.nvm.boots e, .intact⟩
  have hother (k : Nat) (hk : k ≠ s.bbr.head) :=
    Sparse.find_put_ne s.bbr.slots (⟨entryBytes s.bbr.seq s.nvm.boots e, .intact⟩ : BSlot) (Ne.symm hk)
  generalize hu : ({ s.bbrWritten e l with bbr := { (s.bbrWritten e l).bbr with
    head := ((s.bbrWritten e l).bbr.head + 1) % 524_288
    erasing := if (s.bbrWritten e l).bbr.head % 1_024 = 0 then some (((s.bbrWritten e l).bbr.head / 1_024 + 1) % 512)
      else (s.bbrWritten e l).bbr.erasing } } : State) = u
  have hbbr : u.bbr = { s.bbr with
      queue := l, seq := (s.bbr.seq + 1) % 2 ^ 32, newest := s.bbr.seq
      oldest := if s.bbr.slots.isEmpty then s.bbr.seq else s.bbr.oldest
      slots := Sparse.put s.bbr.slots s.bbr.head ⟨entryBytes s.bbr.seq s.nvm.boots e, .intact⟩
      head := (s.bbr.head + 1) % 524_288
      erasing := if s.bbr.head % 1_024 = 0 then some ((s.bbr.head / 1_024 + 1) % 512) else s.bbr.erasing } := by
    rw [← hu]
    rfl
  have hregs : u.regs = s.regs := by
    rw [← hu]
    rfl
  have hframe : Side s u := by
    rw [← hu]
    exact ⟨_, _, _, _, _, rfl⟩
  obtain ⟨hcount, hbit⟩ := u.bbrCounted_spec
  rw [State.reg64_congr hregs] at hcount
  have hside := hframe.trans u.bbrCounted_side
  have hkept := u.bbrCounted_bbr
  rw [hbbr] at hkept
  generalize u.bbrCounted = y at hcount hbit hside hkept
  have hnone : s.bbr.drops = 0 → y.bbrRoom.bbr.queue = l := fun h => by
    rw [State.bbrRoom_of_no_drops (by rw [hkept]; exact h), hkept]
  have htold : 0 < s.bbr.drops → l.length < 256 → y.bbrRoom.bbr.drops = 0 ∧
      ∃ z, y.bbrRoom.bbr.queue = l ++ [z] ∧ z.code = 18 ∧ z.data = [BitVec.ofNat 32 s.bbr.drops] := fun h hlen => by
    rw [State.bbrRoom_of_drops (by rw [hkept]; exact hlen) (by rw [hkept]; exact h)]
    refine ⟨rfl, y.bbrEntry 18 0xFFFF [y.bbr.drops], ?_, rfl, ?_⟩
    · show y.bbr.queue ++ _ = _
      rw [hkept]
    · rw [hkept]
      rfl
  obtain ⟨l', n, hroom⟩ := y.bbrRoom_bbr
  rw [hroom] at hnone htold ⊢
  refine ⟨?_, fun k hk => ?_, hnone, htold, ?_, ?_, ?_, ?_, hcount, hbit, ?_⟩
  · show Sparse.find y.bbr.slots _ = _
    rw [hkept]
    exact hput
  · show Sparse.find y.bbr.slots _ = _
    rw [hkept]
    exact hother k hk
  · show y.bbr.seq = _
    rw [hkept]
  · show y.bbr.newest = _
    rw [hkept]
  · show y.bbr.head = _
    rw [hkept]
  · show y.bbr.erasing = _
    rw [hkept]
  · obtain ⟨_, _, _, _, _, rfl⟩ := hside
    exact ⟨_, _, _, _, _, rfl⟩

/-- Settles O24: entries as bytes, then command by command. -/
theorem blackBoxRecord : Obligations.BlackBoxRecord := by
  refine ⟨entryBytes_ok, fun s t hpow => ⟨fun e l hq hready hfind => ?_, fun e l y hq hready hfind => ?_, fun j hj hblank => ?_,
    fun j hj hdma => ?_, fun hreach p ch => ⟨fun hrefuse => ?_, fun hdump hon hslots => ?_, fun hfind => ?_⟩⟩⟩
  · have hspec := State.bbrProgrammed_spec (s := s.advance t) hq hready hfind
    obtain ⟨h1, h2, h3, h4, h5, h6, h7, h8, h9, h10, hside⟩ := hspec
    refine ⟨_, (exec_bbrEntryProgrammed t s).trans (command_eq hpow rfl (Quiet.trans (by constructor <;> rfl) hside.quiet)), ?_⟩
    exact ⟨h1, h2, h3, h4, h5, h6, h7, h8, h9, h10, hside⟩
  · have hx := State.bbrProgrammed_torn (s := s.advance t) hq hready hfind
    have hadvance := (s.advance t).bbrAdvance_bbr
    generalize (s.advance t).bbrAdvance = u at hx hadvance
    have hside := (u.bump32_side sBbr 0x080 1).trans (State.evt_side _ sBbr 4)
    have hbbr : ((u.bump32 sBbr 0x080 1).evt sBbr 4).bbr = u.bbr := (State.evt_bbr _ _ _).trans rfl
    have hbit : bit (((u.bump32 sBbr 0x080 1).evt sBbr 4).reg (ra sBbr 0x008)) 4 = true := State.evt_bit sBbr (by decide)
    have hquiet : Quiet (s.advance t) u := by
      rw [hadvance]
      constructor <;> rfl
    refine ⟨_, (exec_bbrEntryProgrammed t s).trans (command_eq hpow hx (hquiet.trans hside.quiet)), ?_, ?_, ?_, hbit⟩
    · rw [hbbr, hadvance]
      rfl
    · rw [hbbr, hadvance]
      rfl
    · rw [hbbr, hadvance]
      rfl
  · have hx := State.bbrErased_blank (s := s.advance t) hj hblank
    exact (exec_bbrSectorErased t s).trans (command_eq hpow hx (by constructor <;> rfl))
  · have hwiped : Quiet (s.advance t) ((s.advance t).bbrWiped j) := by constructor <;> rfl
    obtain hx | hx := State.bbrErased_idle (s := s.advance t) hj hdma
    · exact ⟨_, (exec_bbrSectorErased t s).trans (command_eq hpow hx hwiped), rfl, rfl, rfl⟩
    · obtain ⟨hside, hslots, herasing, hqueue⟩ := ((s.advance t).bbrWiped j).bbrBounds_frame
      exact ⟨_, (exec_bbrSectorErased t s).trans (command_eq hpow hx (hwiped.trans hside.quiet)), hslots, herasing, hqueue⟩
  · have hx := (State.Reaches.hostWrite_dump (s := s.advance t) hreach hpow.1 p _).trans (State.bbrDump_refused (s := s.advance t) hrefuse)
    exact (exec_bbrDump t p ch s).trans (command_evt hpow hx)
  · have hx := (State.Reaches.hostWrite_dump (s := s.advance t) hreach hpow.1 p _).trans
      (State.bbrDump_empty (s := s.advance t) hdump hon hslots)
    exact (exec_bbrDump t p ch s).trans (command_eq hpow hx (by constructor <;> rfl))
  · have hpage : ra sBbr 0x02C / 0x400 = ra sBbr 0x06C / 0x400 := by decide
    obtain ⟨hx, hstat, hslots⟩ := State.readNow_erased (s := s.advance t) hreach.1 hfind p
    have hside : ReadSide (s.advance t) ((s.advance t).ticked.bbrTake p) :=
      ReadSide.trans ⟨_, _, _, _, _, rfl⟩ (State.bbrTake_readSide _ p)
    refine ⟨_, (exec_bbrEntRead t p s).trans (command_hostRead hpow (hreach.samePage hpage) (by decide) hx hside.quiet), ?_, hstat, hslots⟩
    rw [State.emit_out, hside.out]
    rfl

end Sys2Proof.Machine
end

section
/-! Proofs about the requests of a calibration run (16_calibration.md, R311, R312). -/

namespace Sys2Proof.Machine

variable {s x : State} {t a off slot ch : Nat} {p : Path} {v : Word} {r : RegInfo} {q : PageInfo}

/-- What a command out of reset answers. -/
theorem next_of {c : Instr} {f : State → State} (hpow : s.Powered) (hc : exec c s = command t f s) (hx : f (s.advance t) = x)
    (hq : Quiet (s.advance t) x) : exec c s = .next x := hc.trans (command_eq hpow hx hq)

theorem answers_of {c : Instr} {f : State → State} {P : State → Prop} (hpow : s.Powered) (hc : exec c s = command t f s)
    (hx : f (s.advance t) = x) (hq : Quiet (s.advance t) x) (hp : P x) : Answers c s P := ⟨x, next_of hpow hc hx hq, hp⟩

/-- A write of a write-only register that reaches its page. -/
theorem State.Reaches.hostWrite_wo (hreach : s.Reaches (ra slot off)) (hporst : s.porst = false) (hserved : s.served slot = true)
    (hoff : off < 0x400) (hmod : off % 4 = 0) (hreg : regAt (ra slot off) = some r) (hty : r.ty = .wo)
    (hpage : pageAt slot = some q) (p : Path) (v : Word) :
    s.hostWrite p (ra slot off) v true = s.woWrite q.kind (slot - q.first) off v := by
  have hslot : ra slot off / 0x400 = slot := ra_div slot off hoff
  have hin : ra slot off % 0x400 = off := ra_mod slot off hoff
  have hserved' : s.served (ra slot off / 0x400) = true := by rw [hslot]; exact hserved
  have hpage' : pageAt (ra slot off / 0x400) = some q := by rw [hslot]; exact hpage
  rw [hreach.hostWrite hporst (ra_aligned slot hmod) p v, State.writeNow_wo hserved' hreg hpage' hty p v, hslot, hin]

/-! ### The words of CAL.CMD -/

theorem State.Reaches.hostWrite_cal (hreach : s.Reaches (ra sCal 0x018)) (hporst : s.porst = false) (hserved : s.served sCal = true)
    (p : Path) (v : Word) : s.hostWrite p (ra sCal 0x018) v true = s.calCmd v :=
  hreach.hostWrite_wo hporst hserved (by decide) (by decide) (r := ⟨.wo, _, _⟩) rfl rfl (q := ⟨.cal, _, _, _, _, _⟩) rfl p v

/-- CAL_FULL_RUN's word. -/
theorem fullRun_word (store : Bool) :
    fld (put (b2n store) 15 1 ||| 1) 0 2 = 1 ∧ bit (put (b2n store) 15 1 ||| 1) 15 = store := by
  cases store <;> decide

/-- CAL_CHANNEL_RUN's word, as a number. -/
theorem channelRun_toNat (ch : BitVec 7) (store : Bool) :
    (put (b2n store) 15 1 ||| put ch.toNat 8 7 ||| 2).toNat = b2n store * 2 ^ 15 + (ch.toNat * 2 ^ 8 + 2) := by
  have hch := ch.isLt
  have hb := b2n_le store
  have hlow : put ch.toNat 8 7 ||| 2 = BitVec.ofNat 32 (ch.toNat * 2 ^ 8 + 2) := by
    refine BitVec.eq_of_toNat_eq ?_
    rw [show (2 : Word) = BitVec.ofNat 32 2 from rfl, put_or_toNat hch (by decide) (by decide), BitVec.toNat_ofNat]
    omega
  rw [BitVec.or_assoc, hlow, put_or_toNat (by omega) (by decide) (by omega)]

theorem channelRun_word (ch : BitVec 7) (store : Bool) :
    fld (put (b2n store) 15 1 ||| put ch.toNat 8 7 ||| 2) 0 2 = 2 ∧
    fld (put (b2n store) 15 1 ||| put ch.toNat 8 7 ||| 2) 8 7 = ch.toNat := by
  have hch := ch.isLt
  have hb := b2n_le store
  simp only [fld, channelRun_toNat, Nat.shiftRight_eq_div_pow]
  omega

theorem channelRun_store (ch : BitVec 7) (store : Bool) :
    bit (put (b2n store) 15 1 ||| put ch.toNat 8 7 ||| 2) 15 = store := by
  have hch := ch.isLt
  rw [bit, BitVec.getLsbD, channelRun_toNat, Nat.testBit_eq_decide_div_mod_eq]
  cases store
  · exact decide_eq_false (by rw [show b2n false = 0 from rfl]; omega)
  · exact decide_eq_true (by rw [show b2n true = 1 from rfl]; omega)

theorem State.calCmd_full (s : State) (store : Bool) : s.calCmd (put (b2n store) 15 1 ||| 1) = s.calFull store := by
  obtain ⟨hcode, hstore⟩ := fullRun_word store
  rw [State.calCmd, hcode, hstore]
  rfl

theorem State.calCmd_one (s : State) (ch : BitVec 7) (store : Bool) :
    s.calCmd (put (b2n store) 15 1 ||| put ch.toNat 8 7 ||| 2) = s.calOne ch.toNat store := by
  obtain ⟨hcode, hch⟩ := channelRun_word ch store
  rw [State.calCmd, hcode, hch, channelRun_store]
  rfl

/-! ### Requests -/

theorem State.setCal_quiet (s : State) (c : Cal) : Quiet s { s with cal := c } := by constructor <;> rfl

theorem State.calFull_eq (s : State) (store : Bool) : ∃ c, s.calFull store = { s with cal := c } := by
  unfold State.calFull
  dsimp only
  split <;> exact ⟨_, rfl⟩

theorem State.calFull_quiet (s : State) (store : Bool) : Quiet s (s.calFull store) := by
  obtain ⟨c, hc⟩ := s.calFull_eq store
  rw [hc]
  exact s.setCal_quiet c

/-- A request that arrives with no full run pending. -/
theorem State.calFull_idle (hpend : s.cal.pendingFull = none) (hwait : s.cal.waiting = none) (store : Bool) :
    (s.cal.run = none → s.calFull store = { s with cal := { s.cal with waiting := some (none, store) } }) ∧
    (s.cal.run ≠ none → s.calFull store = { s with cal := { s.cal with pendingFull := some store } }) := by
  unfold State.calFull
  dsimp only
  rw [hpend, hwait]
  constructor
  · intro h
    rw [h]
  · intro h
    cases hrun : s.cal.run with
    | none => exact absurd hrun h
    | some e => rfl

theorem State.calFull_pending {st : Bool} (h : s.cal.pendingFull = some st) (store : Bool) :
    s.calFull store = { s with cal := { s.cal with pendingFull := some (st || store) } } := by
  unfold State.calFull
  dsimp only
  rw [h]

theorem State.calOne_above (h : 102 ≤ ch) (store : Bool) : s.calOne ch store = s := if_pos h

theorem State.calOne_merged (h : ch < 102) (hreach : s.cal.reaches ch = true) : s.calOne ch false = s := by
  unfold State.calOne
  dsimp only
  rw [if_neg (Nat.not_le.mpr h), if_pos hreach, if_neg Bool.false_ne_true]

theorem State.calOne_waits (h : ch < 102) (hreach : s.cal.reaches ch = false) (hrun : s.cal.run = none)
    (hwait : s.cal.waiting = none) (store : Bool) :
    s.calOne ch store = { s with cal := { s.cal with waiting := some (some ch, store) } } := by
  unfold State.calOne
  dsimp only
  rw [if_neg (Nat.not_le.mpr h), hreach, if_neg Bool.false_ne_true, hrun, hwait]
  rfl

/-- Behind a run a channel queues, up to eight. -/
theorem State.calOne_queues (h : ch < 102) (hreach : s.cal.reaches ch = false) (hrun : s.cal.run ≠ none) (store : Bool) :
    s.calOne ch store = if 8 ≤ s.cal.reqs.length then s.evt sCal 6
      else { s with cal := { s.cal with reqs := s.cal.reqs ++ [(ch, store)] } } := by
  have hbusy : s.cal.run.isNone = false := by
    cases hr : s.cal.run with
    | none => exact absurd hr hrun
    | some e => rfl
  unfold State.calOne
  dsimp only
  rw [if_neg (Nat.not_le.mpr h), hreach, if_neg Bool.false_ne_true, hbusy, Bool.false_and, if_neg Bool.false_ne_true]

/-! ### Temperature -/

theorem State.calTemp_eq (hporst : s.porst = false) (temp : BitVec 16) : s.calTemp temp =
    if s.rfld sCal 0x014 0 8 ≠ 0 ∧
        s.rfld sCal 0x014 0 8 < (signed 16 temp.toNat - signed 16 (s.reg (ra sCal 0x020)).toNat).natAbs then
      ((s.setReg (ra sCal 0x024) (temp.setWidth 32)).evt sCal 1).calFull false
    else s.setReg (ra sCal 0x024) (temp.setWidth 32) := by
  have hword : s.setRegN sCal 0x024 temp.toNat = s.setReg (ra sCal 0x024) (temp.setWidth 32) := by
    rw [State.setRegN, BitVec.ofNat_toNat]
  have hbase : (s.setReg (ra sCal 0x024) (temp.setWidth 32)).reg (ra sCal 0x020) = s.reg (ra sCal 0x020) :=
    State.setReg_reg_ne s _ (by decide)
  have hdelta : (s.setReg (ra sCal 0x024) (temp.setWidth 32)).rfld sCal 0x014 0 8 = s.rfld sCal 0x014 0 8 := by
    rw [State.rfld, State.rfld, State.setReg_reg_ne s _ (by decide)]
  unfold State.calTemp
  rw [if_neg (by rw [hporst]; decide), hword]
  dsimp only
  rw [hbase, hdelta]

/-! ### The start of a run -/

/-- What the engine holds once the waiting run has started. -/
def Cal.started (c : Cal) (w : Option Nat) (store : Bool) (todo : List Nat) : Cal :=
  { c with run := some (w, store), waiting := none, chans := [], passed := 0, failed := 0, changed := false, todo := todo }

theorem State.calStart_eq (hrun : s.cal.run = none) (hlock : s.loop.lockT = true) (hdev : s.dev ≠ .booting) (st : Bool) :
    (s.cal.waiting = some (none, st) → s.calStart =
      ({ s with cal := s.cal.started none st (List.range 102) } : State).setReg (ra sCal 0x020) (s.reg (ra sCal 0x024))) ∧
    (∀ ch, s.cal.waiting = some (some ch, st) → s.calStart = { s with cal := s.cal.started (some ch) st [ch] }) := by
  have hgo : (s.loop.lockT && decide (s.dev ≠ .booting)) = true := by rw [hlock, decide_eq_true hdev]; rfl
  unfold State.calStart
  refine ⟨fun hw => ?_, fun ch hw => ?_⟩ <;> rw [hw, hrun] <;> dsimp only <;> rw [if_pos hgo] <;> rfl

theorem State.calStart_unlocked (h : s.loop.lockT = false) : s.calStart = s := by
  have hno (w : Bool) : (s.loop.lockT && w) = false := by rw [h, Bool.false_and]
  unfold State.calStart
  split
  · dsimp only
    rw [hno, if_neg Bool.false_ne_true]
  · rfl

/-- Settles O26: each request by the state of the engine that it meets. -/
theorem calibrationRequests : Obligations.CalibrationRequests := by
  intro s t p store hpow hreach hserved
  have hcmd (v : Word) : (s.advance t).hostWrite p (ra sCal 0x018) v true = (s.advance t).calCmd v :=
    State.Reaches.hostWrite_cal (s := s.advance t) hreach hpow.1 hserved p v
  have hfull : (s.advance t).hostWrite p (ra sCal 0x018) (put (b2n store) 15 1 ||| 1) true = (s.advance t).calFull store := by
    rw [hcmd, State.calCmd_full]
  have hone (ch : BitVec 7) (store : Bool) :
      (s.advance t).hostWrite p (ra sCal 0x018) (put (b2n store) 15 1 ||| put ch.toNat 8 7 ||| 2) true =
        (s.advance t).calOne ch.toNat store := by
    rw [hcmd, State.calCmd_one]
  refine ⟨fun hpend hwait hrun => ?_, fun hpend hwait hrun => ?_, fun st hpend => ?_, fun ch hch => ?_, fun ch hch hr => ?_,
    fun ch hch hr => ⟨fun hrun hwait => ?_, fun hrun hlen => ?_, fun hrun hlen => ?_⟩, fun temp => ⟨fun hin => ?_, fun hd hout => ?_⟩,
    fun hrun hlock => ⟨fun st hwait => ?_, fun ch st hwait => ?_⟩, fun hlock => ?_⟩
  · exact next_of hpow (exec_calFullRun t p store s) (hfull.trans ((State.calFull_idle (s := s.advance t) hpend hwait store).1 hrun))
      (State.setCal_quiet _ _)
  · exact next_of hpow (exec_calFullRun t p store s) (hfull.trans ((State.calFull_idle (s := s.advance t) hpend hwait store).2 hrun))
      (State.setCal_quiet _ _)
  · exact next_of hpow (exec_calFullRun t p store s) (hfull.trans (State.calFull_pending (s := s.advance t) hpend store))
      (State.setCal_quiet _ _)
  · exact next_of hpow (exec_calChannelRun t p ch store s) ((hone ch store).trans (State.calOne_above hch store)) (Quiet.refl _)
  · exact next_of hpow (exec_calChannelRun t p ch false s) ((hone ch false).trans (State.calOne_merged (s := s.advance t) hch hr))
      (Quiet.refl _)
  · exact next_of hpow (exec_calChannelRun t p ch store s)
      ((hone ch store).trans (State.calOne_waits (s := s.advance t) hch hr hrun hwait store)) (State.setCal_quiet _ _)
  · have hq := State.calOne_queues (s := s.advance t) hch hr hrun store
    exact next_of hpow (exec_calChannelRun t p ch store s) (((hone ch store).trans hq).trans (if_neg (Nat.not_le.mpr hlen)))
      (State.setCal_quiet _ _)
  · have hq := State.calOne_queues (s := s.advance t) hch hr hrun store
    exact next_of hpow (exec_calChannelRun t p ch store s) (((hone ch store).trans hq).trans (if_pos hlen)) (State.evt_quiet _ _ _)
  · refine next_of hpow (exec_tempSample t temp s) ((State.calTemp_eq (s := s.advance t) hpow.1 temp).trans (if_neg fun h => ?_))
      (State.setReg_side _ _ _).quiet
    exact hin.elim h.1 (Nat.not_le.mpr h.2)
  · exact next_of hpow (exec_tempSample t temp s) ((State.calTemp_eq (s := s.advance t) hpow.1 temp).trans (if_pos ⟨hd, hout⟩))
      (((State.setReg_side _ _ _).quiet.trans (State.evt_quiet _ _ _)).trans (State.calFull_quiet _ _))
  · exact answers_of hpow (exec_calRunStart t s) ((State.calStart_eq (s := s.advance t) hrun hlock hreach.1 st).1 hwait)
      ((State.setCal_quiet _ _).trans (State.setReg_side _ _ _).quiet) ⟨rfl, rfl, rfl, State.setReg_reg_same _ _ _, rfl⟩
  · exact next_of hpow (exec_calRunStart t s) ((State.calStart_eq (s := s.advance t) hrun hlock hreach.1 st).2 ch hwait)
      (State.setCal_quiet _ _)
  · exact next_of hpow (exec_calRunStart t s) (State.calStart_unlocked (s := s.advance t) hlock) (Quiet.refl _)

end Sys2Proof.Machine
end

section
/-! Proofs about the steps of a calibration channel (16_calibration.md, R313 to R319): each step's end, the bank switch, and
the end of a channel's run. -/

namespace Sys2Proof.Machine

variable {s x : State} {t a off slot ch : Nat} {p : Path} {v : Word} {r : RegInfo} {q : PageInfo} {k : CalCh} {e : Nat}

theorem exists_eq_ite {α β : Type} {f : α → β} {c : Prop} [Decidable c] {a b : β} (ha : ∃ y, a = f y) (hb : ∃ y, b = f y) :
    ∃ y, (if c then a else b) = f y := by
  split
  · exact ha
  · exact hb

/-! ### A channel of the run -/

@[simp] theorem State.setCalCh_calCh (s : State) (c : Nat) (k : CalCh) : (s.setCalCh c k).calCh c = some k :=
  Sparse.find_put_same _ _ _

theorem State.setCalCh_quiet (s : State) (c : Nat) (k : CalCh) : Quiet s (s.setCalCh c k) := s.setCal_quiet _

theorem State.setStamper_quiet (s : State) (n : Nat) (y : Stamper) : Quiet s (s.setStamper n y) := by constructor <;> rfl

theorem State.setTout_quiet (s : State) (n : Nat) (y : Tout) : Quiet s (s.setTout n y) := by constructor <;> rfl

theorem State.fresh_quiet (s : State) : Quiet s s.fresh.2 := by constructor <;> rfl

/-- A channel that tries its next step keeps all but the edge at which that begins. -/
theorem State.calTryStep_set (s : State) (c : Nat) (k : CalCh) : ∃ e m,
    (s.setCalCh c k).calTryStep c = { s with cal := { s.cal with chans := m } } ∧ Sparse.find m c = some { k with stepAt := e } := by
  unfold State.calTryStep
  rw [State.setCalCh_calCh]
  dsimp only
  split
  · exact ⟨some s.now, _, rfl, Sparse.find_put_same _ _ _⟩
  · exact ⟨k.stepAt, _, rfl, Sparse.find_put_same _ _ _⟩

/-- A step that has lasted its time. -/
theorem State.calDue_over {n : Nat} (hk : s.calCh ch = some k) (hat : k.stepAt = some e) (hstep : k.step = n)
    (hover : e + calStepLen n ≤ s.now) : s.calDue ch n = some k := by
  rw [State.calDue, hk]
  dsimp only
  rw [hat]
  exact if_pos ⟨hstep, hover⟩

theorem State.calDue_early {n : Nat} (hk : s.calCh ch = some k) (hat : k.stepAt = some e) (hover : s.now < e + calStepLen n) :
    s.calDue ch n = none := by
  rw [State.calDue, hk]
  dsimp only
  rw [hat]
  exact if_neg fun h => Nat.not_le.mpr hover h.2

/-- What a channel is left with where a step fails. -/
def CalCh.stopped (k : CalCh) (step now : Nat) : CalCh :=
  { k with stepAt := none, suspended := 0, failed := true, failStep := step, endAt := some now }

/-- A step that fails ends the channel's run and changes no selection. -/
theorem State.calFail_spec (s : State) (ch : Nat) {n : Nat} (hstep : k.step = n) :
    (s.calFail ch k).calCh ch = some (k.stopped n s.now) ∧ (s.calFail ch k).stampers = s.stampers ∧
    (s.calFail ch k).touts = s.touts ∧ (s.calFail ch k).regs = s.regs := by
  subst hstep
  exact ⟨s.setCalCh_calCh ch _, rfl, rfl, rfl⟩

theorem State.calFail_quiet (s : State) (ch : Nat) (k : CalCh) : Quiet s (s.calFail ch k) := s.setCalCh_quiet ch _

/-! ### The start of a channel -/

theorem State.calMark_eq (s : State) (c : Nat) (b : Bool) :
    ∃ m o, s.calMark c b = { s with stampers := m, touts := o } ∧ (Sparse.get ({} : Stamper) m c).calRun = b := by
  have hcal : ((s.setStamper c { s.stamper c with calRun := b }).stamper c).calRun = b := by rw [State.setStamper_same]
  unfold State.calMark
  dsimp only
  split
  · exact ⟨_, _, rfl, hcal⟩
  · exact ⟨_, s.touts, rfl, hcal⟩

theorem State.calChanStart_taken {l : List Nat} (hrun : s.cal.run ≠ none) (htodo : s.cal.todo = ch :: l)
    (hroom : s.cal.chans.length < 8) : s.calChanStart ch =
      (({ s with cal := { s.cal with todo := l, chans := Sparse.put s.cal.chans ch {} } } : State).calMark ch true).calTryStep ch := by
  unfold State.calChanStart
  rw [htodo]
  cases hr : s.cal.run with
  | none => exact absurd hr hrun
  | some w => exact if_pos ⟨rfl, hroom⟩

theorem State.calChanStart_spec {l : List Nat} (hrun : s.cal.run ≠ none) (htodo : s.cal.todo = ch :: l)
    (hroom : s.cal.chans.length < 8) : ∃ y m o, s.calChanStart ch = { s with cal := y, stampers := m, touts := o } ∧
      y.todo = l ∧ (Sparse.find y.chans ch).isSome = true ∧ (Sparse.get ({} : Stamper) m ch).calRun = true := by
  obtain ⟨m, o, hmark, hcal⟩ := State.calMark_eq { s with cal := { s.cal with todo := l, chans := Sparse.put s.cal.chans ch {} } } ch true
  obtain ⟨e, n, htry, hfind⟩ := State.calTryStep_set { s with cal := { s.cal with todo := l }, stampers := m, touts := o } ch {}
  rw [State.calChanStart_taken hrun htodo hroom, hmark]
  exact ⟨_, _, _, htry, rfl, by rw [hfind]; rfl, hcal⟩

theorem State.calChanStart_full (hfull : 8 ≤ s.cal.chans.length) : s.calChanStart ch = s := by
  unfold State.calChanStart
  split
  · exact if_neg fun h => Nat.not_le.mpr h.2 hfull
  · rfl

/-! ### The steps -/

theorem State.calCell_early (c : CellResult) (hdue : s.calDue ch 0 = none) : s.calCell ch c = s := by
  unfold State.calCell
  rw [hdue]

theorem State.calCell_bad {c : CellResult} (hdue : s.calDue ch 0 = some k) (hbad : cellOk c = false) : s.calCell ch c = s.calFail ch k := by
  unfold State.calCell
  rw [hdue]
  dsimp only
  rw [hbad, if_neg Bool.false_ne_true]

/-- The selection of a good cell step goes into the out-of-service interpolator. -/
theorem State.calCell_good {c : CellResult} (hdue : s.calDue ch 0 = some k) (hgood : cellOk c = true) :
    ∃ y, s.calCell ch c = { s.setStamper ch ((s.stamper ch).setInterp (s.stamper ch).oos
      { (s.stamper ch).interp (s.stamper ch).oos with cell := c.sel }) with cal := y } := by
  unfold State.calCell
  rw [hdue]
  dsimp only
  rw [if_pos hgood]
  refine exists_eq_ite ⟨_, rfl⟩ ?_
  obtain ⟨e, m, hm, -⟩ := State.calTryStep_set _ ch _
  rw [hm]
  exact ⟨_, rfl⟩

theorem State.calPair_bad {c : PairResult} (hdue : s.calDue ch 1 = some k) (hbad : 3000 < c.offsetUv) :
    s.calPair ch c = s.calFail ch k := by
  unfold State.calPair
  rw [hdue]
  exact if_pos hbad

theorem State.calPair_good {c : PairResult} (hdue : s.calDue ch 1 = some k) (hgood : c.offsetUv ≤ 3000) :
    s.calPair ch c = (s.setCalCh ch { k with
      step := 2, stepAt := none, suspended := 0
      pair := if c.serviceUv < c.offsetUv then (s.stamper ch).pair else c.pair }).calTryStep ch := by
  unfold State.calPair
  rw [hdue]
  exact if_neg (Nat.not_lt.mpr hgood)

/-- Two equal measurements give the delay. -/
theorem State.calDelay_same (s : State) (d : Int) : s.calDelay d d = (d, s.fresh.2) := by
  unfold State.calDelay
  dsimp only
  rw [Int.min_self, Int.sub_self, Int.natAbs_zero, Nat.zero_add, Nat.mod_one]
  exact Prod.ext (Int.add_zero d) rfl

theorem State.delayOk_apart {d1 d2 : Int} (h : 8 < (d1 - d2).natAbs) (new old : Int) : s.delayOk d1 d2 new old = false := by
  rw [State.delayOk, decide_eq_false (Nat.not_le.mpr h), Bool.false_and]

theorem State.delayOk_far (hcopy : s.cal.noCopy = false) {new old : Int} (h : 80 < (new - old).natAbs) (d1 d2 : Int) :
    s.delayOk d1 d2 new old = false := by
  rw [State.delayOk, hcopy, decide_eq_false (Nat.not_le.mpr h), Bool.or_self, Bool.and_false]

theorem State.delayOk_near (d : Int) {new old : Int} (h : s.cal.noCopy = true ∨ (new - old).natAbs ≤ 80) :
    s.delayOk d d new old = true := by
  have hsame : (d - d).natAbs ≤ 8 := by rw [Int.sub_self]; decide
  rw [State.delayOk, decide_eq_true hsame, Bool.true_and, Bool.or_eq_true, decide_eq_true_eq]
  exact h

theorem State.calPin_bad {d1 d2 : Int} (hdue : s.calDue ch 2 = some k)
    (hbad : s.fresh.2.delayOk d1 d2 (s.calDelay d1 d2).1 (s.stamper ch).dPin = false) :
    s.calPin ch d1 d2 = s.fresh.2.calFail ch k := by
  unfold State.calPin
  rw [hdue]
  exact if_neg (Bool.eq_false_iff.mp hbad)

/-- A good pin step leaves pair and delay for the next swap. -/
theorem State.calPin_good {d : Int} (hdue : s.calDue ch 2 = some k) (hgood : s.fresh.2.delayOk d d d (s.stamper ch).dPin = true) :
    ∃ y, s.calPin ch d d = { s.fresh.2.setStamper ch { s.stamper ch with dPinNext := some (d, k.pair) } with cal := y } := by
  unfold State.calPin
  rw [hdue, State.calDelay_same]
  dsimp only
  rw [if_pos (show s.fresh.2.delayOk d d d (s.fresh.2.stamper ch).dPin = true from hgood)]
  obtain ⟨e, m, hm, -⟩ := State.calTryStep_set _ ch _
  rw [hm]
  exact ⟨_, rfl⟩

theorem State.calTap_bad {c : TapResult} (hdue : s.calDue ch 3 = some k)
    (hbad : c.g16 < 15938 ∨ 17616 < c.g16 ∨ c.monotonic = false ∨ 500 < c.dnlMilli) :
    s.calTap ch c = s.fresh.2.calFail ch k := by
  unfold State.calTap
  rw [hdue]
  refine if_neg fun ⟨hlo, hhi, hmono, hdnl, _⟩ => ?_
  rcases hbad with h | h | h | h
  · omega
  · omega
  · rw [h] at hmono
    exact Bool.false_ne_true hmono
  · omega

/-- A good tap step leaves the bank for its switch. -/
theorem State.calTap_good {c : TapResult} (hdue : s.calDue ch 3 = some k) (hlo : 15938 ≤ c.g16) (hhi : c.g16 ≤ 17616)
    (hmono : c.monotonic = true) (hdnl : c.dnlMilli ≤ 500) (hsame : c.dOut1 = c.dOut2)
    (hnear : s.cal.noCopy = true ∨ (c.dOut1 - (s.tout (ch - 64)).dOut).natAbs ≤ 80) :
    s.calTap ch c = (s.fresh.2.setTout (ch - 64) { s.tout (ch - 64) with tapNext := some (c.taps, c.g16, c.dOut1, s.now) }).setCalCh
      ch { k with step := 4, stepAt := none, suspended := 0 } := by
  unfold State.calTap
  rw [hdue, ← hsame, State.calDelay_same]
  exact if_pos ⟨hlo, hhi, hmono, hdnl, State.delayOk_near (s := s.fresh.2) c.dOut1 hnear⟩

/-! ### The bank switch -/

/-- An output with the bank that waited, its transitions relaunched. -/
def Tout.switchBank (o : Tout) (taps g : Nat) (d : Int) (now : Nat) : Tout :=
  { o with
    taps := taps, g16 := g, dOut := d, bank := 1 - o.bank, tapNext := none, switched := some now
    flight := o.flight.map fun x => x.relaunch now d g }

theorem State.bankSwitch_eq {taps g : Nat} {d : Int} (hch : 64 ≤ ch) (hk : s.calCh ch = some k)
    (hnext : (s.tout (ch - 64)).tapNext = some (taps, g, d, e)) (hin : s.now ≤ e + 2 ^ 20) (hfree : s.bankFree (ch - 64) = true) :
    ∃ y, s.bankSwitch ch = { s.setTout (ch - 64) ((s.tout (ch - 64)).switchBank taps g d s.now) with cal := y } ∧
      ((s.stamper ch).dPinNext = none → Sparse.find y.chans ch = some { k with endAt := some (s.now + 8) }) := by
  unfold State.bankSwitch
  dsimp only
  rw [hnext, hk]
  dsimp only
  rw [if_pos ⟨hch, hin, hfree⟩]
  cases hpin : (s.stamper ch).dPinNext with
  | none => exact ⟨_, rfl, fun _ => Sparse.find_put_same _ _ _⟩
  | some y => exact ⟨_, rfl, fun h => absurd h (Option.some_ne_none y)⟩

theorem State.bankTimeout_late {taps g : Nat} {d : Int} (hch : 64 ≤ ch) (hk : s.calCh ch = some k)
    (hnext : (s.tout (ch - 64)).tapNext = some (taps, g, d, e)) (hlate : e + 2 ^ 20 < s.now) : s.bankTimeout ch =
      (s.setTout (ch - 64) { s.tout (ch - 64) with tapNext := none }).calFail ch { k with step := 3 } := by
  unfold State.bankTimeout
  dsimp only
  rw [hnext, hk]
  exact if_pos ⟨hch, hlate⟩

theorem State.bankTimeout_early {taps g : Nat} {d : Int} (hnext : (s.tout (ch - 64)).tapNext = some (taps, g, d, e))
    (hin : s.now ≤ e + 2 ^ 20) : s.bankTimeout ch = s := by
  unfold State.bankTimeout
  dsimp only
  rw [hnext]
  split
  case h_1 heq hk =>
    obtain rfl : e = _ := congrArg (fun y : Nat × Nat × Int × Nat => y.2.2.2) (Option.some.inj heq)
    exact if_neg fun h => Nat.not_le.mpr h.2 hin
  case h_2 => rfl

/-! ### The end of a channel -/

/-- What a failed channel leaves in the page's counters and events. -/
def State.calFailed (s : State) (data : List Nat) : State := ((s.bump64 sCal 0x044 1).evt sCal 2).bbrPush 5 sCal data

theorem State.calFailed_side (s : State) (data : List Nat) : Side s (s.calFailed data) :=
  ((State.bump64_side _ _ _ _).trans (State.evt_side _ _ _)).trans (State.bbrPush_side _ _ _ _)

theorem State.calFailed_reg (s : State) (data : List Nat) (hlo : 0x008 < off) (hhi : off < 0x044) :
    (s.calFailed data).reg (ra sCal off) = s.reg (ra sCal off) := by
  have hne {i : Nat} (hi : i ≠ off) : ra sCal i ≠ ra sCal off := fun h => hi (Nat.add_left_cancel h)
  rw [State.calFailed, State.bbrPush_reg_page 5 sCal data (by rw [ra_div sCal off (by omega)]; decide),
    State.evt_reg_of_ne 2 (hne (by omega)) (hne (by omega)), State.bump64_reg (hne (by omega)) (hne (by omega))]

theorem State.calFailed_count (s : State) (data : List Nat) :
    (s.calFailed data).reg64 sCal 0x044 = min (s.reg64 sCal 0x044 + 1) (2 ^ 64 - 1) := by
  have hlo : ra sCal 0x044 / 0x400 ≠ sBbr := by decide
  have hhi : ra sCal (0x044 + 4) / 0x400 ≠ sBbr := by decide
  rw [State.calFailed, State.reg64, State.bbrPush_reg_page 5 sCal data hlo, State.bbrPush_reg_page 5 sCal data hhi, ← State.reg64,
    State.evt_reg64_of_ne _ _ _ (by decide) (by decide) (by decide) (by decide), State.reg64_bump64]

theorem State.calFailed_event (s : State) (data : List Nat) : bit ((s.calFailed data).reg (ra sCal 0x008)) 2 = true := by
  rw [State.calFailed, State.bbrPush_reg_page 5 sCal data (by decide)]
  exact State.evt_bit sCal (by decide)

/-- The run without a channel that ends. -/
def Cal.without (c : Cal) (ch : Nat) (failed : Bool) : Cal :=
  { c with chans := Sparse.del ch c.chans, passed := c.passed + b2n !failed, failed := c.failed + b2n failed }

/-- A channel's result noted, its marks gone. -/
def State.calEnded (s : State) (ch : Nat) (failed : Bool) : State :=
  (({ s with cal := s.cal.without ch failed } : State).calMark ch false).setRfld sCal (0x028 + 4 * (ch / 32)) (ch % 32) 1 (b2n failed)

theorem State.calChanEnd_early (hk : s.calCh ch = some k) (hend : k.endAt = some e) (hearly : s.now < e) : s.calChanEnd ch = s := by
  unfold State.calChanEnd
  rw [hk]
  dsimp only
  rw [hend]
  exact if_neg (Nat.not_le.mpr hearly)

/-- A channel of a full run ends: a failed one counts, sets CHAN_FAIL and leaves an entry. -/
theorem State.calChanEnd_full {st : Bool} (hk : s.calCh ch = some k) (hend : k.endAt = some e) (hover : e ≤ s.now)
    (hrun : s.cal.run = some (none, st)) : s.calChanEnd ch =
      if k.failed then (s.calEnded ch k.failed).calFailed [ch, k.failStep] else s.calEnded ch k.failed := by
  unfold State.calChanEnd
  rw [hk]
  dsimp only
  rw [hend]
  dsimp only
  rw [if_pos hover, if_neg (by rw [hrun]; exact Bool.false_ne_true)]
  rfl

theorem State.calEnded_spec (s : State) (ch : Nat) (failed : Bool) :
    ∃ m o r, s.calEnded ch failed = { s with cal := s.cal.without ch failed, stampers := m, touts := o, regs := r } ∧
      (Sparse.get ({} : Stamper) m ch).calRun = false := by
  obtain ⟨m, o, hmark, hrun⟩ := State.calMark_eq { s with cal := s.cal.without ch failed } ch false
  unfold State.calEnded
  rw [hmark]
  exact ⟨m, o, _, rfl, hrun⟩

theorem State.calEnded_bit {ch : Nat} (s : State) (failed : Bool) (off : Nat) (hoff : off = 0x028 + 4 * (ch / 32)) :
    bit ((s.calEnded ch failed).reg (ra sCal off)) (ch % 32) = failed := by
  have hmod := Nat.mod_lt ch (show 0 < 32 by decide)
  subst hoff
  rw [State.calEnded, State.setRfld, State.setReg_reg_same, bit, setFld_getLsbD _ _ _ _ _ hmod,
    if_pos ⟨Nat.le_refl _, Nat.lt_succ_self _⟩, Nat.sub_self]
  cases failed <;> rfl

theorem State.calEnded_reg64 {ch : Nat} (hch : ch < 128) (s : State) (failed : Bool) :
    (s.calEnded ch failed).reg64 sCal 0x044 = s.reg64 sCal 0x044 := by
  obtain ⟨m, o, hmark, -⟩ := State.calMark_eq { s with cal := s.cal.without ch failed } ch false
  have hne {i : Nat} (hi : 0x038 ≤ i) : ra sCal (0x028 + 4 * (ch / 32)) ≠ ra sCal i := by
    unfold ra
    omega
  rw [State.calEnded, hmark, State.reg64, State.setRfld, State.setReg_reg_ne _ _ (hne (by decide)),
    State.setReg_reg_ne _ _ (hne (by decide))]
  rfl

/-- Settles O27: each step by its outcome, through the lemma that says what it leaves. -/
theorem calibrationSteps : Obligations.CalibrationSteps := by
  intro s t c k hpow
  refine ⟨fun l hrun htodo hroom => ?_, fun hfull => ?_, fun e hk hat => ⟨fun r hstep hearly => ?_, fun r hstep hover => ⟨fun hbad => ?_, fun hgood => ?_⟩,
    fun r hstep hover => ⟨fun hbad => ?_, fun hgood => ?_⟩, fun d1 d2 hstep hover => ⟨fun hbad => ?_, fun hcopy hfar hsame => ?_, fun hsame hnear => ?_⟩,
    fun r hstep hc hover => ⟨fun hbad => ?_, fun hlo hhi hmono hdnl hsame hnear => ?_⟩⟩, fun taps g d e hc hk hnext => ⟨fun hin hfree => ?_, fun hlate => ?_, fun hin => ?_⟩,
    fun e hk hend => ⟨fun hearly => ?_, fun hover ⟨st, hrun⟩ => ?_⟩⟩
  · obtain ⟨y, m, o, hstart, htodo', hcall, hrun'⟩ := State.calChanStart_spec (s := s.advance t) hrun htodo hroom
    exact answers_of hpow (exec_calChannelStart t c s) hstart (by constructor <;> rfl) ⟨htodo', hrun', hcall, rfl, rfl⟩
  · exact next_of hpow (exec_calChannelStart t c s) (State.calChanStart_full (s := s.advance t) hfull) (Quiet.refl _)
  · exact next_of hpow (exec_calCellStep t c r s) (State.calCell_early r (State.calDue_early (s := s.advance t) hk hat hearly)) (Quiet.refl _)
  · have hdue := State.calDue_over (s := s.advance t) hk hat hstep hover
    exact answers_of hpow (exec_calCellStep t c r s) (State.calCell_bad hdue hbad) (State.calFail_quiet _ _ _) (State.calFail_spec _ _ hstep)
  · have hdue := State.calDue_over (s := s.advance t) hk hat hstep hover
    obtain ⟨y, hy⟩ := State.calCell_good hdue hgood
    exact answers_of hpow (exec_calCellStep t c r s) hy (by constructor <;> rfl) ⟨State.setStamper_same (s := s.advance t) _ _, rfl, rfl⟩
  · have hdue := State.calDue_over (s := s.advance t) hk hat hstep hover
    exact answers_of hpow (exec_calComparatorStep t c r s) (State.calPair_bad hdue hbad) (State.calFail_quiet _ _ _) (State.calFail_spec _ _ hstep)
  · have hdue := State.calDue_over (s := s.advance t) hk hat hstep hover
    obtain ⟨e', m, hm, hfind⟩ := State.calTryStep_set (s.advance t) c { k with
      step := 2, stepAt := none, suspended := 0
      pair := if r.serviceUv < r.offsetUv then (s.stamper c).pair else r.pair }
    have hcall : ({ s.advance t with cal := { s.cal with chans := m } } : State).calCh c = _ := hfind
    refine answers_of hpow (exec_calComparatorStep t c r s) ((State.calPair_good hdue hgood).trans hm) (State.setCal_quiet _ _)
      ⟨?_, ?_, rfl, rfl⟩
    · exact congrArg (Option.map (·.pair)) hcall
    · exact congrArg (Option.map (·.step)) hcall
  · have hdue := State.calDue_over (s := s.advance t) hk hat hstep hover
    exact answers_of hpow (exec_calPinStep t c d1 d2 s) (State.calPin_bad hdue (State.delayOk_apart hbad _ _))
      ((State.fresh_quiet _).trans (State.calFail_quiet _ _ _)) (State.calFail_spec _ _ hstep)
  · have hdue := State.calDue_over (s := s.advance t) hk hat hstep hover
    subst hsame
    have hbad : (s.advance t).fresh.2.delayOk d1 d1 ((s.advance t).calDelay d1 d1).1 ((s.advance t).stamper c).dPin = false := by
      rw [State.calDelay_same]
      exact State.delayOk_far (s := (s.advance t).fresh.2) hcopy hfar _ _
    exact answers_of hpow (exec_calPinStep t c d1 d1 s) (State.calPin_bad hdue hbad)
      ((State.fresh_quiet _).trans (State.calFail_quiet _ _ _)) (State.calFail_spec _ _ hstep)
  · have hdue := State.calDue_over (s := s.advance t) hk hat hstep hover
    subst hsame
    obtain ⟨y, hy⟩ := State.calPin_good hdue (State.delayOk_near (s := (s.advance t).fresh.2) d1 hnear)
    have hst : ((s.advance t).fresh.2.setStamper c { s.stamper c with dPinNext := some (d1, k.pair) }).stamper c = _ :=
      State.setStamper_same _ _ _
    refine answers_of hpow (exec_calPinStep t c d1 d1 s) hy (by constructor <;> rfl) ⟨?_, ?_, ?_, rfl⟩
    · exact congrArg Stamper.dPinNext hst
    · exact (congrArg Stamper.dPin hst :)
    · exact (congrArg Stamper.pair hst :)
  · have hdue := State.calDue_over (s := s.advance t) hk hat hstep hover
    exact answers_of hpow (exec_calTapStep t c r s) (State.calTap_bad hdue hbad)
      ((State.fresh_quiet _).trans (State.calFail_quiet _ _ _)) (State.calFail_spec _ _ hstep)
  · have hdue := State.calDue_over (s := s.advance t) hk hat hstep hover
    exact answers_of hpow (exec_calTapStep t c r s) (State.calTap_good hdue hlo hhi hmono hdnl hsame hnear)
      (by constructor <;> rfl) ⟨State.setTout_same (s := (s.advance t).fresh.2) _ _, rfl⟩
  · obtain ⟨y, hy, hcall⟩ := State.bankSwitch_eq (s := s.advance t) hc hk hnext hin hfree
    exact answers_of hpow (exec_tapBankSwitch t c s) hy (by constructor <;> rfl) ⟨State.setTout_same (s := s.advance t) _ _,
      fun hpin => congrArg (Option.map (·.endAt)) (hcall hpin), rfl⟩
  · exact answers_of hpow (exec_tapSwitchTimeout t c s) (State.bankTimeout_late (s := s.advance t) hc hk hnext hlate)
      (by constructor <;> rfl) ⟨State.setTout_same (s := s.advance t) _ _, congrArg (Option.map (·.failed)) (State.setCalCh_calCh _ _ _), rfl⟩
  · exact next_of hpow (exec_tapSwitchTimeout t c s) (State.bankTimeout_early (s := s.advance t) hnext hin) (Quiet.refl _)
  · exact next_of hpow (exec_calChannelEnd t c s) (State.calChanEnd_early (s := s.advance t) hk hend hearly) (Quiet.refl _)
  · have hx := State.calChanEnd_full (s := s.advance t) hk hend hover hrun
    have hspec := State.calEnded_spec (s.advance t) c k.failed
    have hbit := State.calEnded_bit (ch := c) (s.advance t) k.failed _ rfl
    have hcount := State.calEnded_reg64 (ch := c) (by omega) (s.advance t) k.failed
    refine answers_of hpow (exec_calChannelEnd t c s) hx ?_ ?_
    all_goals generalize (s.advance t).calEnded c k.failed = y at hspec hbit hcount ⊢
    · obtain ⟨m, o, r, rfl, -⟩ := hspec
      exact (by constructor <;> rfl : Quiet (s.advance t) { s.advance t with cal := s.cal.without c k.failed, stampers := m, touts := o, regs := r }).trans
        (Side.ite (State.calFailed_side _ _) (Side.refl _)).quiet
    · have hkept : (if k.failed then y.calFailed [c, k.failStep] else y).reg (ra sCal (0x028 + 4 * (c.val / 32))) = y.reg (ra sCal (0x028 + 4 * (c.val / 32))) :=
        reg_ite (State.calFailed_reg _ _ (by omega) (by omega)) rfl
      have hfail (h : k.failed = true) : (if k.failed then y.calFailed [c, k.failStep] else y) = y.calFailed [c, k.failStep] := if_pos h
      have hside : Side y (if k.failed then y.calFailed [c, k.failStep] else y) := Side.ite (State.calFailed_side _ _) (Side.refl _)
      have hevent (h : k.failed = true) : bit ((if k.failed then y.calFailed [c, k.failStep] else y).reg (ra sCal 0x008)) 2 = true := by
        rw [hfail h]
        exact y.calFailed_event _
      have htotal (h : k.failed = true) : (if k.failed then y.calFailed [c, k.failStep] else y).reg64 sCal 0x044 =
          min (s.reg64 sCal 0x044 + 1) (2 ^ 64 - 1) := by
        rw [hfail h, y.calFailed_count, hcount]
        rfl
      generalize (if k.failed then y.calFailed [c, k.failStep] else y) = z at hkept hside hevent htotal ⊢
      obtain ⟨m, o, r, rfl, hcal⟩ := hspec
      obtain ⟨_, _, _, _, _, rfl⟩ := hside
      refine ⟨Sparse.find_del_same _ _, hcal, by rw [hkept, hbit], fun h => ⟨htotal h, hevent h⟩, ?_, ?_, rfl⟩
      · show s.cal.passed + b2n (!k.failed) = _
        cases k.failed <;> rfl
      · show s.cal.failed + b2n k.failed = _
        cases k.failed <;> rfl

end Sys2Proof.Machine
end

section
/-! Proofs about the copies of the calibration in NVM (16_calibration.md, R320, R321). -/

namespace Sys2Proof.Machine

variable {s x : State} {t a off slot ch : Nat} {p : Path} {v : Word} {r : RegInfo} {q : PageInfo}

/-! ### A copy and its bytes -/

/-- A word of a list of words laid out as bytes. -/
theorem ofLeBytes_flatMap_w32 {l : List Nat} {i n : Nat} (h : l[i]? = some n) :
    ofLeBytes (((l.flatMap w32).drop (4 * i)).take 4) = n % 2 ^ 32 := by
  induction l generalizing i with
  | nil => exact absurd h (by simp)
  | cons m l ih =>
    rw [List.flatMap_cons]
    cases i with
    | zero =>
      obtain rfl : m = n := Option.some.inj h
      rw [Nat.mul_zero, List.drop_zero, List.take_left' (length_w32 m), ofLeBytes_w32]
    | succ i =>
      rw [show 4 * (i + 1) = 4 + 4 * i by omega, ← List.drop_drop, List.drop_left' (length_w32 m)]
      exact ih h

theorem length_flatMap_w32 (l : List Nat) : (l.flatMap w32).length = 4 * l.length := by
  induction l with
  | nil => rfl
  | cons m l ih =>
    rw [List.flatMap_cons, List.length_append, length_w32, ih, List.length_cons]
    omega

/-- Entries of one length, one after another. -/
theorem flatMap_getElem? {α β : Type} {f : α → List β} {w : Nat} {l : List α} (hf : ∀ e ∈ l, (f e).length = w) {j i : Nat} (hi : i < w)
    {e : α} (he : l[j]? = some e) : (l.flatMap f)[w * j + i]? = (f e)[i]? := by
  induction l generalizing j with
  | nil => exact absurd he (by simp)
  | cons m l ih =>
    have hm := hf m List.mem_cons_self
    rw [List.flatMap_cons]
    cases j with
    | zero =>
      obtain rfl : m = e := Option.some.inj he
      rw [Nat.mul_zero, Nat.zero_add, List.getElem?_append_left (by omega)]
    | succ j =>
      rw [List.getElem?_append_right (by rw [hm, Nat.mul_succ]; omega), hm, show w * (j + 1) + i - w = w * j + i by rw [Nat.mul_succ]; omega]
      exact ih (fun e he => hf e (List.mem_cons_of_mem m he)) he

theorem length_flatMap_const {α β : Type} {f : α → List β} {w : Nat} {l : List α} (hf : ∀ e ∈ l, (f e).length = w) :
    (l.flatMap f).length = w * l.length := by
  induction l with
  | nil => rfl
  | cons m l ih =>
    rw [List.flatMap_cons, List.length_append, hf m List.mem_cons_self, ih fun e he => hf e (List.mem_cons_of_mem m he),
      List.length_cons, Nat.mul_succ, Nat.add_comm]

theorem signed_unsign {v : Int} (hlo : -2 ^ 31 ≤ v) (hhi : v < 2 ^ 31) : signed 32 (unsign 32 v % 2 ^ 32) = v := by
  unfold signed unsign
  omega

/-- The words of one channel's selections. -/
def selWords (e : Nat × List Int) : List Nat := e.1 :: e.2.map (unsign 32)

/-- The words of a copy before its CRC-32. -/
def CalCopy.words (k : CalCopy) : List Nat := [0x4341_4C31, k.cseq, 40 * k.sel.length] ++ k.sel.flatMap selWords

theorem CalCopy.words_length {k : CalCopy} (hnine : ∀ e ∈ k.sel, e.2.length = 9) : k.words.length = 3 + 10 * k.sel.length := by
  have hten : ∀ e ∈ k.sel, (selWords e).length = 10 := fun e he => by rw [selWords, List.length_cons, List.length_map, hnine e he]
  rw [CalCopy.words, List.length_append, length_flatMap_const hten]
  rfl

theorem calBytes_eq {k : CalCopy} (hnine : ∀ e ∈ k.sel, e.2.length = 9) :
    calBytes k = (k.words ++ [crc32 (k.words.flatMap w32)]).flatMap w32 := by
  have hten : ∀ e ∈ k.sel, (selWords e).length = 10 := fun e he => by rw [selWords, List.length_cons, List.length_map, hnine e he]
  have hbody : (k.sel.flatMap fun e => w32 e.1 ++ e.2.flatMap fun v => w32 (unsign 32 v)) = (k.sel.flatMap selWords).flatMap w32 := by
    rw [List.flatMap_assoc]
    refine congrArg (k.sel.flatMap ·) (funext fun e => ?_)
    rw [selWords, List.flatMap_cons, List.flatMap_map]
  have hlen : ((k.sel.flatMap selWords).flatMap w32).length = 40 * k.sel.length := by
    rw [length_flatMap_w32, length_flatMap_const hten]
    omega
  have hhead : w32 0x4341_4C31 ++ w32 k.cseq ++ w32 (40 * k.sel.length) ++ (k.sel.flatMap selWords).flatMap w32 = k.words.flatMap w32 := by
    rw [CalCopy.words, List.flatMap_append]
    simp only [List.flatMap_cons, List.flatMap_nil, List.append_nil, List.append_assoc]
  unfold calBytes
  dsimp only
  rw [hbody, hlen, hhead, List.flatMap_append, List.flatMap_cons, List.flatMap_nil, List.append_nil]

/-- The word of a sector at a byte offset, as `calRead` reads it. -/
def wordAt (b : List Byte) (o : Nat) : Nat := ofLeBytes ((b.drop o).take 4)

theorem calRead_eq (b : List Byte) : calRead b =
    if wordAt b 0 = 0x4341_4C31 ∧ 16 + wordAt b 8 ≤ b.length ∧ wordAt b (12 + wordAt b 8) = crc32 (b.take (12 + wordAt b 8)) then
      some ⟨wordAt b 4, (List.range (wordAt b 8 / 40)).map fun j =>
        (wordAt b (12 + 40 * j), (List.range 9).map fun i => signed 32 (wordAt b (16 + 40 * j + 4 * i)))⟩
    else none := rfl

/-- A copy written is the copy read. -/
theorem calRead_calBytes {k : CalCopy} (hcseq : k.cseq < 2 ^ 32) (hlen : k.sel.length ≤ 102)
    (hsel : ∀ e ∈ k.sel, e.1 < 102 ∧ e.2.length = 9 ∧ ∀ v ∈ e.2, -2 ^ 31 ≤ v ∧ v < 2 ^ 31) : calRead (calBytes k) = some k := by
  have hnine : ∀ e ∈ k.sel, e.2.length = 9 := fun e he => (hsel e he).2.1
  have hten : ∀ e ∈ k.sel, (selWords e).length = 10 := fun e he => by rw [selWords, List.length_cons, List.length_map, hnine e he]
  have hwords := CalCopy.words_length hnine
  have hword {o i n : Nat} (ho : o = 4 * i) (h : (k.words ++ [crc32 (k.words.flatMap w32)])[i]? = some n) :
      wordAt (calBytes k) o = n % 2 ^ 32 := by
    rw [wordAt, calBytes_eq hnine, ho]
    exact ofLeBytes_flatMap_w32 h
  have hfront {o i n : Nat} (ho : o = 4 * i) (h : k.words[i]? = some n) : wordAt (calBytes k) o = n % 2 ^ 32 := by
    refine hword ho ?_
    obtain ⟨hi, -⟩ := List.getElem?_eq_some_iff.mp h
    rw [List.getElem?_append_left hi, h]
  have hmagic : wordAt (calBytes k) 0 = 0x4341_4C31 := hfront (i := 0) rfl rfl
  have hseq : wordAt (calBytes k) 4 = k.cseq := (hfront (i := 1) rfl rfl).trans (Nat.mod_eq_of_lt hcseq)
  have hsize : wordAt (calBytes k) 8 = 40 * k.sel.length := (hfront (i := 2) rfl rfl).trans (Nat.mod_eq_of_lt (by omega))
  have htotal : (calBytes k).length = 16 + 40 * k.sel.length := by
    rw [calBytes_eq hnine, length_flatMap_w32, List.length_append, hwords, List.length_singleton]
    omega
  have htake : (calBytes k).take (12 + 40 * k.sel.length) = k.words.flatMap w32 := by
    rw [calBytes_eq hnine, List.flatMap_append]
    exact List.take_left' (by rw [length_flatMap_w32, hwords]; omega)
  have hcrc : wordAt (calBytes k) (12 + 40 * k.sel.length) = crc32 (k.words.flatMap w32) := by
    refine (hword (i := k.words.length) (by rw [hwords]; omega) ?_).trans (Nat.mod_eq_of_lt (crc32_lt _))
    rw [List.getElem?_append_right (Nat.le_refl _), Nat.sub_self]
    rfl
  have hbody {o j i n : Nat} {e : Nat × List Int} (he : k.sel[j]? = some e) (hi : i < 10) (ho : o = 12 + 40 * j + 4 * i)
      (h : (selWords e)[i]? = some n) : wordAt (calBytes k) o = n % 2 ^ 32 := by
    refine hfront (i := 3 + (10 * j + i)) (by omega) ?_
    rw [CalCopy.words, List.getElem?_append_right (by rw [List.length_cons, List.length_cons, List.length_singleton]; omega)]
    rw [List.length_cons, List.length_cons, List.length_singleton, Nat.add_sub_cancel_left, flatMap_getElem? hten hi he, h]
  have hentries : ((List.range k.sel.length).map fun j =>
      (wordAt (calBytes k) (12 + 40 * j), (List.range 9).map fun i => signed 32 (wordAt (calBytes k) (16 + 40 * j + 4 * i)))) = k.sel := by
    refine List.ext_getElem (by rw [List.length_map, List.length_range]) fun j _ hj => ?_
    obtain ⟨hone, hlen9, hval⟩ := hsel k.sel[j] (List.getElem_mem hj)
    have he : k.sel[j]? = some k.sel[j] := List.getElem?_eq_getElem hj
    rw [List.getElem_map, List.getElem_range]
    refine Prod.ext ?_ ?_
    · exact (hbody (i := 0) he (by decide) rfl rfl).trans (Nat.mod_eq_of_lt (by omega))
    · refine List.ext_getElem (by rw [List.length_map, List.length_range, hlen9]) fun i _ hi => ?_
      obtain ⟨hlo, hhi⟩ := hval k.sel[j].2[i] (List.getElem_mem hi)
      have hw : wordAt (calBytes k) (16 + 40 * j + 4 * i) = unsign 32 k.sel[j].2[i] % 2 ^ 32 := by
        refine hbody (i := i + 1) he (by omega) (by omega) ?_
        rw [selWords, List.getElem?_cons_succ, List.getElem?_map, List.getElem?_eq_getElem hi]
        rfl
      rw [List.getElem_map, List.getElem_range, hw, signed_unsign hlo hhi]
  rw [calRead_eq, hmagic, hsize, htotal, hcrc, htake, hseq, if_pos ⟨rfl, Nat.le_refl _, rfl⟩,
    Nat.mul_div_cancel_left _ (by decide), hentries]

theorem calRead_nil : calRead [] = none := rfl

/-! ### A store -/

/-- What the engine holds while a copy is written to the sector that `b` names. -/
def Cal.writing (c : Cal) (b : Bool) (k : CalCopy) : Cal := { c with storing := some (b, k), deferred := false, again := false }

/-- The sector that does not hold the copy in force is erased. -/
theorem State.calStore_idle (h : s.cal.storing = none) : s.calStore = { s with
    nvm := if !s.cal.copyB && (calRead s.nvm.calA).isSome then { s.nvm with calB := [] } else { s.nvm with calA := [] }
    cal := s.cal.writing (!s.cal.copyB && (calRead s.nvm.calA).isSome) ⟨s.nextCseq, s.calInForce⟩ } := by
  unfold State.calStore
  rw [if_neg (by rw [h]; exact Bool.false_ne_true)]
  rfl

theorem State.calDeferExpire_none (h : (s.cal.deferred && s.storeGapOver) = false) : s.calDeferExpire = s :=
  if_neg (Bool.eq_false_iff.mp h)

/-- The state in which a store's end is recorded. -/
def State.storeOver (s : State) : State := { s with cal := { s.cal with storing := none, lastStore := some s.now } }

/-- A store whose read-back is good. -/
def State.storeGood (s : State) (b : Bool) (k : CalCopy) : State :=
  { s.storeOver with
    nvm := if b then { s.nvm with calB := calBytes k } else { s.nvm with calA := calBytes k }
    cal := { s.storeOver.cal with copyB := b } }

theorem State.calStoreDone_good {b : Bool} {k : CalCopy} (h : s.cal.storing = some (b, k)) (hagain : s.cal.again = false) :
    s.calStoreDone true = (((s.storeGood b k).setRegN sCal 0x038 k.cseq).evt sCal 3).bbrPush 6 sCal [1] := by
  have hside : Side ((s.storeGood b k).setRegN sCal 0x038 k.cseq)
      ((((s.storeGood b k).setRegN sCal 0x038 k.cseq).evt sCal 3).bbrPush 6 sCal [1]) :=
    (State.evt_side _ _ _).trans (State.bbrPush_side _ _ _ _)
  have hno : ((((s.storeGood b k).setRegN sCal 0x038 k.cseq).evt sCal 3).bbrPush 6 sCal [1]).cal.again = false := by
    generalize (((s.storeGood b k).setRegN sCal 0x038 k.cseq).evt sCal 3).bbrPush 6 sCal [1] = y at hside ⊢
    obtain ⟨_, _, _, _, _, rfl⟩ := hside
    exact hagain
  unfold State.calStoreDone
  rw [h]
  exact if_neg (Bool.eq_false_iff.mp hno)

theorem State.calStoreDone_bad {b : Bool} {k : CalCopy} (h : s.cal.storing = some (b, k)) (hagain : s.cal.again = false) :
    s.calStoreDone false = (s.storeOver.evt sCal 4).bbrPush 6 sCal [2] := by
  have hside : Side s.storeOver ((s.storeOver.evt sCal 4).bbrPush 6 sCal [2]) :=
    (State.evt_side _ _ _).trans (State.bbrPush_side _ _ _ _)
  have hno : ((s.storeOver.evt sCal 4).bbrPush 6 sCal [2]).cal.again = false := by
    generalize (s.storeOver.evt sCal 4).bbrPush 6 sCal [2] = y at hside ⊢
    obtain ⟨_, _, _, _, _, rfl⟩ := hside
    exact hagain
  unfold State.calStoreDone
  rw [h]
  exact if_neg (Bool.eq_false_iff.mp hno)

/-- An event bit of a page and an entry leave CSEQ alone. -/
theorem State.evt_bbrPush_cseq (s : State) (b code : Nat) (data : List Nat) :
    ((s.evt sCal b).bbrPush code sCal data).reg (ra sCal 0x038) = s.reg (ra sCal 0x038) := by
  rw [State.bbrPush_reg_page code sCal data (by decide), State.evt_reg_of_ne b (by decide) (by decide)]

theorem State.evt_bbrPush_bit (s : State) {b : Nat} (hb : b < 32) (code : Nat) (data : List Nat) :
    bit (((s.evt sCal b).bbrPush code sCal data).reg (ra sCal 0x008)) b = true := by
  rw [State.bbrPush_reg_page code sCal data (by decide)]
  exact State.evt_bit sCal hb

/-! ### The end of a full run -/

theorem Cal.next_run (c : Cal) : c.next.run = none := by
  unfold Cal.next
  split <;> rfl

/-- What the end of a full run leaves in the page's counters and events. -/
def State.runEnded (s : State) : State := ((s.bump64 sCal 0x03C 1).evt sCal 0).bbrPush 4 sCal [s.cal.passed, s.cal.failed]

theorem State.runEnded_side (s : State) : Side s s.runEnded :=
  ((State.bump64_side _ _ _ _).trans (State.evt_side _ _ _)).trans (State.bbrPush_side _ _ _ _)

theorem State.runEnded_bit (s : State) : bit (s.runEnded.reg (ra sCal 0x008)) 0 = true :=
  State.evt_bbrPush_bit _ (by decide) _ _

theorem State.runEnded_count (s : State) : s.runEnded.reg64 sCal 0x03C = min (s.reg64 sCal 0x03C + 1) (2 ^ 64 - 1) := by
  have hlo : ra sCal 0x03C / 0x400 ≠ sBbr := by decide
  have hhi : ra sCal (0x03C + 4) / 0x400 ≠ sBbr := by decide
  rw [State.runEnded, State.reg64, State.bbrPush_reg_page 4 sCal _ hlo, State.bbrPush_reg_page 4 sCal _ hhi, ← State.reg64,
    State.evt_reg64_of_ne _ _ _ (by decide) (by decide) (by decide) (by decide), State.reg64_bump64]

/-- A full run that was not asked to store and changed nothing just ends. -/
theorem State.calRunDone_unchanged (hrun : s.cal.run = some (none, false)) (htodo : s.cal.todo = []) (hchans : s.cal.chans = [])
    (hchanged : s.cal.changed = false) : ∃ y, y.run = none ∧ s.calRunDone = { s.runEnded with cal := y } := by
  have hside := s.runEnded_side
  unfold State.calRunDone
  rw [hrun]
  dsimp only
  rw [if_pos (by rw [htodo, hchans]; rfl), ← State.runEnded]
  generalize s.runEnded = x at hside ⊢
  have hcal : x.cal = s.cal := by
    obtain ⟨_, _, _, _, _, rfl⟩ := hside
    rfl
  unfold State.calFinish
  dsimp only
  rw [hcal, hrun, hchanged]
  exact ⟨_, Cal.next_run _, rfl⟩

/-! ### Boot -/

theorem State.calPut_eq (s : State) (c : Nat) (l : List Int) : ∃ m o, s.calPut c l = { s with stampers := m, touts := o } := by
  unfold State.calPut
  dsimp only
  split
  · exact ⟨_, s.touts, rfl⟩
  · exact ⟨_, _, rfl⟩

theorem State.calTake_eq (s : State) (b : Bool) (k : CalCopy) : ∃ m o, s.calTake b k =
    ({ s with stampers := m, touts := o, cal := { s.cal with copyB := b } } : State).setRegN sCal 0x038 k.cseq := by
  obtain ⟨m, o, h⟩ := State.each_induct (P := fun u => ∃ m o, u = { s with stampers := m, touts := o })
    (f := fun s e => s.calPut e.1 e.2) (l := k.sel) (fun u e _ ⟨m, o, h⟩ => by
      obtain ⟨m', o', h'⟩ := u.calPut_eq e.1 e.2
      subst h
      exact ⟨m', o', h'⟩) ⟨s.stampers, s.touts, rfl⟩
  refine ⟨m, o, ?_⟩
  unfold State.calTake
  rw [h]
  rfl

theorem State.bootEqxStart_eq (s : State) : ∃ m, s.bootEqxStart = { s with stampers := m } :=
  State.each_induct (P := fun u => ∃ m, u = { s with stampers := m }) (fun u e _ ⟨m, h⟩ => by subst h; exact ⟨_, rfl⟩) ⟨s.stampers, rfl⟩

/-- Every stamper of the list begins a boot Equinox. -/
theorem State.each_eqx (l : List Nat) (c : Nat) (h : c ∈ l ∨ (s.stamper c).eqx = some ⟨s.now, false⟩) :
    ((s.each l fun s c => s.setStamper c { s.stamper c with eqx := some ⟨s.now, false⟩, bootRun := 0, bootPass := 0, booted := false }).stamper
      c).eqx = some ⟨s.now, false⟩ := by
  induction l generalizing s with
  | nil => exact h.resolve_left (by simp)
  | cons d l ih =>
    rw [State.each_cons]
    refine ih ?_
    by_cases hd : d = c
    · subst hd
      refine .inr ?_
      rw [State.setStamper_same]
      rfl
    · refine h.imp (fun hc => ?_) fun hc => ?_
      · exact (List.mem_cons.mp hc).resolve_left fun e => hd e.symm
      · rw [State.setStamper_ne _ _ hd, hc]
        rfl

theorem State.bootEqxStart_eqx (s : State) {c : Nat} (hc : c < 102) : (s.bootEqxStart.stamper c).eqx = some ⟨s.now, false⟩ :=
  State.each_eqx _ _ (.inl (List.mem_range.mpr hc))

/-- The state of boot once the calibration is loaded. -/
def State.calLoading (s : State) : State := { s with boot := { s.boot with calLoaded := true } }

/-- The copy with the higher CSEQ is taken. -/
theorem State.calCopyLoad_both (hdev : s.dev = .booting) (hporst : s.porst = false) (hfw : s.boot.fwLoaded = true)
    (hrec : s.boot.recovery = false) (hcal : s.boot.calLoaded = false) {a b : CalCopy} (ha : calRead s.nvm.calA = some a)
    (hb : calRead s.nvm.calB = some b) : s.calCopyLoad =
      (if seqAbove b.cseq a.cseq then s.calLoading.calTake true b else s.calLoading.calTake false a).bootEqxStart := by
  unfold State.calCopyLoad
  rw [if_pos (by rw [hporst, hfw, hrec, hcal]; exact ⟨hdev, rfl, rfl, rfl, rfl⟩)]
  dsimp only
  rw [ha, hb]
  dsimp only
  rw [seqAbove]
  simp only [decide_eq_true_eq]
  rfl

/-- With no copy a full run is asked for. -/
theorem State.calCopyLoad_none (hdev : s.dev = .booting) (hporst : s.porst = false) (hfw : s.boot.fwLoaded = true)
    (hrec : s.boot.recovery = false) (hcal : s.boot.calLoaded = false) (ha : calRead s.nvm.calA = none)
    (hb : calRead s.nvm.calB = none) : s.calCopyLoad =
      (((({ s.calLoading with cal := { s.cal with noCopy := true } } : State).evt sCal 5).bbrPush 6 sCal [0]).calFull false).bootEqxStart := by
  unfold State.calCopyLoad
  rw [if_pos (by rw [hporst, hfw, hrec, hcal]; exact ⟨hdev, rfl, rfl, rfl, rfl⟩)]
  dsimp only
  rw [ha, hb]
  rfl

/-- What a store that begins leaves. -/
theorem State.calStore_spec (h : s.cal.storing = none) : Quiet s s.calStore ∧
    s.calStore.cal.storing = some (!s.cal.copyB && (calRead s.nvm.calA).isSome, ⟨s.nextCseq, s.calInForce⟩) ∧
    s.calStore.cal.deferred = false ∧
    (s.cal.copyB = false → calRead s.nvm.calA ≠ none → s.calStore.nvm = { s.nvm with calB := [] }) ∧
    (s.cal.copyB = true ∨ calRead s.nvm.calA = none → s.calStore.nvm = { s.nvm with calA := [] }) ∧
    s.calStore = { s with cal := s.calStore.cal, nvm := s.calStore.nvm } := by
  rw [State.calStore_idle h]
  refine ⟨by constructor <;> rfl, rfl, rfl, fun hb ha => if_pos ?_, fun hba => if_neg ?_, rfl⟩
  · rw [hb, Option.isSome_iff_ne_none.mpr ha]
    rfl
  · rcases hba with hb | ha
    · rw [hb]
      exact Bool.false_ne_true
    · rw [ha]
      simp

/-- What the load of a copy leaves, whichever it is. -/
theorem State.calTake_boot_spec (s : State) (b : Bool) (k : CalCopy) : Quiet s (s.calTake b k).bootEqxStart ∧
    (s.calTake b k).bootEqxStart.cal.copyB = b ∧ (s.calTake b k).bootEqxStart.reg (ra sCal 0x038) = BitVec.ofNat 32 k.cseq ∧
    (s.calTake b k).bootEqxStart.boot = s.boot := by
  obtain ⟨m, o, htake⟩ := s.calTake_eq b k
  obtain ⟨m', hboot⟩ := (s.calTake b k).bootEqxStart_eq
  rw [hboot, htake]
  exact ⟨by constructor <;> rfl, rfl, State.setReg_reg_same _ _ _, rfl⟩

/-- What the load leaves where no copy is valid, in an engine that has had no request. -/
theorem State.calCopyLoad_none_spec (hdev : s.dev = .booting) (hporst : s.porst = false) (hfw : s.boot.fwLoaded = true)
    (hrec : s.boot.recovery = false) (hload : s.boot.calLoaded = false) (ha : calRead s.nvm.calA = none)
    (hb : calRead s.nvm.calB = none) (hcal : s.cal = {}) : Quiet s s.calCopyLoad ∧ s.calCopyLoad.cal.noCopy = true ∧
      s.calCopyLoad.cal.waiting = some (none, false) ∧ bit (s.calCopyLoad.reg (ra sCal 0x008)) 5 = true ∧
      ∀ c, c < 102 → (s.calCopyLoad.stamper c).eqx = some ⟨s.now, false⟩ := by
  have hside : Side { s.calLoading with cal := { s.cal with noCopy := true } }
      ((({ s.calLoading with cal := { s.cal with noCopy := true } } : State).evt sCal 5).bbrPush 6 sCal [0]) :=
    (State.evt_side _ _ _).trans (State.bbrPush_side _ _ _ _)
  have hbit := ({ s.calLoading with cal := { s.cal with noCopy := true } } : State).evt_bbrPush_bit (b := 5) (by decide) 6 [0]
  rw [State.calCopyLoad_none hdev hporst hfw hrec hload ha hb]
  generalize (({ s.calLoading with cal := { s.cal with noCopy := true } } : State).evt sCal 5).bbrPush 6 sCal [0] = y at hside hbit ⊢
  obtain ⟨_, _, _, _, _, rfl⟩ := hside
  rw [(State.calFull_idle (by rw [hcal]) (by rw [hcal]) false).1 (by rw [hcal])]
  refine ⟨?_, ?_, ?_, ?_, fun c hc => State.bootEqxStart_eqx _ hc⟩
  · obtain ⟨m, hm⟩ := State.bootEqxStart_eq _
    exact hm ▸ (by constructor <;> rfl)
  · obtain ⟨m, hm⟩ := State.bootEqxStart_eq _
    rw [hm]
  · obtain ⟨m, hm⟩ := State.bootEqxStart_eq _
    rw [hm]
  · obtain ⟨m, hm⟩ := State.bootEqxStart_eq _
    rw [hm]
    exact hbit

/-- Settles O28: a copy reads back by the layout of its words; the store, the run's end and boot each by their cases. -/
theorem calibrationCopies : Obligations.CalibrationCopies := by
  refine ⟨fun k => calRead_calBytes, calRead_nil, fun s t hpow => ?_⟩
  refine ⟨fun hidle => ⟨fun p hreach hserved => ?_, fun hdef hgap => ?_⟩, fun hdef => ?_, fun hgap => ?_,
    fun b k hstore hagain => ⟨?_, ?_⟩, fun hrun htodo hchans hchanged => ?_,
    fun hdev hfw hrec hload => ⟨fun a b ha hb => ?_, fun ha hb hcal => ?_⟩⟩
  · obtain ⟨hquiet, hspec⟩ := State.calStore_spec (s := s.advance t) hidle
    exact answers_of hpow (exec_calStore t p s) (State.Reaches.hostWrite_cal (s := s.advance t) hreach hpow.1 hserved p 3) hquiet hspec
  · obtain ⟨hquiet, hspec⟩ := State.calStore_spec (s := s.advance t) hidle
    have hgo : ((s.advance t).cal.deferred && (s.advance t).storeGapOver) = true := by
      rw [hgap, Bool.and_true]
      exact hdef
    exact answers_of hpow (exec_calStoreDeferExpire t s) (if_pos hgo) hquiet hspec
  · refine next_of hpow (exec_calStoreDeferExpire t s) (State.calDeferExpire_none ?_) (Quiet.refl _)
    rw [show (s.advance t).cal.deferred = false from hdef, Bool.false_and]
  · refine next_of hpow (exec_calStoreDeferExpire t s) (State.calDeferExpire_none ?_) (Quiet.refl _)
    rw [hgap, Bool.and_false]
  · have hx := State.calStoreDone_good (s := s.advance t) hstore hagain
    have hside : Side (((s.advance t).storeGood b k).setRegN sCal 0x038 k.cseq)
        (((((s.advance t).storeGood b k).setRegN sCal 0x038 k.cseq).evt sCal 3).bbrPush 6 sCal [1]) :=
      (State.evt_side _ _ _).trans (State.bbrPush_side _ _ _ _)
    have hcseq := (((s.advance t).storeGood b k).setRegN sCal 0x038 k.cseq).evt_bbrPush_cseq 3 6 [1]
    have hbit := (((s.advance t).storeGood b k).setRegN sCal 0x038 k.cseq).evt_bbrPush_bit (b := 3) (by decide) 6 [1]
    generalize ((((s.advance t).storeGood b k).setRegN sCal 0x038 k.cseq).evt sCal 3).bbrPush 6 sCal [1] = y at hx hside hcseq hbit
    have hquiet : Quiet (s.advance t) (((s.advance t).storeGood b k).setRegN sCal 0x038 k.cseq) := by constructor <;> rfl
    refine answers_of hpow (exec_calStoreDone t true s) hx (hquiet.trans hside.quiet) ⟨?_, ?_, ?_, ?_, hbit⟩
    · obtain ⟨_, _, _, _, _, rfl⟩ := hside
      rfl
    · obtain ⟨_, _, _, _, _, rfl⟩ := hside
      rfl
    · obtain ⟨_, _, _, _, _, rfl⟩ := hside
      rfl
    · exact hcseq.trans (State.setReg_reg_same _ _ _)
  · have hx := State.calStoreDone_bad (s := s.advance t) hstore hagain
    have hside : Side (s.advance t).storeOver (((s.advance t).storeOver.evt sCal 4).bbrPush 6 sCal [2]) :=
      (State.evt_side _ _ _).trans (State.bbrPush_side _ _ _ _)
    have hcseq := (s.advance t).storeOver.evt_bbrPush_cseq 4 6 [2]
    have hbit := (s.advance t).storeOver.evt_bbrPush_bit (b := 4) (by decide) 6 [2]
    generalize ((s.advance t).storeOver.evt sCal 4).bbrPush 6 sCal [2] = y at hx hside hcseq hbit
    have hquiet : Quiet (s.advance t) (s.advance t).storeOver := by constructor <;> rfl
    refine answers_of hpow (exec_calStoreDone t false s) hx (hquiet.trans hside.quiet) ⟨?_, ?_, ?_, hcseq, hbit⟩
    all_goals
      obtain ⟨_, _, _, _, _, rfl⟩ := hside
      rfl
  · obtain ⟨c, hc, hx⟩ := State.calRunDone_unchanged (s := s.advance t) hrun htodo hchans hchanged
    have hside := (s.advance t).runEnded_side
    have hbit := (s.advance t).runEnded_bit
    have hcount := (s.advance t).runEnded_count
    generalize (s.advance t).runEnded = y at hx hside hbit hcount
    have hquiet : Quiet y { y with cal := c } := by constructor <;> rfl
    refine answers_of hpow (exec_calRunDone t s) hx (hside.quiet.trans hquiet) ⟨hcount, hbit, hc, ?_, ?_⟩
    · obtain ⟨_, _, _, _, _, rfl⟩ := hside
      rfl
    · obtain ⟨_, _, _, _, _, rfl⟩ := hside
      exact ⟨_, _, _, _, _, rfl⟩
  · have hx := State.calCopyLoad_both (s := s.advance t) hdev hpow.1 hfw hrec hload ha hb
    have hquiet : Quiet (s.advance t) (s.advance t).calLoading := by constructor <;> rfl
    cases hseq : seqAbove b.cseq a.cseq with
    | true =>
      rw [hseq, if_pos rfl] at hx
      obtain ⟨hq, hcopy, hreg, hboot⟩ := (s.advance t).calLoading.calTake_boot_spec true b
      exact answers_of hpow (exec_calCopyLoad t s) hx (hquiet.trans hq) ⟨hcopy, hreg, by rw [hboot]; rfl⟩
    | false =>
      rw [hseq, if_neg Bool.false_ne_true] at hx
      obtain ⟨hq, hcopy, hreg, hboot⟩ := (s.advance t).calLoading.calTake_boot_spec false a
      exact answers_of hpow (exec_calCopyLoad t s) hx (hquiet.trans hq) ⟨hcopy, hreg, by rw [hboot]; rfl⟩
  · obtain ⟨hquiet, hspec⟩ := State.calCopyLoad_none_spec (s := s.advance t) hdev hpow.1 hfw hrec hload ha hb hcal
    exact answers_of hpow (exec_calCopyLoad t s) rfl hquiet hspec

end Sys2Proof.Machine
end

section
/-! Proofs about the edges of the references (02_time_base.md, R32, R38, R39). -/

namespace Sys2Proof.Machine

variable {s x : State} {t a off slot ch n : Nat} {p : Path} {v : Word} {r : RegInfo} {q : PageInfo}

/-! ### A stamp handed on -/

theorem State.distribute_eq (s : State) (st : Stamp) : ∃ m f, s.distribute st = { s with measIn := m, fwds := f } := by
  unfold State.distribute
  refine State.each_induct (P := fun u => ∃ m f, u = { s with measIn := m, fwds := f }) (fun u d _ ⟨m, f, h⟩ => ?_) ?_
  · subst h
    exact ⟨m, _, rfl⟩
  · split
    · exact ⟨_, s.fwds, rfl⟩
    · exact ⟨s.measIn, s.fwds, rfl⟩

/-- A stamp of a T die source handed to the conditions and to those that use it. -/
def State.edgeGiven (s : State) (src : Nat) (st : Stamp) : State :=
  (if s.condUses src then { s with condIn := s.condIn ++ [.edge st] } else s).distribute st

theorem State.edgeGiven_eq (s : State) (src : Nat) (st : Stamp) :
    ∃ c m f, s.edgeGiven src st = { s with condIn := c, measIn := m, fwds := f } := by
  unfold State.edgeGiven
  split
  · obtain ⟨m, f, h⟩ := State.distribute_eq { s with condIn := s.condIn ++ [.edge st] } st
    exact ⟨_, m, f, h⟩
  · obtain ⟨m, f, h⟩ := State.distribute_eq s st
    exact ⟨_, m, f, h⟩

/-- What a reference's edge has left before the qualifier and the loop see it. -/
theorem State.refGiven_eq (s : State) (c src t q : Nat) (rising : Bool) (d : Int) : ∃ m i k f,
    (s.plainStamp c src t q rising d).2.edgeGiven src (s.plainStamp c src t q rising d).1 =
      { s with stampers := m, condIn := i, measIn := k, fwds := f } := by
  obtain ⟨i, k, f, h⟩ := (s.plainStamp c src t q rising d).2.edgeGiven_eq src (s.plainStamp c src t q rising d).1
  exact ⟨_, i, k, f, h⟩

/-! ### The qualifier and the loop at an edge -/

theorem State.setRef_quiet (s : State) (n : Nat) (y : Ref) : Quiet s (s.setRef n y) := by constructor <;> rfl

theorem State.refNote_side (s : State) (old : Nat) : Side s (s.refNote old) := Side.ite (Side.refl s) (s.evt_side _ _)

theorem State.refOpposite_eq (s : State) (n : Nat) (p : Int) : ∃ y, s.refOpposite n p = s.setRef n y := by
  unfold State.refOpposite
  dsimp only
  split
  · exact exists_eq_ite ⟨_, rfl⟩ ⟨_, rfl⟩
  · exact ⟨_, rfl⟩

/-- A reference whose selected edge at an instant has entered its qualifier. -/
def Ref.counted (r : Ref) (p : Int) (now : Nat) : Ref :=
  { r with
    active := true, misses := 0, lastSel := some p, lastAny := some p, okSince := if r.lastSel.isNone then now else r.okSince
    winFirst := if r.winCount = 0 then some p else r.winFirst, winLast := some p, winCount := r.winCount + 1, skip := !r.skip }

theorem State.refSelected_settled (h : (s.ref n).adoptDue = false) (p : Int) :
    s.refSelected n p = s.setRef n ((s.ref n).counted p s.now) := by
  unfold State.refSelected Ref.counted
  dsimp only
  rw [h, Bool.false_and, Bool.false_and, Bool.false_and, if_neg Bool.false_ne_true]

/-- The first edge due to adopt sets the target to the phase it has. -/
theorem State.refSelected_adopts (h : (s.ref n).adoptDue = true) (hmode : s.refCfg n 5 1 = 1) (hact : s.loop.active ≠ some n) {p : Int}
    (hp : 2000 * (s.solEdge : Int) ≤ p) : s.refSelected n p =
      (s.setRef n { (s.ref n).counted p s.now with adoptDue := false }).setTarget n (foldT (s.loopEpoch p) (s.refFreq n)) := by
  have hdue : decide (p < 2000 * (s.solEdge : Int)) = false := decide_eq_false (Int.not_lt.mpr hp)
  have hact' : (decide (s.loop.active = some n) && s.loop.pull.isSome) = false := by rw [decide_eq_false hact, Bool.false_and]
  unfold State.refSelected Ref.counted
  dsimp only
  rw [h, Bool.true_and, Bool.true_and, hdue, if_pos (by rw [Bool.and_eq_true]; exact ⟨decide_eq_true hp, decide_eq_true hmode⟩), hact',
    if_neg Bool.false_ne_true]

theorem State.refCompare_inactive (h : s.loop.active ≠ some n) (p : Int) (sel skip : Bool) : s.refCompare n p sel skip = s := by
  unfold State.refCompare
  dsimp only
  rw [decide_eq_false h, Bool.and_false, Bool.false_and, if_neg Bool.false_ne_true]

/-- The state whose loop has read the folded error of a selected edge. -/
def State.errRead (s : State) (n : Nat) (p : Int) : State :=
  { s with loop := { s.loop with err := foldT (s.loopEpoch p - s.refTarget n) (s.refFreq n) } }

/-- A selected edge of the active reference that the loop compares. -/
theorem State.refCompare_active (h : s.loop.active = some n) (hpre : s.refCfg n 0 2 = 0) (hmode : s.loop.mode ≠ .winter) (p : Int)
    (skip : Bool) : s.refCompare n p true skip =
      (if s.loop.pullDue && decide (2000 * (s.solEdge : Int) ≤ p) then (s.errRead n p).startPull n else s.errRead n p).filterStep := by
  unfold State.refCompare State.errRead
  dsimp only
  rw [hpre]
  refine (if_pos ?_).trans ?_
  · rw [h, decide_eq_true hmode, decide_eq_true rfl]
    rfl
  · simp only [if_true, Int.add_zero]

/-- The loop as a pull toward a reference begins. -/
def State.pullLoop (s : State) (n : Nat) : Loop :=
  { s.loop.endSpan s.now with
    mode := if (s.loop.endSpan s.now).inWinter then .thaw else .pulling, active := some n, pullDue := false
    pull := some { e := s.refErr n, start := s.now, slew := s.slew } }

/-- The state in which a pull toward a reference has begun, before it is noted. -/
def State.pulled (s : State) (n : Nat) : State := { s with loop := s.pullLoop n, par := { s.par with pthaw := false } }

/-- A change of the active reference noted. -/
def State.pullNoted (s : State) (n : Nat) : State :=
  if (s.loop.endSpan s.now).active = some n then s.pulled n
  else ((s.pulled n).evt sClk 0).bbrPush 8 sClk [(s.pulled n).clkState, (s.pulled n).refStat, 0]

theorem State.startPull_eq (s : State) (n : Nat) :
    s.startPull n = if 24 * s.slew < (s.refErr n).natAbs then (s.pullNoted n).evt sClk 8 else s.pullNoted n := rfl

theorem State.pullNoted_side (s : State) (n : Nat) : Side (s.pulled n) (s.pullNoted n) :=
  Side.ite (Side.refl _) ((State.evt_side _ _ _).trans (State.bbrPush_side _ _ _ _))

theorem State.startPull_side (s : State) (n : Nat) : Side (s.pulled n) (s.startPull n) :=
  Side.ite ((s.pullNoted_side n).trans (State.evt_side _ _ _)) (s.pullNoted_side n)

theorem Side.loop (h : Side s x) : x.loop = s.loop := by
  obtain ⟨_, _, _, _, _, rfl⟩ := h
  rfl

theorem Side.ref (h : Side s x) (n : Nat) : x.ref n = s.ref n := by
  obtain ⟨_, _, _, _, _, rfl⟩ := h
  rfl

theorem Loop.endSpan_tracking {l : Loop} (h : l.mode = .tracking) (now : Nat) :
    l.endSpan now = { l with spans := (l.steer, now - l.spanFrom) :: l.spans, hist := l.hist || decide (l.spanFrom < now) } := if_pos h

theorem Loop.inWinter_tracking {l : Loop} (h : l.mode = .tracking) : l.inWinter = false := by
  rw [Loop.inWinter, h]
  rfl

/-- A stamped edge goes to those that use it, to the qualifier and to the loop. -/
theorem State.refEdge_eq {t q : Nat} {rising : Bool} (h : (s.stamper (96 + n)).booted = true) : s.refEdge n t q rising =
    let st := (s.plainStamp (96 + n) (4192 + n) t q rising 0).1
    let given := (s.plainStamp (96 + n) (4192 + n) t q rising 0).2.edgeGiven (4192 + n) st
    let sel := rising == decide (s.refCfg n 4 1 = 0)
    ((if sel then given.refSelected n st.phys else given.refOpposite n st.phys).refCompare n st.phys sel (s.ref n).skip).refNote
      s.refStat := if_pos h

theorem m64_mod (i : Int) : m64 i % 2 ^ 64 = m64 i := by
  unfold m64 unsign
  omega

theorem State.refNote_reg64 (s : State) (old n : Nat) :
    (s.refNote old).reg64 sClk (0x084 + 8 * n) = s.reg64 sClk (0x084 + 8 * n) := by
  have hne {i : Nat} (hi : i < 0x084) (j : Nat) : ra sClk i ≠ ra sClk (0x084 + 8 * n + j) := by
    unfold ra
    omega
  unfold State.refNote
  split
  · rfl
  · exact s.evt_reg64_of_ne sClk 4 (hne (by decide) 0) (hne (by decide) 0) (hne (by decide) 4) (hne (by decide) 4)

/-- Settles O29: a stamped edge by its polarity and by what the loop waits for. -/
theorem referenceEdges : Obligations.ReferenceEdges := by
  intro s t q x rising hpow
  obtain ⟨m, i, k, f, hgiven⟩ := (s.advance t).refGiven_eq (96 + x) (4192 + x) t q rising 0
  have hedge := State.refEdge_eq (s := s.advance t) (n := x) (t := t) (q := q) (rising := rising)
  dsimp only at hedge
  refine ⟨fun hboot => ?_, ?_⟩
  · exact next_of hpow (exec_refEdge t x rising q s) (if_neg (Bool.eq_false_iff.mp hboot)) (Quiet.refl _)
  generalize hst : ((s.advance t).plainStamp (96 + x) (4192 + x) t q rising 0).1.phys = p at hedge
  generalize hG : ((s.advance t).plainStamp (96 + x) (4192 + x) t q rising 0).2.edgeGiven (4192 + x)
    ((s.advance t).plainStamp (96 + x) (4192 + x) t q rising 0).1 = g at hedge hgiven
  have hquiet : Quiet (s.advance t) g := by
    rw [hgiven]
    constructor <;> rfl
  have href : g.ref x = s.ref x := by rw [hgiven]; rfl
  have hloop : g.loop = s.loop := by rw [hgiven]; rfl
  have hnow : g.now = max s.now t := by rw [hgiven]; rfl
  have hcfg (lo w : Nat) : g.refCfg x lo w = s.refCfg x lo w := by rw [hgiven]; rfl
  have hopp (h : rising = decide (s.refCfg x 4 1 ≠ 0)) : (rising == decide ((s.advance t).refCfg x 4 1 = 0)) = false := by
    rw [h]
    show (decide (s.refCfg x 4 1 ≠ 0) == decide (s.refCfg x 4 1 = 0)) = false
    by_cases hz : s.refCfg x 4 1 = 0
    · rw [decide_eq_true hz, decide_eq_false (not_not_intro hz)]
      rfl
    · rw [decide_eq_false hz, decide_eq_true hz]
      rfl
  have hsame (h : rising = decide (s.refCfg x 4 1 = 0)) : (rising == decide ((s.advance t).refCfg x 4 1 = 0)) = true := by
    rw [h]
    exact beq_self_eq_true (decide (s.refCfg x 4 1 = 0))
  have hcounted (hdue : (s.ref x).adoptDue = false) : g.refSelected x p = g.setRef x ((s.ref x).counted p (max s.now t)) := by
    rw [State.refSelected_settled (by rw [href, hdue]), href, hnow]
  refine ⟨fun hboot hact => ⟨fun hpol => ?_, fun hpol hdue => ?_, fun hpol hdue hmode hin => ?_⟩,
    fun hboot hact hpol hpre hdue => ⟨fun hmode hpull => ?_, fun hmode hpull hin => ?_⟩⟩
  · have hx := hedge hboot
    obtain ⟨y, hy⟩ := g.refOpposite_eq x p
    have hact' : (g.refOpposite x p).loop.active ≠ some x.val := by
      rw [hy, State.setRef_loop, hloop]
      exact hact
    have hq : Quiet g (g.refOpposite x p) := by
      rw [hy]
      exact g.setRef_quiet _ _
    rw [hopp hpol, if_neg Bool.false_ne_true, State.refCompare_inactive hact'] at hx
    subst hst hG
    exact next_of hpow (exec_refEdge t x rising q s) hx ((hquiet.trans hq).trans (State.refNote_side _ _).quiet)
  · have hx := hedge hboot
    have hact' : (g.setRef x ((s.ref x).counted p (max s.now t))).loop.active ≠ some x.val := by
      rw [State.setRef_loop, hloop]
      exact hact
    rw [hsame hpol, if_pos rfl, hcounted hdue, State.refCompare_inactive hact'] at hx
    subst hst hG
    exact next_of hpow (exec_refEdge t x rising q s) hx ((hquiet.trans (State.setRef_quiet _ _ _)).trans (State.refNote_side _ _).quiet)
  · have hx := hedge hboot
    have hadopt := State.refSelected_adopts (s := g) (n := x) (p := p) (by rw [href, hdue]) (by rw [hcfg, hmode]) (by rw [hloop]; exact hact)
      (by rw [hgiven]; exact hst ▸ hin)
    generalize hy : (g.setRef x { (g.ref x).counted p g.now with adoptDue := false }).setTarget x (foldT (g.loopEpoch p) (g.refFreq x)) = y at hadopt
    have hyloop : y.loop = s.loop := by
      rw [← hy]
      exact hloop
    rw [hsame hpol, if_pos rfl, hadopt, State.refCompare_inactive (by rw [hyloop]; exact hact)] at hx
    have hside := y.refNote_side (s.advance t).refStat
    have hyquiet : Quiet g y := by
      rw [← hy]
      constructor <;> rfl
    refine answers_of hpow (exec_refEdge t x rising q s) hx ((hquiet.trans hyquiet).trans hside.quiet) ⟨?_, ?_, hside.loop.trans hyloop⟩
    · rw [State.refNote_reg64, ← hy, State.setTarget, State.reg64_setReg64, m64_mod, hgiven]
      rfl
    · rw [hside.ref, ← hy, href, hnow]
      exact State.setRef_same _ _ _
  · have hx := hedge hboot
    rw [hsame hpol, if_pos rfl, hcounted hdue] at hx
    generalize hy : g.setRef x ((s.ref x).counted p (max s.now t)) = y at hx
    have hyloop : y.loop = s.loop := by rw [← hy]; exact hloop
    have hyref : y.ref x = (s.ref x).counted p (max s.now t) := by rw [← hy]; exact State.setRef_same _ _ _
    rw [State.refCompare_active (by rw [hyloop, hact]) (by rw [← hy]; exact (hcfg 0 2).trans hpre)
      (by rw [hyloop, hmode]; exact LoopMode.noConfusion), if_neg (by rw [hyloop, hpull, Bool.false_and]; exact Bool.false_ne_true)] at hx
    have hside := (y.errRead x p).filterStep.refNote_side (s.advance t).refStat
    refine answers_of_wrapped hpow (exec_refEdge t x rising q s) fun l => ?_
    rw [hx]
    have hl : ((y.errRead x p).filterStep.refNote (s.advance t).refStat).loop = (y.errRead x p).filterStep.loop := hside.loop
    have hr : ((y.errRead x p).filterStep.refNote (s.advance t).refStat).ref x = y.ref x := hside.ref x
    refine ⟨?_, ?_, ?_, ?_, ?_, hr.trans hyref⟩
    · refine (congrArg Loop.err hl).trans ?_
      rw [← hy, hgiven]
      rfl
    · refine (congrArg Loop.steer hl).trans ?_
      rw [← hy, hgiven]
      rfl
    · exact (congrArg Loop.mode hl).trans ((congrArg Loop.mode hyloop).trans hmode)
    · exact (congrArg Loop.active hl).trans ((congrArg Loop.active hyloop).trans hact)
    · exact (congrArg Loop.pull hl).trans (congrArg Loop.pull hyloop :)
  · have hx := hedge hboot
    rw [hsame hpol, if_pos rfl, hcounted hdue] at hx
    generalize hy : g.setRef x ((s.ref x).counted p (max s.now t)) = y at hx
    have hyloop : y.loop = s.loop := by rw [← hy]; exact hloop
    have hyref : y.ref x = (s.ref x).counted p (max s.now t) := by rw [← hy]; exact State.setRef_same _ _ _
    have hin' : 2000 * (y.solEdge : Int) ≤ p := by rw [← hy, hgiven]; exact hin
    rw [State.refCompare_active (by rw [hyloop, hact]) (by rw [← hy]; exact (hcfg 0 2).trans hpre)
      (by rw [hyloop, hmode]; exact LoopMode.noConfusion),
      if_pos (by rw [hyloop, hpull, Bool.true_and]; exact decide_eq_true hin')] at hx
    have hside := ((y.errRead x p).startPull x).filterStep.refNote_side (s.advance t).refStat
    refine answers_of_wrapped hpow (exec_refEdge t x rising q s) fun l => ?_
    rw [hx]
    have hl : (((y.errRead x p).startPull x).filterStep.refNote (s.advance t).refStat).loop = ((y.errRead x p).startPull x).filterStep.loop :=
      hside.loop
    have hp : ((y.errRead x p).startPull x).loop = (y.errRead x p).pullLoop x := ((y.errRead x p).startPull_side x).loop
    have hmode' : (y.errRead x p).loop.mode = .tracking := (congrArg Loop.mode hyloop).trans hmode
    refine ⟨?_, ?_, ?_⟩
    · refine (congrArg Loop.mode hl).trans ((congrArg Loop.mode hp).trans ?_)
      have hspan : ((y.errRead x p).loop.endSpan (y.errRead x p).now).mode = .tracking := by rw [Loop.endSpan_tracking hmode', hmode']
      exact if_neg (by rw [Loop.inWinter_tracking hspan]; exact Bool.false_ne_true)
    · refine (congrArg Loop.pull hl).trans ((congrArg Loop.pull hp).trans ?_)
      have herr : (y.errRead x p).refErr x = foldT (s.loopEpoch p - s.refTarget x) (s.refFreq x) := by
        rw [State.refErr, show (y.errRead x p).ref x = y.ref x from rfl, hyref]
        rw [← hy, hgiven]
        rfl
      have hnow' : (y.errRead x p).now = max s.now t := by rw [← hy, hgiven]; rfl
      have hslew : (y.errRead x p).slew = s.slew := by rw [← hy, hgiven]; rfl
      rw [State.pullLoop, herr, hnow', hslew]
    · exact (congrArg Loop.pullDue hl).trans (congrArg Loop.pullDue hp)

end Sys2Proof.Machine
end

section
/-! Proofs about the qualification of the references (02_time_base.md, R33). -/

namespace Sys2Proof.Machine

variable {s x y : State} {t a off slot ch n : Nat} {p : Path} {v : Word} {r : RegInfo} {q : PageInfo}

/-! ### One reference alone -/

/-- Nothing but one reference has changed, beside events and entries. -/
def State.RefOnly (s : State) (n : Nat) (x : State) : Prop := Side { s with refs := x.refs } x ∧ ∀ m, m ≠ n → x.ref m = s.ref m

theorem State.setRef_refOnly (s : State) (n : Nat) (y : Ref) : s.RefOnly n (s.setRef n y) :=
  ⟨Side.refl _, fun _ hm => State.setRef_ne s y (Ne.symm hm)⟩

theorem Side.refOnly (h : Side s x) (n : Nat) : s.RefOnly n x := by
  refine ⟨?_, fun m _ => h.ref m⟩
  obtain ⟨_, _, _, _, _, rfl⟩ := h
  exact ⟨_, _, _, _, _, rfl⟩

theorem State.RefOnly.trans (h : s.RefOnly n x) (k : x.RefOnly n y) : s.RefOnly n y := by
  obtain ⟨hx, hxo⟩ := h
  obtain ⟨hy, hyo⟩ := k
  refine ⟨?_, fun m hm => (hyo m hm).trans (hxo m hm)⟩
  obtain ⟨_, _, _, _, _, hx⟩ := hx
  rw [hx] at hy
  obtain ⟨_, _, _, _, _, hy⟩ := hy
  exact ⟨_, _, _, _, _, hy⟩

theorem State.RefOnly.quiet (h : s.RefOnly n x) : Quiet s x :=
  (by constructor <;> rfl : Quiet s { s with refs := x.refs }).trans h.1.quiet

theorem State.RefOnly.loop (h : s.RefOnly n x) : x.loop = s.loop := h.1.loop

/-! ### CLK.REF_STAT -/

/-- A reference's bits of `CLK.REF_STAT`. -/
def Ref.stat (r : Ref) : Nat := b2n r.qualified + 2 * b2n r.active + 4 * b2n r.freqFail + 8 * b2n r.missFail

theorem State.refStat_eq (s : State) : s.refStat =
    (s.ref 0).stat * 16 ^ 0 + ((s.ref 1).stat * 16 ^ 1 + ((s.ref 2).stat * 16 ^ 2 + ((s.ref 3).stat * 16 ^ 3 + 0))) := rfl

theorem State.RefOnly.refStat (h : s.RefOnly n x) (hn : n < 4) : x.refStat = s.refStat ↔ (x.ref n).stat = (s.ref n).stat := by
  have hother {m : Nat} (hm : m ≠ n) : (x.ref m).stat = (s.ref m).stat := congrArg Ref.stat (h.2 m hm)
  rw [State.refStat_eq, State.refStat_eq]
  interval_cases n
  · have h1 := hother (m := 1) (by decide)
    have h2 := hother (m := 2) (by decide)
    have h3 := hother (m := 3) (by decide)
    omega
  · have h0 := hother (m := 0) (by decide)
    have h2 := hother (m := 2) (by decide)
    have h3 := hother (m := 3) (by decide)
    omega
  · have h0 := hother (m := 0) (by decide)
    have h1 := hother (m := 1) (by decide)
    have h3 := hother (m := 3) (by decide)
    omega
  · have h0 := hother (m := 0) (by decide)
    have h1 := hother (m := 1) (by decide)
    have h2 := hother (m := 2) (by decide)
    omega

/-- A reference that changes no bit of it leaves no event. -/
theorem State.RefOnly.refNote_kept (h : s.RefOnly n x) (hn : n < 4) (hstat : (x.ref n).stat = (s.ref n).stat) :
    x.refNote s.refStat = x := if_pos ((h.refStat hn).mpr hstat)

/-- One that becomes or ceases to be qualified sets QUAL_CHG. -/
theorem State.RefOnly.refNote_changed (h : s.RefOnly n x) (hn : n < 4) (hq : (x.ref n).qualified = !(s.ref n).qualified) :
    x.refNote s.refStat = x.evt sClk 4 := by
  refine if_neg fun hsame => ?_
  have hstat := (h.refStat hn).mp hsame
  have hpar : b2n (x.ref n).qualified % 2 = b2n (s.ref n).qualified % 2 := by
    unfold Ref.stat at hstat
    omega
  rw [hq] at hpar
  revert hpar
  cases (s.ref n).qualified <;> decide

/-! ### A disqualification -/

/-- A disqualification has been noted: QUAL_CHG, and an entry where there is room. -/
def State.RefLogged (s x : State) : Prop := bit (x.reg (ra sClk 0x008)) 4 = true ∧
  (s.bbr.queue.length < 256 → s.bbr.drops = 0 → ∃ e, x.bbr.queue = s.bbr.queue ++ [e] ∧ e.code = 8)

theorem State.bbrPush_entry (code sl : Nat) (data : List Nat) (hlen : s.bbr.queue.length < 256) (hdrops : s.bbr.drops = 0) :
    ∃ e, (s.bbrPush code sl data).bbr.queue = s.bbr.queue ++ [e] ∧ e.code = code := by
  have hroom := State.bbrRoom_of_no_drops hdrops
  rw [State.bbrPush_of_room code sl data (by rw [hroom]; exact hlen), hroom]
  exact ⟨_, rfl, rfl⟩

/-- A reference that is disqualified. -/
def Ref.failed (r : Ref) (miss : Bool) (now : Nat) : Ref := { r with qualified := false, missFail := miss, freqFail := !miss, okSince := now }

/-- What the disqualification of a reference leaves. -/
theorem State.refFail_spec (hq : (s.ref n).qualified = true) (miss : Bool) : s.RefOnly n (s.refFail n miss) ∧
    (s.refFail n miss).ref n = (s.ref n).failed miss s.now ∧
    (s.bbr.queue.length < 256 → s.bbr.drops = 0 → ∃ e, (s.refFail n miss).bbr.queue = s.bbr.queue ++ [e] ∧ e.code = 8) := by
  have hset : (s.setRef n ((s.ref n).failed miss s.now)).ref n = (s.ref n).failed miss s.now := State.setRef_same _ _ _
  unfold State.refFail
  dsimp only
  rw [if_pos hq]
  refine ⟨(State.setRef_refOnly _ _ _).trans ((State.bbrPush_side _ _ _ _).refOnly n), ?_, fun hlen hdrops => ?_⟩
  · rw [(State.bbrPush_side _ _ _ _).ref]
    exact hset
  · exact State.bbrPush_entry (s := s.setRef n ((s.ref n).failed miss s.now)) _ _ _ hlen hdrops

theorem State.refFail_unqualified (hq : (s.ref n).qualified = false) (miss : Bool) :
    s.refFail n miss = s.setRef n { s.ref n with okSince := s.now } := if_neg (Bool.eq_false_iff.mp hq)

/-- QUAL_CHG after the entry of a disqualification. -/
theorem State.RefLogged.evt (h : s.bbr.queue.length < 256 → s.bbr.drops = 0 → ∃ e, x.bbr.queue = s.bbr.queue ++ [e] ∧ e.code = 8) :
    s.RefLogged (x.evt sClk 4) :=
  ⟨State.evt_bit sClk (by decide), by rw [State.evt_bbr]; exact h⟩

/-! ### A missing edge -/

/-- A reference that has missed one more edge. -/
def Ref.missed (r : Ref) : Ref := { r with misses := r.misses + 1 }

theorem State.refMissing_eq (h : s.missDue n = true) : s.refMissing n =
    (if !(s.ref n).qualified || decide (s.refCfg n 24 4 ≤ (s.ref n).misses + 1) then (s.setRef n (s.ref n).missed).refFail n true
      else s.setRef n (s.ref n).missed).refNote s.refStat := if_pos h

theorem State.refMissing_counts (h : s.missDue n = true) (hn : n < 4) (hq : (s.ref n).qualified = true)
    (hfew : (s.ref n).misses + 1 < s.refCfg n 24 4) : s.refMissing n = s.setRef n (s.ref n).missed := by
  rw [State.refMissing_eq h, hq, decide_eq_false (Nat.not_le.mpr hfew), if_neg (by decide)]
  exact (s.setRef_refOnly n _).refNote_kept hn (by rw [State.setRef_same]; rfl)

theorem State.refMissing_disqualifies (h : s.missDue n = true) (hn : n < 4) (hq : (s.ref n).qualified = true)
    (hmany : s.refCfg n 24 4 ≤ (s.ref n).misses + 1) : s.RefOnly n (s.refMissing n) ∧
      (s.refMissing n).ref n = (s.ref n).missed.failed true s.now ∧ s.RefLogged (s.refMissing n) := by
  have href : (s.setRef n (s.ref n).missed).ref n = (s.ref n).missed := State.setRef_same _ _ _
  obtain ⟨honly, hfail, hlog⟩ := State.refFail_spec (s := s.setRef n (s.ref n).missed) (n := n) (by rw [href]; exact hq) true
  rw [href] at hfail
  replace honly := (s.setRef_refOnly n _).trans honly
  rw [State.refMissing_eq h, decide_eq_true hmany, Bool.or_true, if_pos rfl, honly.refNote_changed hn (by rw [hfail, hq]; rfl)]
  exact ⟨honly.trans ((State.evt_side _ _ _).refOnly n), by rw [(State.evt_side _ _ _).ref]; exact hfail, State.RefLogged.evt hlog⟩

theorem State.refMissing_unqualified (h : s.missDue n = true) (hn : n < 4) (hq : (s.ref n).qualified = false) :
    s.RefOnly n (s.refMissing n) ∧ (s.refMissing n).ref n = { (s.ref n).missed with okSince := s.now } ∧
    (s.refMissing n).regs = s.regs := by
  have href : (s.setRef n (s.ref n).missed).ref n = (s.ref n).missed := State.setRef_same _ _ _
  have hfail := State.refFail_unqualified (s := s.setRef n (s.ref n).missed) (n := n) (by rw [href]; exact hq) true
  rw [href] at hfail
  have honly := (s.setRef_refOnly n (s.ref n).missed).trans
    ((s.setRef n (s.ref n).missed).setRef_refOnly n { (s.ref n).missed with okSince := s.now })
  have hset : ((s.setRef n (s.ref n).missed).setRef n { (s.ref n).missed with okSince := s.now }).ref n =
    { (s.ref n).missed with okSince := s.now } := State.setRef_same _ _ _
  rw [State.refMissing_eq h, hq, Bool.not_false, Bool.true_or, if_pos rfl, hfail]
  rw [show (s.setRef n (s.ref n).missed).now = s.now from rfl, honly.refNote_kept hn (by rw [hset]; rfl)]
  exact ⟨honly, hset, rfl⟩

/-! ### The end of a window -/

/-- A reference with the next window begun. -/
def Ref.nextWin (r : Ref) (start : Nat) (old : Ref) : Ref :=
  { r with
    winStart := start, winFirst := none, winLast := none, winCount := 0
    oppMean := if old.oppCount = 0 then old.oppMean else old.oppSum / old.oppCount
    oppSum := 0, oppCount := 0 }

theorem State.refWindow_early (h : s.now < (s.ref n).winStart + s.winLen n) : s.refWindow n = s := if_neg (Nat.not_le.mpr h)

theorem State.refWindow_eq (h : (s.ref n).winStart + s.winLen n ≤ s.now) : s.refWindow n =
    ((if s.winPass n then s else s.refFail n false).setRef n
      (((if s.winPass n then s else s.refFail n false).ref n).nextWin ((s.ref n).winStart + s.winLen n) (s.ref n))).refNote s.refStat :=
  if_pos h

theorem State.refWindow_passes (h : (s.ref n).winStart + s.winLen n ≤ s.now) (hn : n < 4) (hpass : s.winPass n = true) :
    s.refWindow n = s.setRef n ((s.ref n).nextWin ((s.ref n).winStart + s.winLen n) (s.ref n)) := by
  rw [State.refWindow_eq h, if_pos hpass]
  exact (s.setRef_refOnly n _).refNote_kept hn (by rw [State.setRef_same]; rfl)

theorem State.refWindow_fails (h : (s.ref n).winStart + s.winLen n ≤ s.now) (hn : n < 4) (hpass : s.winPass n = false)
    (hq : (s.ref n).qualified = true) : s.RefOnly n (s.refWindow n) ∧
      (s.refWindow n).ref n = ((s.ref n).failed false s.now).nextWin ((s.ref n).winStart + s.winLen n) (s.ref n) ∧
      s.RefLogged (s.refWindow n) := by
  obtain ⟨honly, hfail, hlog⟩ := State.refFail_spec hq false
  rw [State.refWindow_eq h, if_neg (Bool.eq_false_iff.mp hpass), hfail]
  generalize s.refFail n false = y at honly hlog ⊢
  have hset : (y.setRef n (((s.ref n).failed false s.now).nextWin ((s.ref n).winStart + s.winLen n) (s.ref n))).ref n = _ :=
    State.setRef_same _ _ _
  replace honly := honly.trans (y.setRef_refOnly n (((s.ref n).failed false s.now).nextWin ((s.ref n).winStart + s.winLen n) (s.ref n)))
  rw [honly.refNote_changed hn (by rw [hset, hq]; rfl)]
  exact ⟨honly.trans ((State.evt_side _ _ _).refOnly n), by rw [(State.evt_side _ _ _).ref]; exact hset, State.RefLogged.evt hlog⟩

/-! ### Qualification -/

/-- A reference that has passed for QUAL_TIME. -/
def Ref.passed (r : Ref) (adopt : Bool) : Ref :=
  { r with qualified := true, everQualified := true, adoptDue := r.adoptDue || (!r.everQualified && adopt) }

theorem State.refQualify_none (h : (s.ref n).qualified = true ∨ (s.ref n).lastSel = none ∨
    s.now < (s.ref n).okSince + s.refCfg n 16 8 * 200_000_000) : s.refQualify n = s := by
  refine if_neg ?_
  rw [Bool.and_eq_true, Bool.and_eq_true, Bool.and_eq_true, Bool.not_eq_true', decide_eq_true_eq]
  rintro ⟨⟨⟨hq, hsel⟩, htime⟩, -⟩
  rcases h with h | h | h
  · rw [h] at hq
    exact Bool.false_ne_true hq.symm
  · rw [h] at hsel
    exact Bool.false_ne_true hsel
  · omega

theorem State.refQualify_passes (hn : n < 4) (hq : (s.ref n).qualified = false) (hsel : (s.ref n).lastSel ≠ none)
    (htime : (s.ref n).okSince + s.refCfg n 16 8 * 200_000_000 ≤ s.now) (hmiss : s.missDue n = false) :
    s.refQualify n = (s.setRef n ((s.ref n).passed (decide (s.refCfg n 5 1 = 1)))).evt sClk 4 := by
  have hgo : (!(s.ref n).qualified && (s.ref n).lastSel.isSome &&
      decide ((s.ref n).okSince + s.refCfg n 16 8 * 200_000_000 ≤ s.now) && !s.missDue n) = true := by
    rw [hq, Option.isSome_iff_ne_none.mpr hsel, decide_eq_true htime, hmiss]
    rfl
  exact (if_pos hgo).trans ((s.setRef_refOnly n _).refNote_changed hn (by rw [State.setRef_same, hq]; rfl))

/-- Settles O30: each step by its due time and by what the reference was. -/
theorem referenceChecks : Obligations.ReferenceChecks := by
  intro s t x hpow
  have hx := x.isLt
  refine ⟨fun hmiss => ?_, fun hmiss hq => ⟨fun hfew => ?_, fun hmany => ?_⟩, fun hmiss hq => ?_, fun hearly => ?_,
    fun hend => ⟨fun hpass => ?_, fun hpass hq => ?_⟩, fun hnone => ?_, fun hq hsel htime hmiss => ?_⟩
  · exact next_of hpow (exec_refEdgeMissing t x s) (if_neg (Bool.eq_false_iff.mp hmiss)) (Quiet.refl _)
  · have honly := (s.advance t).setRef_refOnly x (s.ref x).missed
    exact answers_of hpow (exec_refEdgeMissing t x s) (State.refMissing_counts hmiss hx hq hfew) honly.quiet
      ⟨State.setRef_same _ _ _, rfl, honly⟩
  · obtain ⟨honly, href, hlog⟩ := State.refMissing_disqualifies hmiss hx hq hmany
    exact answers_of hpow (exec_refEdgeMissing t x s) rfl honly.quiet ⟨href, hlog, honly⟩
  · obtain ⟨honly, href, hregs⟩ := State.refMissing_unqualified hmiss hx hq
    exact answers_of hpow (exec_refEdgeMissing t x s) rfl honly.quiet ⟨href, hregs, honly⟩
  · exact next_of hpow (exec_refWindowEnd t x s) (State.refWindow_early (s := s.advance t) hearly) (Quiet.refl _)
  · have honly := (s.advance t).setRef_refOnly x ((s.ref x).nextWin ((s.ref x).winStart + s.winLen x) (s.ref x))
    have hset : ((s.advance t).setRef x ((s.ref x).nextWin ((s.ref x).winStart + s.winLen x) (s.ref x))).ref x = _ := State.setRef_same _ _ _
    refine answers_of hpow (exec_refWindowEnd t x s) (State.refWindow_passes (s := s.advance t) hend hx hpass) honly.quiet
      ⟨?_, ?_, ?_, ?_, ?_, rfl, honly⟩
    · exact (congrArg Ref.qualified hset :)
    · exact (congrArg Ref.winStart hset :)
    · exact (congrArg Ref.winCount hset :)
    · exact (congrArg Ref.winFirst hset :)
    · exact (congrArg Ref.okSince hset :)
  · obtain ⟨honly, href, hlog⟩ := State.refWindow_fails (s := s.advance t) hend hx hpass hq
    refine answers_of hpow (exec_refWindowEnd t x s) rfl honly.quiet ⟨?_, ?_, ?_, ?_, ?_, hlog, honly⟩
    · exact (congrArg Ref.qualified href :)
    · exact (congrArg Ref.freqFail href :)
    · exact (congrArg Ref.missFail href :)
    · exact (congrArg Ref.winStart href :)
    · exact (congrArg Ref.winCount href :)
  · exact next_of hpow (exec_refQualified t x s) (State.refQualify_none (s := s.advance t) hnone) (Quiet.refl _)
  · have hset : ((s.advance t).setRef x ((s.ref x).passed (decide (s.refCfg x 5 1 = 1)))).ref x = _ := State.setRef_same _ _ _
    have hside := ((s.advance t).setRef x ((s.ref x).passed (decide (s.refCfg x 5 1 = 1)))).evt_side sClk 4
    have honly := ((s.advance t).setRef_refOnly x _).trans (hside.refOnly x)
    have href := (hside.ref x).trans hset
    refine answers_of hpow (exec_refQualified t x s) (State.refQualify_passes (s := s.advance t) hx hq hsel htime hmiss) honly.quiet
      ⟨?_, ?_, State.evt_bit sClk (by decide), honly.loop, honly⟩
    · exact (congrArg Ref.qualified href :)
    · exact (congrArg Ref.lastSel href :)

end Sys2Proof.Machine
end

section
/-! Proofs about the selection of a reference, Winter and pulls (02_time_base.md, R35 to R46). -/

namespace Sys2Proof.Machine

variable {s x y : State} {t a off slot ch n : Nat} {p : Path} {v : Word} {r : RegInfo} {q : PageInfo}

/-! ### The tick before the selection -/

/-- What the tick's notes leave as it was: all that the selection reads. -/
structure State.SameClk (s x : State) : Prop where
  loop : x.loop = s.loop
  now : x.now = s.now
  solEdge : x.solEdge = s.solEdge
  clkWait : x.clkWait = s.clkWait
  touts : x.touts = s.touts
  ckos : x.ckos = s.ckos
  lastSel : ∀ n, (x.ref n).lastSel = (s.ref n).lastSel
  qualified : ∀ n, (x.ref n).qualified = (s.ref n).qualified
  reg : ∀ i, 0x00C ≤ i → x.reg (ra sClk i) = s.reg (ra sClk i)

theorem State.SameClk.refl (s : State) : s.SameClk s := ⟨rfl, rfl, rfl, rfl, rfl, rfl, fun _ => rfl, fun _ => rfl, fun _ _ => rfl⟩

theorem State.SameClk.trans (h : s.SameClk x) (k : x.SameClk y) : s.SameClk y :=
  ⟨k.loop.trans h.loop, k.now.trans h.now, k.solEdge.trans h.solEdge, k.clkWait.trans h.clkWait, k.touts.trans h.touts,
    k.ckos.trans h.ckos, fun n => (k.lastSel n).trans (h.lastSel n), fun n => (k.qualified n).trans (h.qualified n),
    fun i hi => (k.reg i hi).trans (h.reg i hi)⟩

theorem State.setRef_sameClk {r : Ref} (hsel : r.lastSel = (s.ref n).lastSel) (hq : r.qualified = (s.ref n).qualified) :
    s.SameClk (s.setRef n r) := by
  refine ⟨rfl, rfl, rfl, rfl, rfl, rfl, fun m => ?_, fun m => ?_, fun _ _ => rfl⟩
  all_goals
    by_cases hm : n = m
    · subst hm
      rw [State.setRef_same]
      assumption
    · rw [State.setRef_ne s r hm]

theorem State.evt_clk_reg (s : State) (b : Nat) {i : Nat} (hi : 0x00C ≤ i) : (s.evt sClk b).reg (ra sClk i) = s.reg (ra sClk i) :=
  State.evt_reg_of_ne b (fun h => absurd (Nat.add_left_cancel h) (by omega)) (fun h => absurd (Nat.add_left_cancel h) (by omega))

theorem State.evt_sameClk (s : State) (b : Nat) : s.SameClk (s.evt sClk b) := by
  have hreg := fun i => s.evt_clk_reg b (i := i)
  have hside := s.evt_side sClk b
  generalize s.evt sClk b = y at hreg hside
  obtain ⟨_, _, _, _, _, rfl⟩ := hside
  exact ⟨rfl, rfl, rfl, rfl, rfl, rfl, fun _ => rfl, fun _ => rfl, hreg⟩

theorem State.actFall_sameClk (s : State) (n : Nat) : s.SameClk (s.actFall n) := by
  unfold State.actFall
  dsimp only
  split
  · split
    · exact State.setRef_sameClk rfl rfl
    · exact State.SameClk.refl s
  · exact State.SameClk.refl s

/-- The tick with the references' activity noted. -/
def State.ticking (s : State) : State := (s.each (List.range 4) State.actFall).refNote s.refStat

theorem State.ticking_sameClk (s : State) : s.SameClk s.ticking := by
  have hfall : s.SameClk (s.each (List.range 4) State.actFall) :=
    State.each_induct (P := s.SameClk) (fun u n _ h => h.trans (u.actFall_sameClk n)) (State.SameClk.refl s)
  unfold State.ticking State.refNote
  split
  · exact hfall
  · exact hfall.trans (State.evt_sameClk _ _)

theorem State.SameClk.candidates (h : s.SameClk x) : x.candidates = s.candidates := by
  unfold State.candidates
  dsimp only
  simp only [h.reg 0x014 (by decide), h.qualified]

theorem State.SameClk.refErr (h : s.SameClk x) (n : Nat) : x.refErr n = s.refErr n := by
  have htgt : x.refTarget n = s.refTarget n := by
    rw [State.refTarget, State.refTarget, State.reg64, State.reg64, h.reg _ (by omega), h.reg _ (by omega)]
  have hfreq : x.refFreq n = s.refFreq n := by rw [State.refFreq, State.refFreq, h.reg _ (by omega)]
  have hepoch (p : Int) : x.loopEpoch p = s.loopEpoch p := by rw [State.loopEpoch, State.loopEpoch, h.solEdge]
  rw [State.refErr, State.refErr, h.lastSel n, htgt, hfreq]
  simp only [hepoch]

theorem State.SameClk.slew (h : s.SameClk x) : x.slew = s.slew := by
  rw [State.slew, State.slew, State.rfld, State.rfld, h.reg _ (by decide)]

theorem State.SameClk.holdWord (h : s.SameClk x) (l : Loop) : x.holdWord l = s.holdWord l := by
  unfold State.holdWord State.freerun State.reg64 State.rfld
  rw [h.reg _ (by decide), h.reg 0x060 (by decide), h.reg (0x060 + 4) (by decide)]

theorem State.refTick_eq (s : State) : s.refTick = s.ticking.clkApply.selectRef := rfl

theorem State.clkApply_none (h : s.loop.comm = false) : s.clkApply = s := if_neg (Bool.eq_false_iff.mp h)

/-! ### The selection -/

/-- The active reference is a candidate. -/
def State.refHeld (s : State) : Bool :=
  match s.loop.active with
  | some x => s.candidates.contains x
  | none => false

/-- The active reference stays while a committed SEL has not qualified (R37). -/
def State.refStay (s : State) : Bool :=
  match s.loop.active with
  | some x => s.loop.selPend && !(s.ref (fld (s.reg (ra sClk 0x014)) 2 2)).qualified && (s.ref x).qualified
  | none => false

/-- The loop keeps its reference; one whose target has moved is pulled to again. -/
def State.keepRef (s : State) : State :=
  match s.loop.active with
  | some x => if s.loop.changed then s.startPull x else s
  | none => s

/-- A candidate replaces the active reference, though that is one too (R36, R37). -/
def State.reverts (s : State) (want : Nat) : Bool :=
  decide (s.loop.active ≠ some want) && ((s.loop.selPend && decide (want = fld (s.reg (ra sClk 0x014)) 2 2)) ||
    (bit (s.reg (ra sClk 0x014)) 4 && (decide (fld (s.reg (ra sClk 0x014)) 0 2 = 1) || decide (want = fld (s.reg (ra sClk 0x014)) 2 2))))

/-- What a tick selects. -/
def State.choice (s : State) : State :=
  if s.refStay && !s.refHeld then s.keepRef
  else match s.candidates with
    | [] => s.enterWinter
    | want :: _ => if !s.refHeld then s.startPull want else if s.reverts want then s.startPull want else s.keepRef

/-- The tick's selection with its requests served. -/
def State.selected (s y : State) : State :=
  { y with loop := { y.loop with
      changed := false
      selPend := y.loop.selPend && decide (fld (s.reg (ra sClk 0x014)) 0 2 = 0) &&
        decide (y.loop.active ≠ some (fld (s.reg (ra sClk 0x014)) 2 2)) } }

theorem State.selectRef_eq (h : s.loop.oscHold = false) : s.selectRef = s.selected s.choice := if_neg (Bool.eq_false_iff.mp h)

theorem State.refHeld_eq (h : s.loop.active = some n) : s.refHeld = s.candidates.contains n := by
  rw [State.refHeld, h]

theorem State.refStay_none (h : s.loop.selPend = false) : s.refStay = false := by
  unfold State.refStay
  split
  · rw [h, Bool.false_and, Bool.false_and]
  · rfl

theorem State.choice_cons {want : Nat} {l : List Nat} (hpend : s.loop.selPend = false) (hc : s.candidates = want :: l) :
    s.choice = if !s.refHeld then s.startPull want else if s.reverts want then s.startPull want else s.keepRef := by
  unfold State.choice
  rw [State.refStay_none hpend, Bool.false_and, if_neg Bool.false_ne_true, hc]

/-- The active reference is a candidate that no better one replaces. -/
theorem State.choice_stays (hchanged : s.loop.changed = false) (hpend : s.loop.selPend = false) (hact : s.loop.active = some n)
    (hin : n ∈ s.candidates) (hbest : s.candidates.head? = some n ∨ s.rbit sClk 0x014 4 = false) : s.choice = s := by
  have hheld : s.refHeld = true := (State.refHeld_eq hact).trans (List.contains_iff_mem.mpr hin)
  cases hc : s.candidates with
  | nil =>
    rw [hc] at hin
    exact absurd hin List.not_mem_nil
  | cons want l =>
    have hno : s.reverts want = false := by
      unfold State.reverts
      rcases hbest with h | h
      · have hsame : decide (some n ≠ some want) = false := decide_eq_false (not_not_intro (Option.some.inj (hc ▸ h) ▸ rfl))
        rw [hact, hsame, Bool.false_and]
      · rw [hpend, show bit (s.reg (ra sClk 0x014)) 4 = false from h, Bool.false_and, Bool.false_and, Bool.or_self, Bool.and_false]
    rw [State.choice_cons hpend hc, hheld, hno, if_neg (by decide), if_neg Bool.false_ne_true, State.keepRef, hact]
    exact if_neg (Bool.eq_false_iff.mp hchanged)

/-- With no candidate active the best one is. -/
theorem State.choice_best {want : Nat} {l : List Nat} (hpend : s.loop.selPend = false) (hc : s.candidates = want :: l)
    (hout : ∀ n, s.loop.active = some n → n ∉ s.candidates) : s.choice = s.startPull want := by
  have hheld : s.refHeld = false := by
    unfold State.refHeld
    split
    case h_1 n hn => exact Bool.eq_false_iff.mpr fun h => hout n hn (List.contains_iff_mem.mp h)
    case h_2 => rfl
  rw [State.choice_cons hpend hc, hheld]
  rfl

/-- A better candidate replaces the active one where REVERT lets it. -/
theorem State.choice_reverts {want : Nat} {l : List Nat} (hpend : s.loop.selPend = false) (hact : s.loop.active = some n)
    (hc : s.candidates = want :: l) (hin : n ∈ l) (hne : n ≠ want) (hrev : s.rbit sClk 0x014 4 = true) (hmode : s.rfld sClk 0x014 0 2 = 1) :
    s.choice = s.startPull want := by
  have hheld : s.refHeld = true := by
    rw [State.refHeld_eq hact, hc]
    exact List.contains_iff_mem.mpr (List.mem_cons_of_mem _ hin)
  have hgo : s.reverts want = true := by
    unfold State.reverts
    have hother : decide (some n ≠ some want) = true := decide_eq_true fun h => hne (Option.some.inj h)
    rw [hact, hother, show bit (s.reg (ra sClk 0x014)) 4 = true from hrev,
      decide_eq_true (show fld (s.reg (ra sClk 0x014)) 0 2 = 1 from hmode), Bool.true_or, Bool.true_and, Bool.true_and, Bool.or_true]
  rw [State.choice_cons hpend hc, hheld, hgo]
  rfl

theorem State.choice_winter (hpend : s.loop.selPend = false) (hc : s.candidates = []) : s.choice = s.enterWinter := by
  unfold State.choice
  rw [State.refStay_none hpend, Bool.false_and, if_neg Bool.false_ne_true, hc]

/-! ### Winter -/

/-- The loop as it enters Winter from TRACKING or a pull: the history's mean is held. -/
def State.winterLoop (s : State) : Loop :=
  { s.loop.endSpan s.now with
    mode := .winter, active := none, steer := s.holdWord (s.loop.endSpan s.now), held := s.holdWord (s.loop.endSpan s.now)
    pull := none, pullDue := false, winterFrom := s.now }

theorem Loop.endSpan_mode (l : Loop) (now : Nat) : (l.endSpan now).mode = l.mode := by
  unfold Loop.endSpan
  split <;> rfl

theorem State.enterWinter_eq (hmode : s.loop.mode = .pulling ∨ s.loop.mode = .tracking) (hpair : ∀ k, s.loop.pull = some k → k.pair = none) :
    s.enterWinter = (({ s with loop := s.winterLoop, par := { s.par with pthaw := false } } : State).evt sClk 1).bbrPush 9 sClk
      [0, ({ s with loop := s.winterLoop, par := { s.par with pthaw := false } } : State).winterTime] := by
  have hthaw : decide ((s.loop.endSpan s.now).mode = LoopMode.thaw) = false := by
    rw [Loop.endSpan_mode]
    rcases hmode with h | h <;> rw [h] <;> rfl
  have hnot : ¬(s.loop.mode = .winter ∨ (match s.loop.pull with
      | some k => decide (k.pair = some .winter)
      | none => false) = true) := by
    rintro (h | h)
    · rcases hmode with hm | hm <;> rw [hm] at h <;> exact LoopMode.noConfusion h
    · cases hp : s.loop.pull with
      | none => rw [hp] at h; exact Bool.false_ne_true h
      | some k => rw [hp] at h; dsimp only at h; rw [hpair k hp] at h; exact absurd h (by decide)
  unfold State.enterWinter State.winterLoop
  refine (if_neg hnot).trans ?_
  simp only [hthaw, Bool.false_and, Bool.false_eq_true, if_false]

/-! ### What a selection leaves -/

/-- What every selection leaves: the registers of CLK above its events, and what waits for a tick. -/
def State.KeepsClk (s x : State) : Prop :=
  x.clkWait = s.clkWait ∧ x.loop.comm = s.loop.comm ∧ ∀ i, 0x00C ≤ i → i < 0x400 → x.reg (ra sClk i) = s.reg (ra sClk i)

theorem State.KeepsClk.refl (s : State) : s.KeepsClk s := ⟨rfl, rfl, fun _ _ _ => rfl⟩

theorem State.KeepsClk.trans (h : s.KeepsClk x) (k : x.KeepsClk y) : s.KeepsClk y :=
  ⟨k.1.trans h.1, k.2.1.trans h.2.1, fun i hi hi' => (k.2.2 i hi hi').trans (h.2.2 i hi hi')⟩

theorem Side.clkWait (h : Side s x) : x.clkWait = s.clkWait := by
  obtain ⟨_, _, _, _, _, rfl⟩ := h
  rfl

theorem State.evt_keepsClk (s : State) (b : Nat) : s.KeepsClk (s.evt sClk b) :=
  ⟨(s.evt_side _ _).clkWait, congrArg Loop.comm (s.evt_side _ _).loop, fun _ hi _ => s.evt_clk_reg b hi⟩

theorem State.bbrPush_keepsClk (s : State) (code : Nat) (data : List Nat) : s.KeepsClk (s.bbrPush code sClk data) := by
  refine ⟨(s.bbrPush_side _ _ _).clkWait, congrArg Loop.comm (s.bbrPush_side _ _ _).loop, fun i _ hi => ?_⟩
  exact State.bbrPush_reg_page _ _ _ (by rw [ra_div sClk i hi]; decide)

theorem Loop.endSpan_comm (l : Loop) (now : Nat) : (l.endSpan now).comm = l.comm := by
  unfold Loop.endSpan
  split <;> rfl

theorem State.startPull_keepsClk (s : State) (n : Nat) : s.KeepsClk (s.startPull n) := by
  have hpulled : s.KeepsClk (s.pulled n) := ⟨rfl, Loop.endSpan_comm _ _, fun _ _ _ => rfl⟩
  have hnoted : s.KeepsClk (s.pullNoted n) := by
    unfold State.pullNoted
    split
    · exact hpulled
    · exact (hpulled.trans (State.evt_keepsClk _ 0)).trans (State.bbrPush_keepsClk _ _ _)
  rw [State.startPull_eq]
  split
  · exact hnoted.trans (State.evt_keepsClk _ 8)
  · exact hnoted

/-- A Winter that is entered. -/
theorem State.enterWinter_cases (s : State) : s.enterWinter = s ∨ ∃ l y d, l.comm = s.loop.comm ∧
    s.enterWinter = (({ s with loop := l, par := y } : State).evt sClk 1).bbrPush 9 sClk [0, d] := by
  have h : s.enterWinter = s ∨ s.enterWinter = _ := ite_eq_or_eq _ _ _
  refine h.imp id fun h => ⟨_, _, _, ?_, h⟩
  exact Loop.endSpan_comm _ _

theorem State.enterWinter_keepsClk (s : State) : s.KeepsClk s.enterWinter := by
  rcases s.enterWinter_cases with h | ⟨l, y, d, hl, h⟩
  · rw [h]
    exact State.KeepsClk.refl s
  · rw [h]
    have hloop : s.KeepsClk { s with loop := l, par := y } := ⟨rfl, hl, fun _ _ _ => rfl⟩
    exact hloop.trans ((State.evt_keepsClk _ 1).trans (State.bbrPush_keepsClk _ _ _))

theorem State.keepRef_keepsClk (s : State) : s.KeepsClk s.keepRef := by
  unfold State.keepRef
  split
  · split
    · exact s.startPull_keepsClk _
    · exact State.KeepsClk.refl s
  · exact State.KeepsClk.refl s

theorem State.choice_keepsClk (s : State) : s.KeepsClk s.choice := by
  unfold State.choice
  split
  · exact s.keepRef_keepsClk
  · split
    · exact s.enterWinter_keepsClk
    · split
      · exact s.startPull_keepsClk _
      · split
        · exact s.startPull_keepsClk _
        · exact s.keepRef_keepsClk

theorem State.selectRef_keepsClk (h : s.loop.oscHold = false) : s.KeepsClk s.selectRef := by
  rw [State.selectRef_eq h]
  exact s.choice_keepsClk.trans ⟨rfl, rfl, fun _ _ _ => rfl⟩

theorem State.freerunHeld_eq (s : State) : ∃ l, s.freerunHeld = { s with loop := l } ∧ l.oscHold = s.loop.oscHold := by
  unfold State.freerunHeld
  dsimp only
  split
  · exact ⟨_, rfl, rfl⟩
  · exact ⟨s.loop, rfl, rfl⟩

theorem State.setTarget_reg_below (s : State) (n : Nat) (i : Int) (hoff : off < 0x084) :
    (s.setTarget n i).reg (ra sClk off) = s.reg (ra sClk off) := by
  have hne (j : Nat) : ra sClk (0x084 + 8 * n + j) ≠ ra sClk off := fun h => absurd (Nat.add_left_cancel h) (by omega)
  unfold State.setTarget State.setReg64
  exact (State.setReg_reg_ne _ _ (hne 4)).trans (State.setReg_reg_ne _ _ (hne 0))

/-- A state differs from another at most in registers of CLK from the targets on. -/
def State.TargetsOnly (s x : State) : Prop := (∃ m, x = { s with regs := m }) ∧ ∀ off, off < 0x084 → x.reg (ra sClk off) = s.reg (ra sClk off)

/-- Targets set one after another. -/
theorem State.each_setTarget (s : State) (l : List Nat) (f : State → Nat → Int) :
    s.TargetsOnly (s.each l fun s x => s.setTarget x (f s x)) := by
  refine State.each_induct (P := s.TargetsOnly) (fun u x _ ⟨⟨m, hm⟩, hreg⟩ => ⟨?_, fun off hoff => ?_⟩) ⟨⟨_, rfl⟩, fun _ _ => rfl⟩
  · subst hm
    exact ⟨_, rfl⟩
  · exact (u.setTarget_reg_below x _ hoff).trans (hreg off hoff)

/-- What a committed set leaves of one value that waited, below the targets. -/
theorem State.clkApply_one (hcomm : s.loop.comm = true) (hoff : off < 0x084) (hwait : s.clkWait = [(ra sClk off, v)]) :
    s.clkApply.reg (ra sClk off) = v ∧ s.clkApply.clkWait = [] ∧ s.clkApply.loop.comm = false ∧
    s.clkApply.loop.oscHold = s.loop.oscHold := by
  unfold State.clkApply
  rw [if_pos hcomm, hwait]
  dsimp only
  rw [State.each_cons, State.each_nil]
  generalize hs2 : State.each _ _ _ = s2
  have hspec : (s.setReg (ra sClk off) v).TargetsOnly s2 := by
    rw [← hs2]
    exact State.each_setTarget _ _ _
  obtain ⟨⟨m, rfl⟩, hreg⟩ := hspec
  replace hreg := (hreg off hoff).trans (State.setReg_reg_same _ _ _)
  obtain ⟨l, hl, hosc⟩ := State.freerunHeld_eq { s.setReg (ra sClk off) v with regs := m }
  rw [hl]
  exact ⟨hreg, rfl, rfl, hosc⟩

/-! ### The end of a pull -/

theorem State.pullDone_none (h : s.loop.pull = none) : s.pullDone = s := by
  rw [State.pullDone, h]

theorem State.pullDone_early {k : Pull} (h : s.loop.pull = some k) (hearly : s.now < k.start + pullLen k.e k.slew) : s.pullDone = s := by
  rw [State.pullDone, h]
  exact if_neg (Nat.not_le.mpr hearly)

/-- TRACKING from the end of a pull. -/
def State.tracks (s : State) : State :=
  { s with loop := { s.loop with mode := .tracking, pull := none, spanFrom := s.now, winterSecs := s.winterTime } }

theorem State.pullDone_tracks {k : Pull} (h : s.loop.pull = some k) (hover : k.start + pullLen k.e k.slew ≤ s.now) (hpair : k.pair = none) :
    s.pullDone = if s.loop.mode = .thaw then (s.tracks.evt sClk 2).bbrPush 9 sClk [1, s.tracks.winterTime] else s.tracks.evt sClk 3 := by
  rw [State.pullDone, h]
  dsimp only
  rw [if_pos hover, hpair]
  rfl

theorem State.pullDone_tracks_spec {k : Pull} (h : s.loop.pull = some k) (hover : k.start + pullLen k.e k.slew ≤ s.now)
    (hpair : k.pair = none) : s.pullDone.loop.mode = .tracking ∧ s.pullDone.loop.pull = none ∧ s.pullDone.loop.active = s.loop.active ∧
      s.pullDone.refs = s.refs ∧ bit (s.pullDone.reg (ra sClk 0x008)) (if s.loop.mode = .thaw then 2 else 3) = true := by
  rw [State.pullDone_tracks h hover hpair]
  by_cases hmode : s.loop.mode = .thaw
  · have hside := (s.tracks.evt_side sClk 2).trans (State.bbrPush_side _ 9 sClk [1, s.tracks.winterTime])
    have hbit : bit (((s.tracks.evt sClk 2).bbrPush 9 sClk [1, s.tracks.winterTime]).reg (ra sClk 0x008)) 2 = true := by
      rw [State.bbrPush_reg_page _ _ _ (by decide)]
      exact State.evt_bit sClk (by decide)
    rw [if_pos hmode, if_pos hmode]
    generalize (s.tracks.evt sClk 2).bbrPush 9 sClk [1, s.tracks.winterTime] = y at hside hbit ⊢
    obtain ⟨_, _, _, _, _, rfl⟩ := hside
    exact ⟨rfl, rfl, rfl, rfl, hbit⟩
  · have hside := s.tracks.evt_side sClk 3
    have hbit : bit ((s.tracks.evt sClk 3).reg (ra sClk 0x008)) 3 = true := State.evt_bit sClk (by decide)
    rw [if_neg hmode, if_neg hmode]
    generalize s.tracks.evt sClk 3 = y at hside hbit ⊢
    obtain ⟨_, _, _, _, _, rfl⟩ := hside
    exact ⟨rfl, rfl, rfl, rfl, hbit⟩

/-- A pair Thaw ends in the state that it came from, its references' targets moved. -/
theorem State.pullDone_pair {k : Pull} {m : LoopMode} (h : s.loop.pull = some k) (hover : k.start + pullLen k.e k.slew ≤ s.now)
    (hpair : k.pair = some m) : ∃ r, s.pullDone =
      { s with
        regs := r, loop := { s.loop with mode := m, pull := none, spanFrom := s.now }
        par := { s.par with pthaw := false } } := by
  rw [State.pullDone, h]
  dsimp only
  rw [if_pos hover, hpair]
  dsimp only
  generalize hs1 : State.each _ _ _ = s1
  have hspec : s.TargetsOnly s1 := by
    rw [← hs1]
    exact State.each_setTarget _ _ _
  obtain ⟨⟨r, rfl⟩, -⟩ := hspec
  exact ⟨r, rfl⟩

/-! ### The tick as a whole -/

theorem State.wakeAll_loop (s : State) : s.wakeAll.loop = s.loop := by
  obtain ⟨_, h⟩ := s.wakeAll_ctxSide
  rw [h]

theorem Loop.endSpan_inWinter (l : Loop) (now : Nat) : (l.endSpan now).inWinter = l.inWinter := by
  unfold Loop.endSpan
  split <;> rfl

theorem Loop.endSpan_active (l : Loop) (now : Nat) : (l.endSpan now).active = l.active := by
  unfold Loop.endSpan
  split <;> rfl

/-- Where no committed set waits, a tick is its selection. -/
theorem State.refTick_selects (hosc : s.loop.oscHold = false) (hcomm : s.loop.comm = false) :
    s.refTick = s.ticking.selected s.ticking.choice := by
  have hloop := s.ticking_sameClk.loop
  rw [State.refTick_eq, State.clkApply_none (by rw [hloop]; exact hcomm), State.selectRef_eq (by rw [hloop]; exact hosc)]

theorem State.startPull_bit (h : s.loop.active ≠ some n) : bit ((s.startPull n).reg (ra sClk 0x008)) 0 = true := by
  have hnoted : bit ((s.pullNoted n).reg (ra sClk 0x008)) 0 = true := by
    unfold State.pullNoted
    rw [if_neg (by rw [Loop.endSpan_active]; exact h), State.bbrPush_reg_page _ _ _ (by decide)]
    exact State.evt_bit sClk (by decide)
  rw [State.startPull_eq]
  split
  · exact State.evt_bit_keep _ _ _ hnoted
  · exact hnoted

/-- A tick that selects a reference to pull to. -/
theorem State.refTick_pulls {want : Nat} (hosc : s.loop.oscHold = false) (hcomm : s.loop.comm = false) (hact : s.loop.active ≠ some want)
    (hchoice : s.ticking.choice = s.ticking.startPull want) : s.refTick.wakeAll.loop.active = some want ∧
      s.refTick.wakeAll.loop.mode = (if s.loop.inWinter then .thaw else .pulling) ∧
      s.refTick.wakeAll.loop.pull = some { e := s.refErr want, start := s.now, slew := s.slew } ∧
      bit (s.refTick.wakeAll.reg (ra sClk 0x008)) 0 = true := by
  have hsame := s.ticking_sameClk
  have hpull := (s.ticking.startPull_side want).loop
  have hbit := State.startPull_bit (s := s.ticking) (n := want) (by rw [hsame.loop]; exact hact)
  have hmode : (s.ticking.pullLoop want).mode = if s.loop.inWinter then .thaw else .pulling := by
    rw [State.pullLoop, Loop.endSpan_inWinter, hsame.loop]
  have hmove : (s.ticking.pullLoop want).pull = some { e := s.refErr want, start := s.now, slew := s.slew } := by
    rw [State.pullLoop, hsame.refErr, hsame.now, hsame.slew]
  rw [State.wakeAll_loop, State.wakeAll_reg, State.refTick_selects hosc hcomm, hchoice, ← hmode, ← hmove]
  generalize s.ticking.startPull want = y at hpull hbit
  exact ⟨(congrArg Loop.active hpull :), (congrArg Loop.mode hpull :), (congrArg Loop.pull hpull :), hbit⟩

/-- A tick with no candidate. -/
theorem State.refTick_winter (hosc : s.loop.oscHold = false) (hcomm : s.loop.comm = false)
    (hmode : s.loop.mode = .pulling ∨ s.loop.mode = .tracking) (hpair : ∀ k, s.loop.pull = some k → k.pair = none)
    (hchoice : s.ticking.choice = s.ticking.enterWinter) :
    s.refTick.wakeAll.loop = { s.winterLoop with changed := false, selPend := s.refTick.wakeAll.loop.selPend } ∧
      bit (s.refTick.wakeAll.reg (ra sClk 0x008)) 1 = true := by
  have hsame := s.ticking_sameClk
  have hloop : s.ticking.winterLoop = s.winterLoop := by
    unfold State.winterLoop
    rw [hsame.loop, hsame.now, hsame.holdWord]
  rw [State.wakeAll_loop, State.wakeAll_reg, State.refTick_selects hosc hcomm, hchoice,
    State.enterWinter_eq (by rw [hsame.loop]; exact hmode) (by rw [hsame.loop]; exact hpair), hloop]
  have hside := (({ s.ticking with loop := s.winterLoop, par := { s.ticking.par with pthaw := false } } : State).evt_side sClk 1).trans
    (State.bbrPush_side _ 9 sClk [0, ({ s.ticking with loop := s.winterLoop, par := { s.ticking.par with pthaw := false } } : State).winterTime])
  refine ⟨?_, ?_⟩
  · unfold State.selected
    dsimp only
    rw [hside.loop]
  · refine (congrArg (bit · 1) (State.bbrPush_reg_page _ _ _ (by decide))).trans ?_
    exact State.evt_bit sClk (by decide)

/-- A committed set of one value. -/
theorem State.refTick_commit (hosc : s.loop.oscHold = false) (hcomm : s.loop.comm = true) (hlo : 0x014 ≤ off) (hhi : off < 0x084)
    (hwait : s.clkWait = [(ra sClk off, v)]) :
    s.refTick.wakeAll.reg (ra sClk off) = v ∧ s.refTick.wakeAll.clkWait = [] ∧ s.refTick.wakeAll.loop.comm = false := by
  have hsame := s.ticking_sameClk
  obtain ⟨hreg, hempty, hdone, hhold⟩ := State.clkApply_one (s := s.ticking) (by rw [hsame.loop]; exact hcomm) hhi
    (hsame.clkWait.trans hwait)
  obtain ⟨hw, hc, hr⟩ := State.selectRef_keepsClk (s := s.ticking.clkApply) (by rw [hhold, hsame.loop]; exact hosc)
  have hwake : s.refTick.wakeAll.clkWait = s.refTick.clkWait := by
    obtain ⟨_, h⟩ := s.refTick.wakeAll_ctxSide
    rw [h]
  rw [State.wakeAll_loop, State.wakeAll_reg, hwake, State.refTick_eq, hw, hc, hr off (by omega) (by omega)]
  exact ⟨hreg, hempty, hdone⟩

theorem Loop.settled_eq {l : Loop} (hc : l.changed = false) (hp : l.selPend = false) : { l with changed := false, selPend := false } = l := by
  cases l
  dsimp only at hc hp
  subst hc hp
  rfl

/-- A tick that selects nothing new. -/
theorem State.refTick_stays (hosc : s.loop.oscHold = false) (hcomm : s.loop.comm = false) (hchanged : s.loop.changed = false)
    (hpend : s.loop.selPend = false) (hchoice : s.ticking.choice = s.ticking) :
    s.refTick.wakeAll.loop = s.loop ∧ s.refTick.wakeAll.touts = s.touts ∧ s.refTick.wakeAll.ckos = s.ckos := by
  have hsame := s.ticking_sameClk
  obtain ⟨_, hwake⟩ := (s.ticking.selected s.ticking).wakeAll_ctxSide
  rw [State.refTick_selects hosc hcomm, hchoice, hwake]
  generalize s.ticking = y at hsame ⊢
  refine ⟨?_, hsame.touts, hsame.ckos⟩
  unfold State.selected
  dsimp only
  rw [hsame.loop, hpend, Bool.false_and, Bool.false_and]
  exact Loop.settled_eq hchanged hpend

/-- Settles O31: the tick by its selection, the end of a pull by where it began. -/
theorem loopSelection : Obligations.LoopSelection := by
  intro s t hpow hctx hosc
  refine ⟨fun hcomm hchanged hpend => ⟨fun x hact hin hbest => ?_, fun want l hc hout => ?_, fun x want l hact hc hin hne hrev hmode => ?_,
    fun hc hmode hpair => ?_⟩, fun off v hcomm _ hlo hhi hwait => ?_, fun hpull => ?_, fun k hpull hearly => ?_,
    fun k hpull hover => ⟨fun hpair => ?_, fun m hpair => ?_⟩⟩
  · have hsame := (s.advance t).ticking_sameClk
    have hcand : (s.advance t).ticking.candidates = s.candidates := hsame.candidates
    have hloop : (s.advance t).ticking.loop = s.loop := hsame.loop
    have hstay : (s.advance t).ticking.choice = (s.advance t).ticking := by
      refine State.choice_stays (n := x) (by rw [hloop, hchanged]) (by rw [hloop, hpend]) (by rw [hloop, hact]) (by rw [hcand]; exact hin) ?_
      refine hbest.imp (fun h => by rw [hcand]; exact h) fun h => ?_
      rw [State.rbit, hsame.reg _ (by decide)]
      exact h
    have hspec := State.refTick_stays (s := s.advance t) hosc hcomm hchanged hpend hstay
    refine answers_of_wrapped hpow (exec_refTick t s) fun _ => ?_
    generalize (s.advance t).refTick.wakeAll = y at hspec ⊢
    exact hspec
  · have hsame := (s.advance t).ticking_sameClk
    have hloop : (s.advance t).ticking.loop = s.loop := hsame.loop
    have hact : s.loop.active ≠ some want := fun h => hout want h (by rw [hc]; exact List.mem_cons_self)
    have hchoice : (s.advance t).ticking.choice = (s.advance t).ticking.startPull want :=
      State.choice_best (by rw [hloop, hpend]) (hsame.candidates.trans hc) fun n hn => by
        rw [hsame.candidates]
        exact hout n (by rw [← hloop]; exact hn)
    have hspec := State.refTick_pulls (s := s.advance t) hosc hcomm hact hchoice
    refine answers_of_wrapped hpow (exec_refTick t s) fun _ => ?_
    generalize (s.advance t).refTick.wakeAll = y at hspec ⊢
    exact hspec
  · have hsame := (s.advance t).ticking_sameClk
    have hloop : (s.advance t).ticking.loop = s.loop := hsame.loop
    have hother : s.loop.active ≠ some want := fun h => hne (Option.some.inj (hact.symm.trans h))
    have hchoice : (s.advance t).ticking.choice = (s.advance t).ticking.startPull want := by
      refine State.choice_reverts (n := x) (by rw [hloop, hpend]) (by rw [hloop, hact]) (hsame.candidates.trans hc) hin hne ?_ ?_
      · rw [State.rbit, hsame.reg _ (by decide)]
        exact hrev
      · rw [State.rfld, hsame.reg _ (by decide)]
        exact hmode
    have hspec := State.refTick_pulls (s := s.advance t) hosc hcomm hother hchoice
    refine answers_of_wrapped hpow (exec_refTick t s) fun _ => ?_
    generalize (s.advance t).refTick.wakeAll = y at hspec ⊢
    exact hspec
  · have hsame := (s.advance t).ticking_sameClk
    have hloop : (s.advance t).ticking.loop = s.loop := hsame.loop
    have hchoice : (s.advance t).ticking.choice = (s.advance t).ticking.enterWinter :=
      State.choice_winter (by rw [hloop, hpend]) (hsame.candidates.trans hc)
    obtain ⟨hw, hbit⟩ := State.refTick_winter (s := s.advance t) hosc hcomm hmode hpair hchoice
    refine answers_of_wrapped hpow (exec_refTick t s) fun _ => ?_
    generalize (s.advance t).refTick.wakeAll = y at hw hbit ⊢
    exact ⟨(congrArg Loop.mode hw :), (congrArg Loop.active hw :), (congrArg Loop.pull hw :), (congrArg Loop.steer hw :),
      (congrArg Loop.held hw :), (congrArg Loop.winterFrom hw :), hbit⟩
  · have hspec := State.refTick_commit (s := s.advance t) hosc hcomm hlo hhi hwait
    refine answers_of_wrapped hpow (exec_refTick t s) fun _ => ?_
    generalize (s.advance t).refTick.wakeAll = y at hspec ⊢
    exact hspec
  · refine next_of hpow (exec_pullDone t s) ?_ (Quiet.refl _)
    rw [State.pullDone_none (s := s.advance t) hpull, State.wakeAll_none (s := s.advance t) hctx]
  · refine next_of hpow (exec_pullDone t s) ?_ (Quiet.refl _)
    rw [State.pullDone_early (s := s.advance t) hpull hearly, State.wakeAll_none (s := s.advance t) hctx]
  · have hspec := State.pullDone_tracks_spec (s := s.advance t) hpull hover hpair
    refine answers_of_wrapped hpow (exec_pullDone t s) fun _ => ?_
    obtain ⟨_, hwake⟩ := (s.advance t).pullDone.wakeAll_ctxSide
    rw [hwake]
    generalize (s.advance t).pullDone = y at hspec ⊢
    exact hspec
  · obtain ⟨r, hx⟩ := State.pullDone_pair (s := s.advance t) hpull hover hpair
    refine answers_of_wrapped hpow (exec_pullDone t s) fun _ => ?_
    rw [hx]
    obtain ⟨_, hwake⟩ := State.wakeAll_ctxSide { s.advance t with
        regs := r, loop := { s.loop with mode := m, pull := none, spanFrom := max s.now t }
        par := { s.par with pthaw := false } }
    exact hwake ▸ ⟨rfl, rfl, rfl, rfl⟩

end Sys2Proof.Machine
end

section
/-! Proofs about lock, its loss and the oscillator (02_time_base.md, R46 to R50, R412). -/

namespace Sys2Proof.Machine

variable {s x y : State} {t a off slot ch n k err : Nat} {p : Path} {v : Word} {r : RegInfo} {q : PageInfo}

/-! ### Outputs one after another -/

/-- An operation that brings about a property of each output, and keeps it of the others, brings it about of every output listed. -/
theorem State.each_all {P : State → Nat → Prop} {f : State → Nat → State} {l : List Nat} (hdo : ∀ u n, P (f u n) n)
    (hkeep : ∀ u m n, m ≠ n → P u n → P (f u m) n) (h : n ∈ l ∨ P s n) : P (s.each l f) n := by
  induction l generalizing s with
  | nil => exact h.resolve_left List.not_mem_nil
  | cons m l ih =>
    rw [State.each_cons]
    refine ih ?_
    by_cases hm : m = n
    · exact .inr (hm ▸ hdo s m)
    · exact h.imp (fun hn => (List.mem_cons.mp hn).resolve_left (Ne.symm hm)) (hkeep s m n hm)

/-- The registers of CLK stand. -/
def State.ClkKept (s x : State) : Prop := ∀ i, i < 0x400 → x.reg (ra sClk i) = s.reg (ra sClk i)

theorem State.evt_clkKept (s : State) {sl : Nat} (b : Nat) (h : sl ≠ sClk) : s.ClkKept (s.evt sl b) :=
  fun i hi => State.evt_reg_page b (by rw [ra_div sClk i hi]; exact h.symm)

theorem GateSide.ite {c : Prop} [Decidable c] (hx : GateSide s x) (hy : GateSide s y) : GateSide s (if c then x else y) := by
  split
  · exact hx
  · exact hy

theorem Side.cko (h : Side s x) (n : Nat) : x.cko n = s.cko n := by
  obtain ⟨_, _, _, _, _, rfl⟩ := h
  rfl

theorem Side.touts (h : Side s x) : x.touts = s.touts := by
  obtain ⟨_, _, _, _, _, rfl⟩ := h
  rfl

/-! ### One clock output gated or resumed -/

theorem State.ckoGate_eq (s : State) (n : Nat) (lock stop : Bool) : ∃ c, c.gatedLock = ((s.cko n).gatedLock || lock) ∧
    s.ckoGate n lock stop = if (s.cko n).gatedLock || (s.cko n).gatedStop then s.setCko n c else (s.setCko n c).evt (sCko n) 0 :=
  ⟨_, rfl, rfl⟩

theorem State.ckoGate_spec (s : State) (n : Nat) (lock stop : Bool) : GateSide s (s.ckoGate n lock stop) ∧
    (s.ckoGate n lock stop).touts = s.touts ∧ ((s.ckoGate n lock stop).cko n).gatedLock = ((s.cko n).gatedLock || lock) ∧
    (∀ m, m ≠ n → (s.ckoGate n lock stop).cko m = s.cko m) ∧ s.ClkKept (s.ckoGate n lock stop) := by
  obtain ⟨c, hc, hgate⟩ := s.ckoGate_eq n lock stop
  have hne : sCko n ≠ sClk := by unfold sCko sClk; omega
  have hside : Side (s.setCko n c) (s.ckoGate n lock stop) := by
    rw [hgate]
    exact Side.ite (Side.refl _) (State.evt_side _ _ _)
  refine ⟨(s.setCko_gateSide n c).trans hside.gateSide, hside.touts, ?_, fun m hm => ?_, ?_⟩
  · rw [hside.cko, State.setCko_same, hc]
  · rw [hside.cko, State.setCko_ne _ _ (Ne.symm hm)]
  · rw [hgate]
    split
    · exact fun _ _ => rfl
    · exact fun i hi => State.evt_clkKept (s.setCko n c) 0 hne i hi

theorem State.ckoUngate_spec (s : State) (n : Nat) (lock stop : Bool) : ∃ c, s.ckoUngate n lock stop = s.setCko n c ∧
    c.gatedLock = ((s.cko n).gatedLock && !lock) := ⟨_, rfl, rfl⟩

/-! ### One timing output gated or resumed -/

theorem State.toutGate_clkKept (s : State) (n : Nat) (lock stop dorm : Bool) : s.ClkKept (s.toutGate n lock stop dorm) := by
  have hne : sTout n ≠ sClk := by unfold sTout sClk; omega
  cases hg : (s.tout n).gated with
  | true =>
    rw [State.toutGate_gated hg]
    exact fun _ _ => rfl
  | false =>
    obtain ⟨l, hl⟩ := (s.setTout n ((s.tout n).addGate lock stop dorm)).toutMove_eq n false true true
    rw [State.toutGate_free hg, hl]
    exact fun i hi => State.evt_clkKept _ 3 hne i hi

theorem State.toutGate_ckos (s : State) (n : Nat) (lock stop dorm : Bool) : (s.toutGate n lock stop dorm).ckos = s.ckos := by
  cases hg : (s.tout n).gated with
  | true =>
    rw [State.toutGate_gated hg]
    rfl
  | false =>
    obtain ⟨l, hl⟩ := (s.setTout n ((s.tout n).addGate lock stop dorm)).toutMove_eq n false true true
    rw [State.toutGate_free hg, hl]
    have hside := ((s.setTout n ((s.tout n).addGate lock stop dorm)).setTout n
      { (s.setTout n ((s.tout n).addGate lock stop dorm)).tout n with flight := l }).evt_side (sTout n) 3
    generalize State.evt _ _ _ = y at hside ⊢
    obtain ⟨_, _, _, _, _, rfl⟩ := hside
    rfl

theorem State.toutUngate_spec (s : State) (n : Nat) (lock stop dorm : Bool) : ∃ c, s.toutUngate n lock stop dorm = s.setTout n c ∧
    c.gatedLock = ((s.tout n).gatedLock && !lock) := by
  unfold State.toutUngate
  dsimp only
  split
  · exact ⟨_, rfl, rfl⟩
  · exact ⟨_, rfl, rfl⟩

/-! ### The outputs of a synthesis loop -/

/-- A synthesis loop's outputs, and for PLL_T the timing outputs, stand in a lock gate or out of it. -/
def State.LockGates (s x : State) (k : Nat) (b : Bool) : Prop :=
  (k = 0 → ∀ n, n < 32 → (x.tout n).gatedLock = b) ∧ (k ≠ 0 → x.touts = s.touts) ∧
  (∀ n, n < 16 → s.rfld (sCko n) 0x014 2 1 = k → (x.cko n).gatedLock = b) ∧
  (∀ n, n < 16 → s.rfld (sCko n) 0x014 2 1 ≠ k → x.cko n = s.cko n)

/-- The clock outputs of a loop gated for lack of lock. -/
def State.ckosGated (s : State) (k : Nat) : State := s.each (s.ckosOf k) fun s n => s.ckoGate n true false

/-- The timing outputs gated for lack of lock. -/
def State.toutsGated (s : State) : State := s.each (List.range 32) fun s n => s.toutGate n true false false

theorem State.mem_ckosOf : n ∈ s.ckosOf k ↔ n < 16 ∧ s.rfld (sCko n) 0x014 2 1 = k := by
  rw [State.ckosOf, List.mem_filter, List.mem_range, decide_eq_true_eq]

theorem State.ckosGated_spec (s : State) (k : Nat) : GateSide s (s.ckosGated k) ∧ (s.ckosGated k).touts = s.touts ∧
    (∀ n, n < 16 → s.rfld (sCko n) 0x014 2 1 = k → ((s.ckosGated k).cko n).gatedLock = true) ∧
    (∀ n, s.rfld (sCko n) 0x014 2 1 ≠ k → (s.ckosGated k).cko n = s.cko n) ∧ s.ClkKept (s.ckosGated k) := by
  refine ⟨?_, ?_, fun n hn hsrc => ?_, fun n hsrc => ?_, ?_⟩
  · exact State.each_induct (P := GateSide s) (fun u n _ h => h.trans (u.ckoGate_spec n true false).1) (GateSide.refl s)
  · exact State.each_induct (P := fun u => u.touts = s.touts) (fun u n _ h => (u.ckoGate_spec n true false).2.1.trans h) rfl
  · refine State.each_all (P := fun u n => (u.cko n).gatedLock = true) (fun u n => ?_) (fun u m n hm h => ?_)
      (.inl (State.mem_ckosOf.mpr ⟨hn, hsrc⟩))
    · obtain ⟨-, -, hlock, -, -⟩ := u.ckoGate_spec n true false
      rw [hlock, Bool.or_true]
    · obtain ⟨-, -, -, hother, -⟩ := u.ckoGate_spec m true false
      rw [hother n (Ne.symm hm)]
      exact h
  · refine State.each_induct (P := fun u => u.cko n = s.cko n) (fun u m hm h => ?_) rfl
    obtain ⟨-, -, -, hother, -⟩ := u.ckoGate_spec m true false
    exact (hother n fun e => hsrc (e ▸ (State.mem_ckosOf.mp hm).2)).trans h
  · exact State.each_induct (P := s.ClkKept) (fun u n _ h i hi => ((u.ckoGate_spec n true false).2.2.2.2 i hi).trans (h i hi)) fun _ _ => rfl

theorem State.toutsGated_spec (s : State) : GateSide s s.toutsGated ∧ s.toutsGated.ckos = s.ckos ∧
    (∀ n, n < 32 → (s.toutsGated.tout n).gatedLock = true) ∧ s.ClkKept s.toutsGated := by
  refine ⟨?_, ?_, fun n hn => ?_, ?_⟩
  · exact State.each_induct (P := GateSide s) (fun u n _ h => h.trans (u.toutGate_gateSide n true false false)) (GateSide.refl s)
  · exact State.each_induct (P := fun u => u.ckos = s.ckos) (fun u n _ h => (u.toutGate_ckos n true false false).trans h) rfl
  · refine State.each_all (P := fun u n => (u.tout n).gatedLock = true) (fun u n => ?_) (fun u m n hm h => ?_)
      (.inl (List.mem_range.mpr hn))
    · obtain ⟨l, hl⟩ := u.toutGate_tout n true false false
      rw [hl]
      exact Bool.or_true _
    · rw [State.toutGate_tout_ne hm]
      exact h
  · exact State.each_induct (P := s.ClkKept) (fun u n _ h i hi => (u.toutGate_clkKept n true false false i hi).trans (h i hi)) fun _ _ => rfl

/-- The clock outputs of a loop resumed at its lock. -/
def State.ckosResumed (s : State) (k : Nat) : State := s.each (s.ckosOf k) fun s n => s.ckoUngate n true false

/-- The timing outputs resumed at PLL_T's lock. -/
def State.toutsResumed (s : State) : State := s.each (List.range 32) fun s n => s.toutUngate n true false false

theorem State.ckosResumed_spec (s : State) (k : Nat) : (∃ c, s.ckosResumed k = { s with ckos := c }) ∧
    (∀ n, n < 16 → s.rfld (sCko n) 0x014 2 1 = k → ((s.ckosResumed k).cko n).gatedLock = false) ∧
    (∀ n, s.rfld (sCko n) 0x014 2 1 ≠ k → (s.ckosResumed k).cko n = s.cko n) := by
  refine ⟨?_, fun n hn hsrc => ?_, fun n hsrc => ?_⟩
  · refine State.each_induct (P := fun u => ∃ c, u = { s with ckos := c }) (fun u n _ ⟨c, h⟩ => ?_) ⟨s.ckos, rfl⟩
    subst h
    exact ⟨_, rfl⟩
  · refine State.each_all (P := fun u n => (u.cko n).gatedLock = false) (fun u n => ?_) (fun u m n hm h => ?_)
      (.inl (State.mem_ckosOf.mpr ⟨hn, hsrc⟩))
    · obtain ⟨c, hc, hlock⟩ := u.ckoUngate_spec n true false
      rw [hc, State.setCko_same, hlock, Bool.not_true, Bool.and_false]
    · obtain ⟨c, hc, -⟩ := u.ckoUngate_spec m true false
      rw [hc, State.setCko_ne _ _ hm]
      exact h
  · refine State.each_induct (P := fun u => u.cko n = s.cko n) (fun u m hm h => ?_) rfl
    obtain ⟨c, hc, -⟩ := u.ckoUngate_spec m true false
    rw [hc, State.setCko_ne u c fun e : m = n => hsrc (e ▸ (State.mem_ckosOf.mp hm).2)]
    exact h

theorem State.toutsResumed_spec (s : State) : (∃ c, s.toutsResumed = { s with touts := c }) ∧
    ∀ n, n < 32 → (s.toutsResumed.tout n).gatedLock = false := by
  refine ⟨?_, fun n hn => ?_⟩
  · refine State.each_induct (P := fun u => ∃ c, u = { s with touts := c }) (fun u n _ ⟨c, h⟩ => ?_) ⟨s.touts, rfl⟩
    subst h
    obtain ⟨d, hd, -⟩ := State.toutUngate_spec { s with touts := c } n true false false
    rw [hd]
    exact ⟨_, rfl⟩
  · refine State.each_all (P := fun u n => (u.tout n).gatedLock = false) (fun u n => ?_) (fun u m n hm h => ?_)
      (.inl (List.mem_range.mpr hn))
    · obtain ⟨c, hc, hlock⟩ := u.toutUngate_spec n true false false
      rw [hc, State.setTout_same, hlock, Bool.not_true, Bool.and_false]
    · obtain ⟨c, hc, -⟩ := u.toutUngate_spec m true false false
      rw [hc, State.setTout_ne _ _ hm]
      exact h

/-! ### Loss of lock -/

/-- The loop that has lost its lock. -/
def Loop.unlocked (l : Loop) (k now : Nat) : Loop :=
  if k = 0 then { l with lockT := false, outT := now } else { l with lockC := false, outC := now }

/-- Whether a synthesis loop is locked. -/
def Loop.locked (l : Loop) (k : Nat) : Bool := if k = 0 then l.lockT else l.lockC

/-- The state in which a loss of lock is noted. -/
def State.lossNoted (s : State) (k : Nat) : State :=
  (({ s with loop := s.loop.unlocked k s.now } : State).evt sClk (5 + k)).bbrPush 7 sClk [k, 0]

theorem State.lossNoted_side (s : State) (k : Nat) : Side { s with loop := s.loop.unlocked k s.now } (s.lossNoted k) :=
  (State.evt_side _ _ _).trans (State.bbrPush_side _ _ _ _)

theorem GateSide.cal (h : GateSide s x) : x.cal = s.cal := by
  obtain ⟨_, _, _, _, _, _, _, rfl⟩ := h
  rfl

theorem GateSide.loop (h : GateSide s x) : x.loop = s.loop := by
  obtain ⟨_, _, _, _, _, _, _, rfl⟩ := h
  rfl

theorem GateSide.dev (h : GateSide s x) : x.dev = s.dev := by
  obtain ⟨_, _, _, _, _, _, _, rfl⟩ := h
  rfl

theorem Side.boot (h : Side s x) : x.boot = s.boot := by
  obtain ⟨_, _, _, _, _, rfl⟩ := h
  rfl

theorem Side.cal (h : Side s x) : x.cal = s.cal := by
  obtain ⟨_, _, _, _, _, rfl⟩ := h
  rfl

/-- The outputs that a loss of lock gates. -/
def State.lossGated (s : State) (k : Nat) : State := if k = 0 then (s.ckosGated k).toutsGated else s.ckosGated k

theorem State.lossGated_gateSide (s : State) (k : Nat) : GateSide s (s.lossGated k) :=
  GateSide.ite ((s.ckosGated_spec k).1.trans (s.ckosGated k).toutsGated_spec.1) (s.ckosGated_spec k).1

theorem State.lossGated_clkKept (s : State) (k : Nat) : s.ClkKept (s.lossGated k) := by
  obtain ⟨-, -, -, -, hcko⟩ := s.ckosGated_spec k
  unfold State.lossGated
  split
  · exact fun i hi => ((s.ckosGated k).toutsGated_spec.2.2.2 i hi).trans (hcko i hi)
  · exact hcko

theorem State.lossGated_lockGates (s : State) (k : Nat) : s.LockGates (s.lossGated k) k true := by
  obtain ⟨-, htouts, hmine, hother, -⟩ := s.ckosGated_spec k
  obtain ⟨-, hckos, hall, -⟩ := (s.ckosGated k).toutsGated_spec
  unfold State.lossGated
  by_cases hk : k = 0
  · have hcko (n : Nat) : (s.ckosGated k).toutsGated.cko n = (s.ckosGated k).cko n := by
      rw [State.cko, State.cko, hckos]
    rw [if_pos hk]
    exact ⟨fun _ => hall, fun h => absurd hk h, fun n hn h => by rw [hcko]; exact hmine n hn h,
      fun n _ h => (hcko n).trans (hother n h)⟩
  · rw [if_neg hk]
    exact ⟨fun h => absurd h hk, fun _ => htouts, hmine, fun n _ => hother n⟩

theorem State.pllLoss_eq (h : s.loop.locked k = true) (hchans : s.cal.chans = []) : s.pllLoss k = (s.lossNoted k).lossGated k := by
  have hc : ((s.lossNoted k).ckosGated k).cal.chans = [] := by
    rw [((s.lossNoted k).ckosGated_spec k).1.cal, (s.lossNoted_side k).cal]
    exact hchans
  have hloss : s.pllLoss k =
      if k = 0 then (((s.lossNoted k).ckosGated k).toutsGated).each (((s.lossNoted k).ckosGated k).cal.chans.map (·.1)) State.calAbandon
      else (s.lossNoted k).ckosGated k := if_pos h
  rw [hloss, hc, List.map_nil, State.each_nil, State.lossGated]

theorem State.pllLoss_unlocked (h : s.loop.locked k = false) : s.pllLoss k = s := if_neg (Bool.eq_false_iff.mp h)

theorem State.lossNoted_bit (s : State) (hk : k < 2) : bit ((s.lossNoted k).reg (ra sClk 0x008)) (5 + k) = true := by
  rw [State.lossNoted, State.bbrPush_reg_page _ _ _ (by decide)]
  exact State.evt_bit sClk (by omega)

theorem State.lossNoted_bit_keep (s : State) (k : Nat) {i : Nat} (h : bit (s.reg (ra sClk 0x008)) i = true) :
    bit ((s.lossNoted k).reg (ra sClk 0x008)) i = true := by
  rw [State.lossNoted, State.bbrPush_reg_page _ _ _ (by decide)]
  exact State.evt_bit_keep _ _ _ h

/-- A loss of lock, as it shows in the loop and in the page's events. -/
theorem State.pllLoss_spec (hchans : s.cal.chans = []) (k : Nat) : (∃ o, (s.pllLoss k).loop =
      if k = 0 then { s.loop with lockT := false, outT := o } else { s.loop with lockC := false, outC := o }) ∧
    (s.pllLoss k).cal = s.cal ∧
    ∀ i, bit (s.reg (ra sClk 0x008)) i = true → bit ((s.pllLoss k).reg (ra sClk 0x008)) i = true := by
  cases h : s.loop.locked k with
  | true =>
    have hside := s.lossNoted_side k
    have hgate := (s.lossNoted k).lossGated_gateSide k
    rw [State.pllLoss_eq h hchans]
    refine ⟨⟨s.now, by rw [hgate.loop, hside.loop]; rfl⟩, by rw [hgate.cal, hside.cal], fun i hi => ?_⟩
    rw [(s.lossNoted k).lossGated_clkKept k 0x008 (by decide)]
    exact s.lossNoted_bit_keep k hi
  | false =>
    rw [State.pllLoss_unlocked h]
    refine ⟨?_, rfl, fun _ => id⟩
    by_cases hk : k = 0
    · rw [Loop.locked, if_pos hk] at h
      exact ⟨s.loop.outT, by rw [if_pos hk, ← h]⟩
    · rw [Loop.locked, if_neg hk] at h
      exact ⟨s.loop.outC, by rw [if_neg hk, ← h]⟩

/-! ### Lock -/

/-- The loop that has declared lock. -/
def Loop.relocked (l : Loop) (k : Nat) : Loop :=
  if k = 0 then { l with lockT := true, oscOk := true, oscHold := false } else { l with lockC := true, oscOk := true }

/-- The state in which a lock is noted. -/
def State.lockNoted (s : State) (k : Nat) : State :=
  let s2 := ({ s with loop := s.loop.relocked k } : State).bbrPush 7 sClk [k, 1]
  if s2.loop.lockT && s2.loop.lockC then s2.evt sClk 7 else s2

theorem State.lockNoted_side (s : State) (k : Nat) : Side { s with loop := s.loop.relocked k } (s.lockNoted k) :=
  Side.ite ((State.bbrPush_side _ _ _ _).trans (State.evt_side _ _ _)) (State.bbrPush_side _ _ _ _)

/-- The outputs that a lock resumes. -/
def State.lockResumed (s : State) (k : Nat) : State := if k = 0 then (s.ckosResumed k).toutsResumed else s.ckosResumed k

theorem State.lockResumed_eq (s : State) (k : Nat) : ∃ o c, s.lockResumed k = { s with touts := o, ckos := c } := by
  obtain ⟨⟨c, hc⟩, -⟩ := s.ckosResumed_spec k
  unfold State.lockResumed
  rw [hc]
  split
  · obtain ⟨⟨o, ho⟩, -⟩ := State.toutsResumed_spec { s with ckos := c }
    rw [ho]
    exact ⟨o, c, rfl⟩
  · exact ⟨s.touts, c, rfl⟩

theorem State.lockResumed_lockGates (s : State) (k : Nat) : s.LockGates (s.lockResumed k) k false := by
  obtain ⟨⟨c, hc⟩, hmine, hother⟩ := s.ckosResumed_spec k
  obtain ⟨⟨o, ho⟩, hall⟩ := (s.ckosResumed k).toutsResumed_spec
  unfold State.lockResumed
  by_cases hk : k = 0
  · have hcko (n : Nat) : (s.ckosResumed k).toutsResumed.cko n = (s.ckosResumed k).cko n := by rw [ho]; rfl
    rw [if_pos hk]
    exact ⟨fun _ => hall, fun h => absurd hk h, fun n hn h => by rw [hcko]; exact hmine n hn h,
      fun n _ h => (hcko n).trans (hother n h)⟩
  · rw [if_neg hk]
    exact ⟨fun h => absurd h hk, fun _ => by rw [hc], hmine, fun n _ => hother n⟩

/-- Whether a loop's input lets it declare lock. -/
def State.canLock (s : State) (k err : Nat) : Prop :=
  s.loop.locked k = false ∧ (s.loop.oscHold = false ∨ s.loop.oscOk = true) ∧ s.errInWindow err = true ∧
    (if k = 0 then s.loop.outT else s.loop.outC) + s.lockEdges ≤ s.now

theorem State.pllLock_eq (h : s.canLock k err) (hchans : s.cal.chans = []) :
    s.pllLock k err = ((s.lockNoted k).lockResumed k).lockEnter := by
  obtain ⟨hlock, hosc, hgood, hcount⟩ := h
  have hgo : ((if k = 0 then s.loop.lockT else s.loop.lockC) || (s.loop.oscHold && !s.loop.oscOk) || !s.errInWindow err ||
      decide (s.now < (if k = 0 then s.loop.outT else s.loop.outC) + s.lockEdges)) = false := by
    rw [show (if k = 0 then s.loop.lockT else s.loop.lockC) = false from hlock, hgood, decide_eq_false (Nat.not_lt.mpr hcount)]
    rcases hosc with h | h <;> rw [h]
    · rfl
    · rw [Bool.not_true, Bool.and_false]
      rfl
  have hc : ((s.lockNoted k).ckosResumed k).cal.chans = [] := by
    obtain ⟨⟨c, hc⟩, -⟩ := (s.lockNoted k).ckosResumed_spec k
    rw [hc]
    exact (congrArg Cal.chans (s.lockNoted_side k).cal).trans hchans
  have hstep : s.pllLock k err = (if k = 0 then
      (((s.lockNoted k).ckosResumed k).toutsResumed).each (((s.lockNoted k).ckosResumed k).cal.chans.map (·.1)) State.calTryStep
      else (s.lockNoted k).ckosResumed k).lockEnter := if_neg (Bool.eq_false_iff.mp hgo)
  rw [hstep, hc, List.map_nil, State.each_nil, State.lockResumed]

theorem State.pllLock_none (h : s.loop.locked k = true ∨ (s.loop.oscHold = true ∧ s.loop.oscOk = false) ∨ s.errInWindow err = false ∨
    s.now < (if k = 0 then s.loop.outT else s.loop.outC) + s.lockEdges) : s.pllLock k err = s := by
  refine if_pos ?_
  rw [Bool.or_eq_true, Bool.or_eq_true, Bool.or_eq_true, decide_eq_true_eq]
  rcases h with h | ⟨h, h'⟩ | h | h
  · exact .inl (.inl (.inl h))
  · exact .inl (.inl (.inr (by rw [h, h']; rfl)))
  · exact .inl (.inr (by rw [h]; rfl))
  · exact .inr h

theorem State.lockEnter_none (h : s.dev ≠ .locking) : s.lockEnter = s := if_neg fun hc => h hc.1

theorem State.lockEnter_dev (hdev : s.dev = .locking) (ht : s.loop.lockT = true) (hc : s.loop.lockC = true) (hstarts : s.boot.starts = []) :
    s.lockEnter.dev = if s.stopOn then .stopped else .running := by
  unfold State.lockEnter
  rw [if_pos ⟨hdev, ht, hc⟩]
  split
  · exact s.enter_dev _
  · have hnone : (s.enter .running).boot.starts = [] := (congrArg Boot.starts (s.enter_side .running).boot).trans hstarts
    rw [State.bootStart_none hnone]
    exact s.enter_dev .running

theorem Loop.relocked_locked (l : Loop) (k : Nat) : (l.relocked k).locked k = true := by
  unfold Loop.relocked Loop.locked
  split <;> rfl

theorem Loop.relocked_oscOk (l : Loop) (k : Nat) : (l.relocked k).oscOk = true := by
  unfold Loop.relocked
  split <;> rfl

/-- The other loop stands as a loop's lock comes or goes. -/
theorem Loop.relocked_other (l : Loop) (k : Nat) :
    if k = 0 then (l.relocked k).lockC = l.lockC else (l.relocked k).lockT = l.lockT := by
  unfold Loop.relocked
  split <;> rfl

theorem Loop.unlocked_other (l : Loop) (k now : Nat) :
    if k = 0 then (l.unlocked k now).lockC = l.lockC else (l.unlocked k now).lockT = l.lockT := by
  unfold Loop.unlocked
  split <;> rfl

theorem Loop.unlocked_locked (l : Loop) (k now : Nat) : (l.unlocked k now).locked k = false := by
  unfold Loop.unlocked Loop.locked
  split <;> rfl

theorem State.lockNoted_bit (k : Nat) (ht : (s.loop.relocked k).lockT = true) (hc : (s.loop.relocked k).lockC = true) :
    bit ((s.lockNoted k).reg (ra sClk 0x008)) 7 = true := by
  have hloop := (State.bbrPush_side { s with loop := s.loop.relocked k } 7 sClk [k, 1]).loop
  unfold State.lockNoted
  dsimp only at hloop ⊢
  rw [hloop, if_pos (by rw [ht, hc]; rfl)]
  exact State.evt_bit sClk (by decide)

/-- The gates of the outputs after a lock or a loss, seen from before it. -/
theorem State.LockGates.of_side {b : Bool} (hside : Side { s with loop := y.loop } y) (h : y.LockGates x k b)
    (hreg : ∀ n, n < 16 → y.rfld (sCko n) 0x014 2 1 = s.rfld (sCko n) 0x014 2 1) : s.LockGates x k b := by
  obtain ⟨htout, htouts, hmine, hother⟩ := h
  refine ⟨htout, fun hk => (htouts hk).trans hside.touts, fun n hn hsrc => hmine n hn ((hreg n hn).trans hsrc), fun n hn hsrc => ?_⟩
  exact (hother n hn fun h => hsrc ((hreg n hn).symm.trans h)).trans (hside.cko n)

theorem State.evt_sClk_rfld (s : State) (b : Nat) (hn : n < 16) : (s.evt sClk b).rfld (sCko n) 0x014 2 1 = s.rfld (sCko n) 0x014 2 1 := by
  rw [State.rfld, State.evt_reg_page b (by rw [ra_div (sCko n) 0x014 (by decide)]; unfold sCko sClk; omega), State.rfld]

theorem State.bbrPush_rfld (s : State) (code : Nat) (data : List Nat) (hn : n < 16) :
    (s.bbrPush code sClk data).rfld (sCko n) 0x014 2 1 = s.rfld (sCko n) 0x014 2 1 := by
  rw [State.rfld, State.bbrPush_reg_page code sClk data (by rw [ra_div (sCko n) 0x014 (by decide)]; unfold sCko sBbr; omega), State.rfld]

theorem State.lockNoted_rfld (s : State) (k : Nat) (hn : n < 16) :
    (s.lockNoted k).rfld (sCko n) 0x014 2 1 = s.rfld (sCko n) 0x014 2 1 := by
  have hpush := ({ s with loop := s.loop.relocked k } : State).bbrPush_rfld 7 [k, 1] hn
  unfold State.lockNoted
  dsimp only
  split
  · exact (State.evt_sClk_rfld _ 7 hn).trans hpush
  · exact hpush

theorem State.lossNoted_rfld (s : State) (k : Nat) (hn : n < 16) :
    (s.lossNoted k).rfld (sCko n) 0x014 2 1 = s.rfld (sCko n) 0x014 2 1 :=
  (State.bbrPush_rfld _ 7 [k, 0] hn).trans (State.evt_sClk_rfld _ (5 + k) hn)

/-- What a declared lock leaves of a device that does not wait for it. -/
theorem State.pllLock_spec (h : s.canLock k err) (hchans : s.cal.chans = []) (hdev : s.dev ≠ .locking) :
    (s.pllLock k err).loop = s.loop.relocked k ∧ s.LockGates (s.pllLock k err) k false ∧ (s.pllLock k err).dev = s.dev ∧
    ((s.pllLock k err).loop.lockT = true → (s.pllLock k err).loop.lockC = true → bit ((s.pllLock k err).reg (ra sClk 0x008)) 7 = true) := by
  have hside := s.lockNoted_side k
  have hgates := (s.lockNoted k).lockResumed_lockGates k
  have hreg (n : Nat) (hn : n < 16) := s.lockNoted_rfld k hn
  have hbit := State.lockNoted_bit (s := s) k
  obtain ⟨o, c, hres⟩ := (s.lockNoted k).lockResumed_eq k
  have hdev' : ((s.lockNoted k).lockResumed k).dev = s.dev := by
    rw [hres]
    exact hside.dev
  have hloop : ((s.lockNoted k).lockResumed k).loop = s.loop.relocked k := by
    rw [hres]
    exact hside.loop
  have hr : ((s.lockNoted k).lockResumed k).reg (ra sClk 0x008) = (s.lockNoted k).reg (ra sClk 0x008) := by
    rw [hres]
    rfl
  rw [State.pllLock_eq h hchans, State.lockEnter_none (by rw [hdev']; exact hdev), hloop, hr]
  refine ⟨rfl, State.LockGates.of_side ?_ hgates hreg, hdev', hbit⟩
  rw [hside.loop]
  exact hside

theorem State.pllLock_enters (h : s.canLock k err) (hchans : s.cal.chans = []) (hdev : s.dev = .locking)
    (hother : (if k = 0 then s.loop.lockC else s.loop.lockT) = true) (hstarts : s.boot.starts = []) :
    (s.pllLock k err).dev = if s.stopOn then .stopped else .running := by
  have hside := s.lockNoted_side k
  obtain ⟨o, c, hres⟩ := (s.lockNoted k).lockResumed_eq k
  have hboth : (s.loop.relocked k).lockT = true ∧ (s.loop.relocked k).lockC = true := by
    have hmine := s.loop.relocked_locked k
    have hthat := s.loop.relocked_other k
    unfold Loop.locked at hmine
    split at hmine
    case isTrue hk =>
      rw [if_pos hk] at hother hthat
      exact ⟨hmine, hthat.trans hother⟩
    case isFalse hk =>
      rw [if_neg hk] at hother hthat
      exact ⟨hthat.trans hother, hmine⟩
  rw [State.pllLock_eq h hchans, hres]
  generalize s.lockNoted k = y at hside ⊢
  obtain ⟨_, _, _, _, _, rfl⟩ := hside
  exact State.lockEnter_dev hdev hboth.1 hboth.2 hstarts

/-- What a loss of lock leaves. -/
theorem State.pllLoss_locked (h : s.loop.locked k = true) (hchans : s.cal.chans = []) (hk : k < 2) :
    (s.pllLoss k).loop = s.loop.unlocked k s.now ∧ s.LockGates (s.pllLoss k) k true ∧ (s.pllLoss k).dev = s.dev ∧
    bit ((s.pllLoss k).reg (ra sClk 0x008)) (5 + k) = true := by
  have hside := s.lossNoted_side k
  have hgate := (s.lossNoted k).lossGated_gateSide k
  have hreg (n : Nat) (hn : n < 16) := s.lossNoted_rfld k hn
  rw [State.pllLoss_eq h hchans, hgate.loop, hgate.dev, (s.lossNoted k).lossGated_clkKept k 0x008 (by decide)]
  refine ⟨hside.loop, State.LockGates.of_side ?_ ((s.lossNoted k).lossGated_lockGates k) hreg, hside.dev, s.lossNoted_bit hk⟩
  rw [hside.loop]
  exact hside

/-! ### The oscillator -/

theorem Loop.endSpan_eq (l : Loop) (now : Nat) : ∃ m h, l.endSpan now = { l with spans := m, hist := h } := by
  unfold Loop.endSpan
  split
  · exact ⟨_, _, rfl⟩
  · exact ⟨l.spans, l.hist, rfl⟩

/-- A pair Thaw that came from Winter is in progress (R331). -/
def Loop.pairWinter (l : Loop) : Bool :=
  match l.pull with
  | some k => decide (k.pair = some .winter)
  | none => false

theorem Loop.pairWinter_none {l : Loop} (h : ∀ p, l.pull = some p → p.pair = none) : l.pairWinter = false := by
  unfold Loop.pairWinter
  split
  case h_1 k hk => rw [h k hk]; rfl
  case h_2 => rfl

/-- Winter entered: what it keeps of the loop. -/
theorem State.enterWinter_entered (hmode : s.loop.mode ≠ .winter) (hpair : s.loop.pairWinter = false) :
    ∃ l y d, s.enterWinter = (({ s with loop := l, par := y } : State).evt sClk 1).bbrPush 9 sClk [0, d] ∧ l.lockT = s.loop.lockT ∧
      l.lockC = s.loop.lockC ∧ l.oscOk = s.loop.oscOk ∧ l.oscHold = s.loop.oscHold ∧ l.mode = .winter ∧ l.active = none := by
  obtain ⟨m, h, hspan⟩ := s.loop.endSpan_eq s.now
  have hnot : ¬(s.loop.mode = .winter ∨ s.loop.pairWinter = true) := fun hc =>
    hc.elim hmode fun hw => Bool.false_ne_true (hpair.symm.trans hw)
  refine ⟨_, _, _, if_neg hnot, ?_⟩
  rw [hspan]
  exact ⟨rfl, rfl, rfl, rfl, rfl, rfl⟩

theorem State.enterWinter_none (h : s.loop.mode = .winter ∨ s.loop.pairWinter = true) : s.enterWinter = s := if_pos h

/-- What Winter leaves of the synthesis loops, of the events, and of the reference loop where no pair Thaw runs. -/
theorem State.enterWinter_spec (s : State) : s.enterWinter.loop.lockT = s.loop.lockT ∧ s.enterWinter.loop.lockC = s.loop.lockC ∧
    s.enterWinter.loop.oscOk = s.loop.oscOk ∧ s.enterWinter.loop.oscHold = s.loop.oscHold ∧
    ((∀ p, s.loop.pull = some p → p.pair = none) → s.enterWinter.loop.mode = .winter ∧
      s.enterWinter.loop.active = if s.loop.mode = .winter then s.loop.active else none) ∧
    ∀ i, bit (s.reg (ra sClk 0x008)) i = true → bit (s.enterWinter.reg (ra sClk 0x008)) i = true := by
  by_cases hmode : s.loop.mode = .winter
  · rw [State.enterWinter_none (.inl hmode), if_pos hmode]
    exact ⟨rfl, rfl, rfl, rfl, fun _ => ⟨hmode, rfl⟩, fun _ => id⟩
  · rw [if_neg hmode]
    cases hpair : s.loop.pairWinter with
    | true =>
      rw [State.enterWinter_none (.inr hpair)]
      refine ⟨rfl, rfl, rfl, rfl, fun h => ?_, fun _ => id⟩
      rw [Loop.pairWinter_none h] at hpair
      exact absurd hpair Bool.false_ne_true
    | false =>
      obtain ⟨l, y, d, henter, hT, hC, hok, hhold, hwinter, hact⟩ := State.enterWinter_entered hmode hpair
      have hside := (State.evt_side { s with loop := l, par := y } sClk 1).trans (State.bbrPush_side _ 9 sClk [0, d])
      rw [henter, hside.loop]
      refine ⟨hT, hC, hok, hhold, fun _ => ⟨hwinter, hact⟩, fun i hi => ?_⟩
      rw [State.bbrPush_reg_page _ _ _ (by decide)]
      exact State.evt_bit_keep _ _ _ hi

/-- The state whose oscillator is lost. -/
def State.oscGone (s : State) : State := ({ s with loop := { s.loop with oscOk := false, oscHold := true } } : State).evt sClk 9

theorem State.oscLoss_eq (s : State) : s.oscLoss = ((s.oscGone.pllLoss 0).pllLoss 1).enterWinter := rfl

theorem State.oscLoss_spec (hchans : s.cal.chans = []) : s.oscLoss.loop.lockT = false ∧ s.oscLoss.loop.lockC = false ∧
    s.oscLoss.loop.oscOk = false ∧ s.oscLoss.loop.oscHold = true ∧
    ((∀ p, s.loop.pull = some p → p.pair = none) → s.oscLoss.loop.mode = .winter ∧
      s.oscLoss.loop.active = if s.loop.mode = .winter then s.loop.active else none) ∧
    bit (s.oscLoss.reg (ra sClk 0x008)) 9 = true := by
  have hside := State.evt_side { s with loop := { s.loop with oscOk := false, oscHold := true } } sClk 9
  have hcal : s.oscGone.cal.chans = [] := (congrArg Cal.chans hside.cal).trans hchans
  have hbit : bit (s.oscGone.reg (ra sClk 0x008)) 9 = true := State.evt_bit sClk (by decide)
  obtain ⟨⟨o, hl0⟩, hc0, hb0⟩ := State.pllLoss_spec hcal 0
  obtain ⟨⟨o', hl1⟩, -, hb1⟩ := State.pllLoss_spec (s := s.oscGone.pllLoss 0) (by rw [hc0]; exact hcal) 1
  have hloop : ((s.oscGone.pllLoss 0).pllLoss 1).loop =
      { s.loop with oscOk := false, oscHold := true, lockT := false, outT := o, lockC := false, outC := o' } := by
    rw [hl1, hl0, show s.oscGone.loop = _ from hside.loop]
    rfl
  obtain ⟨hT, hC, hok, hhold, hmode, hbits⟩ := ((s.oscGone.pllLoss 0).pllLoss 1).enterWinter_spec
  rw [hloop] at hT hC hok hhold hmode
  rw [State.oscLoss_eq]
  exact ⟨hT, hC, hok, hhold, hmode, hbits 9 (hb1 9 (hb0 9 hbit))⟩

theorem flagIf_and (b : Bool) {f g : Nat} (h : f &&& g = 0) : flagIf b f &&& g = 0 := by
  unfold flagIf
  split
  · exact h
  · exact Nat.zero_and g

theorem State.tbFlags_unlocked (h : s.loop.lockT = false) : s.tbFlags &&& fUNLOCKED = fUNLOCKED := by
  unfold State.tbFlags
  rw [h, Nat.and_or_distrib_right, Nat.and_or_distrib_right, flagIf_and _ (show fWINTER &&& fUNLOCKED = 0 from rfl),
    flagIf_and _ (show fUNALIGNED &&& fUNLOCKED = 0 from rfl)]
  rfl

theorem State.setLoop_quiet (s : State) {l : Loop} (hlock : l.lockT = s.loop.lockT) (hmode : l.mode = s.loop.mode) :
    Quiet s { s with loop := l } := ⟨rfl, rfl, rfl, rfl, rfl, hlock, hmode, rfl, rfl, rfl⟩

/-- A cycle outside the window. -/
theorem State.pllCycle_bad (hbad : ¬err ≤ 400 * s.rfld sClk 0x04C 0 10) (k : Nat) : s.pllCycle k err =
    if s.loop.locked k then s.pllLoss k
    else { s with loop := if k = 0 then { s.loop with outT := s.now } else { s.loop with outC := s.now } } :=
  if_neg (by rw [State.errInWindow, decide_eq_false hbad]; exact Bool.false_ne_true)

/-- Settles O32: lock, its loss and the oscillator's, each by the loop and the outputs that it leaves. -/
theorem synthesisLocks : Obligations.SynthesisLocks := by
  intro s t k err hpow hctx hchans
  have hk := k.isLt
  simp only [Fin.ext_iff, Fin.val_zero]
  refine ⟨fun hnone => ?_, fun hlock hosc hgood hcount => ⟨fun hdev => ?_, fun hdev hother hstarts => ?_⟩, fun hgood => ?_,
    fun hbad hlock => ?_, fun hbad hlock => ?_, ?_, ?_⟩
  · refine next_of hpow (exec_pllLock t _ s) (State.pllLock_none (s := s.advance t) ?_) (Quiet.refl _)
    refine hnone.imp id fun h => h.imp id fun h => h.imp (fun h => decide_eq_false h) fun h => Nat.not_le.mp h
  · obtain ⟨hloop, ⟨htout, htouts, hmine, hother⟩, hdev', hbit⟩ := State.pllLock_spec (s := s.advance t) (k := k) (err := err)
      ⟨hlock, hosc, decide_eq_true hgood, hcount⟩ hchans hdev
    have hmode := s.loop.relocked_locked k
    have hthat := s.loop.relocked_other k
    have hok := s.loop.relocked_oscOk k
    refine answers_of_wrapped hpow (exec_pllLock t _ s) fun _ => ?_
    generalize (s.advance t).pllLock k err = y at hloop htout htouts hmine hother hdev' hbit
    rw [show s.loop.relocked k = y.loop from hloop.symm] at hmode hthat hok
    exact ⟨hmode, hthat, hok, ⟨htout, fun h => htouts fun e => h (Fin.ext e), hmine, hother⟩, hdev', rfl, hbit⟩
  · have hspec := State.pllLock_enters (s := s.advance t) (k := k) (err := err)
      ⟨hlock, hosc, decide_eq_true hgood, hcount⟩ hchans hdev hother hstarts
    refine answers_of_wrapped hpow (exec_pllLock t _ s) fun _ => ?_
    generalize (s.advance t).pllLock k err = y at hspec
    exact hspec
  · exact next_of hpow (exec_pllLockLoss t _ s) (if_pos (decide_eq_true hgood)) (Quiet.refl _)
  · refine next_of hpow (exec_pllLockLoss t _ s) ((State.pllCycle_bad (s := s.advance t) hbad k).trans (if_neg ?_)) ?_
    · exact Bool.eq_false_iff.mp hlock
    · refine State.setLoop_quiet _ ?_ ?_ <;> split <;> rfl
  · obtain ⟨hloop, ⟨htout, htouts, hmine, hother⟩, hdev', hbit⟩ := State.pllLoss_locked (s := s.advance t) (k := k) hlock hchans hk
    have hmode := s.loop.unlocked_locked k (max s.now t)
    have hthat := s.loop.unlocked_other k (max s.now t)
    have hcycle : (s.advance t).pllCycle k err = (s.advance t).pllLoss k :=
      (State.pllCycle_bad (s := s.advance t) hbad k).trans (if_pos hlock)
    refine answers_of_wrapped hpow (exec_pllLockLoss t _ s) fun _ => ?_
    rw [hcycle]
    generalize (s.advance t).pllLoss k = y at hloop htout htouts hmine hother hdev' hbit
    rw [show s.loop.unlocked k (max s.now t) = y.loop from hloop.symm] at hmode hthat
    refine ⟨hmode, hthat, ⟨htout, fun h => htouts fun e => h (Fin.ext e), hmine, hother⟩, hbit, hdev', rfl, fun h => ?_⟩
    rw [Loop.locked, if_pos h] at hmode
    exact State.tbFlags_unlocked hmode
  · obtain ⟨hT, hC, hok, hhold, hwinter, hbit⟩ := State.oscLoss_spec (s := s.advance t) hchans
    obtain ⟨_, hwake⟩ := (s.advance t).oscLoss.wakeAll_ctxSide
    refine answers_of_wrapped hpow (exec_oscLoss t s) fun _ => ?_
    rw [hwake]
    generalize (s.advance t).oscLoss = y at hT hC hok hhold hwinter hbit
    exact ⟨hT, hC, hok, hhold, rfl, hwinter, hbit⟩
  · exact next_of hpow (exec_oscReturn t s) rfl (by constructor <;> rfl)

end Sys2Proof.Machine
end

section
/-! Proofs about the clock outputs (02_time_base.md, R49, R51 to R58). -/

namespace Sys2Proof.Machine

variable {s x y : State} {t a off slot ch n k err : Nat} {p : Path} {v : Word} {r : RegInfo} {q : PageInfo}

/-! ### A timing output's operations -/

/-- A state differs from another at most in its timing outputs and in the registers and events of one timing output's page. -/
def ToutSide (n : Nat) (s x : State) : Prop :=
  (∃ m r e p o b, x = { s with touts := m, regs := r, evtAt := e, pba := p, out := o, bbr := b }) ∧
    ∀ a, a / 0x400 ≠ sTout n → x.reg a = s.reg a

theorem ToutSide.refl (n : Nat) (s : State) : ToutSide n s s := ⟨⟨_, _, _, _, _, _, rfl⟩, fun _ _ => rfl⟩

theorem ToutSide.trans (h : ToutSide n s x) (k : ToutSide n x y) : ToutSide n s y := by
  obtain ⟨⟨_, _, _, _, _, _, rfl⟩, hx⟩ := h
  obtain ⟨⟨_, _, _, _, _, _, rfl⟩, hy⟩ := k
  exact ⟨⟨_, _, _, _, _, _, rfl⟩, fun a ha => (hy a ha).trans (hx a ha)⟩

theorem ToutSide.gateSide (h : ToutSide n s x) : GateSide s x := by
  obtain ⟨⟨_, _, _, _, _, _, rfl⟩, -⟩ := h
  exact ⟨_, _, _, _, _, _, _, rfl⟩

theorem ToutSide.ckos (h : ToutSide n s x) : x.ckos = s.ckos := by
  obtain ⟨⟨_, _, _, _, _, _, rfl⟩, -⟩ := h
  rfl

theorem ToutSide.ite {c : Prop} [Decidable c] (hx : ToutSide n s x) (hy : ToutSide n s y) : ToutSide n s (if c then x else y) := by
  split
  · exact hx
  · exact hy

theorem State.setTout_toutSide (s : State) (n m : Nat) (c : Tout) : ToutSide n s (s.setTout m c) :=
  ⟨⟨_, _, _, _, _, _, rfl⟩, fun _ _ => rfl⟩

theorem State.evt_toutSide (s : State) (n b : Nat) : ToutSide n s (s.evt (sTout n) b) := by
  have hreg (a : Nat) (ha : a / 0x400 ≠ sTout n) := s.evt_reg_page b ha
  have hside := s.evt_side (sTout n) b
  generalize s.evt (sTout n) b = y at hreg hside
  obtain ⟨_, _, _, _, _, rfl⟩ := hside
  exact ⟨⟨_, _, _, _, _, _, rfl⟩, hreg⟩

theorem State.setReg64_toutSide (s : State) (n v : Nat) (hoff : off + 4 < 0x400) : ToutSide n s (s.setReg64 (sTout n) off v) := by
  unfold State.setReg64
  refine ⟨⟨_, _, _, _, _, _, rfl⟩, fun a ha => ?_⟩
  exact (State.setReg_reg_ne _ _ (ra_ne_of_page hoff ha)).trans (State.setReg_reg_ne _ _ (ra_ne_of_page (by omega) ha))

theorem State.bump64_toutSide (s : State) (n k : Nat) (hoff : off + 4 < 0x400) : ToutSide n s (s.bump64 (sTout n) off k) :=
  s.setReg64_toutSide n _ hoff

theorem State.toutGate_toutSide (s : State) (n : Nat) (lock stop dorm : Bool) : ToutSide n s (s.toutGate n lock stop dorm) := by
  cases hg : (s.tout n).gated with
  | true =>
    rw [State.toutGate_gated hg]
    exact s.setTout_toutSide n n _
  | false =>
    obtain ⟨l, hl⟩ := (s.setTout n ((s.tout n).addGate lock stop dorm)).toutMove_eq n false true true
    rw [State.toutGate_free hg, hl]
    exact ((s.setTout_toutSide n n _).trans (State.setTout_toutSide _ n n _)).trans (State.evt_toutSide _ n 3)

theorem State.toutFlush_toutSide (s : State) (n : Nat) (way : Bool) (which : Place → Bool) : ToutSide n s (s.toutFlush n way which) := by
  have hflush (c : Tout) (g : Nat) : ToutSide n s (((s.setTout n c).bump64 (sTout n) 0x06C g).evt (sTout n) 4) :=
    ((s.setTout_toutSide n n c).trans (State.bump64_toutSide _ n g (by decide))).trans (State.evt_toutSide _ n 4)
  exact ToutSide.ite (ToutSide.refl n s) (ToutSide.ite ((hflush _ _).trans (State.evt_toutSide _ n 5)) (hflush _ _))

theorem State.toutRecall_toutSide (s : State) (n : Nat) : ToutSide n s (s.toutRecall n) := by
  unfold State.toutRecall
  dsimp only
  split
  · refine ToutSide.ite ?_ (ToutSide.refl n s)
    exact (((s.setTout_toutSide n n _).trans (State.setReg64_toutSide _ n _ (by decide))).trans
      (State.bump64_toutSide _ n _ (by decide))).trans (State.evt_toutSide _ n 4)
  · exact ToutSide.refl n s

theorem State.toutStopOn_toutSide (s : State) (n : Nat) : ToutSide n s (s.toutStopOn n) := by
  have hgate : ToutSide n s (((s.toutRecall n).toutGate n false true false).toutFlush n false fun _ => true) :=
    ((s.toutRecall_toutSide n).trans (State.toutGate_toutSide _ n _ _ _)).trans (State.toutFlush_toutSide _ n _ _)
  exact ToutSide.ite (ToutSide.ite (hgate.trans (State.setTout_toutSide _ n n _)) hgate) (ToutSide.refl n s)

/-- What STOP leaves of the state as it reaches the timing outputs: all but them and their pages. -/
theorem State.each_toutStopOn (s : State) : GateSide s (s.each (List.range 32) State.toutStopOn) ∧
    (s.each (List.range 32) State.toutStopOn).ckos = s.ckos ∧
    ∀ a, (∀ n, n < 32 → a / 0x400 ≠ sTout n) → (s.each (List.range 32) State.toutStopOn).reg a = s.reg a := by
  refine State.each_induct (P := fun u => GateSide s u ∧ u.ckos = s.ckos ∧ ∀ a, (∀ n, n < 32 → a / 0x400 ≠ sTout n) → u.reg a = s.reg a)
    (fun u n hn ⟨hg, hc, hr⟩ => ?_) ⟨GateSide.refl s, rfl, fun _ _ => rfl⟩
  have hside := u.toutStopOn_toutSide n
  exact ⟨hg.trans hside.gateSide, hside.ckos.trans hc, fun a ha => (hside.2 a (ha n (List.mem_range.mp hn))).trans (hr a ha)⟩

theorem State.toutStopOff_touts (s : State) (n : Nat) : ∃ m, s.toutStopOff n = { s with touts := m } := by
  unfold State.toutStopOff
  split
  · obtain ⟨c, hc, -⟩ := s.toutUngate_spec n false true false
    dsimp only
    rw [hc]
    exact exists_eq_ite ⟨_, rfl⟩ ⟨_, rfl⟩
  · exact ⟨s.touts, rfl⟩

theorem State.each_toutStopOff (s : State) : ∃ m, s.each (List.range 32) State.toutStopOff = { s with touts := m } := by
  refine State.each_induct (P := fun u => ∃ m, u = { s with touts := m }) (fun u n _ ⟨m, h⟩ => ?_) ⟨s.touts, rfl⟩
  obtain ⟨m', h'⟩ := u.toutStopOff_touts n
  subst h
  exact ⟨m', h'⟩

/-! ### The rule of a clock output -/

/-- The last rising edge is a whole number of periods from the origin, at most one before the instant. -/
theorem State.ckoRise_spec (hper : 0 < s.ckoPer n) (p : Int) : ∃ k : Int, s.ckoRise n p = s.ckoOrigin n + k * s.ckoPer n ∧
    s.ckoRise n p ≤ p ∧ p < s.ckoRise n p + s.ckoPer n := by
  have hpos : (0 : Int) < s.ckoPer n := Int.natCast_pos.mpr hper
  have hlo := Int.mul_ediv_add_emod (p - s.ckoOrigin n) (s.ckoPer n)
  have h0 := Int.emod_nonneg (p - s.ckoOrigin n) (ne_of_gt hpos)
  have h1 := Int.emod_lt_of_pos (p - s.ckoOrigin n) hpos
  refine ⟨_, rfl, ?_, ?_⟩
  all_goals
    unfold State.ckoRise
    rw [Int.mul_comm] at hlo
    omega

/-- All that an output's edges come from stands. -/
structure State.SameCko (s : State) (n : Nat) (x : State) : Prop where
  cko : x.cko n = s.cko n
  now : x.now = s.now
  solEdge : x.solEdge = s.solEdge
  commit : x.commit = s.commit
  dormant : x.dev = .dormant ↔ s.dev = .dormant
  reg : ∀ i, 0x00C ≤ i → i < 0x400 → x.reg (ra (sCko n) i) = s.reg (ra (sCko n) i)

theorem State.SameCko.refl (s : State) (n : Nat) : s.SameCko n s := ⟨rfl, rfl, rfl, rfl, Iff.rfl, fun _ _ _ => rfl⟩

theorem State.SameCko.trans (h : s.SameCko n x) (k : x.SameCko n y) : s.SameCko n y :=
  ⟨k.cko.trans h.cko, k.now.trans h.now, k.solEdge.trans h.solEdge, k.commit.trans h.commit, k.dormant.trans h.dormant,
    fun i hi hi' => (k.reg i hi hi').trans (h.reg i hi hi')⟩

theorem State.SameCko.phys (h : s.SameCko n x) : x.phys = s.phys := by
  rw [State.phys, State.phys, h.now]

theorem State.SameCko.per (h : s.SameCko n x) : x.ckoB n = s.ckoB n ∧ x.ckoDiv n = s.ckoDiv n ∧ x.ckoPer n = s.ckoPer n ∧
    x.ckoHigh n = s.ckoHigh n ∧ x.ckoOrigin n = s.ckoOrigin n := by
  have hB : x.ckoB n = s.ckoB n := by rw [State.ckoB, State.ckoB, State.rbit, State.rbit, h.reg 0x014 (by decide) (by decide)]
  have hdiv : x.ckoDiv n = s.ckoDiv n := by rw [State.ckoDiv, State.ckoDiv, h.reg 0x018 (by decide) (by decide)]
  refine ⟨hB, hdiv, by rw [State.ckoPer, State.ckoPer, hB, hdiv], ?_, ?_⟩
  · rw [State.ckoHigh, State.ckoHigh, hB, hdiv, h.reg 0x020 (by decide) (by decide)]
  · rw [State.ckoOrigin, State.ckoOrigin, hB, h.solEdge, h.reg 0x01C (by decide) (by decide)]

theorem State.SameCko.rise (h : s.SameCko n x) (p : Int) : x.ckoRise n p = s.ckoRise n p := by
  obtain ⟨-, -, hper, -, horigin⟩ := h.per
  rw [State.ckoRise, State.ckoRise, hper, horigin]

theorem State.SameCko.running (h : s.SameCko n x) : x.ckoRunning n = s.ckoRunning n := by
  have hidle : x.ckoIdle = s.ckoIdle := by
    rw [State.ckoIdle, State.ckoIdle, h.commit]
    simp only [h.dormant]
  have hended (e : Option Int) : x.ckoEnded e = s.ckoEnded e := by
    unfold State.ckoEnded
    rw [h.phys]
  rw [State.ckoRunning, State.ckoRunning, hidle, h.cko]
  simp only [hended]

theorem State.SameCko.fall (h : s.SameCko n x) : x.ckoFall n = s.ckoFall n := by
  obtain ⟨-, -, -, hhigh, -⟩ := h.per
  unfold State.ckoFall
  rw [h.running, h.cko, h.phys, h.rise, hhigh]

theorem State.SameCko.nextFall (h : s.SameCko n x) : x.ckoNextFall n = s.ckoNextFall n := by
  obtain ⟨-, -, hper, hhigh, -⟩ := h.per
  unfold State.ckoNextFall State.ckoRiseFrom
  rw [h.running, h.fall, h.cko, h.phys, h.rise, hper, hhigh]

/-- The registers of an output's page outlast a gate of another output. -/
theorem State.ckoGate_sameCko {m : Nat} (hm : m ≠ n) (lock stop : Bool) : s.SameCko n (s.ckoGate m lock stop) := by
  obtain ⟨c, -, hgate⟩ := s.ckoGate_eq m lock stop
  have hset : s.SameCko n (s.setCko m c) := ⟨State.setCko_ne _ _ hm, rfl, rfl, rfl, Iff.rfl, fun _ _ _ => rfl⟩
  rw [hgate]
  split
  · exact hset
  · refine hset.trans ?_
    have hreg (i : Nat) (hi : i < 0x400) : ((s.setCko m c).evt (sCko m) 0).reg (ra (sCko n) i) = (s.setCko m c).reg (ra (sCko n) i) :=
      State.evt_reg_page 0 (by rw [ra_div _ i hi]; unfold sCko; omega)
    have hside := (s.setCko m c).evt_side (sCko m) 0
    generalize (s.setCko m c).evt (sCko m) 0 = y at hreg hside
    obtain ⟨_, _, _, _, _, rfl⟩ := hside
    exact ⟨rfl, rfl, rfl, rfl, Iff.rfl, fun i _ hi => hreg i hi⟩

/-! ### Outputs handled once each -/

/-- An output of a list without repeats is handled once, in a state where all it reads stands. -/
theorem State.each_once {I R : State → Prop} {f : State → Nat → State} {l : List Nat} (hmem : n ∈ l) (hnodup : l.Nodup)
    (hkeep : ∀ u m, m ≠ n → I u → I (f u m)) (hdo : ∀ u, I u → R (f u n)) (hafter : ∀ u m, m ≠ n → R u → R (f u m)) (h : I s) :
    R (s.each l f) := by
  induction l generalizing s with
  | nil => exact absurd hmem List.not_mem_nil
  | cons m l ih =>
    obtain ⟨hm, hl⟩ := List.nodup_cons.mp hnodup
    rw [State.each_cons]
    by_cases he : m = n
    · subst he
      exact State.each_induct (P := R) (fun u d hd hu => hafter u d (fun e => hm (e ▸ hd)) hu) (hdo s h)
    · exact ih ((List.mem_cons.mp hmem).resolve_left (Ne.symm he)) hl (hkeep s m he h)

/-- STOP's gate on a clock output that heeds it. -/
def Cko.stopped (c : Cko) (next : Int) : Cko := { c with gatedStop := true, stopAt := c.stopAt.or (some next) }

theorem State.ckoGate_stop (s : State) (n : Nat) : (s.ckoGate n false true).cko n = (s.cko n).stopped (s.ckoNextFall n) := by
  have hgate : s.ckoGate n false true =
      if (s.cko n).gatedLock || (s.cko n).gatedStop then s.setCko n ((s.cko n).stopped (s.ckoNextFall n))
      else (s.setCko n ((s.cko n).stopped (s.ckoNextFall n))).evt (sCko n) 0 := by
    unfold State.ckoGate Cko.stopped
    dsimp only
    rw [Bool.or_false, Bool.or_true, if_neg Bool.false_ne_true, if_pos rfl]
  rw [hgate]
  split
  · exact State.setCko_same _ _ _
  · rw [(State.evt_side _ _ _).cko, State.setCko_same]

/-- A clock output released from STOP. -/
theorem State.ckoUngate_stop (s : State) (n : Nat) : ∃ c, s.ckoUngate n false true = s.setCko n c ∧ c.gatedStop = false ∧ c.stopAt = none ∧
    c.from' = max (s.cko n).from' (s.phys + 2000) := by
  refine ⟨_, rfl, ?_, rfl, rfl⟩
  exact Bool.and_false _

/-! ### STOP -/

/-- The state in which STOP has come into force, before the clock outputs heed it. -/
def State.stopOnTouts (s : State) : State :=
  ({ s with stopOn := true, admStop := s.adm.isSome } : State).each (List.range 32) State.toutStopOn

theorem sCko_page {n : Nat} (hn : n < 16) {i : Nat} (hi : i < 0x400) (m : Nat) : ra (sCko n) i / 0x400 ≠ sTout m := by
  rw [ra_div _ i hi]
  unfold sCko sTout
  omega

theorem State.stopOnTouts_sameCko (s : State) (hn : n < 16) : s.SameCko n s.stopOnTouts := by
  obtain ⟨hgate, hckos, hreg⟩ := State.each_toutStopOn { s with stopOn := true, admStop := s.adm.isSome }
  have hr (i : Nat) (hi : i < 0x400) : s.stopOnTouts.reg (ra (sCko n) i) = s.reg (ra (sCko n) i) := hreg _ fun m _ => sCko_page hn hi m
  have hc : s.stopOnTouts.ckos = s.ckos := hckos
  have hg : GateSide { s with stopOn := true, admStop := s.adm.isSome } s.stopOnTouts := hgate
  generalize s.stopOnTouts = y at hr hc hg
  obtain ⟨_, _, _, _, _, _, _, rfl⟩ := hg
  exact ⟨by rw [State.cko, State.cko, hc], rfl, rfl, rfl, Iff.rfl, fun i _ hi => hr i hi⟩

/-- STOP gates a clock output that heeds it. -/
theorem State.stopApply_cko (hsrc : s.stopSrc ≠ 0) (hoff : s.stopOn = false) (hdev : s.dev ≠ .booting) (hset : s.Settled)
    (hctx : s.runningCtxs = []) (hn : n < 16) (hheeds : s.rbit (sCko n) 0x014 9 = true) :
    s.stopApply.cko n = (s.cko n).stopped (s.ckoNextFall n) := by
  have hcond : s.stopSrc ≠ 0 ∧ (!s.stopOn) = true ∧ s.dev ≠ .booting := ⟨hsrc, by rw [hoff]; rfl, hdev⟩
  have hsame := s.stopOnTouts_sameCko hn
  have hgate : GateSide { s with stopOn := true, admStop := s.adm.isSome } s.stopOnTouts := (State.each_toutStopOn _).1
  have hctx' : s.stopOnTouts.runningCtxs = [] := by
    generalize s.stopOnTouts = y at hgate
    obtain ⟨_, _, _, _, _, _, _, rfl⟩ := hgate
    exact hctx
  have hset' : s.stopOnTouts.Settled := by
    generalize s.stopOnTouts = y at hgate
    obtain ⟨_, _, _, _, _, _, _, rfl⟩ := hgate
    exact hset
  unfold State.stopApply
  rw [if_pos hcond]
  dsimp only
  rw [← State.stopOnTouts, hctx', List.filter_nil, State.each_nil]
  have hmem : n ∈ (List.range 16).filter fun n => s.stopOnTouts.rbit (sCko n) 0x014 9 := by
    rw [List.mem_filter, List.mem_range, State.rbit, hsame.reg 0x014 (by decide) (by decide)]
    exact ⟨hn, hheeds⟩
  have hgated : (s.stopOnTouts.each ((List.range 16).filter fun n => s.stopOnTouts.rbit (sCko n) 0x014 9)
      fun s n => s.ckoGate n false true).cko n = (s.cko n).stopped (s.ckoNextFall n) := by
    refine State.each_once (I := s.SameCko n) (R := fun u => u.cko n = (s.cko n).stopped (s.ckoNextFall n)) hmem
      (List.nodup_range.filter _) (fun u m hm h => h.trans (u.ckoGate_sameCko hm false true)) (fun u h => ?_) (fun u m hm h => ?_) hsame
    · rw [u.ckoGate_stop n, h.cko, h.nextFall]
    · exact (u.ckoGate_sameCko hm false true).cko.trans h
  have hside : GateSide s.stopOnTouts (s.stopOnTouts.each ((List.range 16).filter fun n => s.stopOnTouts.rbit (sCko n) 0x014 9)
      fun s n => s.ckoGate n false true) :=
    State.each_induct (P := GateSide s.stopOnTouts) (fun u n _ h => h.trans (u.ckoGate_spec n false true).1) (GateSide.refl _)
  generalize State.each s.stopOnTouts _ _ = z at hgated hside ⊢
  have hsetz : z.Settled := by
    obtain ⟨_, _, _, _, _, _, _, rfl⟩ := hside
    exact hset'
  split
  · rw [State.settle_id (hsetz.enter _), (z.enter_side .stopped).cko]
    exact hgated
  · rw [State.settle_id hsetz]
    exact hgated

/-- The release of STOP frees a clock output that it gated. -/
theorem State.stopLift_cko (hsrc : s.stopSrc = 0) (hon : s.stopOn = true) (hn : n < 16) (hgated : (s.cko n).gatedStop = true)
    (hstarts : s.boot.starts = []) (hdma : s.dma = []) : (s.stopLift.cko n).gatedStop = false ∧ (s.stopLift.cko n).stopAt = none ∧
      (s.stopLift.cko n).from' = max (s.cko n).from' (s.phys + 2000) := by
  obtain ⟨m, hm⟩ := State.each_toutStopOff { s with stopOn := false }
  unfold State.stopLift
  rw [if_pos ⟨hon, hsrc⟩]
  dsimp only
  rw [hm]
  have hmem : n ∈ (List.range 16).filter fun n => (({ s with stopOn := false, touts := m } : State).cko n).gatedStop :=
    List.mem_filter.mpr ⟨List.mem_range.mpr hn, hgated⟩
  have hfree := State.each_once (I := fun u => u.now = s.now ∧ u.cko n = s.cko n)
    (R := fun u => (u.cko n).gatedStop = false ∧ (u.cko n).stopAt = none ∧ (u.cko n).from' = max (s.cko n).from' (s.phys + 2000))
    (f := fun s n => s.ckoUngate n false true) (s := { s with stopOn := false, touts := m }) hmem (List.nodup_range.filter _)
    (fun u k hk ⟨hnow, hc⟩ => ⟨hnow, (State.setCko_ne _ _ hk).trans hc⟩) (fun u ⟨hnow, hc⟩ => ?_) (fun u k hk h => ?_) ⟨rfl, rfl⟩
  · obtain ⟨c, hside⟩ : ∃ c, State.each { s with stopOn := false, touts := m }
        ((List.range 16).filter fun n => (({ s with stopOn := false, touts := m } : State).cko n).gatedStop)
        (fun s n => s.ckoUngate n false true) = { s with stopOn := false, touts := m, ckos := c } :=
      State.each_induct (P := fun u => ∃ c, u = { s with stopOn := false, touts := m, ckos := c })
        (fun u n _ ⟨c, h⟩ => by subst h; exact ⟨_, rfl⟩) ⟨s.ckos, rfl⟩
    rw [hside] at hfree ⊢
    split
    · have hrun := State.enter_side { s with stopOn := false, touts := m, ckos := c } .running
      have hdma' : (({ s with stopOn := false, touts := m, ckos := c } : State).enter .running).dma = [] := by
        generalize ({ s with stopOn := false, touts := m, ckos := c } : State).enter .running = y at hrun ⊢
        obtain ⟨_, _, _, _, _, rfl⟩ := hrun
        exact hdma
      rw [State.bootStart_none ((congrArg Boot.starts hrun.boot).trans hstarts), hdma', List.filter_nil, List.map_nil, State.each_nil, hrun.cko]
      exact hfree
    · rw [show ({ s with stopOn := false, touts := m, ckos := c } : State).dma = [] from hdma, List.filter_nil, List.map_nil, State.each_nil]
      exact hfree
  · obtain ⟨c, hset, hgate, hat, hfrom⟩ := u.ckoUngate_stop n
    rw [hset, State.setCko_same]
    refine ⟨hgate, hat, hfrom.trans ?_⟩
    rw [hc, State.phys, hnow, State.phys]
  · obtain ⟨c, hset, -⟩ := u.ckoUngate_stop k
    rw [hset, State.setCko_ne u c hk]
    exact h

/-! ### A waiting set -/

theorem State.ckoApply_early (h : ∀ e, s.ckoDue = some e → s.now < e) : s.ckoApply = s := by
  unfold State.ckoApply
  split
  case h_1 e he => exact if_neg (Nat.not_le.mpr (h e he))
  case h_2 => rfl

theorem State.ckoApply_due {e : Nat} (hdue : s.ckoDue = some e) (h : e ≤ s.now) : s.ckoApply =
    { s.each (List.range 16) (State.ckoTake · false) with ckoWait := [], ckoDue := none } := by
  rw [State.ckoApply, hdue]
  exact if_pos h

/-- An output of which nothing waits. -/
theorem State.ckoTake_none {left : Bool} (h : s.ckoNew n = []) : s.ckoTake left n = s := by
  unfold State.ckoTake
  dsimp only
  rw [h]
  rfl

/-- The one value that waits for an output in force, its rule left where that changes. -/
def State.ckoTaken (s : State) (n off : Nat) (v : Word) : State :=
  ((if s.reg (ra (sCko n) off) = v then s else s.ckoMove n).setReg (ra (sCko n) off) v).ckoRestop n

theorem State.ckoTake_one (h : s.ckoNew n = [(ra (sCko n) off, v)]) : s.ckoTake false n =
    let s2 := s.ckoTaken n off v
    let c := s2.cko n
    let locked := if s2.rbit (sCko n) 0x014 2 then s2.loop.lockC else s2.loop.lockT
    let stop := s2.stopOn && s2.rbit (sCko n) 0x014 9
    let s3 := if !locked && !c.gatedLock then s2.ckoGate n true false else if locked && c.gatedLock then s2.ckoUngate n true false else s2
    let s4 := if stop && !c.gatedStop then s3.ckoGate n false true else if !stop && c.gatedStop then s3.ckoUngate n false true else s3
    s4.evt (sCko n) 1 := by
  have hmove : (if (!false && [(ra (sCko n) off, v)].any fun e => decide (s.reg e.1 ≠ e.2)) = true then s.ckoMove n else s) =
      if s.reg (ra (sCko n) off) = v then s else s.ckoMove n := by
    by_cases hv : s.reg (ra (sCko n) off) = v
    · rw [if_pos hv, if_neg]
      simp [hv]
    · rw [if_neg hv, if_pos]
      simp [hv]
  unfold State.ckoTake State.ckoTaken
  dsimp only
  rw [h, hmove]
  rfl

/-- A state differs from another at most in one clock output, in events and entries, and in registers. -/
def State.CkoOnly (s : State) (n : Nat) (x : State) : Prop := Side { s with ckos := x.ckos } x ∧ ∀ m, m ≠ n → x.cko m = s.cko m

theorem State.CkoOnly.trans (h : s.CkoOnly n x) (k : x.CkoOnly n y) : s.CkoOnly n y := by
  obtain ⟨hx, hxo⟩ := h
  obtain ⟨hy, hyo⟩ := k
  refine ⟨?_, fun m hm => (hyo m hm).trans (hxo m hm)⟩
  obtain ⟨_, _, _, _, _, hx⟩ := hx
  rw [hx] at hy
  obtain ⟨_, _, _, _, _, hy⟩ := hy
  exact ⟨_, _, _, _, _, hy⟩

/-- What the application edge leaves once every output has taken its values. -/
theorem State.CkoOnly.applied (h : s.CkoOnly n x) :
    Side { s with ckos := x.ckos, ckoWait := [], ckoDue := none } { x with ckoWait := [], ckoDue := none } := by
  obtain ⟨h, -⟩ := h
  generalize x.ckos = c at h
  obtain ⟨_, _, _, _, _, rfl⟩ := h
  exact ⟨_, _, _, _, _, rfl⟩

theorem State.CkoOnly.applied_quiet (h : s.CkoOnly n x) : Quiet s { x with ckoWait := [], ckoDue := none } := by
  obtain ⟨h, -⟩ := h
  generalize x.ckos = c at h
  obtain ⟨_, _, _, _, _, rfl⟩ := h
  constructor <;> rfl

theorem Side.ckoOnly (h : Side s x) (n : Nat) : s.CkoOnly n x := by
  refine ⟨?_, fun m _ => h.cko m⟩
  obtain ⟨_, _, _, _, _, rfl⟩ := h
  exact ⟨_, _, _, _, _, rfl⟩

theorem State.setCko_ckoOnly (s : State) (n : Nat) (c : Cko) : s.CkoOnly n (s.setCko n c) :=
  ⟨Side.refl _, fun _ hm => State.setCko_ne _ _ (Ne.symm hm)⟩

theorem State.ckoGate_ckoOnly (s : State) (n : Nat) (lock stop : Bool) : s.CkoOnly n (s.ckoGate n lock stop) := by
  obtain ⟨c, -, hgate⟩ := s.ckoGate_eq n lock stop
  rw [hgate]
  exact (s.setCko_ckoOnly n c).trans ((Side.ite (Side.refl _) (State.evt_side _ _ _)).ckoOnly n)

theorem State.ckoTaken_ckoOnly (s : State) (n off : Nat) (v : Word) : s.CkoOnly n (s.ckoTaken n off v) := by
  have hmove : s.CkoOnly n (if s.reg (ra (sCko n) off) = v then s else s.ckoMove n) := by
    split
    · exact (Side.refl s).ckoOnly n
    · exact s.setCko_ckoOnly n _
  exact (hmove.trans ((State.setReg_side _ _ _).ckoOnly n)).trans (State.setCko_ckoOnly _ n _)

theorem State.CkoOnly.ite {c : Prop} [Decidable c] (hx : s.CkoOnly n x) (hy : s.CkoOnly n y) : s.CkoOnly n (if c then x else y) := by
  split
  · exact hx
  · exact hy

/-- The registers of an output's page above its events stand. -/
def State.CkoRegs (s : State) (n : Nat) (x : State) : Prop := ∀ i, 0x00C ≤ i → x.reg (ra (sCko n) i) = s.reg (ra (sCko n) i)

theorem State.evt_ckoRegs (s : State) (n b : Nat) : s.CkoRegs n (s.evt (sCko n) b) := fun i hi =>
  State.evt_reg_of_ne b (fun h => absurd (Nat.add_left_cancel h) (by omega)) (fun h => absurd (Nat.add_left_cancel h) (by omega))

theorem State.ckoGate_ckoRegs (s : State) (n : Nat) (lock stop : Bool) : s.CkoRegs n (s.ckoGate n lock stop) := by
  obtain ⟨c, -, hgate⟩ := s.ckoGate_eq n lock stop
  rw [hgate]
  split
  · exact fun _ _ => rfl
  · exact fun i hi => (s.setCko n c).evt_ckoRegs n 0 i hi

/-- What an output's gates leave as they follow its new SRC and STOP_GATE. -/
def State.ckoGates (s : State) (n : Nat) (locked stop : Bool) : State :=
  let c := s.cko n
  let s3 := if !locked && !c.gatedLock then s.ckoGate n true false else if locked && c.gatedLock then s.ckoUngate n true false else s
  if stop && !c.gatedStop then s3.ckoGate n false true else if !stop && c.gatedStop then s3.ckoUngate n false true else s3

theorem State.ckoGates_ckoOnly (s : State) (n : Nat) (locked stop : Bool) : s.CkoOnly n (s.ckoGates n locked stop) := by
  have hlock : s.CkoOnly n (if !locked && !(s.cko n).gatedLock then s.ckoGate n true false
      else if locked && (s.cko n).gatedLock then s.ckoUngate n true false else s) :=
    State.CkoOnly.ite (s.ckoGate_ckoOnly n _ _) (State.CkoOnly.ite (s.setCko_ckoOnly n _) ((Side.refl s).ckoOnly n))
  exact State.CkoOnly.ite (hlock.trans (State.ckoGate_ckoOnly _ n _ _)) (State.CkoOnly.ite (hlock.trans (State.setCko_ckoOnly _ n _)) hlock)

theorem State.ckoGates_ckoRegs (s : State) (n : Nat) (locked stop : Bool) : s.CkoRegs n (s.ckoGates n locked stop) := by
  have hlock : s.CkoRegs n (if !locked && !(s.cko n).gatedLock then s.ckoGate n true false
      else if locked && (s.cko n).gatedLock then s.ckoUngate n true false else s) := by
    split
    · exact s.ckoGate_ckoRegs n _ _
    · split <;> exact fun _ _ => rfl
  unfold State.ckoGates
  dsimp only
  split
  · exact fun i hi => (State.ckoGate_ckoRegs _ n _ _ i hi).trans (hlock i hi)
  · split
    · exact fun i hi => hlock i hi
    · exact hlock

/-- An output whose gates stand as they should keeps them. -/
theorem State.ckoGates_stand {locked stop : Bool} (hlock : (s.cko n).gatedLock = !locked) (hstop : (s.cko n).gatedStop = stop) :
    s.ckoGates n locked stop = s := by
  unfold State.ckoGates
  dsimp only
  rw [hlock, hstop]
  cases locked <;> cases stop <;> rfl

theorem State.ckoTake_gates (h : s.ckoNew n = [(ra (sCko n) off, v)]) : s.ckoTake false n =
    ((s.ckoTaken n off v).ckoGates n
      (if (s.ckoTaken n off v).rbit (sCko n) 0x014 2 then (s.ckoTaken n off v).loop.lockC else (s.ckoTaken n off v).loop.lockT)
      ((s.ckoTaken n off v).stopOn && (s.ckoTaken n off v).rbit (sCko n) 0x014 9)).evt (sCko n) 1 := State.ckoTake_one h

theorem State.ckoTaken_reg (s : State) (n off : Nat) (v : Word) : (s.ckoTaken n off v).reg (ra (sCko n) off) = v :=
  State.setReg_reg_same _ _ _

theorem State.ckoTaken_reg_ne (s : State) (n : Nat) {i : Nat} (h : off ≠ i) (v : Word) :
    (s.ckoTaken n off v).reg (ra (sCko n) i) = s.reg (ra (sCko n) i) := by
  refine (State.setReg_reg_ne _ _ fun e => h (Nat.add_left_cancel e)).trans ?_
  split <;> rfl

theorem State.ckoTake_spec (h : s.ckoNew n = [(ra (sCko n) off, v)]) (hoff : 0x014 ≤ off) : s.CkoOnly n (s.ckoTake false n) ∧
    (s.ckoTake false n).reg (ra (sCko n) off) = v ∧ bit ((s.ckoTake false n).reg (ra (sCko n) 0x008)) 1 = true := by
  rw [State.ckoTake_gates h]
  refine ⟨?_, ?_, State.evt_bit _ (by decide)⟩
  · exact ((s.ckoTaken_ckoOnly n off v).trans (State.ckoGates_ckoOnly _ n _ _)).trans ((State.evt_side _ _ _).ckoOnly n)
  · rw [State.evt_ckoRegs _ n 1 off (by omega), State.ckoGates_ckoRegs _ n _ _ off (by omega), State.ckoTaken_reg]

/-- An output that has left its rule. -/
def State.ckoLeft (s : State) (n : Nat) : Cko := { s.cko n with from' := max s.phys (s.ckoFall n + 2000), highUntil := s.ckoFall n }

theorem State.ckoRestop_cko (s : State) (n : Nat) : ∃ a b, (s.ckoRestop n).cko n = { s.cko n with offAt := a, stopAt := b } :=
  ⟨((s.ckoRestop n).cko n).offAt, ((s.ckoRestop n).cko n).stopAt, by rw [State.ckoRestop]; dsimp only; rw [State.setCko_same]⟩

theorem State.ckoTaken_cko (s : State) (n off : Nat) (v : Word) : ∃ a b, (s.ckoTaken n off v).cko n =
    { (if s.reg (ra (sCko n) off) = v then s.cko n else s.ckoLeft n) with offAt := a, stopAt := b } := by
  have hmove : (if s.reg (ra (sCko n) off) = v then s else s.ckoMove n).cko n = if s.reg (ra (sCko n) off) = v then s.cko n else s.ckoLeft n := by
    split
    · rfl
    · exact State.setCko_same _ _ _
  rw [← hmove]
  exact State.ckoRestop_cko _ n

/-- An output's edges after the value that waited has come into force. -/
theorem State.ckoTake_edges (h : s.ckoNew n = [(ra (sCko n) off, v)]) (hoff : 0x018 ≤ off)
    (hlock : (s.cko n).gatedLock = !(if s.rbit (sCko n) 0x014 2 then s.loop.lockC else s.loop.lockT))
    (hstop : (s.cko n).gatedStop = (s.stopOn && s.rbit (sCko n) 0x014 9)) :
    (s.reg (ra (sCko n) off) = v → ((s.ckoTake false n).cko n).from' = (s.cko n).from' ∧
      ((s.ckoTake false n).cko n).highUntil = (s.cko n).highUntil) ∧
    (s.reg (ra (sCko n) off) ≠ v → ((s.ckoTake false n).cko n).from' = max s.phys (s.ckoFall n + 2000) ∧
      ((s.ckoTake false n).cko n).highUntil = s.ckoFall n) := by
  obtain ⟨a, b, hcko⟩ := s.ckoTaken_cko n off v
  have hbit (i : Nat) : (s.ckoTaken n off v).rbit (sCko n) 0x014 i = s.rbit (sCko n) 0x014 i := by
    rw [State.rbit, State.ckoTaken_reg_ne s n (by omega), State.rbit]
  have hside := (s.ckoTaken_ckoOnly n off v).1
  have hloop : (s.ckoTaken n off v).loop = s.loop := hside.loop
  have hon : (s.ckoTaken n off v).stopOn = s.stopOn := hside.stopOn
  have hgates : ((s.ckoTaken n off v).cko n).gatedLock = (s.cko n).gatedLock ∧ ((s.ckoTaken n off v).cko n).gatedStop = (s.cko n).gatedStop := by
    rw [hcko]
    split <;> exact ⟨rfl, rfl⟩
  have htake : (s.ckoTake false n).cko n = (s.ckoTaken n off v).cko n := by
    rw [State.ckoTake_gates h, (State.evt_side _ _ _).cko, hbit, hbit, hloop, hon,
      State.ckoGates_stand (hgates.1.trans hlock) (hgates.2.trans hstop)]
  rw [htake, hcko]
  refine ⟨fun hv => ?_, fun hv => ?_⟩
  · rw [if_pos hv]
    exact ⟨rfl, rfl⟩
  · rw [if_neg hv]
    exact ⟨rfl, rfl⟩

/-- Where one output alone has a value that waits, the application edge is that output's. -/
theorem State.each_ckoTake (hn : n < 16) (hlo : 0x014 ≤ off) (hoff : off < 0x400) (hwait : s.ckoWait = [(ra (sCko n) off, v)]) :
    s.each (List.range 16) (State.ckoTake · false) = s.ckoTake false n ∧ s.ckoNew n = [(ra (sCko n) off, v)] := by
  have hmine {u : State} (hu : u.ckoWait = s.ckoWait) : u.ckoNew n = [(ra (sCko n) off, v)] := by
    rw [State.ckoNew, hu, hwait, List.filter_cons_of_pos (by rw [decide_eq_true_eq]; exact ra_div _ off hoff), List.filter_nil]
  have hother {u : State} (hu : u.ckoWait = s.ckoWait) {m : Nat} (hm : m ≠ n) : u.ckoNew m = [] := by
    rw [State.ckoNew, hu, hwait, List.filter_cons_of_neg, List.filter_nil]
    rw [decide_eq_true_eq, ra_div _ off hoff]
    unfold sCko
    omega
  have hnew := hmine (u := s) rfl
  obtain ⟨⟨hside, -⟩, -⟩ := State.ckoTake_spec hnew hlo
  have htaken : (s.ckoTake false n).ckoWait = s.ckoWait := by
    generalize s.ckoTake false n = y at hside
    generalize y.ckos = c at hside
    obtain ⟨_, _, _, _, _, rfl⟩ := hside
    rfl
  refine ⟨?_, hnew⟩
  refine State.each_once (f := (State.ckoTake · false)) (I := (· = s)) (R := (· = s.ckoTake false n)) (List.mem_range.mpr hn) List.nodup_range ?_ ?_ ?_ rfl
  · rintro u m hm rfl
    exact State.ckoTake_none (hother rfl hm)
  · rintro u rfl
    rfl
  · rintro u m hm rfl
    exact State.ckoTake_none (hother htaken hm)

/-- Settles O33: the rule by division, a waiting value and STOP by the one output that they reach. -/
theorem clockOutputs : Obligations.ClockOutputs := by
  intro s t hpow
  refine ⟨fun n p hper => State.ckoRise_spec hper p, fun hdue => ?_, fun e hdue hearly => ?_, fun e n off v hdue hover hn hlo hhi hwait => ?_,
    fun n hn hset hctx hheeds => ⟨fun hsrc hoff hdev => ?_, fun hsrc hon hgated hstarts hdma => ?_⟩, fun n => ⟨fun hrun => ?_, fun hrun => ?_⟩⟩
  · exact next_of hpow (exec_ckoApply t s) (State.ckoApply_early fun e he => absurd (hdue.symm.trans he) (Option.some_ne_none e).symm) (Quiet.refl _)
  · refine next_of hpow (exec_ckoApply t s) (State.ckoApply_early fun e' he => ?_) (Quiet.refl _)
    obtain rfl := Option.some.inj (hdue.symm.trans he)
    exact hearly
  · have happly := State.ckoApply_due (s := s.advance t) hdue hover
    obtain ⟨heach, hnew⟩ := State.each_ckoTake (s := s.advance t) hn hlo (by omega) hwait
    have hspec := State.ckoTake_spec (s := s.advance t) hnew hlo
    have hedges := State.ckoTake_edges (s := s.advance t) hnew
    rw [heach] at happly
    obtain ⟨hside, hreg, hbit⟩ := hspec
    refine answers_of hpow (exec_ckoApply t s) happly hside.applied_quiet ?_
    exact ⟨rfl, rfl, hreg, hbit, hside.2, hedges, hside.applied⟩
  · have hspec := State.stopApply_cko (s := s.advance t) hsrc hoff hdev hset hctx hn hheeds
    refine answers_of_wrapped hpow (exec_stopOn t s) fun _ => ?_
    generalize (s.advance t).stopApply = y at hspec
    exact hspec
  · have hspec := State.stopLift_cko (s := s.advance t) hsrc hon hn hgated hstarts hdma
    refine answers_of_wrapped hpow (exec_stopOff t s) fun _ => ?_
    generalize (s.advance t).stopLift = y at hspec
    exact hspec
  · rw [State.ckoPin, hrun, Bool.false_and]
  · rw [State.ckoPin, hrun, Bool.true_and]

end Sys2Proof.Machine
end

section
/-! Proofs about the requests of a Solstice (03_solstice_and_time_transfer.md, R61 to R65). -/

namespace Sys2Proof.Machine

variable {s x : State} {t a off slot ch : Nat} {p : Path} {v : Word} {r : RegInfo} {q : PageInfo}

/-- A write of SOL.CTRL that reaches its page. -/
theorem State.Reaches.hostWrite_sol (hreach : s.Reaches (ra sSol 0x018)) (hporst : s.porst = false) (hserved : s.served sSol = true)
    (p : Path) (v : Word) : s.hostWrite p (ra sSol 0x018) v true = s.solCtrl v := by
  have hserved' : s.served (ra sSol 0x018 / 0x400) = true := by rw [ra_div sSol _ (by decide)]; exact hserved
  rw [hreach.hostWrite hporst (ra_aligned sSol (by decide)) p v,
    State.writeNow_w1s hserved' (r := ⟨.w1s, 0, 0xF⟩) rfl (q := ⟨.sol, _, _, _, _, _⟩) rfl rfl p v]

theorem State.setSol_quiet (s : State) (o : Sol) : Quiet s { s with sol := o } := by constructor <;> rfl

theorem State.solMerge_quiet (s : State) : Quiet s s.solMerge := ((State.bump32_side s _ _ _).trans (State.evt_side _ _ _)).quiet

theorem Side.sol (h : Side s x) : x.sol = s.sol := by
  obtain ⟨_, _, _, _, _, rfl⟩ := h
  rfl

theorem State.solRecent_congr (h : x.sol = s.sol) (k : Nat) : x.solRecent k = s.solRecent k := by
  rw [State.solRecent, State.solRecent, h]

theorem State.solFix_congr (h : x.sol = s.sol) (src : SolSrc) (k a : Nat) : x.solFix src k a =
    { x with sol := { s.sol with fixed := some (a, src), reqEdge := some (k, src), risen := false } } := by
  rw [State.solFix, h]

/-! ### A request is judged (R64) -/

/-- A request with no edge fixed and no AT_GO to judge after it. -/
theorem State.solRequest_free {src : SolSrc} {k : Nat} (hfixed : s.sol.fixed = none) (hgo : s.goBehind src k = none)
    (hlast : s.solRecent k = false) :
    ((∀ e, s.sol.atPend = some e → a < e) → s.solRequest src k a = s.solFix src k a) ∧
    (∀ e, s.sol.atPend = some e → e ≤ a → s.solRequest src k a = s.solMerge) := by
  unfold State.solRequest
  rw [hfixed]
  dsimp only
  rw [hgo, hlast]
  refine ⟨fun hat => ?_, fun e hat he => ?_⟩
  · cases hpend : s.sol.atPend with
    | none => rfl
    | some e =>
      have hlt := hat e hpend
      exact (if_neg (by simp)).trans ((if_neg (by simp; omega)).trans (if_neg (by simp)))
  · rw [hat]
    exact (if_neg (by simp)).trans (if_pos (by simpa using he))

/-- A request less than 1 µs after the last Solstice. -/
theorem State.solRequest_recent {src : SolSrc} {k : Nat} (hfixed : s.sol.fixed = none) (hlast : s.solRecent k = true) :
    s.solRequest src k a = s.solMerge := by
  unfold State.solRequest
  rw [hfixed]
  exact if_pos hlast

/-- A request while a Solstice waits: the earlier request edge fixes the application edge. -/
theorem State.solRequest_waits {src y : SolSrc} {k k' : Nat} {f : Nat × SolSrc} (hfixed : s.sol.fixed = some f) (hreq : s.sol.reqEdge = some (k', y)) :
    (k < k' ∨ (k = k' ∧ solRank src < solRank f.2) → s.solRequest src k a = (s.solFix src k a).solMerge) ∧
    (¬(k < k' ∨ (k = k' ∧ solRank src < solRank f.2)) → s.solRequest src k a = s.solMerge) := by
  unfold State.solRequest
  rw [hfixed, hreq]
  exact ⟨fun h => if_pos h, fun h => if_neg h⟩

theorem State.goBehind_host (s : State) (k : Nat) : s.goBehind .host k = none := by
  unfold State.goBehind
  split
  · exact if_neg (by simp)
  · rfl

theorem State.goBehind_noAt (hat : s.sol.atPend = none) (src : SolSrc) (k : Nat) : s.goBehind src k = none := by
  unfold State.goBehind
  split
  · exact if_neg (by simp [hat])
  · rfl

theorem solRank_syncIn (y : SolSrc) : solRank .syncIn < solRank y ↔ y ≠ .syncIn := by
  cases y <;> decide

theorem State.solRequest_quiet (s : State) (src : SolSrc) (k a : Nat) : Quiet s (s.solRequest src k a) := by
  have hfix : Quiet s (s.solFix src k a) := s.setSol_quiet _
  have hmerge := s.solMerge_quiet
  unfold State.solRequest
  split
  · split
    · exact hfix.trans (State.solMerge_quiet _)
    · exact hmerge
  · exact hmerge
  · dsimp only
    split
    · exact hmerge
    split
    · exact hmerge
    split
    · refine hfix.trans ?_
      unfold State.goRejudge
      dsimp only
      split
      · exact (State.setSol_quiet _ _).trans (State.solMerge_quiet _)
      · exact (State.setSol_quiet _ _).trans (State.evt_quiet _ _ _)
    · exact hfix

/-! ### The host's requests (R62, R63) -/

theorem State.solNow_on (h : s.solTakes 1 = true) : s.solNow = s.solRequest .host s.now (s.now + s.solDelay) := if_pos h

theorem State.solNow_quiet (s : State) : Quiet s s.solNow := by
  unfold State.solNow
  split
  · exact s.solRequest_quiet _ _ _
  · exact Quiet.refl s

/-- AT_GO with no Solstice fixed and none of late. -/
theorem State.solAtGo_free (h : s.solTakes 1 = true) (hfixed : s.sol.fixed = none) (hlast : s.solRecent s.now = false) :
    (s.atEdge < (s.now + s.solDelay : Nat) → s.solAtGo = s.solCancel.evt sSol 2) ∧
    (((s.now + s.solDelay : Nat) : Int) ≤ s.atEdge → s.solAtGo = { s with
      sol := { s.sol with atPend := some s.atEdge.toNat, goEdge := some (s.now, s.sol.atPend), risen := false } }) := by
  have hgo : s.solAtGo = if s.solRecent s.now then s.solCancel.solMerge else match s.sol.fixed with
      | some (f, _) => if s.atEdge = (f : Int) then s.solCancel.solMerge else s.solCancel.evt sSol 2
      | none => if s.atEdge < (s.now + s.solDelay : Nat) then s.solCancel.evt sSol 2 else { s with
          sol := { s.sol with atPend := some s.atEdge.toNat, goEdge := some (s.now, s.sol.atPend), risen := false } } :=
    if_pos h
  rw [hgo, hlast, hfixed]
  exact ⟨fun hlt => if_pos hlt, fun hle => if_neg (not_lt.mpr hle)⟩

theorem State.solAtGo_recent (h : s.solTakes 1 = true) (hlast : s.solRecent s.now = true) : s.solAtGo = s.solCancel.solMerge :=
  (if_pos h).trans (if_pos hlast)

/-- AT_GO while a Solstice waits. -/
theorem State.solAtGo_waits {f : Nat × SolSrc} (h : s.solTakes 1 = true) (hfixed : s.sol.fixed = some f) :
    (s.solRecent s.now = false → s.atEdge ≠ f.1 → s.solAtGo = s.solCancel.evt sSol 2) ∧
    (s.atEdge = f.1 → s.solAtGo = s.solCancel.solMerge) := by
  have hgo : s.solAtGo = if s.solRecent s.now then s.solCancel.solMerge else match s.sol.fixed with
      | some (f, _) => if s.atEdge = (f : Int) then s.solCancel.solMerge else s.solCancel.evt sSol 2
      | none => if s.atEdge < (s.now + s.solDelay : Nat) then s.solCancel.evt sSol 2 else { s with
          sol := { s.sol with atPend := some s.atEdge.toNat, goEdge := some (s.now, s.sol.atPend), risen := false } } :=
    if_pos h
  rw [hgo, hfixed]
  refine ⟨fun hlast hne => ?_, fun he => ?_⟩
  · rw [hlast]
    exact if_neg hne
  · split
    · rfl
    · exact if_pos he

theorem State.solCancel_quiet (s : State) : Quiet s s.solCancel := s.setSol_quiet _

theorem State.solAtGo_quiet (s : State) : Quiet s s.solAtGo := by
  have hmerge : Quiet s s.solCancel.solMerge := s.solCancel_quiet.trans (State.solMerge_quiet _)
  have hlate : Quiet s (s.solCancel.evt sSol 2) := s.solCancel_quiet.trans (State.evt_quiet _ _ _)
  unfold State.solAtGo
  split
  · dsimp only
    split
    · exact hmerge
    · split
      · split
        · exact hmerge
        · exact hlate
      · split
        · exact hlate
        · exact s.setSol_quiet _
  · exact Quiet.refl s

/-! ### SYNC_IN and the partner (R61, R62, R65) -/

theorem State.plainStamp_eq (s : State) (c src t q : Nat) (rising : Bool) (d : Int) :
    (s.plainStamp c src t q rising d).2 = s.setStamper c (s.stamped (s.stamper c) (s.plainStamp c src t q rising d).1.phys) := rfl

/-- Whether an edge of SYNC_IN is a request. -/
def State.syncTakes (s : State) (rising : Bool) : Prop :=
  s.rbit sSol 0x014 0 = true ∧ s.dev ≠ .booting ∧ rising = (!s.rbit sSol 0x014 5) ∧ (s.rbit sSol 0x014 4 = true ∨ s.sol.armed = true)

/-- What SYNC_IN's stamper leaves where its edge, at request edge `r` with the stamp's instant `p`, is taken. -/
def State.syncShown (s made : State) (r : Nat) (p : Int) : State :=
  { made.setRegN sSol 0x030 (2000 * (r : Int) - p).toNat with
    sol := { s.sol with armed := s.rbit sSol 0x014 4 && s.sol.armed } }

theorem State.syncInEdge_unbooted {q : Nat} {rising : Bool} (h : (s.stamper 100).booted = false) : s.syncInEdge t q rising = s :=
  if_neg (by rw [h]; exact Bool.false_ne_true)

/-- A compared edge of SYNC_IN makes a request at the first coarse edge at least 250 ps after its instant. -/
def syncEdge (p : Int) : Int := -((-(p + 1000)) / 2000)

theorem syncEdge_nonneg {p : Int} (h : 0 ≤ p) : 0 ≤ syncEdge p := by
  unfold syncEdge
  omega

theorem State.syncTakes_iff (s : State) (rising : Bool) : s.syncTakes rising ↔
    (s.solTakes 0 && (rising == !s.rbit sSol 0x014 5) && (s.rbit sSol 0x014 4 || s.sol.armed)) = true := by
  simp only [State.syncTakes, State.solTakes, Bool.and_eq_true, Bool.or_eq_true, beq_iff_eq, decide_eq_true_eq, and_assoc]

/-- SYNC_IN's edge, with its stamp's instant `p` and the state `made` that its stamper leaves. -/
def State.syncJudged (s made : State) (p : Int) (rising : Bool) : State :=
  if s.solTakes 0 && (rising == !s.rbit sSol 0x014 5) && (s.rbit sSol 0x014 4 || s.sol.armed) then
    let shown := made.setRegN sSol 0x030 (2000 * syncEdge p - p).toNat
    (if s.rbit sSol 0x014 4 then shown else { shown with sol := { s.sol with armed := false } }).solRequest .syncIn
      (syncEdge p).toNat ((syncEdge p).toNat + s.solDelay)
  else made

theorem State.syncInEdge_booted {q : Nat} {rising : Bool} (h : (s.stamper 100).booted = true) : s.syncInEdge t q rising =
    s.syncJudged (s.plainStamp 100 0 t q rising 0).2 (s.plainStamp 100 0 t q rising 0).1.phys rising := if_pos h

theorem State.syncInEdge_ignored {q : Nat} {rising : Bool} (h : (s.stamper 100).booted = true) (htakes : ¬s.syncTakes rising) :
    s.syncInEdge t q rising = (s.plainStamp 100 0 t q rising 0).2 :=
  (State.syncInEdge_booted h).trans (if_neg fun hcond => htakes ((s.syncTakes_iff rising).mpr hcond))

theorem State.syncInEdge_taken {q : Nat} {rising : Bool} (h : (s.stamper 100).booted = true) (htakes : s.syncTakes rising)
    (hpos : 0 ≤ (s.plainStamp 100 0 t q rising 0).1.phys) :
    let st := (s.plainStamp 100 0 t q rising 0).1
    let k := (syncEdge st.phys).toNat
    s.syncInEdge t q rising = (s.syncShown (s.plainStamp 100 0 t q rising 0).2 k st.phys).solRequest .syncIn k (k + s.solDelay) := by
  intro st k
  refine (State.syncInEdge_booted h).trans ((if_pos ((s.syncTakes_iff rising).mp htakes)).trans ?_)
  have hk : (k : Int) = syncEdge st.phys := Int.toNat_of_nonneg (syncEdge_nonneg hpos)
  have hsol : (s.plainStamp 100 0 t q rising 0).2.sol = s.sol := rfl
  unfold State.syncShown
  rw [hk]
  cases hmode : s.rbit sSol 0x014 4
  · rfl
  · rfl

theorem State.syncShown_quiet (s : State) (c k : Nat) (m : Stamper) (p : Int) : Quiet s (s.syncShown (s.setStamper c m) k p) :=
  (s.setStamper_quiet c m).trans ((State.setReg_side _ _ _).quiet.trans (State.setSol_quiet _ _))

/-- The application edge that a partner's message asks for. -/
def State.partnerEdge (s : State) (ep : Nat) : Nat :=
  let a := (s.physOf (m64 ((ep : Int) - s.pairTheta)) + 1000) / 2000
  if (s.ttl 32).valid && s.par.aligned && decide (((s.now + s.solDelay : Nat) : Int) ≤ a) then a.toNat else s.now + s.solDelay

theorem State.partnerSolstice_eq (s : State) (ep : Nat) : s.partnerSolstice ep =
    if s.solTakes 2 then (s.evt sSol 3).solRequest .partner s.now (s.partnerEdge ep) else s.evt sSol 3 := by
  have hreg : (s.evt sSol 3).reg (ra sSol 0x014) = s.reg (ra sSol 0x014) := State.evt_reg_of_ne 3 (by decide) (by decide)
  have htakes : (s.evt sSol 3).solTakes 2 = s.solTakes 2 := by
    rw [State.solTakes, State.solTakes, State.rbit, State.rbit, hreg, (s.evt_side sSol 3).dev]
  rw [← htakes]
  rfl

/-- Settles O34: each request by the table of R64, on SOL.CTRL, SYNC_IN and the partner's message. -/
theorem solsticeRequests : Obligations.SolsticeRequests := by
  intro s t hpow u now fix merged noAt
  refine ⟨fun p hreach hserved => ?_, fun q rising => ?_, fun ep => ?_⟩
  · have hctrl (v : Word) : u.hostWrite p (ra sSol 0x018) v true = u.solCtrl v :=
      State.Reaches.hostWrite_sol (s := s.advance t) hreach hpow.1 hserved p v
    have hnow {y : State} (hy : u.solNow = y) : exec (.now t p) s = .next y :=
      next_of hpow (exec_now t p s) ((hctrl 2).trans hy) (hy ▸ u.solNow_quiet)
    have hgo {y : State} (hy : u.solAtGo = y) : exec (.atGo t p) s = .next y :=
      next_of hpow (exec_atGo t p s) ((hctrl 4).trans hy) (hy ▸ u.solAtGo_quiet)
    have hon (h : s.rbit sSol 0x014 1 = true) : u.solTakes 1 = true := by
      refine Bool.and_eq_true_iff.mpr ⟨h, decide_eq_true hreach.1⟩
    refine ⟨next_of hpow (exec_arm t p s) (hctrl 1) (u.setSol_quiet _), next_of hpow (exec_cancel t p s) (hctrl 8) (u.setSol_quiet _),
      fun hoff => ?_, fun hhost hfixed hlast => ?_, fun hhost hfixed hlast => ?_, fun f y k z hhost hfixed hreq => ?_⟩
    · have hno : u.solTakes 1 ≠ true := fun h => absurd (Bool.and_eq_true_iff.mp h).1 (by rw [show u.rbit sSol 0x014 1 = false from hoff]; exact Bool.false_ne_true)
      exact ⟨hnow (if_neg hno), hgo (if_neg hno)⟩
    · obtain ⟨hfix, hmerge⟩ := State.solRequest_free (s := u) (a := now + s.solDelay) hfixed (u.goBehind_host now) hlast
      obtain ⟨hlate, hwait⟩ := State.solAtGo_free (s := u) (hon hhost) hfixed hlast
      exact ⟨fun hat => hnow ((State.solNow_on (hon hhost)).trans (hfix hat)),
        fun e hat he => hnow ((State.solNow_on (hon hhost)).trans (hmerge e hat he)), fun h => hgo (hlate h), fun h => hgo (hwait h)⟩
    · exact ⟨hnow ((State.solNow_on (hon hhost)).trans (State.solRequest_recent hfixed hlast)), hgo (State.solAtGo_recent (hon hhost) hlast)⟩
    · obtain ⟨hfix, hmerge⟩ := State.solRequest_waits (s := u) (src := .host) (k := now) (a := now + s.solDelay) hfixed hreq
      obtain ⟨hlate, hsame⟩ := State.solAtGo_waits (s := u) (hon hhost) hfixed
      refine ⟨fun hk => hnow ((State.solNow_on (hon hhost)).trans (hmerge ?_)), fun hk => hnow ((State.solNow_on (hon hhost)).trans (hfix (.inl hk))),
        fun hlast hne => hgo (hlate hlast hne), fun he => hgo (hsame he)⟩
      have hrank : ¬solRank .host < solRank y := by cases y <;> decide
      rintro (h | ⟨-, h⟩)
      · omega
      · exact hrank h
  · intro st made k armed shown takes
    have hedge {y : State} (hy : u.syncInEdge t q rising = y) (hq : Quiet u y) : exec (.syncInEdge t rising q) s = .next y :=
      next_of hpow (exec_syncInEdge t rising q s) hy hq
    have hmade : Quiet u made := u.setStamper_quiet 100 _
    refine ⟨fun h => hedge (State.syncInEdge_unbooted h) (Quiet.refl u), fun hboot hno => hedge (State.syncInEdge_ignored hboot hno) hmade,
      fun hboot htakes hpos => ?_⟩
    have hshown : Quiet u shown := u.syncShown_quiet 100 k _ _
    have htaken : u.syncInEdge t q rising = shown.solRequest .syncIn k (k + s.solDelay) := State.syncInEdge_taken hboot htakes hpos
    have hasked {y : State} (hy : shown.solRequest .syncIn k (k + s.solDelay) = y) : exec (.syncInEdge t rising q) s = .next y :=
      hedge (htaken.trans hy) (hy ▸ hshown.trans (shown.solRequest_quiet .syncIn k (k + s.solDelay)))
    refine ⟨fun hfixed hlast => ?_, fun hfixed hat hlast => ?_, fun f y k' z hfixed hreq => ?_⟩
    · exact hasked (State.solRequest_recent hfixed hlast)
    · exact hasked ((State.solRequest_free (s := shown) (a := k + s.solDelay) hfixed (State.goBehind_noAt hat .syncIn k) hlast).1
        fun e he => absurd (he.symm.trans hat) (Option.some_ne_none e))
    · obtain ⟨hfix, hmerge⟩ := State.solRequest_waits (s := shown) (src := .syncIn) (k := k) (a := k + s.solDelay) hfixed hreq
      rw [solRank_syncIn] at hfix hmerge
      refine ⟨fun h => hasked (hfix h), fun h => hasked (hmerge fun hno => ?_)⟩
      rcases h with h | ⟨h, hy⟩ <;> rcases hno with hno | ⟨hno, hyno⟩
      · omega
      · omega
      · omega
      · exact hyno hy
  · intro theirs told
    have hsolst : u.partnerSolstice ep.toNat = if u.solTakes 2 then told.solRequest .partner now (u.partnerEdge ep.toNat) else told :=
      u.partnerSolstice_eq ep.toNat
    have htold : Quiet u told := u.evt_quiet sSol 3
    have hsame : told.sol = s.sol := (u.evt_side sSol 3).sol
    refine ⟨fun hno => next_of hpow (exec_partnerSolstice t ep s) (hsolst.trans (if_neg fun h => ?_)) htold, fun hon hdev => ?_⟩
    · obtain ⟨hbit, hdev⟩ := Bool.and_eq_true_iff.mp h
      rcases hno with hno | hno
      · exact absurd (hno.symm.trans hbit) Bool.false_ne_true
      · exact of_decide_eq_true hdev hno
    have htakes : u.solTakes 2 = true := Bool.and_eq_true_iff.mpr ⟨hon, decide_eq_true hdev⟩
    have hasked {y : State} (hy : told.solRequest .partner now (u.partnerEdge ep.toNat) = y) : exec (.partnerSolstice t ep) s = .next y :=
      next_of hpow (exec_partnerSolstice t ep s) ((hsolst.trans (if_pos htakes)).trans hy)
        (hy ▸ htold.trans (told.solRequest_quiet .partner now (u.partnerEdge ep.toNat)))
    refine ⟨fun hfixed hat hlast => ?_, fun hfixed hlast => hasked (State.solRequest_recent ?_ ?_), fun f y k z hfixed hreq hk => ?_⟩
    · rw [← hsame] at hfixed hat
      rw [← show told.solRecent now = s.solRecent now from State.solRecent_congr hsame now] at hlast
      have hfix := (State.solRequest_free (s := told) (a := u.partnerEdge ep.toNat) hfixed (State.goBehind_noAt hat .partner now) hlast).1
        fun e he => absurd (he.symm.trans hat) (Option.some_ne_none e)
      rw [State.solFix_congr (x := told) (s := s) hsame] at hfix
      refine ⟨fun hbad => ?_, fun hvalid haligned hle => ?_⟩
      · have hedge : u.partnerEdge ep.toNat = now + s.solDelay := by
          refine if_neg fun h => ?_
          simp only [Bool.and_eq_true, decide_eq_true_eq] at h
          obtain ⟨⟨hvalid, haligned⟩, hle⟩ := h
          rcases hbad with hbad | hbad | hbad
          · exact absurd (hbad.symm.trans hvalid) Bool.false_ne_true
          · exact absurd (hbad.symm.trans haligned) Bool.false_ne_true
          · exact absurd hbad (not_lt.mpr hle)
        rw [hedge] at hfix
        exact hasked (by rw [hedge]; exact hfix)
      · have hedge : u.partnerEdge ep.toNat = theirs.toNat := by
          refine if_pos ?_
          simp only [Bool.and_eq_true, decide_eq_true_eq]
          exact ⟨⟨hvalid, haligned⟩, hle⟩
        rw [hedge] at hfix
        exact hasked (by rw [hedge]; exact hfix)
    · rw [hsame, hfixed]
    · exact (State.solRecent_congr hsame now).trans hlast
    · rw [← hsame] at hfixed hreq
      have hmerge := (State.solRequest_waits (s := told) (src := .partner) (k := now) (a := u.partnerEdge ep.toNat) hfixed hreq).2
      exact hasked (hmerge (by omega))

end Sys2Proof.Machine
end

section
/-! Proofs about the application edge of a Solstice, SYNC_OUT and the wrap of the epoch (03_solstice_and_time_transfer.md, R66, R67, R3). -/

namespace Sys2Proof.Machine

variable {s x : State} {t a off slot ch : Nat} {p : Path} {v : Word} {r : RegInfo} {q : PageInfo}

/-- What a command that may move the origin answers, where nothing else of what every command keeps has moved. -/
theorem commandEpoch_eq {o : State → Nat × Nat} {f : State → State} (hpow : s.Powered) (hx : f (s.advance t) = x)
    (hq : Quiet (s.advance t) (x.setOrigin (s.solEdge, s.wraps))) : commandEpoch t o f s = .next (x.setOrigin (o (s.advance t))) := by
  have hnext : command t (fun _ => x.setOrigin (s.solEdge, s.wraps)) s = .next (x.setOrigin (s.solEdge, s.wraps)) := command_eq hpow rfl hq
  have hnote : x.noteFlags = x := by
    refine State.noteFlags_id ?_
    obtain ⟨-, hflags⟩ := hpow
    unfold State.flagsOk at hflags ⊢
    rw [show x.flagLog = s.flagLog from hq.flagLog, hflags, show s.tbFlags = x.tbFlags from ?_]
    have hlock : x.loop.lockT = s.loop.lockT := hq.lockT
    have hmode : x.loop.mode = s.loop.mode := hq.mode
    have hcfg : x.par.cfg = s.par.cfg := hq.cfg
    have haligned : x.par.aligned = s.par.aligned := hq.aligned
    simp [State.tbFlags, State.parEn, hlock, hmode, hcfg, haligned]
  have hkeep : (x.keep s (max s.now t)).setOrigin (o (s.advance t)) = x.setOrigin (o (s.advance t)) := by
    unfold State.keep State.setOrigin
    rw [← show x.pending = s.pending from hq.pending, ← show x.now = max s.now t from hq.now, ← show x.porst = s.porst from hq.porst]
  unfold commandEpoch
  rw [if_neg (by rw [hpow.1]; exact Bool.false_ne_true), hx, hnote, hkeep]

theorem commandEpoch_stands {o : State → Nat × Nat} {f : State → State} (hpow : s.Powered) (hx : f (s.advance t) = s.advance t)
    (ho : o (s.advance t) = (s.solEdge, s.wraps)) : commandEpoch t o f s = .next (s.advance t) := by
  rw [commandEpoch_eq hpow hx (Quiet.refl _), ho]
  rfl

theorem Quiet.syncOut (s : State) (o : Sol) (l : List Output) : Quiet s { s with sol := o, out := l } := by constructor <;> rfl

/-- The first item of a source in an epoch carries SOLS (R85). -/
theorem marksDue_first {o : Nat} {seen : Nat × Nat} (h : seen.1 < o) (p : Int) (k : Nat) : (k ||| marksDue o p seen) &&& fSOLS = fSOLS := by
  unfold marksDue
  rw [decide_eq_true h, show flagIf true fSOLS = fSOLS from rfl]
  refine Nat.eq_of_testBit_eq fun i => ?_
  rw [Nat.testBit_and, Nat.testBit_or, Nat.testBit_or]
  cases fSOLS.testBit i <;> simp

/-- Settles O35: the origin by the shape of the command, SYNC_OUT by the edge that waits. -/
theorem epochMoves : Obligations.EpochMoves := by
  intro s t hpow u
  refine ⟨fun hnone => ?_, fun a y isAt hwait => ?_, fun e hfall => ?_, fun hdue => ?_, fun hdue => ?_, fun c src e q rising d => ?_⟩
  · have hwait : u.solWaits = none := hnone
    refine ⟨commandEpoch_stands hpow ?_ ?_, next_of hpow (exec_syncOutRise t s) ?_ (Quiet.refl u)⟩
    · rw [State.solstice, hwait]
    · rw [State.solOrigin, hwait]
      rfl
    · rw [State.syncOutRise, hwait]
  · have hwait' : u.solWaits = some (a, y, isAt) := hwait
    have hrise : u.syncOutRise = if !s.sol.risen && decide (a ≤ max s.now t + s.rfld sSol 0x014 16 8) then
        u.syncRise (a - s.rfld sSol 0x014 16 8) else u := by
      rw [State.syncOutRise, hwait']
      rfl
    refine ⟨fun hearly => commandEpoch_stands hpow ?_ ?_, fun hcome => ?_, fun hno => next_of hpow (exec_syncOutRise t s) ?_ (Quiet.refl u),
      fun hlow hlead => next_of hpow (exec_syncOutRise t s) ?_ (Quiet.syncOut u _ _)⟩
    · rw [State.solstice, hwait']
      exact if_neg (by exact not_le.mpr hearly)
    · rw [State.solOrigin, hwait']
      exact if_neg (by exact not_le.mpr hearly)
    · have horigin : u.solOrigin = (a, 0) := by
        rw [State.solOrigin, hwait']
        exact if_pos hcome
      refine ⟨_, if_neg (by rw [hpow.1]; exact Bool.false_ne_true), ?_⟩
      rw [horigin]
      exact ⟨rfl, rfl, rfl, rfl⟩
    · refine hrise.trans (if_neg fun h => ?_)
      simp only [Bool.and_eq_true, Bool.not_eq_true', decide_eq_true_eq] at h
      obtain ⟨hlow, hlead⟩ := h
      rcases hno with hno | hno
      · exact absurd (hlow.symm.trans hno) Bool.false_ne_true
      · omega
    · refine hrise.trans (if_pos ?_)
      rw [hlow, decide_eq_true hlead]
      rfl
  · have hout : u.syncOutFall = if e ≤ max s.now t then
        { u with sol := { s.sol with syncOut := false, fallAt := none }, out := .syncOut false e :: s.out } else u := by
      rw [State.syncOutFall, show u.sol.fallAt = some e from hfall]
      rfl
    exact ⟨fun h => next_of hpow (exec_syncOutFall t s) (hout.trans (if_neg (not_le.mpr h))) (Quiet.refl u),
      fun h => next_of hpow (exec_syncOutFall t s) (hout.trans (if_pos h)) (Quiet.syncOut u _ _)⟩
  · refine commandEpoch_stands hpow (if_neg (by rw [hdue]; exact Bool.false_ne_true)) ?_
    rw [State.wrapOrigin, hdue]
    rfl
  · let y : State := { u with wraps := s.wraps + 1 }
    have hside : Side y (y.evt sSol 4) := y.evt_side sSol 4
    have horigin : (y.evt sSol 4).setOrigin (u.wrapOrigin) = y.evt sSol 4 := by
      rw [State.wrapOrigin, hdue]
      generalize y.evt sSol 4 = z at hside ⊢
      obtain ⟨_, _, _, _, _, rfl⟩ := hside
      rfl
    have hq : Quiet u ((y.evt sSol 4).setOrigin (s.solEdge, s.wraps)) := by
      generalize y.evt sSol 4 = z at hside ⊢
      obtain ⟨_, _, _, _, _, rfl⟩ := hside
      constructor <;> rfl
    exact (commandEpoch_eq hpow (if_pos hdue) hq).trans (congrArg _ horigin)
  · intro st hseen
    exact marksDue_first hseen _ _

end Sys2Proof.Machine
end

section
/-! Proofs about what the stages do at a Solstice (03_solstice_and_time_transfer.md, R68). -/

namespace Sys2Proof.Machine

variable {s x y : State} {t a n off slot ch : Nat} {p : Path} {v : Word} {r : RegInfo} {q : PageInfo}

/-- An operation that changes each listed entry by itself, and no other entry, changes an entry once. -/
theorem State.each_entry {α : Type} {I : State → Prop} {get : State → Nat → α} {g : α → α} {f : State → Nat → State} {l : List Nat}
    (hmem : n ∈ l) (hnodup : l.Nodup) (hframe : ∀ u m, I u → I (f u m)) (hdo : ∀ u, I u → get (f u n) n = g (get u n))
    (hother : ∀ u m, m ≠ n → get (f u m) n = get u n) (h : I s) : get (s.each l f) n = g (get s n) := by
  refine (State.each_once (f := f) (I := fun u => I u ∧ get u n = get s n) (R := fun u => get u n = g (get s n)) hmem hnodup ?_ ?_ ?_ ⟨h, rfl⟩)
  · exact fun u m hm hu => ⟨hframe u m hu.1, (hother u m hm).trans hu.2⟩
  · exact fun u hu => (hdo u hu.1).trans (congrArg g hu.2)
  · exact fun u m hm hu => (hother u m hm).trans hu

/-! ### Stamps and outputs -/

/-- A stamper with a stamp ahead of the clock that lies at or after the application edge is in the new epoch. -/
def Stamper.restamped (k : Stamper) (a : Nat) : Stamper :=
  if k.seen.1 < a ∧ k.ahead.any fun e => decide (2000 * (a : Int) ≤ e.2) then { k with seen := (a, 0) } else k

/-- One stamper as the epoch moves. -/
def State.restampOne (a : Nat) (s : State) (c : Nat) : State :=
  if (s.stamper c).seen.1 < a ∧ (s.stamper c).ahead.any fun e => decide (2000 * (a : Int) ≤ e.2) then
    s.setStamper c { s.stamper c with seen := (a, 0) }
  else s

theorem State.restampOne_spec (s : State) (a c : Nat) : (∃ l, State.restampOne a s c = { s with stampers := l }) ∧
    (State.restampOne a s c).stamper c = (s.stamper c).restamped a ∧ ∀ m, c ≠ m → (State.restampOne a s c).stamper m = s.stamper m := by
  unfold State.restampOne Stamper.restamped
  split
  · exact ⟨⟨_, rfl⟩, State.setStamper_same _ _ _, fun m hm => State.setStamper_ne _ _ hm⟩
  · exact ⟨⟨_, rfl⟩, rfl, fun _ _ => rfl⟩

theorem State.restampAll_eq (s : State) (a : Nat) : ∃ l, s.restampAll a = { s.mapStamps (s.restamp a) with stampers := l } := by
  refine State.each_induct (f := State.restampOne a) (P := fun u => ∃ l, u = { s.mapStamps (s.restamp a) with stampers := l }) ?_ ⟨_, rfl⟩
  rintro _ c - ⟨l, rfl⟩
  exact (State.restampOne_spec _ a c).1

theorem State.restampAll_stamper {c : Nat} (hc : c < 102) (s : State) (a : Nat) :
    (s.restampAll a).stamper c = (s.stamper c).restamped a :=
  State.each_entry (f := State.restampOne a) (I := fun _ => True) (get := State.stamper) (g := (Stamper.restamped · a)) (List.mem_range.mpr hc)
    List.nodup_range (fun _ _ _ => trivial) (fun u _ => (u.restampOne_spec a c).2.1) (fun u m hm => (u.restampOne_spec a m).2.2 c hm) trivial

theorem State.toutSolstice_spec (s : State) (n : Nat) : (∃ l, s.toutSolstice n = { s with touts := l }) ∧
    ∀ m, ((s.toutSolstice n).tout m).queue = (s.tout m).queue ∧ ((s.toutSolstice n).tout m).transit = (s.tout m).transit ∧
      ((s.toutSolstice n).tout m).flight = (s.tout m).flight := by
  unfold State.toutSolstice
  split
  · refine ⟨⟨_, rfl⟩, fun m => ?_⟩
    by_cases hm : n = m
    · subst hm
      rw [State.genRestart, State.setTout_same]
      exact ⟨rfl, rfl, rfl⟩
    · rw [State.genRestart, State.setTout_ne _ _ hm]
      exact ⟨rfl, rfl, rfl⟩
  · exact ⟨⟨_, rfl⟩, fun m => ⟨rfl, rfl, rfl⟩⟩

theorem State.each_toutSolstice (s : State) (l : List Nat) : (∃ m, s.each l State.toutSolstice = { s with touts := m }) ∧
    ∀ n, ((s.each l State.toutSolstice).tout n).queue = (s.tout n).queue ∧
      ((s.each l State.toutSolstice).tout n).transit = (s.tout n).transit ∧
      ((s.each l State.toutSolstice).tout n).flight = (s.tout n).flight := by
  refine State.each_induct (f := State.toutSolstice) (P := fun u => (∃ m, u = { s with touts := m }) ∧ ∀ n,
    (u.tout n).queue = (s.tout n).queue ∧ (u.tout n).transit = (s.tout n).transit ∧ (u.tout n).flight = (s.tout n).flight) ?_
    ⟨⟨_, rfl⟩, fun _ => ⟨rfl, rfl, rfl⟩⟩
  rintro u m - ⟨hu, hkeep⟩
  obtain ⟨hset, hm⟩ := u.toutSolstice_spec m
  refine ⟨?_, fun n => ?_⟩
  · obtain ⟨_, rfl⟩ := hu
    exact hset
  · obtain ⟨hq, ht, hf⟩ := hkeep n
    obtain ⟨hq', ht', hf'⟩ := hm n
    exact ⟨hq'.trans hq, ht'.trans ht, hf'.trans hf⟩

/-! ### References, links and planes -/

theorem State.each_adopt (s : State) : (∃ l, s.each (List.range 4) (fun s x => s.setRef x { s.ref x with adoptDue := true }) = { s with refs := l }) ∧
    ∀ k, k < 4 → (s.each (List.range 4) (fun s x => s.setRef x { s.ref x with adoptDue := true })).ref k = { s.ref k with adoptDue := true } := by
  refine ⟨State.each_induct (P := fun u => ∃ l, u = { s with refs := l }) ?_ ⟨_, rfl⟩, fun k hk => ?_⟩
  · rintro _ m - ⟨_, rfl⟩
    exact ⟨_, rfl⟩
  · exact State.each_entry (I := fun _ => True) (get := State.ref) (g := fun r => { r with adoptDue := true }) (List.mem_range.mpr hk)
      List.nodup_range (fun _ _ _ => trivial) (fun u _ => State.setRef_same _ _ _) (fun u m hm => State.setRef_ne _ _ hm) trivial

theorem State.loopSolstice_spec (s : State) (last : Nat) : (∃ l k, s.loopSolstice last = { s with refs := l, loop := k }) ∧
    ∀ k, k < 4 → (s.loopSolstice last).ref k = { s.ref k with adoptDue := true } := by
  obtain ⟨⟨l, hl⟩, href⟩ := s.each_adopt
  unfold State.loopSolstice
  dsimp only
  split
  · split
    · refine ⟨?_, href⟩
      rw [hl]
      exact ⟨_, _, rfl⟩
    · refine ⟨?_, href⟩
      rw [hl]
      exact ⟨_, _, rfl⟩
  · refine ⟨?_, href⟩
    rw [hl]
    exact ⟨_, _, rfl⟩

/-- A link that a Solstice finds in an exchange. -/
def Ttl.solsticed (x : Ttl) : Ttl :=
  { x with tx := none, echo := none, far := none, repRx := none, repTx := none, marked := none, avg := [], valid := false }

theorem State.ttlSolstice_spec (s : State) (k : Nat) : (∃ l, s.ttlSolstice k = { s with ttls := l }) ∧
    (s.ttlSolstice k).ttl k = (s.ttl k).solsticed ∧ ∀ m, k ≠ m → (s.ttlSolstice k).ttl m = s.ttl m := by
  refine ⟨⟨_, rfl⟩, ?_, fun m hm => ?_⟩
  · rw [State.ttlSolstice]
    dsimp only
    rw [State.setTtl_same, State.ttlClear, State.setTtl_same]
    rfl
  · rw [State.ttlSolstice]
    dsimp only
    rw [State.setTtl_ne _ _ hm, State.ttlClear, State.setTtl_ne _ _ hm]

theorem State.each_ttlSolstice (s : State) : (∃ l, s.each (List.range 33) State.ttlSolstice = { s with ttls := l }) ∧
    ∀ k, k < 33 → (s.each (List.range 33) State.ttlSolstice).ttl k = (s.ttl k).solsticed := by
  refine ⟨State.each_induct (P := fun u => ∃ l, u = { s with ttls := l }) ?_ ⟨_, rfl⟩, fun k hk => ?_⟩
  · rintro u m - ⟨_, rfl⟩
    exact (State.ttlSolstice_spec _ m).1
  · exact State.each_entry (f := State.ttlSolstice) (I := fun _ => True) (get := State.ttl) (g := Ttl.solsticed) (List.mem_range.mpr hk)
      List.nodup_range (fun _ _ _ => trivial) (fun u _ => (u.ttlSolstice_spec k).2.1) (fun u m hm => (u.ttlSolstice_spec m).2.2 k hm) trivial

/-- A plane whose grid a Solstice ends. -/
def Plane.solsticed (k : Plane) (o a : Nat) : Plane := { k with old := k.old ++ [(o, a, k.grid)], grid := {} }

theorem State.planesSolstice_spec (s : State) (o : Nat) : (∃ l, s.planesSolstice o = { s with planes := l }) ∧
    ∀ n, n < 4 → (s.plane n).active = true → (s.planesSolstice o).plane n = (s.plane n).solsticed o s.solEdge := by
  unfold State.planesSolstice
  refine ⟨State.each_induct (P := fun u => ∃ l, u = { s with planes := l }) ?_ ⟨_, rfl⟩, fun k hk hact => ?_⟩
  · rintro _ m - ⟨_, rfl⟩
    exact ⟨_, rfl⟩
  · refine State.each_entry (I := fun u => u.solEdge = s.solEdge) (get := State.plane) (g := (Plane.solsticed · o s.solEdge))
      (List.mem_filter.mpr ⟨List.mem_range.mpr hk, hact⟩) (List.nodup_range.filter _) (fun u m hu => hu) (fun u hu => ?_)
      (fun u m hm => State.setPlane_ne _ _ hm) rfl
    rw [← hu]
    exact State.setPlane_same _ _ _

/-! ### Clock outputs -/

/-- A state differs from another at most in its clock outputs, in events and entries, and in registers of other pages than SOL. -/
def State.CkoApart (s x : State) : Prop :=
  (∃ c r e p o b, x = { s with ckos := c, regs := r, evtAt := e, pba := p, out := o, bbr := b }) ∧ ∀ a, a / 0x400 = sSol → x.reg a = s.reg a

theorem State.CkoApart.refl (s : State) : s.CkoApart s := ⟨⟨_, _, _, _, _, _, rfl⟩, fun _ _ => rfl⟩

theorem State.CkoApart.trans (h : s.CkoApart x) (k : x.CkoApart y) : s.CkoApart y := by
  obtain ⟨⟨_, _, _, _, _, _, rfl⟩, hx⟩ := h
  obtain ⟨⟨_, _, _, _, _, _, rfl⟩, hy⟩ := k
  exact ⟨⟨_, _, _, _, _, _, rfl⟩, fun a ha => (hy a ha).trans (hx a ha)⟩

theorem State.CkoApart.ite {c : Prop} [Decidable c] (hx : s.CkoApart x) (hy : s.CkoApart y) : s.CkoApart (if c then x else y) := by
  split
  · exact hx
  · exact hy

theorem Side.ckoApart (h : Side s x) (hreg : ∀ a, a / 0x400 = sSol → x.reg a = s.reg a) : s.CkoApart x := by
  obtain ⟨_, _, _, _, _, rfl⟩ := h
  exact ⟨⟨_, _, _, _, _, _, rfl⟩, hreg⟩

theorem State.evt_ckoApart (s : State) {sl : Nat} (b : Nat) (h : sl ≠ sSol) : s.CkoApart (s.evt sl b) :=
  (s.evt_side sl b).ckoApart fun _ ha => State.evt_reg_page b fun e => h (e.symm.trans ha)

theorem State.setCko_apart (s : State) (n : Nat) (c : Cko) : s.CkoApart (s.setCko n c) := ⟨⟨_, _, _, _, _, _, rfl⟩, fun _ _ => rfl⟩

theorem sCko_ne_sSol (n : Nat) : sCko n ≠ sSol := by
  unfold sCko sSol
  omega

theorem State.ckoGate_apart (s : State) (n : Nat) (lock stop : Bool) : s.CkoApart (s.ckoGate n lock stop) := by
  obtain ⟨c, -, hgate⟩ := s.ckoGate_eq n lock stop
  rw [hgate]
  exact .ite (s.setCko_apart n c) ((s.setCko_apart n c).trans (State.evt_ckoApart _ 0 (sCko_ne_sSol n)))

theorem State.ckoGates_apart (s : State) (n : Nat) (locked stop : Bool) : s.CkoApart (s.ckoGates n locked stop) := by
  have hlock : s.CkoApart (if !locked && !(s.cko n).gatedLock then s.ckoGate n true false
      else if locked && (s.cko n).gatedLock then s.ckoUngate n true false else s) :=
    .ite (s.ckoGate_apart n _ _) (.ite (s.setCko_apart n _) (.refl s))
  exact .ite (hlock.trans (State.ckoGate_apart _ n _ _)) (.ite (hlock.trans (State.setCko_apart _ n _)) hlock)

theorem State.each_setReg_apart {l : List (Nat × Word)} (h : ∀ e ∈ l, e.1 / 0x400 = sCko n) :
    s.CkoApart (s.each l fun s e => s.setReg e.1 e.2) := by
  refine State.each_induct (P := fun u => s.CkoApart u) (fun u e he hu => hu.trans ?_) (.refl s)
  refine (u.setReg_side e.1 e.2).ckoApart fun a ha => State.setReg_reg_ne _ _ ?_
  rintro rfl
  exact sCko_ne_sSol n ((h e he).symm.trans ha)

theorem State.ckoNew_page {e : Nat × Word} (h : e ∈ s.ckoNew n) : e.1 / 0x400 = sCko n := by
  rw [State.ckoNew] at h
  exact of_decide_eq_true (List.mem_filter.mp h).2

theorem State.ckoRestop_apart (s : State) (n : Nat) : s.CkoApart (s.ckoRestop n) := s.setCko_apart n _

theorem State.ckoTake_apart (s : State) (left : Bool) (n : Nat) : s.CkoApart (s.ckoTake left n) := by
  have hmove : s.CkoApart (if !left && (s.ckoNew n).any fun e => decide (s.reg e.1 ≠ e.2) then s.ckoMove n else s) :=
    .ite (s.setCko_apart n _) (.refl s)
  have hset := (hmove.trans (State.each_setReg_apart (n := n) (l := s.ckoNew n) fun e he => State.ckoNew_page he)).trans
    (State.ckoRestop_apart _ n)
  exact .ite (.refl s) ((hset.trans (State.ckoGates_apart _ n _ _)).trans (State.evt_ckoApart _ 1 (sCko_ne_sSol n)))

/-- What becomes of the clock outputs at a Solstice: a waiting set takes effect, or every output awaits its new rule's edges. -/
def State.ckoSolstice (s : State) : State :=
  if s.ckoDue.isNone && !s.ckoWait.isEmpty then s.ckoTakeAll true else s.each (List.range 16) State.ckoRestop

theorem State.each_ckoRestop (s : State) (l : List Nat) : s.CkoApart (s.each l State.ckoRestop) ∧
    ∀ n, ((s.each l State.ckoRestop).cko n).from' = (s.cko n).from' ∧ ((s.each l State.ckoRestop).cko n).highUntil = (s.cko n).highUntil := by
  refine State.each_induct (f := State.ckoRestop) (P := fun u => s.CkoApart u ∧ ∀ n, (u.cko n).from' = (s.cko n).from' ∧
    (u.cko n).highUntil = (s.cko n).highUntil) ?_ ⟨.refl s, fun _ => ⟨rfl, rfl⟩⟩
  rintro u m - ⟨hu, hkeep⟩
  refine ⟨hu.trans (u.setCko_apart m _), fun n => ?_⟩
  obtain ⟨hfrom, hhigh⟩ := hkeep n
  by_cases hm : m = n
  · subst hm
    obtain ⟨_, _, hcko⟩ := u.ckoRestop_cko m
    rw [hcko]
    exact ⟨hfrom, hhigh⟩
  · rw [State.ckoRestop]
    dsimp only
    rw [State.setCko_ne _ _ hm]
    exact ⟨hfrom, hhigh⟩

/-- A state differs from another at most in its clock outputs and their waiting set, in events and entries, and in registers of other
pages than SOL. -/
def State.CkoStage (s x : State) : Prop :=
  (∃ c w d r e p o b, x = { s with ckos := c, ckoWait := w, ckoDue := d, regs := r, evtAt := e, pba := p, out := o, bbr := b }) ∧
    ∀ a, a / 0x400 = sSol → x.reg a = s.reg a

theorem State.CkoApart.taken (h : s.CkoApart x) : s.CkoStage { x with ckoWait := [], ckoDue := none } := by
  obtain ⟨⟨_, _, _, _, _, _, rfl⟩, hreg⟩ := h
  exact ⟨⟨_, _, _, _, _, _, _, _, rfl⟩, hreg⟩

theorem State.CkoApart.stage (h : s.CkoApart x) : s.CkoStage x := by
  obtain ⟨⟨_, _, _, _, _, _, rfl⟩, hreg⟩ := h
  exact ⟨⟨_, _, _, _, _, _, _, _, rfl⟩, hreg⟩

theorem State.ckoSolstice_spec (s : State) : s.CkoStage s.ckoSolstice ∧ (s.ckoWait = [] → ∀ n,
    (s.ckoSolstice.cko n).from' = (s.cko n).from' ∧ (s.ckoSolstice.cko n).highUntil = (s.cko n).highUntil) := by
  unfold State.ckoSolstice
  split
  case isTrue h =>
    refine ⟨?_, fun hwait => ?_⟩
    · have htake : s.CkoApart (s.each (List.range 16) (State.ckoTake · true)) :=
        State.each_induct (P := fun u => s.CkoApart u) (fun u m _ hu => hu.trans (u.ckoTake_apart true m)) (.refl s)
      rw [State.ckoTakeAll]
      exact htake.taken
    · rw [hwait] at h
      simp at h
  case isFalse =>
    obtain ⟨hstop, hkeep⟩ := s.each_ckoRestop (List.range 16)
    exact ⟨hstop.stage, fun _ => hkeep⟩

/-- Every clock output leaves its rule. -/
theorem State.each_ckoMove (s : State) : (∃ c, s.each (List.range 16) State.ckoMove = { s with ckos := c }) ∧
    ∀ n, n < 16 → ((s.each (List.range 16) State.ckoMove).cko n).from' = max s.phys (s.ckoFall n + 2000) ∧
      ((s.each (List.range 16) State.ckoMove).cko n).highUntil = s.ckoFall n := by
  refine ⟨State.each_induct (f := State.ckoMove) (P := fun u => ∃ c, u = { s with ckos := c }) ?_ ⟨_, rfl⟩, fun n hn => ?_⟩
  · rintro _ m - ⟨_, rfl⟩
    exact ⟨_, rfl⟩
  · refine State.each_once (f := State.ckoMove) (I := fun u => s.SameCko n u)
      (R := fun u => (u.cko n).from' = max s.phys (s.ckoFall n + 2000) ∧ (u.cko n).highUntil = s.ckoFall n) (List.mem_range.mpr hn)
      List.nodup_range (fun u m hm hu => ?_) (fun u hu => ?_) (fun u m hm hu => ?_) (.refl s n)
    · exact hu.trans ⟨State.setCko_ne _ _ hm, rfl, rfl, rfl, Iff.rfl, fun _ _ _ => rfl⟩
    · rw [State.ckoMove]
      dsimp only
      rw [State.setCko_same, hu.fall, hu.phys]
      exact ⟨rfl, rfl⟩
    · rw [State.ckoMove]
      dsimp only
      rw [State.setCko_ne _ _ hm]
      exact hu

/-! ### All stages -/

theorem State.setAligned_false (s : State) : Side { s with par := { s.par with aligned := false } } (s.setAligned false) ∧
    ∀ a, a / 0x400 = sSol → (s.setAligned false).reg a = s.reg a := by
  unfold State.setAligned
  split
  case isTrue h =>
    refine ⟨?_, fun _ _ => rfl⟩
    rw [← h]
    exact Side.refl _
  case isFalse =>
    refine ⟨State.evt_side _ _ _, fun a ha => State.evt_reg_page _ ?_⟩
    rw [ha]
    decide

/-- What no stage of a Solstice touches, and what each leaves. -/
structure State.SolsticeDone (s : State) (o : Nat) (x : State) : Prop where
  sol : x.sol = s.sol
  ctxs : x.ctxs = s.ctxs
  tab : x.tab = s.tab
  nvm : x.nvm = s.nvm
  caps : (∀ e ∈ s.caps, e.2.full = false) → ∀ e ∈ x.caps, e.2.full = false
  reg : ∀ a, a / 0x400 = sSol → x.reg a = s.reg a
  stamper : ∀ c, c < 102 → x.stamper c = (s.stamper c).restamped s.solEdge
  ref : ∀ k, k < 4 → x.ref k = { s.ref k with adoptDue := true }
  ttl : ∀ k, k < 33 → x.ttl k = (s.ttl k).solsticed
  aligned : x.par.aligned = false
  cko : s.ckoWait = [] → ∀ n, (x.cko n).from' = (s.cko n).from' ∧ (x.cko n).highUntil = (s.cko n).highUntil
  plane : ∀ n, n < 4 → (s.plane n).active = true → x.plane n = (s.plane n).solsticed o s.solEdge
  tout : ∀ n, (x.tout n).queue = (s.tout n).queue ∧ (x.tout n).transit = (s.tout n).transit ∧ (x.tout n).flight = (s.tout n).flight

theorem State.measSolstice_none (h : ∀ e ∈ s.meas, e.2.armed = false) : s.measSolstice = s := by
  have hnone : (s.meas.filter fun e => e.2.armed) = [] := List.filter_eq_nil_iff.mpr fun e he => by rw [h e he]; exact Bool.false_ne_true
  rw [State.measSolstice, hnone]
  rfl

theorem State.capSolstice_none (h : ∀ e ∈ s.caps, e.2.active = false) : s.capSolstice = s := by
  have hnone : (s.caps.filter fun e => e.2.active) = [] := List.filter_eq_nil_iff.mpr fun e he => by rw [h e he]; exact Bool.false_ne_true
  rw [State.capSolstice, hnone]
  rfl

theorem State.seqSolstice_none (h : s.runningCtxs = []) : s.seqSolstice = s := by
  rw [State.seqSolstice, h]
  exact State.wakeAll_none h

theorem State.mapStamps_meas {f : Stamp → Stamp} (h : ∀ e ∈ s.meas, e.2.armed = false) : ∀ e ∈ (s.mapStamps f).meas, e.2.armed = false := by
  intro e he
  obtain ⟨d, hd, rfl⟩ := List.mem_map.mp he
  exact h d hd

theorem State.mapStamps_caps {f : Stamp → Stamp} {g : Cap → Bool} (hg : ∀ k l m n, g { k with inq := l, ring := m, segs := n } = g k)
    (h : ∀ e ∈ s.caps, g e.2 = false) : ∀ e ∈ (s.mapStamps f).caps, g e.2 = false := by
  intro e he
  obtain ⟨d, hd, rfl⟩ := List.mem_map.mp he
  exact (hg _ _ _ _).trans (h d hd)

theorem State.solStages_done (o last : Nat) (hctx : s.runningCtxs = []) (hmeas : ∀ e ∈ s.meas, e.2.armed = false)
    (htile : ∀ n, n < 64 → s.tileMode n = 0) (hhctx : ∀ e ∈ s.hctxs, e.2.active = false) (hcap : ∀ e ∈ s.caps, e.2.active = false) :
    s.SolsticeDone o (s.solStages o last) := by
  have hunfold : s.solStages o last =
      let y3 := ((s.restampAll s.solEdge).each (List.range 32) State.toutSolstice).loopSolstice last
      let y4 := (y3.ckoSolstice.measSolstice.each (List.range 64) State.tileSolstice).planesSolstice o
      let y5 := y4.each ((y4.hctxs.filter fun e => e.2.active).map (·.1)) fun s c => s.forceCut c .solstice last
      ((y5.capSolstice.each (List.range 33) State.ttlSolstice).setAligned false).seqSolstice := rfl
  rw [hunfold]
  dsimp only
  obtain ⟨l, h1⟩ := s.restampAll_eq s.solEdge
  have hstamper (c : Nat) (hc : c < 102) := State.restampAll_stamper hc s s.solEdge
  generalize s.restampAll s.solEdge = y1 at h1 hstamper ⊢
  obtain ⟨⟨m, h2⟩, htout⟩ := y1.each_toutSolstice (List.range 32)
  generalize y1.each (List.range 32) State.toutSolstice = y2 at h2 htout ⊢
  obtain ⟨⟨rf, k, h3⟩, href⟩ := y2.loopSolstice_spec last
  generalize y2.loopSolstice last = y3 at h3 href ⊢
  obtain ⟨⟨⟨ck, w, d, g, e, p, ou, b, h4⟩, hreg⟩, hcko⟩ := y3.ckoSolstice_spec
  generalize y3.ckoSolstice = y4 at h4 hreg hcko ⊢
  have hmeas4 : y4.measSolstice = y4 := by
    subst h4 h3 h2 h1
    exact State.measSolstice_none (State.mapStamps_meas hmeas)
  have htile4 : y4.each (List.range 64) State.tileSolstice = y4 := by
    refine State.each_id fun n hn => if_pos ?_
    subst h4 h3 h2 h1
    exact htile n (List.mem_range.mp hn)
  rw [hmeas4, htile4]
  obtain ⟨⟨pl, h5⟩, hplane⟩ := y4.planesSolstice_spec o
  generalize y4.planesSolstice o = y5 at h5 hplane ⊢
  have hcut : (y5.hctxs.filter fun e => e.2.active) = [] := by
    subst h5 h4 h3 h2 h1
    exact List.filter_eq_nil_iff.mpr fun e he => by rw [hhctx e he]; exact Bool.false_ne_true
  have hcap5 : y5.capSolstice = y5 := by
    subst h5 h4 h3 h2 h1
    exact State.capSolstice_none (State.mapStamps_caps (g := Cap.active) (fun _ _ _ _ => rfl) hcap)
  rw [hcut, List.map_nil, State.each_nil, hcap5]
  obtain ⟨⟨tt, h6⟩, httl⟩ := y5.each_ttlSolstice
  generalize y5.each (List.range 33) State.ttlSolstice = y6 at h6 httl ⊢
  obtain ⟨⟨g', e', p', o', b', h7⟩, hreg7⟩ := y6.setAligned_false
  generalize y6.setAligned false = y7 at h7 hreg7 ⊢
  have hseq : y7.seqSolstice = y7 := by
    subst h7 h6 h5 h4 h3 h2 h1
    exact State.seqSolstice_none hctx
  rw [hseq]
  have hcaps (hfull : ∀ e ∈ s.caps, e.2.full = false) := State.mapStamps_caps (f := s.restamp s.solEdge) (g := Cap.full) (fun _ _ _ _ => rfl) hfull
  subst h7 h6 h5 h4 h3 h2 h1
  exact ⟨rfl, rfl, rfl, rfl, hcaps, fun a ha => (hreg7 a ha).trans (hreg a ha), hstamper, href, httl, rfl, hcko, hplane, htout⟩

/-! ### The application edge -/

/-- The state at the application edge once SYNC_OUT has risen and every clock output has left its rule. -/
def State.solBegun (s : State) (a : Nat) : State :=
  let s0 := { s with now := a }
  (if s0.sol.risen then s0 else s0.syncRise (a - s.rfld sSol 0x014 16 8)).each (List.range 16) State.ckoMove

theorem State.solBegun_spec (s : State) (a : Nat) : (∃ so ou c, s.solBegun a = { s with now := a, sol := so, out := ou, ckos := c }) ∧
    (s.solBegun a).sol.armed = s.sol.armed ∧ (s.solBegun a).sol.count = s.sol.count ∧ ∀ n, n < 16 →
      ((s.solBegun a).cko n).from' = max (2000 * (a : Int)) (({ s with now := a } : State).ckoFall n + 2000) ∧
      ((s.solBegun a).cko n).highUntil = ({ s with now := a } : State).ckoFall n := by
  unfold State.solBegun
  dsimp only
  obtain ⟨so, ou, hrise, harmed, hcount⟩ : ∃ so ou, (if s.sol.risen then { s with now := a } else ({ s with now := a } : State).syncRise
      (a - s.rfld sSol 0x014 16 8)) = { s with now := a, sol := so, out := ou } ∧ so.armed = s.sol.armed ∧ so.count = s.sol.count := by
    split
    · exact ⟨_, _, rfl, rfl, rfl⟩
    · exact ⟨_, _, rfl, rfl, rfl⟩
  rw [hrise]
  obtain ⟨⟨c, hmove⟩, hcko⟩ := ({ s with now := a, sol := so, out := ou } : State).each_ckoMove
  have hsame (n : Nat) : ({ s with now := a } : State).SameCko n { s with now := a, sol := so, out := ou } :=
    ⟨rfl, rfl, rfl, rfl, Iff.rfl, fun _ _ _ => rfl⟩
  refine ⟨⟨so, ou, c, hmove⟩, ?_, ?_, fun n hn => ?_⟩
  · rw [hmove]
    exact harmed
  · rw [hmove]
    exact hcount
  · rw [← (hsame n).fall]
    exact hcko n hn

/-- The record of the request, as the application edge leaves it. -/
def Sol.applied (x : Sol) (o a : Nat) (src : SolSrc) : Sol :=
  { x with fixed := none, atPend := none, reqEdge := none, goEdge := none, prevEdge := o, last := some a, lastSrc := src,
           count := (x.count + 1) % 65536, risen := false }

/-- The epoch that a Solstice ends, at its application edge. -/
def State.lastEpoch (s : State) (a : Nat) : Nat := ((a - s.solEdge) * 2000) % 2 ^ 64

theorem State.lastEpoch_mod (s : State) (a : Nat) : s.lastEpoch a % 2 ^ 64 = s.lastEpoch a := by
  unfold State.lastEpoch
  exact Nat.mod_mod _ _

/-- A state with a new origin in force. -/
def State.turned (s : State) (o a : Nat) (src : SolSrc) : State := { s with solEdge := a, wraps := 0, sol := s.sol.applied o a src }

theorem State.turned_cko (s : State) (o a : Nat) (src : SolSrc) (n : Nat) : (s.turned o a src).cko n = s.cko n := rfl

/-- The state at the application edge with the new origin in force. -/
def State.solTurned (s : State) (a : Nat) (src : SolSrc) : State := (s.solBegun a).turned s.solEdge a src

theorem State.solTurned_eq (s : State) (a : Nat) (src : SolSrc) : ∃ so ou c,
    s.solTurned a src = { s with now := a, sol := so, out := ou, ckos := c, solEdge := a, wraps := 0 } := by
  obtain ⟨⟨so, ou, c, hbegun⟩, -⟩ := s.solBegun_spec a
  unfold State.solTurned
  rw [hbegun]
  exact ⟨_, _, _, rfl⟩

theorem State.solTurned_cko (s : State) (a : Nat) (src : SolSrc) (n : Nat) : (s.solTurned a src).cko n = (s.solBegun a).cko n :=
  State.turned_cko _ _ _ _ n

/-- A Solstice told in LAST_EPOCH and in the events of SOL. -/
def State.solTold (s : State) (last : Nat) (late : Bool) : State :=
  (if late then (s.setReg64 sSol 0x028 last).evt sSol 2 else s.setReg64 sSol 0x028 last).evt sSol 0

theorem State.solTold_spec (s : State) (last : Nat) (late : Bool) : Side s (s.solTold last late) ∧
    (s.solTold last late).reg64 sSol 0x028 = last % 2 ^ 64 ∧ bit ((s.solTold last late).reg (ra sSol 0x008)) 0 = true ∧
    (late = true → bit ((s.solTold last late).reg (ra sSol 0x008)) 2 = true) := by
  have hlast : (s.setReg64 sSol 0x028 last).reg64 sSol 0x028 = last % 2 ^ 64 := State.reg64_setReg64 _ _ _ _
  have hset : Side s (s.setReg64 sSol 0x028 last) := (State.setReg_side _ _ _).trans (State.setReg_side _ _ _)
  unfold State.solTold
  generalize s.setReg64 sSol 0x028 last = y at hlast hset ⊢
  cases late
  · refine ⟨hset.trans (y.evt_side _ _), ?_, State.evt_bit _ (by decide), fun h => absurd h Bool.false_ne_true⟩
    rw [if_neg Bool.false_ne_true, State.evt_reg64_of_ne _ _ _ (by decide) (by decide) (by decide) (by decide), hlast]
  · refine ⟨hset.trans ((y.evt_side _ _).trans (State.evt_side _ _ _)), ?_, State.evt_bit _ (by decide), fun _ =>
      State.evt_bit_keep _ _ _ (State.evt_bit _ (by decide))⟩
    rw [if_pos rfl, State.evt_reg64_of_ne _ _ _ (by decide) (by decide) (by decide) (by decide),
      State.evt_reg64_of_ne _ _ _ (by decide) (by decide) (by decide) (by decide), hlast]

theorem State.solApply_eq (s : State) (a : Nat) (src : SolSrc) (isAt : Bool) : s.solApply a src isAt =
    ({ (((s.solTurned a src).solTold (s.lastEpoch a) (!isAt && s.sol.atPend.isSome)).solStages s.solEdge (s.lastEpoch a)).bbrPush 10 sSol
      [solCode src, s.lastEpoch a % 2 ^ 32, s.lastEpoch a / 2 ^ 32] with now := s.now } : State).settle := rfl

/-- The state that the stages meet at the application edge: all that the stages read of it. -/
theorem State.solMoved_eq (s : State) (a : Nat) (src : SolSrc) (last : Nat) (late : Bool) : ∃ so ou c r e p b,
    (s.solTurned a src).solTold last late =
      { s with now := a, sol := so, out := ou, ckos := c, solEdge := a, wraps := 0, regs := r, evtAt := e, pba := p, bbr := b } := by
  obtain ⟨hside, -⟩ := (s.solTurned a src).solTold_spec last late
  obtain ⟨so, ou, c, hturn⟩ := s.solTurned_eq a src
  rw [hturn] at hside ⊢
  obtain ⟨_, _, _, _, _, hside⟩ := hside
  exact ⟨_, _, _, _, _, _, _, hside⟩

theorem State.solApply_done (hset : s.Settled) (hctx : s.runningCtxs = []) (hmeas : ∀ e ∈ s.meas, e.2.armed = false)
    (htile : ∀ n, n < 64 → s.tileMode n = 0) (hhctx : ∀ e ∈ s.hctxs, e.2.active = false) (hcap : ∀ e ∈ s.caps, e.2.active = false)
    (a : Nat) (src : SolSrc) (isAt : Bool) : ∃ y x,
    ((s.solTurned a src).solTold (s.lastEpoch a) (!isAt && s.sol.atPend.isSome)).SolsticeDone s.solEdge y ∧ Side y x ∧
      (∀ i, i / 0x400 = sSol → x.reg i = y.reg i) ∧ s.solApply a src isAt = { x with now := s.now } := by
  rw [State.solApply_eq]
  obtain ⟨so, ou, c, r, e, p, b, hmoved⟩ := s.solMoved_eq a src (s.lastEpoch a) (!isAt && s.sol.atPend.isSome)
  generalize (s.solTurned a src).solTold (s.lastEpoch a) (!isAt && s.sol.atPend.isSome) = z at hmoved ⊢
  have hdone : z.SolsticeDone s.solEdge (z.solStages s.solEdge (s.lastEpoch a)) := by
    subst hmoved
    exact State.solStages_done _ _ hctx hmeas htile hhctx hcap
  generalize z.solStages s.solEdge (s.lastEpoch a) = y at hdone ⊢
  have hside := y.bbrPush_side 10 sSol [solCode src, s.lastEpoch a % 2 ^ 32, s.lastEpoch a / 2 ^ 32]
  have hreg (i : Nat) (hi : i / 0x400 = sSol) := State.bbrPush_reg_page (s := y) (a := i) 10 sSol
    [solCode src, s.lastEpoch a % 2 ^ 32, s.lastEpoch a / 2 ^ 32] (by rw [hi]; decide)
  generalize y.bbrPush 10 sSol [solCode src, s.lastEpoch a % 2 ^ 32, s.lastEpoch a / 2 ^ 32] = x at hside hreg ⊢
  refine ⟨y, x, hdone, hside, hreg, State.settle_id ?_⟩
  obtain ⟨_, _, _, _, _, rfl⟩ := hside
  obtain ⟨hfull, hst⟩ := hset
  refine ⟨hdone.caps ?_, fun k => ?_⟩
  · rw [hmoved]
    exact hfull
  · have hk : y.ctx k = s.ctx k := by
      rw [State.ctx, hdone.ctxs, hmoved]
      rfl
    exact hk ▸ hst k

/-- Settles O36: the effect at the edge, then each stage by its own lemma. -/
theorem solsticeStages : Obligations.SolsticeStages := by
  intro s t a src isAt hpow hset hctx hwait hcome hmeas htile hhctx hcap
  have happly : (s.advance t).solstice = (s.advance t).solApply a src isAt := by
    rw [State.solstice, show (s.advance t).solWaits = some (a, src, isAt) from hwait]
    exact if_pos hcome
  obtain ⟨-, harmed, hcount, hmove⟩ := (s.advance t).solBegun_spec a
  obtain ⟨hside, hlast, hbit, hlate⟩ := ((s.advance t).solTurned a src).solTold_spec ((s.advance t).lastEpoch a) (!isAt && s.sol.atPend.isSome)
  obtain ⟨so, ou, c, r, e, p, b, hmoved⟩ := (s.advance t).solMoved_eq a src ((s.advance t).lastEpoch a) (!isAt && s.sol.atPend.isSome)
  obtain ⟨y, x, hdone, hxside, hxreg, hx⟩ := State.solApply_done (s := s.advance t) hset hctx hmeas htile hhctx hcap a src isAt
  rw [hx] at happly
  have hsol := hside.sol
  have hcko := hside.cko
  rw [show ({ s.advance t with now := a } : State) = { s with now := a } from rfl] at hmove
  change ((s.advance t).solTurned a src).solTold ((s.advance t).lastEpoch a) (!isAt && s.sol.atPend.isSome) |>.SolsticeDone s.solEdge y at hdone
  generalize ((s.advance t).solTurned a src).solTold ((s.advance t).lastEpoch a) (!isAt && s.sol.atPend.isSome) = z at *
  have hstep : ∃ l, exec (.solstice t) s = .next ((({ x with now := max s.now t, flagLog := l } : State).keep s (max s.now t)).setOrigin
      (s.advance t).solOrigin) := by
    obtain ⟨l, hl⟩ := ({ x with now := max s.now t } : State).noteFlags_eq
    refine ⟨l, (exec_solstice t s).trans ((if_neg (by rw [hpow.1]; exact Bool.false_ne_true)).trans ?_)⟩
    rw [happly]
    exact congrArg (fun d : State => Host.Outcome.next ((d.keep s (max s.now t)).setOrigin (s.advance t).solOrigin)) hl
  obtain ⟨l, hstep⟩ := hstep
  refine ⟨_, hstep, ?_⟩
  have hz : z.sol = ((s.advance t).solBegun a).sol.applied s.solEdge a src := hsol
  have hysol : y.sol = ((s.advance t).solBegun a).sol.applied s.solEdge a src := hdone.sol.trans hz
  have hregs (i : Nat) (hi : i < 0x400) : x.reg (ra sSol i) = z.reg (ra sSol i) :=
    (hxreg _ (ra_div sSol i hi)).trans (hdone.reg _ (ra_div sSol i hi))
  have hx64 : x.reg64 sSol 0x028 = ((a - s.solEdge) * 2000) % 2 ^ 64 := by
    rw [State.reg64, hregs _ (by decide), hregs _ (by decide)]
    exact hlast.trans (State.lastEpoch_mod (s.advance t) a)
  have hx8 : x.reg (ra sSol 0x008) = z.reg (ra sSol 0x008) := hregs _ (by decide)
  have hedge : z.solEdge = a := by rw [hmoved]
  have hstamper (c : Nat) (hc : c < 102) : y.stamper c = (s.stamper c).restamped a := by
    rw [hdone.stamper c hc, hedge, hmoved]
    rfl
  have href (k : Nat) (hk : k < 4) : y.ref k = { s.ref k with adoptDue := true } := by
    rw [hdone.ref k hk, hmoved]
    rfl
  have hckos (hwait : s.ckoWait = []) (n : Nat) (hn : n < 16) : (y.cko n).from' = max (2000 * (a : Int)) (({ s with now := a } : State).ckoFall n + 2000) ∧
      (y.cko n).highUntil = ({ s with now := a } : State).ckoFall n := by
    have hzwait : z.ckoWait = [] := by
      rw [hmoved]
      exact hwait
    obtain ⟨hfrom, hhigh⟩ := hdone.cko hzwait n
    rw [hfrom, hhigh, hcko n, State.solTurned_cko]
    exact hmove n hn
  have hplane (n : Nat) (hn : n < 4) (hact : (s.plane n).active = true) : y.plane n = (s.plane n).solsticed s.solEdge a := by
    have hzplane : z.plane n = s.plane n := by
      rw [hmoved]
      rfl
    rw [hdone.plane n hn (by rw [hzplane]; exact hact), hzplane, hedge]
  have htouts (n : Nat) : (y.tout n).queue = (s.tout n).queue ∧ (y.tout n).transit = (s.tout n).transit ∧ (y.tout n).flight = (s.tout n).flight := by
    have hztout : z.tout n = s.tout n := by
      rw [hmoved]
      rfl
    rw [← hztout]
    exact hdone.tout n
  have hctxs : y.ctxs = s.ctxs := hdone.ctxs.trans (by rw [hmoved]; rfl)
  have htab : y.tab = s.tab := hdone.tab.trans (by rw [hmoved]; rfl)
  have hnvm : y.nvm = s.nvm := hdone.nvm.trans (by rw [hmoved]; rfl)
  have hbit2 (h : isAt = false) (hat : s.sol.atPend ≠ none) : bit (x.reg (ra sSol 0x008)) 2 = true := by
    rw [hx8]
    refine hlate ?_
    rw [h, Option.isSome_iff_ne_none.mpr hat]
    rfl
  have hbit0 : bit (x.reg (ra sSol 0x008)) 0 = true := by
    rw [hx8]
    exact hbit
  have httl (k : Nat) (hk : k < 33) : (y.ttl k).valid = false ∧ (y.ttl k).avg = [] ∧ (y.ttl k).tx = none := by
    rw [hdone.ttl k hk]
    exact ⟨rfl, rfl, rfl⟩
  have haligned := hdone.aligned
  clear hdone hmoved hregs hxreg hstep hx happly
  obtain ⟨_, _, _, _, _, rfl⟩ := hxside
  refine ⟨(congrArg Sol.fixed hysol :), (congrArg Sol.atPend hysol :), (congrArg Sol.last hysol :), (congrArg Sol.lastSrc hysol :),
    (congrArg Sol.count hysol).trans (congrArg (fun k => (k + 1) % 65536) hcount), (congrArg Sol.armed hysol).trans harmed, hx64, hbit0, hbit2,
    (congrArg Sol.prevEdge hysol :), (congrArg Sol.goEdge hysol :), fun c hc => ?_, fun k hk => ?_, httl, haligned, hckos, hplane,
    fun n _ => htouts n, hctxs, htab, hnvm⟩
  · refine (hstamper c hc).trans ?_
    simp only [Stamper.restamped, List.any_eq_true, decide_eq_true_eq]
  · have hk' := href k hk
    exact ⟨(congrArg Ref.adoptDue hk' :), (congrArg Ref.qualified hk' :)⟩

end Sys2Proof.Machine
end

section
/-! Proofs about two-way time transfer (03_solstice_and_time_transfer.md, R69 to R73). -/

namespace Sys2Proof.Machine

variable {s x y : State} {t a n k off slot ch : Nat} {p : Path} {v : Word} {r : RegInfo} {q : PageInfo}

/-- A state differs from another at most in its links and in what events and counters touch. -/
def State.TtlSide (s x : State) : Prop := Side { s with ttls := x.ttls } x

theorem State.TtlSide.refl (s : State) : s.TtlSide s := Side.refl s

theorem Side.ttlSide (h : Side s x) : s.TtlSide x := by
  obtain ⟨_, _, _, _, _, rfl⟩ := h
  exact ⟨_, _, _, _, _, rfl⟩

theorem State.setTtl_ttlSide (s : State) (k : Nat) (y : Ttl) : s.TtlSide (s.setTtl k y) := ⟨_, _, _, _, _, rfl⟩

theorem State.TtlSide.trans (h : s.TtlSide x) (k : x.TtlSide y) : s.TtlSide y := by
  unfold State.TtlSide at h k ⊢
  generalize x.ttls = l at h
  obtain ⟨_, _, _, _, _, rfl⟩ := h
  generalize y.ttls = m at k
  obtain ⟨_, _, _, _, _, rfl⟩ := k
  exact ⟨_, _, _, _, _, rfl⟩

theorem State.TtlSide.quiet (h : s.TtlSide x) : Quiet s x := by
  unfold State.TtlSide at h
  generalize x.ttls = l at h
  obtain ⟨_, _, _, _, _, rfl⟩ := h
  constructor <;> rfl

theorem Side.ttl (h : Side s x) (k : Nat) : x.ttl k = s.ttl k := by
  obtain ⟨_, _, _, _, _, rfl⟩ := h
  rfl

/-! ### An exchange begins, ends and is discarded -/

/-- A link with no exchange in progress. -/
def Ttl.idle (x : Ttl) : Ttl := { x with tx := none, echo := none, far := none, repRx := none, repTx := none, marked := none }

theorem State.ttlClear_ttl (s : State) (k : Nat) : (s.ttlClear k).ttl k = (s.ttl k).idle := State.setTtl_same _ _ _

theorem State.ttlClear_ttlSide (s : State) (k : Nat) : s.TtlSide (s.ttlClear k) := s.setTtl_ttlSide k _

/-- A marker has left at an edge. -/
def State.ttlBegun (s : State) (k e : Nat) : State := (s.ttlClear k).setTtl k { (s.ttl k).idle with marked := some e }

theorem State.ttlBegun_ttl (s : State) (k e : Nat) : (s.ttlBegun k e).ttl k = { (s.ttl k).idle with marked := some e } :=
  State.setTtl_same _ _ _

theorem State.ttlBegun_eq (s : State) (k e : Nat) : ∃ l, s.ttlBegun k e = { s with ttls := l } := ⟨_, rfl⟩

theorem State.ttlBegun_ttlSide (s : State) (k e : Nat) : s.TtlSide (s.ttlBegun k e) := ⟨_, _, _, _, _, rfl⟩

/-- Whether a marker is due. -/
def State.ttlDue (s : State) (k : Nat) : Prop := s.rbit (sTtl k) 0x014 0 = true ∧ 0 < s.now - s.solEdge ∧
  (s.now - s.solEdge) % (s.reg (ra (sTtl k) 0x018)).toNat = 0 ∧ (s.ttl k).marked ≠ some s.now

theorem State.ttlDue_iff (s : State) (k : Nat) : s.ttlDue k ↔ (s.rbit (sTtl k) 0x014 0 && decide (0 < s.now - s.solEdge) &&
    decide ((s.now - s.solEdge) % (s.reg (ra (sTtl k) 0x018)).toNat = 0) && decide ((s.ttl k).marked ≠ some s.now)) = true := by
  simp only [State.ttlDue, Bool.and_eq_true, decide_eq_true_eq, and_assoc]

theorem State.ttlMarker_idle {e : Nat} (h : ¬s.ttlDue k) : s.ttlMarker k e = s := if_neg fun hd => h ((s.ttlDue_iff k).mpr hd)

theorem State.ttlMarker_due {e : Nat} (h : s.ttlDue k) : s.ttlMarker k e =
    if k = 32 then (((s.ttlEnd k).ttlBegun k s.now).setTtl k { ((s.ttlEnd k).ttlBegun k s.now).ttl k with tx := some (e % 2 ^ 64) }).emit (.teOut s.now)
    else ((s.ttlEnd k).ttlBegun k s.now).markerPulse k := by
  have hbegun : ((s.ttlEnd k).ttlClear k).setTtl k { ((s.ttlEnd k).ttlClear k).ttl k with marked := some s.now } = (s.ttlEnd k).ttlBegun k s.now := by
    rw [State.ttlClear_ttl]
    rfl
  rw [← hbegun]
  exact if_pos ((s.ttlDue_iff k).mp h)

/-- Times of an exchange that are not all there. -/
def Ttl.lacks (x : Ttl) : Prop := x.tx = none ∨ x.echo = none ∨ x.far = none ∨ x.repRx = none ∨ x.repTx = none

theorem State.ttlSolve_lacks (h : (s.ttl k).lacks) : s.ttlSolve k = s := by
  unfold State.ttlSolve
  dsimp only
  split
  next htx hecho hfar hrx hftx =>
    rcases h with h | h | h | h | h
    · exact absurd (h.symm.trans htx) (Option.some_ne_none _).symm
    · exact absurd (h.symm.trans hecho) (Option.some_ne_none _).symm
    · exact absurd (h.symm.trans hfar) (Option.some_ne_none _).symm
    · exact absurd (h.symm.trans hrx) (Option.some_ne_none _).symm
    · exact absurd (h.symm.trans hftx) (Option.some_ne_none _).symm
  · rfl

theorem State.ttlEnd_none (hmark : (s.ttl k).marked = none) (htx : (s.ttl k).tx = none) : s.ttlEnd k = s := by
  rw [State.ttlEnd, State.ttlSolve_lacks (.inl htx), hmark]
  rfl

theorem State.ttlEnd_lacks {m : Nat} (hmark : (s.ttl k).marked = some m) (h : (s.ttl k).lacks) :
    ((s.ttl k).tx = none ∨ (s.ttl k).echo = none ∨ (s.ttl k).far = none → s.ttlEnd k = s.ttlDiscard k 1) ∧
    ((s.ttl k).tx ≠ none → (s.ttl k).echo ≠ none → (s.ttl k).far ≠ none → s.ttlEnd k = s.ttlDiscard k 3) := by
  have hend : s.ttlEnd k = if (s.ttl k).tx.isNone || (s.ttl k).echo.isNone || (s.ttl k).far.isNone then s.ttlDiscard k 1 else s.ttlDiscard k 3 := by
    rw [State.ttlEnd, State.ttlSolve_lacks h, hmark]
    rfl
  rw [hend]
  refine ⟨fun hnone => if_pos ?_, fun htx hecho hfar => if_neg ?_⟩
  · simpa only [Bool.or_eq_true, Option.isNone_iff_eq_none, or_assoc] using hnone
  · simp only [Bool.or_eq_true, Option.isNone_iff_eq_none, not_or]
    exact ⟨⟨htx, hecho⟩, hfar⟩

theorem ra_off_ne {i j : Nat} (h : i ≠ j) (slot : Nat) : ra slot i ≠ ra slot j := fun e => h (Nat.add_left_cancel e)

/-- A 32-bit counter counts, and holds at its limit. -/
theorem State.bump32_one (s : State) (slot off : Nat) : (s.bump32 slot off 1).reg (ra slot off) =
    BitVec.ofNat 32 (min ((s.reg (ra slot off)).toNat + 1) (2 ^ 32 - 1)) := State.setReg_reg_same _ _ _

/-- What a discarded exchange leaves (R72). -/
def State.TtlFailed (s : State) (k why : Nat) (x : State) : Prop :=
  (x.ttl k).lastFail = why ∧ (x.ttl k).avg = (s.ttl k).avg ∧ (x.ttl k).valid = (s.ttl k).valid ∧
    x.reg (ra (sTtl k) 0x03C) = BitVec.ofNat 32 (min ((s.reg (ra (sTtl k) 0x03C)).toNat + 1) (2 ^ 32 - 1)) ∧
    bit (x.reg (ra (sTtl k) 0x008)) 1 = true

theorem State.ttlDiscard_ttlSide (s : State) (k why : Nat) : s.TtlSide (s.ttlDiscard k why) :=
  ((s.setTtl_ttlSide k _).trans (State.ttlClear_ttlSide _ k)).trans ((State.bump32_side _ _ _ _).trans (State.evt_side _ _ _)).ttlSide

theorem State.ttlDiscard_reg_page (why : Nat) (h : a / 0x400 ≠ sTtl k) : (s.ttlDiscard k why).reg a = s.reg a := by
  rw [State.ttlDiscard, State.evt_reg_page _ h]
  exact State.setReg_reg_ne _ _ (ra_ne_of_page (by decide) h)

theorem State.ttlDiscard_failed (s : State) (k why : Nat) : s.TtlFailed k why (s.ttlDiscard k why) := by
  have httl : (s.ttlDiscard k why).ttl k = { s.ttl k with lastFail := why }.idle := by
    rw [State.ttlDiscard, (State.evt_side _ _ _).ttl, (State.bump32_side _ _ _ _).ttl, State.ttlClear_ttl, State.setTtl_same]
  refine ⟨?_, ?_, ?_, ?_, State.evt_bit _ (by decide)⟩
  · rw [httl]
    rfl
  · rw [httl]
    rfl
  · rw [httl]
    rfl
  · rw [State.ttlDiscard, State.evt_reg_of_ne _ (ra_off_ne (by decide) _) (ra_off_ne (by decide) _), State.bump32_one]
    rfl

theorem State.TtlFailed.begun (h : s.TtlFailed k a x) (e : Nat) : s.TtlFailed k a (x.ttlBegun k e) := by
  obtain ⟨hlast, havg, hvalid, hreg, hbit⟩ := h
  unfold State.TtlFailed
  rw [State.ttlBegun_ttl]
  exact ⟨hlast, havg, hvalid, hreg, hbit⟩

/-! ### The marker pulse (R71) -/

theorem State.markerPulse_none (h : s.toSrc n ≠ 3 ∨ (s.tout n).gatedStop = true ∨ s.inReset (sTout n) = true) : s.markerPulse n = s := if_pos h

theorem State.markerPulse_gated (hsrc : s.toSrc n = 3) (hreset : s.inReset (sTout n) = false) (hstop : (s.tout n).gatedStop = false)
    (hgated : (s.tout n).gatedLock = true ∨ (s.tout n).gatedDorm = true) : s.markerPulse n = (s.bump64 (sTout n) 0x064 1).evt (sTout n) 3 := by
  refine (if_neg ?_).trans (if_pos ?_)
  · rw [hsrc, hreset, hstop]
    simp
  · rw [Tout.gated, hstop]
    simpa using hgated

/-- The two transitions of a marker pulse of 8 ns that leaves now. -/
def State.markerTrans (s : State) (n : Nat) : List Trans :=
  s.transOf n { level := false, value := true, tP := s.phys + s.toDeskew n, width := 32_000, marker := true }

theorem State.markerPulse_leaves (hsrc : s.toSrc n = 3) (hreset : s.inReset (sTout n) = false) (hgated : (s.tout n).gated = false) :
    s.markerPulse n = (s.setTout n { s.tout n with flight := (s.markerTrans n).foldl (fun l t => insTrans t l) (s.tout n).flight }).bump64
      (sTout n) 0x044 1 := by
  have hstop : (s.tout n).gatedStop = false := by
    simp only [Tout.gated, Bool.or_eq_false_iff] at hgated
    exact hgated.1.2
  refine (if_neg ?_).trans (if_neg ?_)
  · rw [hsrc, hreset, hstop]
    simp
  · rw [hgated]
    exact Bool.false_ne_true

theorem mem_insTrans (w z : Trans) (l : List Trans) : w ∈ insTrans z l ↔ w = z ∨ w ∈ l := by
  induction l with
  | nil => simp [insTrans]
  | cons d l ih =>
    unfold insTrans
    split
    · rw [List.mem_cons, ih, List.mem_cons]
      tauto
    · rw [List.mem_cons]

theorem State.markerTrans_eq (s : State) (n : Nat) : ∃ d e, s.markerTrans n = [d, e] ∧
    (d.p = s.phys ∧ d.leading = true ∧ d.active = true ∧ d.high = !s.toInv n ∧ d.marker = true) ∧
    e.p = s.phys + 32_000 ∧ e.active = false ∧ e.high = s.toInv n := by
  have hp : s.placeP n { level := false, value := true, tP := s.phys + s.toDeskew n, width := 32_000, marker := true } = s.phys := by
    rw [State.placeP]
    exact add_sub_cancel_right _ _
  unfold State.markerTrans State.transOf
  dsimp only
  rw [hp]
  exact ⟨_, _, rfl, ⟨rfl, rfl, rfl, rfl, rfl⟩, rfl, rfl, rfl⟩

theorem mem_foldl_insTrans (w : Trans) (l m : List Trans) : w ∈ l.foldl (fun l t => insTrans t l) m ↔ w ∈ l ∨ w ∈ m := by
  induction l generalizing m with
  | nil => simp
  | cons d l ih =>
    rw [List.foldl_cons, ih, mem_insTrans, List.mem_cons]
    tauto

/-! ### A good exchange (R72, R73) -/

/-- The figures of an exchange, from its five times: θ and d doubled, and the miss of the round trip. -/
def State.ttlTheta (s : State) (k tx far rx ftx : Nat) : Int :=
  sdiff (s.farQps k rx) tx - sdiff far (s.farQps k ftx) - signed 32 (s.reg (ra (sTtl k) 0x020)).toNat

def State.ttlDelay (s : State) (k tx far rx ftx : Nat) : Int := sdiff (s.farQps k rx) tx + sdiff far (s.farQps k ftx)

def State.ttlMiss (s : State) (k tx echo far rx ftx : Nat) : Nat :=
  (sdiff echo tx - (s.ttlDelay k tx far rx ftx + (s.reg (ra (sTtl k) 0x01C)).toNat)).natAbs

theorem State.ttlSolve_all {tx echo far rx ftx : Nat} (htx : (s.ttl k).tx = some tx) (hecho : (s.ttl k).echo = some echo)
    (hfar : (s.ttl k).far = some far) (hrx : (s.ttl k).repRx = some rx) (hftx : (s.ttl k).repTx = some ftx) : s.ttlSolve k =
    if s.rfld (sTtl k) 0x024 0 24 < s.ttlMiss k tx echo far rx ftx then s.ttlDiscard k 2
    else s.ttlGood k tx (s.ttlTheta k tx far rx ftx) (s.ttlDelay k tx far rx ftx) := by
  unfold State.ttlSolve
  dsimp only
  rw [htx, hecho, hfar, hrx, hftx]
  rfl

/-- The averages and their registers, from the exchanges that count. -/
def State.ttlShown (s : State) (k : Nat) (th : Int) (avg : List (Int × Int)) : State :=
  let n := avg.length
  let sum := (avg.map (·.1)).sum
  let s1 := (s.setTtl k { s.ttl k with avg := avg, valid := true }).bump32 (sTtl k) 0x038 1
  ((s1.setReg64 (sTtl k) 0x028 (m64 (rne sum (2 * n)))).setRegN (sTtl k) 0x030
    (min (2 ^ 32 - 1) (rne (avg.map (·.2)).sum (2 * n)).toNat)).setRegN (sTtl k) 0x034 (unsign 32 (satSigned 32 (rne (th * n - sum) (2 * n))))

theorem State.ttlGood_use0 {tx : Nat} {th d : Int} (huse : s.rfld (sTtl k) 0x014 1 2 = 0) : s.ttlGood k tx th d =
    let z := s.ttlShown k th (((th, d) :: (s.ttl k).avg).take (2 ^ s.rfld (sTtl k) 0x014 16 4))
    (if (s.ttl k).valid then z else z.evt (sTtl k) 0).ttlClear k := by
  unfold State.ttlGood
  dsimp only
  rw [huse]
  rfl

theorem State.setReg64_side (s : State) (slot off m : Nat) : Side s (s.setReg64 slot off m) :=
  (State.setReg_side _ _ _).trans (State.setReg_side _ _ _)

theorem State.ttlShown_spec (s : State) (k : Nat) (th : Int) (avg : List (Int × Int)) : s.TtlSide (s.ttlShown k th avg) ∧
    (s.ttlShown k th avg).ttl k = { s.ttl k with avg := avg, valid := true } ∧
    (s.ttlShown k th avg).reg64 (sTtl k) 0x028 = m64 (rne (avg.map (·.1)).sum (2 * avg.length)) ∧
    (s.ttlShown k th avg).reg (ra (sTtl k) 0x030) = BitVec.ofNat 32 (min (2 ^ 32 - 1) (rne (avg.map (·.2)).sum (2 * avg.length)).toNat) := by
  unfold State.ttlShown
  dsimp only
  generalize hy : s.setTtl k { s.ttl k with avg := avg, valid := true } = y
  have hyside : s.TtlSide y := hy ▸ s.setTtl_ttlSide k _
  have hyttl : y.ttl k = { s.ttl k with avg := avg, valid := true } := hy ▸ State.setTtl_same _ _ _
  have hbump := y.bump32_side (sTtl k) 0x038 1
  generalize y.bump32 (sTtl k) 0x038 1 = z at hbump ⊢
  have hset := z.setReg64_side (sTtl k) 0x028 (m64 (rne (avg.map (·.1)).sum (2 * avg.length)))
  have h64 := State.reg64_setReg64 z (sTtl k) 0x028 (m64 (rne (avg.map (·.1)).sum (2 * avg.length)))
  generalize z.setReg64 (sTtl k) 0x028 (m64 (rne (avg.map (·.1)).sum (2 * avg.length))) = w at hset h64 ⊢
  have hside := (hbump.trans hset).trans ((State.setReg_side w (ra (sTtl k) 0x030)
    (BitVec.ofNat 32 (min (2 ^ 32 - 1) (rne (avg.map (·.2)).sum (2 * avg.length)).toNat))).trans (State.setReg_side _ (ra (sTtl k) 0x034)
      (BitVec.ofNat 32 (unsign 32 (satSigned 32 (rne (th * avg.length - (avg.map (·.1)).sum) (2 * avg.length)))))))
  refine ⟨hyside.trans hside.ttlSide, (hside.ttl k).trans hyttl, ?_, ?_⟩
  · rw [← m64_mod, ← h64, State.reg64, State.reg64]
    unfold State.setRegN
    rw [State.setReg_reg_ne _ _ (ra_off_ne (by decide) _), State.setReg_reg_ne _ _ (ra_off_ne (by decide) _),
      State.setReg_reg_ne _ _ (ra_off_ne (by decide) _), State.setReg_reg_ne _ _ (ra_off_ne (by decide) _)]
  · unfold State.setRegN
    rw [State.setReg_reg_ne _ _ (ra_off_ne (by decide) _), State.setReg_reg_same]

/-! ### PAIR_TE_IN -/

/-- The echo of link 32's marker: the first rising edge of PAIR_TE_IN after it. -/
theorem State.ttlTake_echo {tx : Nat} {st : Stamp} (htx : (s.ttl k).tx = some tx) (hecho : (s.ttl k).echo = none) (hup : st.rising = true)
    (hepoch : 2000 * (s.solEdge : Int) ≤ st.phys) (hafter : 0 < sdiff st.time tx) :
    s.ttlTake k st = s.setTtl k { s.ttl k with echo := some st.time } := by
  unfold State.ttlTake
  dsimp only
  rw [htx, hecho]
  refine if_pos ?_
  rw [hup, decide_eq_true hepoch, decide_eq_true hafter]
  rfl

/-- The state that an edge of PAIR_TE_IN leaves before link 32 sees it. -/
def State.teGiven (s : State) (te q : Nat) : State :=
  (s.plainStamp 101 4196 te q true 0).2.edgeGiven 4196 (s.plainStamp 101 4196 te q true 0).1

theorem State.teGiven_eq (s : State) (te q : Nat) : ∃ m i k f,
    s.teGiven te q = { s with stampers := m, condIn := i, measIn := k, fwds := f } := s.refGiven_eq 101 4196 te q true 0

/-- Settles O37, command by command. -/
theorem timeTransfer : Obligations.TimeTransfer := by
  intro s t k hpow u now x idle begun due failed
  have hdue : due ↔ u.ttlDue k := Iff.rfl
  refine ⟨fun hno e => ?_, fun hd hmark htx => ⟨fun hk e => ?_, fun hk e => ⟨fun hnone => ?_, fun hsrc hreset hstop hgated => ?_,
    fun hsrc hreset hopen => ?_⟩⟩, fun hd m hmark hsrc hk e => ?_, fun rx tx => ?_, fun hlacks => ?_,
    fun tx echo far rx ftx htx hecho hfar hrx hftx huse => ?_, fun tx te q hk htx hrx hecho => ?_⟩
  · exact next_of hpow (exec_ttlMarker t k e s) (State.ttlMarker_idle hno) (Quiet.refl u)
  · have hmarker := State.ttlMarker_due (e := e) (hdue.mp hd)
    rw [State.ttlEnd_none (s := u) hmark htx, if_pos (by rw [hk]; rfl), State.ttlBegun_ttl] at hmarker
    refine answers_of hpow (exec_ttlMarker t k e s) hmarker ?_ ⟨(u.ttlBegun k u.now).setTtl_same k { (u.ttl k).idle with marked := some u.now, tx := some (e % 2 ^ 64) }, rfl⟩
    exact (((u.ttlBegun_ttlSide k _).trans (State.setTtl_ttlSide _ k _)).trans (State.emit_side _ _).ttlSide).quiet
  · have hpulse : (u.ttlBegun k u.now).markerPulse k = u.ttlBegun k u.now := State.markerPulse_none hnone
    have hmarker := State.ttlMarker_due (e := e) (hdue.mp hd)
    rw [State.ttlEnd_none (s := u) hmark htx, if_neg (show ¬(k : Nat) = 32 from fun h => hk (Fin.ext h)), hpulse] at hmarker
    exact answers_of hpow (exec_ttlMarker t k e s) hmarker (u.ttlBegun_ttlSide k _).quiet ⟨u.ttlBegun_ttl k _, rfl⟩
  · have hmarker := State.ttlMarker_due (e := e) (hdue.mp hd)
    have hbegun := u.ttlBegun_ttl k u.now
    rw [State.ttlEnd_none (s := u) hmark htx, if_neg (show ¬(k : Nat) = 32 from fun h => hk (Fin.ext h))] at hmarker
    obtain ⟨l, hl⟩ := u.ttlBegun_eq k u.now
    rw [hl] at hmarker hbegun
    rw [State.markerPulse_gated (s := { u with ttls := l }) hsrc hreset hstop hgated] at hmarker
    have hbump := ({ u with ttls := l } : State).bump64_side (sTout k) 0x064 1
    have hcount := State.reg64_bump64 { u with ttls := l } (sTout k) 0x064 1
    generalize ({ u with ttls := l } : State).bump64 (sTout k) 0x064 1 = y at hmarker hbump hcount
    have hside := hbump.trans (y.evt_side (sTout k) 3)
    have hq : Quiet u (y.evt (sTout k) 3) := Quiet.trans (by constructor <;> rfl) hside.quiet
    refine answers_of hpow (exec_ttlMarker t k e s) hmarker hq ⟨(hside.ttl k).trans hbegun, ?_, State.evt_bit _ (by decide), ?_⟩
    · rw [State.evt_reg64_of_ne _ _ _ (ra_off_ne (by decide) _) (ra_off_ne (by decide) _) (ra_off_ne (by decide) _) (ra_off_ne (by decide) _), hcount]
      rfl
    · exact (show u.TtlSide { u with ttls := l } from ⟨_, _, _, _, _, rfl⟩).trans hside.ttlSide
  · have hmarker := State.ttlMarker_due (e := e) (hdue.mp hd)
    have hbegun := u.ttlBegun_ttl k u.now
    rw [State.ttlEnd_none (s := u) hmark htx, if_neg (show ¬(k : Nat) = 32 from fun h => hk (Fin.ext h))] at hmarker
    obtain ⟨l, hl⟩ := u.ttlBegun_eq k u.now
    rw [hl] at hmarker hbegun
    rw [State.markerPulse_leaves (s := { u with ttls := l }) hsrc hreset hopen] at hmarker
    obtain ⟨d, e', htrans, hlead, htrail⟩ := State.markerTrans_eq { u with ttls := l } k
    rw [htrans] at hmarker
    generalize hf : List.foldl (fun l t => insTrans t l) (({ u with ttls := l } : State).tout k).flight [d, e'] = f at hmarker
    have hmem (w : Trans) (hw : w = d ∨ w = e') : w ∈ f := by
      rw [← hf, mem_foldl_insTrans]
      exact .inl (by simpa using hw)
    have htout := State.setTout_same (s := { u with ttls := l }) k { ({ u with ttls := l } : State).tout k with flight := f }
    have hset : ({ u with ttls := l } : State).setTout k { ({ u with ttls := l } : State).tout k with flight := f } =
        { u with ttls := l, touts := (({ u with ttls := l } : State).setTout k { ({ u with ttls := l } : State).tout k with flight := f }).touts } := rfl
    generalize ({ u with ttls := l } : State).setTout k { ({ u with ttls := l } : State).tout k with flight := f } = y at hmarker htout hset
    have hbump := y.bump64_side (sTout k) 0x044 1
    have hcount := State.reg64_bump64 y (sTout k) 0x044 1
    generalize y.bump64 (sTout k) 0x044 1 = z at hmarker hbump hcount
    have hq : Quiet u z := by
      refine Quiet.trans ?_ hbump.quiet
      rw [hset]
      constructor <;> rfl
    have hztout : z.tout k = { s.tout k with flight := f } := (hbump.tout k).trans htout
    refine answers_of hpow (exec_ttlMarker t k e s) hmarker hq ⟨?_, ?_, ⟨d, ?_, hlead⟩, ⟨e', ?_, htrail⟩, ?_, ?_⟩
    · rw [hbump.ttl, hset]
      exact hbegun
    · rw [hztout]
    · rw [hztout]
      exact hmem d (.inl rfl)
    · rw [hztout]
      exact hmem e' (.inr rfl)
    · rw [hcount, hset]
      rfl
    · rw [hset] at hbump
      obtain ⟨_, _, _, _, _, rfl⟩ := hbump
      exact ⟨_, _, _, _, _, rfl⟩
  · have hfail (why : Nat) (hend : u.ttlEnd k = u.ttlDiscard k why) : Answers (.ttlMarker t k e) s (failed why) := by
      have hmarker := State.ttlMarker_due (e := e) (hdue.mp hd)
      have hsame : (u.ttlDiscard k why).toSrc k = s.toSrc k := by
        rw [State.toSrc, State.rfld, State.ttlDiscard_reg_page]
        · rfl
        · rw [ra_div _ _ (by decide)]
          unfold sTout sTtl
          omega
      have hpulse : ((u.ttlDiscard k why).ttlBegun k u.now).markerPulse k = (u.ttlDiscard k why).ttlBegun k u.now :=
        State.markerPulse_none (.inl (hsame ▸ hsrc))
      rw [hend, if_neg (show ¬(k : Nat) = 32 from fun h => hk (Fin.ext h)), hpulse] at hmarker
      exact answers_of hpow (exec_ttlMarker t k e s) hmarker ((u.ttlDiscard_ttlSide k why).trans (State.ttlBegun_ttlSide _ k _)).quiet
        ((u.ttlDiscard_failed k why).begun u.now)
    refine ⟨fun hnone => hfail 1 ?_, fun htx hecho hfar hreps => hfail 3 ?_⟩
    · refine (State.ttlEnd_lacks (s := u) hmark ?_).1 hnone
      rcases hnone with h | h | h
      · exact .inl h
      · exact .inr (.inl h)
      · exact .inr (.inr (.inl h))
    · exact (State.ttlEnd_lacks (s := u) hmark (.inr (.inr (.inr hreps)))).2 htx hecho hfar
  · exact next_of hpow (exec_ttlReport t k rx tx s) rfl (u.setTtl_ttlSide k _).quiet
  · have hsolve : u.ttlSolve k = u := State.ttlSolve_lacks hlacks
    refine next_of hpow (exec_ttlExchange t k [] s) ?_ (Quiet.refl u)
    rw [State.ttlExchange, State.each_nil, ite_self]
    exact hsolve
  · have hexch : u.ttlExchange k [] = if s.rfld (sTtl k) 0x024 0 24 < s.ttlMiss k tx echo far rx ftx then u.ttlDiscard k 2
        else u.ttlGood k tx (s.ttlTheta k tx far rx ftx) (s.ttlDelay k tx far rx ftx) := by
      rw [State.ttlExchange, State.each_nil, ite_self]
      exact State.ttlSolve_all (s := u) htx hecho hfar hrx hftx
    refine ⟨fun hmiss => ?_, fun hmiss => ?_⟩
    · exact answers_of hpow (exec_ttlExchange t k [] s) (hexch.trans (if_pos hmiss)) (u.ttlDiscard_ttlSide k 2).quiet (u.ttlDiscard_failed k 2)
    · replace hexch := hexch.trans (if_neg (not_lt.mpr hmiss))
      rw [State.ttlGood_use0 (s := u) huse] at hexch
      dsimp only at hexch
      obtain ⟨hshown, httl, h64, hreg⟩ := u.ttlShown_spec k (s.ttlTheta k tx far rx ftx)
        (((s.ttlTheta k tx far rx ftx, s.ttlDelay k tx far rx ftx) :: (u.ttl k).avg).take (2 ^ u.rfld (sTtl k) 0x014 16 4))
      generalize u.ttlShown k (s.ttlTheta k tx far rx ftx)
        (((s.ttlTheta k tx far rx ftx, s.ttlDelay k tx far rx ftx) :: (u.ttl k).avg).take (2 ^ u.rfld (sTtl k) 0x014 16 4)) = y at *
      have hnoted : Side y (if x.valid then y else y.evt (sTtl k) 0) := Side.ite (Side.refl y) (y.evt_side _ _)
      have hregs (i : Nat) (hi : 0x00C ≤ i) : (if x.valid then y else y.evt (sTtl k) 0).reg (ra (sTtl k) i) = y.reg (ra (sTtl k) i) := by
        split
        · rfl
        · exact State.evt_reg_of_ne _ (ra_off_ne (by omega) _) (ra_off_ne (by omega) _)
      have hbit (h : x.valid = false) : bit ((if x.valid then y else y.evt (sTtl k) 0).reg (ra (sTtl k) 0x008)) 0 = true := by
        rw [h]
        exact State.evt_bit _ (by decide)
      replace hexch : u.ttlExchange k [] = (if x.valid then y else y.evt (sTtl k) 0).ttlClear k := hexch
      generalize (if x.valid then y else y.evt (sTtl k) 0) = z at hexch hnoted hregs hbit
      have hside := (hshown.trans hnoted.ttlSide).trans (z.ttlClear_ttlSide k)
      refine answers_of hpow (exec_ttlExchange t k [] s) hexch hside.quiet ⟨?_, ?_, (hregs 0x030 (by decide)).trans hreg, hbit, hside⟩
      · rw [State.ttlClear_ttl, hnoted.ttl, httl]
        rfl
      · have h64' : z.reg64 (sTtl k) 0x028 = y.reg64 (sTtl k) 0x028 := by
          rw [State.reg64, hregs _ (by decide), hregs _ (by decide), State.reg64]
        exact h64'.trans h64
  · subst hk
    intro st made given hepoch hafter
    have hfull : u.ttlExchange 32 [(te, q)] = ((u.teGiven te q).ttlTake 32 st).ttlSolve 32 := rfl
    have hgiven : given = u.teGiven te q := rfl
    obtain ⟨m, i, w, f, hmade⟩ := u.teGiven_eq te q
    have hgttl : (u.teGiven te q).ttl 32 = x := by
      rw [hmade]
      rfl
    have hedge : (u.teGiven te q).solEdge = s.solEdge := by
      rw [hmade]
      rfl
    have htake := State.ttlTake_echo (s := u.teGiven te q) (k := 32) (st := st) (tx := tx) (by rw [hgttl]; exact htx) (by rw [hgttl]; exact hecho)
      rfl (by rw [hedge]; exact hepoch) hafter
    rw [htake, State.ttlSolve_lacks (.inr (.inr (.inr (.inl (by rw [State.setTtl_same, hgttl]; exact hrx))))), hgttl, ← hgiven] at hfull
    refine next_of hpow (exec_ttlExchange t 32 [(te, q)] s) hfull ?_
    refine Quiet.trans ?_ (State.setTtl_ttlSide given 32 _).quiet
    rw [hgiven, hmade]
    constructor <;> rfl

end Sys2Proof.Machine
end

section
/-! Proofs about the pair link (17_pair_redundancy.md, R333 to R335). -/

namespace Sys2Proof.Machine

variable {s x y : State} {t a n k off slot ch : Nat} {p : Path} {v : Word} {r : RegInfo} {q : PageInfo}

theorem Side.par (h : Side s x) : x.par = s.par := by
  obtain ⟨_, _, _, _, _, rfl⟩ := h
  rfl

theorem Side.tab (h : Side s x) : x.tab = s.tab := by
  obtain ⟨_, _, _, _, _, rfl⟩ := h
  rfl

theorem State.setPar_quiet {c : Par} (hcfg : c.cfg = s.par.cfg) (haligned : c.aligned = s.par.aligned) : Quiet s { s with par := c } :=
  ⟨rfl, rfl, rfl, rfl, rfl, rfl, rfl, hcfg, haligned, rfl⟩

/-! ### The link goes down (R334) -/

/-- The pair no longer aligned, the loss counted, told and recorded. -/
def State.pairLost (s : State) : State := (((s.setAligned false).bump64 sPar 0x040 1).evt sPar 3).bbrClaim 2

theorem State.pairDown_up (h : s.par.linkUp = true) :
    s.pairDown = ({ s with par := { s.par with linkUp := false, partnerLost := true } } : State).pairLost := if_pos h

theorem State.pairDown_down (h : s.par.linkUp = false) : s.pairDown = s := if_neg (by rw [h]; exact Bool.false_ne_true)

theorem State.setAligned_false_count (s : State) : (s.setAligned false).reg64 sPar 0x040 = s.reg64 sPar 0x040 := by
  unfold State.setAligned
  split
  · rfl
  · rw [State.evt_reg64_of_ne _ _ _ (by decide) (by decide) (by decide) (by decide)]
    rfl

theorem State.bbrClaim_side (s : State) (cause : Nat) : Side s (s.bbrClaim cause) := s.bbrPush_side _ _ _

theorem State.bbrClaim_reg (cause : Nat) (h : a / 0x400 = sPar) : (s.bbrClaim cause).reg a = s.reg a :=
  State.bbrPush_reg_page _ _ _ (by rw [h]; decide)

theorem State.pairLost_spec (s : State) : Side { s with par := { s.par with aligned := false } } s.pairLost ∧
    bit (s.pairLost.reg (ra sPar 0x008)) 3 = true ∧ s.pairLost.reg64 sPar 0x040 = min (s.reg64 sPar 0x040 + 1) (2 ^ 64 - 1) := by
  obtain ⟨hside, -⟩ := s.setAligned_false
  have hcount := s.setAligned_false_count
  unfold State.pairLost
  generalize s.setAligned false = y at hside hcount ⊢
  have hbump := y.bump64_side sPar 0x040 1
  have hone := State.reg64_bump64 y sPar 0x040 1
  generalize y.bump64 sPar 0x040 1 = z at hbump hone ⊢
  have hreg (i : Nat) (hi : i < 0x400) : ((z.evt sPar 3).bbrClaim 2).reg (ra sPar i) = (z.evt sPar 3).reg (ra sPar i) :=
    State.bbrClaim_reg 2 (ra_div sPar i hi)
  refine ⟨((hside.trans hbump).trans (z.evt_side sPar 3)).trans (State.bbrClaim_side _ 2), ?_, ?_⟩
  · rw [hreg _ (by decide)]
    exact State.evt_bit _ (by decide)
  · have hpair : ((z.evt sPar 3).bbrClaim 2).reg64 sPar 0x040 = (z.evt sPar 3).reg64 sPar 0x040 := by
      rw [State.reg64, hreg _ (by decide), hreg _ (by decide), State.reg64]
    rw [hpair, State.evt_reg64_of_ne _ _ _ (by decide) (by decide) (by decide) (by decide), hone, hcount]

/-- What the link's loss leaves. -/
def State.PairIsDown (s : State) (q : Par) (x : State) : Prop :=
  x.par = { q with linkUp := false, partnerLost := true, aligned := false } ∧ bit (x.reg (ra sPar 0x008)) 3 = true ∧
    x.reg64 sPar 0x040 = min (s.reg64 sPar 0x040 + 1) (2 ^ 64 - 1) ∧ x.tab = s.tab ∧ x.loop = s.loop

theorem State.pairDown_spec {q : Par} (h : q.linkUp = true) : s.PairIsDown q ({ s with par := q } : State).pairDown := by
  rw [State.pairDown_up h]
  obtain ⟨hside, hbit, hcount⟩ := State.pairLost_spec { s with par := { q with linkUp := false, partnerLost := true } }
  exact ⟨hside.par, hbit, hcount, hside.tab, hside.loop⟩

/-! ### STATE messages (R333) -/

/-- The pair's record after a STATE message. -/
def State.parTold (s : State) (claim uid : Nat) : Par :=
  { s.par with partner := claim, partnerId := some uid, stateAt := s.now, locks := 3, linkUp := true, partnerLost := false,
               idClash := decide (uid = s.parF 0 3) }

theorem State.pairState_eq (s : State) (claim uid : Nat) : s.pairState claim uid =
    let y : State := { s with par := s.parTold claim uid }
    let z := if s.par.linkUp then y else y.evt sPar 2
    if decide (uid = s.parF 0 3) && !s.par.idClash then z.evt sPar 8 else z := rfl

theorem State.pairState_spec (s : State) (claim uid : Nat) : Side { s with par := s.parTold claim uid } (s.pairState claim uid) ∧
    (s.par.linkUp = false → bit ((s.pairState claim uid).reg (ra sPar 0x008)) 2 = true) ∧
    (s.par.idClash = false → uid = s.parF 0 3 → bit ((s.pairState claim uid).reg (ra sPar 0x008)) 8 = true) := by
  rw [State.pairState_eq]
  dsimp only
  generalize ({ s with par := s.parTold claim uid } : State) = y
  have hup : Side y (if s.par.linkUp then y else y.evt sPar 2) := Side.ite (Side.refl y) (y.evt_side sPar 2)
  have hbit (h : s.par.linkUp = false) : bit ((if s.par.linkUp then y else y.evt sPar 2).reg (ra sPar 0x008)) 2 = true := by
    rw [h]
    exact State.evt_bit _ (by decide)
  generalize (if s.par.linkUp then y else y.evt sPar 2) = z at hup hbit ⊢
  refine ⟨hup.trans (Side.ite (z.evt_side sPar 8) (Side.refl z)), fun h => ?_, fun hclash hid => ?_⟩
  · split
    · exact State.evt_bit_keep _ _ _ (hbit h)
    · exact hbit h
  · rw [if_pos (by rw [hclash, decide_eq_true hid]; rfl)]
    exact State.evt_bit _ (by decide)

/-! ### The mirror (R333) -/

/-- One entry of the mirror table. -/
def State.mirrorPut (s : State) (e : (Word × Word) × Nat) : State := (s.setTabw (oMirror e.2 0) e.1.1).setTabw (oMirror e.2 1) e.1.2

theorem State.mirrorPut_tabw_ne {e : (Word × Word) × Nat} {i w : Nat} (hi : i ≠ e.2) (hw : w < 4) :
    (s.mirrorPut e).tabw (oMirror i w) = s.tabw (oMirror i w) := by
  rw [State.mirrorPut, State.setTabw_tabw_ne _ _ (by unfold oMirror; omega), State.setTabw_tabw_ne _ _ (by unfold oMirror; omega)]

theorem State.mirrorPut_tabw (s : State) (e : (Word × Word) × Nat) : (s.mirrorPut e).tabw (oMirror e.2 0) = e.1.1 ∧
    (s.mirrorPut e).tabw (oMirror e.2 1) = e.1.2 := by
  rw [State.mirrorPut, State.setTabw_tabw_same, State.setTabw_tabw_ne _ _ (by unfold oMirror; omega), State.setTabw_tabw_same]
  exact ⟨rfl, rfl⟩

theorem State.each_mirrorPut_below (l : List (Word × Word)) {i w : Nat} (hi : i < n) (hw : w < 4) :
    (s.each (l.zipIdx n) State.mirrorPut).tabw (oMirror i w) = s.tabw (oMirror i w) := by
  induction l generalizing s n with
  | nil => rfl
  | cons e l ih =>
    rw [List.zipIdx_cons, State.each_cons, ih (by omega), State.mirrorPut_tabw_ne (by exact Nat.ne_of_lt hi) hw]

theorem State.each_mirrorPut (l : List (Word × Word)) {i : Nat} {w0 w1 : Word} (h : l[i]? = some (w0, w1)) :
    (s.each (l.zipIdx n) State.mirrorPut).tabw (oMirror (n + i) 0) = w0 ∧ (s.each (l.zipIdx n) State.mirrorPut).tabw (oMirror (n + i) 1) = w1 := by
  induction l generalizing s n i with
  | nil => simp at h
  | cons e l ih =>
    rw [List.zipIdx_cons, State.each_cons]
    cases i with
    | zero =>
      obtain rfl : e = (w0, w1) := by simpa using h
      rw [State.each_mirrorPut_below l (by omega) (by decide), State.each_mirrorPut_below l (by omega) (by decide)]
      exact State.mirrorPut_tabw s ((w0, w1), n)
    | succ i =>
      have hnext := ih (s := s.mirrorPut (e, n)) (n := n + 1) (i := i) (by simpa using h)
      rwa [show n + 1 + i = n + (i + 1) by omega] at hnext

theorem State.each_mirrorPut_eq (l : List ((Word × Word) × Nat)) : ∃ m, s.each l State.mirrorPut = { s with tab := m } := by
  refine State.each_induct (f := State.mirrorPut) (P := fun u => ∃ m, u = { s with tab := m }) ?_ ⟨_, rfl⟩
  rintro _ e - ⟨_, rfl⟩
  exact ⟨_, rfl⟩

theorem State.mirrorIn_eq (s : State) (l : List (Word × Word)) (h : l.length = 512) : s.mirrorIn l =
    { s.each l.zipIdx State.mirrorPut with par := { s.par with mirrorAt := some s.now } } := by
  obtain ⟨m, hm⟩ := State.each_mirrorPut_eq (s := s) l.zipIdx
  have hlist : l.take 512 = l := List.take_of_length_le (Nat.le_of_eq h)
  rw [State.mirrorIn, hlist]
  rfl

/-- Settles O39, message by message. -/
theorem pairLink : Obligations.PairLink := by
  intro s t hpow u p down
  refine ⟨fun claim cause clk uid => ?_, ?_, fun hno => ?_, fun hlate hup => ?_, fun lane => ⟨fun hup => ?_, fun hup => ?_⟩, fun l hl => ?_,
    fun hwon => ?_, fun hwon => ?_⟩
  · obtain ⟨hside, hup, hclash⟩ := u.pairState_spec claim.toNat uid.toNat
    refine answers_of hpow (exec_pairState t claim cause clk uid s) rfl ?_ ⟨hside.par, hup, hclash, ?_⟩
    · exact (State.setPar_quiet (s := u) (c := u.parTold claim.toNat uid.toNat) rfl rfl).trans hside.quiet
    · rw [hside.par]
      exact hside
  · exact next_of hpow (exec_pairStateTx t s) rfl (State.emit_side u _).quiet
  · refine next_of hpow (exec_pairLinkTimeout t s) ?_ (Quiet.refl u)
    rcases hno with hno | hno
    · exact if_neg (not_le.mpr hno)
    · rw [State.pairTimeout, State.pairDown_down (s := u) hno, ite_self]
  · have htimeout : u.pairTimeout = u.pairDown := if_pos hlate
    have hspec := State.pairDown_spec (s := u) (q := p) hup
    refine answers_of_wrapped hpow (exec_pairLinkTimeout t s) fun _ => ?_
    rw [htimeout]
    change u.PairIsDown p u.pairDown at hspec
    generalize u.pairDown = y at hspec
    exact hspec
  · have hspec := State.pairDown_spec (s := u) (q := { p with locks := p.locks &&& (3 ^^^ 2 ^ lane.val) }) hup
    have hlane : u.pairLane lane = ({ u with par := { p with locks := p.locks &&& (3 ^^^ 2 ^ lane.val) } } : State).pairDown := rfl
    refine answers_of_wrapped hpow (exec_pairLaneLoss t lane s) fun _ => ?_
    change down _ ((u.pairLane lane).wrapped _ _ _)
    rw [hlane]
    generalize ({ u with par := { p with locks := p.locks &&& (3 ^^^ 2 ^ lane.val) } } : State).pairDown = y at hspec
    exact hspec
  · exact next_of hpow (exec_pairLaneLoss t lane s) (State.pairDown_down hup) (State.setPar_quiet rfl rfl)
  · have hmirror := u.mirrorIn_eq l hl
    have hput (i : Nat) (w0 w1 : Word) (h : l[i]? = some (w0, w1)) := State.each_mirrorPut (s := u) (n := 0) l h
    obtain ⟨m, hm⟩ := State.each_mirrorPut_eq (s := u) l.zipIdx
    rw [hm] at hmirror
    refine answers_of hpow (exec_mirror t l s) hmirror (by constructor <;> rfl) ⟨fun i w0 w1 h => ?_, rfl, rfl⟩
    have hi := hput i w0 w1 h
    rw [Nat.zero_add, hm] at hi
    exact hi
  · exact next_of hpow (exec_mirrorTx t s) (if_neg (by rw [show u.par.won = false from hwon]; exact Bool.false_ne_true)) (Quiet.refl u)
  · refine answers_of hpow (exec_mirrorTx t s) (if_pos hwon) (State.emit_side u _).quiet ⟨_, ?_, fun c hc => ?_, rfl⟩
    · rw [List.length_map, List.length_range]
    · rw [List.getElem?_map, List.getElem?_range hc]
      rfl

end Sys2Proof.Machine
end

section
/-! Proofs about the edges of the timing inputs (04_timing_inputs.md, R78 to R85, R95 to R99). -/

namespace Sys2Proof.Machine

variable {s x y : State} {t a n k i off slot ch : Nat} {p : Path} {v : Word} {r : RegInfo} {q : PageInfo}

theorem Side.stamper (h : Side s x) (c : Nat) : x.stamper c = s.stamper c := by
  obtain ⟨_, _, _, _, _, rfl⟩ := h
  rfl

theorem Side.tin (h : Side s x) (c : Nat) : x.tin c = s.tin c := by
  obtain ⟨_, _, _, _, _, rfl⟩ := h
  rfl

theorem Side.condIn (h : Side s x) : x.condIn = s.condIn := by
  obtain ⟨_, _, _, _, _, rfl⟩ := h
  rfl

theorem Side.measIn (h : Side s x) : x.measIn = s.measIn := by
  obtain ⟨_, _, _, _, _, rfl⟩ := h
  rfl

/-! ### Registers of one page -/

theorem State.evt_reg_above (s : State) (slot b : Nat) (h : 0x00C ≤ i) : (s.evt slot b).reg (ra slot i) = s.reg (ra slot i) :=
  State.evt_reg_of_ne b (ra_off_ne (by omega) _) (ra_off_ne (by omega) _)

theorem State.evt_reg64_above (s : State) (slot b : Nat) (h : 0x00C ≤ i) : (s.evt slot b).reg64 slot i = s.reg64 slot i := by
  rw [State.reg64, State.evt_reg_above _ _ _ h, State.evt_reg_above _ _ _ (by omega), State.reg64]

theorem State.setReg_reg64 (s : State) (slot : Nat) (v : Word) (h : off ≠ i) (h4 : off ≠ i + 4) :
    (s.setReg (ra slot off) v).reg64 slot i = s.reg64 slot i := by
  rw [State.reg64, State.setReg_reg_ne _ _ (ra_off_ne h _), State.setReg_reg_ne _ _ (ra_off_ne h4 _), State.reg64]

theorem State.setReg64_reg64 (s : State) (slot m : Nat) (h : off + 4 < i ∨ i + 4 < off) :
    (s.setReg64 slot off m).reg64 slot i = s.reg64 slot i := by
  rw [State.setReg64, State.setReg_reg64 _ _ _ (by omega) (by omega), State.setReg_reg64 _ _ _ (by omega) (by omega)]

theorem State.peak_side (s : State) (slot off m : Nat) : Side s (s.peak slot off m) :=
  Side.ite (State.setReg_side _ _ _) (Side.refl s)

theorem State.reg64_lt (s : State) (slot off : Nat) : s.reg64 slot off < 2 ^ 64 := by
  have hlo := (s.reg (ra slot off)).isLt
  have hhi := (s.reg (ra slot (off + 4))).isLt
  rw [State.reg64]
  omega

/-! ### Counts of the service report -/

theorem State.each_report_eq (s : State) (l : List Nat) (stage col m : Nat) :
    ∃ w, s.each l (fun s c => s.report c stage col m) = { s with tab := w } := by
  refine State.each_induct (P := fun u => ∃ w, u = { s with tab := w }) ?_ ⟨_, rfl⟩
  rintro _ e - ⟨_, rfl⟩
  exact ⟨_, rfl⟩

theorem State.reportSrc_eq (s : State) (src stage col : Nat) : ∃ w, s.reportSrc src stage col = { s with tab := w } :=
  s.each_report_eq _ stage col 1

/-! ### A refused edge -/

theorem State.tinClose_side (s : State) (ch : Nat) : Side s (s.tinClose ch) := (State.bump64_side _ _ _ _).trans (State.evt_side _ _ _)

theorem State.tinClose_reg64 (s : State) (ch : Nat) (hi : 0x00C ≤ i) (h : 0x034 < i ∨ i + 4 < 0x030) :
    (s.tinClose ch).reg64 (sTin ch) i = s.reg64 (sTin ch) i := by
  rw [State.tinClose, State.evt_reg64_above _ _ _ hi, State.bump64_reg64 (by omega)]

theorem State.tinClose_reg (s : State) (ch : Nat) (hi : 0x038 ≤ i) : (s.tinClose ch).reg (ra (sTin ch) i) = s.reg (ra (sTin ch) i) := by
  rw [State.tinClose, State.evt_reg_above _ _ _ (by omega), State.bump64_reg (ra_off_ne (by omega) _) (ra_off_ne (by omega) _)]

theorem State.tinClose_count (s : State) (ch : Nat) :
    (s.tinClose ch).reg64 (sTin ch) 0x030 = min (s.reg64 (sTin ch) 0x030 + 1) (2 ^ 64 - 1) := by
  rw [State.tinClose, State.evt_reg64_above _ _ _ (by decide), State.reg64_bump64]

theorem State.tinClose_bit (s : State) (ch : Nat) : bit ((s.tinClose ch).reg (ra (sTin ch) 0x008)) 1 = true :=
  State.evt_bit _ (by decide)

/-! ### A captured edge -/

/-- What a captured edge shows in the registers of its page: CAPTURED, LAST, and CLOSE where its code was clamped. -/
def State.tinShown (s : State) (ch time seq : Nat) (clamped : Bool) : State :=
  let s2 := ((s.bump64 (sTin ch) 0x028 1).setReg64 (sTin ch) 0x050 time).setRegN (sTin ch) 0x058 seq
  if clamped then s2.tinClose ch else s2

theorem State.tinShown_spec (s : State) (ch time seq : Nat) (clamped : Bool) : Side s (s.tinShown ch time seq clamped) ∧
    (s.tinShown ch time seq clamped).reg64 (sTin ch) 0x028 = min (s.reg64 (sTin ch) 0x028 + 1) (2 ^ 64 - 1) ∧
    (s.tinShown ch time seq clamped).reg64 (sTin ch) 0x030 = min (s.reg64 (sTin ch) 0x030 + b2n clamped) (2 ^ 64 - 1) ∧
    (s.tinShown ch time seq clamped).reg64 (sTin ch) 0x050 = time % 2 ^ 64 ∧
    (s.tinShown ch time seq clamped).reg (ra (sTin ch) 0x058) = BitVec.ofNat 32 seq ∧
    (s.tinShown ch time seq clamped).reg64 (sTin ch) 0x038 = s.reg64 (sTin ch) 0x038 := by
  unfold State.tinShown
  dsimp only
  have hbump := s.bump64_side (sTin ch) 0x028 1
  have hset := (s.bump64 (sTin ch) 0x028 1).setReg64_side (sTin ch) 0x050 time
  have hseq := State.setReg_side ((s.bump64 (sTin ch) 0x028 1).setReg64 (sTin ch) 0x050 time) (ra (sTin ch) 0x058) (BitVec.ofNat 32 seq)
  have h28 : (((s.bump64 (sTin ch) 0x028 1).setReg64 (sTin ch) 0x050 time).setRegN (sTin ch) 0x058 seq).reg64 (sTin ch) 0x028 =
      min (s.reg64 (sTin ch) 0x028 + 1) (2 ^ 64 - 1) := by
    rw [State.setRegN, State.setReg_reg64 _ _ _ (by decide) (by decide), State.setReg64_reg64 _ _ _ (.inr (by decide)), State.reg64_bump64]
  have hkeep (j : Nat) (hj : 0x030 ≤ j) (hj' : j + 4 < 0x050) :
      (((s.bump64 (sTin ch) 0x028 1).setReg64 (sTin ch) 0x050 time).setRegN (sTin ch) 0x058 seq).reg64 (sTin ch) j = s.reg64 (sTin ch) j := by
    rw [State.setRegN, State.setReg_reg64 _ _ _ (by omega) (by omega), State.setReg64_reg64 _ _ _ (.inr hj'), State.bump64_reg64 (.inl (by omega))]
  have h50 : (((s.bump64 (sTin ch) 0x028 1).setReg64 (sTin ch) 0x050 time).setRegN (sTin ch) 0x058 seq).reg64 (sTin ch) 0x050 = time % 2 ^ 64 := by
    rw [State.setRegN, State.setReg_reg64 _ _ _ (by decide) (by decide), State.reg64_setReg64]
  have h58 : (((s.bump64 (sTin ch) 0x028 1).setReg64 (sTin ch) 0x050 time).setRegN (sTin ch) 0x058 seq).reg (ra (sTin ch) 0x058) =
      BitVec.ofNat 32 seq := State.setReg_reg_same _ _ _
  have hside := (hbump.trans hset).trans hseq
  change Side s (((s.bump64 (sTin ch) 0x028 1).setReg64 (sTin ch) 0x050 time).setRegN (sTin ch) 0x058 seq) at hside
  generalize ((s.bump64 (sTin ch) 0x028 1).setReg64 (sTin ch) 0x050 time).setRegN (sTin ch) 0x058 seq = z at *
  cases clamped
  · refine ⟨hside, h28, ?_, h50, h58, hkeep 0x038 (by decide) (by decide)⟩
    have hlt := s.reg64_lt (sTin ch) 0x030
    rw [if_neg Bool.false_ne_true, hkeep 0x030 (by decide) (by decide), show b2n false = 0 from rfl]
    omega
  · rw [if_pos rfl, State.tinClose_reg64 _ _ (by decide) (.inr (by decide)), State.tinClose_count, State.tinClose_reg64 _ _ (by decide) (.inl (by decide)),
      State.tinClose_reg _ _ (by decide), State.tinClose_reg64 _ _ (by decide) (.inl (by decide)), hkeep 0x030 (by decide) (by decide)]
    exact ⟨hside.trans (z.tinClose_side ch), h28, rfl, h50, h58, hkeep 0x038 (by decide) (by decide)⟩

/-- Those fields of a state that a captured edge's way into the FIFO leaves, but for the mark that its stamper owes. -/
structure State.TinPutKept (s : State) (ch : Nat) (x : State) : Prop where
  owed : ∃ m, x.stamper ch = { s.stamper ch with owed := m }
  condIn : x.condIn = s.condIn
  measIn : x.measIn = s.measIn
  touts : x.touts = s.touts
  reg64 : ∀ i, i = 0x028 ∨ i = 0x030 ∨ i = 0x050 → x.reg64 (sTin ch) i = s.reg64 (sTin ch) i
  last : x.reg (ra (sTin ch) 0x058) = s.reg (ra (sTin ch) 0x058)

theorem State.tinPut_room {st : Stamp} (h : (s.tin ch).fifo.length < 8192) : s.TinPutKept ch (s.tinPut ch st) ∧
    (s.tinPut ch st).tin ch = { s.tin ch with
      fifo := (s.tin ch).fifo ++ [{ st with flags := st.flags ||| joinMarks (s.stamper ch).owed st.flags }] } ∧
    ((s.tinPut ch st).stamper ch).owed = 0 := by
  let f : Tin := { s.tin ch with fifo := (s.tin ch).fifo ++ [{ st with flags := st.flags ||| joinMarks (s.stamper ch).owed st.flags }] }
  let z : State := (s.setStamper ch { s.stamper ch with owed := 0 }).setTin ch f
  let w : State := z.peak (sTin ch) 0x05C ((s.tin ch).fifo.length + 1)
  have hput : s.tinPut ch st = if (s.tin ch).fifo.length + 1 = w.rfld (sTin ch) 0x020 0 14 then w.evt (sTin ch) 2 else w := by
    unfold State.tinPut
    exact if_neg (not_le.mpr h)
  have hside : Side z (s.tinPut ch st) := by
    rw [hput]
    exact (z.peak_side _ _ _).trans (Side.ite (w.evt_side _ _) (Side.refl w))
  have hreg (j : Nat) (hj : 0x00C ≤ j) (h5 : j ≠ 0x05C) : (s.tinPut ch st).reg (ra (sTin ch) j) = s.reg (ra (sTin ch) j) := by
    have hw : w.reg (ra (sTin ch) j) = s.reg (ra (sTin ch) j) := by
      show (z.peak _ _ _).reg _ = _
      unfold State.peak
      split
      · exact State.setReg_reg_ne _ _ (ra_off_ne (Ne.symm h5) _)
      · rfl
    rw [hput]
    split
    · rw [State.evt_reg_above _ _ _ hj, hw]
    · exact hw
  have hreg64 (j : Nat) (hj : 0x00C ≤ j) (h5 : j ≠ 0x05C) (h5' : j + 4 ≠ 0x05C) : (s.tinPut ch st).reg64 (sTin ch) j = s.reg64 (sTin ch) j := by
    rw [State.reg64, hreg j hj h5, hreg (j + 4) (by omega) h5', State.reg64]
  have hstamper : (s.tinPut ch st).stamper ch = { s.stamper ch with owed := 0 } := (hside.stamper ch).trans (State.setStamper_same _ _ _)
  have htin : (s.tinPut ch st).tin ch = f := (hside.tin ch).trans (State.setTin_same _ _ _)
  exact ⟨⟨⟨_, hstamper⟩, hside.condIn, hside.measIn, hside.touts, fun j hj => hreg64 j (by omega) (by omega) (by omega),
    hreg _ (by decide) (by decide)⟩, htin, congrArg Stamper.owed hstamper⟩

theorem State.tinPut_full {st : Stamp} (h : 8192 ≤ (s.tin ch).fifo.length) : s.TinPutKept ch (s.tinPut ch st) ∧
    (s.tinPut ch st).tin ch = s.tin ch ∧ ((s.tinPut ch st).stamper ch).owed = joinMarks (s.stamper ch).owed st.flags ∧
    (s.tinPut ch st).reg64 (sTin ch) 0x038 = min (s.reg64 (sTin ch) 0x038 + 1) (2 ^ 64 - 1) ∧
    bit ((s.tinPut ch st).reg (ra (sTin ch) 0x008)) 3 = true := by
  let z : State := s.setStamper ch { s.stamper ch with owed := joinMarks (s.stamper ch).owed st.flags }
  have hput : s.tinPut ch st = ((z.bump64 (sTin ch) 0x038 1).evt (sTin ch) 3).reportSrc st.src 0 2 := by
    unfold State.tinPut
    exact if_pos h
  obtain ⟨m, hm⟩ := ((z.bump64 (sTin ch) 0x038 1).evt (sTin ch) 3).reportSrc_eq st.src 0 2
  rw [hm] at hput
  have hside : Side z ((z.bump64 (sTin ch) 0x038 1).evt (sTin ch) 3) := (State.bump64_side _ _ _ _).trans (State.evt_side _ _ _)
  have hreg (j : Nat) (hj : 0x00C ≤ j) (h3 : j + 4 < 0x038 ∨ 0x03C < j) :
      ((z.bump64 (sTin ch) 0x038 1).evt (sTin ch) 3).reg64 (sTin ch) j = s.reg64 (sTin ch) j := by
    rw [State.evt_reg64_above _ _ _ hj, State.bump64_reg64 (by omega)]
    rfl
  have hlast : ((z.bump64 (sTin ch) 0x038 1).evt (sTin ch) 3).reg (ra (sTin ch) 0x058) = s.reg (ra (sTin ch) 0x058) := by
    rw [State.evt_reg_above _ _ _ (by decide), State.bump64_reg (ra_off_ne (by decide) _) (ra_off_ne (by decide) _)]
    rfl
  have hcount : ((z.bump64 (sTin ch) 0x038 1).evt (sTin ch) 3).reg64 (sTin ch) 0x038 = min (s.reg64 (sTin ch) 0x038 + 1) (2 ^ 64 - 1) := by
    rw [State.evt_reg64_above _ _ _ (by decide), State.reg64_bump64]
    rfl
  have hbit : bit (((z.bump64 (sTin ch) 0x038 1).evt (sTin ch) 3).reg (ra (sTin ch) 0x008)) 3 = true := State.evt_bit _ (by decide)
  have hstamper := (hside.stamper ch).trans (State.setStamper_same _ _ _)
  have htin := hside.tin ch
  have htouts := hside.touts
  have hcond := hside.condIn
  have hmeas := hside.measIn
  rw [hput]
  clear hput
  generalize (z.bump64 (sTin ch) 0x038 1).evt (sTin ch) 3 = w at *
  exact ⟨⟨⟨_, hstamper⟩, hcond, hmeas, htouts, fun j hj => hreg j (by omega) (by omega), hlast⟩, htin, congrArg Stamper.owed hstamper,
    hcount, hbit⟩

/-! ### An edge (R78 to R85) -/

/-- The level of an input after a transition. -/
def State.tinLevel (s : State) (ch : Nat) (rising : Bool) : State := s.setTin ch { s.tin ch with level := rising }

/-- The instant of an edge by its stamper, before the delays. -/
def Stamper.edgeAt (x : Stamper) (t q : Nat) : Int := 2000 * (t : Int) - (codeToL (x.interp (x.converter t q)) q).1

/-- The stamp of a captured edge. -/
def State.tinStamp (s : State) (ch t q : Nat) (rising : Bool) : Stamp :=
  let x := s.stamper ch
  let p := x.edgeAt t q - x.dPin - signed 32 (s.reg (ra (sTin ch) 0x01C)).toNat
  ⟨4096 + ch, p, s.stampTime p, rising, s.stampFlags x t p, x.seq⟩

/-- A channel's stamper after a captured edge. -/
def State.tinStamped (s : State) (ch t q : Nat) (rising : Bool) : Stamper :=
  let x := s.stamper ch
  let a := x.edgeAt t q
  { s.stamped x (s.tinStamp ch t q rising).phys with
    caps := ((a, rising) :: x.caps).take 3
    lastRise := if rising then some a else x.lastRise
    lastFall := if rising then x.lastFall else some a
    refuse := none }

/-- A captured stamp is told to the conditions. -/
def State.tinTold (s : State) (st : Stamp) : State := if s.condUses st.src then { s with condIn := s.condIn ++ [.edge st] } else s

theorem State.tinCapture_eq (s : State) (ch t q : Nat) (rising : Bool) : s.tinCapture ch t q rising =
    (((s.setStamper ch (s.tinStamped ch t q rising)).tinShown ch (s.tinStamp ch t q rising).time (s.tinStamp ch t q rising).seq
      (codeToL ((s.stamper ch).interp ((s.stamper ch).converter t q)) q).2).tinTold (s.tinStamp ch t q rising)).tinPut ch
      (s.tinStamp ch t q rising) := rfl

/-- What an edge does at its channel. -/
theorem State.tinEdge_eq (s : State) (ch t q : Nat) (rising : Bool) : s.tinEdge ch t q rising =
    if s.tinCapturing ch && tinCandidate (s.rfld (sTin ch) 0x014 4 2) rising then
      if decide (s.rfld (sTin ch) 0x014 4 2 = 2) && decide ((s.stamper ch).refuse = some rising) then
        ((s.tinLevel ch rising).setStamper ch { s.stamper ch with refuse := none }).tinClose ch
      else if captures (s.stamper ch) (decide (s.rfld (sTin ch) 0x014 4 2 = 2)) rising ((s.stamper ch).edgeAt t q) then
        (s.tinLevel ch rising).tinCapture ch t q rising
      else ((s.tinLevel ch rising).setStamper ch
        { s.stamper ch with refuse := if s.rfld (sTin ch) 0x014 4 2 = 2 then some (!rising) else none }).tinClose ch
    else s.tinLevel ch rising := rfl

/-- What a captured edge leaves, whether or not the FIFO has room. -/
structure State.TinCaptured (s : State) (ch t q : Nat) (rising : Bool) (x : State) : Prop where
  stamper : ∃ m, x.stamper ch = { s.tinStamped ch t q rising with owed := m }
  count : x.reg64 (sTin ch) 0x028 = min (s.reg64 (sTin ch) 0x028 + 1) (2 ^ 64 - 1)
  close : x.reg64 (sTin ch) 0x030 = min (s.reg64 (sTin ch) 0x030 +
    b2n (codeToL ((s.stamper ch).interp ((s.stamper ch).converter t q)) q).2) (2 ^ 64 - 1)
  time : x.reg64 (sTin ch) 0x050 = (s.tinStamp ch t q rising).time
  seq : x.reg (ra (sTin ch) 0x058) = BitVec.ofNat 32 (s.tinStamp ch t q rising).seq
  condIn : x.condIn = if s.condUses (4096 + ch) then s.condIn ++ [.edge (s.tinStamp ch t q rising)] else s.condIn
  measIn : x.measIn = s.measIn
  touts : x.touts = s.touts

/-- The state of which a captured edge's stamp meets the FIFO. -/
theorem State.tinCapture_put (s : State) (ch t q : Nat) (rising : Bool) : ∃ y : State, s.tinCapture ch t q rising = y.tinPut ch (s.tinStamp ch t q rising) ∧
    y.tin ch = s.tin ch ∧ y.stamper ch = s.tinStamped ch t q rising ∧ y.reg64 (sTin ch) 0x038 = s.reg64 (sTin ch) 0x038 ∧
    ∀ z, y.TinPutKept ch z → s.TinCaptured ch t q rising z := by
  obtain ⟨hside, h28, h30, h50, h58, h38⟩ := (s.setStamper ch (s.tinStamped ch t q rising)).tinShown_spec ch (s.tinStamp ch t q rising).time
    (s.tinStamp ch t q rising).seq (codeToL ((s.stamper ch).interp ((s.stamper ch).converter t q)) q).2
  rw [State.tinCapture_eq]
  have htime : (s.tinStamp ch t q rising).time % 2 ^ 64 = (s.tinStamp ch t q rising).time := m64_mod _
  rw [htime] at h50
  generalize (s.setStamper ch (s.tinStamped ch t q rising)).tinShown ch (s.tinStamp ch t q rising).time
    (s.tinStamp ch t q rising).seq (codeToL ((s.stamper ch).interp ((s.stamper ch).converter t q)) q).2 = y at *
  have huses : y.condUses (4096 + ch) = s.condUses (4096 + ch) := by
    obtain ⟨_, _, _, _, _, rfl⟩ := hside
    rfl
  have htold : ∃ l, y.tinTold (s.tinStamp ch t q rising) = { y with condIn := l } ∧
      l = if s.condUses (4096 + ch) then s.condIn ++ [.edge (s.tinStamp ch t q rising)] else s.condIn := by
    unfold State.tinTold
    rw [show (s.tinStamp ch t q rising).src = 4096 + ch from rfl, huses]
    split
    · exact ⟨_, rfl, congrArg (· ++ [_]) hside.condIn⟩
    · exact ⟨_, rfl, hside.condIn⟩
  obtain ⟨l, htold, hl⟩ := htold
  have hstamper : y.stamper ch = s.tinStamped ch t q rising := (hside.stamper ch).trans (State.setStamper_same _ _ _)
  rw [htold]
  refine ⟨_, rfl, hside.tin ch, hstamper, h38, fun z hz => ?_⟩
  obtain ⟨⟨m, hm⟩, hcond, hmeas, htouts, hreg, hlast⟩ := hz
  refine ⟨⟨m, hm.trans (congrArg (fun k : Stamper => { k with owed := m }) hstamper)⟩, (hreg _ (.inl rfl)).trans h28, (hreg _ (.inr (.inl rfl))).trans h30,
    (hreg _ (.inr (.inr rfl))).trans h50, hlast.trans h58, hcond.trans hl, hmeas.trans hside.measIn, htouts.trans hside.touts⟩

/-- Where a statement speaks only of fields that the wrapper and the sequencers' judging leave, it needs to know no more. -/
theorem answers_of_woken {c : Instr} {f : State → State} {P : State → Prop} (hpow : s.Powered)
    (hc : exec c s = command t (fun s => (f s).wakeAll) s)
    (h : ∀ m l, P (({ f (s.advance t) with ctxs := m } : State).wrapped s (max s.now t) l)) : Answers c s P := by
  refine answers_of_wrapped hpow hc fun l => ?_
  obtain ⟨m, hm⟩ := (f (s.advance t)).wakeAll_ctxSide
  rw [hm]
  exact h m l

/-- Settles O40, by the branch that the edge takes. -/
theorem tinEdges : Obligations.TinEdges := by
  intro s t q ch rising hpow u x f slope l a p st one taken closed captured
  have hexec := exec_tinEdge t ch rising q s
  have hedge := u.tinEdge_eq ch t q rising
  have htaken (h : taken) : (u.tinCapturing ch && tinCandidate slope rising) = true := Bool.and_eq_true_iff.mpr h
  have hclosed (y : Stamper) (hz : u.tinEdge ch t q rising = ((u.tinLevel ch rising).setStamper ch y).tinClose ch) :
      Answers (.tinEdge t ch rising q) s (closed y) := by
    have hside := ((u.tinLevel ch rising).setStamper ch y).tinClose_side ch
    have hcount := ((u.tinLevel ch rising).setStamper ch y).tinClose_count ch
    have hkeep := ((u.tinLevel ch rising).setStamper ch y).tinClose_reg64 ch (i := 0x028) (by decide) (.inr (by decide))
    have hbit := ((u.tinLevel ch rising).setStamper ch y).tinClose_bit ch
    have hstamper := (hside.stamper ch).trans (State.setStamper_same _ _ _)
    have htin : (((u.tinLevel ch rising).setStamper ch y).tinClose ch).tin ch = f := (hside.tin ch).trans (State.setTin_same _ _ _)
    have hcond := hside.condIn
    refine answers_of_woken (P := closed y) hpow hexec fun m l => ?_
    rw [show (s.advance t).tinEdge ch t q rising = _ from hz]
    generalize ((u.tinLevel ch rising).setStamper ch y).tinClose ch = w at *
    exact ⟨hstamper, htin, hcount, hbit, hcond, hkeep⟩
  have hrefuse (h : slope = 2 → x.refuse ≠ some rising) : ¬(decide (slope = 2) && decide (x.refuse = some rising)) = true := fun hd => by
    simp only [Bool.and_eq_true, decide_eq_true_eq] at hd
    exact h hd.1 hd.2
  refine ⟨fun hno => ?_, fun ht hslope href => ?_, fun ht href hcap => ?_, fun ht href hcap => ?_⟩
  · have hlevel : u.tinEdge ch t q rising = u.setTin ch f := hedge.trans (if_neg fun h => hno (Bool.and_eq_true_iff.mp h))
    refine next_of hpow hexec (congrArg State.wakeAll hlevel) (Quiet.trans ?_ (State.wakeAll_ctxSide _).quiet)
    constructor <;> rfl
  · refine hclosed _ (hedge.trans ((if_pos (htaken ht)).trans (if_pos ?_)))
    exact Bool.and_eq_true_iff.mpr ⟨decide_eq_true hslope, decide_eq_true href⟩
  · refine hclosed _ (hedge.trans ((if_pos (htaken ht)).trans ((if_neg (hrefuse href)).trans (if_neg fun h => ?_))))
    exact absurd (hcap.symm.trans h) Bool.false_ne_true
  · have hcapture := hedge.trans ((if_pos (htaken ht)).trans ((if_neg (hrefuse href)).trans (if_pos hcap)))
    obtain ⟨y, hput, hytin, hystamper, hy38, hcaptured⟩ := (u.tinLevel ch rising).tinCapture_put ch t q rising
    rw [hput] at hcapture
    have htin : y.tin ch = f := hytin.trans (State.setTin_same _ _ _)
    have howes : (y.stamper ch).owed = x.owed := (congrArg Stamper.owed hystamper :)
    have hdone (z : State) (hz : (u.tinLevel ch rising).TinCaptured ch t q rising z) : captured z := by
      obtain ⟨⟨m, hm⟩, h28, h30, h50, h58, hcond, hmeas, htouts⟩ := hz
      exact ⟨(congrArg Stamper.seq hm :), (congrArg Stamper.nextPos hm :), (congrArg Stamper.refuse hm :), (congrArg Stamper.seen hm :),
        h28, h30, h50, h58, hcond, hmeas, htouts⟩
    refine ⟨fun hroom => ?_, fun hfull => ?_⟩
    · obtain ⟨hkept, hfifo, howed⟩ := State.tinPut_room (s := y) (ch := ch) (st := (u.tinLevel ch rising).tinStamp ch t q rising) (by rw [htin]; exact hroom)
      have hcap := hdone _ (hcaptured _ hkept)
      rw [htin, howes] at hfifo
      refine answers_of_woken hpow hexec fun m l => ?_
      rw [show (s.advance t).tinEdge ch t q rising = _ from hcapture]
      generalize y.tinPut ch ((u.tinLevel ch rising).tinStamp ch t q rising) = w at hcap hfifo howed
      exact ⟨hcap, hfifo, howed⟩
    · obtain ⟨hkept, hfifo, howed, hcount, hbit⟩ :=
        State.tinPut_full (s := y) (ch := ch) (st := (u.tinLevel ch rising).tinStamp ch t q rising) (by rw [htin]; exact hfull)
      have hcap := hdone _ (hcaptured _ hkept)
      rw [htin] at hfifo
      rw [howes] at howed
      rw [hy38] at hcount
      refine answers_of_woken hpow hexec fun m l => ?_
      rw [show (s.advance t).tinEdge ch t q rising = _ from hcapture]
      generalize y.tinPut ch ((u.tinLevel ch rising).tinStamp ch t q rising) = w at hcap hfifo howed hcount hbit
      exact ⟨hcap, hfifo, howed, hcount, hbit⟩

end Sys2Proof.Machine
end

section
/-! Proofs about the way of stamps to the stages that use them (01_device_architecture.md, R12; 04_timing_inputs.md, R95, R387). -/

namespace Sys2Proof.Machine

variable {s x y : State} {t a n k i off slot ch d die : Nat} {p : Path} {v : Word} {r : RegInfo} {q : PageInfo}

/-! ### The FIFO's oldest stamp (R95) -/

theorem State.distribute_spec (s : State) (st : Stamp) :
    (s.distribute st).measIn = (if s.measUses st.src then s.measIn ++ [st] else s.measIn) ∧
    ∀ d, d < 2 → ((s.distribute st).fwd d).routed = if s.routedTo st.src d then (s.fwd d).routed ++ [st] else (s.fwd d).routed := by
  let y : State := if s.measUses st.src then { s with measIn := s.measIn ++ [st] } else s
  have hy : y = { s with measIn := if s.measUses st.src then s.measIn ++ [st] else s.measIn } := by
    by_cases h : s.measUses st.src = true
    · rw [show y = _ from if_pos h, if_pos h]
    · rw [show y = _ from if_neg h, if_neg h]
  have hdist : s.distribute st = y.each ((List.range 2).filter fun d => s.routedTo st.src d)
      fun s d => s.setFwd d { s.fwd d with routed := (s.fwd d).routed ++ [st] } := rfl
  have hfwds : ∃ m, s.distribute st = { y with fwds := m } := by
    rw [hdist]
    refine State.each_induct (P := fun u => ∃ m, u = { y with fwds := m }) ?_ ⟨_, rfl⟩
    rintro _ e - ⟨_, rfl⟩
    exact ⟨_, rfl⟩
  refine ⟨?_, fun d hd => ?_⟩
  · obtain ⟨m, hm⟩ := hfwds
    rw [hm, hy]
  · have hsame : y.fwd d = s.fwd d := by
      rw [hy]
      rfl
    rw [hdist]
    by_cases h : s.routedTo st.src d = true
    · rw [if_pos h, ← hsame]
      refine State.each_entry (I := fun _ => True) (get := fun u e => (u.fwd e).routed) (g := (· ++ [st]))
        (List.mem_filter.mpr ⟨List.mem_range.mpr hd, h⟩) (List.nodup_range.filter _) (fun _ _ _ => trivial) (fun u _ => ?_) (fun u m hm => ?_) trivial
      · exact congrArg Fwd.routed (State.setFwd_same _ _ _)
      · exact congrArg Fwd.routed (State.setFwd_ne _ _ hm)
    · rw [if_neg h, ← hsame]
      refine State.each_induct (P := fun u => (u.fwd d).routed = (y.fwd d).routed) (fun u e he hu => ?_) rfl
      have hne : e ≠ d := fun hed => h (hed ▸ (List.mem_filter.mp he).2)
      exact (congrArg Fwd.routed (State.setFwd_ne _ _ hne)).trans hu

theorem State.ttlTake_eq (s : State) (k : Nat) (st : Stamp) : ∃ l, s.ttlTake k st = { s with ttls := l } := by
  unfold State.ttlTake
  dsimp only
  split
  · split
    · split
      · exact ⟨_, rfl⟩
      · exact ⟨_, rfl⟩
      · exact ⟨_, rfl⟩
    · exact ⟨_, rfl⟩
  · exact ⟨_, rfl⟩

theorem State.ttlFeed_eq (s : State) (ch : Nat) (st : Stamp) : ∃ l, s.ttlFeed ch st = { s with ttls := l } := by
  refine State.each_induct (P := fun u => ∃ l, u = { s with ttls := l }) ?_ ⟨_, rfl⟩
  rintro _ e - ⟨_, rfl⟩
  exact State.ttlTake_eq _ e st

theorem State.tinDeliver_waits (h : (s.tin ch).fifo = [] ∨ s.now < (s.tin ch).nextOut) : s.tinDeliver ch = s := by
  unfold State.tinDeliver
  dsimp only
  split
  next hfifo => exact if_neg (not_le.mpr (h.resolve_left fun hnil => List.cons_ne_nil _ _ (hfifo.symm.trans hnil)))
  · rfl

theorem State.tinDeliver_out {st : Stamp} {l : List Stamp} (hfifo : (s.tin ch).fifo = st :: l) (h : (s.tin ch).nextOut ≤ s.now) :
    ∃ m f tt w, s.tinDeliver ch = { s.setTin ch { s.tin ch with fifo := l, nextOut := s.now + 4 } with measIn := m, fwds := f, ttls := tt, tab := w } ∧
      m = (if s.measUses st.src then s.measIn ++ [st] else s.measIn) ∧
      ∀ d, d < 2 → (Sparse.get {} f d : Fwd).routed = if s.routedTo st.src d then (s.fwd d).routed ++ [st] else (s.fwd d).routed := by
  let y : State := s.setTin ch { s.tin ch with fifo := l, nextOut := s.now + 4 }
  have hout : s.tinDeliver ch = ((y.distribute st).ttlFeed ch st).reportSrc st.src 0 0 := by
    unfold State.tinDeliver
    dsimp only
    rw [hfifo]
    exact if_pos h
  obtain ⟨hmeas, hfwd⟩ := y.distribute_spec st
  obtain ⟨m, f, hdist⟩ := y.distribute_eq st
  rw [hdist] at hmeas hfwd hout
  obtain ⟨tt, httl⟩ := ({ y with measIn := m, fwds := f } : State).ttlFeed_eq ch st
  rw [httl] at hout
  obtain ⟨w, hw⟩ := ({ y with measIn := m, fwds := f, ttls := tt } : State).reportSrc_eq st.src 0 0
  exact ⟨m, f, tt, w, hout.trans hw, hmeas, hfwd⟩

/-! ### The forwarder's queue (R12, R409) -/

theorem owedOf_oweDrop (l : List (Nat × Nat)) (st : Stamp) : owedOf (oweDrop l st) st.src = joinMarks (owedOf l st.src) st.flags :=
  Sparse.get_set_same _ _ _ _

theorem owedOf_passOwed (l : List (Nat × Nat)) (st : Stamp) : owedOf (passOwed l st).2 st.src = 0 := by
  unfold passOwed owedOf
  exact Sparse.get_set_same 0 l st.src 0

theorem State.peak_toNat (s : State) (slot off : Nat) (h : n < 2 ^ 32) :
    ((s.peak slot off n).reg (ra slot off)).toNat = max (s.reg (ra slot off)).toNat n := by
  unfold State.peak
  split
  case isTrue hlt =>
    rw [State.setRegN, State.setReg_reg_same, BitVec.toNat_ofNat, Nat.mod_eq_of_lt h]
    omega
  case isFalse hle => omega

theorem State.forwardStamp_none (h : (s.fwd die).routed = []) : s.forwardStamp die = s := by
  unfold State.forwardStamp
  dsimp only
  rw [h]

/-- A stamp enters a forwarder's queue. -/
theorem State.forwardStamp_room {st : Stamp} {l : List Stamp} (hrouted : (s.fwd die).routed = st :: l) (h : (s.fwd die).queue.length < 65536) :
    ((s.forwardStamp die).fwd die).routed = l ∧
    ((s.forwardStamp die).fwd die).queue = (s.fwd die).queue ++ [{ st with flags := st.flags ||| joinMarks (owedOf (s.fwd die).owed st.src) st.flags }] ∧
    owedOf ((s.forwardStamp die).fwd die).owed st.src = 0 ∧
    ((s.forwardStamp die).reg (ra (sFwd die) 0x018)).toNat = max (s.reg (ra (sFwd die) 0x018)).toNat ((s.fwd die).queue.length + 1) ∧
    ((s.fwd die).queue.length = 65535 → bit ((s.forwardStamp die).reg (ra (sFwd die) 0x008)) 1 = true) ∧ (s.forwardStamp die).tab = s.tab := by
  let queue := (s.fwd die).queue ++ [(passOwed (s.fwd die).owed st).1]
  let f : Fwd := { s.fwd die with routed := l, queue := queue, owed := (passOwed (s.fwd die).owed st).2 }
  let y := (s.setFwd die f).peak (sFwd die) 0x018 queue.length
  have hlen : queue.length = (s.fwd die).queue.length + 1 := by rw [List.length_append, List.length_singleton]
  have hstamp : s.forwardStamp die = if queue.length = 65536 then y.evt (sFwd die) 1 else y := by
    unfold State.forwardStamp
    dsimp only
    rw [hrouted]
    exact if_neg (not_le.mpr h)
  have hside : Side (s.setFwd die f) (s.forwardStamp die) := by
    rw [hstamp]
    exact (State.peak_side _ _ _ _).trans (Side.ite (y.evt_side _ _) (Side.refl y))
  have hpeak : (y.reg (ra (sFwd die) 0x018)).toNat = max (s.reg (ra (sFwd die) 0x018)).toNat queue.length :=
    State.peak_toNat _ _ _ (by omega)
  have hfwd : (s.forwardStamp die).fwd die = f := by
    obtain ⟨_, _, _, _, _, hz⟩ := hside
    rw [hz]
    exact State.setFwd_same _ _ _
  have htab : (s.forwardStamp die).tab = s.tab := hside.tab
  refine ⟨by rw [hfwd], by rw [hfwd]; rfl, by rw [hfwd]; exact owedOf_passOwed _ _, ?_, fun hfull => ?_, htab⟩
  · rw [hstamp, ← hlen]
    split
    · rw [State.evt_reg_above _ _ _ (by decide), hpeak]
    · exact hpeak
  · rw [hstamp, if_pos (by omega)]
    exact State.evt_bit _ (by decide)

/-- A dropped stamp is counted in its forwarder's DROPPED and in its source's counter at an offset, and told. -/
def State.fwdDropped (s : State) (die o : Nat) : State := ((s.bump64 (sFwd die) 0x024 1).bump32 (sFwd die) o 1).evt (sFwd die) 0

theorem State.fwdDropped_spec {o : Nat} (s : State) (die : Nat) (h : 0x02C ≤ o) : Side s (s.fwdDropped die o) ∧
    (s.fwdDropped die o).reg64 (sFwd die) 0x024 = min (s.reg64 (sFwd die) 0x024 + 1) (2 ^ 64 - 1) ∧
    bit ((s.fwdDropped die o).reg (ra (sFwd die) 0x008)) 0 = true := by
  unfold State.fwdDropped
  refine ⟨(s.bump64_side _ _ _).trans ((State.bump32_side _ _ _ _).trans (State.evt_side _ _ _)), ?_, State.evt_bit _ (by decide)⟩
  rw [State.evt_reg64_above _ _ _ (by decide), State.bump32, State.setRegN, State.setReg_reg64 _ _ _ (by omega) (by omega), State.reg64_bump64]

/-- A stamp meets a full forwarder's queue. -/
theorem State.forwardStamp_full {st : Stamp} {l : List Stamp} (hrouted : (s.fwd die).routed = st :: l) (h : 65536 ≤ (s.fwd die).queue.length) :
    ((s.forwardStamp die).fwd die).routed = l ∧ ((s.forwardStamp die).fwd die).queue = (s.fwd die).queue ∧
    owedOf ((s.forwardStamp die).fwd die).owed st.src = joinMarks (owedOf (s.fwd die).owed st.src) st.flags ∧
    (s.forwardStamp die).reg64 (sFwd die) 0x024 = min (s.reg64 (sFwd die) 0x024 + 1) (2 ^ 64 - 1) ∧
    bit ((s.forwardStamp die).reg (ra (sFwd die) 0x008)) 0 = true := by
  have hstamp : ∃ o, 0x02C ≤ o ∧ s.forwardStamp die =
      let y := (s.setFwd die { s.fwd die with routed := l, owed := oweDrop (s.fwd die).owed st }).fwdDropped die o
      y.each (y.dieUsers st.src die) fun s c => s.report c 1 2 1 := by
    refine ⟨0x02C + 4 * (st.src - 4096), Nat.le_add_right _ _, ?_⟩
    unfold State.forwardStamp
    dsimp only
    rw [hrouted]
    exact if_pos h
  obtain ⟨o, ho, hstamp⟩ := hstamp
  obtain ⟨hside, hcount, hbit⟩ :=
    (s.setFwd die { s.fwd die with routed := l, owed := oweDrop (s.fwd die).owed st }).fwdDropped_spec die ho
  dsimp only at hstamp
  generalize (s.setFwd die { s.fwd die with routed := l, owed := oweDrop (s.fwd die).owed st }).fwdDropped die o = y at *
  obtain ⟨w, hw⟩ := y.each_report_eq (y.dieUsers st.src die) 1 2 1
  have hfwd : y.fwd die = { s.fwd die with routed := l, owed := oweDrop (s.fwd die).owed st } := by
    obtain ⟨_, _, _, _, _, hz⟩ := hside
    rw [hz]
    exact State.setFwd_same _ _ _
  rw [hstamp, hw]
  change (y.fwd die).routed = l ∧ (y.fwd die).queue = _ ∧ owedOf (y.fwd die).owed st.src = _ ∧ y.reg64 (sFwd die) 0x024 = _ ∧ bit (y.reg _) 0 = true
  rw [hfwd]
  exact ⟨rfl, rfl, owedOf_oweDrop _ _, hcount, hbit⟩

/-! ### Stamps leave the queue -/

theorem Sparse.mem_set {α : Type} [DecidableEq α] {c w : α} {m : List (Nat × α)} {e : Nat × α} (h : e ∈ Sparse.set c m a w) : e = (a, w) ∨ e ∈ m := by
  unfold Sparse.set at h
  split at h
  · exact .inr (Sparse.mem_del h).1
  · exact (Sparse.mem_ins h).imp id fun hdel => (Sparse.mem_del hdel).1

/-- How many stamps a forwarder has sent at this coarse edge. -/
def State.fwdSent (s : State) (die : Nat) : Nat := if (s.fwd die).outAt = s.now then (s.fwd die).outN else 0

/-- A forwarder after its oldest stamp has left. -/
def State.fwdOut (s : State) (die : Nat) (l : List Stamp) : State :=
  (s.setFwd die { s.fwd die with queue := l, outAt := s.now, outN := s.fwdSent die + 1 }).bump64 (sFwd die) 0x01C 1

theorem State.fwdOut_spec (s : State) (die : Nat) (l : List Stamp) : (∃ f g, s.fwdOut die l = { s with fwds := f, regs := g }) ∧
    (s.fwdOut die l).fwd die = { s.fwd die with queue := l, outAt := s.now, outN := s.fwdSent die + 1 } ∧
    (s.fwdOut die l).reg64 (sFwd die) 0x01C = min (s.reg64 (sFwd die) 0x01C + 1) (2 ^ 64 - 1) :=
  ⟨⟨_, _, rfl⟩, State.setFwd_same _ _ _, State.reg64_bump64 _ _ _ _⟩

theorem State.forwardDequeue_waits (h : (s.fwd die).queue = [] ∨ 3 ≤ s.fwdSent die) : s.forwardDequeue die = s := by
  unfold State.forwardDequeue
  dsimp only
  split
  next hqueue => exact if_pos (h.resolve_left fun hnil => List.cons_ne_nil _ _ (hqueue.symm.trans hnil))
  · rfl

theorem State.forwardDequeue_out {st : Stamp} {l : List Stamp} (hqueue : (s.fwd die).queue = st :: l) (h : s.fwdSent die < 3) :
    s.forwardDequeue die =
      let s1 := s.fwdOut die l
      let s2 := s1.each (s1.dieUsers st.src die) fun s c => s.report c 1 0 1
      let s3 := s2.each ((s2.defsOf st.src).filter fun d => decide (s2.hHome d = die)) fun s d => s.histOffer d st
      s3.each ((s3.capsOf st.src).filter fun c => decide (s3.recDie c = die)) fun s c => s.capOffer c st.item := by
  unfold State.forwardDequeue
  dsimp only
  rw [hqueue]
  exact if_neg (not_le.mpr h)

/-- Two states whose tables above the context table agree. -/
def State.TabAbove (s x : State) : Prop := ∀ off, 0x2_0000 ≤ off → x.tabw off = s.tabw off

theorem State.TabAbove.refl (s : State) : s.TabAbove s := fun _ _ => rfl

theorem State.report_above (s : State) {c : Nat} (h : c < 512) {stage col : Nat} (hw : 40 + 3 * stage + col < 64) (m : Nat) :
    s.TabAbove (s.report c stage col m) := by
  intro off hoff
  refine State.setTabw_tabw_ne _ _ ?_
  unfold oCtx
  omega

theorem State.TabAbove.defsOf (h : s.TabAbove x) (hdefs : x.hdefs = s.hdefs) (src : Nat) : x.defsOf src = s.defsOf src := by
  have hstart (d : Nat) : x.hStart d = s.hStart d := by rw [State.hStart, State.tfld, h _ (by unfold oHdef; omega)]; rfl
  have hstop (d : Nat) : x.hStop d = s.hStop d := by rw [State.hStop, State.tfld, h _ (by unfold oHdef; omega)]; rfl
  simp only [State.defsOf, hdefs, hstart, hstop]

theorem State.TabAbove.hHome (h : s.TabAbove x) (d : Nat) : x.hHome d = s.hHome d := by
  rw [State.hHome, State.tfld, h _ (by unfold oHdef; omega)]
  rfl

theorem State.TabAbove.recDie (h : s.TabAbove x) (c : Nat) : x.recDie c = s.recDie c := by
  rw [State.recDie, State.tfld, h _ (by unfold oRec; omega)]
  rfl

theorem State.TabAbove.capsOf (h : s.TabAbove x) (hcaps : x.caps = s.caps) (src : Nat) : x.capsOf src = s.capsOf src := by
  have hsrcs (c : Nat) : x.recSrcs c = s.recSrcs c := by
    have hfld (w lo n : Nat) : x.tfld (oRec c w) lo n = s.tfld (oRec c w) lo n := by
      rw [State.tfld, h _ (by unfold oRec; omega)]
      rfl
    simp only [State.recSrcs, hfld]
  simp only [State.capsOf, hcaps, hsrcs]

theorem State.hOwner_lt (s : State) (d : Nat) : s.hOwner d < 512 := Nat.mod_lt _ (by decide)

theorem State.TabAbove.writerLevel (h : s.TabAbove x) (hcaps : x.caps = s.caps) (e : Nat) : x.writerLevel e = s.writerLevel e := by
  have hdie : x.recDie = s.recDie := funext h.recDie
  simp only [State.writerLevel, hcaps, hdie]

/-- What a stamp that leaves finds of those that take it on the forwarder's die. -/
theorem State.fwdOut_users (s : State) (l : List Stamp) (src : Nat) : (s.fwdOut die l).dieUsers src die =
    (((s.defsOf src).filter fun d => decide (s.hHome d = die)).map s.hOwner ++ ((s.capsOf src).filter fun c => decide (s.recDie c = die))).dedup := by
  obtain ⟨⟨f, g, hout⟩, -⟩ := s.fwdOut_spec die l
  rw [hout]
  rfl

theorem filter_one {f : Nat → Bool} {c : Nat} (h : f c = true) : [c].filter f = [c] := by
  rw [List.filter_cons_of_pos h, List.filter_nil]

/-- A stamp that no capture and no definition takes. -/
theorem State.forwardDequeue_alone {st : Stamp} {l : List Stamp} (hqueue : (s.fwd die).queue = st :: l) (h : s.fwdSent die < 3)
    (hcaps : s.capsOf st.src = []) (hdefs : s.defsOf st.src = []) : s.forwardDequeue die = s.fwdOut die l := by
  rw [State.forwardDequeue_out hqueue h]
  dsimp only
  rw [State.fwdOut_users, hcaps, hdefs]
  obtain ⟨⟨f, g, hout⟩, -⟩ := s.fwdOut_spec die l
  have hdefs' : (s.fwdOut die l).defsOf st.src = [] := by rw [hout]; exact hdefs
  have hcaps' : (s.fwdOut die l).capsOf st.src = [] := by rw [hout]; exact hcaps
  rw [List.filter_nil, List.filter_nil, List.map_nil, List.append_nil, List.dedup_nil, State.each_nil, hdefs', List.filter_nil, State.each_nil,
    hcaps', List.filter_nil, State.each_nil]

theorem State.capOffer_room {c : Nat} {item : Item} (hfull : (s.cap c).full = false) (hovf : (s.cap c).ovf = false)
    (hroom : s.writerLevel (s.recDie c) + item.n ≤ 65536) : s.capOffer c item = s.setCap c { s.cap c with inq := insItem item (s.cap c).inq } := by
  unfold State.capOffer
  dsimp only
  rw [hfull, hovf]
  exact (if_neg Bool.false_ne_true).trans (if_neg (not_lt.mpr hroom))

/-- A stamp that one capture of the die takes. -/
theorem State.forwardDequeue_cap {st : Stamp} {l : List Stamp} {c : Nat} (hc : c < 512) (hqueue : (s.fwd die).queue = st :: l)
    (h : s.fwdSent die < 3) (hdefs : s.defsOf st.src = []) (hcaps : s.capsOf st.src = [c]) (hdie : s.recDie c = die)
    (hfull : (s.cap c).full = false) (hovf : (s.cap c).ovf = false) (hroom : s.writerLevel die + 1 ≤ 65536) :
    s.forwardDequeue die = ((s.fwdOut die l).report c 1 0 1).setCap c { s.cap c with inq := insItem st.item (s.cap c).inq } := by
  rw [State.forwardDequeue_out hqueue h]
  dsimp only
  rw [State.fwdOut_users, hcaps, hdefs]
  obtain ⟨⟨f, g, hout⟩, -⟩ := s.fwdOut_spec die l
  have huser : List.dedup [c] = [c] := rfl
  rw [List.filter_nil, List.map_nil, List.nil_append, filter_one (f := fun c => decide (s.recDie c = die)) (decide_eq_true hdie), huser, State.each_cons,
    State.each_nil]
  have habove : s.TabAbove ((s.fwdOut die l).report c 1 0 1) := by
    rw [hout]
    exact State.report_above _ hc (by decide) 1
  have hsame : ((s.fwdOut die l).report c 1 0 1).caps = s.caps ∧ ((s.fwdOut die l).report c 1 0 1).hdefs = s.hdefs := by
    rw [hout]
    exact ⟨rfl, rfl⟩
  generalize (s.fwdOut die l).report c 1 0 1 = y at habove hsame ⊢
  obtain ⟨hycaps, hydefs⟩ := hsame
  have hycap : y.cap c = s.cap c := by rw [State.cap, hycaps, State.cap]
  rw [habove.defsOf hydefs, hdefs, List.filter_nil, State.each_nil, habove.capsOf hycaps, hcaps,
    filter_one (f := fun c => decide (y.recDie c = die)) (decide_eq_true ((habove.recDie c).trans hdie)), State.each_cons, State.each_nil, State.capOffer_room, hycap]
  · rw [hycap, hfull]
  · rw [hycap, hovf]
  · rw [habove.recDie, hdie, habove.writerLevel hycaps]
    exact hroom

/-- A stamp that one definition of the die takes as a start. -/
theorem State.forwardDequeue_def {st : Stamp} {l : List Stamp} (hqueue : (s.fwd die).queue = st :: l) (h : s.fwdSent die < 3)
    (hcaps : s.capsOf st.src = []) (hdefs : s.defsOf st.src = [d]) (hhome : s.hHome d = die) (hstart : s.hStart d = st.src)
    (hstop : s.hStop d ≠ st.src) (htakes : s.histTakes d 26 st = true) :
    s.forwardDequeue die = ((s.fwdOut die l).report (s.hOwner d) 1 0 1).setHdef d { s.hdef d with inq := insStamp st (s.hdef d).inq } := by
  rw [State.forwardDequeue_out hqueue h]
  dsimp only
  rw [State.fwdOut_users, hcaps, hdefs]
  obtain ⟨⟨f, g, hout⟩, -⟩ := s.fwdOut_spec die l
  have huser : List.dedup [s.hOwner d] = [s.hOwner d] := rfl
  rw [filter_one (f := fun d => decide (s.hHome d = die)) (decide_eq_true hhome), List.filter_nil, List.map_singleton, List.append_nil, huser, State.each_cons,
    State.each_nil]
  have habove : s.TabAbove ((s.fwdOut die l).report (s.hOwner d) 1 0 1) := by
    rw [hout]
    exact State.report_above _ (s.hOwner_lt d) (by decide) 1
  have hsame : ((s.fwdOut die l).report (s.hOwner d) 1 0 1).caps = s.caps ∧ ((s.fwdOut die l).report (s.hOwner d) 1 0 1).hdefs = s.hdefs := by
    rw [hout]
    exact ⟨rfl, rfl⟩
  generalize (s.fwdOut die l).report (s.hOwner d) 1 0 1 = y at habove hsame ⊢
  obtain ⟨hycaps, hydefs⟩ := hsame
  have hyhdef : y.hdef d = s.hdef d := by rw [State.hdef, hydefs, State.hdef]
  have hoffer : y.histOffer d st = y.setHdef d { s.hdef d with inq := insStamp st (s.hdef d).inq } := by
    have hystart : y.hStart d = s.hStart d := by rw [State.hStart, State.tfld, habove _ (by unfold oHdef; omega)]; rfl
    have hystop : y.hStop d = s.hStop d := by rw [State.hStop, State.tfld, habove _ (by unfold oHdef; omega)]; rfl
    have hytakes : y.histTakes d 26 st = s.histTakes d 26 st := by
      rw [State.histTakes, State.tbit, habove _ (by unfold oHdef; omega)]
      rfl
    unfold State.histOffer
    dsimp only
    rw [hystart, hystop, if_neg (c := s.hStop d = st.src ∧ _) fun hs => hstop hs.1, if_pos ⟨hstart, hytakes.trans htakes⟩, hyhdef]
  rw [habove.defsOf hydefs, hdefs, filter_one (f := fun d => decide (y.hHome d = die)) (decide_eq_true ((habove.hHome d).trans hhome)), State.each_cons,
    State.each_nil, hoffer]
  have hcaps' : (y.setHdef d { s.hdef d with inq := insStamp st (s.hdef d).inq }).capsOf st.src = [] :=
    (habove.capsOf hycaps st.src).trans hcaps
  rw [hcaps', List.filter_nil, State.each_nil]

theorem State.Settled.setCap {c : Nat} {k : Cap} (h : s.Settled) (hfull : k.full = false) : (s.setCap c k).Settled := by
  refine ⟨fun e he => ?_, h.2⟩
  rcases Sparse.mem_set he with rfl | he
  · exact hfull
  · exact h.1 e he

/-- Settles O41: the FIFO's stamp, the forwarder's queue, and the stamps that leave it. -/
theorem stampRouting : Obligations.StampRouting := by
  intro s t hpow u
  refine ⟨fun ch => ⟨fun hwaits => ?_, fun st l hfifo hnext => ?_⟩, fun die => ⟨fun hnone => ?_, fun st l hrouted hroom => ?_,
    fun st l hrouted hfull => ?_, fun hwaits hset => ?_, fun st l hqueue hsent hset hcaps hdefs => ?_,
    fun st l c hc hqueue hsent hset hdefs hcaps hdie hfull hovf hlevel => ?_,
    fun st l d hd hqueue hsent hset hcaps hdefs hhome hstart hstop htakes => ?_⟩⟩
  · exact next_of hpow (exec_tinFifoDeliver t ch s) (State.tinDeliver_waits (s := u) hwaits) (Quiet.refl u)
  · obtain ⟨m, f, tt, w, hout, hm, hf⟩ := State.tinDeliver_out (s := u) hfifo hnext
    refine answers_of hpow (exec_tinFifoDeliver t ch s) hout (by constructor <;> rfl) ⟨State.setTin_same _ _ _, hm, hf, rfl, rfl, rfl⟩
  · exact next_of hpow (exec_forwardStamp t die s) (State.forwardStamp_none (s := u) hnone) (Quiet.refl u)
  · have hspec := State.forwardStamp_room (s := u) hrouted hroom
    refine answers_of_wrapped hpow (exec_forwardStamp t die s) fun _ => ?_
    generalize (s.advance t).forwardStamp die = y at hspec ⊢
    exact hspec
  · have hspec := State.forwardStamp_full (s := u) hrouted hfull
    refine answers_of_wrapped hpow (exec_forwardStamp t die s) fun _ => ?_
    generalize (s.advance t).forwardStamp die = y at hspec ⊢
    exact hspec
  · refine next_of hpow (exec_forwardDequeue t die s) ?_ (Quiet.refl u)
    rw [State.forwardDequeue_waits (s := s.advance t) hwaits]
    exact State.settle_id (s := u) hset
  · have hout := State.forwardDequeue_alone (s := u) hqueue hsent hcaps hdefs
    obtain ⟨⟨f, g, hrec⟩, hfwd, hcount⟩ := u.fwdOut_spec die l
    have hsettle : (u.fwdOut die l).settle = u.fwdOut die l := by
      refine State.settle_id (State.Settled.of_eq (s := u) hset ?_ ?_)
      · rw [hrec]
      · rw [hrec]
    refine answers_of hpow (exec_forwardDequeue t die s) ((congrArg State.settle hout).trans hsettle) ?_ ⟨hfwd, hcount, ?_⟩
    · rw [hrec]
      constructor <;> rfl
    · rw [hrec]
  · have hout := State.forwardDequeue_cap (s := u) hc hqueue hsent hdefs hcaps hdie hfull hovf hlevel
    obtain ⟨⟨f, g, hrec⟩, hfwd, -⟩ := u.fwdOut_spec die l
    have hsettle := State.settle_id (State.Settled.setCap (s := (u.fwdOut die l).report c 1 0 1) (c := c)
      (k := { u.cap c with inq := insItem st.item (u.cap c).inq }) (State.Settled.of_eq (s := u) hset (by rw [hrec]; rfl) (by rw [hrec]; rfl)) hfull)
    refine answers_of hpow (exec_forwardDequeue t die s) ((congrArg State.settle hout).trans hsettle) ?_ ⟨State.setCap_same _ _ _, ?_⟩
    · rw [hrec]
      constructor <;> rfl
    · exact congrArg Fwd.queue hfwd
  · have hout := State.forwardDequeue_def (s := u) hqueue hsent hcaps hdefs hhome hstart hstop htakes
    obtain ⟨⟨f, g, hrec⟩, hfwd, -⟩ := u.fwdOut_spec die l
    have hsettle : (((u.fwdOut die l).report (u.hOwner d) 1 0 1).setHdef d { u.hdef d with inq := insStamp st (u.hdef d).inq }).settle =
        ((u.fwdOut die l).report (u.hOwner d) 1 0 1).setHdef d { u.hdef d with inq := insStamp st (u.hdef d).inq } := by
      refine State.settle_id (State.Settled.of_eq (s := u) hset ?_ ?_)
      · rw [hrec]
        rfl
      · rw [hrec]
        rfl
    refine answers_of hpow (exec_forwardDequeue t die s) ((congrArg State.settle hout).trans hsettle) ?_ ⟨State.setHdef_same _ _ _, ?_⟩
    · rw [hrec]
      constructor <;> rfl
    · exact congrArg Fwd.queue hfwd

end Sys2Proof.Machine
end

section
/-! Proofs about Equinoxes, swaps and their windows (04_timing_inputs.md, R87 to R94, R103). -/

namespace Sys2Proof.Machine

variable {s x y : State} {t a n k i off slot ch c d : Nat} {p : Path} {v : Word} {r : RegInfo} {q : PageInfo} {c1 c2 : List Nat}

/-! ### Parts of a stamper -/

theorem Stamper.setInterp_eq (x : Stamper) (i : Nat) (w : Interp) : ∃ a b c d, x.setInterp i w = { x with i0 := a, i1 := b, i2 := c, i3 := d } := by
  unfold Stamper.setInterp
  split
  · exact ⟨_, _, _, _, rfl⟩
  split
  · exact ⟨_, _, _, _, rfl⟩
  split
  · exact ⟨_, _, _, _, rfl⟩
  · exact ⟨_, _, _, _, rfl⟩

/-! ### Events and counters of a stamper's channel -/

theorem State.tinEvt_side (s : State) (c b : Nat) : Side s (s.tinEvt c b) := Side.ite (s.evt_side _ _) (Side.refl s)

theorem State.tinBump_eq (s : State) (c off : Nat) : ∃ g, s.tinBump c off = { s with regs := g } := by
  unfold State.tinBump
  split
  · exact ⟨_, rfl⟩
  · exact ⟨_, rfl⟩

theorem State.tinBump_side (s : State) (c off : Nat) : Side s (s.tinBump c off) := Side.ite (s.bump64_side _ _ _) (Side.refl s)

theorem State.tinEvt_reg64 (s : State) (c b : Nat) (h : 0x00C ≤ i) : (s.tinEvt c b).reg64 (sTin c) i = s.reg64 (sTin c) i := by
  unfold State.tinEvt
  split
  · exact State.evt_reg64_above _ _ _ h
  · rfl

theorem State.tinBump_count (s : State) (hc : c < 64) (off : Nat) :
    (s.tinBump c off).reg64 (sTin c) off = min (s.reg64 (sTin c) off + 1) (2 ^ 64 - 1) := by
  rw [State.tinBump, if_pos hc, State.reg64_bump64]

theorem State.tinBump_reg64 (s : State) (c : Nat) (h : off + 4 < i ∨ i + 4 < off) : (s.tinBump c off).reg64 (sTin c) i = s.reg64 (sTin c) i := by
  unfold State.tinBump
  split
  · exact State.bump64_reg64 h
  · rfl

theorem State.tinEvt_bit (s : State) (hc : c < 64) {b : Nat} (hb : b < 32) : bit ((s.tinEvt c b).reg (ra (sTin c) 0x008)) b = true := by
  rw [State.tinEvt, if_pos hc]
  exact State.evt_bit _ hb

theorem State.tinEvt_bit_keep (s : State) (c b : Nat) (h : bit (s.reg (ra (sTin c) 0x008)) i = true) :
    bit ((s.tinEvt c b).reg (ra (sTin c) 0x008)) i = true := by
  unfold State.tinEvt
  split
  · exact State.evt_bit_keep _ _ _ h
  · exact h

theorem sTin_ne_sBbr (h : c < 64) : sTin c ≠ sBbr := by
  unfold sTin sBbr
  omega

theorem State.bbrFault_reg (hc : c < 64) (sl src code : Nat) (hi : i < 0x400) : (s.bbrFault sl src code).reg (ra (sTin c) i) = s.reg (ra (sTin c) i) :=
  State.bbrPush_reg_page _ _ _ (by rw [ra_div _ i hi]; exact sTin_ne_sBbr hc)

/-! ### Rotations and gate requests (R90, R93, R94) -/

theorem State.rotationStart_none (h : (s.stamper c).booted = false ∨ (s.stamper c).eqx ≠ none ∨ s.now < (s.stamper c).lastSwap + rotation - eqxLen) :
    s.rotationStart c = s := by
  refine if_neg fun hcond => ?_
  simp only [Bool.and_eq_true, decide_eq_true_eq, Option.isNone_iff_eq_none] at hcond
  obtain ⟨⟨⟨hboot, heqx⟩, hdue⟩, -⟩ := hcond
  rcases h with h | h | h
  · exact absurd (h.symm.trans hboot) Bool.false_ne_true
  · exact h heqx
  · exact absurd hdue (not_le.mpr h)

theorem State.rotationStart_due (hboot : (s.stamper c).booted = true) (heqx : (s.stamper c).eqx = none)
    (hdue : (s.stamper c).lastSwap + rotation - eqxLen ≤ s.now) (hrun : (s.stamper c).bootRun = 4) : s.rotationStart c =
    s.setStamper c { s.stamper c with eqx := some ⟨(s.stamper c).lastSwap + rotation - eqxLen, (s.stamper c).reqWait⟩, reqWait := false } := by
  refine if_pos ?_
  simp only [Bool.and_eq_true, decide_eq_true_eq, Option.isNone_iff_eq_none]
  exact ⟨⟨⟨hboot, heqx⟩, hdue⟩, hrun⟩

theorem State.calSuspend_none (h : s.calCh c = none) : s.calSuspend c = s := by
  unfold State.calSuspend
  rw [h]

/-- A gate request finds a window open, or READY still to be set for earlier requests. -/
def State.eqxBusy (s : State) (c : Nat) : Prop :=
  (∃ w, (s.stamper c).windowAt = some w ∧ s.now < w + 8) ∨ ∃ z, (s.stamper c).yAt = some z ∧ s.now < z

/-- The same, as a gate request's arrival computes it. -/
def State.eqxBusyB (s : State) (c : Nat) : Bool :=
  (match (s.stamper c).windowAt with
    | some w => decide (s.now < w + swapWin)
    | none => false) || (s.stamper c).yDue s.now

theorem State.eqxBusyB_iff (s : State) (c : Nat) : s.eqxBusyB c = true ↔ s.eqxBusy c := by
  unfold State.eqxBusyB State.eqxBusy Stamper.yDue
  cases (s.stamper c).windowAt <;> cases (s.stamper c).yAt <;> simp

theorem State.gateArrive_spec (hcal : s.calCh c = none) :
    (∀ e, (s.stamper c).eqx = some e → s.gateArrive c = s.setStamper c { s.stamper c with ready := false, eqx := some { e with gate := true } }) ∧
    ((s.stamper c).eqx = none → ¬s.eqxBusy c →
      s.gateArrive c = s.setStamper c { s.stamper c with ready := false, eqx := some ⟨s.now + 1, true⟩ }) ∧
    ((s.stamper c).eqx = none → s.eqxBusy c → s.gateArrive c = s.setStamper c { s.stamper c with ready := false, reqWait := true }) := by
  have harrive : s.gateArrive c = match (s.stamper c).eqx with
      | some e => s.setStamper c { s.stamper c with ready := false, eqx := some { e with gate := true } }
      | none => if s.eqxBusyB c then s.setStamper c { s.stamper c with ready := false, reqWait := true }
        else s.setStamper c { s.stamper c with ready := false, eqx := some ⟨s.now + 1, true⟩ } := by
    rw [State.gateArrive, State.calSuspend_none hcal]
    rfl
  rw [harrive]
  refine ⟨fun e he => by rw [he], fun he hfree => ?_, fun he hbusy => ?_⟩
  · rw [he]
    exact if_neg fun h => hfree ((s.eqxBusyB_iff c).mp h)
  · rw [he]
    exact if_pos ((s.eqxBusyB_iff c).mpr hbusy)

theorem State.gateRequest_none (h : s.gateReqs.contains ch = false ∨ s.inReset (sTin ch) = true) : s.gateRequest ch = s := by
  refine if_neg fun hcond => ?_
  obtain ⟨hreq, hreset⟩ := Bool.and_eq_true_iff.mp hcond
  rcases h with h | h
  · exact absurd (h.symm.trans hreq) Bool.false_ne_true
  · rw [h] at hreset
    exact Bool.false_ne_true hreset

/-- The request has reached its channel. -/
def State.gateTaken (s : State) (ch : Nat) : State :=
  { s with gateReqs := s.gateReqs.erase ch, meas := s.meas.map fun e => (e.1, e.2.arrived ch ((s.stamper ch).yDue s.now)) }

theorem State.gateRequest_some (hreq : s.gateReqs.contains ch = true) (hreset : s.inReset (sTin ch) = false) :
    s.gateRequest ch = (s.gateTaken ch).gateArrive ch := by
  refine (if_pos ?_).trans rfl
  rw [hreq, hreset]
  rfl

/-! ### The end of an Equinox (R87 to R92) -/

theorem State.equinoxDone_early (h : ∀ e, (s.stamper c).eqx = some e → s.now < e.start + eqxLen) : s.equinoxDone c c1 c2 = s := by
  unfold State.equinoxDone
  dsimp only
  split
  next e he => exact if_pos (h e he)
  · rfl

theorem State.equinoxDone_due {e : Eqx} (he : (s.stamper c).eqx = some e) (h : e.start + eqxLen ≤ s.now) : s.equinoxDone c c1 c2 =
    if (s.stamper c).bootRun < 4 then s.bootEqxDone c e c1 c2 else s.runEqxDone c e c1 c2 := by
  unfold State.equinoxDone
  dsimp only
  rw [he]
  exact if_neg (not_lt.mpr h)

theorem State.calAfterSwap_none (h : s.calCh c = none) (w : Nat) : s.calAfterSwap c w = s := by
  unfold State.calAfterSwap
  rw [h]

theorem State.calTryStep_none (h : s.calCh c = none) : s.calTryStep c = s := by
  unfold State.calTryStep
  rw [h]

/-- A channel's stamper after an Equinox that passed, before its swap. -/
def Stamper.passed (x : Stamper) (e : Eqx) (c1 c2 : List Nat) : Stamper :=
  { x.setInterp x.oos (eqxLoad (x.interp x.oos) c1 c2) with
    eqx := none, fails := 0, stuck := false, lastPass := true, yAt := if e.gate then some (e.start + 64 + 8) else x.yAt }

theorem State.runEqxDone_pass {e : Eqx} (hcal : s.calCh c = none) (h : eqxPass c1 c2 = true) :
    s.runEqxDone c e c1 c2 = (s.setStamper c (((s.stamper c).passed e c1 c2).swap (e.start + 64))).tinBump c 0x040 := by
  obtain ⟨i0, i1, i2, i3, hload⟩ := (s.stamper c).setInterp_eq (s.stamper c).oos (eqxLoad ((s.stamper c).interp (s.stamper c).oos) c1 c2)
  have hpass : s.runEqxDone c e c1 c2 =
      ((s.setStamper c (((s.stamper c).passed e c1 c2).swap (e.start + 64))).tinBump c 0x040).calAfterSwap c (e.start + 64) := by
    refine (if_pos h).trans ?_
    unfold Stamper.passed
    rw [hload]
  obtain ⟨g, hg⟩ := (s.setStamper c (((s.stamper c).passed e c1 c2).swap (e.start + 64))).tinBump_eq c 0x040
  rw [hpass, hg]
  exact State.calAfterSwap_none (s := { s.setStamper c (((s.stamper c).passed e c1 c2).swap (e.start + 64)) with regs := g }) hcal _

/-- A channel's stamper after an Equinox that failed. -/
def Stamper.failed (x : Stamper) (e : Eqx) : Stamper :=
  { x with
    eqx := none, fails := x.fails + 1, lastPass := false
    lastSwap := if e.gate then (if x.lastSwap + rotation ≤ e.start + 64 + eqxLen then x.lastSwap + rotation else x.lastSwap) else e.start + 64
    yAt := if e.gate then some (e.start + 64 + 8) else x.yAt }

/-- The counts and the event of an Equinox that failed. -/
def State.eqxCounted (s : State) (c : Nat) : State := ((s.tinBump c 0x040).tinBump c 0x048).tinEvt c 4

theorem State.eqxCounted_spec (s : State) (c : Nat) : Side s (s.eqxCounted c) ∧ (c < 64 →
    (s.eqxCounted c).reg64 (sTin c) 0x048 = min (s.reg64 (sTin c) 0x048 + 1) (2 ^ 64 - 1) ∧
    bit ((s.eqxCounted c).reg (ra (sTin c) 0x008)) 4 = true) := by
  unfold State.eqxCounted
  refine ⟨((s.tinBump_side c _).trans (State.tinBump_side _ c _)).trans (State.tinEvt_side _ c 4), fun hc => ⟨?_, State.tinEvt_bit _ hc (by decide)⟩⟩
  rw [State.tinEvt_reg64 _ _ _ (by decide), State.tinBump_count _ hc, State.tinBump_reg64 _ _ (.inl (by decide))]

theorem State.runEqxDone_fail {e : Eqx} (h : eqxPass c1 c2 = false) :
    s.runEqxDone c e c1 c2 = (((s.setStamper c ((s.stamper c).failed e)).eqxCounted c).eqxStuck c).calTryStep c := by
  refine if_neg ?_
  rw [h]
  exact Bool.false_ne_true

/-- What the count of failures in succession leaves. -/
theorem State.eqxStuck_spec (s : State) (c : Nat) : ∃ m, Side { s with stampers := m } (s.eqxStuck c) ∧
    (s.eqxStuck c).stamper c = { s.stamper c with stuck := (s.stamper c).stuck || decide ((s.stamper c).fails = 4) } ∧
    (c < 64 → (s.eqxStuck c).reg64 (sTin c) 0x048 = s.reg64 (sTin c) 0x048 ∧
      (bit (s.reg (ra (sTin c) 0x008)) 4 = true → bit ((s.eqxStuck c).reg (ra (sTin c) 0x008)) 4 = true)) := by
  unfold State.eqxStuck
  dsimp only
  split
  case isTrue hfails =>
    have hevt := (s.setStamper c { s.stamper c with stuck := true }).tinEvt_side c 5
    have hfault := State.bbrPush_side ((s.setStamper c { s.stamper c with stuck := true }).tinEvt c 5) 15 (stamperSlot c) [c, 1]
    have hside := hevt.trans hfault
    refine ⟨_, hside, ?_, fun hc => ⟨?_, fun hbit => ?_⟩⟩
    · refine (hside.stamper c).trans ((State.setStamper_same _ _ _).trans ?_)
      rw [decide_eq_true hfails, Bool.or_true]
    · rw [State.reg64, State.bbrFault_reg hc _ _ _ (by decide), State.bbrFault_reg hc _ _ _ (by decide)]
      exact State.tinEvt_reg64 _ _ _ (by decide)
    · rw [State.bbrFault_reg hc _ _ _ (by decide)]
      exact State.tinEvt_bit_keep _ _ _ hbit
  case isFalse hfails =>
    refine ⟨_, Side.refl s, ?_, fun _ => ⟨rfl, id⟩⟩
    rw [decide_eq_false hfails, Bool.or_false]

theorem State.runEqxDone_failed {e : Eqx} (hcal : s.calCh c = none) (h : eqxPass c1 c2 = false) :
    (s.runEqxDone c e c1 c2).stamper c = { (s.stamper c).failed e with stuck := (s.stamper c).stuck || decide ((s.stamper c).fails + 1 = 4) } ∧
    (c < 64 → (s.runEqxDone c e c1 c2).reg64 (sTin c) 0x048 = min (s.reg64 (sTin c) 0x048 + 1) (2 ^ 64 - 1) ∧
      bit ((s.runEqxDone c e c1 c2).reg (ra (sTin c) 0x008)) 4 = true) := by
  obtain ⟨hside, hcount⟩ := (s.setStamper c ((s.stamper c).failed e)).eqxCounted_spec c
  have hst := (hside.stamper c).trans (State.setStamper_same _ _ _)
  obtain ⟨m, hstuck, hst2, hreg⟩ := ((s.setStamper c ((s.stamper c).failed e)).eqxCounted c).eqxStuck_spec c
  rw [State.runEqxDone_fail h]
  have hcal' : (((s.setStamper c ((s.stamper c).failed e)).eqxCounted c).eqxStuck c).calCh c = none := by
    rw [State.calCh, hstuck.cal]
    exact (congrArg (fun k : Cal => Sparse.find k.chans c) hside.cal).trans hcal
  rw [State.calTryStep_none hcal', hst2, hst]
  refine ⟨rfl, fun hc => ?_⟩
  obtain ⟨h48, hbit⟩ := hcount hc
  obtain ⟨hkeep, hkeepbit⟩ := hreg hc
  exact ⟨hkeep.trans h48, hkeepbit hbit⟩

/-! ### Boot (R103) -/

/-- The interpolators that have passed, after one more has run. -/
def Stamper.bootMask (x : Stamper) (c1 c2 : List Nat) : Nat := if eqxPass c1 c2 then x.bootPass + 2 ^ x.bootRun else x.bootPass

/-- A stamper after one of its boot Equinoxes. -/
def Stamper.bootRan (x : Stamper) (now : Nat) (e : Eqx) (c1 c2 : List Nat) : Stamper :=
  { (if eqxPass c1 c2 then x.setInterp x.bootRun (eqxLoad (x.interp x.bootRun) c1 c2) else x) with
    bootRun := x.bootRun + 1, bootPass := x.bootMask c1 c2, lastPass := eqxPass c1 c2,
    eqx := if x.bootRun < 3 then some ⟨now, e.gate⟩ else if e.gate then some ⟨now, true⟩ else none }

theorem Stamper.bootRan_spec (x : Stamper) (now : Nat) (e : Eqx) (c1 c2 : List Nat) :
    (x.bootRan now e c1 c2).bootRun = x.bootRun + 1 ∧ (x.bootRan now e c1 c2).bootPass = x.bootMask c1 c2 ∧
    (x.bootRan now e c1 c2).booted = x.booted ∧
    (x.bootRan now e c1 c2).eqx = if x.bootRun < 3 then some ⟨now, e.gate⟩ else if e.gate then some ⟨now, true⟩ else none := by
  refine ⟨rfl, rfl, ?_, rfl⟩
  obtain ⟨i0, i1, i2, i3, hload⟩ := x.setInterp_eq x.bootRun (eqxLoad (x.interp x.bootRun) c1 c2)
  unfold Stamper.bootRan
  rw [hload]
  split <;> rfl

/-- The counts and the event of a boot Equinox. -/
def State.bootCounted (s : State) (c : Nat) (ok : Bool) : State :=
  if ok then s.tinBump c 0x040 else ((s.tinBump c 0x040).tinBump c 0x048).tinEvt c 4

theorem State.bootCounted_side (s : State) (c : Nat) (ok : Bool) : Side s (s.bootCounted c ok) :=
  Side.ite (s.tinBump_side c _) (s.eqxCounted_spec c).1

/-- What becomes of a stamper, its boot Equinox counted. -/
def State.bootJudged (s : State) (c i pass : Nat) (ok : Bool) : State :=
  if i = 2 ∧ pass = 7 then s.stamperStart c (s.stamper c)
  else if i = 3 ∧ (s.stamper c).booted then
    if ok then s else (s.setStamper c { s.stamper c with stuck := true }).tinEvt c 5
  else if i = 3 then
    if pass ∈ [7, 11, 13, 14] then
      (s.stamperStart c { (s.stamper c).takeThree pass with stuck := true }).tinEvt c 5
    else if pass = 15 then s.stamperStart c (s.stamper c)
    else (s.setStamper c { s.stamper c with bootFail := true }).bbrFault (stamperSlot c) c 2
  else s

theorem State.bootEqxDone_eq (s : State) (c : Nat) (e : Eqx) (c1 c2 : List Nat) : s.bootEqxDone c e c1 c2 =
    ((s.setStamper c ((s.stamper c).bootRan s.now e c1 c2)).bootCounted c (eqxPass c1 c2)).bootJudged c (s.stamper c).bootRun
      ((s.stamper c).bootMask c1 c2) (eqxPass c1 c2) := rfl

/-- The state whose stamper is judged: it has run, and the run is counted. -/
theorem State.bootEqxDone_judged (s : State) (c : Nat) (e : Eqx) (c1 c2 : List Nat) : ∃ y : State, y.now = s.now ∧
    y.stamper c = (s.stamper c).bootRan s.now e c1 c2 ∧
    s.bootEqxDone c e c1 c2 = y.bootJudged c (s.stamper c).bootRun ((s.stamper c).bootMask c1 c2) (eqxPass c1 c2) := by
  have hside := (s.setStamper c ((s.stamper c).bootRan s.now e c1 c2)).bootCounted_side c (eqxPass c1 c2)
  exact ⟨_, hside.quiet.now, (hside.stamper c).trans (State.setStamper_same _ _ _), s.bootEqxDone_eq c e c1 c2⟩

theorem State.stamperStart_stamper (s : State) (c : Nat) (x : Stamper) :
    (s.stamperStart c x).stamper c = { x with booted := true, bootFail := false, ready := true, lastSwap := s.now } := by
  have hside : Side (s.setStamper c { x with booted := true, bootFail := false, ready := true, lastSwap := s.now }) (s.stamperStart c x) :=
    Side.ite (State.tinEvt_side _ c 0) (Side.refl _)
  exact (hside.stamper c).trans (State.setStamper_same _ _ _)

theorem State.bootJudged_start (hi : n = 2) (ok : Bool) : s.bootJudged c n 7 ok = s.stamperStart c (s.stamper c) := if_pos ⟨hi, rfl⟩

theorem State.bootJudged_waits {pass : Nat} (hi : n < 3) (h : ¬(n = 2 ∧ pass = 7)) (ok : Bool) : s.bootJudged c n pass ok = s :=
  (if_neg h).trans ((if_neg fun e => absurd e.1 (by omega)).trans (if_neg (by omega)))

theorem State.bootJudged_early {pass : Nat} (hn : n < 3) (ok : Bool) : (s.bootJudged c n pass ok).stamper c =
    if n = 2 ∧ pass = 7 then { s.stamper c with booted := true, bootFail := false, ready := true, lastSwap := s.now } else s.stamper c := by
  by_cases h : n = 2 ∧ pass = 7
  · obtain ⟨rfl, rfl⟩ := h
    rw [State.bootJudged_start rfl, State.stamperStart_stamper, if_pos ⟨rfl, rfl⟩]
  · rw [State.bootJudged_waits hn h, if_neg h]

theorem Stamper.bootMask_seven (x : Stamper) (c1 c2 : List Nat) (h : x.bootPass < 2 ^ x.bootRun) :
    x.bootRun = 2 ∧ x.bootMask c1 c2 = 7 ↔ x.bootRun = 2 ∧ x.bootPass = 3 ∧ eqxPass c1 c2 = true := by
  unfold Stamper.bootMask
  refine and_congr_right fun hrun => ?_
  rw [hrun] at h ⊢
  cases eqxPass c1 c2
  · simp only [Bool.false_eq_true, if_false, and_false, iff_false]
    omega
  · simp only [if_true, and_true]
    omega

theorem State.bootJudged_three {pass : Nat} (hboot : (s.stamper c).booted = false) (h : pass ∈ [7, 11, 13, 14]) (ok : Bool) :
    s.bootJudged c 3 pass ok = (s.stamperStart c { (s.stamper c).takeThree pass with stuck := true }).tinEvt c 5 := by
  refine (if_neg fun e => absurd e.1 (by decide)).trans ((if_neg fun e => ?_).trans ((if_pos rfl).trans (if_pos h)))
  exact absurd (hboot.symm.trans e.2) Bool.false_ne_true

theorem State.bootJudged_none {pass : Nat} (hboot : (s.stamper c).booted = false) (h : pass ∉ [7, 11, 13, 14]) (h15 : pass ≠ 15) (ok : Bool) :
    s.bootJudged c 3 pass ok = (s.setStamper c { s.stamper c with bootFail := true }).bbrFault (stamperSlot c) c 2 := by
  refine (if_neg fun e => absurd e.1 (by decide)).trans ((if_neg fun e => ?_).trans ((if_pos rfl).trans ((if_neg h).trans (if_neg h15))))
  exact absurd (hboot.symm.trans e.2) Bool.false_ne_true

/-! ### The window closes (R92 to R94) -/

theorem State.measReady_none (h : s.armedSlots = []) : s.measReady ch = s := by
  rw [State.measReady, h]
  rfl

theorem State.windowClose_open (hw : ∀ w, (s.stamper c).windowAt = some w → s.now < w + 8) (hy : ∀ y, (s.stamper c).yAt = some y → s.now < y) :
    s.windowClose c = s := by
  unfold State.windowClose
  dsimp only
  cases hwin : (s.stamper c).windowAt with
  | none =>
    cases hyat : (s.stamper c).yAt with
    | none => rfl
    | some y => exact if_neg (by simpa using hy y hyat)
  | some w =>
    have hlt : s.now < w + swapWin := hw w hwin
    cases hyat : (s.stamper c).yAt with
    | none => exact if_neg (by simpa using hlt)
    | some y => exact if_neg (by simpa using ⟨hlt, hy y hyat⟩)

/-- What becomes of a stamper whose window, or whose wait for READY, has ended; `y` is the edge of its READY. -/
def State.windowEnds (s : State) (c : Nat) (wEnd yEnd : Bool) (y : Nat) : State :=
  if wEnd || yEnd then
    let x := s.stamper c
    let x1 := { x with
      windowAt := if wEnd then none else x.windowAt
      outgoing := if wEnd then none else x.outgoing
      yAt := if yEnd then none else x.yAt }
    if x.reqWait then (s.calSuspend c).setStamper c { x1 with reqWait := false, eqx := some ⟨y, true⟩ }
    else if yEnd then s.setStamper c { x1 with ready := !(x.eqx.any (·.gate)) }
    else s.setStamper c x1
  else s

theorem State.windowClose_eq {w : Nat} (hwin : (s.stamper c).windowAt = some w) (hw : w + 8 ≤ s.now) :
    ((s.stamper c).yAt = none → s.windowClose c = s.windowEnds c true false (w + 8)) ∧
    ((s.stamper c).yAt = some (w + 8) → s.windowClose c = s.windowEnds c true true (w + 8)) := by
  have hclose (z : Option Nat) (hy : (s.stamper c).yAt = z) : s.windowClose c = s.windowEnds c (decide (w + 8 ≤ s.now))
      (match (generalizing := false) z with
        | some y => decide (y ≤ s.now)
        | none => false)
      (match (generalizing := false) z, some w with
        | some y, _ => y
        | none, some w => w + swapWin
        | none, none => s.now) := by
    subst hy
    rw [← hwin]
    unfold State.windowClose
    rw [show decide (w + 8 ≤ s.now) = (match (s.stamper c).windowAt with
      | some w => decide (w + swapWin ≤ s.now)
      | none => false) from by rw [hwin]]
    rfl
  rw [decide_eq_true hw] at hclose
  refine ⟨fun hy => hclose none hy, fun hy => (hclose (some (w + 8)) hy).trans ?_⟩
  exact congrArg (fun b => s.windowEnds c true b (w + 8)) (decide_eq_true hw)

theorem State.windowEnds_spec (s : State) (c y : Nat) :
    ((s.stamper c).reqWait = false →
      s.windowEnds c true false y = s.setStamper c { s.stamper c with windowAt := none, outgoing := none, yAt := (s.stamper c).yAt } ∧
      s.windowEnds c true true y = s.setStamper c
        { s.stamper c with windowAt := none, outgoing := none, yAt := none, ready := !((s.stamper c).eqx.any (·.gate)) }) ∧
    ((s.stamper c).reqWait = true → s.calCh c = none → s.windowEnds c true true y = s.setStamper c
      { s.stamper c with windowAt := none, outgoing := none, yAt := none, reqWait := false, eqx := some ⟨y, true⟩ }) := by
  unfold State.windowEnds
  dsimp only
  refine ⟨fun hreq => ?_, fun hreq hcal => ?_⟩
  · rw [hreq]
    exact ⟨rfl, rfl⟩
  · rw [hreq, State.calSuspend_none hcal]
    rfl

/-- Settles O42, command by command. -/
theorem equinoxes : Obligations.Equinoxes := by
  intro s t c hpow u now x rot
  have hwindow (harmed : s.armedSlots = []) {z : Stamper} (hz : u.windowClose c = u.setStamper c z) :
      exec (.swapWindowClose t c) s = .next (u.setStamper c z) := by
    refine next_of hpow (exec_swapWindowClose t c s) ?_ (u.setStamper_quiet c z)
    rw [show (s.advance t).windowClose c = _ from hz]
    exact State.measReady_none (s := u.setStamper c z) harmed
  refine ⟨fun hno => ?_, fun hboot heqx hdue hrun => ?_, fun ch => ?_, fun c1 c2 => ⟨fun hnone => ?_, fun e he => ?_⟩, fun harmed => ⟨fun hw hy => ?_, fun w hwin hw hy hreq => ?_,
    fun w hwin hw hy => ⟨fun hreq => ?_, fun hreq hcal => ?_⟩⟩⟩
  · exact next_of hpow (exec_rotationEquinoxStart t c s) (State.rotationStart_none (s := u) hno) (Quiet.refl u)
  · exact next_of hpow (exec_rotationEquinoxStart t c s) (State.rotationStart_due (s := u) hboot heqx hdue hrun) (u.setStamper_quiet c _)
  · intro y
    refine ⟨fun hno => next_of hpow (exec_gateRequest t ch s) (State.gateRequest_none (s := u) hno) (Quiet.refl u), fun hreq hreset hcal => ?_⟩
    intro v busy
    have hsome : u.gateRequest ch = v.gateArrive ch := State.gateRequest_some (s := u) hreq hreset
    have hv : Quiet u v := by constructor <;> rfl
    have hgo {z : Stamper} (hz : v.gateArrive ch = v.setStamper ch z) : exec (.gateRequest t ch) s = .next (v.setStamper ch z) :=
      next_of hpow (exec_gateRequest t ch s) (hsome.trans hz) (hv.trans (v.setStamper_quiet ch z))
    obtain ⟨hruns, hfree, hbusy⟩ := State.gateArrive_spec (s := v) (c := ch) hcal
    exact ⟨fun e he => hgo (hruns e he), fun he hf => hgo (hfree he hf), fun he hb => hgo (hbusy he hb)⟩
  · exact next_of hpow (exec_equinoxDone t c c1 c2 s)
      (State.equinoxDone_early (s := u) fun e he => absurd (he.symm.trans hnone) (Option.some_ne_none e)) (Quiet.refl u)
  · intro w
    have hdone (hw : w ≤ now) := State.equinoxDone_due (s := u) (c1 := c1) (c2 := c2) he hw
    have hlast (hw : w ≤ now) (hrun : x.bootRun = 4) : u.equinoxDone c c1 c2 = u.runEqxDone c e c1 c2 :=
      (hdone hw).trans (if_neg (by rw [show (u.stamper c).bootRun = 4 from hrun]; decide))
    have hboots (hw : w ≤ now) (hrun : x.bootRun < 4) : u.equinoxDone c c1 c2 = u.bootEqxDone c e c1 c2 := (hdone hw).trans (if_pos hrun)
    refine ⟨fun hearly => ?_, fun hw hrun hcal => ⟨fun hpass => ?_, fun hfail => ?_⟩, fun hw hrun hmask => ?_, fun hw hrun hboot => ⟨fun hpass hmask => ?_, fun hfail hmask => ?_⟩⟩
    · refine next_of hpow (exec_equinoxDone t c c1 c2 s) (State.equinoxDone_early (s := u) fun e' he' => ?_) (Quiet.refl u)
      obtain rfl := Option.some.inj (he'.symm.trans he)
      exact hearly
    · have hrun' := (hlast hw hrun).trans (State.runEqxDone_pass (s := u) hcal hpass)
      obtain ⟨g, hg⟩ := (u.setStamper c (((u.stamper c).passed e c1 c2).swap (e.start + 64))).tinBump_eq c 0x040
      have hcount (hc : c.val < 64) := (u.setStamper c (((u.stamper c).passed e c1 c2).swap (e.start + 64))).tinBump_count hc 0x040
      refine answers_of hpow (exec_equinoxDone t c c1 c2 s) hrun' ?_ ⟨?_, hcount, ?_⟩
      · exact (u.setStamper_quiet c _).trans (State.tinBump_side _ c _).quiet
      · rw [(State.tinBump_side _ c _).stamper]
        exact State.setStamper_same _ _ _
      · rw [hg]
        rfl
    · obtain ⟨hst, hcount⟩ := State.runEqxDone_failed (s := u) (c := c) (e := e) hcal hfail
      refine answers_of_wrapped hpow (exec_equinoxDone t c c1 c2 s) fun _ => ?_
      rw [show (s.advance t).equinoxDone c c1 c2 = _ from hlast hw hrun]
      generalize u.runEqxDone c e c1 c2 = z at hst hcount
      change (z.stamper c).fails = x.fails + 1 ∧ (z.stamper c).eqx = none ∧ (z.stamper c).oos = x.oos ∧ (∀ k, (z.stamper c).at' k = x.at' k) ∧
        (z.stamper c).interp x.oos = x.interp x.oos ∧ (z.stamper c).stuck = (x.stuck || decide (x.fails + 1 = 4)) ∧
        (z.stamper c).yAt = (if e.gate then some (w + 8) else x.yAt) ∧ (e.gate = false → (z.stamper c).lastSwap = w) ∧ _
      rw [hst]
      refine ⟨rfl, rfl, rfl, fun _ => rfl, rfl, rfl, rfl, fun hg => if_neg ?_, hcount⟩
      rw [hg]
      exact Bool.false_ne_true
    · obtain ⟨y, hnow, hst, hjudge⟩ := u.bootEqxDone_judged c e c1 c2
      obtain ⟨hran, hpasses, hbooted, heqx⟩ := (u.stamper c).bootRan_spec u.now e c1 c2
      rw [← hst] at hran hpasses hbooted heqx
      replace heqx := heqx.trans (if_pos hrun)
      have hsum : (y.stamper c).bootPass = x.bootPass + (if eqxPass c1 c2 then 2 ^ x.bootRun else 0) := by
        rw [hpasses, Stamper.bootMask]
        split
        · rfl
        · rfl
      have hearly := State.bootJudged_early (s := y) (c := c) (n := (u.stamper c).bootRun) (pass := (u.stamper c).bootMask c1 c2) hrun (eqxPass c1 c2)
      have hseven := (u.stamper c).bootMask_seven c1 c2 hmask
      refine answers_of_wrapped hpow (exec_equinoxDone t c c1 c2 s) fun _ => ?_
      rw [show (s.advance t).equinoxDone c c1 c2 = _ from (hboots hw (by omega)).trans hjudge]
      generalize y.bootJudged c (u.stamper c).bootRun ((u.stamper c).bootMask c1 c2) (eqxPass c1 c2) = z at hearly
      change (z.stamper c).bootRun = x.bootRun + 1 ∧ (z.stamper c).eqx = some ⟨now, e.gate⟩ ∧ (z.stamper c).bootPass = _ ∧
        ((z.stamper c).booted = true ↔ x.booted = true ∨ (x.bootRun = 2 ∧ x.bootPass = 3 ∧ eqxPass c1 c2 = true))
      rw [hearly]
      by_cases h7 : (u.stamper c).bootRun = 2 ∧ (u.stamper c).bootMask c1 c2 = 7
      · rw [if_pos h7]
        exact ⟨hran, heqx, hsum, iff_of_true rfl (.inr (hseven.mp h7))⟩
      · rw [if_neg h7, hbooted]
        refine ⟨hran, heqx, hsum, (or_iff_left_iff_imp.mpr fun h => absurd (hseven.mpr h) h7).symm⟩
    · obtain ⟨y, hnow, hst, hjudge⟩ := u.bootEqxDone_judged c e c1 c2
      obtain ⟨-, -, hbooted, -⟩ := (u.stamper c).bootRan_spec u.now e c1 c2
      rw [← hst, show (u.stamper c).booted = false from hboot] at hbooted
      have hthree : (u.stamper c).bootMask c1 c2 ∈ [7, 11, 13, 14] := by
        rw [Stamper.bootMask, if_pos hpass, show (u.stamper c).bootRun = 3 from hrun]
        change x.bootPass + 2 ^ 3 ∈ _
        revert hmask
        generalize x.bootPass = m
        simp only [List.mem_cons, List.not_mem_nil, or_false]
        omega
      rw [show (u.stamper c).bootRun = 3 from hrun, State.bootJudged_three hbooted hthree] at hjudge
      have hstart := (State.tinEvt_side (y.stamperStart c { (y.stamper c).takeThree ((u.stamper c).bootMask c1 c2) with stuck := true }) c 5).stamper c
      rw [State.stamperStart_stamper, hnow] at hstart
      refine answers_of_wrapped hpow (exec_equinoxDone t c c1 c2 s) fun _ => ?_
      rw [show (s.advance t).equinoxDone c c1 c2 = _ from (hboots hw (by omega)).trans hjudge]
      generalize (y.stamperStart c { (y.stamper c).takeThree ((u.stamper c).bootMask c1 c2) with stuck := true }).tinEvt c 5 = z at hstart
      change (z.stamper c).booted = true ∧ (z.stamper c).ready = true ∧ (z.stamper c).stuck = true ∧ (z.stamper c).lastSwap = now ∧
        (z.stamper c).bootFail = false
      rw [hstart]
      exact ⟨rfl, rfl, rfl, rfl, rfl⟩
    · obtain ⟨y, hnow, hst, hjudge⟩ := u.bootEqxDone_judged c e c1 c2
      obtain ⟨-, -, hbooted, -⟩ := (u.stamper c).bootRan_spec u.now e c1 c2
      rw [← hst, show (u.stamper c).booted = false from hboot] at hbooted
      have hsame : (u.stamper c).bootMask c1 c2 = x.bootPass := by
        rw [Stamper.bootMask, if_neg (by rw [hfail]; exact Bool.false_ne_true)]
        rfl
      have hnot : x.bootPass ∉ [7, 11, 13, 14] ∧ x.bootPass ≠ 15 := by
        revert hmask
        generalize x.bootPass = m
        simp only [List.mem_cons, List.not_mem_nil, or_false]
        omega
      rw [hsame, show (u.stamper c).bootRun = 3 from hrun, State.bootJudged_none hbooted hnot.1 hnot.2] at hjudge
      have hstart : ((y.setStamper c { y.stamper c with bootFail := true }).bbrFault (stamperSlot c) c 2).stamper c =
          { y.stamper c with bootFail := true } := ((State.bbrPush_side _ _ _ _).stamper c).trans (State.setStamper_same _ _ _)
      refine answers_of_wrapped hpow (exec_equinoxDone t c c1 c2 s) fun _ => ?_
      rw [show (s.advance t).equinoxDone c c1 c2 = _ from (hboots hw (by omega)).trans hjudge]
      generalize (y.setStamper c { y.stamper c with bootFail := true }).bbrFault (stamperSlot c) c 2 = z at hstart
      change (z.stamper c).booted = false ∧ (z.stamper c).bootFail = true
      rw [hstart]
      exact ⟨hbooted, rfl⟩
  · refine next_of hpow (exec_swapWindowClose t c s) ?_ (Quiet.refl u)
    rw [State.windowClose_open (s := s.advance t) hw hy]
    exact State.measReady_none (s := u) harmed
  · refine hwindow harmed (((State.windowClose_eq (s := u) hwin hw).1 hy).trans (((u.windowEnds_spec c (w + 8)).1 hreq).1.trans ?_))
    rw [show (u.stamper c).yAt = none from hy]
    exact congrArg (fun z => u.setStamper c { x with windowAt := none, outgoing := none, yAt := z }) hy.symm
  · exact hwindow harmed (((State.windowClose_eq (s := u) hwin hw).2 hy).trans ((u.windowEnds_spec c (w + 8)).1 hreq).2)
  · exact hwindow harmed (((State.windowClose_eq (s := u) hwin hw).2 hy).trans ((u.windowEnds_spec c (w + 8)).2 hreq hcal))

end Sys2Proof.Machine
end

section
/-! The results of the measurement engine (R114, R124 to R132): a completed gate's tallies, its record and its statistics block. -/

namespace Sys2Proof.Machine

variable {s x y : State} {i k n : Nat} {g g0 : MGate} {rest : List MGate} {r : GateRes}

/-! ### What a gate's completion reads -/

theorem State.asKept_plain (h : s.oldWords = []) (off n : Nat) (f : State → State) : s.asKept off n f = f s := by
  unfold State.asKept State.keeper
  rw [h]
  rfl

/-- A slot with no stamp in its lane queue, drained to now. -/
def State.drainedTo (s : State) (i : Nat) : State := s.setMslot i { s.mslot i with drained := s.now }

theorem takeSrc_nil (src k : Nat) : takeSrc src k [] = ([], []) := by
  unfold takeSrc
  rfl

theorem State.measDrain_nil (h : (s.mslot i).lane = []) : s.measDrain i = s.drainedTo i := by
  unfold State.measDrain
  dsimp only
  rw [h, takeSrc_nil]
  dsimp only
  rw [takeSrc_nil, ite_self]
  have hlane : { s.mslot i with lane := [], drained := s.now } = { s.mslot i with drained := s.now } := by
    rw [← h]
  exact congrArg (s.setMslot i) hlane

theorem State.drainedTo_mslot (s : State) (i : Nat) : (s.drainedTo i).mslot i = { s.mslot i with drained := s.now } :=
  State.setMslot_same _ _ _

theorem State.drainedTo_mslot_ne (s : State) {j : Nat} (h : j ≠ i) : (s.drainedTo i).mslot j = s.mslot j :=
  State.setMslot_ne _ _ (Ne.symm h)

theorem State.drainedTo_srcPast (s : State) (i src : Nat) (p : Int) : (s.drainedTo i).srcPast i src p = s.srcPast i src p := by
  unfold State.srcPast
  rw [s.drainedTo_mslot i]
  rfl

theorem State.drainedTo_gateDue (s : State) (i : Nat) (g : MGate) : (s.drainedTo i).gateDue i g = s.gateDue i g := by
  unfold State.gateDue
  rw [s.drainedTo_srcPast, s.drainedTo_srcPast]
  rfl

theorem State.drainedTo_gateFlags (s : State) (i : Nat) (g : MGate) : (s.drainedTo i).gateFlags i g = s.gateFlags i g := by
  unfold State.gateFlags
  rw [s.drainedTo_mslot i]
  rfl

/-! ### Tallies -/

/-- A gate's tallies: status words of the slot above its count of empty gates, event bits, service reports and free values. -/
structure Tallied (i : Nat) (s x : State) : Prop where
  side : ∃ m e p q o b f, x = { s with regs := m, evtAt := e, pba := p, bbr := q, out := o, tab := b, freeCtr := f }
  words : ∀ w, w ≤ 18 → x.tabw (oMeas i w) = s.tabw (oMeas i w)
  count : x.reg64 sMeas 0x0E8 = s.reg64 sMeas 0x0E8

theorem Tallied.refl (i : Nat) (s : State) : Tallied i s s := ⟨⟨_, _, _, _, _, _, _, rfl⟩, fun _ _ => rfl, rfl⟩

theorem Tallied.trans (h : Tallied i s x) (h' : Tallied i x y) : Tallied i s y := by
  obtain ⟨⟨_, _, _, _, _, _, _, hx⟩, hwords, hcount⟩ := h
  obtain ⟨⟨_, _, _, _, _, _, _, hy⟩, hwords', hcount'⟩ := h'
  refine ⟨?_, fun w hw => (hwords' w hw).trans (hwords w hw), hcount'.trans hcount⟩
  rw [hy, hx]
  exact ⟨_, _, _, _, _, _, _, rfl⟩

theorem Tallied.ite {c : Prop} [Decidable c] (h : Tallied i s x) (h' : Tallied i s y) : Tallied i s (if c then x else y) := by
  split
  · exact h
  · exact h'

theorem State.tbump_tallied (s : State) (i n : Nat) (h : 18 < k) : Tallied i s (s.tbump (oMeas i k) n) :=
  ⟨⟨_, _, _, _, _, _, _, rfl⟩, fun _ hw => State.setTabw_tabw_ne _ _ (by unfold oMeas; omega), rfl⟩

theorem State.report_tallied (s : State) (i : Nat) {c : Nat} (h : c < 512) {stage col : Nat} (hw : 40 + 3 * stage + col < 64) (n : Nat) :
    Tallied i s (s.report c stage col n) :=
  ⟨⟨_, _, _, _, _, _, _, rfl⟩, fun _ _ => State.report_above s h hw n _ (by unfold oMeas; omega), rfl⟩

theorem State.evt_tallied (s : State) (i b : Nat) : Tallied i s (s.evt sMeas b) := by
  have htab := (s.evt_side sMeas b).tab
  refine ⟨?_, fun w _ => ?_, s.evt_reg64_above _ _ (by decide)⟩
  · obtain ⟨_, _, _, _, _, h⟩ := s.evt_side sMeas b
    rw [h]
    exact ⟨_, _, _, _, _, _, _, rfl⟩
  · rw [State.tabw, htab, State.tabw]

theorem State.mOwner_lt (s : State) (i : Nat) : s.mOwner i < 512 := Nat.mod_lt _ (by decide)

/-- The tallies of a completed gate: missing stops, long intervals, a late opening, refused edges, Frost. -/
def State.gateTallied (s : State) (i : Nat) (g : MGate) (r : GateRes) (frost : Bool) : State :=
  let s2 := ({ s with freeCtr := s.freeCtr + r.used }.tbump (oMeas i 23) r.missStop).tbump (oMeas i 24) r.longIvl
  let s3 := if g.lateOpen then s2.report (s.mOwner i) 4 1 1 else s2
  let s4 := if g.close0 ≠ g.close1 then s3.tbump (oMeas i 22) 1 else s3
  if frost then (s4.tbump (oMeas i 21) 1).evt sMeas 5 else s4

theorem State.gateTallied_tallied (s : State) (i : Nat) (g : MGate) (r : GateRes) (frost : Bool) : Tallied i s (s.gateTallied i g r frost) := by
  have hfree : Tallied i s { s with freeCtr := s.freeCtr + r.used } := ⟨⟨_, _, _, _, _, _, _, rfl⟩, fun _ _ => rfl, rfl⟩
  have h2 := (hfree.trans (State.tbump_tallied _ i r.missStop (by decide : 18 < 23))).trans (State.tbump_tallied _ i r.longIvl (by decide : 18 < 24))
  have h3 := Tallied.ite (c := g.lateOpen = true) (h2.trans (State.report_tallied _ i (s.mOwner_lt i) (by decide : 40 + 3 * 4 + 1 < 64) 1)) h2
  have h4 := Tallied.ite (c := g.close0 ≠ g.close1) (h3.trans (State.tbump_tallied _ i 1 (by decide : 18 < 22))) h3
  exact Tallied.ite ((h4.trans (State.tbump_tallied _ i 1 (by decide : 18 < 21))).trans (State.evt_tallied _ i 5)) h4

theorem State.gateTallied_frost (s : State) (i : Nat) (g : MGate) (r : GateRes) :
    bit ((s.gateTallied i g r true).reg (ra sMeas 0x008)) 5 = true := State.evt_bit sMeas (by decide)

/-! ### Publication -/

/-- A record of slot `i`, whose state becomes `m`, is published with an event bit, and sent where DMA_EN is 1. -/
structure Published (i bitNo : Nat) (m : MSlot) (b : List Byte) (s x : State) : Prop where
  slot : x.mslot i = m
  others : ∀ j, j ≠ i → x.mslot j = s.mslot j
  event : bit (x.reg (ra sMeas 0x008)) bitNo = true
  events : ∀ e, bit (s.reg (ra sMeas 0x008)) e = true → bit (x.reg (ra sMeas 0x008)) e = true
  off : s.tbit (oMeas i 0) 18 = false → x.dma = s.dma
  on : s.tbit (oMeas i 0) 18 = true → (x.dmaCh (s.tfld (oMeas i 0) 12 6)).handed =
    (s.dmaCh (s.tfld (oMeas i 0) 12 6)).handed ++ [{ kind := 0, body := b, src := .meas i (s.mOwner i) }]
  ctxs : x.ctxs = s.ctxs
  caps : x.caps = s.caps
  tab : x.tab = s.tab

theorem State.condResult_eq (s : State) (i : Nat) (stat : Bool) (p : Int) (t : Nat) : ∃ l, s.condResult i stat p t = { s with condIn := l } := by
  unfold State.condResult
  exact exists_eq_ite ⟨_, rfl⟩ ⟨_, rfl⟩

/-- A record before its event: the slot's new state, windows on its older records stale, the message handed. -/
def State.measSent (s : State) (i : Nat) (m : MSlot) (stat : Bool) (b : List Byte) : State := ((s.setMslot i m).winStale i stat).measSend i b

theorem State.measSent_spec (s : State) (i : Nat) (m : MSlot) (stat : Bool) (b : List Byte) :
    ∃ w d, s.measSent i m stat b = { s.setMslot i m with measWins := w, dma := d } ∧ (s.tbit (oMeas i 0) 18 = false → d = s.dma) ∧
      (s.tbit (oMeas i 0) 18 = true → (Sparse.get {} d (s.tfld (oMeas i 0) 12 6)).handed =
        (s.dmaCh (s.tfld (oMeas i 0) 12 6)).handed ++ [{ kind := 0, body := b, src := .meas i (s.mOwner i) }]) := by
  unfold State.measSent State.measSend
  cases h : s.tbit (oMeas i 0) 18 with
  | false => exact ⟨_, _, if_neg (by rw [show ((s.setMslot i m).winStale i stat).tbit (oMeas i 0) 18 = false from h]; exact Bool.false_ne_true),
      fun _ => rfl, fun e => absurd e (by decide)⟩
  | true => exact ⟨_, _, if_pos h, fun e => absurd e (by decide), fun _ => congrArg Dma.handed (State.setDma_same s _ _)⟩

/-- A record that has been sent, and its event bit. -/
theorem State.measSent_published (s : State) (i : Nat) (m : MSlot) (stat : Bool) (b : List Byte) {bitNo : Nat} (hbit : bitNo < 32) (hside : Side (s.measSent i m stat b) x)
    (hevent : x.reg (ra sMeas 0x008) = s.reg (ra sMeas 0x008)) (p : Int) (t : Nat) :
    Published i bitNo m b s ((x.evt sMeas bitNo).condResult i stat p t) := by
  obtain ⟨w, d, hsent, hoff, hon⟩ := s.measSent_spec i m stat b
  obtain ⟨l, hl⟩ := (x.evt sMeas bitNo).condResult_eq i stat p t
  rw [hl]
  have hbits : bit ((x.evt sMeas bitNo).reg (ra sMeas 0x008)) bitNo = true := State.evt_bit sMeas hbit
  have hkeep (e : Nat) (he : bit (s.reg (ra sMeas 0x008)) e = true) : bit ((x.evt sMeas bitNo).reg (ra sMeas 0x008)) e = true :=
    x.evt_bit_keep sMeas bitNo (by rw [hevent]; exact he)
  have hall := hside.trans (x.evt_side sMeas bitNo)
  rw [hsent] at hall
  generalize x.evt sMeas bitNo = z at hbits hkeep hall ⊢
  obtain ⟨_, _, _, _, _, rfl⟩ := hall
  exact ⟨State.setMslot_same _ _ _, fun j hj => State.setMslot_ne s m (Ne.symm hj), hbits, hkeep, hoff,
    hon, rfl, rfl, rfl⟩

/-- The body of a gate record (R128, R129). -/
def gateBody (i flags status : Nat) (g : MGate) (r : GateRes) (vals : List Nat) : List Byte :=
  (([measHeader i 0 flags status g.seq, g.openT, g.closeT, min r.nA (2 ^ 32 - 1) + 2 ^ 32 * min r.nB (2 ^ 32 - 1)] ++ vals).map w64).flatten

/-- The slot's state once a gate's record is out. -/
def State.gateSlot (s : State) (i : Nat) (g : MGate) (b : List Byte) (vals : List Nat) (frost : Bool) : MSlot :=
  { s.mslot i with lastGate := b, lastVals := vals, seen := seenAfter (s.originOf g.openP) g.closeP (s.mslot i).seen, held := frost }

theorem State.publishGate_published (s : State) (i : Nat) (g : MGate) (r : GateRes) (flags status : Nat) (frost : Bool) :
    let vals := if frost then (s.mslot i).lastVals else r.vals
    let b := gateBody i flags status g r vals
    Published i 0 (s.gateSlot i g b vals frost) b s (s.publishGate i g r flags status frost) ∧
      (s.publishGate i g r flags status frost).reg64 sMeas 0x0E8 = min (s.reg64 sMeas 0x0E8 + 1) (2 ^ 64 - 1) := by
  intro vals b
  have hout : s.publishGate i g r flags status frost =
      (((s.measSent i (s.gateSlot i g b vals frost) false b).bump64 sMeas 0x0E8 1).evt sMeas 0).condResult i false g.closeP g.closeT := rfl
  obtain ⟨w, d, hsent, -, -⟩ := s.measSent_spec i (s.gateSlot i g b vals frost) false b
  have hregs : (s.measSent i (s.gateSlot i g b vals frost) false b).regs = s.regs := by rw [hsent]; rfl
  rw [hout]
  have hevent : ((s.measSent i (s.gateSlot i g b vals frost) false b).bump64 sMeas 0x0E8 1).reg (ra sMeas 0x008) = s.reg (ra sMeas 0x008) := by
    rw [State.bump64_reg (by decide) (by decide), State.reg, hregs, State.reg]
  refine ⟨State.measSent_published s i _ false b (by decide) (State.bump64_side _ _ _ _) hevent g.closeP g.closeT, ?_⟩
  have hsame := State.reg64_congr hregs sMeas 0x0E8
  generalize s.measSent i (s.gateSlot i g b vals frost) false b = z at hsame ⊢
  obtain ⟨l, hl⟩ := ((z.bump64 sMeas 0x0E8 1).evt sMeas 0).condResult_eq i false g.closeP g.closeT
  rw [hl]
  change ((z.bump64 sMeas 0x0E8 1).evt sMeas 0).reg64 sMeas 0x0E8 = _
  rw [State.evt_reg64_above _ _ _ (by decide), State.reg64_bump64, hsame]

/-- The slot's state once a statistics block is out. -/
def State.statSlot (s : State) (i : Nat) (v : MDev) (b : List Byte) : MSlot :=
  { s.mslot i with
    lastStat := b, sseq := ((s.mslot i).sseq + 1) % 2 ^ 32, devs := [], seen := seenAfter v.orig v.closeP (s.mslot i).seen }

theorem State.publishStat_published (s : State) (i : Nat) (trunc : Bool) {v : MDev} (h : (s.mslot i).devs.getLast? = some v) :
    ∃ b, Published i 1 (s.statSlot i v b) b s (s.publishStat i trunc) := by
  unfold State.publishStat
  dsimp only
  rw [h]
  dsimp only
  generalize s.statRecord i _ _ _ = b
  obtain ⟨w, d, hsent, -, -⟩ := s.measSent_spec i (s.statSlot i v b) true b
  refine ⟨b, State.measSent_published s i (s.statSlot i v b) true b (by decide) (Side.refl _) ?_ v.closeP v.closeT⟩
  rw [hsent]
  rfl

/-! ### Completion -/

/-- A completed gate leaves the slot's queue. -/
def State.gateUnqueued (s : State) (i : Nat) (g : MGate) (rest : List MGate) (r : GateRes) : State :=
  s.setMslot i { s.mslot i with
    closed := rest, pend := r.pend, doneClose := some g.closeP, held := s.mFrost i
    drops := (s.mslot i).drops.filter fun q => decide (g.closeP ≤ q) }

/-- What a completed gate gives: its record, or the count of empty gates. -/
def State.gateOut (s : State) (i : Nat) (g : MGate) (rest : List MGate) (r : GateRes) : State :=
  let s5 := (s.gateUnqueued i g rest r).gateTallied i g r (s.mFrost i)
  if r.produced then s5.publishGate i g r (s.gateFlags i g) (s.gateStatus i g (s.mFrost i)) (s.mFrost i)
  else (s5.tbump (oMeas i 18) 1).evt sMeas 2

/-- A gate enters the statistics block of `n` gates, which ends with the last one. -/
def State.gateFiled (s : State) (i n : Nat) (v : MDev) (ends : Bool) : State :=
  let s7 := s.setMslot i { s.mslot i with devs := (s.mslot i).devs ++ [v] }
  if (s.mslot i).devs.length + 1 = n then s7.publishStat i false else if ends then s7.publishStat i true else s7

/-- A gate with the mark of a stamp dropped in it. -/
def MSlot.marked (m : MSlot) (g : MGate) : MGate := { g with dropped := m.drops.any fun q => decide (g.openP ≤ q) && decide (q < g.closeP) }

/-- A gate's result, from the start that the gate before it left open. -/
def State.gateGives (s : State) (i : Nat) (g : MGate) : GateRes := s.gateRes i g (if (s.mslot i).doneClose = some g.openP then (s.mslot i).pend else none)

/-- A gate as the statistics block keeps it (R124). -/
def State.gateDev (s : State) (i : Nat) (g : MGate) (r : GateRes) : MDev :=
  let valid := r.produced && !s.mFrost i && !g.dropped && (decide (s.mMode i = 2) || decide (g.close0 = g.close1))
  { d := if valid then some r.dev else none, flags := s.gateFlags i g, openT := g.openT, closeT := g.closeT, closeP := g.closeP, orig := s.originOf g.openP }

/-- What a gate that is complete does. -/
def State.gateCompleted (s : State) (i : Nat) (g : MGate) (rest : List MGate) : State :=
  let z := s.gateOut i g rest (s.gateGives i g)
  if s.tfld (oMeas i 7) 0 24 = 0 then z else z.gateFiled i (s.tfld (oMeas i 7) 0 24) (s.gateDev i g (s.gateGives i g)) g.endBlock

/-- The oldest closed gate, on a drained slot. -/
def State.gateJudged (s : State) (i : Nat) : State :=
  match (s.mslot i).closed with
  | g0 :: rest => if s.gateDue i g0 then s.gateCompleted i ((s.mslot i).marked g0) rest else s
  | [] => s

theorem State.gateComplete_eq (s : State) (i : Nat) : s.gateComplete i = ((s.measDrain i).measSolCheck i).gateJudged i := by
  rfl

theorem State.measSolCheck_none (h : (s.mslot i).gate.bind (·.sol) = none) : s.measSolCheck i = s := by
  unfold State.measSolCheck
  rw [h]

/-- A slot with no Solstice in its gate: drained, then its oldest gate judged. -/
theorem State.gateComplete_drained (hclosed : (s.mslot i).closed = g0 :: rest) (hlane : (s.mslot i).lane = [])
    (hsol : (s.mslot i).gate.bind (·.sol) = none) : s.gateComplete i =
      if s.gateDue i g0 then (s.drainedTo i).gateCompleted i ((s.mslot i).marked g0) rest else s.drainedTo i := by
  have hslot := s.drainedTo_mslot i
  rw [s.gateComplete_eq, State.measDrain_nil hlane, State.measSolCheck_none (by rw [hslot]; exact hsol), State.gateJudged, hslot]
  dsimp only
  rw [hclosed]
  dsimp only
  rw [s.drainedTo_gateDue i g0]
  rfl

/-- What a gate's output leaves of the statistics block in progress, and of contexts and captures. -/
structure BlockKept (i : Nat) (s x : State) : Prop where
  devs : (x.mslot i).devs = (s.mslot i).devs
  sseq : (x.mslot i).sseq = (s.mslot i).sseq
  lastStat : (x.mslot i).lastStat = (s.mslot i).lastStat
  ctxs : x.ctxs = s.ctxs
  caps : x.caps = s.caps

theorem Tallied.mslot (h : Tallied i s x) (j : Nat) : x.mslot j = s.mslot j := by
  obtain ⟨⟨_, _, _, _, _, _, _, rfl⟩, -, -⟩ := h
  rfl

theorem Tallied.tfld (h : Tallied i s x) (lo w : Nat) : x.tfld (oMeas i 0) lo w = s.tfld (oMeas i 0) lo w := by
  rw [State.tfld, h.words 0 (by decide), State.tfld]

theorem Tallied.tbit (h : Tallied i s x) (b : Nat) : x.tbit (oMeas i 0) b = s.tbit (oMeas i 0) b := by
  rw [State.tbit, h.words 0 (by decide), State.tbit]

theorem Tallied.mOwner (h : Tallied i s x) : x.mOwner i = s.mOwner i := h.tfld 19 9

theorem Tallied.stands (h : Tallied i s x) : x.dma = s.dma ∧ x.ctxs = s.ctxs ∧ x.caps = s.caps := by
  obtain ⟨⟨_, _, _, _, _, _, _, rfl⟩, -, -⟩ := h
  exact ⟨rfl, rfl, rfl⟩

/-- A gate that yields a result: its record stands, is counted and sent. -/
theorem State.gateOut_produced (s : State) (i : Nat) (g : MGate) (rest : List MGate) (hr : r.produced = true) :
    let x := s.gateOut i g rest r
    let vals := if s.mFrost i then (s.mslot i).lastVals else r.vals
    let b := gateBody i (s.gateFlags i g) (s.gateStatus i g (s.mFrost i)) g r vals
    BlockKept i s x ∧ (x.mslot i).lastGate = b ∧ (x.mslot i).closed = rest ∧ (x.mslot i).held = s.mFrost i ∧
      (∀ j, j ≠ i → x.mslot j = s.mslot j) ∧ x.reg64 sMeas 0x0E8 = min (s.reg64 sMeas 0x0E8 + 1) (2 ^ 64 - 1) ∧
      bit (x.reg (ra sMeas 0x008)) 0 = true ∧ (s.mFrost i = true → bit (x.reg (ra sMeas 0x008)) 5 = true) ∧
      (s.tbit (oMeas i 0) 18 = false → x.dma = s.dma) ∧
      (s.tbit (oMeas i 0) 18 = true → (x.dmaCh (s.tfld (oMeas i 0) 12 6)).handed =
        (s.dmaCh (s.tfld (oMeas i 0) 12 6)).handed ++ [{ kind := 0, body := b, src := .meas i (s.mOwner i) }]) := by
  intro x vals b
  have htally := (s.gateUnqueued i g rest r).gateTallied_tallied i g r (s.mFrost i)
  have hfrost (h : s.mFrost i = true) : bit (((s.gateUnqueued i g rest r).gateTallied i g r (s.mFrost i)).reg (ra sMeas 0x008)) 5 = true := by
    rw [h]
    exact State.gateTallied_frost _ _ _ _
  have hx : x = ((s.gateUnqueued i g rest r).gateTallied i g r (s.mFrost i)).publishGate i g r (s.gateFlags i g) (s.gateStatus i g (s.mFrost i)) (s.mFrost i) :=
    if_pos hr
  have htaken : (s.gateUnqueued i g rest r).mslot i = _ := State.setMslot_same _ _ _
  rw [hx]
  generalize (s.gateUnqueued i g rest r).gateTallied i g r (s.mFrost i) = z at htally hfrost ⊢
  obtain ⟨hpub, hcount⟩ := z.publishGate_published i g r (s.gateFlags i g) (s.gateStatus i g (s.mFrost i)) (s.mFrost i)
  have hslot := (htally.mslot i).trans htaken
  rw [State.gateSlot, hslot] at hpub
  obtain ⟨hm, hothers, hevent, hevents, hoff, hon, hctxs, hcaps, -⟩ := hpub
  obtain ⟨hdma, hctx', hcap'⟩ := htally.stands
  generalize z.publishGate i g r (s.gateFlags i g) (s.gateStatus i g (s.mFrost i)) (s.mFrost i) = x at *
  refine ⟨⟨?_, ?_, ?_, hctxs.trans hctx', hcaps.trans hcap'⟩, ?_, ?_, ?_, fun j hj => ?_, hcount.trans ?_, hevent, fun h => hevents 5 (hfrost h),
    fun h => (hoff ((htally.tbit 18).trans h)).trans hdma, fun h => ?_⟩
  · rw [hm]
  · rw [hm]
  · rw [hm]
  · rw [hm]
  · rw [hm]
  · rw [hm]
  · exact ((hothers j hj).trans (htally.mslot j)).trans (State.setMslot_ne s _ (Ne.symm hj))
  · rw [htally.count]
    rfl
  · have h' := hon ((htally.tbit 18).trans h)
    rw [htally.tfld, htally.mOwner, State.dmaCh, State.dmaCh, hdma] at h'
    exact h'

/-- A gate with too little to measure: counted EMPTY. -/
theorem State.gateOut_empty (s : State) (i : Nat) (g : MGate) (rest : List MGate) (hr : r.produced = false) :
    let x := s.gateOut i g rest r
    BlockKept i s x ∧ (x.mslot i).closed = rest ∧ (x.mslot i).lastGate = (s.mslot i).lastGate ∧ bit (x.reg (ra sMeas 0x008)) 2 = true ∧
      x.tabw (oMeas i 18) = BitVec.ofNat 32 (min ((s.tabw (oMeas i 18)).toNat + 1) (2 ^ 32 - 1)) ∧ x.dma = s.dma := by
  intro x
  have htally := (s.gateUnqueued i g rest r).gateTallied_tallied i g r (s.mFrost i)
  have hx : x = (((s.gateUnqueued i g rest r).gateTallied i g r (s.mFrost i)).tbump (oMeas i 18) 1).evt sMeas 2 :=
    if_neg (by rw [hr]; exact Bool.false_ne_true)
  have htaken : (s.gateUnqueued i g rest r).mslot i = _ := State.setMslot_same _ _ _
  rw [hx]
  generalize (s.gateUnqueued i g rest r).gateTallied i g r (s.mFrost i) = z at htally ⊢
  have hbit : bit (((z.tbump (oMeas i 18) 1).evt sMeas 2).reg (ra sMeas 0x008)) 2 = true := State.evt_bit sMeas (by decide)
  have hslot := (htally.mslot i).trans htaken
  obtain ⟨hdma, hctx', hcap'⟩ := htally.stands
  have hword : (z.tbump (oMeas i 18) 1).tabw (oMeas i 18) = BitVec.ofNat 32 (min ((s.tabw (oMeas i 18)).toNat + 1) (2 ^ 32 - 1)) := by
    rw [State.tbump, State.setTabN, State.setTabw_tabw_same, htally.words 18 (by decide)]
    rfl
  have hside := (z.tbump (oMeas i 18) 1).evt_side sMeas 2
  generalize (z.tbump (oMeas i 18) 1).evt sMeas 2 = x at hbit hside ⊢
  obtain ⟨_, _, _, _, _, rfl⟩ := hside
  exact ⟨⟨(congrArg MSlot.devs hslot :), (congrArg MSlot.sseq hslot :), (congrArg MSlot.lastStat hslot :), hctx', hcap'⟩, (congrArg MSlot.closed hslot :),
    (congrArg MSlot.lastGate hslot :), hbit, hword, hdma⟩

theorem State.gateOut_block (s : State) (i : Nat) (g : MGate) (rest : List MGate) (r : GateRes) : BlockKept i s (s.gateOut i g rest r) := by
  cases hr : r.produced with
  | true => exact (s.gateOut_produced i g rest hr).1
  | false => exact (s.gateOut_empty i g rest hr).1

/-- A gate that is not the block's last only joins it. -/
theorem State.gateFiled_short {v : MDev} (h : (s.mslot i).devs.length + 1 ≠ n) :
    s.gateFiled i n v false = s.setMslot i { s.mslot i with devs := (s.mslot i).devs ++ [v] } := (if_neg h).trans (if_neg Bool.false_ne_true)

/-- The last gate of a block publishes it. -/
theorem State.gateFiled_last {v : MDev} (ends : Bool) (h : (s.mslot i).devs.length + 1 = n) :
    ((s.gateFiled i n v ends).mslot i).devs = [] ∧ ((s.gateFiled i n v ends).mslot i).sseq = ((s.mslot i).sseq + 1) % 2 ^ 32 ∧
      bit ((s.gateFiled i n v ends).reg (ra sMeas 0x008)) 1 = true ∧ (s.gateFiled i n v ends).ctxs = s.ctxs ∧ (s.gateFiled i n v ends).caps = s.caps := by
  have hlast : ((s.setMslot i { s.mslot i with devs := (s.mslot i).devs ++ [v] }).mslot i).devs.getLast? = some v := by
    rw [State.setMslot_same]
    exact List.getLast?_concat
  have hfiled : s.gateFiled i n v ends = (s.setMslot i { s.mslot i with devs := (s.mslot i).devs ++ [v] }).publishStat i false := if_pos h
  obtain ⟨b, hm, -, hevent, -, -, -, hctxs, hcaps, -⟩ := State.publishStat_published _ i false hlast
  rw [State.statSlot, State.setMslot_same] at hm
  rw [hfiled, hm]
  exact ⟨rfl, rfl, hevent, hctxs, hcaps⟩

/-! ### A gate that a Solstice found open -/

/-- A slot with no closed gate, whose open gate a Solstice has overtaken: the gate is abandoned. -/
theorem State.gateComplete_abandons {a : Int} (hclosed : (s.mslot i).closed = []) (hlane : (s.mslot i).lane = []) (hgate : (s.mslot i).gate = some g)
    (hsol : g.sol = some a) (hpast : s.srcPast i (4096 + s.mGtin i) a = true) :
    let x := s.gateComplete i
    (x.mslot i).gate = none ∧ (x.mslot i).closed = [] ∧ (x.mslot i).lastGate = (s.mslot i).lastGate ∧ x.tab = s.tab ∧ x.ctxs = s.ctxs ∧ x.caps = s.caps := by
  intro x
  have hslot := s.drainedTo_mslot i
  have hbind : ((s.drainedTo i).mslot i).gate.bind (·.sol) = some a := by
    rw [hslot]
    change (s.mslot i).gate.bind (·.sol) = some a
    rw [hgate]
    exact hsol
  have hcheck : (s.drainedTo i).measSolCheck i = (s.drainedTo i).measAbandon i := by
    unfold State.measSolCheck
    rw [hbind]
    exact if_pos ((s.drainedTo_srcPast i _ a).trans hpast)
  have hopen : ((s.drainedTo i).mslot i).gate = some g := by rw [hslot]; exact hgate
  obtain ⟨l, habandon⟩ : ∃ l, (s.drainedTo i).measAbandon i =
      let y := (s.drainedTo i).setMslot i { (s.drainedTo i).mslot i with gate := none, recent := l }
      if g.endBlock then y.endStatBlock i else y := by
    unfold State.measAbandon
    dsimp only
    rw [hopen]
    exact ⟨_, rfl⟩
  have hx : x = ((s.drainedTo i).measAbandon i).gateJudged i := by
    rw [← hcheck, ← State.measDrain_nil hlane]
    exact s.gateComplete_eq i
  generalize hy : (s.drainedTo i).setMslot i { (s.drainedTo i).mslot i with gate := none, recent := l } = y at habandon
  have hym : y.mslot i = { s.mslot i with drained := s.now, gate := none, recent := l } := by
    rw [← hy, hslot]
    exact State.setMslot_same _ _ _
  have hyrest : y.tab = s.tab ∧ y.ctxs = s.ctxs ∧ y.caps = s.caps := by
    rw [← hy]
    exact ⟨rfl, rfl, rfl⟩
  have hall : ∀ z : State, (z.mslot i).gate = none → (z.mslot i).closed = [] → (z.mslot i).lastGate = (s.mslot i).lastGate → z.tab = s.tab →
      z.ctxs = s.ctxs → z.caps = s.caps → (s.drainedTo i).measAbandon i = z →
      (x.mslot i).gate = none ∧ (x.mslot i).closed = [] ∧ (x.mslot i).lastGate = (s.mslot i).lastGate ∧ x.tab = s.tab ∧ x.ctxs = s.ctxs ∧ x.caps = s.caps := by
    intro z h1 h2 h3 h4 h5 h6 hz
    have hjudged : z.gateJudged i = z := by
      unfold State.gateJudged
      rw [h2]
    rw [hx, hz, hjudged]
    exact ⟨h1, h2, h3, h4, h5, h6⟩
  have hstays := hall y (congrArg MSlot.gate hym) ((congrArg MSlot.closed hym).trans hclosed) (congrArg MSlot.lastGate hym :) hyrest.1 hyrest.2.1 hyrest.2.2
  cases hend : g.endBlock with
  | false => exact hstays (habandon.trans (if_neg (by rw [hend]; exact Bool.false_ne_true)))
  | true =>
    have hends : (s.drainedTo i).measAbandon i = y.publishStat i true := by
      rw [habandon]
      refine (if_pos hend).trans ?_
      unfold State.endStatBlock
      dsimp only
      rw [hym]
      dsimp only
      rw [hclosed]
      rfl
    cases hdevs : (y.mslot i).devs.getLast? with
    | none =>
      refine hstays (hends.trans ?_)
      unfold State.publishStat
      dsimp only
      rw [hdevs]
    | some v =>
      obtain ⟨b, hm, -, -, -, -, -, hctxs, hcaps, htab⟩ := State.publishStat_published y i true hdevs
      rw [State.statSlot, hym] at hm
      exact hall _ (congrArg MSlot.gate hm) ((congrArg MSlot.closed hm).trans hclosed) (congrArg MSlot.lastGate hm :) (htab.trans hyrest.1) (hctxs.trans hyrest.2.1)
        (hcaps.trans hyrest.2.2) hends

/-! ### The result of a COUNT gate -/

theorem State.mUsesB_count (h : s.mMode i = 2) : s.mUsesB i = false := by
  unfold State.mUsesB
  rw [h]
  rfl

theorem State.gateRes_count (h : s.mMode i = 2) (hlong : g.closeP > g.openP) (start : Option Stamp)
    (hmins : s.tfld (oMeas i 6) 0 24 ≤ (polEdges (s.mSrcA i) (s.tbit (oMeas i 0) 4) g.a).length) :
    let a := polEdges (s.mSrcA i) (s.tbit (oMeas i 0) 4) g.a
    (s.gateRes i g start).produced = true ∧ (s.gateRes i g start).nA = a.length ∧
      (s.gateRes i g start).vals = [a.length, 0] ++ q64Words (q64 (a.length * 4_000_000_000_000 : Nat) (g.closeP - g.openP).toNat) := by
  intro a
  have hused : s.mUsed i (s.mSrcA i) (s.tbit (oMeas i 0) 4) g.a = a := if_pos (by rw [h])
  have hlen : (g.closeP - g.openP).toNat ≠ 0 := by omega
  have hres : s.gateRes i g start = s.resCount i a (g.closeP - g.openP).toNat := by
    unfold State.gateRes
    dsimp only
    rw [hused, h, State.mUsesB_count h, Bool.false_and, Bool.or_false, decide_eq_false (not_lt.mpr hmins)]
    exact if_neg Bool.false_ne_true
  rw [hres]
  unfold State.resCount
  dsimp only
  rw [if_neg hlen]
  exact ⟨rfl, rfl, rfl⟩

/-- Settles O44: a closed gate waits, or gives its record, its empty count and its place in the statistics block. -/
theorem measurementResults : Obligations.MeasurementResults := by
  refine ⟨?_, ?_⟩
  · intro s t i g0 rest hpow hset hold hclosed hlane hsol u m g r n body ch publishes
    have hkept (f : State → State) : u.asKept (oMeas i 0) 16 f = f u := State.asKept_plain (s := u) hold _ _ f
    have hjudged := State.gateComplete_drained (s := u) hclosed hlane hsol
    have hslot := u.drainedTo_mslot i
    obtain ⟨y, hy⟩ : ∃ y, y = u.drainedTo i := ⟨_, rfl⟩
    have hgives : y.gateGives i g = r := by
      rw [hy, State.gateGives, hslot]
      rfl
    have hflags : y.gateFlags i g = u.gateFlags i g := by rw [hy, u.drainedTo_gateFlags]
    have hbody (vals : List Nat) : gateBody i (y.gateFlags i g) (y.gateStatus i g (y.mFrost i)) g r vals = body vals (s.mFrost i) := by
      rw [hflags, hy]
      rfl
    have hfrost : y.mFrost i = s.mFrost i := by rw [hy]; rfl
    have hym : y.mslot i = { m with drained := u.now } := by rw [hy]; exact hslot
    have hyne (j : Nat) (hj : j ≠ i) : y.mslot j = s.mslot j := by rw [hy]; exact u.drainedTo_mslot_ne hj
    have hsame : y.ctxs = s.ctxs ∧ y.caps = s.caps ∧ y.dma = s.dma ∧ y.tab = s.tab ∧ y.regs = s.regs := by
      rw [hy]
      exact ⟨rfl, rfl, rfl, rfl, rfl⟩
    have hgoes : u.gateDue i g0 = true → u.gateComplete i = y.gateCompleted i g rest := fun hdue => by
      rw [hjudged, hy]
      exact if_pos hdue
    have hruns {x : State} (hx : u.gateComplete i = x) (hctxs : x.ctxs = s.ctxs) (hcaps : x.caps = s.caps) :
        (u.asKept (oMeas i 0) 16 fun s => s.gateComplete i).settle = x := by
      rw [hkept, hx, State.settle_id (State.Settled.of_eq (s := s) hset hcaps hctxs)]
    have hn : y.tfld (oMeas i 7) 0 24 = n := by rw [hy]; rfl
    have hblock := y.gateOut_block i g rest r
    rw [State.gateCompleted, hn, hgives] at hgoes
    have hout (hdue : u.gateDue i g0 = true) (h0 : n = 0) : (u.asKept (oMeas i 0) 16 fun s => s.gateComplete i).settle = y.gateOut i g rest r :=
      hruns ((hgoes hdue).trans (if_pos h0)) (hblock.ctxs.trans hsame.1) (hblock.caps.trans hsame.2.1)
    have hpub (hr : r.produced = true) :
        publishes (body (if s.mFrost i then m.lastVals else r.vals) (s.mFrost i)) (y.gateOut i g rest r) ∧
          ((y.gateOut i g rest r).mslot i).held = s.mFrost i ∧ (s.mFrost i = true → bit ((y.gateOut i g rest r).reg (ra sMeas 0x008)) 5 = true) := by
      obtain ⟨-, hb, hcl, hheld, hothers, hcount, hgate, hfive, hoff, hon⟩ := y.gateOut_produced i g rest hr
      rw [hbody, hfrost, hym] at hb hon
      rw [State.reg64_congr hsame.2.2.2.2] at hcount
      rw [hfrost] at hheld hfive
      have htfld : y.tfld (oMeas i 0) 12 6 = ch := by rw [hy]; rfl
      have hdma : (y.dmaCh ch).handed = (s.dmaCh ch).handed := by rw [State.dmaCh, hsame.2.2.1, State.dmaCh]
      have howner : y.mOwner i = s.mOwner i := by rw [hy]; rfl
      have hen : y.tbit (oMeas i 0) 18 = s.tbit (oMeas i 0) 18 := by rw [hy]; rfl
      rw [htfld, hdma, howner, hen] at hon
      rw [hen, hsame.2.2.1] at hoff
      exact ⟨⟨hb, hcl, hcount, hgate, hoff, hon, fun j hj => (hothers j hj).trans (hyne j hj)⟩, hheld, hfive⟩
    refine ⟨fun hnot => ?_, fun hdue => ⟨fun h0 hr => ?_, fun h0 hr => ?_, fun h0 hshort hend => ?_, fun hlast => ?_⟩, fun hmode hlong => ?_⟩
    · exact answers_of hpow (exec_gateComplete t i s) (hruns (hjudged.trans (if_neg (by rw [hnot]; exact Bool.false_ne_true))) rfl rfl)
        (by constructor <;> rfl) ⟨hslot, rfl⟩
    · have hz := hout hdue h0
      obtain ⟨hrecord, hheld, hfive⟩ := hpub hr
      generalize y.gateOut i g rest r = z at hz hrecord hheld hfive
      refine ⟨fun hf => ?_, fun hf => ?_⟩
      · refine answers_of_wrapped hpow (exec_gateComplete t i s) fun _ => ?_
        rw [hf] at hrecord hheld
        rw [show ((s.advance t).asKept (oMeas i 0) 16 fun s => s.gateComplete i).settle = z from hz]
        exact ⟨hrecord, hheld⟩
      · refine answers_of_wrapped hpow (exec_gateComplete t i s) fun _ => ?_
        rw [hf] at hrecord hheld
        rw [show ((s.advance t).asKept (oMeas i 0) 16 fun s => s.gateComplete i).settle = z from hz]
        exact ⟨hrecord, hheld, hfive hf⟩
    · have hz := hout hdue h0
      obtain ⟨-, hcl, hlastGate, hbit, hword, hdma⟩ := y.gateOut_empty i g rest hr
      rw [hym] at hlastGate
      rw [State.tabw, State.tabw, hsame.2.2.2.1] at hword
      rw [hsame.2.2.1] at hdma
      generalize y.gateOut i g rest r = z at hz hcl hlastGate hbit hword hdma
      refine answers_of_wrapped hpow (exec_gateComplete t i s) fun _ => ?_
      rw [show ((s.advance t).asKept (oMeas i 0) 16 fun s => s.gateComplete i).settle = z from hz]
      exact ⟨hcl, hlastGate, hbit, hword, hdma⟩
    · obtain ⟨hdevs, hsseq, hstat, hctxs, hcaps⟩ := hblock
      rw [hym] at hdevs hsseq hstat
      have hne : ((y.gateOut i g rest r).mslot i).devs.length + 1 ≠ n := by rw [hdevs]; exact Nat.ne_of_lt hshort
      have hall := (hgoes hdue).trans (if_neg h0)
      rw [hend, State.gateFiled_short hne] at hall
      have hz := hruns hall (hctxs.trans hsame.1) (hcaps.trans hsame.2.1)
      generalize y.gateOut i g rest r = z at hz hdevs hsseq hstat
      refine answers_of_wrapped hpow (exec_gateComplete t i s) fun _ => ?_
      rw [show ((s.advance t).asKept (oMeas i 0) 16 fun s => s.gateComplete i).settle = _ from hz]
      change (((z.setMslot i _).mslot i).devs.length = _ ∧ ((z.setMslot i _).mslot i).sseq = _ ∧ ((z.setMslot i _).mslot i).lastStat = _)
      rw [State.setMslot_same]
      refine ⟨?_, hsseq, hstat⟩
      rw [hdevs, List.length_append]
      rfl
    · obtain ⟨hdevs, hsseq, hstat, hctxs, hcaps⟩ := hblock
      rw [hym] at hdevs hsseq
      have hfull : ((y.gateOut i g rest r).mslot i).devs.length + 1 = n := by rw [hdevs]; exact hlast
      have h0 : n ≠ 0 := by omega
      obtain ⟨hnone, hnext, hbit, hctxs', hcaps'⟩ := State.gateFiled_last (v := y.gateDev i g r) g.endBlock hfull
      have hz := hruns ((hgoes hdue).trans (if_neg h0)) (hctxs'.trans (hctxs.trans hsame.1)) (hcaps'.trans (hcaps.trans hsame.2.1))
      rw [hsseq] at hnext
      generalize (y.gateOut i g rest r).gateFiled i n (y.gateDev i g r) g.endBlock = z at hz hnone hnext hbit
      refine answers_of_wrapped hpow (exec_gateComplete t i s) fun _ => ?_
      rw [show ((s.advance t).asKept (oMeas i 0) 16 fun s => s.gateComplete i).settle = z from hz]
      exact ⟨hnone, hnext, hbit⟩
    · intro a hmins
      exact State.gateRes_count (s := u) (g := g) hmode hlong _ hmins
  · intro s t i g a hpow hset hold hclosed hlane hgate hsol hpast
    have hspec := State.gateComplete_abandons (s := s.advance t) hclosed hlane hgate hsol hpast
    refine answers_of_wrapped hpow (exec_gateComplete t i s) fun _ => ?_
    rw [State.asKept_plain (s := s.advance t) hold]
    obtain ⟨h1, h2, h3, h4, h5, h6⟩ := hspec
    rw [State.settle_id (State.Settled.of_eq (s := s) hset h6 h5)]
    generalize (s.advance t).gateComplete i = y at *
    exact ⟨h1, h2, h3, h4⟩

end Sys2Proof.Machine
end

section
/-! The refutation of the statement about lane stamps and the MEAS window. -/

namespace Sys2Proof.Machine

/-- A receiver's stamp on its way, and a list of slots that names slot 1023 twice: the slot that a read finds is disarmed, a later entry is
armed. -/
def twiceListed : State := { Tests.up with
  tab := [(oMeas 1023 1, 7)], laneIn := [(1, Tests.stampOf 7 900 true)], meas := [(1023, {}), (1023, { armed := true })] }

/-- The slot takes the stamp to be for it, finds itself disarmed, and leaves its lane queue empty. -/
theorem twiceListed_takesNone : ∃ x, exec (.measLaneStamp 0) twiceListed = .next x ∧ (x.mslot 1023).lane = [] :=
  ⟨_, rfl, by decide +kernel⟩

/-- Refutes O45: the statement takes a slot that armed slots list to be armed where it is read, which a list with two entries of the
slot is not, and then the stamp does not enter the slot's lane queue. -/
theorem not_measurementReads : ¬ Obligations.MeasurementReads := by
  intro h
  obtain ⟨-, hstamp, -⟩ := h twiceListed 0 ⟨rfl, rfl⟩
  obtain ⟨-, hone⟩ := hstamp 1 (Tests.stampOf 7 900 true) [] rfl (by decide +kernel)
  obtain ⟨x, hx, hlane, -⟩ := (hone 1023 (by decide +kernel) (by decide +kernel)).1 (by decide +kernel)
  obtain ⟨z, hz, hempty⟩ := twiceListed_takesNone
  rw [hz] at hx
  injection hx with hsame
  have hempty' : (x.mslot 1023).lane = [] := hsame ▸ hempty
  rw [hlane] at hempty'
  exact absurd hempty' (by decide +kernel)

end Sys2Proof.Machine
end

section
/-! Placements of the timing outputs (R136 to R142, R413): the queue, its head's checks, the launch. -/

namespace Sys2Proof.Machine

variable {s : State} {n off b : Nat} {w : Place} {l : List Place}

/-! ### The queue -/

/-- A channel whose queue a placement joins at an edge. -/
def Tout.queued (c : Tout) (now : Nat) (w : Place) : Tout :=
  { c with
    queue := c.queue ++ [w], headAt := if c.queue.isEmpty then now else c.headAt, headOk := if c.queue.isEmpty then false else c.headOk }

theorem State.toutArrive_room (h : (s.tout n).queue.length < 64) (w : Place) : s.toutArrive n w = s.setTout n ((s.tout n).queued s.now w) :=
  if_neg (Nat.not_le.mpr h)

theorem State.toutArrive_full (h : 64 ≤ (s.tout n).queue.length) (w : Place) :
    s.toutArrive n w = (s.bump64 (sTout n) 0x05C 1).evt (sTout n) 2 := if_pos h

/-- A full queue counts and reports a placement that it drops, and keeps the channel. -/
theorem State.toutArrive_drops (h : 64 ≤ (s.tout n).queue.length) (w : Place) : Side s (s.toutArrive n w) ∧
    (s.toutArrive n w).reg64 (sTout n) 0x05C = min (s.reg64 (sTout n) 0x05C + 1) (2 ^ 64 - 1) ∧
      bit ((s.toutArrive n w).reg (ra (sTout n) 0x008)) 2 = true := by
  rw [State.toutArrive_full h]
  refine ⟨(s.bump64_side _ _ _).trans (State.evt_side _ _ _), ?_, State.evt_bit _ (by decide)⟩
  rw [State.evt_reg64_above _ _ _ (by decide), State.reg64_bump64]

/-! ### The host's placement and those on their way -/

theorem regAt_plPush (n : Fin 32) : regAt (ra (sTout n) 0x03C) = some ⟨.wo, 0, BitVec.allOnes 32⟩ := by
  revert n
  decide +kernel

theorem pageAt_tout (n : Fin 32) : pageAt (sTout n) = some ⟨.tout, 192, 32, 8, true, 29⟩ := by
  revert n
  decide +kernel

/-- A write of TOUT.PL_PUSH that reaches its page. -/
theorem State.Reaches.hostWrite_plPush {n : Fin 32} (hreach : s.Reaches (ra (sTout n) 0x03C)) (hporst : s.porst = false)
    (hserved : s.served (sTout n) = true) (p : Path) (v : Word) : s.hostWrite p (ra (sTout n) 0x03C) v true = s.plPush n v := by
  rw [hreach.hostWrite_wo hporst hserved (by decide) (by decide) (regAt_plPush n) rfl (pageAt_tout n) p v]
  have hn : sTout n - 192 = n := Nat.add_sub_cancel_left _ _
  exact congrArg (fun k => s.plPush k v) hn

theorem State.placementArrive_none (hreset : s.inReset (sTout n) = false) (h : (s.tout n).transit = []) : s.placementArrive n = s := by
  unfold State.placementArrive
  dsimp only
  rw [hreset, if_neg Bool.false_ne_true, h]

theorem State.placementArrive_some (hreset : s.inReset (sTout n) = false) (h : (s.tout n).transit = w :: l) :
    s.placementArrive n = (s.setTout n { s.tout n with transit := l }).toutArrive n w := by
  unfold State.placementArrive
  dsimp only
  rw [hreset, if_neg Bool.false_ne_true, h]

theorem State.generatorPulse_off (h : s.toSrc n ≠ 2 ∨ (s.tout n).gatedStop = true) : s.generatorPulse n = s := by
  refine if_neg ?_
  rcases h with h | h
  · rw [decide_eq_false h]
    exact Bool.false_ne_true
  · rw [h, Bool.not_true, Bool.and_false, Bool.false_and]
    exact Bool.false_ne_true

theorem State.generatorPulse_on (h : s.toSrc n = 2) (hstop : (s.tout n).gatedStop = false) (hreset : s.inReset (sTout n) = false) :
    s.generatorPulse n = (s.setTout n { s.tout n with genK := (s.tout n).genK + 1 }).toutArrive n
      { level := false, value := true, tP := s.genT n (s.tout n).genK, width := (s.reg (ra (sTout n) 0x02C)).toNat, gen := true } := by
  refine if_pos ?_
  rw [decide_eq_true h, hstop, hreset]
  rfl

/-! ### The head of the queue -/

/-- A head that is dropped: the next reaches the head now, a counter and an event tell it. -/
def State.headDropped (s : State) (n off b : Nat) : State := ((s.toutPop n s.now).bump64 (sTout n) off 1).evt (sTout n) b

theorem State.toutPop_spec (s : State) (n e : Nat) :
    Side (s.setTout n { s.tout n with queue := (s.tout n).queue.drop 1, headAt := e, headOk := false }) (s.toutPop n e) ∧
      (∀ i, 0x00C ≤ i → (s.toutPop n e).reg64 (sTout n) i = s.reg64 (sTout n) i) ∧
      ((s.tout n).queue.length = 1 → bit ((s.toutPop n e).reg (ra (sTout n) 0x008)) 5 = true) := by
  unfold State.toutPop
  dsimp only
  by_cases h : (s.tout n).queue.length = 1
  · rw [if_pos h]
    exact ⟨State.evt_side _ _ _, fun i hi => State.evt_reg64_above _ _ _ hi, fun _ => State.evt_bit _ (by decide)⟩
  · rw [if_neg h]
    exact ⟨Side.refl _, fun i _ => rfl, fun e => absurd e h⟩

theorem State.headDropped_spec (s : State) (n : Nat) (hoff : 0x00C ≤ off) (hb : b < 32) :
    Side (s.setTout n { s.tout n with queue := (s.tout n).queue.drop 1, headAt := s.now, headOk := false }) (s.headDropped n off b) ∧
      (s.headDropped n off b).reg64 (sTout n) off = min (s.reg64 (sTout n) off + 1) (2 ^ 64 - 1) ∧
      bit ((s.headDropped n off b).reg (ra (sTout n) 0x008)) b = true ∧
      ((s.tout n).queue.length = 1 → bit ((s.headDropped n off b).reg (ra (sTout n) 0x008)) 5 = true) := by
  obtain ⟨hside, hcount, hempty⟩ := s.toutPop_spec n s.now
  unfold State.headDropped
  refine ⟨(hside.trans (State.bump64_side _ _ _ _)).trans (State.evt_side _ _ _), ?_, State.evt_bit _ hb, fun h => State.evt_bit_keep _ _ _ ?_⟩
  · rw [State.evt_reg64_above _ _ _ hoff, State.reg64_bump64, hcount off hoff]
  · rw [State.bump64_reg (ra_off_ne (by omega) _) (ra_off_ne (by omega) _)]
    exact hempty h

theorem State.placementHead_waits (h : (s.tout n).queue = [] ∨ (s.tout n).headOk = true) : s.placementHead n = s := by
  unfold State.placementHead
  dsimp only
  split
  next hq => exact if_pos (h.resolve_left fun e => List.cons_ne_nil _ _ (hq.symm.trans e))
  · rfl

/-- What holds a placement back at the head (R141): the gate, or the sequencer's hold on the channels it feeds. -/
def State.headHeld (s : State) (n : Nat) : Bool := (s.tout n).gated || (decide (s.toSrc n = 1) && (s.tout n).seqHeld)

theorem State.placementHead_checked (hq : (s.tout n).queue = w :: l) (hok : (s.tout n).headOk = false) : s.placementHead n =
    if s.headHeld n then s.headDropped n 0x064 3
    else if s.placeP n w < 2000 * ((s.tout n).headAt : Int) + 240_000 then s.headDropped n 0x04C 0
    else if s.conflicts n w then s.headDropped n 0x054 1
    else s.setTout n { s.tout n with headOk := true } := by
  unfold State.placementHead
  dsimp only
  rw [hq]
  exact if_neg (by rw [hok]; exact Bool.false_ne_true)

theorem State.headHeld_iff : s.headHeld n = true ↔ (s.tout n).gated = true ∨ (s.toSrc n = 1 ∧ (s.tout n).seqHeld = true) := by
  rw [State.headHeld, Bool.or_eq_true, Bool.and_eq_true, decide_eq_true_iff]

/-! ### The launch -/

/-- The edge of a placement's launch, 60 ns before its instant. -/
def State.launchEdge (s : State) (n : Nat) (w : Place) : Int := (s.placeP n w - 240_000) / 2000

theorem State.placementLaunch_waits (h : (s.tout n).queue = [] ∨ (s.tout n).headOk = false) : s.placementLaunch n = s := by
  unfold State.placementLaunch
  dsimp only
  split
  next hq =>
    refine if_neg ?_
    rw [h.resolve_left fun e => List.cons_ne_nil _ _ (hq.symm.trans e), Bool.false_and]
    exact Bool.false_ne_true
  · rfl

/-- A channel with a placement's transitions in flight. -/
def State.launched (s : State) (n : Nat) (w : Place) : Tout :=
  { s.tout n with
    flight := (s.transOf n w).foldl (fun l t => insTrans t l) (s.tout n).flight
    genLast := if w.gen then some w.tP else (s.tout n).genLast
    passed := some (s.now, w) }

theorem State.placementLaunch_checked (hq : (s.tout n).queue = w :: l) (hok : (s.tout n).headOk = true) : s.placementLaunch n =
    if s.launchEdge n w ≤ (s.now : Int) then ((s.setTout n (s.launched n w)).toutPop n (s.launchEdge n w).toNat).bump64 (sTout n) 0x044 1 else s := by
  unfold State.placementLaunch
  dsimp only
  split
  next heq =>
    obtain ⟨rfl, rfl⟩ := List.cons.inj (hq.symm.trans heq)
    by_cases h : s.launchEdge n w ≤ (s.now : Int)
    · exact (if_pos (by rw [hok, Bool.true_and]; exact decide_eq_true h)).trans (if_pos h).symm
    · exact (if_neg (by rw [hok, Bool.true_and]; exact fun e => h (of_decide_eq_true e))).trans (if_neg h).symm
  next heq => exact absurd (hq.symm.trans heq) (List.cons_ne_nil _ _)

theorem length_insTrans (x : Trans) (m : List Trans) : (insTrans x m).length = m.length + 1 := by
  induction m with
  | nil => rfl
  | cons y r ih =>
    unfold insTrans
    split
    · rw [List.length_cons, ih, List.length_cons]
    · rfl

theorem length_foldl_insTrans (l m : List Trans) : (l.foldl (fun l t => insTrans t l) m).length = m.length + l.length := by
  induction l generalizing m with
  | nil => rfl
  | cons x r ih =>
    rw [List.foldl_cons, ih, length_insTrans, List.length_cons]
    omega

/-- Settles O46: the queue, the head's checks in their order, and the launch. -/
theorem placements : Obligations.Placements := by
  intro s t n hpow hreset u now c add one dropped
  refine ⟨fun p v hreach hserved => ?_, fun hnone => ?_, fun w l hway => ⟨fun hroom => ?_, fun hfull => ?_⟩, fun hoff => ?_, fun hsrc hstop hroom => ?_,
    fun hwaits => ?_, fun w l hq hok => ?_, fun hwaits => ?_, fun w l hq hok => ?_⟩
  · have hpush {y : State} (hy : u.plPush n v = y) (hq : Quiet u y) : exec (.plPush t p n v) s = .next y :=
      next_of hpow (exec_plPush t p n v s) ((State.Reaches.hostWrite_plPush (s := u) hreach hpow.1 hserved p v).trans hy) hq
    refine ⟨fun hsrc => hpush (if_neg hsrc) (u.evt_quiet _ _), fun hsrc hroom => ?_, fun hsrc hfull => ?_⟩
    · exact hpush ((if_pos hsrc).trans (State.toutArrive_room (s := u) hroom _)) (u.setTout_quiet _ _)
    · exact hpush ((if_pos hsrc).trans (State.toutArrive_full (s := u) hfull _)) ((u.bump64_side _ _ _).trans (State.evt_side _ _ _)).quiet
  · exact next_of hpow (exec_placementArrive t n s) (State.placementArrive_none (s := u) hreset hnone) (Quiet.refl u)
  · have hsame := u.setTout_same n { u.tout n with transit := l }
    have hout := (State.placementArrive_some (s := u) hreset hway).trans (State.toutArrive_room (by rw [hsame]; exact hroom) w)
    rw [hsame] at hout
    exact answers_of hpow (exec_placementArrive t n s) hout (by constructor <;> rfl) ⟨State.setTout_same _ _ _, rfl⟩
  · have hsame := u.setTout_same n { u.tout n with transit := l }
    obtain ⟨hside, hcount, hevent⟩ := State.toutArrive_drops (s := u.setTout n { u.tout n with transit := l }) (n := n) (by rw [hsame]; exact hfull) w
    exact answers_of hpow (exec_placementArrive t n s) (State.placementArrive_some (s := u) hreset hway) ((u.setTout_quiet _ _).trans hside.quiet)
      ⟨(hside.tout n).trans hsame, hcount, hevent⟩
  · exact next_of hpow (exec_generatorPulse t n s) (State.generatorPulse_off (s := u) hoff) (Quiet.refl u)
  · have hsame := u.setTout_same n { u.tout n with genK := (u.tout n).genK + 1 }
    have hout := (State.generatorPulse_on (s := u) hsrc hstop hreset).trans (State.toutArrive_room (by rw [hsame]; exact hroom) _)
    rw [hsame] at hout
    exact answers_of hpow (exec_generatorPulse t n s) hout (by constructor <;> rfl) (State.setTout_same _ _ _)
  · exact next_of hpow (exec_placementHead t n s) (State.placementHead_waits (s := u) hwaits) (Quiet.refl u)
  · have hchecked := State.placementHead_checked (s := u) hq hok
    have hdrop {off b : Nat} (hoff : 0x00C ≤ off) (hb : b < 32) (hx : u.placementHead n = u.headDropped n off b) :
        Answers (.placementHead t n) s (dropped off b) := by
      obtain ⟨hside, hcount, hevent, hempty⟩ := u.headDropped_spec n hoff hb
      exact answers_of hpow (exec_placementHead t n s) hx ((u.setTout_quiet _ _).trans hside.quiet)
        ⟨(hside.tout n).trans (State.setTout_same _ _ _), hcount, hevent, hempty⟩
    refine ⟨fun hheld => hdrop (by decide) (by decide) (hchecked.trans (if_pos ((State.headHeld_iff (s := u)).mpr hheld))), fun hfree hseq => ?_⟩
    have hnot : ¬ u.headHeld n = true := fun h => by
      rcases (State.headHeld_iff (s := u)).mp h with h | ⟨h1, h2⟩
      · exact Bool.false_ne_true (hfree.symm.trans h)
      · exact Bool.false_ne_true ((hseq h1).symm.trans h2)
    have hgo := hchecked.trans (if_neg hnot)
    refine ⟨fun hlate => hdrop (by decide) (by decide) (hgo.trans (if_pos hlate)), fun htime => ?_⟩
    have hgo' := hgo.trans (if_neg (not_lt.mpr htime))
    refine ⟨fun hc => hdrop (by decide) (by decide) (hgo'.trans (if_pos hc)), fun hc => ?_⟩
    exact next_of hpow (exec_placementHead t n s) (hgo'.trans (if_neg (by rw [show u.conflicts n w = false from hc]; exact Bool.false_ne_true))) (u.setTout_quiet _ _)
  · exact next_of hpow (exec_placementLaunch t n s) (State.placementLaunch_waits (s := u) hwaits) (Quiet.refl u)
  · have hchecked := State.placementLaunch_checked (s := u) hq hok
    refine ⟨fun hearly => next_of hpow (exec_placementLaunch t n s) (hchecked.trans (if_neg (not_le.mpr hearly))) (Quiet.refl u), fun hdue => ?_⟩
    obtain ⟨hside, hcount, -⟩ := (u.setTout n (u.launched n w)).toutPop_spec n (u.launchEdge n w).toNat
    have hall := hside.trans (State.bump64_side _ (sTout n) 0x044 1)
    have hsame := u.setTout_same n (u.launched n w)
    have htout := (hall.tout n).trans (State.setTout_same _ _ _)
    rw [hsame] at htout
    refine answers_of hpow (exec_placementLaunch t n s) (hchecked.trans (if_pos hdue)) (((u.setTout_quiet _ _).trans (State.setTout_quiet _ _ _)).trans hall.quiet)
      ⟨?_, ?_, ?_, fun y hy => ?_, fun y hy => ?_, ?_, ?_⟩
    · rw [htout]
      exact congrArg (List.drop 1) hq
    · rw [htout]
      rfl
    · rw [htout]
      rfl
    · rw [htout]
      exact (mem_foldl_insTrans y _ _).mpr (.inl hy)
    · rw [htout]
      exact (mem_foldl_insTrans y _ _).mpr (.inr hy)
    · rw [htout]
      exact length_foldl_insTrans _ _
    · rw [State.reg64_bump64, hcount 0x044 (by decide)]
      rfl

end Sys2Proof.Machine
end

section
/-! Timing outputs: launches, echoes (R140, R145), gating by STOP and its release (R148, R149). -/

namespace Sys2Proof.Machine

variable {s x y : State} {n m t q now : Nat} {tr : Trans} {l : List Trans}

/-! ### Launches -/

theorem launchOf_code (p d : Int) (g : Nat) : (launchOf p d g).2 ≤ 511 ∧
    ((launchOf p d g).2 ≠ 0 → (launchOf p d g).1 = (p - d) / 2000 ∧
      (launchOf p d g).2 = (((p - d) % 2000).toNat * g + 32768) / 2 ^ 16) := by
  unfold launchOf
  dsimp only
  split
  · exact ⟨Nat.zero_le _, fun h => absurd rfl h⟩
  next h => exact ⟨by omega, fun _ => ⟨rfl, rfl⟩⟩

/-- A code that is not 0 gives the instant back to within a code. -/
theorem launchOf_near (p d : Int) (g : Nat) (h : (launchOf p d g).2 ≠ 0) :
    2000 * (launchOf p d g).1 ≤ p - d ∧ p - d < 2000 * (launchOf p d g).1 + 2000 ∧
      2 ^ 16 * ((launchOf p d g).2 : Int) ≤ (p - d - 2000 * (launchOf p d g).1) * g + 32768 ∧
      (p - d - 2000 * (launchOf p d g).1) * g + 32768 < 2 ^ 16 * ((launchOf p d g).2 + 1 : Int) := by
  obtain ⟨hedge, hcode⟩ := (launchOf_code p d g).2 h
  rw [hedge, hcode]
  have hrest : (p - d - 2000 * ((p - d) / 2000)) = ((((p - d) % 2000).toNat : Nat) : Int) := by omega
  have hsplit := Nat.div_add_mod (((p - d) % 2000).toNat * g + 32768) (2 ^ 16)
  have hlt := Nat.mod_lt (((p - d) % 2000).toNat * g + 32768) (show 0 < 2 ^ 16 by decide)
  refine ⟨by omega, by omega, ?_, ?_⟩
  · rw [hrest]
    exact_mod_cast (by omega : 2 ^ 16 * ((((p - d) % 2000).toNat * g + 32768) / 2 ^ 16) ≤ ((p - d) % 2000).toNat * g + 32768)
  · rw [hrest]
    exact_mod_cast (by omega : ((p - d) % 2000).toNat * g + 32768 < 2 ^ 16 * ((((p - d) % 2000).toNat * g + 32768) / 2 ^ 16 + 1))

/-! ### What leaves after a gate -/

theorem mem_ungateKeep {a b : Int} {last lead : Option Int} (h : tr ∈ ungateKeep now a b last lead l) : tr ∈ l := by
  induction l with
  | nil => exact h
  | cons z r ih =>
    unfold ungateKeep at h
    split at h
    · exact h
    · exact List.mem_cons_of_mem _ (ih h)

theorem nearAfter_false {o : Option Int} {p d v : Int} (h : nearAfter o p d = false) (ho : o = some v) : d ≤ p - v := by
  rw [ho] at h
  exact not_lt.mp (of_decide_eq_false h)

/-- What leaves after a gate begins with a leading edge launched after the release that keeps the spacing. -/
theorem ungateKeep_head {a b : Int} {last lead : Option Int} {r : List Trans} (h : ungateKeep now a b last lead l = tr :: r) :
    tr.leading = true ∧ (now : Int) < tr.lead ∧ (∀ v, last = some v → a ≤ tr.p - v) ∧ (∀ v, lead = some v → b ≤ tr.p - v) := by
  induction l with
  | nil => exact absurd h (List.cons_ne_nil _ _).symm
  | cons z k ih =>
    unfold ungateKeep at h
    split at h
    next hz =>
      obtain ⟨rfl, -⟩ := List.cons.inj h
      obtain ⟨⟨⟨hleading, hlead⟩, hlast⟩, hnear⟩ : ((z.leading = true ∧ (now : Int) < z.lead) ∧ nearAfter last z.p a = false) ∧ nearAfter lead z.p b = false := by
        simpa using hz
      exact ⟨hleading, hlead, fun v => nearAfter_false hlast, fun v => nearAfter_false hnear⟩
    · exact ih h

/-! ### A transition comes to the ball -/

/-- A channel whose oldest transition has come to the ball. -/
def Tout.taken (c : Tout) (now : Nat) (tr : Trans) (l : List Trans) : Tout :=
  { c with
    flight := l, active := tr.active, leadP := if tr.active && !c.active then some tr.p else c.leadP
    launches := tr.edge :: c.launches.filter fun e => decide ((now : Int) - 64 ≤ e) }

theorem State.toutTransition_none (h : (s.tout n).flight = []) (t q : Nat) : s.toutTransition n t q = s := by
  unfold State.toutTransition
  dsimp only
  split
  next heq => exact absurd (h.symm.trans heq).symm (List.cons_ne_nil _ _)
  · rfl

theorem State.toutTransition_early (h : (s.tout n).flight = tr :: l) (hedge : (s.now : Int) < tr.edge) (t q : Nat) : s.toutTransition n t q = s := by
  unfold State.toutTransition
  dsimp only
  split
  next heq =>
    obtain ⟨rfl, rfl⟩ := List.cons.inj (h.symm.trans heq)
    exact if_pos hedge
  next heq => exact absurd (h.symm.trans heq) (List.cons_ne_nil _ _)

/-- The ball changed, with what leaves the block. -/
def State.ballShown (s : State) (n : Nat) (tr : Trans) (l : List Trans) : State :=
  (s.setTout n { (s.tout n).taken s.now tr l with
    high := tr.high, doneTrans := some tr.p, doneLead := if tr.leading then some tr.p else (s.tout n).doneLead }).emit
      (.toutBall n tr.high tr.edge tr.code)

/-- The marks of an echo: CAL while a bank's switch is near, TRUNC for a transition that gating made. -/
def Tout.echoed (c : Tout) (t : Nat) (trunc : Bool) (st : Stamp) : Stamp :=
  let bank := match c.switched with
    | some w => decide (w ≤ t) && decide (t < w + 8)
    | none => false
  { st with flags := st.flags ||| flagIf bank fCAL ||| flagIf trunc fTRUNC }

/-- An echo goes to the condition router, the engines and, for a marker, its link. -/
def State.echoSent (s : State) (n : Nat) (marker : Bool) (st : Stamp) : State :=
  let s3 := if s.condUses st.src then { s with condIn := s.condIn ++ [.edge st] } else s
  let s4 := s3.distribute st
  if marker then s4.setTtl n { s4.ttl n with tx := some st.time } else s4

theorem State.toutTransition_due (h : (s.tout n).flight = tr :: l) (hedge : tr.edge ≤ (s.now : Int)) (t q : Nat) : s.toutTransition n t q =
    if (s.tout n).gated && !tr.sure then s.setTout n { s.tout n with flight := l }
    else if tr.high = (s.tout n).high then s.setTout n ((s.tout n).taken s.now tr l)
    else
      let e := (s.ballShown n tr l).plainStamp (64 + n) (4160 + n) t q tr.high (-(s.toDeskew n))
      e.2.echoSent n tr.marker ((s.tout n).echoed t tr.trunc e.1) := by
  unfold State.toutTransition
  dsimp only
  split
  next heq =>
    obtain ⟨rfl, rfl⟩ := List.cons.inj (h.symm.trans heq)
    exact if_neg (not_lt.mpr hedge)
  next heq => exact absurd (h.symm.trans heq) (List.cons_ne_nil _ _)

theorem State.ballShown_stamp (s : State) (n : Nat) (l : List Trans) (c src t q : Nat) (r : Bool) (d : Int) :
    ((s.ballShown n tr l).plainStamp c src t q r d).1 = (s.plainStamp c src t q r d).1 := rfl

/-- An echo that is no marker: what it leaves, and to whom it goes. -/
theorem State.echoSent_spec (s : State) (n : Nat) (st : Stamp) : ∃ f, s.echoSent n false st = { s with
    condIn := if s.condUses st.src then s.condIn ++ [.edge st] else s.condIn
    measIn := if s.measUses st.src then s.measIn ++ [st] else s.measIn, fwds := f } := by
  have hsent : s.echoSent n false st = (if s.condUses st.src then { s with condIn := s.condIn ++ [.edge st] } else s).distribute st := rfl
  have hcond : (if s.condUses st.src then { s with condIn := s.condIn ++ [.edge st] } else s) = { s with
      condIn := if s.condUses st.src then s.condIn ++ [.edge st] else s.condIn } := by
    by_cases hu : s.condUses st.src = true
    · rw [if_pos hu, if_pos hu]
    · rw [if_neg hu, if_neg hu]
  rw [hsent, hcond]
  obtain ⟨hmeas, -⟩ := State.distribute_spec { s with condIn := if s.condUses st.src then s.condIn ++ [.edge st] else s.condIn } st
  obtain ⟨p, f, hdist⟩ := State.distribute_eq { s with condIn := if s.condUses st.src then s.condIn ++ [.edge st] else s.condIn } st
  refine ⟨f, hdist.trans ?_⟩
  rw [hdist] at hmeas
  rw [show p = _ from hmeas]
  rfl

/-! ### STOP reaches an output -/

/-- What another output's part in STOP leaves alone: this one, the clock, and its page's registers. -/
structure State.SameTout (s : State) (n : Nat) (x : State) : Prop where
  tout : x.tout n = s.tout n
  now : x.now = s.now
  reg : ∀ i, i < 0x400 → x.reg (ra (sTout n) i) = s.reg (ra (sTout n) i)

theorem State.SameTout.refl (s : State) (n : Nat) : s.SameTout n s := ⟨rfl, rfl, fun _ _ => rfl⟩

theorem State.SameTout.trans (h : s.SameTout n x) (k : x.SameTout n y) : s.SameTout n y :=
  ⟨k.tout.trans h.tout, k.now.trans h.now, fun i hi => (k.reg i hi).trans (h.reg i hi)⟩

theorem State.SameTout.reg64 (h : s.SameTout n x) {i : Nat} (hi : i + 4 < 0x400) : x.reg64 (sTout n) i = s.reg64 (sTout n) i := by
  rw [State.reg64, h.reg i (by omega), h.reg (i + 4) hi, State.reg64]

theorem sTout_page (h : m ≠ n) {i : Nat} (hi : i < 0x400) : ra (sTout n) i / 0x400 ≠ sTout m := by
  rw [ra_div _ i hi]
  unfold sTout
  omega

/-- What a flush leaves of a channel (R149, R150). -/
def Tout.flushed (c : Tout) (now : Nat) (way : Bool) (which : Place → Bool) : Tout :=
  let headGone := match c.queue with
    | x :: _ => which x
    | [] => false
  { c with
    queue := c.queue.filter fun x => !which x, transit := if way then c.transit.filter fun x => !which x else c.transit
    headAt := if headGone then now else c.headAt, headOk := c.headOk && !headGone }

/-- How many placements a flush takes. -/
def Tout.flushCount (c : Tout) (way : Bool) (which : Place → Bool) : Nat :=
  (c.queue.filter which).length + (c.transit.length - (if way then c.transit.filter fun x => !which x else c.transit).length)

/-- A flush that takes something: counted, with its event. -/
def State.flushTold (s : State) (n : Nat) (way : Bool) (which : Place → Bool) : State :=
  ((s.setTout n ((s.tout n).flushed s.now way which)).bump64 (sTout n) 0x06C ((s.tout n).flushCount way which)).evt (sTout n) 4

theorem State.toutFlush_eq (s : State) (n : Nat) (way : Bool) (which : Place → Bool) : s.toutFlush n way which =
    if (s.tout n).flushCount way which = 0 then s
    else if ((s.tout n).flushed s.now way which).queue.isEmpty && !(s.tout n).queue.isEmpty then (s.flushTold n way which).evt (sTout n) 5
    else s.flushTold n way which := rfl

theorem State.flushTold_side (s : State) (n : Nat) (way : Bool) (which : Place → Bool) :
    Side (s.setTout n ((s.tout n).flushed s.now way which)) (s.flushTold n way which) := (State.bump64_side _ _ _ _).trans (State.evt_side _ _ _)

theorem State.toutFlush_tout_ne (h : m ≠ n) (way : Bool) (which : Place → Bool) : (s.toutFlush m way which).tout n = s.tout n := by
  have hflush := ((s.flushTold_side m way which).tout n).trans (State.setTout_ne _ _ h)
  rw [State.toutFlush_eq]
  split
  · rfl
  · split
    · rw [(State.evt_side _ _ _).tout, hflush]
    · exact hflush

theorem State.toutRecall_tout_ne (h : m ≠ n) : (s.toutRecall m).tout n = s.tout n := by
  unfold State.toutRecall
  dsimp only
  split
  · split
    · rw [((State.setReg64_side _ _ _ _).trans ((State.bump64_side _ _ _ _).trans (State.evt_side _ _ _))).tout, State.setTout_ne _ _ h]
    · rfl
  · rfl

theorem State.toutStopOn_sameTout (h : m ≠ n) : s.SameTout n (s.toutStopOn m) := by
  obtain ⟨⟨_, _, _, _, _, _, hx⟩, hreg⟩ := s.toutStopOn_toutSide m
  refine ⟨?_, by rw [hx], fun i hi => hreg _ (sTout_page h hi)⟩
  have hgate : (((s.toutRecall m).toutGate m false true false).toutFlush m false fun _ => true).tout n = s.tout n := by
    rw [State.toutFlush_tout_ne h, State.toutGate_tout_ne h, State.toutRecall_tout_ne h]
  unfold State.toutStopOn
  split
  · dsimp only
    split
    · rw [State.setTout_ne _ _ h, hgate]
    · exact hgate
  · rfl

theorem Tout.flushCount_all (c : Tout) : c.flushCount false (fun _ => true) = c.queue.length := by
  unfold Tout.flushCount
  rw [List.filter_true, if_neg Bool.false_ne_true, Nat.sub_self, Nat.add_zero]

/-- The whole queue is flushed. -/
theorem State.toutFlush_all (s : State) (n : Nat) :
    let z := s.toutFlush n false fun _ => true
    (∃ a b, z.tout n = { s.tout n with queue := [], headAt := a, headOk := b }) ∧
      z.reg64 (sTout n) 0x06C = min (s.reg64 (sTout n) 0x06C + (s.tout n).queue.length) (2 ^ 64 - 1) ∧
      ∀ e, bit (s.reg (ra (sTout n) 0x008)) e = true → bit (z.reg (ra (sTout n) 0x008)) e = true := by
  intro z
  have hz : z = _ := s.toutFlush_eq n false fun _ => true
  rw [Tout.flushCount_all] at hz
  by_cases h0 : (s.tout n).queue.length = 0
  · rw [if_pos h0] at hz
    have hnil := List.eq_nil_of_length_eq_zero h0
    rw [hz, h0, Nat.add_zero]
    refine ⟨⟨(s.tout n).headAt, (s.tout n).headOk, by rw [← hnil]⟩, ?_, fun _ h => h⟩
    have := s.reg64_lt (sTout n) 0x06C
    omega
  · rw [if_neg h0] at hz
    have hside := s.flushTold_side n false fun _ => true
    have hqueue : ((s.tout n).flushed s.now false fun _ => true).queue = [] := List.filter_false _
    have htout : ∃ a b, (s.flushTold n false fun _ => true).tout n = { s.tout n with queue := [], headAt := a, headOk := b } := by
      have hshape : (s.tout n).flushed s.now false (fun _ => true) = { s.tout n with
          queue := ((s.tout n).flushed s.now false fun _ => true).queue, headAt := ((s.tout n).flushed s.now false fun _ => true).headAt
          headOk := ((s.tout n).flushed s.now false fun _ => true).headOk } := rfl
      rw [hqueue] at hshape
      exact ⟨_, _, ((hside.tout n).trans (State.setTout_same _ _ _)).trans hshape⟩
    have hcount : (s.flushTold n false fun _ => true).reg64 (sTout n) 0x06C = min (s.reg64 (sTout n) 0x06C + (s.tout n).queue.length) (2 ^ 64 - 1) := by
      rw [State.flushTold, State.evt_reg64_above _ _ _ (by decide), State.bump64, State.reg64_setReg64, Tout.flushCount_all]
      unfold satAdd
      exact Nat.mod_eq_of_lt (by have := Nat.min_le_right ((s.setTout n ((s.tout n).flushed s.now false fun _ => true)).reg64 (sTout n) 0x06C + (s.tout n).queue.length) (2 ^ 64 - 1); omega)
    have hbits (e : Nat) (he : bit (s.reg (ra (sTout n) 0x008)) e = true) : bit ((s.flushTold n false fun _ => true).reg (ra (sTout n) 0x008)) e = true := by
      refine State.evt_bit_keep _ _ _ ?_
      rw [State.bump64_reg (ra_off_ne (by decide) _) (ra_off_ne (by decide) _)]
      exact he
    generalize s.flushTold n false (fun _ => true) = w at hz htout hcount hbits
    rw [hz]
    split
    · rw [(State.evt_side _ _ _).tout, State.evt_reg64_above _ _ _ (by decide)]
      exact ⟨htout, hcount, fun e he => State.evt_bit_keep _ _ _ (hbits e he)⟩
    · exact ⟨htout, hcount, hbits⟩

theorem State.toutRecall_none (h : ∀ e w, (s.tout n).passed = some (e, w) → e ≠ s.now) : s.toutRecall n = s := by
  unfold State.toutRecall
  dsimp only
  split
  next e w heq => exact if_neg (h e w heq)
  · rfl

/-- An active ball with nothing in flight, at the other level: its move to idle, no sooner than 400 ps after its leading edge. -/
theorem State.toutMove_active {p : Int} (hflight : (s.tout n).flight = []) (hhigh : (s.tout n).high = true) (hact : (s.tout n).active = true)
    (hlead : (s.tout n).leadP = some p) : ∃ mv : Trans, s.toutMove n false true true = s.setTout n { s.tout n with flight := [mv] } ∧
      (mv.p, mv.high, mv.sure, mv.trunc) = (max s.phys (p + 1600), false, true, true) := by
  unfold State.toutMove
  dsimp only
  rw [hflight]
  simp only [List.filter_nil, List.map_nil, Tout.ballNow, List.foldl_nil, hact, hhigh, hlead]
  exact ⟨_, rfl, rfl⟩

/-- What STOP leaves of an output that heeds it and was not gated (R148, R149). -/
def State.StoppedOut (s : State) (n : Nat) (z : State) : Prop :=
  let c := s.tout n
  (z.tout n).gatedStop = true ∧ (z.tout n).gatedLock = false ∧ (z.tout n).queue = [] ∧ (z.tout n).transit = c.transit ∧
    bit (z.reg (ra (sTout n) 0x008)) 3 = true ∧ z.reg64 (sTout n) 0x06C = min (s.reg64 (sTout n) 0x06C + c.queue.length) (2 ^ 64 - 1) ∧
    (∀ p, c.flight = [] → c.high = true → c.active = true → c.leadP = some p →
      (z.tout n).flight.map (fun w => (w.p, w.high, w.sure, w.trunc)) = [(max s.phys (p + 1600), false, true, true)])

theorem State.StoppedOut.after (h : s.StoppedOut n x) (k : x.SameTout n y) : s.StoppedOut n y := by
  unfold State.StoppedOut at h ⊢
  rw [k.tout, k.reg 0x008 (by decide), k.reg64 (by decide)]
  exact h

theorem State.StoppedOut.before (h : x.StoppedOut n y) (k : s.SameTout n x) : s.StoppedOut n y := by
  unfold State.StoppedOut at h ⊢
  rw [k.tout, k.reg64 (by decide), State.phys, k.now] at h
  exact h

/-- STOP reaches an output that heeds it and is not gated. -/
theorem State.toutStopOn_spec (hheeds : s.rbit (sTout n) 0x014 11 = true) (hfree : (s.tout n).gated = false)
    (hpassed : ∀ e w, (s.tout n).passed = some (e, w) → e ≠ s.now) : s.StoppedOut n (s.toutStopOn n) := by
  let c := s.tout n
  let z := s.toutStopOn n
  have hlock : c.gatedLock = false := by
    have h := hfree
    unfold Tout.gated at h
    rw [Bool.or_eq_false_iff, Bool.or_eq_false_iff] at h
    exact h.1.1
  have hgate : s.toutGate n false true false = ((s.setTout n (c.addGate false true false)).toutMove n false true true).evt (sTout n) 3 :=
    State.toutGate_free hfree false true false
  obtain ⟨f, hf⟩ := s.toutGate_tout n false true false
  have hz : z = if ((s.toutGate n false true false).toutFlush n false fun _ => true).toSrc n = 1 then
      ((s.toutGate n false true false).toutFlush n false fun _ => true).setTout n
        { ((s.toutGate n false true false).toutFlush n false fun _ => true).tout n with seqHeld := true }
      else (s.toutGate n false true false).toutFlush n false fun _ => true := by
    have hrecall := State.toutRecall_none hpassed
    change s.toutStopOn n = _
    unfold State.toutStopOn
    rw [if_pos hheeds, hrecall]
  have hbit : bit ((s.toutGate n false true false).reg (ra (sTout n) 0x008)) 3 = true := by
    rw [hgate]
    exact State.evt_bit _ (by decide)
  have hcount : (s.toutGate n false true false).reg64 (sTout n) 0x06C = s.reg64 (sTout n) 0x06C := by
    obtain ⟨k, hk⟩ := (s.setTout n (c.addGate false true false)).toutMove_eq n false true true
    rw [hgate, State.evt_reg64_above _ _ _ (by decide), hk]
    rfl
  have hactive (p : Int) (hflight : c.flight = []) (hhigh : c.high = true) (hact : c.active = true) (hlead : c.leadP = some p) :
      ((s.toutGate n false true false).tout n).flight.map (fun w => (w.p, w.high, w.sure, w.trunc)) = [(max s.phys (p + 1600), false, true, true)] := by
    have hsame := s.setTout_same n (c.addGate false true false)
    obtain ⟨mv, hmv, hshape⟩ := State.toutMove_active (s := s.setTout n (c.addGate false true false)) (n := n) (p := p) (by rw [hsame]; exact hflight)
      (by rw [hsame]; exact hhigh) (by rw [hsame]; exact hact) (by rw [hsame]; exact hlead)
    rw [hgate, (State.evt_side _ _ _).tout, hmv, State.setTout_same]
    exact congrArg (fun v => [v]) hshape
  generalize s.toutGate n false true false = y at hf hbit hcount hactive hz
  obtain ⟨⟨a, b, htout⟩, hflush, hbits⟩ := y.toutFlush_all n
  rw [hcount] at hflush
  rw [hf] at htout hflush hactive
  have hw := hbits 3 hbit
  generalize y.toutFlush n false (fun _ => true) = w at hz htout hflush hw
  obtain ⟨k, hk⟩ : ∃ k, z.tout n = { w.tout n with seqHeld := k } ∧ z.regs = w.regs := by
    rw [hz]
    split
    · exact ⟨true, State.setTout_same _ _ _, rfl⟩
    · exact ⟨(w.tout n).seqHeld, rfl, rfl⟩
  change s.StoppedOut n z
  unfold State.StoppedOut
  rw [hk.1, htout, State.reg64_congr hk.2, State.reg, hk.2]
  exact ⟨Bool.or_true _, (Bool.or_false _).trans hlock, rfl, rfl, hw, hflush, hactive⟩

/-! ### STOP and its release -/

theorem State.ckoGate_sameTout (hn : n < 32) (hm : m < 16) (lock stop : Bool) : s.SameTout n (s.ckoGate m lock stop) := by
  obtain ⟨hgate, htouts, -⟩ := s.ckoGate_spec m lock stop
  obtain ⟨c, -, hc⟩ := s.ckoGate_eq m lock stop
  have hreg (i : Nat) (hi : i < 0x400) : (s.ckoGate m lock stop).reg (ra (sTout n) i) = s.reg (ra (sTout n) i) := by
    rw [hc]
    split
    · rfl
    · refine (State.evt_reg_page 0 ?_).trans rfl
      rw [ra_div _ i hi]
      unfold sTout sCko
      omega
  have hnow : (s.ckoGate m lock stop).now = s.now := hgate.quiet.now
  exact ⟨by rw [State.tout, htouts, State.tout], hnow, hreg⟩

theorem State.enter_sameTout (s : State) (n : Nat) (d : DevSt) (hn : n < 32) : s.SameTout n (s.enter d) := by
  unfold State.enter
  split
  · exact State.SameTout.refl s n
  · refine ⟨(State.evt_side _ _ _).tout n, (State.evt_quiet _ _ _).now, fun i hi => (State.evt_reg_page 3 ?_).trans rfl⟩
    rw [ra_div _ i hi]
    unfold sTout sGlb
    omega

/-- Once STOP has reached the timing outputs, nothing more of it touches them. -/
theorem State.stopApply_sameTout (hsrc : s.stopSrc ≠ 0) (hoff : s.stopOn = false) (hdev : s.dev ≠ .booting) (hset : s.Settled)
    (hctx : s.runningCtxs = []) (hn : n < 32) : s.stopOnTouts.SameTout n s.stopApply := by
  have hcond : s.stopSrc ≠ 0 ∧ (!s.stopOn) = true ∧ s.dev ≠ .booting := ⟨hsrc, by rw [hoff]; rfl, hdev⟩
  have hgate : GateSide { s with stopOn := true, admStop := s.adm.isSome } s.stopOnTouts := (State.each_toutStopOn _).1
  have hkept : s.stopOnTouts.runningCtxs = [] ∧ s.stopOnTouts.Settled := by
    generalize s.stopOnTouts = y at hgate
    obtain ⟨_, _, _, _, _, _, _, rfl⟩ := hgate
    exact ⟨hctx, hset⟩
  unfold State.stopApply
  rw [if_pos hcond]
  dsimp only
  rw [← State.stopOnTouts, hkept.1, List.filter_nil, State.each_nil]
  obtain ⟨hsame, hside⟩ := State.each_induct (P := fun u => s.stopOnTouts.SameTout n u ∧ GateSide s.stopOnTouts u)
    (f := fun s n => s.ckoGate n false true) (l := (List.range 16).filter fun n => s.stopOnTouts.rbit (sCko n) 0x014 9)
    (fun u m hm ⟨h, hg⟩ => ⟨h.trans (u.ckoGate_sameTout hn (List.mem_range.mp (List.mem_filter.mp hm).1) false true), hg.trans (u.ckoGate_spec m false true).1⟩)
    ⟨State.SameTout.refl _ n, GateSide.refl _⟩
  generalize State.each s.stopOnTouts _ _ = z at hsame hside ⊢
  have hsetz : z.Settled := by
    obtain ⟨_, _, _, _, _, _, _, rfl⟩ := hside
    exact hkept.2
  split
  · rw [State.settle_id (hsetz.enter _)]
    exact hsame.trans (z.enter_sameTout n .stopped hn)
  · rw [State.settle_id hsetz]
    exact hsame

theorem State.genRestart_keeps (s : State) (n : Nat) : ((s.genRestart n).tout n).gatedStop = (s.tout n).gatedStop ∧
    ((s.genRestart n).tout n).flight = (s.tout n).flight := by
  unfold State.genRestart
  dsimp only
  rw [State.setTout_same]
  exact ⟨rfl, rfl⟩

/-- What STOP's release leaves of an output whose ball rests low: the gate open, moves and what may still leave in flight. -/
theorem State.toutStopOff_spec (hinv : s.toInv n = false) (hstop : (s.tout n).gatedStop = true) (hlock : (s.tout n).gatedLock = false)
    (hdorm : (s.tout n).gatedDorm = false) :
    let c := s.tout n
    let moves := c.flight.filter (·.sure)
    ((s.toutStopOff n).tout n).gatedStop = false ∧
      ((s.toutStopOff n).tout n).flight = (ungateKeep s.now (s.spaceAny n) (s.spaceLead n)
        ((moves.getLast?.map (·.p)).or c.doneTrans) c.doneLead (c.flight.filter fun w => !w.sure)).foldl (fun l w => insTrans w l) moves := by
  intro c moves
  have hungate : ∃ d, s.toutUngate n false true false = s.setTout n d ∧ d.gatedStop = false ∧
      d.flight = (ungateKeep s.now (s.spaceAny n) (s.spaceLead n)
        ((moves.getLast?.map (·.p)).or c.doneTrans) c.doneLead (c.flight.filter fun w => !w.sure)).foldl (fun l w => insTrans w l) moves := by
    have hopens : (c.gated && !({ c with gatedLock := c.gatedLock && !false, gatedStop := c.gatedStop && !true, gatedDorm := c.gatedDorm && !false } : Tout).gated) = true := by
      unfold Tout.gated
      rw [hlock, hstop, hdorm]
      rfl
    unfold State.toutUngate
    dsimp only
    rw [if_pos hopens, hinv, if_neg Bool.false_ne_true]
    exact ⟨_, rfl, Bool.and_false _, rfl⟩
  obtain ⟨d, hd, hgate, hflight⟩ := hungate
  have hoff : ((s.toutStopOff n).tout n).gatedStop = d.gatedStop ∧ ((s.toutStopOff n).tout n).flight = d.flight := by
    have hsame := s.setTout_same n d
    obtain ⟨hgo, hfl⟩ := (s.setTout n d).genRestart_keeps n
    rw [hsame] at hgo hfl
    unfold State.toutStopOff
    rw [if_pos hstop, hd]
    dsimp only
    split
    · exact ⟨hgo, hfl⟩
    · rw [hsame]
      exact ⟨rfl, rfl⟩
  exact ⟨hoff.1.trans hgate, hoff.2.trans hflight⟩

theorem State.toutStopOff_tout_ne (h : m ≠ n) : (s.toutStopOff m).tout n = s.tout n := by
  unfold State.toutStopOff
  split
  · obtain ⟨c, hc, -⟩ := s.toutUngate_spec m false true false
    dsimp only
    rw [hc]
    split
    · exact (State.setTout_ne _ _ h).trans (State.setTout_ne _ _ h)
    · exact State.setTout_ne _ _ h
  · rfl

/-- The release of STOP leaves the timing outputs as their own release does. -/
theorem State.stopLift_touts (hsrc : s.stopSrc = 0) (hon : s.stopOn = true) (hstarts : s.boot.starts = []) (hdma : s.dma = []) :
    s.stopLift.touts = (State.each { s with stopOn := false } (List.range 32) State.toutStopOff).touts := by
  obtain ⟨m, hm⟩ := State.each_toutStopOff { s with stopOn := false }
  unfold State.stopLift
  rw [if_pos ⟨hon, hsrc⟩]
  dsimp only
  rw [hm]
  obtain ⟨c, hside⟩ : ∃ c, State.each { s with stopOn := false, touts := m }
      ((List.range 16).filter fun n => (({ s with stopOn := false, touts := m } : State).cko n).gatedStop)
      (fun s n => s.ckoUngate n false true) = { s with stopOn := false, touts := m, ckos := c } :=
    State.each_induct (P := fun u => ∃ c, u = { s with stopOn := false, touts := m, ckos := c })
      (fun u n _ ⟨c, h⟩ => by subst h; exact ⟨_, rfl⟩) ⟨s.ckos, rfl⟩
  rw [hside]
  split
  · have hrun := State.enter_side { s with stopOn := false, touts := m, ckos := c } .running
    have hdma' : (({ s with stopOn := false, touts := m, ckos := c } : State).enter .running).dma = [] := by
      generalize ({ s with stopOn := false, touts := m, ckos := c } : State).enter .running = y at hrun ⊢
      obtain ⟨_, _, _, _, _, rfl⟩ := hrun
      exact hdma
    rw [State.bootStart_none ((congrArg Boot.starts hrun.boot).trans hstarts), hdma', List.filter_nil, List.map_nil, State.each_nil, hrun.touts]
  · rw [show ({ s with stopOn := false, touts := m, ckos := c } : State).dma = [] from hdma, List.filter_nil, List.map_nil, State.each_nil]

/-- Settles O47: launches, transitions and echoes, STOP's gate and its release. -/
theorem outputGating : Obligations.OutputGating := by
  refine ⟨⟨fun p d g => ⟨(launchOf_code p d g).1, launchOf_near p d g⟩, fun now a b last lead l => ⟨fun w => mem_ungateKeep, fun w r => ungateKeep_head⟩,
    fun s t q n hpow => ?_⟩, fun s t n hpow hset hctx => ?_⟩
  · intro u c
    have hnow : (u.now : Int) = max (s.now : Int) (t : Int) := Nat.cast_max ..
    refine ⟨fun hnone => ?_, fun w r hflight => ⟨fun hearly => ?_, fun hdue => ?_⟩⟩
    · exact next_of hpow (exec_toutTransition t n q s) (State.toutTransition_none (s := u) hnone t q) (Quiet.refl u)
    · exact next_of hpow (exec_toutTransition t n q s) (State.toutTransition_early (s := u) hflight (by rw [hnow]; exact hearly) t q) (Quiet.refl u)
    · have hout := State.toutTransition_due (s := u) hflight (by rw [hnow]; exact hdue) t q
      intro gone
      have hgone : c.taken u.now w r = gone := by
        unfold Tout.taken
        rw [hnow]
      rw [show u.tout n = c from rfl, hgone] at hout
      have hpass (h : c.gated = false ∨ w.sure = true) : ¬ (c.gated && !w.sure) = true := by
        rcases h with h | h
        · rw [h]
          exact Bool.false_ne_true
        · rw [h, Bool.not_true, Bool.and_false]
          exact Bool.false_ne_true
      refine ⟨fun hgated hsure => ?_, fun hopen hhigh => ?_, fun hopen hhigh hmarker => ?_⟩
      · exact next_of hpow (exec_toutTransition t n q s) (hout.trans (if_pos (by rw [hgated, hsure]; rfl))) (u.setTout_quiet _ _)
      · exact next_of hpow (exec_toutTransition t n q s) (hout.trans ((if_neg (hpass hopen)).trans (if_pos hhigh))) (u.setTout_quiet _ _)
      · have hturn := hout.trans ((if_neg (hpass hopen)).trans (if_neg hhigh))
        dsimp only at hturn
        rw [State.plainStamp_eq, u.ballShown_stamp, hmarker] at hturn
        obtain ⟨v, hv⟩ : ∃ v, v = (u.ballShown n w r).stamped ((u.ballShown n w r).stamper (64 + n))
          (u.plainStamp (64 + n) (4160 + n) t q w.high (-u.toDeskew n)).1.phys := ⟨_, rfl⟩
        have hseq : v.seq = ((s.stamper (64 + n)).seq + 1) % 2 ^ 32 := by
          rw [hv]
          rfl
        rw [← hv] at hturn
        have htout : ((u.ballShown n w r).setStamper (64 + n) v).tout n = _ := u.setTout_same n _
        rw [show u.tout n = c from rfl, hgone] at htout
        have hstamper := (u.ballShown n w r).setStamper_same (64 + n) v
        have hkept : Quiet u ((u.ballShown n w r).setStamper (64 + n) v) :=
          ((u.setTout_quiet n _).trans (State.emit_side _ _).quiet).trans (State.setStamper_quiet _ _ _)
        have hrest : ((u.ballShown n w r).setStamper (64 + n) v).out = .toutBall n w.high w.edge w.code :: s.out ∧
            ((u.ballShown n w r).setStamper (64 + n) v).condUses (4160 + n) = s.condUses (4160 + n) ∧
            ((u.ballShown n w r).setStamper (64 + n) v).measUses (4160 + n) = s.measUses (4160 + n) ∧
            ((u.ballShown n w r).setStamper (64 + n) v).condIn = s.condIn ∧ ((u.ballShown n w r).setStamper (64 + n) v).measIn = s.measIn ∧
            ((u.ballShown n w r).setStamper (64 + n) v).regs = s.regs ∧ ((u.ballShown n w r).setStamper (64 + n) v).ttls = s.ttls :=
          ⟨rfl, rfl, rfl, rfl, rfl, rfl, rfl⟩
        generalize (u.ballShown n w r).setStamper (64 + n) v = z at hturn htout hstamper hkept hrest
        obtain ⟨hball, hcu, hmu, hci, hmi, hregs, httls⟩ := hrest
        obtain ⟨f, hsent⟩ := z.echoSent_spec n (c.echoed t w.trunc (u.plainStamp (64 + n) (4160 + n) t q w.high (-u.toDeskew n)).1)
        refine answers_of hpow (exec_toutTransition t n q s) (hturn.trans hsent) (hkept.trans (by constructor <;> rfl))
          ⟨htout, hball, (congrArg Stamper.seq hstamper).trans hseq, ?_, ?_, hregs, httls⟩
        · rw [← hcu, ← hci]
          rfl
        · rw [← hmu, ← hmi]
          rfl
  · intro u c
    refine ⟨fun hsrc hoff hdev => ?_, fun hsrc hon hstarts hdma hinv hstop hlock hdorm => ?_⟩
    · have hsame := State.stopApply_sameTout (s := u) hsrc hoff hdev hset hctx n.isLt
      have hfirst : u.SameTout n { u with stopOn := true, admStop := u.adm.isSome } := ⟨rfl, rfl, fun _ _ => rfl⟩
      have hmem : n.val ∈ List.range 32 := List.mem_range.mpr n.isLt
      refine ⟨fun hdeaf => ?_, fun hheeds hfree hpassed => ?_⟩
      · have honce : u.stopOnTouts.tout n = c := State.each_once (I := u.SameTout n) (R := fun v => v.tout n = c) hmem List.nodup_range
          (fun v m hm h => h.trans (v.toutStopOn_sameTout hm))
          (fun v h => by
            have hno : v.toutStopOn n = v := if_neg (by rw [State.rbit, h.reg 0x014 (by decide)]; exact (Bool.eq_false_iff.mp hdeaf))
            rw [hno]
            exact h.tout)
          (fun v m hm h => (v.toutStopOn_sameTout hm).tout.trans h) hfirst
        have htout := hsame.tout.trans honce
        refine answers_of_wrapped hpow (exec_stopOn t s) fun _ => ?_
        exact htout
      · have honce : u.StoppedOut n u.stopOnTouts := State.each_once (I := u.SameTout n) (R := u.StoppedOut n) hmem List.nodup_range
          (fun v m hm h => h.trans (v.toutStopOn_sameTout hm))
          (fun v h => (State.toutStopOn_spec (s := v) (n := n) (by rw [State.rbit, h.reg 0x014 (by decide)]; exact hheeds) (by rw [h.tout]; exact hfree)
            (by rw [h.tout, h.now]; exact hpassed)).before h)
          (fun v m hm h => h.after (v.toutStopOn_sameTout hm)) hfirst
        have hstopped := honce.after hsame
        refine answers_of_wrapped hpow (exec_stopOn t s) fun _ => ?_
        exact hstopped
    · have honce := State.each_once (I := fun v => (∃ m, v = { u with stopOn := false, touts := m }) ∧ v.tout n = c)
        (R := fun v => (v.tout n).gatedStop = false ∧ (v.tout n).flight = (ungateKeep u.now (u.spaceAny n) (u.spaceLead n)
          (((c.flight.filter (·.sure)).getLast?.map (·.p)).or c.doneTrans) c.doneLead (c.flight.filter fun w => !w.sure)).foldl
            (fun l w => insTrans w l) (c.flight.filter (·.sure)))
        (f := State.toutStopOff) (s := { u with stopOn := false }) (List.mem_range.mpr n.isLt) (List.nodup_range (n := 32))
        (fun v m hm ⟨⟨k, hk⟩, hc⟩ => ?_) (fun v ⟨⟨k, hk⟩, hc⟩ => ?_) (fun v m hm h => ?_) ⟨⟨_, rfl⟩, rfl⟩
      · have htouts := State.stopLift_touts (s := u) hsrc hon hstarts hdma
        rw [State.tout, ← htouts] at honce
        refine answers_of_wrapped hpow (exec_stopOff t s) fun _ => ?_
        exact honce
      · refine ⟨?_, (State.toutStopOff_tout_ne hm).trans hc⟩
        obtain ⟨j, hj⟩ := v.toutStopOff_touts m
        rw [hj, hk]
        exact ⟨j, rfl⟩
      · have hspec := State.toutStopOff_spec (s := v) (n := n) (by rw [hk]; exact hinv) (by rw [hc]; exact hstop) (by rw [hc]; exact hlock)
          (by rw [hc]; exact hdorm)
        rw [hc] at hspec
        rw [hk] at hspec ⊢
        exact hspec
      · rw [State.toutStopOff_tout_ne hm]
        exact h

end Sys2Proof.Machine
end

section
/-! Event lanes as links (07_event_lanes.md): codewords, lock and loss, polls and credit. -/

namespace Sys2Proof.Machine

variable {s x y : State} {n k why : Nat} {off m w : Nat}

/-! ### Table pairs -/

theorem ofNat_half (v : Nat) : (BitVec.ofNat 32 v).toNat + 2 ^ 32 * (BitVec.ofNat 32 (v / 2 ^ 32)).toNat = v % 2 ^ 64 := by
  rw [BitVec.toNat_ofNat, BitVec.toNat_ofNat]
  omega

theorem State.setTab64_tab64_same (s : State) (off v : Nat) : (s.setTab64 off v).tab64 off = v % 2 ^ 64 := by
  unfold State.setTab64 State.tab64 State.setTabN
  rw [State.setTabw_tabw_ne _ _ (by omega), State.setTabw_tabw_same, State.setTabw_tabw_same]
  exact ofNat_half v

theorem State.setTab64_tabw_ne (s : State) (v : Nat) {a : Nat} (h : off ≠ a) (h4 : off + 4 ≠ a) : (s.setTab64 off v).tabw a = s.tabw a := by
  unfold State.setTab64 State.setTabN
  rw [State.setTabw_tabw_ne _ _ h4, State.setTabw_tabw_ne _ _ h]

/-! ### A tile's judgement, once its lane is lost -/

/-- Words of a tile's entry that no judgement touches. -/
theorem State.tileOfs_tabw (s : State) (n : Nat) (hw : 15 ≤ w) : (s.tileOfs n).tabw (oTile n w) = s.tabw (oTile n w) := by
  have hne (k : Nat) (hk : k < 15) : oTile n k ≠ oTile n w := by unfold oTile; omega
  unfold State.tileOfs
  split
  · unfold State.setModel State.setTfld
    rw [State.setTabw_tabw_ne _ _ (hne 8 (by decide)), State.setTab64_tabw_ne _ _ (hne 13 (by decide)) (hne 14 (by decide)),
      State.setTab64_tabw_ne _ _ (hne 11 (by decide)) (hne 12 (by decide)), State.setTab64_tabw_ne _ _ (hne 9 (by decide)) (hne 10 (by decide))]
  · rfl

theorem Side.tabw (h : Side s x) (a : Nat) : x.tabw a = s.tabw a := by rw [State.tabw, h.tab, State.tabw]

theorem Side.tiles (h : Side s x) : x.tiles = s.tiles := by
  obtain ⟨_, _, _, _, _, rfl⟩ := h
  rfl

theorem State.setModel_tiles (s : State) (n t0 kq0 : Nat) (corr : Int) : (s.setModel n t0 kq0 corr).tiles = s.tiles := by
  simp only [State.setModel, State.setTab64, State.setTabN, State.setTfld, State.setTabw_tiles]

theorem State.tileShown_tabw (s : State) (n : Nat) (hw : 15 ≤ w) : (s.tileShown n).tabw (oTile n w) = s.tabw (oTile n w) := by
  unfold State.tileShown
  rw [((State.setRfld_side _ _ _ _ _ _).trans (State.setRfld_side _ _ _ _ _ _)).tabw, State.setTabw_tabw_ne _ _ (by unfold oTile; omega),
    s.tileOfs_tabw n hw]

theorem State.tileShown_tiles (s : State) (n : Nat) : (s.tileShown n).tiles = s.tiles := by
  have hofs : (s.tileOfs n).tiles = s.tiles := by
    unfold State.tileOfs
    split
    · exact s.setModel_tiles _ _ _ _
    · rfl
  unfold State.tileShown
  rw [((State.setRfld_side _ _ _ _ _ _).trans (State.setRfld_side _ _ _ _ _ _)).tiles, State.setTabw_tiles, hofs]

theorem State.tileShown_bits (s : State) (n : Nat) :
    (s.tileShown n).reg (ra (sReb (tileDie n)) 0x008) = s.reg (ra (sReb (tileDie n)) 0x008) := by
  unfold State.tileShown State.setRfld
  rw [State.setReg_reg_ne _ _ (ra_off_ne (by decide) _), State.setReg_reg_ne _ _ (ra_off_ne (by decide) _), State.setTabw_reg, State.tileOfs_reg]

/-- A tile whose lane is lost is not fresh. -/
theorem State.tileWhy_lost (h : (s.lane n).st = .lost) : (s.tileOfs n).tileWhy n = 4 := by
  have habsent : (s.tileOfs n).tileAbsent n = true := by
    unfold State.tileAbsent
    rw [(s.tileOfs_tileSide n).lane, h]
    rfl
  unfold State.tileWhy
  exact if_pos habsent

/-- The judgement of a tile whose lane is lost. -/
theorem State.tileJudged_lost (h : (s.lane n).st = .lost) : (s.tileJudged n).tiles = s.tiles ∧
    (∀ w, 15 ≤ w → (s.tileJudged n).tabw (oTile n w) = s.tabw (oTile n w)) ∧
    ∀ e, bit (s.reg (ra (sReb (tileDie n)) 0x008)) e = true → bit ((s.tileJudged n).reg (ra (sReb (tileDie n)) 0x008)) e = true := by
  have hstale : decide ((s.tileOfs n).tileWhy n = 0) = false := decide_eq_false (by rw [State.tileWhy_lost h]; decide)
  have hreach : (s.tileShown n).tileReached n false = s.tileShown n := rfl
  have hjudged : s.tileJudged n = if (s.tileOfs n).tbit (oTile n 8) 0 then (s.tileShown n).evt (sReb (tileDie n)) 0 else s.tileShown n := by
    rw [State.tileJudged_eq, hstale]
    dsimp only
    rw [hreach]
    cases (s.tileOfs n).tbit (oTile n 8) 0 <;> rfl
  rw [hjudged]
  split
  · have hside := (s.tileShown n).evt_side (sReb (tileDie n)) 0
    have htab := hside.tab
    have htiles : ((s.tileShown n).evt (sReb (tileDie n)) 0).tiles = (s.tileShown n).tiles := by
      obtain ⟨_, _, _, _, _, hx⟩ := hside
      rw [hx]
    refine ⟨htiles.trans (s.tileShown_tiles n), fun w hw => ?_, fun e he => State.evt_bit_keep _ _ _ (by rw [s.tileShown_bits n]; exact he)⟩
    rw [State.tabw, htab]
    exact s.tileShown_tabw n hw
  · exact ⟨s.tileShown_tiles n, fun w hw => s.tileShown_tabw n hw, fun e he => by rw [s.tileShown_bits n]; exact he⟩

/-! ### A lane is lost -/

/-- LOST_AT and LOST_FROM of a tile, and the mark on the stamps that are held (R185, R186). -/
def State.tileMarked (s : State) (n : Nat) (from' : Option Nat) : State :=
  match from' with
  | some e => ((s.setTab64 (oTile n 24) s.epoch).setTab64 (oTile n 22) (s.stampTime (2000 * (e : Int)))).markLost n (2000 * (e : Int))
  | none => s.setTab64 (oTile n 24) s.epoch

theorem State.tileLost_eq (s : State) (n : Nat) (from' : Option Nat) : s.tileLost n from' =
    (((s.tileMarked n from').setTile n { (s.tileMarked n from').tile n with lostOpen := true, freshAt := none }).evt (sReb (tileDie n)) 2).tileJudged n := by
  cases from' with
  | none => rfl
  | some e => rfl

theorem State.setTab64_eq (s : State) (off v : Nat) : ∃ m, s.setTab64 off v = { s with tab := m } := by
  unfold State.setTab64 State.setTabN State.setTabw
  exact ⟨_, rfl⟩

/-- Marking held stamps leaves lanes, registers and tables. -/
theorem State.markLost_stands (s : State) (n : Nat) (p : Int) : (s.markLost n p).lanes = s.lanes ∧ (s.markLost n p).regs = s.regs ∧
    (s.markLost n p).tab = s.tab := ⟨rfl, rfl, rfl⟩

theorem State.tab64_congr (h : x.tab = s.tab) (off : Nat) : x.tab64 off = s.tab64 off := by
  rw [State.tab64, State.tabw, State.tabw, h, State.tab64, State.tabw, State.tabw]

theorem State.setTab64_tab64_ne (s : State) (v : Nat) {a : Nat} (h : off + 4 < a ∨ a + 4 < off) : (s.setTab64 off v).tab64 a = s.tab64 a := by
  rw [State.tab64, State.setTab64_tabw_ne _ _ (by omega) (by omega), State.setTab64_tabw_ne _ _ (by omega) (by omega), State.tab64]

theorem State.tileMarked_spec (s : State) (n : Nat) (from' : Option Nat) :
    let z := s.tileMarked n from'
    z.lanes = s.lanes ∧ z.regs = s.regs ∧ z.tab64 (oTile n 24) = s.epoch ∧
      (∀ e : Nat, from' = some e → z.tab64 (oTile n 22) = s.stampTime (2000 * (e : Int))) ∧
      (from' = none → z.tab64 (oTile n 22) = s.tab64 (oTile n 22)) := by
  have hepoch : s.epoch % 2 ^ 64 = s.epoch := Nat.mod_mod _ _
  have h24 : (s.setTab64 (oTile n 24) s.epoch).tab64 (oTile n 24) = s.epoch := (State.setTab64_tab64_same _ _ _).trans hepoch
  have h22 : (s.setTab64 (oTile n 24) s.epoch).tab64 (oTile n 22) = s.tab64 (oTile n 22) :=
    State.setTab64_tab64_ne s s.epoch (by unfold oTile; omega)
  obtain ⟨m, hm⟩ := s.setTab64_eq (oTile n 24) s.epoch
  unfold State.tileMarked
  cases from' with
  | none =>
    dsimp only
    rw [hm] at h24 h22 ⊢
    exact ⟨rfl, rfl, h24, fun e he => (Option.some_ne_none e he.symm).elim, fun _ => h22⟩
  | some e =>
    dsimp only
    have h24' : ((s.setTab64 (oTile n 24) s.epoch).setTab64 (oTile n 22) (s.stampTime (2000 * (e : Int)))).tab64 (oTile n 24) = s.epoch :=
      (State.setTab64_tab64_ne _ _ (by unfold oTile; omega)).trans h24
    have h22' : ((s.setTab64 (oTile n 24) s.epoch).setTab64 (oTile n 22) (s.stampTime (2000 * (e : Int)))).tab64 (oTile n 22) =
        s.stampTime (2000 * (e : Int)) := (State.setTab64_tab64_same _ _ _).trans (m64_mod _)
    rw [hm] at h24' h22' ⊢
    obtain ⟨m', hm'⟩ := ({ s with tab := m } : State).setTab64_eq (oTile n 22) (s.stampTime (2000 * (e : Int)))
    rw [hm'] at h24' h22' ⊢
    obtain ⟨hlanes, hregs, htab⟩ := ({ s with tab := m' } : State).markLost_stands n (2000 * (e : Int))
    refine ⟨hlanes, hregs, (State.tab64_congr htab _).trans h24', fun e' he => ?_, fun he => (Option.some_ne_none e he).elim⟩
    obtain rfl := Option.some.inj he
    exact (State.tab64_congr htab _).trans h22'

/-- What a lost lane's tile shows (R185, R186). -/
theorem State.tileLost_spec (h : (s.lane n).st = .lost) (from' : Option Nat) :
    let z := s.tileLost n from'
    z.lane n = s.lane n ∧ (z.tile n).lostOpen = true ∧ z.tab64 (oTile n 24) = s.epoch ∧
      (∀ e : Nat, from' = some e → z.tab64 (oTile n 22) = s.stampTime (2000 * (e : Int))) ∧
      (from' = none → z.tab64 (oTile n 22) = s.tab64 (oTile n 22)) ∧ bit (z.reg (ra (sReb (tileDie n)) 0x008)) 2 = true ∧
      ∀ a, a / 0x400 ≠ sReb (tileDie n) → z.reg a = s.reg a := by
  intro z
  obtain ⟨hlanes, hregs, hat, hfrom, hnone⟩ := s.tileMarked_spec n from'
  have hz : z = _ := s.tileLost_eq n from'
  generalize s.tileMarked n from' = v at *
  have hside := (v.setTile n { v.tile n with lostOpen := true, freshAt := none }).evt_side (sReb (tileDie n)) 2
  have hbit : bit (((v.setTile n { v.tile n with lostOpen := true, freshAt := none }).evt (sReb (tileDie n)) 2).reg (ra (sReb (tileDie n)) 0x008)) 2 = true :=
    State.evt_bit _ (by decide)
  have hpage (a : Nat) (ha : a / 0x400 ≠ sReb (tileDie n)) :
      ((v.setTile n { v.tile n with lostOpen := true, freshAt := none }).evt (sReb (tileDie n)) 2).reg a = s.reg a := by
    rw [State.evt_reg_page 2 ha, State.setTile_reg, State.reg, hregs, State.reg]
  have htiles : ((v.setTile n { v.tile n with lostOpen := true, freshAt := none }).evt (sReb (tileDie n)) 2).tiles =
      (v.setTile n { v.tile n with lostOpen := true, freshAt := none }).tiles := hside.tiles
  have htile := v.setTile_same n { v.tile n with lostOpen := true, freshAt := none }
  have htabw (a : Nat) : ((v.setTile n { v.tile n with lostOpen := true, freshAt := none }).evt (sReb (tileDie n)) 2).tabw a = v.tabw a := hside.tabw a
  have hlane : ((v.setTile n { v.tile n with lostOpen := true, freshAt := none }).evt (sReb (tileDie n)) 2).lane n = s.lane n := by
    rw [hside.tileSide.lane, (State.setTile_tileSide _ _ _).lane, State.lane, hlanes, State.lane]
  generalize (v.setTile n { v.tile n with lostOpen := true, freshAt := none }).evt (sReb (tileDie n)) 2 = w at *
  obtain ⟨hjtiles, hjtab, hjbit⟩ := State.tileJudged_lost (s := w) (n := n) (by rw [hlane]; exact h)
  have hpair (k : Nat) (hk : 15 ≤ k) : (w.tileJudged n).tab64 (oTile n k) = v.tab64 (oTile n k) := by
    rw [State.tab64, hjtab k hk, htabw, show oTile n k + 4 = oTile n (k + 1) from rfl, hjtab (k + 1) (by omega), htabw, State.tab64]
    rfl
  rw [hz]
  refine ⟨((w.tileJudged_tileSide n).lane n).trans hlane, ?_, (hpair 24 (by decide)).trans hat, fun e he => (hpair 22 (by decide)).trans (hfrom e he),
    fun he => (hpair 22 (by decide)).trans (hnone he), hjbit 2 hbit, fun a ha => (State.tileJudged_reg ha).trans (hpage a ha)⟩
  rw [State.tile, hjtiles, htiles]
  exact congrArg Tile.lostOpen htile

/-- A lane's state once it is lost (R167). -/
def Lane.gone (x : Lane) (now why : Nat) : Lane :=
  { x with
    st := .lost, cw := false, good := 0, bad := 0, lastFail := why, lostAt := now
    cdr := x.cdr && decide (why ≠ 3), polls := [] }

/-- A lane lost, before its tile is told. -/
def State.laneGone (s : State) (n why : Nat) : State :=
  (((s.setLane n ((s.lane n).gone s.now why)).bump64 (sLane n) 0x080 1).evt (sLane n) 1).bbrFault (sLane n) n why

theorem sLane_page (hn : n < 64) {i : Nat} (hi : i < 0x400) : ra (sLane n) i / 0x400 ≠ sBbr ∧ ra (sLane n) i / 0x400 ≠ sReb (tileDie n) := by
  rw [ra_div _ i hi]
  unfold sLane sBbr sReb tileDie
  split
  · omega
  · omega

theorem State.laneGone_spec (s : State) (hn : n < 64) (why : Nat) : Side (s.setLane n ((s.lane n).gone s.now why)) (s.laneGone n why) ∧
    (s.laneGone n why).reg64 (sLane n) 0x080 = min (s.reg64 (sLane n) 0x080 + 1) (2 ^ 64 - 1) ∧
    bit ((s.laneGone n why).reg (ra (sLane n) 0x008)) 1 = true := by
  have hreg (i : Nat) (hi : i < 0x400) : (s.laneGone n why).reg (ra (sLane n) i) =
      (((s.setLane n ((s.lane n).gone s.now why)).bump64 (sLane n) 0x080 1).evt (sLane n) 1).reg (ra (sLane n) i) :=
    State.bbrPush_reg_page _ _ _ (sLane_page hn hi).1
  refine ⟨((State.bump64_side _ _ _ _).trans (State.evt_side _ _ _)).trans (State.bbrPush_side _ _ _ _), ?_, ?_⟩
  · rw [State.reg64, hreg _ (by decide), hreg _ (by decide), ← State.reg64, State.evt_reg64_above _ _ _ (by decide), State.reg64_bump64]
    rfl
  · rw [hreg _ (by decide)]
    exact State.evt_bit _ (by decide)

/-- A lane lost for a reason: what it and its tile show. -/
def State.LaneLostBy (s : State) (n why : Nat) (z : State) : Prop :=
  (z.lane n).st = .lost ∧ (z.lane n).lastFail = why ∧ (z.lane n).lostAt = s.now ∧ (z.lane n).cw = false ∧
    (z.lane n).buf = (s.lane n).buf ∧ z.reg64 (sLane n) 0x080 = min (s.reg64 (sLane n) 0x080 + 1) (2 ^ 64 - 1) ∧ bit (z.reg (ra (sLane n) 0x008)) 1 = true ∧
    (z.tile n).lostOpen = true ∧ z.tab64 (oTile n 24) = s.epoch ∧
    (∀ e, (s.lane n).lastAck = some e → z.tab64 (oTile n 22) = s.stampTime (2000 * (e : Int))) ∧
    ((s.lane n).lastAck = none → z.tab64 (oTile n 22) = s.tab64 (oTile n 22)) ∧
    bit (z.reg (ra (sReb (tileDie n)) 0x008)) 2 = true

theorem State.laneLost_spec (s : State) (hn : n < 64) (why : Nat) : s.LaneLostBy n why (s.laneLost n why) := by
  obtain ⟨hside, hcount, hbit⟩ := s.laneGone_spec hn why
  have hlost : s.laneLost n why = (s.laneGone n why).tileLost n (s.lane n).lastAck := rfl
  have hlane : (s.laneGone n why).lane n = (s.lane n).gone s.now why := (hside.tileSide.lane n).trans (State.setLane_same _ _ _)
  have hsame : (s.laneGone n why).epoch = s.epoch ∧ (∀ p, (s.laneGone n why).stampTime p = s.stampTime p) ∧
      (s.laneGone n why).tab64 (oTile n 22) = s.tab64 (oTile n 22) := by
    generalize s.laneGone n why = v at hside
    obtain ⟨_, _, _, _, _, rfl⟩ := hside
    exact ⟨rfl, fun _ => rfl, rfl⟩
  generalize s.laneGone n why = v at *
  obtain ⟨hl, hopen, hat, hfrom, hnone, hreb, hpage⟩ := State.tileLost_spec (s := v) (n := n) (by rw [hlane]; rfl) (s.lane n).lastAck
  rw [← hlost] at *
  have hr (i : Nat) (hi : i < 0x400) := hpage (ra (sLane n) i) (sLane_page hn hi).2
  unfold State.LaneLostBy
  rw [hl, hlane, State.reg64, hr _ (by decide), hr _ (by decide), ← State.reg64, hr _ (by decide)]
  exact ⟨rfl, rfl, rfl, rfl, rfl, hcount, hbit, hopen, hat.trans hsame.1, fun e he => (hfrom e he).trans (hsame.2.1 _),
    fun he => (hnone he).trans hsame.2.2, hreb⟩

/-! ### Codewords -/

theorem State.laneReport_eq (s : State) (n col k : Nat) : ∃ m, s.laneReport n col k = { s with tab := m } := by
  refine exists_eq_ite ⟨s.tab, rfl⟩ ?_
  refine State.each_induct (P := fun u => ∃ m, u = { s with tab := m }) (fun u c _ ⟨m, h⟩ => ?_) ⟨s.tab, rfl⟩
  subst h
  exact ⟨_, rfl⟩

theorem State.laneReport_tileSide (s : State) (n col k : Nat) : TileSide s (s.laneReport n col k) := by
  obtain ⟨m, h⟩ := s.laneReport_eq n col k
  rw [h]
  exact ⟨_, _, _, _, _, _, _, rfl⟩

theorem State.laneReport_regs (s : State) (n col k : Nat) : (s.laneReport n col k).regs = s.regs := by
  obtain ⟨m, h⟩ := s.laneReport_eq n col k
  rw [h]

/-- Whether codewords come to a lane's deframer. -/
def laneHears (st : LaneSt) : Bool := laneOpen st || decide (st = .training)

theorem laneHears_iff (st : LaneSt) : laneHears st = true ↔ laneOpen st = true ∨ st = .training := by
  rw [laneHears, Bool.or_eq_true, decide_eq_true_iff]

theorem State.laneCodeword_deaf (h : (s.lane n).st = .off ∨ (s.lane n).st = .lost) (r : CodewordResult) : s.laneCodeword n r = s := by
  refine if_neg ?_
  rcases h with h | h
  · rw [h]
    decide
  · rw [h]
    decide

theorem State.laneCodeword_decoded (h : laneHears (s.lane n).st = true) (c : Fin 16) (f : Fin 80) : s.laneCodeword n (.decoded c f) =
    let s1 := s.setLane n { s.lane n with cdr := true, good := (s.lane n).good + 1, bad := 0 }
    if (s.lane n).cw then
      if f = 0 then s1.bump64 (sLane n) 0x070 c else (((s1.bump64 (sLane n) 0x070 c).bump64 (sLane n) 0x050 f).evt (sLane n) 3).laneReport n 2 f
    else s1 := if_pos h

theorem State.laneCodeword_failed (h : laneHears (s.lane n).st = true) (k : Fin 80) : s.laneCodeword n (.failed k) =
    let s1 := s.setLane n { s.lane n with cdr := true, good := 0, bad := (s.lane n).bad + 1 }
    if (s.lane n).cw then (((s1.bump64 (sLane n) 0x068 1).bump64 (sLane n) 0x050 k).evt (sLane n) 3).laneReport n 2 k else s1 := if_pos h

/-- Two counters of a lane's page, an event, and the reports that follow. -/
theorem State.laneCounted_spec (s : State) (n a b k f : Nat) (ha : 0x00C ≤ a) (hb : 0x00C ≤ b) (h : a + 4 < b ∨ b + 4 < a) :
    let z := (((s.bump64 (sLane n) a k).bump64 (sLane n) b f).evt (sLane n) 3).laneReport n 2 f
    TileSide s z ∧ z.reg64 (sLane n) a = min (s.reg64 (sLane n) a + k) (2 ^ 64 - 1) ∧ z.reg64 (sLane n) b = min (s.reg64 (sLane n) b + f) (2 ^ 64 - 1) ∧
      bit (z.reg (ra (sLane n) 0x008)) 3 = true := by
  intro z
  have hregs := State.laneReport_regs (((s.bump64 (sLane n) a k).bump64 (sLane n) b f).evt (sLane n) 3) n 2 f
  refine ⟨(((State.bump64_side _ _ _ _).trans (State.bump64_side _ _ _ _)).trans (State.evt_side _ _ _)).tileSide.trans (State.laneReport_tileSide _ _ _ _), ?_, ?_, ?_⟩
  · rw [State.reg64_congr hregs, State.evt_reg64_above _ _ _ ha, State.bump64_reg64 (by omega), State.reg64_bump64]
  · rw [State.reg64_congr hregs, State.evt_reg64_above _ _ _ hb, State.reg64_bump64, State.bump64_reg64 (by omega)]
  · rw [State.reg, hregs, ← State.reg]
    exact State.evt_bit _ (by decide)

/-! ### Lock, polls, credit, retry -/

theorem State.laneCwLock_not (h : (s.lane n).st ≠ .training ∨ (s.lane n).good < 8) : s.laneCwLock n = s := by
  refine if_neg fun hc => ?_
  rcases h with h | h
  · exact h hc.1
  · omega

/-- A lane that has lock: ALIGNED, with a fresh ledger. -/
def Lane.locked (x : Lane) (now : Nat) : Lane :=
  { x with st := .aligned, cw := true, r := 0, l := 0, creditL := 0, alignedAt := now, ackAt := now, polls := [] }

theorem State.laneCwLock_yes (h : (s.lane n).st = .training) (hgood : 8 ≤ (s.lane n).good) :
    s.laneCwLock n = (s.setLane n ((s.lane n).locked s.now)).setRfld (sLane n) 0x038 24 2 0 := if_pos ⟨h, hgood⟩

theorem setFld_pair_zero (v : Word) : bit (setFld v 24 2 0) 24 = false ∧ bit (setFld v 24 2 0) 25 = false := by
  constructor
  · rw [bit, setFld_getLsbD _ _ _ _ _ (by decide), if_pos (by decide)]
    rfl
  · rw [bit, setFld_getLsbD _ _ _ _ _ (by decide), if_pos (by decide)]
    rfl

/-- Neither word of the registration has been seen since lock. -/
theorem State.seen_cleared (s : State) (n : Nat) : (s.setRfld (sLane n) 0x038 24 2 0).identSeen n = false ∧
    (s.setRfld (sLane n) 0x038 24 2 0).unitSeen n = false := by
  unfold State.identSeen State.unitSeen State.rbit State.setRfld
  rw [State.setReg_reg_same]
  exact setFld_pair_zero _

theorem State.lanePollTx_waits (h : laneOpen (s.lane n).st = false ∨ ∃ p r, (s.lane n).polls = p :: r ∧ s.now < p.2 + 1000) : s.lanePollTx n = s := by
  rcases h with h | ⟨p, r, hp, hlt⟩
  · refine if_neg ?_
    rw [h, Bool.false_and]
    exact Bool.false_ne_true
  · unfold State.lanePollTx
    dsimp only
    rw [hp]
    refine if_neg ?_
    rw [Bool.and_eq_true, decide_eq_true_iff]
    exact fun hc => absurd hlt (not_lt.mpr hc.2)

theorem State.lanePollTx_sends {p : Nat × Nat} {r : List (Nat × Nat)} (h : laneOpen (s.lane n).st = true) (hp : (s.lane n).polls = p :: r)
    (hdue : p.2 + 1000 ≤ s.now) : ∃ l, s.lanePollTx n = (s.setLane n { s.lane n with
      tag := ((s.lane n).tag + 1) % 2 ^ 16, polls := ((s.lane n).tag, s.now) :: l }).emit (.laneWord n (BitVec.ofNat 64 (2 ^ 56 + (s.lane n).tag))) := by
  refine ⟨(s.lane n).polls.filter fun p => decide (s.now ≤ p.2 + 2 * usEdges), ?_⟩
  have hword : ctlWord 1 (s.lane n).tag = BitVec.ofNat 64 (2 ^ 56 + (s.lane n).tag) := by rw [ctlWord, Nat.one_mul]
  rw [← hword]
  refine if_pos ?_
  rw [h, hp, Bool.true_and]
  exact decide_eq_true hdue

theorem nfld_low {v k : Nat} (h : nfld v 56 8 = k) (hk : k < 64) : nfld v 62 2 = 0 ∧ nfld v 56 6 = k := by
  unfold nfld at *
  omega

theorem State.laneRx_poll (h : laneOpen (s.lane n).st = true) {w : Word64} (hw : nfld w.toNat 56 8 = 1) : s.laneRx n w = s.lanePoll n w := by
  obtain ⟨h2, h6⟩ := nfld_low hw (by decide)
  unfold State.laneRx
  dsimp only
  rw [if_pos h, h2, h6]
  rfl

theorem State.laneRx_ack (h : laneOpen (s.lane n).st = true) {w : Word64} (hw : nfld w.toNat 56 8 = 2) : s.laneRx n w = s.laneAck n w := by
  obtain ⟨h2, h6⟩ := nfld_low hw (by decide)
  unfold State.laneRx
  dsimp only
  rw [if_pos h, h2, h6]
  rfl

theorem State.laneRegister_none (hi : s.identSeen n = false) (hu : s.unitSeen n = false) : s.laneRegister n = s := by
  unfold State.laneRegister
  dsimp only
  rw [hi, hu]
  rfl

theorem State.laneTrain_trained (s : State) (n : Nat) : (s.laneTrain n).lane n =
    { s.lane n with st := .training, cw := false, good := 0, bad := 0, polls := [] } := by
  rw [State.laneTrain, (State.tileJudge_tileSide _ n).lane, State.setLane_same]

/-- The time after which a lost lane retrains (R165). -/
theorem retry_edges (r : Nat) : r * 1000 * usEdges = r * 2_000_000 := Nat.mul_assoc r 1000 2000

theorem State.laneRetry_not (h : (s.lane n).st ≠ .lost ∨ s.rfld (sLane n) 0x014 8 8 = 0 ∨ s.now < (s.lane n).lostAt + s.rfld (sLane n) 0x014 8 8 * 2_000_000) :
    s.laneRetry n = s := by
  refine if_neg fun ⟨h1, h2, h3⟩ => ?_
  rw [retry_edges] at h3
  rcases h with h | h | h
  · exact h h1
  · exact h2 h
  · exact absurd h (not_lt.mpr h3)

theorem State.laneRetry_yes (h : (s.lane n).st = .lost) (hr : s.rfld (sLane n) 0x014 8 8 ≠ 0)
    (hdue : (s.lane n).lostAt + s.rfld (sLane n) 0x014 8 8 * 2_000_000 ≤ s.now) : s.laneRetry n = s.laneTrain n :=
  if_pos ⟨h, hr, by rw [retry_edges]; exact hdue⟩

/-- Settles O48: the lane as a link, state by state. -/
theorem laneLink : Obligations.LaneLink := by
  intro s t n hpow u now x one lost tag known
  have hwake {c : Instr} {f : State → State} {z : State} (hc : exec c s = command t (fun s => (f s).wakeAll) s) (hx : f u = z)
      (hq : Quiet u z) : exec c s = .next z.wakeAll :=
    next_of hpow hc (congrArg State.wakeAll hx) (hq.trans (State.wakeAll_ctxSide _).quiet)
  have hlost {c : Instr} {f : State → State} {why : Nat} (hc : exec c s = command t (fun s => (f s).wakeAll) s) (hx : f u = u.laneLost n why) :
      lost why c := by
    have hspec := u.laneLost_spec n.isLt why
    rw [← hx] at hspec
    refine answers_of_woken hpow hc fun m l => ?_
    generalize f (s.advance t) = z at hspec ⊢
    exact hspec
  have hset (z : Lane) : Quiet u (u.setLane n z) := u.setLane_quiet n z
  refine ⟨fun hdeaf r => ?_, fun hhears => ⟨fun c f => ⟨fun hcw => ?_, fun hcw => ?_⟩, fun k => ⟨fun hcw => ?_, fun hcw => ?_⟩⟩, fun hnot => ?_, fun htrain hgood => ?_,
    fun hshut => ⟨?_, ?_, ?_, fun htrain => ?_⟩, fun hopen => ⟨fun hbad => ?_, fun hbad => ?_, ?_, fun hdue => ?_, fun hearly => ?_,
      fun p r hp hdue => ?_, fun p r hp hearly => ?_, fun w hw => ?_, fun w hw => ⟨fun hk => ?_, fun hk hst => ?_, fun hk hst hi hu => ?_⟩⟩,
    fun hreg hdue => ?_, fun hnot => ?_, fun hnot => ?_, fun hup hdue => ?_, fun hnot => ?_, fun hst hr hdue => ?_⟩
  · exact next_of hpow (exec_laneCodeword t n r s) (State.laneCodeword_deaf (s := u) hdeaf r) (Quiet.refl u)
  · have hears : laneHears (u.lane n).st = true := (laneHears_iff _).mpr hhears
    exact next_of hpow (exec_laneCodeword t n _ s) ((State.laneCodeword_decoded (s := u) hears c f).trans (if_neg (Bool.eq_false_iff.mp hcw))) (hset _)
  · have hears : laneHears (u.lane n).st = true := (laneHears_iff _).mpr hhears
    have hout := (State.laneCodeword_decoded (s := u) hears c f).trans (if_pos hcw)
    have hsame := u.setLane_same n { u.lane n with cdr := true, good := (u.lane n).good + 1, bad := 0 }
    have hquiet := hset { u.lane n with cdr := true, good := (u.lane n).good + 1, bad := 0 }
    have hregs : (u.setLane n { u.lane n with cdr := true, good := (u.lane n).good + 1, bad := 0 }).regs = s.regs := rfl
    generalize u.setLane n { u.lane n with cdr := true, good := (u.lane n).good + 1, bad := 0 } = z at hout hsame hquiet hregs
    by_cases hf : f = 0
    · have hside := z.bump64_side (sLane n) 0x070 c
      refine answers_of hpow (exec_laneCodeword t n _ s) (hout.trans (if_pos hf)) (hquiet.trans hside.quiet)
        ⟨(hside.tileSide.lane n).trans hsame, ?_, ?_, fun h => absurd hf h⟩
      · rw [State.reg64_bump64, State.reg64_congr hregs]
      · have hlt := s.reg64_lt (sLane n) 0x050
        rw [State.bump64_reg64 (by decide), State.reg64_congr hregs, hf]
        exact (Nat.min_eq_left (by omega)).symm
    · obtain ⟨hside, ha, hb, hbit⟩ := z.laneCounted_spec n 0x070 0x050 c f (by decide) (by decide) (by decide)
      rw [State.reg64_congr hregs] at ha hb
      exact answers_of hpow (exec_laneCodeword t n _ s) (hout.trans (if_neg hf)) (hquiet.trans hside.quiet)
        ⟨(hside.lane n).trans hsame, ha, hb, fun _ => hbit⟩
  · have hears : laneHears (u.lane n).st = true := (laneHears_iff _).mpr hhears
    exact next_of hpow (exec_laneCodeword t n _ s) ((State.laneCodeword_failed (s := u) hears k).trans (if_neg (Bool.eq_false_iff.mp hcw))) (hset _)
  · have hears : laneHears (u.lane n).st = true := (laneHears_iff _).mpr hhears
    have hsame := u.setLane_same n { u.lane n with cdr := true, good := 0, bad := (u.lane n).bad + 1 }
    obtain ⟨hside, ha, hb, hbit⟩ := (u.setLane n { u.lane n with cdr := true, good := 0, bad := (u.lane n).bad + 1 }).laneCounted_spec n 0x068 0x050 1 k
      (by decide) (by decide) (by decide)
    exact answers_of hpow (exec_laneCodeword t n _ s) ((State.laneCodeword_failed (s := u) hears k).trans (if_pos hcw)) ((hset _).trans hside.quiet)
      ⟨(hside.lane n).trans hsame, ha, hb, hbit⟩
  · exact hwake (exec_laneCwLock t n s) (State.laneCwLock_not (s := u) hnot) (Quiet.refl u)
  · have hlocked := State.laneCwLock_yes (s := u) htrain hgood
    obtain ⟨hi, hu⟩ := (u.setLane n ((u.lane n).locked u.now)).seen_cleared n
    have hlane : ((u.setLane n ((u.lane n).locked u.now)).setRfld (sLane n) 0x038 24 2 0).lane n = (u.lane n).locked u.now :=
      ((State.setRfld_side _ _ _ _ _ _).tileSide.lane n).trans (State.setLane_same _ _ _)
    have hquiet : Quiet u ((u.setLane n ((u.lane n).locked u.now)).setRfld (sLane n) 0x038 24 2 0) :=
      (hset _).trans (State.setRfld_side _ _ _ _ _ _).quiet
    obtain ⟨m, hm⟩ := State.wakeAll_ctxSide ((u.setLane n ((u.lane n).locked u.now)).setRfld (sLane n) 0x038 24 2 0)
    refine answers_of hpow (exec_laneCwLock t n s) ((congrArg State.wakeAll hlocked).trans hm)
      (hquiet.trans (by rw [← hm]; exact (State.wakeAll_ctxSide _).quiet)) ⟨hlane, hi, hu, rfl⟩
  · refine hwake (exec_laneAlignLoss t n s) (if_neg ?_) (Quiet.refl u)
    rw [show laneOpen (u.lane n).st = false from hshut]
    exact Bool.false_ne_true
  · refine hwake (exec_ackTimeout t n s) (if_neg ?_) (Quiet.refl u)
    rw [show laneOpen (u.lane n).st = false from hshut]
    exact Bool.false_ne_true
  · exact next_of hpow (exec_pollTx t n s) (State.lanePollTx_waits (s := u) (.inl hshut)) (Quiet.refl u)
  · refine hwake (exec_laneSignalLoss t n s) ((if_neg ?_).trans (if_pos htrain)) (hset _)
    rw [show laneOpen (u.lane n).st = false from hshut]
    exact Bool.false_ne_true
  · exact hlost (exec_laneAlignLoss t n s) (if_pos (Bool.and_eq_true_iff.mpr ⟨hopen, decide_eq_true hbad⟩))
  · refine hwake (exec_laneAlignLoss t n s) (if_neg ?_) (Quiet.refl u)
    exact fun h => absurd hbad (not_lt.mpr (of_decide_eq_true (Bool.and_eq_true_iff.mp h).2))
  · exact hlost (exec_laneSignalLoss t n s) (if_pos hopen)
  · exact hlost (exec_ackTimeout t n s) (if_pos (Bool.and_eq_true_iff.mpr ⟨hopen, decide_eq_true hdue⟩))
  · refine hwake (exec_ackTimeout t n s) (if_neg ?_) (Quiet.refl u)
    exact fun h => absurd hearly (not_lt.mpr (of_decide_eq_true (Bool.and_eq_true_iff.mp h).2))
  · obtain ⟨l, hl⟩ := State.lanePollTx_sends (s := u) hopen hp hdue
    have hsame := u.setLane_same n { u.lane n with tag := ((u.lane n).tag + 1) % 2 ^ 16, polls := ((u.lane n).tag, u.now) :: l }
    exact answers_of hpow (exec_pollTx t n s) hl ((hset _).trans (State.emit_side _ _).quiet)
      ⟨(congrArg Lane.tag hsame :), congrArg List.head? (congrArg Lane.polls hsame), rfl⟩
  · exact next_of hpow (exec_pollTx t n s) (State.lanePollTx_waits (s := u) (.inr ⟨p, r, hp, hearly⟩)) (Quiet.refl u)
  · exact next_of hpow (exec_poll t n w s) (State.laneRx_poll (s := u) hopen hw) (u.emit_side _).quiet
  · exact hwake (exec_ack t n w s) ((State.laneRx_ack (s := u) hopen hw).trans (if_neg (Bool.eq_false_iff.mp hk))) (Quiet.refl u)
  · exact hwake (exec_ack t n w s) ((State.laneRx_ack (s := u) hopen hw).trans ((if_pos hk).trans (if_neg hst))) (hset _)
  · exact hwake (exec_ack t n w s) ((State.laneRx_ack (s := u) hopen hw).trans ((if_pos hk).trans ((if_pos hst).trans
      (State.laneRegister_none (s := u.setLane n { x with ackAt := now, lastAck := some now, st := .registering }) hi hu)))) (hset _)
  · exact hlost (exec_registrationTimeout t n s) (if_pos ⟨hreg, hdue⟩)
  · refine hwake (exec_registrationTimeout t n s) (if_neg fun ⟨h1, h2⟩ => ?_) (Quiet.refl u)
    rcases hnot with h | h
    · exact h h1
    · exact absurd h (not_lt.mpr h2)
  · exact next_of hpow (exec_credit t n s) (if_neg fun h => hnot h.1) (Quiet.refl u)
  · exact next_of hpow (exec_credit t n s) (if_pos ⟨hup, hdue⟩) ((hset _).trans (State.emit_side _ _).quiet)
  · exact hwake (exec_laneRetry t n s) (State.laneRetry_not (s := u) hnot) (Quiet.refl u)
  · have htrained := u.laneTrain_trained n
    have hyes := State.laneRetry_yes (s := u) hst hr hdue
    rw [← hyes] at htrained
    refine answers_of_woken hpow (exec_laneRetry t n s) fun m l => ?_
    generalize (s.advance t).laneRetry n = z at htrained ⊢
    change (z.lane n).st = _ ∧ (z.lane n).buf = _ ∧ (z.lane n).good = 0
    rw [htrained]
    exact ⟨rfl, rfl, rfl⟩

end Sys2Proof.Machine
end

section
/-! The words of an event lane (R156 to R162, R165, R166). -/

namespace Sys2Proof.Machine

variable {s x y z : State} {n k off b : Nat} {w : Word64}

/-! ### Credit -/

theorem cdiff_self (a : Nat) : cdiff a a = 0 := by
  unfold cdiff
  rw [sub_self]
  rfl

/-- Credit computed anew changes L alone, and never downward. -/
theorem Lane.credit_spec (c : Lane) : ∃ l, c.credit = { c with l := l } ∧ 0 ≤ cdiff l c.l := by
  have hself : 0 ≤ cdiff c.l c.l := by rw [cdiff_self]
  unfold Lane.credit
  split
  · dsimp only
    split
    next h => exact ⟨_, rfl, h⟩
    · exact ⟨c.l, rfl, hself⟩
  · exact ⟨c.l, rfl, hself⟩

/-- A lane on which a credit-consuming word has come. -/
def Lane.spent (c : Lane) : Lane := { c with r := (c.r + 1) % 2 ^ 32 }

/-- What every consuming word leaves of a lane. -/
def State.Spent (s : State) (n : Nat) (z : State) : Prop :=
  (z.lane n).r = ((s.lane n).r + 1) % 2 ^ 32 ∧ (z.lane n).st = (s.lane n).st ∧ 0 ≤ cdiff (z.lane n).l (s.lane n).l

theorem State.Spent.of_lane {c : Lane} (h : z.lane n = c.credit) (hr : c.r = ((s.lane n).r + 1) % 2 ^ 32) (hst : c.st = (s.lane n).st)
    (hl : c.l = (s.lane n).l) : s.Spent n z ∧ (z.lane n).buf = c.buf := by
  obtain ⟨l, hc, hdiff⟩ := c.credit_spec
  rw [State.Spent, h, hc]
  exact ⟨⟨hr, hst, hl ▸ hdiff⟩, rfl⟩

/-! ### Counters and events of a lane's page -/

/-- A counter of a lane's page, an event, and the reports that follow. -/
def State.laneTold (s : State) (n off b k : Nat) : State := ((s.bump64 (sLane n) off 1).evt (sLane n) b).laneReport n 2 k

theorem State.laneTold_spec (s : State) (n : Nat) (k : Nat) (hoff : 0x00C ≤ off) (hb : b < 32) :
    (s.laneTold n off b k).lane n = s.lane n ∧
      (s.laneTold n off b k).reg64 (sLane n) off = min (s.reg64 (sLane n) off + 1) (2 ^ 64 - 1) ∧
      bit ((s.laneTold n off b k).reg (ra (sLane n) 0x008)) b = true := by
  unfold State.laneTold
  have hregs := State.laneReport_regs ((s.bump64 (sLane n) off 1).evt (sLane n) b) n 2 k
  refine ⟨?_, ?_, ?_⟩
  · rw [(State.laneReport_tileSide _ _ _ _).lane, ((State.bump64_side _ _ _ _).trans (State.evt_side _ _ _)).tileSide.lane]
  · rw [State.reg64_congr hregs, State.evt_reg64_above _ _ _ hoff, State.reg64_bump64]
  · rw [State.reg, hregs, ← State.reg]
    exact State.evt_bit _ hb

/-! ### A word's credit -/

theorem State.laneConsume_room (h : 0 ≤ cdiff (s.lane n).l ((s.lane n).r + 1)) : s.laneConsume n = (true, s.setLane n (s.lane n).spent) := by
  unfold State.laneConsume
  dsimp only
  rw [if_pos (decide_eq_true h)]
  rfl

theorem State.laneConsume_full (h : ¬ 0 ≤ cdiff (s.lane n).l ((s.lane n).r + 1)) :
    s.laneConsume n = (false, ((s.setLane n (s.lane n).spent).laneCredited n).laneTold n 0x058 4 1) := by
  unfold State.laneConsume
  dsimp only
  rw [if_neg (fun e => h (of_decide_eq_true e))]
  rfl

/-- A lane credited after a word that takes no buffer space. -/
theorem State.spent_credited (s : State) (n : Nat) : ((s.setLane n (s.lane n).spent).laneCredited n).lane n = (s.lane n).spent.credit ∧
    ((s.setLane n (s.lane n).spent).laneCredited n).regs = s.regs := by
  unfold State.laneCredited
  rw [State.setLane_same, State.setLane_same]
  exact ⟨rfl, rfl⟩

/-- A word that is dropped with its credit spent: counted, with an event. -/
theorem State.dropped_spec (s : State) (n : Nat) (k : Nat) (hoff : 0x00C ≤ off) (hb : b < 32) :
    let z := ((s.setLane n (s.lane n).spent).laneCredited n).laneTold n off b k
    s.Spent n z ∧ z.reg64 (sLane n) off = min (s.reg64 (sLane n) off + 1) (2 ^ 64 - 1) ∧ bit (z.reg (ra (sLane n) 0x008)) b = true ∧
      (z.lane n).buf = (s.lane n).buf := by
  intro z
  obtain ⟨hlane, hregs⟩ := s.spent_credited n
  obtain ⟨hl, hcount, hbit⟩ := State.laneTold_spec ((s.setLane n (s.lane n).spent).laneCredited n) n k hoff hb
  obtain ⟨hspent, hbuf⟩ := State.Spent.of_lane (s := s) (z := z) (hl.trans hlane) rfl rfl rfl
  exact ⟨hspent, hcount.trans (by rw [State.reg64_congr hregs]), hbit, hbuf⟩

/-! ### Words by their type -/

theorem State.laneRx_hit (h : laneOpen (s.lane n).st = true) (hw : nfld w.toNat 62 2 = 1) : s.laneRx n w = s.laneHit n w := by
  unfold State.laneRx
  dsimp only
  rw [if_pos h, hw]
  rfl

theorem State.laneRx_mark (h : laneOpen (s.lane n).st = true) (hw : nfld w.toNat 62 2 = 2) : s.laneRx n w = s.laneMark n w := by
  unfold State.laneRx
  dsimp only
  rw [if_pos h, hw]
  rfl

theorem State.laneRx_health (h : laneOpen (s.lane n).st = true) (hw : nfld w.toNat 62 2 = 3) (hk : nfld w.toNat 58 4 = 0) :
    s.laneRx n w = s.laneHealth n w := by
  unfold State.laneRx
  dsimp only
  rw [if_pos h, hw, hk]
  rfl

theorem State.laneRx_ident (h : laneOpen (s.lane n).st = true) (hw : nfld w.toNat 62 2 = 3) (hk : nfld w.toNat 58 4 = 1) :
    s.laneRx n w = s.laneIdent n w := by
  unfold State.laneRx
  dsimp only
  rw [if_pos h, hw, hk]
  rfl

theorem State.laneRx_unit (h : laneOpen (s.lane n).st = true) (hw : nfld w.toNat 62 2 = 3) (hk : nfld w.toNat 58 4 = 2) :
    s.laneRx n w = s.laneUnit n w := by
  unfold State.laneRx
  dsimp only
  rw [if_pos h, hw, hk]
  rfl

theorem State.laneRx_shut (h : laneOpen (s.lane n).st = false) (w : Word64) : s.laneRx n w = s := if_neg (Bool.eq_false_iff.mp h)

/-! ### HIT and MARK -/

theorem State.laneHit_full (h : ¬ 0 ≤ cdiff (s.lane n).l ((s.lane n).r + 1)) (w : Word64) :
    s.laneHit n w = ((s.setLane n (s.lane n).spent).laneCredited n).laneTold n 0x058 4 1 := by
  unfold State.laneHit
  rw [State.laneConsume_full h]
  rfl

theorem State.laneHit_foreign (h : 0 ≤ cdiff (s.lane n).l ((s.lane n).r + 1)) (hw : s.rfld (sLane n) 0x01C 0 6 < nfld w.toNat 56 6) :
    s.laneHit n w = ((s.setLane n (s.lane n).spent).laneCredited n).laneTold n 0x060 5 1 := by
  unfold State.laneHit
  rw [State.laneConsume_room h]
  exact if_pos hw

/-- A lane with a word in its ingress buffer. -/
def Lane.buffered (c : Lane) (now : Nat) (w : Word64) : Lane := { c with buf := c.buf ++ [⟨w, now⟩] }

theorem State.laneHit_taken (h : 0 ≤ cdiff (s.lane n).l ((s.lane n).r + 1)) (hw : nfld w.toNat 56 6 ≤ s.rfld (sLane n) 0x01C 0 6) :
    s.laneHit n w = (((s.setLane n (s.lane n).spent).laneBuffer n w).bump64 (sLane n) 0x040 1).laneReport n 0 1 := by
  unfold State.laneHit
  rw [State.laneConsume_room h]
  exact if_neg (not_lt.mpr hw)

theorem State.laneBuffer_lane (s : State) (n : Nat) (w : Word64) : (s.laneBuffer n w).lane n = ((s.lane n).buffered s.now w).credit ∧
    (s.laneBuffer n w).regs = s.regs := ⟨State.setLane_same _ _ _, rfl⟩

/-- A HIT that enters the ingress buffer. -/
theorem State.hitBuffered_spec (s : State) (n : Nat) (w : Word64) :
    let z := (((s.setLane n (s.lane n).spent).laneBuffer n w).bump64 (sLane n) 0x040 1).laneReport n 0 1
    s.Spent n z ∧ (z.lane n).buf = (s.lane n).buf ++ [⟨w, s.now⟩] ∧ z.reg64 (sLane n) 0x040 = min (s.reg64 (sLane n) 0x040 + 1) (2 ^ 64 - 1) := by
  intro z
  obtain ⟨hlane, hregs⟩ := (s.setLane n (s.lane n).spent).laneBuffer_lane n w
  have hz : z.lane n = ((s.lane n).spent.buffered s.now w).credit := by
    refine ((State.laneReport_tileSide _ n 0 1).lane n).trans (((State.bump64_side _ _ _ _).tileSide.lane n).trans (hlane.trans ?_))
    rw [State.setLane_same]
    rfl
  obtain ⟨hspent, hbuf⟩ := State.Spent.of_lane (s := s) (z := z) hz rfl rfl rfl
  refine ⟨hspent, hbuf, ?_⟩
  rw [State.reg64_congr (State.laneReport_regs _ n 0 1), State.reg64_bump64, State.reg64_congr hregs]
  rfl

/-- A PERIODIC MARK that enters the ingress buffer. -/
theorem State.markBuffered_spec (s : State) (n : Nat) (w : Word64) :
    let z := (((s.setLane n (s.lane n).spent).bump64 (sLane n) 0x048 1).laneBuffer n w).laneReport n 0 1
    s.Spent n z ∧ (z.lane n).buf = (s.lane n).buf ++ [⟨w, s.now⟩] ∧ z.reg64 (sLane n) 0x048 = min (s.reg64 (sLane n) 0x048 + 1) (2 ^ 64 - 1) := by
  intro z
  obtain ⟨hlane, hregs⟩ := ((s.setLane n (s.lane n).spent).bump64 (sLane n) 0x048 1).laneBuffer_lane n w
  have hside := State.bump64_side (s.setLane n (s.lane n).spent) (sLane n) 0x048 1
  have hz : z.lane n = ((s.lane n).spent.buffered s.now w).credit := by
    refine ((State.laneReport_tileSide _ n 0 1).lane n).trans (hlane.trans ?_)
    rw [hside.tileSide.lane, State.setLane_same]
    rfl
  obtain ⟨hspent, hbuf⟩ := State.Spent.of_lane (s := s) (z := z) hz rfl rfl rfl
  refine ⟨hspent, hbuf, ?_⟩
  rw [State.reg64_congr (State.laneReport_regs _ n 0 1), State.reg64_congr hregs, State.reg64_bump64]
  rfl

theorem State.laneMark_full (h : ¬ 0 ≤ cdiff (s.lane n).l ((s.lane n).r + 1)) (w : Word64) :
    s.laneMark n w = ((s.setLane n (s.lane n).spent).laneCredited n).laneTold n 0x058 4 1 := by
  unfold State.laneMark
  rw [State.laneConsume_full h]
  rfl

theorem State.laneMark_room (h : 0 ≤ cdiff (s.lane n).l ((s.lane n).r + 1)) (w : Word64) : s.laneMark n w =
    let s2 := (s.setLane n (s.lane n).spent).bump64 (sLane n) 0x048 1
    if 3 ≤ nfld w.toNat 58 4 then ((s.setLane n (s.lane n).spent).laneCredited n).laneProto n
    else if nfld w.toNat 58 4 = 0 then (s2.laneBuffer n w).laneReport n 0 1
    else if (s2.tileLink n).isSome then ((s2.laneCredited n).ttlMark n (decide (nfld w.toNat 58 4 = 2)) (nfld w.toNat 0 56)).laneReport n 0 1
    else s2.laneCredited n := by
  unfold State.laneMark
  rw [State.laneConsume_room h]
  rfl

theorem State.laneMark_reserved (h : 0 ≤ cdiff (s.lane n).l ((s.lane n).r + 1)) (hw : 3 ≤ nfld w.toNat 58 4) :
    s.laneMark n w = ((s.setLane n (s.lane n).spent).laneCredited n).laneTold n 0x060 5 1 := (State.laneMark_room h w).trans (if_pos hw)

theorem State.laneMark_periodic (h : 0 ≤ cdiff (s.lane n).l ((s.lane n).r + 1)) (hw : nfld w.toNat 58 4 = 0) :
    s.laneMark n w = (((s.setLane n (s.lane n).spent).bump64 (sLane n) 0x048 1).laneBuffer n w).laneReport n 0 1 := by
  refine (State.laneMark_room h w).trans ((if_neg ?_).trans (if_pos hw))
  rw [hw]
  decide

theorem State.tileLink_congr (h : ∀ k, k < 33 → x.reg (ra (sTtl k) 0x014) = s.reg (ra (sTtl k) 0x014)) (n : Nat) : x.tileLink n = s.tileLink n := by
  unfold State.tileLink
  refine List.find?_congr fun k hk => ?_
  have hr := h k (List.mem_range.mp hk)
  rw [State.rfld, State.rfld, hr, State.rfld, State.rfld]

/-- The counter of marks leaves the links' pages alone. -/
theorem State.tileLink_counted (s : State) (n : Nat) : (s.bump64 (sLane n) 0x048 1).tileLink n = s.tileLink n := by
  refine State.tileLink_congr (fun k hk => ?_) n
  refine State.bump64_reg ?_ ?_
  · unfold ra
    omega
  · unfold ra
    omega

theorem State.laneMark_link {j : Nat} (h : 0 ≤ cdiff (s.lane n).l ((s.lane n).r + 1)) (hlink : s.tileLink n = some j)
    (hw : nfld w.toNat 58 4 = 1 ∨ nfld w.toNat 58 4 = 2) : ∃ m, s.laneMark n w =
      { (((s.setLane n (s.lane n).spent).bump64 (sLane n) 0x048 1).laneCredited n).setTtl j
        (if decide (nfld w.toNat 58 4 = 2) then { s.ttl j with repTx := some (nfld w.toNat 0 56) } else { s.ttl j with repRx := some (nfld w.toNat 0 56) })
          with tab := m } := by
  have hlink' : ((s.setLane n (s.lane n).spent).bump64 (sLane n) 0x048 1).tileLink n = some j :=
    (State.tileLink_counted (s.setLane n (s.lane n).spent) n).trans hlink
  have hcred : (((s.setLane n (s.lane n).spent).bump64 (sLane n) 0x048 1).laneCredited n).tileLink n = some j := hlink'
  have hmark : s.laneMark n w = ((((s.setLane n (s.lane n).spent).bump64 (sLane n) 0x048 1).laneCredited n).ttlMark n
      (decide (nfld w.toNat 58 4 = 2)) (nfld w.toNat 0 56)).laneReport n 0 1 := by
    refine (State.laneMark_room h w).trans ((if_neg ?_).trans ((if_neg ?_).trans (if_pos ?_)))
    · omega
    · omega
    · rw [hlink']
      rfl
  have httl : (((s.setLane n (s.lane n).spent).bump64 (sLane n) 0x048 1).laneCredited n).ttl j = s.ttl j := rfl
  unfold State.ttlMark at hmark
  rw [hcred] at hmark
  dsimp only at hmark
  rw [httl] at hmark
  obtain ⟨m, hm⟩ := State.laneReport_eq (State.setTtl (((s.setLane n (s.lane n).spent).bump64 (sLane n) 0x048 1).laneCredited n) j
    (if decide (nfld w.toNat 58 4 = 2) = true then { s.ttl j with repTx := some (nfld w.toNat 0 56) } else { s.ttl j with repRx := some (nfld w.toNat 0 56) })) n 0 1
  exact ⟨m, hmark.trans hm⟩

/-- A RX_TS or TX_TS mark of a tile that a link serves. -/
theorem State.laneMark_told {j : Nat} (h : 0 ≤ cdiff (s.lane n).l ((s.lane n).r + 1)) (hlink : s.tileLink n = some j)
    (hw : nfld w.toNat 58 4 = 1 ∨ nfld w.toNat 58 4 = 2) : s.Spent n (s.laneMark n w) ∧ (s.laneMark n w).ttl j =
      if decide (nfld w.toNat 58 4 = 2) then { s.ttl j with repTx := some (nfld w.toNat 0 56) } else { s.ttl j with repRx := some (nfld w.toNat 0 56) } := by
  obtain ⟨m, hm⟩ := State.laneMark_link h hlink hw
  have hside := State.bump64_side (s.setLane n (s.lane n).spent) (sLane n) 0x048 1
  have hlane : (((s.setLane n (s.lane n).spent).bump64 (sLane n) 0x048 1).laneCredited n).lane n = (s.lane n).spent.credit := by
    unfold State.laneCredited
    rw [State.setLane_same, hside.tileSide.lane, State.setLane_same]
  generalize ((s.setLane n (s.lane n).spent).bump64 (sLane n) 0x048 1).laneCredited n = y at hm hlane
  rw [hm]
  exact ⟨(State.Spent.of_lane (s := s) (z := { y.setTtl j _ with tab := m }) hlane rfl rfl rfl).1, State.setTtl_same _ _ _⟩

/-! ### HEALTH -/

/-- A lane whose count of received words follows the tile's. -/
def Lane.resynced (c : Lane) (r : Nat) : Lane := { c with r := r }

/-- What a HEALTH word shows: the tile's health and its count of drops. -/
def State.healthShown (s : State) (n : Nat) (w : Word64) : State :=
  let s3 := (s.setRfld (sLane n) 0x038 16 8 (nfld w.toNat 48 8)).bump64 (sLane n) 0x078 (nfld w.toNat 32 16)
  (if nfld w.toNat 32 16 = 0 then s3 else s3.evt (sLane n) 7).laneReport n 0 1

theorem State.laneHealth_room (h : 0 ≤ cdiff (s.lane n).l ((s.lane n).r + 1)) (w : Word64) : s.laneHealth n w =
    State.healthShown (if 0 ≤ cdiff (nfld w.toNat 0 32) (((s.lane n).r + 1) % 2 ^ 32) then
        (s.setLane n (s.lane n).spent).setLane n ((s.lane n).spent.resynced (nfld w.toNat 0 32)).credit
      else ((s.setLane n (s.lane n).spent).laneCredited n).evt (sLane n) 6) n w := by
  unfold State.laneHealth
  rw [State.laneConsume_room h]
  have hsame := s.setLane_same n (s.lane n).spent
  dsimp only
  rw [hsame]
  rfl

theorem State.healthShown_spec (s : State) (n : Nat) (w : Word64) : (s.healthShown n w).lane n = s.lane n ∧
    (s.healthShown n w).rfld (sLane n) 0x038 16 8 = nfld w.toNat 48 8 ∧
    (s.healthShown n w).reg64 (sLane n) 0x078 = min (s.reg64 (sLane n) 0x078 + nfld w.toNat 32 16) (2 ^ 64 - 1) ∧
    (∀ e, bit (s.reg (ra (sLane n) 0x008)) e = true → bit ((s.healthShown n w).reg (ra (sLane n) 0x008)) e = true) ∧
    (nfld w.toNat 32 16 ≠ 0 → bit ((s.healthShown n w).reg (ra (sLane n) 0x008)) 7 = true) := by
  have hside : Side s ((s.setRfld (sLane n) 0x038 16 8 (nfld w.toNat 48 8)).bump64 (sLane n) 0x078 (nfld w.toNat 32 16)) :=
    (State.setRfld_side _ _ _ _ _ _).trans (State.bump64_side _ _ _ _)
  have hhealth : ((s.setRfld (sLane n) 0x038 16 8 (nfld w.toNat 48 8)).bump64 (sLane n) 0x078 (nfld w.toNat 32 16)).rfld (sLane n) 0x038 16 8 =
      nfld w.toNat 48 8 := by
    rw [State.rfld, State.bump64_reg (ra_off_ne (by decide) _) (ra_off_ne (by decide) _), State.setRfld, State.setReg_reg_same,
      fld_setFld _ _ _ _ (by decide)]
    exact Nat.mod_mod _ _
  have hdrops : ((s.setRfld (sLane n) 0x038 16 8 (nfld w.toNat 48 8)).bump64 (sLane n) 0x078 (nfld w.toNat 32 16)).reg64 (sLane n) 0x078 =
      min (s.reg64 (sLane n) 0x078 + nfld w.toNat 32 16) (2 ^ 64 - 1) := by
    rw [State.reg64_bump64, State.setRfld, State.setReg_reg64 _ _ _ (by decide) (by decide)]
  have hbits (e : Nat) (he : bit (s.reg (ra (sLane n) 0x008)) e = true) :
      bit (((s.setRfld (sLane n) 0x038 16 8 (nfld w.toNat 48 8)).bump64 (sLane n) 0x078 (nfld w.toNat 32 16)).reg (ra (sLane n) 0x008)) e = true := by
    rw [State.bump64_reg (ra_off_ne (by decide) _) (ra_off_ne (by decide) _), State.setRfld, State.setReg_reg_ne _ _ (ra_off_ne (by decide) _)]
    exact he
  unfold State.healthShown
  dsimp only
  generalize (s.setRfld (sLane n) 0x038 16 8 (nfld w.toNat 48 8)).bump64 (sLane n) 0x078 (nfld w.toNat 32 16) = v at *
  have htold : ∃ v', v' = (if nfld w.toNat 32 16 = 0 then v else v.evt (sLane n) 7) ∧ v'.lane n = s.lane n ∧ v'.rfld (sLane n) 0x038 16 8 = nfld w.toNat 48 8 ∧
      v'.reg64 (sLane n) 0x078 = min (s.reg64 (sLane n) 0x078 + nfld w.toNat 32 16) (2 ^ 64 - 1) ∧
      (∀ e, bit (s.reg (ra (sLane n) 0x008)) e = true → bit (v'.reg (ra (sLane n) 0x008)) e = true) ∧
      (nfld w.toNat 32 16 ≠ 0 → bit (v'.reg (ra (sLane n) 0x008)) 7 = true) := by
    refine ⟨_, rfl, ?_⟩
    split
    next h => exact ⟨hside.tileSide.lane n, hhealth, hdrops, hbits, fun h' => absurd h h'⟩
    next h =>
      refine ⟨(hside.trans (v.evt_side _ _)).tileSide.lane n, ?_, ?_, fun e he => State.evt_bit_keep _ _ _ (hbits e he), fun _ => State.evt_bit _ (by decide)⟩
      · rw [State.rfld, State.evt_reg_above _ _ _ (by decide)]
        exact hhealth
      · rw [State.evt_reg64_above _ _ _ (by decide), hdrops]
  obtain ⟨v', hv', hlane, hh, hd, hb, h7⟩ := htold
  rw [← hv']
  have hregs := v'.laneReport_regs n 0 1
  have hr (a : Nat) : (v'.laneReport n 0 1).reg a = v'.reg a := by rw [State.reg, hregs, State.reg]
  rw [(v'.laneReport_tileSide n 0 1).lane, State.rfld, State.reg64_congr hregs, hr, hr]
  exact ⟨hlane, hh, hd, hb, h7⟩

/-- A HEALTH word on a lane with room: R follows the tile's count upward only. -/
theorem State.laneHealth_spec (h : 0 ≤ cdiff (s.lane n).l ((s.lane n).r + 1)) (w : Word64) :
    let z := s.laneHealth n w
    let r := ((s.lane n).r + 1) % 2 ^ 32
    (z.lane n).st = (s.lane n).st ∧ (z.lane n).buf = (s.lane n).buf ∧
    (0 ≤ cdiff (nfld w.toNat 0 32) r → (z.lane n).r = nfld w.toNat 0 32) ∧
    (cdiff (nfld w.toNat 0 32) r < 0 → (z.lane n).r = r ∧ bit (z.reg (ra (sLane n) 0x008)) 6 = true) ∧
    z.rfld (sLane n) 0x038 16 8 = nfld w.toNat 48 8 ∧ z.reg64 (sLane n) 0x078 = min (s.reg64 (sLane n) 0x078 + nfld w.toNat 32 16) (2 ^ 64 - 1) ∧
    (nfld w.toNat 32 16 ≠ 0 → bit (z.reg (ra (sLane n) 0x008)) 7 = true) := by
  rw [State.laneHealth_room h w]
  by_cases hup : 0 ≤ cdiff (nfld w.toNat 0 32) (((s.lane n).r + 1) % 2 ^ 32)
  · rw [if_pos hup]
    obtain ⟨l, hl, -⟩ := ((s.lane n).spent.resynced (nfld w.toNat 0 32)).credit_spec
    obtain ⟨hlane, hhealth, hdrops, -, h7⟩ :=
      State.healthShown_spec ((s.setLane n (s.lane n).spent).setLane n ((s.lane n).spent.resynced (nfld w.toNat 0 32)).credit) n w
    rw [State.setLane_same] at hlane
    dsimp only
    generalize State.healthShown _ n w = z at *
    rw [hlane.trans hl]
    exact ⟨rfl, rfl, fun _ => rfl, fun hlt => absurd hup (not_le.mpr hlt), hhealth, hdrops, h7⟩
  · rw [if_neg hup]
    obtain ⟨hlane, hhealth, hdrops, hbits, h7⟩ := State.healthShown_spec (((s.setLane n (s.lane n).spent).laneCredited n).evt (sLane n) 6) n w
    obtain ⟨hcred, hregs⟩ := s.spent_credited n
    obtain ⟨l, hl, -⟩ := (s.lane n).spent.credit_spec
    have h6 := hbits 6 (State.evt_bit _ (by decide))
    rw [(State.evt_side _ _ _).tileSide.lane, hcred] at hlane
    rw [State.evt_reg64_above _ _ _ (by decide), State.reg64_congr hregs] at hdrops
    dsimp only
    generalize State.healthShown _ n w = z at *
    rw [hlane.trans hl]
    exact ⟨rfl, rfl, fun hle => absurd hle hup, fun _ => ⟨rfl, h6⟩, hhealth, hdrops, h7⟩

/-! ### IDENT and UNIT -/

/-- Registers of a lane's page above its events stand. -/
def State.PageKept (s : State) (n : Nat) (z : State) : Prop := ∀ i, 0x00C ≤ i → i < 0x400 → z.reg (ra (sLane n) i) = s.reg (ra (sLane n) i)

theorem State.PageKept.refl (s : State) (n : Nat) : s.PageKept n s := fun _ _ _ => rfl

/-- A lane's state changed with an event and its tile judged again. -/
def State.laneTurned (s : State) (n : Nat) (c : Lane) (b : Nat) : State := ((s.setLane n c).evt (sLane n) b).tileJudge n

theorem State.laneTurned_spec (s : State) (hn : n < 64) (c : Lane) (hb : b < 32) : s.PageKept n (s.laneTurned n c b) ∧
    (s.laneTurned n c b).lane n = c ∧ bit ((s.laneTurned n c b).reg (ra (sLane n) 0x008)) b = true := by
  have hjudge (i : Nat) (hi : i < 0x400) : (s.laneTurned n c b).reg (ra (sLane n) i) = ((s.setLane n c).evt (sLane n) b).reg (ra (sLane n) i) :=
    State.tileJudge_reg (sLane_page hn hi).2
  refine ⟨fun i hlo hi => ?_, ?_, ?_⟩
  · rw [hjudge i hi, State.evt_reg_above _ _ _ hlo]
    rfl
  · rw [State.laneTurned, (State.tileJudge_tileSide _ n).lane, (State.evt_side _ _ _).tileSide.lane, State.setLane_same]
  · rw [hjudge _ (by decide)]
    exact State.evt_bit _ hb

/-- A lane that enters UP. -/
theorem State.laneUp_spec (s : State) (hn : n < 64) : s.PageKept n (s.laneUp n) ∧ ((s.laneUp n).lane n).st = .up ∧
    bit ((s.laneUp n).reg (ra (sLane n) 0x008)) 0 = true := by
  obtain ⟨l, hl, -⟩ := ({ s.lane n with st := .up, creditL := (s.lane n).l, creditAt := s.now } : Lane).credit_spec
  obtain ⟨hpage, hlane, hbit⟩ := s.laneTurned_spec hn ({ s.lane n with st := .up, creditL := (s.lane n).l, creditAt := s.now } : Lane).credit (b := 0) (by decide)
  refine ⟨hpage, ?_, hbit⟩
  exact (congrArg Lane.st hlane).trans (congrArg Lane.st hl)

/-- A lane that enters MISMATCH. -/
theorem State.laneMismatch_spec (s : State) (hn : n < 64) : s.PageKept n (s.laneMismatch n) ∧ ((s.laneMismatch n).lane n).st = .mismatch ∧
    bit ((s.laneMismatch n).reg (ra (sLane n) 0x008)) 2 = true := by
  have hreg (i : Nat) (hi : i < 0x400) : (s.laneMismatch n).reg (ra (sLane n) i) =
      ((s.setLane n { s.lane n with st := .mismatch, lastFail := 5, nextId := false, nextUnit := false }).evt (sLane n) 2).reg (ra (sLane n) i) :=
    (State.tileJudge_reg (sLane_page hn hi).2).trans (State.bbrPush_reg_page _ _ _ (sLane_page hn hi).1)
  refine ⟨fun i hlo hi => ?_, ?_, ?_⟩
  · rw [hreg i hi, State.evt_reg_above _ _ _ hlo]
    rfl
  · have hside (y : State) : Side y ((y.evt (sLane n) 2).bbrFault (sLane n) n 5) := (State.evt_side _ _ _).trans (State.bbrPush_side _ _ _ _)
    rw [State.laneMismatch, (State.tileJudge_tileSide _ n).lane, (hside _).tileSide.lane, State.setLane_same]
  · rw [hreg _ (by decide)]
    exact State.evt_bit _ (by decide)

/-- A lane in MISMATCH on which a word has been compared. -/
def Lane.compared (c : Lane) (id ok : Bool) : Lane := { c with nextId := if id then ok else c.nextId, nextUnit := if id then c.nextUnit else ok }

/-- Whether the word that has come matches the registration. -/
def State.wordFits (s : State) (n : Nat) (id : Bool) : Bool := if id then s.identMatch n else s.unitMatch n

theorem State.laneCompare_eq (s : State) (n : Nat) (id : Bool) : s.laneCompare n id = match (s.lane n).st with
    | .registering => s.laneRegister n
    | .up => if s.wordFits n id then s else s.laneMismatch n
    | .mismatch =>
      if ((s.lane n).compared id (s.wordFits n id)).nextId && ((s.lane n).compared id (s.wordFits n id)).nextUnit then
        (s.setLane n ((s.lane n).compared id (s.wordFits n id))).laneUp n
      else s.setLane n ((s.lane n).compared id (s.wordFits n id))
    | .off | .training | .aligned | .lost => s := rfl

theorem State.laneRegister_kept (s : State) (hn : n < 64) : s.PageKept n (s.laneRegister n) := by
  unfold State.laneRegister
  dsimp only
  split
  · exact (s.laneMismatch_spec hn).1
  · split
    · exact (s.laneUp_spec hn).1
    · exact State.PageKept.refl s n

theorem State.laneCompare_kept (s : State) (hn : n < 64) (id : Bool) : s.PageKept n (s.laneCompare n id) := by
  rw [State.laneCompare_eq]
  split
  · exact s.laneRegister_kept hn
  · split
    · exact State.PageKept.refl s n
    · exact (s.laneMismatch_spec hn).1
  · split
    · exact (State.laneUp_spec (s.setLane n ((s.lane n).compared id (s.wordFits n id))) hn).1
    · exact fun _ _ _ => rfl
  · exact State.PageKept.refl s n
  · exact State.PageKept.refl s n
  · exact State.PageKept.refl s n
  · exact State.PageKept.refl s n

/-- The lane after a word of its registration has been compared (R165, R166). -/
theorem State.laneCompare_spec (s : State) (hn : n < 64) (id : Bool) :
    let z := s.laneCompare n id
    let c := s.lane n
    let ok := s.wordFits n id
    (c.st = .aligned → z.lane n = c) ∧
    (c.st = .registering → s.wordFits n id = true → (if id then s.identSeen n else s.unitSeen n) = true →
      ((if id then s.unitSeen n else s.identSeen n) = false → z.lane n = c) ∧
      ((if id then s.unitSeen n else s.identSeen n) = true → s.wordFits n (!id) = true →
        (z.lane n).st = .up ∧ bit (z.reg (ra (sLane n) 0x008)) 0 = true)) ∧
    (c.st = .up → ok = true → z.lane n = c) ∧
    (c.st = .mismatch → (if id then c.nextUnit else c.nextId) = true → ok = true → (z.lane n).st = .up ∧ bit (z.reg (ra (sLane n) 0x008)) 0 = true) ∧
    (c.st = .mismatch → ok = false → z.lane n = c.compared id false) ∧
    (c.st = .registering ∨ c.st = .up → ok = false → (if id then s.identSeen n else s.unitSeen n) = true →
      (z.lane n).st = .mismatch ∧ bit (z.reg (ra (sLane n) 0x008)) 2 = true) := by
  intro z c ok
  have hz := s.laneCompare_eq n id
  have hreg (hst : c.st = .registering) : z = s.laneRegister n := by rw [show s.laneCompare n id = z from rfl, show (s.lane n).st = _ from hst] at hz; exact hz
  have hup (hst : c.st = .up) : z = if ok then s else s.laneMismatch n := by
    rw [show s.laneCompare n id = z from rfl, show (s.lane n).st = _ from hst] at hz; exact hz
  have hmis (hst : c.st = .mismatch) : z = if (c.compared id ok).nextId && (c.compared id ok).nextUnit then (s.setLane n (c.compared id ok)).laneUp n
      else s.setLane n (c.compared id ok) := by
    rw [show s.laneCompare n id = z from rfl, show (s.lane n).st = _ from hst] at hz; exact hz
  have hone (hst : c.st = .registering) (hok : ok = true) (hseen : (if id then s.identSeen n else s.unitSeen n) = true)
      (hother : (if id then s.unitSeen n else s.identSeen n) = false) : z = s := by
    rw [hreg hst, State.laneRegister]
    cases id with
    | true => simp [show s.identSeen n = true from hseen, show s.unitSeen n = false from hother, show s.identMatch n = true from hok]
    | false => simp [show s.unitSeen n = true from hseen, show s.identSeen n = false from hother, show s.unitMatch n = true from hok]
  have hboth (hst : c.st = .registering) (hok : ok = true) (hseen : (if id then s.identSeen n else s.unitSeen n) = true)
      (hother : (if id then s.unitSeen n else s.identSeen n) = true) (hfits : s.wordFits n (!id) = true) : z = s.laneUp n := by
    rw [hreg hst, State.laneRegister]
    cases id with
    | true => simp [show s.identSeen n = true from hseen, show s.unitSeen n = true from hother, show s.identMatch n = true from hok, show s.unitMatch n = true from hfits]
    | false => simp [show s.unitSeen n = true from hseen, show s.identSeen n = true from hother, show s.unitMatch n = true from hok, show s.identMatch n = true from hfits]
  have hwrong (hst : c.st = .registering ∨ c.st = .up) (hok : ok = false) (hseen : (if id then s.identSeen n else s.unitSeen n) = true) : z = s.laneMismatch n := by
    rcases hst with hst | hst
    · rw [hreg hst, State.laneRegister]
      cases id with
      | true => simp [show s.identSeen n = true from hseen, show s.identMatch n = false from hok]
      | false => simp [show s.unitSeen n = true from hseen, show s.unitMatch n = false from hok]
    · exact (hup hst).trans (if_neg (Bool.eq_false_iff.mp hok))
  refine ⟨fun hst => ?_, fun hst hok hseen => ⟨fun hother => ?_, fun hother hfits => ?_⟩, fun hst hok => ?_, fun hst hnext hok => ?_, fun hst hok => ?_, fun hst hok hseen => ?_⟩
  · rw [show (s.lane n).st = _ from hst] at hz
    exact congrArg (State.lane · n) hz
  · rw [hone hst hok hseen hother]
  · rw [hboth hst hok hseen hother hfits]
    exact (s.laneUp_spec hn).2
  · rw [(hup hst).trans (if_pos hok)]
  · have hpair : ((c.compared id ok).nextId && (c.compared id ok).nextUnit) = true := by
      cases id with
      | true => simp [Lane.compared, hok, show c.nextUnit = true from hnext]
      | false => simp [Lane.compared, hok, show c.nextId = true from hnext]
    rw [(hmis hst).trans (if_pos hpair)]
    exact (State.laneUp_spec _ hn).2
  · have hpair : ¬ ((c.compared id ok).nextId && (c.compared id ok).nextUnit) = true := by
      cases id with
      | true => simp [Lane.compared, hok]
      | false => simp [Lane.compared, hok]
    rw [(hmis hst).trans (if_neg hpair), hok]
    exact State.setLane_same _ _ _
  · rw [hwrong hst hok hseen]
    exact (s.laneMismatch_spec hn).2

/-! ### The registration's words stored -/

/-- A field beside the one that was set. -/
theorem fld_setFld_beside {lo wd lo' wd' : Nat} (v : Word) (m : Nat) (h : lo' + wd' ≤ lo ∨ lo + wd ≤ lo') (hw : lo' + wd' ≤ 32) :
    fld (setFld v lo wd m) lo' wd' = fld v lo' wd' := by
  refine Nat.eq_of_testBit_eq fun i => ?_
  unfold fld
  rw [Nat.testBit_mod_two_pow, Nat.testBit_mod_two_pow, Nat.testBit_shiftRight, Nat.testBit_shiftRight]
  by_cases hi : i < wd'
  · have hbit := setFld_getLsbD v lo wd m (lo' + i) (by omega)
    rw [if_neg (by omega)] at hbit
    exact congrArg (decide (i < wd') && ·) hbit
  · rw [decide_eq_false hi, Bool.false_and, Bool.false_and]

theorem nfld_mod (v lo wd : Nat) : nfld v lo wd % 2 ^ wd = nfld v lo wd := Nat.mod_mod _ _

/-- An IDENT word stored in the lane's page. -/
def State.identStored (s : State) (n : Nat) (w : Word64) : State :=
  (((s.setRfld (sLane n) 0x038 0 6 (nfld w.toNat 52 6)).setRfld (sLane n) 0x038 8 4 (nfld w.toNat 48 4)).setRfld (sLane n) 0x038 24 1 1).setReg64
    (sLane n) 0x030 (nfld w.toNat 0 48)

theorem State.laneIdent_eq (s : State) (n : Nat) (w : Word64) : s.laneIdent n w = (s.identStored n w).laneCompare n true := rfl

/-- The registers that an IDENT leaves. -/
theorem State.identStored_reg (s : State) (n : Nat) (w : Word64) :
    (s.identStored n w).reg (ra (sLane n) 0x038) =
      setFld (setFld (setFld (s.reg (ra (sLane n) 0x038)) 0 6 (nfld w.toNat 52 6)) 8 4 (nfld w.toNat 48 4)) 24 1 1 ∧
    ∀ i, i ≠ 0x038 → i ≠ 0x030 → i ≠ 0x034 → (s.identStored n w).reg (ra (sLane n) i) = s.reg (ra (sLane n) i) := by
  unfold State.identStored State.setReg64 State.setRfld
  refine ⟨?_, fun i h h0 h4 => ?_⟩
  · rw [State.setReg_reg_ne _ _ (ra_off_ne (by decide) _), State.setReg_reg_ne _ _ (ra_off_ne (by decide) _), State.setReg_reg_same,
      State.setReg_reg_same, State.setReg_reg_same]
  · rw [State.setReg_reg_ne _ _ (ra_off_ne (by omega) _), State.setReg_reg_ne _ _ (ra_off_ne (by omega) _), State.setReg_reg_ne _ _ (ra_off_ne (by omega) _),
      State.setReg_reg_ne _ _ (ra_off_ne (by omega) _), State.setReg_reg_ne _ _ (ra_off_ne (by omega) _)]

theorem State.identStored_lane (s : State) (n : Nat) (w : Word64) : (s.identStored n w).lane n = s.lane n :=
  ((((State.setRfld_side _ _ _ _ _ _).trans (State.setRfld_side _ _ _ _ _ _)).trans (State.setRfld_side _ _ _ _ _ _)).trans
    (State.setReg64_side _ _ _ _)).tileSide.lane n

theorem State.identStored_seen (s : State) (n : Nat) (w : Word64) :
    (s.identStored n w).identSeen n = true ∧ (s.identStored n w).unitSeen n = s.unitSeen n ∧ (s.identStored n w).unitMatch n = s.unitMatch n := by
  obtain ⟨hinfo, helse⟩ := s.identStored_reg n w
  generalize s.identStored n w = y at *
  refine ⟨?_, ?_, ?_⟩
  · rw [State.identSeen, State.rbit, hinfo, bit, setFld_getLsbD _ _ _ _ _ (by decide)]
    rfl
  · rw [State.unitSeen, State.unitSeen, State.rbit, State.rbit, hinfo, bit, bit, setFld_getLsbD _ _ _ _ _ (by decide), if_neg (by decide),
      setFld_getLsbD _ _ _ _ _ (by decide), if_neg (by decide), setFld_getLsbD _ _ _ _ _ (by decide), if_neg (by decide)]
  · rw [State.unitMatch, State.unitMatch, helse _ (by decide) (by decide) (by decide), helse _ (by decide) (by decide) (by decide)]

theorem State.identStored_shown (s : State) (n : Nat) (w : Word64) :
    (s.identStored n w).rfld (sLane n) 0x038 0 6 = nfld w.toNat 52 6 ∧ (s.identStored n w).rfld (sLane n) 0x038 8 4 = nfld w.toNat 48 4 ∧
    (s.identStored n w).reg64 (sLane n) 0x030 = nfld w.toNat 0 48 := by
  obtain ⟨hinfo, -⟩ := s.identStored_reg n w
  refine ⟨?_, ?_, ?_⟩
  · rw [State.rfld, hinfo, fld_setFld_beside _ _ (by decide) (by decide), fld_setFld_beside _ _ (by decide) (by decide), fld_setFld _ _ _ _ (by decide), nfld_mod]
  · rw [State.rfld, hinfo, fld_setFld_beside _ _ (by decide) (by decide), fld_setFld _ _ _ _ (by decide), nfld_mod]
  · have hlt : nfld w.toNat 0 48 < 2 ^ 64 := lt_of_lt_of_le (Nat.mod_lt _ (Nat.two_pow_pos 48)) (Nat.pow_le_pow_right (by decide) (by decide))
    exact (State.reg64_setReg64 _ _ _ _).trans (Nat.mod_eq_of_lt hlt)

theorem State.identStored_match (s : State) (n : Nat) (w : Word64) : (s.identStored n w).identMatch n = true ↔
    nfld w.toNat 52 6 = s.rfld (sLane n) 0x01C 0 6 ∧ nfld w.toNat 48 4 = s.rfld (sLane n) 0x01C 8 4 := by
  obtain ⟨-, helse⟩ := s.identStored_reg n w
  obtain ⟨hnrec, hkind, -⟩ := s.identStored_shown n w
  have h1c := helse 0x01C (by decide) (by decide) (by decide)
  rw [State.identMatch, hnrec, hkind, Bool.and_eq_true, decide_eq_true_iff, decide_eq_true_iff, State.rfld, State.rfld, h1c, ← State.rfld, ← State.rfld]

/-- A UNIT word stored in the lane's page. -/
def State.unitStored (s : State) (n : Nat) (w : Word64) : State :=
  (s.setRfld (sLane n) 0x038 25 1 1).setRegN (sLane n) 0x03C (nfld w.toNat 0 32)

theorem State.laneUnit_eq (s : State) (n : Nat) (w : Word64) : s.laneUnit n w = (s.unitStored n w).laneCompare n false := rfl

theorem State.unitStored_lane (s : State) (n : Nat) (w : Word64) : (s.unitStored n w).lane n = s.lane n :=
  ((State.setRfld_side s (sLane n) 0x038 25 1 1).trans (State.setReg_side _ _ _)).tileSide.lane n

theorem State.unitStored_spec (s : State) (n : Nat) (w : Word64) :
    (s.unitStored n w).unitSeen n = true ∧ (s.unitStored n w).identSeen n = s.identSeen n ∧ (s.unitStored n w).identMatch n = s.identMatch n ∧
    (s.unitStored n w).reg (ra (sLane n) 0x03C) = BitVec.ofNat 32 (nfld w.toNat 0 32) ∧
    ((s.unitStored n w).unitMatch n = true ↔ BitVec.ofNat 32 (nfld w.toNat 0 32) = s.reg (ra (sLane n) 0x020)) := by
  have hinfo : (s.unitStored n w).reg (ra (sLane n) 0x038) = setFld (s.reg (ra (sLane n) 0x038)) 25 1 1 := by
    rw [State.unitStored, State.setRegN, State.setReg_reg_ne _ _ (ra_off_ne (by decide) _), State.setRfld, State.setReg_reg_same]
  have hword : (s.unitStored n w).reg (ra (sLane n) 0x03C) = BitVec.ofNat 32 (nfld w.toNat 0 32) := State.setReg_reg_same _ _ _
  have helse (i : Nat) (h : i ≠ 0x038) (h' : i ≠ 0x03C) : (s.unitStored n w).reg (ra (sLane n) i) = s.reg (ra (sLane n) i) := by
    rw [State.unitStored, State.setRegN, State.setReg_reg_ne _ _ (ra_off_ne (by omega) _), State.setRfld, State.setReg_reg_ne _ _ (ra_off_ne (by omega) _)]
  refine ⟨?_, ?_, ?_, hword, ?_⟩
  · rw [State.unitSeen, State.rbit, hinfo, bit, setFld_getLsbD _ _ _ _ _ (by decide)]
    rfl
  · rw [State.identSeen, State.rbit, hinfo, bit, setFld_getLsbD _ _ _ _ _ (by decide), if_neg (by decide)]
    rfl
  · rw [State.identMatch, State.rfld, State.rfld, State.rfld, State.rfld, hinfo, helse _ (by decide) (by decide), fld_setFld_beside _ _ (by decide) (by decide),
      fld_setFld_beside _ _ (by decide) (by decide)]
    rfl
  · rw [State.unitMatch, hword, helse _ (by decide) (by decide), decide_eq_true_iff]

/-- What is stored stands through the comparison. -/
theorem State.PageKept.seen (h : s.PageKept n z) : z.identSeen n = s.identSeen n ∧ z.unitSeen n = s.unitSeen n := by
  have h38 := h 0x038 (by decide) (by decide)
  unfold State.identSeen State.unitSeen State.rbit
  rw [h38]
  exact ⟨rfl, rfl⟩

/-- An IDENT word: stored, and compared with the registration. -/
theorem State.laneIdent_spec (s : State) (hn : n < 64) (w : Word64) :
    let z := s.laneIdent n w
    let x := s.lane n
    let fits := nfld w.toNat 52 6 = s.rfld (sLane n) 0x01C 0 6 ∧ nfld w.toNat 48 4 = s.rfld (sLane n) 0x01C 8 4
    z.identSeen n = true ∧ z.rfld (sLane n) 0x038 0 6 = nfld w.toNat 52 6 ∧ z.rfld (sLane n) 0x038 8 4 = nfld w.toNat 48 4 ∧
    z.reg64 (sLane n) 0x030 = nfld w.toNat 0 48 ∧
    (x.st = .aligned → z.lane n = x) ∧
    (x.st = .registering → fits → s.unitSeen n = false → z.lane n = x) ∧
    (x.st = .registering → fits → s.unitSeen n = true → s.unitMatch n = true → (z.lane n).st = .up ∧ bit (z.reg (ra (sLane n) 0x008)) 0 = true) ∧
    (x.st = .up → fits → z.lane n = x) ∧
    (x.st = .mismatch → fits → x.nextUnit = true → (z.lane n).st = .up ∧ bit (z.reg (ra (sLane n) 0x008)) 0 = true) ∧
    (x.st = .mismatch → ¬fits → z.lane n = { x with nextId := false }) ∧
    ((x.st = .registering ∨ x.st = .up) → ¬fits → (z.lane n).st = .mismatch ∧ bit (z.reg (ra (sLane n) 0x008)) 2 = true) := by
  obtain ⟨hseen, hunit, humatch⟩ := s.identStored_seen n w
  obtain ⟨hnrec, hkind, huid⟩ := s.identStored_shown n w
  have hfits := s.identStored_match n w
  have hlane := s.identStored_lane n w
  rw [State.laneIdent_eq]
  generalize s.identStored n w = y at *
  have hkept := y.laneCompare_kept hn true
  obtain ⟨hal, hreg, hup, hmis, hmiss, hbad⟩ := y.laneCompare_spec hn true
  obtain ⟨hseen', -⟩ := hkept.seen
  have h38 := hkept 0x038 (by decide) (by decide)
  have h30 := hkept 0x030 (by decide) (by decide)
  have h34 := hkept 0x034 (by decide) (by decide)
  generalize y.laneCompare n true = z at *
  rw [hlane] at hal hreg hup hmis hmiss hbad
  have hno (h : ¬ (nfld w.toNat 52 6 = s.rfld (sLane n) 0x01C 0 6 ∧ nfld w.toNat 48 4 = s.rfld (sLane n) 0x01C 8 4)) : y.wordFits n true = false :=
    Bool.eq_false_iff.mpr fun h' => h (hfits.mp h')
  refine ⟨hseen'.trans hseen, ?_, ?_, ?_, hal, fun hst hf hu => ?_, fun hst hf hu hum => ?_, fun hst hf => hup hst (hfits.mpr hf),
    fun hst hf hnext => hmis hst hnext (hfits.mpr hf), fun hst hf => hmiss hst (hno hf), fun hst hf => hbad hst (hno hf) hseen⟩
  · rw [State.rfld, h38]
    exact hnrec
  · rw [State.rfld, h38]
    exact hkind
  · rw [State.reg64, h30, h34]
    exact huid
  · exact (hreg hst (hfits.mpr hf) hseen).1 (hunit.trans hu)
  · exact (hreg hst (hfits.mpr hf) hseen).2 (hunit.trans hu) (humatch.trans hum)

/-- A UNIT word: stored, and compared with the registration. -/
theorem State.laneUnit_spec (s : State) (hn : n < 64) (w : Word64) :
    let z := s.laneUnit n w
    let x := s.lane n
    let fits := BitVec.ofNat 32 (nfld w.toNat 0 32) = s.reg (ra (sLane n) 0x020)
    z.unitSeen n = true ∧ z.reg (ra (sLane n) 0x03C) = BitVec.ofNat 32 (nfld w.toNat 0 32) ∧
    (x.st = .aligned → z.lane n = x) ∧
    (x.st = .registering → fits → s.identSeen n = true → s.identMatch n = true → (z.lane n).st = .up ∧ bit (z.reg (ra (sLane n) 0x008)) 0 = true) ∧
    (x.st = .up → fits → z.lane n = x) ∧
    ((x.st = .registering ∨ x.st = .up) → ¬fits → (z.lane n).st = .mismatch ∧ bit (z.reg (ra (sLane n) 0x008)) 2 = true) := by
  obtain ⟨hseen, hident, himatch, hword, hfits⟩ := s.unitStored_spec n w
  have hlane := s.unitStored_lane n w
  rw [State.laneUnit_eq]
  generalize s.unitStored n w = y at *
  have hkept := y.laneCompare_kept hn false
  obtain ⟨hal, hreg, hup, -, -, hbad⟩ := y.laneCompare_spec hn false
  obtain ⟨-, hseen'⟩ := hkept.seen
  have h3c := hkept 0x03C (by decide) (by decide)
  generalize y.laneCompare n false = z at *
  rw [hlane] at hal hreg hup hbad
  refine ⟨hseen'.trans hseen, h3c.trans hword, hal, fun hst hf hi him => ?_, fun hst hf => hup hst (hfits.mpr hf),
    fun hst hf => hbad hst (Bool.eq_false_iff.mpr fun h' => hf (hfits.mp h')) hseen⟩
  exact (hreg hst (hfits.mpr hf) hseen).2 (hident.trans hi) (himatch.trans him)

/-! ### The obligation -/

/-- Settles O49, by the word's type and the branch that its handling takes. -/
theorem laneWords : Obligations.LaneWords := by
  intro s t n w hpow u x v one spent counts room cnt
  have hx : u.lane n = x := rfl
  have hdrop (off k : Nat) (b : Nat) (hoff : 0x00C ≤ off) (hb : b < 32) : ∀ z, ((u.setLane n (u.lane n).spent).laneCredited n).laneTold n off b k = z →
      spent z ∧ counts off b z := by
    rintro z rfl
    obtain ⟨hspent, hcount, hbit, hbuf⟩ := u.dropped_spec n k hoff hb
    exact ⟨hspent, hcount, hbit, hbuf⟩
  refine ⟨fun hshut => ?_, fun hopen => ⟨fun hhit => ⟨fun hr => ?_, fun hr hrec => ?_, fun hr hrec => ?_⟩,
    fun hmark => ⟨fun hr => ?_, fun hr hk => ?_, fun hr hk => ?_, fun k hr hlink => ⟨fun hk => ?_, fun hk => ?_⟩⟩,
    fun hctl hk hr => ?_, fun hctl hk => ?_, fun hctl hk => ?_⟩⟩
  · have hrx : (s.advance t).laneRx n w = u := State.laneRx_shut (s := u) hshut w
    refine ⟨fun c hc => ?_, fun c hc => ?_⟩
    · rw [List.mem_cons, List.mem_cons, List.mem_cons, List.mem_singleton] at hc
      obtain rfl | rfl | rfl | rfl := hc
      · exact next_of hpow (exec_hit t n w s) hrx (Quiet.refl _)
      · exact next_of hpow (exec_mark t n w s) hrx (Quiet.refl _)
      · exact next_of hpow (exec_health t n w s) hrx (Quiet.refl _)
      · exact next_of hpow (exec_poll t n w s) hrx (Quiet.refl _)
    · have hq : Quiet u u.wakeAll := u.wakeAll_ctxSide.quiet
      rw [List.mem_cons, List.mem_cons, List.mem_singleton] at hc
      obtain rfl | rfl | rfl := hc
      · exact next_of hpow (exec_ident t n w s) (congrArg State.wakeAll hrx) hq
      · exact next_of hpow (exec_unit t n w s) (congrArg State.wakeAll hrx) hq
      · exact next_of hpow (exec_ack t n w s) (congrArg State.wakeAll hrx) hq
  · refine answers_of_wrapped hpow (exec_hit t n w s) fun l => ?_
    have h := hdrop 0x058 1 4 (by decide) (by decide) _ rfl
    rw [show (s.advance t).laneRx n w = _ from (State.laneRx_hit (s := u) hopen hhit).trans (State.laneHit_full (s := u) hr w)]
    generalize State.laneTold _ _ _ _ _ = z at h ⊢
    exact h
  · refine answers_of_wrapped hpow (exec_hit t n w s) fun l => ?_
    have h := hdrop 0x060 1 5 (by decide) (by decide) _ rfl
    rw [show (s.advance t).laneRx n w = _ from (State.laneRx_hit (s := u) hopen hhit).trans (State.laneHit_foreign hr hrec)]
    generalize State.laneTold _ _ _ _ _ = z at h ⊢
    exact h
  · refine answers_of_wrapped hpow (exec_hit t n w s) fun l => ?_
    have h := u.hitBuffered_spec n w
    rw [show (s.advance t).laneRx n w = _ from (State.laneRx_hit (s := u) hopen hhit).trans (State.laneHit_taken hr hrec)]
    dsimp only at h
    generalize State.laneReport _ _ _ _ = z at h ⊢
    exact h
  · refine answers_of_wrapped hpow (exec_mark t n w s) fun l => ?_
    have h := hdrop 0x058 1 4 (by decide) (by decide) _ rfl
    rw [show (s.advance t).laneRx n w = _ from (State.laneRx_mark (s := u) hopen hmark).trans (State.laneMark_full (s := u) hr w)]
    generalize State.laneTold _ _ _ _ _ = z at h ⊢
    exact h
  · refine answers_of_wrapped hpow (exec_mark t n w s) fun l => ?_
    have h := hdrop 0x060 1 5 (by decide) (by decide) _ rfl
    rw [show (s.advance t).laneRx n w = _ from (State.laneRx_mark (s := u) hopen hmark).trans (State.laneMark_reserved hr hk)]
    generalize State.laneTold _ _ _ _ _ = z at h ⊢
    exact h
  · refine answers_of_wrapped hpow (exec_mark t n w s) fun l => ?_
    have h := u.markBuffered_spec n w
    rw [show (s.advance t).laneRx n w = _ from (State.laneRx_mark (s := u) hopen hmark).trans (State.laneMark_periodic hr hk)]
    dsimp only at h
    generalize State.laneReport _ _ _ _ = z at h ⊢
    exact h
  · refine answers_of_wrapped hpow (exec_mark t n w s) fun l => ?_
    have h := State.laneMark_told (s := u) hr hlink (Or.inl hk)
    rw [show nfld w.toNat 58 4 = 1 from hk] at h
    rw [show (s.advance t).laneRx n w = _ from State.laneRx_mark (s := u) hopen hmark]
    generalize State.laneMark _ _ _ = z at h ⊢
    exact h
  · refine answers_of_wrapped hpow (exec_mark t n w s) fun l => ?_
    have h := State.laneMark_told (s := u) hr hlink (Or.inr hk)
    rw [show nfld w.toNat 58 4 = 2 from hk] at h
    rw [show (s.advance t).laneRx n w = _ from State.laneRx_mark (s := u) hopen hmark]
    generalize State.laneMark _ _ _ = z at h ⊢
    exact h
  · refine answers_of_wrapped hpow (exec_health t n w s) fun l => ?_
    have h := State.laneHealth_spec (s := u) hr w
    rw [show (s.advance t).laneRx n w = _ from State.laneRx_health (s := u) hopen hctl hk]
    dsimp only at h
    generalize State.laneHealth _ _ _ = z at h ⊢
    exact h
  · intro fits
    have h := u.laneIdent_spec n.isLt w
    refine answers_of_woken hpow (exec_ident t n w s) fun m l => ?_
    rw [show (s.advance t).laneRx n w = _ from State.laneRx_ident (s := u) hopen hctl hk]
    dsimp only at h
    generalize State.laneIdent _ _ _ = z at h ⊢
    exact h
  · intro fits
    have h := u.laneUnit_spec n.isLt w
    refine answers_of_woken hpow (exec_unit t n w s) fun m l => ?_
    rw [show (s.advance t).laneRx n w = _ from State.laneRx_unit (s := u) hopen hctl hk]
    dsimp only at h
    generalize State.laneUnit _ _ _ = z at h ⊢
    exact h

end Sys2Proof.Machine
end

section
/-! Proofs about rebased hits, bins and beams (R172 to R187, R199). -/

namespace Sys2Proof.Machine

variable {s x y z : State} {n k off b p : Nat} {w : Word64} {h : Stamp}

/-! ### A word leaves a lane's buffer -/

/-- A lane's buffer without the word that has left it. -/
def State.popped (s : State) (n : Nat) (r : List LaneWord) : State := s.setLane n ({ s.lane n with buf := r } : Lane).credit

theorem State.popped_lane (s : State) (n : Nat) (r : List LaneWord) : ∃ l, (s.popped n r).lane n = { s.lane n with buf := r, l := l } := by
  obtain ⟨l, hl, -⟩ := ({ s.lane n with buf := r } : Lane).credit_spec
  exact ⟨l, (State.setLane_same _ _ _).trans hl⟩

theorem State.popped_why (s : State) (n : Nat) (r : List LaneWord) : (s.popped n r).tileWhy n = s.tileWhy n := by
  obtain ⟨l, hl⟩ := s.popped_lane n r
  have habs : (s.popped n r).tileAbsent n = s.tileAbsent n := by
    unfold State.tileAbsent
    rw [hl]
  unfold State.tileWhy
  rw [habs]
  rfl

theorem State.tileAge_kept (h : s.tileWhy n = s.tfld (oTile n 8) 3 3) : s.tileAge n = s := if_pos h

/-- A hit handed on: its condition offered, and the horizon filter (R179, R187). -/
def State.hitFiltered (s : State) (h : Stamp) : State :=
  (if s.condUses h.src then { s with condIn := s.condIn ++ [.edge h] } else s).horizonFilter h

theorem State.rebaseHit_nil (h : (s.lane n).buf = []) : s.rebaseHit n = s := by
  unfold State.rebaseHit
  dsimp only
  rw [h]

theorem State.rebaseHit_word {e : LaneWord} {r : List LaneWord} (h : (s.lane n).buf = e :: r) (hkept : s.tileWhy n = s.tfld (oTile n 8) 3 3) :
    s.rebaseHit n = if nfld e.w.toNat 62 2 = 1 then ((s.popped n r).rebase n e.at' e.w).2.hitFiltered ((s.popped n r).rebase n e.at' e.w).1
      else (s.popped n r).rebaseMark n e.at' e.w := by
  have hage : (s.popped n r).tileAge n = s.popped n r := State.tileAge_kept ((s.popped_why n r).trans hkept)
  unfold State.rebaseHit
  dsimp only
  split
  next e' r' heq =>
    obtain ⟨rfl, rfl⟩ := List.cons.inj (h.symm.trans heq)
    rw [show (s.setLane n ({ s.lane n with buf := r } : Lane).credit).tileAge n = s.popped n r from hage]
    rfl
  next heq => exact absurd (h.symm.trans heq) (List.cons_ne_nil _ _)

/-! ### A hit rebased -/

theorem State.popped_rebase (s : State) (n : Nat) (r : List LaneWord) (a : Nat) (w : Word64) :
    ((s.popped n r).rebase n a w).1 = (s.rebase n a w).1 := by
  obtain ⟨l, hl⟩ := s.popped_lane n r
  unfold State.rebase
  dsimp only
  rw [s.popped_why, hl]
  rfl

theorem flag_within (a b c f : Nat) (h : b = f) : (a ||| b ||| c) &&& f = f := by
  subst h
  refine Nat.eq_of_testBit_eq fun i => ?_
  rw [Nat.testBit_and, Nat.testBit_or, Nat.testBit_or]
  cases b.testBit i <;> simp

/-- What a hit shows of its receiver and its tile. -/
theorem State.rebase_stamp (s : State) (n a : Nat) (w : Word64) :
    (s.rebase n a w).1.src = 64 * n + nfld w.toNat 56 6 ∧ (s.rebase n a w).1.rising = true ∧
    (s.tileWhy n ≠ 0 → (s.rebase n a w).1.flags &&& fLOST = fLOST) ∧
    (0 < (s.lane n).lostAt → a ≤ (s.lane n).lostAt → (s.rebase n a w).1.flags &&& fLOST = fLOST) ∧
    (s.rebase n a w).1.seq = (s.tabw (oRx (s.rebase n a w).1.src 0)).toNat := by
  refine ⟨rfl, rfl, fun hwhy => flag_within _ _ _ _ ?_, fun hpos hle => flag_within _ _ _ _ ?_, rfl⟩
  · rw [decide_eq_true hwhy]
    rfl
  · rw [decide_eq_true hpos, decide_eq_true hle, Bool.and_true, Bool.or_true]
    rfl

/-- A hit numbered, with what its receiver has seen. -/
def State.hitNumbered (s : State) (h : Stamp) (l : List (Nat × Nat × Nat)) : State :=
  { s.setTabN (oRx h.src 0) (h.seq + 1) with rxSeen := l }

/-- A hit of a stale tile counted. -/
def State.hitStale (s : State) (n : Nat) : State := (s.tbump64 (oTile n 18) 1).bump64 (sReb (tileDie n)) 0x02C 1

/-- What the receivers have seen after a hit of one. -/
def State.hitSeen (s : State) (n : Nat) (w : Word64) : List (Nat × Nat × Nat) :=
  let r := 64 * n + nfld w.toNat 56 6
  let p := s.hitPhys (s.rebaseTime n (nfld w.toNat 0 56))
  Sparse.set (0, 0) s.rxSeen r (seenAfter (s.originOf p) p (Sparse.get (0, 0) s.rxSeen r))

theorem State.rebase_state (s : State) (n a : Nat) (w : Word64) : (s.rebase n a w).2 =
    if decide (s.tileWhy n ≠ 0) = true then (s.hitNumbered (s.rebase n a w).1 (s.hitSeen n w)).hitStale n
    else s.hitNumbered (s.rebase n a w).1 (s.hitSeen n w) := rfl

/-- What a hit's rebasing and reports change of a state: counters, the tables, and what its receiver has seen. -/
structure HitSide (s z : State) : Prop where
  lanes : z.lanes = s.lanes
  condIn : z.condIn = s.condIn
  planes : z.planes = s.planes
  laneIn : z.laneIn = s.laneIn
  rxOwed : z.rxOwed = s.rxOwed
  caps : z.caps = s.caps
  ctxs : z.ctxs = s.ctxs
  meas : z.meas = s.meas
  now : z.now = s.now
  solEdge : z.solEdge = s.solEdge

theorem HitSide.refl (s : State) : HitSide s s := by constructor <;> rfl

theorem HitSide.trans (h : HitSide s y) (h' : HitSide y z) : HitSide s z where
  lanes := h'.lanes.trans h.lanes
  condIn := h'.condIn.trans h.condIn
  planes := h'.planes.trans h.planes
  laneIn := h'.laneIn.trans h.laneIn
  rxOwed := h'.rxOwed.trans h.rxOwed
  caps := h'.caps.trans h.caps
  ctxs := h'.ctxs.trans h.ctxs
  meas := h'.meas.trans h.meas
  now := h'.now.trans h.now
  solEdge := h'.solEdge.trans h.solEdge

theorem HitSide.of_side (h : Side s z) : HitSide s z := by
  obtain ⟨_, _, _, _, _, rfl⟩ := h
  constructor <;> rfl

theorem HitSide.tab (s : State) (m : List (Nat × Word)) : HitSide s { s with tab := m } := by constructor <;> rfl

/-- The table words of a state but those of some offsets. -/
def State.TabBut (s : State) (l : List Nat) (z : State) : Prop := ∀ o, o ∉ l → z.tabw o = s.tabw o

theorem State.hitNumbered_side (s : State) (h : Stamp) (l : List (Nat × Nat × Nat)) : HitSide s (s.hitNumbered h l) := by constructor <;> rfl

theorem State.hitNumbered_tabw (s : State) (h : Stamp) (l : List (Nat × Nat × Nat)) :
    (s.hitNumbered h l).tabw (oRx h.src 0) = BitVec.ofNat 32 (h.seq + 1) ∧ s.TabBut [oRx h.src 0] (s.hitNumbered h l) :=
  ⟨State.setTabw_tabw_same _ _ _, fun _ ho => State.setTabw_tabw_ne _ _ fun e => ho (List.mem_singleton.mpr e.symm)⟩

theorem State.tbump64_eq (s : State) (o m : Nat) : ∃ l, s.tbump64 o m = { s with tab := l } := State.setTab64_eq s o _

theorem State.hitStale_side (s : State) (n : Nat) : HitSide s (s.hitStale n) := by
  obtain ⟨l, hl⟩ := s.tbump64_eq (oTile n 18) 1
  unfold State.hitStale
  rw [hl]
  exact (HitSide.tab s l).trans (HitSide.of_side (State.bump64_side _ _ _ _))

theorem State.hitStale_tabw (s : State) (n : Nat) : s.TabBut [oTile n 18, oTile n 19] (s.hitStale n) := by
  intro o ho
  have h18 : o ≠ oTile n 18 := fun e => ho (e ▸ List.mem_cons_self)
  have h19 : o ≠ oTile n 19 := fun e => ho (e ▸ List.mem_cons_of_mem _ List.mem_cons_self)
  have hside := State.bump64_side (s.tbump64 (oTile n 18) 1) (sReb (tileDie n)) 0x02C 1
  rw [State.hitStale, State.tabw, hside.tab]
  exact (State.setTabw_tabw_ne _ _ h19.symm).trans (State.setTabw_tabw_ne _ _ h18.symm)

theorem State.hitStale_reg (s : State) (n : Nat) {a : Nat} (h : ra (sReb (tileDie n)) 0x02C ≠ a) (h' : ra (sReb (tileDie n)) 0x030 ≠ a) :
    (s.hitStale n).reg a = s.reg a := by
  rw [State.hitStale, State.bump64_reg h h']
  rfl

/-- What a hit's rebasing leaves. -/
theorem State.rebased_spec (s : State) (hn : n < 64) (a : Nat) (w : Word64) :
    let x := (s.rebase n a w).1
    let z := (s.rebase n a w).2
    HitSide s z ∧ z.tabw (oRx x.src 0) = BitVec.ofNat 32 (x.seq + 1) ∧ s.TabBut [oRx x.src 0, oTile n 18, oTile n 19] z ∧
      ∀ b, ra (sReb (tileDie n)) 0x02C ≠ b → ra (sReb (tileDie n)) 0x030 ≠ b → z.reg b = s.reg b := by
  dsimp only
  rw [State.rebase_state]
  have hside := s.hitNumbered_side (s.rebase n a w).1 (s.hitSeen n w)
  obtain ⟨hseq, hbut⟩ := s.hitNumbered_tabw (s.rebase n a w).1 (s.hitSeen n w)
  have hreg (b : Nat) : (s.hitNumbered (s.rebase n a w).1 (s.hitSeen n w)).reg b = s.reg b := rfl
  generalize (s.rebase n a w).1 = x at *
  generalize s.hitNumbered x (s.hitSeen n w) = y at *
  split
  · have hbut' := y.hitStale_tabw n
    refine ⟨hside.trans (y.hitStale_side n), ?_, fun o ho => ?_, fun b hb hb' => (y.hitStale_reg n hb hb').trans (hreg b)⟩
    · refine (hbut' _ fun e => ?_).trans hseq
      have hlt : n < 64 := hn
      rw [List.mem_cons, List.mem_singleton] at e
      unfold oRx oTile at e
      omega
    · rw [List.mem_cons] at ho
      exact (hbut' o fun e => ho (Or.inr e)).trans (hbut o fun e => ho (Or.inl (List.mem_singleton.mp e)))
  · exact ⟨hside, hseq, fun o ho => hbut o fun e => ho (by rw [List.mem_singleton] at e; rw [e]; exact List.mem_cons_self), fun b _ _ => hreg b⟩

/-! ### Hits that the horizon drops -/

theorem State.runningCtxs_congr (h : z.ctxs = s.ctxs) : z.runningCtxs = s.runningCtxs := by rw [State.runningCtxs, h, State.runningCtxs]

theorem State.TabAbove.trans (h : s.TabAbove y) (h' : y.TabAbove z) : s.TabAbove z := fun o ho => (h' o ho).trans (h o ho)

/-- Reports to the running contexts of a list. -/
theorem State.each_report_spec (s : State) (l : List Nat) (hl : ∀ c ∈ l, c < 512) (f : State → Nat → State)
    (hf : ∀ u c, c < 512 → (∃ m, f u c = { u with tab := m }) ∧ u.TabAbove (f u c)) :
    (∃ m, s.each l f = { s with tab := m }) ∧ s.TabAbove (s.each l f) := by
  refine State.each_induct (P := fun u => (∃ m, u = { s with tab := m }) ∧ s.TabAbove u) ?_ ⟨⟨_, rfl⟩, State.TabAbove.refl s⟩
  rintro u c hc ⟨⟨m, rfl⟩, habove⟩
  obtain ⟨⟨m', hm⟩, habove'⟩ := hf _ c (hl c hc)
  exact ⟨⟨m', hm⟩, habove.trans habove'⟩

theorem State.rxUsers_lt (h : ∀ c ∈ s.runningCtxs, c < 512) (r : Nat) : ∀ c ∈ s.rxUsers r, c < 512 := fun c hc => h c (List.mem_filter.mp hc).1

theorem State.hitDropped_spec (s : State) (h : Stamp) (hrun : ∀ c ∈ s.runningCtxs, c < 512) :
    (∃ m, s.hitDropped h = { s with rxOwed := oweDrop s.rxOwed h, tab := m }) ∧ s.TabAbove (s.hitDropped h) := by
  have hf (u : State) (c : Nat) (hc : c < 512) : (∃ m, u.report c 3 2 1 = { u with tab := m }) ∧ u.TabAbove (u.report c 3 2 1) :=
    ⟨⟨_, rfl⟩, u.report_above hc (by decide) 1⟩
  exact State.each_report_spec { s with rxOwed := oweDrop s.rxOwed h } _ (State.rxUsers_lt hrun h.src) _ hf

/-- A late hit. -/
theorem State.horizonFilter_late (h : Stamp) (hlate : h.phys < s.phys - s.horizon) : s.horizonFilter h =
    (((s.tbump (oRx h.src 1) 1).bump64 (sReb (tileDie (h.src / 64))) 0x01C 1).evt (sReb (tileDie (h.src / 64))) 3).hitDropped h := if_pos hlate

/-- An early hit. -/
theorem State.horizonFilter_early (h : Stamp) (hlate : s.phys - s.horizon ≤ h.phys) (hearly : s.phys + 4_000_000 < h.phys) : s.horizonFilter h =
    ((s.tbump64 (oTile (h.src / 64) 20) 1).evt (sReb (tileDie (h.src / 64))) 5).hitDropped h :=
  (if_neg (not_lt.mpr hlate)).trans (if_pos hearly)

/-- What a dropped hit leaves, over the state in which it was counted. -/
theorem State.dropped_kept {v : State} (h : Stamp) (hside : HitSide s v) (hrun : ∀ c ∈ s.runningCtxs, c < 512) :
    let z := v.hitDropped h
    z.lanes = s.lanes ∧ z.condIn = s.condIn ∧ z.planes = s.planes ∧ z.laneIn = s.laneIn ∧ z.rxOwed = oweDrop s.rxOwed h ∧ z.caps = s.caps ∧
      z.ctxs = s.ctxs ∧ (∀ a, z.reg a = v.reg a) ∧ ∀ o, 0x2_0000 ≤ o → z.tabw o = v.tabw o := by
  intro z
  obtain ⟨⟨m, hm⟩, habove⟩ := v.hitDropped_spec h (by rw [State.runningCtxs_congr hside.ctxs]; exact hrun)
  rw [hm] at habove
  rw [show z = { v with rxOwed := oweDrop v.rxOwed h, tab := m } from hm]
  exact ⟨hside.lanes, hside.condIn, hside.planes, hside.laneIn, congrArg (oweDrop · h) hside.rxOwed, hside.caps, hside.ctxs, fun _ => rfl, habove⟩

theorem State.late_spec (s : State) (h : Stamp) (hlate : h.phys < s.phys - s.horizon) (hrun : ∀ c ∈ s.runningCtxs, c < 512) :
    let z := s.horizonFilter h
    let pg := sReb (tileDie (h.src / 64))
    z.lanes = s.lanes ∧ z.condIn = s.condIn ∧ z.planes = s.planes ∧ z.laneIn = s.laneIn ∧ z.rxOwed = oweDrop s.rxOwed h ∧ z.caps = s.caps ∧
      z.ctxs = s.ctxs ∧ z.tabw (oRx h.src 0) = s.tabw (oRx h.src 0) ∧
      z.tabw (oRx h.src 1) = BitVec.ofNat 32 (min ((s.tabw (oRx h.src 1)).toNat + 1) (2 ^ 32 - 1)) ∧
      z.reg64 pg 0x01C = min (s.reg64 pg 0x01C + 1) (2 ^ 64 - 1) ∧ bit (z.reg (ra pg 0x008)) 3 = true := by
  rw [State.horizonFilter_late h hlate]
  have hside : Side (s.tbump (oRx h.src 1) 1) (((s.tbump (oRx h.src 1) 1).bump64 (sReb (tileDie (h.src / 64))) 0x01C 1).evt (sReb (tileDie (h.src / 64))) 3) :=
    (State.bump64_side _ _ _ _).trans (State.evt_side _ _ _)
  have htab := hside.tab
  have hreg : (((s.tbump (oRx h.src 1) 1).bump64 (sReb (tileDie (h.src / 64))) 0x01C 1).evt (sReb (tileDie (h.src / 64))) 3).reg64 (sReb (tileDie (h.src / 64))) 0x01C =
      min (s.reg64 (sReb (tileDie (h.src / 64))) 0x01C + 1) (2 ^ 64 - 1) := by
    rw [State.evt_reg64_above _ _ _ (by decide), State.reg64_bump64]
    rfl
  have hbit := State.evt_bit (s := (s.tbump (oRx h.src 1) 1).bump64 (sReb (tileDie (h.src / 64))) 0x01C 1) (sReb (tileDie (h.src / 64))) (b := 3) (by decide)
  have hkeep : HitSide s (s.tbump (oRx h.src 1) 1) := HitSide.tab s _
  have h0 : (s.tbump (oRx h.src 1) 1).tabw (oRx h.src 0) = s.tabw (oRx h.src 0) := State.setTabw_tabw_ne _ _ (by unfold oRx; omega)
  have h1 : (s.tbump (oRx h.src 1) 1).tabw (oRx h.src 1) = BitVec.ofNat 32 (min ((s.tabw (oRx h.src 1)).toNat + 1) (2 ^ 32 - 1)) :=
    State.setTabw_tabw_same _ _ _
  have hall := hkeep.trans (HitSide.of_side hside)
  generalize ((s.tbump (oRx h.src 1) 1).bump64 (sReb (tileDie (h.src / 64))) 0x01C 1).evt (sReb (tileDie (h.src / 64))) 3 = v at *
  obtain ⟨hlanes, hcond, hplanes, hin, howed, hcaps, hctxs, hregs, htabs⟩ := State.dropped_kept h hall hrun
  generalize v.hitDropped h = z at *
  have htw (o : Nat) (ho : 0x2_0000 ≤ o) : z.tabw o = (s.tbump (oRx h.src 1) 1).tabw o := by
    rw [htabs o ho, State.tabw, htab, State.tabw]
  refine ⟨hlanes, hcond, hplanes, hin, howed, hcaps, hctxs, ?_, ?_, ?_, ?_⟩
  · rw [htw _ (by unfold oRx; omega), h0]
  · rw [htw _ (by unfold oRx; omega), h1]
  · rw [State.reg64, hregs, hregs]
    exact hreg
  · rw [hregs]
    exact hbit

theorem State.early_spec (s : State) (h : Stamp) (hsrc : h.src < 4096) (hlate : s.phys - s.horizon ≤ h.phys) (hearly : s.phys + 4_000_000 < h.phys)
    (hrun : ∀ c ∈ s.runningCtxs, c < 512) :
    let z := s.horizonFilter h
    z.lanes = s.lanes ∧ z.condIn = s.condIn ∧ z.planes = s.planes ∧ z.laneIn = s.laneIn ∧ z.rxOwed = oweDrop s.rxOwed h ∧ z.caps = s.caps ∧
      z.ctxs = s.ctxs ∧ z.tabw (oRx h.src 0) = s.tabw (oRx h.src 0) ∧ bit (z.reg (ra (sReb (tileDie (h.src / 64))) 0x008)) 5 = true := by
  rw [State.horizonFilter_early h hlate hearly]
  have hside := (s.tbump64 (oTile (h.src / 64) 20) 1).evt_side (sReb (tileDie (h.src / 64))) 5
  have htab := hside.tab
  have hbit := State.evt_bit (s := s.tbump64 (oTile (h.src / 64) 20) 1) (sReb (tileDie (h.src / 64))) (b := 5) (by decide)
  obtain ⟨m, hm⟩ := s.tbump64_eq (oTile (h.src / 64) 20) 1
  have hkeep : HitSide s (s.tbump64 (oTile (h.src / 64) 20) 1) := hm ▸ HitSide.tab s m
  have h0 : (s.tbump64 (oTile (h.src / 64) 20) 1).tabw (oRx h.src 0) = s.tabw (oRx h.src 0) := by
    refine State.setTab64_tabw_ne _ _ ?_ ?_
    · unfold oTile oRx
      omega
    · unfold oTile oRx
      omega
  have hall := hkeep.trans (HitSide.of_side hside)
  generalize (s.tbump64 (oTile (h.src / 64) 20) 1).evt (sReb (tileDie (h.src / 64))) 5 = v at *
  obtain ⟨hlanes, hcond, hplanes, hin, howed, hcaps, hctxs, hregs, htabs⟩ := State.dropped_kept h hall hrun
  generalize v.hitDropped h = z at *
  refine ⟨hlanes, hcond, hplanes, hin, howed, hcaps, hctxs, ?_, ?_⟩
  · rw [htabs _ (by unfold oRx; omega), State.tabw, htab]
    exact h0
  · rw [hregs]
    exact hbit

/-! ### A hit that passes -/

/-- A plane with a hit in the bin of its time. -/
def Plane.hit (k : Plane) (w edge : Nat) (h : Stamp) : Plane :=
  { k with grid := (k.grid.add h.src ((h.phys + Sparse.get 0 k.delays h.src - 2000 * (edge : Int)) / w).toNat (decide (h.flags &&& fLOST ≠ 0))).1 }

/-- A plane of the state with a hit in the bin of its time. -/
def State.planeHit (s : State) (p : Nat) (h : Stamp) : Plane := (s.plane p).hit (s.planeW p) s.solEdge h

/-- A plane that a hit enters, with its count of saturated bins. -/
theorem State.binHit_new (s : State) (p : Nat) (h : Stamp) (hnew : 2000 * (s.solEdge : Int) ≤ h.phys) :
    s.binHit p h = s.setPlane p (s.planeHit p h) ∨ s.binHit p h = (s.setPlane p (s.planeHit p h)).binSat h.src := by
  have hshape : s.binHit p h = if ((s.plane p).grid.add h.src ((h.phys + Sparse.get 0 (s.plane p).delays h.src - 2000 * (s.solEdge : Int)) / s.planeW p).toNat
      (decide (h.flags &&& fLOST ≠ 0))).2 then (s.setPlane p (s.planeHit p h)).binSat h.src else s.setPlane p (s.planeHit p h) := if_neg (not_lt.mpr hnew)
  rw [hshape]
  split
  · exact Or.inr rfl
  · exact Or.inl rfl

/-- What a passing hit changes beside the planes: counters, and words of the receiver's entry above its first. -/
structure Binned (h : Stamp) (s z : State) : Prop where
  lanes : z.lanes = s.lanes
  condIn : z.condIn = s.condIn
  laneIn : z.laneIn = s.laneIn
  rxOwed : z.rxOwed = s.rxOwed
  caps : z.caps = s.caps
  ctxs : z.ctxs = s.ctxs
  meas : z.meas = s.meas
  solEdge : z.solEdge = s.solEdge
  width : ∀ p, p < 4 → z.planeW p = s.planeW p
  tab : ∀ o, 0x2_0000 ≤ o → o ≠ oRx h.src 2 → z.tabw o = s.tabw o

theorem Binned.refl (h : Stamp) (s : State) : Binned h s s := by
  constructor <;> intros <;> rfl

theorem Binned.trans (h1 : Binned h s y) (h2 : Binned h y z) : Binned h s z where
  lanes := h2.lanes.trans h1.lanes
  condIn := h2.condIn.trans h1.condIn
  laneIn := h2.laneIn.trans h1.laneIn
  rxOwed := h2.rxOwed.trans h1.rxOwed
  caps := h2.caps.trans h1.caps
  ctxs := h2.ctxs.trans h1.ctxs
  meas := h2.meas.trans h1.meas
  solEdge := h2.solEdge.trans h1.solEdge
  width := fun p hp => (h2.width p hp).trans (h1.width p hp)
  tab := fun o ho ho' => (h2.tab o ho ho').trans (h1.tab o ho ho')

/-- A saturated count. -/
theorem State.binSat_binned (s : State) (h : Stamp) : Binned h s (s.binSat h.src) ∧ (s.binSat h.src).planes = s.planes := by
  have hside : Side (s.tbump (oRx h.src 2) 1) (s.binSat h.src) := (State.bump64_side _ _ _ _).trans (State.evt_side _ _ _)
  have hreg (a : Nat) (ha : a / 0x400 ≠ sReb (tileDie (h.src / 64))) : (s.binSat h.src).reg a = s.reg a := by
    rw [State.binSat, State.evt_reg_page _ ha, State.bump64_reg (ra_ne_of_page (by decide) ha) (ra_ne_of_page (by decide) ha)]
    rfl
  have hwidth (p : Nat) (hp : p < 4) : (s.binSat h.src).planeW p = s.planeW p := by
    rw [State.planeW, State.rfld, hreg _ ?_]
    · rfl
    · have hdie := tileDie_le (h.src / 64)
      rw [ra_div _ _ (by decide)]
      unfold sBin sReb
      omega
  have htab := hside.tab
  obtain ⟨r, e, pb, o, b, hx⟩ := hside
  have htabs (o : Nat) (ho : o ≠ oRx h.src 2) : (s.binSat h.src).tabw o = s.tabw o := by
    rw [State.tabw, htab]
    exact State.setTabw_tabw_ne _ _ ho.symm
  have hplanes : (s.binSat h.src).planes = s.planes := by rw [hx]; rfl
  refine ⟨⟨?_, ?_, ?_, ?_, ?_, ?_, ?_, ?_, hwidth, fun o _ ho => htabs o ho⟩, hplanes⟩
  all_goals
    rw [hx]
    rfl

theorem State.setPlane_binned (s : State) (h : Stamp) (p : Nat) (k : Plane) : Binned h s (s.setPlane p k) := by
  constructor <;> intros <;> rfl

/-- One plane takes a passing hit. -/
theorem State.binHit_spec (s : State) (p : Nat) (h : Stamp) (hnew : 2000 * (s.solEdge : Int) ≤ h.phys) :
    Binned h s (s.binHit p h) ∧ (s.binHit p h).plane p = s.planeHit p h ∧ ∀ q, p ≠ q → (s.binHit p h).plane q = s.plane q := by
  have hset := s.setPlane_binned h p (s.planeHit p h)
  have hsame := s.setPlane_same p (s.planeHit p h)
  have hne (q : Nat) (hq : p ≠ q) := s.setPlane_ne (s.planeHit p h) hq
  obtain heq | heq := s.binHit_new p h hnew
  · rw [heq]
    exact ⟨hset, hsame, hne⟩
  · rw [heq]
    obtain ⟨hsat, hplanes⟩ := (s.setPlane p (s.planeHit p h)).binSat_binned h
    have hplane (q : Nat) : ((s.setPlane p (s.planeHit p h)).binSat h.src).plane q = (s.setPlane p (s.planeHit p h)).plane q := by
      rw [State.plane, hplanes, State.plane]
    exact ⟨hset.trans hsat, (hplane p).trans hsame, fun q hq => (hplane q).trans (hne q hq)⟩

/-- The planes that take hits. -/
def State.activePlanes (s : State) : List Nat := (List.range 4).filter fun p => (s.plane p).active

theorem State.each_binHit (s : State) (l : List Nat) (hl : l.Nodup) (h : Stamp) (hnew : 2000 * (s.solEdge : Int) ≤ h.phys) :
    Binned h s (s.each l fun s p => s.binHit p h) ∧
    (∀ p, p < 4 → p ∈ l → (s.each l fun s p => s.binHit p h).plane p = s.planeHit p h) ∧
    ∀ p, p ∉ l → (s.each l fun s p => s.binHit p h).plane p = s.plane p := by
  have hframe (u : State) (m : Nat) (hu : Binned h s u) : Binned h s (u.binHit m h) :=
    hu.trans (u.binHit_spec m h (by rw [hu.solEdge]; exact hnew)).1
  refine ⟨State.each_induct (P := Binned h s) (fun u m _ hu => hframe u m hu) (Binned.refl h s), fun p hp hmem => ?_, fun p hmem => ?_⟩
  · refine State.each_once (f := fun s p => s.binHit p h) (I := fun u => Binned h s u ∧ u.plane p = s.plane p) (R := fun u => Binned h s u ∧ u.plane p = s.planeHit p h)
      hmem hl (fun u m hm hu => ⟨hframe u m hu.1, ?_⟩) (fun u hu => ⟨hframe u p hu.1, ?_⟩) (fun u m hm hu => ⟨hframe u m hu.1, ?_⟩) ⟨Binned.refl h s, rfl⟩ |>.2
    · exact ((u.binHit_spec m h (by rw [hu.1.solEdge]; exact hnew)).2.2 p hm).trans hu.2
    · rw [(u.binHit_spec p h (by rw [hu.1.solEdge]; exact hnew)).2.1, State.planeHit, hu.2, hu.1.width p hp, hu.1.solEdge]
      rfl
    · exact ((u.binHit_spec m h (by rw [hu.1.solEdge]; exact hnew)).2.2 p hm).trans hu.2
  · refine (State.each_induct (P := fun u => Binned h s u ∧ u.plane p = s.plane p) (fun u m hm hu => ⟨hframe u m hu.1, ?_⟩) ⟨Binned.refl h s, rfl⟩).2
    exact ((u.binHit_spec m h (by rw [hu.1.solEdge]; exact hnew)).2.2 p fun e => hmem (e ▸ hm)).trans hu.2

/-! ### Consumers of a hit -/

/-- What offering a hit to definitions changes: the histogram engines, counters and reports. -/
structure Offered (s z : State) : Prop where
  lanes : z.lanes = s.lanes
  condIn : z.condIn = s.condIn
  planes : z.planes = s.planes
  laneIn : z.laneIn = s.laneIn
  caps : z.caps = s.caps
  ctxs : z.ctxs = s.ctxs
  tab : s.TabAbove z

theorem Offered.refl (s : State) : Offered s s := ⟨rfl, rfl, rfl, rfl, rfl, rfl, State.TabAbove.refl s⟩

theorem Offered.trans (h : Offered s y) (h' : Offered y z) : Offered s z where
  lanes := h'.lanes.trans h.lanes
  condIn := h'.condIn.trans h.condIn
  planes := h'.planes.trans h.planes
  laneIn := h'.laneIn.trans h.laneIn
  caps := h'.caps.trans h.caps
  ctxs := h'.ctxs.trans h.ctxs
  tab := h.tab.trans h'.tab

theorem Offered.of_side (h : Side s z) : Offered s z := by
  obtain ⟨_, _, _, _, _, rfl⟩ := h
  exact ⟨rfl, rfl, rfl, rfl, rfl, rfl, fun _ _ => rfl⟩

theorem Offered.each {α : Type} {f : State → α → State} {l : List α} (hf : ∀ u e, e ∈ l → Offered u (f u e)) (s : State) : Offered s (s.each l f) :=
  State.each_induct (P := Offered s) (fun u e he hu => hu.trans (hf u e he)) (Offered.refl s)

theorem State.histOffer_offered (s : State) (d : Nat) (h : Stamp) : Offered s (s.histOffer d h) := ⟨rfl, rfl, rfl, rfl, rfl, rfl, fun _ _ => rfl⟩

theorem State.setHeng_offered (s : State) (d : Nat) (e : HEng) : Offered s (s.setHeng d e) := ⟨rfl, rfl, rfl, rfl, rfl, rfl, fun _ _ => rfl⟩

theorem State.report_offered (s : State) {c : Nat} (hc : c < 512) {stage col : Nat} (hw : 40 + 3 * stage + col < 64) (m : Nat) :
    Offered s (s.report c stage col m) := ⟨rfl, rfl, rfl, rfl, rfl, rfl, s.report_above hc hw m⟩

theorem State.crossDrain_offered (s : State) (die : Nat) : Offered s (s.crossDrain die) :=
  (s.setHeng_offered die _).trans (Offered.each (fun u _ _ => Offered.each (fun v d _ => v.histOffer_offered d _) u) _)

theorem State.histDropped_offered (s : State) (d : Nat) (p : Int) : Offered s (s.histCount d 7 1 p) := by
  unfold State.histCount
  dsimp only
  rw [if_neg (by decide)]
  exact ⟨rfl, rfl, rfl, rfl, rfl, rfl, fun _ _ => rfl⟩

theorem State.crossHit_offered (s : State) (die : Nat) (h : Stamp) : Offered s (s.crossHit die h) := by
  unfold State.crossHit
  dsimp only
  split
  · exact s.crossDrain_offered die
  · split
    · have hdrop (u : State) (e : HEng) : Offered u (((u.setHeng die e).bump64 (sHst die) 0x038 1).evt (sHst die) 3) :=
        (u.setHeng_offered die e).trans (Offered.of_side ((State.bump64_side _ _ _ _).trans (State.evt_side _ _ _)))
      refine (s.crossDrain_offered die).trans ((hdrop _ { (s.crossDrain die).heng die with owed := oweDrop ((s.crossDrain die).heng die).owed h }).trans ?_)
      exact Offered.each (fun u d _ => (u.histDropped_offered d h.phys).trans (State.report_offered _ (State.hOwner_lt _ d) (by decide) 1)) _
    · exact (s.crossDrain_offered die).trans (State.setHeng_offered _ _ _)

/-- A hit that no capture takes goes to the measurement engine's path where a slot names its receiver. -/
theorem State.hitConsumers_spec (s : State) (h : Stamp) (hcaps : s.capsOf h.src = []) :
    let z := s.hitConsumers h
    z.lanes = s.lanes ∧ z.condIn = s.condIn ∧ z.planes = s.planes ∧ z.caps = s.caps ∧ z.ctxs = s.ctxs ∧ s.TabAbove z ∧
      z.laneIn = s.laneIn ++ (if s.armedSlots.any fun i => s.slotNames i h.src then [(tileDie (h.src / 64), h)] else []) := by
  have hfirst : ∃ v, v = (if (s.armedSlots.filter fun i => s.slotNames i h.src).isEmpty then s else { s with laneIn := s.laneIn ++ [(tileDie (h.src / 64), h)] }) ∧
      (∃ l, v = { s with laneIn := l }) ∧ v.laneIn = s.laneIn ++ (if s.armedSlots.any fun i => s.slotNames i h.src then [(tileDie (h.src / 64), h)] else []) := by
    refine ⟨_, rfl, ?_⟩
    have hany : (s.armedSlots.filter fun i => s.slotNames i h.src).isEmpty = !(s.armedSlots.any fun i => s.slotNames i h.src) := by
      rw [Bool.eq_iff_iff, List.isEmpty_iff, List.filter_eq_nil_iff, Bool.not_eq_true', List.any_eq_false]
    rw [hany]
    cases s.armedSlots.any fun i => s.slotNames i h.src with
    | true => exact ⟨⟨_, rfl⟩, rfl⟩
    | false => exact ⟨⟨_, rfl⟩, (List.append_nil _).symm⟩
  obtain ⟨v, hv, ⟨l, hl⟩, hin⟩ := hfirst
  have hoff := (Offered.each (fun u d _ => u.histOffer_offered d h) v (l := (v.defsOf h.src).filter fun d => decide (v.hHome d = tileDie (h.src / 64)))).trans
    (State.crossHit_offered _ (1 - tileDie (h.src / 64)) h)
  unfold State.hitConsumers
  dsimp only
  rw [← hv]
  generalize State.crossHit _ _ _ = w at *
  have hnone : w.capsOf h.src = [] := by
    rw [hoff.tab.capsOf hoff.caps, hl]
    exact hcaps
  rw [hnone, State.each_nil]
  rw [hl] at hoff
  exact ⟨hoff.lanes, hoff.condIn, hoff.planes, hoff.caps, hoff.ctxs, hoff.tab, hoff.laneIn.trans (hl ▸ hin)⟩

/-! ### The horizon filter's passing branch -/

theorem HitSide.binned (h : Stamp) (hs : HitSide s z) (hwidth : ∀ p, p < 4 → z.planeW p = s.planeW p) (htab : s.TabAbove z) : Binned h s z where
  lanes := hs.lanes
  condIn := hs.condIn
  laneIn := hs.laneIn
  rxOwed := hs.rxOwed
  caps := hs.caps
  ctxs := hs.ctxs
  meas := hs.meas
  solEdge := hs.solEdge
  width := hwidth
  tab := fun o ho _ => htab o ho

/-- A hit counted for one of its users. -/
def State.hitReported (h : Stamp) (s : State) (c : Nat) : State :=
  if h.flags &&& fLOST ≠ 0 then (s.report c 3 0 1).report c 3 1 1 else s.report c 3 0 1

theorem State.hitReported_spec (h : Stamp) (s : State) (c : Nat) (hc : c < 512) : (∃ m, s.hitReported h c = { s with tab := m }) ∧ s.TabAbove (s.hitReported h c) := by
  unfold State.hitReported
  split
  · exact ⟨⟨_, rfl⟩, (s.report_above hc (by decide) 1).trans (State.report_above _ hc (by decide) 1)⟩
  · exact ⟨⟨_, rfl⟩, s.report_above hc (by decide) 1⟩

/-- What a passing hit leaves in the planes. -/
def State.hitBinned (s : State) (h : Stamp) : State :=
  let v := s.each (s.rxUsers h.src) (State.hitReported h)
  v.each v.activePlanes fun s p => s.binHit p h

theorem State.horizonFilter_passes (h : Stamp) (hlate : s.phys - s.horizon ≤ h.phys) (hearly : h.phys ≤ s.phys + 4_000_000) : s.horizonFilter h =
    { s.hitBinned h with rxOwed := (passOwed (s.hitBinned h).rxOwed h).2 }.hitConsumers (passOwed (s.hitBinned h).rxOwed h).1 :=
  (if_neg (not_lt.mpr hlate)).trans (if_neg (not_lt.mpr hearly))

theorem State.hitBinned_spec (s : State) (h : Stamp) (hnew : 2000 * (s.solEdge : Int) ≤ h.phys) (hrun : ∀ c ∈ s.runningCtxs, c < 512) :
    Binned h s (s.hitBinned h) ∧ ∀ p, p < 4 →
      ((s.plane p).active = false → (s.hitBinned h).plane p = s.plane p) ∧ ((s.plane p).active = true → (s.hitBinned h).plane p = s.planeHit p h) := by
  obtain ⟨⟨m, hm⟩, habove⟩ := State.each_report_spec s _ (State.rxUsers_lt hrun h.src) _ fun u c hc => State.hitReported_spec h u c hc
  unfold State.hitBinned
  dsimp only
  have hbin : Binned h s (s.each (s.rxUsers h.src) (State.hitReported h)) := by
    refine (hm ▸ HitSide.tab s m : HitSide s _).binned h (fun p _ => ?_) habove
    rw [hm]
    rfl
  have hplane (p : Nat) : (s.each (s.rxUsers h.src) (State.hitReported h)).plane p = s.plane p := by
    rw [hm]
    rfl
  generalize s.each (s.rxUsers h.src) (State.hitReported h) = v at *
  obtain ⟨hkeep, hin, hout⟩ := v.each_binHit v.activePlanes (List.nodup_range.filter _) h (by rw [hbin.solEdge]; exact hnew)
  refine ⟨hbin.trans hkeep, fun p hp => ⟨fun hoff => ?_, fun hon => ?_⟩⟩
  · rw [hout p ?_, hplane]
    intro hmem
    have hact := (List.mem_filter.mp hmem).2
    rw [hplane, hoff] at hact
    exact Bool.false_ne_true hact
  · rw [hin p hp ?_, State.planeHit, hplane, hbin.width p hp, hbin.solEdge]
    · rfl
    · exact List.mem_filter.mpr ⟨List.mem_range.mpr hp, by rw [hplane]; exact hon⟩

theorem State.any_slotNames_congr (hmeas : z.meas = s.meas) (hslots : ∀ i ∈ s.armedSlots, i < 1024)
    (htab : ∀ o, 0x4_0000 ≤ o → o < 0x6_0000 → z.tabw o = s.tabw o) (src : Nat) :
    (z.armedSlots.any fun i => z.slotNames i src) = s.armedSlots.any fun i => s.slotNames i src := by
  have harmed : z.armedSlots = s.armedSlots := by rw [State.armedSlots, hmeas, State.armedSlots]
  rw [harmed, Bool.eq_iff_iff, List.any_eq_true, List.any_eq_true]
  have hname (i : Nat) (hi : i ∈ s.armedSlots) : z.slotNames i src = s.slotNames i src := by
    have hlt := hslots i hi
    have hword (w : Nat) (hw : w < 32) : z.tabw (oMeas i w) = s.tabw (oMeas i w) := htab _ (by unfold oMeas; omega) (by unfold oMeas; omega)
    unfold State.slotNames State.mUsesB State.mSrcA State.mSrcB State.mMode State.tfld State.tbit
    rw [hword 0 (by decide), hword 1 (by decide)]
  exact ⟨fun ⟨i, hi, h⟩ => ⟨i, hi, hname i hi ▸ h⟩, fun ⟨i, hi, h⟩ => ⟨i, hi, (hname i hi).symm ▸ h⟩⟩

theorem State.capsOf_congr (hcaps : z.caps = s.caps) (hlt : ∀ e ∈ s.caps, e.1 < 512) (htab : ∀ o, 0x6_0000 ≤ o → o < 0x6_8000 → z.tabw o = s.tabw o) (src : Nat) :
    z.capsOf src = s.capsOf src := by
  rw [State.capsOf, State.capsOf, hcaps]
  refine congrArg (List.map Prod.fst) (List.filter_congr fun e he => ?_)
  have h := hlt e he
  have hword (w : Nat) (hw : w < 16) : z.tabw (oRec e.1 w) = s.tabw (oRec e.1 w) := htab _ (by unfold oRec; omega) (by unfold oRec; omega)
  have hsrcs : z.recSrcs e.1 = s.recSrcs e.1 := by
    unfold State.recSrcs State.tfld
    rw [hword 0 (by decide)]
    refine List.map_congr_left fun k hk => ?_
    have hk' := List.mem_range.mp hk
    rw [hword (5 + k / 2) (by omega)]
  rw [hsrcs]

/-- A hit that passes the horizon and that no capture takes. -/
theorem State.passed_spec (s : State) (h : Stamp) (hlate : s.phys - s.horizon ≤ h.phys) (hearly : h.phys ≤ s.phys + 4_000_000)
    (hnew : 2000 * (s.solEdge : Int) ≤ h.phys) (hsrc : h.src < 4096) (hrun : ∀ c ∈ s.runningCtxs, c < 512) (hslots : ∀ i ∈ s.armedSlots, i < 1024)
    (hlt : ∀ e ∈ s.caps, e.1 < 512) (hcaps : s.capsOf h.src = []) :
    let z := s.horizonFilter h
    z.lanes = s.lanes ∧ z.condIn = s.condIn ∧ z.caps = s.caps ∧ z.ctxs = s.ctxs ∧ z.tabw (oRx h.src 0) = s.tabw (oRx h.src 0) ∧
      z.laneIn = s.laneIn ++ (if s.armedSlots.any fun i => s.slotNames i h.src then [(tileDie (h.src / 64), (passOwed s.rxOwed h).1)] else []) ∧
      ∀ p, p < 4 → ((s.plane p).active = false → z.plane p = s.plane p) ∧ ((s.plane p).active = true → z.plane p = s.planeHit p h) := by
  rw [State.horizonFilter_passes h hlate hearly]
  obtain ⟨hbin, hplanes⟩ := s.hitBinned_spec h hnew hrun
  generalize s.hitBinned h = v at *
  have htab (o : Nat) (ho : 0x2_0000 ≤ o) (ho' : o < 0x9_0000) : v.tabw o = s.tabw o := hbin.tab o ho (by unfold oRx; omega)
  have hnone : ({ v with rxOwed := (passOwed v.rxOwed h).2 } : State).capsOf h.src = [] := by
    refine (State.capsOf_congr (s := s) (z := v) hbin.caps hlt (fun o ho ho' => htab o (by omega) (by omega)) h.src).trans hcaps
  have hc := State.hitConsumers_spec { v with rxOwed := (passOwed v.rxOwed h).2 } (passOwed v.rxOwed h).1 hnone
  dsimp only at hc
  obtain ⟨hlanes, hcond, hpl, hcap, hctx, habove, hin⟩ := hc
  generalize State.hitConsumers _ _ = z at *
  dsimp only
  refine ⟨hlanes.trans hbin.lanes, hcond.trans hbin.condIn, hcap.trans hbin.caps, hctx.trans hbin.ctxs, ?_, ?_, fun p hp => ?_⟩
  · rw [habove _ (by unfold oRx; omega)]
    exact hbin.tab _ (by unfold oRx; omega) (by unfold oRx; omega)
  · have hany := State.any_slotNames_congr (s := s) (z := v) hbin.meas hslots (fun o ho ho' => htab o (by omega) (by omega)) h.src
    rw [hin, ← hany, ← hbin.rxOwed, ← hbin.laneIn]
    rfl
  · have hp' : z.plane p = v.plane p := by
      rw [State.plane, hpl]
      rfl
    rw [hp']
    exact hplanes p hp

/-! ### A hit that leaves the buffer -/

theorem State.condUses_congr (hctxs : z.ctxs = s.ctxs) (hrun : ∀ c ∈ s.runningCtxs, c < 512) (htab : ∀ o, o < 0x2_0000 → z.tabw o = s.tabw o) (src : Nat) :
    z.condUses src = s.condUses src := by
  have hone (c : Nat) (hc : c < 512) : (z.ctxBit c 27 && (List.range 16).any fun k => decide (selKind (z.csel c k) ≤ 1) && decide (selSrc (z.csel c k) = src)) =
      (s.ctxBit c 27 && (List.range 16).any fun k => decide (selKind (s.csel c k) ≤ 1) && decide (selSrc (s.csel c k) = src)) := by
    have hword (w : Nat) (hw : w < 64) : z.tabw (oCtx c w) = s.tabw (oCtx c w) := htab _ (by unfold oCtx; omega)
    have hsel (k : Nat) (hk : k < 16) : z.csel c k = s.csel c k := by
      unfold State.csel State.tfld
      rw [hword (4 + k / 2) (by omega)]
    have hany : ((List.range 16).any fun k => decide (selKind (z.csel c k) ≤ 1) && decide (selSrc (z.csel c k) = src)) =
        (List.range 16).any fun k => decide (selKind (s.csel c k) ≤ 1) && decide (selSrc (s.csel c k) = src) := by
      rw [Bool.eq_iff_iff, List.any_eq_true, List.any_eq_true]
      exact ⟨fun ⟨k, hk, h⟩ => ⟨k, hk, hsel k (List.mem_range.mp hk) ▸ h⟩, fun ⟨k, hk, h⟩ => ⟨k, hk, (hsel k (List.mem_range.mp hk)).symm ▸ h⟩⟩
    rw [hany]
    unfold State.ctxBit State.tbit
    rw [hword 0 (by decide)]
  unfold State.condUses
  rw [State.runningCtxs_congr hctxs, Bool.eq_iff_iff, List.any_eq_true, List.any_eq_true]
  exact ⟨fun ⟨c, hc, h⟩ => ⟨c, hc, hone c (hrun c hc) ▸ h⟩, fun ⟨c, hc, h⟩ => ⟨c, hc, (hone c (hrun c hc)).symm ▸ h⟩⟩

/-- The state in which the horizon filter meets a hit. -/
structure Rebased (h : Stamp) (n : Nat) (r : List LaneWord) (s z : State) : Prop where
  buf : (z.lane n).buf = r
  condIn : z.condIn = if s.condUses h.src then s.condIn ++ [.edge h] else s.condIn
  planes : z.planes = s.planes
  laneIn : z.laneIn = s.laneIn
  rxOwed : z.rxOwed = s.rxOwed
  caps : z.caps = s.caps
  ctxs : z.ctxs = s.ctxs
  meas : z.meas = s.meas
  now : z.now = s.now
  solEdge : z.solEdge = s.solEdge
  seq : z.tabw (oRx h.src 0) = BitVec.ofNat 32 (h.seq + 1)
  tab : s.TabBut [oRx h.src 0, oTile n 18, oTile n 19] z
  reg : ∀ b, ra (sReb (tileDie n)) 0x02C ≠ b → ra (sReb (tileDie n)) 0x030 ≠ b → z.reg b = s.reg b

theorem State.rebaseHit_hit {e : LaneWord} {r : List LaneWord} (hn : n < 64) (hbuf : (s.lane n).buf = e :: r) (hkept : s.tileWhy n = s.tfld (oTile n 8) 3 3)
    (hkind : nfld e.w.toNat 62 2 = 1) (hrun : ∀ c ∈ s.runningCtxs, c < 512) : ∃ y, s.rebaseHit n = y.horizonFilter (s.rebase n e.at' e.w).1 ∧
      Rebased (s.rebase n e.at' e.w).1 n r s y := by
  obtain ⟨hside, hseq, hbut, hreg⟩ := (s.popped n r).rebased_spec hn e.at' e.w
  obtain ⟨l, hl⟩ := s.popped_lane n r
  have hpop : ∃ m, s.popped n r = { s with lanes := m } := ⟨_, rfl⟩
  have hsrc : (s.rebase n e.at' e.w).1.src = 64 * n + nfld e.w.toNat 56 6 := rfl
  rw [State.popped_rebase] at hseq hbut
  refine ⟨_, (State.rebaseHit_word hbuf hkept).trans ((if_pos hkind).trans (by rw [State.popped_rebase]; rfl)), ?_⟩
  generalize ((s.popped n r).rebase n e.at' e.w).2 = y at *
  generalize (s.rebase n e.at' e.w).1 = h at *
  have huses : y.condUses h.src = s.condUses h.src := by
    refine State.condUses_congr hside.ctxs hrun (fun o ho => hbut o fun hmem => ?_) h.src
    rw [List.mem_cons, List.mem_cons, List.mem_singleton] at hmem
    unfold oRx oTile at hmem
    omega
  have hlane : (y.lane n).buf = r := by
    rw [State.lane, hside.lanes, ← State.lane, hl]
  have hcond : y.condIn = s.condIn := hside.condIn
  rw [huses]
  by_cases huse : s.condUses h.src = true
  · rw [if_pos huse]
    exact ⟨hlane, (congrArg (· ++ [CondEv.edge h]) hcond).trans (if_pos huse).symm, hside.planes, hside.laneIn, hside.rxOwed, hside.caps, hside.ctxs, hside.meas, hside.now, hside.solEdge,
      hseq, hbut, hreg⟩
  · rw [if_neg huse]
    exact ⟨hlane, hcond.trans (if_neg huse).symm, hside.planes, hside.laneIn, hside.rxOwed, hside.caps, hside.ctxs, hside.meas, hside.now, hside.solEdge, hseq, hbut, hreg⟩

theorem Rebased.phys {r : List LaneWord} (hr : Rebased h n r s z) : z.phys - z.horizon = s.phys - s.horizon ∧ z.phys = s.phys := by
  have hhor : z.horizon = s.horizon := by
    have hglb : z.reg (ra sGlb 0x034) = s.reg (ra sGlb 0x034) := hr.reg _ (by unfold ra; omega) (by unfold ra; omega)
    rw [State.horizon, State.rfld, hglb]
    rfl
  have hphys : z.phys = s.phys := by rw [State.phys, hr.now, State.phys]
  exact ⟨by rw [hhor, hphys], hphys⟩

end Sys2Proof.Machine
end

section
/-! Proofs about tile models, refresh points and released bins (R170 to R190, R199). -/

namespace Sys2Proof.Machine

variable {s x y z : State} {n k off b p : Nat} {w : Word64} {h : Stamp}

/-! ### A tile judged again -/

/-- The status word of a tile, field by field. -/
theorem tileWord_fields : ∀ why, why < 6 → ∀ a b c : Bool,
    fld (put why 3 3 ||| put (b2n a) 2 1 ||| put (b2n b) 1 1 ||| put (b2n c) 0 1) 3 3 = why ∧
    bit (put why 3 3 ||| put (b2n a) 2 1 ||| put (b2n b) 1 1 ||| put (b2n c) 0 1) 0 = c := by decide

theorem State.tileOfs_moded (h : s.tileMode n ≠ 0) : s.tileOfs n = s := by
  refine if_neg ?_
  rw [decide_eq_false h, Bool.false_and]
  exact Bool.false_ne_true

theorem State.tileWhy_lt (s : State) (n : Nat) : s.tileWhy n < 6 := by
  unfold State.tileWhy
  dsimp only
  split
  · decide
  · split
    · decide
    · split
      · decide
      · split
        · decide
        · split <;> decide

/-- A judgement leaves every point of the tile, and its words above the status. -/
theorem State.tileJudge_tile (s : State) (n : Nat) : ((s.tileJudge n).tile n).points = (s.tile n).points ∧
    ∀ w, 15 ≤ w → (s.tileJudge n).tabw (oTile n w) = s.tabw (oTile n w) := by
  have hreach (fresh : Bool) : (((s.tileShown n).tileReached n fresh).tile n).points = (s.tile n).points ∧
      ∀ w, 15 ≤ w → ((s.tileShown n).tileReached n fresh).tabw (oTile n w) = s.tabw (oTile n w) := by
    have hshown : (s.tileShown n).tile n = s.tile n := by rw [State.tile, s.tileShown_tiles n, State.tile]
    unfold State.tileReached
    split
    · refine ⟨?_, fun w hw => s.tileShown_tabw n hw⟩
      rw [State.setTile_same]
      show ((s.tileShown n).tile n).points = (s.tile n).points
      rw [hshown]
    · exact ⟨congrArg Tile.points hshown, fun w hw => s.tileShown_tabw n hw⟩
  have hevt (u : State) (b : Nat) (hu : (u.tile n).points = (s.tile n).points ∧ ∀ w, 15 ≤ w → u.tabw (oTile n w) = s.tabw (oTile n w)) :
      ((u.evt (sReb (tileDie n)) b).tile n).points = (s.tile n).points ∧ ∀ w, 15 ≤ w → (u.evt (sReb (tileDie n)) b).tabw (oTile n w) = s.tabw (oTile n w) := by
    obtain ⟨_, _, _, _, _, he⟩ := u.evt_side (sReb (tileDie n)) b
    rw [he]
    exact hu
  have hjudged : ((s.tileJudged n).tile n).points = (s.tile n).points ∧ ∀ w, 15 ≤ w → (s.tileJudged n).tabw (oTile n w) = s.tabw (oTile n w) := by
    rw [State.tileJudged_eq]
    dsimp only
    split
    · exact hevt _ 0 (hreach _)
    · split
      · exact hevt _ 1 (hreach _)
      · exact hreach _
  unfold State.tileJudge
  dsimp only
  split
  · exact hevt _ 2 hjudged
  · exact hjudged

/-- What a judgement of a tile that is not distributed shows. -/
theorem State.tileJudge_shows (s : State) (h : s.tileMode n ≠ 0) :
    let z := s.tileJudge n
    z.tfld (oTile n 8) 3 3 = s.tileWhy n ∧ z.tbit (oTile n 8) 0 = decide (s.tileWhy n = 0) ∧
    (s.tbit (oTile n 8) 0 = true → s.tileWhy n ≠ 0 → bit (z.reg (ra (sReb (tileDie n)) 0x008)) 0 = true) ∧
    (s.tbit (oTile n 8) 0 = false → s.tileWhy n = 0 → bit (z.reg (ra (sReb (tileDie n)) 0x008)) 1 = true) ∧ z.planes = s.planes := by
  have hofs := State.tileOfs_moded h
  have hword : (s.tileShown n).tabw (oTile n 8) = put (s.tileWhy n) 3 3 ||| put (b2n (s.haveModel n)) 2 1 ||| put (b2n (s.tileAbsent n)) 1 1 |||
      put (b2n (decide (s.tileWhy n = 0))) 0 1 := by
    unfold State.tileShown
    rw [hofs, ((State.setRfld_side _ _ _ _ _ _).trans (State.setRfld_side _ _ _ _ _ _)).tabw, State.setTabw_tabw_same]
  have hreach (fresh : Bool) : ((s.tileShown n).tileReached n fresh).tabw (oTile n 8) = (s.tileShown n).tabw (oTile n 8) := by
    unfold State.tileReached
    split
    · rfl
    · rfl
  have hside := s.tileJudge_tileSide n
  have hevt (u : State) (b : Nat) : (u.evt (sReb (tileDie n)) b).tabw (oTile n 8) = u.tabw (oTile n 8) := (u.evt_side _ b).tabw _
  have hjudged : (s.tileJudged n).tabw (oTile n 8) = (s.tileShown n).tabw (oTile n 8) ∧
      (s.tbit (oTile n 8) 0 = true → s.tileWhy n ≠ 0 → bit ((s.tileJudged n).reg (ra (sReb (tileDie n)) 0x008)) 0 = true) ∧
      (s.tbit (oTile n 8) 0 = false → s.tileWhy n = 0 → bit ((s.tileJudged n).reg (ra (sReb (tileDie n)) 0x008)) 1 = true) := by
    rw [State.tileJudged_eq, hofs]
    dsimp only
    have hreach' := hreach (decide (s.tileWhy n = 0))
    generalize (s.tileShown n).tileReached n (decide (s.tileWhy n = 0)) = v at hreach' ⊢
    by_cases hwhy : s.tileWhy n = 0
    · rw [decide_eq_true hwhy]
      cases s.tbit (oTile n 8) 0 with
      | true => exact ⟨hreach', fun _ hne => absurd hwhy hne, fun hne => Bool.noConfusion hne⟩
      | false => exact ⟨(hevt v 1).trans hreach', fun hne => Bool.noConfusion hne, fun _ _ => State.evt_bit _ (by decide)⟩
    · rw [decide_eq_false hwhy]
      cases s.tbit (oTile n 8) 0 with
      | true => exact ⟨(hevt v 0).trans hreach', fun _ _ => State.evt_bit _ (by decide), fun hne => Bool.noConfusion hne⟩
      | false => exact ⟨hreach', fun hne => Bool.noConfusion hne, fun _ he => absurd he hwhy⟩
  obtain ⟨htab, hstale, hfresh⟩ := hjudged
  obtain ⟨hcode, hbit⟩ := tileWord_fields (s.tileWhy n) (s.tileWhy_lt n) (s.haveModel n) (s.tileAbsent n) (decide (s.tileWhy n = 0))
  have hlast : (s.tileJudge n).tabw (oTile n 8) = (s.tileShown n).tabw (oTile n 8) ∧
      (s.tbit (oTile n 8) 0 = true → s.tileWhy n ≠ 0 → bit ((s.tileJudge n).reg (ra (sReb (tileDie n)) 0x008)) 0 = true) ∧
      (s.tbit (oTile n 8) 0 = false → s.tileWhy n = 0 → bit ((s.tileJudge n).reg (ra (sReb (tileDie n)) 0x008)) 1 = true) := by
    unfold State.tileJudge
    dsimp only
    split
    · exact ⟨(hevt _ 2).trans htab, fun hb hw => State.evt_bit_keep _ _ _ (hstale hb hw), fun hb hw => State.evt_bit_keep _ _ _ (hfresh hb hw)⟩
    · exact ⟨htab, hstale, hfresh⟩
  obtain ⟨htab', hstale', hfresh'⟩ := hlast
  refine ⟨?_, ?_, hstale', hfresh', ?_⟩
  · rw [State.tfld, htab', hword]
    exact hcode
  · rw [State.tbit, htab', hword]
    exact hbit
  · obtain ⟨_, _, _, _, _, _, _, hx⟩ := hside
    rw [hx]

theorem State.tileAge_changed (h : s.tileWhy n ≠ s.tfld (oTile n 8) 3 3) : s.tileAge n = s.tileJudge n := if_neg h

/-- Why the model of a present tile with a model that fits is stale: its age alone. -/
theorem State.tileWhy_aged {r : Int} (h : s.tileMode n ≠ 0) (href : (s.tile n).refP = some r) (habs : s.tileAbsent n = false)
    (hsol : (s.tile n).solGone = false) (hmodel : s.haveModel n = true) (hres : (s.tile n).resBad = false) :
    s.tileWhy n = if (s.tfld (oTile n 1) 0 24 : Int) * 4_000_000 < s.phys - r then 2 else 0 := by
  unfold State.tileWhy State.tileAged
  dsimp only
  rw [habs, hsol, hmodel, hres, href, decide_eq_false h]
  by_cases hage : (s.tfld (oTile n 1) 0 24 : Int) * 4_000_000 < s.phys - r
  · rw [if_pos hage]
    simp [hage]
  · rw [if_neg hage]
    simp [hage]

/-! ### A refresh point of a marker-only tile -/

/-- The tile as its first refresh point finds it. -/
theorem State.tileBefore_spec (s : State) (n : Nat) : (∃ m, s.tileBefore n = { s with tiles := m }) ∧ ((s.tileBefore n).tile n).points = (s.tile n).points := by
  unfold State.tileBefore
  dsimp only
  split
  · exact ⟨⟨_, rfl⟩, rfl⟩
  · refine ⟨⟨_, rfl⟩, ?_⟩
    rw [State.setTile_same]

/-- A first refresh point starts the fit. -/
theorem State.tileFitPoint_first (s : State) (n : Nat) (p : Nat × Nat) (h : (s.tile n).points = []) :
    s.tileFitPoint n p = s.setTile n { s.tile n with points := [p] } := by
  have hfit : ∃ m, s.tileFit n = m + 1 := ⟨s.tileFit n - 1, (Nat.succ_pred_eq_of_pos (Nat.two_pow_pos _)).symm⟩
  obtain ⟨m, hm⟩ := hfit
  unfold State.tileFitPoint
  dsimp only
  have hnew : decide (2 ≤ ([] : List (Nat × Nat)).length) = false := rfl
  rw [h, hm, hnew, List.take_succ_cons, List.take_nil, Bool.false_and]
  exact (if_neg Bool.false_ne_true).trans (if_pos Nat.one_lt_two)

/-- A refresh point of a fitted tile, dated and taken into the fit. -/
def State.pointTaken (s : State) (n : Nat) (p : Nat × Nat) : State :=
  (s.setTile n { s.tile n with refP := some (s.physOf p.1) }).tileFitPoint n p

theorem State.pointTaken_first (s : State) (n : Nat) (p : Nat × Nat) (h : (s.tile n).points = []) :
    s.pointTaken n p = (s.setTile n { s.tile n with refP := some (s.physOf p.1) }).setTile n { s.tile n with refP := some (s.physOf p.1), points := [p] } := by
  have hsame := s.setTile_same n { s.tile n with refP := some (s.physOf p.1) }
  unfold State.pointTaken
  rw [State.tileFitPoint_first, hsame]
  rw [hsame]
  exact h

/-- A first refresh point of a tile whose points are fitted. -/
theorem State.tilePoint_first (s : State) (n : Nat) (p : Nat × Nat) (habs : s.tileAbsent n = false) (hmode : s.tileMode n ≠ 0) (h : (s.tile n).points = []) :
    TileSide s (s.tilePoint n p) ∧ ((s.tilePoint n p).tile n).points = [p] ∧
      (s.tilePoint n p).tab64 (oTile n 26) = min (s.tab64 (oTile n 26) + 1) (2 ^ 64 - 1) := by
  obtain ⟨⟨m, hbefore⟩, hpts⟩ := s.tileBefore_spec n
  have hpoint : s.tilePoint n p = ((((s.tileBefore n).setTab64 (oTile n 16) p.1).tbump64 (oTile n 26) 1).pointTaken n p).tileJudge n := by
    unfold State.tilePoint
    rw [habs]
    exact congrArg (State.tileJudge · n) (if_neg hmode)
  obtain ⟨m16, h16⟩ := (s.tileBefore n).setTab64_eq (oTile n 16) p.1
  obtain ⟨m26, h26⟩ := ((s.tileBefore n).setTab64 (oTile n 16) p.1).tbump64_eq (oTile n 26) 1
  have hcount : (((s.tileBefore n).setTab64 (oTile n 16) p.1).tbump64 (oTile n 26) 1).tab64 (oTile n 26) = min (s.tab64 (oTile n 26) + 1) (2 ^ 64 - 1) := by
    rw [State.tbump64, State.setTab64_tab64_same, State.setTab64_tab64_ne _ _ (by unfold oTile; omega), hbefore]
    exact Nat.mod_eq_of_lt (lt_of_le_of_lt (min_le_right _ _) (by decide))
  have hside : TileSide s (((s.tileBefore n).setTab64 (oTile n 16) p.1).tbump64 (oTile n 26) 1) := by
    rw [h26, h16, hbefore]
    exact ⟨_, _, _, _, _, _, _, rfl⟩
  have hempty : ((((s.tileBefore n).setTab64 (oTile n 16) p.1).tbump64 (oTile n 26) 1).tile n).points = [] := by
    rw [h26, h16]
    exact hpts.trans h
  generalize ((s.tileBefore n).setTab64 (oTile n 16) p.1).tbump64 (oTile n 26) 1 = y at *
  obtain ⟨hpt, htab⟩ := (y.pointTaken n p).tileJudge_tile n
  have htaken := y.pointTaken_first n p hempty
  have hjudge := (y.pointTaken n p).tileJudge_tileSide n
  rw [hpoint]
  refine ⟨?_, ?_, ?_⟩
  · rw [htaken] at hjudge ⊢
    exact ((hside.trans (y.setTile_tileSide _ _)).trans (State.setTile_tileSide _ _ _)).trans hjudge
  · rw [hpt, htaken, State.setTile_same]
  · rw [State.tab64, htab 26 (by decide), htab 27 (by decide), htaken]
    exact hcount

/-- A MARK of a marker-only tile that leaves the buffer is a refresh point. -/
theorem State.rebaseHit_mark {e : LaneWord} {r : List LaneWord} (hbuf : (s.lane n).buf = e :: r) (hkept : s.tileWhy n = s.tfld (oTile n 8) 3 3)
    (hkind : nfld e.w.toNat 62 2 = 2) (hmode : s.tileMode n = 2) (hat : s.solEdge ≤ e.at') :
    ∃ q, s.rebaseHit n = (s.popped n r).tilePoint n q := by
  have hnot : ¬ nfld e.w.toNat 62 2 = 1 := by
    rw [hkind]
    decide
  exact ⟨_, (State.rebaseHit_word hbuf hkept).trans ((if_neg hnot).trans (if_pos ⟨hmode, hat⟩))⟩

/-! ### A bin that leaves its grid -/

/-- The counts of one bin, by receiver. -/
theorem Sparse.get_binCounts (l : List (Nat × Nat)) (b : Nat) {r : Nat} (hr : r < 4096) :
    Sparse.get 0 ((l.filter fun e => decide (e.1 / 4096 = b)).map fun e => (e.1 % 4096, e.2)) r = Sparse.get 0 l (r + 4096 * b) := by
  induction l with
  | nil => rfl
  | cons e l ih =>
    obtain ⟨k, v⟩ := e
    by_cases hb : k / 4096 = b
    · rw [List.filter_cons_of_pos (by exact decide_eq_true hb), List.map_cons, Sparse.get, Sparse.get, ih]
      have hiff : k % 4096 = r ↔ k = r + 4096 * b := by omega
      simp only [hiff]
    · rw [List.filter_cons_of_neg (by simpa using hb), ih, Sparse.get, if_neg (by omega)]

/-- Tiles added to a mask. -/
theorem lostMask_fold (l : List (Nat × Tile)) (f : Nat × Tile → Bool) (m : Nat) :
    (∀ i, m.testBit i = true → (l.foldl (fun m e => if f e then m ||| 2 ^ e.1 else m) m).testBit i = true) ∧
    ∀ e ∈ l, f e = true → (l.foldl (fun m e => if f e then m ||| 2 ^ e.1 else m) m).testBit e.1 = true := by
  induction l generalizing m with
  | nil => exact ⟨fun _ h => h, fun _ h => absurd h List.not_mem_nil⟩
  | cons d l ih =>
    rw [List.foldl_cons]
    obtain ⟨hkeep, hset⟩ := ih (if f d then m ||| 2 ^ d.1 else m)
    refine ⟨fun i hi => hkeep i ?_, fun e he hf => ?_⟩
    · split
      · rw [Nat.testBit_or, hi, Bool.true_or]
      · exact hi
    · obtain rfl | hmem := List.mem_cons.mp he
      · refine hkeep _ ?_
        rw [if_pos hf, Nat.testBit_or, Nat.testBit_two_pow_self, Bool.or_true]
      · exact hset e hmem hf

/-- A released bin shows the marks of its hits and every tile whose lost mark is open. -/
theorem State.lostMask_spec (s : State) (marks : Nat) (start : Int) : (∀ i, marks.testBit i = true → (s.lostMask marks start).testBit i = true) ∧
    ∀ e ∈ s.tiles, e.2.lostOpen = true → (s.lostMask marks start).testBit e.1 = true := by
  obtain ⟨hkeep, hset⟩ := lostMask_fold s.tiles (fun e => e.2.lostOpen || (match e.2.freshAt with
      | some p => decide (start < p)
      | none => false)) marks
  exact ⟨hkeep, fun e he hopen => hset e he (by rw [hopen, Bool.true_or])⟩

/-- What forming beams changes: counters of the beam pages and the beam table. -/
theorem State.formBeams_spec (s : State) (p : Nat) (hist : List Released) : (s.formBeams p hist).planes = s.planes ∧
    (s.formBeams p hist).caps = s.caps ∧ (s.formBeams p hist).ctxs = s.ctxs ∧
    ∀ a, a / 0x400 ≠ sBeam 0 → a / 0x400 ≠ sBeam 1 → (s.formBeams p hist).reg a = s.reg a := by
  refine State.each_induct (P := fun u => u.planes = s.planes ∧ u.caps = s.caps ∧ u.ctxs = s.ctxs ∧
    ∀ a, a / 0x400 ≠ sBeam 0 → a / 0x400 ≠ sBeam 1 → u.reg a = s.reg a) (fun u e _ hu => ?_) ⟨rfl, rfl, rfl, fun _ _ _ => rfl⟩
  obtain ⟨hplanes, hcaps, hctxs, hregs⟩ := hu
  have hside : Side u ((u.bump64 (sBeam 0) 0x020 1).bump64 (sBeam 1) 0x020 1) := (State.bump64_side _ _ _ _).trans (State.bump64_side _ _ _ _)
  have hreg (a : Nat) (h0 : a / 0x400 ≠ sBeam 0) (h1 : a / 0x400 ≠ sBeam 1) : ((u.bump64 (sBeam 0) 0x020 1).bump64 (sBeam 1) 0x020 1).reg a = s.reg a := by
    rw [State.bump64_reg (ra_ne_of_page (by decide) h1) (ra_ne_of_page (by decide) h1), State.bump64_reg (ra_ne_of_page (by decide) h0) (ra_ne_of_page (by decide) h0)]
    exact hregs a h0 h1
  dsimp only
  generalize (u.bump64 (sBeam 0) 0x020 1).bump64 (sBeam 1) 0x020 1 = v at hside hreg ⊢
  have hv : v.planes = s.planes ∧ v.caps = s.caps ∧ v.ctxs = s.ctxs := by
    obtain ⟨_, _, _, _, _, rfl⟩ := hside
    exact ⟨hplanes, hcaps, hctxs⟩
  split
  · have hsat : Side (v.tbump (oBeam e 1) 1) (((v.tbump (oBeam e 1) 1).bump64 (sBeam 0) 0x028 1).evt (sBeam 0) 0) :=
      (State.bump64_side _ _ _ _).trans (State.evt_side _ _ _)
    have hregs' (a : Nat) (h0 : a / 0x400 ≠ sBeam 0) (h1 : a / 0x400 ≠ sBeam 1) :
        (((v.tbump (oBeam e 1) 1).bump64 (sBeam 0) 0x028 1).evt (sBeam 0) 0).reg a = s.reg a := by
      rw [State.evt_reg_page _ h0, State.bump64_reg (ra_ne_of_page (by decide) h0) (ra_ne_of_page (by decide) h0)]
      exact hreg a h0 h1
    obtain ⟨r, e', pb, o, b', hx⟩ := hsat
    refine ⟨?_, ?_, ?_, hregs'⟩
    · rw [hx]
      exact hv.1
    · rw [hx]
      exact hv.2.1
    · rw [hx]
      exact hv.2.2
  · exact ⟨hv.1, hv.2.1, hv.2.2, hreg⟩

/-- A plane whose history takes a bin. -/
def Plane.shifted (k : Plane) (x : Released) : Plane := { k with hist := (x :: k.hist).take 64 }

/-- A bin released while no context runs. -/
theorem State.releaseBin_spec (s : State) (hp : p < 4) (b orig : Nat) (x : Released) (hrun : s.runningCtxs = []) :
    let z := s.releaseBin p b orig x
    z.caps = s.caps ∧ z.ctxs = s.ctxs ∧ z.plane p = ((s.plane p).shifted x) ∧
    (∀ q, q ≠ p → z.plane q = s.plane q) ∧ z.reg64 (sBin p) 0x020 = min (s.reg64 (sBin p) 0x020 + 1) (2 ^ 64 - 1) := by
  have hset := s.setPlane_same p ((s.plane p).shifted x)
  have hne (q : Nat) (hq : q ≠ p) := s.setPlane_ne ((s.plane p).shifted x) (fun e => hq e.symm)
  have hside := State.bump64_side (s.setPlane p ((s.plane p).shifted x)) (sBin p) 0x020 1
  have hcount : ((s.setPlane p ((s.plane p).shifted x)).bump64 (sBin p) 0x020 1).reg64 (sBin p) 0x020 =
      min (s.reg64 (sBin p) 0x020 + 1) (2 ^ 64 - 1) := State.reg64_bump64 _ _ _ _
  have hshape : s.releaseBin p b orig x = (State.formBeams ((s.setPlane p ((s.plane p).shifted x)).bump64 (sBin p) 0x020 1) p
      (((s.setPlane p ((s.plane p).shifted x)).bump64 (sBin p) 0x020 1).plane p).hist).deliverBin p b orig := rfl
  rw [hshape]
  have hkeep : ∀ v : State, Side (s.setPlane p ((s.plane p).shifted x)) v →
      v.planes = (s.setPlane p ((s.plane p).shifted x)).planes ∧ v.caps = s.caps ∧ v.ctxs = s.ctxs := by
    rintro v ⟨_, _, _, _, _, rfl⟩
    exact ⟨rfl, rfl, rfl⟩
  obtain ⟨hpl, hcaps, hctxs⟩ := hkeep _ hside
  generalize (s.setPlane p ((s.plane p).shifted x)).bump64 (sBin p) 0x020 1 = v at hpl hcaps hctxs hcount ⊢
  obtain ⟨hplanes, hcaps', hctxs', hregs⟩ := v.formBeams_spec p (v.plane p).hist
  generalize v.formBeams p (v.plane p).hist = z at hplanes hcaps' hctxs' hregs ⊢
  have hnone : z.runningCtxs = [] := (State.runningCtxs_congr (hctxs'.trans hctxs)).trans hrun
  have hdeliver : z.deliverBin p b orig = z := by
    unfold State.deliverBin
    rw [hnone, List.filter_nil, State.each_nil]
  have hplane (q : Nat) : z.plane q = (s.setPlane p ((s.plane p).shifted x)).plane q := by
    rw [State.plane, hplanes, hpl]
    rfl
  have hbin (i : Nat) (hi : i < 0x400) : z.reg (ra (sBin p) i) = v.reg (ra (sBin p) i) := by
    refine hregs _ ?_ ?_
    · rw [ra_div _ _ hi]
      unfold sBin sBeam
      omega
    · rw [ra_div _ _ hi]
      unfold sBin sBeam
      omega
  rw [hdeliver]
  refine ⟨hcaps'.trans hcaps, hctxs'.trans hctxs, (hplane p).trans hset, fun q hq => (hplane q).trans (hne q hq), ?_⟩
  rw [State.reg64, hbin _ (by decide), hbin _ (by decide)]
  exact hcount

theorem State.binRelease_idle (h : (s.plane p).active = false) : s.binRelease p = s := by
  unfold State.binRelease
  dsimp only
  rw [h]
  rfl

/-- The end of the next bin of a plane's present grid. -/
def State.binStop (s : State) (p : Nat) : Int := 2000 * (s.solEdge : Int) + (((s.plane p).grid.next + 1) * s.planeW p : Nat)

/-- The next bin of a plane's present grid, and the grid without it. -/
def State.nextBin (s : State) (p : Nat) : Released × Grid :=
  s.takeBin (s.plane p).grid (2000 * (s.solEdge : Int) + ((s.plane p).grid.next * s.planeW p : Nat))

/-- A plane without the bin that has left its grid. -/
def Plane.regrid (k : Plane) (g : Grid) : Plane := { k with grid := g }

theorem State.binRelease_new (h : (s.plane p).active = true) (hold : (s.plane p).old = []) : s.binRelease p =
    if s.phys - s.horizon < s.binStop p then s
    else (s.setPlane p ((s.plane p).regrid (s.nextBin p).2)).releaseBin p (s.plane p).grid.next s.solEdge (s.nextBin p).1 := by
  have hon : ¬ (!(s.plane p).active) = true := by
    rw [h]
    exact Bool.false_ne_true
  unfold State.binRelease
  dsimp only
  refine (if_neg hon).trans ?_
  split
  next heq => exact absurd (hold.symm.trans heq) (List.cons_ne_nil _ _).symm
  · rfl

/-- The next bin of a plane that leaves its grid while no context runs. -/
theorem State.binReleased_spec (s : State) (hp : p < 4) (hrun : s.runningCtxs = []) :
    let k := s.plane p
    let z := (s.setPlane p (k.regrid (s.nextBin p).2)).releaseBin p k.grid.next s.solEdge (s.nextBin p).1
    z.caps = s.caps ∧ z.ctxs = s.ctxs ∧ z.plane p = (k.regrid (s.nextBin p).2).shifted (s.nextBin p).1 ∧ (∀ q, q ≠ p → z.plane q = s.plane q) ∧
    z.reg64 (sBin p) 0x020 = min (s.reg64 (sBin p) 0x020 + 1) (2 ^ 64 - 1) := by
  intro k z
  have hset := s.setPlane_same p (k.regrid (s.nextBin p).2)
  obtain ⟨hcaps, hctxs, hplane, hother, hcount⟩ :=
    (s.setPlane p (k.regrid (s.nextBin p).2)).releaseBin_spec hp k.grid.next s.solEdge (s.nextBin p).1 hrun
  rw [hset] at hplane
  exact ⟨hcaps, hctxs, hplane, fun q hq => (hother q hq).trans (s.setPlane_ne _ fun e => hq e.symm), hcount⟩

/-! ### The obligation -/

/-- A beam's value lies in its 8 bits, and is the rounded sum where it has not saturated. -/
theorem beamQuant_spec (sum : Int) (k : Nat) : (beamQuant sum k).1 ≤ 127 ∧ -128 ≤ (beamQuant sum k).1 ∧
    ((beamQuant sum k).2 = false → 0 < k → 2 ^ k * (beamQuant sum k).1 ≤ sum + 2 ^ (k - 1) ∧ sum + 2 ^ (k - 1) < 2 ^ k * (beamQuant sum k).1 + 2 ^ k) ∧
    ((beamQuant sum k).2 = true → (beamQuant sum k).1 = 127 ∨ (beamQuant sum k).1 = -128) := by
  unfold beamQuant
  dsimp only
  generalize hv : (if k = 0 then sum else (sum + 2 ^ (k - 1)) / 2 ^ k) = v
  split
  · exact ⟨le_refl _, by decide, fun h => absurd h (by decide), fun _ => Or.inl rfl⟩
  · split
    · exact ⟨by decide, le_refl _, fun h => absurd h (by decide), fun _ => Or.inr rfl⟩
    next hhi hlo =>
      refine ⟨not_lt.mp hhi, not_lt.mp hlo, fun _ hk => ?_, fun h => Bool.noConfusion h⟩
      dsimp only
      rw [if_neg (Nat.pos_iff_ne_zero.mp hk)] at hv
      rw [← hv]
      have hpos : (0 : Int) < 2 ^ k := by positivity
      have hdiv := Int.mul_ediv_add_emod (sum + 2 ^ (k - 1)) (2 ^ k)
      have hge := Int.emod_nonneg (sum + 2 ^ (k - 1)) hpos.ne'
      have hlt := Int.emod_lt_of_pos (sum + 2 ^ (k - 1)) hpos
      constructor
      · linarith
      · linarith

/-- Settles O50, by the branch that a hit, a mark, a tile's age or a bin's end takes. -/
theorem rebaseAndBins : Obligations.RebaseAndBins := by
  refine ⟨fun s t n hpow hset hrun hslots hcapsLt => ?_, fun s t p hpow hset => ?_, fun sum k => beamQuant_spec sum k⟩
  · intro u x pg why kept
    have hsetu : u.Settled := hset.of_eq rfl rfl
    refine ⟨fun hbuf => ?_, fun e r hbuf hkept hkind => ?_, fun e r hbuf hkept hkind habs hmode hat hpts => ?_, fun hkept => ?_, fun hmode => ⟨fun r href habs hsol hmodel hres => ?_, fun hkept => ?_⟩⟩
    · refine next_of hpow (exec_rebaseHit t n s) (x := u) ?_ (Quiet.refl _)
      rw [State.rebaseHit_nil (s := u) hbuf]
      exact State.settle_id hsetu
    · intro h took
      obtain ⟨hsrc, hrise, hwhy, hlost, hseq⟩ := u.rebase_stamp n e.at' e.w
      have hsrcLt : h.src < 4096 := by
        have hfld : nfld e.w.toNat 56 6 < 64 := Nat.mod_lt _ (by decide)
        have hn := n.isLt
        rw [show h.src = _ from hsrc]
        omega
      have hdie : h.src / 64 = n := by
        have hfld : nfld e.w.toNat 56 6 < 64 := Nat.mod_lt _ (by decide)
        rw [show h.src = _ from hsrc]
        omega
      obtain ⟨y, hy, hreb⟩ := State.rebaseHit_hit (s := u) n.isLt hbuf hkept hkind hrun
      obtain ⟨hphys, hnow⟩ := hreb.phys
      have hrunY : ∀ c ∈ y.runningCtxs, c < 512 := by
        rw [State.runningCtxs_congr hreb.ctxs]
        exact hrun
      have hnext : BitVec.ofNat 32 (h.seq + 1) = s.tabw (oRx h.src 0) + 1 := by
        rw [show h.seq = _ from hseq]
        exact (BitVec.ofNat_add _ _).trans (congrArg (· + 1) ((BitVec.ofNat_toNat _ _).trans (BitVec.setWidth_eq _)))
      have hfin (P : State → Prop) (hP : ∀ l, P ((y.horizonFilter h).wrapped s (max s.now t) l)) (hcaps : (y.horizonFilter h).caps = y.caps)
          (hctxs : (y.horizonFilter h).ctxs = y.ctxs) : Answers (.rebaseHit t n) s P := by
        refine answers_of_wrapped hpow (exec_rebaseHit t n s) fun l => ?_
        rw [show (s.advance t).rebaseHit n = _ from hy, State.settle_id (hsetu.of_eq (hcaps.trans hreb.caps) (hctxs.trans hreb.ctxs))]
        exact hP l
      refine ⟨hsrc, hrise, hwhy, hlost, fun hlate => ?_, fun hlate hearly => ?_, fun hlate hearly hnew hcaps => ?_⟩
      · have hspec := y.late_spec h (by rw [hphys]; exact hlate) hrunY
        dsimp only at hspec
        rw [hdie] at hspec
        obtain ⟨hlanes, hcond, hplanes, hin, howed, hcaps, hctxs, hr0, hr1, hcount, hbit⟩ := hspec
        refine hfin _ (fun l => ?_) hcaps hctxs
        generalize y.horizonFilter h = z at *
        have hbuf' : (z.lane n).buf = r := by rw [State.lane, hlanes]; exact hreb.buf
        have hone : y.tabw (oRx h.src 1) = s.tabw (oRx h.src 1) := hreb.tab _ (by
          rw [List.mem_cons, List.mem_cons, List.mem_singleton]
          have hn := n.isLt
          unfold oRx oTile
          omega)
        have hold (i : Nat) (hi : i < 0x02C) : y.reg (ra pg i) = s.reg (ra pg i) := hreb.reg _ (ra_off_ne (by omega) _) (ra_off_ne (by omega) _)
        refine ⟨⟨hbuf', hr0.trans (hreb.seq.trans hnext), hcond.trans hreb.condIn⟩, hplanes.trans hreb.planes, hin.trans hreb.laneIn, ?_, hbit, ?_,
          howed.trans (congrArg (oweDrop · h) hreb.rxOwed)⟩
        · refine Eq.trans hcount ?_
          rw [State.reg64, hold _ (by decide), hold _ (by decide)]
          rfl
        · rw [← hone]
          exact hr1
      · have hspec := y.early_spec h hsrcLt (by rw [hphys]; exact hlate) (by rw [hnow]; exact hearly) hrunY
        dsimp only at hspec
        rw [hdie] at hspec
        obtain ⟨hlanes, hcond, hplanes, hin, howed, hcaps, hctxs, hr0, hbit⟩ := hspec
        refine hfin _ (fun l => ?_) hcaps hctxs
        generalize y.horizonFilter h = z at *
        have hbuf' : (z.lane n).buf = r := by rw [State.lane, hlanes]; exact hreb.buf
        exact ⟨⟨hbuf', hr0.trans (hreb.seq.trans hnext), hcond.trans hreb.condIn⟩, hplanes.trans hreb.planes, hin.trans hreb.laneIn, hbit,
          howed.trans (congrArg (oweDrop · h) hreb.rxOwed)⟩
      · have hword (o : Nat) (ho : o < 0x8_0000) : y.tabw o = s.tabw o := hreb.tab _ (by
          rw [List.mem_cons, List.mem_cons, List.mem_singleton]
          unfold oRx oTile
          omega)
        have harmed : y.armedSlots = s.armedSlots := by rw [State.armedSlots, hreb.meas]; rfl
        have hnone : y.capsOf h.src = [] := (State.capsOf_congr hreb.caps hcapsLt (fun o _ ho => hword o (by omega)) h.src).trans hcaps
        have hspec := y.passed_spec h (by rw [hphys]; exact hlate) (by rw [hnow]; exact hearly) (by rw [hreb.solEdge]; exact hnew) hsrcLt hrunY
          (by rw [harmed]; exact hslots) (by rw [hreb.caps]; exact hcapsLt) hnone
        dsimp only at hspec
        rw [hdie] at hspec
        obtain ⟨hlanes, hcond, hcaps', hctxs, hr0, hin, hpl⟩ := hspec
        refine hfin _ (fun l => ?_) hcaps' hctxs
        generalize y.horizonFilter h = z at *
        have hbuf' : (z.lane n).buf = r := by rw [State.lane, hlanes]; exact hreb.buf
        have hplane (p : Nat) : y.plane p = s.plane p := by rw [State.plane, hreb.planes]; rfl
        have hany := State.any_slotNames_congr (s := s) (z := y) hreb.meas hslots (fun o _ ho => hword o (by omega)) h.src
        refine ⟨⟨hbuf', hr0.trans (hreb.seq.trans hnext), hcond.trans hreb.condIn⟩, ?_, fun p hp => ?_⟩
        · refine Eq.trans hin ?_
          rw [hany, hreb.laneIn, hreb.rxOwed]
          rfl
        · intro k b
          obtain ⟨hoff, hon⟩ := hpl p hp
          rw [hplane] at hoff hon
          have hwidth : y.planeW p = s.planeW p := by
            have hreg : y.reg (ra (sBin p) 0x014) = s.reg (ra (sBin p) 0x014) := by
              have hdieLe := tileDie_le n
              refine hreb.reg _ ?_ ?_
              · unfold ra sReb sBin
                omega
              · unfold ra sReb sBin
                omega
            rw [State.planeW, State.rfld, hreg]
            rfl
          have hhit : y.planeHit p h = (s.plane p).hit (s.planeW p) s.solEdge h := by rw [State.planeHit, hplane, hwidth, hreb.solEdge]; rfl
          rw [hhit] at hon
          refine ⟨fun hact => hoff hact, fun hact => ⟨hon hact, ?_⟩⟩
          have hgrid := congrArg (fun q : Plane => Sparse.get 0 q.grid.counts (h.src + 4096 * b)) (hon hact)
          refine Eq.trans hgrid ?_
          exact Sparse.get_set_same _ _ _ _
    · obtain ⟨q, hq⟩ := State.rebaseHit_mark (s := u) hbuf hkept hkind hmode hat
      obtain ⟨l, hl⟩ := u.popped_lane n r
      have habs' : (u.popped n r).tileAbsent n = false := by
        unfold State.tileAbsent
        rw [hl]
        exact habs
      have hmode' : (u.popped n r).tileMode n ≠ 0 := by
        rw [show (u.popped n r).tileMode n = 2 from hmode]
        decide
      obtain ⟨hside, hpoints, hcount⟩ := (u.popped n r).tilePoint_first n q habs' hmode' hpts
      have hlane := hside.lane n
      obtain ⟨_, _, _, _, _, _, _, hz⟩ := hside
      have hrest : ((u.popped n r).tilePoint n q).caps = u.caps ∧ ((u.popped n r).tilePoint n q).ctxs = u.ctxs ∧
          ((u.popped n r).tilePoint n q).planes = u.planes := by
        rw [hz]
        exact ⟨rfl, rfl, rfl⟩
      obtain ⟨hcaps, hctxs, hplanes⟩ := hrest
      refine answers_of_wrapped hpow (exec_rebaseHit t n s) fun l => ?_
      rw [show (s.advance t).rebaseHit n = _ from hq, State.settle_id (hsetu.of_eq hcaps hctxs)]
      generalize (u.popped n r).tilePoint n q = z at *
      refine ⟨?_, ?_, hcount, hplanes⟩
      · refine (congrArg Lane.buf hlane).trans ?_
        rw [hl]
      · exact congrArg List.length hpoints
    · exact next_of hpow (exec_modelAgeExpire t n s) (x := u) (State.tileAge_kept hkept) (Quiet.refl _)
    · exact State.tileWhy_aged (s := u) hmode href habs hsol hmodel hres
    · refine answers_of_wrapped hpow (exec_modelAgeExpire t n s) fun l => ?_
      have h := State.tileJudge_shows u hmode
      rw [show (s.advance t).tileAge n = _ from State.tileAge_changed (s := u) hkept]
      dsimp only at h
      generalize (s.advance t).tileJudge n = z at h ⊢
      exact h
  · intro u k stop
    have hsetu : u.Settled := hset.of_eq rfl rfl
    have hstay (h : u.binRelease p = u) : exec (.binRelease t p) s = .next u := by
      refine next_of hpow (exec_binRelease t p s) (x := u) ?_ (Quiet.refl _)
      rw [show (s.advance t).binRelease p = u from h]
      exact State.settle_id hsetu
    refine ⟨fun hoff => hstay (State.binRelease_idle (s := u) hoff), fun hon hold => ⟨fun hlim => ?_, fun hlim hrun => ?_⟩⟩
    · exact hstay ((State.binRelease_new (s := u) hon hold).trans (if_pos hlim))
    · obtain ⟨hcaps, hctxs, hplane, hother, hcount⟩ := u.binReleased_spec p.isLt hrun
      obtain ⟨hmarks, hopen⟩ := u.lostMask_spec (Sparse.get 0 k.grid.marks k.grid.next) (2000 * (u.solEdge : Int) + (k.grid.next * u.planeW p : Nat))
      have hbin : ∀ r, r < 4096 → Sparse.get 0 (u.nextBin p).1.counts r = Sparse.get 0 k.grid.counts (r + 4096 * k.grid.next) :=
        fun r hr => Sparse.get_binCounts k.grid.counts k.grid.next hr
      refine answers_of_wrapped hpow (exec_binRelease t p s) fun l => ?_
      rw [show (s.advance t).binRelease p = _ from (State.binRelease_new (s := u) hon hold).trans (if_neg (not_lt.mpr hlim)),
        State.settle_id (hsetu.of_eq hcaps hctxs)]
      generalize State.releaseBin _ _ _ _ _ = z at *
      refine ⟨congrArg (fun q : Plane => q.grid.next) hplane, ?_, ⟨(u.nextBin p).1, congrArg (fun q : Plane => q.hist.head?) hplane, hbin, hmarks, hopen⟩, hcount, hother⟩
      refine (congrArg (fun q : Plane => q.hist.length) hplane).trans ?_
      exact List.length_take

end Sys2Proof.Machine
end

section
/-! Proofs about the resident correlator: products, Harvests, blocks and array tiles that fail (R205 to R222, R16, R17). -/

namespace Sys2Proof.Machine

variable {s x y z : State} {n k off b p c : Nat}

/-! ### Products -/

theorem mem_nonzero {l : List Int} {i : Nat} {v : Int} : (i, v) ∈ nonzero l ↔ l[i]? = some v ∧ v ≠ 0 := by
  unfold nonzero
  rw [List.mem_map]
  constructor
  · rintro ⟨⟨v', i'⟩, hmem, heq⟩
    obtain ⟨rfl, rfl⟩ := Prod.mk.inj heq
    obtain ⟨hz, hne⟩ := List.mem_filter.mp hmem
    exact ⟨List.mem_zipIdx_iff_getElem?.mp hz, of_decide_eq_true hne⟩
  · rintro ⟨hget, hne⟩
    exact ⟨(v, i), List.mem_filter.mpr ⟨List.mem_zipIdx_iff_getElem?.mpr hget, decide_eq_true hne⟩, rfl⟩

/-- The products of a bin, one by one. -/
theorem mem_binProducts (beams : List Bool) (now : List Int) (past : List (List Int)) (key : Nat) (b : Bool) (v : Int) :
    (key, b, v) ∈ binProducts beams now past ↔ ∃ lag i j l vi vj, lag < 16 ∧ i ≤ j ∧ (now :: past)[lag]? = some l ∧ l[i]? = some vi ∧
      now[j]? = some vj ∧ vi ≠ 0 ∧ vj ≠ 0 ∧ key = 16 * pairIdx i j + lag ∧ b = (beams.getD i false || beams.getD j false) ∧ v = vi * vj := by
  unfold binProducts
  rw [List.mem_flatMap]
  constructor
  · rintro ⟨⟨l, lag⟩, hl, hmem⟩
    obtain ⟨⟨j, vj⟩, hj, hmem⟩ := List.mem_flatMap.mp hmem
    obtain ⟨⟨i, vi⟩, hi, heq⟩ := List.mem_map.mp hmem
    obtain ⟨hi, hle⟩ := List.mem_filter.mp hi
    obtain ⟨rfl, hrest⟩ := Prod.mk.inj heq
    obtain ⟨rfl, rfl⟩ := Prod.mk.inj hrest
    have hget := List.mem_zipIdx_iff_getElem?.mp hl
    rw [List.getElem?_take] at hget
    split at hget
    next hlag =>
      obtain ⟨hvi, hine⟩ := mem_nonzero.mp hi
      obtain ⟨hvj, hjne⟩ := mem_nonzero.mp hj
      exact ⟨lag, i, j, l, vi, vj, hlag, of_decide_eq_true hle, hget, hvi, hvj, hine, hjne, rfl, rfl, rfl⟩
    · cases hget
  · rintro ⟨lag, i, j, l, vi, vj, hlag, hle, hget, hvi, hvj, hine, hjne, rfl, rfl, rfl⟩
    refine ⟨(l, lag), List.mem_zipIdx_iff_getElem?.mpr ?_, List.mem_flatMap.mpr ⟨(j, vj), mem_nonzero.mpr ⟨hvj, hjne⟩, List.mem_map.mpr ⟨(i, vi), ?_, rfl⟩⟩⟩
    · rw [List.getElem?_take, if_pos hlag]
      exact hget
    · exact List.mem_filter.mpr ⟨mem_nonzero.mpr ⟨hvi, hine⟩, decide_eq_true hle⟩

/-- The pairs of a column stand between two triangle numbers. -/
theorem pairIdx_bounds {i j : Nat} (h : i ≤ j) : j * (j + 1) / 2 ≤ pairIdx i j ∧ pairIdx i j < (j + 1) * (j + 1 + 1) / 2 := by
  have hstep : (j + 1) * (j + 1 + 1) = j * (j + 1) + 2 * (j + 1) := by ring
  unfold pairIdx
  rw [hstep]
  omega

theorem triangle_mono {j k : Nat} (h : j ≤ k) : j * (j + 1) / 2 ≤ k * (k + 1) / 2 :=
  Nat.div_le_div_right (Nat.mul_le_mul h (Nat.succ_le_succ h))

theorem pairIdx_injective {i j i' j' : Nat} (h : i ≤ j) (h' : i' ≤ j') (heq : pairIdx i j = pairIdx i' j') : i = i' ∧ j = j' := by
  obtain ⟨hlo, hhi⟩ := pairIdx_bounds h
  obtain ⟨hlo', hhi'⟩ := pairIdx_bounds h'
  have hj : j = j' := by
    rcases lt_trichotomy j j' with hlt | hj | hlt
    · have hmono := triangle_mono (j := j + 1) (k := j') hlt
      omega
    · exact hj
    · have hmono := triangle_mono (j := j' + 1) (k := j) hlt
      omega
  subst hj
  unfold pairIdx at heq
  omega

theorem accAdd_plain (w : Nat) (v : Int) : accAdd w false v = (min v (2 ^ w - 1), decide (2 ^ w - 1 ≤ v)) := by
  unfold accAdd
  rw [if_neg Bool.false_ne_true]
  split
  next h => rw [min_eq_right h, decide_eq_true h]
  next h => rw [min_eq_left (not_le.mp h).le, decide_eq_false h]

theorem accAdd_beam (w : Nat) (v : Int) : accAdd w true v = (satSigned w v, decide (v ≤ -(2 ^ (w - 1)) ∨ 2 ^ (w - 1) - 1 ≤ v)) := by
  have hpos : (0 : Int) < 2 ^ (w - 1) := by positivity
  unfold accAdd satSigned
  rw [if_pos rfl]
  generalize (2 : Int) ^ (w - 1) = m at *
  split
  next h => rw [decide_eq_true (Or.inr h), min_eq_right h, max_eq_right (by omega)]
  next h =>
    split
    next h' => rw [decide_eq_true (Or.inl h'), min_eq_left (by omega), max_eq_left h']
    next h' => rw [decide_eq_false (by omega), min_eq_left (by omega), max_eq_right (by omega)]

/-! ### A Harvest that closes -/

/-- A Harvest with the accumulators of its last group. -/
def Harv.grouped (h : Harv) (keys : List Nat) : Harv := { h with written := h.written ++ keys.filter fun k => !h.written.contains k }

/-- A Harvest as it closes. -/
def Harv.closed (h : Harv) (seq marks : Nat) (stopped : Bool) : Harv :=
  { h with seq := seq, stopped := stopped, trunc := decide (h.bins < h.want), flags := marks }

/-- What the group in progress leaves: the accumulators written, and counts of the writes. -/
theorem State.corGroup_spec (s : State) (c : Nat) {h : Harv} (hcur : (s.cor c).cur = some h) :
    (∃ m r, s.corGroup c = { s with cors := m, regs := r }) ∧
    (s.corGroup c).cor c = { s.cor c with touched := [], cur := some (h.grouped ((s.cor c).touched.map (·.1))) } ∧
    ∀ a, (∀ d, ra (sCor d) 0x048 ≠ a ∧ ra (sCor d) 0x04C ≠ a) → (s.corGroup c).reg a = s.reg a := by
  have hset : (s.setCor c { s.cor c with touched := [], cur := (s.cor c).cur.map fun h => h.grouped ((s.cor c).touched.map (·.1)) }).cor c =
      { s.cor c with touched := [], cur := some (h.grouped ((s.cor c).touched.map (·.1))) } := by
    rw [State.setCor_same, hcur]
    rfl
  have hshape : s.corGroup c = (s.setCor c { s.cor c with touched := [], cur := (s.cor c).cur.map fun h => h.grouped ((s.cor c).touched.map (·.1)) }).each
      (s.cor c).touched fun s e => s.bump64 (sCor (s.pairDie c (e.1 / 16))) 0x048 1 := rfl
  rw [hshape]
  refine State.each_induct (P := fun u => (∃ m r, u = { s with cors := m, regs := r }) ∧
    u.cor c = { s.cor c with touched := [], cur := some (h.grouped ((s.cor c).touched.map (·.1))) } ∧
    ∀ a, (∀ d, ra (sCor d) 0x048 ≠ a ∧ ra (sCor d) 0x04C ≠ a) → u.reg a = s.reg a) ?_ ⟨⟨_, _, rfl⟩, hset, fun _ _ => rfl⟩
  rintro u e - ⟨⟨m, r, rfl⟩, hcor, hreg⟩
  refine ⟨⟨_, _, rfl⟩, hcor, fun a ha => ?_⟩
  obtain ⟨hlo, hhi⟩ := ha (State.pairDie { s with cors := m, regs := r } c (e.1 / 16))
  rw [State.bump64_reg hlo hhi]
  exact hreg a ha

theorem State.hvLost_cors (s : State) (c : Nat) : (s.hvLost c).cors = s.cors := by
  have hside : Side (s.tbump (oCor c 6) 1) (((s.tbump (oCor c 6) 1).bump64 (sCor 0) 0x038 1).evt (sCor 0) 1) :=
    (State.bump64_side _ _ _ _).trans (State.evt_side _ _ _)
  obtain ⟨_, _, _, _, _, hx⟩ := hside
  unfold State.hvLost
  rw [hx]
  rfl

/-- A block lost for want of a buffer. -/
theorem State.hvLost_spec (s : State) (hc : c < 512) : (s.hvLost c).cors = s.cors ∧
    (s.hvLost c).tabw (oCor c 5) = s.tabw (oCor c 5) ∧ ((s.hvLost c).tabw (oCor c 6)).toNat = min ((s.tabw (oCor c 6)).toNat + 1) (2 ^ 32 - 1) ∧
    (s.hvLost c).reg64 (sCor 0) 0x038 = min (s.reg64 (sCor 0) 0x038 + 1) (2 ^ 64 - 1) ∧ bit ((s.hvLost c).reg (ra (sCor 0) 0x008)) 1 = true := by
  have hside : Side (s.tbump (oCor c 6) 1) (((s.tbump (oCor c 6) 1).bump64 (sCor 0) 0x038 1).evt (sCor 0) 1) :=
    (State.bump64_side _ _ _ _).trans (State.evt_side _ _ _)
  have hcount : (((s.tbump (oCor c 6) 1).bump64 (sCor 0) 0x038 1).evt (sCor 0) 1).reg64 (sCor 0) 0x038 = min (s.reg64 (sCor 0) 0x038 + 1) (2 ^ 64 - 1) := by
    rw [State.evt_reg64_above _ _ _ (by decide), State.reg64_bump64]
    rfl
  have hbit := State.evt_bit (s := (s.tbump (oCor c 6) 1).bump64 (sCor 0) 0x038 1) (sCor 0) (b := 1) (by decide)
  have habove := State.report_above (((s.tbump (oCor c 6) 1).bump64 (sCor 0) 0x038 1).evt (sCor 0) 1) hc (stage := 6) (col := 2) (by decide) 1
  have htab (o : Nat) (ho : 0x2_0000 ≤ o) : (s.hvLost c).tabw o = (s.tbump (oCor c 6) 1).tabw o := (habove o ho).trans (hside.tabw o)
  refine ⟨s.hvLost_cors c, ?_, ?_, hcount, hbit⟩
  · rw [htab _ (by unfold oCor; omega)]
    exact State.setTabw_tabw_ne _ _ (by unfold oCor; omega)
  · rw [htab _ (by unfold oCor; omega)]
    refine (congrArg BitVec.toNat (State.setTabw_tabw_same _ _ _)).trans ((BitVec.toNat_ofNat _ _).trans (Nat.mod_eq_of_lt ?_))
    exact lt_of_le_of_lt (min_le_right _ _) (by decide)

/-- A context whose Harvest has closed into a free buffer. -/
def Cor.swept (x : Cor) (h : Harv) : Cor :=
  { x with touched := [], cur := none, epochBit := !x.epochBit, bufs := x.bufs + 1, sweep := x.sweep ++ [h], seen := max x.seen h.orig, owed := 0 }

/-- A context whose Harvest has been lost for want of a buffer. -/
def Cor.unswept (x : Cor) (marks : Nat) : Cor := { x with touched := [], cur := none, epochBit := !x.epochBit, owed := marks }

/-- The marks of the block of a Harvest in progress. -/
def Cor.marks (x : Cor) (h : Harv) : Nat := blockMarks x.seen x.owed h.orig h.first h.bins x.w

/-- A context as the group in progress is written. -/
def Cor.grouped (x : Cor) (h : Harv) : Cor := { x with touched := [], cur := some (h.grouped (x.touched.map (·.1))) }

/-- A Harvest that closes without a ladder, after its group is written. -/
theorem State.corClose_eq {h : Harv} (hcur : (s.cor c).cur = some h) (hlad : (s.cor c).ladder = none) (stopped : Bool) :
    s.corClose c stopped false =
      let h1 := (h.grouped ((s.cor c).touched.map (·.1))).closed ((s.corGroup c).tabw (oCor c 5)).toNat ((s.cor c).marks h) stopped
      let s1 := (s.corGroup c).setTabN (oCor c 5) (h1.seq + 1)
      if (s.cor c).bufs < (s.corGroup c).corNbuf c then s1.setCor c ((s.cor c).swept h1)
      else (s1.setCor c ((s.cor c).unswept ((s.cor c).marks h))).hvLost c := by
  obtain ⟨-, hcor, -⟩ := s.corGroup_spec c hcur
  unfold State.corClose
  dsimp only
  rw [hcor]
  dsimp only
  split
  next l heq =>
    revert heq
    split
    · rw [State.setCor_same]
      exact fun heq => absurd (hlad.symm.trans heq) (Option.some_ne_none l).symm
    · rw [State.cor, State.hvLost_cors, ← State.cor, State.setCor_same]
      exact fun heq => absurd (hlad.symm.trans heq) (Option.some_ne_none l).symm
  next heq => rfl

/-- A Harvest that closes without a ladder: swept into a free buffer, or lost and counted (R212, R213). -/
theorem State.corClose_spec {h : Harv} (hc : c < 512) (hcur : (s.cor c).cur = some h) (hlad : (s.cor c).ladder = none) (stopped : Bool) :
    let x := s.cor c
    let z := s.corClose c stopped false
    let h1 := (h.grouped (x.touched.map (·.1))).closed (s.tabw (oCor c 5)).toNat (x.marks h) stopped
    z.tabw (oCor c 5) = s.tabw (oCor c 5) + 1 ∧
    (x.bufs < s.corNbuf c → z.cor c = x.swept h1 ∧ z.tabw (oCor c 6) = s.tabw (oCor c 6)) ∧
    (s.corNbuf c ≤ x.bufs → z.cor c = x.unswept (x.marks h) ∧ (z.tabw (oCor c 6)).toNat = min ((s.tabw (oCor c 6)).toNat + 1) (2 ^ 32 - 1) ∧
      z.reg64 (sCor 0) 0x038 = min (s.reg64 (sCor 0) 0x038 + 1) (2 ^ 64 - 1) ∧ bit (z.reg (ra (sCor 0) 0x008)) 1 = true) := by
  obtain ⟨⟨m, r, hg⟩, -, hreg⟩ := s.corGroup_spec c hcur
  have hlost : (s.corGroup c).reg64 (sCor 0) 0x038 = s.reg64 (sCor 0) 0x038 := by
    have hapart (i : Nat) (hi : i < 0x048) : (s.corGroup c).reg (ra (sCor 0) i) = s.reg (ra (sCor 0) i) := by
      refine hreg _ fun d => ⟨?_, ?_⟩
      · unfold ra sCor
        omega
      · unfold ra sCor
        omega
    rw [State.reg64, hapart _ (by decide), hapart _ (by decide)]
    rfl
  have heq := State.corClose_eq hcur hlad stopped
  have htab (o : Nat) : (s.corGroup c).tabw o = s.tabw o := by
    rw [hg]
    rfl
  have hnbuf : (s.corGroup c).corNbuf c = s.corNbuf c := by
    rw [State.corNbuf, State.tfld, htab]
    rfl
  dsimp only at heq ⊢
  rw [hnbuf, htab] at heq
  have hseq : ((h.grouped ((s.cor c).touched.map (·.1))).closed (s.tabw (oCor c 5)).toNat ((s.cor c).marks h) stopped).seq = (s.tabw (oCor c 5)).toNat := rfl
  generalize (h.grouped ((s.cor c).touched.map (·.1))).closed (s.tabw (oCor c 5)).toNat ((s.cor c).marks h) stopped = h1 at heq hseq ⊢
  have hnum : BitVec.ofNat 32 (h1.seq + 1) = s.tabw (oCor c 5) + 1 := by
    rw [hseq]
    exact (BitVec.ofNat_add _ _).trans (congrArg (· + 1) ((BitVec.ofNat_toNat _ _).trans (BitVec.setWidth_eq _)))
  have hnext : ((s.corGroup c).setTabN (oCor c 5) (h1.seq + 1)).tabw (oCor c 5) = s.tabw (oCor c 5) + 1 := (State.setTabw_tabw_same _ _ _).trans hnum
  have hcount : ((s.corGroup c).setTabN (oCor c 5) (h1.seq + 1)).tabw (oCor c 6) = s.tabw (oCor c 6) :=
    (State.setTabw_tabw_ne _ _ (by unfold oCor; omega)).trans (htab _)
  have hreg64 : ((s.corGroup c).setTabN (oCor c 5) (h1.seq + 1)).reg64 (sCor 0) 0x038 = s.reg64 (sCor 0) 0x038 := hlost
  generalize (s.corGroup c).setTabN (oCor c 5) (h1.seq + 1) = y at *
  by_cases hroom : (s.cor c).bufs < s.corNbuf c
  · rw [heq.trans (if_pos hroom)]
    exact ⟨hnext, fun _ => ⟨State.setCor_same _ _ _, hcount⟩, fun hfull => absurd hroom (not_lt.mpr hfull)⟩
  · rw [heq.trans (if_neg hroom)]
    obtain ⟨hcors, hfive, hsix, hlostN, hbit⟩ := (y.setCor c ((s.cor c).unswept ((s.cor c).marks h))).hvLost_spec hc
    refine ⟨hfive.trans hnext, fun h => absurd h hroom, fun _ => ⟨?_, ?_, ?_, hbit⟩⟩
    · rw [State.cor, hcors, ← State.cor, State.setCor_same]
    · rw [hsix, ← hcount]
      rfl
    · rw [hlostN, ← hreg64]
      rfl

/-! ### Blocks -/

theorem length_flatten_const {α : Type} {f : α → List Byte} {m : Nat} (hf : ∀ e, (f e).length = m) (l : List α) : (l.map f).flatten.length = m * l.length := by
  rw [← List.flatMap_def]
  exact length_flatMap_const fun e _ => hf e

theorem length_w64 (n : Nat) : (w64 n).length = 8 := length_leBytes 8 n

theorem length_words (l : List Nat) : (l.map w64).flatten.length = 8 * l.length := length_flatten_const length_w64 l

theorem State.length_corHeader (s : State) (c kind flags status seq first w bins npairs sat bytes lost hv w8 w9 : Nat) :
    (s.corHeader c kind flags status seq first w bins npairs sat bytes lost hv w8 w9).length = 128 := length_words _

theorem length_corTrailer (magic seq bytes : Nat) : (corTrailer magic seq bytes).length = 64 := length_words _

theorem length_sumBytes (n : Nat) (sums : List (Nat × Int)) : (sumBytes n sums).length = 64 * cdiv n 8 := by
  unfold sumBytes
  rw [length_flatten_const fun _ => length_w64 _, List.length_range]
  ring

/-- The accumulators' bytes of a resident block. -/
def accBytes (m : Nat) (acc : List (Nat × Int)) : List Byte := ((List.range m).map fun k => w32 (unsign 32 (Sparse.get 0 acc k))).flatten

theorem length_accBytes (m : Nat) (acc : List (Nat × Int)) : (accBytes m acc).length = 4 * m := by
  unfold accBytes
  rw [length_flatten_const fun _ => length_w32 _, List.length_range]

/-- Pieces of one size, one by one. -/
theorem flatten_piece {f : Nat → List Byte} {w : Nat} (hf : ∀ k, (f k).length = w) {m : Nat} (hk : k < m) (tail : List Byte) :
    ((((List.range m).map f).flatten ++ tail).drop (w * k)).take w = f k := by
  obtain ⟨d, rfl⟩ := Nat.exists_eq_add_of_lt hk
  have hlen : ((List.range k).map f).flatten.length = w * k := by rw [length_flatten_const hf, List.length_range]
  rw [Nat.add_assoc, List.range_add, List.range_succ_eq_map, List.map_append, List.flatten_append, List.map_cons, List.map_cons, List.flatten_cons,
    List.append_assoc, ← hlen, List.drop_left, List.append_assoc]
  exact (congrArg (List.take · _) (hf k).symm).trans List.take_left

theorem State.residentBlock_eq (s : State) (c : Nat) (h : Harv) : ∃ head tail, head.length = 128 + 64 * ((s.slotCnt c + 7) / 8) ∧ tail.length = 64 ∧
    s.residentBlock c h = head ++ (accBytes (16 * (s.slotCnt c * (s.slotCnt c + 1) / 2)) h.acc ++ tail) := by
  refine ⟨_, _, ?_, length_corTrailer _ _ _, (List.append_assoc _ _ _)⟩
  rw [List.length_append, State.length_corHeader, length_sumBytes]
  rfl

theorem State.residentBlock_spec (s : State) (c : Nat) (h : Harv) :
    let n := s.slotCnt c
    let pairs := n * (n + 1) / 2
    (s.residentBlock c h).length = 128 + 64 * ((n + 7) / 8) + 64 * pairs + 64 ∧
    ∀ k, k < 16 * pairs → ((s.residentBlock c h).drop (128 + 64 * ((n + 7) / 8) + 4 * k)).take 4 = leBytes 4 (Sparse.get 0 h.acc k % 2 ^ 32).toNat := by
  obtain ⟨head, tail, hhead, htail, heq⟩ := s.residentBlock_eq c h
  dsimp only
  refine ⟨?_, fun k hk => ?_⟩
  · rw [heq, List.length_append, List.length_append, hhead, htail, length_accBytes]
    omega
  · rw [heq, ← List.drop_drop, ← hhead, List.drop_left]
    exact flatten_piece (fun _ => length_w32 _) hk tail

theorem State.length_ladderBlock (s : State) (c : Nat) (l : Ladder) : (s.ladderBlock c l).length = 192 + 1280 * (s.ladEntries c).length := by
  unfold State.ladderBlock
  dsimp only
  rw [List.length_append, List.length_append, State.length_corHeader, length_corTrailer, length_flatten_const (m := 1280)]
  · omega
  · intro e
    rw [List.length_append, List.length_append, length_words, length_flatMap_const (w := 32), length_flatMap_const (w := 64)]
    · rfl
    · exact fun k _ => length_flatMap_const fun _ _ => length_w64 _
    · exact fun k _ => length_flatMap_const fun _ _ => length_w32 _

end Sys2Proof.Machine
end

section
/-! Proofs about swept blocks handed on, and array tiles and spares that fail (R16, R17, R212, R221, R222). -/

namespace Sys2Proof.Machine

variable {s x y z : State} {n k off b p c t : Nat}

/-! ### Contexts that drain after a command -/

/-- What draining contexts change: the contexts, their pages, and words of the histogram and block tables. -/
def Drained (s z : State) : Prop :=
  (∃ a b l m, z = { s with ctxs := a, pagesHeld := b, oldWords := l, tab := m }) ∧ ∀ o, o < 0x20_C000 → z.tabw o = s.tabw o

theorem Drained.refl (s : State) : Drained s s := ⟨⟨_, _, _, _, rfl⟩, fun _ _ => rfl⟩

/-- A context's entries cleared as it drains. -/
def State.drainCleared (s : State) (c : Nat) : State := ((s.setTabN (oHctx c 6) 0).setTabN (oHctx c 7) 0).setTabN (oBlk c 3) 0

theorem State.setTabN_eq (s : State) (o v : Nat) : ∃ m, s.setTabN o v = { s with tab := m } := ⟨_, rfl⟩

theorem State.drainCleared_spec (s : State) (c : Nat) : (∃ m, s.drainCleared c = { s with tab := m }) ∧ ∀ o, o < 0x20_C000 → (s.drainCleared c).tabw o = s.tabw o := by
  refine ⟨?_, fun o ho => ?_⟩
  · obtain ⟨m, hm⟩ := s.setTabN_eq (oHctx c 6) 0
    obtain ⟨m', hm'⟩ := (s.setTabN (oHctx c 6) 0).setTabN_eq (oHctx c 7) 0
    obtain ⟨m'', hm''⟩ := ((s.setTabN (oHctx c 6) 0).setTabN (oHctx c 7) 0).setTabN_eq (oBlk c 3) 0
    exact ⟨m'', by rw [State.drainCleared, hm'', hm', hm]⟩
  · unfold State.drainCleared State.setTabN
    rw [State.setTabw_tabw_ne _ _ (by unfold oBlk; omega), State.setTabw_tabw_ne _ _ (by unfold oHctx; omega), State.setTabw_tabw_ne _ _ (by unfold oHctx; omega)]

/-- A context that drains: its pages and the words it ran with go. -/
def State.drainBegun (s : State) (c : Nat) : State :=
  { s with pagesHeld := s.pagesHeld.filter fun e => decide (e.2.2 ≠ c), oldWords := Sparse.del c s.oldWords }

theorem State.ctxDrained_eq (s : State) (c : Nat) : s.ctxDrained c =
    if (decide ((s.ctx c).st = .stopping) || decide ((s.ctx c).st = .stoppedOvf)) && !s.ctxOwes c then
      if (s.ctx c).st = .stopping then ((s.drainBegun c).drainCleared c).setCtx c { s.ctx c with st := .idle } else (s.drainBegun c).drainCleared c
    else s := rfl

theorem Drained.trans (h : Drained s y) (h' : Drained y z) : Drained s z := by
  obtain ⟨⟨a, b, l, m, rfl⟩, htab⟩ := h
  obtain ⟨⟨a', b', l', m', rfl⟩, htab'⟩ := h'
  exact ⟨⟨a', b', l', m', rfl⟩, fun o ho => (htab' o ho).trans (htab o ho)⟩

theorem State.drainBegun_drained (s : State) (c : Nat) : Drained s (s.drainBegun c) := ⟨⟨_, _, _, _, rfl⟩, fun _ _ => rfl⟩

theorem State.drainCleared_drained (s : State) (c : Nat) : Drained s (s.drainCleared c) := by
  obtain ⟨⟨m, hm⟩, hkeep⟩ := s.drainCleared_spec c
  refine ⟨?_, hkeep⟩
  rw [hm]
  exact ⟨_, _, _, _, rfl⟩

theorem State.setCtx_drained (s : State) (c : Nat) (x : Ctx) : Drained s (s.setCtx c x) := ⟨⟨_, _, _, _, rfl⟩, fun _ _ => rfl⟩

theorem State.ctxDrained_drained (s : State) (c : Nat) : Drained s (s.ctxDrained c) := by
  have h := (s.drainBegun_drained c).trans ((s.drainBegun c).drainCleared_drained c)
  rw [State.ctxDrained_eq]
  split
  · split
    · exact h.trans (State.setCtx_drained _ _ _)
    · exact h
  · exact Drained.refl s

/-- Where no capture overflows, the settling after a command only drains contexts. -/
theorem State.settle_drained (h : ∀ e ∈ s.caps, e.2.full = false) : Drained s s.settle := by
  have hnone : (s.caps.filter fun e => e.2.full) = [] := by
    rw [List.filter_eq_nil_iff]
    intro e he
    rw [h e he]
    exact Bool.false_ne_true
  unfold State.settle
  rw [hnone, List.map_nil, State.each_nil]
  exact State.each_induct (P := Drained s) (fun u c _ hu => hu.trans (u.ctxDrained_drained c)) (Drained.refl s)

theorem State.asOf_plain (h : Sparse.get [] s.oldWords c = []) (f : State → State) : s.asOf c f = f s := by
  unfold State.asOf
  rw [h]

/-- An event leaves every other bit of its register. -/
theorem State.evt_bit_other (s : State) (slot : Nat) {i : Nat} (h : i ≠ b) :
    bit ((s.evt slot b).reg (ra slot 0x008)) i = bit (s.reg (ra slot 0x008)) i := by
  have hoff : ((1 : Word) <<< b).getLsbD i = false := by
    rw [← put_one, put_getLsbD]
    by_cases hb : b ≤ i
    · rw [decide_eq_false (show ¬ i < b + 1 by omega), Bool.and_false, Bool.false_and]
    · rw [decide_eq_false hb, Bool.and_false, Bool.false_and, Bool.false_and]
  rw [State.evt_pageEvt, bit, BitVec.getLsbD_or, hoff, Bool.or_false]
  rfl

/-! ### Swept blocks handed on -/

/-- A completed block: counted, with its events. -/
theorem State.corDone_spec (s : State) (trunc : Bool) : Side s (s.corDone trunc) ∧
    (s.corDone trunc).reg64 (sCor 0) 0x030 = min (s.reg64 (sCor 0) 0x030 + 1) (2 ^ 64 - 1) ∧ bit ((s.corDone trunc).reg (ra (sCor 0) 0x008)) 0 = true ∧
    bit ((s.corDone trunc).reg (ra (sCor 0) 0x008)) 5 = (trunc || bit (s.reg (ra (sCor 0) 0x008)) 5) := by
  have hside : Side s ((s.bump64 (sCor 0) 0x030 1).evt (sCor 0) 0) := (State.bump64_side _ _ _ _).trans (State.evt_side _ _ _)
  have hcount : ((s.bump64 (sCor 0) 0x030 1).evt (sCor 0) 0).reg64 (sCor 0) 0x030 = min (s.reg64 (sCor 0) 0x030 + 1) (2 ^ 64 - 1) := by
    rw [State.evt_reg64_above _ _ _ (by decide), State.reg64_bump64]
  have hbit := State.evt_bit (s := s.bump64 (sCor 0) 0x030 1) (sCor 0) (b := 0) (by decide)
  have hold : bit (((s.bump64 (sCor 0) 0x030 1).evt (sCor 0) 0).reg (ra (sCor 0) 0x008)) 5 = bit (s.reg (ra (sCor 0) 0x008)) 5 := by
    rw [State.evt_bit_other _ _ (by decide), State.bump64_reg (by decide) (by decide)]
  unfold State.corDone
  dsimp only
  generalize (s.bump64 (sCor 0) 0x030 1).evt (sCor 0) 0 = v at *
  cases trunc with
  | true =>
    rw [if_pos rfl]
    exact ⟨hside.trans (v.evt_side _ _), by rw [State.evt_reg64_above _ _ _ (by decide), hcount], State.evt_bit_keep _ _ _ hbit, by
      rw [State.evt_bit _ (by decide), Bool.true_or]⟩
  | false =>
    rw [if_neg Bool.false_ne_true]
    exact ⟨hside, hcount, hbit, by rw [hold, Bool.false_or]⟩

/-- A block handed to its context's channel and counted. -/
def State.blockSent (s : State) (c : Nat) (m : Msg) (y : Cor) (trunc : Bool) : State :=
  (((s.hand (s.corDma c) m).setCor c y).corDone trunc).report c 6 0 1

theorem State.blockSent_spec (s : State) (c : Nat) (m : Msg) (y : Cor) (trunc : Bool) :
    ((s.blockSent c m y trunc).dmaCh (s.corDma c)).handed = (s.dmaCh (s.corDma c)).handed ++ [m] ∧ (s.blockSent c m y trunc).cor c = y ∧
    (s.blockSent c m y trunc).caps = s.caps ∧
    (s.blockSent c m y trunc).reg64 (sCor 0) 0x030 = min (s.reg64 (sCor 0) 0x030 + 1) (2 ^ 64 - 1) ∧
    bit ((s.blockSent c m y trunc).reg (ra (sCor 0) 0x008)) 0 = true ∧
    bit ((s.blockSent c m y trunc).reg (ra (sCor 0) 0x008)) 5 = (trunc || bit (s.reg (ra (sCor 0) 0x008)) 5) := by
  obtain ⟨hside, hcount, hbit, hfive⟩ := State.corDone_spec ((s.hand (s.corDma c) m).setCor c y) trunc
  have hcor := State.setCor_same (s := s.hand (s.corDma c) m) c y
  have hdma : (((s.hand (s.corDma c) m).setCor c y).dmaCh (s.corDma c)).handed = (s.dmaCh (s.corDma c)).handed ++ [m] :=
    congrArg Dma.handed (State.setDma_same (s := s) _ _)
  have hcaps : ((s.hand (s.corDma c) m).setCor c y).caps = s.caps := rfl
  have hregs : ((s.hand (s.corDma c) m).setCor c y).regs = s.regs := rfl
  rw [State.reg64_congr hregs] at hcount
  have hreg : ((s.hand (s.corDma c) m).setCor c y).reg (ra (sCor 0) 0x008) = s.reg (ra (sCor 0) 0x008) := rfl
  rw [hreg] at hfive
  unfold State.blockSent
  generalize (s.hand (s.corDma c) m).setCor c y = u at *
  obtain ⟨r, e, pb, o, b, hx⟩ := hside
  refine ⟨?_, ?_, ?_, hcount, hbit, hfive⟩
  · rw [hx]
    exact hdma
  · rw [hx]
    exact hcor
  · rw [hx]
    exact hcaps

/-- A stopped context that gives back what it held. -/
def Cor.released (x : Cor) : Cor :=
  { bufs := x.bufs, ladBufs := x.ladBufs, seen := x.seen, ladSeen := x.ladSeen, owed := x.owed, ladOwed := x.ladOwed }

theorem State.corRelease_open (h : (s.cor c).closing = false) : s.corRelease c = s := by
  unfold State.corRelease
  dsimp only
  rw [h]
  rfl

theorem State.corRelease_done (h : (s.cor c).closing = true) (hcur : (s.cor c).cur = none) (hsweep : (s.cor c).sweep = []) (hlad : (s.cor c).ladSweep = [])
    (hready : (s.cor c).ready = []) (hown : (s.cor c).own = none) : s.corRelease c = (s.setCor c (s.cor c).released).setTabN (oCor c 4) 0 := by
  unfold State.corRelease
  dsimp only
  rw [h, hcur, hsweep, hlad, hready, hown]
  exact if_pos rfl

/-- Giving back slices changes the correlator's entry and its word of slices alone. -/
theorem State.corRelease_keeps (s : State) (c : Nat) : (s.corRelease c).dma = s.dma ∧ (s.corRelease c).regs = s.regs ∧ (s.corRelease c).caps = s.caps := by
  unfold State.corRelease
  dsimp only
  split <;> exact ⟨rfl, rfl, rfl⟩

theorem State.harvest_resident {h : Harv} {r : List Harv} (hs : (s.cor c).sweep = h :: r) : s.harvest c false =
    (s.blockSent c { kind := 2, body := s.residentBlock c h, src := .harvest c } { s.cor c with sweep := r } h.trunc).corRelease c := by
  unfold State.harvest
  dsimp only
  rw [if_neg Bool.false_ne_true]
  split
  next h' r' heq =>
    obtain ⟨rfl, rfl⟩ := List.cons.inj (hs.symm.trans heq)
    rfl
  next heq => exact absurd (hs.symm.trans heq) (List.cons_ne_nil _ _)

theorem State.harvest_ladder {l : Ladder} {r : List Ladder} (hs : (s.cor c).ladSweep = l :: r) : s.harvest c true =
    (s.blockSent c { kind := 2, body := s.ladderBlock c l, src := .ladder c } { s.cor c with ladSweep := r } l.trunc).corRelease c := by
  unfold State.harvest
  dsimp only
  rw [if_pos rfl]
  split
  next l' r' heq =>
    obtain ⟨rfl, rfl⟩ := List.cons.inj (hs.symm.trans heq)
    rfl
  next heq => exact absurd (hs.symm.trans heq) (List.cons_ne_nil _ _)

/-- A block sent, and what its context holds given back where it was the last. -/
theorem State.blockReleased_spec (s : State) (c : Nat) (m : Msg) (y : Cor) (trunc : Bool) :
    let z := (s.blockSent c m y trunc).corRelease c
    (z.dmaCh (s.corDma c)).handed = (s.dmaCh (s.corDma c)).handed ++ [m] ∧ z.caps = s.caps ∧
    z.reg64 (sCor 0) 0x030 = min (s.reg64 (sCor 0) 0x030 + 1) (2 ^ 64 - 1) ∧ bit (z.reg (ra (sCor 0) 0x008)) 0 = true ∧
    bit (z.reg (ra (sCor 0) 0x008)) 5 = (trunc || bit (s.reg (ra (sCor 0) 0x008)) 5) ∧
    (y.closing = false → z.cor c = y) ∧
    (y.closing = true → y.cur = none → y.sweep = [] → y.ladSweep = [] → y.ready = [] → y.own = none → z.cor c = y.released ∧ z.tabw (oCor c 4) = 0) := by
  obtain ⟨hhand, hcor, hcap, hcount, hbit, hfive⟩ := s.blockSent_spec c m y trunc
  generalize s.blockSent c m y trunc = v at *
  obtain ⟨hdma, hregs, hcaps⟩ := v.corRelease_keeps c
  have hreg (a : Nat) : (v.corRelease c).reg a = v.reg a := by rw [State.reg, hregs, State.reg]
  refine ⟨?_, hcaps.trans hcap, ?_, ?_, ?_, fun hopen => ?_, fun hclosing hcur hsweep hlad hready hown => ?_⟩
  · rw [State.dmaCh, hdma]
    exact hhand
  · rw [State.reg64_congr hregs]
    exact hcount
  · rw [hreg]
    exact hbit
  · rw [hreg]
    exact hfive
  · rw [State.corRelease_open (by rw [hcor]; exact hopen)]
    exact hcor
  · subst hcor
    rw [State.corRelease_done hclosing hcur hsweep hlad hready hown]
    exact ⟨State.setCor_same _ _ _, State.setTabw_tabw_same _ _ _⟩

theorem State.harvest_none (h : (s.cor c).sweep = []) : s.harvest c false = s := by
  unfold State.harvest
  dsimp only
  rw [if_neg Bool.false_ne_true, h]

theorem State.harvest_noLadder (h : (s.cor c).ladSweep = []) : s.harvest c true = s := by
  unfold State.harvest
  dsimp only
  rw [if_pos rfl, h]

/-! ### Array tiles that fail in service -/

/-- An accumulator pinned at its limit, in the Harvest that it belongs to (R206, R17). -/
theorem Harv.pin_spec (h : Harv) (key : Nat) (beam : Bool) : (h.pin key beam).fault = true ∧ key ∈ (h.pin key beam).pins ∧
    Sparse.get 0 (h.pin key beam).acc key = (if beam then (if Sparse.get 0 h.acc key < 0 then -(2 ^ 31) else 2 ^ 31 - 1) else 2 ^ 32 - 1) ∧
    ∀ k, k ≠ key → Sparse.get 0 (h.pin key beam).acc k = Sparse.get 0 h.acc k ∧ (k ∈ (h.pin key beam).pins ↔ k ∈ h.pins) := by
  have hpins : (h.pin key beam).pins = if h.pins.contains key then h.pins else key :: h.pins := rfl
  refine ⟨rfl, ?_, Sparse.get_set_same _ _ _ _, fun k hk => ⟨Sparse.get_set_ne _ _ _ _ hk.symm, ?_⟩⟩
  · rw [hpins]
    split
    next hin => exact List.contains_iff_mem.mp hin
    · exact List.mem_cons_self
  · rw [hpins]
    split
    · exact Iff.rfl
    · rw [List.mem_cons, or_iff_right hk]

/-- A real pair's accumulator pinned, and counted where it was not pinned already. -/
def State.pinFault (s : State) (c key die : Nat) (beam : Bool) : State :=
  if ((s.cor c).harvestOf key).any fun h => !h.pins.contains key then
    (s.setCor c ((s.cor c).onHarvest key fun h => h.pin key beam)).corPinned die
  else s.setCor c ((s.cor c).onHarvest key fun h => h.pin key beam)

/-- Whether a pair of local slots has a beam. -/
def State.pairBeam (s : State) (c i j : Nat) : Bool := (((s.ctxSlots c)[i]?).map (·.1)).getD false || (((s.ctxSlots c)[j]?).map (·.1)).getD false

/-- A failed tile noted for the next boundary of its context. -/
def State.tileNoted (s : State) (c die : Nat) : State := s.setCor c { s.cor c with subst := (s.cor c).subst ++ [die] }

/-- What a failed tile's accumulator becomes in a resident run. -/
def State.tilePinned (s : State) (c i j lag die : Nat) : State :=
  if i ≤ j ∧ j < s.slotCnt c then (s.bbrFault (sCor die) c 1).pinFault c (16 * pairIdx i j + lag) die (s.pairBeam c i j) else s.bbrFault (sCor die) c 1

theorem State.bbrFault_side (s : State) (slot src code : Nat) : Side s (s.bbrFault slot src code) := State.bbrPush_side _ _ _ _

theorem State.bbrFault_cor (s : State) (slot src code c : Nat) : (s.bbrFault slot src code).cor c = s.cor c := by
  obtain ⟨_, _, _, _, _, h⟩ := s.bbrFault_side slot src code
  rw [h]
  rfl

theorem State.tileFault_idle (h : (s.cor c).run = 0) (i j lag die : Nat) : s.tileFault c i j lag die = s := if_pos h

theorem State.tileFault_blocked (h : (s.cor c).run = 2) (i j lag die : Nat) : s.tileFault c i j lag die = (s.bbrFault (sCor die) c 1).moveTile c die := by
  refine (if_neg ?_).trans (if_pos h)
  rw [h]
  decide

theorem State.tileFault_resident (h : (s.cor c).run = 1) (i j lag die : Nat) : s.tileFault c i j lag die =
    if (s.cor c).closing then ((s.tilePinned c i j lag die).tileNoted c die).retireTiles c else (s.tilePinned c i j lag die).tileNoted c die := by
  have h0 : ¬ (s.cor c).run = 0 := by
    rw [h]
    decide
  have h2 : ¬ (s.cor c).run = 2 := by
    rw [h]
    decide
  unfold State.tileFault State.tilePinned State.pinFault
  rw [State.bbrFault_cor]
  dsimp only
  rw [if_neg h0, if_neg h2]
  by_cases hreal : i ≤ j ∧ j < s.slotCnt c
  · rw [if_pos hreal, decide_eq_true hreal.1, decide_eq_true hreal.2]
    simp only [Bool.and_self, Bool.true_and, if_true]
    rfl
  · have hfalse : (decide (i ≤ j) && decide (j < s.slotCnt c)) = false := by
      rw [← Bool.decide_and]
      exact decide_eq_false hreal
    rw [if_neg hreal, hfalse]
    simp only [Bool.false_and, Bool.false_eq_true, if_false]
    rfl

theorem State.pinFault_spec (s : State) (c key die : Nat) (beam : Bool) :
    (s.pinFault c key die beam).cor c = (s.cor c).onHarvest key (fun h => h.pin key beam) ∧ (s.pinFault c key die beam).bbr = s.bbr ∧
    (s.pinFault c key die beam).spares = s.spares ∧ (s.pinFault c key die beam).caps = s.caps ∧
    (((s.cor c).harvestOf key).any (fun h => !h.pins.contains key) = true →
      (s.pinFault c key die beam).reg64 (sCor die) 0x040 = min (s.reg64 (sCor die) 0x040 + 1) (2 ^ 64 - 1)) := by
  have hset := s.setCor_same c ((s.cor c).onHarvest key fun h => h.pin key beam)
  have hreg : (s.setCor c ((s.cor c).onHarvest key fun h => h.pin key beam)).reg64 (sCor die) 0x040 = s.reg64 (sCor die) 0x040 := rfl
  have hrest : (s.setCor c ((s.cor c).onHarvest key fun h => h.pin key beam)).bbr = s.bbr ∧ (s.setCor c ((s.cor c).onHarvest key fun h => h.pin key beam)).spares = s.spares ∧
    (s.setCor c ((s.cor c).onHarvest key fun h => h.pin key beam)).caps = s.caps := ⟨rfl, rfl, rfl⟩
  unfold State.pinFault
  generalize s.setCor c ((s.cor c).onHarvest key fun h => h.pin key beam) = v at *
  obtain ⟨hbbr, hspares, hcaps⟩ := hrest
  have hside : Side v (v.corPinned die) := (State.bump64_side _ _ _ _).trans (State.evt_side _ _ _)
  have hcount : (v.corPinned die).reg64 (sCor die) 0x040 = min (s.reg64 (sCor die) 0x040 + 1) (2 ^ 64 - 1) := by
    rw [State.corPinned, State.evt_reg64_above _ _ _ (by decide), State.reg64_bump64, hreg]
  have hbbr' : (v.corPinned die).bbr = v.bbr := State.evt_bbr _ _ _
  by_cases hnew : ((s.cor c).harvestOf key).any (fun h => !h.pins.contains key) = true
  · rw [if_pos hnew]
    obtain ⟨r, e, pb, o, b, hx⟩ := hside
    refine ⟨?_, hbbr'.trans hbbr, ?_, ?_, fun _ => hcount⟩
    · rw [hx]
      exact hset
    · rw [hx]
      exact hspares
    · rw [hx]
      exact hcaps
  · rw [if_neg hnew]
    exact ⟨hset, hbbr, hspares, hcaps, fun h => absurd h hnew⟩

/-- A failed tile of a run: its entry in the record, and what else stands. -/
theorem State.tilePinned_keeps (s : State) (c i j lag die : Nat) : (s.tilePinned c i j lag die).bbr = (s.bbrFault (sCor die) c 1).bbr ∧
    (s.tilePinned c i j lag die).spares = s.spares ∧ (s.tilePinned c i j lag die).caps = s.caps := by
  obtain ⟨r, e, pb, o, b, hx⟩ := s.bbrFault_side (sCor die) c 1
  have hspares : (s.bbrFault (sCor die) c 1).spares = s.spares := by rw [hx]
  have hcaps : (s.bbrFault (sCor die) c 1).caps = s.caps := by rw [hx]
  unfold State.tilePinned
  split
  · obtain ⟨-, hbbr, hsp, hcp, -⟩ := (s.bbrFault (sCor die) c 1).pinFault_spec c (16 * pairIdx i j + lag) die (s.pairBeam c i j)
    exact ⟨hbbr, hsp.trans hspares, hcp.trans hcaps⟩
  · exact ⟨rfl, hspares, hcaps⟩

/-- A failed tile whose accumulator is no pair's, or whose Harvest is gone. -/
theorem State.tilePinned_cor (s : State) (c i j lag die : Nat) (h : ¬ (i ≤ j ∧ j < s.slotCnt c) ∨ (s.cor c).harvestOf (16 * pairIdx i j + lag) = none) :
    (s.tilePinned c i j lag die).cor c = s.cor c := by
  unfold State.tilePinned
  by_cases hreal : i ≤ j ∧ j < s.slotCnt c
  · rw [if_pos hreal]
    have hnone := h.resolve_left fun hn => hn hreal
    rw [(State.pinFault_spec _ _ _ _ _).1, State.bbrFault_cor]
    unfold Cor.harvestOf at hnone
    unfold Cor.onHarvest
    split at hnone
    next hstale =>
      rw [Cor.stale, List.getLast?_eq_none_iff.mp hnone] at hstale
      exact absurd hstale Bool.false_ne_true
    next hstale =>
      rw [if_neg hstale, hnone]
      exact congrArg (fun q => { s.cor c with cur := q }) hnone.symm
  · rw [if_neg hreal, State.bbrFault_cor]

/-- A failed tile whose accumulator is pinned in a Harvest. -/
theorem State.tilePinned_real (s : State) (c i j lag die : Nat) (hreal : i ≤ j ∧ j < s.slotCnt c) :
    (s.tilePinned c i j lag die).cor c = (s.cor c).onHarvest (16 * pairIdx i j + lag) (fun h => h.pin (16 * pairIdx i j + lag) (s.pairBeam c i j)) ∧
    (((s.cor c).harvestOf (16 * pairIdx i j + lag)).any (fun h => !h.pins.contains (16 * pairIdx i j + lag)) = true →
      (s.tilePinned c i j lag die).reg64 (sCor die) 0x040 = min (s.reg64 (sCor die) 0x040 + 1) (2 ^ 64 - 1)) := by
  obtain ⟨hcor, -, -, -, hcount⟩ := (s.bbrFault (sCor die) c 1).pinFault_spec c (16 * pairIdx i j + lag) die (s.pairBeam c i j)
  have hreg (i : Nat) (hi : i < 0x400) : (s.bbrFault (sCor die) c 1).reg (ra (sCor die) i) = s.reg (ra (sCor die) i) := by
    refine State.bbrPush_reg_page _ _ _ ?_
    rw [ra_div _ _ hi]
    unfold sCor sBbr
    omega
  have hreg64 : (s.bbrFault (sCor die) c 1).reg64 (sCor die) 0x040 = s.reg64 (sCor die) 0x040 := by
    rw [State.reg64, hreg _ (by decide), hreg _ (by decide)]
    rfl
  rw [State.bbrFault_cor] at hcor hcount
  rw [hreg64] at hcount
  unfold State.tilePinned
  rw [if_pos hreal]
  exact ⟨hcor, hcount⟩

/-- A failed tile of a run leaves the tiles that wait for the boundary. -/
theorem State.tilePinned_subst (s : State) (c i j lag die : Nat) : ((s.tilePinned c i j lag die).cor c).subst = (s.cor c).subst := by
  by_cases hreal : i ≤ j ∧ j < s.slotCnt c
  · rw [(s.tilePinned_real c i j lag die hreal).1, Cor.onHarvest]
    split <;> rfl
  · rw [s.tilePinned_cor c i j lag die (Or.inl hreal)]

theorem State.retireTile_spare {die : Nat} (h : s.spareLeft die = true) : s.retireTile die = (false, s.takeSpare die) := if_pos h

theorem State.takeSpare_used (s : State) (die : Nat) : (s.takeSpare die).spareUsed die = s.spareUsed die + 1 :=
  Sparse.get_set_same 0 s.spares die (s.spareUsed die + 1)

/-- The tiles of a stopping context retired where a spare is left for the one that has just failed. -/
theorem State.retireTiles_one {die : Nat} (hsub : (s.cor c).subst = [die]) (hleft : s.spareLeft die = true) :
    ((s.retireTiles c).cor c).subst = [] ∧ (s.retireTiles c).spareUsed die = s.spareUsed die + 1 ∧ (s.retireTiles c).bbr = s.bbr ∧
    (s.retireTiles c).caps = s.caps := by
  have hset := s.setCor_same c { s.cor c with subst := [] }
  have heq : s.retireTiles c = (s.setCor c { s.cor c with subst := [] }).takeSpare die := by
    unfold State.retireTiles
    dsimp only
    rw [hsub, State.each_cons, State.each_nil, State.retireTile_spare (s := s.setCor c { s.cor c with subst := [] }) hleft]
  rw [heq]
  exact ⟨congrArg Cor.subst hset, State.takeSpare_used _ _, rfl, rfl⟩

/-- An operation whose effect settles only draining contexts. -/
theorem answers_of_drained {i : Instr} {f : State → State} {P : State → Prop} (hpow : s.Powered)
    (hi : exec i s = command t (fun s => (s.asOf c f).settle) s) (hold : Sparse.get [] s.oldWords c = [])
    (hcaps : ∀ e ∈ (f (s.advance t)).caps, e.2.full = false) (h : ∀ z l, Drained (f (s.advance t)) z → P (z.wrapped s (max s.now t) l)) : Answers i s P := by
  refine answers_of_wrapped hpow hi fun l => ?_
  rw [State.asOf_plain (s := s.advance t) hold]
  exact h _ l (State.settle_drained hcaps)

/-- What draining contexts leave. -/
theorem Drained.keeps (h : Drained s z) : z.cors = s.cors ∧ z.dma = s.dma ∧ z.regs = s.regs ∧ z.bbr = s.bbr ∧ z.spares = s.spares := by
  obtain ⟨⟨_, _, _, _, rfl⟩, -⟩ := h
  exact ⟨rfl, rfl, rfl, rfl, rfl⟩

theorem State.tileNoted_keeps (s : State) (c die : Nat) : (s.tileNoted c die).cor c = { s.cor c with subst := (s.cor c).subst ++ [die] } ∧
    (s.tileNoted c die).bbr = s.bbr ∧ (s.tileNoted c die).spares = s.spares ∧ (s.tileNoted c die).regs = s.regs ∧ (s.tileNoted c die).caps = s.caps :=
  ⟨State.setCor_same _ _ _, rfl, rfl, rfl, rfl⟩

theorem State.moveTile_spare {die : Nat} (h : s.spareLeft die = true) : s.moveTile c die = s.takeSpare die := by
  unfold State.moveTile
  rw [State.retireTile_spare h]
  exact if_neg Bool.false_ne_true

/-! ### Spares that fail their test -/

theorem State.sliceLoss_spec (s : State) (die : Nat) : Side s (s.sliceLoss die) ∧ (s.sliceLoss die).rfld (sCor die) 0x014 0 10 = s.rfld (sCor die) 0x014 0 10 - 1 ∧
    bit ((s.sliceLoss die).reg (ra (sCor die) 0x008)) 3 = true := by
  refine ⟨(State.setReg_side _ _ _).trans (State.evt_side _ _ _), ?_, State.evt_bit _ (by decide)⟩
  have hlt : s.rfld (sCor die) 0x014 0 10 < 2 ^ 10 := Nat.mod_lt _ (by decide)
  rw [State.rfld, State.sliceLoss, State.evt_reg_above _ _ _ (by decide), State.setRegN, State.setReg_reg_same, fld, BitVec.toNat_ofNat, Nat.shiftRight_zero]
  omega

/-! ### The obligation -/

/-- Settles O51, part by part: products, a close, a block's bytes, blocks handed on, failed tiles and failed spares. -/
theorem correlator : Obligations.Correlator := by
  refine ⟨mem_binProducts, fun i j i' j' => pairIdx_injective, fun w v _ => ⟨accAdd_plain w v, accAdd_beam w v⟩, fun s c h stopped hcur hlad => ?_,
    fun s c h l => ?_, fun s t c hpow hcaps hold => ?_, fun s t die hpow => ⟨fun hleft => ?_, fun hleft => ?_⟩⟩
  · obtain ⟨hseq, hroom, hfull⟩ := State.corClose_spec c.isLt hcur hlad stopped
    intro x s' marks h1
    have hcases : (s'.cor c).cur = none ∧ (s'.cor c).epochBit = !x.epochBit := by
      rcases lt_or_ge x.bufs (s.corNbuf c) with hlt | hge
      · rw [(hroom hlt).1]
        exact ⟨rfl, rfl⟩
      · rw [(hfull hge).1]
        exact ⟨rfl, rfl⟩
    refine ⟨hseq, hcases.1, hcases.2, fun hlt => ?_, fun hge => ?_⟩
    · obtain ⟨hcor, hsix⟩ := hroom hlt
      rw [hcor]
      exact ⟨rfl, rfl, rfl, hsix⟩
    · obtain ⟨hcor, hsix, hcount, hbit⟩ := hfull hge
      rw [hcor]
      exact ⟨rfl, rfl, rfl, hsix, hcount, hbit⟩
  · obtain ⟨hlen, hacc⟩ := s.residentBlock_spec c h
    exact ⟨hlen, s.length_ladderBlock c l, hacc⟩
  · intro u x ch sent
    have hsettle (hset : s.Settled) : u.settle = u := State.settle_id (hset.of_eq rfl rfl)
    refine ⟨fun hset hnone => ?_, fun hset hnone => ?_, fun h r hsweep => ?_, fun l r hsweep => ?_, fun i j lag die => ?_⟩
    · refine next_of hpow (exec_harvest t c false s) (x := u) ?_ (Quiet.refl _)
      rw [State.asOf_plain (s := u) hold, State.harvest_none (s := u) hnone]
      exact hsettle hset
    · refine next_of hpow (exec_harvest t c true s) (x := u) ?_ (Quiet.refl _)
      rw [State.asOf_plain (s := u) hold, State.harvest_noLadder (s := u) hnone]
      exact hsettle hset
    · obtain ⟨hhand, hcap, hcount, hbit, hfive, hopen, hdone⟩ :=
        u.blockReleased_spec c { kind := 2, body := u.residentBlock c h, src := .harvest c } { u.cor c with sweep := r } h.trunc
      have heq := State.harvest_resident (s := u) hsweep
      rw [← heq] at hhand hcap hcount hbit hfive hopen hdone
      refine answers_of_drained hpow (exec_harvest t c false s) hold (by rw [hcap]; exact hcaps) fun z l hz => ?_
      obtain ⟨hcors, hdma, hregs, -, -⟩ := hz.keeps
      have htab := hz.2
      have hreg (a : Nat) : z.reg a = (u.harvest c false).reg a := by rw [State.reg, hregs, State.reg]
      have hcorZ : z.cor c = (u.harvest c false).cor c := by rw [State.cor, hcors, State.cor]
      refine ⟨⟨?_, ?_, ?_, ?_⟩, fun hcl => ?_, fun hcl hcur hnil hlad hready hown => ?_⟩
      · exact (congrArg (fun m : List (Nat × Dma) => (Sparse.get ({} : Dma) m ch).handed) hdma).trans hhand
      · exact (State.reg64_congr hregs _ _).trans hcount
      · exact (congrArg (bit · 0) (hreg _)).trans hbit
      · exact (congrArg (bit · 5) (hreg _)).trans hfive
      · exact hcorZ.trans (hopen hcl)
      · obtain ⟨hrel, hslices⟩ := hdone hcl hcur hnil hlad hready hown
        refine ⟨hcorZ.trans hrel, (htab _ ?_).trans hslices⟩
        have hc := c.isLt
        unfold oCor
        omega
    · obtain ⟨hhand, hcap, hcount, hbit, hfive, hopen, -⟩ :=
        u.blockReleased_spec c { kind := 2, body := u.ladderBlock c l, src := .ladder c } { u.cor c with ladSweep := r } l.trunc
      have heq := State.harvest_ladder (s := u) hsweep
      rw [← heq] at hhand hcap hcount hbit hfive hopen
      refine answers_of_drained hpow (exec_harvest t c true s) hold (by rw [hcap]; exact hcaps) fun z l' hz => ?_
      obtain ⟨hcors, hdma, hregs, -, -⟩ := hz.keeps
      have hreg (a : Nat) : z.reg a = (u.harvest c true).reg a := by rw [State.reg, hregs, State.reg]
      have hcorZ : z.cor c = (u.harvest c true).cor c := by rw [State.cor, hcors, State.cor]
      refine ⟨⟨?_, ?_, ?_, ?_⟩, fun hcl => ?_⟩
      · exact (congrArg (fun m : List (Nat × Dma) => (Sparse.get ({} : Dma) m ch).handed) hdma).trans hhand
      · exact (State.reg64_congr hregs _ _).trans hcount
      · exact (congrArg (bit · 0) (hreg _)).trans hbit
      · exact (congrArg (bit · 5) (hreg _)).trans hfive
      · exact hcorZ.trans (hopen hcl)
    · intro key beam real pinned
      obtain ⟨hbbr, hspares, hcap⟩ := u.tilePinned_keeps c i j lag die
      obtain ⟨hnoted, hbbrN, hsparesN, hregsN, hcapN⟩ := (u.tilePinned c i j lag die).tileNoted_keeps c die
      have hfault (hrun : x.run = 1) (hcl : x.closing = false) : u.tileFault c i j lag die = (u.tilePinned c i j lag die).tileNoted c die :=
        (State.tileFault_resident (s := u) hrun i j lag die).trans (if_neg (by rw [show (u.cor c).closing = false from hcl]; exact Bool.false_ne_true))
      have hfin (P : State → Prop) (hrun : x.run = 1) (hcl : x.closing = false)
          (h : ∀ (z : State) (l : List (Nat × Nat)), z.cor c = ((u.tilePinned c i j lag die).tileNoted c die).cor c → z.regs = (u.tilePinned c i j lag die).regs →
            z.bbr = (u.bbrFault (sCor die) c 1).bbr → P (z.wrapped s (max s.now t) l)) : Answers (.arrayTileFault t c i j lag die) s P := by
        have heq := hfault hrun hcl
        refine answers_of_drained hpow (exec_arrayTileFault t c i j lag die s) hold (by rw [heq, hcapN, hcap]; exact hcaps) fun z l hz => ?_
        obtain ⟨hcors, -, hregs, hbbrZ, -⟩ := hz.keeps
        rw [heq] at hcors hregs hbbrZ
        exact h z l (by rw [State.cor, hcors, State.cor]) (hregs.trans hregsN) (hbbrZ.trans (hbbrN.trans hbbr))
      refine ⟨fun hset hrun => ?_, fun hrun hcl => ⟨fun hno => ?_, fun h hreal hst hcur => ?_, fun l h hreal hst hsweep => ?_⟩, fun hrun hcl hsub hleft => ?_, fun hrun hleft => ?_⟩
      · refine next_of hpow (exec_arrayTileFault t c i j lag die s) (x := u) ?_ (Quiet.refl _)
        rw [State.asOf_plain (s := u) hold, State.tileFault_idle (s := u) hrun]
        exact hsettle hset
      · refine hfin _ hrun hcl fun z l hcor _ hbbrZ => ⟨hcor.trans (hnoted.trans ?_), hbbrZ⟩
        rw [u.tilePinned_cor c i j lag die hno]
        rfl
      · obtain ⟨hcorP, hcountP⟩ := u.tilePinned_real c i j lag die hreal
        have hown : (u.cor c).onHarvest key (fun h => h.pin key (u.pairBeam c i j)) = { x with cur := some (h.pin key (u.pairBeam c i j)) } := by
          refine (if_neg (by rw [show (u.cor c).stale key = false from hst]; exact Bool.false_ne_true)).trans ?_
          rw [show (u.cor c).cur = some h from hcur]
          rfl
        have hof : (u.cor c).harvestOf key = some h := (if_neg (by rw [show (u.cor c).stale key = false from hst]; exact Bool.false_ne_true)).trans hcur
        obtain ⟨hfaulty, hin, hacc, helse⟩ := h.pin_spec key (u.pairBeam c i j)
        refine hfin _ hrun hcl fun z l hcor hregs hbbrZ => ⟨h.pin key (u.pairBeam c i j), hcor.trans (hnoted.trans ?_), hfaulty, hin, hacc, helse, fun hnew => ?_, hbbrZ⟩
        · rw [hcorP.trans hown]
        · refine (State.reg64_congr hregs _ _).trans (hcountP ?_)
          rw [show (u.cor c).harvestOf (16 * pairIdx i j + lag) = some h from hof]
          exact (Bool.not_eq_true' _).mpr (Bool.eq_false_iff.mpr fun e => hnew (List.contains_iff_mem.mp e))
      · obtain ⟨hcorP, hcountP⟩ := u.tilePinned_real c i j lag die hreal
        have hlast : (u.cor c).sweep = l ++ [h] := hsweep
        have hown : (u.cor c).onHarvest key (fun h => h.pin key (u.pairBeam c i j)) = { x with sweep := l ++ [h.pin key (u.pairBeam c i j)] } := by
          refine (if_pos hst).trans ?_
          rw [hlast, List.dropLast_concat, List.getLast?_concat]
          rfl
        have hof : (u.cor c).harvestOf key = some h := (if_pos hst).trans (by rw [hlast, List.getLast?_concat])
        obtain ⟨hfaulty, hin, hacc, helse⟩ := h.pin_spec key (u.pairBeam c i j)
        refine hfin _ hrun hcl fun z l' hcor hregs hbbrZ => ⟨h.pin key (u.pairBeam c i j), hcor.trans (hnoted.trans ?_), hfaulty, hin, hacc, helse, fun hnew => ?_, hbbrZ⟩
        · rw [hcorP.trans hown]
        · refine (State.reg64_congr hregs _ _).trans (hcountP ?_)
          rw [show (u.cor c).harvestOf (16 * pairIdx i j + lag) = some h from hof]
          exact (Bool.not_eq_true' _).mpr (Bool.eq_false_iff.mpr fun e => hnew (List.contains_iff_mem.mp e))
      · have heq := (State.tileFault_resident (s := u) hrun i j lag die).trans (if_pos hcl)
        have hone : (((u.tilePinned c i j lag die).tileNoted c die).cor c).subst = [die.val] := by
          rw [hnoted]
          refine (congrArg (· ++ [die.val]) (u.tilePinned_subst c i j lag die)).trans ?_
          rw [show (u.cor c).subst = [] from hsub, List.nil_append]
        have hsp : ((u.tilePinned c i j lag die).tileNoted c die).spares = s.spares := hsparesN.trans hspares
        have hused : ((u.tilePinned c i j lag die).tileNoted c die).spareUsed die = s.spareUsed die := by rw [State.spareUsed, hsp, State.spareUsed]
        have hleft' : ((u.tilePinned c i j lag die).tileNoted c die).spareLeft die = true := by
          rw [State.spareLeft, hused]
          exact hleft
        obtain ⟨hsubZ, husedZ, hbbrR, hcapR⟩ := State.retireTiles_one hone hleft'
        rw [← heq] at hsubZ husedZ hbbrR hcapR
        refine answers_of_drained hpow (exec_arrayTileFault t c i j lag die s) hold (by rw [hcapR, hcapN, hcap]; exact hcaps) fun z l hz => ?_
        obtain ⟨hcors, -, -, hbbrZ, hsparesZ⟩ := hz.keeps
        refine ⟨?_, ?_, hbbrZ.trans (hbbrR.trans (hbbrN.trans hbbr))⟩
        · exact (congrArg (fun m => (Sparse.get {} m c : Cor).subst) hcors).trans hsubZ
        · exact (congrArg (Sparse.get 0 · die) hsparesZ).trans (husedZ.trans (congrArg (· + 1) hused))
      · have hsparesF : (u.bbrFault (sCor die) c 1).spares = s.spares ∧ (u.bbrFault (sCor die) c 1).caps = s.caps := by
          obtain ⟨_, _, _, _, _, hx⟩ := u.bbrFault_side (sCor die) c 1
          rw [hx]
          exact ⟨rfl, rfl⟩
        have hused : (u.bbrFault (sCor die) c 1).spareUsed die = s.spareUsed die := by rw [State.spareUsed, hsparesF.1, State.spareUsed]
        have hleft' : (u.bbrFault (sCor die) c 1).spareLeft die = true := by
          rw [State.spareLeft, hused]
          exact hleft
        have heq := (State.tileFault_blocked (s := u) hrun i j lag die).trans (State.moveTile_spare hleft')
        have hreg : (u.bbrFault (sCor die) c 1).reg (ra (sCor die) 0x014) = s.reg (ra (sCor die) 0x014) := by
          refine State.bbrPush_reg_page _ _ _ ?_
          rw [ra_div _ _ (by decide)]
          unfold sCor sBbr
          omega
        refine answers_of_drained hpow (exec_arrayTileFault t c i j lag die s) hold (by rw [heq]; exact hsparesF.2 ▸ hcaps) fun z l hz => ?_
        obtain ⟨hcors, -, hregs, -, hsparesZ⟩ := hz.keeps
        rw [heq] at hcors hregs hsparesZ
        refine ⟨?_, ?_, ?_⟩
        · exact (congrArg (Sparse.get 0 · die) hsparesZ).trans ((State.takeSpare_used _ _).trans (congrArg (· + 1) hused))
        · exact (congrArg (fun m => (Sparse.get {} m c : Cor)) hcors).trans (u.bbrFault_cor _ _ _ c)
        · exact (congrArg (fun m => Sparse.get (regReset (ra (sCor die) 0x014)) m (ra (sCor die) 0x014)) hregs).trans hreg
  · refine answers_of hpow (exec_spareTestFail t die s) (x := (s.advance t).takeSpare die) (if_pos hleft) (by constructor <;> rfl) ?_
    exact ⟨State.takeSpare_used _ _, rfl⟩
  · obtain ⟨hside, hfld, hbit⟩ := (s.advance t).sliceLoss_spec die
    refine answers_of hpow (exec_spareTestFail t die s) (x := (s.advance t).sliceLoss die) (if_neg ?_) hside.quiet ⟨hfld, hbit, hside⟩
    rw [show (s.advance t).spareLeft die = false from hleft]
    exact Bool.false_ne_true

end Sys2Proof.Machine
end

section
/-! Proofs about signal blocks: the ring's pairs, judging, completion and deadlines (R244 to R251). -/

namespace Sys2Proof.Machine

variable {s x y z : State} {n b p c t : Nat} {k : SigBlock}

/-! ### The pairs of a ring -/

/-- The device that computes the products of two groups of a ring, by where the row lies in its group. -/
def ringOwner (d gi gj : Nat) (low : Bool) : Nat :=
  if gi = gj then gi else if (gi + 1) % d = gj ∧ 2 < d then gi else if (gj + 1) % d = gi ∧ 2 < d then gj else if low then gi else gj

/-- Which device computes the products of two groups, as `ownsPair` says it. -/
def ownsGroups (pos d gi gj : Nat) (low : Bool) : Bool :=
  if gi = gj then decide (gi = pos)
  else if ((List.range' 1 (cdiv d 2 - 1)).any fun m => decide ((pos + m) % d = gj)) && decide (gi = pos) then true
  else if ((List.range' 1 (cdiv d 2 - 1)).any fun m => decide ((pos + m) % d = gi)) && decide (gj = pos) then true
  else if d % 2 = 0 ∧ gi + d / 2 = gj then (if low then decide (pos = gi) else decide (pos = gj))
  else false

theorem ownsPair_eq (pos d n i j : Nat) : ownsPair pos d n i j = ownsGroups pos d (i / n) (j / n) (decide (i % n < n / 2)) := by
  unfold ownsPair ownsGroups
  by_cases hlow : i % n < n / 2
  · rw [decide_eq_true hlow]
    simp only [if_pos hlow, if_true]
  · rw [decide_eq_false hlow]
    simp only [if_neg hlow, Bool.false_eq_true, if_false]

/-- Every pair of groups of a ring of at most four has one owner, and it holds both groups. -/
theorem ownsGroups_unique : ∀ d ∈ List.range 5, ∀ gj ∈ List.range d, ∀ gi ∈ List.range (gj + 1), ∀ low : Bool,
    ringOwner d gi gj low < d ∧ (∀ q ∈ List.range d, ownsGroups q d gi gj low = decide (q = ringOwner d gi gj low)) ∧
    (List.range (d / 2 + 1)).any (fun a => decide ((ringOwner d gi gj low + a) % d = gi)) = true ∧
    (List.range (d / 2 + 1)).any (fun a => decide ((ringOwner d gi gj low + a) % d = gj)) = true := by decide

theorem ringPairs (d n i j : Nat) (hd : d ≤ 4) (hij : i ≤ j) (hj : j < d * n) : ∃ pos, pos < d ∧
    (∀ q, q < d → (ownsPair q d n i j = true ↔ q = pos)) ∧
    ∃ a b, a ≤ d / 2 ∧ b ≤ d / 2 ∧ (pos + a) % d = i / n ∧ (pos + b) % d = j / n := by
  have hgj : j / n < d := Nat.div_lt_of_lt_mul (by rw [Nat.mul_comm]; exact hj)
  have hgi : i / n ≤ j / n := Nat.div_le_div_right hij
  obtain ⟨hpos, huniq, hi, hj'⟩ := ownsGroups_unique d (List.mem_range.mpr (by omega)) (j / n) (List.mem_range.mpr hgj) (i / n) (List.mem_range.mpr (by omega))
    (decide (i % n < n / 2))
  obtain ⟨a, ha, hai⟩ := List.any_eq_true.mp hi
  obtain ⟨b, hb, hbj⟩ := List.any_eq_true.mp hj'
  refine ⟨_, hpos, fun q hq => ?_, a, b, Nat.lt_succ_iff.mp (List.mem_range.mp ha), Nat.lt_succ_iff.mp (List.mem_range.mp hb), of_decide_eq_true hai, of_decide_eq_true hbj⟩
  rw [ownsPair_eq, huniq q (List.mem_range.mpr hq), decide_eq_true_iff]

/-! ### Blocks that are judged -/

/-- A context after one of its own blocks is judged. -/
def Cor.judged (x : Cor) (k : SigBlock) (B : Nat) : Cor :=
  { x with
    ready := x.ready ++ [({ first := k.first, orig := k.orig, blocks := x.present k, last := k.last } : BlkJob)]
    slots := x.slots.filter fun y => !(decide (y.first = k.first) && decide (y.orig = k.orig))
    nextBlk := if k.orig = x.blkGrid then some (k.first + B) else x.nextBlk }

/-- The groups that an own block misses. -/
def State.missing (s : State) (c : Nat) (k : SigBlock) : List Nat := (s.needed c).filter fun g => !(((s.cor c).present k).any fun y => decide (y.group = g))

theorem State.judgeBlk_eq (s : State) (c : Nat) (k : SigBlock) : s.judgeBlk c k =
    if (s.missing c k).isEmpty then s.setCor c ((s.cor c).judged k (s.blkB c))
    else ((s.setCor c ((s.cor c).judged k (s.blkB c))).tbump (oBlk c 1) (s.missing c k).length).evt sCas 4 := rfl

/-- A block that a context holds: in a slot, or judged and not yet processed. -/
def Cor.Held (x : Cor) (k : SigBlock) : Prop := k ∈ x.slots ∨ ∃ j ∈ x.ready, k ∈ j.blocks

theorem Cor.Held.judged {x : Cor} (h : x.Held k) (y : SigBlock) (B : Nat) : (x.judged y B).Held k := by
  obtain hslot | ⟨j, hj, hk⟩ := h
  · by_cases hsame : (decide (k.first = y.first) && decide (k.orig = y.orig)) = true
    · exact Or.inr ⟨_, List.mem_append_right _ (List.mem_singleton.mpr rfl), List.mem_filter.mpr ⟨hslot, hsame⟩⟩
    · exact Or.inl (List.mem_filter.mpr ⟨hslot, by rw [Bool.eq_false_iff.mpr hsame]; rfl⟩)
  · exact Or.inr ⟨j, List.mem_append_left _ hj, hk⟩

theorem State.missing_nil {k : SigBlock} (h : ((s.needed c).all fun g => ((s.cor c).present k).any fun y => decide (y.group = g)) = true) :
    (s.missing c k).isEmpty = true := by
  rw [List.isEmpty_iff, State.missing, List.filter_eq_nil_iff]
  intro g hg
  rw [List.all_eq_true.mp h g hg]
  exact Bool.false_ne_true

/-- What judging complete blocks leaves: the context's entry, which holds what it held. -/
structure Judged (c : Nat) (s z : State) : Prop where
  eq : ∃ m, z = { s with cors := m }
  full : (z.cor c).full = (s.cor c).full
  held : ∀ k, (s.cor c).Held k → (z.cor c).Held k

theorem Judged.refl (c : Nat) (s : State) : Judged c s s := ⟨⟨_, rfl⟩, rfl, fun _ h => h⟩

theorem Judged.trans (h : Judged c s y) (h' : Judged c y z) : Judged c s z := by
  obtain ⟨m, rfl⟩ := h.eq
  obtain ⟨m', rfl⟩ := h'.eq
  exact ⟨⟨m', rfl⟩, h'.full.trans h.full, fun k hk => h'.held k (h.held k hk)⟩

theorem State.judgeNext_judged (s : State) (c : Nat) : Judged c s (s.judgeNext c false) := by
  unfold State.judgeNext
  split
  next k r heq =>
    dsimp only
    rw [Bool.false_or]
    split
    next hall =>
      have hset := s.setCor_same c ((s.cor c).judged k (s.blkB c))
      rw [State.judgeBlk_eq, if_pos (State.missing_nil hall)]
      exact ⟨⟨_, rfl⟩, by rw [hset]; rfl, fun y hy => by rw [hset]; exact hy.judged k _⟩
    · exact Judged.refl c s
  · exact Judged.refl c s

theorem State.judgeAll_judged (s : State) (c : Nat) : Judged c s (s.judgeAll c) :=
  State.each_induct (P := Judged c s) (fun u _ _ hu => hu.trans (u.judgeNext_judged c)) (Judged.refl c s)

/-! ### A signal block of the own group -/

/-- An own block taken into a slot. -/
def Cor.slotted (x : Cor) (k : SigBlock) (r : List SigBlock) : Cor := { x with full := r, slots := x.slots ++ [k] }

/-- A whole own block sent downstream. -/
def State.blockSentOn (s : State) (u : State) (c : Nat) (k : SigBlock) : State :=
  (u.casSend (s.casHeader c (s.ringD c / 2) k) (packBlock (s.blkBeam c) (s.slotCnt c) k)).bump64 sCas 0x024 1

theorem State.bump64_eq (s : State) (slot off m : Nat) : ∃ g, s.bump64 slot off m = { s with regs := g } := ⟨_, rfl⟩

theorem State.blockSentOn_spec (s u : State) (c : Nat) (k : SigBlock) : (s.blockSentOn u c k).cors = u.cors ∧
    (s.blockSentOn u c k).out = .casIdle u.casIdleWord :: .casTransfer (s.casHeader c (s.ringD c / 2) k) (packBlock (s.blkBeam c) (s.slotCnt c) k) :: u.out ∧
    (s.blockSentOn u c k).reg64 sCas 0x024 = min (u.reg64 sCas 0x024 + 1) (2 ^ 64 - 1) := by
  have hcount : (s.blockSentOn u c k).reg64 sCas 0x024 = min (u.reg64 sCas 0x024 + 1) (2 ^ 64 - 1) := State.reg64_bump64 _ _ _ _
  obtain ⟨g, hg⟩ := State.bump64_eq (u.casSend (s.casHeader c (s.ringD c / 2) k) (packBlock (s.blkBeam c) (s.slotCnt c) k)) sCas 0x024 1
  refine ⟨?_, ?_, hcount⟩
  · rw [State.blockSentOn, hg]
    rfl
  · rw [State.blockSentOn, hg]
    rfl

theorem State.signalBlock_none (h : (s.cor c).full = []) : s.signalBlock c = s := by
  unfold State.signalBlock
  dsimp only
  rw [h]

theorem State.signalBlock_some {r : List SigBlock} (h : (s.cor c).full = k :: r) : s.signalBlock c =
    (if s.casc c && decide (k.bins.length = s.blkB c) then s.blockSentOn (s.setCor c ((s.cor c).slotted k r)) c k
      else s.setCor c ((s.cor c).slotted k r)).judgeAll c := by
  unfold State.signalBlock
  dsimp only
  split
  next k' r' heq =>
    obtain ⟨rfl, rfl⟩ := List.cons.inj (h.symm.trans heq)
    rfl
  next heq => exact absurd (h.symm.trans heq) (List.cons_ne_nil _ _)

/-- Outside a cascade a block of a context that needs no other group is judged at once. -/
theorem State.signalBlock_alone {r : List SigBlock} (h : (s.cor c).full = k :: r) (hcasc : s.casc c = false) (hslots : (s.cor c).slots = [])
    (hgroup : k.group = s.ringPos c) (hneeded : s.needed c = [k.group]) :
    s.signalBlock c = (s.setCor c ((s.cor c).slotted k r)).setCor c (((s.cor c).slotted k r).judged k (s.blkB c)) := by
  have hset := s.setCor_same c ((s.cor c).slotted k r)
  have hslot : ((s.cor c).slotted k r).slots = [k] := by
    rw [Cor.slotted, hslots]
    rfl
  have hpos : (s.setCor c ((s.cor c).slotted k r)).ringPos c = s.ringPos c := by
    unfold State.ringPos
    rw [hset]
    rfl
  have hneed : (s.setCor c ((s.cor c).slotted k r)).needed c = [k.group] := by
    rw [← hneeded]
    unfold State.needed State.ringD State.ringPos
    rw [hset]
    rfl
  have hown : (s.setCor c ((s.cor c).slotted k r)).ownBlks c = [k] := by
    rw [State.ownBlks, hset, hslot, hpos]
    exact List.filter_cons_of_pos (decide_eq_true hgroup)
  have hpresent : ((s.cor c).slotted k r).present k = [k] := by
    rw [Cor.present, hslot]
    exact List.filter_cons_of_pos (by rw [decide_eq_true rfl, decide_eq_true rfl]; rfl)
  have hall : (((s.setCor c ((s.cor c).slotted k r)).needed c).all fun g =>
      (((s.setCor c ((s.cor c).slotted k r)).cor c).present k).any fun y => decide (y.group = g)) = true := by
    rw [hneed, hset, hpresent, List.all_cons, List.all_nil, List.any_cons, decide_eq_true rfl]
    rfl
  have hB : (s.setCor c ((s.cor c).slotted k r)).blkB c = s.blkB c := rfl
  have hnext : (s.setCor c ((s.cor c).slotted k r)).judgeNext c false =
      (s.setCor c ((s.cor c).slotted k r)).setCor c (((s.cor c).slotted k r).judged k (s.blkB c)) := by
    unfold State.judgeNext
    split
    next k' r' heq =>
      obtain ⟨rfl, -⟩ := List.cons.inj (hown.symm.trans heq)
      dsimp only
      rw [Bool.false_or, if_pos hall, State.judgeBlk_eq, if_pos (State.missing_nil hall), hset, hB]
    next heq => exact absurd (hown.symm.trans heq) (List.cons_ne_nil _ _)
  rw [State.signalBlock_some h, hcasc, Bool.false_and, if_neg Bool.false_ne_true, State.judgeAll, hown, State.each_cons, State.each_nil, hnext]

theorem Cor.judged_alone {x : Cor} {r : List SigBlock} (hslots : x.slots = []) (hgrid : k.orig = x.blkGrid) (B : Nat) :
    (x.slotted k r).judged k B =
      { x with full := r, ready := x.ready ++ [⟨k.first, k.orig, [k], k.last, false⟩], nextBlk := some (k.first + B) } := by
  have hslot : (x.slotted k r).slots = [k] := by
    rw [Cor.slotted, hslots]
    rfl
  have hpresent : (x.slotted k r).present k = [k] := by
    rw [Cor.present, hslot]
    exact List.filter_cons_of_pos (by rw [decide_eq_true rfl, decide_eq_true rfl]; rfl)
  have hempty : (x.slotted k r).slots.filter (fun y => !(decide (y.first = k.first) && decide (y.orig = k.orig))) = x.slots := by
    rw [hslot, hslots]
    refine List.filter_cons_of_neg ?_
    rw [decide_eq_true rfl, decide_eq_true rfl]
    exact Bool.false_ne_true
  unfold Cor.judged
  rw [hpresent, hempty, show (x.slotted k r).blkGrid = x.blkGrid from rfl, if_pos hgrid]
  rfl

/-- In a cascade a whole block is sent downstream with an IDLE word after it, and it is held until it is processed. -/
theorem State.signalBlock_cascaded {r : List SigBlock} (h : (s.cor c).full = k :: r) (hcasc : s.casc c = true) :
    (k.bins.length = s.blkB c → (s.signalBlock c).out = .casIdle s.casIdleWord ::
        .casTransfer (s.casHeader c (s.ringD c / 2) k) (packBlock (s.blkBeam c) (s.slotCnt c) k) :: s.out ∧
      (s.signalBlock c).reg64 sCas 0x024 = min (s.reg64 sCas 0x024 + 1) (2 ^ 64 - 1)) ∧
    (k.bins.length ≠ s.blkB c → (s.signalBlock c).out = s.out ∧ (s.signalBlock c).regs = s.regs) ∧
    ((s.signalBlock c).cor c).full = r ∧ ((s.signalBlock c).cor c).Held k := by
  have hset := s.setCor_same c ((s.cor c).slotted k r)
  have hheld : ((s.cor c).slotted k r).Held k := Or.inl (List.mem_append_right _ (List.mem_singleton.mpr rfl))
  have heq := State.signalBlock_some h
  rw [hcasc, Bool.true_and] at heq
  by_cases hlen : k.bins.length = s.blkB c
  · rw [if_pos (decide_eq_true hlen)] at heq
    obtain ⟨hcors, hout, hcount⟩ := s.blockSentOn_spec (s.setCor c ((s.cor c).slotted k r)) c k
    have hcor : (s.blockSentOn (s.setCor c ((s.cor c).slotted k r)) c k).cor c = (s.cor c).slotted k r := by
      rw [State.cor, hcors, ← State.cor, hset]
    have hword : (s.setCor c ((s.cor c).slotted k r)).casIdleWord = s.casIdleWord := rfl
    rw [hword] at hout
    generalize s.blockSentOn (s.setCor c ((s.cor c).slotted k r)) c k = v at *
    obtain ⟨⟨m, hm⟩, hfull, hkeep⟩ := v.judgeAll_judged c
    rw [← heq] at hm hfull hkeep
    rw [hcor] at hfull hkeep
    refine ⟨fun _ => ⟨?_, ?_⟩, fun hne => absurd hlen hne, hfull, hkeep k hheld⟩
    · rw [hm]
      exact hout
    · rw [hm]
      exact hcount
  · rw [if_neg (by rw [decide_eq_false hlen]; exact Bool.false_ne_true)] at heq
    obtain ⟨⟨m, hm⟩, hfull, hkeep⟩ := (s.setCor c ((s.cor c).slotted k r)).judgeAll_judged c
    rw [← heq] at hm hfull hkeep
    rw [hset] at hfull hkeep
    refine ⟨fun he => absurd he hlen, fun _ => ⟨?_, ?_⟩, hfull, hkeep k hheld⟩
    · rw [hm]
      rfl
    · rw [hm]
      rfl

/-! ### Deadlines -/

theorem State.blockDeadline_early (h : (s.ownBlks c ++ (s.cor c).full).length < 2 ∨ s.ownBlks c = []) : s.blockDeadline c = s := by
  unfold State.blockDeadline
  split
  next hlen =>
    have hnil := h.resolve_left (not_lt.mpr hlen)
    unfold State.judgeNext
    rw [hnil]
  · rfl

theorem State.blockDeadline_due {r : List SigBlock} (h : s.ownBlks c = k :: r) (hlen : 2 ≤ (s.ownBlks c ++ (s.cor c).full).length) :
    s.blockDeadline c = s.judgeBlk c k := by
  refine (if_pos hlen).trans ?_
  unfold State.judgeNext
  split
  next k' r' heq =>
    obtain ⟨rfl, -⟩ := List.cons.inj (h.symm.trans heq)
    rfl
  next heq => exact absurd (h.symm.trans heq) (List.cons_ne_nil _ _)

/-- A block judged with what is present; what misses is counted (R251). -/
theorem State.judgeBlk_spec (s : State) (c : Nat) (k : SigBlock) :
    let miss := (s.missing c k).length
    let z := s.judgeBlk c k
    z.cor c = (s.cor c).judged k (s.blkB c) ∧
    (z.tabw (oBlk c 1)).toNat = (if miss = 0 then (s.tabw (oBlk c 1)).toNat else min ((s.tabw (oBlk c 1)).toNat + miss) (2 ^ 32 - 1)) ∧
    (miss ≠ 0 → bit (z.reg (ra sCas 0x008)) 4 = true) ∧ (miss = 0 → z.regs = s.regs ∧ z.out = s.out) := by
  have hset := s.setCor_same c ((s.cor c).judged k (s.blkB c))
  intro miss z
  have hz : z = _ := s.judgeBlk_eq c k
  by_cases hmiss : miss = 0
  · have hnil : (s.missing c k).isEmpty = true := List.isEmpty_iff.mpr (List.eq_nil_of_length_eq_zero hmiss)
    rw [hz, if_pos hnil, if_pos hmiss]
    exact ⟨hset, rfl, fun h => absurd hmiss h, fun _ => ⟨rfl, rfl⟩⟩
  · have hne : ¬ (s.missing c k).isEmpty = true := fun h => hmiss (by rw [show miss = (s.missing c k).length from rfl, List.isEmpty_iff.mp h]; rfl)
    have hside := State.evt_side ((s.setCor c ((s.cor c).judged k (s.blkB c))).tbump (oBlk c 1) miss) sCas 4
    have hbit := State.evt_bit (s := (s.setCor c ((s.cor c).judged k (s.blkB c))).tbump (oBlk c 1) miss) sCas (b := 4) (by decide)
    have hword : (((s.setCor c ((s.cor c).judged k (s.blkB c))).tbump (oBlk c 1) miss).tabw (oBlk c 1)).toNat = min ((s.tabw (oBlk c 1)).toNat + miss) (2 ^ 32 - 1) := by
      refine (congrArg BitVec.toNat (State.setTabw_tabw_same _ _ _)).trans ((BitVec.toNat_ofNat _ _).trans (Nat.mod_eq_of_lt ?_))
      exact lt_of_le_of_lt (min_le_right _ _) (by decide)
    have hcor : ((s.setCor c ((s.cor c).judged k (s.blkB c))).tbump (oBlk c 1) miss).cor c = (s.cor c).judged k (s.blkB c) := hset
    rw [hz, if_neg hne, if_neg hmiss, show (s.missing c k).length = miss from rfl]
    refine ⟨?_, ?_, fun _ => hbit, fun h => absurd h hmiss⟩
    · obtain ⟨_, _, _, _, _, hx⟩ := hside
      rw [hx]
      exact hcor
    · rw [hside.tabw]
      exact hword

end Sys2Proof.Machine
end

section
/-! Proofs about judged blocks as the arrays process them (R245, R246, R253). -/

namespace Sys2Proof.Machine

variable {s x y z : State} {n b p c t : Nat} {k : SigBlock} {j : BlkJob} {r : List BlkJob} {h : Harv}

/-! ### Products into a Harvest -/

/-- What products change of a Harvest: accumulators and pins. -/
theorem Harv.add_spec (h : Harv) (w : Nat) (e : Nat × Bool × Int) : ∃ a p, (h.add w e).1 = { h with acc := a, pins := p } := by
  unfold Harv.add
  split
  · exact ⟨_, _, rfl⟩
  · exact ⟨_, _, rfl⟩

/-- One product added, with the accumulators that have pinned. -/
def Harv.addNoted (a : Harv × List Nat) (e : Nat × Bool × Int) : Harv × List Nat :=
  ((a.1.add 64 e).1, if (a.1.add 64 e).2 then e.1 :: a.2 else a.2)

theorem Harv.foldl_addNoted (ps : List (Nat × Bool × Int)) (a : Harv × List Nat) :
    ∃ acc pins, (ps.foldl Harv.addNoted a).1 = { a.1 with acc := acc, pins := pins } := by
  induction ps generalizing a with
  | nil => exact ⟨_, _, rfl⟩
  | cons e ps ih =>
    obtain ⟨acc, pins, h⟩ := ih (Harv.addNoted a e)
    obtain ⟨acc', pins', h'⟩ := a.1.add_spec 64 e
    refine ⟨acc, pins, h.trans ?_⟩
    rw [show (Harv.addNoted a e).1 = _ from h']

/-- The products of a judged block, as they are added: none to a Harvest that is discarded. -/
def State.blkAdded (s : State) (c : Nat) (h : Harv) (j : BlkJob) : Harv × List Nat :=
  (if h.discard then [] else s.blkProducts c j).foldl Harv.addNoted (h, [])

/-- The groups that a judged block misses. -/
def State.jobMissing (s : State) (c : Nat) (j : BlkJob) : List Nat := (s.needed c).filter fun g => !(j.blocks.any fun k => decide (k.group = g))

/-- The Harvest in progress after a judged block. -/
def State.harvTaken (s : State) (c : Nat) (h : Harv) (j : BlkJob) : Harv := (s.blkAdded c h j).1.take j.blocks (s.ringPos c) (s.jobMissing c j)

/-- A context whose judged block is processed into a Harvest. -/
def Cor.jobTaken (x : Cor) (h : Harv) (j : BlkJob) (r : List BlkJob) : Cor := { x with cur := some h, ready := r, prevBlk := j.blocks }

theorem State.blkTake_eq (s : State) (c : Nat) (h : Harv) (j : BlkJob) (r : List BlkJob) : s.blkTake c h j r =
    ((s.setCor c ((s.cor c).jobTaken (s.harvTaken c h j) j r)).each (s.blkAdded c h j).2 fun s k => s.corPinned (s.blkDie c (k / 16))).tbump (oBlk c 2) 1 := rfl

/-- The bins of the own group in a judged block. -/
def State.ownBins (s : State) (c : Nat) (j : BlkJob) : Nat := ((j.blocks.find? fun k => decide (k.group = s.ringPos c)).map (·.bins.length)).getD 0

theorem State.harvTaken_spec (s : State) (c : Nat) (h : Harv) (j : BlkJob) : (s.harvTaken c h j).bins = h.bins + s.ownBins c j ∧
    (s.harvTaken c h j).misses = h.misses + (s.jobMissing c j).length ∧ (s.harvTaken c h j).seq = h.seq ∧ (s.harvTaken c h j).want = h.want ∧
    (s.harvTaken c h j).discard = h.discard ∧ (h.discard = true → (s.harvTaken c h j).acc = h.acc) := by
  obtain ⟨acc, pins, heq⟩ := Harv.foldl_addNoted (if h.discard then [] else s.blkProducts c j) (h, [])
  have hadd : (s.blkAdded c h j).1 = { h with acc := acc, pins := pins } := heq
  have hbins (g : Harv) : (g.take j.blocks (s.ringPos c) (s.jobMissing c j)).bins = g.bins + s.ownBins c j := by
    unfold Harv.take State.ownBins
    dsimp only
    cases j.blocks.find? fun k => decide (k.group = s.ringPos c) <;> rfl
  refine ⟨?_, ?_, ?_, ?_, ?_, fun hd => ?_⟩
  · rw [State.harvTaken, hbins, hadd]
  · rw [State.harvTaken, hadd]
    rfl
  · rw [State.harvTaken, hadd]
    rfl
  · rw [State.harvTaken, hadd]
    rfl
  · rw [State.harvTaken, hadd]
    rfl
  · have hsame : (s.blkAdded c h j).1 = h := by
      rw [State.blkAdded, hd]
      rfl
    rw [State.harvTaken, hsame]
    rfl

/-- What counting pinned accumulators leaves. -/
structure PinSide (s z : State) : Prop where
  side : Side s z
  apart : ∀ a, (∀ d, a ≠ ra (sCor d) 0x040 ∧ a ≠ ra (sCor d) 0x044 ∧ a ≠ ra (sCor d) 0x004 ∧ a ≠ ra (sCor d) 0x008) → z.reg a = s.reg a
  kept : ∀ i, bit (s.reg (ra (sCor 0) 0x008)) i = true → bit (z.reg (ra (sCor 0) 0x008)) i = true

theorem PinSide.refl (s : State) : PinSide s s := ⟨Side.refl s, fun _ _ => rfl, fun _ h => h⟩

theorem PinSide.trans (h : PinSide s y) (h' : PinSide y z) : PinSide s z :=
  ⟨h.side.trans h'.side, fun a ha => (h'.apart a ha).trans (h.apart a ha), fun i hi => h'.kept i (h.kept i hi)⟩

theorem State.corPinned_pinSide (s : State) (die : Nat) : PinSide s (s.corPinned die) := by
  refine ⟨(State.bump64_side _ _ _ _).trans (State.evt_side _ _ _), fun a ha => ?_, fun i hi => ?_⟩
  · obtain ⟨h40, h44, h4, h8⟩ := ha die
    rw [State.corPinned, State.evt_reg_of_ne _ h4.symm h8.symm, State.bump64_reg h40.symm h44.symm]
  · have hsame : (s.bump64 (sCor die) 0x040 1).reg (ra (sCor 0) 0x008) = s.reg (ra (sCor 0) 0x008) := by
      refine State.bump64_reg ?_ ?_
      · unfold ra sCor
        omega
      · unfold ra sCor
        omega
    by_cases hd : die = 0
    · subst hd
      exact State.evt_bit_keep _ _ _ (by rw [hsame]; exact hi)
    · rw [State.corPinned, State.evt_reg_page _ ?_, hsame]
      · exact hi
      · unfold ra sCor
        omega

/-- What a block's processing leaves of a state beside its context's entry: the transfers, captures and contexts, and a word of the block table. -/
structure JobSide (c : Nat) (s z : State) : Prop where
  dma : z.dma = s.dma
  caps : z.caps = s.caps
  ctxs : z.ctxs = s.ctxs
  tab : ∀ o, o ≠ oBlk c 2 → z.tabw o = s.tabw o
  harvests : z.reg64 (sCor 0) 0x030 = s.reg64 (sCor 0) 0x030
  kept : ∀ i, bit (s.reg (ra (sCor 0) 0x008)) i = true → bit (z.reg (ra (sCor 0) 0x008)) i = true

/-- A judged block processed into the Harvest in progress. -/
theorem State.blkTake_spec (s : State) (c : Nat) (h : Harv) (j : BlkJob) (r : List BlkJob) :
    (s.blkTake c h j r).cor c = (s.cor c).jobTaken (s.harvTaken c h j) j r ∧ JobSide c s (s.blkTake c h j r) ∧
    ((s.blkTake c h j r).tabw (oBlk c 2)).toNat = min ((s.tabw (oBlk c 2)).toNat + 1) (2 ^ 32 - 1) := by
  have hset := s.setCor_same c ((s.cor c).jobTaken (s.harvTaken c h j) j r)
  have hpin : PinSide (s.setCor c ((s.cor c).jobTaken (s.harvTaken c h j) j r))
      ((s.setCor c ((s.cor c).jobTaken (s.harvTaken c h j) j r)).each (s.blkAdded c h j).2 fun s k => s.corPinned (s.blkDie c (k / 16))) :=
    State.each_induct (P := PinSide _) (fun u e _ hu => hu.trans (u.corPinned_pinSide _)) (PinSide.refl _)
  rw [State.blkTake_eq]
  generalize State.each _ (s.blkAdded c h j).2 _ = v at *
  obtain ⟨hside, hapart, hkept⟩ := hpin
  have htab := hside.tabw
  have hreg64 : v.reg64 (sCor 0) 0x030 = s.reg64 (sCor 0) 0x030 := by
    have hone (i : Nat) (hi : 0x00C ≤ i) (hi' : i < 0x040) : v.reg (ra (sCor 0) i) = s.reg (ra (sCor 0) i) := by
      refine hapart _ fun d => ?_
      unfold ra sCor
      omega
    rw [State.reg64, hone _ (by decide) (by decide), hone _ (by decide) (by decide)]
    rfl
  have hword : ((v.tbump (oBlk c 2) 1).tabw (oBlk c 2)).toNat = min ((s.tabw (oBlk c 2)).toNat + 1) (2 ^ 32 - 1) := by
    refine (congrArg BitVec.toNat (State.setTabw_tabw_same _ _ _)).trans ((BitVec.toNat_ofNat _ _).trans ?_)
    rw [htab]
    exact Nat.mod_eq_of_lt (lt_of_le_of_lt (min_le_right _ _) (by decide))
  have hother (o : Nat) (ho : o ≠ oBlk c 2) : (v.tbump (oBlk c 2) 1).tabw o = s.tabw o :=
    (State.setTabw_tabw_ne _ _ ho.symm).trans (htab o)
  obtain ⟨g, e, pb, o, b, hx⟩ := hside
  refine ⟨?_, ⟨?_, ?_, ?_, hother, hreg64, hkept⟩, hword⟩
  · rw [hx]
    exact hset
  · rw [hx]
    rfl
  · rw [hx]
    rfl
  · rw [hx]
    rfl

/-! ### A Harvest that a block fills -/

/-- A context after its Harvest has been written. -/
def Cor.blkClosed (x : Cor) (seen owed : Nat) : Cor := { x with cur := none, epochBit := !x.epochBit, seen := seen, owed := owed }

/-- A Harvest as it is written. -/
def Harv.written' (h : Harv) (marks : Nat) (stopped : Bool) : Harv := { h with stopped := stopped, trunc := decide (h.bins < h.want), flags := h.flags ||| marks }

theorem State.blkDone_discarded (hcur : (s.cor c).cur = some h) (hd : h.discard = true) (stopped : Bool) :
    ∃ m, s.blkDone c stopped = s.setCor c ((s.cor c).blkClosed (s.cor c).seen m) := by
  unfold State.blkDone
  dsimp only
  rw [hcur]
  exact ⟨_, if_pos hd⟩

theorem State.blkDone_written (hcur : (s.cor c).cur = some h) (hd : h.discard = false) (stopped : Bool) : ∃ seen body, s.blkDone c stopped =
    (if h.bins < h.want then ((s.setCor c ((s.cor c).blkClosed seen 0)).hand (s.corDma c) { kind := 2, body := body, src := .harvest c }).evt (sCor 0) 5
      else (s.setCor c ((s.cor c).blkClosed seen 0)).hand (s.corDma c) { kind := 2, body := body, src := .harvest c }).report c 6 1 1 := by
  unfold State.blkDone
  dsimp only
  rw [hcur]
  refine ⟨max (s.cor c).seen h.orig, s.blockedBlock c (h.written' ((s.cor c).marks h) stopped), (if_neg ?_).trans ?_⟩
  · rw [hd]
    exact Bool.false_ne_true
  · refine congrArg (State.report · c 6 1 1) ?_
    by_cases hlt : h.bins < h.want
    · exact (if_pos (decide_eq_true hlt)).trans (if_pos hlt).symm
    · exact (if_neg (fun e => hlt (of_decide_eq_true e))).trans (if_neg hlt).symm

/-- A Harvest that is complete: written and queued, or, where it is discarded, gone. -/
theorem State.blkDone_spec (hc : c < 512) (hcur : (s.cor c).cur = some h) (stopped : Bool) :
    let z := s.blkDone c stopped
    (∃ seen owed, z.cor c = (s.cor c).blkClosed seen owed) ∧ z.caps = s.caps ∧ z.ctxs = s.ctxs ∧ s.TabAbove z ∧
    z.reg64 (sCor 0) 0x030 = s.reg64 (sCor 0) 0x030 ∧
    (∀ i, bit (s.reg (ra (sCor 0) 0x008)) i = true → bit (z.reg (ra (sCor 0) 0x008)) i = true) ∧
    (h.discard = true → z.dma = s.dma) ∧
    (h.discard = false → (h.bins < h.want → bit (z.reg (ra (sCor 0) 0x008)) 5 = true) ∧
      ∃ m, (z.dmaCh (s.corDma c)).handed = (s.dmaCh (s.corDma c)).handed ++ [m] ∧ m.kind = 2 ∧ m.src = .harvest c) := by
  dsimp only
  cases hd : h.discard with
  | true =>
    obtain ⟨m, hm⟩ := State.blkDone_discarded hcur hd stopped
    rw [hm]
    exact ⟨⟨_, _, State.setCor_same _ _ _⟩, rfl, rfl, fun _ _ => rfl, rfl, fun _ hi => hi, fun _ => rfl, fun hf => Bool.noConfusion hf⟩
  | false =>
    obtain ⟨seen, body, hz⟩ := State.blkDone_written hcur hd stopped
    have hset := s.setCor_same c ((s.cor c).blkClosed seen 0)
    have hhand : (((s.setCor c ((s.cor c).blkClosed seen 0)).hand (s.corDma c) { kind := 2, body := body, src := .harvest c }).dmaCh (s.corDma c)).handed =
        (s.dmaCh (s.corDma c)).handed ++ [{ kind := 2, body := body, src := .harvest c }] := congrArg Dma.handed (State.setDma_same _ _ _)
    have hv : ∃ v, v = (s.setCor c ((s.cor c).blkClosed seen 0)).hand (s.corDma c) { kind := 2, body := body, src := .harvest c } ∧
        v.cor c = (s.cor c).blkClosed seen 0 ∧ v.caps = s.caps ∧ v.ctxs = s.ctxs ∧ v.tab = s.tab ∧ v.regs = s.regs := ⟨_, rfl, hset, rfl, rfl, rfl, rfl⟩
    obtain ⟨v, hv, hcor, hcaps, hctxs, htab, hregs⟩ := hv
    rw [hz, ← hv]
    rw [← hv] at hhand
    have hreg (a : Nat) : v.reg a = s.reg a := by rw [State.reg, hregs, State.reg]
    have hsame (o : Nat) : v.tabw o = s.tabw o := by rw [State.tabw, htab, State.tabw]
    have htrunc : ∃ w, w = (if h.bins < h.want then v.evt (sCor 0) 5 else v) ∧ Side v w ∧ w.reg64 (sCor 0) 0x030 = s.reg64 (sCor 0) 0x030 ∧
        (∀ i, bit (s.reg (ra (sCor 0) 0x008)) i = true → bit (w.reg (ra (sCor 0) 0x008)) i = true) ∧
        (h.bins < h.want → bit (w.reg (ra (sCor 0) 0x008)) 5 = true) := by
      refine ⟨_, rfl, ?_⟩
      split
      next hlt =>
        refine ⟨v.evt_side _ _, ?_, fun i hi => State.evt_bit_keep _ _ _ (by rw [hreg]; exact hi), fun _ => State.evt_bit _ (by decide)⟩
        rw [State.evt_reg64_above _ _ _ (by decide), State.reg64_congr hregs]
      next hge => exact ⟨Side.refl v, State.reg64_congr hregs _ _, fun i hi => by rw [hreg]; exact hi, fun hlt => absurd hlt hge⟩
    obtain ⟨w, hw, hside, hcount, hkept, hfive⟩ := htrunc
    rw [← hw]
    have habove := w.report_above hc (stage := 6) (col := 1) (by decide) 1
    have htabw := hside.tabw
    obtain ⟨g, e, pb, o, b, hx⟩ := hside
    refine ⟨⟨seen, 0, ?_⟩, ?_, ?_, fun o ho => (habove o ho).trans ((htabw o).trans (hsame o)), hcount, hkept, fun hf => Bool.noConfusion hf, fun _ => ⟨hfive, { kind := 2, body := body, src := .harvest c }, ?_, rfl, rfl⟩⟩
    · rw [hx]
      exact hcor
    · rw [hx]
      exact hcaps
    · rw [hx]
      exact hctxs
    · rw [hx]
      exact hhand

/-! ### A Harvest that a block opens -/

/-- A block lost for want of a buffer changes counters and reports alone. -/
theorem State.hvLost_keeps (s : State) (hc : c < 512) : (s.hvLost c).dma = s.dma ∧ (s.hvLost c).caps = s.caps ∧ (s.hvLost c).ctxs = s.ctxs ∧
    (∀ o, 0x2_0000 ≤ o → o ≠ oCor c 6 → (s.hvLost c).tabw o = s.tabw o) ∧ (s.hvLost c).reg64 (sCor 0) 0x030 = s.reg64 (sCor 0) 0x030 := by
  have hside : Side (s.tbump (oCor c 6) 1) (((s.tbump (oCor c 6) 1).bump64 (sCor 0) 0x038 1).evt (sCor 0) 1) :=
    (State.bump64_side _ _ _ _).trans (State.evt_side _ _ _)
  have hcount : (((s.tbump (oCor c 6) 1).bump64 (sCor 0) 0x038 1).evt (sCor 0) 1).reg64 (sCor 0) 0x030 = s.reg64 (sCor 0) 0x030 := by
    rw [State.evt_reg64_above _ _ _ (by decide), State.bump64_reg64 (by omega)]
    rfl
  have habove := State.report_above (((s.tbump (oCor c 6) 1).bump64 (sCor 0) 0x038 1).evt (sCor 0) 1) hc (stage := 6) (col := 2) (by decide) 1
  have htab (o : Nat) (ho : 0x2_0000 ≤ o) (hne : o ≠ oCor c 6) : (s.hvLost c).tabw o = s.tabw o :=
    (habove o ho).trans ((hside.tabw o).trans (State.setTabw_tabw_ne _ _ hne.symm))
  obtain ⟨g, e, pb, o, b, hx⟩ := hside
  refine ⟨?_, ?_, ?_, htab, hcount⟩
  · rw [State.hvLost, hx]
    rfl
  · rw [State.hvLost, hx]
    rfl
  · rw [State.hvLost, hx]
    rfl

/-- The Harvest that a judged block opens. -/
def State.harvOpened (s : State) (c : Nat) (j : BlkJob) : Harv :=
  let hv := s.hvBins c
  let want := hv - j.first % hv
  let start := decide ((s.cor c).grid ≠ some j.orig)
  { seq := (s.tabw (oCor c 5)).toNat, first := j.first, orig := j.orig, want := want, start := start
    short := start && decide (want < hv), discard := !decide ((s.cor c).bufs < s.corNbuf c) }

/-- A context whose judged block opens a Harvest. -/
def Cor.opened (x : Cor) (h : Harv) (orig bufs : Nat) : Cor := { x with cur := some h, grid := some orig, bufs := bufs }

theorem State.blkOpen_eq (s : State) (c : Nat) (j : BlkJob) : s.blkOpen c j =
    let s1 := (s.setCor c ((s.cor c).opened (s.harvOpened c j) j.orig (if decide ((s.cor c).bufs < s.corNbuf c) then (s.cor c).bufs + 1 else (s.cor c).bufs))).setTabN
      (oCor c 5) ((s.tabw (oCor c 5)).toNat + 1)
    if decide ((s.cor c).bufs < s.corNbuf c) then s1 else s1.hvLost c := rfl

theorem State.blkOpen_spec (s : State) (hc : c < 512) (j : BlkJob) :
    let z := s.blkOpen c j
    let x := s.cor c
    (∃ b, z.cor c = x.opened (s.harvOpened c j) j.orig b ∧ (x.bufs < s.corNbuf c → b = x.bufs + 1) ∧ (s.corNbuf c ≤ x.bufs → b = x.bufs)) ∧
    z.dma = s.dma ∧ z.caps = s.caps ∧ z.ctxs = s.ctxs ∧ (∀ o, 0x2_0000 ≤ o → o ≠ oCor c 5 → o ≠ oCor c 6 → z.tabw o = s.tabw o) ∧
    z.tabw (oCor c 5) = s.tabw (oCor c 5) + 1 ∧ (x.bufs < s.corNbuf c → z.tabw (oCor c 6) = s.tabw (oCor c 6)) ∧
    (s.corNbuf c ≤ x.bufs → bit (z.reg (ra (sCor 0) 0x008)) 1 = true ∧ (z.tabw (oCor c 6)).toNat = min ((s.tabw (oCor c 6)).toNat + 1) (2 ^ 32 - 1)) := by
  have heq := s.blkOpen_eq c j
  have hnum : BitVec.ofNat 32 ((s.tabw (oCor c 5)).toNat + 1) = s.tabw (oCor c 5) + 1 :=
    (BitVec.ofNat_add _ _).trans (congrArg (· + 1) ((BitVec.ofNat_toNat _ _).trans (BitVec.setWidth_eq _)))
  generalize hb : (if decide ((s.cor c).bufs < s.corNbuf c) = true then (s.cor c).bufs + 1 else (s.cor c).bufs) = b at heq
  have hset := s.setCor_same c ((s.cor c).opened (s.harvOpened c j) j.orig b)
  have hnext : ((s.setCor c ((s.cor c).opened (s.harvOpened c j) j.orig b)).setTabN (oCor c 5) ((s.tabw (oCor c 5)).toNat + 1)).tabw (oCor c 5) =
      s.tabw (oCor c 5) + 1 := (State.setTabw_tabw_same _ _ _).trans hnum
  have hother (o : Nat) (ho : o ≠ oCor c 5) :
      ((s.setCor c ((s.cor c).opened (s.harvOpened c j) j.orig b)).setTabN (oCor c 5) ((s.tabw (oCor c 5)).toNat + 1)).tabw o = s.tabw o :=
    State.setTabw_tabw_ne _ _ ho.symm
  have hrest : ∃ y, y = (s.setCor c ((s.cor c).opened (s.harvOpened c j) j.orig b)).setTabN (oCor c 5) ((s.tabw (oCor c 5)).toNat + 1) ∧
      y.cor c = (s.cor c).opened (s.harvOpened c j) j.orig b ∧ y.dma = s.dma ∧ y.caps = s.caps ∧ y.ctxs = s.ctxs := ⟨_, rfl, hset, rfl, rfl, rfl⟩
  obtain ⟨y, hy, hcor, hdma, hcaps, hctxs⟩ := hrest
  rw [← hy] at heq hnext hother
  have hsix : oCor c 6 ≠ oCor c 5 := by
    unfold oCor
    omega
  dsimp only
  by_cases hroom : (s.cor c).bufs < s.corNbuf c
  · rw [heq.trans (if_pos (decide_eq_true hroom))]
    exact ⟨⟨b, hcor, fun _ => hb.symm.trans (if_pos (decide_eq_true hroom)), fun hge => absurd hroom (not_lt.mpr hge)⟩, hdma, hcaps, hctxs,
      fun o _ h5 _ => hother o h5, hnext, fun _ => hother _ hsix, fun hge => absurd hroom (not_lt.mpr hge)⟩
  · have hno : ¬ decide ((s.cor c).bufs < s.corNbuf c) = true := fun e => hroom (of_decide_eq_true e)
    rw [heq.trans (if_neg hno)]
    obtain ⟨hcors, hfive, hlost, -, hbit⟩ := y.hvLost_spec hc
    obtain ⟨hdma', hcaps', hctxs', htab', -⟩ := y.hvLost_keeps hc
    refine ⟨⟨b, ?_, fun hlt => absurd hlt hroom, fun _ => hb.symm.trans (if_neg hno)⟩, hdma'.trans hdma, hcaps'.trans hcaps, hctxs'.trans hctxs,
      fun o ho h5 h6 => (htab' o ho h6).trans (hother o h5), hfive.trans hnext, fun hlt => absurd hlt hroom, fun _ => ⟨hbit, ?_⟩⟩
    · rw [State.cor, hcors, ← State.cor]
      exact hcor
    · rw [hlost, hother _ hsix]

/-! ### A judged block, processed -/

/-- Whether the Harvest in progress is full. -/
def Cor.curFull (x : Cor) : Bool :=
  match x.cur with
  | some h => decide (h.want ≤ h.bins)
  | none => false

/-- The end of a judged block: the Harvest that it fills, or that ends with it, is written. -/
def State.jobClosed (s : State) (c : Nat) (j : BlkJob) : State :=
  (if (s.cor c).curFull || j.last then s.blkDone c (j.stopped && !(s.cor c).curFull) else s).corRelease c

theorem State.blockProcessed_none (h : (s.cor c).ready = []) : s.blockProcessed c = s := by
  unfold State.blockProcessed
  rw [h]

theorem State.blockProcessed_cur (hready : (s.cor c).ready = j :: r) (hcur : (s.cor c).cur = some h) :
    s.blockProcessed c = (s.blkTake c h j r).jobClosed c j := by
  unfold State.blockProcessed
  split
  next j' r' heq =>
    obtain ⟨rfl, rfl⟩ := List.cons.inj (hready.symm.trans heq)
    have hno : ¬ ((s.cor c).cur.isNone && !j.blocks.isEmpty) = true := by
      rw [hcur, Option.isNone_some, Bool.false_and]
      exact Bool.false_ne_true
    dsimp only
    rw [if_neg hno, hcur]
    rfl
  next heq => exact absurd (hready.symm.trans heq) (List.cons_ne_nil _ _)

theorem State.blockProcessed_open (hc : c < 512) (hready : (s.cor c).ready = j :: r) (hcur : (s.cor c).cur = none) (hblocks : j.blocks ≠ []) :
    s.blockProcessed c = ((s.blkOpen c j).blkTake c (s.harvOpened c j) j r).jobClosed c j := by
  obtain ⟨⟨b, hcor, -, -⟩, -⟩ := s.blkOpen_spec hc j
  have hopen : ((s.blkOpen c j).cor c).cur = some (s.harvOpened c j) := congrArg Cor.cur hcor
  unfold State.blockProcessed
  split
  next j' r' heq =>
    obtain ⟨rfl, rfl⟩ := List.cons.inj (hready.symm.trans heq)
    have hyes : ((s.cor c).cur.isNone && !j.blocks.isEmpty) = true := by
      rw [hcur, Option.isNone_none, Bool.true_and, Bool.not_eq_true', List.isEmpty_eq_false_iff]
      exact hblocks
    dsimp only
    rw [if_pos hyes, hopen]
    rfl
  next heq => exact absurd (hready.symm.trans heq) (List.cons_ne_nil _ _)

/-- A judged block without a group's block, where no Harvest is in progress. -/
theorem State.blockProcessed_empty (hready : (s.cor c).ready = j :: r) (hcur : (s.cor c).cur = none) (hblocks : j.blocks = [])
    (hclosing : (s.cor c).closing = false) : s.blockProcessed c = s.setCor c { s.cor c with ready := r, prevBlk := [] } := by
  have hset := s.setCor_same c { s.cor c with ready := r, prevBlk := [] }
  have hopen : ((s.setCor c { s.cor c with ready := r, prevBlk := [] }).cor c).closing = false := (congrArg Cor.closing hset).trans hclosing
  have hnone : ((s.setCor c { s.cor c with ready := r, prevBlk := [] }).cor c).cur = none := (congrArg Cor.cur hset).trans hcur
  have hdone (b : Bool) : (s.setCor c { s.cor c with ready := r, prevBlk := [] }).blkDone c b = s.setCor c { s.cor c with ready := r, prevBlk := [] } := by
    unfold State.blkDone
    dsimp only
    rw [hnone]
  have hshape : s.blockProcessed c = (s.setCor c { s.cor c with ready := r, prevBlk := [] }).jobClosed c j := by
    unfold State.blockProcessed
    split
    next j' r' heq =>
      obtain ⟨rfl, rfl⟩ := List.cons.inj (hready.symm.trans heq)
      have hno : ¬ ((s.cor c).cur.isNone && !j.blocks.isEmpty) = true := by
        rw [hblocks, List.isEmpty_nil, Bool.not_true, Bool.and_false]
        exact Bool.false_ne_true
      dsimp only
      rw [if_neg hno, hcur, hblocks]
      rfl
    next heq => exact absurd (hready.symm.trans heq) (List.cons_ne_nil _ _)
  rw [hshape, State.jobClosed, hdone, ite_self, State.corRelease_open hopen]

theorem State.jobClosed_open (hcur : (s.cor c).cur = some h) (hroom : h.bins < h.want) (hlast : j.last = false) (hclosing : (s.cor c).closing = false) :
    s.jobClosed c j = s := by
  have hfull : (s.cor c).curFull = false := by
    rw [Cor.curFull, hcur]
    exact decide_eq_false (not_le.mpr hroom)
  rw [State.jobClosed, hfull, hlast, Bool.or_false, if_neg Bool.false_ne_true, State.corRelease_open hclosing]

theorem State.jobClosed_done (hc : c < 512) (hcur : (s.cor c).cur = some h) (hdue : h.want ≤ h.bins ∨ j.last = true) (hclosing : (s.cor c).closing = false) :
    ∃ b, s.jobClosed c j = s.blkDone c b := by
  have hyes : ((s.cor c).curFull || j.last) = true := by
    rw [Cor.curFull, hcur, Bool.or_eq_true]
    exact hdue.imp (fun hle => decide_eq_true hle) id
  obtain ⟨⟨seen, owed, hcor⟩, -⟩ := State.blkDone_spec hc hcur (j.stopped && !(s.cor c).curFull)
  refine ⟨j.stopped && !(s.cor c).curFull, ?_⟩
  rw [State.jobClosed, if_pos hyes, State.corRelease_open]
  exact (congrArg Cor.closing hcor).trans hclosing

end Sys2Proof.Machine
end

section
/-! Proofs about cascade transfers and the hop (R249 to R251), and the statement of blocked mode. -/

namespace Sys2Proof.Machine

variable {s x y z : State} {n b p c t g hops first lost : Nat} {k : SigBlock} {header data : List Nat} {h : Harv} {j : BlkJob} {r : List BlkJob}

/-! ### Transfers -/

/-- A transfer forwarded where it has a hop left. -/
def State.forwarded (s : State) (header data : List Nat) : State :=
  if 1 < nfld (header.getD 0 0) 24 2 then (s.casSend ((header.getD 0 0 - 2 ^ 24) :: header.drop 1) data).bump64 sCas 0x034 1 else s

/-- The running contexts that a transfer is for. -/
def State.casTargets (s : State) (header : List Nat) : List Nat :=
  s.runningCtxs.filter fun c => decide ((s.cor c).run = 2) && s.casc c && decide (s.blkCtag c = nfld (header.getD 0 0) 0 16)

/-- A transfer's shape is that of a context's blocks. -/
def State.casFits (s : State) (c : Nat) (header : List Nat) : Prop :=
  nfld (header.getD 3 0) 0 12 = s.slotCnt c ∧ decide (nfld (header.getD 3 0) 12 1 = 1) = s.blkBeam c ∧ nfld (header.getD 2 0) 32 25 = (s.cor c).w / 2000 ∧
    nfld (header.getD 2 0) 0 5 = s.blkExp c ∧ header.getD 1 0 % s.blkB c = 0

/-- A transfer's block is of a bin that its context has judged. -/
def State.casOld (s : State) (c : Nat) (header : List Nat) : Bool :=
  match (s.cor c).nextBlk with
  | some f => decide (s.blkGridOf c (nfld (header.getD 0 0) 26 2) (header.getD 1 0) = (s.cor c).blkGrid) && decide (header.getD 1 0 < f)
  | none => false

/-- The block that a transfer brings. -/
def State.casBlock (s : State) (c : Nat) (header data : List Nat) : SigBlock :=
  { group := nfld (header.getD 0 0) 26 2, orig := s.blkGridOf c (nfld (header.getD 0 0) 26 2) (header.getD 1 0), first := header.getD 1 0
    bins := unpackBlock (decide (nfld (header.getD 3 0) 12 1 = 1)) (s.slotCnt c) (s.blkB c) data
    lost := header.getD 4 0, flags := nfld (header.getD 5 0) 0 8 }

/-- A block of a peer taken into a slot, and judged with those that wait. -/
def State.casStored (s : State) (c : Nat) (k : SigBlock) : State :=
  ((s.setCor c { s.cor c with slots := (s.cor c).slots ++ [k] }).bump64 sCas 0x02C 1).judgeAll c

/-- A whole transfer of the right form. -/
def State.casTaken (s : State) (header data : List Nat) : State :=
  match (s.casTargets header).head? with
  | none => s.forwarded header data
  | some c =>
    if nfld (header.getD 3 0) 0 12 ≠ s.slotCnt c ∨ decide (nfld (header.getD 3 0) 12 1 = 1) ≠ s.blkBeam c ∨ nfld (header.getD 2 0) 32 25 ≠ (s.cor c).w / 2000 ∨
        nfld (header.getD 2 0) 0 5 ≠ s.blkExp c ∨ header.getD 1 0 % s.blkB c ≠ 0 then
      (s.bump64 sCas 0x044 1).evt sCas 3
    else if !(s.needed c).contains (nfld (header.getD 0 0) 26 2) || decide (nfld (header.getD 0 0) 26 2 = s.ringPos c) then s.forwarded header data
    else if s.casOld c header then s.forwarded header data
    else if 4 ≤ (s.cor c).occupied (nfld (header.getD 0 0) 26 2) then (s.bump64 sCas 0x03C 1).evt sCas 2
    else (s.casStored c (s.casBlock c header data)).forwarded header data

theorem State.casTransfer_eq (s : State) (header data : List Nat) (lost : Nat) : s.casTransfer header data lost =
    if s.cas.st ≠ 2 then s else if 0 < lost then s.bump64 sCas 0x04C lost else if nfld (header.getD 0 0) 32 32 ≠ 0x4341_5331 then s
    else s.casTaken header data := by
  unfold State.casTransfer State.casTaken
  rfl

theorem State.casTaken_none (h : s.casTargets header = []) (data : List Nat) : s.casTaken header data = s.forwarded header data := by
  unfold State.casTaken
  rw [h]
  rfl

theorem State.casTaken_misfit (h : s.casTargets header = [c]) (hfit : ¬ s.casFits c header) (data : List Nat) :
    s.casTaken header data = (s.bump64 sCas 0x044 1).evt sCas 3 := by
  unfold State.casTaken
  rw [h]
  refine if_pos ?_
  unfold State.casFits at hfit
  by_contra hno
  simp only [not_or, not_not] at hno
  exact hfit hno

theorem State.casTaken_fits (h : s.casTargets header = [c]) (hfit : s.casFits c header) (data : List Nat) : s.casTaken header data =
    if !(s.needed c).contains (nfld (header.getD 0 0) 26 2) || decide (nfld (header.getD 0 0) 26 2 = s.ringPos c) then s.forwarded header data
    else if s.casOld c header then s.forwarded header data
    else if 4 ≤ (s.cor c).occupied (nfld (header.getD 0 0) 26 2) then (s.bump64 sCas 0x03C 1).evt sCas 2
    else (s.casStored c (s.casBlock c header data)).forwarded header data := by
  obtain ⟨hcnt, hbeam, hw, hexp, hfirst⟩ := hfit
  unfold State.casTaken
  rw [h]
  refine if_neg ?_
  simp only [not_or, not_not]
  exact ⟨hcnt, hbeam, hw, hexp, hfirst⟩

/-- A transfer that its device does not need is only forwarded. -/
theorem State.casTaken_passed (h : s.casTargets header = [c]) (hfit : s.casFits c header)
    (hpass : nfld (header.getD 0 0) 26 2 ∉ s.needed c ∨ nfld (header.getD 0 0) 26 2 = s.ringPos c ∨ s.casOld c header = true) (data : List Nat) :
    s.casTaken header data = s.forwarded header data := by
  rw [State.casTaken_fits h hfit]
  by_cases hskip : (!(s.needed c).contains (nfld (header.getD 0 0) 26 2) || decide (nfld (header.getD 0 0) 26 2 = s.ringPos c)) = true
  · exact if_pos hskip
  · refine (if_neg hskip).trans (if_pos ?_)
    rw [Bool.or_eq_true, not_or, Bool.not_eq_true', Bool.not_eq_false, decide_eq_true_iff] at hskip
    obtain ⟨hin, hpos⟩ := hskip
    rcases hpass with hno | heq | hold
    · exact absurd (List.contains_iff_mem.mp hin) hno
    · exact absurd heq hpos
    · exact hold

theorem State.casTaken_needed (h : s.casTargets header = [c]) (hfit : s.casFits c header) (hin : nfld (header.getD 0 0) 26 2 ∈ s.needed c)
    (hpos : nfld (header.getD 0 0) 26 2 ≠ s.ringPos c) (hnew : s.casOld c header = false) (data : List Nat) : s.casTaken header data =
    if 4 ≤ (s.cor c).occupied (nfld (header.getD 0 0) 26 2) then (s.bump64 sCas 0x03C 1).evt sCas 2
    else (s.casStored c (s.casBlock c header data)).forwarded header data := by
  rw [State.casTaken_fits h hfit]
  refine (if_neg ?_).trans (if_neg ?_)
  · rw [List.contains_iff_mem.mpr hin, decide_eq_false hpos]
    exact Bool.false_ne_true
  · rw [hnew]
    exact Bool.false_ne_true

/-- What forwarding a transfer leaves. -/
theorem State.forwarded_spec (s : State) (header data : List Nat) :
    let z := s.forwarded header data
    (nfld (header.getD 0 0) 24 2 ≤ 1 → z.out = s.out ∧ z.reg64 sCas 0x034 = s.reg64 sCas 0x034) ∧
    (1 < nfld (header.getD 0 0) 24 2 → z.out = .casIdle s.casIdleWord :: .casTransfer ((header.getD 0 0 - 2 ^ 24) :: header.drop 1) data :: s.out ∧
      z.reg64 sCas 0x034 = min (s.reg64 sCas 0x034 + 1) (2 ^ 64 - 1)) ∧
    Side s z ∧ z.cors = s.cors ∧ z.reg64 sCas 0x02C = s.reg64 sCas 0x02C := by
  dsimp only
  by_cases hhop : 1 < nfld (header.getD 0 0) 24 2
  · have hcount : ((s.casSend ((header.getD 0 0 - 2 ^ 24) :: header.drop 1) data).bump64 sCas 0x034 1).reg64 sCas 0x034 = min (s.reg64 sCas 0x034 + 1) (2 ^ 64 - 1) :=
      State.reg64_bump64 _ _ _ _
    have hkeep : ((s.casSend ((header.getD 0 0 - 2 ^ 24) :: header.drop 1) data).bump64 sCas 0x034 1).reg64 sCas 0x02C = s.reg64 sCas 0x02C :=
      State.bump64_reg64 (by omega)
    have hside : Side s ((s.casSend ((header.getD 0 0 - 2 ^ 24) :: header.drop 1) data).bump64 sCas 0x034 1) :=
      ((State.emit_side _ _).trans (State.emit_side _ _)).trans (State.bump64_side _ _ _ _)
    obtain ⟨g, hg⟩ := State.bump64_eq (s.casSend ((header.getD 0 0 - 2 ^ 24) :: header.drop 1) data) sCas 0x034 1
    rw [State.forwarded, if_pos hhop]
    refine ⟨fun hle => absurd hhop (not_lt.mpr hle), fun _ => ⟨?_, hcount⟩, hside, ?_, hkeep⟩
    · rw [hg]
      rfl
    · rw [hg]
      rfl
  · rw [State.forwarded, if_neg hhop]
    exact ⟨fun _ => ⟨rfl, rfl⟩, fun hlt => absurd hlt hhop, Side.refl s, rfl, rfl⟩

/-- What storing a peer's block leaves. -/
theorem State.casStored_spec (s : State) (c : Nat) (k : SigBlock) :
    let z := s.casStored c k
    z.out = s.out ∧ z.casIdleWord = s.casIdleWord ∧ z.reg64 sCas 0x034 = s.reg64 sCas 0x034 ∧
    z.reg64 sCas 0x02C = min (s.reg64 sCas 0x02C + 1) (2 ^ 64 - 1) ∧ (z.cor c).Held k := by
  have hset := s.setCor_same c { s.cor c with slots := (s.cor c).slots ++ [k] }
  have hheld : ({ s.cor c with slots := (s.cor c).slots ++ [k] } : Cor).Held k := Or.inl (List.mem_append_right _ (List.mem_singleton.mpr rfl))
  have hcount : ((s.setCor c { s.cor c with slots := (s.cor c).slots ++ [k] }).bump64 sCas 0x02C 1).reg64 sCas 0x02C = min (s.reg64 sCas 0x02C + 1) (2 ^ 64 - 1) :=
    State.reg64_bump64 _ _ _ _
  have hsent : ((s.setCor c { s.cor c with slots := (s.cor c).slots ++ [k] }).bump64 sCas 0x02C 1).reg64 sCas 0x034 = s.reg64 sCas 0x034 :=
    State.bump64_reg64 (by omega)
  have hword : ((s.setCor c { s.cor c with slots := (s.cor c).slots ++ [k] }).bump64 sCas 0x02C 1).casIdleWord = s.casIdleWord := by
    rw [State.casIdleWord, State.rfld, State.bump64_reg (by decide) (by decide)]
    rfl
  have hcor : ((s.setCor c { s.cor c with slots := (s.cor c).slots ++ [k] }).bump64 sCas 0x02C 1).cor c = { s.cor c with slots := (s.cor c).slots ++ [k] } := hset
  have hout : ((s.setCor c { s.cor c with slots := (s.cor c).slots ++ [k] }).bump64 sCas 0x02C 1).out = s.out := by
    obtain ⟨g, hg⟩ := State.bump64_eq (s.setCor c { s.cor c with slots := (s.cor c).slots ++ [k] }) sCas 0x02C 1
    rw [hg]
    rfl
  unfold State.casStored
  generalize (s.setCor c { s.cor c with slots := (s.cor c).slots ++ [k] }).bump64 sCas 0x02C 1 = v at *
  obtain ⟨⟨m, hm⟩, -, hkeep⟩ := v.judgeAll_judged c
  have hlast := hkeep k (by rw [hcor]; exact hheld)
  dsimp only
  refine ⟨?_, ?_, ?_, ?_, hlast⟩
  · rw [hm]
    exact hout
  · rw [hm]
    exact hword
  · rw [hm]
    exact hsent
  · rw [hm]
    exact hcount

/-! ### The hop -/

theorem State.casIdle_still {w : Word64} (h : ¬ ((s.cas.st = 1 ∨ s.cas.st = 2) ∧ nfld w.toNat 32 32 = 0x4341_5349)) : s.casIdle w = s := if_neg h

theorem State.casIdle_heard {w : Word64} (hst : s.cas.st = 1 ∨ s.cas.st = 2) (hw : nfld w.toNat 32 32 = 0x4341_5349) : s.casIdle w =
    if s.cas.st = 1 ∧ nfld w.toNat 16 2 = (s.rfld sCas 0x014 3 2 + 1) % (s.rfld sCas 0x014 1 2 + 1) then
      ({ s with cas := { s.cas with upPos := nfld w.toNat 16 2, lock := 0xFF, st := 2 } } : State).evt sCas 0
    else { s with cas := { s.cas with upPos := nfld w.toNat 16 2, lock := 0xFF } } := if_pos ⟨hst, hw⟩

theorem State.casLost_still (h : ¬ (s.cas.st = 1 ∨ s.cas.st = 2)) : s.casLost = s := if_neg h

/-- The hop once it is lost. -/
def State.hopDown (s : State) : State := { s with cas := { s.cas with st := 3, lock := 0, lostAt := s.now } }

theorem State.casLost_spec (h : s.cas.st = 1 ∨ s.cas.st = 2) : Side s.hopDown s.casLost ∧
    s.casLost.reg64 sCas 0x054 = min (s.reg64 sCas 0x054 + 1) (2 ^ 64 - 1) ∧ bit (s.casLost.reg (ra sCas 0x008)) 1 = true := by
  have heq : s.casLost = ((s.hopDown.bump64 sCas 0x054 1).evt sCas 1).bbrFault sCas 0 1 := if_pos h
  have hpush (i : Nat) (hi : i < 0x400) : (((s.hopDown.bump64 sCas 0x054 1).evt sCas 1).bbrFault sCas 0 1).reg (ra sCas i) =
      ((s.hopDown.bump64 sCas 0x054 1).evt sCas 1).reg (ra sCas i) := by
    refine State.bbrPush_reg_page _ _ _ ?_
    rw [ra_div _ _ hi]
    decide
  have hcount : ((s.hopDown.bump64 sCas 0x054 1).evt sCas 1).reg64 sCas 0x054 = min (s.reg64 sCas 0x054 + 1) (2 ^ 64 - 1) := by
    rw [State.evt_reg64_above _ _ _ (by decide), State.reg64_bump64]
    rfl
  rw [heq]
  refine ⟨((State.bump64_side _ _ _ _).trans (State.evt_side _ _ _)).trans (State.bbrFault_side _ _ _ _), ?_, ?_⟩
  · rw [State.reg64, hpush _ (by decide), hpush _ (by decide)]
    exact hcount
  · rw [hpush _ (by decide)]
    exact State.evt_bit _ (by decide)

theorem State.casRetry_still (h : s.cas.st ≠ 3 ∨ s.rfld sCas 0x014 8 8 = 0 ∨ s.now < s.cas.lostAt + s.rfld sCas 0x014 8 8 * 2_000_000) : s.casRetry = s := by
  refine if_neg ?_
  rintro ⟨hst, hr, hdue⟩
  have hmul : s.rfld sCas 0x014 8 8 * 1000 * usEdges = s.rfld sCas 0x014 8 8 * 2_000_000 := Nat.mul_assoc _ _ _
  rw [hmul] at hdue
  rcases h with h | h | h
  · exact h hst
  · exact hr h
  · exact absurd hdue (not_le.mpr h)

theorem State.casRetry_due (hst : s.cas.st = 3) (hr : s.rfld sCas 0x014 8 8 ≠ 0) (hdue : s.cas.lostAt + s.rfld sCas 0x014 8 8 * 2_000_000 ≤ s.now) :
    s.casRetry = ({ s with cas := { s.cas with st := 1 } } : State).emit (.casIdle s.casIdleWord) := by
  have hmul : s.rfld sCas 0x014 8 8 * 1000 * usEdges = s.rfld sCas 0x014 8 8 * 2_000_000 := Nat.mul_assoc _ _ _
  refine if_pos ⟨hst, hr, ?_⟩
  rw [hmul]
  exact hdue

/-! ### The obligation -/

theorem getD_toNat (l : List Word64) (k : Nat) : (l.map (·.toNat)).getD k 0 = (l.getD k 0).toNat := by
  rw [List.getD_eq_getElem?_getD, List.getD_eq_getElem?_getD, List.getElem?_map]
  cases l[k]? <;> rfl

/-- A property of the effect of an operation under a context's kept words. -/
theorem answers_asOf {i : Instr} {f : State → State} {P : State → Prop} (hpow : s.Powered) (hi : exec i s = command t (fun s => s.asOf c f) s)
    (hold : Sparse.get [] s.oldWords c = []) (h : ∀ l, P ((f (s.advance t)).wrapped s (max s.now t) l)) : Answers i s P := by
  refine answers_of_wrapped hpow hi fun l => ?_
  rw [State.asOf_plain (s := s.advance t) hold]
  exact h l

/-- Signal blocks and deadlines (R249, R251). -/
theorem blockedRuns_blocks (s : State) (t : Nat) (c : Fin 512) (hpow : s.Powered) (hold : Sparse.get [] s.oldWords c = []) :
    let u := s.advance t
    let x := s.cor c
    let B := s.blkB c
    let own := s.ownBlks c ++ x.full
    (x.full = [] → exec (.signalBlockComplete t c) s = .next u) ∧
    (∀ k r, x.full = k :: r →
      (s.casc c = false → x.slots = [] → k.orig = x.blkGrid → k.group = s.ringPos c → s.needed c = [k.group] →
        Answers (.signalBlockComplete t c) s fun s' =>
          s'.cor c = { x with full := r, ready := x.ready ++ [⟨k.first, k.orig, [k], k.last, false⟩], nextBlk := some (k.first + B) } ∧
          s'.out = s.out ∧ s'.regs = s.regs ∧ s'.tab = s.tab) ∧
      (s.casc c = true → Answers (.signalBlockComplete t c) s fun s' =>
        (k.bins.length = B → s'.out = .casIdle s.casIdleWord ::
            .casTransfer (s.casHeader c (s.ringD c / 2) k) (packBlock (s.blkBeam c) (s.slotCnt c) k) :: s.out ∧
          s'.reg64 sCas 0x024 = min (s.reg64 sCas 0x024 + 1) (2 ^ 64 - 1)) ∧
        (k.bins.length ≠ B → s'.out = s.out ∧ s'.regs = s.regs) ∧
        (s'.cor c).full = r ∧ (k ∈ (s'.cor c).slots ∨ ∃ j ∈ (s'.cor c).ready, k ∈ j.blocks))) ∧
    (own.length < 2 ∨ s.ownBlks c = [] → exec (.blockDeadline t c) s = .next u) ∧
    (∀ k r, s.ownBlks c = k :: r → 2 ≤ own.length →
      let miss := ((s.needed c).filter fun g => !((x.present k).any fun y => decide (y.group = g))).length
      Answers (.blockDeadline t c) s fun s' =>
        (s'.cor c).ready = x.ready ++ [⟨k.first, k.orig, x.present k, k.last, false⟩] ∧
        (s'.cor c).nextBlk = (if k.orig = x.blkGrid then some (k.first + B) else x.nextBlk) ∧
        (s'.tabw (oBlk c 1)).toNat = (if miss = 0 then (s.tabw (oBlk c 1)).toNat
          else min ((s.tabw (oBlk c 1)).toNat + miss) (2 ^ 32 - 1)) ∧
        (miss ≠ 0 → bit (s'.reg (ra sCas 0x008)) 4 = true) ∧ (miss = 0 → s'.regs = s.regs ∧ s'.out = s.out)) := by
  intro u x B own
  refine ⟨fun hnone => ?_, fun k r hfull => ⟨fun hcasc hslots hgrid hgroup hneeded => ?_, fun hcasc => ?_⟩, fun hearly => ?_, fun k r hown hlen => ?_⟩
  · refine next_of hpow (exec_signalBlockComplete t c s) (x := u) ?_ (Quiet.refl _)
    rw [State.asOf_plain (s := u) hold]
    exact State.signalBlock_none (s := u) hnone
  · have heq := State.signalBlock_alone (s := u) hfull hcasc hslots hgroup hneeded
    rw [Cor.judged_alone (x := u.cor c) hslots hgrid] at heq
    refine answers_asOf hpow (exec_signalBlockComplete t c s) hold fun l => ?_
    rw [show (s.advance t).signalBlock c = _ from heq]
    exact ⟨State.setCor_same _ _ _, rfl, rfl, rfl⟩
  · have h := State.signalBlock_cascaded (s := u) hfull hcasc
    refine answers_asOf hpow (exec_signalBlockComplete t c s) hold fun l => ?_
    generalize (s.advance t).signalBlock c = z at h ⊢
    exact h
  · refine next_of hpow (exec_blockDeadline t c s) (x := u) ?_ (Quiet.refl _)
    rw [State.asOf_plain (s := u) hold]
    exact State.blockDeadline_early (s := u) hearly
  · intro miss
    obtain ⟨hcor, hword, hbit, hstill⟩ := u.judgeBlk_spec c k
    refine answers_asOf hpow (exec_blockDeadline t c s) hold fun l => ?_
    rw [show (s.advance t).blockDeadline c = _ from State.blockDeadline_due (s := u) hown hlen]
    generalize u.judgeBlk c k = z at *
    exact ⟨congrArg Cor.ready hcor, congrArg Cor.nextBlk hcor, hword, hbit, hstill⟩

/-- A property of the effect of an operation under a context's kept words after which no context has drained. -/
theorem answers_of_settled {i : Instr} {f : State → State} {P : State → Prop} (hpow : s.Powered)
    (hi : exec i s = command t (fun s => (s.asOf c f).settle) s) (hold : Sparse.get [] s.oldWords c = [])
    (hset : (f (s.advance t)).Settled) (h : ∀ l, P ((f (s.advance t)).wrapped s (max s.now t) l)) : Answers i s P := by
  refine answers_of_wrapped hpow hi fun l => ?_
  rw [State.asOf_plain (s := s.advance t) hold, State.settle_id hset]
  exact h l

/-- A judged block is over: it has left the queue, and is counted. -/
def State.Processed (s z : State) (c : Nat) (j : BlkJob) (r : List BlkJob) : Prop :=
  (z.cor c).ready = r ∧ (z.cor c).prevBlk = j.blocks ∧ (z.tabw (oBlk c 2)).toNat = min ((s.tabw (oBlk c 2)).toNat + 1) (2 ^ 32 - 1)

theorem oCor_ne_oBlk (hc : c < 512) (k : Nat) (hk : k < 8) : oCor c k ≠ oBlk c 2 := by
  unfold oCor oBlk
  omega

theorem oCor_above (c k : Nat) : 0x2_0000 ≤ oCor c k := by
  unfold oCor
  omega

theorem oBlk_above (c : Nat) : 0x2_0000 ≤ oBlk c 2 := by
  unfold oBlk
  omega

/-- A judged block taken into a Harvest that goes on. -/
theorem State.blockProcessed_goes_on (hready : (s.cor c).ready = j :: r) (hcur : (s.cor c).cur = some h) (hclosing : (s.cor c).closing = false)
    (hroom : h.bins + s.ownBins c j < h.want) (hlast : j.last = false) : s.blockProcessed c = s.blkTake c h j r := by
  obtain ⟨hbins, -, -, hwant, -⟩ := s.harvTaken_spec c h j
  obtain ⟨hcor, -⟩ := s.blkTake_spec c h j r
  rw [State.blockProcessed_cur hready hcur]
  refine State.jobClosed_open (congrArg Cor.cur hcor) ?_ hlast ((congrArg Cor.closing hcor).trans hclosing)
  rw [hbins, hwant]
  exact hroom

/-- A Harvest written once a judged block has filled it or is the last. -/
theorem State.jobClosed_spec (hc : c < 512) (h : Harv) (j : BlkJob) (r : List BlkJob) (hclosing : (s.cor c).closing = false)
    (hdue : h.want ≤ h.bins + s.ownBins c j ∨ j.last = true) :
    let z := (s.blkTake c h j r).jobClosed c j
    s.Processed z c j r ∧ (z.cor c).cur = none ∧ (z.cor c).epochBit = (!(s.cor c).epochBit) ∧ (z.cor c).bufs = (s.cor c).bufs ∧
    z.caps = s.caps ∧ z.ctxs = s.ctxs ∧ (∀ o, 0x2_0000 ≤ o → o ≠ oBlk c 2 → z.tabw o = s.tabw o) ∧
    z.reg64 (sCor 0) 0x030 = s.reg64 (sCor 0) 0x030 ∧
    (∀ i, bit (s.reg (ra (sCor 0) 0x008)) i = true → bit (z.reg (ra (sCor 0) 0x008)) i = true) ∧
    (h.discard = true → z.dma = s.dma) ∧
    (h.discard = false → (h.bins + s.ownBins c j < h.want → bit (z.reg (ra (sCor 0) 0x008)) 5 = true) ∧
      ∃ m, (z.dmaCh (s.corDma c)).handed = (s.dmaCh (s.corDma c)).handed ++ [m] ∧ m.kind = 2 ∧ m.src = .harvest c) := by
  obtain ⟨hbins, -, -, hwant, hdiscard, -⟩ := s.harvTaken_spec c h j
  obtain ⟨hcor, hjob, hcount⟩ := s.blkTake_spec c h j r
  generalize s.blkTake c h j r = y at *
  have hcur : (y.cor c).cur = some (s.harvTaken c h j) := congrArg Cor.cur hcor
  obtain ⟨b, hb⟩ := State.jobClosed_done (j := j) hc hcur (by rw [hbins, hwant]; exact hdue) ((congrArg Cor.closing hcor).trans hclosing)
  obtain ⟨⟨seen, owed, hdone⟩, hcaps, hctxs, htab, hharv, hkept, hstay, hwritten⟩ := State.blkDone_spec hc hcur b
  rw [hbins, hwant] at hwritten
  rw [hdiscard] at hstay hwritten
  have hdma (z : State) (hz : z.dma = y.dma) : z.dma = s.dma := hz.trans hjob.dma
  have hword : y.corDma c = s.corDma c := by
    rw [State.corDma, State.corDma, State.tfld, State.tfld, hjob.tab _ (oCor_ne_oBlk hc 0 (by decide))]
  rw [hword, State.dmaCh, State.dmaCh, hjob.dma] at hwritten
  rw [hb]
  generalize y.blkDone c b = z at *
  rw [hcor] at hdone
  refine ⟨⟨congrArg Cor.ready hdone, congrArg Cor.prevBlk hdone, ?_⟩, congrArg Cor.cur hdone, congrArg Cor.epochBit hdone, (congrArg Cor.bufs hdone).trans rfl,
    hcaps.trans hjob.caps, hctxs.trans hjob.ctxs, fun o ho hne => (htab o ho).trans (hjob.tab o hne), hharv.trans hjob.harvests,
    fun i hi => hkept i (hjob.kept i hi), fun hd => hdma z (hstay hd), hwritten⟩
  rw [htab _ (oBlk_above c)]
  exact hcount

/-- What the end of a judged block leaves, whether or not its Harvest goes on. -/
theorem State.jobClosed_keeps (hc : c < 512) (h : Harv) (j : BlkJob) (r : List BlkJob) (hclosing : (s.cor c).closing = false) :
    let z := (s.blkTake c h j r).jobClosed c j
    s.Processed z c j r ∧ (z.cor c).bufs = (s.cor c).bufs ∧ z.caps = s.caps ∧ z.ctxs = s.ctxs ∧
    (∀ o, 0x2_0000 ≤ o → o ≠ oBlk c 2 → z.tabw o = s.tabw o) ∧
    (∀ i, bit (s.reg (ra (sCor 0) 0x008)) i = true → bit (z.reg (ra (sCor 0) 0x008)) i = true) ∧ (h.discard = true → z.dma = s.dma) := by
  by_cases hdue : h.want ≤ h.bins + s.ownBins c j ∨ j.last = true
  · obtain ⟨hproc, -, -, hbufs, hcaps, hctxs, htab, -, hbit, hdma, -⟩ := State.jobClosed_spec hc h j r hclosing hdue
    exact ⟨hproc, hbufs, hcaps, hctxs, htab, hbit, hdma⟩
  · obtain ⟨hroom, hlast⟩ := not_or.mp hdue
    obtain ⟨hbins, -, -, hwant, -⟩ := s.harvTaken_spec c h j
    obtain ⟨hcor, hjob, hcount⟩ := s.blkTake_spec c h j r
    have hopen : (s.blkTake c h j r).jobClosed c j = s.blkTake c h j r := by
      refine State.jobClosed_open (congrArg Cor.cur hcor) ?_ (Bool.eq_false_iff.mpr hlast) ((congrArg Cor.closing hcor).trans hclosing)
      rw [hbins, hwant]
      exact not_le.mp hroom
    dsimp only
    rw [hopen]
    generalize s.blkTake c h j r = z at *
    exact ⟨⟨congrArg Cor.ready hcor, congrArg Cor.prevBlk hcor, hcount⟩, (congrArg Cor.bufs hcor).trans rfl, hjob.caps, hjob.ctxs, fun o _ ho => hjob.tab o ho,
      hjob.kept, fun _ => hjob.dma⟩

/-- Judged blocks in order (R252, R253). -/
theorem blockedRuns_jobs (s : State) (t : Nat) (c : Fin 512) (hpow : s.Powered) (hset : s.Settled) (hold : Sparse.get [] s.oldWords c = []) :
    let x := s.cor c
    (x.ready = [] → exec (.blockProcessed t c) s = .next (s.advance t)) ∧
    (∀ j r, x.ready = j :: r → x.closing = false →
      let own := ((j.blocks.find? fun k => decide (k.group = s.ringPos c)).map (·.bins.length)).getD 0
      let miss := ((s.needed c).filter fun g => !(j.blocks.any fun k => decide (k.group = g))).length
      let processed (s' : State) : Prop := (s'.cor c).ready = r ∧ (s'.cor c).prevBlk = j.blocks ∧
        (s'.tabw (oBlk c 2)).toNat = min ((s.tabw (oBlk c 2)).toNat + 1) (2 ^ 32 - 1)
      (∀ h, x.cur = some h → h.bins + own < h.want → j.last = false → Answers (.blockProcessed t c) s fun s' =>
        processed s' ∧ s'.dma = s.dma ∧ (s'.cor c).bufs = x.bufs ∧ s'.tabw (oCor c 5) = s.tabw (oCor c 5) ∧
        ∃ h', (s'.cor c).cur = some h' ∧ h'.bins = h.bins + own ∧ h'.misses = h.misses + miss ∧ h'.seq = h.seq ∧
          (h.discard = true → h'.acc = h.acc)) ∧
      (∀ h, x.cur = some h → h.want ≤ h.bins + own ∨ j.last = true → Answers (.blockProcessed t c) s fun s' =>
        processed s' ∧ (s'.cor c).cur = none ∧ (s'.cor c).epochBit = !x.epochBit ∧
        s'.reg64 (sCor 0) 0x030 = s.reg64 (sCor 0) 0x030 ∧
        (h.discard = true → s'.dma = s.dma) ∧
        (h.discard = false → (h.bins + own < h.want → bit (s'.reg (ra (sCor 0) 0x008)) 5 = true) ∧
          ∃ m, (s'.dmaCh (s.corDma c)).handed = (s.dmaCh (s.corDma c)).handed ++ [m] ∧ m.kind = 2 ∧ m.src = .harvest c)) ∧
      (x.cur = none → j.blocks ≠ [] → Answers (.blockProcessed t c) s fun s' =>
        processed s' ∧ s'.tabw (oCor c 5) = s.tabw (oCor c 5) + 1 ∧
        (x.bufs < s.corNbuf c → (s'.cor c).bufs = x.bufs + 1 ∧ s'.tabw (oCor c 6) = s.tabw (oCor c 6)) ∧
        (s.corNbuf c ≤ x.bufs → (s'.cor c).bufs = x.bufs ∧ s'.dma = s.dma ∧ bit (s'.reg (ra (sCor 0) 0x008)) 1 = true ∧
          (s'.tabw (oCor c 6)).toNat = min ((s.tabw (oCor c 6)).toNat + 1) (2 ^ 32 - 1))) ∧
      (x.cur = none → j.blocks = [] → exec (.blockProcessed t c) s = .next
        ((s.advance t).setCor c { x with ready := r, prevBlk := [] }))) := by
  intro x
  have hcap : (s.advance t).Settled := hset.of_eq rfl rfl
  refine ⟨fun hnone => ?_, fun j r hready hclosing => ?_⟩
  · refine next_of hpow (exec_blockProcessed t c s) (x := s.advance t) ?_ (Quiet.refl _)
    rw [State.asOf_plain (s := s.advance t) hold, State.blockProcessed_none (s := s.advance t) hnone]
    exact State.settle_id hcap
  · intro own miss processed
    refine ⟨fun h hcur hroom hlast => ?_, fun h hcur hdue => ?_, fun hcur hblocks => ?_, fun hcur hblocks => ?_⟩
    · have heq := State.blockProcessed_goes_on (s := s.advance t) (j := j) hready hcur hclosing hroom hlast
      obtain ⟨hbins, hmiss, hseq, -, -, hacc⟩ := (s.advance t).harvTaken_spec c h j
      obtain ⟨hcor, hjob, hcount⟩ := (s.advance t).blkTake_spec c h j r
      refine answers_of_settled hpow (exec_blockProcessed t c s) hold ?_ fun l => ?_
      · rw [heq]
        exact hcap.of_eq hjob.caps hjob.ctxs
      · rw [heq]
        generalize (s.advance t).blkTake c h j r = z at *
        exact ⟨⟨congrArg Cor.ready hcor, congrArg Cor.prevBlk hcor, hcount⟩, hjob.dma, (congrArg Cor.bufs hcor).trans rfl, hjob.tab _ (oCor_ne_oBlk c.isLt _ (by decide)),
          _, congrArg Cor.cur hcor, hbins, hmiss, hseq, hacc⟩
    · obtain ⟨hproc, hnone, hepoch, -, hcaps, hctxs, -, hharv, -, hdma, hwritten⟩ :=
        State.jobClosed_spec (s := s.advance t) c.isLt h j r hclosing hdue
      refine answers_of_settled hpow (exec_blockProcessed t c s) hold ?_ fun l => ?_
      · rw [State.blockProcessed_cur (s := s.advance t) hready hcur]
        exact hcap.of_eq hcaps hctxs
      · rw [State.blockProcessed_cur (s := s.advance t) hready hcur]
        generalize ((s.advance t).blkTake c h j r).jobClosed c j = z at *
        exact ⟨hproc, hnone, hepoch, hharv, hdma, hwritten⟩
    · obtain ⟨⟨b, hcor, hfree, hfull⟩, hdma, hcaps, hctxs, htab, hseq, hkept, hlost⟩ := (s.advance t).blkOpen_spec c.isLt j
      have heq := State.blockProcessed_open (s := s.advance t) c.isLt hready hcur hblocks
      have hopened : ((s.advance t).blkOpen c j).Settled := hcap.of_eq hcaps hctxs
      have hgoing : (((s.advance t).blkOpen c j).cor c).closing = false := (congrArg Cor.closing hcor).trans hclosing
      have hbufs : (((s.advance t).blkOpen c j).cor c).bufs = b := congrArg Cor.bufs hcor
      have hblk : ((s.advance t).blkOpen c j).tabw (oBlk c 2) = s.tabw (oBlk c 2) :=
        htab _ (oBlk_above c) (oCor_ne_oBlk c.isLt _ (by decide)).symm (oCor_ne_oBlk c.isLt _ (by decide)).symm
      have hnew : ((s.advance t).harvOpened c j).discard = !decide (x.bufs < s.corNbuf c) := rfl
      generalize hopen : (s.advance t).harvOpened c j = h at *
      generalize (s.advance t).blkOpen c j = y at *
      obtain ⟨⟨hready', hprev, hcount⟩, hbuf, hcaps', hctxs', htab', hbit, hstay⟩ := State.jobClosed_keeps (s := y) c.isLt h j r hgoing
      refine answers_of_settled hpow (exec_blockProcessed t c s) hold ?_ fun l => ?_
      · rw [heq]
        exact hopened.of_eq hcaps' hctxs'
      · rw [heq]
        generalize (y.blkTake c h j r).jobClosed c j = z at *
        refine ⟨⟨hready', hprev, hcount.trans (by rw [hblk])⟩, (htab' _ (oCor_above c _) (oCor_ne_oBlk c.isLt _ (by decide))).trans hseq, fun hroom => ⟨?_, ?_⟩,
          fun hno => ⟨?_, ?_, ?_, ?_⟩⟩
        · exact (hbuf.trans hbufs).trans (hfree hroom)
        · exact (htab' _ (oCor_above c _) (oCor_ne_oBlk c.isLt _ (by decide))).trans (hkept hroom)
        · exact (hbuf.trans hbufs).trans (hfull hno)
        · exact (hstay (hnew.trans (by rw [decide_eq_false (not_lt.mpr hno)]; rfl))).trans hdma
        · exact hbit 1 (hlost hno).1
        · have hword := htab' (oCor c 6) (oCor_above c _) (oCor_ne_oBlk c.isLt _ (by decide))
          exact (congrArg BitVec.toNat hword).trans (hlost hno).2
    · refine next_of hpow (exec_blockProcessed t c s) (x := (s.advance t).setCor c { x with ready := r, prevBlk := [] }) ?_ (by constructor <;> rfl)
      rw [State.asOf_plain (s := s.advance t) hold, State.blockProcessed_empty (s := s.advance t) hready hcur hblocks hclosing]
      exact State.settle_id (hset.of_eq rfl rfl)

/-- Transfers of the ring (R250). -/
theorem blockedRuns_transfers (s : State) (t : Nat) (header data : List Word64) (drop : Nat) (hpow : s.Powered) :
    let u := s.advance t
    let h (k : Nat) : Nat := (header.getD k 0).toNat
    let g := nfld (h 0) 26 2
    let ours (c : Nat) : Bool := decide ((s.cor c).run = 2) && s.casc c && decide (s.blkCtag c = nfld (h 0) 0 16)
    let fits (c : Nat) : Prop := nfld (h 3) 0 12 = s.slotCnt c ∧ (nfld (h 3) 12 1 = 1 ↔ s.blkBeam c = true) ∧
      nfld (h 2) 32 25 = (s.cor c).w / 2000 ∧ nfld (h 2) 0 5 = s.blkExp c ∧ h 1 % s.blkB c = 0
    let relayed (s' : State) : Prop :=
      (nfld (h 0) 24 2 ≤ 1 → s'.out = s.out ∧ s'.reg64 sCas 0x034 = s.reg64 sCas 0x034) ∧
      (1 < nfld (h 0) 24 2 →
        s'.out = .casIdle s.casIdleWord ::
          .casTransfer ((h 0 - 2 ^ 24) :: (header.drop 1).map (·.toNat)) (data.map (·.toNat)) :: s.out ∧
        s'.reg64 sCas 0x034 = min (s.reg64 sCas 0x034 + 1) (2 ^ 64 - 1))
    let old (c : Nat) : Prop := s.blkGridOf c g (h 1) = (s.cor c).blkGrid ∧ ∃ f, (s.cor c).nextBlk = some f ∧ h 1 < f
    (s.cas.st ≠ 2 → exec (.casTransfer t header ⟨data, drop⟩) s = .next u) ∧
    (s.cas.st = 2 → 0 < drop → exec (.casTransfer t header ⟨data, drop⟩) s = .next (u.bump64 sCas 0x04C drop)) ∧
    (nfld (h 0) 32 32 ≠ 0x4341_5331 → exec (.casTransfer t header ⟨data, 0⟩) s = .next u) ∧
    (s.cas.st = 2 → nfld (h 0) 32 32 = 0x4341_5331 →
      ((∀ c ∈ s.runningCtxs, ours c = false) → Answers (.casTransfer t header ⟨data, 0⟩) s fun s' => relayed s' ∧ Side u s') ∧
      (∀ c, s.runningCtxs.filter ours = [c] →
        (¬fits c → exec (.casTransfer t header ⟨data, 0⟩) s = .next ((u.bump64 sCas 0x044 1).evt sCas 3)) ∧
        (fits c → g ∉ s.needed c ∨ g = s.ringPos c ∨ old c →
          Answers (.casTransfer t header ⟨data, 0⟩) s fun s' => relayed s' ∧ Side u s') ∧
        (fits c → g ∈ s.needed c → g ≠ s.ringPos c → ¬old c →
          (4 ≤ (s.cor c).occupied g → exec (.casTransfer t header ⟨data, 0⟩) s = .next ((u.bump64 sCas 0x03C 1).evt sCas 2)) ∧
          ((s.cor c).occupied g < 4 → Answers (.casTransfer t header ⟨data, 0⟩) s fun s' => relayed s' ∧
            s'.reg64 sCas 0x02C = min (s.reg64 sCas 0x02C + 1) (2 ^ 64 - 1) ∧
            ∃ k : SigBlock, k.group = g ∧ k.first = h 1 ∧ k.orig = s.blkGridOf c g (h 1) ∧ k.lost = h 4 ∧
              k.bins = unpackBlock (s.blkBeam c) (s.slotCnt c) (s.blkB c) (data.map (·.toNat)) ∧
              (k ∈ (s'.cor c).slots ∨ ∃ j ∈ (s'.cor c).ready, k ∈ j.blocks))))) := by
  intro u h g ours fits relayed old
  have hh (k : Nat) : (header.map (·.toNat)).getD k 0 = h k := getD_toNat header k
  have hdrop : (header.map (·.toNat)).drop 1 = (header.drop 1).map (·.toNat) := List.map_drop.symm
  have hrun := fun lost => exec_casTransfer t header ⟨data, lost⟩ s
  have heq (lost : Nat) : u.casTransfer (header.map (·.toNat)) (data.map (·.toNat)) lost =
      if s.cas.st ≠ 2 then u else if 0 < lost then u.bump64 sCas 0x04C lost else if nfld (h 0) 32 32 ≠ 0x4341_5331 then u
      else u.casTaken (header.map (·.toNat)) (data.map (·.toNat)) := by
    rw [State.casTransfer_eq u, hh 0]
    rfl
  have hfits (c : Nat) : u.casFits c (header.map (·.toNat)) ↔ fits c := by
    unfold State.casFits
    rw [hh, hh, hh, ← Bool.coe_iff_coe, decide_eq_true_iff]
    rfl
  have hold (c : Nat) : u.casOld c (header.map (·.toNat)) = true ↔ old c := by
    unfold State.casOld
    rw [hh, hh]
    show (match (s.cor c).nextBlk with | some f => decide (s.blkGridOf c g (h 1) = (s.cor c).blkGrid) && decide (h 1 < f) | none => false) = true ↔ old c
    cases hnext : (s.cor c).nextBlk with
    | none =>
      refine ⟨fun hf => absurd hf Bool.false_ne_true, fun ⟨_, f, hf, _⟩ => ?_⟩
      rw [hnext] at hf
      cases hf
    | some f =>
      refine ⟨fun hand => ?_, fun ⟨hgrid, f', hf, hlt⟩ => ?_⟩
      · rw [Bool.and_eq_true, decide_eq_true_iff, decide_eq_true_iff] at hand
        exact ⟨hand.1, f, hnext, hand.2⟩
      · rw [hnext] at hf
        obtain rfl := Option.some.inj hf
        rw [Bool.and_eq_true, decide_eq_true_iff, decide_eq_true_iff]
        exact ⟨hgrid, hlt⟩
  have htargets : u.casTargets (header.map (·.toNat)) = s.runningCtxs.filter ours := by
    unfold State.casTargets
    rw [hh]
    rfl
  have hrelay (v : State) (hout : v.out = s.out) (hword : v.casIdleWord = s.casIdleWord) (hcount : v.reg64 sCas 0x034 = s.reg64 sCas 0x034) :
      relayed (v.forwarded (header.map (·.toNat)) (data.map (·.toNat))) := by
    obtain ⟨hstill, hsent, -⟩ := v.forwarded_spec (header.map (·.toNat)) (data.map (·.toNat))
    rw [hh, hout, hcount] at hstill hsent
    rw [hword, hdrop] at hsent
    exact ⟨hstill, hsent⟩
  have hpass : relayed (u.forwarded (header.map (·.toNat)) (data.map (·.toNat))) ∧ Side u (u.forwarded (header.map (·.toNat)) (data.map (·.toNat))) :=
    ⟨hrelay u rfl rfl rfl, (u.forwarded_spec _ _).2.2.1⟩
  refine ⟨fun hst => ?_, fun hst hlost => ?_, fun hmagic => ?_, fun hst hmagic => ?_⟩
  · exact next_of hpow (hrun drop) (x := u) ((heq drop).trans (if_pos hst)) (Quiet.refl _)
  · exact next_of hpow (hrun drop) (x := u.bump64 sCas 0x04C drop) ((heq drop).trans ((if_neg (not_not.mpr hst)).trans (if_pos hlost)))
      (u.bump64_side _ _ _).quiet
  · refine next_of hpow (hrun 0) (x := u) ?_ (Quiet.refl _)
    refine (heq 0).trans ?_
    by_cases hst : s.cas.st ≠ 2
    · exact if_pos hst
    · exact (if_neg hst).trans ((if_neg (Nat.lt_irrefl 0)).trans (if_pos hmagic))
  · have htaken : u.casTransfer (header.map (·.toNat)) (data.map (·.toNat)) 0 = u.casTaken (header.map (·.toNat)) (data.map (·.toNat)) :=
      (heq 0).trans ((if_neg (not_not.mpr hst)).trans ((if_neg (Nat.lt_irrefl 0)).trans (if_neg (not_not.mpr hmagic))))
    have hforward (h' : u.casTaken (header.map (·.toNat)) (data.map (·.toNat)) = u.forwarded (header.map (·.toNat)) (data.map (·.toNat))) :
        Answers (.casTransfer t header ⟨data, 0⟩) s fun s' => relayed s' ∧ Side u s' :=
      answers_of hpow (hrun 0) (htaken.trans h') hpass.2.quiet hpass
    refine ⟨fun hnone => ?_, fun c hone => ?_⟩
    · refine hforward (State.casTaken_none (htargets.trans ?_) _)
      rw [List.filter_eq_nil_iff]
      intro c hc
      rw [hnone c hc]
      exact Bool.false_ne_true
    · have hc := htargets.trans hone
      refine ⟨fun hmis => ?_, fun hfit hskip => ?_, fun hfit hin hpos hnew => ⟨fun hfull => ?_, fun hroom => ?_⟩⟩
      · exact next_of hpow (hrun 0) (htaken.trans (State.casTaken_misfit hc (fun hf => hmis ((hfits c).mp hf)) _))
          ((u.bump64_side _ _ _).trans (State.evt_side _ _ _)).quiet
      · refine hforward (State.casTaken_passed hc ((hfits c).mpr hfit) ?_ _)
        rw [hh, hold]
        exact hskip
      · have hneeded := State.casTaken_needed (data := data.map (·.toNat)) hc ((hfits c).mpr hfit) (by rw [hh]; exact hin) (by rw [hh]; exact hpos)
          (Bool.eq_false_iff.mpr fun hf => hnew ((hold c).mp hf))
        rw [hh] at hneeded
        exact next_of hpow (hrun 0) (htaken.trans (hneeded.trans (if_pos hfull))) ((u.bump64_side _ _ _).trans (State.evt_side _ _ _)).quiet
      · have hneeded := State.casTaken_needed (data := data.map (·.toNat)) hc ((hfits c).mpr hfit) (by rw [hh]; exact hin) (by rw [hh]; exact hpos)
          (Bool.eq_false_iff.mpr fun hf => hnew ((hold c).mp hf))
        rw [hh] at hneeded
        obtain ⟨-, hbeam, -⟩ := (hfits c).mpr hfit
        obtain ⟨hout, hword, hsent, hcount, hheld⟩ := u.casStored_spec c (u.casBlock c (header.map (·.toNat)) (data.map (·.toNat)))
        have hrelayed := hrelay _ hout hword hsent
        obtain ⟨-, -, -, hcors, hstored⟩ := (u.casStored c (u.casBlock c (header.map (·.toNat)) (data.map (·.toNat)))).forwarded_spec
          (header.map (·.toNat)) (data.map (·.toNat))
        refine answers_of_wrapped hpow (hrun 0) fun l => ?_
        rw [show (s.advance t).casTransfer (header.map (·.toNat)) (data.map (·.toNat)) 0 = _ from htaken.trans (hneeded.trans (if_neg (not_le.mpr hroom)))]
        generalize hk : u.casBlock c (header.map (·.toNat)) (data.map (·.toNat)) = k at *
        generalize (u.casStored c k).forwarded (header.map (·.toNat)) (data.map (·.toNat)) = z at *
        have hcor : z.cor c = (u.casStored c k).cor c := by
          rw [State.cor, State.cor, hcors]
        subst hk
        refine ⟨hrelayed, hstored.trans hcount, u.casBlock c (header.map BitVec.toNat) (data.map BitVec.toNat), ?_, hh 1, ?_, hh 4, ?_, ?_⟩
        · exact congrArg (nfld · 26 2) (hh 0)
        · unfold State.casBlock
          rw [hh, hh]
          rfl
        · unfold State.casBlock
          rw [hbeam]
          rfl
        · change ((z.cor c)).Held _
          rw [hcor]
          exact hheld

/-- The hop (R244, R251). -/
theorem blockedRuns_hop (s : State) (t : Nat) (w : Word64) (hpow : s.Powered) :
    let u := s.advance t
    let p := nfld w.toNat 16 2
    let r := s.rfld sCas 0x014 8 8
    let next := (s.rfld sCas 0x014 3 2 + 1) % (s.rfld sCas 0x014 1 2 + 1)
    (s.cas.st ≠ 1 → s.cas.st ≠ 2 → exec (.casIdle t w) s = .next u ∧ exec (.casHopLost t) s = .next u) ∧
    (nfld w.toNat 32 32 ≠ 0x4341_5349 → exec (.casIdle t w) s = .next u) ∧
    (nfld w.toNat 32 32 = 0x4341_5349 →
      (s.cas.st = 2 ∨ (s.cas.st = 1 ∧ p ≠ next) →
        exec (.casIdle t w) s = .next { u with cas := { s.cas with upPos := p, lock := 0xFF } }) ∧
      (s.cas.st = 1 → p = next → exec (.casIdle t w) s = .next
        (({ u with cas := { s.cas with upPos := p, lock := 0xFF, st := 2 } } : State).evt sCas 0))) ∧
    (s.cas.st = 1 ∨ s.cas.st = 2 → Answers (.casHopLost t) s fun s' =>
      s'.cas = { s.cas with st := 3, lock := 0, lostAt := max s.now t } ∧
      s'.reg64 sCas 0x054 = min (s.reg64 sCas 0x054 + 1) (2 ^ 64 - 1) ∧ bit (s'.reg (ra sCas 0x008)) 1 = true ∧
      Side { u with cas := s'.cas } s') ∧
    (s.cas.st ≠ 3 ∨ r = 0 ∨ max s.now t < s.cas.lostAt + r * 2_000_000 → exec (.casRetry t) s = .next u) ∧
    (s.cas.st = 3 → r ≠ 0 → s.cas.lostAt + r * 2_000_000 ≤ max s.now t →
      exec (.casRetry t) s = .next (({ u with cas := { s.cas with st := 1 } } : State).emit (.casIdle s.casIdleWord))) := by
  intro u p r next
  refine ⟨fun h1 h2 => ⟨?_, ?_⟩, fun hmagic => ?_, fun hmagic => ⟨fun hup => ?_, fun hst hp => ?_⟩, fun hst => ?_, fun hno => ?_, fun hst hr hdue => ?_⟩
  · exact next_of hpow (exec_casIdle t w s) (x := u) (State.casIdle_still fun ⟨hst, _⟩ => hst.elim h1 h2) (Quiet.refl _)
  · exact next_of hpow (exec_casHopLost t s) (x := u) (State.casLost_still fun hst => hst.elim h1 h2) (Quiet.refl _)
  · exact next_of hpow (exec_casIdle t w s) (x := u) (State.casIdle_still fun ⟨_, hw⟩ => hmagic hw) (Quiet.refl _)
  · refine next_of hpow (exec_casIdle t w s) ((State.casIdle_heard (s := u) (hup.elim Or.inr fun h => Or.inl h.1) hmagic).trans (if_neg ?_)) (by constructor <;> rfl)
    rintro ⟨hst, hp⟩
    rcases hup with h2 | ⟨-, hne⟩
    · exact absurd (hst.symm.trans h2) (by decide)
    · exact hne hp
  · exact next_of hpow (exec_casIdle t w s) ((State.casIdle_heard (s := u) (Or.inl hst) hmagic).trans (if_pos ⟨hst, hp⟩))
      ((by constructor <;> rfl : Quiet u { u with cas := { s.cas with upPos := p, lock := 0xFF, st := 2 } }).trans (State.evt_side _ _ _).quiet)
  · obtain ⟨hside, hcount, hbit⟩ := State.casLost_spec (s := u) hst
    have hcas : u.casLost.cas = { s.cas with st := 3, lock := 0, lostAt := max s.now t } := by
      obtain ⟨_, _, _, _, _, hz⟩ := hside
      rw [hz]
      rfl
    refine answers_of hpow (exec_casHopLost t s) rfl ((by constructor <;> rfl : Quiet u u.hopDown).trans hside.quiet) ⟨hcas, hcount, hbit, ?_⟩
    rw [hcas]
    exact hside
  · exact next_of hpow (exec_casRetry t s) (x := u) (State.casRetry_still (s := u) hno) (Quiet.refl _)
  · exact next_of hpow (exec_casRetry t s) (State.casRetry_due (s := u) hst hr hdue)
      ((by constructor <;> rfl : Quiet u { u with cas := { s.cas with st := 1 } }).trans (State.emit_side _ _).quiet)

/-- Settles O52: blocks sent and judged, judged blocks in order, transfers by the first rule that applies, and the hop. -/
theorem blockedRuns : Obligations.BlockedRuns := by
  unfold Obligations.BlockedRuns
  exact ⟨fun d n i j _ hd _ hij hj => ringPairs d n i j hd hij hj, blockedRuns_blocks, blockedRuns_jobs, blockedRuns_transfers, blockedRuns_hop⟩

end Sys2Proof.Machine
end

section
/-! Proofs about the handling of histogram stamps: expiry, pairing and increments (R227 to R233, R240). -/

namespace Sys2Proof.Machine

variable {s x y z : State} {d die i o w : Nat} {p : Int} {ws vs : List Nat} {h : HDef} {q q' : Option Stamp} {a b e f : Stamp} {r : List Stamp}

/-! ### Status counts -/

theorem State.tbump_word (s : State) (o k : Nat) : ((s.tbump o k).tabw o).toNat = min ((s.tabw o).toNat + k) (2 ^ 32 - 1) :=
  (congrArg BitVec.toNat (State.setTabw_tabw_same _ _ _)).trans
    ((BitVec.toNat_ofNat _ _).trans (Nat.mod_eq_of_lt (lt_of_le_of_lt (min_le_right _ _) (by decide))))

theorem State.tbump_tab (h : z.tab = s.tab) (o k : Nat) : (z.tbump o k).tab = (s.tbump o k).tab := by
  have hword : z.tabw o = s.tabw o := by
    unfold State.tabw
    rw [h]
  unfold State.tbump State.setTabN State.setTabw
  rw [hword]
  dsimp only
  rw [h]

/-- A definition's status words counted by one, word by word. -/
def State.hticked (s : State) (d : Nat) (ws : List Nat) : State := ws.foldl (fun s w => s.tbump (oHdef d w) 1) s

theorem State.hticked_cons (s : State) (d w : Nat) (ws : List Nat) : s.hticked d (w :: ws) = (s.tbump (oHdef d w) 1).hticked d ws := rfl

theorem State.hticked_append (s : State) (d : Nat) (ws vs : List Nat) : s.hticked d (ws ++ vs) = (s.hticked d ws).hticked d vs := List.foldl_append

theorem State.hticked_tab (h : z.tab = s.tab) (d : Nat) (ws : List Nat) : (z.hticked d ws).tab = (s.hticked d ws).tab := by
  induction ws generalizing s z with
  | nil => exact h
  | cons w ws ih => exact ih (State.tbump_tab h _ _)

theorem State.hticked_other (ho : ∀ w ∈ ws, o ≠ oHdef d w) : (s.hticked d ws).tabw o = s.tabw o := by
  induction ws generalizing s with
  | nil => rfl
  | cons w ws ih =>
    rw [State.hticked_cons, ih fun v hv => ho v (List.mem_cons_of_mem _ hv)]
    exact State.setTabw_tabw_ne _ _ (ho w List.mem_cons_self).symm

theorem oHdef_inj (d : Nat) {v w : Nat} (h : v ≠ w) : oHdef d v ≠ oHdef d w := by
  unfold oHdef
  omega

theorem State.hticked_same (hw : w ∉ ws) : (s.hticked d ws).tabw (oHdef d w) = s.tabw (oHdef d w) :=
  State.hticked_other fun _ hv => oHdef_inj d fun heq => hw (heq ▸ hv)

theorem State.hticked_once (hw : w ∈ ws) (hnd : ws.Nodup) : ((s.hticked d ws).tabw (oHdef d w)).toNat = min ((s.tabw (oHdef d w)).toNat + 1) (2 ^ 32 - 1) := by
  induction ws generalizing s with
  | nil => cases hw
  | cons v ws ih =>
    obtain ⟨hv, hrest⟩ := List.nodup_cons.mp hnd
    rw [State.hticked_cons]
    rcases List.mem_cons.mp hw with rfl | hin
    · rw [State.hticked_same hv]
      exact State.tbump_word _ _ _
    · have hne : w ≠ v := fun heq => hv (heq ▸ hin)
      rw [ih hin hrest, show (s.tbump (oHdef d v) 1).tabw (oHdef d w) = _ from State.setTabw_tabw_ne _ _ (oHdef_inj d hne.symm)]

/-! ### What handling leaves of a definition -/

/-- A definition after its pending start is `q`, and starts it keeps and counts may have moved. -/
def HDef.Paired (h h' : HDef) (q : Option Stamp) : Prop :=
  ∃ l c c', h' = { h with pend := q, hist := l, cnt := c, postCnt := c' } ∧ (h.hist = [] → l = [])

theorem HDef.Paired.trans {h h' h'' : HDef} (hp : h.Paired h' q) (hp' : h'.Paired h'' q') : h.Paired h'' q' := by
  obtain ⟨l, c, c', rfl, hl⟩ := hp
  obtain ⟨l', c'', c''', rfl, hl'⟩ := hp'
  exact ⟨l', c'', c''', rfl, fun hnil => hl' (hl hnil)⟩

/-- A part of the handling of a stamp, with the status words it counts and the start that is pending after it. -/
structure Ready (d : Nat) (ws : List Nat) (q : Option Stamp) (s z : State) : Prop where
  rest : ∃ m, z = { s with hdefs := m, tab := (s.hticked d ws).tab }
  paired : (s.hdef d).Paired (z.hdef d) q
  status : ∀ w ∈ ws, 9 ≤ w
  others : ∀ n, n ≠ d → z.hdef n = s.hdef n

theorem Ready.trans (hr : Ready d ws q s y) (hr' : Ready d vs q' y z) : Ready d (ws ++ vs) q' s z := by
  obtain ⟨⟨m, hm⟩, hp, hw, ho⟩ := hr
  obtain ⟨⟨m', hm'⟩, hp', hw', ho'⟩ := hr'
  have htab : y.tab = (s.hticked d ws).tab := by rw [hm]
  refine ⟨⟨m', ?_⟩, hp.trans hp', fun w hin => (List.mem_append.mp hin).elim (hw w) (hw' w),
    fun n hn => (ho' n hn).trans (ho n hn)⟩
  rw [State.hticked_append, ← State.hticked_tab htab, hm', hm]

theorem Ready.tab (hr : Ready d ws q s z) : z.tab = (s.hticked d ws).tab := by
  obtain ⟨⟨m, hm⟩, -, -, -⟩ := hr
  rw [hm]

theorem Ready.tabw (hr : Ready d ws q s z) (o : Nat) : z.tabw o = (s.hticked d ws).tabw o := by
  unfold State.tabw
  rw [hr.tab]

theorem Ready.config (hr : Ready d ws q s z) (hw : w < 9) : z.tabw (oHdef d w) = s.tabw (oHdef d w) := by
  rw [hr.tabw]
  exact State.hticked_same fun hin => absurd (hr.status w hin) (not_le.mpr hw)

theorem State.hMode_congr (h0 : z.tabw (oHdef d 0) = s.tabw (oHdef d 0)) : z.hMode d = s.hMode d := congrArg (fun v => fld v 29 2) h0

theorem State.hSpan_congr (h1 : z.tabw (oHdef d 1) = s.tabw (oHdef d 1)) (h2 : z.tabw (oHdef d 2) = s.tabw (oHdef d 2)) : z.hSpan d = s.hSpan d := by
  unfold State.hSpan State.hNbins State.hK State.tfld
  rw [h1, h2]

theorem State.hWmin_congr (h3 : z.tabw (oHdef d 3) = s.tabw (oHdef d 3)) (h4 : z.tabw (oHdef d 4) = s.tabw (oHdef d 4)) : z.hWmin d = s.hWmin d := by
  have hnext : oHdef d 3 + 4 = oHdef d 4 := by
    unfold oHdef
    omega
  unfold State.hWmin State.tab64
  rw [hnext, h3, h4]

theorem Ready.hMode (hr : Ready d ws q s z) : z.hMode d = s.hMode d := State.hMode_congr (hr.config (by decide))
theorem Ready.hSpan (hr : Ready d ws q s z) : z.hSpan d = s.hSpan d := State.hSpan_congr (hr.config (by decide)) (hr.config (by decide))
theorem Ready.hWmin (hr : Ready d ws q s z) : z.hWmin d = s.hWmin d := State.hWmin_congr (hr.config (by decide)) (hr.config (by decide))

theorem Ready.pend (hr : Ready d ws q s z) : (z.hdef d).pend = q := by
  obtain ⟨-, ⟨l, c, c', hp, -⟩, -, -⟩ := hr
  rw [hp]

theorem Ready.histBin (hr : Ready d ws q s z) (a b : Stamp) : z.histBin d a b = s.histBin d a b := by
  have hk : z.hK d = s.hK d := congrArg (fun v => fld v 0 6) (hr.config (w := 1) (by decide))
  unfold State.histBin
  rw [hr.hWmin, hr.hSpan, hk]

theorem Ready.refl (hp : (s.hdef d).pend = q) : Ready d [] q s s :=
  ⟨⟨s.hdefs, rfl⟩, ⟨(s.hdef d).hist, (s.hdef d).cnt, (s.hdef d).postCnt, by rw [← hp], id⟩, (fun _ hw => nomatch hw), fun _ _ => rfl⟩

/-- The definition's own fields rewritten. -/
theorem State.setHdef_ready (hp : (s.hdef d).Paired h q) : Ready d [] q s (s.setHdef d h) :=
  ⟨⟨_, rfl⟩, by rw [State.setHdef_same]; exact hp, (fun _ hw => nomatch hw), fun _ hn => State.setHdef_ne _ _ hn.symm⟩

theorem State.histCount_ready (s : State) (d : Nat) {k : Nat} (hk : k < 7) (p : Int) : Ready d [9 + k] (s.hdef d).pend s (s.histCount d k 1 p) := by
  unfold State.histCount
  dsimp only
  rw [if_pos hk]
  have hfirst : ∃ u c c', u = (if (s.hctx (s.hOwner d)).later p = true then
      ({ s.hdef d with postCnt := (s.hdef d).postCnt.set k (satAdd 32 ((s.hdef d).postCnt.getD k 0) 1) } : HDef)
      else { s.hdef d with cnt := (s.hdef d).cnt.set k (satAdd 32 ((s.hdef d).cnt.getD k 0) 1) }) ∧
      u = { s.hdef d with cnt := c, postCnt := c' } := by
    by_cases hl : (s.hctx (s.hOwner d)).later p = true
    · exact ⟨_, _, _, rfl, if_pos hl⟩
    · exact ⟨_, _, _, rfl, if_neg hl⟩
  obtain ⟨u, c, c', hu, heq⟩ := hfirst
  rw [← hu]
  refine ⟨⟨_, rfl⟩, ?_, fun w hw => ?_, fun n hn => State.setHdef_ne _ u hn.symm⟩
  · refine ⟨(s.hdef d).hist, c, c', ?_, id⟩
    exact (State.setHdef_same (s := s) d u).trans heq
  · rw [List.mem_singleton.mp hw]
    exact Nat.le_add_right _ _

/-! ### Expiry -/

theorem State.histExpire_none (hp : (s.hdef d).pend = none) (p : Int) : s.histExpire d p = s := by
  unfold State.histExpire
  dsimp only
  rw [hp]

theorem State.histExpire_some (hp : (s.hdef d).pend = some a) (p : Int) : s.histExpire d p =
    if a.phys + s.hWmin d + s.hSpan d < p then
      (s.setHdef d { s.hdef d with pend := none }).histCount d 5 1 (a.phys + s.hWmin d + s.hSpan d) else s := by
  unfold State.histExpire
  dsimp only
  rw [hp]

theorem State.histExpire_late (hp : (s.hdef d).pend = some a) (hlate : a.phys + s.hWmin d + s.hSpan d < p) : Ready d [14] none s (s.histExpire d p) := by
  rw [State.histExpire_some hp, if_pos hlate]
  have hset : Ready d [] none s (s.setHdef d { s.hdef d with pend := none }) := State.setHdef_ready ⟨_, _, _, rfl, id⟩
  have hcount := (s.setHdef d { s.hdef d with pend := none }).histCount_ready d (k := 5) (by decide) (a.phys + s.hWmin d + s.hSpan d)
  rw [hset.pend] at hcount
  exact hset.trans hcount

theorem State.histExpire_kept (hp : (s.hdef d).pend = some a) (hin : p ≤ a.phys + s.hWmin d + s.hSpan d) : s.histExpire d p = s := by
  rw [State.histExpire_some hp, if_neg (not_lt.mpr hin)]

/-- The epoch's origin as an instant. -/
def State.epochEdge (s : State) : Int := 2000 * (s.solEdge : Int)

theorem State.histEpoch_cases (s : State) (d : Nat) (p : Int) : s.histEpoch d p = s ∨
    (s.epochEdge ≤ p ∧ ∃ v, v = s.histExpire d s.epochEdge ∧ s.histEpoch d p = v.setHdef d { v.hdef d with
      pend := (v.hdef d).pend.filter fun y => decide (s.epochEdge ≤ y.phys), hist := (v.hdef d).hist.filter fun y => decide (s.epochEdge ≤ y.phys) }) := by
  by_cases hc : (decide (s.epochEdge ≤ p) && !((s.hdef d).stopq.any fun y => decide (y.phys < s.epochEdge))) = true
  · refine Or.inr ⟨of_decide_eq_true (Bool.and_eq_true _ _ ▸ hc).1, _, rfl, if_pos hc⟩
  · exact Or.inl (if_neg hc)

/-- Old starts dropped from a definition whose pending start stays as the filter has it. -/
theorem State.emptied_ready (v : State) (d : Nat) (lim : Int) (hq : (v.hdef d).pend.filter (fun y => decide (lim ≤ y.phys)) = q) :
    Ready d [] q v (v.setHdef d { v.hdef d with
      pend := (v.hdef d).pend.filter fun y => decide (lim ≤ y.phys), hist := (v.hdef d).hist.filter fun y => decide (lim ≤ y.phys) }) :=
  State.setHdef_ready ⟨_, _, _, by rw [hq], fun hnil => by rw [hnil]; rfl⟩

/-- A definition once handling has come to an instant: what has expired is counted, what the epoch ended is emptied. -/
def State.histDue (s : State) (d : Nat) (p : Int) : State := (s.histEpoch d p).histExpire d p

theorem State.histDue_none (hp : (s.hdef d).pend = none) (p : Int) : Ready d [] none s (s.histDue d p) := by
  have hepoch : Ready d [] none s (s.histEpoch d p) := by
    rcases s.histEpoch_cases d p with heq | ⟨-, v, hv, heq⟩
    · rw [heq]
      exact Ready.refl hp
    · rw [State.histExpire_none hp] at hv
      rw [heq, hv]
      exact s.emptied_ready d _ (by rw [hp]; rfl)
  rw [State.histDue, State.histExpire_none hepoch.pend]
  exact hepoch

/-- A start of the epoch in progress, or one that the epoch's end has not come to, stays until its window ends. -/
theorem State.histEpoch_kept (hp : (s.hdef d).pend = some a) (hin : p < s.epochEdge ∨ s.epochEdge ≤ a.phys)
    (hwin : s.epochEdge ≤ p → s.epochEdge ≤ a.phys + s.hWmin d + s.hSpan d) : Ready d [] (some a) s (s.histEpoch d p) := by
  rcases s.histEpoch_cases d p with heq | ⟨hdue, v, hv, heq⟩
  · rw [heq]
    exact Ready.refl hp
  · have hnew : s.epochEdge ≤ a.phys := hin.resolve_left (not_lt.mpr hdue)
    rw [State.histExpire_kept hp (hwin hdue)] at hv
    rw [heq, hv]
    refine s.emptied_ready d _ ?_
    rw [hp]
    exact if_pos (decide_eq_true hnew)

theorem State.histDue_kept (hp : (s.hdef d).pend = some a) (hin : p < s.epochEdge ∨ s.epochEdge ≤ a.phys)
    (hwin : p ≤ a.phys + s.hWmin d + s.hSpan d) : Ready d [] (some a) s (s.histDue d p) := by
  have hepoch := State.histEpoch_kept hp hin fun hdue => hdue.trans hwin
  rw [State.histDue, State.histExpire_kept hepoch.pend (by rw [hepoch.hWmin, hepoch.hSpan]; exact hwin)]
  exact hepoch

theorem State.histDue_late (hp : (s.hdef d).pend = some a) (hin : p < s.epochEdge ∨ s.epochEdge ≤ a.phys)
    (hlate : a.phys + s.hWmin d + s.hSpan d < p) : Ready d [14] none s (s.histDue d p) := by
  by_cases hwin : s.epochEdge ≤ p → s.epochEdge ≤ a.phys + s.hWmin d + s.hSpan d
  · have hepoch := State.histEpoch_kept hp hin hwin
    exact hepoch.trans (State.histExpire_late hepoch.pend (by rw [hepoch.hWmin, hepoch.hSpan]; exact hlate))
  · rw [Classical.not_imp] at hwin
    obtain ⟨hdue, hgone⟩ := hwin
    have hexp := State.histExpire_late hp (not_le.mp hgone)
    have hepoch : Ready d [14] none s (s.histEpoch d p) ∨ s.histEpoch d p = s := by
      rcases s.histEpoch_cases d p with heq | ⟨-, v, hv, heq⟩
      · exact Or.inr heq
      · rw [← hv] at hexp
        rw [heq]
        exact Or.inl (hexp.trans (v.emptied_ready d _ (by rw [hexp.pend]; rfl)))
    rcases hepoch with hepoch | heq
    · rw [State.histDue, State.histExpire_none hepoch.pend]
      exact hepoch
    · rw [State.histDue, heq]
      exact State.histExpire_late hp hlate

/-- A start that the epoch's end came upon: counted if its window had ended by then, and gone. -/
theorem State.histDue_old (hp : (s.hdef d).pend = some a) (hstop : (s.hdef d).stopq = []) (hdue : s.epochEdge ≤ p) (hold : a.phys < s.epochEdge) :
    Ready d (if a.phys + s.hWmin d + s.hSpan d < s.epochEdge then [14] else []) none s (s.histDue d p) := by
  have hepoch : Ready d (if a.phys + s.hWmin d + s.hSpan d < s.epochEdge then [14] else []) none s (s.histEpoch d p) := by
    have heq : s.histEpoch d p = (s.histExpire d s.epochEdge).setHdef d { (s.histExpire d s.epochEdge).hdef d with
        pend := ((s.histExpire d s.epochEdge).hdef d).pend.filter fun y => decide (s.epochEdge ≤ y.phys)
        hist := ((s.histExpire d s.epochEdge).hdef d).hist.filter fun y => decide (s.epochEdge ≤ y.phys) } := by
      refine if_pos ?_
      rw [hstop]
      exact Bool.and_eq_true _ _ ▸ ⟨decide_eq_true hdue, rfl⟩
    rw [heq]
    by_cases hend : a.phys + s.hWmin d + s.hSpan d < s.epochEdge
    · have hexp := State.histExpire_late hp hend
      rw [if_pos hend]
      exact hexp.trans (State.emptied_ready _ d _ (by rw [hexp.pend]; rfl))
    · rw [State.histExpire_kept hp (not_lt.mp hend), if_neg hend]
      refine s.emptied_ready d _ ?_
      rw [hp]
      exact if_neg (Bool.eq_false_iff.mp (decide_eq_false (not_le.mpr hold)))
  rw [State.histDue, State.histExpire_none hepoch.pend]
  exact hepoch

/-- What handling leaves, whatever has expired or been emptied. -/
theorem State.histDue_ready (s : State) (d : Nat) (p : Int) : ∃ ws q, Ready d ws q s (s.histDue d p) := by
  have hexp (v : State) (lim : Int) : ∃ ws q, Ready d ws q v (v.histExpire d lim) := by
    cases hq : (v.hdef d).pend with
    | none =>
      rw [State.histExpire_none hq]
      exact ⟨_, _, Ready.refl hq⟩
    | some a =>
      rcases lt_or_ge (a.phys + v.hWmin d + v.hSpan d) lim with hlate | hin
      · exact ⟨_, _, State.histExpire_late hq hlate⟩
      · rw [State.histExpire_kept hq hin]
        exact ⟨_, _, Ready.refl hq⟩
  have hepoch : ∃ ws q, Ready d ws q s (s.histEpoch d p) := by
    rcases s.histEpoch_cases d p with heq | ⟨-, v, hv, heq⟩
    · rw [heq]
      exact ⟨_, _, Ready.refl rfl⟩
    · obtain ⟨ws, q, hr⟩ := hexp s s.epochEdge
      rw [heq, hv]
      exact ⟨_, _, hr.trans (State.emptied_ready _ d _ rfl)⟩
  obtain ⟨ws, q, hr⟩ := hepoch
  obtain ⟨vs, q', hr'⟩ := hexp (s.histEpoch d p) p
  exact ⟨_, _, hr.trans hr'⟩

/-! ### Pairing -/

theorem State.histStart_none (hmode : s.hMode d ≤ 1) (hp : (s.hdef d).pend = none) (a : Stamp) : Ready d [] (some a) s (s.histStart d a) := by
  have heq : s.histStart d a = s.setHdef d { s.hdef d with pend := some a } := by
    unfold State.histStart
    dsimp only
    rw [if_neg (by omega), hp]
  rw [heq]
  exact State.setHdef_ready ⟨_, _, _, rfl, id⟩

theorem State.histStart_some (hmode : s.hMode d ≤ 1) (hp : (s.hdef d).pend = some b) (a : Stamp) :
    Ready d [15] (some (if s.hMode d = 0 then a else b)) s (s.histStart d a) := by
  have heq : s.histStart d a = (if s.hMode d = 0 then s.setHdef d { s.hdef d with pend := some a } else s).histCount d 6 1 a.phys := by
    unfold State.histStart
    dsimp only
    rw [if_neg (by omega), hp]
  have hfirst : Ready d [] (some (if s.hMode d = 0 then a else b)) s (if s.hMode d = 0 then s.setHdef d { s.hdef d with pend := some a } else s) := by
    by_cases h0 : s.hMode d = 0
    · rw [if_pos h0, if_pos h0]
      exact State.setHdef_ready ⟨_, _, _, rfl, id⟩
    · rw [if_neg h0, if_neg h0]
      exact Ready.refl hp
  rw [heq]
  generalize (if s.hMode d = 0 then s.setHdef d { s.hdef d with pend := some a } else s) = v at *
  have hcount := v.histCount_ready d (k := 6) (by decide) a.phys
  rw [hfirst.pend] at hcount
  exact hfirst.trans hcount

theorem State.histStart_multi (hmode : s.hMode d = 2) (hh : (s.hdef d).hist = []) (a : Stamp) :
    s.histStart d a = s.setHdef d { s.hdef d with hist := [a] } := by
  unfold State.histStart
  dsimp only
  rw [if_pos hmode, hh]
  rfl

theorem State.histStop_none (hmode : s.hMode d ≤ 1) (hp : (s.hdef d).pend = none) (a : Stamp) : Ready d [13] none s (s.histStop d a) := by
  have heq : s.histStop d a = s.histCount d 4 1 a.phys := by
    unfold State.histStop
    dsimp only
    rw [if_neg (by omega), hp]
  have hcount := s.histCount_ready d (k := 4) (by decide) a.phys
  rw [hp] at hcount
  rw [heq]
  exact hcount

theorem State.histStop_out (hmode : s.hMode d ≤ 1) (hp : (s.hdef d).pend = some b) (hbin : s.histBin d b a = none) :
    Ready d [12] none s (s.histStop d a) := by
  have hset : Ready d [] none s (s.setHdef d { s.hdef d with pend := none }) := State.setHdef_ready ⟨_, _, _, rfl, id⟩
  have heq : s.histStop d a = (s.setHdef d { s.hdef d with pend := none }).histCount d 3 1 a.phys := by
    unfold State.histStop
    dsimp only
    rw [if_neg (by omega), hp]
    dsimp only
    rw [hset.histBin, hbin]
  have hcount := (s.setHdef d { s.hdef d with pend := none }).histCount_ready d (k := 3) (by decide) a.phys
  rw [hset.pend] at hcount
  rw [heq]
  exact hset.trans hcount

theorem State.histStop_in (hmode : s.hMode d ≤ 1) (hp : (s.hdef d).pend = some b) (hbin : s.histBin d b a = some i) :
    s.histStop d a = (s.setHdef d { s.hdef d with pend := none }).histIncr d i b a := by
  have hset : Ready d [] none s (s.setHdef d { s.hdef d with pend := none }) := State.setHdef_ready ⟨_, _, _, rfl, id⟩
  unfold State.histStop
  dsimp only
  rw [if_neg (by omega), hp]
  dsimp only
  rw [hset.histBin, hbin]

end Sys2Proof.Machine
end

section
/-! Proofs about the increments of a bin (R231, R233) and the statement of stamps handled one by one. -/

namespace Sys2Proof.Machine

variable {s x y z u v : State} {d die i o w : Nat} {p : Int} {ws vs : List Nat} {h : HDef} {q q' : Option Stamp} {a b : Stamp} {e e' : HEng} {r : List Stamp}

/-! ### The bin of an interval -/

theorem State.histBin_iff (s : State) (d : Nat) (a b : Stamp) (i : Nat) :
    let x := sdiff b.time a.time - s.hWmin d
    s.histBin d a b = some i ↔ 0 ≤ x ∧ x < s.hNbins d * 2 ^ s.hK d ∧ (i : Int) = x / 2 ^ s.hK d := by
  intro x
  have hspan : s.hSpan d = s.hNbins d * 2 ^ s.hK d := by
    rw [State.hSpan]
    push_cast
    rfl
  have heq : s.histBin d a b = if 0 ≤ x ∧ x < s.hSpan d then some ((x / 2 ^ s.hK d).toNat) else none := rfl
  rw [heq, hspan]
  constructor
  · intro hb
    split at hb
    next hin =>
      obtain ⟨h0, hlt⟩ := hin
      refine ⟨h0, hlt, ?_⟩
      rw [← Option.some.inj hb]
      exact Int.toNat_of_nonneg (Int.ediv_nonneg h0 (by positivity))
    next => cases hb
  · rintro ⟨h0, hlt, hi⟩
    rw [if_pos ⟨h0, hlt⟩, ← hi]
    rfl

/-! ### The cache -/

theorem HEng.line_full {key : Nat} (hin : key ∉ e.lines) (hfull : 4096 ≤ e.misses.length) : e.line key = none := by
  unfold HEng.line
  rw [if_neg (fun hc => hin (List.contains_iff_mem.mp hc)), if_pos hfull]

/-- A line that is present or takes a place of the miss queue; an even number is no delta held across a cut. -/
theorem HEng.line_room {k : Nat} (hroom : 2 * k ∈ e.lines ∨ e.misses.length < 4096) : ∃ e', e.line (2 * k) = some e' ∧
    e'.misses = (if 2 * k ∈ e.lines then e.misses else e.misses ++ [2 * k]) ∧ (e.lines.length < cacheLines → 2 * k ∈ e'.lines) := by
  unfold HEng.line
  by_cases hin : 2 * k ∈ e.lines
  · rw [if_pos (List.contains_iff_mem.mpr hin), if_pos hin]
    exact ⟨e, rfl, rfl, fun _ => hin⟩
  · rw [if_neg (fun hc => hin (List.contains_iff_mem.mp hc)), if_neg (not_le.mpr (hroom.resolve_left hin)), if_neg hin]
    dsimp only
    by_cases hfree : e.lines.length < cacheLines
    · rw [if_pos hfree]
      exact ⟨_, rfl, rfl, fun _ => List.mem_append_right _ (List.mem_singleton.mpr rfl)⟩
    · rw [if_neg hfree]
      cases e.lines.find? fun l => decide (l % 2 = 0) with
      | some l => exact ⟨_, rfl, rfl, fun hlt => absurd hlt hfree⟩
      | none =>
        have heven : ¬ 2 * k % 2 = 1 := by omega
        exact ⟨_, if_neg heven, rfl, fun hlt => absurd hlt hfree⟩

/-! ### Increments -/

/-- The count of cache misses of an increment. -/
def State.histMissed (s : State) (d i : Nat) : State :=
  if (s.heng (s.hHome d)).lines.contains (2 * histLine d i) then s else s.bump64 (sHst (s.hHome d)) 0x048 1

theorem State.histMissed_side (s : State) (d i : Nat) : Side s (s.histMissed d i) := Side.ite (Side.refl s) (State.bump64_side _ _ _ _)

theorem State.histMissed_reg64 (s : State) (d i : Nat) {off : Nat} (hoff : off < 0x044) :
    (s.histMissed d i).reg64 (sHst (s.hHome d)) off = s.reg64 (sHst (s.hHome d)) off := by
  unfold State.histMissed
  split
  · rfl
  · exact State.bump64_reg64 (by omega)

/-- A definition whose bin has taken an increment. -/
def State.histAdded (s : State) (d i : Nat) (a b : Stamp) : HDef :=
  { s.hdef d with
    bins := Sparse.set 0 (s.hdef d).bins i (Sparse.get 0 (s.hdef d).bins i + 1)
    flags := (s.hdef d).flags ||| (a.flags ||| b.flags) &&& (fUNLOCKED ||| fWINTER ||| fCAL ||| fUNALIGNED)
    lost := (s.hdef d).lost ||| (s.lostTiles a ||| s.lostTiles b) }

/-- An increment that no cut waits for. -/
theorem State.histIncr_plain (hwait : (s.hctx (s.hOwner d)).waiting = []) (hcopy : (s.hctx (s.hOwner d)).copying = none) (i : Nat) (a b : Stamp) :
    s.histIncr d i a b = match (s.heng (s.hHome d)).line (2 * histLine d i) with
      | none => (s.histMissed d i).histDrop d (max a.phys b.phys)
      | some e' =>
        if 2 ^ 32 - 1 ≤ Sparse.get 0 (((s.histMissed d i).setHeng (s.hHome d) e').hdef d).bins i then
          ((s.histMissed d i).setHeng (s.hHome d) e').histSat d 1 (max a.phys b.phys)
        else (((((s.histMissed d i).setHeng (s.hHome d) e').setHdef d (((s.histMissed d i).setHeng (s.hHome d) e').histAdded d i a b)).histCount d 0 1
          (max a.phys b.phys)).bump64 (sHst (s.hHome d)) 0x028 1).report (s.hOwner d) 5 0 1 := by
  have hheld : (s.hctx (s.hOwner d)).holds (max a.phys b.phys) = false := by
    unfold HCtx.holds HCtx.later
    rw [hwait, hcopy]
    rfl
  unfold State.histIncr
  dsimp only
  rw [hheld]
  rfl

theorem Side.hHome (hside : Side s z) (d : Nat) : z.hHome d = s.hHome d := by
  unfold State.hHome State.tfld
  rw [hside.tabw]

theorem Side.hOwner (hside : Side s z) (d : Nat) : z.hOwner d = s.hOwner d := by
  unfold State.hOwner State.tfld
  rw [hside.tabw]

theorem State.report_hdefWord (s : State) (d e stage col n w : Nat) (hw : 40 + 3 * stage + col < 64) :
    (s.report (u.hOwner e) stage col n).tabw (oHdef d w) = s.tabw (oHdef d w) :=
  State.report_above s (State.hOwner_lt u e) hw n _ (by unfold oHdef; omega)

theorem Ready.regs (hr : Ready d ws q s z) : z.regs = s.regs := by
  obtain ⟨⟨m, hm⟩, -, -, -⟩ := hr
  rw [hm]

theorem Ready.hengs (hr : Ready d ws q s z) : z.hengs = s.hengs := by
  obtain ⟨⟨m, hm⟩, -, -, -⟩ := hr
  rw [hm]

theorem Ready.hctxs (hr : Ready d ws q s z) : z.hctxs = s.hctxs := by
  obtain ⟨⟨m, hm⟩, -, -, -⟩ := hr
  rw [hm]

theorem Ready.stopq (hr : Ready d ws q s z) : (z.hdef d).stopq = (s.hdef d).stopq := by
  obtain ⟨-, ⟨l, c, c', hp, -⟩, -, -⟩ := hr
  rw [hp]

theorem Ready.inq (hr : Ready d ws q s z) : (z.hdef d).inq = (s.hdef d).inq := by
  obtain ⟨-, ⟨l, c, c', hp, -⟩, -, -⟩ := hr
  rw [hp]

theorem Ready.bins (hr : Ready d ws q s z) : (z.hdef d).bins = (s.hdef d).bins := by
  obtain ⟨-, ⟨l, c, c', hp, -⟩, -, -⟩ := hr
  rw [hp]

theorem Side.hdef (hside : Side s z) (d : Nat) : z.hdef d = s.hdef d := by
  obtain ⟨_, _, _, _, _, hz⟩ := hside
  rw [hz]
  rfl

theorem Side.heng (hside : Side s z) (n : Nat) : z.heng n = s.heng n := by
  obtain ⟨_, _, _, _, _, hz⟩ := hside
  rw [hz]
  rfl

/-- The end of an increment: what it counts in its definition, on its die's page and in its owner's report. -/
structure Ended (d : Nat) (w off bits : Nat) (s z : State) : Prop where
  stopq : (z.hdef d).stopq = (s.hdef d).stopq
  pend : (z.hdef d).pend = (s.hdef d).pend
  counts : ∀ k, z.tabw (oHdef d k) = (s.hticked d [w]).tabw (oHdef d k)
  total : z.reg64 (sHst (s.hHome d)) off = min (s.reg64 (sHst (s.hHome d)) off + 1) (2 ^ 64 - 1)
  event : bits ≠ 0 → bit (z.reg (ra (sHst (s.hHome d)) 0x008)) bits = true

/-- The state before an increment is counted. -/
structure Opening (d off : Nat) (s x : State) : Prop where
  tab : x.tab = s.tab
  stopq : (x.hdef d).stopq = (s.hdef d).stopq
  pend : (x.hdef d).pend = (s.hdef d).pend
  total : x.reg64 (sHst (s.hHome d)) off = s.reg64 (sHst (s.hHome d)) off

theorem State.histMissed_opening (s : State) (d i : Nat) {off : Nat} (hoff : off < 0x044) : Opening d off s (s.histMissed d i) :=
  ⟨(s.histMissed_side d i).tab, congrArg HDef.stopq ((s.histMissed_side d i).hdef d), congrArg HDef.pend ((s.histMissed_side d i).hdef d),
    s.histMissed_reg64 d i hoff⟩

theorem Opening.tabw {off : Nat} (ho : Opening d off s x) (o : Nat) : x.tabw o = s.tabw o := by
  unfold State.tabw
  rw [ho.tab]

theorem Opening.hHome {off : Nat} (ho : Opening d off s x) : x.hHome d = s.hHome d := by
  unfold State.hHome State.tfld
  rw [ho.tabw]

theorem Opening.hOwner {off : Nat} (ho : Opening d off s x) : x.hOwner d = s.hOwner d := by
  unfold State.hOwner State.tfld
  rw [ho.tabw]

/-- An increment counted in a status word and on the die's page. -/
def State.incrCounted (x : State) (d k slot off : Nat) (p : Int) : State := (x.histCount d k 1 p).bump64 slot off 1

theorem State.incrCounted_spec {k off : Nat} (hk : k < 7) (ho : Opening d off s x) (p : Int) :
    Ended d (9 + k) off 0 s (x.incrCounted d k (sHst (s.hHome d)) off p) ∧
    ((x.incrCounted d k (sHst (s.hHome d)) off p).hdef d).bins = (x.hdef d).bins ∧ (x.incrCounted d k (sHst (s.hHome d)) off p).hengs = x.hengs := by
  have hr := x.histCount_ready d hk p
  have hbump : Side (x.histCount d k 1 p) (x.incrCounted d k (sHst (s.hHome d)) off p) := State.bump64_side _ _ _ _
  have htotal : (x.incrCounted d k (sHst (s.hHome d)) off p).reg64 (sHst (s.hHome d)) off = min (s.reg64 (sHst (s.hHome d)) off + 1) (2 ^ 64 - 1) := by
    rw [State.incrCounted, State.reg64_bump64, reg64_congr hr.regs, ho.total]
  have htab := State.hticked_tab ho.tab d [9 + k]
  generalize x.incrCounted d k (sHst (s.hHome d)) off p = z at *
  refine ⟨⟨?_, ?_, fun j => ?_, htotal, fun hne => absurd rfl hne⟩, ?_, ?_⟩
  · rw [hbump.hdef, hr.stopq, ho.stopq]
  · rw [hbump.hdef, hr.pend, ho.pend]
  · rw [hbump.tabw, hr.tabw]
    unfold State.tabw
    rw [htab]
  · rw [hbump.hdef, hr.bins]
  · obtain ⟨_, _, _, _, _, hz⟩ := hbump
    rw [hz]
    exact hr.hengs

/-- The event of an increment that is lost. -/
theorem Ended.evt {off k : Nat} (he : Ended d w off 0 s z) (hoff : 0x00C ≤ off) (hk : k < 32) : Ended d w off k s (z.evt (sHst (s.hHome d)) k) := by
  have hevt := State.evt_side z (sHst (s.hHome d)) k
  have hcount : (z.evt (sHst (s.hHome d)) k).reg64 (sHst (s.hHome d)) off = _ := (State.evt_reg64_above _ _ _ hoff).trans he.total
  have hbit := State.evt_bit (s := z) (sHst (s.hHome d)) (b := k) hk
  generalize z.evt (sHst (s.hHome d)) k = y at *
  refine ⟨?_, ?_, fun j => ?_, hcount, fun _ => hbit⟩
  · rw [hevt.hdef, he.stopq]
  · rw [hevt.hdef, he.pend]
  · rw [hevt.tabw, he.counts]

/-- The count of an increment in its owner's report. -/
theorem Ended.report {off k n stage col m : Nat} (he : Ended d w off k s z) (hw : 40 + 3 * stage + col < 64) : Ended d w off k s (z.report (u.hOwner n) stage col m) := by
  refine ⟨he.stopq, he.pend, fun j => ?_, he.total, he.event⟩
  rw [State.report_hdefWord _ _ _ _ _ _ _ hw]
  exact he.counts j

/-- An increment dropped at a full miss queue. -/
theorem State.histIncr_dropped (hwait : (s.hctx (s.hOwner d)).waiting = []) (hcopy : (s.hctx (s.hOwner d)).copying = none)
    (hin : 2 * histLine d i ∉ (s.heng (s.hHome d)).lines) (hfull : 4096 ≤ (s.heng (s.hHome d)).misses.length) :
    let z := s.histIncr d i a b
    Ended d 10 0x030 2 s z ∧ (z.hdef d).bins = (s.hdef d).bins ∧ z.heng (s.hHome d) = s.heng (s.hHome d) := by
  have hside := s.histMissed_side d i
  have hopen := s.histMissed_opening d i (off := 0x030) (by decide)
  have heq : s.histIncr d i a b = (((s.histMissed d i).incrCounted d 1 (sHst (s.hHome d)) 0x030 (max a.phys b.phys)).evt (sHst (s.hHome d)) 2).report
      (s.hOwner d) 5 2 1 := by
    rw [State.histIncr_plain hwait hcopy, HEng.line_full hin hfull]
    unfold State.histDrop
    dsimp only
    rw [hside.hHome, hside.hOwner]
    rfl
  generalize s.histMissed d i = x at *
  obtain ⟨hend, hbins, hengs⟩ := State.incrCounted_spec (k := 1) (by decide) hopen (max a.phys b.phys)
  have hend' := (hend.evt (k := 2) (by decide) (by decide)).report (u := s) (n := d) (stage := 5) (col := 2) (m := 1) (by decide)
  have hevt := State.evt_side (x.incrCounted d 1 (sHst (s.hHome d)) 0x030 (max a.phys b.phys)) (sHst (s.hHome d)) 2
  dsimp only
  rw [heq]
  generalize x.incrCounted d 1 (sHst (s.hHome d)) 0x030 (max a.phys b.phys) = v at *
  refine ⟨hend', ?_, ?_⟩
  · exact ((congrArg HDef.bins (hevt.hdef d)).trans hbins).trans (congrArg HDef.bins (hside.hdef d))
  · refine (hevt.heng _).trans (Eq.trans ?_ (hside.heng _))
    unfold State.heng
    rw [hengs]

/-- An increment lost to a bin that is full. -/
theorem State.histIncr_full (hwait : (s.hctx (s.hOwner d)).waiting = []) (hcopy : (s.hctx (s.hOwner d)).copying = none)
    (hline : (s.heng (s.hHome d)).line (2 * histLine d i) = some e') (hmax : 2 ^ 32 - 1 ≤ Sparse.get 0 (s.hdef d).bins i) :
    let z := s.histIncr d i a b
    Ended d 11 0x040 4 s z ∧ (z.hdef d).bins = (s.hdef d).bins := by
  have hside := s.histMissed_side d i
  have hopen : Opening d 0x040 s ((s.histMissed d i).setHeng (s.hHome d) e') :=
    let h := s.histMissed_opening d i (off := 0x040) (by decide)
    ⟨h.tab, h.stopq, h.pend, h.total⟩
  have hbins : (((s.histMissed d i).setHeng (s.hHome d) e').hdef d).bins = (s.hdef d).bins := congrArg HDef.bins (hside.hdef d)
  have heq : s.histIncr d i a b =
      (((s.histMissed d i).setHeng (s.hHome d) e').incrCounted d 2 (sHst (s.hHome d)) 0x040 (max a.phys b.phys)).evt (sHst (s.hHome d)) 4 := by
    rw [State.histIncr_plain hwait hcopy, hline]
    dsimp only
    rw [hbins, if_pos hmax]
    unfold State.histSat
    dsimp only
    rw [hopen.hHome]
    rfl
  generalize (s.histMissed d i).setHeng (s.hHome d) e' = x at *
  obtain ⟨hend, hkeep, -⟩ := State.incrCounted_spec (k := 2) (by decide) hopen (max a.phys b.phys)
  have hevt := State.evt_side (x.incrCounted d 2 (sHst (s.hHome d)) 0x040 (max a.phys b.phys)) (sHst (s.hHome d)) 4
  dsimp only
  rw [heq]
  exact ⟨hend.evt (by decide) (by decide), ((congrArg HDef.bins (hevt.hdef d)).trans hkeep).trans hbins⟩

/-- A definition that has taken an increment, before it is counted. -/
theorem State.histAdded_opening {off : Nat} (htab : v.tab = s.tab) (hdef : v.hdef d = s.hdef d)
    (htotal : v.reg64 (sHst (s.hHome d)) off = s.reg64 (sHst (s.hHome d)) off) :
    (v.histAdded d i a b).bins = Sparse.set 0 (s.hdef d).bins i (Sparse.get 0 (s.hdef d).bins i + 1) ∧ Opening d off s (v.setHdef d (v.histAdded d i a b)) := by
  rw [← hdef]
  refine ⟨rfl, htab, ?_, ?_, htotal⟩
  · rw [State.setHdef_same, ← hdef]
    rfl
  · rw [State.setHdef_same, ← hdef]
    rfl

/-- An increment that its bin takes. -/
theorem State.histIncr_taken (hwait : (s.hctx (s.hOwner d)).waiting = []) (hcopy : (s.hctx (s.hOwner d)).copying = none)
    (hline : (s.heng (s.hHome d)).line (2 * histLine d i) = some e') (hroom : Sparse.get 0 (s.hdef d).bins i < 2 ^ 32 - 1) :
    let z := s.histIncr d i a b
    Ended d 9 0x028 0 s z ∧ (z.hdef d).bins = Sparse.set 0 (s.hdef d).bins i (Sparse.get 0 (s.hdef d).bins i + 1) ∧ z.heng (s.hHome d) = e' := by
  have hside := s.histMissed_side d i
  have hdef : ((s.histMissed d i).setHeng (s.hHome d) e').hdef d = s.hdef d := hside.hdef d
  obtain ⟨hbins, hopen⟩ := State.histAdded_opening (v := (s.histMissed d i).setHeng (s.hHome d) e') (i := i) (a := a) (b := b) (off := 0x028)
    (s.histMissed_opening d i (off := 0x028) (by decide)).tab hdef (s.histMissed_opening d i (off := 0x028) (by decide)).total
  have heq : s.histIncr d i a b = ((((s.histMissed d i).setHeng (s.hHome d) e').setHdef d
      (((s.histMissed d i).setHeng (s.hHome d) e').histAdded d i a b)).incrCounted d 0 (sHst (s.hHome d)) 0x028 (max a.phys b.phys)).report (s.hOwner d) 5 0 1 := by
    rw [State.histIncr_plain hwait hcopy, hline]
    dsimp only
    rw [hdef, if_neg (not_le.mpr hroom)]
    rfl
  generalize hv : (s.histMissed d i).setHeng (s.hHome d) e' = v at *
  obtain ⟨hend, hkeep, hengs⟩ := State.incrCounted_spec (k := 0) (by decide) hopen (max a.phys b.phys)
  have hend' := hend.report (u := s) (n := d) (stage := 5) (col := 0) (m := 1) (by decide)
  have hheng : v.heng (s.hHome d) = e' := by
    rw [← hv]
    exact State.setHeng_same _ _ _
  rw [State.setHdef_same, hbins] at hkeep
  dsimp only
  rw [heq]
  generalize (v.setHdef d (v.histAdded d i a b)).incrCounted d 0 (sHst (s.hHome d)) 0x028 (max a.phys b.phys) = y at *
  refine ⟨hend', hkeep, Eq.trans ?_ hheng⟩
  exact congrArg (fun m => Sparse.get ({} : HEng) m (s.hHome d)) hengs

end Sys2Proof.Machine
end

section
/-! Proofs about the stamp that is handled next (R229, R230), and the statement of stamps handled one by one. -/

namespace Sys2Proof.Machine

variable {s x y z u v : State} {d die i o w : Nat} {p : Int} {ws vs l : List Nat} {h : HDef} {q q' : Option Stamp} {a b : Stamp} {e e' : HEng} {r : List Stamp}

/-! ### The next stamp -/

/-- A definition's die once its crossing queue is found empty. -/
def State.crossed (s : State) (d : Nat) : State :=
  s.setHeng (s.hHome d) { s.heng (s.hHome d) with crossing := [], crossAt := s.now }

theorem State.crossDrain_empty (h : (s.heng (s.hHome d)).crossing = []) : s.crossDrain (s.hHome d) = s.crossed d := by
  unfold State.crossDrain
  dsimp only
  rw [h, List.take_nil, List.drop_nil]
  rfl

theorem State.histPast_crossed (h : (s.heng (s.hHome d)).crossing = []) (src : Nat) (p : Int) :
    (s.crossed d).histPast src (s.hHome d) p = s.histPast src (s.hHome d) p := by
  have hsame : ((s.crossed d).heng (s.hHome d)).crossing = (s.heng (s.hHome d)).crossing := (congrArg HEng.crossing (State.setHeng_same _ _ _)).trans h.symm
  unfold State.histPast
  rw [hsame]
  rfl

/-- Every stamp of either source up to an instant has reached the definition's engine. -/
def State.histCame (s : State) (d : Nat) (p : Int) : Prop := s.histPast (s.hStart d) (s.hHome d) p = true ∧ s.histPast (s.hStop d) (s.hHome d) p = true

/-- A definition that has taken its next stamp. -/
def State.handed (s : State) (d : Nat) (h : HDef) (p : Int) : State :=
  ((s.crossed d).setHdef d h).setHctx (s.hOwner d) { s.hctx (s.hOwner d) with firstP := (s.hctx (s.hOwner d)).firstP.or (some p) }

/-- The next stamp handled, or left where its time has not come. -/
def State.histTook (s : State) (d : Nat) (stop : Bool) (x : Stamp) (lim : Int) : State :=
  let h := s.hdef d
  let hc := s.hctx (s.hOwner d)
  let due := s.histPast (s.hStart d) (s.hHome d) lim && s.histPast (s.hStop d) (s.hHome d) lim
  if h.active && due && !hc.before h (s.hLag d) lim x then
    let s1 := s.setHdef d (if stop then { h with stopq := h.stopq.drop 1 } else { h with inq := h.inq.drop 1 })
    if hc.closing && hc.waiting.isEmpty then s1
    else
      let s2 := s1.setHctx (s.hOwner d) { hc with firstP := hc.firstP.or (some x.phys) }
      let s3 := (s2.histEpoch d x.phys).histExpire d x.phys
      if stop then s3.histStop d x else s3.histStart d x
  else s

theorem State.histStamp_eq (h : (s.heng (s.hHome d)).crossing = []) : s.histStamp d =
    match (s.crossed d).histNext d with
    | some (stop, x, lim) => (s.crossed d).histTook d stop x lim
    | none => s.crossed d := by
  unfold State.histStamp
  dsimp only
  rw [State.crossDrain_empty h]
  rfl

theorem State.histNext_none (h : (s.hdef d).inq = []) (h' : (s.hdef d).stopq = []) : s.histNext d = none := by
  unfold State.histNext
  dsimp only
  rw [h, h']

theorem State.histNext_start (h : (s.hdef d).inq = a :: r) (h' : (s.hdef d).stopq = []) : s.histNext d = some (false, a, a.phys) := by
  unfold State.histNext
  dsimp only
  rw [h, h']

theorem State.histNext_stop (h : (s.hdef d).inq = []) (h' : (s.hdef d).stopq = a :: r) (hmode : s.hMode d ≤ 1) : s.histNext d = some (true, a, a.phys) := by
  have hlag : s.hLag d = 0 := if_neg (by omega)
  unfold State.histNext
  dsimp only
  rw [h, h', hlag]
  exact congrArg (fun p => some (true, a, p)) (add_zero a.phys)

theorem State.histTook_waits (h : ¬ s.histCame d p) (stop : Bool) (a : Stamp) : s.histTook d stop a p = s := by
  refine if_neg fun hc => h ?_
  rw [Bool.and_eq_true, Bool.and_eq_true, Bool.and_eq_true] at hc
  exact hc.1.2

/-- The next stamp is handled. -/
theorem State.histTook_due (hact : (s.hdef d).active = true) (hcame : s.histCame d p) (hwait : (s.hctx (s.hOwner d)).waiting = [])
    (hopen : (s.hctx (s.hOwner d)).closing = false) (stop : Bool) (a : Stamp) : s.histTook d stop a p =
      let s2 := (s.setHdef d (if stop then { s.hdef d with stopq := (s.hdef d).stopq.drop 1 } else { s.hdef d with inq := (s.hdef d).inq.drop 1 })).setHctx
        (s.hOwner d) { s.hctx (s.hOwner d) with firstP := (s.hctx (s.hOwner d)).firstP.or (some a.phys) }
      if stop then (s2.histDue d a.phys).histStop d a else (s2.histDue d a.phys).histStart d a := by
  obtain ⟨hstart, hstop⟩ := hcame
  have hbefore : (s.hctx (s.hOwner d)).before (s.hdef d) (s.hLag d) p a = false := by
    unfold HCtx.before
    rw [hwait]
  refine (if_pos ?_).trans (if_neg ?_)
  · rw [hact, hstart, hstop, hbefore]
    rfl
  · rw [hopen, Bool.false_and]
    exact Bool.false_ne_true

section
variable (hcross : (s.heng (s.hHome d)).crossing = [])
include hcross

theorem State.histCame_crossed : (s.crossed d).histCame d p ↔ s.histCame d p := by
  have hpast := State.histPast_crossed hcross
  unfold State.histCame
  rw [← hpast (s.hStart d), ← hpast (s.hStop d)]
  rfl

theorem State.histStamp_idle (hin : (s.hdef d).inq = []) (hstopq : (s.hdef d).stopq = []) : s.histStamp d = s.crossed d := by
  rw [State.histStamp_eq hcross, State.histNext_none (s := s.crossed d) hin hstopq]

theorem State.histStamp_waits (hin : (s.hdef d).inq = a :: r) (hstopq : (s.hdef d).stopq = []) (hno : ¬ s.histCame d a.phys) : s.histStamp d = s.crossed d := by
  rw [State.histStamp_eq hcross, State.histNext_start (s := s.crossed d) hin hstopq]
  exact State.histTook_waits (fun hc => hno ((State.histCame_crossed hcross).mp hc)) _ _

theorem State.histStamp_start (hin : (s.hdef d).inq = a :: r) (hstopq : (s.hdef d).stopq = []) (hact : (s.hdef d).active = true) (hcame : s.histCame d a.phys)
    (hwait : (s.hctx (s.hOwner d)).waiting = []) (hopen : (s.hctx (s.hOwner d)).closing = false) :
    s.histStamp d = ((s.handed d { s.hdef d with inq := r } a.phys).histDue d a.phys).histStart d a := by
  rw [State.histStamp_eq hcross, State.histNext_start (s := s.crossed d) hin hstopq]
  refine (State.histTook_due (s := s.crossed d) hact ((State.histCame_crossed hcross).mpr hcame) hwait hopen false a).trans ?_
  have hdrop : ((s.crossed d).hdef d).inq.drop 1 = r := by
    rw [show ((s.crossed d).hdef d).inq = a :: r from hin]
    rfl
  rw [hdrop]
  rfl

theorem State.histStamp_stop (hin : (s.hdef d).inq = []) (hstopq : (s.hdef d).stopq = a :: r) (hmode : s.hMode d ≤ 1) (hact : (s.hdef d).active = true)
    (hcame : s.histCame d a.phys) (hwait : (s.hctx (s.hOwner d)).waiting = []) (hopen : (s.hctx (s.hOwner d)).closing = false) :
    s.histStamp d = ((s.handed d { s.hdef d with stopq := r } a.phys).histDue d a.phys).histStop d a := by
  rw [State.histStamp_eq hcross, State.histNext_stop (s := s.crossed d) hin hstopq hmode]
  refine (State.histTook_due (s := s.crossed d) hact ((State.histCame_crossed hcross).mpr hcame) hwait hopen true a).trans ?_
  have hdrop : ((s.crossed d).hdef d).stopq.drop 1 = r := by
    rw [show ((s.crossed d).hdef d).stopq = a :: r from hstopq]
    rfl
  rw [hdrop]
  rfl

end

/-- A definition with its next stamp taken, before it is paired. -/
structure Fresh (d : Nat) (h : HDef) (s v : State) : Prop where
  hdef : v.hdef d = h
  tab : v.tab = s.tab
  regs : v.regs = s.regs
  solEdge : v.solEdge = s.solEdge

theorem State.setHdef_fresh (s : State) (d : Nat) (h : HDef) (n c : Nat) (e : HEng) (k : HCtx) : Fresh d h s (((s.setHeng n e).setHdef d h).setHctx c k) :=
  ⟨by rw [State.setHctx_hdef, State.setHdef_same], by rw [State.setHctx_tab, State.setHdef_tab, State.setHeng_tab],
    by rw [State.setHctx_regs, State.setHdef_regs, State.setHeng_regs], by rw [State.setHctx_solEdge, State.setHdef_solEdge, State.setHeng_solEdge]⟩

theorem State.handed_fresh (s : State) (d : Nat) (h : HDef) (p : Int) : Fresh d h s (s.handed d h p) := s.setHdef_fresh d h _ _ _ _

theorem Fresh.tabw (hf : Fresh d h s v) (o : Nat) : v.tabw o = s.tabw o := by
  unfold State.tabw
  rw [hf.tab]

theorem Fresh.hMode (hf : Fresh d h s v) : v.hMode d = s.hMode d := State.hMode_congr (hf.tabw _)
theorem Fresh.hSpan (hf : Fresh d h s v) : v.hSpan d = s.hSpan d := State.hSpan_congr (hf.tabw _) (hf.tabw _)
theorem Fresh.hWmin (hf : Fresh d h s v) : v.hWmin d = s.hWmin d := State.hWmin_congr (hf.tabw _) (hf.tabw _)

theorem Fresh.epochEdge (hf : Fresh d h s v) : v.epochEdge = s.epochEdge := by
  unfold State.epochEdge
  rw [hf.solEdge]

theorem Fresh.histBin (hf : Fresh d h s v) (a b : Stamp) : v.histBin d a b = s.histBin d a b := by
  have hk : v.hK d = s.hK d := congrArg (fun v => fld v 0 6) (hf.tabw (oHdef d 1))
  unfold State.histBin
  rw [hf.hWmin, hf.hSpan, hk]

/-! ### The obligation -/

/-- What the status words of a definition count. -/
structure Noted (d : Nat) (ws : List Nat) (s z : State) : Prop where
  counts : ∀ k, z.tabw (oHdef d k) = (s.hticked d ws).tabw (oHdef d k)

theorem Noted.once (hn : Noted d ws s z) (hw : w ∈ ws) (hnd : ws.Nodup) : (z.tabw (oHdef d w)).toNat = min ((s.tabw (oHdef d w)).toNat + 1) (2 ^ 32 - 1) := by
  rw [hn.counts]
  exact State.hticked_once hw hnd

theorem Noted.same (hn : Noted d ws s z) (hl : ∀ w ∈ l, w ∉ ws) : ∀ w ∈ l, z.tabw (oHdef d w) = s.tabw (oHdef d w) := by
  intro w hw
  rw [hn.counts]
  exact State.hticked_same (hl w hw)

/-- The handling of a stamp as its definition shows it. -/
structure Took (d : Nat) (h : HDef) (ws : List Nat) (q : Option Stamp) (s z : State) : Prop where
  inq : (z.hdef d).inq = h.inq
  stopq : (z.hdef d).stopq = h.stopq
  pend : (z.hdef d).pend = q
  bins : (z.hdef d).bins = h.bins
  regs : z.regs = s.regs
  tab : z.tab = (s.hticked d ws).tab

theorem Ready.took (hr : Ready d ws q v z) (hf : Fresh d h s v) : Took d h ws q s z := by
  have hdef := hf.hdef
  refine ⟨?_, ?_, hr.pend, ?_, hr.regs.trans hf.regs, hr.tab.trans (State.hticked_tab hf.tab d ws)⟩
  · rw [hr.inq, hdef]
  · rw [hr.stopq, hdef]
  · rw [hr.bins, hdef]

theorem Took.noted (ht : Took d h ws q s z) : Noted d ws s z := by
  refine ⟨fun k => ?_⟩
  unfold State.tabw
  rw [ht.tab]

theorem answers_histStamp {t : Nat} {d : Fin 65536} {P : State → Prop} (hpow : s.Powered) (hkeep : s.keeper (oHdef d 0) 6 = none)
    (h : ∀ l, P (((s.advance t).histStamp d).wrapped s (max s.now t) l)) : Answers (.histStamp t d) s P := by
  refine answers_of_wrapped hpow (exec_histStamp t d s) fun l => ?_
  have hplain : (s.advance t).asKept (oHdef d 0) 6 (fun s => s.histStamp d) = (s.advance t).histStamp d := by
    unfold State.asKept
    rw [show (s.advance t).keeper (oHdef d 0) 6 = none from hkeep]
  rw [hplain]
  exact h l

section
variable (hf : Fresh d h s v) (hmode : s.hMode d ≤ 1)
include hf hmode

theorem Fresh.start_none (hpend : h.pend = none) (a : Stamp) : Took d h [] (some a) s ((v.histDue d a.phys).histStart d a) := by
  have hr := State.histDue_none ((congrArg HDef.pend hf.hdef).trans hpend) a.phys
  exact (hr.trans (State.histStart_none ((hr.hMode.trans hf.hMode).trans_le hmode) hr.pend a)).took hf

theorem Fresh.start_late (hpend : h.pend = some b) (a : Stamp) (hnew : a.phys < s.epochEdge ∨ s.epochEdge ≤ b.phys)
    (hlate : b.phys + s.hWmin d + s.hSpan d < a.phys) : Took d h [14] (some a) s ((v.histDue d a.phys).histStart d a) := by
  rw [← hf.epochEdge] at hnew
  rw [← hf.hWmin, ← hf.hSpan] at hlate
  have hr := State.histDue_late ((congrArg HDef.pend hf.hdef).trans hpend) hnew hlate
  exact (hr.trans (State.histStart_none ((hr.hMode.trans hf.hMode).trans_le hmode) hr.pend a)).took hf

theorem Fresh.start_kept (hpend : h.pend = some b) (a : Stamp) (hnew : a.phys < s.epochEdge ∨ s.epochEdge ≤ b.phys)
    (hwin : a.phys ≤ b.phys + s.hWmin d + s.hSpan d) :
    Took d h [15] (some (if s.hMode d = 0 then a else b)) s ((v.histDue d a.phys).histStart d a) := by
  rw [← hf.epochEdge] at hnew
  rw [← hf.hWmin, ← hf.hSpan] at hwin
  have hr := State.histDue_kept ((congrArg HDef.pend hf.hdef).trans hpend) hnew hwin
  have hstart := State.histStart_some ((hr.hMode.trans hf.hMode).trans_le hmode) hr.pend a
  rw [hr.hMode, hf.hMode] at hstart
  exact (hr.trans hstart).took hf

theorem Fresh.start_old (hpend : h.pend = some b) (a : Stamp) (hstop : h.stopq = []) (hdue : s.epochEdge ≤ a.phys) (hold : b.phys < s.epochEdge) :
    Took d h (if b.phys + s.hWmin d + s.hSpan d < s.epochEdge then [14] else []) (some a) s ((v.histDue d a.phys).histStart d a) := by
  rw [← hf.hWmin, ← hf.hSpan]
  rw [← hf.epochEdge] at hdue hold ⊢
  have hr := State.histDue_old ((congrArg HDef.pend hf.hdef).trans hpend) ((congrArg HDef.stopq hf.hdef).trans hstop) hdue hold
  have ht := (hr.trans (State.histStart_none ((hr.hMode.trans hf.hMode).trans_le hmode) hr.pend a)).took hf
  rw [List.append_nil] at ht
  exact ht

theorem Fresh.start_old_late (hpend : h.pend = some b) (a : Stamp) (hstop : h.stopq = []) (hdue : s.epochEdge ≤ a.phys) (hold : b.phys < s.epochEdge)
    (hend : b.phys + s.hWmin d + s.hSpan d < s.epochEdge) : Took d h [14] (some a) s ((v.histDue d a.phys).histStart d a) := by
  have ht := hf.start_old hmode hpend a hstop hdue hold
  rw [if_pos hend] at ht
  exact ht

theorem Fresh.start_old_emptied (hpend : h.pend = some b) (a : Stamp) (hstop : h.stopq = []) (hdue : s.epochEdge ≤ a.phys) (hold : b.phys < s.epochEdge)
    (hend : s.epochEdge ≤ b.phys + s.hWmin d + s.hSpan d) : Took d h [] (some a) s ((v.histDue d a.phys).histStart d a) := by
  have ht := hf.start_old hmode hpend a hstop hdue hold
  rw [if_neg (not_lt.mpr hend)] at ht
  exact ht

theorem Fresh.stop_none (hpend : h.pend = none) (a : Stamp) : Took d h [13] none s ((v.histDue d a.phys).histStop d a) := by
  have hr := State.histDue_none ((congrArg HDef.pend hf.hdef).trans hpend) a.phys
  exact (hr.trans (State.histStop_none ((hr.hMode.trans hf.hMode).trans_le hmode) hr.pend a)).took hf

theorem Fresh.stop_late (hpend : h.pend = some b) (a : Stamp) (hnew : a.phys < s.epochEdge ∨ s.epochEdge ≤ b.phys)
    (hlate : b.phys + s.hWmin d + s.hSpan d < a.phys) : Took d h [14, 13] none s ((v.histDue d a.phys).histStop d a) := by
  rw [← hf.epochEdge] at hnew
  rw [← hf.hWmin, ← hf.hSpan] at hlate
  have hr := State.histDue_late ((congrArg HDef.pend hf.hdef).trans hpend) hnew hlate
  exact (hr.trans (State.histStop_none ((hr.hMode.trans hf.hMode).trans_le hmode) hr.pend a)).took hf

omit hmode in
/-- A start that a stop finds in its window. -/
theorem Fresh.due_kept (hpend : h.pend = some b) (a : Stamp) (hnew : a.phys < s.epochEdge ∨ s.epochEdge ≤ b.phys)
    (hwin : a.phys ≤ b.phys + s.hWmin d + s.hSpan d) : Ready d [] (some b) v (v.histDue d a.phys) := by
  rw [← hf.epochEdge] at hnew
  rw [← hf.hWmin, ← hf.hSpan] at hwin
  exact State.histDue_kept ((congrArg HDef.pend hf.hdef).trans hpend) hnew hwin

theorem Fresh.stop_out (hpend : h.pend = some b) (a : Stamp) (hnew : a.phys < s.epochEdge ∨ s.epochEdge ≤ b.phys)
    (hwin : a.phys ≤ b.phys + s.hWmin d + s.hSpan d) (hbin : s.histBin d b a = none) : Took d h [12] none s ((v.histDue d a.phys).histStop d a) := by
  have hr := hf.due_kept hpend a hnew hwin
  have hb := (hr.histBin b a).trans ((hf.histBin b a).trans hbin)
  exact (hr.trans (State.histStop_out ((hr.hMode.trans hf.hMode).trans_le hmode) hr.pend hb)).took hf

end

/-- The first start of a MULTI definition's history. -/
theorem Fresh.start_multi (hf : Fresh d h s v) (hmode : s.hMode d = 2) (hpend : h.pend = none) (hhist : h.hist = []) (a : Stamp) :
    let z := (v.histDue d a.phys).histStart d a
    (z.hdef d).inq = h.inq ∧ (z.hdef d).hist = [a] ∧ z.tab = s.tab := by
  have hr := State.histDue_none ((congrArg HDef.pend hf.hdef).trans hpend) a.phys
  have hlist : ((v.histDue d a.phys).hdef d).hist = [] := by
    obtain ⟨l, c, c', hp, hl⟩ := hr.paired
    exact (congrArg HDef.hist hp).trans (hl ((congrArg HDef.hist hf.hdef).trans hhist))
  have hinq := hr.inq.trans (congrArg HDef.inq hf.hdef)
  have htab : (v.histDue d a.phys).tab = s.tab := hr.tab.trans hf.tab
  have heq := State.histStart_multi ((hr.hMode.trans hf.hMode).trans hmode) hlist a
  dsimp only
  rw [heq]
  generalize v.histDue d a.phys = y at *
  rw [State.setHdef_same]
  exact ⟨hinq, rfl, htab⟩

/-! ### A stop in the window -/

/-- The state in which a stop's increment is made. -/
structure Primed (d : Nat) (h : HDef) (s y : State) : Prop where
  stopq : (y.hdef d).stopq = h.stopq
  pend : (y.hdef d).pend = none
  bins : (y.hdef d).bins = h.bins
  tab : y.tab = s.tab
  regs : y.regs = s.regs
  lines : (y.heng (s.hHome d)).lines = (s.heng (s.hHome d)).lines
  misses : (y.heng (s.hHome d)).misses = (s.heng (s.hHome d)).misses
  waiting : (y.hctx (s.hOwner d)).waiting = (s.hctx (s.hOwner d)).waiting
  copying : (y.hctx (s.hOwner d)).copying = (s.hctx (s.hOwner d)).copying

theorem State.handed_heng (s : State) (d : Nat) (h : HDef) (p : Int) :
    (s.handed d h p).heng (s.hHome d) = { s.heng (s.hHome d) with crossing := [], crossAt := s.now } := by
  rw [State.handed, State.setHctx_heng, State.setHdef_heng, State.crossed, State.setHeng_same]

theorem State.handed_hctx (s : State) (d : Nat) (h : HDef) (p : Int) :
    (s.handed d h p).hctx (s.hOwner d) = { s.hctx (s.hOwner d) with firstP := (s.hctx (s.hOwner d)).firstP.or (some p) } := by
  rw [State.handed, State.setHctx_same]

theorem State.primed (s : State) (d : Nat) (h : HDef) (p : Int) (hr : Ready d [] q (s.handed d h p) v) :
    Primed d h s (v.setHdef d { v.hdef d with pend := none }) := by
  have hf := s.handed_fresh d h p
  have hset : Ready d [] none v (v.setHdef d { v.hdef d with pend := none }) := State.setHdef_ready ⟨_, _, _, rfl, id⟩
  have hboth := hr.trans hset
  have hheng := s.handed_heng d h p
  have hhctx := s.handed_hctx d h p
  have htook := hboth.took hf
  generalize v.setHdef d { v.hdef d with pend := none } = y at *
  have hy : y.heng (s.hHome d) = (s.handed d h p).heng (s.hHome d) := congrArg (fun m => Sparse.get ({} : HEng) m (s.hHome d)) hboth.hengs
  have hy' : y.hctx (s.hOwner d) = (s.handed d h p).hctx (s.hOwner d) := congrArg (fun m => Sparse.get ({} : HCtx) m (s.hOwner d)) hboth.hctxs
  refine ⟨htook.stopq, htook.pend, htook.bins, htook.tab, htook.regs, ?_, ?_, ?_, ?_⟩
  · rw [hy, hheng]
  · rw [hy, hheng]
  · rw [hy', hhctx]
  · rw [hy', hhctx]

section
variable (hp : Primed d h s y) (hwait : (s.hctx (s.hOwner d)).waiting = []) (hcopy : (s.hctx (s.hOwner d)).copying = none)
include hp

theorem Primed.tabw (o : Nat) : y.tabw o = s.tabw o := by
  unfold State.tabw
  rw [hp.tab]

theorem Primed.hHome : y.hHome d = s.hHome d := by
  unfold State.hHome State.tfld
  rw [hp.tabw]

theorem Primed.hOwner : y.hOwner d = s.hOwner d := by
  unfold State.hOwner State.tfld
  rw [hp.tabw]

/-- What the end of an increment shows in its definition and on its die's page. -/
theorem Primed.shows {off bits : Nat} (he : Ended d w off bits y z) : (z.hdef d).stopq = h.stopq ∧ (z.hdef d).pend = none ∧ Noted d [w] s z ∧
    z.reg64 (sHst (s.hHome d)) off = min (s.reg64 (sHst (s.hHome d)) off + 1) (2 ^ 64 - 1) ∧
    (bits ≠ 0 → bit (z.reg (ra (sHst (s.hHome d)) 0x008)) bits = true) := by
  obtain ⟨hstopq, hpend, hcounts, htotal, hevent⟩ := he
  rw [hp.hHome] at htotal hevent
  rw [State.reg64_congr hp.regs] at htotal
  refine ⟨hstopq.trans hp.stopq, hpend.trans hp.pend, ⟨fun k => (hcounts k).trans ?_⟩, htotal, hevent⟩
  unfold State.tabw
  rw [State.hticked_tab hp.tab]

include hwait hcopy

theorem Primed.dropped (hin : 2 * histLine d i ∉ (s.heng (s.hHome d)).lines) (hfull : 4096 ≤ (s.heng (s.hHome d)).misses.length) :
    let z := y.histIncr d i a b
    Ended d 10 0x030 2 y z ∧ (z.hdef d).bins = h.bins ∧ (z.heng (s.hHome d)).misses = (s.heng (s.hHome d)).misses := by
  have hd := State.histIncr_dropped (s := y) (d := d) (i := i) (a := a) (b := b) (by rw [hp.hOwner, hp.waiting, hwait]) (by rw [hp.hOwner, hp.copying, hcopy])
    (by rw [hp.hHome, hp.lines]; exact hin) (by rw [hp.hHome, hp.misses]; exact hfull)
  dsimp only at hd ⊢
  obtain ⟨hend, hbins, hheng⟩ := hd
  rw [hp.hHome] at hheng
  refine ⟨hend, hbins.trans hp.bins, ?_⟩
  rw [hheng, hp.misses]

theorem Primed.full (hroom : 2 * histLine d i ∈ (s.heng (s.hHome d)).lines ∨ (s.heng (s.hHome d)).misses.length < 4096)
    (hmax : 2 ^ 32 - 1 ≤ Sparse.get 0 h.bins i) :
    let z := y.histIncr d i a b
    Ended d 11 0x040 4 y z ∧ (z.hdef d).bins = h.bins := by
  obtain ⟨e', hline, -⟩ := HEng.line_room (e := y.heng (s.hHome d)) (k := histLine d i) (by rw [hp.lines, hp.misses]; exact hroom)
  have hd := State.histIncr_full (s := y) (d := d) (i := i) (a := a) (b := b) (e' := e') (by rw [hp.hOwner, hp.waiting, hwait])
    (by rw [hp.hOwner, hp.copying, hcopy]) (by rw [hp.hHome]; exact hline) (by rw [hp.bins]; exact hmax)
  exact ⟨hd.1, hd.2.trans hp.bins⟩

theorem Primed.taken (hroom : 2 * histLine d i ∈ (s.heng (s.hHome d)).lines ∨ (s.heng (s.hHome d)).misses.length < 4096)
    (hmax : Sparse.get 0 h.bins i < 2 ^ 32 - 1) :
    let z := y.histIncr d i a b
    Ended d 9 0x028 0 y z ∧ (z.hdef d).bins = Sparse.set 0 h.bins i (Sparse.get 0 h.bins i + 1) ∧
    (z.heng (s.hHome d)).misses = (if 2 * histLine d i ∈ (s.heng (s.hHome d)).lines then (s.heng (s.hHome d)).misses
      else (s.heng (s.hHome d)).misses ++ [2 * histLine d i]) ∧
    ((s.heng (s.hHome d)).lines.length < cacheLines → 2 * histLine d i ∈ (z.heng (s.hHome d)).lines) := by
  obtain ⟨e', hline, hmiss, hlines⟩ := HEng.line_room (e := y.heng (s.hHome d)) (k := histLine d i) (by rw [hp.lines, hp.misses]; exact hroom)
  have hd := State.histIncr_taken (s := y) (d := d) (i := i) (a := a) (b := b) (e' := e') (by rw [hp.hOwner, hp.waiting, hwait])
    (by rw [hp.hOwner, hp.copying, hcopy]) (by rw [hp.hHome]; exact hline) (by rw [hp.bins]; exact hmax)
  dsimp only at hd ⊢
  obtain ⟨hend, hbins, hheng⟩ := hd
  rw [hp.hHome] at hheng
  rw [hp.lines, hp.misses] at hmiss
  rw [hp.lines] at hlines
  rw [hheng]
  refine ⟨hend, hbins.trans ?_, hmiss, hlines⟩
  rw [hp.bins]

end

/-- Stamps handled one by one (R229 to R233, R240). -/
theorem histogramStamps_handled (s : State) (t : Nat) (d : Fin 65536) (hpow : s.Powered) (hkeep : s.keeper (oHdef d 0) 6 = none)
    (hcross : (s.heng (s.hHome d)).crossing = []) :
    let u := s.advance t
    let h := s.hdef d
    let hc := s.hctx (s.hOwner d)
    let die := s.hHome d
    let e := s.heng die
    let a : Int := 2000 * (s.solEdge : Int)
    let past (p : Int) : Prop := u.histPast (s.hStart d) die p = true ∧ u.histPast (s.hStop d) die p = true
    let count (s' : State) (w n : Nat) : Prop := (s'.tabw (oHdef d w)).toNat = min ((s.tabw (oHdef d w)).toNat + n) (2 ^ 32 - 1)
    let same (s' : State) (l : List Nat) : Prop := ∀ w ∈ l, s'.tabw (oHdef d w) = s.tabw (oHdef d w)
    (h.inq = [] → h.stopq = [] → Answers (.histStamp t d) s fun s' => s'.hdef d = h ∧ s'.regs = s.regs ∧ s'.tab = s.tab) ∧
    (∀ x r, h.inq = x :: r → h.stopq = [] → ¬past x.phys → Answers (.histStamp t d) s fun s' =>
      s'.hdef d = h ∧ s'.regs = s.regs ∧ s'.tab = s.tab) ∧
    (∀ x r, h.inq = x :: r → h.stopq = [] → h.active = true → past x.phys → hc.waiting = [] → hc.closing = false → s.hMode d ≤ 1 →
      let took (s' : State) (p : Stamp) : Prop := (s'.hdef d).inq = r ∧ (s'.hdef d).pend = some p ∧ (s'.hdef d).bins = h.bins ∧
        s'.regs = s.regs
      (h.pend = none → Answers (.histStamp t d) s fun s' => took s' x ∧ s'.tab = s.tab) ∧
      (∀ y, h.pend = some y → (x.phys < a ∨ a ≤ y.phys) →
        (y.phys + s.hWmin d + s.hSpan d < x.phys → Answers (.histStamp t d) s fun s' =>
          took s' x ∧ count s' 14 1 ∧ same s' [9, 10, 11, 12, 13, 15]) ∧
        (x.phys ≤ y.phys + s.hWmin d + s.hSpan d → Answers (.histStamp t d) s fun s' =>
          took s' (if s.hMode d = 0 then x else y) ∧ count s' 15 1 ∧ same s' [9, 10, 11, 12, 13, 14])) ∧
      (∀ y, h.pend = some y → a ≤ x.phys → y.phys < a → Answers (.histStamp t d) s fun s' => took s' x ∧
        (y.phys + s.hWmin d + s.hSpan d < a → count s' 14 1 ∧ same s' [9, 10, 11, 12, 13, 15]) ∧
        (a ≤ y.phys + s.hWmin d + s.hSpan d → s'.tab = s.tab))) ∧
    (∀ x r, h.inq = x :: r → h.stopq = [] → h.active = true → past x.phys → hc.waiting = [] → hc.closing = false → s.hMode d = 2 →
      h.pend = none → h.hist = [] → Answers (.histStamp t d) s fun s' =>
        (s'.hdef d).inq = r ∧ (s'.hdef d).hist = [x] ∧ s'.tab = s.tab) ∧
    (∀ x r, h.inq = [] → h.stopq = x :: r → h.active = true → past x.phys → hc.waiting = [] → hc.copying = none → hc.closing = false →
      s.hMode d ≤ 1 →
      let took (s' : State) : Prop := (s'.hdef d).stopq = r ∧ (s'.hdef d).pend = none
      (h.pend = none → Answers (.histStamp t d) s fun s' =>
        took s' ∧ (s'.hdef d).bins = h.bins ∧ count s' 13 1 ∧ same s' [9, 10, 11, 12, 14, 15] ∧ s'.regs = s.regs) ∧
      (∀ y, h.pend = some y → (x.phys < a ∨ a ≤ y.phys) → y.phys + s.hWmin d + s.hSpan d < x.phys → Answers (.histStamp t d) s fun s' =>
        took s' ∧ (s'.hdef d).bins = h.bins ∧ count s' 13 1 ∧ count s' 14 1 ∧ same s' [9, 10, 11, 12, 15] ∧ s'.regs = s.regs) ∧
      (∀ y, h.pend = some y → (x.phys < a ∨ a ≤ y.phys) → x.phys ≤ y.phys + s.hWmin d + s.hSpan d →
        (s.histBin d y x = none → Answers (.histStamp t d) s fun s' =>
          took s' ∧ (s'.hdef d).bins = h.bins ∧ count s' 12 1 ∧ same s' [9, 10, 11, 13, 14, 15] ∧ s'.regs = s.regs) ∧
        (∀ i, s.histBin d y x = some i →
          let line := 2 * histLine d i
          let n := Sparse.get 0 h.bins i
          (line ∉ e.lines → 4096 ≤ e.misses.length → Answers (.histStamp t d) s fun s' =>
            took s' ∧ (s'.hdef d).bins = h.bins ∧ count s' 10 1 ∧ same s' [9, 11, 12, 13, 14, 15] ∧ (s'.heng die).misses = e.misses ∧
            s'.reg64 (sHst die) 0x030 = min (s.reg64 (sHst die) 0x030 + 1) (2 ^ 64 - 1) ∧
            bit (s'.reg (ra (sHst die) 0x008)) 2 = true) ∧
          (line ∈ e.lines ∨ e.misses.length < 4096 →
            (n < 2 ^ 32 - 1 → Answers (.histStamp t d) s fun s' =>
              took s' ∧ Sparse.get 0 (s'.hdef d).bins i = n + 1 ∧
              (∀ k, k ≠ i → Sparse.get 0 (s'.hdef d).bins k = Sparse.get 0 h.bins k) ∧ count s' 9 1 ∧ same s' [10, 11, 12, 13, 14, 15] ∧
              (s'.heng die).misses = (if line ∈ e.lines then e.misses else e.misses ++ [line]) ∧
              (e.lines.length < cacheLines → line ∈ (s'.heng die).lines) ∧
              s'.reg64 (sHst die) 0x028 = min (s.reg64 (sHst die) 0x028 + 1) (2 ^ 64 - 1)) ∧
            (2 ^ 32 - 1 ≤ n → Answers (.histStamp t d) s fun s' =>
              took s' ∧ (s'.hdef d).bins = h.bins ∧ count s' 11 1 ∧ same s' [9, 10, 12, 13, 14, 15] ∧
              s'.reg64 (sHst die) 0x040 = min (s.reg64 (sHst die) 0x040 + 1) (2 ^ 64 - 1) ∧
              bit (s'.reg (ra (sHst die) 0x008)) 4 = true))))) := by
  intro u h hc die e a past count same
  refine ⟨fun hin hstopq => ?_, fun x r hin hstopq hno => ?_, fun x r hin hstopq hact hcame hwait hopen hmode => ?_,
    fun x r hin hstopq hact hcame hwait hopen hmode hpend hhist => ?_, fun x r hin hstopq hact hcame hwait hcopy hopen hmode => ?_⟩
  · refine answers_histStamp hpow hkeep fun l => ?_
    rw [State.histStamp_idle (s := s.advance t) hcross hin hstopq]
    exact ⟨rfl, rfl, rfl⟩
  · refine answers_histStamp hpow hkeep fun l => ?_
    rw [State.histStamp_waits (s := s.advance t) hcross hin hstopq hno]
    exact ⟨rfl, rfl, rfl⟩
  · intro took
    have heq := State.histStamp_start (s := u) hcross hin hstopq hact hcame hwait hopen
    have hf := u.handed_fresh d { h with inq := r } x.phys
    refine ⟨fun hpend => ?_, fun y hpend hnew => ⟨fun hlate => ?_, fun hwin => ?_⟩, fun y hpend hdue hold => ?_⟩
    · have ht := hf.start_none hmode hpend x
      refine answers_histStamp hpow hkeep fun l => ?_
      rw [heq]
      exact ⟨⟨ht.inq, ht.pend, ht.bins, ht.regs⟩, ht.tab⟩
    · have ht := hf.start_late hmode hpend x hnew hlate
      refine answers_histStamp hpow hkeep fun l => ?_
      rw [heq]
      exact ⟨⟨ht.inq, ht.pend, ht.bins, ht.regs⟩, ht.noted.once (by decide) (by decide), ht.noted.same (by decide)⟩
    · have ht := hf.start_kept hmode hpend x hnew hwin
      refine answers_histStamp hpow hkeep fun l => ?_
      rw [heq]
      refine ⟨⟨ht.inq, ht.pend.trans ?_, ht.bins, ht.regs⟩, ht.noted.once (by decide) (by decide), ht.noted.same (by decide)⟩
      by_cases h0 : s.hMode d = 0
      · rw [if_pos h0]
        exact congrArg some (if_pos h0)
      · rw [if_neg h0]
        exact congrArg some (if_neg h0)
    · rcases lt_or_ge (y.phys + s.hWmin d + s.hSpan d) a with hend | hend
      · have ht := hf.start_old_late hmode hpend x hstopq hdue hold hend
        refine answers_histStamp hpow hkeep fun l => ?_
        rw [heq]
        exact ⟨⟨ht.inq, ht.pend, ht.bins, ht.regs⟩, fun _ => ⟨ht.noted.once (by decide) (by decide), ht.noted.same (by decide)⟩,
          fun hle => absurd hend (not_lt.mpr hle)⟩
      · have ht := hf.start_old_emptied hmode hpend x hstopq hdue hold hend
        refine answers_histStamp hpow hkeep fun l => ?_
        rw [heq]
        exact ⟨⟨ht.inq, ht.pend, ht.bins, ht.regs⟩, fun hlt => absurd hlt (not_lt.mpr hend), fun _ => ht.tab⟩
  · have heq := State.histStamp_start (s := u) hcross hin hstopq hact hcame hwait hopen
    have hf := u.handed_fresh d { h with inq := r } x.phys
    obtain ⟨hinq, hlist, htab⟩ := hf.start_multi hmode hpend hhist x
    refine answers_histStamp hpow hkeep fun l => ?_
    rw [heq]
    exact ⟨hinq, hlist, htab⟩
  · intro took
    have heq := State.histStamp_stop (s := u) hcross hin hstopq hmode hact hcame hwait hopen
    have hf := u.handed_fresh d { h with stopq := r } x.phys
    refine ⟨fun hpend => ?_, fun y hpend hnew hlate => ?_, fun y hpend hnew hwin => ⟨fun hbin => ?_, fun i hbin => ?_⟩⟩
    · have ht := hf.stop_none hmode hpend x
      refine answers_histStamp hpow hkeep fun l => ?_
      rw [heq]
      exact ⟨⟨ht.stopq, ht.pend⟩, ht.bins, ht.noted.once (by decide) (by decide), ht.noted.same (by decide), ht.regs⟩
    · have ht := hf.stop_late hmode hpend x hnew hlate
      refine answers_histStamp hpow hkeep fun l => ?_
      rw [heq]
      exact ⟨⟨ht.stopq, ht.pend⟩, ht.bins, ht.noted.once (by decide) (by decide), ht.noted.once (by decide) (by decide), ht.noted.same (by decide), ht.regs⟩
    · have ht := hf.stop_out hmode hpend x hnew hwin hbin
      refine answers_histStamp hpow hkeep fun l => ?_
      rw [heq]
      exact ⟨⟨ht.stopq, ht.pend⟩, ht.bins, ht.noted.once (by decide) (by decide), ht.noted.same (by decide), ht.regs⟩
    · intro line n
      have hr := hf.due_kept hpend x hnew hwin
      have hbin' := (hr.histBin y x).trans ((hf.histBin y x).trans hbin)
      have hstep := State.histStop_in ((hr.hMode.trans hf.hMode).trans_le hmode) hr.pend hbin'
      have hprimed := State.primed u d { h with stopq := r } x.phys hr
      have heq' := heq.trans hstep
      generalize State.setHdef ((u.handed d { h with stopq := r } x.phys).histDue d x.phys) d _ = y0 at heq' hprimed
      refine ⟨fun hline hfull => ?_, fun hroom => ⟨fun hn => ?_, fun hn => ?_⟩⟩
      · obtain ⟨hend, hbins, hmiss⟩ := hprimed.dropped (i := i) (a := y) (b := x) hwait hcopy hline hfull
        refine answers_histStamp hpow hkeep fun l => ?_
        rw [heq']
        generalize y0.histIncr d i y x = z at *
        obtain ⟨hstop, hnone, hnoted, htotal, hevent⟩ := hprimed.shows hend
        exact ⟨⟨hstop, hnone⟩, hbins, hnoted.once (by decide) (by decide), hnoted.same (by decide), hmiss, htotal, hevent (by decide)⟩
      · obtain ⟨hend, hbins, hmiss, hlines⟩ := hprimed.taken (i := i) (a := y) (b := x) hwait hcopy hroom hn
        refine answers_histStamp hpow hkeep fun l => ?_
        rw [heq']
        generalize y0.histIncr d i y x = z at *
        obtain ⟨hstop, hnone, hnoted, htotal, -⟩ := hprimed.shows hend
        refine ⟨⟨hstop, hnone⟩, ?_, fun k hk => ?_, hnoted.once (by decide) (by decide), hnoted.same (by decide), hmiss, hlines, htotal⟩
        · exact (congrArg (fun m => Sparse.get 0 m i) hbins).trans (Sparse.get_set_same _ _ _ _)
        · exact (congrArg (fun m => Sparse.get 0 m k) hbins).trans (Sparse.get_set_ne _ _ _ _ hk.symm)
      · obtain ⟨hend, hbins⟩ := hprimed.full (i := i) (a := y) (b := x) hwait hcopy hroom hn
        refine answers_histStamp hpow hkeep fun l => ?_
        rw [heq']
        generalize y0.histIncr d i y x = z at *
        obtain ⟨hstop, hnone, hnoted, htotal, hevent⟩ := hprimed.shows hend
        exact ⟨⟨hstop, hnone⟩, hbins, hnoted.once (by decide) (by decide), hnoted.same (by decide), htotal, hevent (by decide)⟩

/-- Settles O53: a stamp handled as pairing has it, what its increment counts, and the miss queue. -/
theorem histogramStamps : Obligations.HistogramStamps := by
  unfold Obligations.HistogramStamps
  exact ⟨State.histBin_iff, histogramStamps_handled,
    fun s t die hpow => next_of hpow (exec_histMissWriteback t die s) (x := (s.advance t).setHeng die { s.heng die with misses := (s.heng die).misses.drop 1 }) rfl
      (by constructor <;> rfl)⟩

end Sys2Proof.Machine
end

section
/-! Proofs about the requests of a cut: the host's, the period's, and those refused while a cut is copied (R236). -/

namespace Sys2Proof.Machine

variable {s x y z u v : State} {c d die i o w : Nat} {k : CutCause} {l m : List Nat} {h : HCtx}

/-! ### The word of HST.CMD -/

theorem hstWord_toNat {op : Nat} (hop : op < 4) (at' : Bool) (c : Fin 512) : (hstWord op at' c).toNat = b2n at' * 2 ^ 14 + (op * 2 ^ 12 + c) := by
  have hc := c.isLt
  have hb := b2n_le at'
  have hpair : put op 12 2 ||| put c 0 9 = BitVec.ofNat 32 (op * 2 ^ 12 + c) := by
    refine BitVec.eq_of_toNat_eq ?_
    rw [show put c 0 9 = BitVec.ofNat 32 c by
        refine BitVec.eq_of_toNat_eq ?_
        rw [put, Nat.shiftLeft_zero, Nat.mod_eq_of_lt (show (c : Nat) < 2 ^ 9 from hc)],
      put_or_toNat (by omega) (by decide) (by omega), BitVec.toNat_ofNat]
    omega
  rw [hstWord, BitVec.or_assoc, hpair, put_or_toNat (by omega) (by decide) (by omega)]

theorem hstWord_fields {op : Nat} (hop : op < 4) (at' : Bool) (c : Fin 512) : fld (hstWord op at' c) 0 9 = c ∧ fld (hstWord op at' c) 12 2 = op := by
  have hc := c.isLt
  have hb := b2n_le at'
  simp only [fld, hstWord_toNat hop, Nat.shiftRight_eq_div_pow]
  omega

theorem hstWord_at {op : Nat} (hop : op < 4) (at' : Bool) (c : Fin 512) : bit (hstWord op at' c) 14 = at' := by
  have hc := c.isLt
  rw [bit, BitVec.getLsbD, hstWord_toNat hop, Nat.testBit_eq_decide_div_mod_eq]
  cases at'
  · exact decide_eq_false (by rw [show b2n false = 0 from rfl]; omega)
  · exact decide_eq_true (by rw [show b2n true = 1 from rfl]; omega)

/-! ### A cut that is asked for -/

/-- The instant that a host's request of a cut names (R236). -/
def State.cutAt (s : State) (at' : Bool) : Int := if at' then s.physOf (s.reg64 (sHst 0) 0x018) else s.phys + 2000

/-- A host's request of a cut at an instant. -/
def State.hostCut (s : State) (c : Nat) (k : CutCause) (e : Int) : State :=
  if e < s.phys then (if (s.hctx c).active then s.snapBusy c else s) else s.requestCut c k e

/-- A request by number. -/
def cutOp : CutCause → Nat
  | .snap => 1
  | .snapClear => 2
  | _ => 3

theorem State.hstCmd_eq (s : State) (at' : Bool) (c : Fin 512) (hk : k = .snap ∨ k = .snapClear ∨ k = .clear) :
    s.hstCmd 0 (hstWord (cutOp k) at' c) = s.hostCut c k (s.cutAt at') := by
  have hop : cutOp k < 4 := by rcases hk with rfl | rfl | rfl <;> decide
  obtain ⟨hc, hcode⟩ := hstWord_fields hop at' c
  have hplain (j : CutCause) : s.hostCut c j (s.phys + 2000) = s.requestCut c j (s.phys + 2000) := if_neg (by omega)
  unfold State.hstCmd
  dsimp only
  rw [if_neg (not_not.mpr rfl), hc, hcode, hstWord_at hop]
  cases at' with
  | false => rcases hk with rfl | rfl | rfl <;> exact (hplain _).symm
  | true => rcases hk with rfl | rfl | rfl <;> rfl

theorem State.requestCut_out (h : (s.hctx c).active = false ∨ (s.hctx c).closing = true) (k : CutCause) (e : Int) : s.requestCut c k e = s := by
  refine if_pos ?_
  rcases h with h | h
  · rw [h]
    rfl
  · rw [h, Bool.or_true]

/-- The cuts that wait, with one more in the order of their epochs. -/
def State.cutQueued (s : State) (l : List Cut) (k : CutCause) (e : Int) : List Cut :=
  l.filter (fun w => decide (w.tP ≤ e)) ++ [⟨k, e, s.epochOf e⟩] ++ l.filter fun w => decide (e < w.tP)

theorem State.requestCut_in (hact : (s.hctx c).active = true) (hopen : (s.hctx c).closing = false) (k : CutCause) (e : Int) : s.requestCut c k e =
    if (s.hctx c).copying.isSome then s.snapBusy c else s.setHctx c { s.hctx c with waiting := s.cutQueued (s.hctx c).waiting k e } := by
  refine if_neg ?_
  rw [hact, hopen]
  exact Bool.false_ne_true

/-! ### A cut that is refused -/

/-- Events of several dies' pages. -/
theorem State.foldl_evt_side (l : List Nat) (s : State) (b : Nat) : Side s (l.foldl (fun s die => s.evt (sHst die) b) s) := by
  induction l generalizing s with
  | nil => exact Side.refl s
  | cons n l ih => exact (State.evt_side _ _ _).trans (ih _)

theorem Side.hctx (hside : Side s z) (n : Nat) : z.hctx n = s.hctx n := by
  obtain ⟨_, _, _, _, _, hz⟩ := hside
  rw [hz]
  rfl

theorem State.snapBusy_side (s : State) (c : Nat) : Side s (s.snapBusy c) := State.foldl_evt_side _ _ _

theorem State.evt_hst_keep (s : State) (n n' b : Nat) {j : Nat} (h : bit (s.reg (ra (sHst n) 0x008)) j = true) :
    bit ((s.evt (sHst n') b).reg (ra (sHst n) 0x008)) j = true := by
  by_cases hn : n' = n
  · rw [hn]
    exact State.evt_bit_keep _ _ _ h
  · rw [State.evt_reg_of_ne _ (by unfold ra sHst; omega) (by unfold ra sHst; omega)]
    exact h

theorem State.foldl_evt_keep (l : List Nat) (s : State) (b n : Nat) {j : Nat} (h : bit (s.reg (ra (sHst n) 0x008)) j = true) :
    bit ((l.foldl (fun s die => s.evt (sHst die) b) s).reg (ra (sHst n) 0x008)) j = true := by
  induction l generalizing s with
  | nil => exact h
  | cons n' l ih => exact ih _ (s.evt_hst_keep n n' b h)

theorem State.foldl_evt_sets (hin : die ∈ l) (s : State) {b : Nat} (hb : b < 32) :
    bit ((l.foldl (fun s die => s.evt (sHst die) b) s).reg (ra (sHst die) 0x008)) b = true := by
  induction l generalizing s with
  | nil => cases hin
  | cons n l ih =>
    rcases List.mem_cons.mp hin with rfl | hin
    · exact State.foldl_evt_keep l _ b die (State.evt_bit _ hb)
    · exact ih hin _

theorem State.snapBusy_sets (hd : d ∈ s.ownDefs c) (hact : (s.hdef d).active = true) : bit ((s.snapBusy c).reg (ra (sHst (s.hHome d)) 0x008)) 5 = true :=
  State.foldl_evt_sets (List.mem_dedup.mpr (List.mem_map.mpr ⟨d, List.mem_filter.mpr ⟨hd, hact⟩, rfl⟩)) s (by decide)

/-- The registers once an event is recorded. -/
def State.evtMarked (s : State) (slot b : Nat) : State :=
  (s.setReg (ra slot 0x008) (s.reg (ra slot 0x008) ||| put 1 b 1)).setRfld slot 0x004 16 16
    ((s.setReg (ra slot 0x008) (s.reg (ra slot 0x008) ||| put 1 b 1)).rfld slot 0x004 16 16 + 1)

theorem State.msix_regs (s : State) (n : Nat) : (s.msix n).regs = s.regs := by
  unfold State.msix
  split <;> rfl

theorem State.raise_regs (s : State) (slot : Nat) : (s.raise slot).regs = s.regs := by
  unfold State.raise
  dsimp only
  split
  · rfl
  · exact State.msix_regs _ _

theorem State.evt_regs (s : State) (slot b : Nat) : (s.evt slot b).regs = (s.evtMarked slot b).regs := by
  unfold State.evt
  dsimp only
  split
  · rw [State.raise_regs]
    rfl
  · rfl

theorem State.evt_regs_congr (h : z.regs = s.regs) (slot b : Nat) : (z.evt slot b).regs = (s.evt slot b).regs := by
  have hreg (a : Nat) : z.reg a = s.reg a := by
    unfold State.reg
    rw [h]
  have hfirst : (z.setReg (ra slot 0x008) (z.reg (ra slot 0x008) ||| put 1 b 1)).regs = (s.setReg (ra slot 0x008) (s.reg (ra slot 0x008) ||| put 1 b 1)).regs := by
    unfold State.setReg
    rw [hreg]
    dsimp only
    rw [h]
  rw [State.evt_regs, State.evt_regs]
  unfold State.evtMarked
  generalize z.setReg (ra slot 0x008) (z.reg (ra slot 0x008) ||| put 1 b 1) = y at *
  generalize s.setReg (ra slot 0x008) (s.reg (ra slot 0x008) ||| put 1 b 1) = x at *
  have hword : y.reg (ra slot 0x004) = x.reg (ra slot 0x004) := by
    unfold State.reg
    rw [hfirst]
  unfold State.setRfld State.rfld State.setReg
  rw [hword]
  dsimp only
  rw [hfirst]

theorem State.foldl_evt_regs (l : List Nat) (b : Nat) (h : z.regs = s.regs) :
    (l.foldl (fun s die => s.evt (sHst die) b) z).regs = (l.foldl (fun s die => s.evt (sHst die) b) s).regs := by
  induction l generalizing s z with
  | nil => exact h
  | cons n l ih =>
    exact ih (State.evt_regs_congr h _ _)

theorem State.periodicCut_none (h : (s.hctx c).firstP = none) : s.periodicCut c = s := by
  unfold State.periodicCut
  dsimp only
  rw [h]

theorem State.periodicCut_some {p : Int} (hfirst : (s.hctx c).firstP = some p) : s.periodicCut c =
    if s.hPeriod c ≠ 0 ∧ (s.hctx c).active = true ∧ (s.hctx c).closing = false ∧ p + 2000 * (((s.hctx c).periods + 1) * s.hPeriod c : Nat) ≤ s.phys then
      (s.setHctx c { s.hctx c with periods := (s.hctx c).periods + 1 }).requestCut c .periodic (p + 2000 * (((s.hctx c).periods + 1) * s.hPeriod c : Nat))
    else s := by
  unfold State.periodicCut
  dsimp only
  rw [hfirst]
  dsimp only
  refine if_congr ?_ rfl rfl
  rw [Bool.and_eq_true, Bool.and_eq_true, Bool.and_eq_true, decide_eq_true_iff, decide_eq_true_iff, Bool.not_eq_true', and_assoc, and_assoc]

/-! ### The obligation's requests -/

/-- The host's requests (R236). -/
theorem histogramCuts_host (s : State) (t : Nat) (p : Path) (c : Fin 512) (at' : Bool) (hpow : s.Powered) (hreach : s.Reaches (ra (sHst 0) 0x014))
    (hserved : s.served (sHst 0) = true) {i : Instr} (hk : k = .snap ∨ k = .snapClear ∨ k = .clear)
    (hi : exec i s = command t (fun s => s.hostWrite p (ra (sHst 0) 0x014) (hstWord (cutOp k) at' c) true) s) :
    let u := s.advance t
    let h := s.hctx c
    let e := u.cutAt at'
    (h.active = false ∨ h.closing = true → u.phys ≤ e → exec i s = .next u) ∧
    (h.active = true → h.closing = false → u.phys ≤ e →
      (h.copying = none → exec i s = .next (u.setHctx c { h with waiting := u.cutQueued h.waiting k e })) ∧
      (h.copying ≠ none → exec i s = .next (u.snapBusy c))) ∧
    (e < u.phys → h.active = true → exec i s = .next (u.snapBusy c)) := by
  intro u h e
  have hwrite : u.hostWrite p (ra (sHst 0) 0x014) (hstWord (cutOp k) at' c) true = u.hostCut c k e :=
    (State.Reaches.hostWrite_wo (s := u) hreach hpow.1 hserved (by decide) (by decide) (r := ⟨.wo, _, _⟩) rfl rfl (q := ⟨.hst, _, _, _, _, _⟩) rfl p _).trans
      (u.hstCmd_eq at' c hk)
  refine ⟨fun hout hle => ?_, fun hact hopen hle => ⟨fun hfree => ?_, fun hbusy => ?_⟩, fun hlt hact => ?_⟩
  · exact next_of hpow hi (hwrite.trans ((if_neg (not_lt.mpr hle)).trans (State.requestCut_out (s := u) hout k e))) (Quiet.refl _)
  · refine next_of hpow hi (hwrite.trans ((if_neg (not_lt.mpr hle)).trans ((State.requestCut_in (s := u) hact hopen k e).trans (if_neg ?_)))) (by constructor <;> rfl)
    rw [show (u.hctx c).copying = none from hfree]
    exact Bool.false_ne_true
  · refine next_of hpow hi (hwrite.trans ((if_neg (not_lt.mpr hle)).trans ((State.requestCut_in (s := u) hact hopen k e).trans (if_pos ?_)))) (u.snapBusy_side c).quiet
    exact Option.isSome_iff_ne_none.mpr hbusy
  · exact next_of hpow hi (hwrite.trans ((if_pos hlt).trans (if_pos hact))) (u.snapBusy_side c).quiet

/-- The period's cuts (R236). -/
theorem histogramCuts_period (s : State) (t : Nat) (c : Fin 512) (hpow : s.Powered) :
    let u := s.advance t
    let h := s.hctx c
    (h.firstP = none → exec (.periodicCut t c) s = .next u) ∧
    (∀ p, h.firstP = some p →
      let e := p + 2000 * ((h.periods + 1) * s.hPeriod c : Nat)
      (s.hPeriod c = 0 ∨ h.active = false ∨ h.closing = true ∨ u.phys < e → exec (.periodicCut t c) s = .next u) ∧
      (s.hPeriod c ≠ 0 → h.active = true → h.closing = false → e ≤ u.phys →
        (h.copying = none → Answers (.periodicCut t c) s fun s' =>
          s'.hctx c = { h with
            periods := h.periods + 1
            waiting := h.waiting.filter (fun w => decide (w.tP ≤ e)) ++ [⟨.periodic, e, u.epochOf e⟩] ++
              h.waiting.filter fun w => decide (e < w.tP) } ∧
          s' = { u with hctxs := s'.hctxs }) ∧
        (h.copying ≠ none → Answers (.periodicCut t c) s fun s' =>
          s'.hctx c = { h with periods := h.periods + 1 } ∧ (u.snapBusy c).regs = s'.regs))) := by
  intro u h
  refine ⟨fun hnone => ?_, fun p hfirst => ?_⟩
  · exact next_of hpow (exec_periodicCut t c s) (x := u) (State.periodicCut_none (s := u) hnone) (Quiet.refl _)
  · intro e
    have heq := State.periodicCut_some (s := u) hfirst
    refine ⟨fun hno => ?_, fun hper hact hopen hdue => ⟨fun hfree => ?_, fun hbusy => ?_⟩⟩
    · refine next_of hpow (exec_periodicCut t c s) (x := u) (heq.trans (if_neg ?_)) (Quiet.refl _)
      rintro ⟨hper, hact, hopen, hdue⟩
      rcases hno with h0 | hoff | hclosed | hlt
      · exact hper h0
      · exact absurd (hact.symm.trans hoff) (by decide)
      · exact absurd (hopen.symm.trans hclosed) (by decide)
      · exact absurd hdue (not_le.mpr hlt)
    · have hin := State.requestCut_in (s := u.setHctx c { h with periods := h.periods + 1 }) (c := c) (by rw [State.setHctx_same]; exact hact)
        (by rw [State.setHctx_same]; exact hopen) .periodic e
      rw [State.setHctx_same, if_neg (fun hsome => Option.isSome_iff_ne_none.mp hsome hfree)] at hin
      refine answers_of hpow (exec_periodicCut t c s) (heq.trans ((if_pos ⟨hper, hact, hopen, hdue⟩).trans hin)) (by constructor <;> rfl) ⟨?_, rfl⟩
      exact State.setHctx_same _ _ _
    · have hin := State.requestCut_in (s := u.setHctx c { h with periods := h.periods + 1 }) (c := c) (by rw [State.setHctx_same]; exact hact)
        (by rw [State.setHctx_same]; exact hopen) .periodic e
      rw [State.setHctx_same, if_pos (Option.isSome_iff_ne_none.mpr hbusy)] at hin
      have hside := (u.setHctx c { h with periods := h.periods + 1 }).snapBusy_side c
      refine answers_of hpow (exec_periodicCut t c s) (heq.trans ((if_pos ⟨hper, hact, hopen, hdue⟩).trans hin))
        ((by constructor <;> rfl : Quiet u (u.setHctx c { h with periods := h.periods + 1 })).trans hside.quiet) ⟨?_, ?_⟩
      · exact (hside.hctx c).trans (State.setHctx_same _ _ _)
      · exact (State.foldl_evt_regs (z := u.setHctx c { h with periods := h.periods + 1 }) (s := u)
          (((u.ownDefs c).filter fun d => (u.hdef d).active).map u.hHome).dedup 5 rfl).symm

end Sys2Proof.Machine
end

section
/-! Proofs about cuts that are made and copiers that finish (R237, R238), and the statement of cuts. -/

namespace Sys2Proof.Machine

variable {s x y z u v : State} {c d die i o w : Nat} {p : Int} {l ds : List Nat} {h : HCtx} {k : Cut} {r : List Cut} {b : Bool}

/-! ### Definitions at a cut -/

/-- A definition whose interval a cut has taken: what the block will show, and what the next interval starts from. -/
structure Restarted (clears : Bool) (h h' : HDef) : Prop where
  snapBins : h'.snapBins = h.bins
  bins : h'.bins = if clears then [] else h.bins
  snapLost : h'.snapLost = h.lost
  snapFlags : h'.snapFlags = h.flags
  flags : h'.flags = h.postFlags
  lost : h'.lost = h.postLost

/-- Only definitions and their status words have changed. -/
structure DefSide (s z : State) : Prop where
  rest : ∃ m g, z = { s with hdefs := m, tab := g }
  tab : ∀ o, o < 0x40_0000 → z.tabw o = s.tabw o

theorem DefSide.refl (s : State) : DefSide s s := ⟨⟨_, _, rfl⟩, fun _ _ => rfl⟩

theorem DefSide.trans (h : DefSide s y) (h' : DefSide y z) : DefSide s z := by
  obtain ⟨⟨m, g, hy⟩, htab⟩ := h
  obtain ⟨⟨m', g', hz⟩, htab'⟩ := h'
  refine ⟨⟨m', g', ?_⟩, fun o ho => (htab' o ho).trans (htab o ho)⟩
  rw [hz, hy]

theorem State.cutDef_spec (s : State) (d : Nat) (clears : Bool) (p : Int) :
    Restarted clears (s.hdef d) ((s.cutDef d clears p).hdef d) ∧ (∀ n, n ≠ d → (s.cutDef d clears p).hdef n = s.hdef n) ∧ DefSide s (s.cutDef d clears p) := by
  obtain ⟨ws, q, hr⟩ := s.histDue_ready d p
  obtain ⟨h, hh⟩ : ∃ h : HDef, h = { (s.histDue d p).hdef d with
      snap := ((s.histDue d p).hdef d).cnt, snapBins := ((s.histDue d p).hdef d).bins
      snapFlags := ((s.histDue d p).hdef d).flags, snapLost := ((s.histDue d p).hdef d).lost
      cnt := ((s.histDue d p).hdef d).postCnt, postCnt := [0, 0, 0, 0, 0, 0, 0, 0]
      bins := if clears then [] else ((s.histDue d p).hdef d).bins
      flags := ((s.histDue d p).hdef d).postFlags, lost := ((s.histDue d p).hdef d).postLost, postFlags := 0, postLost := 0 } := ⟨_, rfl⟩
  have heq : s.cutDef d clears p = (s.histDue d p).setHdef d h := by
    rw [hh]
    rfl
  obtain ⟨l, c, c', hp, -⟩ := hr.paired
  have hother := hr.others
  have htab := hr.tabw
  obtain ⟨m, hm⟩ := hr.rest
  rw [heq]
  generalize s.histDue d p = v at *
  refine ⟨?_, fun n hn => (State.setHdef_ne _ _ hn.symm).trans (hother n hn), ⟨?_, fun o ho => (htab o).trans (State.hticked_other fun w _ => ?_)⟩⟩
  · rw [State.setHdef_same, hh, hp]
    exact ⟨rfl, rfl, rfl, rfl, rfl, rfl⟩
  · rw [hm]
    exact ⟨_, _, rfl⟩
  · unfold oHdef
    omega

/-- Several definitions cut, each once. -/
theorem State.each_cutDef (f : State → Bool) (hf : ∀ u v, DefSide u v → f v = f u) (hnd : ds.Nodup) (s : State) (p : Int) :
    let z := s.each ds fun s d => s.cutDef d (f s) p
    (∀ d ∈ ds, Restarted (f s) (s.hdef d) (z.hdef d)) ∧ (∀ n, n ∉ ds → z.hdef n = s.hdef n) ∧ DefSide s z := by
  induction ds generalizing s with
  | nil => exact ⟨(fun _ hd => nomatch hd), fun _ _ => rfl, DefSide.refl s⟩
  | cons d ds ih =>
    obtain ⟨hd, hnd⟩ := List.nodup_cons.mp hnd
    obtain ⟨hcut, hother, hside⟩ := s.cutDef_spec d (f s) p
    obtain ⟨hrest, hout, hsides⟩ := ih hnd (s.cutDef d (f s) p)
    dsimp only
    rw [State.each_cons]
    refine ⟨fun n hn => ?_, fun n hn => ?_, hside.trans hsides⟩
    · rcases List.mem_cons.mp hn with rfl | hin
      · rw [hout n hd]
        exact hcut
      · have hne : n ≠ d := fun heq => hd (heq ▸ hin)
        have hres := hrest n hin
        rw [hf _ _ hside, hother n hne] at hres
        exact hres
    · obtain ⟨hne, hnot⟩ := not_or.mp (fun hc => hn (List.mem_cons.mpr hc))
      rw [hout n hnot, hother n hne]

/-! ### A cut that is made -/

/-- The definitions that a cut is of. -/
def State.liveDefs (s : State) (c : Nat) : List Nat := (s.ownDefs c).filter fun d => (s.hdef d).active

/-- The dies that hold a cut's definitions. -/
def State.cutDies (s : State) (c : Nat) : List Nat := [0, 1].filter fun die => (s.liveDefs c).any fun d => decide (s.hHome d = die)

/-- The dies whose block a cut loses for want of a buffer. -/
def State.cutLost (s : State) (c : Nat) (k : CutCause) : List Nat :=
  if cutSends k then (s.cutDies c).filter fun die => decide (s.hNbuf c ≤ if die = 0 then (s.hctx c).bufsA else (s.hctx c).bufsB) else []

/-- The dies whose block a cut sends. -/
def State.cutSent (s : State) (c : Nat) (k : CutCause) : List Nat :=
  if cutSends k then (s.cutDies c).filter fun die => !(s.cutLost c k).contains die else []

/-- A context's histogram state while a cut is copied. -/
def State.cutTaken (s : State) (c : Nat) (w : Cut) (r : List Cut) : HCtx :=
  let h := s.hctx c
  { h with
    waiting := r, copying := if (s.cutDies c).isEmpty then none else some w, dies := s.cutDies c, discard := s.cutLost c w.cause
    seq := (s.tabw (oHctx c 4)).toNat
    copyFlags := (s.cutDies c).map fun die => (die, s.blockMarks h die w.tP ||| flagIf (cutTrunc w.cause) fTRUNC)
    fromT := h.prevT
    prevT := if w.cause = .solstice then 0 else w.tT
    prevP := w.tP
    bufsA := h.bufsA + b2n ((s.cutSent c w.cause).contains 0)
    bufsB := h.bufsB + b2n ((s.cutSent c w.cause).contains 1)
    seen := (s.cutSent c w.cause).foldl (fun m die => Sparse.set 0 m die (s.originOf (w.tP - 1))) h.seen
    owed := (s.cutLost c w.cause).foldl (fun m die => Sparse.set 0 m die (s.blockMarks h die w.tP))
      ((s.cutSent c w.cause).foldl (fun m die => Sparse.set 0 m die 0) h.owed) }

/-- The definitions of a cut, restarted. -/
def State.defsCut (s : State) (c : Nat) (w : Cut) : State := s.each (s.liveDefs c) fun s d => s.cutDef d (s.cutClears c w.cause) w.tP

/-- A cut with its sequence number taken. -/
def State.cutNumbered (s : State) (c : Nat) (w : Cut) (r : List Cut) : State :=
  if cutSends w.cause then ((s.defsCut c w).setHctx c (s.cutTaken c w r)).setTabN (oHctx c 4) ((s.tabw (oHctx c 4)).toNat + 1)
  else (s.defsCut c w).setHctx c (s.cutTaken c w r)

/-- The blocks that a cut loses, counted and reported. -/
def State.blocksLost (s : State) (c : Nat) (l : List Nat) : State := s.each l fun s die => (s.tbump (oHctx c 5) 1).evt (sHst die) 1

theorem State.cut_none (h : (s.hctx c).waiting = []) : s.cut c = s := by
  unfold State.cut
  dsimp only
  rw [h]

theorem State.cut_first (h : (s.hctx c).waiting = k :: r) : s.cut c =
    if (s.hctx c).copying.isNone && (s.liveDefs c).all fun d => s.cutPassed d k.tP then
      ((s.cutNumbered c k r).blocksLost c (s.cutLost c k.cause)).histRelease c
    else s := by
  unfold State.cut
  dsimp only
  rw [h]
  rfl

theorem State.histRelease_still (h : (s.hctx c).closing = false ∨ (s.hctx c).copying ≠ none) : s.histRelease c = s := by
  refine if_neg ?_
  rw [Bool.and_eq_true, Bool.and_eq_true, Bool.and_eq_true]
  rintro ⟨⟨⟨hclosing, -⟩, hcopy⟩, -⟩
  rcases h with hopen | hbusy
  · exact absurd (hclosing.symm.trans hopen) (by decide)
  · exact hbusy (Option.isNone_iff_eq_none.mp hcopy)

theorem State.hHome_lt (s : State) (d : Nat) : s.hHome d < 2 := by
  unfold State.hHome State.tfld fld
  omega

theorem State.mem_cutDies : die ∈ s.cutDies c ↔ die < 2 ∧ ∃ d ∈ s.liveDefs c, s.hHome d = die := by
  unfold State.cutDies
  rw [List.mem_filter, List.any_eq_true]
  constructor
  · rintro ⟨hdie, d, hd, hhome⟩
    refine ⟨?_, d, hd, of_decide_eq_true hhome⟩
    rcases List.mem_pair.mp hdie with rfl | rfl <;> decide
  · rintro ⟨hlt, d, hd, hhome⟩
    refine ⟨List.mem_pair.mpr (by omega), d, hd, decide_eq_true hhome⟩

theorem State.cutDies_isEmpty : (s.cutDies c).isEmpty = true ↔ s.liveDefs c = [] := by
  rw [List.isEmpty_iff, List.eq_nil_iff_forall_not_mem, List.eq_nil_iff_forall_not_mem]
  constructor
  · intro h d hd
    exact h (s.hHome d) (State.mem_cutDies.mpr ⟨s.hHome_lt d, d, hd, rfl⟩)
  · intro h die hdie
    obtain ⟨-, d, hd, -⟩ := State.mem_cutDies.mp hdie
    exact h d hd

theorem State.mem_cutLost {cause : CutCause} : die ∈ s.cutLost c cause ↔ cutSends cause = true ∧ die ∈ s.cutDies c ∧
    s.hNbuf c ≤ if die = 0 then (s.hctx c).bufsA else (s.hctx c).bufsB := by
  unfold State.cutLost
  by_cases hs : cutSends cause = true
  · rw [if_pos hs, List.mem_filter, decide_eq_true_iff]
    exact (and_iff_right hs).symm
  · rw [if_neg hs]
    exact ⟨(fun h => nomatch h), fun h => absurd h.1 hs⟩

theorem State.mem_cutSent {cause : CutCause} : die ∈ s.cutSent c cause ↔ cutSends cause = true ∧ die ∈ s.cutDies c ∧
    ¬ s.hNbuf c ≤ if die = 0 then (s.hctx c).bufsA else (s.hctx c).bufsB := by
  unfold State.cutSent
  by_cases hs : cutSends cause = true
  · rw [if_pos hs, List.mem_filter, Bool.not_eq_true', Bool.eq_false_iff, ne_eq, List.contains_iff_mem, State.mem_cutLost]
    constructor
    · rintro ⟨hd, hno⟩
      exact ⟨hs, hd, fun hfull => hno ⟨hs, hd, hfull⟩⟩
    · rintro ⟨-, hd, hno⟩
      exact ⟨hd, fun ⟨_, _, hfull⟩ => hno hfull⟩
  · rw [if_neg hs]
    exact ⟨(fun h => nomatch h), fun h => absurd h.1 hs⟩

/-- What the loss of blocks leaves. -/
structure LostSide (c : Nat) (s z : State) : Prop where
  hctxs : z.hctxs = s.hctxs
  hdefs : z.hdefs = s.hdefs
  caps : z.caps = s.caps
  ctxs : z.ctxs = s.ctxs
  tab : ∀ o, o ≠ oHctx c 5 → z.tabw o = s.tabw o
  kept : ∀ n j, bit (s.reg (ra (sHst n) 0x008)) j = true → bit (z.reg (ra (sHst n) 0x008)) j = true

theorem LostSide.refl (c : Nat) (s : State) : LostSide c s s := ⟨rfl, rfl, rfl, rfl, fun _ _ => rfl, fun _ _ h => h⟩

theorem LostSide.trans (h : LostSide c s y) (h' : LostSide c y z) : LostSide c s z where
  hctxs := h'.hctxs.trans h.hctxs
  hdefs := h'.hdefs.trans h.hdefs
  caps := h'.caps.trans h.caps
  ctxs := h'.ctxs.trans h.ctxs
  tab o ho := (h'.tab o ho).trans (h.tab o ho)
  kept n j hj := h'.kept n j (h.kept n j hj)

theorem State.blockLost_side (s : State) (c die : Nat) : LostSide c s ((s.tbump (oHctx c 5) 1).evt (sHst die) 1) := by
  have hevt := State.evt_side (s.tbump (oHctx c 5) 1) (sHst die) 1
  have hkept (n j : Nat) (h : bit (s.reg (ra (sHst n) 0x008)) j = true) :
      bit (((s.tbump (oHctx c 5) 1).evt (sHst die) 1).reg (ra (sHst n) 0x008)) j = true := State.evt_hst_keep _ n die 1 h
  have htab := hevt.tabw
  obtain ⟨_, _, _, _, _, hz⟩ := hevt
  rw [hz] at hkept htab ⊢
  exact ⟨rfl, rfl, rfl, rfl, fun o ho => (htab o).trans (State.setTabw_tabw_ne _ _ ho.symm), hkept⟩

theorem State.blocksLost_spec (l : List Nat) (s : State) (c : Nat) : LostSide c s (s.blocksLost c l) ∧
    ∀ die ∈ l, bit ((s.blocksLost c l).reg (ra (sHst die) 0x008)) 1 = true := by
  induction l generalizing s with
  | nil => exact ⟨LostSide.refl c s, fun _ h => nomatch h⟩
  | cons n l ih =>
    obtain ⟨hside, hset⟩ := ih ((s.tbump (oHctx c 5) 1).evt (sHst n) 1)
    refine ⟨(s.blockLost_side c n).trans hside, fun die hdie => ?_⟩
    rcases List.mem_cons.mp hdie with rfl | hin
    · exact hside.kept _ _ (State.evt_bit _ (by decide))
    · exact hset die hin

theorem DefSide.hctxs (h : DefSide s z) : z.hctxs = s.hctxs := by
  obtain ⟨⟨m, g, hz⟩, -⟩ := h
  rw [hz]

theorem DefSide.caps (h : DefSide s z) : z.caps = s.caps := by
  obtain ⟨⟨m, g, hz⟩, -⟩ := h
  rw [hz]

theorem DefSide.ctxs (h : DefSide s z) : z.ctxs = s.ctxs := by
  obtain ⟨⟨m, g, hz⟩, -⟩ := h
  rw [hz]

theorem oHctx_lt (hc : c < 512) (w : Nat) (hw : w < 8) : oHctx c w < 0x40_0000 := by
  unfold oHctx
  omega

/-- A cut's definitions restarted, and its number taken. -/
theorem State.cutNumbered_spec (hc : c < 512) (hnd : (s.ownDefs c).Nodup) (k : Cut) (r : List Cut) :
    let z := s.cutNumbered c k r
    z.hctx c = s.cutTaken c k r ∧ z.caps = s.caps ∧ z.ctxs = s.ctxs ∧
    z.tabw (oHctx c 4) = (if cutSends k.cause then s.tabw (oHctx c 4) + 1 else s.tabw (oHctx c 4)) ∧
    ∀ d ∈ s.liveDefs c, Restarted (s.cutClears c k.cause) (s.hdef d) (z.hdef d) := by
  have hclears (u v : State) (h : DefSide u v) : v.cutClears c k.cause = u.cutClears c k.cause := by
    unfold State.cutClears State.tbit
    rw [h.tab _ (oHctx_lt hc 0 (by decide))]
  obtain ⟨hres, -, hside⟩ := State.each_cutDef (fun s => s.cutClears c k.cause) hclears (hnd.filter _) s k.tP
  have hword : BitVec.ofNat 32 ((s.tabw (oHctx c 4)).toNat + 1) = s.tabw (oHctx c 4) + 1 := by
    refine BitVec.eq_of_toNat_eq ?_
    rw [BitVec.toNat_ofNat, BitVec.toNat_add]
    rfl
  dsimp only
  unfold State.cutNumbered State.defsCut
  unfold State.liveDefs at *
  generalize State.each s _ _ = y at *
  by_cases hs : cutSends k.cause = true
  · rw [if_pos hs, if_pos hs]
    refine ⟨State.setHctx_same _ _ _, hside.caps, hside.ctxs, (State.setTabw_tabw_same _ _ _).trans hword, hres⟩
  · rw [if_neg hs, if_neg hs]
    exact ⟨State.setHctx_same _ _ _, hside.caps, hside.ctxs, hside.tab _ (oHctx_lt hc 4 (by decide)), hres⟩

/-- A cut that handling has passed. -/
theorem State.cut_spec (hc : c < 512) (hnd : (s.ownDefs c).Nodup) (hwait : (s.hctx c).waiting = k :: r) (hfree : (s.hctx c).copying = none)
    (hpassed : ∀ d ∈ s.liveDefs c, s.cutPassed d k.tP = true) (hopen : (s.hctx c).closing = false ∨ s.liveDefs c ≠ []) :
    let z := s.cut c
    z.hctx c = s.cutTaken c k r ∧ z.caps = s.caps ∧ z.ctxs = s.ctxs ∧
    z.tabw (oHctx c 4) = (if cutSends k.cause then s.tabw (oHctx c 4) + 1 else s.tabw (oHctx c 4)) ∧
    (∀ die ∈ s.cutLost c k.cause, bit (z.reg (ra (sHst die) 0x008)) 1 = true) ∧
    ∀ d ∈ s.liveDefs c, Restarted (s.cutClears c k.cause) (s.hdef d) (z.hdef d) := by
  obtain ⟨hhctx, hcaps, hctxs, htab, hres⟩ := State.cutNumbered_spec hc hnd k r
  obtain ⟨hside, hset⟩ := State.blocksLost_spec (s.cutLost c k.cause) (s.cutNumbered c k r) c
  have hdue : ((s.hctx c).copying.isNone && (s.liveDefs c).all fun d => s.cutPassed d k.tP) = true := by
    rw [hfree, Option.isNone_none, Bool.true_and, List.all_eq_true]
    exact hpassed
  have heq := (State.cut_first hwait).trans (if_pos hdue)
  generalize (s.cutNumbered c k r).blocksLost c (s.cutLost c k.cause) = y at *
  have hh : y.hctx c = s.cutTaken c k r := (congrArg (fun m => Sparse.get ({} : HCtx) m c) hside.hctxs).trans hhctx
  have hstill : y.histRelease c = y := by
    refine State.histRelease_still ?_
    rw [hh]
    refine hopen.imp id fun hne => ?_
    have hsome : (s.cutDies c).isEmpty ≠ true := fun hemp => hne (State.cutDies_isEmpty.mp hemp)
    intro hnone
    exact absurd ((if_neg hsome).symm.trans hnone) (Option.some_ne_none k)
  have hword : y.tabw (oHctx c 4) = (s.cutNumbered c k r).tabw (oHctx c 4) := hside.tab _ (by unfold oHctx; omega)
  dsimp only
  rw [heq, hstill]
  refine ⟨hh, hside.caps.trans hcaps, hside.ctxs.trans hctxs, hword.trans htab, hset, fun d hd => ?_⟩
  have hdef : y.hdef d = (s.cutNumbered c k r).hdef d := congrArg (fun m => Sparse.get ({} : HDef) m d) hside.hdefs
  rw [hdef]
  exact hres d hd

theorem b2n_contains {n : Nat} {P : Prop} [Decidable P] (h : n ∈ l ↔ P) : b2n (l.contains n) = if P then 1 else 0 := by
  by_cases hp : P
  · rw [if_pos hp, List.contains_iff_mem.mpr (h.mpr hp)]
    rfl
  · rw [if_neg hp, Bool.eq_false_iff.mpr fun hc => hp (h.mp (List.contains_iff_mem.mp hc))]
    rfl

/-- Cuts that are made (R237). -/
theorem histogramCuts_cut (s : State) (t : Nat) (c : Fin 512) (hpow : s.Powered) (hset : s.Settled) (hold : Sparse.get [] s.oldWords c = [])
    (hnd : (s.ownDefs c).Nodup) :
    let u := s.advance t
    let h := s.hctx c
    let ds := (s.ownDefs c).filter fun d => (s.hdef d).active
    let full (die : Nat) : Prop := s.hNbuf c ≤ if die = 0 then h.bufsA else h.bufsB
    (h.waiting = [] → exec (.cut t c) s = .next u) ∧
    (∀ w r, h.waiting = w :: r →
      (h.copying ≠ none ∨ (∃ d ∈ ds, u.cutPassed d w.tP = false) → exec (.cut t c) s = .next u) ∧
      (h.copying = none → (∀ d ∈ ds, u.cutPassed d w.tP = true) → h.closing = false ∨ ds ≠ [] → Answers (.cut t c) s fun s' =>
        (s'.hctx c).copying = (if ds = [] then none else some w) ∧ (s'.hctx c).fromT = h.prevT ∧
        (s'.hctx c).prevT = (if w.cause = .solstice then 0 else w.tT) ∧ (s'.hctx c).waiting = r ∧ (s'.hctx c).seq = (s.tabw (oHctx c 4)).toNat ∧
        s'.tabw (oHctx c 4) = (if cutSends w.cause then s.tabw (oHctx c 4) + 1 else s.tabw (oHctx c 4)) ∧
        (∀ die : Nat, die ∈ (s'.hctx c).dies ↔ die < 2 ∧ ∃ d ∈ ds, s.hHome d = die) ∧
        (∀ die : Nat, die ∈ (s'.hctx c).discard ↔ cutSends w.cause = true ∧ die ∈ (s'.hctx c).dies ∧ full die) ∧
        (s'.hctx c).bufsA = h.bufsA + (if cutSends w.cause = true ∧ 0 ∈ (s'.hctx c).dies ∧ ¬full 0 then 1 else 0) ∧
        (s'.hctx c).bufsB = h.bufsB + (if cutSends w.cause = true ∧ 1 ∈ (s'.hctx c).dies ∧ ¬full 1 then 1 else 0) ∧
        (∀ die ∈ (s'.hctx c).discard, bit (s'.reg (ra (sHst die) 0x008)) 1 = true) ∧
        (∀ d ∈ ds, (s'.hdef d).snapBins = (s.hdef d).bins ∧
          (s'.hdef d).bins = (if s.cutClears c w.cause then [] else (s.hdef d).bins) ∧ (s'.hdef d).snapLost = (s.hdef d).lost ∧
          (s'.hdef d).snapFlags = (s.hdef d).flags ∧ (s'.hdef d).flags = (s.hdef d).postFlags ∧ (s'.hdef d).lost = (s.hdef d).postLost))) := by
  intro u h ds full
  have hstill (hcut : u.cut c = u) : exec (.cut t c) s = .next u := by
    refine next_of hpow (exec_cut t c s) (x := u) ?_ (Quiet.refl _)
    rw [State.asOf_plain (s := u) hold, hcut]
    exact State.settle_id (hset.of_eq rfl rfl)
  refine ⟨fun hnone => hstill (State.cut_none (s := u) hnone), fun w r hwait => ⟨fun hno => ?_, fun hfree hpassed hopen => ?_⟩⟩
  · refine hstill ((State.cut_first (s := u) hwait).trans (if_neg ?_))
    rw [Bool.and_eq_true, List.all_eq_true]
    rintro ⟨hfree, hall⟩
    rcases hno with hbusy | ⟨d, hd, hlate⟩
    · exact hbusy (Option.isNone_iff_eq_none.mp hfree)
    · exact absurd ((hall d hd).symm.trans hlate) (by decide)
  · obtain ⟨hhctx, hcaps, hctxs, htab, hlost, hres⟩ := State.cut_spec (s := u) c.isLt hnd hwait hfree hpassed hopen
    refine answers_of_settled hpow (exec_cut t c s) hold (hset.of_eq hcaps hctxs) fun l => ?_
    generalize hz : (s.advance t).cut c = z at *
    have hdies : (z.hctx c).dies = u.cutDies c := congrArg HCtx.dies hhctx
    have hdiscard : (z.hctx c).discard = u.cutLost c w.cause := congrArg HCtx.discard hhctx
    have hmem (die : Nat) : die ∈ (z.hctx c).dies ↔ die ∈ u.cutDies c := iff_of_eq (congrArg (die ∈ ·) hdies)
    have hsent (die : Nat) : die ∈ u.cutSent c w.cause ↔ cutSends w.cause = true ∧ die ∈ (z.hctx c).dies ∧ ¬ full die :=
      State.mem_cutSent.trans (and_congr_right fun _ => and_congr (hmem die).symm Iff.rfl)
    refine ⟨(congrArg HCtx.copying hhctx).trans (if_congr State.cutDies_isEmpty rfl rfl), congrArg HCtx.fromT hhctx, congrArg HCtx.prevT hhctx,
      congrArg HCtx.waiting hhctx, congrArg HCtx.seq hhctx, htab, fun die => (hmem die).trans State.mem_cutDies, fun die => ?_, ?_, ?_, fun die hdie => ?_,
      fun d hd => ?_⟩
    · exact (iff_of_eq (congrArg (die ∈ ·) hdiscard)).trans (State.mem_cutLost.trans (and_congr_right fun _ => and_congr (hmem die).symm Iff.rfl))
    · exact (congrArg HCtx.bufsA hhctx).trans (congrArg (h.bufsA + ·) (b2n_contains (hsent 0)))
    · exact (congrArg HCtx.bufsB hhctx).trans (congrArg (h.bufsB + ·) (b2n_contains (hsent 1)))
    · exact hlost die (hdiscard ▸ hdie)
    · obtain ⟨hsb, hb, hsl, hsf, hf, hl⟩ := hres d hd
      exact ⟨hsb, hb, hsl, hsf, hf, hl⟩

end Sys2Proof.Machine
end

section
/-! Proofs about copiers that finish (R237, R238), and the statement of cuts. -/

namespace Sys2Proof.Machine

variable {s x y z u v : State} {c d die i o w n : Nat} {p : Int} {l ds : List Nat} {h : HCtx} {k : Cut} {r : List Cut} {b : Bool}

/-! ### Held increments joined -/

theorem State.histCount_eq (s : State) (d k n : Nat) (p : Int) : ∃ m m' g,
    s.histCount d k n p = { s with hdefs := Sparse.set {} s.hdefs d { s.hdef d with cnt := m, postCnt := m' }, tab := g } := by
  unfold State.histCount
  dsimp only
  by_cases hl : (s.hctx (s.hOwner d)).later p = true <;> by_cases hk : k < 7
  · rw [if_pos hl, if_pos hk]
    exact ⟨_, _, _, rfl⟩
  · rw [if_pos hl, if_neg hk]
    exact ⟨_, _, _, rfl⟩
  · rw [if_neg hl, if_pos hk]
    exact ⟨_, _, _, rfl⟩
  · rw [if_neg hl, if_neg hk]
    exact ⟨_, _, _, rfl⟩

/-- What joining a definition's held increments leaves. -/
structure MergeSide (d : Nat) (s z : State) : Prop where
  dma : z.dma = s.dma
  hctxs : z.hctxs = s.hctxs
  caps : z.caps = s.caps
  ctxs : z.ctxs = s.ctxs
  others : ∀ n, n ≠ d → z.hdef n = s.hdef n
  bits : ∀ n i, i ≠ 4 → bit (z.reg (ra (sHst n) 0x008)) i = bit (s.reg (ra (sHst n) 0x008)) i

theorem MergeSide.trans (h : MergeSide d s y) (h' : MergeSide d y z) : MergeSide d s z where
  dma := h'.dma.trans h.dma
  hctxs := h'.hctxs.trans h.hctxs
  caps := h'.caps.trans h.caps
  ctxs := h'.ctxs.trans h.ctxs
  others n hn := (h'.others n hn).trans (h.others n hn)
  bits n i hi := (h'.bits n i hi).trans (h.bits n i hi)

theorem State.evt_hst_other (s : State) (n n' : Nat) {i b : Nat} (h : i ≠ b) :
    bit ((s.evt (sHst n') b).reg (ra (sHst n) 0x008)) i = bit (s.reg (ra (sHst n) 0x008)) i := by
  by_cases hn : n' = n
  · rw [hn]
    exact State.evt_bit_other _ _ h
  · rw [State.evt_reg_of_ne _ (by unfold ra sHst; omega) (by unfold ra sHst; omega)]

theorem State.histSat_spec (s : State) (d m : Nat) (p : Int) : MergeSide d s (s.histSat d m p) ∧
    ((s.histSat d m p).hdef d).post = (s.hdef d).post ∧ ((s.histSat d m p).hdef d).snapBins = (s.hdef d).snapBins := by
  obtain ⟨a, a', g, hcount⟩ := s.histCount_eq d 2 m p
  have hside : Side (s.histCount d 2 m p) (s.histSat d m p) := (State.bump64_side _ _ _ _).trans (State.evt_side _ _ _)
  have hbits (n i : Nat) (hi : i ≠ 4) : bit ((s.histSat d m p).reg (ra (sHst n) 0x008)) i = bit ((s.histCount d 2 m p).reg (ra (sHst n) 0x008)) i := by
    refine (State.evt_hst_other _ _ _ hi).trans ?_
    rw [State.bump64_reg (by unfold ra sHst; omega) (by unfold ra sHst; omega)]
  have hdef := hside.hdef
  obtain ⟨_, _, _, _, _, hz⟩ := hside
  rw [hcount] at hdef hz hbits
  have hown : (s.histSat d m p).hdef d = { s.hdef d with cnt := a, postCnt := a' } := (hdef d).trans (Sparse.get_set_same _ _ _ _)
  refine ⟨⟨?_, ?_, ?_, ?_, fun n hn => (hdef n).trans (Sparse.get_set_ne _ _ _ _ hn.symm), fun n i hi => hbits n i hi⟩, ?_, ?_⟩
  · rw [hz]
  · rw [hz]
  · rw [hz]
  · rw [hz]
  · rw [hown]
  · rw [hown]

/-- A definition whose held increments have joined its bins. -/
def HDef.joined (h : HDef) (bins : List (Nat × Nat)) : HDef :=
  { h with bins := bins, post := [], flags := h.flags ||| h.postFlags, lost := h.lost ||| h.postLost, postFlags := 0, postLost := 0, snapBins := [] }

theorem State.mergePost_cases (s : State) (d : Nat) : ∃ bins e m, s.mergePost d =
    if m = 0 then (s.setHdef d ((s.hdef d).joined bins)).setHeng (s.hHome d) e
    else ((s.setHdef d ((s.hdef d).joined bins)).setHeng (s.hHome d) e).histSat d m s.phys := ⟨_, _, _, rfl⟩

theorem State.mergePost_spec (s : State) (d : Nat) : MergeSide d s (s.mergePost d) ∧
    ((s.mergePost d).hdef d).post = [] ∧ ((s.mergePost d).hdef d).snapBins = [] := by
  obtain ⟨bins, e, m, heq⟩ := s.mergePost_cases d
  have hset : MergeSide d s ((s.setHdef d ((s.hdef d).joined bins)).setHeng (s.hHome d) e) :=
    ⟨rfl, rfl, rfl, rfl, fun _ hn => State.setHdef_ne _ _ hn.symm, fun _ _ _ => rfl⟩
  have hown : ((s.setHdef d ((s.hdef d).joined bins)).setHeng (s.hHome d) e).hdef d = (s.hdef d).joined bins := State.setHdef_same _ _ _
  rw [heq]
  generalize (s.setHdef d ((s.hdef d).joined bins)).setHeng (s.hHome d) e = y at *
  by_cases hm : m = 0
  · rw [if_pos hm, hown]
    exact ⟨hset, rfl, rfl⟩
  · obtain ⟨hside, hpost, hsnap⟩ := y.histSat_spec d m s.phys
    rw [if_neg hm]
    refine ⟨hset.trans hside, hpost.trans ?_, hsnap.trans ?_⟩
    · rw [hown]
      rfl
    · rw [hown]
      rfl

/-- Held increments of several definitions joined. -/
def State.merged (s : State) (l : List Nat) : State := s.each l fun s d => s.mergePost d

theorem State.merged_spec (s : State) (l : List Nat) : (s.merged l).dma = s.dma ∧ (s.merged l).hctxs = s.hctxs ∧ (s.merged l).caps = s.caps ∧
    (s.merged l).ctxs = s.ctxs ∧ (∀ n i, i ≠ 4 → bit ((s.merged l).reg (ra (sHst n) 0x008)) i = bit (s.reg (ra (sHst n) 0x008)) i) ∧
    ∀ d ∈ l, ((s.merged l).hdef d).post = [] ∧ ((s.merged l).hdef d).snapBins = [] := by
  have hside : (s.merged l).dma = s.dma ∧ (s.merged l).hctxs = s.hctxs ∧ (s.merged l).caps = s.caps ∧ (s.merged l).ctxs = s.ctxs ∧
      ∀ n i, i ≠ 4 → bit ((s.merged l).reg (ra (sHst n) 0x008)) i = bit (s.reg (ra (sHst n) 0x008)) i := by
    refine State.each_induct (P := fun z => z.dma = s.dma ∧ z.hctxs = s.hctxs ∧ z.caps = s.caps ∧ z.ctxs = s.ctxs ∧
      ∀ n i, i ≠ 4 → bit (z.reg (ra (sHst n) 0x008)) i = bit (s.reg (ra (sHst n) 0x008)) i) (fun u d _ hu => ?_) ⟨rfl, rfl, rfl, rfl, fun _ _ _ => rfl⟩
    obtain ⟨hdma, hhctxs, hcaps, hctxs, hbits⟩ := hu
    obtain ⟨hm, -, -⟩ := u.mergePost_spec d
    exact ⟨hm.dma.trans hdma, hm.hctxs.trans hhctxs, hm.caps.trans hcaps, hm.ctxs.trans hctxs, fun n i hi => (hm.bits n i hi).trans (hbits n i hi)⟩
  obtain ⟨hdma, hhctxs, hcaps, hctxs, hbits⟩ := hside
  refine ⟨hdma, hhctxs, hcaps, hctxs, hbits, fun d hd => ?_⟩
  refine State.each_all (P := fun z n => (z.hdef n).post = [] ∧ (z.hdef n).snapBins = []) (fun u n => (u.mergePost_spec n).2) (fun u m n hne hn => ?_) (Or.inl hd)
  rw [(u.mergePost_spec m).1.others n hne.symm]
  exact hn

/-! ### A copier that finishes -/

/-- A die's block queued, where the cut sends one and it found a buffer. -/
def State.snapSent (s : State) (c die : Nat) (k : Cut) : State :=
  if cutSends k.cause && !(s.hctx c).discard.contains die then
    if cutTrunc k.cause then ((s.hand (s.hDma c) { kind := 3, body := s.snapBlock c die (s.hctx c) k, src := .snapshot c die }).evt (sHst die) 0).evt (sHst die) 7
    else (s.hand (s.hDma c) { kind := 3, body := s.snapBlock c die (s.hctx c) k, src := .snapshot c die }).evt (sHst die) 0
  else s

theorem State.snapDone_none (h : (s.hctx c).copying = none ∨ die ∉ (s.hctx c).dies) : s.snapDone c die = s := by
  unfold State.snapDone
  dsimp only
  cases hcopy : (s.hctx c).copying with
  | none => rfl
  | some k =>
    refine if_neg fun hc => ?_
    rcases h with h | h
    · exact absurd (hcopy.symm.trans h) (Option.some_ne_none k)
    · exact h (List.contains_iff_mem.mp hc)

theorem State.snapDone_some (hcopy : (s.hctx c).copying = some k) (hdie : die ∈ (s.hctx c).dies) : s.snapDone c die =
    (((s.snapSent c die k).merged (((s.snapSent c die k).ownDefs c).filter fun d => decide ((s.snapSent c die k).hHome d = die))).setHctx c
      { s.hctx c with dies := (s.hctx c).dies.erase die, copying := if ((s.hctx c).dies.erase die).isEmpty then none else some k }).histRelease c := by
  unfold State.snapDone
  dsimp only
  rw [hcopy]
  exact if_pos (List.contains_iff_mem.mpr hdie)

theorem State.hand_handed (s : State) (n : Nat) (m : Msg) : ((s.hand n m).dmaCh n).handed = (s.dmaCh n).handed ++ [m] :=
  congrArg Dma.handed (State.setDma_same _ _ _)

theorem State.snapSent_spec (s : State) (c die : Nat) (k : Cut) :
    let z := s.snapSent c die k
    z.tab = s.tab ∧ z.hctxs = s.hctxs ∧ z.caps = s.caps ∧ z.ctxs = s.ctxs ∧
    (cutSends k.cause = true → die ∉ (s.hctx c).discard →
      (z.dmaCh (s.hDma c)).handed = (s.dmaCh (s.hDma c)).handed ++ [{ kind := 3, body := s.snapBlock c die (s.hctx c) k, src := .snapshot c die }] ∧
      bit (z.reg (ra (sHst die) 0x008)) 0 = true ∧ (cutTrunc k.cause = true → bit (z.reg (ra (sHst die) 0x008)) 7 = true)) ∧
    (cutSends k.cause = false ∨ die ∈ (s.hctx c).discard → z = s) := by
  have hnew (v : State) (hv : v = s.hand (s.hDma c) { kind := 3, body := s.snapBlock c die (s.hctx c) k, src := .snapshot c die }) :
      v.tab = s.tab ∧ v.hctxs = s.hctxs ∧ v.caps = s.caps ∧ v.ctxs = s.ctxs ∧
      (v.dmaCh (s.hDma c)).handed = (s.dmaCh (s.hDma c)).handed ++ [{ kind := 3, body := s.snapBlock c die (s.hctx c) k, src := .snapshot c die }] := by
    rw [hv]
    exact ⟨rfl, rfl, rfl, rfl, s.hand_handed _ _⟩
  obtain ⟨v, hv⟩ : ∃ v, v = s.hand (s.hDma c) { kind := 3, body := s.snapBlock c die (s.hctx c) k, src := .snapshot c die } := ⟨_, rfl⟩
  obtain ⟨htab, hhctxs, hcaps, hctxs, hhanded⟩ := hnew v hv
  have hkeep (z : State) (hz : Side v z) : z.tab = s.tab ∧ z.hctxs = s.hctxs ∧ z.caps = s.caps ∧ z.ctxs = s.ctxs ∧
      (z.dmaCh (s.hDma c)).handed = (s.dmaCh (s.hDma c)).handed ++ [{ kind := 3, body := s.snapBlock c die (s.hctx c) k, src := .snapshot c die }] := by
    obtain ⟨_, _, _, _, _, hz⟩ := hz
    rw [hz]
    exact ⟨htab, hhctxs, hcaps, hctxs, hhanded⟩
  dsimp only
  unfold State.snapSent
  rw [← hv]
  by_cases hs : (cutSends k.cause && !(s.hctx c).discard.contains die) = true
  · have hno : ¬ (cutSends k.cause = false ∨ die ∈ (s.hctx c).discard) := by
      rw [Bool.and_eq_true, Bool.not_eq_true'] at hs
      rintro (hoff | hin)
      · exact absurd (hs.1.symm.trans hoff) (by decide)
      · exact absurd ((List.contains_iff_mem.mpr hin).symm.trans hs.2) (by decide)
    have hbit := State.evt_bit (s := v) (sHst die) (b := 0) (by decide)
    rw [if_pos hs]
    by_cases ht : cutTrunc k.cause = true
    · rw [if_pos ht]
      obtain ⟨h1, h2, h3, h4, h5⟩ := hkeep _ ((State.evt_side v (sHst die) 0).trans (State.evt_side _ (sHst die) 7))
      exact ⟨h1, h2, h3, h4, fun _ _ => ⟨h5, State.evt_bit_keep _ _ _ hbit, fun _ => State.evt_bit _ (by decide)⟩, fun h => absurd h hno⟩
    · rw [if_neg ht]
      obtain ⟨h1, h2, h3, h4, h5⟩ := hkeep _ (State.evt_side v (sHst die) 0)
      exact ⟨h1, h2, h3, h4, fun _ _ => ⟨h5, hbit, fun h => absurd h ht⟩, fun h => absurd h hno⟩
  · rw [if_neg hs]
    refine ⟨rfl, rfl, rfl, rfl, fun hsend hfree => absurd ?_ hs, fun _ => rfl⟩
    rw [hsend, Bool.true_and, Bool.not_eq_true', Bool.eq_false_iff]
    exact fun hc => hfree (List.contains_iff_mem.mp hc)

/-- Copiers that finish (R237, R238). -/
theorem histogramCuts_done (s : State) (t : Nat) (c : Fin 512) (die : Fin 2) (hpow : s.Powered) (hset : s.Settled)
    (hold : Sparse.get [] s.oldWords c = []) :
    let u := s.advance t
    let h := s.hctx c
    (h.copying = none ∨ die.val ∉ h.dies → exec (.snapDone t c die) s = .next u) ∧
    (∀ w, h.copying = some w → die.val ∈ h.dies → h.closing = false → Answers (.snapDone t c die) s fun s' =>
      s'.hctx c = { h with dies := h.dies.erase die.val, copying := if h.dies.erase die.val = [] then none else some w } ∧
      (cutSends w.cause = true → die.val ∉ h.discard →
        (s'.dmaCh (s.hDma c)).handed = (s.dmaCh (s.hDma c)).handed ++
          [{ kind := 3, body := u.snapBlock c die h w, src := .snapshot c die }] ∧
        bit (s'.reg (ra (sHst die) 0x008)) 0 = true ∧ (cutTrunc w.cause = true → bit (s'.reg (ra (sHst die) 0x008)) 7 = true)) ∧
      (cutSends w.cause = false ∨ die.val ∈ h.discard → s'.dma = s.dma ∧
        bit (s'.reg (ra (sHst die) 0x008)) 0 = bit (s.reg (ra (sHst die) 0x008)) 0) ∧
      (∀ d ∈ (s.ownDefs c).filter fun d => decide (s.hHome d = die), (s'.hdef d).post = [] ∧ (s'.hdef d).snapBins = [])) := by
  intro u h
  refine ⟨fun hno => ?_, fun k hcopy hdie hopen => ?_⟩
  · refine next_of hpow (exec_snapDone t c die s) (x := u) ?_ (Quiet.refl _)
    rw [State.asOf_plain (s := u) hold, State.snapDone_none (s := u) hno]
    exact State.settle_id (hset.of_eq rfl rfl)
  · obtain ⟨htab, hhctxs, hcaps, hctxs, hsent, hnot⟩ := u.snapSent_spec c die k
    have heq := State.snapDone_some (s := u) hcopy hdie
    generalize u.snapSent c die k = v at *
    obtain ⟨hdma, hhctxs', hcaps', hctxs', hbits, hdefs⟩ := v.merged_spec ((v.ownDefs c).filter fun d => decide (v.hHome d = die))
    have hown : (v.ownDefs c).filter (fun d => decide (v.hHome d = die)) = (s.ownDefs c).filter fun d => decide (s.hHome d = die) := by
      unfold State.ownDefs State.entries State.hHome State.tfld State.tabw
      rw [htab]
      rfl
    generalize v.merged ((v.ownDefs c).filter fun d => decide (v.hHome d = die)) = y at *
    rw [State.histRelease_still (Or.inl (by rw [State.setHctx_same]; exact hopen))] at heq
    refine answers_of_settled hpow (exec_snapDone t c die s) hold ?_ fun l => ?_
    · rw [show (s.advance t).snapDone c die = _ from heq]
      exact hset.of_eq (hcaps'.trans hcaps) (hctxs'.trans hctxs)
    · rw [show (s.advance t).snapDone c die = _ from heq]
      refine ⟨?_, fun hsend hfree => ?_, fun hno => ?_, fun d hd => ?_⟩
      · refine (State.setHctx_same _ _ _).trans ?_
        exact congrArg (fun x => ({ h with dies := h.dies.erase die.val, copying := x } : HCtx)) (if_congr List.isEmpty_iff rfl rfl)
      · obtain ⟨hhand, hbit, htrunc⟩ := hsent hsend hfree
        refine ⟨?_, (hbits die 0 (by decide)).trans hbit, fun htr => (hbits die 7 (by decide)).trans (htrunc htr)⟩
        exact (congrArg (fun m => (Sparse.get ({} : Dma) m (s.hDma c)).handed) hdma).trans hhand
      · have hv := hnot hno
        subst hv
        exact ⟨hdma, hbits die 0 (by decide)⟩
      · exact hdefs d (hown ▸ hd)

/-- Settles O54: cuts asked for, refused and queued, made once handling has passed them, and their blocks queued. -/
theorem histogramCuts : Obligations.HistogramCuts := by
  unfold Obligations.HistogramCuts
  refine ⟨fun s t p c at' hpow hreach hserved => ?_, fun s c d hd hact => State.snapBusy_sets hd hact, histogramCuts_period, histogramCuts_cut, histogramCuts_done⟩
  intro u h e queued asks
  exact ⟨histogramCuts_host s t p c at' hpow hreach hserved (k := .snap) (Or.inl rfl) (exec_snap t p c at' s),
    histogramCuts_host s t p c at' hpow hreach hserved (k := .snapClear) (Or.inr (Or.inl rfl)) (exec_snapClear t p c at' s),
    histogramCuts_host s t p c at' hpow hreach hserved (k := .clear) (Or.inr (Or.inr rfl)) (exec_clear t p c at' s)⟩

end Sys2Proof.Machine
end

section
/-! Proofs about triggers: how a trigger is judged, what an accepted one does, and the condition events (R262 to R265, R270). -/

namespace Sys2Proof.Machine

variable {s x y z : State} {a c d k n w t : Nat} {st : Stamp} {w2 : Option Nat} {fired : List Nat} {v : Ctx}

/-! ### Parts of a state that a trigger at one context leaves -/

/-- A trigger at context `c` leaves the events in transit, the other contexts and which contexts run, and of its own context the
counters and the latches of the selectors. -/
structure Triggered (c : Nat) (s z : State) : Prop where
  quiet : Quiet s z
  condIn : z.condIn = s.condIn
  others : ∀ d, d ≠ c → z.ctx d = s.ctx d
  running : ∀ d ∈ z.runningCtxs, d = c ∨ d ∈ s.runningCtxs
  counters : (z.ctx c).counters = (s.ctx c).counters
  latch : ∀ k, k < 16 → (z.ctx c).latch.testBit k = (s.ctx c).latch.testBit k

theorem Triggered.trans (h : Triggered c s y) (g : Triggered c y z) : Triggered c s z where
  quiet := h.quiet.trans g.quiet
  condIn := g.condIn.trans h.condIn
  others d hd := (g.others d hd).trans (h.others d hd)
  running d hd := (g.running d hd).elim .inl (h.running d)
  counters := g.counters.trans h.counters
  latch k hk := (g.latch k hk).trans (h.latch k hk)

theorem Triggered.of_ctxs (hq : Quiet s z) (hin : z.condIn = s.condIn) (hctxs : z.ctxs = s.ctxs) : Triggered c s z := by
  have hctx (d : Nat) : z.ctx d = s.ctx d := congrArg (fun m => Sparse.get ({} : Ctx) m d) hctxs
  exact ⟨hq, hin, fun d _ => hctx d, fun d hd => .inr (by rwa [State.runningCtxs, hctxs] at hd), by rw [hctx], fun _ _ => by rw [hctx]⟩

theorem Side.triggered (h : Side s z) : Triggered c s z := by
  obtain ⟨_, _, _, _, _, rfl⟩ := h
  exact .of_ctxs (by constructor <;> rfl) rfl rfl

theorem State.tbump_triggered (s : State) (o n : Nat) : Triggered c s (s.tbump o n) :=
  .of_ctxs (by constructor <;> rfl) rfl rfl

theorem State.runningCtxs_setCtx (h : d ∈ (s.setCtx c v).runningCtxs) : d = c ∨ d ∈ s.runningCtxs := by
  obtain ⟨e, he, rfl⟩ := List.mem_map.mp h
  obtain ⟨hin, hrun⟩ := List.mem_filter.mp he
  rcases Sparse.mem_set hin with rfl | hold
  · exact .inl rfl
  · exact .inr (List.mem_map.mpr ⟨e, List.mem_filter.mpr ⟨hold, hrun⟩, rfl⟩)

theorem State.setCtx_triggered (hcount : v.counters = (s.ctx c).counters)
    (hlatch : ∀ k, k < 16 → v.latch.testBit k = (s.ctx c).latch.testBit k) : Triggered c s (s.setCtx c v) where
  quiet := by constructor <;> rfl
  condIn := rfl
  others _ hd := State.setCtx_ne _ v (Ne.symm hd)
  running _ := State.runningCtxs_setCtx
  counters := by rw [State.setCtx_same]; exact hcount
  latch k hk := by rw [State.setCtx_same]; exact hlatch k hk

/-! ### The auto timer and the judging of the condition vector -/

theorem State.tryAuto_cases (s : State) (c : Nat) : s.tryAuto c = s ∨ ∃ e, s.tryAuto c = s.setCtx c { s.ctx c with autoAt := some e } := by
  unfold State.tryAuto
  dsimp only
  split
  · exact .inr ⟨_, rfl⟩
  · exact .inl rfl

theorem State.tryAuto_ctxSide (s : State) (c : Nat) : CtxSide s (s.tryAuto c) := by
  rcases s.tryAuto_cases c with h | ⟨e, h⟩
  · exact ⟨s.ctxs, h⟩
  · exact ⟨_, h⟩

theorem State.tryAuto_triggered (s : State) (c : Nat) : Triggered c s (s.tryAuto c) := by
  rcases s.tryAuto_cases c with h | ⟨e, h⟩
  · rw [h]
    exact .of_ctxs (Quiet.refl _) rfl rfl
  · rw [h]
    exact State.setCtx_triggered rfl fun _ _ => rfl

/-- The auto timer changes no other field of its context. -/
theorem State.tryAuto_ctx (s : State) (c : Nat) : ∃ e, (s.tryAuto c).ctx c = { s.ctx c with autoAt := e } := by
  rcases s.tryAuto_cases c with h | ⟨e, h⟩
  · exact ⟨(s.ctx c).autoAt, by rw [h]⟩
  · exact ⟨some e, by rw [h, State.setCtx_same]⟩

/-- A judged context has its vector noted and may be queued. -/
theorem State.ctxWake_cases (s : State) (c : Nat) : s.ctxWake c = s ∨ ∃ w l, s.ctxWake c = (s.ctxSee c).setCtx c { s.ctx c with
    seen := w, vlog := l, queued := true } := by
  have hseen : (s.ctxSee c).ctx c = _ := State.setCtx_same _ c _
  unfold State.ctxWake
  dsimp only
  rw [hseen]
  split
  · exact .inr ⟨_, _, rfl⟩
  · exact .inl rfl

theorem State.ctxWake_ctx (s : State) (c : Nat) : ∃ w l q, (s.ctxWake c).ctx c = { s.ctx c with seen := w, vlog := l, queued := q } := by
  rcases s.ctxWake_cases c with h | ⟨w, l, h⟩
  · exact ⟨(s.ctx c).seen, (s.ctx c).vlog, (s.ctx c).queued, by rw [h]⟩
  · exact ⟨w, l, true, by rw [h, State.setCtx_same]⟩

theorem State.ctxWake_triggered (s : State) (c : Nat) : Triggered c s (s.ctxWake c) := by
  rcases s.ctxWake_cases c with h | ⟨w, l, h⟩
  · rw [h]
    exact .of_ctxs (Quiet.refl _) rfl rfl
  · have hseen : (s.ctxSee c).ctx c = _ := State.setCtx_same _ c _
    rw [h]
    have hsee : Triggered c s (s.ctxSee c) := State.setCtx_triggered rfl fun _ _ => rfl
    exact hsee.trans (State.setCtx_triggered (by rw [hseen]) fun _ _ => by rw [hseen])

/-- Where no context but one runs, a judging of all is a judging of it. -/
theorem State.wakeAll_triggered (h : ∀ d ∈ s.runningCtxs, d = c) : Triggered c s s.wakeAll :=
  State.each_induct (P := Triggered c s) (fun u d hd hu => hu.trans (by rw [h d hd]; exact u.ctxWake_triggered c))
    (.of_ctxs (Quiet.refl _) rfl rfl)

theorem State.wakeAll_still (h : ∀ d ∈ s.runningCtxs, s.ctxBit d 27 = false) : s.wakeAll = s :=
  State.each_induct (P := (· = s)) (fun u d hd hu => by
    rw [hu]
    exact if_neg (by rw [h d hd]; simp)) rfl

/-! ### Status counts of a context (R258) -/

theorem State.ctxCount_side (s : State) (c w : Nat) : Side (s.tbump (oCtx c w) 1) (s.ctxCount c w) := by
  unfold State.ctxCount
  dsimp only
  split
  · split
    · exact (State.bump64_side _ _ _ _).trans (State.evt_side _ _ _)
    · exact State.evt_side _ _ _
  · exact .refl _

theorem Side.ctxs (h : Side s z) : z.ctxs = s.ctxs := by
  obtain ⟨_, _, _, _, _, rfl⟩ := h
  rfl

theorem State.ctx_congr (h : z.ctxs = s.ctxs) (c : Nat) : z.ctx c = s.ctx c := congrArg (fun m => Sparse.get ({} : Ctx) m c) h

theorem State.tabw_congr (h : z.tab = s.tab) (o : Nat) : z.tabw o = s.tabw o := by
  unfold State.tabw
  rw [h]

theorem State.ctxCount_word (s : State) (c w : Nat) :
    ((s.ctxCount c w).tabw (oCtx c w)).toNat = min ((s.tabw (oCtx c w)).toNat + 1) (2 ^ 32 - 1) := by
  rw [State.tabw_congr (s.ctxCount_side c w).tab]
  exact s.tbump_word _ _

theorem State.ctxCount_ctx (s : State) (c w : Nat) : (s.ctxCount c w).ctx = s.ctx :=
  funext fun d => State.ctx_congr (z := s.ctxCount c w) ((s.ctxCount_side c w).ctxs.trans rfl) d

theorem State.ctxCount_triggered (s : State) (c w : Nat) : Triggered c s (s.ctxCount c w) :=
  (s.tbump_triggered _ 1).trans (s.ctxCount_side c w).triggered

/-- A trigger that is not accepted sets the page's event. -/
theorem State.ctxCount_evt (h : 34 ≤ w ∧ w ≤ 36) : bit ((s.ctxCount c w).reg (ra sCtx 0x008)) 5 = true := by
  have hx : s.ctxCount c w = State.evt _ sCtx 5 := if_pos h
  rw [hx]
  exact State.evt_bit _ (by decide)

theorem State.ctxCount_missed (s : State) (c : Nat) :
    (s.ctxCount c 34).reg64 sCtx 0x02C = min (s.reg64 sCtx 0x02C + 1) (2 ^ 64 - 1) := by
  have hx : s.ctxCount c 34 = ((s.tbump (oCtx c 34) 1).bump64 sCtx 0x02C 1).evt sCtx 5 := rfl
  rw [hx, State.evt_reg64_of_ne _ _ _ (by decide) (by decide) (by decide) (by decide)]
  exact State.reg64_bump64 (s.tbump (oCtx c 34) 1) sCtx 0x02C 1

/-! ### An accepted trigger (R263 to R265) -/

/-- A trigger opens a segment, or does not. -/
theorem State.capTrigger_cases (s : State) (c : Nat) (st : Stamp) (w2 : Option Nat) (forced retrig : Bool) :
    ∃ m, s.capTrigger c st w2 forced retrig = { s with caps := m } := by
  unfold State.capTrigger
  dsimp only
  split
  · exact ⟨s.caps, rfl⟩
  · exact ⟨_, rfl⟩

theorem testBit_or_two_pow {m k : Nat} (n : Nat) (h : k < 16) (hm : 16 ≤ m) : (n ||| 2 ^ m).testBit k = n.testBit k := by
  rw [Nat.testBit_or, Nat.testBit_two_pow_of_ne (by omega), Bool.or_false]

theorem State.ctxLatch_ctx (s : State) (c bits : Nat) : ((s.ctxLatch c bits).ctx c) =
    { s.ctx c with latch := (s.ctx c).latch ||| bits, disp := (s.ctx c).disp &&& (bits ^^^ (2 ^ 32 - 1)) } := State.setCtx_same _ c _

theorem State.ctxLatch_triggered (s : State) (c : Nat) {m : Nat} (hm : 16 ≤ m) : Triggered c s (s.ctxLatch c (2 ^ m)) :=
  State.setCtx_triggered rfl fun _ hk => testBit_or_two_pow _ hk hm

/-- The context after an accepted trigger: hold-off and program as the entry `o` of its tables says. -/
def Ctx.accepted (v : Ctx) (s : State) (c : Nat) : Ctx := { v with
  autoAt := none
  holdUntil := if s.tfld (oCtx c 0) 11 2 % 2 = 1 then
    some (s.now + ((s.tabw (oCtx c 2)).toNat + 2 ^ 32 * s.tfld (oCtx c 3) 0 16)) else none
  holdLeft := if 2 ≤ s.tfld (oCtx c 0) 11 2 then (s.tabw (oCtx c 1)).toNat else 0
  inSeq := true
  lastAccept := some s.now
  retrig := v.retrig || v.thread.isSome || (v.inSeq && decide (v.lastAccept = some s.now))
  pstate := if v.thread.isSome then v.pstate else s.tfld (oCtx c 0) 13 4 }

/-- The counts and latches of an accepted trigger. -/
def State.ctxTaken (s : State) (c : Nat) (forced : Bool) : State :=
  let s1 := (s.ctxCount c 33).ctxLatch c (2 ^ 24)
  if forced then ((s1.ctxCount c 37).ctxLatch c (2 ^ 25)).evt sCtx 6 else s1

theorem State.ctxAccept_eq (s : State) (c : Nat) (st : Stamp) (w2 : Option Nat) (forced : Bool) : s.ctxAccept c st w2 forced =
    (((s.ctxTaken c forced).setCtx c (((s.ctxTaken c forced).ctx c).accepted s c)).capTrigger c st w2 forced
      ((s.ctxTaken c forced).ctx c).inSeq).tryAuto c := rfl

theorem State.ctxTaken_triggered (s : State) (c : Nat) (forced : Bool) : Triggered c s (s.ctxTaken c forced) := by
  have htaken := (s.ctxCount_triggered c 33).trans (State.ctxLatch_triggered _ c (m := 24) (by decide))
  unfold State.ctxTaken
  split
  · exact htaken.trans (((State.ctxCount_triggered _ c 37).trans (State.ctxLatch_triggered _ c (m := 25) (by decide))).trans
      (State.evt_side _ _ _).triggered)
  · exact htaken

theorem State.ctxAccept_triggered (s : State) (c : Nat) (st : Stamp) (w2 : Option Nat) (forced : Bool) :
    Triggered c s (s.ctxAccept c st w2 forced) := by
  have htaken := s.ctxTaken_triggered c forced
  rw [State.ctxAccept_eq]
  generalize s.ctxTaken c forced = y at htaken ⊢
  have hset : Triggered c y (y.setCtx c ((y.ctx c).accepted s c)) := State.setCtx_triggered rfl fun _ _ => rfl
  generalize y.setCtx c ((y.ctx c).accepted s c) = z at hset ⊢
  obtain ⟨m, hcap⟩ := z.capTrigger_cases c st w2 forced (y.ctx c).inSeq
  rw [hcap]
  have hnew : Triggered c z { z with caps := m } := .of_ctxs (by constructor <;> rfl) rfl rfl
  exact (htaken.trans hset).trans (hnew.trans (State.tryAuto_triggered _ c))

/-- The accepted context, but for the auto timer; registers and tables are as the counts leave them. -/
theorem State.ctxAccept_spec (s : State) (c : Nat) (st : Stamp) (w2 : Option Nat) (forced : Bool) :
    let y := s.ctxTaken c forced
    let z := s.ctxAccept c st w2 forced
    (∃ e, z.ctx c = { (y.ctx c).accepted s c with autoAt := e }) ∧ z.regs = y.regs ∧ z.tab = y.tab := by
  dsimp only
  rw [State.ctxAccept_eq]
  generalize s.ctxTaken c forced = y
  obtain ⟨m, hcap⟩ := (y.setCtx c ((y.ctx c).accepted s c)).capTrigger_cases c st w2 forced (y.ctx c).inSeq
  rw [hcap]
  obtain ⟨e, hauto⟩ := State.tryAuto_ctx { y.setCtx c ((y.ctx c).accepted s c) with caps := m } c
  obtain ⟨l, hl⟩ := State.tryAuto_ctxSide { y.setCtx c ((y.ctx c).accepted s c) with caps := m } c
  have hctx : State.ctx { y.setCtx c ((y.ctx c).accepted s c) with caps := m } c = (y.ctx c).accepted s c := State.setCtx_same _ c _
  rw [hctx] at hauto
  exact ⟨⟨e, hauto⟩, by rw [hl]; rfl, by rw [hl]; rfl⟩

theorem State.ctxTaken_plain (s : State) (c : Nat) : s.ctxTaken c false = (s.tbump (oCtx c 33) 1).ctxLatch c (2 ^ 24) := rfl

/-! ### Judging a trigger (R263) -/

theorem State.ctxJudge_missed (h : (s.ctx c).inSeq = true ∧ s.curRetrig c = false) : s.ctxJudge c st w2 = s.ctxCount c 34 :=
  if_pos (by rw [h.1, h.2]; rfl)

theorem State.ctxJudge_unmissed (h : ¬((s.ctx c).inSeq = true ∧ s.curRetrig c = false)) :
    ¬((s.ctx c).inSeq && !s.curRetrig c) = true := by
  simpa using h

theorem State.ctxJudge_held (h : ¬((s.ctx c).inSeq = true ∧ s.curRetrig c = false)) (hhold : s.ctxHold c = true) :
    s.ctxJudge c st w2 = (if (s.ctx c).holdLeft = 1
      then ((s.ctxCount c 35).setCtx c { s.ctx c with holdLeft := (s.ctx c).holdLeft - 1 }).tryAuto c
      else (s.ctxCount c 35).setCtx c { s.ctx c with holdLeft := (s.ctx c).holdLeft - 1 }) :=
  (if_neg (State.ctxJudge_unmissed h)).trans (if_pos hhold)

theorem State.ctxJudge_early (h : ¬((s.ctx c).inSeq = true ∧ s.curRetrig c = false)) (hhold : s.ctxHold c = false)
    (hearly : (s.ctx c).inSeq = false ∧ s.capEarly c st.phys = true) : s.ctxJudge c st w2 = s.ctxCount c 36 :=
  (if_neg (State.ctxJudge_unmissed h)).trans ((if_neg (by rw [hhold]; exact Bool.false_ne_true)).trans
    (if_pos (by rw [hearly.1, hearly.2]; rfl)))

theorem State.ctxJudge_accepted (h : ¬((s.ctx c).inSeq = true ∧ s.curRetrig c = false)) (hhold : s.ctxHold c = false)
    (hearly : ¬((s.ctx c).inSeq = false ∧ s.capEarly c st.phys = true)) : s.ctxJudge c st w2 = s.ctxAccept c st w2 false :=
  (if_neg (State.ctxJudge_unmissed h)).trans ((if_neg (by rw [hhold]; exact Bool.false_ne_true)).trans
    (if_neg (by simpa using hearly)))

theorem State.ctxJudge_triggered (s : State) (c : Nat) (st : Stamp) (w2 : Option Nat) : Triggered c s (s.ctxJudge c st w2) := by
  by_cases hm : (s.ctx c).inSeq = true ∧ s.curRetrig c = false
  · rw [State.ctxJudge_missed hm]
    exact s.ctxCount_triggered c 34
  cases hhold : s.ctxHold c
  case true =>
    have hcount := s.ctxCount_triggered c 35
    have hset : Triggered c (s.ctxCount c 35) ((s.ctxCount c 35).setCtx c { s.ctx c with holdLeft := (s.ctx c).holdLeft - 1 }) :=
      State.setCtx_triggered (by rw [State.ctxCount_ctx]) fun _ _ => by rw [State.ctxCount_ctx]
    rw [State.ctxJudge_held hm hhold]
    split
    · exact (hcount.trans hset).trans (State.tryAuto_triggered _ c)
    · exact hcount.trans hset
  case false =>
    by_cases hearly : (s.ctx c).inSeq = false ∧ s.capEarly c st.phys = true
    · rw [State.ctxJudge_early hm hhold hearly]
      exact s.ctxCount_triggered c 36
    · rw [State.ctxJudge_accepted hm hhold hearly]
      exact s.ctxAccept_triggered c st w2 false

theorem triggers_judged (s : State) (c : Fin 512) (x : Stamp) (w2 : Option Nat) :
    let s' := s.ctxJudge c x w2
    let k := s.ctx c
    let one (w : Nat) : Prop := (s'.tabw (oCtx c w)).toNat = min ((s.tabw (oCtx c w)).toNat + 1) (2 ^ 32 - 1)
    let mode := s.tfld (oCtx c 0) 11 2
    let time := (s.tabw (oCtx c 2)).toNat + 2 ^ 32 * s.tfld (oCtx c 3) 0 16
    let missed := k.inSeq = true ∧ s.curRetrig c = false
    let early := k.inSeq = false ∧ s.capEarly c x.phys = true
    (missed → one 34 ∧ s'.ctx c = k ∧ s'.reg64 sCtx 0x02C = min (s.reg64 sCtx 0x02C + 1) (2 ^ 64 - 1) ∧
      bit (s'.reg (ra sCtx 0x008)) 5 = true) ∧
    (¬missed → s.ctxHold c = true → one 35 ∧ (s'.ctx c).holdLeft = k.holdLeft - 1 ∧ (s'.ctx c).pstate = k.pstate ∧
      bit (s'.reg (ra sCtx 0x008)) 5 = true) ∧
    (¬missed → s.ctxHold c = false → early → one 36 ∧ s'.ctx c = k ∧ bit (s'.reg (ra sCtx 0x008)) 5 = true) ∧
    (¬missed → s.ctxHold c = false → ¬early → one 33 ∧ (s'.ctx c).inSeq = true ∧ (s'.ctx c).latch = k.latch ||| 2 ^ 24 ∧
      (s'.ctx c).lastAccept = some s.now ∧ (s'.ctx c).holdUntil = (if mode = 1 ∨ mode = 3 then some (s.now + time) else none) ∧
      (s'.ctx c).holdLeft = (if 2 ≤ mode then (s.tabw (oCtx c 1)).toNat else 0) ∧
      (k.thread = none → (s'.ctx c).pstate = s.tfld (oCtx c 0) 13 4) ∧
      (k.thread ≠ none → (s'.ctx c).pstate = k.pstate ∧ (s'.ctx c).retrig = true) ∧ s'.regs = s.regs) := by
  refine ⟨fun hm => ?_, fun hm hhold => ?_, fun hm hhold hearly => ?_, fun hm hhold hearly => ?_⟩
  · dsimp only
    rw [State.ctxJudge_missed hm]
    exact ⟨s.ctxCount_word c 34, congrFun (s.ctxCount_ctx c 34) c, s.ctxCount_missed c, State.ctxCount_evt (by decide)⟩
  · dsimp only
    have hword := s.ctxCount_word c 35
    have hevt : bit ((s.ctxCount c 35).reg (ra sCtx 0x008)) 5 = true := State.ctxCount_evt (by decide)
    rw [State.ctxJudge_held hm hhold]
    generalize s.ctxCount c 35 = y at hword hevt ⊢
    have hctx := State.setCtx_same y c { s.ctx c with holdLeft := (s.ctx c).holdLeft - 1 }
    have hkeep : (y.setCtx c { s.ctx c with holdLeft := (s.ctx c).holdLeft - 1 }).tab = y.tab ∧
        (y.setCtx c { s.ctx c with holdLeft := (s.ctx c).holdLeft - 1 }).regs = y.regs := ⟨rfl, rfl⟩
    generalize y.setCtx c { s.ctx c with holdLeft := (s.ctx c).holdLeft - 1 } = z at hctx hkeep ⊢
    obtain ⟨htab, hregs⟩ := hkeep
    have hreg : z.reg (ra sCtx 0x008) = y.reg (ra sCtx 0x008) := congrArg (fun g => Sparse.get _ g _) hregs
    split
    · obtain ⟨e, hauto⟩ := z.tryAuto_ctx c
      obtain ⟨m, hm⟩ := z.tryAuto_ctxSide c
      refine ⟨?_, by rw [hauto, hctx], by rw [hauto, hctx], ?_⟩
      · rw [hm]
        exact (congrArg BitVec.toNat (State.tabw_congr htab _)).trans hword
      · rw [hm]
        exact (congrArg (bit · 5) hreg).trans hevt
    · exact ⟨(congrArg BitVec.toNat (State.tabw_congr htab _)).trans hword, by rw [hctx], by rw [hctx],
        (congrArg (bit · 5) hreg).trans hevt⟩
  · dsimp only
    rw [State.ctxJudge_early hm hhold hearly]
    exact ⟨s.ctxCount_word c 36, congrFun (s.ctxCount_ctx c 36) c, State.ctxCount_evt (by decide)⟩
  · dsimp only
    rw [State.ctxJudge_accepted hm hhold hearly]
    obtain ⟨⟨e, hctx⟩, hregs, htab⟩ := s.ctxAccept_spec c x w2 false
    have htaken : ∃ w, (s.ctxTaken c false).ctx c = { s.ctx c with latch := (s.ctx c).latch ||| 2 ^ 24, disp := w } :=
      ⟨_, State.ctxLatch_ctx (s.tbump (oCtx c 33) 1) c (2 ^ 24)⟩
    obtain ⟨w, htaken⟩ := htaken
    rw [hctx, htaken]
    have hmode : s.tfld (oCtx c 0) 11 2 < 4 := Nat.mod_lt _ (by decide)
    refine ⟨?_, rfl, rfl, rfl, ?_, rfl, fun hnone => ?_, fun hsome => ?_, hregs.trans rfl⟩
    · rw [State.tabw_congr htab, State.ctxTaken_plain]
      exact s.tbump_word _ _
    · exact if_congr (by omega) rfl rfl
    · exact if_neg (by simp [hnone])
    · have hthread := Option.isSome_iff_ne_none.mpr hsome
      exact ⟨if_pos hthread, by simp [Ctx.accepted, hthread]⟩

/-! ### Events of a context's selectors (R262) -/

/-- The sum of distinct powers of two has the bits that they name. -/
theorem testBit_sum_two_pow {l : List Nat} (h : l.SortedLT) (k : Nat) : ((l.map fun j => 2 ^ j).sum.testBit k = true) ↔ k ∈ l := by
  rw [← Nat.mem_bitIndices, Nat.bitIndices_sum_map_two_pow h]

/-- The latched bits of the selectors of an event. -/
def State.firedBits (s : State) (c : Nat) (fired : List Nat) : Nat :=
  ((fired.filter fun k => decide (selKind (s.csel c k) ≠ 1)).map fun k => 2 ^ k).sum

/-- A counter after the events of a context's selectors. -/
def State.firedCount (s : State) (c : Nat) (fired : List Nat) (e : Nat × Nat) : Nat :=
  if s.ctxBit c (7 + e.2) && fired.contains (s.tfld (oCtx c 3) (16 + 4 * e.2) 4) then satAdd 32 e.1 1 else e.1

/-- The context with its selectors latched and its counters counted. -/
def State.ctxNoted (s : State) (c : Nat) (fired : List Nat) : State :=
  let s1 := s.ctxLatch c (s.firedBits c fired)
  s1.setCtx c { s1.ctx c with counters := (s1.ctx c).counters.zipIdx.map (s.firedCount c fired) }

theorem State.ctxFired_none : s.ctxFired c [] st w2 = s := rfl

theorem State.ctxFired_some (h : fired ≠ []) : s.ctxFired c fired st w2 =
    if fired.contains (s.tfld (oCtx c 0) 17 4) then (s.ctxNoted c fired).ctxJudge c st w2 else s.ctxNoted c fired :=
  if_neg (by rw [List.isEmpty_iff]; exact h)

theorem State.ctxNoted_ctxSide (s : State) (c : Nat) (fired : List Nat) : CtxSide s (s.ctxNoted c fired) := ⟨_, rfl⟩

theorem State.ctxNoted_ctx (s : State) (c : Nat) (fired : List Nat) :
    ((s.ctxNoted c fired).ctx c).latch = (s.ctx c).latch ||| s.firedBits c fired ∧
    ((s.ctxNoted c fired).ctx c).counters = (s.ctx c).counters.zipIdx.map (s.firedCount c fired) := by
  unfold State.ctxNoted
  dsimp only
  rw [State.setCtx_same, State.ctxLatch_ctx]
  exact ⟨rfl, rfl⟩

theorem State.ctxNoted_others (s : State) (fired : List Nat) (h : d ≠ c) : (s.ctxNoted c fired).ctx d = s.ctx d :=
  (State.setCtx_ne _ _ (Ne.symm h)).trans (State.setCtx_ne _ _ (Ne.symm h))

theorem State.ctxNoted_running (h : d ∈ (s.ctxNoted c fired).runningCtxs) : d = c ∨ d ∈ s.runningCtxs :=
  (State.runningCtxs_setCtx h).elim .inl State.runningCtxs_setCtx

theorem State.firedBits_testBit (hf : fired.SortedLT) (k : Nat) :
    (s.firedBits c fired).testBit k = true ↔ k ∈ fired ∧ selKind (s.csel c k) ≠ 1 := by
  rw [State.firedBits, testBit_sum_two_pow (hf.pairwise.filter _).sortedLT, List.mem_filter, decide_eq_true_iff]

/-- What the events of selectors `fired` make of a context, whether or not one of them is its trigger. -/
structure State.FiredAt (s : State) (c : Nat) (fired : List Nat) (z : State) : Prop where
  quiet : Quiet s z
  condIn : z.condIn = s.condIn
  others : ∀ d, d ≠ c → z.ctx d = s.ctx d
  running : ∀ d ∈ z.runningCtxs, d = c ∨ d ∈ s.runningCtxs
  counters : (z.ctx c).counters = (s.ctx c).counters.zipIdx.map (s.firedCount c fired)
  latch : ∀ k, k < 16 → (z.ctx c).latch.testBit k = ((s.ctx c).latch ||| s.firedBits c fired).testBit k
  untriggered : s.tfld (oCtx c 0) 17 4 ∉ fired → CtxSide s z

theorem State.FiredAt.then_triggered (h : s.FiredAt c fired y) (g : Triggered c y z)
    (hside : s.tfld (oCtx c 0) 17 4 ∉ fired → CtxSide y z) : s.FiredAt c fired z where
  quiet := h.quiet.trans g.quiet
  condIn := g.condIn.trans h.condIn
  others d hd := (g.others d hd).trans (h.others d hd)
  running d hd := (g.running d hd).elim .inl (h.running d)
  counters := g.counters.trans h.counters
  latch k hk := (g.latch k hk).trans (h.latch k hk)
  untriggered hno := (h.untriggered hno).trans (hside hno)

theorem State.ctxNoted_firedAt (s : State) (c : Nat) (fired : List Nat) : s.FiredAt c fired (s.ctxNoted c fired) where
  quiet := (s.ctxNoted_ctxSide c fired).quiet
  condIn := rfl
  others _ := s.ctxNoted_others fired
  running _ := State.ctxNoted_running
  counters := (s.ctxNoted_ctx c fired).2
  latch k _ := by rw [(s.ctxNoted_ctx c fired).1]
  untriggered _ := s.ctxNoted_ctxSide c fired

theorem State.firedAt_none (s : State) (c : Nat) : s.FiredAt c [] s where
  quiet := Quiet.refl s
  condIn := rfl
  others _ _ := rfl
  running _ := .inr
  counters := by
    have hsame : s.firedCount c [] = Prod.fst := funext fun e => if_neg (by simp)
    rw [hsame, List.zipIdx_map_fst]
  latch _ _ := by rw [State.firedBits, List.filter_nil, List.map_nil, List.sum_nil, Nat.or_zero]
  untriggered _ := ⟨s.ctxs, rfl⟩

theorem State.ctxFired_firedAt (s : State) (c : Nat) (fired : List Nat) (st : Stamp) (w2 : Option Nat) :
    s.FiredAt c fired (s.ctxFired c fired st w2) := by
  by_cases hnil : fired = []
  · rw [hnil, State.ctxFired_none]
    exact s.firedAt_none c
  rw [State.ctxFired_some hnil]
  split
  · next htrig =>
    exact (s.ctxNoted_firedAt c fired).then_triggered (State.ctxJudge_triggered _ c st w2)
      fun hno => absurd (List.contains_iff_mem.mp htrig) hno
  · exact s.ctxNoted_firedAt c fired

/-! ### The next condition event (R262, R270) -/

theorem CondEv.fold_min (l : List CondEv) (e : CondEv) :
    let m := l.foldl (fun a b => if b.instant < a.instant then b else a) e
    (m = e ∨ m ∈ l) ∧ m.instant ≤ e.instant ∧ ∀ y ∈ l, m.instant ≤ y.instant := by
  induction l generalizing e with
  | nil => exact ⟨.inl rfl, le_refl _, fun _ h => nomatch h⟩
  | cons b l ih =>
    obtain ⟨hmem, hle, hall⟩ := ih (if b.instant < e.instant then b else e)
    have hfirst : (if b.instant < e.instant then b else e).instant ≤ e.instant ∧
        (if b.instant < e.instant then b else e).instant ≤ b.instant := by
      split <;> omega
    refine ⟨?_, hle.trans hfirst.1, fun y hy => ?_⟩
    · rcases hmem with heq | hin
      · dsimp only [List.foldl_cons]
        rw [heq]
        split
        · exact .inr List.mem_cons_self
        · exact .inl rfl
      · exact .inr (List.mem_cons_of_mem _ hin)
    · rcases List.mem_cons.mp hy with rfl | hin
      · exact hle.trans hfirst.2
      · exact hall y hin

/-- The next event is one in transit, and none in transit is earlier. -/
theorem firstEvent_min {l : List CondEv} {e : CondEv} (h : firstEvent l = some e) : e ∈ l ∧ ∀ y ∈ l, e.instant ≤ y.instant := by
  cases l with
  | nil => cases h
  | cons b l =>
    obtain ⟨hmem, hle, hall⟩ := CondEv.fold_min l b
    cases h
    refine ⟨hmem.elim (fun heq => by rw [heq]; exact List.mem_cons_self) (List.mem_cons_of_mem _), fun y hy => ?_⟩
    rcases List.mem_cons.mp hy with rfl | hin
    · exact hle
    · exact hall y hin

/-- The selectors of a context that an edge meets. -/
def State.edgeFired (s : State) (c : Nat) (x : Stamp) : List Nat :=
  (List.range 16).filter fun k =>
    let v := s.csel c k
    decide (selKind v ≤ 1) && decide (selSrc v = x.src) && (decide (x.src < 4096) || (x.rising != decide (selPol v = 1)))

theorem State.edgeFired_sorted (s : State) (c : Nat) (x : Stamp) : (s.edgeFired c x).SortedLT :=
  (List.pairwise_lt_range.filter _).sortedLT

theorem State.mem_edgeFired (s : State) (c : Nat) (x : Stamp) : k ∈ s.edgeFired c x ↔ k < 16 ∧
    selKind (s.csel c k) ≤ 1 ∧ selSrc (s.csel c k) = x.src ∧ (x.src < 4096 ∨ (x.rising = true ↔ selPol (s.csel c k) = 0)) := by
  have hpol : (x.rising != decide (selPol (s.csel c k) = 1)) = true ↔ (x.rising = true ↔ selPol (s.csel c k) = 0) := by
    have hbit : selPol (s.csel c k) = 0 ∨ selPol (s.csel c k) = 1 := Nat.mod_two_eq_zero_or_one _
    rcases hbit with h | h <;> cases x.rising <;> simp [h]
  rw [State.edgeFired, List.mem_filter, List.mem_range]
  dsimp only
  rw [Bool.and_eq_true, Bool.and_eq_true, Bool.or_eq_true, decide_eq_true_iff, decide_eq_true_iff, decide_eq_true_iff, hpol, and_assoc]

theorem State.conditionEvent_none (h : firstEvent s.condIn = none) : s.conditionEvent = s := by
  unfold State.conditionEvent
  split
  · next hy => cases hy.symm.trans h
  · next hy => cases hy.symm.trans h
  · rfl

theorem State.conditionEvent_edge {e : Stamp} (h : firstEvent s.condIn = some (.edge e)) :
    let s1 : State := { s with condIn := s.condIn.erase (.edge e) }
    s.conditionEvent = (s1.each (s1.runningCtxs.filter fun c => s1.ctxBit c 27) fun s c => s.ctxFired c (s.edgeFired c e) e none).wakeAll := by
  unfold State.conditionEvent
  split
  · next hy =>
    cases hy.symm.trans h
    rfl
  · next hy => cases hy.symm.trans h
  · next hy => cases hy.symm.trans h

/-- Where no running context has a trigger program, a result is only taken. -/
theorem State.conditionEvent_result {i : Nat} {b : Bool} {p : Int} {q : Nat} (h : firstEvent s.condIn = some (.result i b p q))
    (hoff : ∀ c ∈ s.runningCtxs, s.ctxBit c 27 = false) :
    s.conditionEvent = { s with condIn := s.condIn.erase (.result i b p q), freeCtr := s.freeCtr + 2 } := by
  have hnone : s.runningCtxs.filter (fun c => s.ctxBit c 27) = [] :=
    List.filter_eq_nil_iff.mpr fun c hc => by rw [hoff c hc]; exact Bool.false_ne_true
  have hstill : State.wakeAll { s with condIn := s.condIn.erase (.result i b p q), freeCtr := s.freeCtr + 2 } = _ :=
    State.wakeAll_still hoff
  unfold State.conditionEvent
  split
  · next hy => cases hy.symm.trans h
  · next hy =>
    cases hy.symm.trans h
    exact Eq.trans (congrArg (fun l => State.wakeAll (State.each _ l _)) hnone) hstill
  · next hy => cases hy.symm.trans h

/-- The auto timer has not run out. -/
theorem State.autoTrigger_waits (h : (s.ctx c).autoAt = none ∨ (s.ctx c).st ≠ .running ∨ ∃ e, (s.ctx c).autoAt = some e ∧ s.now < e) :
    s.autoTrigger c = s := by
  unfold State.autoTrigger
  dsimp only
  split
  · next e he =>
    refine if_neg fun hdue => ?_
    rw [Bool.and_eq_true, decide_eq_true_iff, decide_eq_true_iff] at hdue
    rcases h with h | h | ⟨e', h, hlt⟩
    · cases h.symm.trans he
    · exact h hdue.2
    · cases h.symm.trans he
      exact absurd hdue.1 (Nat.not_le.mpr hlt)
  · rfl

/-- The auto timer has run out, and a trigger is forced. -/
theorem State.autoTrigger_due {e : Nat} (he : (s.ctx c).autoAt = some e) (hle : e ≤ s.now) (hrun : (s.ctx c).st = .running) :
    ∃ st w2, s.autoTrigger c = (s.ctxAccept c st w2 true).ctxWake c := by
  unfold State.autoTrigger
  dsimp only
  split
  · next e' he' =>
    cases he.symm.trans he'
    exact ⟨_, _, if_pos (by rw [decide_eq_true hle, decide_eq_true hrun]; rfl)⟩
  · next he' => cases he.symm.trans he'

theorem State.tbump_ctx (s : State) (o n c : Nat) : (s.tbump o n).ctx c = s.ctx c := rfl

theorem State.tbump_other {o : Nat} (h : o ≠ w) (n : Nat) : (s.tbump o n).tabw w = s.tabw w := State.setTabw_tabw_ne _ _ h

/-- A forced trigger counts as accepted and as forced, latches both and sets its event (R265). -/
theorem State.ctxTaken_forced (s : State) (c : Nat) :
    ((s.ctxTaken c true).ctx c).latch = (s.ctx c).latch ||| 2 ^ 24 ||| 2 ^ 25 ∧
    (∀ w ∈ [33, 37], ((s.ctxTaken c true).tabw (oCtx c w)).toNat = min ((s.tabw (oCtx c w)).toNat + 1) (2 ^ 32 - 1)) ∧
    bit ((s.ctxTaken c true).reg (ra sCtx 0x008)) 6 = true := by
  have hx : s.ctxTaken c true = ((((s.tbump (oCtx c 33) 1).ctxLatch c (2 ^ 24)).tbump (oCtx c 37) 1).ctxLatch c (2 ^ 25)).evt sCtx 6 := rfl
  have hlatch : ((((s.tbump (oCtx c 33) 1).ctxLatch c (2 ^ 24)).tbump (oCtx c 37) 1).ctx c).latch = (s.ctx c).latch ||| 2 ^ 24 := by
    rw [State.tbump_ctx, State.ctxLatch_ctx, State.tbump_ctx]
  have hforced : (((s.tbump (oCtx c 33) 1).ctxLatch c (2 ^ 24)).tbump (oCtx c 37) 1).tab = ((s.tbump (oCtx c 33) 1).tbump (oCtx c 37) 1).tab :=
    State.tbump_tab rfl _ _
  have hne : oCtx c 33 ≠ oCtx c 37 := by unfold oCtx; omega
  have htwo : ∀ w ∈ [33, 37], (((s.tbump (oCtx c 33) 1).tbump (oCtx c 37) 1).tabw (oCtx c w)).toNat =
      min ((s.tabw (oCtx c w)).toNat + 1) (2 ^ 32 - 1) := by
    intro w hw
    rcases List.mem_pair.mp hw with rfl | rfl
    · exact (congrArg BitVec.toNat (State.tbump_other hne.symm _)).trans (s.tbump_word _ _)
    · rw [State.tbump_word, State.tbump_other hne]
  rw [hx]
  generalize ((s.tbump (oCtx c 33) 1).ctxLatch c (2 ^ 24)).tbump (oCtx c 37) 1 = y at hlatch hforced ⊢
  have hside := (y.ctxLatch c (2 ^ 25)).evt_side sCtx 6
  have hbit : bit (((y.ctxLatch c (2 ^ 25)).evt sCtx 6).reg (ra sCtx 0x008)) 6 = true := State.evt_bit _ (by decide)
  refine ⟨?_, fun w hw => ?_, hbit⟩
  · rw [State.ctx_congr hside.ctxs, State.ctxLatch_ctx]
    exact congrArg (· ||| 2 ^ 25) hlatch
  · rw [State.tabw_congr (hside.tab.trans hforced)]
    exact htwo w hw

/-- A condition event at the one context that runs a trigger program (R262). -/
theorem State.conditionEvent_spec {e : Stamp} (h : firstEvent s.condIn = some (.edge e)) (hrun : s.runningCtxs = [c])
    (hon : s.ctxBit c 27 = true) :
    ({ s with condIn := s.condIn.erase (.edge e) } : State).FiredAt c (s.edgeFired c e) s.conditionEvent := by
  have hlist : s.runningCtxs.filter (fun c => s.ctxBit c 27) = [c] := by
    rw [hrun]
    exact (List.filter_cons_of_pos (p := fun c => s.ctxBit c 27) hon).trans rfl
  have hfired := State.ctxFired_firedAt { s with condIn := s.condIn.erase (.edge e) } c (s.edgeFired c e) e none
  have hone : s.conditionEvent = (State.ctxFired { s with condIn := s.condIn.erase (.edge e) } c (s.edgeFired c e) e none).wakeAll :=
    (State.conditionEvent_edge h).trans (congrArg (fun l => State.wakeAll (State.each _ l _)) hlist)
  rw [hone]
  generalize State.ctxFired { s with condIn := s.condIn.erase (.edge e) } c (s.edgeFired c e) e none = y at hfired ⊢
  have honly : ∀ d ∈ y.runningCtxs, d = c := fun d hd => (hfired.running d hd).elim id fun hold =>
    List.mem_singleton.mp (hrun ▸ hold)
  exact hfired.then_triggered (State.wakeAll_triggered honly) fun _ => y.wakeAll_ctxSide

theorem triggers_event (s : State) (t : Nat) (hpow : s.Powered) :
    let u := s.advance t
    (s.condIn = [] → exec (.conditionEvent t) s = .next u) ∧
    (∀ e, firstEvent s.condIn = some e → e ∈ s.condIn ∧ ∀ y ∈ s.condIn, e.instant ≤ y.instant) ∧
    ((∀ c ∈ s.runningCtxs, s.ctxBit c 27 = false) →
      (∀ x, firstEvent s.condIn = some (.edge x) →
        exec (.conditionEvent t) s = .next { u with condIn := s.condIn.erase (.edge x) }) ∧
      (∀ i st p q, firstEvent s.condIn = some (.result i st p q) →
        exec (.conditionEvent t) s = .next { u with condIn := s.condIn.erase (.result i st p q), freeCtr := s.freeCtr + 2 })) ∧
    (∀ x (c : Fin 512), firstEvent s.condIn = some (.edge x) → s.runningCtxs = [c.val] → s.ctxBit c 27 = true →
      let fits (k : Nat) : Prop := selKind (s.csel c k) ≤ 1 ∧ selSrc (s.csel c k) = x.src ∧
        (x.src < 4096 ∨ (x.rising = true ↔ selPol (s.csel c k) = 0))
      Answers (.conditionEvent t) s fun s' => s'.condIn = s.condIn.erase (.edge x) ∧
        (∀ k, k < 16 → ((s'.ctx c).latch.testBit k = true ↔
          (s.ctx c).latch.testBit k = true ∨ (fits k ∧ selKind (s.csel c k) = 0))) ∧
        (∀ j n, (s.ctx c).counters[j]? = some n → (s'.ctx c).counters[j]? = some
          (if s.ctxBit c (7 + j) = true ∧ (∃ k, k < 16 ∧ fits k ∧ s.tfld (oCtx c 3) (16 + 4 * j) 4 = k)
            then min (n + 1) (2 ^ 32 - 1) else n)) ∧
        (¬fits (s.tfld (oCtx c 0) 17 4) → s'.tab = s.tab ∧ s'.regs = s.regs ∧ s'.caps = s.caps) ∧
        (∀ d, d ≠ c.val → s'.ctx d = s.ctx d)) := by
  refine ⟨fun hnil => ?_, fun e he => firstEvent_min he, fun hoff => ⟨fun x hx => ?_, fun i st p q hx => ?_⟩,
    fun x c hx hrun hon => ?_⟩
  · have hfirst : firstEvent s.condIn = none := congrArg firstEvent hnil
    exact next_of hpow (exec_conditionEvent t s) (State.conditionEvent_none (s := s.advance t) hfirst) (Quiet.refl _)
  · have hstill : State.wakeAll { s.advance t with condIn := s.condIn.erase (.edge x) } =
        { s.advance t with condIn := s.condIn.erase (.edge x) } := State.wakeAll_still hoff
    have hnone : s.runningCtxs.filter (fun c => s.ctxBit c 27) = [] :=
      List.filter_eq_nil_iff.mpr fun c hc => by rw [hoff c hc]; exact Bool.false_ne_true
    have hone := (State.conditionEvent_edge (s := s.advance t) hx).trans
      (congrArg (fun l => State.wakeAll (State.each _ l _)) hnone)
    exact next_of hpow (exec_conditionEvent t s) (hone.trans hstill) (by constructor <;> rfl)
  · exact next_of hpow (exec_conditionEvent t s) (State.conditionEvent_result (s := s.advance t) hx hoff) (by constructor <;> rfl)
  · have hspec := State.conditionEvent_spec (s := s.advance t) hx hrun hon
    have hquiet : Quiet (s.advance t) { s.advance t with condIn := s.condIn.erase (.edge x) } := by constructor <;> rfl
    have hfired (k : Nat) : k ∈ (s.advance t).edgeFired c x ↔ _ := State.mem_edgeFired (s.advance t) c x
    have hsorted := (s.advance t).edgeFired_sorted c x
    refine answers_of hpow (exec_conditionEvent t s) rfl (hquiet.trans hspec.quiet) ?_
    generalize (s.advance t).conditionEvent = z at hspec ⊢
    generalize (s.advance t).edgeFired c x = fired at hspec hfired hsorted
    refine ⟨hspec.condIn, fun k hk => ?_, fun j n hj => ?_, fun hno => ?_, hspec.others⟩
    · rw [hspec.latch k hk, Nat.testBit_or, Bool.or_eq_true, State.firedBits_testBit hsorted, hfired]
      refine or_congr Iff.rfl ?_
      have hkind : selKind ((s.advance t).csel c k) ≤ 1 → (selKind ((s.advance t).csel c k) ≠ 1 ↔
        selKind ((s.advance t).csel c k) = 0) := by omega
      exact ⟨fun ⟨⟨_, hfit⟩, hne⟩ => ⟨hfit, (hkind hfit.1).mp hne⟩, fun ⟨hfit, h0⟩ => ⟨⟨hk, hfit⟩, (hkind hfit.1).mpr h0⟩⟩
    · rw [hspec.counters, List.getElem?_map, List.getElem?_zipIdx, Nat.zero_add]
      refine (congrArg (fun o => Option.map _ (Option.map (fun a => (a, j)) o)) hj).trans (congrArg some (if_congr ?_ rfl rfl))
      rw [Bool.and_eq_true, List.contains_iff_mem]
      refine and_congr Iff.rfl ((hfired _).trans ⟨fun ⟨hlt, hfit⟩ => ⟨_, hlt, hfit, rfl⟩, fun ⟨k, hlt, hfit, heq⟩ => ?_⟩)
      subst heq
      exact ⟨hlt, hfit⟩
    · obtain ⟨m, hm⟩ := hspec.untriggered fun hin => hno ((hfired _).mp hin).2
      rw [hm]
      exact ⟨rfl, rfl, rfl⟩

/-! ### The auto timer (R265) -/

theorem triggers_auto (s : State) (t : Nat) (c : Fin 512) (hpow : s.Powered) :
    let u := s.advance t
    let x := s.ctx c
    let due := x.st = .running ∧ s.ctxBit c 27 = true ∧ s.ctxBit c 29 = true ∧ x.autoAt = none ∧ u.wouldAccept c u.phys = true
    (¬due → exec (.preFilled t c) s = .next u) ∧
    (due → exec (.preFilled t c) s = .next
      (u.setCtx c { x with autoAt := some (max s.now t + 1024 * (s.reg (ra sAcq 0x014)).toNat) })) ∧
    (x.autoAt = none ∨ x.st ≠ .running ∨ (∃ e, x.autoAt = some e ∧ max s.now t < e) → exec (.autoTrigger t c) s = .next u) ∧
    (∀ e, x.autoAt = some e → e ≤ max s.now t → x.st = .running → Answers (.autoTrigger t c) s fun s' =>
      (∀ w ∈ [33, 37], (s'.tabw (oCtx c w)).toNat = min ((s.tabw (oCtx c w)).toNat + 1) (2 ^ 32 - 1)) ∧
      (s'.ctx c).latch = x.latch ||| 2 ^ 24 ||| 2 ^ 25 ∧ (s'.ctx c).inSeq = true ∧ bit (s'.reg (ra sCtx 0x008)) 6 = true) := by
  dsimp only
  have hdue : (decide (((s.advance t).ctx c).st = .running) && (s.advance t).ctxBit c 27 && (s.advance t).ctxBit c 29 &&
      ((s.advance t).ctx c).autoAt.isNone && (s.advance t).wouldAccept c (s.advance t).phys) = true ↔
      ((s.ctx c).st = .running ∧ s.ctxBit c 27 = true ∧ s.ctxBit c 29 = true ∧ (s.ctx c).autoAt = none ∧
        (s.advance t).wouldAccept c (s.advance t).phys = true) := by
    rw [Bool.and_eq_true, Bool.and_eq_true, Bool.and_eq_true, Bool.and_eq_true, decide_eq_true_iff, Option.isNone_iff_eq_none,
      and_assoc, and_assoc, and_assoc]
    exact Iff.rfl
  refine ⟨fun hno => ?_, fun hyes => ?_, fun hno => ?_, fun e he hle hrun => ?_⟩
  · have hx : (s.advance t).tryAuto c = s.advance t := if_neg fun h => hno (hdue.mp h)
    exact next_of hpow (exec_preFilled t c s) hx (Quiet.refl _)
  · have hx : (s.advance t).tryAuto c = (s.advance t).setCtx c _ := if_pos (hdue.mpr hyes)
    exact next_of hpow (exec_preFilled t c s) hx (by constructor <;> rfl)
  · exact next_of hpow (exec_autoTrigger t c s) (State.autoTrigger_waits (s := s.advance t) hno) (Quiet.refl _)
  · obtain ⟨st, w2, hx⟩ := State.autoTrigger_due (s := s.advance t) he hle hrun
    have hq := (s.advance t).ctxAccept_triggered c st w2 true
    obtain ⟨⟨a, hctx⟩, hregs, htab⟩ := (s.advance t).ctxAccept_spec c st w2 true
    generalize (s.advance t).ctxAccept c st w2 true = y at hx hq hctx hregs htab
    refine answers_of hpow (exec_autoTrigger t c s) hx (hq.quiet.trans (y.ctxWake_ctxSide c).quiet) ?_
    obtain ⟨hlatch, hwords, hevt⟩ := (s.advance t).ctxTaken_forced c
    obtain ⟨w, l, q, hwake⟩ := y.ctxWake_ctx c
    obtain ⟨m, hm⟩ := y.ctxWake_ctxSide c
    refine ⟨fun w hw => ?_, ?_, ?_, ?_⟩
    · rw [hm]
      exact (congrArg BitVec.toNat (State.tabw_congr htab _)).trans (hwords w hw)
    · rw [hwake, hctx]
      exact hlatch
    · rw [hwake, hctx]
      rfl
    · rw [hm]
      exact (congrArg (fun g => bit (Sparse.get _ g _) 6) hregs).trans hevt

/-- Settles O57: a trigger is judged row by row, and the condition events and the auto timer reach the judging. -/
theorem triggers : Obligations.Triggers :=
  ⟨triggers_judged, fun s t hpow => triggers_event s t hpow, fun s t c hpow => triggers_auto s t c hpow⟩

end Sys2Proof.Machine
end

section
/-! What the stages do when a context stops (R259): no stage touches the contexts themselves, the sequencer's page, the captures or the
overflow counts of the records. -/

namespace Sys2Proof.Machine

variable {s x y z u v : State} {c d die i o w n slot off : Nat} {p : Int}

/-! ### What stands beside the stages -/

/-- The parts of a state that the stages of a stopping context leave: contexts, the answer of the admission engine, the sequencer's page,
the captures, the page of acquisition and the overflow counts of the records. -/
structure Beside where
  ctxs : List (Nat × Ctx)
  admRes : Nat
  seq : Nat → Word
  caps : List (Nat × Cap)
  acq : Nat → Word
  recs : Nat → Word

/-- What stands beside the stages of context `c`. The tables of a context of the block reach no record entry, so those count for one
that is. -/
def State.beside (c : Nat) (s : State) : Beside where
  ctxs := s.ctxs
  admRes := s.admRes
  seq off := s.reg (ra sSeq (off % 0x400))
  caps := s.caps
  acq off := s.reg (ra sAcq (off % 0x400))
  recs d := if c < 512 ∧ d < 512 then s.tabw (oRec d 13) else 0

/-- A page that is neither the sequencer's nor that of acquisition. -/
def farPage (slot : Nat) : Prop := slot ≠ sSeq ∧ slot ≠ sAcq

/-- A table word that is no record's overflow count. -/
def farWord (o : Nat) : Prop := ∀ d, d < 512 → o ≠ oRec d 13

theorem beside_of_regs (hctxs : z.ctxs = s.ctxs) (hadm : z.admRes = s.admRes) (hcaps : z.caps = s.caps) (htab : z.tab = s.tab)
    (hregs : ∀ page off, page = sSeq ∨ page = sAcq → off < 0x400 → z.reg (ra page off) = s.reg (ra page off)) :
    z.beside c = s.beside c := by
  have hseq (off : Nat) : z.reg (ra sSeq (off % 0x400)) = s.reg (ra sSeq (off % 0x400)) := hregs sSeq _ (.inl rfl) (Nat.mod_lt _ (by decide))
  have hacq (off : Nat) : z.reg (ra sAcq (off % 0x400)) = s.reg (ra sAcq (off % 0x400)) := hregs sAcq _ (.inr rfl) (Nat.mod_lt _ (by decide))
  unfold State.beside
  rw [hctxs, hadm, hcaps]
  simp only [hseq, hacq, State.tabw_congr htab]

theorem State.evt_beside (h : farPage slot) (s : State) (b : Nat) : (s.evt slot b).beside c = s.beside c := by
  have hside := s.evt_side slot b
  refine beside_of_regs hside.ctxs ?_ ?_ hside.tab fun page off hpage hoff => ?_
  · obtain ⟨_, _, _, _, _, hz⟩ := hside
    rw [hz]
  · obtain ⟨_, _, _, _, _, hz⟩ := hside
    rw [hz]
  · have hne : slot ≠ page := by rcases hpage with rfl | rfl <;> [exact h.1; exact h.2]
    exact State.evt_reg_of_ne _ (by unfold ra; omega) (by unfold ra; omega)

theorem State.setReg_beside (h : farPage slot) (hoff : off < 0x400) (s : State) (v : Word) : (s.setReg (ra slot off) v).beside c = s.beside c := by
  refine beside_of_regs rfl rfl rfl rfl fun page j hpage hj => ?_
  have hne : slot ≠ page := by rcases hpage with rfl | rfl <;> [exact h.1; exact h.2]
  exact State.setReg_reg_ne _ _ (by unfold ra; omega)

theorem State.bump64_beside (h : farPage slot) (hoff : off < 0x3FC) (s : State) (m : Nat) : (s.bump64 slot off m).beside c = s.beside c :=
  (State.setReg_beside h (by omega) _ _).trans (State.setReg_beside h (by omega) _ _)

theorem State.setRegN_beside (h : farPage slot) (hoff : off < 0x400) (s : State) (m : Nat) : (s.setRegN slot off m).beside c = s.beside c :=
  State.setReg_beside h hoff s _

theorem State.setTabw_beside (h : c < 512 → farWord o) (s : State) (v : Word) : (s.setTabw o v).beside c = s.beside c := by
  have hrecs (d : Nat) : (if c < 512 ∧ d < 512 then (s.setTabw o v).tabw (oRec d 13) else 0) = if c < 512 ∧ d < 512 then s.tabw (oRec d 13) else 0 := by
    split
    · next hb => exact State.setTabw_tabw_ne _ _ (h hb.1 d hb.2)
    · rfl
  unfold State.beside
  simp only [hrecs]
  rfl

theorem State.setTabN_beside (h : farWord o) (s : State) (m : Nat) : (s.setTabN o m).beside c = s.beside c := s.setTabw_beside (fun _ => h) _

theorem State.tbump_beside (h : farWord o) (s : State) (m : Nat) : (s.tbump o m).beside c = s.beside c := s.setTabw_beside (fun _ => h) _

theorem State.report_beside {e stage col : Nat} (he : c < 512 → e < 512) (hw : 40 + 3 * stage + col < 64) (s : State) (m : Nat) :
    (s.report e stage col m).beside c = s.beside c :=
  s.setTabw_beside (fun hc d hd => by have := he hc; unfold oCtx oRec; omega) _

theorem State.each_beside {α : Type} {f : State → α → State} {l : List α} (h : ∀ u, ∀ e ∈ l, (f u e).beside c = u.beside c) (s : State) :
    (s.each l f).beside c = s.beside c :=
  State.each_induct (P := fun z => z.beside c = s.beside c) (fun u e he hu => (h u e he).trans hu) rfl

theorem State.ite_beside {q : Prop} [Decidable q] (hy : y.beside c = s.beside c) (hz : z.beside c = s.beside c) :
    (if q then y else z).beside c = s.beside c := by
  split
  · exact hy
  · exact hz

@[simp] theorem State.setMslot_beside (s : State) (i : Nat) (m : MSlot) : (s.setMslot i m).beside c = s.beside c := rfl
@[simp] theorem State.setTout_beside (s : State) (n : Nat) (m : Tout) : (s.setTout n m).beside c = s.beside c := rfl
@[simp] theorem State.setCor_beside (s : State) (n : Nat) (m : Cor) : (s.setCor n m).beside c = s.beside c := rfl
@[simp] theorem State.setHdef_beside (s : State) (n : Nat) (m : HDef) : (s.setHdef n m).beside c = s.beside c := rfl
@[simp] theorem State.setHctx_beside (s : State) (n : Nat) (m : HCtx) : (s.setHctx n m).beside c = s.beside c := rfl
@[simp] theorem State.setHeng_beside (s : State) (n : Nat) (m : HEng) : (s.setHeng n m).beside c = s.beside c := rfl
@[simp] theorem State.setPlane_beside (s : State) (n : Nat) (m : Plane) : (s.setPlane n m).beside c = s.beside c := rfl
@[simp] theorem State.hand_beside (s : State) (n : Nat) (m : Msg) : (s.hand n m).beside c = s.beside c := rfl
@[simp] theorem State.winStale_beside (s : State) (i : Nat) (stat : Bool) : (s.winStale i stat).beside c = s.beside c := rfl
@[simp] theorem State.casSend_beside (s : State) (h l : List Nat) : (s.casSend h l).beside c = s.beside c := rfl
@[simp] theorem State.takeSpare_beside (s : State) (die : Nat) : (s.takeSpare die).beside c = s.beside c := rfl

theorem farPage_sMeas : farPage sMeas := ⟨by decide, by decide⟩
theorem farPage_sCtx : farPage sCtx := ⟨by decide, by decide⟩
theorem farPage_sCas : farPage sCas := ⟨by decide, by decide⟩
theorem farPage_sCor (die : Nat) : farPage (sCor die) := ⟨by unfold sCor sSeq; omega, by unfold sCor sAcq; omega⟩
theorem farPage_sHst (die : Nat) : farPage (sHst die) := ⟨by unfold sHst sSeq; omega, by unfold sHst sAcq; omega⟩
theorem farPage_sBin (n : Nat) : farPage (sBin n) := ⟨by unfold sBin sSeq; omega, by unfold sBin sAcq; omega⟩
theorem farPage_sTout (n : Nat) : farPage (sTout n) := ⟨by unfold sTout sSeq; omega, by unfold sTout sAcq; omega⟩

theorem farWord_oMeas (i : Nat) : farWord (oMeas i 17) := fun d _ => by unfold oMeas oRec; omega
theorem farWord_oCor (c k : Nat) : farWord (oCor c k) := fun d hd => by unfold oCor oRec; omega
theorem farWord_oBlk (c k : Nat) : farWord (oBlk c k) := fun d hd => by unfold oBlk oRec; omega
theorem farWord_oHctx (c k : Nat) : farWord (oHctx c k) := fun d hd => by unfold oHctx oRec; omega

/-! ### Measurement slots -/

theorem State.mRequest_beside (s : State) (i : Nat) : (s.mRequest i).beside c = s.beside c := rfl

theorem State.laneUsed_beside (s : State) (i : Nat) (l : List Stamp) : (s.laneUsed i l).beside c = s.beside c :=
  State.ite_beside rfl (State.report_beside (fun _ => s.mOwner_lt i) (by decide) s _)

theorem State.measOpen_beside (s : State) (i : Nat) (p : Int) (flags : Nat) (late : Bool) : (s.measOpen i p flags late).beside c = s.beside c :=
  (State.laneUsed_beside _ _ _).trans (State.setMslot_beside _ _ _)

theorem State.measClose_beside (s : State) (i : Nat) (p : Int) (flags : Nat) (limit stopped : Bool) :
    (s.measClose i p flags limit stopped).beside c = s.beside c := by
  unfold State.measClose
  dsimp only
  split
  · refine State.ite_beside ?_ ((State.mRequest_beside _ _).trans ?_)
    all_goals exact (State.setTabN_beside (farWord_oMeas i) _ _).trans (State.setMslot_beside _ _ _)
  · rfl

theorem State.condResult_beside (s : State) (i : Nat) (stat : Bool) (p : Int) (t : Nat) : (s.condResult i stat p t).beside c = s.beside c :=
  State.ite_beside rfl rfl

theorem State.measSend_beside (s : State) (i : Nat) (body : List Byte) : (s.measSend i body).beside c = s.beside c := State.ite_beside rfl rfl

theorem State.publishStat_beside (s : State) (i : Nat) (trunc : Bool) : (s.publishStat i trunc).beside c = s.beside c := by
  unfold State.publishStat
  dsimp only
  split
  · rfl
  · rw [State.condResult_beside, State.evt_beside farPage_sMeas, State.measSend_beside, State.winStale_beside, State.setMslot_beside]

theorem State.endStatBlock_beside (s : State) (i : Nat) : (s.endStatBlock i).beside c = s.beside c := by
  unfold State.endStatBlock
  dsimp only
  split
  · rfl
  · exact s.publishStat_beside i true

theorem State.measAbandon_beside (s : State) (i : Nat) : (s.measAbandon i).beside c = s.beside c := by
  unfold State.measAbandon
  dsimp only
  split
  · exact State.ite_beside ((State.endStatBlock_beside _ _).trans (State.setMslot_beside _ _ _)) (State.setMslot_beside _ _ _)
  · rfl

/-- The close that a timed gate has reached. -/
def State.timerClosed (s : State) (i : Nat) : State :=
  match (s.mslot i).gate with
  | some g => if g.closeP ≤ s.phys then s.measClose i g.closeP 0 false false else s
  | none => s

theorem State.timerClosed_beside (s : State) (i : Nat) : (s.timerClosed i).beside c = s.beside c := by
  unfold State.timerClosed
  split
  · exact State.ite_beside (s.measClose_beside _ _ _ _ _) rfl
  · rfl

theorem State.timerEdge_beside (s : State) (i : Nat) : (s.timerEdge i).beside c = s.beside c := by
  have hclosed := s.timerClosed_beside (c := c) i
  unfold State.timerEdge
  dsimp only
  refine State.ite_beside ?_ rfl
  split
  · exact State.ite_beside ((State.setMslot_beside _ _ _).trans ((State.measOpen_beside _ _ _ _ _).trans hclosed)) hclosed
  · exact hclosed

theorem State.measSlotStop_beside (s : State) (i : Nat) (byStop : Bool) : (s.measSlotStop i byStop).beside c = s.beside c := by
  have hedge := s.timerEdge_beside (c := c) i
  unfold State.measSlotStop
  dsimp only
  generalize s.timerEdge i = y at hedge ⊢
  have hleft : (if ((y.mslot i).gate.bind (·.sol)).isSome = true then y.measAbandon i else y).beside c = s.beside c :=
    State.ite_beside ((y.measAbandon_beside i).trans hedge) hedge
  generalize (if ((y.mslot i).gate.bind (·.sol)).isSome = true then y.measAbandon i else y) = z at hleft ⊢
  rw [State.endStatBlock_beside, State.setMslot_beside]
  exact State.ite_beside ((z.measClose_beside _ _ _ _ _).trans hleft) hleft

theorem State.measCtxStop_beside (s : State) (d : Nat) (byStop : Bool) : (s.measCtxStop d byStop).beside c = s.beside c :=
  State.each_beside (fun u i _ => u.measSlotStop_beside i byStop) s

/-! ### Timing outputs -/

theorem State.toutFlush_beside (s : State) (n : Nat) (way : Bool) (which : Place → Bool) : (s.toutFlush n way which).beside c = s.beside c := by
  have hcount (m : Tout) (k : Nat) : (((s.setTout n m).bump64 (sTout n) 0x06C k).evt (sTout n) 4).beside c = s.beside c := by
    rw [State.evt_beside (farPage_sTout n), State.bump64_beside (farPage_sTout n) (by decide), State.setTout_beside]
  unfold State.toutFlush
  dsimp only
  exact State.ite_beside rfl (State.ite_beside ((State.evt_beside (farPage_sTout n) _ _).trans (hcount _ _)) (hcount _ _))

theorem State.toutMove_beside (s : State) (n : Nat) (high gate trunc : Bool) : (s.toutMove n high gate trunc).beside c = s.beside c := by
  unfold State.toutMove
  dsimp only
  exact State.ite_beside (State.setTout_beside _ _ _) (State.setTout_beside _ _ _)

theorem State.toutIdle_beside (s : State) (n : Nat) : (s.toutIdle n).beside c = s.beside c := State.ite_beside rfl (s.toutMove_beside _ _ _ _)

theorem State.toutCtxStop_beside (s : State) (d : Nat) : (s.toutCtxStop d).beside c = s.beside c :=
  State.each_beside (fun u n _ => (State.toutIdle_beside _ n).trans (u.toutFlush_beside n true _)) s

/-! ### The correlator -/

theorem State.hvLost_beside (s : State) (c : Nat) : (s.hvLost c).beside c = s.beside c := by
  unfold State.hvLost
  rw [State.report_beside id (by decide), State.evt_beside (farPage_sCor 0), State.bump64_beside (farPage_sCor 0) (by decide),
    State.tbump_beside (farWord_oCor c 6)]

theorem State.ladClose_beside (s : State) (c : Nat) (stopped trunc : Bool) : (s.ladClose c stopped trunc).beside c = s.beside c := by
  unfold State.ladClose
  dsimp only
  split
  · refine State.ite_beside ?_ ((State.hvLost_beside _ c).trans ?_)
    all_goals exact (State.setCor_beside _ _ _).trans (State.setTabN_beside (farWord_oCor c 7) _ _)
  · rfl

theorem State.corGroup_beside (s : State) (d : Nat) : (s.corGroup d).beside c = s.beside c :=
  (State.each_beside (fun _ _ _ => State.bump64_beside (farPage_sCor _) (by decide) _ _) _).trans (State.setCor_beside _ _ _)

/-- The ladder of a context after one more Harvest: closed by the stop or the new grid, or at its height. -/
def State.ladCounted (s : State) (c : Nat) (stopped grid trunc : Bool) : State :=
  match (s.cor c).ladder with
  | some l =>
    let l1 := { l with count := l.count + 1 }
    let s3 := s.setCor c { s.cor c with ladder := some l1 }
    if l1.bins = 0 then s3
    else if stopped || grid then s3.ladClose c stopped (trunc || decide (l1.count < s3.ladLh c))
    else if l1.count = s3.ladLh c then s3.ladClose c false trunc
    else s3
  | none => s

theorem State.ladCounted_beside (s : State) (c : Nat) (stopped grid trunc : Bool) : (s.ladCounted c stopped grid trunc).beside c = s.beside c := by
  unfold State.ladCounted
  split
  · next l _ =>
    dsimp only
    have hset : (s.setCor c { s.cor c with ladder := some { l with count := l.count + 1 } }).beside c = s.beside c := State.setCor_beside _ _ _
    generalize s.setCor c { s.cor c with ladder := some { l with count := l.count + 1 } } = y at hset ⊢
    exact State.ite_beside hset (State.ite_beside ((y.ladClose_beside c _ _).trans hset)
      (State.ite_beside ((y.ladClose_beside c _ _).trans hset) hset))
  · rfl

theorem State.corClose_beside (s : State) (c : Nat) (stopped grid : Bool) : (s.corClose c stopped grid).beside c = s.beside c := by
  have hgroup := s.corGroup_beside (c := c) c
  unfold State.corClose
  dsimp only
  generalize s.corGroup c = v at hgroup ⊢
  split
  · next h _ =>
    refine (State.ladCounted_beside _ c stopped grid _).trans ?_
    have hnum (m : Nat) : (v.setTabN (oCor c 5) m).beside c = s.beside c := (State.setTabN_beside (farWord_oCor c 5) v m).trans hgroup
    exact State.ite_beside ((State.setCor_beside _ _ _).trans (hnum _))
      ((State.hvLost_beside _ c).trans ((State.setCor_beside _ _ _).trans (hnum _)))
  · exact hgroup

theorem State.retireTiles_beside (s : State) (d : Nat) : (s.retireTiles d).beside c = s.beside c := by
  refine (State.each_beside (fun u die _ => ?_) _).trans (State.setCor_beside _ _ _)
  unfold State.retireTile
  split
  · exact u.takeSpare_beside die
  · exact (State.evt_beside (farPage_sCor die) _ _).trans (State.setRegN_beside (farPage_sCor die) (by decide) _ _)

theorem State.corRelease_beside (s : State) (d : Nat) : (s.corRelease d).beside c = s.beside c :=
  State.ite_beside ((State.setTabN_beside (farWord_oCor d 4) _ _).trans (State.setCor_beside _ _ _)) rfl

theorem State.blkPartial_beside (s : State) (d : Nat) : (s.blkPartial d).beside c = s.beside c := by
  unfold State.blkPartial
  dsimp only
  split <;> rfl

theorem State.judgeBlk_beside (s : State) (d : Nat) (k : SigBlock) : (s.judgeBlk d k).beside c = s.beside c :=
  State.ite_beside (State.setCor_beside _ _ _) ((State.evt_beside farPage_sCas _ _).trans
    ((State.tbump_beside (farWord_oBlk d 1) _ _).trans (State.setCor_beside _ _ _)))

theorem State.judgeNext_beside (s : State) (d : Nat) (force : Bool) : (s.judgeNext d force).beside c = s.beside c := by
  unfold State.judgeNext
  split
  · exact State.ite_beside (s.judgeBlk_beside d _) rfl
  · rfl

theorem State.signalBlock_beside (s : State) (d : Nat) : (s.signalBlock d).beside c = s.beside c := by
  unfold State.signalBlock
  dsimp only
  split
  · refine (State.each_beside (fun u _ _ => u.judgeNext_beside d false) _).trans (State.ite_beside ?_ (State.setCor_beside _ _ _))
    exact (State.bump64_beside farPage_sCas (by decide) _ _).trans ((State.casSend_beside _ _ _).trans (State.setCor_beside _ _ _))
  · rfl

theorem State.blkDone_beside (s : State) (c : Nat) (stopped : Bool) : (s.blkDone c stopped).beside c = s.beside c := by
  unfold State.blkDone
  dsimp only
  split
  · refine State.ite_beside (State.setCor_beside _ _ _) ((State.report_beside id (by decide) _ _).trans (State.ite_beside ?_ ?_))
    · exact (State.evt_beside (farPage_sCor 0) _ _).trans ((State.hand_beside _ _ _).trans (State.setCor_beside _ _ _))
    · exact (State.hand_beside _ _ _).trans (State.setCor_beside _ _ _)
  · rfl

theorem State.blkClose_beside (s : State) (c : Nat) (stopped : Bool) : (s.blkClose c stopped).beside c = s.beside c := by
  unfold State.blkClose
  dsimp only
  split
  · exact State.setCor_beside _ _ _
  · exact State.ite_beside (s.blkDone_beside c stopped) rfl

theorem State.blkStop_beside (s : State) (c : Nat) : (s.blkStop c).beside c = s.beside c := by
  unfold State.blkStop
  dsimp only
  rw [State.setCor_beside, State.blkClose_beside, State.each_beside fun u _ _ => u.judgeNext_beside c true,
    State.each_beside fun u _ _ => u.signalBlock_beside c, State.blkPartial_beside]

theorem State.corStop_beside (s : State) (c : Nat) : (s.corStop c).beside c = s.beside c := by
  have hclosed (z : State) (h : z.beside c = s.beside c) : (((z.retireTiles c).setCor c { (z.retireTiles c).cor c with closing := true }).corRelease c).beside c =
      s.beside c := (State.corRelease_beside _ c).trans ((State.setCor_beside _ _ _).trans ((z.retireTiles_beside c).trans h))
  exact State.ite_beside rfl (hclosed _ (State.ite_beside (s.corClose_beside c true false) (s.blkStop_beside c)))

/-! ### Histograms and planes -/

theorem State.snapBusy_beside (s : State) (d : Nat) : (s.snapBusy d).beside c = s.beside c :=
  State.each_beside (f := fun s die => s.evt (sHst die) 5) (fun u die _ => State.evt_beside (farPage_sHst die) u 5) s

theorem State.forceCut_beside (s : State) (d : Nat) (cause : CutCause) (tT : Nat) : (s.forceCut d cause tT).beside c = s.beside c :=
  State.ite_beside rfl (State.ite_beside (s.snapBusy_beside d) (State.setHctx_beside _ _ _))

theorem State.histRelease_beside (s : State) (d : Nat) : (s.histRelease d).beside c = s.beside c := by
  refine State.ite_beside ((State.setHctx_beside _ _ _).trans ?_) rfl
  rw [State.each_beside fun u die _ => u.setHeng_beside die _, State.each_beside fun u d _ => u.setHdef_beside d _]

theorem State.histCtxStop_beside (s : State) (d : Nat) : (s.histCtxStop d).beside c = s.beside c :=
  State.ite_beside ((State.histRelease_beside _ d).trans ((State.setHctx_beside _ _ _).trans (s.forceCut_beside d _ _))) rfl

theorem State.planeIdle_beside (s : State) (p : Nat) : (s.planeIdle p).beside c = s.beside c :=
  State.ite_beside ((State.evt_beside (farPage_sBin p) _ _).trans (State.setPlane_beside _ _ _)) rfl

end Sys2Proof.Machine
end

section
/-! What a stop and the settling after it make of a context (R259, R306, R308). -/

namespace Sys2Proof.Machine

variable {s x y z u v : State} {c d die i o w n slot off cause : Nat} {p : Int}

/-! ### What stands beside captures as well -/

/-- Contexts, the answer of the admission engine and the sequencer's page: what neither a stage nor a capture touches. -/
def State.aside (s : State) : List (Nat × Ctx) × Nat × (Nat → Word) := (s.ctxs, s.admRes, fun off => s.reg (ra sSeq (off % 0x400)))

theorem aside_of_beside (h : z.beside c = s.beside c) : z.aside = s.aside := by
  have hctxs := congrArg Beside.ctxs h
  have hadm := congrArg Beside.admRes h
  have hseq := congrArg Beside.seq h
  exact Prod.ext hctxs (Prod.ext hadm hseq)

theorem aside_of_regs (hctxs : z.ctxs = s.ctxs) (hadm : z.admRes = s.admRes)
    (hregs : ∀ off, off < 0x400 → z.reg (ra sSeq off) = s.reg (ra sSeq off)) : z.aside = s.aside :=
  Prod.ext hctxs (Prod.ext hadm (funext fun _ => hregs _ (Nat.mod_lt _ (by decide))))

theorem State.aside_reg (h : z.aside = s.aside) (hoff : off < 0x400) : z.reg (ra sSeq off) = s.reg (ra sSeq off) := by
  have hseq := congrFun (congrArg (fun a => a.2.2) h) off
  simpa only [State.aside, Nat.mod_eq_of_lt hoff] using hseq

theorem State.evt_aside (h : slot ≠ sSeq) (s : State) (b : Nat) : (s.evt slot b).aside = s.aside := by
  have hside := s.evt_side slot b
  refine aside_of_regs hside.ctxs ?_ fun off hoff => State.evt_reg_of_ne _ (by unfold ra; omega) (by unfold ra; omega)
  obtain ⟨_, _, _, _, _, hz⟩ := hside
  rw [hz]

theorem State.setReg_aside (h : slot ≠ sSeq) (hoff : off < 0x400) (s : State) (v : Word) : (s.setReg (ra slot off) v).aside = s.aside :=
  aside_of_regs rfl rfl fun j hj => State.setReg_reg_ne _ _ (by unfold ra; omega)

theorem State.bump64_aside (h : slot ≠ sSeq) (hoff : off < 0x3FC) (s : State) (m : Nat) : (s.bump64 slot off m).aside = s.aside :=
  (State.setReg_aside h (by omega) _ _).trans (State.setReg_aside h (by omega) _ _)

theorem State.setCap_aside (s : State) (n : Nat) (m : Cap) : (s.setCap n m).aside = s.aside := rfl

theorem State.setFree_aside (s : State) (n : Nat) : State.aside { s with freeCtr := n } = s.aside := rfl

theorem State.tbump_aside (s : State) (o m : Nat) : (s.tbump o m).aside = s.aside := rfl

theorem State.setTabN_aside (s : State) (o m : Nat) : (s.setTabN o m).aside = s.aside := rfl

theorem State.report_aside (s : State) (e stage col m : Nat) : (s.report e stage col m).aside = s.aside := rfl

theorem State.ite_aside {q : Prop} [Decidable q] (hy : y.aside = s.aside) (hz : z.aside = s.aside) : (if q then y else z).aside = s.aside := by
  split
  · exact hy
  · exact hz

theorem State.each_aside {α : Type} {f : State → α → State} {l : List α} (h : ∀ u e, (f u e).aside = u.aside) (s : State) : (s.each l f).aside = s.aside :=
  State.each_induct (P := fun z => z.aside = s.aside) (fun u e _ hu => (h u e).trans hu) rfl

/-! ### Captures -/

theorem State.capPut_aside (s : State) (c : Nat) (b : List Byte) : (s.capPut c b).aside = s.aside :=
  State.ite_aside rfl (State.ite_aside rfl rfl)

theorem State.capFull_aside (s : State) (c : Nat) : (s.capFull c).aside = s.aside := rfl

theorem State.capEndMsg_aside (s : State) (c : Nat) : (s.capEndMsg c).aside = s.aside := rfl

theorem State.capHand_aside (s : State) (c : Nat) : (s.capHand c).aside = s.aside := State.ite_aside rfl rfl

theorem State.recOpen_aside (s : State) (c : Nat) (start : Int) : (s.recOpen c start).aside = s.aside :=
  (State.capPut_aside _ c _).trans (State.setCap_aside _ _ _)

theorem State.capWrite_aside (s : State) (c time word : Nat) (count : Bool) : (s.capWrite c time word count).aside = s.aside := by
  unfold State.capWrite
  dsimp only
  have hoff : (if s.recDie c = 0 then 0x064 else 0x06C) < 0x3FC := by split <;> decide
  rw [State.bump64_aside (by decide) hoff, State.setCap_aside, State.capPut_aside]

theorem State.recClose_aside (s : State) (c : Nat) (ovf stopped : Bool) : (s.recClose c ovf stopped).aside = s.aside := by
  unfold State.recClose
  dsimp only
  split
  · next r _ =>
    rw [State.evt_aside (by decide), State.bump64_aside (by decide) (by decide), State.setTabN_aside, State.setCap_aside]
    refine State.ite_aside ((State.capHand_aside _ c).trans ?_) ((State.capEndMsg_aside _ c).trans ?_)
    all_goals exact (State.capPut_aside _ c _).trans (State.each_aside (fun u e => State.ite_aside
      ((State.setFree_aside _ _).trans (u.capPut_aside c _)) (u.capPut_aside c _)) s)
  · rfl

theorem State.recEnd_aside (s : State) (c : Nat) (stopped : Bool) : (s.recEnd c stopped).aside = s.aside :=
  State.ite_aside (s.capFull_aside c) (s.recClose_aside c false stopped)

theorem State.capFinish_aside (s : State) (c : Nat) : (s.capFinish c).aside = s.aside := by
  have hend := s.recEnd_aside c true
  exact State.ite_aside (State.ite_aside hend ((State.setCap_aside _ _ _).trans hend)) rfl

theorem State.capStop_aside (s : State) (c : Nat) : (s.capStop c).aside = s.aside :=
  State.ite_aside rfl ((State.capFinish_aside _ c).trans (State.setCap_aside _ _ _))

/-- A capture ended by overflow, before its area is emptied. -/
def State.capCrowded (s : State) (c : Nat) : State := (((s.tbump (oRec c 13) 1).bump64 sAcq 0x07C 1).evt sAcq 1).report c 7 2 1

theorem State.capCrowded_aside (s : State) (c : Nat) : (s.capCrowded c).aside = s.aside := by
  unfold State.capCrowded
  rw [State.report_aside, State.evt_aside (by decide), State.bump64_aside (by decide) (by decide), State.tbump_aside]

/-- The bytes that close a capture at its overflow, up to the record's end. -/
def State.capClosing (s : State) (c : Nat) : State :=
  let k := s.cap c
  let lost := (k.inq.map (·.n)).sum
  let s0 := s.setCap c { k with inq := [], full := false, ovf := true }
  let s1 := if k.rec'.isSome then s0 else s0.recOpen c s.phys
  let s2 := s1.capWrite c s.epoch (markerWord 0 2 0 lost) true
  let mark (s : State) (e : Int) (union items : Nat) : State :=
    s.capWrite c (s.stampTime e) (markerWord (union ||| fTRUNC) 1 4 items) false
  let s3 := match (s2.cap c).segs.find? (·.headed) with
    | some g =>
      let e := match g.tE with
        | some e => min e s.phys
        | none => s.phys
      let s3 := mark s2 e g.union g.items
      s3.setCap c { s3.cap c with rec' := (s3.cap c).rec'.map fun (r : Rec) => r.segEnd g e }
    | none => mark s2 s.phys 0 0
  s3.recClose c true false

theorem State.capOverflow_eq (s : State) (c : Nat) : s.capOverflow c =
    let y := (s.capClosing c).capCrowded c
    y.setCap c { used := (y.cap c).used, written := (y.cap c).written, ovf := true } := rfl

theorem State.capClosing_aside (s : State) (c : Nat) : (s.capClosing c).aside = s.aside := by
  have hopen : (if (s.cap c).rec'.isSome = true then s.setCap c { s.cap c with inq := [], full := false, ovf := true }
      else (s.setCap c { s.cap c with inq := [], full := false, ovf := true }).recOpen c s.phys).aside = s.aside :=
    State.ite_aside rfl ((State.recOpen_aside _ c _).trans (State.setCap_aside _ _ _))
  unfold State.capClosing
  dsimp only
  rw [State.recClose_aside]
  generalize (if (s.cap c).rec'.isSome = true then s.setCap c { s.cap c with inq := [], full := false, ovf := true }
      else (s.setCap c { s.cap c with inq := [], full := false, ovf := true }).recOpen c s.phys) = y at hopen ⊢
  split
  · exact (State.setCap_aside _ _ _).trans ((State.capWrite_aside _ c _ _ _).trans ((y.capWrite_aside c _ _ _).trans hopen))
  · exact (State.capWrite_aside _ c _ _ _).trans ((y.capWrite_aside c _ _ _).trans hopen)

theorem State.capOverflow_aside (s : State) (c : Nat) : (s.capOverflow c).aside = s.aside :=
  (State.setCap_aside _ _ _).trans ((State.capCrowded_aside _ c).trans (s.capClosing_aside c))

/-! ### The stop of a context (R259) -/

/-- What a stop makes of a context's own state. -/
def Ctx.stoppedBy (x : Ctx) (cause : Nat) : Ctx := { x with
  st := if cause = 3 then .stoppedOvf else .stopping
  cause := cause, thread := none, queued := false, retrig := false, urgent := none, autoAt := none
  holdUntil := none, holdLeft := 0, inSeq := false, latch := 0, disp := 0 }

/-- A context's stages as its stop leaves them. -/
def State.stagesStopped (s : State) (c cause : Nat) : State :=
  ((((s.measCtxStop c (decide (cause = 2))).toutCtxStop c).corStop c).histCtxStop c)

theorem State.stagesStopped_beside (s : State) (c cause : Nat) : (s.stagesStopped c cause).beside c = s.beside c := by
  unfold State.stagesStopped
  rw [State.histCtxStop_beside, State.corStop_beside, State.toutCtxStop_beside, State.measCtxStop_beside]

theorem State.ctxStop_running (h : (s.ctx c).st = .running) (cause : Nat) : s.ctxStop c cause =
    let s3 := s.stagesStopped c cause
    let s4 := if cause = 3 then s3 else s3.capStop c
    ((s4.setCtx c ((s4.ctx c).stoppedBy cause)).planeIdle (s.ctxPlane c)).evt sCtx 2 := if_pos h

theorem State.ctxStop_idle (h : (s.ctx c).st ≠ .running) (cause : Nat) : s.ctxStop c cause = s := if_neg h

theorem State.setCtx_aside (hx : x.aside = s.aside) (c : Nat) (k : Ctx) : (x.setCtx c k).aside = (s.setCtx c k).aside := by
  have hctxs : x.ctxs = s.ctxs := congrArg Prod.fst hx
  have hrest : x.aside.2 = s.aside.2 := congrArg Prod.snd hx
  exact Prod.ext (congrArg (fun m => Sparse.set ({} : Ctx) m c k) hctxs) hrest

/-- A stop changes the context's own state, and beside the stages and the capture nothing else. -/
theorem State.ctxStop_aside (h : (s.ctx c).st = .running) (cause : Nat) :
    (s.ctxStop c cause).aside = (s.setCtx c ((s.ctx c).stoppedBy cause)).aside := by
  have hstages : (s.stagesStopped c cause).aside = s.aside := aside_of_beside (s.stagesStopped_beside c cause)
  rw [State.ctxStop_running h]
  dsimp only
  generalize s.stagesStopped c cause = v at hstages ⊢
  have hcap : (if cause = 3 then v else v.capStop c).aside = s.aside := State.ite_aside hstages ((v.capStop_aside c).trans hstages)
  generalize (if cause = 3 then v else v.capStop c) = y at hcap ⊢
  have hctx : y.ctx c = s.ctx c := State.ctx_congr (congrArg Prod.fst hcap) c
  rw [State.evt_aside (by decide), aside_of_beside (State.planeIdle_beside (c := c) _ _), hctx]
  exact State.setCtx_aside hcap c _

/-- A stop by overflow leaves the captures, the page of acquisition and the overflow counts. -/
theorem State.ctxStop_overflow (h : (s.ctx c).st = .running) :
    (s.ctxStop c 3).beside c = (s.setCtx c ((s.ctx c).stoppedBy 3)).beside c := by
  have hstages := s.stagesStopped_beside c 3
  rw [State.ctxStop_running h]
  dsimp only
  rw [if_pos rfl, State.evt_beside farPage_sCtx, State.planeIdle_beside]
  generalize s.stagesStopped c 3 = y at hstages ⊢
  have hctxs : y.ctxs = s.ctxs := congrArg Beside.ctxs hstages
  have hctx : y.ctx c = s.ctx c := State.ctx_congr hctxs c
  have hset (v : State) (k : Ctx) : (v.setCtx c k).beside c = { v.beside c with ctxs := Sparse.set {} v.ctxs c k } := rfl
  rw [hset, hset, hstages, hctxs, hctx]

/-! ### Settling (R259, R270, R306) -/

/-- A context that does not run, after steps that may drain it. The admission engine and the sequencer's page stand. -/
structure Parked (c : Nat) (s z : State) : Prop where
  ctx : z.ctx c = s.ctx c ∨ ((s.ctx c).st = .stopping ∧ z.ctx c = { s.ctx c with st := .idle })
  admRes : z.admRes = s.admRes
  seq : ∀ off, off < 0x400 → z.reg (ra sSeq off) = s.reg (ra sSeq off)

theorem Parked.of_aside (h : z.aside = s.aside) : Parked c s z :=
  ⟨.inl (State.ctx_congr (congrArg Prod.fst h) c), congrArg (fun a => a.2.1) h, fun _ => State.aside_reg h⟩

theorem Parked.trans (h : Parked c s y) (g : Parked c y z) : Parked c s z where
  ctx := by
    rcases h.ctx with hy | ⟨hst, hy⟩ <;> rcases g.ctx with hz | ⟨hst', hz⟩
    · exact .inl (hz.trans hy)
    · rw [hy] at hst' hz
      exact .inr ⟨hst', hz⟩
    · exact .inr ⟨hst, hz.trans hy⟩
    · rw [hy] at hst'
      cases hst'
  admRes := g.admRes.trans h.admRes
  seq off ho := (g.seq off ho).trans (h.seq off ho)

theorem Parked.resting (h : Parked c s z) (hs : (s.ctx c).st ≠ .running) : (z.ctx c).st ≠ .running := by
  rcases h.ctx with hz | ⟨-, hz⟩
  · rw [hz]
    exact hs
  · rw [hz]
    exact nofun

/-- The stop of one context leaves another, and one that does not run. -/
theorem State.ctxStop_parked (h : (s.ctx c).st ≠ .running) (d cause : Nat) : Parked c s (s.ctxStop d cause) := by
  by_cases hrun : (s.ctx d).st = .running
  · have hne : d ≠ c := fun heq => h (heq ▸ hrun)
    have hstop := State.ctxStop_aside hrun cause
    have hctx : (s.ctxStop d cause).ctx c = s.ctx c :=
      (State.ctx_congr (z := s.ctxStop d cause) (s := s.setCtx d ((s.ctx d).stoppedBy cause)) (congrArg Prod.fst hstop) c).trans (State.setCtx_ne _ _ hne)
    exact ⟨.inl hctx, congrArg (fun a => a.2.1) hstop, fun _ ho => (State.aside_reg hstop ho).trans (State.setCtx_reg _ _ _ _)⟩
  · rw [State.ctxStop_idle hrun]
    exact .of_aside rfl

theorem State.drainBegun_aside (s : State) (c : Nat) : ((s.drainBegun c).drainCleared c).aside = s.aside := by
  unfold State.drainCleared
  rw [State.setTabN_aside, State.setTabN_aside, State.setTabN_aside]
  rfl

theorem State.ctxDrained_parked (s : State) (c d : Nat) : Parked c s (s.ctxDrained d) := by
  have hdrained := s.drainBegun_aside d
  rw [State.ctxDrained_eq]
  generalize (s.drainBegun d).drainCleared d = y at hdrained ⊢
  split
  · split
    · next hst =>
      have hset : (y.setCtx d { s.ctx d with st := .idle }).admRes = s.admRes := congrArg (fun a => a.2.1) hdrained
      have hseq : ∀ off, off < 0x400 → (y.setCtx d { s.ctx d with st := .idle }).reg (ra sSeq off) = s.reg (ra sSeq off) :=
        fun _ ho => (State.setCtx_reg _ _ _ _).trans (State.aside_reg hdrained ho)
      by_cases hne : d = c
      · subst hne
        exact ⟨.inr ⟨hst, State.setCtx_same _ _ _⟩, hset, hseq⟩
      · exact ⟨.inl ((State.setCtx_ne _ _ hne).trans (State.ctx_congr (congrArg Prod.fst hdrained) c)), hset, hseq⟩
    · exact .of_aside hdrained
  · exact .of_aside rfl

/-- Settling may drain a context that does not run, and does no more to it. -/
theorem State.settle_parked (h : (s.ctx c).st ≠ .running) : Parked c s s.settle := by
  unfold State.settle
  dsimp only
  have hover : Parked c s (s.each ((s.caps.filter fun e => e.2.full).map (·.1)) fun s c => (s.capOverflow c).ctxStop c 3) :=
    State.each_induct (P := Parked c s) (fun u d _ hu => by
      have hcap : Parked c u (u.capOverflow d) := .of_aside (u.capOverflow_aside d)
      exact (hu.trans hcap).trans (State.ctxStop_parked (hcap.resting (hu.resting h)) d 3)) (.of_aside rfl)
  exact State.each_induct (P := Parked c s) (fun u d _ hu => hu.trans (u.ctxDrained_parked c d)) hover

/-- A running context stopped and settled. -/
theorem State.ctxStop_settle (h : (s.ctx c).st = .running) (hcause : cause ≠ 3) :
    let z := (s.ctxStop c cause).settle
    (z.ctx c).cause = cause ∧ ((z.ctx c).st = .stopping ∨ (z.ctx c).st = .idle) ∧ (z.ctx c).thread = none ∧ z.admRes = s.admRes ∧
      ∀ off, off < 0x400 → z.reg (ra sSeq off) = s.reg (ra sSeq off) := by
  have hstop := State.ctxStop_aside h cause
  have hctx : (s.ctxStop c cause).ctx c = (s.ctx c).stoppedBy cause :=
    (State.ctx_congr (z := s.ctxStop c cause) (s := s.setCtx c ((s.ctx c).stoppedBy cause)) (congrArg Prod.fst hstop) c).trans (State.setCtx_same _ _ _)
  have hst : ((s.ctxStop c cause).ctx c).st = .stopping := by
    rw [hctx]
    exact if_neg hcause
  have hsettle := State.settle_parked (s := s.ctxStop c cause) (c := c) (by rw [hst]; exact nofun)
  have hadm : (s.ctxStop c cause).settle.admRes = s.admRes := hsettle.admRes.trans (congrArg (fun a => a.2.1) hstop)
  have hseq : ∀ off, off < 0x400 → (s.ctxStop c cause).settle.reg (ra sSeq off) = s.reg (ra sSeq off) :=
    fun off ho => (hsettle.seq off ho).trans ((State.aside_reg hstop ho).trans (State.setCtx_reg _ _ _ _))
  dsimp only
  rcases hsettle.ctx with hz | ⟨-, hz⟩
  · exact ⟨by rw [hz, hctx]; rfl, .inl (by rw [hz, hst]), by rw [hz, hctx]; rfl, hadm, hseq⟩
  · exact ⟨by rw [hz, hctx]; rfl, .inr (by rw [hz]), by rw [hz, hctx]; rfl, hadm, hseq⟩

end Sys2Proof.Machine
end

section
/-! Proofs about contexts: the commands of a context, admission, timers and hold-off (R258 to R264, R271). -/

namespace Sys2Proof.Machine

variable {s x y z u v : State} {t c d k n w o : Nat} {p : Path} {i : Instr}

/-! ### The context commands (R271) -/

/-- The word that `CTX.CMD` takes. -/
def ctxWord (op c : Nat) : Word := put op 16 2 ||| put c 0 9

theorem ctxWord_fields {op : Nat} (hop : op < 4) (c : Fin 512) : fld (ctxWord op c) 16 2 = op ∧ fld (ctxWord op c) 0 9 = c := by
  have hc := c.isLt
  have hput : put c 0 9 = BitVec.ofNat 32 c := BitVec.eq_of_toNat_eq (by
    rw [put, Nat.shiftLeft_zero, Nat.mod_eq_of_lt (show (c : Nat) < 2 ^ 9 from hc)])
  have hword : (ctxWord op c).toNat = op * 2 ^ 16 + c := by rw [ctxWord, hput, put_or_toNat (by omega) (by decide) (by omega)]
  simp only [fld, hword, Nat.shiftRight_eq_div_pow]
  omega

theorem State.ctxCmd_busy (h : s.adm ≠ none) (v : Word) : s.ctxCmd v = s.evt sCtx 3 := if_pos (Option.isSome_iff_ne_none.mpr h)

theorem State.ctxCmd_free (h : s.adm = none) : ¬s.adm.isSome = true := by
  rw [h]
  exact Bool.false_ne_true

/-- START names a context that may be admitted. -/
def State.ctxReady (s : State) (c : Nat) : Bool :=
  (decide ((s.ctx c).st = .idle) || (decide ((s.ctx c).st = .stoppedOvf) && !s.ctxOwes c)) && s.ctxBit c 31

theorem State.ctxCmd_start (h : s.adm = none) (c : Fin 512) : s.ctxCmd (ctxWord 1 c) =
    if s.ctxReady c then ({ s with adm := some c.val, admStop := s.stopOn } : State).setCtx c { s.ctx c with former := (s.ctx c).st, st := .admitting }
    else { s with adm := some c.val, admStop := s.stopOn } := by
  obtain ⟨hop, hc⟩ := ctxWord_fields (op := 1) (by decide) c
  unfold State.ctxCmd
  dsimp only
  rw [hop, hc]
  exact if_neg (State.ctxCmd_free h)

theorem State.ctxCmd_stop (h : s.adm = none) (c : Fin 512) : s.ctxCmd (ctxWord 2 c) =
    if (s.ctx c).st = .running then (({ s with admRes := 2 ^ 26 + c } : State).ctxStop c 1).settle else { s with admRes := 3 * 2 ^ 26 + c } := by
  obtain ⟨hop, hc⟩ := ctxWord_fields (op := 2) (by decide) c
  unfold State.ctxCmd
  dsimp only
  rw [hop, hc]
  exact if_neg (State.ctxCmd_free h)

theorem State.ctxCmd_poke (h : s.adm = none) (c : Fin 512) : s.ctxCmd (ctxWord 3 c) =
    if (s.ctx c).st = .running then (({ s with admRes := 2 ^ 26 + c } : State).ctxLatch c (2 ^ 27)).ctxWake c else { s with admRes := 3 * 2 ^ 26 + c } := by
  obtain ⟨hop, hc⟩ := ctxWord_fields (op := 3) (by decide) c
  unfold State.ctxCmd
  dsimp only
  rw [hop, hc]
  exact if_neg (State.ctxCmd_free h)

theorem contexts_commands (s : State) (t : Nat) (p : Path) (c : Fin 512) (hpow : s.Powered) (hreach : s.Reaches (ra sCtx 0x014))
    (hserved : s.served sCtx = true) :
    let u := s.advance t
    let x := s.ctx c
    (s.adm ≠ none → exec (.start t p c) s = .next (u.evt sCtx 3) ∧ exec (.stop t p c) s = .next (u.evt sCtx 3) ∧
      exec (.poke t p c) s = .next (u.evt sCtx 3)) ∧
    (s.adm = none →
      (s.ctxBit c 31 = true → x.st = .idle ∨ (x.st = .stoppedOvf ∧ s.ctxOwes c = false) →
        exec (.start t p c) s = .next
          (({ u with adm := some c.val, admStop := s.stopOn } : State).setCtx c { x with former := x.st, st := .admitting })) ∧
      (s.ctxBit c 31 = false ∨ x.st = .running ∨ x.st = .stopping ∨ (x.st = .stoppedOvf ∧ s.ctxOwes c = true) →
        exec (.start t p c) s = .next { u with adm := some c.val, admStop := s.stopOn }) ∧
      (x.st ≠ .running → exec (.stop t p c) s = .next { u with admRes := 3 * 2 ^ 26 + c } ∧
        exec (.poke t p c) s = .next { u with admRes := 3 * 2 ^ 26 + c }) ∧
      (x.st = .running → (Answers (.stop t p c) s fun s' =>
          (s'.ctx c).cause = 1 ∧ ((s'.ctx c).st = .stopping ∨ (s'.ctx c).st = .idle) ∧ s'.admRes = 2 ^ 26 + c) ∧
        (Answers (.poke t p c) s fun s' => (s'.ctx c).latch = x.latch ||| 2 ^ 27 ∧ (s'.ctx c).st = .running ∧
          s'.admRes = 2 ^ 26 + c ∧ s' = { u with admRes := s'.admRes, ctxs := s'.ctxs }))) := by
  intro u x
  have hwrite (op : Nat) : u.hostWrite p (ra sCtx 0x014) (ctxWord op c) true = u.ctxCmd (ctxWord op c) :=
    State.Reaches.hostWrite_wo (s := u) hreach hpow.1 hserved (by decide) (by decide) (r := ⟨.wo, _, _⟩) rfl rfl (q := ⟨.ctx, _, _, _, _, _⟩) rfl p _
  have hready : u.ctxReady c = true ↔ ((x.st = .idle ∨ (x.st = .stoppedOvf ∧ s.ctxOwes c = false)) ∧ s.ctxBit c 31 = true) := by
    unfold State.ctxReady
    rw [Bool.and_eq_true, Bool.or_eq_true, Bool.and_eq_true, decide_eq_true_iff, decide_eq_true_iff, Bool.not_eq_true']
    exact Iff.rfl
  refine ⟨fun hbusy => ?_, fun hfree => ⟨fun hen hst => ?_, fun hno => ?_, fun hidle => ?_, fun hrun => ?_⟩⟩
  · have hcmd (op : Nat) := (hwrite op).trans (State.ctxCmd_busy (s := u) hbusy _)
    exact ⟨next_of hpow (exec_start t p c s) (hcmd 1) (u.evt_side _ _).quiet, next_of hpow (exec_stop t p c s) (hcmd 2) (u.evt_side _ _).quiet,
      next_of hpow (exec_poke t p c s) (hcmd 3) (u.evt_side _ _).quiet⟩
  · exact next_of hpow (exec_start t p c s) ((hwrite 1).trans ((State.ctxCmd_start (s := u) hfree c).trans (if_pos (hready.mpr ⟨hst, hen⟩))))
      (by constructor <;> rfl)
  · refine next_of hpow (exec_start t p c s) ((hwrite 1).trans ((State.ctxCmd_start (s := u) hfree c).trans (if_neg fun hyes => ?_)))
      (by constructor <;> rfl)
    obtain ⟨hst, hen⟩ := hready.mp hyes
    rcases hno with h | h | h | ⟨h, howes⟩
    · exact Bool.false_ne_true (h.symm.trans hen)
    · rcases hst with hst | ⟨hst, -⟩ <;> cases h.symm.trans hst
    · rcases hst with hst | ⟨hst, -⟩ <;> cases h.symm.trans hst
    · rcases hst with hst | ⟨-, hst⟩
      · cases h.symm.trans hst
      · cases howes.symm.trans hst
  · exact ⟨next_of hpow (exec_stop t p c s) ((hwrite 2).trans ((State.ctxCmd_stop (s := u) hfree c).trans (if_neg hidle))) (by constructor <;> rfl),
      next_of hpow (exec_poke t p c s) ((hwrite 3).trans ((State.ctxCmd_poke (s := u) hfree c).trans (if_neg hidle))) (by constructor <;> rfl)⟩
  · refine ⟨answers_of_wrapped hpow (exec_stop t p c s) fun l => ?_, ?_⟩
    · have hstop := (hwrite 2).trans ((State.ctxCmd_stop (s := u) hfree c).trans (if_pos hrun))
      obtain ⟨hcause, hst, -, hadm, -⟩ := State.ctxStop_settle (s := { u with admRes := 2 ^ 26 + c }) (c := c) (cause := 1) hrun (by decide)
      refine Eq.mpr (congrArg (fun z : State => ((z.wrapped s (max s.now t) l).ctx c).cause = 1 ∧
        (((z.wrapped s (max s.now t) l).ctx c).st = .stopping ∨ ((z.wrapped s (max s.now t) l).ctx c).st = .idle) ∧
        (z.wrapped s (max s.now t) l).admRes = 2 ^ 26 + c) hstop) ?_
      exact ⟨hcause, hst, hadm⟩
    · have hpoke := (hwrite 3).trans ((State.ctxCmd_poke (s := u) hfree c).trans (if_pos hrun))
      have hlatch := State.ctxLatch_ctx { u with admRes := 2 ^ 26 + c } c (2 ^ 27)
      have hside : CtxSide { u with admRes := 2 ^ 26 + c } (State.ctxLatch { u with admRes := 2 ^ 26 + c } c (2 ^ 27)) := ⟨_, rfl⟩
      generalize State.ctxLatch { u with admRes := 2 ^ 26 + c } c (2 ^ 27) = y at hpoke hlatch hside
      obtain ⟨m, hm⟩ := hside.trans (y.ctxWake_ctxSide c)
      obtain ⟨w, l, q, hwake⟩ := y.ctxWake_ctx c
      have hquiet : Quiet u { u with admRes := 2 ^ 26 + c } := by constructor <;> rfl
      refine answers_of hpow (exec_poke t p c s) hpoke (hquiet.trans (hside.trans (y.ctxWake_ctxSide c)).quiet) ⟨?_, ?_, ?_, ?_⟩
      · rw [hwake, hlatch]
        rfl
      · rw [hwake, hlatch]
        exact hrun
      · rw [hm]
      · rw [hm]

/-! ### Timers and hold-off (R262, R264) -/

/-- A timer of a context reaches 0. -/
theorem State.timerExpire_due {e : Nat} (h : (s.ctx c).timers[k]? = some (.until e)) : s.timerExpire c k =
    if e ≤ s.now then (s.setCtx c { s.ctx c with timers := (s.ctx c).timers.set k .expired }).ctxWake c else s := by
  unfold State.timerExpire
  dsimp only
  split
  · next e' he =>
    cases h.symm.trans he
    rfl
  · next he => cases h.symm.trans he
  · next he => cases h.symm.trans he
  · next he => cases h.symm.trans he

theorem State.timerExpire_other (h : ∀ e, (s.ctx c).timers[k]? ≠ some (.until e)) : s.timerExpire c k = s := by
  unfold State.timerExpire
  dsimp only
  split
  · next e he => exact absurd he (h e)
  · rfl
  · rfl
  · rfl

theorem State.holdoffExpire_none (h : (s.ctx c).holdUntil = none) : s.holdoffExpire c = s := by
  unfold State.holdoffExpire
  dsimp only
  split
  · next he => cases h.symm.trans he
  · rfl

/-- The hold-off time of a context ends. -/
theorem State.holdoffExpire_some {e : Nat} (h : (s.ctx c).holdUntil = some e) : s.holdoffExpire c =
    if e ≤ s.now then ((s.setCtx c { s.ctx c with holdUntil := none }).tryAuto c).ctxWake c else s := by
  unfold State.holdoffExpire
  dsimp only
  split
  · next he =>
    cases h.symm.trans he
    rfl
  · next he => cases h.symm.trans he

theorem State.tryAuto_ctxWake_side (s : State) (c : Nat) : CtxSide s ((s.tryAuto c).ctxWake c) :=
  (s.tryAuto_ctxSide c).trans (State.ctxWake_ctxSide _ c)

theorem State.tryAuto_ctxWake_ctx (s : State) (c : Nat) : ∃ a w l q, ((s.tryAuto c).ctxWake c).ctx c =
    { s.ctx c with autoAt := a, seen := w, vlog := l, queued := q } := by
  obtain ⟨a, hauto⟩ := s.tryAuto_ctx c
  obtain ⟨w, l, q, hwake⟩ := (s.tryAuto c).ctxWake_ctx c
  exact ⟨a, w, l, q, by rw [hwake, hauto]⟩

theorem contexts_timers (s : State) (t : Nat) (c : Fin 512) (k : Fin 4) (hpow : s.Powered) :
    let u := s.advance t
    let x := s.ctx c
    (∀ e, x.timers[k.val]? = some (.until e) →
      (max s.now t < e → exec (.timerExpire t c k) s = .next u) ∧
      (e ≤ max s.now t → Answers (.timerExpire t c k) s fun s' =>
        (s'.ctx c).timers = x.timers.set k .expired ∧ s' = { u with ctxs := s'.ctxs })) ∧
    ((∀ e, x.timers[k.val]? ≠ some (.until e)) → exec (.timerExpire t c k) s = .next u) ∧
    (x.holdUntil = none → exec (.holdoffExpire t c) s = .next u) ∧
    (∀ e, x.holdUntil = some e →
      (max s.now t < e → exec (.holdoffExpire t c) s = .next u) ∧
      (e ≤ max s.now t → Answers (.holdoffExpire t c) s fun s' =>
        (s'.ctx c).holdUntil = none ∧ (s'.ctx c).holdLeft = x.holdLeft ∧ s' = { u with ctxs := s'.ctxs })) := by
  intro u x
  refine ⟨fun e he => ⟨fun hlt => ?_, fun hle => ?_⟩, fun hno => ?_, fun hnone => ?_, fun e he => ⟨fun hlt => ?_, fun hle => ?_⟩⟩
  · exact next_of hpow (exec_timerExpire t c k s) ((State.timerExpire_due (s := u) he).trans (if_neg (Nat.not_le.mpr hlt))) (Quiet.refl _)
  · have hset := State.setCtx_same u c { x with timers := x.timers.set k .expired }
    have hside : CtxSide u (u.setCtx c { x with timers := x.timers.set k .expired }) := ⟨_, rfl⟩
    have hx := (State.timerExpire_due (s := u) he).trans (if_pos hle)
    refine answers_of hpow (exec_timerExpire t c k s) hx (hside.trans (State.ctxWake_ctxSide _ c)).quiet ?_
    obtain ⟨w, l, q, hwake⟩ := State.ctxWake_ctx (u.setCtx c { x with timers := x.timers.set k .expired }) c
    obtain ⟨m, hm⟩ := hside.trans (State.ctxWake_ctxSide _ c)
    refine ⟨?_, ?_⟩
    · exact (congrArg Ctx.timers hwake).trans (congrArg Ctx.timers hset)
    · exact hm.trans (congrArg (fun l => { u with ctxs := l }) (congrArg State.ctxs hm).symm)
  · exact next_of hpow (exec_timerExpire t c k s) (State.timerExpire_other (s := u) hno) (Quiet.refl _)
  · exact next_of hpow (exec_holdoffExpire t c s) (State.holdoffExpire_none (s := u) hnone) (Quiet.refl _)
  · exact next_of hpow (exec_holdoffExpire t c s) ((State.holdoffExpire_some (s := u) he).trans (if_neg (Nat.not_le.mpr hlt))) (Quiet.refl _)
  · have hset := State.setCtx_same u c { x with holdUntil := none }
    have hside : CtxSide u (u.setCtx c { x with holdUntil := none }) := ⟨_, rfl⟩
    have hx := (State.holdoffExpire_some (s := u) he).trans (if_pos hle)
    have hwake := hside.trans (State.tryAuto_ctxWake_side (u.setCtx c { x with holdUntil := none }) c)
    obtain ⟨a, w, l, q, hctx⟩ := State.tryAuto_ctxWake_ctx (u.setCtx c { x with holdUntil := none }) c
    refine answers_of hpow (exec_holdoffExpire t c s) hx hwake.quiet ⟨?_, ?_, ?_⟩
    · exact (congrArg Ctx.holdUntil hctx).trans (congrArg Ctx.holdUntil hset)
    · have hleft := congrArg Ctx.holdLeft hset
      exact (congrArg Ctx.holdLeft hctx).trans hleft
    · obtain ⟨m, hm⟩ := hwake
      exact hm.trans (congrArg (fun l => { u with ctxs := l }) (congrArg State.ctxs hm).symm)

end Sys2Proof.Machine
end

section
/-! Proofs about admission: what a refused and an accepted START leave (R258 to R260). -/

namespace Sys2Proof.Machine

variable {s x y z u v : State} {t c d k n w o : Nat} {p : Path} {i : Instr}

/-! ### What stands while a context begins -/

/-- The parts of a state that a starting context's stages may not touch but at their own entries. -/
structure Onset where
  caps : List (Nat × Cap)
  boot : Boot
  adm : Option Nat
  admRes : Nat
  ctxs : List (Nat × Ctx)
  cors : List (Nat × Cor)
  meas : List (Nat × MSlot)
  words : Nat → Word

/-- A word of a context's entry, or of a record's or a later table before those of the correlator. -/
def heldWord (o : Nat) : Prop := o < 0x2_0000 ∨ (0x6_0000 ≤ o ∧ o < 0x20_0000)

theorem heldWord_ctx (hc : c < 512) (hw : w < 64) : heldWord (oCtx c w) := .inl (by unfold oCtx; omega)

def State.onset (s : State) : Onset where
  caps := s.caps
  boot := s.boot
  adm := s.adm
  admRes := s.admRes
  ctxs := s.ctxs
  cors := s.cors
  meas := s.meas
  words o := if o < 0x2_0000 ∨ (0x6_0000 ≤ o ∧ o < 0x20_0000) then s.tabw o else 0

theorem onset_fields (h : z.onset = s.onset) : z.caps = s.caps ∧ z.boot = s.boot ∧ z.adm = s.adm ∧ z.admRes = s.admRes ∧ z.ctxs = s.ctxs ∧
    z.cors = s.cors ∧ z.meas = s.meas := by
  obtain ⟨hcaps, hboot, hadm, hres, hctxs, hcors, hmeas, -⟩ := Onset.mk.inj h
  exact ⟨hcaps, hboot, hadm, hres, hctxs, hcors, hmeas⟩

theorem State.onset_word (h : z.onset.words = s.onset.words) (ho : heldWord o) : z.tabw o = s.tabw o := by
  have hword := congrFun h o
  simpa only [State.onset, if_pos (show o < 0x2_0000 ∨ (0x6_0000 ≤ o ∧ o < 0x20_0000) from ho)] using hword

theorem Side.onset (h : Side s z) : z.onset = s.onset := by
  obtain ⟨_, _, _, _, _, rfl⟩ := h
  rfl

theorem State.setTabN_onset (h : ¬heldWord o) (s : State) (m : Nat) : (s.setTabN o m).onset = s.onset := by
  have hwords (j : Nat) : (if j < 0x2_0000 ∨ (0x6_0000 ≤ j ∧ j < 0x20_0000) then (s.setTabN o m).tabw j else 0) =
      if j < 0x2_0000 ∨ (0x6_0000 ≤ j ∧ j < 0x20_0000) then s.tabw j else 0 := by
    split
    · next hj => exact State.setTabw_tabw_ne _ _ fun heq => h (heq ▸ hj)
    · rfl
  unfold State.onset
  simp only [hwords]
  rfl

theorem State.each_onset {α : Type} {f : State → α → State} {l : List α} (h : ∀ u, ∀ e ∈ l, (f u e).onset = u.onset) (s : State) :
    (s.each l f).onset = s.onset :=
  State.each_induct (P := fun z => z.onset = s.onset) (fun u e he hu => (h u e he).trans hu) rfl

theorem State.ite_onset {q : Prop} [Decidable q] (hy : y.onset = s.onset) (hz : z.onset = s.onset) : (if q then y else z).onset = s.onset := by
  split
  · exact hy
  · exact hz

theorem State.setPlane_onset (s : State) (n : Nat) (m : Plane) : (s.setPlane n m).onset = s.onset := rfl

theorem State.setTout_onset (s : State) (n : Nat) (m : Tout) : (s.setTout n m).onset = s.onset := rfl

theorem State.setHdef_onset (s : State) (n : Nat) (m : HDef) : (s.setHdef n m).onset = s.onset := rfl

theorem State.setHctx_onset (s : State) (n : Nat) (m : HCtx) : (s.setHctx n m).onset = s.onset := rfl

theorem State.setCor_onset (s : State) (c : Nat) (m : Cor) : (s.setCor c m).onset = { s.onset with cors := (s.setCor c m).cors } := rfl

theorem State.setMslot_onset (s : State) (j : Nat) (m : MSlot) : (s.setMslot j m).onset = { s.onset with meas := (s.setMslot j m).meas } := rfl

theorem not_heldWord_high (h : 0x20_0000 ≤ o) : ¬heldWord o := by
  unfold heldWord
  omega

/-! ### Pages and planes -/

theorem State.takePages_onset (s : State) (c : Nat) (p : Plan) : (s.takePages c p).onset = s.onset := by
  unfold State.takePages
  dsimp only
  refine (State.each_onset (fun u k _ => ?_) _).trans rfl
  have hpeak := u.peak_side (sMem k) 0x020 (8128 - u.pagesFree k)
  exact State.ite_onset (hpeak.trans (State.evt_side _ _ _)).onset hpeak.onset

theorem State.planeStart_onset (s : State) (c : Nat) : (s.planeStart c).onset = s.onset :=
  State.ite_onset ((State.evt_side _ _ _).onset.trans (State.setPlane_onset _ _ _)) rfl

/-! ### The correlator -/

/-- The status words of a context's correlator cleared. -/
def State.corCleared (s : State) (c : Nat) : State :=
  s.each ([oCor c 4, oCor c 5, oCor c 6, oCor c 7, oBlk c 1, oBlk c 2, oBlk c 3] ++ (s.ladEntries c).map fun e => oLad e.1 2) fun s off => s.setTabN off 0

theorem State.corCleared_onset (s : State) (c : Nat) : (s.corCleared c).onset = s.onset := by
  refine State.each_onset (fun u o ho => State.setTabN_onset (not_heldWord_high ?_) u 0) s
  rcases List.mem_append.mp ho with ho | ho
  · simp only [List.mem_cons, List.not_mem_nil, or_false] at ho
    unfold oCor oBlk at ho
    omega
  · obtain ⟨e, -, rfl⟩ := List.mem_map.mp ho
    unfold oLad
    omega

theorem State.corStart_idle {p : Plan} (h : p.run = 0) : s.corStart c p = s.corCleared c := if_pos h

/-- The correlator of a context begins: it shows its slices, and a blocked one its tile and block. -/
theorem State.corStart_busy {p : Plan} (h : p.run ≠ 0) : ∃ (y : State) (k : Cor), s.corStart c p = y.setCor c k ∧ k.run = p.run ∧ y.onset = s.onset := by
  refine ⟨_, _, if_neg h, rfl, ?_⟩
  have hslices := (State.setTabN_onset (o := oCor c 4) (not_heldWord_high (by unfold oCor; omega)) (s.corCleared c) (p.slices * 2 ^ 16 + p.run)).trans
    (s.corCleared_onset c)
  exact State.ite_onset ((State.setTabN_onset (not_heldWord_high (by unfold oBlk; omega)) _ _).trans hslices) hslices

theorem State.corStart_spec (s : State) (c : Nat) (p : Plan) :
    (s.corStart c p).onset = { s.onset with cors := (s.corStart c p).cors } ∧
    ((s.corStart c p).cor c).run = if p.run = 0 then (s.cor c).run else p.run := by
  by_cases h : p.run = 0
  · have hclear := s.corCleared_onset c
    rw [State.corStart_idle h, if_pos h]
    generalize s.corCleared c = y at hclear ⊢
    have hcors : y.cors = s.cors := congrArg Onset.cors hclear
    exact ⟨by rw [hclear, hcors]; rfl, congrArg (fun m => (Sparse.get ({} : Cor) m c).run) hcors⟩
  · obtain ⟨y, k, hx, hrun, hy⟩ := State.corStart_busy (s := s) (c := c) h
    rw [hx, if_neg h, State.setCor_onset, hy]
    exact ⟨rfl, by rw [State.setCor_same]; exact hrun⟩

/-! ### Measurement slots -/

theorem State.mRequest_armed (s : State) (j : Nat) : ((s.mRequest j).mslot j).armed = (s.mslot j).armed := by
  unfold State.mRequest
  dsimp only
  rw [State.setMslot_same]
  split <;> rfl

theorem State.mRequest_mslot_ne {j l : Nat} (h : j ≠ l) (s : State) : (s.mRequest j).mslot l = s.mslot l := State.setMslot_ne _ _ h

/-- A rearmed slot. -/
theorem State.measRearm_spec (s : State) (j : Nat) : (s.measRearm j).onset = { s.onset with meas := (s.measRearm j).meas } ∧
    ((s.measRearm j).mslot j).armed = true ∧ ∀ l, l ≠ j → (s.measRearm j).mslot l = s.mslot l := by
  unfold State.measRearm
  dsimp only
  split
  · exact ⟨rfl, by rw [State.setMslot_same], fun l hl => State.setMslot_ne _ _ (Ne.symm hl)⟩
  · refine ⟨rfl, ?_, fun l hl => (State.mRequest_mslot_ne (Ne.symm hl) _).trans (State.setMslot_ne _ _ (Ne.symm hl))⟩
    rw [State.mRequest_armed, State.setMslot_same]

theorem State.measArm_spec {j : Nat} (hj : j < 1024) (s : State) : (s.measArm j).onset = { s.onset with meas := (s.measArm j).meas } ∧
    ((s.measArm j).mslot j).armed = true ∧ ∀ l, l ≠ j → (s.measArm j).mslot l = s.mslot l := by
  have hclear : (s.each (List.range 8) fun s k => s.setTabN (oMeas j (17 + k)) 0).onset = s.onset :=
    State.each_onset (fun u k hk => State.setTabN_onset (by have := List.mem_range.mp hk; unfold heldWord oMeas; omega) u 0) s
  unfold State.measArm
  dsimp only
  generalize (s.each (List.range 8) fun s k => s.setTabN (oMeas j (17 + k)) 0) = y at hclear ⊢
  obtain ⟨hon, harm, hother⟩ := (y.setMslot j { y.mslot j with sseq := 0 }).measRearm_spec j
  have hmeas : y.meas = s.meas := congrArg Onset.meas hclear
  refine ⟨?_, harm, fun l hl => ((hother l hl).trans (State.setMslot_ne _ _ (Ne.symm hl))).trans (congrArg (fun m => Sparse.get ({} : MSlot) m l) hmeas)⟩
  rw [hon, State.setMslot_onset, hclear]

/-- Every slot of a list below 1,024 is armed. -/
theorem State.measArm_each {l : List Nat} (hl : ∀ j ∈ l, j < 1024) (s : State) :
    (s.each l State.measArm).onset = { s.onset with meas := (s.each l State.measArm).meas } ∧ ∀ j ∈ l, ((s.each l State.measArm).mslot j).armed = true := by
  suffices h : (s.each l State.measArm).onset = { s.onset with meas := (s.each l State.measArm).meas } ∧
      (∀ j, j ∈ l ∨ (s.mslot j).armed = true → ((s.each l State.measArm).mslot j).armed = true) from ⟨h.1, fun j hj => h.2 j (.inl hj)⟩
  induction l generalizing s with
  | nil => exact ⟨rfl, fun j hj => hj.resolve_left List.not_mem_nil⟩
  | cons e l ih =>
    obtain ⟨hon, harm, hother⟩ := State.measArm_spec (hl e List.mem_cons_self) s
    obtain ⟨hrest, hall⟩ := ih (fun j hj => hl j (List.mem_cons_of_mem _ hj)) (s.measArm e)
    rw [State.each_cons]
    refine ⟨hrest.trans (congrArg (fun v : Onset => { v with meas := ((s.measArm e).each l State.measArm).meas }) hon), fun j hj => hall j ?_⟩
    by_cases he : j = e
    · rw [he]
      exact .inr harm
    · rw [hother j he]
      exact hj.imp_left fun hin => (List.mem_cons.mp hin).resolve_left he

/-! ### Histograms and captures -/

theorem State.histBegin_onset (s : State) (c n : Nat) : (s.histBegin c n).onset = s.onset := by
  have hclear : (s.histClear c).onset = s.onset := by
    refine State.each_onset (fun u o ho => State.setTabN_onset (not_heldWord_high ?_) u 0) s
    rcases List.mem_append.mp ho with ho | ho
    · obtain ⟨d, -, hd⟩ := List.mem_flatMap.mp ho
      obtain ⟨k, -, rfl⟩ := List.mem_map.mp hd
      unfold oHdef
      omega
    · obtain ⟨k, -, rfl⟩ := List.mem_map.mp ho
      unfold oHctx
      omega
  unfold State.histBegin
  dsimp only
  generalize s.histClear c = y at hclear ⊢
  split
  · rw [State.setHctx_onset, State.setTabN_onset (not_heldWord_high (by unfold oHctx; omega)),
      State.setTabN_onset (not_heldWord_high (by unfold oHctx; omega)),
      State.each_onset fun u e _ => State.setTabN_onset (not_heldWord_high (by unfold oHdef; omega)) u _,
      State.each_onset fun u d _ => u.setHdef_onset d _, hclear]
  · exact hclear

/-- Where a context records nothing its capture only clears its counts. -/
theorem State.capStart_disabled (h : s.recEn c = false) : (∃ m, s.capStart c = { s with tab := m }) ∧
    ∀ o, o < 0x6_0000 → (s.capStart c).tabw o = s.tabw o := by
  have hx : s.capStart c = ((s.setTabN (oRec c 13) 0).setTabN (oRec c 14) 0).setTabN (oRec c 15) 0 := if_neg (by rw [h]; exact Bool.false_ne_true)
  rw [hx]
  refine ⟨?_, fun o ho => ?_⟩
  · obtain ⟨m, hm⟩ := s.setTabN_eq (oRec c 13) 0
    rw [hm]
    obtain ⟨n, hn⟩ := State.setTabN_eq { s with tab := m } (oRec c 14) 0
    rw [hn]
    exact State.setTabN_eq { s with tab := n } (oRec c 15) 0
  · rw [State.setTabN, State.setTabw_tabw_ne _ _ (by unfold oRec; omega), State.setTabN, State.setTabw_tabw_ne _ _ (by unfold oRec; omega),
      State.setTabN, State.setTabw_tabw_ne _ _ (by unfold oRec; omega)]

/-! ### An admitted context begins (R259) -/

/-- A context's state as it enters RUNNING. -/
def State.ctxFresh (s : State) (c : Nat) : Ctx := {
  st := .running, cause := (s.ctx c).cause, urgent := if s.ctxBit c 30 then s.urgentFree else none, bound := s.boundOk c
  timers := (List.range 4).map fun k => .stopped (s.tload c k) }

/-- The status words of a context's entry cleared. -/
def State.ctxCleared (s : State) (c : Nat) : State :=
  (s.each (List.range 6) fun s k => s.setTabN (oCtx c (33 + k)) 0).each (List.range 24) fun s k => s.setTabN (oCtx c (40 + k)) 0

/-- The pages, the plane and the beams of a context begin. -/
def State.ctxPaged (s : State) (c : Nat) (p : Plan) : State :=
  let s4 := (s.takePages c p).planeStart c
  s4.each (s4.beamsOf c) fun s b => s.setTabN (oBeam b 1) 0

/-- The outputs of a context no longer hold its number. -/
def State.outsFreed (s : State) (c : Nat) : State :=
  s.each ((List.range 32).filter fun n => s.ownsOut c n) fun s n => s.setTout n { s.tout n with seqHeld := false }

theorem State.ctxPaged_onset (s : State) (c : Nat) (p : Plan) : (s.ctxPaged c p).onset = s.onset := by
  unfold State.ctxPaged
  dsimp only
  rw [State.each_onset fun u b _ => State.setTabN_onset (not_heldWord_high (by unfold oBeam; omega)) u 0, State.planeStart_onset,
    State.takePages_onset]

theorem State.outsFreed_onset (s : State) (c : Nat) : (s.outsFreed c).onset = s.onset :=
  State.each_onset (fun u n _ => u.setTout_onset n _) s

/-! ### The slots of a context -/

theorem Sparse.filter_del {α : Type} {q : Nat × α → Bool} {a : Nat} (h : ∀ e, q (a, e) = false) (m : List (Nat × α)) :
    (Sparse.del a m).filter q = m.filter q := by
  induction m with
  | nil => rfl
  | cons e m ih =>
    obtain ⟨k, e⟩ := e
    by_cases hk : k = a
    · rw [Sparse.del, if_pos hk, ih, List.filter_cons_of_neg (by rw [hk, h]; exact Bool.false_ne_true)]
    · rw [Sparse.del, if_neg hk, List.filter_cons, List.filter_cons, ih]

theorem Sparse.filter_ins {α : Type} {q : Nat × α → Bool} {a : Nat} (h : ∀ e, q (a, e) = false) (e : α) (m : List (Nat × α)) :
    (Sparse.ins a e m).filter q = m.filter q := by
  have hskip (l : List (Nat × α)) : ((a, e) :: l).filter q = l.filter q := List.filter_cons_of_neg (by rw [h]; exact Bool.false_ne_true)
  induction m with
  | nil => exact hskip []
  | cons b m ih =>
    obtain ⟨k, b⟩ := b
    by_cases hk : a < k
    · rw [Sparse.ins, if_pos hk, hskip]
    · rw [Sparse.ins, if_neg hk, List.filter_cons, List.filter_cons, ih]

/-- A write at a key that a selection passes over leaves the selection. -/
theorem Sparse.filter_set {α : Type} [DecidableEq α] {q : Nat × α → Bool} {a : Nat} (h : ∀ e, q (a, e) = false) (b e : α) (m : List (Nat × α)) :
    (Sparse.set b m a e).filter q = m.filter q := by
  unfold Sparse.set
  split
  · exact Sparse.filter_del h m
  · rw [Sparse.filter_ins h, Sparse.filter_del h]

theorem State.slotsOf_congr (h : z.tab = s.tab) (c : Nat) : z.slotsOf c = s.slotsOf c := by
  unfold State.slotsOf State.entries
  rw [h]

/-- A write outside the slots' table leaves the slots of every context. -/
theorem State.slotsOf_setTabN (h : o < 0x4_0000 ∨ 0x6_0000 ≤ o) (s : State) (m c : Nat) : (s.setTabN o m).slotsOf c = s.slotsOf c := by
  have hkey : ∀ e : Word, (decide (0x4_0000 ≤ (o, e).1) && decide ((o, e).1 < 0x4_0000 + 0x2_0000) &&
      decide (((o, e).1 - 0x4_0000) % 128 = 0)) = false := by
    intro e
    rw [Bool.and_eq_false_iff, Bool.and_eq_false_iff, decide_eq_false_iff_not, decide_eq_false_iff_not]
    omega
  have hfilter := Sparse.filter_set (q := fun e : Nat × Word => decide (0x4_0000 ≤ e.1) && decide (e.1 < 0x4_0000 + 0x2_0000) &&
    decide ((e.1 - 0x4_0000) % 128 = 0)) hkey (tabReset o) (BitVec.ofNat 32 m) s.tab
  exact congrArg (fun l => ((l.map fun e : Nat × Word => ((e.1 - 0x4_0000) / 128, e.2)).filter fun e =>
    bit e.2 0 && decide (fld e.2 19 9 = c)).map (·.1)) hfilter

theorem State.slotsOf_lt {j : Nat} (h : j ∈ s.slotsOf c) : j < 1024 := by
  obtain ⟨e, he, rfl⟩ := List.mem_map.mp h
  obtain ⟨hin, -⟩ := List.mem_filter.mp he
  obtain ⟨b, hb, rfl⟩ := List.mem_map.mp hin
  obtain ⟨-, hkey⟩ := List.mem_filter.mp hb
  rw [Bool.and_eq_true, Bool.and_eq_true, decide_eq_true_iff, decide_eq_true_iff] at hkey
  obtain ⟨⟨-, hlt⟩, -⟩ := hkey
  dsimp only [oMeas] at hlt ⊢
  omega

theorem State.each_slotsOf {α : Type} {f : State → α → State} {l : List α} (h : ∀ u, ∀ e ∈ l, (f u e).slotsOf c = u.slotsOf c) (s : State) :
    (s.each l f).slotsOf c = s.slotsOf c :=
  State.each_induct (P := fun z => z.slotsOf c = s.slotsOf c) (fun u e he hu => (h u e he).trans hu) rfl

theorem State.ctxCleared_slotsOf (hc : c < 512) (s : State) : (s.ctxCleared c).slotsOf d = s.slotsOf d := by
  unfold State.ctxCleared
  rw [State.each_slotsOf fun u k hk => State.slotsOf_setTabN (.inl (by have := List.mem_range.mp hk; unfold oCtx; omega)) u 0 d,
    State.each_slotsOf fun u k hk => State.slotsOf_setTabN (.inl (by have := List.mem_range.mp hk; unfold oCtx; omega)) u 0 d]

theorem State.takePages_tab (s : State) (c : Nat) (p : Plan) : (s.takePages c p).tab = s.tab := by
  unfold State.takePages
  dsimp only
  refine State.each_induct (P := fun z => z.tab = s.tab) (fun u k _ hu => Eq.trans ?_ hu) rfl
  have hpeak := u.peak_side (sMem k) 0x020 (8128 - u.pagesFree k)
  split
  · exact (hpeak.trans (State.evt_side _ _ _)).tab
  · exact hpeak.tab

theorem State.planeStart_tab (s : State) (c : Nat) : (s.planeStart c).tab = s.tab := by
  unfold State.planeStart
  dsimp only
  split
  · exact (State.evt_side _ _ _).tab
  · rfl

theorem State.ctxPaged_slotsOf (s : State) (c : Nat) (p : Plan) : (s.ctxPaged c p).slotsOf d = s.slotsOf d := by
  unfold State.ctxPaged
  dsimp only
  rw [State.each_slotsOf fun u b _ => State.slotsOf_setTabN (.inr (by unfold oBeam; omega)) u 0 d,
    State.slotsOf_congr (State.planeStart_tab _ _), State.slotsOf_congr (State.takePages_tab _ _ _)]

/-! ### The whole of a start -/

/-- What a context's status words read after they were cleared. -/
theorem State.ctxCleared_word (hk : k < 6) (s : State) (c : Nat) : (s.ctxCleared c).tabw (oCtx c (33 + k)) = 0 := by
  have hkeep (u : State) : (u.each (List.range 24) fun s k => s.setTabN (oCtx c (40 + k)) 0).tabw (oCtx c (33 + k)) = u.tabw (oCtx c (33 + k)) :=
    State.each_induct (P := fun z => z.tabw (oCtx c (33 + k)) = u.tabw (oCtx c (33 + k)))
      (fun z j _ hz => (State.setTabw_tabw_ne _ _ (by unfold oCtx; omega)).trans hz) rfl
  unfold State.ctxCleared
  rw [hkeep]
  refine State.each_all (P := fun z k => z.tabw (oCtx c (33 + k)) = 0) (n := k) (fun u j => State.setTabw_tabw_same _ _ _)
    (fun u j l hne hu => (State.setTabw_tabw_ne _ _ (by unfold oCtx; omega)).trans hu) (.inl (List.mem_range.mpr hk))

/-- What the clearing of the status words leaves. -/
theorem State.ctxCleared_frame (s : State) (c : Nat) : ∃ m, s.ctxCleared c = { s with tab := m } := by
  have hone (u : State) (l : List Nat) (w : Nat) : ∃ m, (u.each l fun s k => s.setTabN (oCtx c (w + k)) 0) = { u with tab := m } := by
    refine State.each_induct (P := fun z => ∃ m, z = { u with tab := m }) (fun z j _ hz => ?_) ⟨_, rfl⟩
    obtain ⟨m, rfl⟩ := hz
    exact ⟨_, rfl⟩
  obtain ⟨m, hm⟩ := hone s (List.range 6) 33
  obtain ⟨m', hm'⟩ := hone (s.each (List.range 6) fun s k => s.setTabN (oCtx c (33 + k)) 0) (List.range 24) 40
  refine ⟨m', hm'.trans ?_⟩
  rw [hm]

theorem State.ctxCleared_recEn (hc : c < 512) (s : State) : (s.ctxCleared c).tabw (oRec c 0) = s.tabw (oRec c 0) := by
  have hone (u : State) (l : List Nat) (w : Nat) (hl : ∀ k ∈ l, w + k < 64) :
      (u.each l fun s k => s.setTabN (oCtx c (w + k)) 0).tabw (oRec c 0) = u.tabw (oRec c 0) :=
    State.each_induct (P := fun z => z.tabw (oRec c 0) = u.tabw (oRec c 0))
      (fun z j hj hz => (State.setTabw_tabw_ne _ _ (by have := hl j hj; unfold oCtx oRec; omega)).trans hz) rfl
  unfold State.ctxCleared
  rw [hone _ _ 40 fun k hk => by have := List.mem_range.mp hk; omega, hone _ _ 33 fun k hk => by have := List.mem_range.mp hk; omega]

/-- The stages of a context that has entered RUNNING. -/
def State.ctxStaged (s : State) (c : Nat) (p : Plan) : State :=
  let s5 := s.ctxPaged c p
  (((((s5.corStart c p).each (s5.slotsOf c) State.measArm).histBegin c p.hist).capStart c)).outsFreed c

/-- What the stages of a context that records nothing leave and begin. -/
theorem State.ctxStaged_spec (hc : c < 512) (hrec : s.recEn c = false) (p : Plan) :
    let z := s.ctxStaged c p
    (z.caps = s.caps ∧ z.boot = s.boot ∧ z.adm = s.adm ∧ z.admRes = s.admRes ∧ z.ctxs = s.ctxs) ∧ (∀ w, w < 64 → z.tabw (oCtx c w) = s.tabw (oCtx c w)) ∧
    (z.cor c).run = (if p.run = 0 then (s.cor c).run else p.run) ∧ (∀ j ∈ s.slotsOf c, (z.mslot j).armed = true) := by
  have hpaged := s.ctxPaged_onset c p
  have hslots := s.ctxPaged_slotsOf (d := c) c p
  have hcors : (s.ctxPaged c p).cors = s.cors := congrArg Onset.cors hpaged
  unfold State.ctxStaged
  dsimp only
  rw [hslots]
  generalize s.ctxPaged c p = s5 at hpaged hcors ⊢
  obtain ⟨hcor, hrun⟩ := s5.corStart_spec c p
  rw [show s5.cor c = s.cor c from congrArg (fun m => Sparse.get ({} : Cor) m c) hcors] at hrun
  rw [hpaged] at hcor
  generalize s5.corStart c p = s6 at hcor hrun ⊢
  obtain ⟨harms, harmed⟩ := State.measArm_each (l := s.slotsOf c) (fun j hj => State.slotsOf_lt hj) s6
  rw [hcor] at harms
  generalize s6.each (s.slotsOf c) State.measArm = s7 at harms harmed ⊢
  have hhist := (s7.histBegin_onset c p.hist).trans harms
  have hmeas : (s7.histBegin c p.hist).meas = s7.meas := congrArg Onset.meas (s7.histBegin_onset c p.hist)
  generalize s7.histBegin c p.hist = s8 at hhist hmeas ⊢
  have hstand : s8.caps = s.caps ∧ s8.boot = s.boot ∧ s8.adm = s.adm ∧ s8.admRes = s.admRes ∧ s8.ctxs = s.ctxs :=
    ⟨congrArg Onset.caps hhist, congrArg Onset.boot hhist, congrArg Onset.adm hhist, congrArg Onset.admRes hhist, congrArg Onset.ctxs hhist⟩
  have hcors8 : s8.cors = s6.cors := congrArg Onset.cors hhist
  have hwords8 : s8.onset.words = s.onset.words := by rw [hhist]
  have hheld (o : Nat) (ho : heldWord o) : s8.tabw o = s.tabw o := State.onset_word hwords8 ho
  have hdis : s8.recEn c = false := by
    have hword : s8.tabw (oRec c 0) = s.tabw (oRec c 0) := hheld _ (.inr (by unfold oRec; omega))
    rw [State.recEn, State.tbit, hword]
    exact hrec
  obtain ⟨⟨m, hcap⟩, hkeep⟩ := State.capStart_disabled hdis
  have hlow (w : Nat) (hw : w < 64) : (s8.capStart c).tabw (oCtx c w) = s.tabw (oCtx c w) :=
    (hkeep _ (by unfold oCtx; omega)).trans (hheld _ (heldWord_ctx hc hw))
  have hafter : (s8.capStart c).caps = s8.caps ∧ (s8.capStart c).boot = s8.boot ∧ (s8.capStart c).adm = s8.adm ∧
      (s8.capStart c).admRes = s8.admRes ∧ (s8.capStart c).ctxs = s8.ctxs ∧ (s8.capStart c).cors = s8.cors ∧ (s8.capStart c).meas = s8.meas := by
    rw [hcap]
    exact ⟨rfl, rfl, rfl, rfl, rfl, rfl, rfl⟩
  obtain ⟨hcaps, hboot, hadm, hres, hctxs, hcors9, hmeas9⟩ := hafter
  obtain ⟨kcaps, kboot, kadm, kres, kctxs⟩ := hstand
  have houts := (s8.capStart c).outsFreed_onset c
  generalize s8.capStart c = s9 at *
  generalize s9.outsFreed c = z at houts ⊢
  obtain ⟨gcaps, gboot, gadm, gres, gctxs, gcors, gmeas⟩ := onset_fields houts
  refine ⟨⟨by rw [gcaps, hcaps, kcaps], by rw [gboot, hboot, kboot], by rw [gadm, hadm, kadm], by rw [gres, hres, kres], by rw [gctxs, hctxs, kctxs]⟩,
    fun w hw => ?_, ?_, fun j hj => ?_⟩
  · exact (State.onset_word (congrArg Onset.words houts) (heldWord_ctx hc hw)).trans (hlow w hw)
  · rw [State.cor, gcors, hcors9, hcors8]
    exact hrun
  · rw [State.mslot, gmeas, hmeas9, hmeas]
    exact harmed j hj

/-- A begun context's vector noted, its start shown and its auto timer tried. -/
theorem State.ctxShown_spec (s : State) (c w : Nat) :
    let z := ((s.setCtx c { s.ctx c with seen := w }).evt sCtx 0).tryAuto c
    (z.caps = s.caps ∧ z.boot = s.boot ∧ z.adm = s.adm ∧ z.admRes = s.admRes ∧ z.tab = s.tab ∧ z.cors = s.cors ∧ z.meas = s.meas) ∧
    (∀ d, d ≠ c → z.ctx d = s.ctx d) ∧ (∃ a, z.ctx c = { s.ctx c with seen := w, autoAt := a }) ∧ bit (z.reg (ra sCtx 0x008)) 0 = true := by
  have hself := State.setCtx_same s c { s.ctx c with seen := w }
  have hother : ∀ d, d ≠ c → (s.setCtx c { s.ctx c with seen := w }).ctx d = s.ctx d := fun d hd => State.setCtx_ne _ _ (Ne.symm hd)
  obtain ⟨l, hl⟩ : ∃ l, s.setCtx c { s.ctx c with seen := w } = { s with ctxs := l } := ⟨_, rfl⟩
  dsimp only
  generalize s.setCtx c { s.ctx c with seen := w } = y at *
  have hside := y.evt_side sCtx 0
  have hbit : bit ((y.evt sCtx 0).reg (ra sCtx 0x008)) 0 = true := State.evt_bit _ (by decide)
  have hctxs := hside.ctxs
  generalize y.evt sCtx 0 = v at *
  obtain ⟨m, hm⟩ := v.tryAuto_ctxSide c
  obtain ⟨a, ha⟩ := v.tryAuto_ctx c
  have hrest : ∀ d, d ≠ c → (v.tryAuto c).ctx d = v.ctx d := (v.tryAuto_triggered c).others
  refine ⟨?_, fun d hd => ?_, ⟨a, ?_⟩, ?_⟩
  · obtain ⟨_, _, _, _, _, hv⟩ := hside
    rw [hm, hv, hl]
    exact ⟨rfl, rfl, rfl, rfl, rfl, rfl, rfl⟩
  · rw [hrest d hd, State.ctx_congr hctxs, hother d hd]
  · rw [ha, State.ctx_congr hctxs, hself]
  · rw [hm]
    exact hbit

/-- What an admitted context that records nothing leaves and begins (R259). -/
theorem State.ctxBegin_spec (hc : c < 512) (hrec : s.recEn c = false) (p : Plan) :
    let z := s.ctxBegin c p
    (z.caps = s.caps ∧ z.boot = s.boot ∧ z.adm = s.adm ∧ z.admRes = s.admRes) ∧ (∀ d, d ≠ c → z.ctx d = s.ctx d) ∧
    (∃ w a, z.ctx c = { s.ctxFresh c with seen := w, autoAt := a }) ∧ (∀ k, k < 6 → z.tabw (oCtx c (33 + k)) = 0) ∧
    (z.cor c).run = (if p.run = 0 then (s.cor c).run else p.run) ∧ (∀ j ∈ s.slotsOf c, (z.mslot j).armed = true) ∧
    bit (z.reg (ra sCtx 0x008)) 0 = true := by
  have hslots := State.ctxCleared_slotsOf (d := c) hc s
  have hwords : ∀ k, k < 6 → (s.ctxCleared c).tabw (oCtx c (33 + k)) = 0 := fun k hk => State.ctxCleared_word hk s c
  have hentry := State.ctxCleared_recEn hc s
  obtain ⟨m, hclear⟩ := s.ctxCleared_frame c
  have hx : s.ctxBegin c p = ((((((s.ctxCleared c).setCtx c (s.ctxFresh c)).ctxStaged c p).setCtx c
      { (((s.ctxCleared c).setCtx c (s.ctxFresh c)).ctxStaged c p).ctx c with
        seen := (((s.ctxCleared c).setCtx c (s.ctxFresh c)).ctxStaged c p).condVec c }).evt sCtx 0).tryAuto c) := rfl
  rw [hx]
  have hfields : (s.ctxCleared c).caps = s.caps ∧ (s.ctxCleared c).boot = s.boot ∧ (s.ctxCleared c).adm = s.adm ∧ (s.ctxCleared c).admRes = s.admRes ∧
      (s.ctxCleared c).ctxs = s.ctxs ∧ (s.ctxCleared c).cors = s.cors := by
    rw [hclear]
    exact ⟨rfl, rfl, rfl, rfl, rfl, rfl⟩
  obtain ⟨hcaps, hboot, hadm, hres, hctxs, hcors⟩ := hfields
  generalize s.ctxCleared c = y at hslots hwords hentry hcaps hboot hadm hres hctxs hcors ⊢
  have hyrec : (y.setCtx c (s.ctxFresh c)).recEn c = false := by
    rw [State.recEn, State.tbit, show (y.setCtx c (s.ctxFresh c)).tabw (oRec c 0) = y.tabw (oRec c 0) from rfl, hentry]
    exact hrec
  obtain ⟨⟨kcaps, kboot, kadm, kres, kctxs⟩, kwords, krun, karmed⟩ := State.ctxStaged_spec hc hyrec p
  have kslots : (y.setCtx c (s.ctxFresh c)).slotsOf c = y.slotsOf c := State.slotsOf_congr rfl c
  rw [kslots, hslots] at karmed
  have kstand : (y.setCtx c (s.ctxFresh c)).caps = y.caps ∧ (y.setCtx c (s.ctxFresh c)).boot = y.boot ∧ (y.setCtx c (s.ctxFresh c)).adm = y.adm ∧
      (y.setCtx c (s.ctxFresh c)).admRes = y.admRes := ⟨rfl, rfl, rfl, rfl⟩
  obtain ⟨gcaps, gboot, gadm, gres⟩ := kstand
  have hother : ∀ d, d ≠ c → (y.setCtx c (s.ctxFresh c)).ctx d = s.ctx d := fun d hd =>
    (State.setCtx_ne _ _ (Ne.symm hd)).trans (State.ctx_congr hctxs d)
  have hself := State.setCtx_same y c (s.ctxFresh c)
  have hcor : (y.setCtx c (s.ctxFresh c)).cor c = s.cor c := congrArg (fun m => Sparse.get ({} : Cor) m c) hcors
  have htab (w : Nat) : (y.setCtx c (s.ctxFresh c)).tabw (oCtx c w) = y.tabw (oCtx c w) := rfl
  generalize y.setCtx c (s.ctxFresh c) = v at *
  generalize v.ctxStaged c p = z at *
  obtain ⟨⟨zcaps, zboot, zadm, zres, ztab, zcors, zmeas⟩, zother, ⟨a, zself⟩, zbit⟩ := z.ctxShown_spec c (z.condVec c)
  refine ⟨⟨zcaps.trans (kcaps.trans (gcaps.trans hcaps)), zboot.trans (kboot.trans (gboot.trans hboot)), zadm.trans (kadm.trans (gadm.trans hadm)),
    zres.trans (kres.trans (gres.trans hres))⟩, fun d hd => ?_, ⟨z.condVec c, a, zself.trans ?_⟩, fun k hk => ?_, ?_, fun j hj => ?_, zbit⟩
  · rw [zother d hd, State.ctx_congr kctxs, hother d hd]
  · rw [State.ctx_congr kctxs, hself]
  · rw [State.tabw_congr ztab, kwords _ (by omega), htab, hwords k hk]
  · rw [State.cor, zcors]
    exact krun.trans (by rw [hcor])
  · rw [State.mslot, zmeas]
    exact karmed j hj

end Sys2Proof.Machine
end

section
/-! Proofs about ADMISSION_DONE (R260) and the obligation about contexts. -/

namespace Sys2Proof.Machine

variable {s x y z u v : State} {t c d k n w o code : Nat}

/-! ### The engine's end (R260) -/

theorem State.admissionDone_none (h : s.adm = none) : s.admissionDone = s := by
  unfold State.admissionDone
  split
  · next he => cases h.symm.trans he
  · rfl

theorem State.admissionDone_unready (h : s.adm = some c) (hst : (s.ctx c).st ≠ .admitting) : s.admissionDone = s.ctxRefuse c 1 := by
  unfold State.admissionDone
  split
  · next he =>
    cases h.symm.trans he
    exact if_pos hst
  · next he => cases h.symm.trans he

/-- What ADMISSION_DONE makes of a context in ADMITTING. -/
theorem State.admissionDone_ready (h : s.adm = some c) (hst : (s.ctx c).st = .admitting) : s.admissionDone =
    if (s.admission c).1 = 22 then
      (if s.pagesFree 1 < (s.admission c).2.pagesB then (if s.pagesFree 0 < (s.admission c).2.pagesA then s.evt (sMem 0) 1 else s).evt (sMem 1) 1
        else if s.pagesFree 0 < (s.admission c).2.pagesA then s.evt (sMem 0) 1 else s).ctxRefuse c (s.admission c).1
    else if (s.admission c).1 ≠ 0 then s.ctxRefuse c (s.admission c).1
    else ({ s with adm := none, admStop := false, admRes := 2 ^ 26 + (s.admission c).2.run * 2 ^ 9 + c } : State).ctxBegin c (s.admission c).2 := by
  unfold State.admissionDone
  split
  · next he =>
    cases h.symm.trans he
    exact if_neg (not_not.mpr hst)
  · next he => cases h.symm.trans he

/-! ### A refused START -/

/-- The refusal, before it is told and recorded. -/
def State.ctxDenied (s : State) (c code : Nat) : State :=
  { s.setCtx c { s.ctx c with st := if (s.ctx c).st = .admitting then (s.ctx c).former else (s.ctx c).st, reason := code } with
    adm := none, admStop := false, admRes := 2 * 2 ^ 26 + code * 2 ^ 16 + c }

theorem State.ctxRefuse_eq (s : State) (c code : Nat) : s.ctxRefuse c code =
    (((s.ctxDenied c code).bump64 sCtx 0x024 1).evt sCtx 1).bbrHost 13 sCtx [c, code] := rfl

theorem State.ctxRefuse_side (s : State) (c code : Nat) : Side (s.ctxDenied c code) (s.ctxRefuse c code) := by
  rw [State.ctxRefuse_eq]
  exact ((State.bump64_side _ _ _ _).trans (State.evt_side _ _ _)).trans (State.bbrHost_side _ _ _ _)

/-- A refusal counts and is told. -/
theorem State.ctxRefuse_told (s : State) (c code : Nat) : (s.ctxRefuse c code).reg64 sCtx 0x024 = min (s.reg64 sCtx 0x024 + 1) (2 ^ 64 - 1) ∧
    bit ((s.ctxRefuse c code).reg (ra sCtx 0x008)) 1 = true := by
  have hregs : (s.ctxDenied c code).regs = s.regs := rfl
  have hcount := State.reg64_bump64 (s.ctxDenied c code) sCtx 0x024 1
  rw [State.reg64_congr hregs] at hcount
  rw [State.ctxRefuse_eq]
  generalize (s.ctxDenied c code).bump64 sCtx 0x024 1 = y at hcount ⊢
  have hreg (off : Nat) (ho : off < 0x400) : ((y.evt sCtx 1).bbrHost 13 sCtx [c, code]).reg (ra sCtx off) = (y.evt sCtx 1).reg (ra sCtx off) :=
    State.bbrHost_reg_page _ _ _ (by rw [ra_div sCtx off ho]; decide)
  refine ⟨?_, ?_⟩
  · have hpair : ((y.evt sCtx 1).bbrHost 13 sCtx [c, code]).reg64 sCtx 0x024 = (y.evt sCtx 1).reg64 sCtx 0x024 := by
      rw [State.reg64, hreg _ (by decide), hreg _ (by decide), State.reg64]
    rw [hpair, State.evt_reg64_of_ne _ _ _ (by decide) (by decide) (by decide) (by decide), hcount]
  · rw [hreg _ (by decide)]
    exact State.evt_bit _ (by decide)

/-- A refused context, where it comes back to rest: nothing is allocated, and nothing overflows or drains. -/
theorem contexts_refused {s : State} {c : Fin 512} (hpow : s.Powered) (hset : s.Settled) (hstarts : s.boot.starts = []) (hw : Side (s.advance t) v)
    (hreg : v.reg64 sCtx 0x024 = s.reg64 sCtx 0x024) (hdone : (s.advance t).admissionDone = v.ctxRefuse c code)
    (hrest : (s.ctx c).st = .admitting → (s.ctx c).former = .idle) :
    Answers (.admissionDone t) s fun s' =>
      s'.adm = none ∧ s'.admRes = 2 * 2 ^ 26 + code * 2 ^ 16 + c ∧ (s'.ctx c).reason = code ∧
      (s'.ctx c).st = (if (s.ctx c).st = .admitting then (s.ctx c).former else (s.ctx c).st) ∧
      s'.reg64 sCtx 0x024 = min (s.reg64 sCtx 0x024 + 1) (2 ^ 64 - 1) ∧ bit (s'.reg (ra sCtx 0x008)) 1 = true ∧
      s'.pagesHeld = s.pagesHeld ∧ s'.cors = s.cors ∧ s'.meas = s.meas ∧ s'.tab = s.tab := by
  obtain ⟨hcount, hbit⟩ := v.ctxRefuse_told c code
  rw [hreg] at hcount
  have hvctx : v.ctx = s.ctx := funext fun d => State.ctx_congr (s := s) (z := v) (hw.ctxs.trans rfl) d
  have hdenied : (v.ctxDenied c code).ctx c = { s.ctx c with
      st := if (s.ctx c).st = .admitting then (s.ctx c).former else (s.ctx c).st, reason := code } := by
    rw [← hvctx]
    exact State.setCtx_same _ _ _
  have hother : ∀ d, d ≠ c.val → (v.ctxDenied c code).ctx d = s.ctx d := fun d hd =>
    (State.setCtx_ne _ _ (Ne.symm hd)).trans (congrFun hvctx d)
  have hquiet : Quiet v (v.ctxDenied c code) := by constructor <;> rfl
  have hfields : (v.ctxDenied c code).caps = s.caps ∧ (v.ctxDenied c code).boot = s.boot ∧ (v.ctxDenied c code).pagesHeld = s.pagesHeld ∧
      (v.ctxDenied c code).cors = s.cors ∧ (v.ctxDenied c code).meas = s.meas ∧ (v.ctxDenied c code).tab = s.tab := by
    obtain ⟨_, _, _, _, _, hv⟩ := hw
    rw [hv]
    exact ⟨rfl, rfl, rfl, rfl, rfl, rfl⟩
  have hadm : (v.ctxDenied c code).adm = none ∧ (v.ctxDenied c code).admRes = 2 * 2 ^ 26 + code * 2 ^ 16 + c := ⟨rfl, rfl⟩
  have hside := v.ctxRefuse_side c code
  generalize v.ctxRefuse c code = z at *
  generalize v.ctxDenied c code = y at *
  obtain ⟨hcaps, hboot, hpages, hcors, hmeas, htab⟩ := hfields
  have hst : (y.ctx c).st = if (s.ctx c).st = .admitting then (s.ctx c).former else (s.ctx c).st := by rw [hdenied]
  have hsettled : y.Settled := by
    refine ⟨by rw [hcaps]; exact hset.1, fun d => ?_⟩
    by_cases hd : d = c.val
    · rw [hd, hst]
      split
      · next ha => rw [hrest ha]; exact ⟨nofun, nofun⟩
      · exact hset.2 c
    · rw [hother d hd]
      exact hset.2 d
  have hq := (hw.quiet.trans hquiet).trans hside.quiet
  have hzctx := State.ctx_congr hside.ctxs c
  obtain ⟨_, _, _, _, _, hz⟩ := hside
  have hx : (s.advance t).admissionDone.settle.bootStart = z := by
    have hzs : z.Settled := State.Settled.of_eq hsettled (by rw [hz]) (by rw [hz])
    rw [hdone, State.settle_id hzs]
    refine State.bootStart_none ?_
    rw [hz]
    exact (congrArg Boot.starts hboot).trans hstarts
  refine answers_of hpow (exec_admissionDone t s) hx hq ⟨?_, ?_, ?_, ?_, hcount, hbit, ?_, ?_, ?_, ?_⟩
  · rw [hz]; exact hadm.1
  · rw [hz]; exact hadm.2
  · rw [hzctx, hdenied]
  · rw [hzctx, hst]
  · rw [hz]; exact hpages
  · rw [hz]; exact hcors
  · rw [hz]; exact hmeas
  · rw [hz]; exact htab

/-! ### An admitted START -/

/-- The admission engine's answer to an admitted START. -/
def State.ctxAdmitted (s : State) (c : Nat) : State :=
  { s with adm := none, admStop := false, admRes := 2 ^ 26 + (s.admission c).2.run * 2 ^ 9 + c }

theorem contexts_admitted {s : State} {c : Fin 512} (hpow : s.Powered) (hset : s.Settled) (hstarts : s.boot.starts = []) (hadm : s.adm = some c.val)
    (hst : (s.ctx c).st = .admitting) (hcode : ((s.advance t).admission c).1 = 0) (hrec : s.recEn c = false) :
    let u := s.advance t
    Answers (.admissionDone t) s fun s' =>
        s'.adm = none ∧ s'.admRes = 2 ^ 26 + (u.admission c).2.run * 2 ^ 9 + c ∧
        (s'.ctx c).st = .running ∧ (s'.ctx c).pstate = 0 ∧ (s'.ctx c).inSeq = false ∧ (s'.ctx c).latch = 0 ∧
        (s'.ctx c).counters = [0, 0, 0, 0] ∧ (s'.ctx c).thread = none ∧ (s'.ctx c).holdUntil = none ∧
        (s'.ctx c).timers = (List.range 4).map (fun k => .stopped (s.tload c k)) ∧
        (∀ k, k < 6 → s'.tabw (oCtx c (33 + k)) = 0) ∧ (s'.cor c).run = (if (u.admission c).2.run = 0 then (s.cor c).run
          else (u.admission c).2.run) ∧
        (∀ i ∈ s.slotsOf c, (s'.mslot i).armed = true) ∧ bit (s'.reg (ra sCtx 0x008)) 0 = true := by
  intro u
  have hdone : u.admissionDone = (u.ctxAdmitted c).ctxBegin c (u.admission c).2 :=
    (State.admissionDone_ready (s := u) hadm hst).trans ((if_neg (by rw [hcode]; decide)).trans (if_neg (not_not.mpr hcode)))
  have hadmitted : (u.ctxAdmitted c).recEn c = false := hrec
  obtain ⟨⟨hcaps, hboot, hnone, hres⟩, hother, ⟨w, a, hself⟩, hwords, hrun, harmed, hbit⟩ :=
    State.ctxBegin_spec c.isLt hadmitted (u.admission c).2
  have hbefore : (u.ctxAdmitted c).caps = s.caps ∧ (u.ctxAdmitted c).boot = s.boot ∧ (u.ctxAdmitted c).adm = none ∧
      (u.ctxAdmitted c).admRes = 2 ^ 26 + (u.admission c).2.run * 2 ^ 9 + c := ⟨rfl, rfl, rfl, rfl⟩
  obtain ⟨kcaps, kboot, knone, kres⟩ := hbefore
  have hctx (d : Nat) : (u.ctxAdmitted c).ctx d = s.ctx d := rfl
  have hcor : (u.ctxAdmitted c).cor c = s.cor c := rfl
  have hslots : (u.ctxAdmitted c).slotsOf c = s.slotsOf c := State.slotsOf_congr rfl c
  have htload (k : Nat) : (u.ctxAdmitted c).tload c k = s.tload c k := rfl
  rw [hslots] at harmed
  rw [hcor] at hrun
  generalize (u.ctxAdmitted c).ctxBegin c (u.admission c).2 = z at *
  have hfresh : ((u.ctxAdmitted c).ctxFresh c).timers = (List.range 4).map fun k => Timer.stopped (s.tload c k) := rfl
  have hzst : (z.ctx c).st = .running := by rw [hself]; rfl
  have hsettled : z.Settled := by
    refine ⟨by rw [hcaps, kcaps]; exact hset.1, fun d => ?_⟩
    by_cases hd : d = c.val
    · rw [hd, hzst]
      exact ⟨nofun, nofun⟩
    · rw [hother d hd, hctx]
      exact hset.2 d
  have hx : u.admissionDone.settle.bootStart = z := by
    rw [hdone, State.settle_id hsettled]
    exact State.bootStart_none (by rw [hboot, kboot]; exact hstarts)
  refine answers_of_wrapped hpow (exec_admissionDone t s) fun l => ?_
  rw [show (s.advance t).admissionDone.settle.bootStart = z from hx]
  refine ⟨hnone.trans knone, hres.trans kres, hzst, ?_, ?_, ?_, ?_, ?_, ?_, ?_, hwords, hrun, harmed, hbit⟩
  · exact (congrArg Ctx.pstate hself).trans rfl
  · exact (congrArg Ctx.inSeq hself).trans rfl
  · exact (congrArg Ctx.latch hself).trans rfl
  · exact (congrArg Ctx.counters hself).trans rfl
  · exact (congrArg Ctx.thread hself).trans rfl
  · exact (congrArg Ctx.holdUntil hself).trans rfl
  · exact (congrArg Ctx.timers hself).trans hfresh

theorem contexts_admission (s : State) (t : Nat) (hpow : s.Powered) (hset : s.Settled) (hstarts : s.boot.starts = []) :
    let u := s.advance t
    let refused (c : Fin 512) (code : Nat) (s' : State) : Prop :=
      s'.adm = none ∧ s'.admRes = 2 * 2 ^ 26 + code * 2 ^ 16 + c ∧ (s'.ctx c).reason = code ∧
      (s'.ctx c).st = (if (s.ctx c).st = .admitting then (s.ctx c).former else (s.ctx c).st) ∧
      s'.reg64 sCtx 0x024 = min (s.reg64 sCtx 0x024 + 1) (2 ^ 64 - 1) ∧ bit (s'.reg (ra sCtx 0x008)) 1 = true ∧
      s'.pagesHeld = s.pagesHeld ∧ s'.cors = s.cors ∧ s'.meas = s.meas ∧ s'.tab = s.tab
    (s.adm = none → exec (.admissionDone t) s = .next u) ∧
    (∀ c : Fin 512, s.adm = some c.val →
      ((s.ctx c).st ≠ .admitting → Answers (.admissionDone t) s (refused c 1)) ∧
      ((s.ctx c).st = .admitting → (s.ctx c).former = .idle →
        (u.admission c).1 ≠ 0 → Answers (.admissionDone t) s (refused c (u.admission c).1)) ∧
      ((s.ctx c).st = .admitting → (u.admission c).1 = 0 → s.recEn c = false → (∀ b ∈ s.beamsOf c, b < 1024) →
        Answers (.admissionDone t) s fun s' =>
        s'.adm = none ∧ s'.admRes = 2 ^ 26 + (u.admission c).2.run * 2 ^ 9 + c ∧
        (s'.ctx c).st = .running ∧ (s'.ctx c).pstate = 0 ∧ (s'.ctx c).inSeq = false ∧ (s'.ctx c).latch = 0 ∧
        (s'.ctx c).counters = [0, 0, 0, 0] ∧ (s'.ctx c).thread = none ∧ (s'.ctx c).holdUntil = none ∧
        (s'.ctx c).timers = (List.range 4).map (fun k => .stopped (s.tload c k)) ∧
        (∀ k, k < 6 → s'.tabw (oCtx c (33 + k)) = 0) ∧ (s'.cor c).run = (if (u.admission c).2.run = 0 then (s.cor c).run
          else (u.admission c).2.run) ∧
        (∀ i ∈ s.slotsOf c, (s'.mslot i).armed = true) ∧ bit (s'.reg (ra sCtx 0x008)) 0 = true)) := by
  intro u refused
  refine ⟨fun hnone => ?_, fun c hadm => ⟨fun hst => ?_, fun hst hformer hcode => ?_, fun hst hcode hrec _ => ?_⟩⟩
  · have husettled : u.Settled := hset
    have hx : u.admissionDone.settle.bootStart = u := by
      rw [State.admissionDone_none (s := u) hnone, State.settle_id husettled]
      exact State.bootStart_none hstarts
    exact next_of hpow (exec_admissionDone t s) hx (Quiet.refl _)
  · exact contexts_refused hpow hset hstarts (Side.refl u) rfl (State.admissionDone_unready (s := u) hadm hst) fun h => absurd h hst
  · have hready := State.admissionDone_ready (s := u) hadm hst
    by_cases hpages : (u.admission c).1 = 22
    · have hmem (a : State) (ha : Side u a) (hr : a.reg64 sCtx 0x024 = s.reg64 sCtx 0x024) (m b : Nat) (hm : m < 2) :
          Side u (a.evt (sMem m) b) ∧ (a.evt (sMem m) b).reg64 sCtx 0x024 = s.reg64 sCtx 0x024 := by
        refine ⟨ha.trans (a.evt_side _ _), (a.evt_reg64_of_ne _ _ ?_ ?_ ?_ ?_).trans hr⟩
        all_goals (unfold sMem sCtx ra; omega)
      have hfirst : Side u (if u.pagesFree 0 < (u.admission c).2.pagesA then u.evt (sMem 0) 1 else u) ∧
          (if u.pagesFree 0 < (u.admission c).2.pagesA then u.evt (sMem 0) 1 else u).reg64 sCtx 0x024 = s.reg64 sCtx 0x024 := by
        split
        · exact hmem u (Side.refl u) rfl 0 1 (by decide)
        · exact ⟨Side.refl u, rfl⟩
      refine contexts_refused hpow hset hstarts ?_ ?_ (hready.trans (if_pos hpages)) fun _ => hformer
      · split
        · exact (hmem _ hfirst.1 hfirst.2 1 1 (by decide)).1
        · exact hfirst.1
      · split
        · exact (hmem _ hfirst.1 hfirst.2 1 1 (by decide)).2
        · exact hfirst.2
    · exact contexts_refused hpow hset hstarts (Side.refl u) rfl (hready.trans ((if_neg hpages).trans (if_pos hcode))) fun _ => hformer
  · exact contexts_admitted hpow hset hstarts hadm hst hcode hrec

/-- Settles O55: the commands of a context, the end of its admission, and its timers. -/
theorem contexts : Obligations.Contexts :=
  ⟨fun s t p c hpow hreach hserved => contexts_commands s t p c hpow hreach hserved,
    fun s t hpow hset hstarts => contexts_admission s t hpow hset hstarts, fun s t c k hpow => contexts_timers s t c k hpow⟩

end Sys2Proof.Machine
end

section
/-! Proofs about routines: faults and restarts (R283, R285). -/

namespace Sys2Proof.Machine

variable {s x y z u v : State} {t c d n w o code st : Nat} {k k' : Thread} {i : Instr}

/-! ### A routine starts again (R283) -/

/-- A routine at its restart point, with nothing buffered. -/
def Thread.restarted (k : Thread) : Thread := { k with pc := k.restart, acts := [], solHit := false, dog := none }

theorem State.restartRoutine_eq (s : State) (c : Nat) (k : Thread) : s.restartRoutine c k =
    (((s.setCtx c { s.ctx c with thread := some k.restarted }).tbump (oCtx c 38) 1).bump64 sSeq 0x02C 1).evt sSeq 1 := rfl

theorem State.restartRoutine_side (s : State) (c : Nat) (k : Thread) :
    Side ((s.setCtx c { s.ctx c with thread := some k.restarted }).tbump (oCtx c 38) 1) (s.restartRoutine c k) :=
  (State.bump64_side _ _ _ _).trans (State.evt_side _ _ _)

/-- What a restart leaves and counts. -/
theorem State.restartRoutine_spec (s : State) (c : Nat) (k : Thread) :
    let z := s.restartRoutine c k
    (z.ctx c = { s.ctx c with thread := some k.restarted } ∧ (∀ d, d ≠ c → z.ctx d = s.ctx d) ∧ z.caps = s.caps) ∧
    (z.tabw (oCtx c 38)).toNat = min ((s.tabw (oCtx c 38)).toNat + 1) (2 ^ 32 - 1) ∧
    z.reg64 sSeq 0x02C = min (s.reg64 sSeq 0x02C + 1) (2 ^ 64 - 1) ∧ bit (z.reg (ra sSeq 0x008)) 1 = true ∧
    (∀ b, bit (s.reg (ra sSeq 0x008)) b = true → bit (z.reg (ra sSeq 0x008)) b = true) ∧
    (∀ off, 0x00C ≤ off → off < 0x400 → off ≠ 0x02C → off ≠ 0x030 → z.reg (ra sSeq off) = s.reg (ra sSeq off)) := by
  have hside := s.restartRoutine_side c k
  have hset := State.setCtx_same s c { s.ctx c with thread := some k.restarted }
  have hother : ∀ d, d ≠ c → (s.setCtx c { s.ctx c with thread := some k.restarted }).ctx d = s.ctx d := fun d hd => State.setCtx_ne _ _ (Ne.symm hd)
  have hword := (s.setCtx c { s.ctx c with thread := some k.restarted }).tbump_word (oCtx c 38) 1
  have hstand : (s.setCtx c { s.ctx c with thread := some k.restarted }).caps = s.caps ∧ (s.setCtx c { s.ctx c with thread := some k.restarted }).tab = s.tab ∧
      (s.setCtx c { s.ctx c with thread := some k.restarted }).regs = s.regs := ⟨rfl, rfl, rfl⟩
  rw [State.restartRoutine_eq] at hside ⊢
  generalize s.setCtx c { s.ctx c with thread := some k.restarted } = v at *
  obtain ⟨hcaps, htab, hregs⟩ := hstand
  have htick : (v.tbump (oCtx c 38) 1).ctxs = v.ctxs ∧ (v.tbump (oCtx c 38) 1).caps = v.caps ∧ (v.tbump (oCtx c 38) 1).regs = v.regs := ⟨rfl, rfl, rfl⟩
  generalize v.tbump (oCtx c 38) 1 = y at *
  obtain ⟨kctxs, kcaps, kregs⟩ := htick
  have hyregs : y.regs = s.regs := kregs.trans hregs
  have hreg (a : Nat) : y.reg a = s.reg a := congrArg (fun m => Sparse.get (regReset a) m a) hyregs
  have hcount := State.reg64_bump64 y sSeq 0x02C 1
  rw [State.reg64_congr hyregs] at hcount
  have hkeep (off : Nat) (h1 : off ≠ 0x02C) (h2 : off ≠ 0x030) : (y.bump64 sSeq 0x02C 1).reg (ra sSeq off) = s.reg (ra sSeq off) :=
    (State.bump64_reg (by unfold ra; omega) (by unfold ra; omega)).trans (hreg _)
  have hzctxs := hside.ctxs
  have hztab := hside.tab
  refine ⟨⟨?_, fun d hd => ?_, ?_⟩, ?_, ?_, State.evt_bit _ (by decide), fun b hb => ?_, fun off hlo hhi h1 h2 => ?_⟩
  · rw [State.ctx_congr hzctxs, State.ctx_congr kctxs, hset]
  · rw [State.ctx_congr hzctxs, State.ctx_congr kctxs, hother d hd]
  · obtain ⟨_, _, _, _, _, hz⟩ := hside
    rw [hz]
    exact kcaps.trans hcaps
  · rw [State.tabw_congr hztab, hword, State.tabw_congr htab]
  · rw [State.evt_reg64_of_ne _ _ _ (by decide) (by decide) (by decide) (by decide), hcount]
  · refine State.evt_bit_keep _ _ _ ?_
    rw [hkeep 0x008 (by decide) (by decide)]
    exact hb
  · rw [State.evt_reg_of_ne _ (by unfold ra; omega) (by unfold ra; omega)]
    exact hkeep off h1 h2

/-! ### A fault noted (R285) -/

/-- A fault counted, told and shown. -/
def State.faultNoted (s : State) (r : Nat) : State := ((s.bump64 sSeq 0x034 1).evt sSeq 2).setRegN sSeq 0x01C r

theorem State.faultNoted_spec (s : State) (r : Nat) : Side s (s.faultNoted r) ∧
    (s.faultNoted r).reg64 sSeq 0x034 = min (s.reg64 sSeq 0x034 + 1) (2 ^ 64 - 1) ∧ bit ((s.faultNoted r).reg (ra sSeq 0x008)) 2 = true ∧
    (s.faultNoted r).reg (ra sSeq 0x01C) = BitVec.ofNat 32 r ∧ (s.faultNoted r).reg64 sSeq 0x02C = s.reg64 sSeq 0x02C := by
  have hcount := State.reg64_bump64 s sSeq 0x034 1
  have hother : (s.bump64 sSeq 0x034 1).reg64 sSeq 0x02C = s.reg64 sSeq 0x02C := by
    rw [State.reg64, State.bump64_reg (by decide) (by decide), State.bump64_reg (by decide) (by decide), State.reg64]
  have hside := s.bump64_side sSeq 0x034 1
  unfold State.faultNoted
  generalize s.bump64 sSeq 0x034 1 = y at *
  have hset (off : Nat) (h : off ≠ 0x01C) : ((y.evt sSeq 2).setRegN sSeq 0x01C r).reg (ra sSeq off) = (y.evt sSeq 2).reg (ra sSeq off) :=
    State.setReg_reg_ne _ _ (by unfold ra; omega)
  refine ⟨(hside.trans (y.evt_side sSeq 2)).trans (State.setReg_side _ _ _), ?_, ?_, State.setReg_reg_same _ _ _, ?_⟩
  · rw [State.reg64, hset _ (by decide), hset _ (by decide)]
    exact (State.evt_reg64_of_ne _ _ _ (by decide) (by decide) (by decide) (by decide)).trans hcount
  · rw [hset _ (by decide)]
    exact State.evt_bit _ (by decide)
  · rw [State.reg64, hset _ (by decide), hset _ (by decide)]
    exact (State.evt_reg64_of_ne _ _ _ (by decide) (by decide) (by decide) (by decide)).trans hother

/-- What `SEQ.FAULT` shows of a fault. -/
def faultWord (k : Thread) (st code c : Nat) : Nat := k.pc % 2 ^ 14 * 2 ^ 16 + st * 2 ^ 15 + code * 2 ^ 12 + c

theorem State.routineFault_first (h : k.faulted = false) (s : State) (c code : Nat) :
    s.routineFault c k code = (s.faultNoted (faultWord k 0 code c)).restartRoutine c { k with faulted := true } :=
  if_neg (by rw [h]; exact Bool.false_ne_true)

theorem State.routineFault_second (h : k.faulted = true) (s : State) (c code : Nat) :
    s.routineFault c k code = (((s.faultNoted (faultWord k 1 code c)).evt sSeq 3).bbrFault sSeq c code).ctxStop c 4 := if_pos h

/-- What a first fault leaves: it is noted, and the routine starts again as one that has faulted. -/
theorem State.routineFault_first_spec (h : k.faulted = false) (s : State) (c code : Nat) :
    let z := s.routineFault c k code
    (z.ctx c = { s.ctx c with thread := some { k.restarted with faulted := true } } ∧ (∀ d, d ≠ c → z.ctx d = s.ctx d) ∧ z.caps = s.caps) ∧
    (z.tabw (oCtx c 38)).toNat = min ((s.tabw (oCtx c 38)).toNat + 1) (2 ^ 32 - 1) ∧
    z.reg64 sSeq 0x034 = min (s.reg64 sSeq 0x034 + 1) (2 ^ 64 - 1) ∧ z.reg64 sSeq 0x02C = min (s.reg64 sSeq 0x02C + 1) (2 ^ 64 - 1) ∧
    bit (z.reg (ra sSeq 0x008)) 1 = true ∧ bit (z.reg (ra sSeq 0x008)) 2 = true ∧
    z.reg (ra sSeq 0x01C) = BitVec.ofNat 32 (faultWord k 0 code c) := by
  obtain ⟨hside, hcount, hbit, hword, hcount2⟩ := s.faultNoted_spec (faultWord k 0 code c)
  rw [State.routineFault_first h]
  generalize s.faultNoted (faultWord k 0 code c) = y at *
  obtain ⟨⟨hctx, hother, hcaps⟩, htick, hrestarts, hbit1, hkeep, hstand⟩ := y.restartRoutine_spec c { k with faulted := true }
  have hyctxs := hside.ctxs
  have hytab := hside.tab
  refine ⟨⟨?_, fun d hd => ?_, ?_⟩, ?_, ?_, ?_, hbit1, hkeep 2 hbit, ?_⟩
  · rw [hctx, State.ctx_congr hyctxs]
    rfl
  · rw [hother d hd, State.ctx_congr hyctxs]
  · obtain ⟨_, _, _, _, _, hy⟩ := hside
    rw [hcaps, hy]
  · rw [htick, State.tabw_congr hytab]
  · rw [← hcount, State.reg64, State.reg64, hstand 0x034 (by decide) (by decide) (by decide) (by decide),
      hstand (0x034 + 4) (by decide) (by decide) (by decide) (by decide)]
  · rw [hrestarts, hcount2]
  · rw [hstand 0x01C (by decide) (by decide) (by decide) (by decide), hword]

/-- The state in which a second fault stops its context. -/
def State.faultStopping (s : State) (c code : Nat) (k : Thread) : State := ((s.faultNoted (faultWord k 1 code c)).evt sSeq 3).bbrFault sSeq c code

theorem State.faultStopping_spec (s : State) (c code : Nat) (k : Thread) :
    let z := s.faultStopping c code k
    Side s z ∧ z.reg64 sSeq 0x034 = min (s.reg64 sSeq 0x034 + 1) (2 ^ 64 - 1) ∧ bit (z.reg (ra sSeq 0x008)) 2 = true ∧
    bit (z.reg (ra sSeq 0x008)) 3 = true ∧ z.reg (ra sSeq 0x01C) = BitVec.ofNat 32 (faultWord k 1 code c) := by
  obtain ⟨hside, hcount, hbit, hword, -⟩ := s.faultNoted_spec (faultWord k 1 code c)
  unfold State.faultStopping
  generalize s.faultNoted (faultWord k 1 code c) = y at *
  have hreg (off : Nat) (ho : off < 0x400) : ((y.evt sSeq 3).bbrFault sSeq c code).reg (ra sSeq off) = (y.evt sSeq 3).reg (ra sSeq off) :=
    State.bbrPush_reg_page _ _ _ (by rw [ra_div sSeq off ho]; decide)
  refine ⟨(hside.trans (y.evt_side sSeq 3)).trans (State.bbrFault_side _ _ _ _), ?_, ?_, ?_, ?_⟩
  · rw [State.reg64, hreg _ (by decide), hreg _ (by decide)]
    exact (State.evt_reg64_of_ne _ _ _ (by decide) (by decide) (by decide) (by decide)).trans hcount
  · rw [hreg _ (by decide)]
    exact State.evt_bit_keep _ _ _ hbit
  · rw [hreg _ (by decide)]
    exact State.evt_bit _ (by decide)
  · rw [hreg _ (by decide), State.evt_reg_of_ne _ (by decide) (by decide)]
    exact hword

/-! ### A command that faults -/

/-- A fault as it is shown: counted, flagged, with its microword, its place and its code. -/
def FaultNoted (s : State) (c : Fin 512) (k : Thread) (code st : Nat) (s' : State) : Prop :=
  s'.reg64 sSeq 0x034 = min (s.reg64 sSeq 0x034 + 1) (2 ^ 64 - 1) ∧ bit (s'.reg (ra sSeq 0x008)) 2 = true ∧
  s'.reg (ra sSeq 0x01C) = BitVec.ofNat 32 (k.pc % 2 ^ 14 * 2 ^ 16 + st * 2 ^ 15 + code * 2 ^ 12 + c)

/-- A command raises a fault of a routine: the first restarts it, the second stops its context. -/
def Faults (s : State) (c : Fin 512) (k : Thread) (code : Nat) (cmd : Instr) : Prop :=
  (k.faulted = false → Answers cmd s fun s' => FaultNoted s c k code 0 s' ∧ s'.reg64 sSeq 0x02C = min (s.reg64 sSeq 0x02C + 1) (2 ^ 64 - 1) ∧
    bit (s'.reg (ra sSeq 0x008)) 1 = true ∧
    (s'.tabw (oCtx c 38)).toNat = min ((s.tabw (oCtx c 38)).toNat + 1) (2 ^ 32 - 1) ∧
    ∃ k', (s'.ctx c).thread = some k' ∧ k'.pc = k.restart ∧ k'.restart = k.restart ∧ k'.acts = [] ∧ k'.faulted = true ∧
      k'.since = k.since) ∧
  (k.faulted = true → (s.ctx c).st = .running → Answers cmd s fun s' => FaultNoted s c k code 1 s' ∧ bit (s'.reg (ra sSeq 0x008)) 3 = true ∧
    (s'.ctx c).thread = none ∧ (s'.ctx c).cause = 4 ∧ ((s'.ctx c).st = .stopping ∨ (s'.ctx c).st = .idle))

/-- A state in which a routine `k'` of context `c` is in progress, and what a fault counts stands as in `s`. -/
structure Fetched (c : Nat) (s v : State) (k' : Thread) : Prop where
  ctx : v.ctx c = { s.ctx c with thread := some k' }
  others : ∀ d, d ≠ c → v.ctx d = s.ctx d
  caps : v.caps = s.caps
  tab : v.tab = s.tab
  faults : v.reg64 sSeq 0x034 = s.reg64 sSeq 0x034
  restarts : v.reg64 sSeq 0x02C = s.reg64 sSeq 0x02C

/-- Where only the routine of a context changes, nothing overflows or drains. -/
theorem State.Settled.of_thread (h : s.Settled) (hcaps : z.caps = s.caps) (hst : (z.ctx c).st = (s.ctx c).st) (hother : ∀ d, d ≠ c → z.ctx d = s.ctx d) :
    z.Settled := by
  refine ⟨by rw [hcaps]; exact h.1, fun d => ?_⟩
  by_cases hd : d = c
  · rw [hd, hst]
    exact h.2 c
  · rw [hother d hd]
    exact h.2 d

theorem faults_of {s : State} {c : Fin 512} {f : State → State} (hpow : s.Powered) (hset : s.Settled)
    (hi : exec i s = command t (fun s => (f s).settle) s) (hx : f (s.advance t) = v.routineFault c k' code) (hv : Fetched c s v k')
    (hpc : k'.pc = k.pc) (hrestart : k'.restart = k.restart) (hsince : k'.since = k.since) (hfaulted : k'.faulted = k.faulted) : Faults s c k code i := by
  have hword (st : Nat) : faultWord k' st code c = k.pc % 2 ^ 14 * 2 ^ 16 + st * 2 ^ 15 + code * 2 ^ 12 + c := by rw [faultWord, hpc]
  refine ⟨fun hfirst => ?_, fun hsecond hrun => ?_⟩
  · obtain ⟨⟨hctx, hother, hcaps⟩, htick, hcount, hrestarts, hbit1, hbit2, hshown⟩ := State.routineFault_first_spec (hfaulted.trans hfirst) v c code
    generalize v.routineFault c k' code = z at *
    have hsettled : z.Settled := hset.of_thread (hcaps.trans hv.caps) (by rw [hctx, hv.ctx]) fun d hd => (hother d hd).trans (hv.others d hd)
    refine answers_of_wrapped hpow hi fun l => ?_
    rw [hx, State.settle_id hsettled]
    refine ⟨⟨hcount.trans (by rw [hv.faults]), hbit2, hshown.trans (by rw [hword])⟩, hrestarts.trans (by rw [hv.restarts]), hbit1,
      htick.trans (by rw [State.tabw_congr hv.tab]), _, congrArg Ctx.thread hctx, ?_, ?_, rfl, rfl, ?_⟩
    · exact hrestart
    · exact hrestart
    · exact hsince
  · obtain ⟨hside, hcount, hbit2, hbit3, hshown⟩ := v.faultStopping_spec c code k'
    have hstop : v.routineFault c k' code = (v.faultStopping c code k').ctxStop c 4 := State.routineFault_second (hfaulted.trans hsecond) v c code
    generalize v.faultStopping c code k' = y at *
    have hyrun : (y.ctx c).st = .running := by
      rw [State.ctx_congr hside.ctxs, hv.ctx]
      exact hrun
    obtain ⟨hcause, hst, hthread, -, hregs⟩ := State.ctxStop_settle hyrun (cause := 4) (by decide)
    refine answers_of_wrapped hpow hi fun l => ?_
    rw [hx, hstop]
    generalize (y.ctxStop c 4).settle = z at *
    have hpair (off : Nat) (ho : off + 4 < 0x400) : z.reg64 sSeq off = y.reg64 sSeq off := by
      rw [State.reg64, hregs _ (by omega), hregs _ ho, State.reg64]
    refine ⟨⟨(hpair 0x034 (by decide)).trans (hcount.trans (by rw [hv.faults])), ?_, ?_⟩, ?_, hthread, hcause, hst⟩
    · exact (congrArg (bit · 2) (hregs 0x008 (by decide))).trans hbit2
    · exact (hregs 0x01C (by decide)).trans (hshown.trans (by rw [hword]))
    · exact (congrArg (bit · 3) (hregs 0x008 (by decide))).trans hbit3

end Sys2Proof.Machine
end

section
/-! Proofs about dispatch and the execution of microwords (R267, R274 to R285). -/

namespace Sys2Proof.Machine

variable {s x y z u v : State} {t c d n w o code st : Nat} {k k' : Thread} {i : Instr} {mw nw : StoreEcc}

/-! ### Dispatch (R267) -/

/-- A context may be dispatched. -/
def State.dispatchable (s : State) (c : Nat) : Bool :=
  decide ((s.ctx c).st = .running) && s.ctxBit c 27 && (s.ctx c).thread.isNone && ((s.ctx c).queued || decide (s.condVec c ≠ (s.ctx c).seen)) && s.slotFree c

theorem State.dispatchable_iff (s : State) (c : Nat) : s.dispatchable c = true ↔ (s.ctx c).st = .running ∧ s.ctxBit c 27 = true ∧
    (s.ctx c).thread = none ∧ ((s.ctx c).queued = true ∨ s.condVec c ≠ (s.ctx c).seen) ∧ s.slotFree c = true := by
  unfold State.dispatchable
  rw [Bool.and_eq_true, Bool.and_eq_true, Bool.and_eq_true, Bool.and_eq_true, Bool.or_eq_true, decide_eq_true_iff, decide_eq_true_iff,
    Option.isNone_iff_eq_none, and_assoc, and_assoc, and_assoc]

theorem State.dispatch_no (h : ¬s.dispatchable c = true) : s.dispatch c = s := if_neg h

/-- The routine that a dispatch begins at an address. -/
def State.threadAt (s : State) (a : Nat) : Thread := { pc := a, restart := a, since := s.now, busyTo := s.now + s.now % 2 }

theorem State.dispatch_yes (h : s.dispatchable c = true) : s.dispatch c =
    if s.pstV c (s.ctx c).pstate then (s.ctxSee c).setCtx c { (s.ctxSee c).ctx c with
      queued := false, disp := (s.ctx c).latch, thread := some (s.threadAt (s.pstEntry c (s.ctx c).pstate)) }
    else (s.ctxSee c).setCtx c { (s.ctxSee c).ctx c with queued := false } := if_pos h

theorem State.ctxSee_ctx (s : State) (c : Nat) : ∃ l, (s.ctxSee c).ctx c = { s.ctx c with seen := s.condVec c, vlog := l } :=
  ⟨_, State.setCtx_same _ _ _⟩

theorem State.ctxSee_ctxSide (s : State) (c : Nat) : CtxSide s (s.ctxSee c) := ⟨_, rfl⟩

theorem State.setCtx_ctxSide (s : State) (c : Nat) (k : Ctx) : CtxSide s (s.setCtx c k) := ⟨_, rfl⟩

theorem CtxSide.eq (h : CtxSide s z) : z = { s with ctxs := z.ctxs } := by
  obtain ⟨_, rfl⟩ := h
  rfl

theorem routines_dispatch (s : State) (t : Nat) (c : Fin 512) (hpow : s.Powered) :
    let u := s.advance t
    let now := max s.now t
    let x := s.ctx c
    (x.st ≠ .running ∨ s.ctxBit c 27 = false ∨ x.thread ≠ none ∨ s.slotFree c = false ∨ (x.queued = false ∧ u.condVec c = x.seen) →
      exec (.dispatch t c) s = .next u) ∧
    (x.st = .running → s.ctxBit c 27 = true → x.thread = none → s.slotFree c = true → x.queued = true ∨ u.condVec c ≠ x.seen →
      Answers (.dispatch t c) s fun s' => (s'.ctx c).queued = false ∧ (s'.ctx c).seen = u.condVec c ∧ (s'.ctx c).pstate = x.pstate ∧
        (s.pstV c x.pstate = false → (s'.ctx c).thread = none) ∧
        (s.pstV c x.pstate = true → (s'.ctx c).disp = x.latch ∧ (s'.ctx c).thread = some
          { pc := s.pstEntry c x.pstate, restart := s.pstEntry c x.pstate, since := now, busyTo := now + now % 2 }) ∧
        s' = { u with ctxs := s'.ctxs }) := by
  intro u now x
  have hiff := u.dispatchable_iff c
  refine ⟨fun hno => ?_, fun hrun hprog hthread hslot hcond => ?_⟩
  · refine next_of hpow (exec_dispatch t c s) (State.dispatch_no (s := u) fun hyes => ?_) (Quiet.refl _)
    obtain ⟨hrun, hprog, hthread, hcond, hslot⟩ := hiff.mp hyes
    rcases hno with h | h | h | h | ⟨h1, h2⟩
    · exact h hrun
    · cases h.symm.trans hprog
    · exact h hthread
    · cases h.symm.trans hslot
    · exact hcond.elim (fun hq => by cases h1.symm.trans hq) fun hne => hne h2
  · have hx := State.dispatch_yes (s := u) (hiff.mpr ⟨hrun, hprog, hthread, hcond, hslot⟩)
    obtain ⟨l, hsee⟩ := u.ctxSee_ctx c
    have hside := u.ctxSee_ctxSide c
    rw [hsee] at hx
    generalize u.ctxSee c = y at hx hside
    cases hv : s.pstV c x.pstate
    case true =>
      have hset := State.setCtx_same y c { u.ctx c with
        seen := u.condVec c, vlog := l, queued := false, disp := x.latch, thread := some (u.threadAt (s.pstEntry c x.pstate)) }
      have hz := hside.trans (State.setCtx_ctxSide y c { u.ctx c with
        seen := u.condVec c, vlog := l, queued := false, disp := x.latch, thread := some (u.threadAt (s.pstEntry c x.pstate)) })
      refine answers_of hpow (exec_dispatch t c s) (hx.trans (if_pos hv)) hz.quiet ⟨?_, ?_, ?_, fun hno => ?_, fun _ => ⟨?_, ?_⟩, hz.eq⟩
      · exact (congrArg Ctx.queued hset).trans rfl
      · exact (congrArg Ctx.seen hset).trans rfl
      · exact (congrArg Ctx.pstate hset).trans rfl
      · cases hno
      · exact (congrArg Ctx.disp hset).trans rfl
      · exact (congrArg Ctx.thread hset).trans rfl
    case false =>
      have hset := State.setCtx_same y c { u.ctx c with seen := u.condVec c, vlog := l, queued := false }
      have hz := hside.trans (State.setCtx_ctxSide y c { u.ctx c with seen := u.condVec c, vlog := l, queued := false })
      refine answers_of hpow (exec_dispatch t c s) (hx.trans (if_neg ?_)) hz.quiet ⟨?_, ?_, ?_, fun _ => ?_, nofun, hz.eq⟩
      · rw [show u.pstV c (u.ctx c).pstate = false from hv]
        exact Bool.false_ne_true
      · exact (congrArg Ctx.queued hset).trans rfl
      · exact (congrArg Ctx.seen hset).trans rfl
      · exact (congrArg Ctx.pstate hset).trans rfl
      · exact (congrArg Ctx.thread hset).trans hthread

/-! ### The watchdog (R285) -/

theorem State.watchdog_none (h : (s.ctx c).thread = none) : s.watchdog c = s := by
  unfold State.watchdog
  split
  · next he => cases h.symm.trans he
  · rfl

theorem State.watchdog_some (h : (s.ctx c).thread = some k) : s.watchdog c =
    if k.since + 131_072 ≤ s.now then
      if k.busyTo < s.now then s.setCtx c { s.ctx c with thread := some { k with dog := k.dog.or (some s.now) } } else s.routineFault c k 3
    else s := by
  unfold State.watchdog
  split
  · next he =>
    cases h.symm.trans he
    rfl
  · next he => cases h.symm.trans he

/-! ### Microwords (R274 to R285) -/

/-- A routine after the issue of its next microword. -/
def State.wordIssued (s : State) (k : Thread) : Thread :=
  let w := s.micro k.pc
  { k with
    busyTo := s.now, issued := true, solHit := k.solHit && decide (s.now - s.wordEdges k.pc < s.solEdge)
    micro := if k.micro.contains k.pc then k.micro else k.pc :: k.micro
    nano := if k.nano.contains (mwNano w) then k.nano else mwNano w :: k.nano }

/-- The errors corrected as a microword was fetched. -/
def fixedErrors (mw nw : StoreEcc) : Nat := b2n (decide (mw = .corrected)) + b2n (decide (nw = .corrected))

/-- A microword fetched: corrected errors are counted. -/
def State.wordFetched (s : State) (c : Nat) (k : Thread) (fixed : Nat) : State :=
  let s0 := s.setCtx c { s.ctx c with thread := some (s.wordIssued k) }
  if fixed = 0 then s0 else (s0.bump64 sSeq 0x03C fixed).evt sSeq 4

/-- The address that a microword goes on at. -/
def State.wordNext (s : State) (c : Nat) (k : Thread) : Nat :=
  let w := s.micro k.pc
  mwNext w ||| ((s.condAt c (s.now - s.wordEdges k.pc) >>> (4 * mwBsel w)) % 2 ^ mwBw w)

/-- The nanoword that a routine's microword names. -/
def State.wordNano (s : State) (k : Thread) : Nat := s.nano (mwNano (s.micro k.pc))

/-- A microword that executes: it commits, starts its routine again, or goes on. -/
def State.wordDone (s : State) (c : Nat) (k : Thread) (fixed : Nat) : State :=
  let n := s.wordNano k
  let j := s.wordIssued k
  let s1 := s.wordFetched c k fixed
  let again := decide (fixed ≠ 0) || j.solHit
  if mwCommit (s.micro k.pc) then
    let s2 := s1.commitPoint c j (j.acts ++ nwActs n) (nwFlow n) (nwFstate n) (s.wordNext c k) (again && j.dog.isNone)
    match j.dog, (s2.ctx c).thread with
    | some _, some k2 => s2.routineFault c k2 3
    | some _, none => s2
    | none, _ => s2
  else if j.dog.isSome then s1.routineFault c j 3
  else if again then s1.restartRoutine c j
  else s1.setCtx c { s1.ctx c with thread := some { j with pc := s.wordNext c k, acts := j.acts ++ nwActs n } }

theorem State.wordStep_some (h : (s.ctx c).thread = some k) (mw nw : StoreEcc) : s.wordStep c mw nw =
    if s.now < k.busyTo + s.wordEdges k.pc ∨ s.now % 2 = 1 then s
    else if mw = .uncorrectable ∨ nw = .uncorrectable then (s.wordFetched c k (fixedErrors mw nw)).routineFault c (s.wordIssued k) 4
    else if s.wordFault c (s.wordIssued k) (s.micro k.pc) (s.wordNano k) ≠ 0 then
      (s.wordFetched c k (fixedErrors mw nw)).routineFault c (s.wordIssued k) (s.wordFault c (s.wordIssued k) (s.micro k.pc) (s.wordNano k))
    else s.wordDone c k (fixedErrors mw nw) := by
  unfold State.wordStep
  split
  · next he => cases h.symm.trans he
  · next he =>
    cases h.symm.trans he
    rfl

end Sys2Proof.Machine
end

section
/-! Proofs about commit points and the obligation about routines (R262, R279, R281). -/

namespace Sys2Proof.Machine

variable {s x y z u v : State} {t c d n w o code st flow fixed fstate next : Nat} {k k' : Thread} {i : Instr} {mw nw : StoreEcc} {acts : List Act}

/-! ### Steps of one context -/

/-- Nothing but the state of context `c` differs. -/
def Only (c : Nat) (s z : State) : Prop := CtxSide s z ∧ ∀ d, d ≠ c → z.ctx d = s.ctx d

theorem Only.trans (h : Only c s y) (g : Only c y z) : Only c s z := ⟨h.1.trans g.1, fun d hd => (g.2 d hd).trans (h.2 d hd)⟩

theorem Only.refl (c : Nat) (s : State) : Only c s s := ⟨⟨_, rfl⟩, fun _ _ => rfl⟩

theorem State.setCtx_only (s : State) (c : Nat) (k : Ctx) : Only c s (s.setCtx c k) := ⟨⟨_, rfl⟩, fun _ hd => State.setCtx_ne _ _ (Ne.symm hd)⟩

theorem State.tryAuto_only (s : State) (c : Nat) : Only c s (s.tryAuto c) := ⟨s.tryAuto_ctxSide c, (s.tryAuto_triggered c).others⟩

/-- Where only a context's state differs, and not in whether it runs, a settled state stays so. -/
theorem Only.settled (h : Only c s z) (hset : s.Settled) (hst : (z.ctx c).st = (s.ctx c).st) : z.Settled := by
  obtain ⟨⟨m, hm⟩, hother⟩ := h
  exact hset.of_thread (by rw [hm]) hst hother

/-! ### A fetched microword -/

theorem State.wordFetched_plain (s : State) (c : Nat) (k : Thread) : s.wordFetched c k 0 = s.setCtx c { s.ctx c with thread := some (s.wordIssued k) } := rfl

theorem State.wordFetched_side (s : State) (c : Nat) (k : Thread) (fixed : Nat) :
    Side (s.setCtx c { s.ctx c with thread := some (s.wordIssued k) }) (s.wordFetched c k fixed) := by
  unfold State.wordFetched
  dsimp only
  split
  · exact Side.refl _
  · exact (State.bump64_side _ _ _ _).trans (State.evt_side _ _ _)

/-- Corrected errors are counted and flagged (R285). -/
theorem State.wordFetched_fixed (h : fixed ≠ 0) (s : State) (c : Nat) (k : Thread) :
    (s.wordFetched c k fixed).reg64 sSeq 0x03C = min (s.reg64 sSeq 0x03C + fixed) (2 ^ 64 - 1) ∧
    bit ((s.wordFetched c k fixed).reg (ra sSeq 0x008)) 4 = true := by
  have hx : s.wordFetched c k fixed = ((s.setCtx c { s.ctx c with thread := some (s.wordIssued k) }).bump64 sSeq 0x03C fixed).evt sSeq 4 := if_neg h
  rw [hx]
  refine ⟨?_, State.evt_bit _ (by decide)⟩
  rw [State.evt_reg64_of_ne _ _ _ (by decide) (by decide) (by decide) (by decide), State.reg64_bump64]
  rfl

theorem State.wordFetched_reg64 (h : 0x00C ≤ o ∧ o + 4 < 0x03C) (s : State) (c : Nat) (k : Thread) (fixed : Nat) :
    (s.wordFetched c k fixed).reg64 sSeq o = s.reg64 sSeq o := by
  unfold State.wordFetched
  dsimp only
  split
  · rfl
  · rw [State.evt_reg64_of_ne _ _ _ (by unfold ra; omega) (by unfold ra; omega) (by unfold ra; omega) (by unfold ra; omega),
      State.bump64_reg64 (.inr (by omega))]
    rfl

theorem State.wordFetched_fetched (s : State) (c : Nat) (k : Thread) (fixed : Nat) : Fetched c s (s.wordFetched c k fixed) (s.wordIssued k) := by
  have hfaults := s.wordFetched_reg64 (o := 0x034) (by decide) c k fixed
  have hrestarts := s.wordFetched_reg64 (o := 0x02C) (by decide) c k fixed
  have hside := s.wordFetched_side c k fixed
  have hset := State.setCtx_same s c { s.ctx c with thread := some (s.wordIssued k) }
  have honly := s.setCtx_only c { s.ctx c with thread := some (s.wordIssued k) }
  generalize s.wordFetched c k fixed = z at *
  generalize s.setCtx c { s.ctx c with thread := some (s.wordIssued k) } = y at *
  have hctxs := hside.ctxs
  obtain ⟨m, hm⟩ := honly.1
  refine ⟨(State.ctx_congr hctxs c).trans hset, fun d hd => (State.ctx_congr hctxs d).trans (honly.2 d hd), ?_, ?_, hfaults, hrestarts⟩
  · obtain ⟨_, _, _, _, _, hz⟩ := hside
    rw [hz, hm]
  · rw [hside.tab, hm]

/-! ### Breaks at a boundary (R283, R284) -/

/-- A Solstice that met the routine before its first microword, or none, breaks it nowhere. -/
theorem State.wordBreak_none (hsol : (k.solHit && k.issued) = false) (hdog : ∀ e, k.dog = some e → s.wordBegan c k e = true) : s.wordBreak c k = none := by
  unfold State.wordBreak
  dsimp only
  rw [hsol, Bool.false_and]
  split
  · next e he =>
    rw [if_pos (hdog e he)]
    rfl
  · rfl

theorem State.microword_none (h : (s.ctx c).thread = none) (mw nw : StoreEcc) : s.microword c mw nw = s := by
  unfold State.microword
  split
  · rfl
  · next he => cases h.symm.trans he

theorem State.microword_step (h : (s.ctx c).thread = some k) (hbreak : s.wordBreak c k = none) (mw nw : StoreEcc) :
    s.microword c mw nw = s.wordStep c mw nw := by
  unfold State.microword
  split
  · next he => cases h.symm.trans he
  · next he =>
    cases h.symm.trans he
    split
    · rfl
    · next hb => cases hbreak.symm.trans hb

/-- A microword that has not ended does nothing. -/
theorem State.microword_waits (h : (s.ctx c).thread = some k) (hbreak : s.wordBreak c k = none)
    (hwait : s.now < k.busyTo + s.wordEdges k.pc ∨ s.now % 2 = 1) (mw nw : StoreEcc) : s.microword c mw nw = s :=
  (State.microword_step h hbreak mw nw).trans ((State.wordStep_some h mw nw).trans (if_pos hwait))

theorem State.microword_uncorrectable (h : (s.ctx c).thread = some k) (hbreak : s.wordBreak c k = none)
    (hend : k.busyTo + s.wordEdges k.pc ≤ s.now) (heven : s.now % 2 = 0) (hecc : mw = .uncorrectable ∨ nw = .uncorrectable) :
    s.microword c mw nw = (s.wordFetched c k (fixedErrors mw nw)).routineFault c (s.wordIssued k) 4 :=
  (State.microword_step h hbreak mw nw).trans ((State.wordStep_some h mw nw).trans ((if_neg (by omega)).trans (if_pos hecc)))

theorem State.microword_faulty (h : (s.ctx c).thread = some k) (hbreak : s.wordBreak c k = none)
    (hend : k.busyTo + s.wordEdges k.pc ≤ s.now) (heven : s.now % 2 = 0) (hecc : ¬(mw = .uncorrectable ∨ nw = .uncorrectable))
    (hfault : s.wordFault c k (s.micro k.pc) (s.wordNano k) = code) (hcode : code ≠ 0) :
    s.microword c mw nw = (s.wordFetched c k (fixedErrors mw nw)).routineFault c (s.wordIssued k) code := by
  subst hfault
  exact (State.microword_step h hbreak mw nw).trans ((State.wordStep_some h mw nw).trans ((if_neg (by omega)).trans ((if_neg hecc).trans (if_pos hcode))))

theorem State.microword_done (h : (s.ctx c).thread = some k) (hbreak : s.wordBreak c k = none)
    (hend : k.busyTo + s.wordEdges k.pc ≤ s.now) (heven : s.now % 2 = 0) (hecc : ¬(mw = .uncorrectable ∨ nw = .uncorrectable))
    (hfault : s.wordFault c k (s.micro k.pc) (s.wordNano k) = 0) : s.microword c mw nw = s.wordDone c k (fixedErrors mw nw) :=
  (State.microword_step h hbreak mw nw).trans ((State.wordStep_some h mw nw).trans
    ((if_neg (by omega)).trans ((if_neg hecc).trans (if_neg (not_not.mpr hfault)))))

/-! ### Microwords without a commit -/

theorem State.wordDone_dog (hcommit : mwCommit (s.micro k.pc) = false) (hdog : k.dog.isSome = true) (fixed : Nat) :
    s.wordDone c k fixed = (s.wordFetched c k fixed).routineFault c (s.wordIssued k) 3 :=
  (if_neg (by rw [hcommit]; exact Bool.false_ne_true)).trans (if_pos hdog)

theorem State.wordDone_again (hcommit : mwCommit (s.micro k.pc) = false) (hdog : k.dog = none)
    (hagain : fixed ≠ 0 ∨ (s.wordIssued k).solHit = true) : s.wordDone c k fixed = (s.wordFetched c k fixed).restartRoutine c (s.wordIssued k) := by
  refine (if_neg (by rw [hcommit]; exact Bool.false_ne_true)).trans ((if_neg ?_).trans (if_pos ?_))
  · rw [show (s.wordIssued k).dog = none from hdog]
    exact Bool.false_ne_true
  · rw [Bool.or_eq_true, decide_eq_true_iff]
    exact hagain

theorem State.wordDone_on (hcommit : mwCommit (s.micro k.pc) = false) (hdog : k.dog = none) (hsol : k.solHit = false) :
    s.wordDone c k 0 = (s.wordFetched c k 0).setCtx c { (s.wordFetched c k 0).ctx c with
      thread := some { s.wordIssued k with pc := s.wordNext c k, acts := k.acts ++ nwActs (s.wordNano k) } } := by
  refine (if_neg (by rw [hcommit]; exact Bool.false_ne_true)).trans ((if_neg ?_).trans (if_neg ?_))
  · rw [show (s.wordIssued k).dog = none from hdog]
    exact Bool.false_ne_true
  · rw [show (s.wordIssued k).solHit = (k.solHit && decide (s.now - s.wordEdges k.pc < s.solEdge)) from rfl, hsol]
    exact Bool.false_ne_true

theorem State.wordDone_commit (hcommit : mwCommit (s.micro k.pc) = true) (hdog : k.dog = none) (hsol : k.solHit = false) :
    s.wordDone c k 0 = (s.wordFetched c k 0).commitPoint c (s.wordIssued k) (k.acts ++ nwActs (s.wordNano k)) (nwFlow (s.wordNano k))
      (nwFstate (s.wordNano k)) (s.wordNext c k) false := by
  have hissued : (s.wordIssued k).dog = none := hdog
  have hagain : (decide ((0 : Nat) ≠ 0) || (s.wordIssued k).solHit) = false := by
    rw [show (s.wordIssued k).solHit = (k.solHit && decide (s.now - s.wordEdges k.pc < s.solEdge)) from rfl, hsol]
    rfl
  unfold State.wordDone
  dsimp only
  rw [if_pos hcommit, hagain, Bool.false_and]
  split
  · next he _ => cases hissued.symm.trans he
  · next he _ => cases hissued.symm.trans he
  · rfl

end Sys2Proof.Machine
end

section
/-! Proofs about commit points (R262, R279, R281) and the obligation about routines. -/

namespace Sys2Proof.Machine

variable {s x y z u v : State} {t c d n w o code st flow fixed fstate next : Nat} {k k' : Thread} {i : Instr} {mw nw : StoreEcc} {acts : List Act}

/-! ### A commit point (R281) -/

/-- The committed actions have taken effect and what was set at the dispatch is cleared. -/
def State.committed (s : State) (c : Nat) (acts : List Act) : State :=
  let woke := decide (s.condVec c ≠ (s.ctx c).seen)
  let s1 := s.each acts fun s a => s.applyAct c a
  let x := s1.ctx c
  (s1.setCtx c { x with latch := x.latch &&& (x.disp ^^^ (2 ^ 32 - 1)), disp := 0, queued := x.queued || woke }).ctxSee c

/-- A routine after a commit point at which it goes on. -/
def State.threadOn (s : State) (k : Thread) (next : Nat) : Thread :=
  { k with acts := [], faulted := false, dog := none, since := s.now, pc := next, restart := next }

theorem State.commitPoint_on (s : State) (c : Nat) (k : Thread) (acts : List Act) (fstate next : Nat) :
    s.commitPoint c k acts 0 fstate next false =
    ((s.committed c acts).setCtx c { (s.committed c acts).ctx c with thread := some (s.threadOn k next) }).tryAuto c := rfl

theorem State.commitPoint_end (h : flow ≠ 0) (s : State) (c : Nat) (k : Thread) (acts : List Act) (fstate next : Nat) :
    s.commitPoint c k acts flow fstate next false = ((s.committed c acts).routineEnd c flow fstate).tryAuto c :=
  congrArg (fun z : State => z.tryAuto c) (if_pos h)

/-- A commit without actions. -/
theorem State.committed_none (s : State) (c : Nat) : Only c s (s.committed c []) ∧ ∃ q w l, (s.committed c []).ctx c = { s.ctx c with
    latch := (s.ctx c).latch &&& ((s.ctx c).disp ^^^ (2 ^ 32 - 1)), disp := 0, queued := q, seen := w, vlog := l } := by
  have hset := State.setCtx_same s c { s.ctx c with
    latch := (s.ctx c).latch &&& ((s.ctx c).disp ^^^ (2 ^ 32 - 1)), disp := 0
    queued := (s.ctx c).queued || decide (s.condVec c ≠ (s.ctx c).seen) }
  have honly := s.setCtx_only c { s.ctx c with
    latch := (s.ctx c).latch &&& ((s.ctx c).disp ^^^ (2 ^ 32 - 1)), disp := 0
    queued := (s.ctx c).queued || decide (s.condVec c ≠ (s.ctx c).seen) }
  have hx : s.committed c [] = (s.setCtx c { s.ctx c with
    latch := (s.ctx c).latch &&& ((s.ctx c).disp ^^^ (2 ^ 32 - 1)), disp := 0
    queued := (s.ctx c).queued || decide (s.condVec c ≠ (s.ctx c).seen) }).ctxSee c := rfl
  rw [hx]
  generalize s.setCtx c { s.ctx c with
    latch := (s.ctx c).latch &&& ((s.ctx c).disp ^^^ (2 ^ 32 - 1)), disp := 0
    queued := (s.ctx c).queued || decide (s.condVec c ≠ (s.ctx c).seen) } = y at *
  obtain ⟨l, hsee⟩ := y.ctxSee_ctx c
  exact ⟨honly.trans (y.setCtx_only c _), _, y.condVec c, l, by rw [hsee, hset]⟩

/-- A counter after a counter action. -/
def counterOp (op n : Nat) : Nat := if op = 1 then 0 else if op = 2 then satAdd 32 n 1 else n - 1

/-- A commit of one counter action. -/
theorem State.committed_counter (s : State) (c op j : Nat) : Only c s (s.committed c [.counter op j]) ∧ ∃ b q w l,
    (s.committed c [.counter op j]).ctx c = { s.ctx c with
      counters := (s.ctx c).counters.set j (counterOp op ((s.ctx c).counters.getD j 0)), latch := b, disp := 0, queued := q, seen := w, vlog := l } := by
  have hset := State.setCtx_same s c { s.ctx c with counters := (s.ctx c).counters.set j (counterOp op ((s.ctx c).counters.getD j 0)) }
  have honly := s.setCtx_only c { s.ctx c with counters := (s.ctx c).counters.set j (counterOp op ((s.ctx c).counters.getD j 0)) }
  have hx : ∃ q, s.committed c [.counter op j] = ((s.setCtx c { s.ctx c with
      counters := (s.ctx c).counters.set j (counterOp op ((s.ctx c).counters.getD j 0)) }).setCtx c
    { (s.setCtx c { s.ctx c with counters := (s.ctx c).counters.set j (counterOp op ((s.ctx c).counters.getD j 0)) }).ctx c with
      latch := ((s.setCtx c { s.ctx c with counters := (s.ctx c).counters.set j (counterOp op ((s.ctx c).counters.getD j 0)) }).ctx c).latch &&&
        (((s.setCtx c { s.ctx c with counters := (s.ctx c).counters.set j (counterOp op ((s.ctx c).counters.getD j 0)) }).ctx c).disp ^^^ (2 ^ 32 - 1))
      disp := 0, queued := q }).ctxSee c := ⟨_, rfl⟩
  obtain ⟨q, hx⟩ := hx
  rw [hx]
  generalize s.setCtx c { s.ctx c with counters := (s.ctx c).counters.set j (counterOp op ((s.ctx c).counters.getD j 0)) } = v at *
  have hclear := State.setCtx_same v c { v.ctx c with latch := (v.ctx c).latch &&& ((v.ctx c).disp ^^^ (2 ^ 32 - 1)), disp := 0, queued := q }
  have hcleared := v.setCtx_only c { v.ctx c with latch := (v.ctx c).latch &&& ((v.ctx c).disp ^^^ (2 ^ 32 - 1)), disp := 0, queued := q }
  generalize v.setCtx c { v.ctx c with latch := (v.ctx c).latch &&& ((v.ctx c).disp ^^^ (2 ^ 32 - 1)), disp := 0, queued := q } = y at *
  obtain ⟨l, hsee⟩ := y.ctxSee_ctx c
  exact ⟨(honly.trans hcleared).trans (y.setCtx_only c _), _, q, y.condVec c, l, by rw [hsee, hclear, hset]⟩

/-! ### The end of a routine (R279) -/

/-- A context whose routine has ended without a retrigger that waits. -/
def Ctx.ended (x : Ctx) (flow fstate : Nat) : Ctx :=
  if flow = 2 then { x with thread := none, pstate := fstate } else if flow = 3 then { x with thread := none, pstate := 0, inSeq := false }
  else { x with thread := none }

theorem State.routineEnd_plain (h4 : flow ≠ 4) (hre : (s.ctx c).retrig = false) (fstate : Nat) :
    s.routineEnd c flow fstate = s.setCtx c ((s.ctx c).ended flow fstate) := by
  have hno : ¬(s.ctx c).retrig = true := by
    rw [hre]
    exact Bool.false_ne_true
  unfold State.routineEnd Ctx.ended
  dsimp only
  rw [if_neg h4, if_neg hno, hre, Bool.and_false, if_neg Bool.false_ne_true]
  split
  · rfl
  · split <;> rfl

theorem State.routineEnd_stop (hre : (s.ctx c).retrig = false) (fstate : Nat) :
    s.routineEnd c 4 fstate = (s.setCtx c { s.ctx c with thread := none }).ctxStop c 1 := by
  unfold State.routineEnd
  dsimp only
  rw [if_pos rfl, hre, Bool.and_false, if_neg Bool.false_ne_true]

/-! ### The microword that commits -/

/-- At the present edge, an even one, the microword of a context's routine ends; no Solstice and no watchdog has met the routine. -/
structure WordEnds (s : State) (t : Nat) (c : Fin 512) (k : Thread) : Prop where
  thread : (s.ctx c).thread = some k
  ended : k.busyTo + s.wordEdges k.pc ≤ max s.now t
  even : max s.now t % 2 = 0
  solHit : k.solHit = false
  dog : k.dog = none

theorem WordEnds.unbroken {c : Fin 512} (h : WordEnds s t c k) : (s.advance t).wordBreak c k = none :=
  State.wordBreak_none (by rw [h.solHit, Bool.false_and]) fun e he => by cases h.dog.symm.trans he

theorem WordEnds.done {c : Fin 512} (h : WordEnds s t c k) (hfault : s.wordFault c k (s.micro k.pc) (s.wordNano k) = 0)
    (hecc : ¬(mw = .uncorrectable ∨ nw = .uncorrectable)) : (s.advance t).microword c mw nw = (s.advance t).wordDone c k (fixedErrors mw nw) :=
  State.microword_done (s := s.advance t) h.thread h.unbroken h.ended h.even hecc hfault

/-- The routine of a context changed and nothing else: the command answers that state. -/
theorem answers_of_only {s : State} {c : Fin 512} {f : State → State} {P : State → Prop} (hpow : s.Powered) (hset : s.Settled)
    (hi : exec i s = command t (fun s => (f s).settle) s) (hx : f (s.advance t) = z) (honly : Only c (s.advance t) z)
    (hst : (z.ctx c).st = (s.ctx c).st) (hp : P z) : Answers i s P := by
  have hsettled : z.Settled := honly.settled (s := s.advance t) hset hst
  exact answers_of hpow hi ((congrArg State.settle hx).trans (State.settle_id hsettled)) honly.1.quiet hp

/-- The state in which a context's microword has been fetched without an error. -/
theorem State.wordFetched_only (s : State) (c : Nat) (k : Thread) : Only c s (s.wordFetched c k 0) ∧
    (s.wordFetched c k 0).ctx c = { s.ctx c with thread := some (s.wordIssued k) } ∧ (s.wordFetched c k 0).now = s.now := by
  rw [State.wordFetched_plain]
  exact ⟨s.setCtx_only c _, State.setCtx_same _ _ _, rfl⟩

/-- The state at a commit point once its actions have taken effect. -/
def State.wordCommitted (s : State) (c : Nat) (k : Thread) : State := (s.wordFetched c k 0).committed c (k.acts ++ nwActs (s.wordNano k))

/-- A commit point without actions leaves the context with its latches cleared, and the routine that committed. -/
theorem State.wordCommitted_none (hacts : k.acts ++ nwActs (s.wordNano k) = []) : Only c s (s.wordCommitted c k) ∧
    ∃ q w l, (s.wordCommitted c k).ctx c = { s.ctx c with
      latch := (s.ctx c).latch &&& ((s.ctx c).disp ^^^ (2 ^ 32 - 1)), disp := 0, thread := some (s.wordIssued k), queued := q, seen := w, vlog := l } := by
  obtain ⟨hfetch, hctx, -⟩ := s.wordFetched_only c k
  unfold State.wordCommitted
  rw [hacts]
  generalize s.wordFetched c k 0 = y at *
  obtain ⟨hcomm, q, w, l, hcctx⟩ := y.committed_none c
  exact ⟨hfetch.trans hcomm, q, w, l, by rw [hcctx, hctx]⟩

/-- A microword whose commit lets the routine go on. -/
theorem routines_on {s : State} {c : Fin 512} (hpow : s.Powered) (hset : s.Settled) (hends : WordEnds s t c k)
    (hfault : s.wordFault c k (s.micro k.pc) (s.wordNano k) = 0) (hcommit : mwCommit (s.micro k.pc) = true) (hflow : nwFlow (s.wordNano k) = 0)
    {v : Ctx} (honly : Only c (s.advance t) ((s.advance t).wordCommitted c k)) (hctx : ((s.advance t).wordCommitted c k).ctx c = v)
    (hv : v.st = (s.ctx c).st) :
    Answers (.microword t c ⟨.clean, .clean⟩) s fun s' => ∃ a, s'.ctx c = { v with
      thread := some ((s.advance t).threadOn ((s.advance t).wordIssued k) ((s.advance t).wordNext c k)), autoAt := a } := by
  have hnow : ((s.advance t).wordFetched c k 0).now = (s.advance t).now := ((s.advance t).wordFetched_only c k).2.2
  have hthread : ((s.advance t).wordFetched c k 0).threadOn ((s.advance t).wordIssued k) ((s.advance t).wordNext c k) =
      (s.advance t).threadOn ((s.advance t).wordIssued k) ((s.advance t).wordNext c k) := by rw [State.threadOn, hnow, State.threadOn]
  have hdone := State.wordDone_commit (s := s.advance t) (c := c) hcommit hends.dog hends.solHit
  rw [show nwFlow ((s.advance t).wordNano k) = 0 from hflow, State.commitPoint_on, hthread] at hdone
  have hx : (s.advance t).microword c .clean .clean = _ := (hends.done hfault (by rintro (h | h) <;> cases h)).trans hdone
  have hset' := State.setCtx_same ((s.advance t).wordCommitted c k) c { ((s.advance t).wordCommitted c k).ctx c with
    thread := some ((s.advance t).threadOn ((s.advance t).wordIssued k) ((s.advance t).wordNext c k)) }
  have hall := honly.trans (State.setCtx_only ((s.advance t).wordCommitted c k) c { ((s.advance t).wordCommitted c k).ctx c with
    thread := some ((s.advance t).threadOn ((s.advance t).wordIssued k) ((s.advance t).wordNext c k)) })
  obtain ⟨a, hauto⟩ := State.tryAuto_ctx (((s.advance t).wordCommitted c k).setCtx c { ((s.advance t).wordCommitted c k).ctx c with
    thread := some ((s.advance t).threadOn ((s.advance t).wordIssued k) ((s.advance t).wordNext c k)) }) c
  have hauto' := hauto.trans (by rw [hset', hctx])
  refine answers_of_only hpow hset (exec_microword t c ⟨.clean, .clean⟩ s) hx (hall.trans (State.tryAuto_only _ c)) ?_ ⟨a, hauto'⟩
  exact (congrArg Ctx.st hauto').trans hv

/-- A microword whose commit ends the routine, without a retrigger that waits. -/
theorem routines_end {s : State} {c : Fin 512} (hpow : s.Powered) (hset : s.Settled) (hends : WordEnds s t c k)
    (hfault : s.wordFault c k (s.micro k.pc) (s.wordNano k) = 0) (hcommit : mwCommit (s.micro k.pc) = true) (h0 : nwFlow (s.wordNano k) ≠ 0)
    (h4 : nwFlow (s.wordNano k) ≠ 4) {v : Ctx} (honly : Only c (s.advance t) ((s.advance t).wordCommitted c k))
    (hctx : ((s.advance t).wordCommitted c k).ctx c = v) (hv : v.st = (s.ctx c).st) (hre : v.retrig = false) :
    Answers (.microword t c ⟨.clean, .clean⟩) s fun s' => ∃ a, s'.ctx c = { v.ended (nwFlow (s.wordNano k)) (nwFstate (s.wordNano k)) with autoAt := a } := by
  have hdone := State.wordDone_commit (s := s.advance t) (c := c) hcommit hends.dog hends.solHit
  rw [State.commitPoint_end (show nwFlow ((s.advance t).wordNano k) ≠ 0 from h0)] at hdone
  have hend := State.routineEnd_plain (s := (s.advance t).wordCommitted c k) (c := c) h4 (by rw [hctx]; exact hre) (nwFstate (s.wordNano k))
  rw [hctx] at hend
  have hx : (s.advance t).microword c .clean .clean = _ := (hends.done hfault (by rintro (h | h) <;> cases h)).trans
    (hdone.trans (congrArg (fun z : State => z.tryAuto c) hend))
  have hset' := State.setCtx_same ((s.advance t).wordCommitted c k) c (v.ended (nwFlow (s.wordNano k)) (nwFstate (s.wordNano k)))
  have hall := honly.trans (State.setCtx_only ((s.advance t).wordCommitted c k) c (v.ended (nwFlow (s.wordNano k)) (nwFstate (s.wordNano k))))
  obtain ⟨a, hauto⟩ := State.tryAuto_ctx (((s.advance t).wordCommitted c k).setCtx c (v.ended (nwFlow (s.wordNano k)) (nwFstate (s.wordNano k)))) c
  rw [hset'] at hauto
  have hst : (v.ended (nwFlow (s.wordNano k)) (nwFstate (s.wordNano k))).st = v.st := by
    unfold Ctx.ended
    split
    · rfl
    · split <;> rfl
  refine answers_of_only hpow hset (exec_microword t c ⟨.clean, .clean⟩ s) hx (hall.trans (State.tryAuto_only _ c)) ?_ ⟨a, hauto⟩
  exact (congrArg Ctx.st hauto).trans (hst.trans hv)

/-- A microword whose commit stops its context. -/
theorem routines_stop {s : State} {c : Fin 512} (hpow : s.Powered) (hends : WordEnds s t c k)
    (hfault : s.wordFault c k (s.micro k.pc) (s.wordNano k) = 0) (hcommit : mwCommit (s.micro k.pc) = true) (h4 : nwFlow (s.wordNano k) = 4)
    {v : Ctx} (hctx : ((s.advance t).wordCommitted c k).ctx c = v) (hv : v.st = .running) (hre : v.retrig = false) :
    Answers (.microword t c ⟨.clean, .clean⟩) s fun s' => (s'.ctx c).thread = none ∧
      (s'.ctx c).cause = 1 ∧ ((s'.ctx c).st = .stopping ∨ (s'.ctx c).st = .idle) := by
  have hdone := State.wordDone_commit (s := s.advance t) (c := c) hcommit hends.dog hends.solHit
  rw [show nwFlow ((s.advance t).wordNano k) = 4 from h4, State.commitPoint_end (by decide)] at hdone
  have hend := State.routineEnd_stop (s := (s.advance t).wordCommitted c k) (c := c) (by rw [hctx]; exact hre) (nwFstate ((s.advance t).wordNano k))
  have hx : (s.advance t).microword c .clean .clean = _ := (hends.done hfault (by rintro (h | h) <;> cases h)).trans
    (hdone.trans (congrArg (fun z : State => z.tryAuto c) hend))
  have hrun : ((((s.advance t).wordCommitted c k).setCtx c { ((s.advance t).wordCommitted c k).ctx c with thread := none }).ctx c).st = .running := by
    rw [State.setCtx_same, hctx]
    exact hv
  generalize ((s.advance t).wordCommitted c k).setCtx c { ((s.advance t).wordCommitted c k).ctx c with thread := none } = y at hx hrun
  have hstop := State.ctxStop_aside hrun 1
  have hstopped : (y.ctxStop c 1).ctx c = (y.ctx c).stoppedBy 1 :=
    (State.ctx_congr (z := y.ctxStop c 1) (s := y.setCtx c ((y.ctx c).stoppedBy 1)) (congrArg Prod.fst hstop) c).trans (State.setCtx_same _ _ _)
  have htry : (y.ctxStop c 1).tryAuto c = y.ctxStop c 1 := by
    refine if_neg ?_
    rw [hstopped]
    exact Bool.false_ne_true
  obtain ⟨hcause, hst, hthread, -, -⟩ := State.ctxStop_settle hrun (cause := 1) (by decide)
  refine answers_of_wrapped hpow (exec_microword t c ⟨.clean, .clean⟩ s) fun l => ?_
  rw [show (s.advance t).microword c .clean .clean = y.ctxStop c 1 from hx.trans htry]
  exact ⟨hthread, hcause, hst⟩

/-! ### The obligation -/

theorem routines_commits {s : State} {c : Fin 512} (hpow : s.Powered) (hset : s.Settled) (hends : WordEnds s t c k)
    (hfault : s.wordFault c k (s.micro k.pc) (s.wordNano k) = 0) (hcommit : mwCommit (s.micro k.pc) = true)
    (hacts : k.acts ++ nwActs (s.wordNano k) = []) (hre : (s.ctx c).retrig = false) :
    let x := s.ctx c
    let n := s.wordNano k
    let next := (s.advance t).wordNext c k
    let latch := x.latch &&& (x.disp ^^^ (2 ^ 32 - 1))
    (nwFlow n = 0 → Answers (.microword t c ⟨.clean, .clean⟩) s fun s' => (s'.ctx c).latch = latch ∧ (s'.ctx c).disp = 0 ∧
      ∃ k', (s'.ctx c).thread = some k' ∧ k'.pc = next ∧ k'.restart = next ∧ k'.acts = [] ∧ k'.faulted = false ∧
        k'.since = max s.now t) ∧
    (nwFlow n = 1 → Answers (.microword t c ⟨.clean, .clean⟩) s fun s' => (s'.ctx c).latch = latch ∧ (s'.ctx c).thread = none ∧
      (s'.ctx c).pstate = x.pstate ∧ (s'.ctx c).inSeq = x.inSeq) ∧
    (nwFlow n = 2 → Answers (.microword t c ⟨.clean, .clean⟩) s fun s' => (s'.ctx c).latch = latch ∧ (s'.ctx c).thread = none ∧
      (s'.ctx c).pstate = nwFstate n ∧ (s'.ctx c).inSeq = x.inSeq) ∧
    (nwFlow n = 3 → Answers (.microword t c ⟨.clean, .clean⟩) s fun s' => (s'.ctx c).latch = latch ∧ (s'.ctx c).thread = none ∧
      (s'.ctx c).pstate = 0 ∧ (s'.ctx c).inSeq = false) ∧
    (nwFlow n = 4 → x.st = .running → Answers (.microword t c ⟨.clean, .clean⟩) s fun s' => (s'.ctx c).thread = none ∧
      (s'.ctx c).cause = 1 ∧ ((s'.ctx c).st = .stopping ∨ (s'.ctx c).st = .idle)) := by
  obtain ⟨honly, q, w, l, hctx⟩ := State.wordCommitted_none (s := s.advance t) (c := c) hacts
  have hend (h0 : nwFlow (s.wordNano k) ≠ 0) (h4 : nwFlow (s.wordNano k) ≠ 4) :=
    routines_end hpow hset hends hfault hcommit h0 h4 honly hctx rfl hre
  refine ⟨fun h0 => ?_, fun h1 => ?_, fun h2 => ?_, fun h3 => ?_, fun h4 hrun => routines_stop hpow hends hfault hcommit h4 hctx hrun hre⟩
  · obtain ⟨z, hz, a, hzctx⟩ := routines_on hpow hset hends hfault hcommit h0 honly hctx rfl
    exact ⟨z, hz, (congrArg Ctx.latch hzctx).trans rfl, (congrArg Ctx.disp hzctx).trans rfl, _, congrArg Ctx.thread hzctx, rfl, rfl, rfl, rfl, rfl⟩
  · obtain ⟨z, hz, a, hzctx⟩ := hend (by omega) (by omega)
    rw [Ctx.ended, if_neg (by omega), if_neg (by omega)] at hzctx
    exact ⟨z, hz, (congrArg Ctx.latch hzctx).trans rfl, (congrArg Ctx.thread hzctx).trans rfl, (congrArg Ctx.pstate hzctx).trans rfl,
      (congrArg Ctx.inSeq hzctx).trans rfl⟩
  · obtain ⟨z, hz, a, hzctx⟩ := hend (by omega) (by omega)
    rw [Ctx.ended, if_pos h2] at hzctx
    exact ⟨z, hz, (congrArg Ctx.latch hzctx).trans rfl, (congrArg Ctx.thread hzctx).trans rfl, (congrArg Ctx.pstate hzctx).trans rfl,
      (congrArg Ctx.inSeq hzctx).trans rfl⟩
  · obtain ⟨z, hz, a, hzctx⟩ := hend (by omega) (by omega)
    rw [Ctx.ended, if_neg (by omega), if_pos h3] at hzctx
    exact ⟨z, hz, (congrArg Ctx.latch hzctx).trans rfl, (congrArg Ctx.thread hzctx).trans rfl, (congrArg Ctx.pstate hzctx).trans rfl,
      (congrArg Ctx.inSeq hzctx).trans rfl⟩

end Sys2Proof.Machine
end

section
/-! The obligation about routines (14_microcode.md). -/

namespace Sys2Proof.Machine

variable {s x y z u v : State} {t c d n w o code st fixed : Nat} {k k' : Thread} {i : Instr} {mw nw : StoreEcc}

/-! ### Microwords that fault or start their routine again -/

theorem Fetched.of_thread (h : (s.ctx c).thread = some k) (t : Nat) : Fetched c s (s.advance t) k :=
  ⟨by rw [← h]; rfl, fun _ _ => rfl, rfl, rfl, rfl, rfl⟩

theorem Fetched.of_word (s : State) (t c : Nat) (k : Thread) (fixed : Nat) :
    Fetched c s ((s.advance t).wordFetched c k fixed) ((s.advance t).wordIssued k) := by
  obtain ⟨hctx, hother, hcaps, htab, hfaults, hrestarts⟩ := (s.advance t).wordFetched_fetched c k fixed
  exact ⟨hctx, hother, hcaps, htab, hfaults, hrestarts⟩

/-- A microword whose fetch or fields raise a fault. -/
theorem routines_fault {s : State} {c : Fin 512} (hpow : s.Powered) (hset : s.Settled)
    (hx : (s.advance t).microword c mw nw = ((s.advance t).wordFetched c k fixed).routineFault c ((s.advance t).wordIssued k) code) :
    Faults s c k code (.microword t c ⟨mw, nw⟩) :=
  faults_of hpow hset (exec_microword t c ⟨mw, nw⟩ s) hx (Fetched.of_word s t c k fixed) rfl rfl rfl rfl

/-- A microword that executes and starts its routine again. -/
theorem routines_again {s : State} {c : Fin 512} (hpow : s.Powered) (hset : s.Settled)
    (hx : (s.advance t).microword c mw nw = ((s.advance t).wordFetched c k fixed).restartRoutine c ((s.advance t).wordIssued k)) :
    Answers (.microword t c ⟨mw, nw⟩) s fun s' => (s'.ctx c).thread = some ((s.advance t).wordIssued k).restarted ∧
      (fixed ≠ 0 → s'.reg64 sSeq 0x03C = min (s.reg64 sSeq 0x03C + fixed) (2 ^ 64 - 1) ∧ bit (s'.reg (ra sSeq 0x008)) 4 = true) := by
  have hv := Fetched.of_word s t c k fixed
  have hfixed (h : fixed ≠ 0) : _ ∧ _ := (s.advance t).wordFetched_fixed h c k
  obtain ⟨⟨hctx, hother, hcaps⟩, -, -, -, hkeep, hstand⟩ := ((s.advance t).wordFetched c k fixed).restartRoutine_spec c ((s.advance t).wordIssued k)
  generalize (s.advance t).wordFetched c k fixed = y at *
  generalize y.restartRoutine c ((s.advance t).wordIssued k) = z at *
  have hsettled : z.Settled := hset.of_thread (hcaps.trans hv.caps) (by rw [hctx, hv.ctx]) fun d hd => (hother d hd).trans (hv.others d hd)
  refine answers_of_wrapped hpow (exec_microword t c ⟨mw, nw⟩ s) fun l => ?_
  rw [hx, State.settle_id hsettled]
  refine ⟨congrArg Ctx.thread hctx, fun h => ?_⟩
  obtain ⟨hcount, hbit⟩ := hfixed h
  have hpair : z.reg64 sSeq 0x03C = y.reg64 sSeq 0x03C := by
    rw [State.reg64, hstand 0x03C (by decide) (by decide) (by decide) (by decide), hstand (0x03C + 4) (by decide) (by decide) (by decide) (by decide),
      State.reg64]
  exact ⟨hpair.trans hcount, hkeep 4 hbit⟩

/-- A microword after which the routine goes on. -/
theorem routines_next {s : State} {c : Fin 512} (hpow : s.Powered) (hset : s.Settled) (hends : WordEnds s t c k)
    (hfault : s.wordFault c k (s.micro k.pc) (s.wordNano k) = 0) (hcommit : mwCommit (s.micro k.pc) = false) :
    Answers (.microword t c ⟨.clean, .clean⟩) s fun s' => (s'.ctx c).thread = some { (s.advance t).wordIssued k with
      pc := (s.advance t).wordNext c k, acts := k.acts ++ nwActs (s.wordNano k) } ∧ s' = { s.advance t with ctxs := s'.ctxs } := by
  obtain ⟨hfetch, hctx, -⟩ := (s.advance t).wordFetched_only c k
  have hx : (s.advance t).microword c .clean .clean = _ := (hends.done hfault (by rintro (h | h) <;> cases h)).trans
    (State.wordDone_on (s := s.advance t) (c := c) hcommit hends.dog hends.solHit)
  generalize (s.advance t).wordFetched c k 0 = y at *
  have hset' := State.setCtx_same y c { y.ctx c with
    thread := some { (s.advance t).wordIssued k with pc := (s.advance t).wordNext c k, acts := k.acts ++ nwActs ((s.advance t).wordNano k) } }
  have hall := hfetch.trans (y.setCtx_only c { y.ctx c with
    thread := some { (s.advance t).wordIssued k with pc := (s.advance t).wordNext c k, acts := k.acts ++ nwActs ((s.advance t).wordNano k) } })
  refine answers_of_only hpow hset (exec_microword t c ⟨.clean, .clean⟩ s) hx hall ?_ ⟨?_, hall.1.eq⟩
  · rw [hset', hctx]
    rfl
  · exact (congrArg Ctx.thread hset').trans rfl

/-- A commit of one counter action that lets the routine go on (R280). -/
theorem routines_counter {s : State} {c : Fin 512} (hpow : s.Powered) (hset : s.Settled) (hends : WordEnds s t c k)
    (hfault : s.wordFault c k (s.micro k.pc) (s.wordNano k) = 0) (hcommit : mwCommit (s.micro k.pc) = true) (hflow : nwFlow (s.wordNano k) = 0)
    {op j : Nat} (hacts : k.acts ++ nwActs (s.wordNano k) = [.counter op j]) :
    Answers (.microword t c ⟨.clean, .clean⟩) s fun s' =>
      (s'.ctx c).counters = (s.ctx c).counters.set j (counterOp op ((s.ctx c).counters.getD j 0)) := by
  have hcommitted : Only c (s.advance t) ((s.advance t).wordCommitted c k) ∧ ∃ b q w l th, ((s.advance t).wordCommitted c k).ctx c = { s.ctx c with
      counters := (s.ctx c).counters.set j (counterOp op ((s.ctx c).counters.getD j 0)), latch := b, disp := 0, queued := q, seen := w, vlog := l
      thread := th } := by
    obtain ⟨hfetch, hctx, -⟩ := (s.advance t).wordFetched_only c k
    unfold State.wordCommitted
    rw [show k.acts ++ nwActs ((s.advance t).wordNano k) = [.counter op j] from hacts]
    generalize (s.advance t).wordFetched c k 0 = y at *
    obtain ⟨hcomm, b, q, w, l, hcctx⟩ := y.committed_counter c op j
    exact ⟨hfetch.trans hcomm, b, q, w, l, some ((s.advance t).wordIssued k), by rw [hcctx, hctx]; rfl⟩
  obtain ⟨honly, b, q, w, l, th, hctx⟩ := hcommitted
  obtain ⟨z, hz, a, hzctx⟩ := routines_on hpow hset hends hfault hcommit hflow honly hctx rfl
  exact ⟨z, hz, (congrArg Ctx.counters hzctx).trans rfl⟩

/-- A routine holds the words that it has fetched (R286). -/
theorem State.wordIssued_micro (s : State) (k : Thread) : k.pc ∈ (s.wordIssued k).micro := by
  unfold State.wordIssued
  dsimp only
  split
  · next h => exact List.contains_iff_mem.mp h
  · exact List.mem_cons_self

theorem State.wordIssued_nano (s : State) (k : Thread) : mwNano (s.micro k.pc) ∈ (s.wordIssued k).nano := by
  unfold State.wordIssued
  dsimp only
  split
  · next h => exact List.contains_iff_mem.mp h
  · exact List.mem_cons_self

/-! ### The watchdog -/

theorem routines_watchdog {s : State} {c : Fin 512} (hpow : s.Powered) (hset : s.Settled) (hk : (s.ctx c).thread = some k) :
    let u := s.advance t
    let now := max s.now t
    (now < k.since + 131_072 → exec (.watchdog t c) s = .next u) ∧
    (k.since + 131_072 ≤ now → now ≤ k.busyTo → Faults s c k 3 (.watchdog t c)) ∧
    (k.since + 131_072 ≤ now → k.busyTo < now → exec (.watchdog t c) s = .next
      (u.setCtx c { s.ctx c with thread := some { k with dog := k.dog.or (some now) } })) := by
  intro u now
  have hdog := State.watchdog_some (s := u) (c := c) hk
  refine ⟨fun hlt => ?_, fun hle hin => ?_, fun hle hout => ?_⟩
  · have hx : (u.watchdog c).settle = u :=
      (congrArg State.settle (hdog.trans (if_neg (Nat.not_le.mpr hlt)))).trans (State.settle_id (s := u) hset)
    exact next_of hpow (exec_watchdog t c s) hx (Quiet.refl _)
  · have hx : u.watchdog c = u.routineFault c k 3 := hdog.trans ((if_pos hle).trans (if_neg (Nat.not_lt.mpr hin)))
    exact faults_of hpow hset (exec_watchdog t c s) hx (Fetched.of_thread hk t) rfl rfl rfl rfl
  · have hx : u.watchdog c = _ := hdog.trans ((if_pos hle).trans (if_pos hout))
    have honly := u.setCtx_only c { s.ctx c with thread := some { k with dog := k.dog.or (some now) } }
    have hsame := State.setCtx_same u c { s.ctx c with thread := some { k with dog := k.dog.or (some now) } }
    have hsettled := honly.settled (s := u) hset (by rw [hsame]; rfl)
    exact next_of hpow (exec_watchdog t c s) ((congrArg State.settle hx).trans (State.settle_id hsettled)) honly.1.quiet

/-! ### The obligation -/

theorem clean_correctable : ¬(StoreEcc.clean = .uncorrectable ∨ StoreEcc.clean = .uncorrectable) := by decide

/-- The microwords of a routine in progress. -/
theorem routines_words {s : State} {c : Fin 512} (hpow : s.Powered) (hset : s.Settled) (hk : (s.ctx c).thread = some k) :
    let u := s.advance t
    let now := max s.now t
    let x := s.ctx c
    let w := s.micro k.pc
    let n := s.nano (mwNano w)
    let edges := s.wordEdges k.pc
    let acts := k.acts ++ nwActs n
    let next := mwNext w ||| ((u.condAt c (now - edges) >>> (4 * mwBsel w)) % 2 ^ mwBw w)
    (k.busyTo + edges ≤ now → now % 2 = 0 → k.solHit = false → k.dog = none →
      (∀ e, Faults s c k 4 (.microword t c ⟨.uncorrectable, e⟩) ∧ Faults s c k 4 (.microword t c ⟨e, .uncorrectable⟩)) ∧
      (∀ code, code ≠ 0 → s.wordFault c k w n = code → Faults s c k code (.microword t c ⟨.clean, .clean⟩)) ∧
      (s.wordFault c k w n = 0 →
        (mwCommit w = false → Answers (.microword t c ⟨.clean, .clean⟩) s fun s' => ∃ k', (s'.ctx c).thread = some k' ∧ k'.pc = next ∧
          k'.acts = acts ∧ k'.restart = k.restart ∧ k'.since = k.since ∧ k'.faulted = k.faulted ∧ k'.busyTo = now ∧
          k.pc ∈ k'.micro ∧ mwNano w ∈ k'.nano ∧ s' = { u with ctxs := s'.ctxs }) ∧
        (mwCommit w = false → ∀ e : StoreEcc × StoreEcc × Nat,
          e ∈ [(StoreEcc.corrected, StoreEcc.clean, 1), (.clean, .corrected, 1), (.corrected, .corrected, 2)] →
          Answers (.microword t c ⟨e.1, e.2.1⟩) s fun s' =>
            s'.reg64 sSeq 0x03C = min (s.reg64 sSeq 0x03C + e.2.2) (2 ^ 64 - 1) ∧ bit (s'.reg (ra sSeq 0x008)) 4 = true ∧
            ∃ k', (s'.ctx c).thread = some k' ∧ k'.pc = k.restart ∧ k'.acts = []) ∧
        (mwCommit w = true → acts = [] → x.retrig = false →
          let latch := x.latch &&& (x.disp ^^^ (2 ^ 32 - 1))
          (nwFlow n = 0 → Answers (.microword t c ⟨.clean, .clean⟩) s fun s' => (s'.ctx c).latch = latch ∧ (s'.ctx c).disp = 0 ∧
            ∃ k', (s'.ctx c).thread = some k' ∧ k'.pc = next ∧ k'.restart = next ∧ k'.acts = [] ∧ k'.faulted = false ∧
              k'.since = now) ∧
          (nwFlow n = 1 → Answers (.microword t c ⟨.clean, .clean⟩) s fun s' => (s'.ctx c).latch = latch ∧ (s'.ctx c).thread = none ∧
            (s'.ctx c).pstate = x.pstate ∧ (s'.ctx c).inSeq = x.inSeq) ∧
          (nwFlow n = 2 → Answers (.microword t c ⟨.clean, .clean⟩) s fun s' => (s'.ctx c).latch = latch ∧ (s'.ctx c).thread = none ∧
            (s'.ctx c).pstate = nwFstate n ∧ (s'.ctx c).inSeq = x.inSeq) ∧
          (nwFlow n = 3 → Answers (.microword t c ⟨.clean, .clean⟩) s fun s' => (s'.ctx c).latch = latch ∧ (s'.ctx c).thread = none ∧
            (s'.ctx c).pstate = 0 ∧ (s'.ctx c).inSeq = false) ∧
          (nwFlow n = 4 → x.st = .running → Answers (.microword t c ⟨.clean, .clean⟩) s fun s' => (s'.ctx c).thread = none ∧
            (s'.ctx c).cause = 1 ∧ ((s'.ctx c).st = .stopping ∨ (s'.ctx c).st = .idle)))) ∧
      (s.wordFault c k w n = 0 → mwCommit w = true → nwFlow n = 0 → (∀ i b, acts = [.counter i b] → b < 4 → x.counters.length = 4 →
        Answers (.microword t c ⟨.clean, .clean⟩) s fun s' => ∃ m, x.counters[b]? = some m ∧ (s'.ctx c).counters = x.counters.set b
          (if i = 1 then 0 else if i = 2 then min (m + 1) (2 ^ 32 - 1) else m - 1)))) := by
  intro u now x w n edges acts next hend heven hsol hdog
  have hends : WordEnds s t c k := ⟨hk, hend, heven, hsol, hdog⟩
  refine ⟨fun e => ⟨?_, ?_⟩, fun code hcode hfault => ?_, fun hfault => ⟨fun hcommit => ?_, fun hcommit e he => ?_, fun hcommit hacts hre => ?_⟩,
    fun hfault hcommit hflow op j hacts hj hlen => ?_⟩
  · exact routines_fault hpow hset (State.microword_uncorrectable (s := u) hk hends.unbroken hend heven (.inl rfl))
  · exact routines_fault hpow hset (State.microword_uncorrectable (s := u) hk hends.unbroken hend heven (.inr rfl))
  · exact routines_fault hpow hset (State.microword_faulty (s := u) hk hends.unbroken hend heven clean_correctable hfault hcode)
  · obtain ⟨z, hz, hthread, hside⟩ := routines_next hpow hset hends hfault hcommit
    refine ⟨z, hz, _, hthread, rfl, rfl, rfl, rfl, rfl, rfl, ?_, ?_, hside⟩
    · exact State.wordIssued_micro u k
    · exact State.wordIssued_nano u k
  · have hany (mw nw : StoreEcc) (hecc : ¬(mw = .uncorrectable ∨ nw = .uncorrectable)) (hfixed : fixedErrors mw nw ≠ 0) :
        Answers (.microword t c ⟨mw, nw⟩) s fun s' =>
          s'.reg64 sSeq 0x03C = min (s.reg64 sSeq 0x03C + fixedErrors mw nw) (2 ^ 64 - 1) ∧ bit (s'.reg (ra sSeq 0x008)) 4 = true ∧
          ∃ k', (s'.ctx c).thread = some k' ∧ k'.pc = k.restart ∧ k'.acts = [] := by
      have hx := (hends.done hfault hecc).trans (State.wordDone_again (s := u) (c := c) hcommit hdog (.inl hfixed))
      obtain ⟨z, hz, hthread, hcount⟩ := routines_again hpow hset hx
      exact ⟨z, hz, (hcount hfixed).1, (hcount hfixed).2, _, hthread, rfl, rfl⟩
    rcases List.mem_cons.mp he with rfl | he
    · exact hany .corrected .clean (by rintro (h | h) <;> cases h) (by decide)
    rcases List.mem_cons.mp he with rfl | he
    · exact hany .clean .corrected (by rintro (h | h) <;> cases h) (by decide)
    rcases List.mem_singleton.mp he with rfl
    exact hany .corrected .corrected (by rintro (h | h) <;> cases h) (by decide)
  · exact routines_commits hpow hset hends hfault hcommit hacts hre
  · obtain ⟨z, hz, hcount⟩ := routines_counter hpow hset hends hfault hcommit hflow hacts
    have hin : j < x.counters.length := by omega
    refine ⟨z, hz, x.counters[j], List.getElem?_eq_getElem hin, hcount.trans ?_⟩
    rw [List.getD_eq_getElem _ _ hin]
    rfl

/-- Settles O58: dispatch, the watchdog and the microwords of a routine, with their faults. -/
theorem routines : Obligations.Routines := by
  intro s t c hpow hset
  obtain ⟨hno, hyes⟩ := routines_dispatch s t c hpow
  refine ⟨hno, hyes, fun hnone => ⟨fun ecc => ?_, ?_⟩, fun k hk => ?_⟩
  · have hx : ((s.advance t).microword c ecc.micro ecc.nano).settle = s.advance t :=
      (congrArg State.settle (State.microword_none (s := s.advance t) hnone ecc.micro ecc.nano)).trans (State.settle_id (s := s.advance t) hset)
    exact next_of hpow (exec_microword t c ecc s) hx (Quiet.refl _)
  · have hx : ((s.advance t).watchdog c).settle = s.advance t :=
      (congrArg State.settle (State.watchdog_none (s := s.advance t) hnone)).trans (State.settle_id (s := s.advance t) hset)
    exact next_of hpow (exec_watchdog t c s) hx (Quiet.refl _)
  · obtain ⟨hearly, hat, hin⟩ := routines_watchdog (t := t) hpow hset hk
    refine ⟨hearly, hat, hin, fun hwait hsol hdog ecc => ?_, fun hend heven hsol hfault hcommit e hdog hbegan => ?_,
      fun hend heven hsol hissued hdog hlt hfault hcommit => ?_, routines_words hpow hset hk⟩
    · have hbreak : (s.advance t).wordBreak c k = none :=
        State.wordBreak_none (by rw [hsol, Bool.false_and]) fun e he => by cases hdog.symm.trans he
      have hx : ((s.advance t).microword c ecc.micro ecc.nano).settle = s.advance t :=
        (congrArg State.settle (State.microword_waits (s := s.advance t) hk hbreak hwait ecc.micro ecc.nano)).trans
          (State.settle_id (s := s.advance t) hset)
      exact next_of hpow (exec_microword t c ecc s) hx (Quiet.refl _)
    · have hbreak : (s.advance t).wordBreak c k = none :=
        State.wordBreak_none (by rw [hsol, Bool.false_and]) fun e' he => by cases hdog.symm.trans he; exact hbegan
      have hx := (State.microword_done (s := s.advance t) hk hbreak hend heven clean_correctable hfault).trans
        (State.wordDone_dog (s := s.advance t) (c := c) hcommit (by rw [hdog]; rfl) _)
      exact routines_fault hpow hset hx
    · have hbreak : (s.advance t).wordBreak c k = none :=
        State.wordBreak_none (by rw [hissued, Bool.and_false]) fun e' he => by cases hdog.symm.trans he
      have hhit : ((s.advance t).wordIssued k).solHit = true := by
        rw [show ((s.advance t).wordIssued k).solHit = (k.solHit && decide (max s.now t - s.wordEdges k.pc < s.solEdge)) from rfl, hsol, decide_eq_true hlt]
        rfl
      have hx := (State.microword_done (s := s.advance t) hk hbreak hend heven clean_correctable hfault).trans
        (State.wordDone_again (s := s.advance t) (c := c) hcommit hdog (.inr hhit))
      obtain ⟨z, hz, hthread, -⟩ := routines_again hpow hset hx
      exact ⟨z, hz, _, hthread, rfl, rfl, rfl, rfl⟩

end Sys2Proof.Machine
end

section
/-! Proofs about the writer of records: what it puts into a capture, and what stands as it does (R295, R302 to R307). -/

namespace Sys2Proof.Machine

variable {s x y z u v : State} {t c d n w o off : Nat} {b : List Byte} {i : Item} {k : Cap} {r : Rec} {g : Seg} {e : Int}

/-! ### No capture has to overflow -/

/-- What a map finds stands in it. -/
theorem Sparse.mem_of_find {α : Type} {k : α} : ∀ {m : List (Nat × α)}, Sparse.find m n = some k → (n, k) ∈ m
  | [], h => nomatch h
  | (l, w) :: r, h => by
    unfold Sparse.find at h
    split at h
    · next heq =>
      cases h
      exact heq ▸ List.mem_cons_self
    · exact List.mem_cons_of_mem _ (Sparse.mem_of_find h)

/-- No capture has to overflow at this edge. -/
def State.Clear (s : State) : Prop := ∀ e ∈ s.caps, e.2.full = false

theorem State.Clear.of_caps (h : s.Clear) (hcaps : z.caps = s.caps) : z.Clear := by
  unfold State.Clear
  rw [hcaps]
  exact h

theorem State.Clear.cap (h : s.Clear) (c : Nat) : (s.cap c).full = false := by
  have hfind : (s.cap c) = (Sparse.find s.caps c).getD {} := Sparse.get_eq_find _ _ _
  rw [hfind]
  cases hf : Sparse.find s.caps c
  case none => rfl
  case some k => exact h _ (Sparse.mem_of_find hf)

theorem State.Clear.setCap (h : s.Clear) (c : Nat) (hk : k.full = false) : (s.setCap c k).Clear := by
  intro e he
  rcases Sparse.mem_set he with rfl | hold
  · exact hk
  · exact h e hold

/-! ### Bytes (R295, R307) -/

/-- A capture with more bytes written. -/
def Cap.grown (k : Cap) (stream : Bool) (now : Nat) (b : List Byte) : Cap := { k with
  used := if k.mute then k.used else k.used + b.length
  written := k.written + b.length
  rec' := k.rec'.map fun r => { r with bytes := r.bytes + b.length }
  msg := if stream then k.msg ++ b else []
  msgFrom := if k.msg.isEmpty then now else k.msgFrom }

/-- A step of the writer: captures, channels, registers and tables may change, what they tell may leave the block, and free values are
taken; nothing else. -/
def Filed (s z : State) : Prop :=
  ∃ a d f m, Side { s with caps := a, dma := d, freeCtr := f, tab := m } z

theorem Filed.refl (s : State) : Filed s s := ⟨s.caps, s.dma, s.freeCtr, s.tab, Side.refl s⟩

theorem Filed.trans (h : Filed s y) (g : Filed y z) : Filed s z := by
  obtain ⟨_, _, _, _, _, _, _, _, _, rfl⟩ := h
  obtain ⟨a, d, f, m, _, _, _, _, _, rfl⟩ := g
  exact ⟨a, d, f, m, _, _, _, _, _, rfl⟩

theorem Side.filed (h : Side s z) : Filed s z := ⟨s.caps, s.dma, s.freeCtr, s.tab, h⟩

theorem State.setCap_filed (s : State) (c : Nat) (k : Cap) : Filed s (s.setCap c k) := ⟨_, s.dma, s.freeCtr, s.tab, Side.refl _⟩

theorem State.setDma_filed (s : State) (n : Nat) (q : Dma) : Filed s (s.setDma n q) := ⟨s.caps, _, s.freeCtr, s.tab, Side.refl _⟩

theorem Filed.ctxs (h : Filed s z) : z.ctxs = s.ctxs := by
  obtain ⟨_, _, _, _, _, _, _, _, _, rfl⟩ := h
  rfl

/-- What a step of the writer leaves beside its own capture: registers and tables stand. -/
structure Putting (c : Nat) (s z : State) : Prop where
  filed : Filed s z
  regs : z.regs = s.regs
  tab : z.tab = s.tab
  clear : s.Clear → z.Clear

theorem Putting.refl (c : Nat) (s : State) : Putting c s s := ⟨Filed.refl s, rfl, rfl, id⟩

theorem Putting.trans (h : Putting c s y) (g : Putting c y z) : Putting c s z :=
  ⟨h.filed.trans g.filed, g.regs.trans h.regs, g.tab.trans h.tab, fun hs => g.clear (h.clear hs)⟩

theorem State.setCap_putting (s : State) (hk : (s.cap c).full = false → k.full = false) : Putting c s (s.setCap c k) :=
  ⟨s.setCap_filed c k, rfl, rfl, fun h => h.setCap c (hk (h.cap c))⟩

theorem State.setDma_putting (s : State) (n : Nat) (q : Dma) : Putting c s (s.setDma n q) := ⟨s.setDma_filed n q, rfl, rfl, id⟩

theorem State.hand_putting (s : State) (n : Nat) (m : Msg) : Putting c s (s.hand n m) := s.setDma_putting n _

theorem Putting.ite {q : Prop} [Decidable q] (h : Putting c s y) (g : Putting c s z) : Putting c s (if q then y else z) := by
  split
  · exact h
  · exact g

/-- Bytes put into a capture, and into its record's message. -/
theorem State.capPut_spec (s : State) (c : Nat) (b : List Byte) :
    Putting c s (s.capPut c b) ∧ (s.capPut c b).cap c = (s.cap c).grown (s.recStream c) s.now b := by
  have hset : Putting c s (s.setCap c ((s.cap c).grown (s.recStream c) s.now b)) := s.setCap_putting id
  have hcap := State.setCap_same s c ((s.cap c).grown (s.recStream c) s.now b)
  have hx : s.capPut c b = let s1 := s.setCap c ((s.cap c).grown (s.recStream c) s.now b)
      if s.recStream c || (s.cap c).mute then s1
      else
        let d := s1.dmaCh (s.recDma c)
        if (d.handed ++ d.queue).any fun m => m.openOf c then
          s1.setDma (s.recDma c) { d with
            handed := d.handed.map fun m => m.grow c b false, queue := d.queue.map fun m => m.grow c b false }
        else s1.hand (s.recDma c) { kind := 1, body := b, src := .record c, more := true } := rfl
  rw [hx]
  dsimp only
  generalize s.setCap c ((s.cap c).grown (s.recStream c) s.now b) = v at hset hcap ⊢
  have hsent (m : State) (q : Dma) (hm : m = v.setDma (s.recDma c) q) : m.cap c = (s.cap c).grown (s.recStream c) s.now b := by
    rw [hm]
    exact hcap
  refine ⟨.ite hset (.ite (hset.trans (v.setDma_putting _ _)) (hset.trans (v.hand_putting _ _))), ?_⟩
  split
  · exact hcap
  · split
    · exact hsent _ _ rfl
    · exact hsent _ _ rfl

theorem State.capPut_putting (s : State) (c : Nat) (b : List Byte) : Putting c s (s.capPut c b) := (s.capPut_spec c b).1

theorem State.capPut_cap (s : State) (c : Nat) (b : List Byte) : (s.capPut c b).cap c = (s.cap c).grown (s.recStream c) s.now b := (s.capPut_spec c b).2

theorem State.capEndMsg_spec (s : State) (c : Nat) : Putting c s (s.capEndMsg c) ∧ (s.capEndMsg c).cap c = { s.cap c with mute := false } := by
  have hset : Putting c s (s.setCap c { s.cap c with mute := false }) := s.setCap_putting id
  have hcap := State.setCap_same s c { s.cap c with mute := false }
  unfold State.capEndMsg
  dsimp only
  generalize s.setCap c { s.cap c with mute := false } = v at hset hcap ⊢
  exact ⟨hset.trans (v.setDma_putting _ _), hcap⟩

theorem State.capHand_putting (s : State) (c : Nat) : Putting c s (s.capHand c) := by
  have hset : Putting c s (s.setCap c { s.cap c with msg := [] }) := s.setCap_putting id
  unfold State.capHand
  dsimp only
  generalize s.setCap c { s.cap c with msg := [] } = v at hset ⊢
  exact .ite (.refl c s) (hset.trans (v.hand_putting _ _))

theorem State.capCut_plain (h : s.recStream c = false) : s.capCut c = s := by
  unfold State.capCut
  dsimp only
  rw [h, Bool.false_and]
  exact if_neg Bool.false_ne_true

/-! ### Items (R302, R303) -/

/-- A capture with an item written: its record and, where it counts, its open segment show it. -/
def Cap.wrote (k : Cap) (stream : Bool) (now time word : Nat) (count : Bool) : Cap :=
  let k0 := k.grown stream now (w64 time ++ w64 word)
  let k1 := { k0 with rec' := k0.rec'.map fun r => { r with union := r.union ||| word / 2 ^ 42 % 256 } }
  if count then k1.onHead fun g => if g.headed then { g with items := g.items + 1, union := g.union ||| word / 2 ^ 42 % 256 } else g else k1

/-- The register that counts the items written on a die. -/
def writtenReg (die : Nat) : Nat := if die = 0 then 0x064 else 0x06C

theorem Cap.onHead_full (k : Cap) (f : Seg → Seg) : (k.onHead f).full = k.full := by
  unfold Cap.onHead
  split <;> rfl

theorem Cap.wrote_full (k : Cap) (stream : Bool) (now time word : Nat) (count : Bool) : (k.wrote stream now time word count).full = k.full := by
  unfold Cap.wrote
  dsimp only
  split
  · rw [Cap.onHead_full]
    rfl
  · rfl

/-- An item written: 16 bytes put, the item noted, and one more counted on the die. -/
theorem State.capWrite_spec (s : State) (c time word : Nat) (count : Bool) :
    ∃ y, s.capWrite c time word count = y.bump64 sAcq (writtenReg (s.recDie c)) 1 ∧ Putting c s y ∧
      y.cap c = (s.cap c).wrote (s.recStream c) s.now time word count := by
  obtain ⟨hput, hcap⟩ := s.capPut_spec c (w64 time ++ w64 word)
  have hx : s.capWrite c time word count = ((s.capPut c (w64 time ++ w64 word)).setCap c
      (let k1 := { (s.capPut c (w64 time ++ w64 word)).cap c with
          rec' := ((s.capPut c (w64 time ++ w64 word)).cap c).rec'.map fun r => { r with union := r.union ||| word / 2 ^ 42 % 256 } }
        if count then k1.onHead fun g => if g.headed then { g with items := g.items + 1, union := g.union ||| word / 2 ^ 42 % 256 } else g
        else k1)).bump64 sAcq (writtenReg (s.recDie c)) 1 := rfl
  rw [hcap] at hx
  refine ⟨_, hx, hput.trans (State.setCap_putting _ fun hf => ?_), State.setCap_same _ _ _⟩
  rw [hcap] at hf
  exact (Cap.wrote_full _ _ _ _ _ _).trans hf

end Sys2Proof.Machine
end

section
/-! Proofs about a record that closes and a capture that overflows: what they count, and what stands (R304 to R306). -/

namespace Sys2Proof.Machine

variable {s x y z u v : State} {c d n w o off : Nat} {b : List Byte} {i : Item} {k : Cap} {r : Rec} {e : Int}

/-! ### What stands of a capture as its record closes -/

/-- The parts of a capture that no closing byte touches: its queued items, ring and segments, and how it stands. -/
def Cap.frame (k : Cap) : List Item × List Item × List Seg × Bool × Bool × Bool := (k.inq, k.ring, k.segs, k.active, k.full, k.stopping)

/-- A step of the writer that leaves the frame of its capture. -/
def Framed (c : Nat) (s z : State) : Prop := Putting c s z ∧ (z.cap c).frame = (s.cap c).frame

theorem Framed.refl (c : Nat) (s : State) : Framed c s s := ⟨.refl c s, rfl⟩

theorem Framed.trans (h : Framed c s y) (g : Framed c y z) : Framed c s z := ⟨h.1.trans g.1, g.2.trans h.2⟩

theorem Framed.ite {q : Prop} [Decidable q] (h : Framed c s y) (g : Framed c s z) : Framed c s (if q then y else z) := by
  split
  · exact h
  · exact g

theorem State.capPut_framed (s : State) (c : Nat) (b : List Byte) : Framed c s (s.capPut c b) :=
  ⟨s.capPut_putting c b, (congrArg Cap.frame (s.capPut_cap c b)).trans rfl⟩

theorem State.capEndMsg_framed (s : State) (c : Nat) : Framed c s (s.capEndMsg c) :=
  ⟨(s.capEndMsg_spec c).1, (congrArg Cap.frame (s.capEndMsg_spec c).2).trans rfl⟩

theorem State.capHand_framed (s : State) (c : Nat) : Framed c s (s.capHand c) := by
  refine ⟨s.capHand_putting c, ?_⟩
  have hcap := State.setCap_same s c { s.cap c with msg := [] }
  unfold State.capHand
  dsimp only
  split
  · rfl
  · exact (congrArg Cap.frame hcap).trans rfl

theorem State.setFree_framed (s : State) (c n : Nat) : Framed c s { s with freeCtr := n } :=
  ⟨⟨⟨_, _, _, _, Side.refl _⟩, rfl, rfl, id⟩, rfl⟩

theorem State.setCap_framed (s : State) (hk : k.frame = (s.cap c).frame) : Framed c s (s.setCap c k) := by
  have hfull : k.full = (s.cap c).full := congrArg (fun f => f.2.2.2.2.1) hk
  exact ⟨s.setCap_putting fun h => hfull.trans h, (congrArg Cap.frame (State.setCap_same s c k)).trans hk⟩

theorem State.each_framed {α : Type} {f : State → α → State} {l : List α} (h : ∀ u e, Framed c u (f u e)) (s : State) : Framed c s (s.each l f) :=
  State.each_induct (P := Framed c s) (fun u e _ hu => hu.trans (h u e)) (.refl c s)

/-- What a record has measured of the source at a place of its list. -/
def Rec.measured (r : Rec) (j : Nat) : SrcMeas :=
  let m := Sparse.get ({} : SrcMeas) r.meas j
  let m1 := if r.sols.any fun a => decide (m.firstP < a) && decide (a ≤ r.lastE) then ({} : SrcMeas) else m
  if m.count = 0 then {} else m1

/-- The block of one source at the end of its record. -/
def State.measPut (c : Nat) (r : Rec) (s : State) (e : Nat × Nat) : State :=
  let s1 := s.capPut c (s.measBlock e.1 (r.measured e.2) r.span.toNat)
  if (r.measured e.2).count = 0 then { s1 with freeCtr := s1.freeCtr + 2 } else s1

theorem State.measPut_framed (c : Nat) (r : Rec) (s : State) (e : Nat × Nat) : Framed c s (State.measPut c r s e) := by
  have hput := s.capPut_framed c (s.measBlock e.1 (r.measured e.2) r.span.toNat)
  unfold State.measPut
  dsimp only
  generalize s.capPut c (s.measBlock e.1 (r.measured e.2) r.span.toNat) = y at hput ⊢
  exact .ite (hput.trans (y.setFree_framed c _)) hput

/-- The bytes that end a record: the measurements of its sources, the trailer, and the message's end. -/
theorem State.recClose_spec (h : (s.cap c).rec' = some r) (ovf stopped : Bool) :
    ∃ y, s.recClose c ovf stopped = ((y.setTabN (oRec c 14) ((s.tabw (oRec c 14)).toNat + 1)).bump64 sAcq 0x074 1).evt sAcq 0 ∧ Framed c s y ∧
      (y.cap c).rec' = none := by
  unfold State.recClose
  dsimp only
  split
  · next r' hr =>
    cases h.symm.trans hr
    refine ⟨_, rfl, ?_, congrArg Cap.rec' (State.setCap_same _ _ _)⟩
    refine Framed.trans ?_ (State.setCap_framed _ rfl)
    refine Framed.ite (Framed.trans ?_ (State.capHand_framed _ c)) (Framed.trans ?_ (State.capEndMsg_framed _ c))
    all_goals exact (State.each_framed (f := State.measPut c r) (fun u e => State.measPut_framed c r u e) s).trans (State.capPut_framed _ c _)
  · next hr => exact nomatch h.symm.trans hr

theorem State.recClose_none (h : (s.cap c).rec' = none) (ovf stopped : Bool) : s.recClose c ovf stopped = s := by
  unfold State.recClose
  dsimp only
  rw [h]

/-! ### The counts of overflows -/

/-- The device's count of overflows and the context's. -/
def State.overflows (s : State) (c : Nat) : Nat × Word := (s.reg64 sAcq 0x07C, s.tabw (oRec c 13))

theorem overflows_of_same (hregs : z.regs = s.regs) (htab : z.tab = s.tab) : z.overflows c = s.overflows c :=
  Prod.ext (State.reg64_congr hregs _ _) (State.tabw_congr htab _)

theorem Putting.overflows (h : Putting c s z) : z.overflows c = s.overflows c := overflows_of_same h.regs h.tab

/-- A count on the acquisition page outside the one of overflows. -/
theorem State.bump64_overflows (h : off + 4 < 0x07C) (s : State) (m : Nat) : (s.bump64 sAcq off m).overflows c = s.overflows c :=
  Prod.ext (State.bump64_reg64 (.inl h)) (State.tabw_congr rfl _)

theorem writtenReg_lt (die : Nat) : writtenReg die + 4 < 0x074 := by
  unfold writtenReg
  split <;> decide

theorem State.evt_overflows (s : State) (n : Nat) : (s.evt sAcq n).overflows c = s.overflows c :=
  Prod.ext (s.evt_reg64_of_ne _ _ (by decide) (by decide) (by decide) (by decide)) (State.tabw_congr (s.evt_side _ n).tab _)

theorem State.setCap_overflows (s : State) (n : Nat) (k : Cap) : (s.setCap n k).overflows c = s.overflows c := rfl

theorem State.capWrite_overflows (s : State) (c time word : Nat) (count : Bool) : (s.capWrite c time word count).overflows c = s.overflows c := by
  obtain ⟨y, hy, hput, -⟩ := s.capWrite_spec c time word count
  rw [hy, State.bump64_overflows (lt_trans (writtenReg_lt _) (by decide)), hput.overflows]

theorem State.recOpen_overflows (s : State) (c : Nat) (start : Int) : (s.recOpen c start).overflows c = s.overflows c :=
  (State.capPut_putting _ c _).overflows.trans (State.setCap_overflows _ _ _)

theorem State.recClose_overflows (s : State) (c : Nat) (ovf stopped : Bool) : (s.recClose c ovf stopped).overflows c = s.overflows c := by
  cases hr : (s.cap c).rec'
  case none => rw [State.recClose_none hr]
  case some r =>
    obtain ⟨y, hy, ⟨hput, -⟩, -⟩ := State.recClose_spec hr ovf stopped
    have htab : (y.setTabN (oRec c 14) ((s.tabw (oRec c 14)).toNat + 1)).overflows c = y.overflows c :=
      Prod.ext rfl (State.setTabw_tabw_ne _ _ (by unfold oRec; omega))
    rw [hy, State.evt_overflows, State.bump64_overflows (by decide), htab, hput.overflows]

theorem State.capClosing_overflows (s : State) (c : Nat) : (s.capClosing c).overflows c = s.overflows c := by
  have hopen : (if (s.cap c).rec'.isSome = true then s.setCap c { s.cap c with inq := [], full := false, ovf := true }
      else (s.setCap c { s.cap c with inq := [], full := false, ovf := true }).recOpen c s.phys).overflows c = s.overflows c := by
    split
    · exact State.setCap_overflows _ _ _
    · exact (State.recOpen_overflows _ c _).trans (State.setCap_overflows _ _ _)
  unfold State.capClosing
  dsimp only
  rw [State.recClose_overflows]
  generalize (if (s.cap c).rec'.isSome = true then s.setCap c { s.cap c with inq := [], full := false, ovf := true }
      else (s.setCap c { s.cap c with inq := [], full := false, ovf := true }).recOpen c s.phys) = y at hopen ⊢
  split
  · exact (State.setCap_overflows _ _ _).trans ((State.capWrite_overflows _ c _ _ _).trans ((y.capWrite_overflows c _ _ _).trans hopen))
  · exact (State.capWrite_overflows _ c _ _ _).trans ((y.capWrite_overflows c _ _ _).trans hopen)

/-! ### An overflow that settles (R259, R306) -/

/-- An overflow counts once for the device and once for the context, and sets its event. -/
theorem State.capCrowded_spec (hc : c < 512) (s : State) :
    (s.capCrowded c).reg64 sAcq 0x07C = min (s.reg64 sAcq 0x07C + 1) (2 ^ 64 - 1) ∧
      ((s.capCrowded c).tabw (oRec c 13)).toNat = min ((s.tabw (oRec c 13)).toNat + 1) (2 ^ 32 - 1) ∧
      bit ((s.capCrowded c).reg (ra sAcq 0x008)) 1 = true := by
  have hreport (z : State) : (z.report c 7 2 1).regs = z.regs := rfl
  have hword (z : State) : (z.report c 7 2 1).tabw (oRec c 13) = z.tabw (oRec c 13) := z.report_above hc (by decide) 1 _ (by unfold oRec; omega)
  have htab := s.tbump_word (oRec c 13) 1
  have hreg : (s.tbump (oRec c 13) 1).reg64 sAcq 0x07C = s.reg64 sAcq 0x07C := State.reg64_congr rfl _ _
  unfold State.capCrowded
  generalize s.tbump (oRec c 13) 1 = y at htab hreg ⊢
  rw [State.reg64_congr (hreport _), hword, State.evt_reg64_of_ne _ _ _ (by decide) (by decide) (by decide) (by decide), State.reg64_bump64, hreg,
    State.tabw_congr (State.evt_side _ _ 1).tab, State.tabw_congr (s := y) (z := y.bump64 sAcq 0x07C 1) rfl]
  exact ⟨rfl, htab, State.evt_bit sAcq (by decide)⟩

/-- An overflow: the capture is over but for the bytes that its area holds, and it counts. -/
theorem State.capOverflow_spec (hc : c < 512) (s : State) :
    (s.capOverflow c).reg64 sAcq 0x07C = min (s.reg64 sAcq 0x07C + 1) (2 ^ 64 - 1) ∧
      ((s.capOverflow c).tabw (oRec c 13)).toNat = min ((s.tabw (oRec c 13)).toNat + 1) (2 ^ 32 - 1) ∧
      bit ((s.capOverflow c).reg (ra sAcq 0x008)) 1 = true ∧
      ((s.capOverflow c).cap c).active = false ∧ ((s.capOverflow c).cap c).ovf = true := by
  have hclosing := s.capClosing_overflows c
  obtain ⟨hcount, hword, hevent⟩ := (s.capClosing c).capCrowded_spec hc
  have hsame : (s.capClosing c).reg64 sAcq 0x07C = s.reg64 sAcq 0x07C ∧ (s.capClosing c).tabw (oRec c 13) = s.tabw (oRec c 13) := Prod.ext_iff.mp hclosing
  rw [hsame.1] at hcount
  rw [hsame.2] at hword
  rw [State.capOverflow_eq]
  dsimp only
  generalize (s.capClosing c).capCrowded c = y at hcount hword hevent ⊢
  have hcap := State.setCap_same y c { used := (y.cap c).used, written := (y.cap c).written, ovf := true }
  exact ⟨hcount, hword, hevent, (congrArg Cap.active hcap).trans rfl, (congrArg Cap.ovf hcap).trans rfl⟩

/-- Of a map in which no entry meets a test, an entry set that meets it is the only one. -/
theorem Sparse.filter_set_alone {α : Type} [DecidableEq α] {f : α → Bool} {m : List (Nat × α)} {a v : α} (hm : ∀ e ∈ m, f e.2 = false)
    (hv : f v = true) (ha : f a = false) : (Sparse.set a m n v).filter (fun e => f e.2) = [(n, v)] := by
  have hins : ∀ l : List (Nat × α), (∀ e ∈ l, f e.2 = false) → (Sparse.ins n v l).filter (fun e => f e.2) = [(n, v)] := by
    intro l
    induction l with
    | nil => exact fun _ => List.filter_cons_of_pos hv
    | cons e l ih =>
      intro hl
      have hnone : (e :: l).filter (fun e => f e.2) = [] := List.filter_eq_nil_iff.mpr fun e he => by rw [hl e he]; exact Bool.false_ne_true
      have he : ¬ f e.2 = true := by rw [hl e List.mem_cons_self]; exact Bool.false_ne_true
      unfold Sparse.ins
      split
      · exact (List.filter_cons_of_pos (p := fun e : Nat × α => f e.2) hv).trans (congrArg (List.cons (n, v)) hnone)
      · exact (List.filter_cons_of_neg (p := fun e : Nat × α => f e.2) he).trans (ih fun e he => hl e (List.mem_cons_of_mem _ he))
  have hne : v ≠ a := fun heq => by rw [heq, ha] at hv; exact Bool.false_ne_true hv
  unfold Sparse.set
  rw [if_neg hne]
  exact hins _ fun e he => hm e (Sparse.mem_del he).1

/-- Where one capture has to overflow, settling does so, stops its context, and drains contexts. -/
theorem State.settle_full (hclear : s.Clear) (hfull : k.full = true) :
    Drained (((s.setCap c k).capOverflow c).ctxStop c 3) (s.setCap c k).settle ∧
      Parked c (((s.setCap c k).capOverflow c).ctxStop c 3) (s.setCap c k).settle := by
  have hone : ((s.setCap c k).caps.filter fun e => e.2.full) = [(c, k)] := Sparse.filter_set_alone (f := Cap.full) hclear hfull rfl
  unfold State.settle
  rw [hone]
  exact ⟨State.each_induct (P := Drained _) (fun u d _ hu => hu.trans (u.ctxDrained_drained d)) (Drained.refl _),
    State.each_induct (P := Parked c _) (fun u d _ hu => hu.trans (u.ctxDrained_parked c d)) (.of_aside rfl)⟩

/-- What an overflow leaves once it has settled: its context stopped, its capture over, and the counts one higher. -/
theorem State.settle_overflow (hc : c < 512) (hclear : s.Clear) (hfull : k.full = true) (hrun : (s.ctx c).st = .running) :
    let z := (s.setCap c k).settle
    (z.ctx c).st = .stoppedOvf ∧ (z.ctx c).cause = 3 ∧ (z.cap c).active = false ∧ (z.cap c).ovf = true ∧
      (z.tabw (oRec c 13)).toNat = min ((s.tabw (oRec c 13)).toNat + 1) (2 ^ 32 - 1) ∧
      z.reg64 sAcq 0x07C = min (s.reg64 sAcq 0x07C + 1) (2 ^ 64 - 1) ∧ bit (z.reg (ra sAcq 0x008)) 1 = true := by
  obtain ⟨hdrained, hparked⟩ := State.settle_full (c := c) hclear hfull
  obtain ⟨hcount, hword, hevent, hactive, hovf⟩ := (s.setCap c k).capOverflow_spec hc
  have haside := (s.setCap c k).capOverflow_aside c
  dsimp only
  generalize (s.setCap c k).capOverflow c = y at *
  have hctx : y.ctx c = s.ctx c := State.ctx_congr (congrArg Prod.fst haside) c
  have hstop := State.ctxStop_overflow (s := y) (c := c) (by rw [hctx]; exact hrun)
  rw [hctx] at hstop
  generalize y.ctxStop c 3 = v at *
  have hvctx : v.ctx c = (s.ctx c).stoppedBy 3 :=
    (State.ctx_congr (s := y.setCtx c ((s.ctx c).stoppedBy 3)) (congrArg Beside.ctxs hstop) c).trans (State.setCtx_same _ _ _)
  have hcaps : v.caps = y.caps := congrArg Beside.caps hstop
  have hreg (j : Nat) (hj : j < 0x400) : v.reg (ra sAcq j) = y.reg (ra sAcq j) := by
    have hacq : v.reg (ra sAcq (j % 0x400)) = y.reg (ra sAcq (j % 0x400)) := congrFun (congrArg Beside.acq hstop) j
    rw [Nat.mod_eq_of_lt hj] at hacq
    exact hacq
  have hrec : v.tabw (oRec c 13) = y.tabw (oRec c 13) := by
    have hrecs : (if c < 512 ∧ c < 512 then v.tabw (oRec c 13) else 0) = if c < 512 ∧ c < 512 then y.tabw (oRec c 13) else 0 :=
      congrFun (congrArg Beside.recs hstop) c
    rw [if_pos ⟨hc, hc⟩, if_pos ⟨hc, hc⟩] at hrecs
    exact hrecs
  generalize (s.setCap c k).settle = z at hdrained hparked ⊢
  have hzctx : z.ctx c = (s.ctx c).stoppedBy 3 := by
    rcases hparked.ctx with hz | ⟨hst, -⟩
    · exact hz.trans hvctx
    · rw [hvctx] at hst
      exact nomatch hst
  obtain ⟨⟨_, _, _, _, rfl⟩, htab⟩ := hdrained
  have hcap : v.cap c = y.cap c := congrArg (fun m => Sparse.get ({} : Cap) m c) hcaps
  refine ⟨(congrArg Ctx.st hzctx).trans rfl, (congrArg Ctx.cause hzctx).trans rfl, (congrArg Cap.active hcap).trans hactive,
    (congrArg Cap.ovf hcap).trans hovf, ?_, ?_, ?_⟩
  · rw [htab _ (by unfold oRec; omega), hrec]
    exact hword
  · refine Eq.trans ?_ hcount
    exact congrArg₂ (fun a b : Word => a.toNat + 2 ^ 32 * b.toNat) (hreg 0x07C (by decide)) (hreg 0x080 (by decide))
  · exact (congrArg (fun w : Word => bit w 1) (hreg 0x008 (by decide))).trans hevent

end Sys2Proof.Machine
end

section
/-! Proofs about the items of a record: which wait, and where one that is handled goes (R297, R301, R302). -/

namespace Sys2Proof.Machine

variable {s x y z u v : State} {c d n w o off t die : Nat} {b : List Byte} {i : Item} {k k' : Cap} {m : Rec} {g : Seg} {e p : Int} {r : List Item}

/-! ### The die's crossing queue -/

/-- A die whose crossing queue was empty, as it stands at an edge. -/
def State.crossLeft (s : State) (die : Nat) : State := s.setHeng die { s.heng die with crossing := [], crossAt := s.now }

theorem State.crossDrain_left (h : (s.heng die).crossing = []) : s.crossDrain die = s.crossLeft die := by
  unfold State.crossDrain
  dsimp only
  rw [h, List.take_nil, List.drop_nil]
  rfl

theorem State.capPast_crossLeft (h : (s.heng (s.recDie c)).crossing = []) (p : Int) :
    (s.crossLeft (s.recDie c)).capPast c p = s.capPast c p := by
  have hsame : ((s.crossLeft (s.recDie c)).heng (s.recDie c)).crossing = (s.heng (s.recDie c)).crossing :=
    (congrArg HEng.crossing (State.setHeng_same _ _ _)).trans h.symm
  have hpast (src : Nat) : (s.crossLeft (s.recDie c)).histPast src (s.recDie c) p = s.histPast src (s.recDie c) p := by
    unfold State.histPast
    rw [hsame]
    rfl
  have hall : ((s.recSrcs c).all fun x => (s.crossLeft (s.recDie c)).histPast x (s.recDie c) p) = (s.recSrcs c).all fun x => s.histPast x (s.recDie c) p := by
    simp only [hpast]
  exact congrArg (fun q => q && s.binsPast c p && decide (p < s.phys)) hall

/-! ### What a written item makes of a capture -/

/-- A capture with 16 bytes more, in which items and segments beside the open one stand as they did. -/
structure Cap.Grew (k k' : Cap) : Prop where
  inq : k'.inq = k.inq
  ring : k'.ring = k.ring
  active : k'.active = k.active
  full : k'.full = k.full
  stopping : k'.stopping = k.stopping
  written : k'.written = k.written + 16
  used : k'.used = if k.mute then k.used else k.used + 16

theorem length_item (time word : Nat) : (w64 time ++ w64 word).length = 16 := by
  rw [List.length_append, length_w64, length_w64]

/-- A record that an item of 16 bytes has joined. -/
def Rec.joined (m : Rec) (word : Nat) : Rec := { m with bytes := m.bytes + 16, union := m.union ||| word / 2 ^ 42 % 256 }

theorem Cap.grown_grew (k : Cap) (stream : Bool) (now time word : Nat) : k.Grew (k.grown stream now (w64 time ++ w64 word)) := by
  refine ⟨rfl, rfl, rfl, rfl, rfl, ?_, ?_⟩
  · exact congrArg (k.written + ·) (length_item time word)
  · exact congrArg (fun l => if k.mute then k.used else k.used + l) (length_item time word)

theorem Cap.onHead_eq (k : Cap) (f : Seg → Seg) : ∃ l, k.onHead f = { k with segs := l } := by
  unfold Cap.onHead
  split
  · exact ⟨_, rfl⟩
  · exact ⟨k.segs, rfl⟩

theorem Cap.wrote_grew (k : Cap) (stream : Bool) (now time word : Nat) (count : Bool) : k.Grew (k.wrote stream now time word count) := by
  obtain ⟨hinq, hring, hactive, hfull, hstopping, hwritten, hused⟩ := k.grown_grew stream now time word
  unfold Cap.wrote
  dsimp only
  generalize k.grown stream now (w64 time ++ w64 word) = q at *
  split
  · obtain ⟨l, hl⟩ := Cap.onHead_eq { q with rec' := q.rec'.map fun r => { r with union := r.union ||| word / 2 ^ 42 % 256 } }
      (fun g => if g.headed then { g with items := g.items + 1, union := g.union ||| word / 2 ^ 42 % 256 } else g)
    rw [hl]
    exact ⟨hinq, hring, hactive, hfull, hstopping, hwritten, hused⟩
  · exact ⟨hinq, hring, hactive, hfull, hstopping, hwritten, hused⟩

/-- An item written into an open segment counts there. -/
theorem Cap.wrote_segs (h : k.segs = [g]) (hg : g.headed = true) (stream : Bool) (now time word : Nat) :
    (k.wrote stream now time word true).segs = [{ g with items := g.items + 1, union := g.union ||| word / 2 ^ 42 % 256 }] := by
  unfold Cap.wrote
  dsimp only
  rw [if_pos rfl]
  unfold Cap.onHead
  split
  · next g' r hsegs =>
    cases h.symm.trans hsegs
    exact congrArg (fun x => [x]) (if_pos hg)
  · next hsegs => exact nomatch h.symm.trans hsegs

/-- A marker leaves the segments, and joins the record. -/
theorem Cap.wrote_marker (h : k.rec' = some m) (stream : Bool) (now time word : Nat) :
    (k.wrote stream now time word false).segs = k.segs ∧ (k.wrote stream now time word false).rec' = some (m.joined word) := by
  refine ⟨rfl, ?_⟩
  have hrec : (k.wrote stream now time word false).rec' = (k.rec'.map fun r => { r with bytes := r.bytes + (w64 time ++ w64 word).length }).map
      fun r => { r with union := r.union ||| word / 2 ^ 42 % 256 } := rfl
  rw [hrec, h, length_item]
  rfl

/-! ### An item that is stored (R302) -/

/-- A state after an item of the open segment has been stored. -/
structure Stored (c : Nat) (g : Seg) (word : Nat) (s z : State) : Prop where
  ctxs : z.ctxs = s.ctxs
  tab : z.tab = s.tab
  clear : s.Clear → z.Clear
  grew : (s.cap c).Grew (z.cap c)
  segs : (z.cap c).segs = [{ g with items := g.items + 1, union := g.union ||| word / 2 ^ 42 % 256 }]
  count : z.reg64 sAcq (writtenReg (s.recDie c)) = min (s.reg64 sAcq (writtenReg (s.recDie c)) + 1) (2 ^ 64 - 1)

theorem State.capWrite_count (s : State) (c time word : Nat) (count : Bool) :
    (s.capWrite c time word count).reg64 sAcq (writtenReg (s.recDie c)) = min (s.reg64 sAcq (writtenReg (s.recDie c)) + 1) (2 ^ 64 - 1) := by
  obtain ⟨y, hy, hput, -⟩ := s.capWrite_spec c time word count
  rw [hy, State.reg64_bump64, State.reg64_congr hput.regs]

/-- What an item written leaves, and what it makes of its capture. -/
theorem State.capWrite_keeps (s : State) (c time word : Nat) (count : Bool) :
    (s.capWrite c time word count).ctxs = s.ctxs ∧ (s.capWrite c time word count).tab = s.tab ∧ (s.Clear → (s.capWrite c time word count).Clear) ∧
      (s.capWrite c time word count).cap c = (s.cap c).wrote (s.recStream c) s.now time word count := by
  obtain ⟨y, hy, hput, hcap⟩ := s.capWrite_spec c time word count
  have hside := y.bump64_side sAcq (writtenReg (s.recDie c)) 1
  rw [hy]
  exact ⟨hput.filed.ctxs, hput.tab, fun hs => (hput.clear hs).of_caps rfl, hcap⟩

theorem State.capWrite_stored (hsegs : (s.cap c).segs = [g]) (hg : g.headed = true) (time word : Nat) :
    Stored c g word s (s.capWrite c time word true) := by
  obtain ⟨hctxs, htab, hclear, hcap⟩ := s.capWrite_keeps c time word true
  refine ⟨hctxs, htab, hclear, ?_, (congrArg Cap.segs hcap).trans (Cap.wrote_segs hsegs hg _ _ _ _), s.capWrite_count c time word true⟩
  rw [hcap]
  exact Cap.wrote_grew _ _ _ _ _ _

/-- What an item's second word is once it is written: a stamp takes the marks that its source owes. -/
def State.itemWord (s : State) (c : Nat) (i : Item) : Nat := if i.kind = 0 then (passOwed (s.cap c).owed i.stamp).1.word1 else i.word1

/-- A capture whose stamp takes the marks that its source owes. -/
def State.owing (s : State) (c : Nat) (i : Item) : State := s.setCap c { s.cap c with owed := (passOwed (s.cap c).owed i.stamp).2 }

theorem Stored.capMeasure (h : Stored c g w s y) (q : Stamp) : Stored c g w s (y.capMeasure c q) := by
  obtain ⟨hctxs, htab, hclear, ⟨hinq, hring, hactive, hfull, hstopping, hwritten, hused⟩, hsegs, hcount⟩ := h
  obtain ⟨a, ha⟩ : ∃ a, y.capMeasure c q = y.setCap c { y.cap c with rec' := a } := ⟨_, rfl⟩
  have hcap := State.setCap_same y c { y.cap c with rec' := a }
  rw [ha]
  refine ⟨hctxs, htab, fun hs => (hclear hs).setCap c ((hclear hs).cap c), ?_, (congrArg Cap.segs hcap).trans hsegs, hcount⟩
  rw [hcap]
  exact ⟨hinq, hring, hactive, hfull, hstopping, hwritten, hused⟩

theorem State.owing_stored (hsegs : (s.cap c).segs = [g]) (hg : g.headed = true) (time word : Nat) :
    Stored c g word s ((s.owing c i).capWrite c time word true) := by
  have hcap : (s.owing c i).cap c = { s.cap c with owed := (passOwed (s.cap c).owed i.stamp).2 } := State.setCap_same _ _ _
  obtain ⟨hctxs, htab, hclear, hgrew, hseg, hcount⟩ :=
    State.capWrite_stored (s := s.owing c i) (c := c) ((congrArg Cap.segs hcap).trans hsegs) hg time word
  rw [hcap] at hgrew
  obtain ⟨hinq, hring, hactive, hfull, hstopping, hwritten, hused⟩ := hgrew
  exact ⟨hctxs, htab, fun hs => hclear (hs.setCap c (hs.cap c)), ⟨hinq, hring, hactive, hfull, hstopping, hwritten, hused⟩, hseg, hcount⟩

theorem Stored.uncut (h : Stored c g w s y) (hstream : s.recStream c = false) : y.capCut c = y := by
  have hsame : y.recStream c = s.recStream c := congrArg (fun v : Word => bit v 30) (State.tabw_congr h.tab (oRec c 0))
  exact State.capCut_plain (hsame.trans hstream)

theorem State.capStore_room (hroom : s.capRoom c 16 = true) (hkind : i.kind ≠ 1) (hstream : s.recStream c = false)
    (hsegs : (s.cap c).segs = [g]) (hg : g.headed = true) : ∃ y, s.capStore c i = (y, []) ∧ Stored c g (s.itemWord c i) s y := by
  unfold State.capStore State.itemWord
  rw [if_neg hkind, if_pos hroom]
  by_cases hstamp : i.kind = 0
  · have hput := (State.owing_stored (i := i) hsegs hg (passOwed (s.cap c).owed i.stamp).1.time (passOwed (s.cap c).owed i.stamp).1.word1).capMeasure
      (passOwed (s.cap c).owed i.stamp).1
    rw [if_pos hstamp, if_pos hstamp]
    exact ⟨_, Prod.ext (hput.uncut hstream) rfl, hput⟩
  · have hput := State.capWrite_stored hsegs hg i.time i.word1
    rw [if_neg hstamp, if_neg hstamp]
    exact ⟨_, Prod.ext (hput.uncut hstream) rfl, hput⟩

theorem State.capStore_none (hroom : s.capRoom c 16 = false) (hkind : i.kind ≠ 1) : s.capStore c i = (s, [(i.src, 0)]) := by
  unfold State.capStore
  rw [if_neg hkind, if_neg (ne_true_of_eq_false hroom)]

/-! ### The oldest item (R297) -/

/-- Whether the open segment takes an item. -/
def Cap.takes (k : Cap) (i : Item) : Bool :=
  match k.segs with
  | g :: _ => g.headed && decide (g.tS ≤ i.phys) && (match g.tE with
    | some e => decide (i.phys < e)
    | none => true)
  | [] => false

/-- An item offered to the open segment, where it takes it. -/
def State.itemOffered (s : State) (c : Nat) (i : Item) : State × List (Nat × Nat) := if (s.cap c).takes i then s.capStore c i else (s, [])

/-- What an offered item leaves: it is in the ring, or what is left of it waits for the overflow. -/
def itemSettled (c ring : Nat) (i : Item) (r : List Item) (z : State × List (Nat × Nat)) : State :=
  if z.2.isEmpty then z.1.setCap c (ringPush ring { z.1.cap c with inq := r } i)
  else z.1.setCap c { z.1.cap c with full := true, inq := { i with n := z.2.length } :: r }

theorem State.recordItem_idle (hcross : (s.heng (s.recDie c)).crossing = []) (h : (s.cap c).active = false) : s.recordItem c = s.crossLeft (s.recDie c) := by
  unfold State.recordItem
  dsimp only
  rw [State.crossDrain_left hcross]
  refine if_pos ?_
  rw [show ((s.crossLeft (s.recDie c)).cap c).active = (s.cap c).active from rfl, h]
  rfl

/-- An item whose time has come, with nothing due before it. -/
theorem State.recordItem_due (hcross : (s.heng (s.recDie c)).crossing = []) (hact : (s.cap c).active = true) (hfull : (s.cap c).full = false)
    (hinq : (s.cap c).inq = i :: r) (hpast : s.capPast c i.phys = true) (hheads : s.headsPast c i.phys = true)
    (hadv : (s.crossLeft (s.recDie c)).capAdvance c i.phys = s.crossLeft (s.recDie c)) :
    s.recordItem c = itemSettled c (s.recRing c) i r ((s.crossLeft (s.recDie c)).itemOffered c i) := by
  have hready : ((s.crossLeft (s.recDie c)).capPast c i.phys && (s.crossLeft (s.recDie c)).headsPast c i.phys) = true := by
    rw [State.capPast_crossLeft hcross, hpast]
    exact hheads
  have hcap : (s.crossLeft (s.recDie c)).cap c = s.cap c := rfl
  unfold State.recordItem
  dsimp only
  rw [State.crossDrain_left hcross, hcap, hact, hfull, if_neg (by decide)]
  split
  · next i' r' hi =>
    cases hinq.symm.trans hi
    rw [if_pos hready, hadv, hcap, hact, hfull, if_neg (by decide)]
    rfl
  · next hi => exact nomatch hinq.symm.trans hi

theorem State.recordItem_waits (hcross : (s.heng (s.recDie c)).crossing = []) (hact : (s.cap c).active = true) (hfull : (s.cap c).full = false)
    (hinq : (s.cap c).inq = i :: r) (h : s.capPast c i.phys = false ∨ s.headsPast c i.phys = false) :
    s.recordItem c = s.crossLeft (s.recDie c) := by
  have hready : ¬ ((s.crossLeft (s.recDie c)).capPast c i.phys && (s.crossLeft (s.recDie c)).headsPast c i.phys) = true := by
    rw [State.capPast_crossLeft hcross, Bool.and_eq_true]
    rintro ⟨hp, hq⟩
    rcases h with h | h
    · exact Bool.false_ne_true (h.symm.trans hp)
    · exact Bool.false_ne_true (h.symm.trans hq)
  have hcap : (s.crossLeft (s.recDie c)).cap c = s.cap c := rfl
  unfold State.recordItem
  dsimp only
  rw [State.crossDrain_left hcross, hcap, hact, hfull, if_neg (by decide)]
  split
  · next i' r' hi =>
    cases hinq.symm.trans hi
    exact if_neg hready
  · next hi => exact nomatch hinq.symm.trans hi

/-! ### Nothing due before an item -/

theorem State.capAdvance_none (h : (s.cap c).segs = []) (p : Int) : s.capAdvance c p = s := by
  unfold State.capAdvance
  rw [h]
  rfl

/-- One header or close of the head segment that comes by an instant. -/
def State.headDue (s : State) (c : Nat) (p : Int) : State :=
  let k := s.cap c
  if k.full || !k.active then s
  else
    match k.segs with
    | g :: _ =>
      if !g.headed then (if g.trig.phys ≤ p then s.segHead c else s)
      else
        match g.tE with
        | some e => if e ≤ p then s.segClose c g e else s
        | none => s
    | [] => s

theorem State.capAdvance_eq (s : State) (c : Nat) (p : Int) :
    s.capAdvance c p = s.each (List.range (2 * (s.cap c).segs.length)) fun s _ => s.headDue c p := rfl

theorem State.headDue_none (h : (s.cap c).segs = []) (p : Int) : s.headDue c p = s := by
  unfold State.headDue
  dsimp only
  rw [h]
  exact ite_self s

theorem State.headDue_headed (h : (s.cap c).segs = [g]) (hg : g.headed = true) (he : g.tE = some e) (p : Int) :
    s.headDue c p = if (s.cap c).full || !(s.cap c).active then s else if e ≤ p then s.segClose c g e else s := by
  unfold State.headDue
  dsimp only
  rw [h]
  dsimp only
  rw [hg, he]
  rfl

theorem State.capAdvance_open (h : (s.cap c).segs = [g]) (hg : g.headed = true) (he : g.tE = some e) (hp : p < e) : s.capAdvance c p = s := by
  refine State.each_id fun _ _ => (State.headDue_headed h hg he p).trans ?_
  rw [if_neg (not_le.mpr hp)]
  exact ite_self s

theorem State.headsPast_headed (h : (s.cap c).segs = [g]) (hg : g.headed = true) (p : Int) : s.headsPast c p = true := by
  unfold State.headsPast
  rw [h, List.all_cons, List.all_nil, hg]
  rfl

theorem Cap.takes_open (h : k.segs = [g]) (hg : g.headed = true) (hS : g.tS ≤ i.phys) (he : g.tE = some e) (hE : i.phys < e) : k.takes i = true := by
  unfold Cap.takes
  rw [h]
  dsimp only
  rw [hg, he]
  exact (Bool.and_eq_true _ _).mpr ⟨decide_eq_true hS, decide_eq_true hE⟩

theorem Cap.takes_none (h : k.segs = []) : k.takes i = false := by
  unfold Cap.takes
  rw [h]

end Sys2Proof.Machine
end

section
/-! Proofs about RECORD_ITEM, REARM and STREAM_MESSAGE_CUT (R295, R297, R299, R302, R306). -/

namespace Sys2Proof.Machine

variable {s x y z u v : State} {n w o off t die : Nat} {b : List Byte} {i : Item} {k k' : Cap} {m : Rec} {g : Seg} {e p : Int} {r : List Item} {c : Fin 512}

theorem State.Settled.clear (h : s.Settled) : s.Clear := h.1

theorem State.Settled.of_clear (h : s.Settled) (hclear : z.Clear) (hctxs : z.ctxs = s.ctxs) : z.Settled :=
  ⟨hclear, fun c => by rw [State.ctx_congr hctxs]; exact h.2 c⟩

/-! ### The re-arm (R299, R309) -/

theorem records_rearm (s : State) (t : Nat) (c : Fin 512) (hpow : s.Powered) :
    ((s.cap c).tR = none ∨ (s.cap c).active = false ∨ (s.cap c).rearmed = true ∨ (∃ r, (s.cap c).tR = some r ∧ (s.advance t).phys < r) →
      exec (.rearm t c) s = .next (s.advance t)) ∧
    (∀ r, (s.cap c).tR = some r → (s.cap c).active = true → (s.cap c).rearmed = false → r ≤ (s.advance t).phys → exec (.rearm t c) s = .next
      ((s.advance t).setCap c { s.cap c with rearmed := true, overlap := s.rbit sAcq (0x018 + 4 * (c / 32)) (c % 32) })) := by
  have hcap : (s.advance t).cap c = s.cap c := rfl
  have hwhen (r : Int) (hr : (s.cap c).tR = some r) : (s.advance t).capRearm c =
      if (s.cap c).active && !(s.cap c).rearmed && decide (r ≤ (s.advance t).phys) then
        (s.advance t).setCap c { s.cap c with rearmed := true, overlap := s.rbit sAcq (0x018 + 4 * (c / 32)) (c % 32) }
      else s.advance t := by
    unfold State.capRearm
    dsimp only
    rw [hcap, hr]
    rfl
  refine ⟨fun h => next_of hpow (exec_rearm t c s) ?_ (Quiet.refl _), fun r hr hact hre hle => next_of hpow (exec_rearm t c s) ?_ (by constructor <;> rfl)⟩
  · cases hr : (s.cap c).tR
    case none =>
      unfold State.capRearm
      dsimp only
      rw [hcap, hr]
    case some r =>
      refine (hwhen r hr).trans (if_neg ?_)
      rw [Bool.and_eq_true, Bool.and_eq_true, Bool.not_eq_true', decide_eq_true_iff]
      rintro ⟨⟨hact, hre⟩, hle⟩
      rcases h with h | h | h | ⟨r', hr', hlt⟩
      · exact nomatch hr.symm.trans h
      · exact Bool.false_ne_true (h.symm.trans hact)
      · exact Bool.false_ne_true (hre.symm.trans h)
      · cases hr.symm.trans hr'
        exact not_le.mpr hlt hle
  · refine (hwhen r hr).trans (if_pos ?_)
    rw [hact, hre, decide_eq_true hle]
    rfl

/-! ### STREAM messages (R295) -/

/-- An area page has ended within the message, or POST has passed since its first byte. -/
def State.MsgDue (s : State) (c : Nat) : Prop :=
  ((s.cap c).written - (s.cap c).msg.length) / 2 ^ 21 < (s.cap c).written / 2 ^ 21 ∨ (s.recPost c ≠ 0 ∧ (s.cap c).msgFrom + s.recPost c ≤ s.now)

theorem State.capCut_due (h : s.recStream c = true ∧ s.MsgDue c) : s.capCut c = s.capHand c := by
  refine if_pos ?_
  rw [Bool.and_eq_true, Bool.or_eq_true, Bool.and_eq_true, decide_eq_true_iff, decide_eq_true_iff, decide_eq_true_iff]
  exact h

theorem State.capCut_early (h : ¬(s.recStream c = true ∧ s.MsgDue c)) : s.capCut c = s := by
  refine if_neg fun hc => h ?_
  rw [Bool.and_eq_true, Bool.or_eq_true, Bool.and_eq_true, decide_eq_true_iff, decide_eq_true_iff, decide_eq_true_iff] at hc
  exact hc

theorem State.capHand_empty (h : (s.cap c).msg = []) : s.capHand c = s := if_pos (by rw [h]; rfl)

theorem State.capHand_some (h : (s.cap c).msg ≠ []) :
    s.capHand c = (s.setCap c { s.cap c with msg := [] }).hand (s.recDma c) { kind := 1, body := (s.cap c).msg, src := .record c } :=
  if_neg fun hc => h (List.isEmpty_iff.mp hc)

theorem records_stream (s : State) (t : Nat) (c : Fin 512) (hpow : s.Powered) (hset : s.Settled) (hold : Sparse.get [] s.oldWords c = []) :
    (s.recStream c = false ∨ (s.cap c).msg = [] ∨ ¬(s.advance t).MsgDue c → exec (.streamMessageCut t c) s = .next (s.advance t)) ∧
    (s.recStream c = true → (s.cap c).msg ≠ [] → (s.advance t).MsgDue c → Answers (.streamMessageCut t c) s fun s' =>
      s'.cap c = { s.cap c with msg := [] } ∧
      (s'.dmaCh (s.recDma c)).handed = (s.dmaCh (s.recDma c)).handed ++ [{ kind := 1, body := (s.cap c).msg, src := .record c }] ∧
      s' = { s.advance t with caps := s'.caps, dma := s'.dma }) := by
  have hx (z : State) (hz : (s.advance t).capCut c = z) (hzset : z.Settled) :
      ((s.advance t).asOf c fun s => s.capCut c).settle = z :=
    (congrArg State.settle ((State.asOf_plain (s := s.advance t) hold _).trans hz)).trans (State.settle_id hzset)
  refine ⟨fun h => next_of hpow (exec_streamMessageCut t c s) (hx _ ?_ hset) (Quiet.refl _), fun hstream hmsg hdue => ?_⟩
  · by_cases hdue : s.recStream c = true ∧ (s.advance t).MsgDue c
    · rw [State.capCut_due (s := s.advance t) hdue]
      rcases h with h | h | h
      · exact absurd (h.symm.trans hdue.1) Bool.false_ne_true
      · exact State.capHand_empty (s := s.advance t) h
      · exact absurd hdue.2 h
    · exact State.capCut_early (s := s.advance t) hdue
  · have hsent := (State.capCut_due (s := s.advance t) ⟨hstream, hdue⟩).trans (State.capHand_some (s := s.advance t) hmsg)
    have hmid : ((s.advance t).setCap c { s.cap c with msg := [] }).Settled := State.Settled.setCap hset (hset.clear.cap c)
    refine answers_of hpow (exec_streamMessageCut t c s) (hx _ hsent (hmid.of_eq rfl rfl)) (by constructor <;> rfl)
      ⟨State.setCap_same _ _ _, congrArg Dma.handed (State.setDma_same _ _ _), rfl⟩

/-! ### The oldest item (R297, R301, R302) -/

/-- An item or a segment that waits: only the die's crossing queue has been looked at. -/
theorem answers_crossLeft {j : Instr} {f : State → State} (hpow : s.Powered) (hset : s.Settled) (hold : Sparse.get [] s.oldWords c = [])
    (hi : exec j s = command t (fun s => (s.asOf c f).settle) s) (hf : f (s.advance t) = (s.advance t).crossLeft die) :
    Answers j s fun s' => s'.cap c = s.cap c ∧ s'.regs = s.regs := by
  refine answers_of_settled hpow hi hold ?_ fun l => ?_
  · rw [hf]
    exact hset.of_eq rfl rfl
  · rw [hf]
    exact ⟨rfl, rfl⟩

theorem records_waits (hpow : s.Powered) (hset : s.Settled) (hold : Sparse.get [] s.oldWords c = []) (hcross : (s.heng (s.recDie c)).crossing = [])
    (h : (s.cap c).active = false ∨ ∃ i r, (s.cap c).active = true ∧ (s.cap c).inq = i :: r ∧
      ((s.advance t).capPast c i.phys = false ∨ (s.advance t).headsPast c i.phys = false)) :
    Answers (.recordItem t c) s fun s' => s'.cap c = s.cap c ∧ s'.regs = s.regs := by
  refine answers_crossLeft (die := s.recDie c) hpow hset hold (exec_recordItem t c s) ?_
  rcases h with hidle | ⟨i, r, hact, hinq, hwait⟩
  · exact State.recordItem_idle (s := s.advance t) hcross hidle
  · exact State.recordItem_waits (s := s.advance t) hcross hact (hset.clear.cap c) hinq hwait

theorem ringPush_full (cap : Nat) (k : Cap) (i : Item) : (ringPush cap k i).full = k.full := rfl

/-- An item outside a segment goes to the ring alone. -/
theorem records_outside (hpow : s.Powered) (hset : s.Settled) (hold : Sparse.get [] s.oldWords c = []) (hcross : (s.heng (s.recDie c)).crossing = [])
    (hact : (s.cap c).active = true) (hinq : (s.cap c).inq = i :: r) (hpast : (s.advance t).capPast c i.phys = true) (hsegs : (s.cap c).segs = []) :
    Answers (.recordItem t c) s fun s' =>
      s'.cap c = ringPush (s.recRing c) { s.cap c with inq := r } i ∧ s'.regs = s.regs ∧ s'.dma = s.dma := by
  have hheads : (s.advance t).headsPast c i.phys = true := by
    unfold State.headsPast
    rw [show (s.advance t).cap c = s.cap c from rfl, hsegs]
    rfl
  have hx : (s.advance t).recordItem c =
      ((s.advance t).crossLeft (s.recDie c)).setCap c (ringPush (s.recRing c) { s.cap c with inq := r } i) := by
    rw [State.recordItem_due (s := s.advance t) hcross hact (hset.clear.cap c) hinq hpast hheads
      (State.capAdvance_none (s := (s.advance t).crossLeft (s.recDie c)) hsegs _)]
    have hoffer : ((s.advance t).crossLeft (s.recDie c)).itemOffered c i = ((s.advance t).crossLeft (s.recDie c), []) :=
      if_neg (ne_true_of_eq_false (Cap.takes_none (k := s.cap c) hsegs))
    exact (congrArg (itemSettled c (s.recRing c) i r) hoffer).trans rfl
  refine answers_of_settled hpow (exec_recordItem t c s) hold ?_ fun l => ?_
  · rw [hx]
    exact (hset.of_eq rfl rfl : ((s.advance t).crossLeft (s.recDie c)).Settled).setCap ((ringPush_full _ _ _).trans (hset.clear.cap c))
  · rw [hx]
    exact ⟨State.setCap_same _ _ _, rfl, rfl⟩

/-- An item inside the open segment, where nothing is due before it. -/
theorem State.recordItem_inside (hset : s.Clear) (hcross : (s.heng (s.recDie c)).crossing = []) (hact : (s.cap c).active = true)
    (hinq : (s.cap c).inq = i :: r) (hpast : s.capPast c i.phys = true) (hsegs : (s.cap c).segs = [g]) (hg : g.headed = true)
    (hS : g.tS ≤ i.phys) (he : g.tE = some e) (hE : i.phys < e) :
    s.recordItem c = itemSettled c (s.recRing c) i r ((s.crossLeft (s.recDie c)).capStore c i) := by
  rw [State.recordItem_due hcross hact (hset.cap c) hinq hpast (State.headsPast_headed hsegs hg _)
    (State.capAdvance_open (s := s.crossLeft (s.recDie c)) hsegs hg he hE)]
  exact congrArg (itemSettled c (s.recRing c) i r) (if_pos (Cap.takes_open (k := s.cap c) hsegs hg hS he hE))

/-- An item inside the open segment is written, counted, and goes to the ring. -/
theorem records_written (hpow : s.Powered) (hset : s.Settled) (hold : Sparse.get [] s.oldWords c = [])
    (hx : (s.advance t).recordItem c = itemSettled c (s.recRing c) i r (((s.advance t).crossLeft (s.recDie c)).capStore c i))
    (hact : (s.cap c).active = true) (hsegs : (s.cap c).segs = [g]) (hg : g.headed = true) (hkind : i.kind ≠ 1) (hstream : s.recStream c = false)
    (hroom : s.capRoom c 16 = true) : Answers (.recordItem t c) s fun s' =>
      (s'.cap c).inq = r ∧ (s'.cap c).segs = [{ g with items := g.items + 1, union := g.union ||| (s.itemWord c i / 2 ^ 42 % 256) }] ∧
      (s'.cap c).written = (s.cap c).written + 16 ∧ (s'.cap c).used = (if (s.cap c).mute then (s.cap c).used else (s.cap c).used + 16) ∧
      s'.reg64 sAcq (writtenReg (s.recDie c)) = min (s.reg64 sAcq (writtenReg (s.recDie c)) + 1) (2 ^ 64 - 1) ∧
      (s'.cap c).full = false ∧ (s'.cap c).active = true := by
  obtain ⟨y, hy, hctxs, -, hclear, hgrew, hseg, hcount⟩ := State.capStore_room (s := (s.advance t).crossLeft (s.recDie c)) (i := i) hroom hkind hstream hsegs hg
  rw [hy] at hx
  have hcap := State.setCap_same y c (ringPush (s.recRing c) { y.cap c with inq := r } i)
  have hclear' : y.Clear := hclear hset.1
  have hsettled : (y.setCap c (ringPush (s.recRing c) { y.cap c with inq := r } i)).Settled :=
    (hset.of_clear hclear' hctxs).setCap ((ringPush_full _ _ _).trans (hclear'.cap c))
  refine answers_of_settled hpow (exec_recordItem t c s) hold ?_ fun l => ?_
  · rw [hx]
    exact hsettled
  · rw [hx]
    exact ⟨congrArg Cap.inq hcap, (congrArg Cap.segs hcap).trans hseg, (congrArg Cap.written hcap).trans hgrew.written,
      (congrArg Cap.used hcap).trans hgrew.used, hcount, (congrArg Cap.full hcap).trans (hclear'.cap c), (congrArg Cap.active hcap).trans (hgrew.active.trans hact)⟩

/-- An item with no room in the area ends the capture, and stops its context. -/
theorem records_crowded (hpow : s.Powered) (hset : s.Settled) (hold : Sparse.get [] s.oldWords c = [])
    (hx : (s.advance t).recordItem c = itemSettled c (s.recRing c) i r (((s.advance t).crossLeft (s.recDie c)).capStore c i))
    (hkind : i.kind ≠ 1) (hroom : s.capRoom c 16 = false) (hrun : (s.ctx c).st = .running) : Answers (.recordItem t c) s fun s' =>
      (s'.ctx c).st = .stoppedOvf ∧ (s'.ctx c).cause = 3 ∧ (s'.cap c).active = false ∧ (s'.cap c).ovf = true ∧
      (s'.tabw (oRec c 13)).toNat = min ((s.tabw (oRec c 13)).toNat + 1) (2 ^ 32 - 1) ∧
      s'.reg64 sAcq 0x07C = min (s.reg64 sAcq 0x07C + 1) (2 ^ 64 - 1) ∧ bit (s'.reg (ra sAcq 0x008)) 1 = true := by
  have hover := State.settle_overflow (s := (s.advance t).crossLeft (s.recDie c)) c.isLt
    (k := { s.cap c with full := true, inq := { i with n := 1 } :: r }) hset.1 rfl hrun
  rw [State.capStore_none (s := (s.advance t).crossLeft (s.recDie c)) hroom hkind] at hx
  refine answers_of_wrapped hpow (exec_recordItem t c s) fun l => ?_
  rw [State.asOf_plain (s := s.advance t) hold, hx]
  exact hover

end Sys2Proof.Machine
end

section
/-! Proofs about SEGMENT_POST_END (R298, R303 to R305), and the statement about records. -/

namespace Sys2Proof.Machine

variable {s x y z u v : State} {n w o off t die : Nat} {b : List Byte} {i : Item} {k k' : Cap} {m q : Rec} {g : Seg} {e p : Int} {r : List Item} {c : Fin 512}

/-! ### A segment that closes -/

theorem State.capFinish_going (h : (s.cap c).stopping = false) : s.capFinish c = s := by
  refine if_neg ?_
  rw [h]
  exact Bool.false_ne_true

/-- A record's state after the segment that closes: its marker has joined it. -/
def Rec.afterSeg (m : Rec) (g : Seg) (e : Int) (word : Nat) : Rec := (m.joined word).segBreak.segEnd g e

/-- The second word of a segment's SEG_END marker. -/
def Seg.endWord (g : Seg) : Nat := markerWord (g.union ||| flagIf (decide (2 ≤ g.cause)) fTRUNC) 1 g.cause g.items

/-- A segment with its marker written, which has left the capture. -/
def State.segEnded (s : State) (c : Nat) (g : Seg) (e : Int) : State :=
  let s1 := s.capWrite c (s.stampTime e) g.endWord false
  (s1.setCap c { s1.cap c with
    segs := (s1.cap c).segs.drop 1
    rec' := (s1.cap c).rec'.map fun r => r.segBreak.segEnd g e }).report c 7 0 1

/-- What a closed segment leaves: nothing open, and a record that has its marker. -/
structure SegEnded (c : Nat) (g : Seg) (e : Int) (m : Rec) (s z : State) : Prop where
  ctxs : z.ctxs = s.ctxs
  above : s.TabAbove z
  clear : s.Clear → z.Clear
  grew : (s.cap c).Grew (z.cap c)
  segs : (z.cap c).segs = []
  rec' : (z.cap c).rec' = some (m.afterSeg g e g.endWord)
  count : z.reg64 sAcq (writtenReg (s.recDie c)) = min (s.reg64 sAcq (writtenReg (s.recDie c)) + 1) (2 ^ 64 - 1)
  records : z.reg64 sAcq 0x074 = s.reg64 sAcq 0x074

theorem State.capWrite_records (s : State) (c time word : Nat) (count : Bool) :
    (s.capWrite c time word count).reg64 sAcq 0x074 = s.reg64 sAcq 0x074 := by
  obtain ⟨y, hy, hput, -⟩ := s.capWrite_spec c time word count
  rw [hy, State.bump64_reg64 (.inl (writtenReg_lt _)), State.reg64_congr hput.regs]

theorem State.segEnded_spec (hsegs : (s.cap c).segs = [g]) (hrec : (s.cap c).rec' = some m) : SegEnded c g e m s (s.segEnded c g e) := by
  obtain ⟨hctxs, htab, hclear, hcap⟩ := s.capWrite_keeps c (s.stampTime e) g.endWord false
  have hcount := s.capWrite_count c (s.stampTime e) g.endWord false
  have hrecords := s.capWrite_records c (s.stampTime e) g.endWord false
  obtain ⟨hseg, hjoined⟩ := Cap.wrote_marker hrec (s.recStream c) s.now (s.stampTime e) g.endWord
  have hgrew := Cap.wrote_grew (s.cap c) (s.recStream c) s.now (s.stampTime e) g.endWord false
  rw [← hcap] at hseg hjoined hgrew
  unfold State.segEnded
  dsimp only
  generalize s.capWrite c (s.stampTime e) g.endWord false = y at *
  rw [hsegs] at hseg
  rw [hseg, hjoined]
  have hset := State.setCap_same y c { y.cap c with segs := [g].drop 1, rec' := (some (m.joined g.endWord)).map fun r => r.segBreak.segEnd g e }
  have habove := (y.setCap c { y.cap c with segs := [g].drop 1, rec' := (some (m.joined g.endWord)).map fun r => r.segBreak.segEnd g e }).report_above
    c.isLt (stage := 7) (col := 0) (by decide) 1
  obtain ⟨hinq, hring, hactive, hfull, hstopping, hwritten, hused⟩ := hgrew
  refine ⟨hctxs, fun off hoff => (habove off hoff).trans (State.tabw_congr htab off), fun hs => (hclear hs).setCap c ((hclear hs).cap c), ?_,
    (congrArg Cap.segs hset).trans rfl, (congrArg Cap.rec' hset).trans rfl, hcount, hrecords⟩
  have hreport (v : State) : (v.report c 7 0 1).cap c = v.cap c := rfl
  rw [hreport, hset]
  exact ⟨hinq, hring, hactive, hfull, hstopping, hwritten, hused⟩

theorem State.recEnd_room (h : s.capRoom c (64 + 128 * s.recNsrc c) = true) (stopped : Bool) : s.recEnd c stopped = s.recClose c false stopped := by
  refine if_neg ?_
  rw [h, Bool.not_true, Bool.and_false]
  exact Bool.false_ne_true

/-- The closing bytes of a record fit after a marker where they fit with it. -/
theorem SegEnded.capRoom (h : SegEnded c g e m s z) (hroom : s.capRoom c (80 + 128 * s.recNsrc c) = true) :
    z.capRoom c (64 + 128 * z.recNsrc c) = true := by
  have hword : z.tabw (oRec c 0) = s.tabw (oRec c 0) := h.above _ (by unfold oRec; omega)
  have hnsrc : z.recNsrc c = s.recNsrc c := congrArg (fun v : Word => fld v 13 5) hword
  have harea : z.tfld (oRec c 0) 0 12 = s.tfld (oRec c 0) 0 12 := congrArg (fun v : Word => fld v 0 12) hword
  have hused : (z.cap c).used ≤ (s.cap c).used + 16 := by
    rw [h.grew.used]
    split <;> omega
  have hfits := of_decide_eq_true hroom
  refine decide_eq_true ?_
  rw [hnsrc, harea]
  omega

theorem SegEnded.uncut (h : SegEnded c g e m s z) (hstream : s.recStream c = false) : z.capCut c = z :=
  State.capCut_plain ((congrArg (fun v : Word => bit v 30) (h.above (oRec c 0) (by unfold oRec; omega))).trans hstream)

/-- Where the marker has room, a segment closes; its record does where it was the last one of it. -/
theorem State.segClose_eq (hroom : s.capRoom c 16 = true) (hstop : (s.cap c).stopping = false) (hstream : s.recStream c = false)
    (h : SegEnded c g e m s (s.segEnded c g e)) : s.segClose c g e =
      (if s.recSegCnt c ≤ m.closed + 1 then (s.segEnded c g e).recEnd c false else s.segEnded c g e).capFinish c := by
  have hx : s.segClose c g e = if !s.capRoom c 16 then s.capFull c
      else
        let s3 := (s.segEnded c g e).capCut c
        let n := ((s3.cap c).rec'.map (·.closed)).getD 0
        (if !s.recStream c && decide (s.recSegCnt c ≤ n) then s3.recEnd c ((s3.cap c).stopping && (s3.cap c).segs.isEmpty && decide (g.cause = 3)) else s3).capFinish c := rfl
  rw [hx, hroom, if_neg (by decide)]
  dsimp only
  rw [h.uncut hstream, h.rec', h.grew.stopping, hstop, hstream]
  have hif : (!false && decide (s.recSegCnt c ≤ m.closed + 1)) = decide (s.recSegCnt c ≤ m.closed + 1) := Bool.true_and _
  have hclosed : ((some (m.afterSeg g e g.endWord)).map (·.closed)).getD 0 = m.closed + 1 := rfl
  rw [hclosed, hif]
  simp only [decide_eq_true_iff, Bool.false_and]

/-- The last segment's close but for its record's (R298). -/
theorem State.segClose_more (hroom : s.capRoom c 16 = true) (hstop : (s.cap c).stopping = false) (hstream : s.recStream c = false)
    (h : SegEnded c g e m s (s.segEnded c g e)) (hmore : m.closed + 1 < s.recSegCnt c) : s.segClose c g e = s.segEnded c g e := by
  rw [State.segClose_eq hroom hstop hstream h, if_neg (not_le.mpr hmore)]
  exact State.capFinish_going (h.grew.stopping.trans hstop)

/-- What a record that has closed with its last segment leaves. -/
structure RecEnded (c : Nat) (s z : State) : Prop where
  ctxs : z.ctxs = s.ctxs
  clear : s.Clear → z.Clear
  frame : (z.cap c).frame = (s.cap c).frame
  rec' : (z.cap c).rec' = none
  word : z.tabw (oRec c 14) = s.tabw (oRec c 14) + 1
  count : z.reg64 sAcq 0x074 = min (s.reg64 sAcq 0x074 + 1) (2 ^ 64 - 1)
  items : z.reg64 sAcq (writtenReg (s.recDie c)) = s.reg64 sAcq (writtenReg (s.recDie c))
  event : bit (z.reg (ra sAcq 0x008)) 0 = true

theorem State.recClose_ended (h : (s.cap c).rec' = some m) (ovf stopped : Bool) : RecEnded c s (s.recClose c ovf stopped) := by
  obtain ⟨y, hy, ⟨hput, hframe⟩, hrec⟩ := State.recClose_spec h ovf stopped
  have hword : (y.setTabN (oRec c 14) ((s.tabw (oRec c 14)).toNat + 1)).tabw (oRec c 14) = s.tabw (oRec c 14) + 1 := by
    refine (State.setTabw_tabw_same _ _ _).trans (BitVec.eq_of_toNat_eq ?_)
    rw [BitVec.toNat_ofNat, BitVec.toNat_add]
    rfl
  have hsame : (y.setTabN (oRec c 14) ((s.tabw (oRec c 14)).toNat + 1)).ctxs = s.ctxs ∧
      (y.setTabN (oRec c 14) ((s.tabw (oRec c 14)).toNat + 1)).caps = y.caps ∧
      (y.setTabN (oRec c 14) ((s.tabw (oRec c 14)).toNat + 1)).regs = s.regs := ⟨hput.filed.ctxs, rfl, hput.regs⟩
  rw [hy]
  generalize y.setTabN (oRec c 14) ((s.tabw (oRec c 14)).toNat + 1) = v at hword hsame ⊢
  obtain ⟨hctxs, hcaps, hregs⟩ := hsame
  have hside := (v.bump64_side sAcq 0x074 1).trans ((v.bump64 sAcq 0x074 1).evt_side sAcq 0)
  have hvcaps : ((v.bump64 sAcq 0x074 1).evt sAcq 0).caps = y.caps := by
    obtain ⟨_, _, _, _, _, hz⟩ := hside
    rw [hz]
    exact hcaps
  have hcap : ((v.bump64 sAcq 0x074 1).evt sAcq 0).cap c = y.cap c := congrArg (fun a => Sparse.get ({} : Cap) a c) hvcaps
  refine ⟨hside.ctxs.trans hctxs, fun hs => (hput.clear hs).of_caps hvcaps, (congrArg Cap.frame hcap).trans hframe, (congrArg Cap.rec' hcap).trans hrec,
    (State.tabw_congr hside.tab _).trans hword, ?_, ?_, State.evt_bit sAcq (by decide)⟩
  · rw [State.evt_reg64_of_ne _ _ _ (by decide) (by decide) (by decide) (by decide), State.reg64_bump64, State.reg64_congr hregs]
  · have hlt := writtenReg_lt (s.recDie c)
    have hge : 0x064 ≤ writtenReg (s.recDie c) := by
      unfold writtenReg
      split <;> decide
    rw [State.evt_reg64_of_ne _ _ _ (by unfold ra; omega) (by unfold ra; omega) (by unfold ra; omega) (by unfold ra; omega),
      State.bump64_reg64 (.inr hlt), State.reg64_congr hregs]

/-- The last segment of a record closes it as well, where its closing bytes have room. -/
theorem State.segClose_last (hroom : s.capRoom c 16 = true) (hstop : (s.cap c).stopping = false) (hstream : s.recStream c = false)
    (h : SegEnded c g e m s (s.segEnded c g e)) (hlast : s.recSegCnt c ≤ m.closed + 1) (hlong : s.capRoom c (80 + 128 * s.recNsrc c) = true) :
    s.segClose c g e = (s.segEnded c g e).recClose c false false := by
  have hended := State.recClose_ended h.rec' false false
  rw [State.segClose_eq hroom hstop hstream h, if_pos hlast, State.recEnd_room (h.capRoom hlong)]
  have hgoing : (((s.segEnded c g e).recClose c false false).cap c).stopping = (s.segEnded c g e |>.cap c).stopping :=
    congrArg (fun f => f.2.2.2.2.2) hended.frame
  exact State.capFinish_going (hgoing.trans (h.grew.stopping.trans hstop))

/-! ### The end of POST (R298) -/

theorem State.segmentEnd_none (hcross : (s.heng (s.recDie c)).crossing = []) (h : (s.cap c).segs = []) : s.segmentEnd c = s.crossLeft (s.recDie c) := by
  unfold State.segmentEnd
  dsimp only
  rw [State.crossDrain_left hcross, show (s.crossLeft (s.recDie c)).cap c = s.cap c from rfl, h]

theorem State.segmentEnd_headed (hcross : (s.heng (s.recDie c)).crossing = []) (hact : (s.cap c).active = true) (hfull : (s.cap c).full = false)
    (hsegs : (s.cap c).segs = [g]) (hg : g.headed = true) (he : g.tE = some e) :
    s.segmentEnd c = if s.capPast c (e - 1) = true ∧ ∀ i ∈ (s.cap c).inq, e ≤ i.phys then (s.crossLeft (s.recDie c)).capAdvance c e
      else s.crossLeft (s.recDie c) := by
  have hcap : (s.crossLeft (s.recDie c)).cap c = s.cap c := rfl
  unfold State.segmentEnd
  dsimp only
  rw [State.crossDrain_left hcross, hcap, hsegs]
  dsimp only
  rw [he]
  dsimp only
  rw [State.capPast_crossLeft hcross, State.headsPast_headed (s := s.crossLeft (s.recDie c)) hsegs hg, hact, hfull]
  refine if_congr ?_ rfl rfl
  rw [Bool.and_eq_true, Bool.not_eq_true', List.any_eq_false]
  simp

theorem State.capAdvance_close (hact : (s.cap c).active = true) (hfull : (s.cap c).full = false)
    (hsegs : (s.cap c).segs = [g]) (hg : g.headed = true) (he : g.tE = some e) (hclosed : ((s.segClose c g e).cap c).segs = []) :
    s.capAdvance c e = s.segClose c g e := by
  have hfirst : s.headDue c e = s.segClose c g e := by
    rw [State.headDue_headed hsegs hg he, hact, hfull, if_neg (by decide), if_pos le_rfl]
  rw [State.capAdvance_eq, hsegs]
  exact (congrArg (fun z : State => z.headDue c e) hfirst).trans (State.headDue_none hclosed e)

theorem Rec.afterSeg_span (h : m.sols = []) (g : Seg) (e : Int) (word : Nat) : (m.afterSeg g e word).span = m.span + (e - g.tS) := by
  have hx : (m.afterSeg g e word).span =
      (if m.sols.any fun x => decide (m.lastE < x) && decide (x ≤ e) then 0 else m.span) +
        (e - max g.tS ((m.sols.filter fun a => decide (a ≤ e)).foldl max g.tS)) := rfl
  rw [hx, h]
  exact congrArg (fun a => m.span + (e - a)) (max_self g.tS)

/-- What SEGMENT_POST_END leaves of a segment that closes, and of its record. -/
def State.PostEnded (s : State) (c : Nat) (g : Seg) (e : Int) (m : Rec) (z : State) : Prop :=
  (z.cap c).segs = [] ∧ (z.cap c).inq = (s.cap c).inq ∧ (z.cap c).ring = (s.cap c).ring ∧ (z.cap c).active = true ∧
    z.reg64 sAcq (writtenReg (s.recDie c)) = min (s.reg64 sAcq (writtenReg (s.recDie c)) + 1) (2 ^ 64 - 1) ∧
    (m.closed + 1 < s.recSegCnt c → z.tabw (oRec c 14) = s.tabw (oRec c 14) ∧ ∃ m', (z.cap c).rec' = some m' ∧
      m'.closed = m.closed + 1 ∧ (m.sols = [] → m'.span = m.span + (e - g.tS)) ∧ m'.lastE = e ∧ m'.bytes = m.bytes + 16) ∧
    (s.recSegCnt c ≤ m.closed + 1 → (z.cap c).rec' = none ∧ z.tabw (oRec c 14) = s.tabw (oRec c 14) + 1 ∧
      z.reg64 sAcq 0x074 = min (s.reg64 sAcq 0x074 + 1) (2 ^ 64 - 1) ∧ bit (z.reg (ra sAcq 0x008)) 0 = true)

/-- A segment that closes with its marker, and with its record where it was the last one. -/
theorem State.segClose_ended (hset : s.Settled) (hact : (s.cap c).active = true) (hsegs : (s.cap c).segs = [g]) (hrec : (s.cap c).rec' = some m)
    (hstop : (s.cap c).stopping = false) (hstream : s.recStream c = false) (hroom : s.capRoom c 16 = true)
    (hlong : m.closed + 1 < s.recSegCnt c ∨ s.capRoom c (80 + 128 * s.recNsrc c) = true) :
    (s.segClose c g e).Settled ∧ s.PostEnded c g e m (s.segClose c g e) := by
  have hended := State.segEnded_spec (e := e) hsegs hrec
  have hword : (s.segEnded c g e).tabw (oRec c 14) = s.tabw (oRec c 14) := hended.above _ (by unfold oRec; omega)
  by_cases hmore : m.closed + 1 < s.recSegCnt c
  · rw [State.segClose_more hroom hstop hstream hended hmore]
    exact ⟨hset.of_clear (hended.clear hset.1) hended.ctxs, hended.segs, hended.grew.inq, hended.grew.ring, hended.grew.active.trans hact, hended.count,
      fun _ => ⟨hword, _, hended.rec', rfl, fun hsols => Rec.afterSeg_span hsols _ _ _, rfl, rfl⟩, fun hle => absurd hmore (not_lt.mpr hle)⟩
  · rw [State.segClose_last hroom hstop hstream hended (not_lt.mp hmore) (hlong.resolve_left hmore)]
    obtain ⟨hctxs, hclear, hframe, hnone, hnext, hcount, hitems, hevent⟩ := State.recClose_ended hended.rec' false false
    have hdie : (s.segEnded c g e).recDie c = s.recDie c := hended.above.recDie c
    generalize (s.segEnded c g e).recClose c false false = z at *
    rw [hdie] at hitems
    refine ⟨hset.of_clear (hclear (hended.clear hset.1)) (hctxs.trans hended.ctxs), (congrArg (fun f => f.2.2.1) hframe).trans hended.segs,
      (congrArg (fun f => f.1) hframe).trans hended.grew.inq, (congrArg (fun f => f.2.1) hframe).trans hended.grew.ring,
      ((congrArg (fun f => f.2.2.2.1) hframe).trans hended.grew.active).trans hact, hitems.trans hended.count, fun hlt => absurd hlt hmore,
      fun _ => ⟨hnone, ?_, ?_, hevent⟩⟩
    · rw [hnext, hword]
    · rw [hcount, hended.records]

theorem records_still (hpow : s.Powered) (hset : s.Settled) (hold : Sparse.get [] s.oldWords c = []) (hcross : (s.heng (s.recDie c)).crossing = [])
    (h : (s.cap c).segs = [] ∨ ∃ g e, (s.cap c).active = true ∧ (s.cap c).segs = [g] ∧ g.headed = true ∧ g.tE = some e ∧
      ((s.advance t).capPast c (e - 1) = false ∨ ∃ i ∈ (s.cap c).inq, i.phys < e)) :
    Answers (.segmentPostEnd t c) s fun s' => s'.cap c = s.cap c ∧ s'.regs = s.regs := by
  refine answers_crossLeft (die := s.recDie c) hpow hset hold (exec_segmentPostEnd t c s) ?_
  rcases h with hnone | ⟨g, e, hact, hsegs, hg, he, hwait⟩
  · exact State.segmentEnd_none (s := s.advance t) hcross hnone
  · refine (State.segmentEnd_headed (s := s.advance t) hcross hact (hset.clear.cap c) hsegs hg he).trans (if_neg ?_)
    rintro ⟨hpast, hall⟩
    rcases hwait with hno | ⟨i, hi, hlt⟩
    · exact Bool.false_ne_true (hno.symm.trans hpast)
    · exact not_le.mpr hlt (hall i hi)

theorem records_closed (hpow : s.Powered) (hset : s.Settled) (hold : Sparse.get [] s.oldWords c = []) (hcross : (s.heng (s.recDie c)).crossing = [])
    (hact : (s.cap c).active = true) (hsegs : (s.cap c).segs = [g]) (hg : g.headed = true) (he : g.tE = some e) (hrec : (s.cap c).rec' = some m)
    (hstop : (s.cap c).stopping = false) (hstream : s.recStream c = false) (hpast : (s.advance t).capPast c (e - 1) = true)
    (hall : ∀ i ∈ (s.cap c).inq, e ≤ i.phys) (hroom : s.capRoom c 16 = true)
    (hlong : m.closed + 1 < s.recSegCnt c ∨ s.capRoom c (80 + 128 * s.recNsrc c) = true) :
    Answers (.segmentPostEnd t c) s fun s' => s.PostEnded c g e m s' := by
  have hleft : ((s.advance t).crossLeft (s.recDie c)).Settled := hset.of_eq rfl rfl
  obtain ⟨hsettled, hended⟩ := State.segClose_ended (s := (s.advance t).crossLeft (s.recDie c)) (e := e) hleft hact hsegs hrec hstop hstream hroom hlong
  have hx : (s.advance t).segmentEnd c = ((s.advance t).crossLeft (s.recDie c)).segClose c g e :=
    (State.segmentEnd_headed (s := s.advance t) hcross hact (hset.clear.cap c) hsegs hg he).trans ((if_pos ⟨hpast, hall⟩).trans
      (State.capAdvance_close (s := (s.advance t).crossLeft (s.recDie c)) hact (hset.clear.cap c) hsegs hg he hended.1))
  refine answers_of_settled hpow (exec_segmentPostEnd t c s) hold ?_ fun l => ?_
  · rw [hx]
    exact hsettled
  · rw [hx]
    exact hended

/-! ### A trigger opens a segment (R298) -/

/-- The segment that an accepted trigger opens. -/
def State.segOpened (s : State) (c : Nat) (x : Stamp) (w2 : Option Nat) (forced : Bool) : Seg :=
  let tS := x.phys - 2000 * (s.recPre c : Int)
  { trig := x, word2 := w2, tS := tS, preFrom := if 2000 * (s.solEdge : Int) ≤ x.phys then max tS (2000 * (s.solEdge : Int)) else tS
    tE := if s.recPost c = 0 then none else some (x.phys + 2000 * (s.recPost c : Int)), forced := forced
    overlapPre := (s.cap c).opened && (match (s.cap c).tR with
      | some r => decide (tS < r)
      | none => true)
    retrigOpen := false, accepted := (s.tabw (oCtx c 33)).toNat }

theorem State.capTrigger_opens (hact : (s.cap c).active = true) (hstop : (s.cap c).stopping = false) (hfull : (s.cap c).full = false)
    (hstream : s.recStream c = false) (a : Stamp) (w2 : Option Nat) (forced : Bool) :
    s.capTrigger c a w2 forced false = s.setCap c { s.cap c with
      segs := (s.cap c).segs ++ [s.segOpened c a w2 forced], opened := true
      tR := (s.segOpened c a w2 forced).tE.map (· + rearmLen), rearmed := false } := by
  refine if_neg ?_
  rw [hact, hstop, hfull, hstream]
  decide

/-- Settles O60: the re-arm, STREAM messages, the oldest item, the end of POST, and a trigger's segment. -/
theorem records : Obligations.Records := by
  intro s t c hpow hset hold u k written items
  obtain ⟨hstill, hsent⟩ := records_stream s t c hpow hset hold
  obtain ⟨hrest, hrearm⟩ := records_rearm s t c hpow
  refine ⟨hrest, hrearm, ⟨fun h => hstill (h.imp id (Or.imp id fun hno => not_or.mpr hno)), hsent⟩, fun hcross => ⟨fun hidle => ?_,
    fun i r hact hinq hwait => ?_, fun i r hact hinq hpast hsegs => ?_, fun i r g e hact hinq hpast hsegs hg hS he hE hkind hstream => ?_,
    fun hnone => ?_, fun g e m hsegs he hg hact hstop hrec hstream => ⟨fun hwait => ?_, fun hpast hall hroom hlong => ?_⟩⟩,
    fun x w2 forced hact hstop hfull hstream => ?_⟩
  · exact records_waits hpow hset hold hcross (.inl hidle)
  · exact records_waits hpow hset hold hcross (.inr ⟨i, r, hact, hinq, hwait⟩)
  · exact records_outside hpow hset hold hcross hact hinq hpast hsegs
  · have hx := State.recordItem_inside (s := u) hset.1 hcross hact hinq hpast hsegs hg hS he hE
    exact ⟨fun hroom => records_written hpow hset hold hx hact hsegs hg hkind hstream hroom,
      fun hroom hrun => records_crowded hpow hset hold hx hkind hroom hrun⟩
  · exact records_still hpow hset hold hcross (.inl hnone)
  · exact records_still hpow hset hold hcross (.inr ⟨g, e, hact, hsegs, hg, he, hwait⟩)
  · exact records_closed hpow hset hold hcross hact hsegs hg he hrec hstop hstream hpast hall hroom hlong
  · have hcap := (congrArg (fun z : State => z.cap c) (State.capTrigger_opens hact hstop hfull hstream x w2 forced)).trans (State.setCap_same _ _ _)
    exact ⟨s.segOpened c x w2 forced, congrArg Cap.segs hcap, rfl, rfl, rfl, rfl, rfl, congrArg Cap.opened hcap, congrArg Cap.tR hcap,
      (congrArg Cap.inq hcap).trans rfl, (congrArg Cap.ring hcap).trans rfl⟩

end Sys2Proof.Machine
end
